-- ==== Sys2Proof/Word.lean ====
section
/-!
DEFINITION. Words, bytes and canonical sparse tables.
Bytes and register words are bit vectors (R7, R386); counts, indices and identifiers are Nat.
-/

namespace Sys2Proof

/-- One byte (R7). -/
abbrev Byte := BitVec 8
/-- One 32-bit register word (R386). -/
abbrev Word := BitVec 32

/-- 2^k. -/
abbrev pow2 (k : Nat) : Nat := 2 ^ k

/-- Bits [hi:lo] of a Nat (R7). -/
def bitsOf (x hi lo : Nat) : Nat := (x >>> lo) % pow2 (hi + 1 - lo)

/-- Bit [i] of a Nat (R7). -/
def bitOf (x i : Nat) : Bool := x.testBit i

/-- Replace bits [hi:lo] of a Nat by a value cut to that width. -/
def putBits (x hi lo v : Nat) : Nat :=
  x - bitsOf x hi lo * pow2 lo + (v % pow2 (hi + 1 - lo)) * pow2 lo

/-- A Bool as a bit. -/
def b2n (b : Bool) : Nat := if b then 1 else 0

/-- Little-endian value of bytes (R7). -/
def leNat : List Byte → Nat
  | [] => 0
  | b :: bs => b.toNat + 256 * leNat bs

/-- Little-endian bytes of a value, n of them (R7). -/
def leBytes : Nat → Nat → List Byte
  | 0, _ => []
  | n + 1, v => BitVec.ofNat 8 v :: leBytes n (v / 256)

/-- Big-endian bytes of a value, n of them. -/
def beBytes (n v : Nat) : List Byte := (leBytes n v).reverse

/-- Big-endian value of bytes. -/
def beNat (bs : List Byte) : Nat := leNat bs.reverse

/-- n bytes of bs from offset off; bytes past the end read as zero. -/
def slice (bs : List Byte) (off n : Nat) : List Byte :=
  let t := (bs.drop off).take n
  t ++ List.replicate (n - t.length) 0

/-- Little-endian field of n bytes at offset off; bytes past the end read as zero. -/
def field (bs : List Byte) (off n : Nat) : Nat := leNat (slice bs off n)

/-- Byte at an offset, zero past the end. -/
def byteAt (bs : List Byte) (off : Nat) : Nat := (bs.getD off 0).toNat

/-- Pad with zeros on the right to n bytes. -/
def padTo (n : Nat) (bs : List Byte) : List Byte := bs ++ List.replicate (n - bs.length) 0

/-- ⌈a ÷ b⌉. -/
def ceilDiv (a b : Nat) : Nat := (a + b - 1) / b

/-- Saturating 32-bit count (R41, R115). -/
def sat32 (n : Nat) : Nat := min n 0xFFFFFFFF

/-- Two's complement of w bits, as an Int. -/
def toSigned (w v : Nat) : Int := if v % pow2 w < pow2 (w - 1) then (v % pow2 w : Nat) else (v % pow2 w : Nat) - (pow2 w : Nat)

/-- An Int as w bits of two's complement. -/
def ofSigned (w : Nat) (i : Int) : Nat := (i % (pow2 w : Nat)).toNat

/-! ### Sparse tables: lists of (key, value) with strictly rising keys and no entry equal to the default -/

/-- The value of a key; an unlisted key reads as the default. -/
def spGet {α : Type} (d : α) : List (Nat × α) → Nat → α
  | [], _ => d
  | (k, v) :: t, x => if x = k then v else if x < k then d else spGet d t x

/-- Write a key, keeping the canonical form: writing the default removes the entry. -/
def spSet {α : Type} [DecidableEq α] (d : α) : List (Nat × α) → Nat → α → List (Nat × α)
  | [], x, v => if v = d then [] else [(x, v)]
  | (k, w) :: t, x, v =>
    if x = k then (if v = d then t else (x, v) :: t)
    else if x < k then (if v = d then (k, w) :: t else (x, v) :: (k, w) :: t)
    else (k, w) :: spSet d t x v

/-- The canonical form. -/
def spWf {α : Type} [DecidableEq α] (d : α) : List (Nat × α) → Bool
  | [] => true
  | [(_, v)] => decide (v ≠ d)
  | (k, v) :: (k', v') :: t => decide (v ≠ d) && decide (k < k') && spWf d ((k', v') :: t)

/-- A keyed table without a default: the value of a key. -/
def tabGet {α : Type} (t : List (Nat × α)) (x : Nat) : Option α := (t.find? (fun p => p.1 == x)).map Prod.snd

/-- Insert or replace a key of a keyed table, in rising order. -/
def tabPut {α : Type} : List (Nat × α) → Nat → α → List (Nat × α)
  | [], x, v => [(x, v)]
  | (k, w) :: t, x, v =>
    if x = k then (x, v) :: t else if x < k then (x, v) :: (k, w) :: t else (k, w) :: tabPut t x v

/-- Remove a key of a keyed table. -/
def tabDel {α : Type} (t : List (Nat × α)) (x : Nat) : List (Nat × α) := t.filter (fun p => p.1 != x)

/-- Change the value of a key where it is present. -/
def tabMap {α : Type} (t : List (Nat × α)) (x : Nat) (f : α → α) : List (Nat × α) :=
  t.map (fun p => if p.1 = x then (p.1, f p.2) else p)

/-- Change the n-th element of a list. -/
def listMap {α : Type} : List α → Nat → (α → α) → List α
  | [], _, _ => []
  | a :: t, 0, f => f a :: t
  | a :: t, n + 1, f => a :: listMap t n f

/-- Write the n-th element, extending with a default. -/
def listPut {α : Type} (d : α) : List α → Nat → α → List α
  | [], 0, v => [v]
  | [], n + 1, v => d :: listPut d [] n v
  | _ :: t, 0, v => v :: t
  | a :: t, n + 1, v => a :: listPut d t n v

/-- Numbers lo, lo+1, …, lo+n−1. -/
def rangeFrom (lo n : Nat) : List Nat := (List.range n).map (lo + ·)

/-- Put a value in a rising list without repeats. -/
def setInsert : List Nat → Nat → List Nat
  | [], x => [x]
  | k :: t, x => if x = k then k :: t else if x < k then x :: k :: t else k :: setInsert t x

/-- The lowest number from 0 below the bound that a list does not hold. -/
def lowestFree (used : List Nat) (bound : Nat) : Option Nat := (List.range bound).find? (fun i => !used.contains i)

end Sys2Proof
end

