-- ==== Sys2Proof/Machine/SeqTypes.lean ====
section
/-!
DEFINITION. Plain data that commands carry as well as the state: pages and sequence records (chapters 03, 05), and the Eulin map (chapter 12).
-/

namespace Sys2Proof.Machine

open Sys2Proof

/-! ### Pages and sequences (chapters 03, 05) -/

/-- Page states (Table 5.3). -/
inductive PageState where
  | free
  | reserved
  | tail
  | sealed
  | shadowed
  | spilled
  | remote
  | tombstone
  deriving DecidableEq, Repr

/-- Location kinds (Table 5.10). -/
inductive LocKind where
  | tier0
  | tier1
  | pool
  | holder
  | shared
  | host
  deriving DecidableEq, Repr

/-- The K and V tile in one pair slot; an empty list where nothing is written. -/
structure Pair where
  /-- K tile bytes. -/
  k : List Byte
  /-- V tile bytes. -/
  v : List Byte
  deriving DecidableEq, Repr

/-- A page-table entry (Table 5.9) with the bytes of its slots. -/
structure Pte where
  /-- state. -/
  state : PageState
  /-- kind. -/
  kind : LocKind
  /-- moving. -/
  moving : Bool
  /-- lost. -/
  lost : Bool
  /-- rebuilt, 0–256. -/
  rebuilt : Nat
  /-- SHARED: the page group that aux names. -/
  group : Nat
  /-- TOMBSTONE: aux, the generation that moved the home. -/
  gen : Nat
  /-- POOL, HOLDER, TOMBSTONE: node ID of bytes 8–9. -/
  node : Nat
  /-- POOL, HOST: handle of bytes 12–19. -/
  handle : Nat
  /-- TIER0: four pair location words; TIER1: the pointer. -/
  locs : List Nat
  /-- The bytes of the four pair slots where they lie in this node's tiers. -/
  pairs : List Pair
  /-- The tier-1 copy: its pointer and its bytes. -/
  shadow : Option (Nat × List Pair)
  /-- check_k[0..3]. -/
  checkK : List Nat
  /-- check_v[0..3]. -/
  checkV : List Nat
  /-- Order in which the page entered its tier (R186). -/
  entered : Nat
  deriving DecidableEq, Repr

/-- A provisional set of a layer (R67–R69). -/
structure Prov where
  /-- The node's number of its VERIFY. -/
  verify : Nat
  /-- Base position p. -/
  base : Nat
  /-- Candidates: per candidate, per KV head, the conditioned K and V rows with their COND marks. -/
  rows : List (List ((List Nat × List Nat) × (Bool × Bool)))
  /-- Index of the tile sealed provisionally. -/
  tile : Option Nat
  /-- Spare tail buffers held (R125). -/
  spares : Nat
  /-- Count at which its VERIFY completed; none while it runs (R69). -/
  done : Option Nat
  deriving DecidableEq, Repr

/-- A tile being collected by a rebuild (R142): its rows so far. -/
structure Collect where
  /-- Tile index. -/
  tile : Nat
  /-- K rows with the COND mark of any. -/
  k : List (List Nat)
  /-- V rows. -/
  v : List (List Nat)
  /-- COND of K and V. -/
  cond : Bool × Bool
  deriving DecidableEq, Repr

/-- A head entry (Table 5.8) with its tail buffer and page-table entries. -/
structure HeadRec where
  /-- Committed rows of the K tail. -/
  tailK : List (List Nat)
  /-- Committed rows of the V tail. -/
  tailV : List (List Nat)
  /-- COND of the K part. -/
  condK : Bool
  /-- COND of the V part. -/
  condV : Bool
  /-- hflags.depth (R141). -/
  depth : Bool
  /-- Collections in progress (R142). -/
  collect : List Collect
  /-- Page-table entries by page index; an unlisted page is FREE. -/
  pages : List (Nat × Pte)
  deriving DecidableEq, Repr

/-- A layer descriptor. -/
structure LayerRec where
  /-- Len(l). -/
  len : Nat
  /-- Provisional set. -/
  prov : Option Prov
  /-- Rebuild positions of lost spans (R142). -/
  rebuildPos : List (Nat × Nat)
  /-- Spare tail buffers held by a rebuild (R142). -/
  rebuildSpares : Nat
  /-- Heads. -/
  heads : List HeadRec
  deriving DecidableEq, Repr

/-- A sequence record (Table 5.8). -/
structure SeqRec where
  /-- Order of its creation on this node. -/
  serial : Nat
  /-- Bucket of the sequence table. -/
  bucket : Nat
  /-- Slot in the bucket. -/
  slot : Nat
  /-- Tenant. -/
  tenant : Nat
  /-- sequence_id. -/
  sid : Nat
  /-- Class. -/
  cls : Nat
  /-- sflags.home. -/
  home : Bool
  /-- SHADOWED policy. -/
  shadowed : Bool
  /-- gather. -/
  gather : Bool
  /-- Shape word. -/
  shape : Nat
  /-- home_node. -/
  homeNode : Nat
  /-- Layers. -/
  layers : List LayerRec
  deriving DecidableEq, Repr

/-- A page group (R146): its record and its shared records [layer][head]. -/
structure GroupRec where
  /-- Tenant. -/
  tenant : Nat
  /-- Shape word. -/
  shape : Nat
  /-- Page index. -/
  page : Nat
  /-- Sequences that reference it. -/
  count : Nat
  /-- Shared records. -/
  ptes : List (List Pte)
  deriving DecidableEq, Repr

/-! ### The Eulin map (Table 12.1) -/

/-- Node states (Table 12.2). -/
inductive NodeState where
  | empty
  | candidate
  | spare
  | member
  | draining
  | dead
  | retired
  deriving DecidableEq, Repr

/-- Code of a node state. -/
def NodeState.code : NodeState → Nat
  | .empty => 0 | .candidate => 1 | .spare => 2 | .member => 3 | .draining => 4 | .dead => 5 | .retired => 6

/-- A node-table entry. -/
structure NodeEnt where
  /-- State. -/
  state : NodeState
  /-- Position x. -/
  x : Nat
  /-- Position y. -/
  y : Nat
  /-- Position z. -/
  z : Nat
  /-- Tray. -/
  tray : Nat
  /-- Slot in the tray; 16 is the spare's. -/
  slot : Nat
  /-- Stand-in flag. -/
  standIn : Bool
  /-- Identity digest, first 8 bytes. -/
  ident : Nat
  deriving DecidableEq, Repr

/-- A slice-table entry. -/
structure SliceEnt where
  /-- slot_base. -/
  base : Nat
  /-- slot_log2. -/
  log2 : Nat
  /-- flags: no action of Table 12.10 sets one, so they stay 0. -/
  flags : Nat
  deriving DecidableEq, Repr

/-- A membership entry (Table 12.3). -/
structure MembEnt where
  /-- Slice. -/
  slice : Nat
  /-- Bare share. -/
  bare : Nat
  /-- Tier-1 share. -/
  tier1 : Nat
  /-- Lendable share. -/
  lend : Nat
  /-- Program groups. -/
  pgroups : Nat
  /-- Edge links. -/
  edges : Nat
  deriving DecidableEq, Repr

/-- A pool-table entry. -/
structure PoolEnt where
  /-- Donor. -/
  donor : Nat
  /-- Mirror donor, or 0xFFFF. -/
  mirror : Nat
  /-- Borrower. -/
  borrower : Nat
  /-- Memory key. -/
  key : Nat
  /-- GiB. -/
  size : Nat
  /-- Slice whose lend share the loan is taken from: the one its borrower asked for (R304; log 45). -/
  slice : Nat
  deriving DecidableEq, Repr

/-- The map (R299). -/
structure MapData where
  /-- fabric_id. -/
  fabricId : Nat
  /-- Generation. -/
  gen : Nat
  /-- Effect frame. -/
  eff : Nat
  /-- Keeper IDs. -/
  keepers : List Nat
  /-- Leader term. -/
  term : Nat
  /-- Leader of the term. -/
  leader : Nat
  /-- Mode. -/
  mode : Nat
  /-- A mode change in the map: target and its frame E (R51). -/
  modeNext : Option (Nat × Nat)
  /-- Time root (R36). -/
  timeRoot : Option Nat
  /-- Relay sets of stand-ins: (spare, relays) (R267). -/
  relays : List (Nat × List Nat)
  /-- Node table. -/
  nodes : List (Nat × NodeEnt)
  /-- Slice of each class; an unlisted class is in slice 0. -/
  classes : List (Nat × Nat)
  /-- Slices. -/
  slices : List (Nat × SliceEnt)
  /-- Membership entries by node: (entry index, entry). -/
  members : List (Nat × List (Nat × MembEnt))
  /-- Home node by slot; an unlisted slot has none. -/
  homes : List (Nat × Nat)
  /-- Slots with the loss bit set, rising. -/
  loss : List Nat
  /-- Pool table. -/
  pools : List (Nat × PoolEnt)
  /-- Slots that g moves: (slot, from, to, from a dead node). -/
  moves : List (Nat × Nat × Nat × Bool)
  deriving DecidableEq, Repr

/-- One change of a PROPOSE or PREPARE (Table 12.4): action word, three arguments, proposer serial; the proposer and an extra key for LEND. -/
structure Change where
  /-- Action word. -/
  action : Nat
  /-- Argument 0. -/
  a0 : Nat
  /-- Argument 1. -/
  a1 : Nat
  /-- Argument 2. -/
  a2 : Nat
  /-- Proposer serial. -/
  serial : Nat
  /-- Proposer. -/
  proposer : Nat
  deriving DecidableEq, Repr

end Sys2Proof.Machine
end

