-- ==== Sys2Proof/Syntax.lean ====
section
/-!
DEFINITION. The commands of the block: one constructor per row of spec/opcode_table.json (R6–R437 name the step of each), with its operands.
An operand is what the surroundings bring: the bytes of a message or a frame, the port of a register access, an address, a reading, or the outcome of a check made by a named outside standard (a signature, a tag, an analogue training).
-/

namespace Sys2Proof

/-- Packet header fields of a Wecia packet that carry link state (Table 15.1), and whether it is good (R376). -/
structure HostHdr where
  /-- lseq. -/
  lseq : Nat
  /-- ack. -/
  ack : Nat
  /-- Posted units returned, cumulative mod 4,096. -/
  posted : Nat
  /-- Non-posted requests returned, cumulative mod 256. -/
  nonPosted : Nat
  /-- Codewords that could not be corrected since the last packet arrived (R245, R371). -/
  fecBad : Nat
  deriving DecidableEq, Repr

/-- Why HOST_BAD_PACKET is no packet the node may use (R373, R376, Table 15.3). -/
inductive HostBad where
  /-- Its crc fails, or its type is none of Table 15.2; the codewords that could not be corrected. -/
  | crc (fecBad : Nat)
  /-- Its lseq is not the next one; the codewords that could not be corrected. -/
  | outOfOrder (fecBad : Nat)
  /-- A good packet of a type that only the node sends: MWR (1), MRD (2) or MSG (9), with its function, its tag and its payload in units of 32 bytes. -/
  | wrongWay (hdr : HostHdr) (type fn tag units : Nat)
  deriving DecidableEq, Repr

/-- Whether the two signatures of an object verify, each by its own standard, under the key that the object's rule names (R349). -/
structure SigPair where
  /-- ES384. -/
  ec : Bool
  /-- HSS-LMS. -/
  hss : Bool
  deriving DecidableEq, Repr

/-- A register port and the role it carries (R363, R386): I3C is the operator; a Wecia function carries its own role. -/
inductive Port where
  | i3c
  /-- An RRD or RWR packet: its link fields, function and tag (Tables 15.1, 15.2). -/
  | wecia (hdr : HostHdr) (fn tag : Nat)
  deriving DecidableEq, Repr

/-- How a request reached the node (R76, R91, R314, R381). -/
inductive Via where
  /-- A REQ-class packet on a queue pair. -/
  | qp
  /-- A submission entry of a host ring: its index, reply_addr and reply_cap (Table 15.5). -/
  | ring (subIndex replyAddr replyCap : Nat)
  /-- A FWD-class packet from another node on a system queue pair (R314, R316), with the class and urgency of the first arrival. -/
  | fwd (cls : Nat)
  deriving DecidableEq, Repr

/-- The result of a patrol read or an access under ECC (R179). -/
inductive EccOutcome where
  | clean
  | corrected
  | uncorrectable
  deriving DecidableEq, Repr

/-- The delivery of a request message: the context it arrived on and the packet's transport fields (Table 11.2). -/
structure Arrival where
  /-- How it came. -/
  via : Via
  /-- QPN, or ring context number. -/
  ctx : Nat
  /-- PSN of the message. -/
  psn : Nat
  /-- Transport partition. -/
  part : Nat
  /-- Delivered length: the packet's `length` or the entry's `msg_len` (R56). -/
  length : Nat
  /-- tflags.resend. -/
  resend : Bool
  /-- src of the packet (Table 10.4). -/
  src : Nat
  /-- sqp. -/
  sqp : Nat
  /-- What ECC finds in the blocks that a remote read meets: the offset of a block in the region's bytes read, and the outcome (R179, R284). -/
  ecc : List (Nat × EccOutcome)
  deriving DecidableEq, Repr

/-- A corruption of a tile read: the job or tile it strikes, K or V, a byte offset and the bits flipped. -/
structure Flip where
  /-- Index of the tile entry in the record or job list. -/
  idx : Nat
  /-- False: K tile; true: V tile. -/
  isV : Bool
  /-- Byte offset in the tile. -/
  off : Nat
  /-- Bits flipped. -/
  bits : Byte
  deriving DecidableEq, Repr

/-- A node link: one of the 64 fabric links, or the Wecia Link. -/
inductive LinkRef where
  | fabric (n : Nat)
  | host
  deriving DecidableEq, Repr

/-- A link frame as received (Table 10.3), with its payload as decrypted. -/
structure Frame where
  /-- vc. -/
  vc : Nat
  /-- len in 64-byte units. -/
  len : Nat
  /-- epoch. -/
  epoch : Nat
  /-- fseq. -/
  fseq : Nat
  /-- ack. -/
  ack : Nat
  /-- tx_count. -/
  txCount : Nat
  /-- credit_half. -/
  half : Nat
  /-- lflags. -/
  lflags : Nat
  /-- Ten cumulative credit counts. -/
  credits : List Nat
  /-- Payload as decrypted. -/
  payload : List Byte
  /-- The AES-256-GCM tag verified under the key of `epoch` (R247). -/
  tagOk : Bool
  /-- Symbols corrected and codewords not correctable while it arrived (Table 10.18). -/
  fecCorrected : Nat
  /-- Codewords not correctable. -/
  fecBad : Nat
  deriving DecidableEq, Repr

/-- A transport packet for a queue pair (Tables 10.4, 11.2). -/
structure Tpkt where
  /-- Source node or endpoint ID. -/
  src : Nat
  /-- dqp. -/
  dqp : Nat
  /-- tkind. -/
  tkind : Nat
  /-- psn. -/
  psn : Nat
  /-- tflags. -/
  tflags : Nat
  /-- part. -/
  part : Nat
  /-- hint. -/
  hint : Nat
  /-- sqp. -/
  sqp : Nat
  /-- The message. -/
  msg : List Byte
  deriving DecidableEq, Repr

/-- Readings of one minute (R332, R390, R415, R424): empty lists mean no change. -/
structure MinuteEnv where
  /-- Slack of the 128 monitors, ps (R332). -/
  slack : List Int
  /-- 176 temperature readings in 1/16 °C (Table 17.19). -/
  temps : List Int
  /-- Feed A and B voltage in 10 mV. -/
  feedA : Nat
  /-- Feed B. -/
  feedB : Nat
  /-- Copies whose parity the scan finds wrong: address and copy (0 staged, 1 pending, 2 live) (R390). -/
  parity : List (Nat × Nat)
  /-- Hub cores whose SRAM corrected an error, one entry an error (Table 13.3). -/
  sramFixed : List Nat
  /-- HBM4 stacks whose interface retried a transfer, one entry a retry (Table 13.3). -/
  retried : List Nat
  /-- Bytes that the control cores have added to their journal since the last minute (R335). -/
  journal : Nat
  /-- The security block has ended the signing under way (R351; Case 14.1). -/
  signed : Bool
  deriving DecidableEq, Repr

/-- Facts of one Midnight. -/
structure MidnightEnv where
  /-- Average input power of the frame, W (Table 17.15). -/
  powerAvg : Nat
  /-- Largest 1 µs average, W. -/
  powerMax : Nat
  /-- The counter store answered within its limits where a leaf block had to begin (R351). -/
  counterOk : Bool
  deriving DecidableEq, Repr

/-- What the security block found of a container (R215). -/
structure LoadFacts where
  /-- Its signatures (R349). -/
  sig : SigPair
  /-- The node is of the device set that a program container's set_id names (R215); a weight object's own block tells for itself (R214). -/
  member : Bool
  deriving DecidableEq, Repr

/-- What the security block found of a token in SEC_DEBUG (R348, R364). -/
structure TokenFacts where
  /-- Its signatures, under the vendor's key (R349, R362). -/
  sig : SigPair
  deriving DecidableEq, Repr

/-- A message of the link handshake as it comes (Table 14.5): HS1 is all but the last two fields, HS2 the ciphertext, HS3 the code. -/
structure HsMsg where
  /-- fabric_id. -/
  fabric : Nat
  /-- Generation in effect; 0 for a candidate. -/
  gen : Nat
  /-- Sender's node ID or endpoint ID. -/
  sender : Nat
  /-- Its link number. -/
  linkNo : Nat
  /-- Its certificate. -/
  cert : List Byte
  /-- Its ephemeral public key. -/
  eph : List Byte
  /-- The signatures of its certificate and of every link of the chain above it. -/
  chain : SigPair
  /-- ML-KEM-1024 ciphertext. -/
  cipher : List Byte
  /-- Confirmation. -/
  mac : List Byte
  deriving DecidableEq, Repr

/-- What Sunrise finds at the end of the step it is in (Table 16.1, R402): facts of the outside that the step's own rule tests. -/
structure SunriseFacts where
  /-- Step 1: rail outside its window, in the order core, SRAM, I/O, HBM4, LPDDR6. -/
  badRail : Option Nat
  /-- Step 5: REFCLK is present and every PLL locked. -/
  refclkOk : Bool
  /-- Step 6: the flash answers discovery with 8D-8D-8D and reads complete (R398). -/
  flashOk : Bool
  /-- Step 4: the start-up state of the PUF SRAM, as a power-on gave it (R345). -/
  puf : List Byte
  /-- Replay-protected counters whose answers fail their HMAC, or do not advance (R351, R402). -/
  badCounters : List Nat
  /-- Check 2: the firmware's signatures, under the product key (R400). -/
  fwSig : SigPair
  /-- Check 4: the configuration image's signatures, under the operator keys it carries (R400). -/
  cfgSig : SigPair
  /-- Step 8: HBM4 stacks that failed training. -/
  badHbm : List Nat
  /-- Step 8: LPDDR6 stacks that failed training. -/
  badLpddr : List Nat
  deriving DecidableEq, Repr

/-- A walker table read (R138): which copy answered. -/
inductive TableRead where
  | ok
  /-- The primary failed, the mirror answered. -/
  | mirror
  /-- Both copies of a table failed: the first and last span that its entries locate, four of a leaf table and all 4,096 of a record or layer descriptor (R138–R141). -/
  | lost (first last : Nat)
  deriving DecidableEq, Repr

/-- What goes with an ordinary access (R168). -/
structure AccessData where
  /-- Bytes of a write. -/
  bytes : List Byte
  /-- What ECC finds where a read meets tier 1 (R179). -/
  ecc : EccOutcome
  deriving DecidableEq, Repr

/-- How a refill of a tile in SRAM ends (R217). -/
structure Refill where
  /-- The tier-0 working copy passed; else it failed too (R196). -/
  ok : Bool
  /-- The group whose segment met the error. -/
  group : Nat
  /-- The core of the group whose SRAM it is (Table 13.3). -/
  core : Nat
  deriving DecidableEq, Repr

/-- What a JOIN brings beside the position it names (Table 12.4, R320, R355). -/
structure JoinFacts where
  /-- The device certificate. -/
  cert : List Byte
  /-- The signatures of the certificate and of every link of its chain up to the Abalia root. -/
  chain : SigPair
  /-- The report. -/
  report : List Byte
  /-- The signatures of the report, under the certificate's keys. -/
  sig : SigPair
  /-- The twelve sibling hashes of the report's slot 4,095 (log 146). -/
  path : List (List Byte)
  /-- The position seen in training: of each link its number, the partner's ID and the partner's link (R243). -/
  seen : List (Nat × Nat × Nat)
  deriving DecidableEq, Repr

/-- The CTL header of a map message (R306). -/
structure CtlHdr where
  /-- version. -/
  version : Nat
  /-- fabric_id. -/
  fabricId : Nat
  /-- Sender ID. -/
  sender : Nat
  /-- Term. -/
  term : Nat
  /-- Generation of the header: the one in effect at the sender. -/
  gen : Nat
  /-- Generation that the body of a PREPARE, an ACCEPT or a COMMIT names (Table 12.4). -/
  bodyGen : Nat
  /-- Term that the body of a VOTE_REQ or a VOTE names (Table 12.4). -/
  bodyTerm : Nat
  deriving DecidableEq, Repr

/-- The commands. -/
inductive Instr where
  -- time
  | ppsInEdge (sixteenths : Nat)
  | ppsMissing
  | timeInMessage (bytes : List Byte) (sinceEdge : Nat)
  | timeInLoss
  | timeFrame (link : Nat) (f : Frame) (tick part : Nat)
  | minuteStart (env : MinuteEnv)
  | midnight (env : MidnightEnv)
  | modeClockSwitch
  | hbmRefresh (bg : Nat)
  | lpddrRefresh
  -- registers
  | registerWrite (port : Port) (addr : Nat) (values : List Nat)
  | commitGo (port : Port) (mask : Nat)
  | eventClear (port : Port) (addr value : Nat)
  | parityRestore (addr copy : Nat) (ok : Bool)
  | modeProposal (mode lead : Nat)
  | loadProgram (src len : Nat)
  | loadWeightObject (src len : Nat)
  | unload (target slot : Nat)
  | loadDone (facts : LoadFacts)
  | ruleInsert (slot position value care word frame : Nat)
  | ruleDelete (slot position frame : Nat)
  | tcamScrub (flips : List (Nat × Nat))
  | automataAudit (bad : List (Nat × Nat)) (repaired : Bool)
  | cascadeFrame (bytes : List Byte)
  | cascadeReturn (bytes : List Byte)
  | cascadeTimeout (serial : Nat)
  | createQp (qpn : Nat) (image : List Byte)
  | modifyQp (qpn : Nat) (image : List Byte)
  | destroyQp (qpn : Nat)
  | readQp (qpn : Nat)
  | registerRegion (index : Nat) (entry : List Byte)
  | deregisterRegion (index : Nat)
  | pin (qpn : Nat)
  | unpin (qpn : Nat)
  -- proposals
  | moveSlots (first count target : Nat)
  | setMembership (arg0 arg1 arg2 : Nat)
  | setClass (cls slice : Nat)
  | setSlice (slice arg : Nat)
  | drain (id : Nat)
  | retire (id : Nat)
  | standIn (id : Nat)
  | returnNode (id : Nat)
  | clearLoss (first count : Nat)
  | declareDead (id : Nat)
  -- security and flash
  | attestQueue (nonce : List Byte)
  | actOnToken (facts : TokenFacts)
  | reportDelivery
  | flashRead (port : Port) (addr lenM1 : Nat)
  | flashErase (port : Port) (addr : Nat)
  | flashProgram (port : Port) (addr lenM1 : Nat)
  | flashDone
  | flashDeviceTimeout
  | i3cEntdaa (addr : Nat)
  -- host
  | dbell (hdr : HostHdr) (fn ctx index : Nat)
  | nwr (hdr : HostHdr) (fn tag addr : Nat) (data : List Byte)
  | nrd (hdr : HostHdr) (fn tag addr count : Nat) (ecc : List (Nat × EccOutcome))
  -- count as Table 15.1 lays it out for a CPL: the status, and the bytes still to come for the tag
  | hostCompletion (hdr : HostHdr) (tag count : Nat) (data : List Byte)
  | hostReadTimeout (tag : Nat)
  | hostNak (hdr : HostHdr)
  | hostResendTimeout
  | msgModeration (ring : Nat)
  | evidenceRingWrite
  -- links
  | linkSignalDetect (link : LinkRef)
  | linkTrainDone (link : LinkRef) (lowOk highOk : Bool)
  | linkAlignDone (link : LinkRef) (partner partnerLink fabric : Nat)
  | hs1 (link : Nat) (m : HsMsg)
  | hs2 (link : Nat) (m : HsMsg)
  | hs3 (link : Nat) (m : HsMsg)
  | linkStateTimeout (link : LinkRef)
  | laneLockLoss (link : LinkRef)
  | dataFrame (link : Nat) (f : Frame)
  | idleFrame (link : Nat) (f : Frame)
  | linkResendTimeout (link : Nat)
  | frameTransmit (link : Nat)
  | directionHoldExpiry (dir : Nat)
  -- transport
  | transportAck (p : Tpkt)
  | transportNak (p : Tpkt)
  | transportNotReady (p : Tpkt)
  | notReadyWaitExpiry (qpn : Nat)
  | transportResponse (p : Tpkt)
  | qpRetryTimeout (qpn : Nat)
  -- requests
  | append (arr : Arrival) (msg : List Byte)
  | attend (arr : Arrival) (msg : List Byte)
  | appendAttend (arr : Arrival) (msg : List Byte)
  | verify (arr : Arrival) (msg : List Byte)
  | commit (arr : Arrival) (msg : List Byte)
  | bind (arr : Arrival) (msg : List Byte)
  | publish (arr : Arrival) (msg : List Byte)
  | unpublish (arr : Arrival) (msg : List Byte)
  | release (arr : Arrival) (msg : List Byte)
  | spanWork (arr : Arrival) (msg : List Byte)
  | run (arr : Arrival) (msg : List Byte)
  | projectAttend (arr : Arrival) (msg : List Byte)
  | rread (arr : Arrival) (msg : List Byte)
  | rwrite (arr : Arrival) (msg : List Byte)
  | rwriteTiles (arr : Arrival) (msg : List Byte)
  | attest (arr : Arrival) (msg : List Byte)
  | badOpcode (arr : Arrival) (msg : List Byte)
  -- calendars and computation
  | calendarRelease (cls : Nat)
  | sharedRelease
  | tableReadDone (rid : Nat) (outcome : TableRead)
  | attendBurst (unit : Nat)
  | scrubBurst (unit : Nat) (flips : List Flip)
  | moveBurst (unit : Nat) (flips : List Flip)
  | burstResume (unit : Nat)
  | urgentPreempt (unit : Nat)
  | ordinaryAccess (unit : Nat) (source : Nat) (isWrite : Bool) (addr : Nat) (data : AccessData)
  | accessWindow (unit n : Nat)
  | vesperReturnRecord (unit : Nat) (flips : List Flip) (wrong : Bool)
  | tileRereadDone (rid : Nat) (flips : List Flip)
  | returnRecordMissing (unit : Nat)
  | oldLocationFree (id : Nat)
  | provisionalExpiry (tenant sid layer : Nat)
  | reservationDone (rid : Nat)
  | reservationTimeout (rid : Nat)
  | spareTailGrant (rid : Nat)
  | spareWaitTimeout (rid : Nat)
  | stallResume (rid : Nat)
  | replySend (rid : Nat)
  | tier1Patrol (addr : Nat) (outcome : EccOutcome)
  | weightRepairTimeout (obj tile : Nat)
  | sramRefillDone (obj tile : Nat) (how : Refill)
  | segmentEnd (group : Nat)
  -- program steps
  | stepIn (core : Nat) (w : Nat)
  | stepOut (core : Nat) (w : Nat)
  | matmul (core : Nat) (w : Nat)
  | add (core : Nat) (w : Nat)
  | mul (core : Nat) (w : Nat)
  | rmsnorm (core : Nat) (w : Nat)
  | layernorm (core : Nat) (w : Nat)
  | funcSigmoid (core : Nat) (w : Nat)
  | funcTanh (core : Nat) (w : Nat)
  | funcGelu (core : Nat) (w : Nat)
  | funcSilu (core : Nat) (w : Nat)
  | funcExp2 (core : Nat) (w : Nat)
  | quantDyn (core : Nat) (w : Nat)
  | quantStatic (core : Nat) (w : Nat)
  | rope (core : Nat) (w : Nat)
  | sync (core : Nat) (w : Nat)
  | matchStep (core : Nat) (w : Nat)
  | seg (core : Nat) (w : Nat)
  | endStep (core : Nat) (w : Nat)
  -- map
  | hello (link : Nat) (h : CtlHdr) (inEffect committed digest16 state bare t1 timeBits : Nat) (lg14 : Bool)
  | lease (h : CtlHdr) (frame gen : Nat)
  | heartbeat (h : CtlHdr) (committed : Nat)
  | electionTimeout
  | electionBackoff
  | voteReq (h : CtlHdr) (lastAccepted : Nat)
  | vote (h : CtlHdr) (granted : Bool)
  | propose (h : CtlHdr) (changes : List Machine.Change)
  | prepare (h : CtlHdr) (eff : Nat) (changes : List Machine.Change) (digest : List Byte)
  | accept (h : CtlHdr) (digest : List Byte)
  | mapCommit (link : Nat) (h : CtlHdr) (eff : Nat) (changes : List Machine.Change) (digest : List Byte)
  | refuse (h : CtlHdr) (serial code : Nat)
  | proposalTimeout
  | fetch (h : CtlHdr) (wanted offset : Nat)
  | mapPart (h : CtlHdr) (offset : Nat) (last : Bool) (m : Machine.MapData)
  | suspect (h : CtlHdr) (id minutes : Nat)
  | suspectTimeout (partner : Nat)
  | join (h : CtlHdr) (identOk : JoinFacts) (ident x y z tray slot : Nat)
  | sequenceTransfer (src : Nat) (s : Machine.SeqRec)
  -- health
  | marginVoltageMove
  | watchdogKick (core : Nat)
  | watchdogFire (core : Nat)
  | replayDone (digest : List Byte)
  -- start-up, power and clocks
  | powerOn (feedB : Bool) (oscDly i3cSa : Nat) (flashHold : Bool)
  | oscDelayExpiry
  | resetRelease (oscDly i3cSa : Nat) (flashHold : Bool)
  | resetAssert
  | sunriseStepEnd (facts : SunriseFacts)
  | service
  | feedInvalid (feedB : Bool)
  | feedValid (feedB : Bool)
  | feedLossShutdown
  | railFault (rail : Nat)
  | peak
  | refclkLoss
  | pllUnlock (pll : Nat)
  | twilightExit
  | xtalLoss
  -- test port and the rest
  | idcode
  | bypass (bit : Bool)
  | samplePreload (bits : List Bool)
  | extest (bits : List Bool)
  | registerRead (port : Port) (addr count : Nat)
  | hostIdlePacket (hdr : HostHdr)
  | hostBadPacket (why : HostBad)
  | xtalReturn
  | pageCopyDone (id : Nat) (flips : List Flip)
  | hubCoreWorkDone (rid : Nat) (flips : List Flip)
  | privateTestInstruction (code : Nat)
  deriving DecidableEq, Repr

end Sys2Proof
end

