-- ==== Sys2Proof/Decode.lean ====
section
/-!
DEFINITION. The command that a word spells by the opcode table's bits: no row of the table gives bits, so no word spells a command.
-/

namespace Sys2Proof

/-- The table numbers no bits for any row, so every word is rejected. -/
def decodeTableWord (_nbits _w : Nat) : Option Instr := none

end Sys2Proof
end

