-- ==== Sys2Proof/Machine/Arith.lean ====
section
/-!
DEFINITION. Exact arithmetic and the rounding operators of chapter 04 (R95), the number formats (R96, R97), CRCs.
Quantities "evaluated exactly" are fractions Fr of an Int over a positive Nat; the only way to a stored value is an operator of R95.
-/

namespace Sys2Proof.Machine

open Sys2Proof

/-- An exact fraction; the denominator is positive in every value the model builds. -/
structure Fr where
  /-- Numerator. -/
  num : Int
  /-- Denominator. -/
  den : Nat
  deriving DecidableEq, Repr

/-- An integer as a fraction. -/
def Fr.ofInt (i : Int) : Fr := ⟨i, 1⟩
/-- Exact sum. -/
def Fr.add (a b : Fr) : Fr :=
  if a.den = b.den then ⟨a.num + b.num, a.den⟩ else ⟨a.num * b.den + b.num * a.den, a.den * b.den⟩
/-- Exact product. -/
def Fr.mul (a b : Fr) : Fr := ⟨a.num * b.num, a.den * b.den⟩
/-- Exact negation. -/
def Fr.neg (a : Fr) : Fr := ⟨-a.num, a.den⟩
/-- Exact quotient by a nonzero fraction (by zero: zero). -/
def Fr.div (a b : Fr) : Fr :=
  if b.num = 0 then ⟨0, 1⟩
  else ⟨a.num * (b.den : Int) * (if b.num < 0 then -1 else 1), a.den * b.num.natAbs⟩
/-- a·2^k. -/
def Fr.shift (a : Fr) (k : Int) : Fr :=
  if 0 ≤ k then ⟨a.num * (pow2 k.toNat : Nat), a.den⟩ else ⟨a.num, a.den * pow2 (-k).toNat⟩
/-- Magnitude. -/
def Fr.abs (a : Fr) : Fr := ⟨a.num.natAbs, a.den⟩
/-- a ≤ b. -/
def Fr.le (a b : Fr) : Bool := decide (a.num * b.den ≤ b.num * a.den)
/-- a < b. -/
def Fr.lt (a b : Fr) : Bool := decide (a.num * b.den < b.num * a.den)
/-- The larger. -/
def Fr.max (a b : Fr) : Fr := if Fr.le a b then b else a
/-- The smaller. -/
def Fr.min (a b : Fr) : Fr := if Fr.le a b then a else b
/-- Is zero. -/
def Fr.isZero (a : Fr) : Bool := a.num == 0

/-- round_div(n, m) for m > 0: nearest integer, ties to even (R95). -/
def roundDiv (n : Int) (m : Nat) : Int :=
  let q := n / (m : Int)
  let r := n - q * m
  if 2 * r > m ∨ (2 * r = m ∧ q % 2 = 1) then q + 1 else q

/-- rne_k(x), in units of 2^−k (R95). -/
def rneK (k : Nat) (x : Fr) : Int := roundDiv (x.num * (pow2 k : Nat)) x.den

/-- Clamp to a range. -/
def clampI (lo hi x : Int) : Int := if x < lo then lo else if hi < x then hi else x

/-- shr(x, k) (R95). -/
def shr (x k : Nat) : Nat := if 64 ≤ k then 0 else x >>> k

/-! ### BF16 (R95, R96) -/

/-- A BF16 pattern is a NaN or an infinity (R61). -/
def bf16Bad (b : Nat) : Bool := bitsOf b 14 7 == 255

/-- The value of a finite BF16 pattern, subnormals included. A pattern that R61 does not keep out (a program's input, or its BF16 weights) may be a NaN or an infinity, of which the manual says nothing: exponent 255 is read like any other (DESIGN CHOICE, log 118). -/
def bf16Val (b : Nat) : Fr :=
  let e := bitsOf b 14 7
  let m := bitsOf b 6 0
  let mag : Fr := if e = 0 then Fr.shift ⟨m, 1⟩ (-133) else Fr.shift ⟨(128 + m : Nat), 1⟩ ((e : Int) - 134)
  if bitOf b 15 then mag.neg else mag

/-- ⌊log2(x)⌋ of a positive fraction. -/
def Fr.log2 (x : Fr) : Int :=
  let n := x.num.natAbs
  let k : Int := (Nat.log2 n : Int) - (Nat.log2 x.den : Int)
  -- n/den lies in (2^(k-1), 2^(k+1))
  if Fr.le (Fr.shift ⟨1, 1⟩ k) ⟨n, x.den⟩ then k else k - 1

/-- bf16(x): 8 significant bits, ties to even, unbounded exponent, then the range limits (R95). The sign of a zero is given. -/
def bf16Round (x : Fr) (zeroSign : Bool := false) : Nat :=
  if x.isZero then (if zeroSign then 0x8000 else 0)
  else
    let s := if x.num < 0 then 0x8000 else 0
    let k := (Fr.abs x).log2
    let m := (rneK 0 ((Fr.abs x).shift (7 - k))).toNat
    let (m, k) := if m = 256 then (128, k + 1) else (m, k)
    if k < -126 then s
    else if 127 < k then s + 0x7F7F
    else s + (k + 127).toNat * 128 + (m - 128)

/-- Conditioning of one element (R98), with what it did. -/
inductive CondKind where
  | same
  /-- Saturated to ±32,640. -/
  | sat
  /-- A nonzero element below 2^−24 set to +0. -/
  | flush
  deriving DecidableEq, Repr

/-- Conditioning (R98); 32,640 is 0x46FF and 2^−24 is 0x3380. -/
def condition (b : Nat) : Nat × CondKind :=
  let mag := b % 0x8000
  if mag = 0 then (0, .same)
  else if mag < 0x3380 then (0, .flush)
  else if 0x46FF < mag then (b - mag + 0x46FF, .sat)
  else (b, .same)

/-- Value of a conditioned element in Q15.32 units. -/
def bf16Q32 (b : Nat) : Int := rneK 32 (bf16Val b)

/-! ### FP8 E4M3 (R95, R96) -/

/-- 512 × the value of an E4M3 code; S.1111.111 reads as ±448. -/
def e4m3Val512 (c : Nat) : Int :=
  let e := bitsOf c 6 3
  let m := bitsOf c 2 0
  let mag : Nat := if e = 15 ∧ m = 7 then 448 * 512 else if e = 0 then m else (8 + m) * pow2 (e - 1)
  if bitOf c 7 then -(mag : Int) else mag

/-- e4m3(x) as a code: nearest, ties to even, saturating at ±448; zero is code 0x00 (R95, R102). -/
def e4m3Round (x : Fr) : Nat :=
  let s := if x.num < 0 then 0x80 else 0
  let a := (Fr.abs x).shift 9
  let lg := if a.isZero then 0 else a.log2
  let step := (lg - 3).toNat
  let v := (rneK 0 (a.shift (-(step : Int)))).toNat * pow2 step
  let v := min v (448 * 512)
  if v = 0 then 0
  else
    let l := Nat.log2 v
    if l < 3 then s + v else s + (l - 2) * 8 + (v / pow2 (l - 3) - 8)

/-! ### Scale codes (R97, Table 4.2) -/

/-- s = 2^(e−25)·(1 + m/8). -/
def scaleVal (code : Nat) : Fr := Fr.shift ⟨(8 + code % 8 : Nat), 1⟩ (((code / 8 : Nat) : Int) - 28)

/-- up_s over a code range: the smallest code whose scale is at least x, or the largest code (R95, R101, R102). -/
def upS (lo hi : Nat) (x : Fr) : Nat :=
  ((rangeFrom lo (hi - lo)).find? (fun c => Fr.le x (scaleVal c))).getD hi

/-! ### Integer square root and the exp2 table (R108, R109) -/

/-- ⌊√n⌋ by bits from bit k down. -/
def isqrtGo (n : Nat) : Nat → Nat → Nat
  | 0, r => r
  | k + 1, r => let r' := r + pow2 k; isqrtGo n k (if r' * r' ≤ n then r' else r)

/-- ⌊√n⌋. -/
def isqrt (n : Nat) : Nat := isqrtGo n (Nat.log2 n / 2 + 1) 0

/-- 2^(−2^−k) for k = 0, 1, 2, … in units of 2^−160, by repeated square roots. -/
def halfRoots : Nat → Nat → List Nat
  | 0, _ => []
  | k + 1, v => v :: halfRoots k (isqrt (v * pow2 160))

/-- Product of the listed roots picked by the bits of b, the first root by bit k−1. -/
def exp2Prod : List Nat → Nat → Nat → Nat → Nat
  | [], _, _, acc => acc
  | v :: vs, k, b, acc => exp2Prod vs (k - 1) b (if bitOf b (k - 1) then acc * v / pow2 160 else acc)

/-- ⌊2^160·2^(−f/2^k)⌋ up to a few units, for f < 2^k. -/
def exp2Frac (k f : Nat) : Nat :=
  exp2Prod ((halfRoots (k + 1) (pow2 159)).drop 1) k f (pow2 160)

/-- T_hi[a] (R108). -/
def tHi (a : Nat) : Nat := (exp2Frac 8 a + pow2 128) / pow2 129
/-- T_lo[b] (R108). -/
def tLo (b : Nat) : Nat := (exp2Frac 16 b + pow2 128) / pow2 129

/-- exp2w(u) (R109). -/
def exp2w (u : Nat) : Nat :=
  let n := u >>> 16
  let a := (u >>> 8) % 256
  let b := u % 256
  let m := (tHi a * tLo b + pow2 29) >>> 30
  if 33 ≤ n then 0 else m >>> n

/-! ### Cyclic redundancy checks -/

/-- One reflected CRC step over the bits of a byte. -/
def crcReflBits (poly : Nat) : Nat → Nat → Nat
  | 0, c => c
  | k + 1, c => crcReflBits poly k (if c % 2 = 1 then (c / 2) ^^^ poly else c / 2)

/-- Reflected CRC of a width (poly given reflected), all ones in and out. -/
def crcRefl (w poly : Nat) (bs : List Byte) : Nat :=
  (bs.foldl (fun c b => crcReflBits poly 8 (c ^^^ b.toNat)) (pow2 w - 1)) ^^^ (pow2 w - 1)

/-- CRC-32C. -/
def crc32c (bs : List Byte) : Nat := crcRefl 32 0x82F63B78 bs

/-- Reverse the low n bits. -/
def revBits : Nat → Nat → Nat
  | 0, _ => 0
  | n + 1, x => (x % 2) * pow2 n + revBits n (x / 2)

/-- CRC-16/CCITT-FALSE (R31). -/
def crc16 (bs : List Byte) : Nat :=
  bs.foldl (fun c b => go 8 (c ^^^ (b.toNat * 256))) 0xFFFF
where
  /-- Bit steps. -/
  go : Nat → Nat → Nat
    | 0, c => c
    | k + 1, c => go k (if bitOf c 15 then ((c * 2) ^^^ 0x1021) % 65536 else c * 2 % 65536)

end Sys2Proof.Machine
end

