-- ==== Sys2Proof/Machine/Quant.lean ====
section
/-!
DEFINITION. Tiles: sizes (Table 5.1), header and body layout (R119–R122), sealing (R97, R100–R105), dequantisation (R103), the read digest (R160) and the check of a read (R161).
A row is a list of d conditioned BF16 patterns; a tile is its bytes, header first.
-/

namespace Sys2Proof.Machine

open Sys2Proof

/-- Head dimension of a dcode (Table 3.3). -/
def dimOf (dcode : Nat) : Nat := 64 * pow2 dcode

/-- Fields of the shape word (Table 3.3). -/
structure Shape where
  /-- Code of d. -/
  dcode : Nat
  /-- 0 INT8, 1 INT4, 2 FP8. -/
  kvfmt : Nat
  /-- KV heads H. -/
  heads : Nat
  /-- log2 of G. -/
  gLog2 : Nat
  /-- Layers. -/
  layers : Nat
  deriving DecidableEq, Repr

/-- Decode a shape word (R58). -/
def shapeOf (w : Nat) : Shape :=
  ⟨bitsOf w 1 0, bitsOf w 3 2, bitsOf w 7 4 + 1, bitsOf w 10 8, bitsOf w 19 11 + 1⟩

/-- d. -/
def Shape.d (s : Shape) : Nat := dimOf s.dcode
/-- G. -/
def Shape.g (s : Shape) : Nat := pow2 s.gLog2
/-- Hq. -/
def Shape.hq (s : Shape) : Nat := s.heads * s.g
/-- Body bytes of a tile (Table 5.1). -/
def tileBody (kvfmt d : Nat) : Nat := if kvfmt = 1 then 32 * d else 64 * d
/-- Bytes of a tile, header and body. -/
def tileSize (kvfmt d : Nat) : Nat := 1024 + tileBody kvfmt d
/-- KiB of a pair (K and V tile). -/
def pairKiB (kvfmt d : Nat) : Nat := 2 * (tileSize kvfmt d / 1024)
/-- Bytes of a page, four pairs. -/
def pageBytes (kvfmt d : Nat) : Nat := 8 * tileSize kvfmt d
/-- Vesper cycles of a tile read (Table 5.1). -/
def tileCycles (kvfmt d : Nat) : Nat := tileSize kvfmt d / 64
/-- Most outlier channels (R100). -/
def kmax (kvfmt d : Nat) : Nat := if kvfmt = 0 ∧ d = 256 then 3 else 4

/-! ### Sealing -/

/-- Magnitude pattern of a BF16 value; patterns of one sign order as their values do. -/
def bfMag (b : Nat) : Nat := b % 0x8000

/-- A_c: largest magnitude of a channel (R100), as a BF16 magnitude pattern. -/
def chanMax (rows : List (List Nat)) (c : Nat) : Nat := rows.foldl (fun m r => max m (bfMag (r.getD c 0))) 0

/-- Channels by descending A, ties to the lower index (R100): insertion into a ranked list of (A, channel). -/
def rankInsert : List (Nat × Nat) → Nat × Nat → List (Nat × Nat)
  | [], x => [x]
  | y :: t, x => if y.1 < x.1 then x :: y :: t else y :: rankInsert t x

/-- The outlier channels, ascending (R100). -/
def outliers (kvfmt d : Nat) (rows : List (List Nat)) : List Nat :=
  let ranked := (List.range d).foldl (fun l c => rankInsert l (chanMax rows c, c)) []
  let ref := bf16Val ((ranked.getD (d / 2) (0, 0)).1)
  let cand := ranked.filter (fun p => Fr.lt (ref.mul ⟨16, 1⟩) (bf16Val p.1))
  ((cand.take (kmax kvfmt d)).map Prod.snd).foldl setInsert []

/-- One quantised channel: scale code, zero point, codes, and whether a clamp acted. -/
structure ChanQ where
  /-- Scale code. -/
  scale : Nat
  /-- Zero point. -/
  zero : Nat
  /-- Codes by row. -/
  codes : List Nat
  /-- A code was changed by the clamp, or e4m3 saturated. -/
  clamped : Bool
  deriving DecidableEq, Repr

/-- R101. -/
def quantInt (q : Nat) (xs : List Nat) : ChanQ :=
  let vs := xs.map bf16Val
  let lo := vs.foldl Fr.min ⟨0, 1⟩
  let hi := vs.foldl Fr.max ⟨0, 1⟩
  let range := hi.add lo.neg
  if range.isZero then ⟨0, 0, xs.map (fun _ => 0), false⟩
  else
    let sc := upS 0 0xFF (range.div ⟨q, 1⟩)
    let s := scaleVal sc
    let z := clampI 0 q (rneK 0 (lo.neg.div s))
    let raw := vs.map (fun v => rneK 0 (v.div s) + z)
    ⟨sc, z.toNat, raw.map (fun c => (clampI 0 q c).toNat), raw.any (fun c => decide (c ≠ clampI 0 q c))⟩

/-- R102. -/
def quantFp8 (xs : List Nat) : ChanQ :=
  let vs := xs.map bf16Val
  let a := vs.foldl (fun m v => Fr.max m v.abs) ⟨0, 1⟩
  let sc := if a.isZero then 0x28 else upS 0x28 0xF7 (a.div ⟨448, 1⟩)
  let s := scaleVal sc
  let qs := vs.map (fun v => v.div s)
  ⟨sc, 0, qs.map e4m3Round, qs.any (fun v => Fr.lt ⟨448, 1⟩ v.abs)⟩

/-- Bytes of a list of 4-bit or 8-bit codes: INT4 packs an even channel low (R119). -/
def packCodes (kvfmt : Nat) : List Nat → List Byte
  | [] => []
  | [a] => [BitVec.ofNat 8 a]
  | a :: b :: t =>
    if kvfmt = 1 then BitVec.ofNat 8 (a + 16 * b) :: packCodes kvfmt t
    else BitVec.ofNat 8 a :: BitVec.ofNat 8 b :: packCodes kvfmt t

/-- D1 and D2 over the covered stream (R160, Table 6.2): header bytes 8–23 are taken as zero. -/
def readDigest (tile : List Byte) : Nat × Nat :=
  let cov := tile.take 8 ++ List.replicate 16 0 ++ tile.drop 24
  (crcRefl 64 (revBits 64 0x42F0E1EBA9EA3693) cov, crcRefl 64 (revBits 64 0xAD93D23594C935A9) cov)

/-- The check word: header bytes 8–11 (R122). -/
def checkWord (tile : List Byte) : Nat := field tile 8 4

/-- R161: the computed digest equals the stored one, and the stored D1[31:0] equals the check word. -/
def digestOk (tile : List Byte) (check : Nat) : Bool :=
  let dg := readDigest tile
  decide (field tile 8 8 = dg.1) && decide (field tile 16 8 = dg.2) && decide (checkWord tile = check)

/-- The stored digest of a read equals the computed one (first test of R161). -/
def contentOk (tile : List Byte) : Bool :=
  let dg := readDigest tile
  decide (field tile 8 8 = dg.1) && decide (field tile 16 8 = dg.2)

/-- Seal 64 conditioned rows (R100–R105, R120): the tile's bytes, and whether CLAMPED is set. COND is an input beside the conditioned rows (DESIGN CHOICE, log 97). -/
def sealTile (kvfmt dcode : Nat) (rows : List (List Nat)) (cond : Bool) : List Byte × Bool :=
  let d := dimOf dcode
  let om := outliers kvfmt d rows
  let chans : List ChanQ := (List.range d).map (fun c =>
    let xs := rows.map (fun r => r.getD c 0)
    if om.contains c then ⟨0, 0, xs.map (fun _ => 0), false⟩
    else if kvfmt = 2 then quantFp8 xs
    else quantInt (if kvfmt = 0 then 255 else 15) xs)
  let clamped := chans.any (·.clamped)
  let flags := b2n clamped + 2 * b2n cond
  let zp := if kvfmt = 2 then [] else packCodes kvfmt (chans.map (·.zero))
  let oidx := padTo 4 [] |>.mapIdx (fun i _ => BitVec.ofNat 8 (om.getD i 0xFF))
  let oval := (List.range (kmax kvfmt d)).flatMap (fun j =>
    match om[j]? with
    | some c => rows.flatMap (fun r => leBytes 2 (r.getD c 0))
    | none => List.replicate 128 0)
  let head0 : List Byte := [0x01, BitVec.ofNat 8 (kvfmt + 4 * dcode), BitVec.ofNat 8 flags, BitVec.ofNat 8 om.length]
  let area := chans.map (fun c => BitVec.ofNat 8 c.scale) ++ zp ++ oidx ++ oval
  let body := (List.range rows.length).flatMap (fun r => packCodes kvfmt (chans.map (fun c => c.codes.getD r 0)))
  let raw := padTo 1024 (padTo 64 head0 ++ area) ++ body
  let dg := readDigest raw
  (raw.take 8 ++ leBytes 8 dg.1 ++ leBytes 8 dg.2 ++ raw.drop 24, clamped)

/-! ### Reading a sealed tile -/

/-- A sealed tile opened for computation: per channel its scale, zero point and outlier slot; codes by row. -/
structure TileView where
  /-- 0 INT8, 1 INT4, 2 FP8. -/
  kvfmt : Nat
  /-- d. -/
  d : Nat
  /-- Scales of the channels. -/
  scales : List Fr
  /-- Zero points. -/
  zeros : List Nat
  /-- Outlier channels, ascending (R121). -/
  outs : List Nat
  /-- BF16 values of each outlier channel by row. -/
  outVals : List (List Nat)
  /-- Codes [row][channel]. -/
  codes : List (List Nat)
  /-- CLAMPED or COND. -/
  flagged : Bool
  deriving DecidableEq, Repr

/-- Unpack codes, two per byte for INT4. -/
def unpackCodes (kvfmt : Nat) (bs : List Byte) : List Nat :=
  if kvfmt = 1 then bs.flatMap (fun b => [b.toNat % 16, b.toNat / 16]) else bs.map (·.toNat)

/-- Open a tile's bytes (R119–R121). -/
def openTile (kvfmt dcode : Nat) (t : List Byte) : TileView :=
  let d := dimOf dcode
  let zlen := if kvfmt = 0 then d else if kvfmt = 1 then d / 2 else 0
  let n := byteAt t 3
  let oi := 64 + d + zlen
  let rowB := tileBody kvfmt d / 64
  { kvfmt := kvfmt, d := d
    scales := (slice t 64 d).map (fun b => scaleVal b.toNat)
    zeros := if kvfmt = 2 then List.replicate d 0 else unpackCodes kvfmt (slice t (64 + d) zlen)
    outs := (List.range n).map (fun j => byteAt t (oi + j))
    outVals := (List.range n).map (fun j => (List.range 64).map (fun r => field t (oi + 4 + 128 * j + 2 * r) 2))
    codes := (List.range 64).map (fun r => unpackCodes kvfmt (slice t (1024 + rowB * r) rowB))
    flagged := byteAt t 2 % 4 != 0 }

/-- Integer of a code that the query multiplies (R107): c − z, or 512·e4m3(c). -/
def TileView.codeInt (v : TileView) (c code : Nat) : Int :=
  if v.kvfmt = 2 then e4m3Val512 code else (code : Int) - (v.zeros.getD c 0 : Nat)

/-- Dequantised value of (row, channel) in Q15.32 (R103). A header scale outside Table 4.2 is used as written; a value that is then no exact Q15.32 number is rounded to 2^-32 and not bounded (DESIGN CHOICE, log 96). -/
def TileView.val (v : TileView) (r c : Nat) : Int :=
  match v.outs.findIdx? (· == c) with
  | some j => rneK 32 (bf16Val ((v.outVals.getD j []).getD r 0))
  | none =>
    let k := v.codeInt c ((v.codes.getD r []).getD c 0)
    rneK 32 (((v.scales.getD c ⟨0, 1⟩).mul (Fr.ofInt k)).shift (if v.kvfmt = 2 then -9 else 0))

end Sys2Proof.Machine
end

