-- ==== Sys2Proof/Machine/Funcs.lean ====
section
/-!
DEFINITION. The functions of the program steps whose exact value is no fraction (R209, Table 8.5), and their one rounding.
A value that is irrational is carried as a fraction closer to it than any rounding boundary of a BF16 result can be, so the rounding of the fraction is the rounding of the value: 640 bits for FUNC, 2,048 bits for the square roots of the norms.
-/

namespace Sys2Proof.Machine

open Sys2Proof

/-! ### Fixed point with 640 fraction bits -/

/-- Fraction bits of the FUNC evaluations. -/
abbrev fxBits : Nat := 640
/-- 1. -/
abbrev fxOne : Nat := pow2 640
/-- Product. -/
def fxMul (a b : Nat) : Nat := a * b / fxOne

/-- Σ 1/((2k+1)·q^(2k+1)) over n terms, p = 1/q^(2k+1); alternating when alt. -/
def atanSum (q : Nat) (alt : Bool) : Nat → Nat → Nat → Int → Int
  | 0, _, _, acc => acc
  | n + 1, k, p, acc =>
    let t : Int := (p / (2 * k + 1) : Nat)
    atanSum q alt n (k + 1) (p / (q * q)) (if alt && k % 2 == 1 then acc - t else acc + t)

/-- ln 2 = 2·artanh(1/3). -/
def fxLn2 : Nat := (2 * atanSum 3 false 210 0 (fxOne / 3) 0).toNat
/-- π = 16·arctan(1/5) − 4·arctan(1/239). -/
def fxPi : Nat := (16 * atanSum 5 true 145 0 (fxOne / 5) 0 - 4 * atanSum 239 true 45 0 (fxOne / 239) 0).toNat

/-- Taylor sum of exp(r) for 0 ≤ r < 1: term number k is t. -/
def expSum (r : Nat) : Nat → Nat → Nat → Nat → Nat
  | 0, _, _, acc => acc
  | n + 1, k, t, acc => expSum r n (k + 1) (fxMul t r / (k + 1)) (acc + t)

/-- exp(−a) for 0 ≤ a, in units of 2^−640. -/
def fxExpNeg (a : Nat) : Nat :=
  let n := a / fxLn2 + 1
  expSum (n * fxLn2 - a) 130 0 fxOne 0 / pow2 n

/-- 2^f for 0 ≤ f < 1. -/
def fxExp2 (f : Nat) : Nat := expSum (fxMul f fxLn2) 130 0 fxOne 0

/-- Σ (−1)^n x^(2n+1) / (2^n·n!·(2n+1)): t is x^(2n+1)/(2^n·n!), h is x²/2. -/
def erfSum (h : Nat) : Nat → Nat → Nat → Int → Int
  | 0, _, _, acc => acc
  | n + 1, k, t, acc =>
    let u : Int := (t / (2 * k + 1) : Nat)
    erfSum h n (k + 1) (fxMul t h / (k + 1)) (if k % 2 = 1 then acc - u else acc + u)

/-- A magnitude as fixed point, bounded. -/
def fxOf (x : Fr) (bound : Nat) : Nat := min (bound * fxOne) (x.num.natAbs * fxOne / x.den)

/-! ### FUNC (Table 8.5) -/

/-- 1 ÷ (1 + e^−x). -/
def sigmoidVal (x : Fr) : Fr :=
  let e := fxExpNeg (fxOf x 200)
  ⟨if x.num < 0 then (e : Int) else (fxOne : Nat), fxOne + e⟩

/-- tanh x. -/
def tanhVal (x : Fr) : Fr :=
  let e := fxExpNeg (2 * fxOf x 100)
  let t : Fr := ⟨((fxOne - e : Nat) : Int), fxOne + e⟩
  if x.num < 0 then t.neg else t

/-- x·Φ(x), the erf form of GELU; at x ≤ −16 a negative value below every BF16 magnitude. -/
def geluVal (x : Fr) : Fr :=
  if Fr.le ⟨16, 1⟩ (Fr.abs x) then (if x.num < 0 then Fr.shift ⟨-1, 1⟩ (-200) else x)
  else
    let a := fxOf x 16
    let s := erfSum (fxMul a a / 2) 720 0 a 0
    -- Φ(|x|) − 1/2 = s ÷ √(2π)
    let half : Int := s * (fxOne : Nat) / (isqrt (2 * fxPi * fxOne) : Nat)
    let phi : Int := (fxOne / 2 : Nat) + (if x.num < 0 then -half else half)
    x.mul ⟨phi, fxOne⟩

/-- x·sigmoid(x). -/
def siluVal (x : Fr) : Fr := x.mul (sigmoidVal x)

/-- 2^x. -/
def exp2Val (x : Fr) : Fr :=
  let c := Fr.max ⟨-200, 1⟩ (Fr.min ⟨200, 1⟩ x)
  let n := c.num / (c.den : Int)
  let f := ((c.num - n * c.den).toNat * fxOne) / c.den
  Fr.shift ⟨fxExp2 f, fxOne⟩ n

/-- The value of a FUNC code, 0–4. -/
def funcVal (code : Nat) (x : Fr) : Fr :=
  if code = 0 then sigmoidVal x else if code = 1 then tanhVal x else if code = 2 then geluVal x
  else if code = 3 then siluVal x else exp2Val x

/-- FUNC on a BF16 element: rounded once; an exact zero is stored as +0 (log 40). -/
def funcBf16 (code b : Nat) : Nat := bf16Round (funcVal code (bf16Val b))

/-! ### Square roots of fractions -/

/-- √x for x ≥ 0: exact where it is a multiple of 2^−2048, else the middle of the 2^−2048 interval it lies in. -/
def sqrtFr (x : Fr) : Fr :=
  let n := x.num.toNat * pow2 4096
  let f := isqrt (n / x.den)
  if n % x.den = 0 ∧ f * f = n / x.den then ⟨f, pow2 2048⟩ else ⟨2 * f + 1, pow2 2049⟩

/-! ### Norms (Table 8.5) -/

/-- A BF16 value in units of 2^−133. -/
def bfUnits (b : Nat) : Int := rneK 133 (bf16Val b)

/-- RMSNORM of one row: gains g and ε. -/
def rmsNorm (x g : List Nat) (eps : Nat) : List Nat :=
  let u : List Int := x.map bfUnits
  let n := x.length
  -- mean(x²) + ε = den ÷ (n·2^266)
  let den : Int := u.foldl (fun a v => a + v * v) 0 + n * (bfUnits eps * (pow2 133 : Nat))
  (u.zip g).map (fun p =>
    let num := p.1 * bfUnits p.2
    -- x·g in units of 2^−266; its square over the mean
    let r := sqrtFr ⟨num * num * n, den.toNat * pow2 266⟩
    if den ≤ 0 then 0 else bf16Round (if num < 0 then r.neg else r))

/-- LAYERNORM of one row: gains g, offsets b and ε. -/
def layerNorm (x g b : List Nat) (eps : Nat) : List Nat :=
  let u : List Int := x.map bfUnits
  let n := x.length
  let sum : Int := u.foldl (fun a v => a + v) 0
  -- n·(x − μ) in units of 2^−133, and n³·(var + ε) in units of 2^−266
  let dev : List Int := u.map (fun v => v * (n : Int) - sum)
  let den : Int := dev.foldl (fun a v => a + v * v) 0 + n * n * n * (bfUnits eps * (pow2 133 : Nat))
  ((dev.zip g).zip b).map (fun p =>
    let num := p.1.1 * bfUnits p.1.2
    let r := sqrtFr ⟨num * num * n, den.toNat * pow2 266⟩
    if den ≤ 0 then 0 else bf16Round ((if num < 0 then r.neg else r).add (bf16Val p.2)))

end Sys2Proof.Machine
end

