-- ==== Sys2Proof/Machine/Sha.lean ====
section
/-!
DEFINITION. SHA-384 (R9, R338, R340), the digest that the manual names: the function of FIPS 180-4 (PRESUMED; log 28).
Its constants are the leading fraction bits of roots of primes, computed here.
-/

namespace Sys2Proof.Machine

open Sys2Proof

/-- The first n primes of a list of candidates: no listed prime divides a candidate. -/
def sieve : List Nat → List Nat → List Nat
  | [], acc => acc
  | c :: t, acc => sieve t (if acc.any (fun p => c % p == 0) then acc else acc ++ [c])

/-- The primes below 410: eighty of them. -/
def primes80 : List Nat := sieve (rangeFrom 2 408) []

/-- ⌊∛n⌋ by bits from bit k down. -/
def icbrtGo (n : Nat) : Nat → Nat → Nat
  | 0, r => r
  | k + 1, r => let r' := r + pow2 k; icbrtGo n k (if r' * r' * r' ≤ n then r' else r)

/-- Round constants. -/
def shaK : List Nat := primes80.map (fun p => icbrtGo (p * pow2 192) 68 0 % pow2 64)

/-- Initial value of SHA-384. -/
def sha384Init : List Nat := ((primes80.drop 8).take 8).map (fun p => isqrtGo (p * pow2 128) 70 0 % pow2 64)

/-- Rotate right in 64 bits. -/
def rotr (n x : Nat) : Nat := (x >>> n) ||| (x <<< (64 - n)) % pow2 64

/-- Complement in 64 bits. -/
def not64 (x : Nat) : Nat := pow2 64 - 1 - x

/-- Message schedule: sixteen words, then n more, newest first. -/
def shaSchedule : Nat → List Nat → List Nat
  | 0, w => w
  | n + 1, w =>
    let w2 := w.getD 1 0
    let w15 := w.getD 14 0
    let s0 := rotr 1 w15 ^^^ rotr 8 w15 ^^^ (w15 >>> 7)
    let s1 := rotr 19 w2 ^^^ rotr 61 w2 ^^^ (w2 >>> 6)
    shaSchedule n (((w.getD 15 0 + s0 + w.getD 6 0 + s1) % pow2 64) :: w)

/-- One round over the eight working words. -/
def shaRound (v : List Nat) (kw : Nat × Nat) : List Nat :=
  match v with
  | [a, b, c, d, e, f, g, h] =>
    let t1 := h + (rotr 14 e ^^^ rotr 18 e ^^^ rotr 41 e) + ((e &&& f) ^^^ (not64 e &&& g)) + kw.1 + kw.2
    let t2 := (rotr 28 a ^^^ rotr 34 a ^^^ rotr 39 a) + ((a &&& b) ^^^ (a &&& c) ^^^ (b &&& c))
    [(t1 + t2) % pow2 64, a, b, c, (d + t1) % pow2 64, e, f, g]
  | _ => v

/-- One block of 128 bytes. -/
def shaBlock (v : List Nat) (block : List Byte) : List Nat :=
  let w := (List.range 16).map (fun i => beNat (slice block (8 * i) 8))
  let ws := (shaSchedule 64 w.reverse).reverse
  List.zipWith (fun a b => (a + b) % pow2 64) v ((shaK.zip ws).foldl shaRound v)

/-- Blocks in order. -/
def shaBlocks : Nat → List Byte → List Nat → List Nat
  | 0, _, v => v
  | n + 1, bs, v => shaBlocks n (bs.drop 128) (shaBlock v (bs.take 128))

/-- SHA-384 of bytes. -/
def sha384 (bs : List Byte) : List Byte :=
  let n := bs.length
  let zeros := (128 - (n + 17) % 128) % 128
  let m := bs ++ [0x80] ++ List.replicate zeros 0 ++ beBytes 16 (8 * n)
  ((shaBlocks (m.length / 128) m sha384Init).take 6).flatMap (beBytes 8)

/-! ### Key derivation (R345, R356, R358, R359) -/

/-- HMAC-SHA-384. -/
def hmac384 (key msg : List Byte) : List Byte :=
  let k := padTo 128 (if 128 < key.length then sha384 key else key)
  sha384 (k.map (· ^^^ 0x5C) ++ sha384 (k.map (· ^^^ 0x36) ++ msg))

/-- Blocks of HKDF-Expand from block i on: k of them. -/
def hkdfBlocks (prk info : List Byte) : Nat → Nat → List Byte → List Byte
  | 0, _, _ => []
  | k + 1, i, last => let t := hmac384 prk (last ++ info ++ [BitVec.ofNat 8 i]); t ++ hkdfBlocks prk info k (i + 1) t

/-- HKDF-Expand with SHA-384, n bytes. -/
def hkdfExpand (prk info : List Byte) (n : Nat) : List Byte := (hkdfBlocks prk info (ceilDiv n 48) 1 []).take n

/-- HKDF-SHA-384: extract, then expand. An empty salt is one of zeros. -/
def hkdf384 (salt ikm info : List Byte) (n : Nat) : List Byte := hkdfExpand (hmac384 salt ikm) info n

end Sys2Proof.Machine
end

