-- ==== Sys2Proof/Config.lean ====
section
/-!
DEFINITION. What an implementation fixes, and the free values.
Each opaque constant stands for values the manual leaves open (or for the output of a named outside standard that the manual does not define); nothing can be proved of a value of one.
The Nat argument of a fresh value is State.freeCtr, a counter that the step reads and advances.
-/

namespace Sys2Proof.Config

open Sys2Proof

/-- Bytes of the entropy source that seeds the node's random bit generator (R344): the n-th fresh byte. Free value (log 10). -/
opaque randomByte : Nat → Byte

/-- Byte i of the root secret PR that the start-up state of the PUF SRAM and the helper data reconstruct, by a code the manual does not give (R345). Free value (log 12). -/
opaque pufByte : List Byte → List Byte → Nat → Byte

/-- Byte i of the public keys of the Abalia root in the boot ROM: the ECDSA P-384 key, 97 bytes, then the HSS key, 60 bytes (R344). Free value (log 12). -/
opaque rootKeyByte : Nat → Byte

/-- Bytes of a region whose RWRITE_TILES failed its check are undefined (R284). Free value (log 13). -/
opaque undefinedByte : Nat → Nat → Byte

/-- A choice the manual leaves to the node among n equal candidates. Free value (log 11). -/
opaque choice : Nat → Nat → Nat

/-- What another node holds, as its leader finds it: a sequence of a class or of a slice (kind 0), anything at all (kind 1), a transfer of a slot not yet ended (kind 2); by the kind, the class, node or slot, and the count (R303, R315, R323, R326). The manual gives the leader no message that tells it. Free value (log 45). -/
opaque heldElsewhere : Nat → Nat → Nat → Bool

/-- Body length in bytes of a CTL message of a type whose field widths the manual does not give, by the type and the number of its values (R306). Free value (log 15). -/
opaque ctlLength : Nat → Nat → Nat

/-- Byte i of an entry of the map header (part 0), node table (1), slice table (3) or pool table (7), whose layout the manual does not give, from the entry's fields (R299). Free value (log 43). -/
opaque mapByte : Nat → List Nat → Nat → Byte

/-- TLB set that a tag selects (R143), by tenant, sequence, layer, KV head and span. Free value (log 31). -/
opaque tlbSet : Nat → Nat → Nat → Nat → Nat → Nat

/-- Output frequency in MHz of a PLL whose frequency the manual does not give, by its CLK_OBS_CFG.sel code (R405, R408). Free value (log 50). -/
opaque pllMHz : Nat → Nat

/-- The node's own other copy of a poisoned weight tile fails the manifest digest too: nothing else has told the node so, and the copy is read only now (R196). By a fresh serial. Free value (log 87). -/
opaque copyFails : Nat → Bool

/-- Level that a boundary-scan cell captures from its pin (R364): the n-th fresh bit. Free value (log 14). -/
opaque captureBit : Nat → Bool

end Sys2Proof.Config
end

