-- ==== Sys2Proof/Machine/Attn.lean ====
section
/-!
DEFINITION. Attention arithmetic: rotary application (R75), masks and skipping (R82, R83), scores (R106, R107), leaves (R110), the canonical merge (R84, R111), partial records (R87–R90, R112) and finalisation (R113).
-/

namespace Sys2Proof.Machine

open Sys2Proof

/-! ### Rotary tables (R74, R75) -/

/-- A loaded rotary table: d, r and the four FP32 arrays, flat with r/2 entries a line. -/
structure Rotary where
  /-- d of the table. -/
  d : Nat
  /-- Rotated dimensions. -/
  r : Nat
  /-- FP32 words of C_lo, S_lo, C_hi, S_hi in order. -/
  words : List Nat
  deriving DecidableEq, Repr

/-- Value of an FP32 word (finite). -/
def fp32Val (b : Nat) : Fr :=
  let e := bitsOf b 30 23
  let m := bitsOf b 22 0
  let mag : Fr := if e = 0 then Fr.shift ⟨m, 1⟩ (-149) else Fr.shift ⟨(pow2 23 + m : Nat), 1⟩ ((e : Int) - 150)
  if bitOf b 31 then mag.neg else mag

/-- Read a rotary table from its bytes; none where its header is not one (R74). -/
def rotaryOf (bs : List Byte) : Option Rotary :=
  let d := field bs 2 2
  let r := field bs 4 2
  if field bs 0 2 = 0x5254 ∧ r % 2 = 0 ∧ r ≤ d ∧ (slice bs 6 10).all (· == 0) ∧
     16 + 4 * (2 * 1024 + 2 * 4096) * (r / 2) ≤ bs.length then
    some ⟨d, r, (List.range (2 * (1024 + 4096) * (r / 2))).map (fun i => field bs (16 + 4 * i) 4)⟩
  else none

/-- Rotate one row at position p (R75); the sign of an exact zero is the node's free choice of +0 and does not survive conditioning. -/
def ropeRow (t : Rotary) (p : Nat) (x : List Nat) : List Nat :=
  let h := t.r / 2
  let a := p / 1024
  let b := p % 1024
  let w (arr i : Nat) : Fr := fp32Val (t.words.getD (arr + i) 0)
  let cLo (i : Nat) := w (b * h) i
  let sLo (i : Nat) := w ((1024 + b) * h) i
  let cHi (i : Nat) := w ((2048 + a) * h) i
  let sHi (i : Nat) := w ((2048 + 4096 + a) * h) i
  let cs := (List.range h).map (fun i =>
    (bf16Val (bf16Round (((cHi i).mul (cLo i)).add ((sHi i).mul (sLo i)).neg)),
     bf16Val (bf16Round (((sHi i).mul (cLo i)).add ((cHi i).mul (sLo i))))))
  let v (i : Nat) := bf16Val (x.getD i 0)
  let one := cs.mapIdx (fun i p => bf16Round (((v i).mul p.1).add ((v (i + h)).mul p.2).neg))
  let two := cs.mapIdx (fun i p => bf16Round (((v i).mul p.2).add ((v (i + h)).mul p.1)))
  one ++ two ++ x.drop t.r

/-! ### Masks (R82) -/

/-- The mask words of a query. -/
structure Mask where
  /-- Query position q. -/
  q : Nat
  /-- Window W. -/
  w : Nat
  /-- range_lo. -/
  lo : Nat
  /-- range_hi. -/
  hi : Nat
  /-- mflags. -/
  flags : Nat
  deriving DecidableEq, Repr

/-- Position p is unmasked over len positions (R82). -/
def Mask.open_ (m : Mask) (len p : Nat) : Bool :=
  decide (p < len) &&
  (!bitOf m.flags 0 || decide (p ≤ m.q)) &&
  (!bitOf m.flags 1 || decide ((m.q : Int) - m.w + 1 ≤ p)) &&
  (!bitOf m.flags 2 || (decide (m.lo ≤ p) && decide (p ≤ m.hi)))

/-- Lowest position the masks can leave open. -/
def Mask.low (m : Mask) : Nat :=
  max (if bitOf m.flags 1 then ((m.q : Int) - m.w + 1).toNat else 0) (if bitOf m.flags 2 then m.lo else 0)

/-- One past the highest position the masks can leave open, over len positions. -/
def Mask.high (m : Mask) (len : Nat) : Nat :=
  min (min len (if bitOf m.flags 0 then m.q + 1 else len)) (if bitOf m.flags 2 then m.hi + 1 else len)

/-- The tiles that hold an unmasked position: an interval, first tile and count (R83). -/
def Mask.tiles (m : Mask) (len : Nat) : Nat × Nat :=
  let a := m.low
  let b := m.high len
  if a < b then (a / 64, (b - 1) / 64 + 1 - a / 64) else (0, 0)

/-- The spans that hold an unmasked position (R85). -/
def Mask.spans (m : Mask) (len : Nat) : Nat × Nat :=
  let a := m.low
  let b := m.high len
  if a < b then (a / 1024, (b - 1) / 1024 + 1 - a / 1024) else (0, 0)

/-! ### Tile contents as a leaf reads them -/

/-- K and V of one tile of one KV head, as a leaf reads them. -/
inductive TileSrc where
  /-- Conditioned rows of a tail tile (R106), with the COND flags of its K or V part. -/
  | tail (k v : List (List Nat)) (cond : Bool)
  /-- The bytes of a sealed pair (R107). -/
  | sealed (k v : List Byte)
  deriving DecidableEq, Repr

/-- The score clamp (R106). -/
def scoreMax : Int := 2147418112

/-- σ as used: a subnormal is taken as 0 (R99). -/
def sigmaVal (b : Nat) : Fr := if bitsOf b 14 7 = 0 then ⟨0, 1⟩ else bf16Val b

/-- Round and clamp σ·raw; the flag tells a clamp (R106, R107, R115). -/
def scoreOf (sigma raw : Fr) : Int × Bool :=
  let x := rneK 16 (sigma.mul raw)
  (clampI (-scoreMax) scoreMax x, decide (x < -scoreMax ∨ scoreMax < x))

/-- Σ of products of two rows of BF16 values, exact, as a fraction over 2^62 (conditioned values are multiples of 2^−31). -/
def dotBf (q k : List Nat) : Fr :=
  ⟨(q.zip k).foldl (fun s p => s + rneK 31 (bf16Val p.1) * rneK 31 (bf16Val p.2)) 0, pow2 62⟩

/-- The quantised query of R107: exponent e and qq by channel (0 on an outlier channel). -/
def quantQuery (v : TileView) (q : List Nat) : Int × List Int :=
  let y : List Fr := (List.range v.d).map (fun i =>
    if v.outs.contains i then ⟨0, 1⟩ else (bf16Val (q.getD i 0)).mul (v.scales.getD i ⟨0, 1⟩))
  let m := y.foldl (fun m f => Fr.max m f.abs) ⟨0, 1⟩
  if m.isZero then (0, y.map (fun _ => 0))
  else
    -- smallest e with m ≤ 127·2^e: start one below the floor of log2(m/127)
    let k := (m.div ⟨127, 1⟩).log2
    let e := if Fr.le m (Fr.shift ⟨127, 1⟩ k) then k else k + 1
    (e, y.map (fun f => rneK 0 (f.shift (-e))))

/-- Score of row r of a sealed tile (R107). -/
def sealedScore (v : TileView) (sigma : Fr) (q : List Nat) (qq : Int × List Int) (r : Nat) : Int × Bool :=
  let codes := v.codes.getD r []
  let s := ((List.range v.d).zip qq.2).foldl (fun s p => s + p.2 * v.codeInt p.1 (codes.getD p.1 0)) 0
  let main := (Fr.ofInt s).shift (if v.kvfmt = 2 then qq.1 - 9 else qq.1)
  let outs := dotBf (v.outs.map (fun o => q.getD o 0)) (v.outVals.map (fun l => l.getD r 0))
  scoreOf sigma (main.add outs)

/-! ### Partials -/

/-- A partial (R87, R110): M, L, O and the flags that merges carry. -/
structure Partial where
  /-- Nothing is covered. -/
  empty : Bool
  /-- int16. -/
  m : Int
  /-- uint64, units 2^−32. -/
  l : Nat
  /-- int48 by dimension, units 2^−32. -/
  o : List Int
  /-- SATURATED. -/
  sat : Bool
  deriving DecidableEq, Repr

/-- The EMPTY partial (R87). -/
def Partial.none (d : Nat) : Partial := ⟨true, -32768, 0, List.replicate d 0, false⟩

/-- Sum of w·v over positions, by dimension. -/
def accumulate : List (Nat × List Int) → List Int → List Int
  | [], acc => acc
  | (w, v) :: t, acc => accumulate t (List.zipWith (fun a x => a + (w : Int) * x) acc v)

/-- R110: a leaf from its scored positions (score, V row in Q15.32) and the flags of its tile; also how many scores were clamped. -/
def leafOf (d : Nat) (scored : List ((Int × Bool) × List Int)) (flagged : Bool) : Partial × Nat :=
  match scored with
  | [] => (Partial.none d, 0)
  | s :: _ =>
    let top := scored.foldl (fun m x => max m x.1.1) s.1.1
    let m := (top + 65535) / 65536
    let ws := scored.map (fun x => (exp2w (m * 65536 - x.1.1).toNat, x.2))
    let l := ws.foldl (fun a x => a + x.1) 0
    let n := accumulate ws (List.replicate d 0)
    let cl := (scored.filter (fun x => x.1.2)).length
    (⟨false, m, l, n.map (fun a => roundDiv a l), decide (cl ≠ 0) || flagged⟩, cl)

/-- The leaf of tile t for one query row (R110), with its clamped scores (R115). -/
def leaf (sh : Shape) (src : TileSrc) (sigmaBits : Nat) (q : List Nat) (mk : Mask) (len t : Nat) : Partial × Nat :=
  let ps := (List.range 64).filter (fun r => mk.open_ len (64 * t + r))
  let sg := sigmaVal sigmaBits
  match src with
  | .tail k v cond =>
    let ps := ps.filter (fun r => decide (r < k.length))
    leafOf sh.d (ps.map (fun r => (scoreOf sg (dotBf q (k.getD r [])), (v.getD r []).map bf16Q32))) cond
  | .sealed k v =>
    let kv := openTile sh.kvfmt sh.dcode k
    let vv := openTile sh.kvfmt sh.dcode v
    let qq := quantQuery kv q
    leafOf sh.d (ps.map (fun r => (sealedScore kv sg q qq r, (List.range sh.d).map (fun c => vv.val r c))))
      (kv.flagged || vv.flagged)

/-- R111. -/
def merge (a b : Partial) : Partial :=
  if a.empty && b.empty then a
  else
    let m := max a.m b.m
    let la := shr a.l (m - a.m).toNat
    let lb := shr b.l (m - b.m).toNat
    let l := la + lb
    ⟨false, m, l, List.zipWith (fun x y => roundDiv ((la : Int) * x + (lb : Int) * y) l) a.o b.o, a.sat || b.sat⟩

/-- Node (level k, index i) of the tree of R84 over leaves listed by tile; an unlisted leaf is EMPTY. -/
def treeNode (d : Nat) (leaves : List (Nat × Partial)) : Nat → Nat → Partial
  | 0, i => (tabGet leaves i).getD (Partial.none d)
  | k + 1, i =>
    let part := leaves.filter (fun p => decide (p.1 / pow2 (k + 1) = i))
    if part.isEmpty then Partial.none d
    else merge (treeNode d part k (2 * i)) (treeNode d part k (2 * i + 1))

/-- The smallest aligned block, as (j, first span), covering spans a to b (R89). -/
def coverBlock (a b : Nat) : Nat → Nat × Nat
  | 0 => (0, a)
  | f + 1 =>
    let r := coverBlock a b f
    if a / pow2 r.1 = b / pow2 r.1 then (r.1, a / pow2 r.1 * pow2 r.1) else (r.1 + 1, a / pow2 (r.1 + 1) * pow2 (r.1 + 1))

/-- Maximal aligned blocks, as (j, first span), inside the block (j, s0) that meet only spans that `ok` admits where `need` holds (R91): a block is taken when it holds a needed span and every needed span of it is ok. A span that lies here in part stands alone (log 141). -/
def maxBlocks (need ok part : Nat → Bool) : Nat → Nat → List (Nat × Nat)
  | 0, s0 => if need s0 && (ok s0 || part s0) then [(0, s0)] else []
  | j + 1, s0 =>
    let spans := (rangeFrom s0 (pow2 (j + 1))).filter need
    if spans.isEmpty then []
    else if spans.all ok then [(j + 1, s0)]
    else maxBlocks need ok part j s0 ++ maxBlocks need ok part j (s0 + pow2 j)

/-- Bytes of a partial record (Table 3.9, R112). -/
def recordBytes (p : Partial) (provisional : Bool) (tag first last : Nat) : List Byte :=
  let flags := b2n p.empty + 2 * b2n p.sat + 4 * b2n provisional
  leBytes 2 (ofSigned 16 p.m) ++ leBytes 8 p.l ++ leBytes 1 flags ++ leBytes 2 (tag % 65536) ++
  leBytes 3 (if p.empty then 0 else first % 4096 + 4096 * (last % 4096)) ++
  p.o.flatMap (fun x => leBytes 6 (ofSigned 48 x))

/-- R113. -/
def finalise (p : Partial) : List Nat :=
  if p.empty then p.o.map (fun _ => 0) else p.o.map (fun x => bf16Round ⟨x, pow2 32⟩)

/-- Bucket of a span count (Table 3.8). -/
def bucketOf (n : Nat) : Nat :=
  if n ≤ 1 then 0 else if n = 2 then 1 else if n = 3 then 2 else if n = 4 then 3 else if n ≤ 8 then 4
  else if n ≤ 16 then 5 else if n ≤ 32 then 6 else if n ≤ 64 then 7 else if n ≤ 128 then 8 else 9

end Sys2Proof.Machine
end

