-- ==== Sys2Proof/Machine/RegMap.lean ====
section
/-!
DEFINITION. The register map (chapter 17): every register of the sixteen blocks, with its address, its access code, the bits that are not reserved, its reset value and the instant at which a committed value takes effect.
A register is named by its byte address in the 16 MiB space (R417); Reg.<name> gives each address its own name.
-/

namespace Sys2Proof.Machine

open Sys2Proof

/-- Access codes (Table 0.2), with RO split by where its value lives. -/
inductive Acc where
  | rw
  | wo
  | st
  /-- Status register with sequence number. -/
  | rs
  /-- Event register (RS/SC). -/
  | ev
  /-- Read only, written by the node. -/
  | ro
  /-- Read-only latched counter (R41). -/
  | lat
  /-- Read only, computed from the node's other state when read. -/
  | view
  deriving DecidableEq, Repr

/-- When a committed value takes effect (R389). -/
inductive Timing where
  | now
  | midnight
  /-- The Midnight that begins frame F + 2. -/
  | frame2
  /-- The link's next DETECT (R268). -/
  | detect
  deriving DecidableEq, Repr

/-- One row of the map: `count` entries of `words` registers at `stride` bytes from `base`. -/
structure RegRow where
  /-- Name. -/
  name : String
  /-- Address of the first register. -/
  base : Nat
  /-- Bytes from entry to entry. -/
  stride : Nat
  /-- Entries. -/
  count : Nat
  /-- Access code. -/
  acc : Acc
  /-- Per register of an entry: bits that are not reserved, and the reset value. -/
  words : List (Nat × Nat)
  /-- When a commit takes effect. -/
  timing : Timing := .now
  deriving DecidableEq, Repr

/-- All 32 bits. -/
abbrev allBits : Nat := 0xFFFFFFFF

/-- Rows of SYS, CLK, PWR, TIME (Tables 17.3, 16.10, 17.15, 2.6). -/
def regRows0 : List RegRow := [
  ⟨"SYS_ID", 0x000000, 4, 1, .ro, [(0xFFFFFF, 0xB01344)], .now⟩,
  ⟨"SYS_BOOT", 0x000010, 4, 1, .rs, [(0xFF00FF7F, 3)], .now⟩,
  ⟨"SYS_EVENT", 0x000024, 4, 1, .ev, [(0xFF00001F, 0)], .now⟩,
  ⟨"SYS_PARITY_ADDR", 0x000028, 4, 1, .ro, [(0x3FFFFFF, 0)], .now⟩,
  ⟨"SYS_REFUSED_ADDR", 0x00002C, 4, 1, .ro, [(0xFFFFFF, 0)], .now⟩,
  ⟨"SYS_EVENT_SUM", 0x000030, 4, 1, .view, [(0xFFFF, 0)], .now⟩,
  ⟨"SYS_ALERT_MASK", 0x000034, 4, 1, .st, [(0xFFFF, 0x4007)], .now⟩,
  ⟨"SYS_MSG_CFG", 0x000038, 4, 1, .st, [(0x7FFFFF, 0)], .now⟩,
  ⟨"SYS_COMMIT", 0x000040, 8, 1, .rw, [(0x77777777, 0x33221000), (0x77777777, 0x51776654)], .now⟩,
  ⟨"SYS_COMMIT_GO", 0x000048, 4, 1, .wo, [(0xFF, 0)], .now⟩,
  ⟨"SYS_COMMIT_LAST", 0x00004C, 4, 1, .rs, [(0xFF00FFFF, 0)], .now⟩,
  ⟨"SYS_FLASH_CTL", 0x000100, 4, 1, .rw, [(0x3FF, 0)], .now⟩,
  ⟨"SYS_FLASH_ADDR", 0x000104, 4, 1, .rw, [(allBits, 0)], .now⟩,
  ⟨"SYS_FLASH_STATUS", 0x000108, 4, 1, .rs, [(0xFF00001F, 0)], .now⟩,
  ⟨"SYS_FLASH_DATA", 0x000200, 4, 64, .rw, [(allBits, 0)], .now⟩,
  ⟨"CLK_CFG", 0x100000, 4, 1, .st, [(0x7F, 0x40)], .frame2⟩,
  ⟨"CLK_OBS_CFG", 0x100004, 4, 1, .st, [(0x1FF, 0x10)], .now⟩,
  ⟨"CLK_STATUS", 0x100020, 4, 1, .rs, [(0xFF000FFF, 0)], .now⟩,
  ⟨"CLK_EVENT", 0x100024, 4, 1, .ev, [(0xFF00003F, 0)], .now⟩,
  ⟨"CLK_TWILIGHT", 0x100030, 4, 1, .ro, [(allBits, 0)], .now⟩,
  ⟨"PWR_FEED_CFG", 0x200000, 4, 1, .st, [(1, 0)], .now⟩,
  ⟨"PWR_STATUS", 0x200020, 4, 1, .rs, [(0xFF00001F, 0)], .now⟩,
  ⟨"PWR_EVENT", 0x200024, 4, 1, .ev, [(0xFF00000F, 0)], .now⟩,
  ⟨"PWR_FEED_V", 0x200030, 4, 1, .ro, [(allBits, 0)], .now⟩,
  ⟨"PWR_INPUT", 0x200034, 4, 1, .ro, [(allBits, 0)], .now⟩,
  ⟨"PWR_LAST_SHUTDOWN", 0x200040, 4, 1, .ro, [(0xFFF, 0)], .now⟩,
  ⟨"PWR_TEMP", 0x210000, 4, 176, .ro, [(allBits, 0)], .now⟩,
  ⟨"TIME_NOW", 0x300000, 8, 1, .view, [(allBits, 0), (allBits, 0)], .now⟩,
  ⟨"TIME_CFG", 0x300010, 4, 1, .st, [(0xF, 0xD)], .now⟩,
  ⟨"TIME_PPS_COMP", 0x300014, 4, 1, .st, [(0xFFFF, 0)], .now⟩,
  ⟨"TIME_STATUS", 0x300020, 4, 1, .rs, [(0xFF0001FF, 0x1E0)], .now⟩,
  ⟨"TIME_OFFSET", 0x300024, 4, 1, .ro, [(0xFFFF, 0)], .now⟩,
  ⟨"TIME_EVENT", 0x300028, 4, 1, .ev, [(0xFF00007F, 0)], .now⟩,
  ⟨"TIME_LATCH_FRAME", 0x300030, 8, 1, .ro, [(allBits, 0), (0xFFF, 0)], .now⟩,
  ⟨"TIME_MODE_REQ", 0x300040, 4, 1, .st, [(0xFF03, 0x800)], .now⟩,
  ⟨"TIME_MODE_STATUS", 0x300044, 4, 1, .ro, [(0x7F, 3)], .now⟩,
  ⟨"TIME_MODE_EFF", 0x300048, 8, 1, .ro, [(allBits, 0), (0xFFF, 0)], .now⟩,
  ⟨"TIME_DIAL_STATUS", 0x300050, 4, 1, .ro, [(0x3FFFF, 3)], .now⟩,
  ⟨"TIME_DIAL", 0x310000, 4, 768, .st, [(0x1F1F1F1F, 0)], .frame2⟩]

/-- Rows of ATT, VSP, MEM, PGW (Tables 4.7, 8.8, 6.10, 7.6, 5.13). -/
def regRows1 : List RegRow := [
  ⟨"ATT_SAT_THRESH", 0x400200, 4, 1, .st, [(allBits, 1)], .midnight⟩,
  ⟨"ATT_SAT_EVENT", 0x400204, 4, 1, .ev, [(0xFF000007, 0)], .now⟩,
  ⟨"ATT_SAT_FIRST", 0x400208, 4, 1, .ro, [(0x1FFF, 0)], .now⟩,
  ⟨"ATT_PROG_CG", 0x400400, 4, 1, .st, [(0xFFF, 0xC00)], .midnight⟩,
  ⟨"ATT_LOAD_SRC", 0x400410, 8, 1, .st, [(0xFFFFF000, 0), (allBits, 0)], .now⟩,
  ⟨"ATT_LOAD_LEN", 0x400418, 4, 1, .st, [(allBits, 0)], .now⟩,
  ⟨"ATT_LOAD_CTL", 0x40041C, 4, 1, .st, [(0x3FF0007, 0)], .now⟩,
  ⟨"ATT_LOAD_STATUS", 0x400420, 4, 1, .rs, [(0xFF00FF01, 0)], .now⟩,
  ⟨"ATT_PROG_EVENT", 0x400424, 4, 1, .ev, [(0xFF00000F, 0)], .now⟩,
  ⟨"ATT_SAT_TENANT", 0x410000, 16, 4096, .lat, [(allBits, 0), (allBits, 0), (allBits, 0), (allBits, 0)], .now⟩,
  ⟨"ATT_PROG_TENANT", 0x420000, 16, 4096, .lat, [(allBits, 0), (allBits, 0), (allBits, 0), (allBits, 0)], .now⟩,
  ⟨"VSP_BURST_CFG", 0x500000, 4, 1, .st, [(0xF3FFF, 0x82400)], .midnight⟩,
  ⟨"VSP_SCRUB_CFG", 0x500004, 4, 1, .st, [(0xFF03, 0x4003)], .midnight⟩,
  ⟨"VSP_STATUS", 0x500020, 4, 1, .rs, [(0xFF001FFF, 0)], .now⟩,
  ⟨"VSP_EVENT", 0x500024, 4, 1, .ev, [(0xFF00007F, 0)], .now⟩,
  ⟨"VSP_WS_ADDR", 0x500028, 8, 1, .ro, [(allBits, 0), (0xFFF, 0)], .now⟩,
  ⟨"VSP_FAIL_LOC", 0x500030, 4, 1, .ro, [(0x3FFFFFFF, 0)], .now⟩,
  ⟨"VSP_FAIL_INFO", 0x500034, 4, 1, .ro, [(0xFFFF, 0)], .now⟩,
  ⟨"VSP_SCRUB_PASS", 0x500038, 4, 1, .ro, [(allBits, 0)], .now⟩,
  ⟨"VSP_YARD_BYTES", 0x500040, 8, 1, .ro, [(allBits, 0), (allBits, 0)], .now⟩,
  ⟨"VSP_YARD_CYCLES", 0x500048, 8, 1, .ro, [(allBits, 0), (allBits, 0)], .now⟩,
  ⟨"VSP_YARD_FACTOR", 0x500050, 4, 1, .ro, [(0xFFFF, 0)], .now⟩,
  ⟨"VSP_UNIT_STAT", 0x510000, 32, 2048, .lat, List.replicate 8 (allBits, 0), .now⟩,
  ⟨"VSP_UNIT_MASK", 0x520000, 4, 64, .ro, [(allBits, 0)], .now⟩,
  ⟨"MEM_DUSK_CFG", 0x600000, 4, 1, .st, [(allBits, 0x10081008)], .midnight⟩,
  ⟨"MEM_DAWN_CFG", 0x600004, 4, 1, .st, [(0x1F, 0x15)], .midnight⟩,
  ⟨"MEM_STATUS", 0x600020, 4, 1, .rs, [(allBits, 0)], .now⟩,
  ⟨"MEM_EVENT", 0x600024, 4, 1, .ev, [(0xFF0000FF, 0)], .now⟩,
  ⟨"MEM_OCC", 0x600030, 12, 1, .ro, [(allBits, 0), (allBits, 0), (allBits, 0)], .now⟩,
  ⟨"MEM_STAT", 0x600040, 12, 1, .lat, [(allBits, 0), (allBits, 0), (allBits, 0)], .now⟩,
  ⟨"MEM_REPAIR", 0x600050, 4, 1, .ro, [(allBits, 0)], .now⟩,
  ⟨"MEM_SPLIT", 0x600100, 4, 8, .ro, [(0x7FFFF, 73728)], .now⟩,
  ⟨"MEM_CLASS_CFG", 0x600200, 4, 24, .st, [(0x3F, 0x10)], .midnight⟩,
  ⟨"MEM_STALL_TENANT", 0x640000, 64, 4096, .lat, List.replicate 16 (allBits, 0), .now⟩,
  ⟨"PGW_CFG", 0x700000, 4, 1, .st, [(0x1FFFF, 0x11000)], .midnight⟩,
  ⟨"PGW_SEQ_CFG", 0x700004, 4, 1, .st, [(0x1F, 18)], .now⟩,
  ⟨"PGW_SEQ_BASE", 0x700008, 8, 1, .st, [(0xFFF00000, 0), (0x1FF, 0)], .now⟩,
  ⟨"PGW_MIRROR_BASE", 0x700010, 8, 1, .st, [(0xFFF00000, 0), (0x1FF, 0)], .now⟩,
  ⟨"PGW_STATUS", 0x700020, 4, 1, .rs, [(0xFF000003, 0)], .now⟩,
  ⟨"PGW_EVENT", 0x700024, 4, 1, .ev, [(0xFF00001F, 0)], .now⟩,
  ⟨"PGW_STAT", 0x700030, 12, 1, .lat, [(allBits, 0), (allBits, 0), (allBits, 0)], .now⟩,
  ⟨"PGW_CLASS_CFG", 0x700100, 4, 24, .st, [(1, 0)], .midnight⟩]

/-- Rows of MAT, LNK, QUE, SCH (Tables 9.9, 10.10, 11.12, 11.18). -/
def regRows2 : List RegRow := [
  ⟨"MAT_CFG", 0x800000, 4, 1, .st, [(0xFFF, 0x420)], .now⟩,
  ⟨"MAT_KEY_BASE", 0x800008, 8, 1, .st, [(0xFFF00000, 0), (0x1FF, 0)], .now⟩,
  ⟨"MAT_CASC_CFG", 0x800010, 4, 1, .st, [(0xF7F, 0xA00)], .midnight⟩,
  ⟨"MAT_RULE_CTL", 0x800014, 4, 1, .st, [(0xFFFF007F, 0)], .now⟩,
  ⟨"MAT_RULE_EFF", 0x800018, 8, 1, .st, [(allBits, 0), (0xFFF, 0)], .now⟩,
  ⟨"MAT_STATUS", 0x800020, 4, 1, .rs, [(0xFF000007, 0)], .now⟩,
  ⟨"MAT_EVENT", 0x800024, 4, 1, .ev, [(0xFF0000FF, 0)], .now⟩,
  ⟨"MAT_RULE_STATUS", 0x800028, 4, 1, .rs, [(0xFF007F07, 0)], .now⟩,
  ⟨"MAT_KEY_FREE", 0x80002C, 4, 1, .view, [(0x1FFFF, 0)], .now⟩,
  ⟨"MAT_STAT", 0x800030, 8, 1, .lat, [(allBits, 0), (allBits, 0)], .now⟩,
  ⟨"MAT_RULE_VALUE", 0x800100, 4, 5, .st, [(allBits, 0)], .now⟩,
  ⟨"MAT_RULE_CARE", 0x800120, 4, 5, .st, [(allBits, 0)], .now⟩,
  ⟨"MAT_RULE_WORD", 0x800140, 4, 1, .st, [(allBits, 0)], .now⟩,
  ⟨"MAT_IMAGE", 0x810000, 16, 64, .view, [(7, 0), (allBits, 0), (allBits, 0), (allBits, 0)], .now⟩,
  ⟨"LNK_CFG", 0x900000, 4, 1, .st, [(0xFF01, 0x401)], .midnight⟩,
  ⟨"LNK_RETRY_CFG", 0x900004, 4, 1, .st, [(0xFFFFFF, 0x108080)], .midnight⟩,
  ⟨"LNK_CODEC_CFG", 0x900008, 4, 1, .st, [(0xFF1F, 0x81F)], .midnight⟩,
  ⟨"LNK_STATUS", 0x900020, 4, 1, .rs, [(0xFF07FFFF, 0x7FF)], .now⟩,
  ⟨"LNK_EVENT", 0x900024, 4, 1, .ev, [(0xFF00007F, 0)], .now⟩,
  ⟨"LNK_STAT_DROP", 0x900028, 4, 1, .lat, [(allBits, 0)], .now⟩,
  ⟨"LNK_PORT_CFG", 0x900100, 4, 64, .st, [(0xF3, 0x53)], .detect⟩,
  ⟨"LNK_PORT_STATE", 0x900200, 4, 64, .view, [(0x1FFFFFFF, 0x1FFC00)], .now⟩,
  ⟨"LNK_PORT_STAT", 0x910000, 32, 64, .lat, List.replicate 8 (allBits, 0), .now⟩,
  ⟨"LNK_ROUTE", 0x920000, 4, 2048, .view, [(allBits, 0)], .now⟩,
  ⟨"QUE_CFG", 0xA00000, 4, 1, .st, [(0xFF07FF, 0x40400)], .now⟩,
  ⟨"QUE_CTX_BASE", 0xA00008, 8, 1, .st, [(0xFFFFF000, 0), (allBits, 0)], .now⟩,
  ⟨"QUE_CMD", 0xA00010, 4, 1, .st, [(0xF, 0)], .now⟩,
  ⟨"QUE_CMD_QPN", 0xA00014, 4, 1, .st, [(0xFFFFF, 0)], .now⟩,
  ⟨"QUE_CMD_STATUS", 0xA00018, 4, 1, .rs, [(0xFF0000F1, 0)], .now⟩,
  ⟨"QUE_STATUS", 0xA00020, 4, 1, .rs, [(0xFF007FFF, 0)], .now⟩,
  ⟨"QUE_EVENT", 0xA00024, 4, 1, .ev, [(0xFF00007F, 0)], .now⟩,
  ⟨"QUE_PINNED", 0xA0002C, 4, 1, .view, [(0x7FF, 0)], .now⟩,
  ⟨"QUE_STAT", 0xA00030, 20, 1, .lat, List.replicate 5 (allBits, 0), .now⟩,
  ⟨"QUE_CMD_DATA", 0xA01000, 4, 64, .st, [(allBits, 0)], .now⟩,
  ⟨"SCH_CFG", 0xB00000, 4, 1, .st, [(0xFFFFF, 64)], .midnight⟩,
  ⟨"SCH_STATUS", 0xB00020, 4, 1, .rs, [(0xFF01FFFF, 0)], .now⟩,
  ⟨"SCH_EVENT", 0xB00024, 4, 1, .ev, [(0xFF000007, 0)], .now⟩,
  ⟨"SCH_CLASS_CFG", 0xB00100, 4, 24, .st, [(0x1FFFFF, 256)], .midnight⟩,
  ⟨"SCH_CLASS_STAT", 0xB00200, 16, 24, .lat, List.replicate 4 (allBits, 0), .now⟩,
  ⟨"SCH_TENANT_CFG", 0xB10000, 16, 4096, .st, [(0xFFFFFF, 0xFFFFFF), (allBits, allBits), (0xFFFFF, 4096), (0xFFFFF, 2048)], .midnight⟩,
  ⟨"SCH_TENANT_STAT", 0xB20000, 16, 4096, .lat, List.replicate 4 (allBits, 0), .now⟩]

/-- Rows of MAP, SEC, HLT, HST (Tables 12.6, 14.7, 17.10, 15.7). -/
def regRows3 : List RegRow := [
  ⟨"MAP_CFG", 0xC00000, 4, 1, .st, [(0x1FF, 0x110)], .midnight⟩,
  ⟨"MAP_ID", 0xC00004, 4, 1, .view, [(0x7F, 0)], .now⟩,
  ⟨"MAP_GEN", 0xC00008, 8, 1, .view, [(allBits, 0), (allBits, 0)], .now⟩,
  ⟨"MAP_NEXT", 0xC00010, 8, 1, .view, [(allBits, 0), (allBits, 0)], .now⟩,
  ⟨"MAP_NEXT_EFF", 0xC00018, 8, 1, .view, [(allBits, 0), (0xFFF, 0)], .now⟩,
  ⟨"MAP_STATUS", 0xC00020, 4, 1, .rs, [(0xFF0003FF, 0)], .now⟩,
  ⟨"MAP_EVENT", 0xC00024, 4, 1, .ev, [(0xFF0001FF, 0)], .now⟩,
  ⟨"MAP_LOSS_SLOTS", 0xC00028, 4, 1, .view, [(0x1FFFF, 0)], .now⟩,
  ⟨"MAP_PROP_CTL", 0xC00030, 4, 1, .st, [(0xF, 0)], .now⟩,
  ⟨"MAP_PROP_ARG", 0xC00034, 4, 3, .st, [(allBits, 0)], .now⟩,
  ⟨"MAP_PROP_STATUS", 0xC00040, 4, 1, .rs, [(0xFF000007, 0)], .now⟩,
  ⟨"MAP_DIGEST", 0xC00050, 4, 12, .view, [(allBits, 0)], .now⟩,
  ⟨"MAP_STAT", 0xC00080, 12, 1, .lat, [(allBits, 0), (allBits, 0), (allBits, 0)], .now⟩,
  ⟨"MAP_VIEW_NODES", 0xC10000, 4, 8192, .view, [(allBits, 0)], .now⟩,
  ⟨"MAP_VIEW_CLASSES", 0xC18000, 4, 6, .view, [(allBits, 0)], .now⟩,
  ⟨"MAP_VIEW_SLICES", 0xC18100, 4, 384, .view, [(allBits, 0)], .now⟩,
  ⟨"MAP_VIEW_MEMBERS", 0xC20000, 4, 32768, .view, [(allBits, 0)], .now⟩,
  ⟨"MAP_VIEW_HOMES", 0xC40000, 4, 32768, .view, [(allBits, 0)], .now⟩,
  ⟨"MAP_VIEW_LOSS", 0xC60000, 4, 2048, .view, [(allBits, 0)], .now⟩,
  ⟨"SEC_CFG", 0xD00000, 4, 1, .st, [(0x1F, 0x1A)], .midnight⟩,
  ⟨"SEC_STATUS", 0xD00020, 4, 1, .rs, [(0xFF00001F, 0)], .now⟩,
  ⟨"SEC_EVENT", 0xD00024, 4, 1, .ev, [(0xFF0001FF, 0)], .now⟩,
  ⟨"SEC_NOTICE", 0xD00028, 4, 1, .ro, [(0xFFFFFF01, 0)], .now⟩,
  ⟨"SEC_ROLE", 0xD0002C, 4, 1, .view, [(0xFFF003, 0)], .now⟩,
  ⟨"SEC_LMS_Q", 0xD00030, 4, 1, .view, [(0x3FFFFFFF, 0)], .now⟩,
  ⟨"SEC_STAT_DENIED", 0xD00034, 4, 1, .lat, [(allBits, 0)], .now⟩,
  ⟨"SEC_ATTEST_CTL", 0xD00040, 4, 1, .st, [(3, 0)], .now⟩,
  ⟨"SEC_ATTEST_STATUS", 0xD00044, 4, 1, .rs, [(0xFF000007, 0)], .now⟩,
  ⟨"SEC_ATTEST_NONCE", 0xD00050, 4, 8, .st, [(allBits, 0)], .now⟩,
  ⟨"SEC_IDD", 0xD00080, 4, 12, .view, [(allBits, 0)], .now⟩,
  ⟨"SEC_ISO_CFG", 0xD00100, 4, 24, .st, [(0xFFFF0001, 0)], .frame2⟩,
  ⟨"SEC_ISO_LATE", 0xD00200, 4, 24, .lat, [(allBits, 0)], .now⟩,
  ⟨"SEC_REPORT", 0xD10000, 4, 2048, .view, [(allBits, 0)], .now⟩,
  ⟨"SEC_DEBUG", 0xD20000, 4, 4096, .wo, [(allBits, 0)], .now⟩,
  ⟨"SEC_CERT", 0xD30000, 4, 4096, .view, [(allBits, 0)], .now⟩,
  ⟨"HLT_CFG", 0xE00000, 8, 1, .st, [(allBits, 0x4000100), (0x1FFFF, 0x13018)], .midnight⟩,
  ⟨"HLT_STATUS", 0xE00020, 4, 1, .rs, [(0xFF7FFFFF, 0)], .now⟩,
  ⟨"HLT_EVENT", 0xE00024, 4, 1, .ev, [(0xFF0001FF, 0)], .now⟩,
  ⟨"HLT_VPLAN", 0xE00030, 8, 1, .ro, [(0xFFF, 0), (allBits, 0)], .now⟩,
  ⟨"HLT_HEARTBEAT", 0xE00040, 4, 1, .ro, [(0xFFFFFFF, 0)], .now⟩,
  ⟨"HLT_WDOG", 0xE00044, 4, 1, .ro, [(allBits, 0)], .now⟩,
  ⟨"HLT_SCORE_BG", 0xE10000, 4, 2048, .view, [(0x3FFFF, 0)], .now⟩,
  ⟨"HLT_SCORE_HBM", 0xE12000, 4, 8, .view, [(0x3FFFF, 0)], .now⟩,
  ⟨"HLT_SCORE_LPDDR", 0xE12020, 4, 8, .view, [(0x3FFFF, 0)], .now⟩,
  ⟨"HLT_SCORE_LINK", 0xE12100, 4, 64, .view, [(0x3FFFF, 0)], .now⟩,
  ⟨"HLT_SCORE_CORE", 0xE12200, 4, 96, .view, [(0x3FFFF, 0)], .now⟩,
  ⟨"HLT_AGE", 0xE20000, 4, 128, .ro, [(0xFFFF, 0)], .now⟩,
  ⟨"HLT_REBUILD_TENANT", 0xE30000, 4, 4096, .lat, [(allBits, 0)], .now⟩,
  ⟨"HST_STATUS", 0xF00020, 4, 1, .rs, [(0xFF00000F, 0)], .now⟩,
  ⟨"HST_EVENT", 0xF00024, 4, 1, .ev, [(0xFF00003F, 0)], .now⟩,
  ⟨"HST_STAT", 0xF00030, 16, 1, .lat, List.replicate 4 (allBits, 0), .now⟩,
  ⟨"HST_FN_CFG0", 0xF00100, 4, 1, .st, [(0x3FFC, 1)], .now⟩,
  ⟨"HST_FN_CFG", 0xF00104, 4, 31, .st, [(0x3FFF, 0)], .now⟩,
  ⟨"HST_WIN", 0xF10000, 32, 256, .st, [(0xFFFFF000, 0), (allBits, 0), (0xFFFFF000, 0), (allBits, 0), (0xFF, 0), (0, 0), (0, 0), (0, 0)], .now⟩]

/-- Rows of a block number; SYS 0 … HST 15 (Table 17.1). -/
def regRows : List RegRow := regRows0 ++ regRows1 ++ regRows2 ++ regRows3

/-- A register as an address finds it. -/
structure RegRef where
  /-- Its row. -/
  row : RegRow
  /-- Entry within the row. -/
  entry : Nat
  /-- Register within the entry. -/
  word : Nat
  deriving DecidableEq, Repr

/-- The place of an address in one row. -/
def RegRow.place (r : RegRow) (a : Nat) : Option RegRef :=
  if r.base ≤ a ∧ a < r.base + r.stride * r.count ∧ a % 4 = 0 then
    let e := (a - r.base) / r.stride
    let w := (a - r.base) % r.stride / 4
    if w < r.words.length then some ⟨r, e, w⟩ else none
  else none

/-- Rows of the block that an address lies in. -/
def rowsOf (a : Nat) : List RegRow :=
  if a < 0x400000 then regRows0 else if a < 0x800000 then regRows1 else if a < 0xC00000 then regRows2 else regRows3

/-- The register at an address; none where the offset holds no register (R387, R417). -/
def findReg (a : Nat) : Option RegRef := (rowsOf a).findSome? (fun r => r.place a)

/-- Bits that are not reserved. -/
def RegRef.mask (r : RegRef) : Nat := (r.row.words.getD r.word (0, 0)).1
/-- Reset value (R418). -/
def RegRef.reset (r : RegRef) : Nat := (r.row.words.getD r.word (0, 0)).2
/-- Reset value at an address; 0 where there is no register. -/
def resetOf (a : Nat) : Nat := ((findReg a).map RegRef.reset).getD 0

/-- Addresses of the registers of a row, lowest first. -/
def RegRow.addrs (r : RegRow) : List Nat :=
  (List.range r.count).flatMap (fun e => (List.range r.words.length).map (fun w => r.base + r.stride * e + 4 * w))

/-! ### Names of single registers -/
namespace Reg
/-- Addresses. -/
abbrev sysBoot := 0x000010
abbrev sysEvent := 0x000024
abbrev sysParityAddr := 0x000028
abbrev sysRefusedAddr := 0x00002C
abbrev sysEventSum := 0x000030
abbrev sysAlertMask := 0x000034
abbrev sysMsgCfg := 0x000038
abbrev sysCommit := 0x000040
abbrev sysCommitGo := 0x000048
abbrev sysCommitLast := 0x00004C
abbrev sysFlashCtl := 0x000100
abbrev sysFlashAddr := 0x000104
abbrev sysFlashStatus := 0x000108
abbrev sysFlashData := 0x000200
abbrev clkCfg := 0x100000
abbrev clkObsCfg := 0x100004
abbrev clkStatus := 0x100020
abbrev clkEvent := 0x100024
abbrev clkTwilight := 0x100030
abbrev pwrFeedCfg := 0x200000
abbrev pwrStatus := 0x200020
abbrev pwrEvent := 0x200024
abbrev pwrFeedV := 0x200030
abbrev pwrInput := 0x200034
abbrev pwrLastShutdown := 0x200040
abbrev pwrTemp := 0x210000
abbrev timeNow := 0x300000
abbrev timeCfg := 0x300010
abbrev timePpsComp := 0x300014
abbrev timeStatus := 0x300020
abbrev timeOffset := 0x300024
abbrev timeEvent := 0x300028
abbrev timeLatchFrame := 0x300030
abbrev timeModeReq := 0x300040
abbrev timeModeStatus := 0x300044
abbrev timeModeEff := 0x300048
abbrev timeDialStatus := 0x300050
abbrev timeDial := 0x310000
abbrev attSatThresh := 0x400200
abbrev attSatEvent := 0x400204
abbrev attSatFirst := 0x400208
abbrev attProgCg := 0x400400
abbrev attLoadSrc := 0x400410
abbrev attLoadLen := 0x400418
abbrev attLoadCtl := 0x40041C
abbrev attLoadStatus := 0x400420
abbrev attProgEvent := 0x400424
abbrev attSatTenant := 0x410000
abbrev attProgTenant := 0x420000
abbrev vspBurstCfg := 0x500000
abbrev vspScrubCfg := 0x500004
abbrev vspStatus := 0x500020
abbrev vspEvent := 0x500024
abbrev vspWsAddr := 0x500028
abbrev vspFailLoc := 0x500030
abbrev vspFailInfo := 0x500034
abbrev vspScrubPass := 0x500038
abbrev vspYardBytes := 0x500040
abbrev vspYardCycles := 0x500048
abbrev vspYardFactor := 0x500050
abbrev vspUnitStat := 0x510000
abbrev vspUnitMask := 0x520000
abbrev memDuskCfg := 0x600000
abbrev memDawnCfg := 0x600004
abbrev memStatus := 0x600020
abbrev memEvent := 0x600024
abbrev memOcc := 0x600030
abbrev memStat := 0x600040
abbrev memRepair := 0x600050
abbrev memSplit := 0x600100
abbrev memClassCfg := 0x600200
abbrev memStallTenant := 0x640000
abbrev pgwCfg := 0x700000
abbrev pgwSeqCfg := 0x700004
abbrev pgwSeqBase := 0x700008
abbrev pgwMirrorBase := 0x700010
abbrev pgwStatus := 0x700020
abbrev pgwEvent := 0x700024
abbrev pgwStat := 0x700030
abbrev pgwClassCfg := 0x700100
abbrev matCfg := 0x800000
abbrev matKeyBase := 0x800008
abbrev matCascCfg := 0x800010
abbrev matRuleCtl := 0x800014
abbrev matRuleEff := 0x800018
abbrev matStatus := 0x800020
abbrev matEvent := 0x800024
abbrev matRuleStatus := 0x800028
abbrev matKeyFree := 0x80002C
abbrev matStat := 0x800030
abbrev matRuleValue := 0x800100
abbrev matRuleCare := 0x800120
abbrev matRuleWord := 0x800140
abbrev matImage := 0x810000
abbrev lnkCfg := 0x900000
abbrev lnkRetryCfg := 0x900004
abbrev lnkCodecCfg := 0x900008
abbrev lnkStatus := 0x900020
abbrev lnkEvent := 0x900024
abbrev lnkStatDrop := 0x900028
abbrev lnkPortCfg := 0x900100
abbrev lnkPortState := 0x900200
abbrev lnkPortStat := 0x910000
abbrev lnkRoute := 0x920000
abbrev queCfg := 0xA00000
abbrev queCtxBase := 0xA00008
abbrev queCmd := 0xA00010
abbrev queCmdQpn := 0xA00014
abbrev queCmdStatus := 0xA00018
abbrev queStatus := 0xA00020
abbrev queEvent := 0xA00024
abbrev quePinned := 0xA0002C
abbrev queStat := 0xA00030
abbrev queCmdData := 0xA01000
abbrev schCfg := 0xB00000
abbrev schStatus := 0xB00020
abbrev schEvent := 0xB00024
abbrev schClassCfg := 0xB00100
abbrev schClassStat := 0xB00200
abbrev schTenantCfg := 0xB10000
abbrev schTenantStat := 0xB20000
abbrev mapCfg := 0xC00000
abbrev mapStatus := 0xC00020
abbrev mapEvent := 0xC00024
abbrev mapPropCtl := 0xC00030
abbrev mapPropArg := 0xC00034
abbrev mapPropStatus := 0xC00040
abbrev mapStat := 0xC00080
abbrev secCfg := 0xD00000
abbrev secStatus := 0xD00020
abbrev secEvent := 0xD00024
abbrev secNotice := 0xD00028
abbrev secStatDenied := 0xD00034
abbrev secAttestCtl := 0xD00040
abbrev secAttestStatus := 0xD00044
abbrev secAttestNonce := 0xD00050
abbrev secIsoCfg := 0xD00100
abbrev secIsoLate := 0xD00200
abbrev secDebug := 0xD20000
abbrev hltCfg := 0xE00000
abbrev hltStatus := 0xE00020
abbrev hltEvent := 0xE00024
abbrev hltVplan := 0xE00030
abbrev hltHeartbeat := 0xE00040
abbrev hltWdog := 0xE00044
abbrev hltAge := 0xE20000
abbrev hltRebuildTenant := 0xE30000
abbrev hstStatus := 0xF00020
abbrev hstEvent := 0xF00024
abbrev hstStat := 0xF00030
abbrev hstFnCfg := 0xF00100
abbrev hstWin := 0xF10000
end Reg

/-- Bits of a staged register by the instant at which a commit makes them live: the parts of Timing.now, .midnight, .frame2, .detect. -/
def RegRef.timed (r : RegRef) : List (Timing × Nat) :=
  if r.row.base = Reg.schClassCfg then [(.midnight, 0xFFFFF), (.frame2, 0x100000)]      -- R292, R298
  else if r.row.base = Reg.memClassCfg then [(.now, 1), (.midnight, 0x3E)]              -- R182, R198
  else [(r.row.timing, r.mask)]


/-- Offset of the live copy of a staged register (R388). -/
abbrev liveOff : Nat := 0x80000

/-- The event register of each block that has one, with its block: the SC bits that R417's SYS_EVENT_SUM gathers. -/
def eventRegs : List Nat := [Reg.sysEvent, Reg.clkEvent, Reg.pwrEvent, Reg.timeEvent, Reg.attSatEvent, Reg.attProgEvent,
  Reg.vspEvent, Reg.memEvent, Reg.pgwEvent, Reg.matEvent, Reg.lnkEvent, Reg.queEvent, Reg.schEvent, Reg.mapEvent,
  Reg.secEvent, Reg.hltEvent, Reg.hstEvent]

end Sys2Proof.Machine
end

