-- ==== Sys2Proof/Machine/Types.lean ====
section
/-!
DEFINITION. The pieces of the node's state, block by block: plain data.
-/

namespace Sys2Proof.Machine

open Sys2Proof

/-! ### Registers (chapters 15, 17) -/

/-- A captured value that waits for its instant (R389). -/
structure PendVal where
  /-- Address of the staged register. -/
  addr : Nat
  /-- Bits this entry governs. -/
  mask : Nat
  /-- The captured value. -/
  value : Nat
  /-- The instant. -/
  timing : Nat
  deriving DecidableEq, Repr

/-- The register file (R388, R390, R437): live, staged and pending copies, running counters, parity state. -/
structure RegFile where
  /-- Live values by address; an unlisted register holds its reset value. -/
  live : List (Nat × Nat)
  /-- Staged copies of ST registers; an unlisted one holds its reset value. -/
  staged : List (Nat × Nat)
  /-- Pending values: `timing` is the frame at whose Midnight the bits become live, or detectTiming + link for a link's next DETECT. -/
  pend : List PendVal
  /-- Running counts of the latched registers in the current frame (R41). -/
  run : List (Nat × Nat)
  /-- Copies whose parity is bad: (address, copy) (R390). -/
  badParity : List (Nat × Nat)
  /-- Command registers written since their group's last commit (R437). -/
  written : List Nat
  deriving DecidableEq, Repr

/-! ### Time (chapter 02) -/

/-- What a link partner reported in its last TIME frame (R251), and the exchange with it (R35). -/
structure PartnerTime where
  /-- t_tx of its last TIME frame, 1/16 ticks. -/
  lastTx : Nat
  /-- Arrival of that frame, 1/16 ticks. -/
  lastArr : Nat
  /-- t_tx of our last TIME frame to it. -/
  ourTx : Nat
  /-- t_tx of the one before it: the frame that the partner's frame of the same minute echoes (R35, R251). -/
  prevTx : Nat
  /-- Sum of the path delays of the exchanges of the window, 1/16 ticks. -/
  pathSum : Int
  /-- Exchanges in the window, up to 64. -/
  count : Nat
  /-- A window of 64 has been completed. -/
  averaged : Bool
  /-- Path delay in use, 1/16 ticks: the mean of the last complete window of 64. -/
  path : Int
  /-- Reported hop count; none with no source. -/
  hop : Option Nat
  /-- Reported degraded. -/
  degraded : Bool
  /-- Offset of the partner's count from ours, 1/16 ticks. -/
  offset : Int
  deriving DecidableEq, Repr

/-- The fabric time unit. -/
structure TimeSt where
  /-- PPS_IN and TIME_IN are valid (R32). -/
  ppsValid : Bool
  /-- Count of the last PPS_IN edge, 1/16 ticks. -/
  lastEdge : Option Nat
  /-- Last accepted next_edge (R32). -/
  nextEdge : Option Nat
  /-- The count that the last accepted message announced for the edge to come; none once that edge has come (R32). -/
  due : Option Nat
  /-- A first message that waits for a second to agree with it (R32). -/
  tentative : Option Nat
  /-- Count at the last message that was not ignored (R32). -/
  lastMsg : Option Nat
  /-- Consecutive good seconds since validity was lost (R32). -/
  goodSeconds : Nat
  /-- Consecutive seconds with values inconsistent with the running count (R38). -/
  inconsistent : Nat
  /-- The last accepted message carries reference-degraded (R33). -/
  refDegraded : Bool
  /-- Time has been acquired: the count is never stepped again (R38). -/
  acquired : Bool
  /-- What the count must still be moved by to meet its source, in 1/160,000 ticks (R38). -/
  slew : Int
  /-- Count up to which slewing has been done. -/
  slewAt : Nat
  /-- The part of a tick that slewing has moved the count by beyond the whole count, in 1/160,000 ticks (R38). -/
  frac : Nat
  /-- The part of the offset still outstanding that a commit of TIME_CFG or TIME_PPS_COMP revealed, in 1/160,000 ticks (R55). -/
  revealed : Int
  /-- Such a commit has been made and no offset measured since. -/
  reveal : Bool
  /-- Partners by link. -/
  partners : List (Nat × PartnerTime)
  /-- The link of the time parent (R36). -/
  parent : Option Nat
  /-- The last mode change that took effect: its frame E and the mode before it (R52). -/
  modeChange : Option (Nat × Nat)
  /-- The clocks in force, by the mode they belong to (R52). -/
  clockMode : Nat
  /-- Ticks of refresh so far: HBM bank-group refreshes and LPDDR refreshes issued (R47, R48). -/
  hbmRefreshes : Nat
  /-- LPDDR6 refreshes issued. -/
  lpddrRefreshes : Nat
  /-- Bank of each LPDDR6 channel to be refreshed next. -/
  lpddrBank : Nat
  deriving DecidableEq, Repr

/-! ### Walker -/

/-- Tag of a TLB entry (Table 5.11). -/
structure TlbTag where
  /-- Tenant. -/
  tenant : Nat
  /-- Sequence. -/
  sid : Nat
  /-- Layer. -/
  layer : Nat
  /-- KV head. -/
  head : Nat
  /-- Span. -/
  span : Nat
  deriving DecidableEq, Repr

/-- A TLB entry: one span of one KV head (Table 5.11). -/
structure TlbEntry where
  /-- Tag. -/
  tag : TlbTag
  /-- Page group whose shared record each page stands in, or none: the shared pointers. -/
  shared : List (Option Nat)
  /-- PTEs of pages 4s to 4s + 3, as the walker resolves them. -/
  ptes : List Pte
  deriving DecidableEq, Repr

/-! ### What the node places in its memory -/

/-- A weight tile: its object (slot, 1,024 + rotary index or 2,048 + match slot), the version of that object, the tile (R196, R216). -/
structure TileKey where
  /-- Object. -/
  obj : Nat
  /-- Version. -/
  ver : Nat
  /-- Tile. -/
  tile : Nat
  deriving DecidableEq, Repr

/-- A structure that the node places in its tiers (R123, R125, R138–R141, R146, R177). -/
inductive Place where
  /-- Layer table of a sequence. -/
  | layers (tenant sid : Nat)
  /-- Interior table n of a head. -/
  | inter (tenant sid l h n : Nat)
  /-- Leaf table n of a head. -/
  | leaf (tenant sid l h n : Nat)
  /-- Tail buffer of a head: its K part, then its V part. -/
  | tail (tenant sid l h : Nat)
  /-- Spare tail buffer that a provisional set holds. -/
  | spare (tenant sid l h : Nat)
  /-- Spare tail buffer that a rebuild holds. -/
  | collect (tenant sid l h : Nat)
  /-- Page-group record. -/
  | group (g : Nat)
  /-- Shared records of a group. -/
  | shared (g : Nat)
  /-- Working copy of a weight tile, in protected tier 0. -/
  | work (key : TileKey)
  /-- Encrypted image of a weight tile, in tier 1. -/
  | image (key : TileKey)
  deriving DecidableEq, Repr

/-- An entry of the descriptor cache: one sequence record with one layer descriptor, its head entries among it (R143, Table 5.8). -/
structure DescEnt where
  /-- The sequence record, without its layers. -/
  record : SeqRec
  /-- Layer of the descriptor. -/
  layer : Nat
  /-- The layer descriptor and its head entries; what tail buffers and leaf tables hold is none of it. -/
  desc : LayerRec
  deriving DecidableEq, Repr

/-- Sequences, page groups, caches and pools (PGW). -/
structure PgwSt where
  /-- Sequence records in ascending (bucket, slot). -/
  seqs : List SeqRec
  /-- Page groups by number. -/
  groups : List (Nat × GroupRec)
  /-- Next page-group number. -/
  nextGroup : Nat
  /-- Spare tail buffers in use. -/
  sparesUsed : Nat
  /-- TLB contents, most recent first (R143). -/
  tlb : List TlbEntry
  /-- Descriptor cache, most recent first (R143). -/
  desc : List DescEnt
  /-- Allocation serial: the argument of the placement's free values. -/
  allocs : Nat
  /-- Entry-order serial (R186). -/
  entries : Nat
  /-- Sequences created so far. -/
  created : Nat
  /-- Where each structure lies, as a flat KiB pointer with its KiB; the mark names the mirror copy of a table (R138). -/
  places : List ((Place × Bool) × (Nat × Nat))
  deriving DecidableEq, Repr


/-! ### Requests in flight (chapters 03, 11) -/

/-- Meter colours (R289). -/
inductive Colour where
  | green
  | yellow
  | red
  | unmetered
  deriving DecidableEq, Repr

/-- The rotary table a request names, in the version active at its dispatch (R74, R216). -/
structure Turn where
  /-- Index. -/
  idx : Nat
  /-- Version. -/
  version : Nat
  /-- Table. -/
  table : Rotary
  /-- SHA-384 of its manifest. -/
  manifest : List Byte
  deriving DecidableEq, Repr

/-- A request the node holds: its message and what admission found. -/
structure Req where
  /-- The node's own number for it. -/
  rid : Nat
  /-- Its delivery. -/
  arr : Arrival
  /-- The whole message. -/
  msg : List Byte
  /-- Class. -/
  cls : Nat
  /-- Urgent (R292). -/
  urgent : Bool
  /-- Cost (R288). -/
  cost : Nat
  /-- Bucket (R85). -/
  bucket : Nat
  /-- Count at admission. -/
  tAdmit : Nat
  /-- Earliest release of an isolated class (R366). -/
  notBefore : Nat
  /-- Holds an evidence entry (R340). -/
  evEntry : Bool
  /-- Was held for a home move (R315, R321) or for spares (R125). -/
  heldMove : Bool
  /-- The conditioning of its rows has been counted (R115). -/
  counted : Bool
  /-- The rotary tables of Q and K found at its dispatch, of a request whose effect waits (R98, R216). -/
  turns : Option (Nat ⊕ (Option Turn × Option Turn))
  /-- Generation held at its dispatch, of a request whose effect waits (Table 13.5). -/
  gen : Option Nat
  /-- The PSN stream of its queue pair that it came in (R276). -/
  stream : Nat
  deriving DecidableEq, Repr

/-- Stall causes (Table 7.4). -/
inductive Stall where
  | reserve
  | spareTail
  | shadowWrite
  | fetchLate
  | fetchFail
  | digestRepair
  | weightRepair
  | tableRepair
  deriving DecidableEq, Repr

/-- Where a leaf's tiles are computed or waited for. -/
inductive Exec where
  /-- A hub core. -/
  | hub
  /-- A Vesper unit. -/
  | unit (u : Nat)
  /-- A tier-2 fetch must pass first (R192). -/
  | fetch
  /-- A persistent or transient digest failure is being re-read (R163). -/
  | reread (u : Nat)
  deriving DecidableEq, Repr

/-- Progress of a leaf. -/
inductive JobSt where
  | waiting
  | issued
  | done
  deriving DecidableEq, Repr

/-- A page by its place in the tables. -/
structure PageRef where
  /-- A shared record of a group rather than a sequence's entry. -/
  grp : Bool
  /-- Tenant, or group number. -/
  tenant : Nat
  /-- Sequence. -/
  sid : Nat
  /-- Layer. -/
  layer : Nat
  /-- Head. -/
  head : Nat
  /-- Page. -/
  page : Nat
  deriving DecidableEq, Repr

/-- One tile of one KV head that a request needs, with the bytes or rows as dispatch found them. -/
structure Job where
  /-- Candidate (VERIFY), else 0. -/
  cand : Nat
  /-- KV head. -/
  head : Nat
  /-- Tile index. -/
  tile : Nat
  /-- Contents at dispatch (R80). -/
  src : TileSrc
  /-- Check words of K and V resolved at dispatch (R161). -/
  check : Nat × Nat
  /-- Pair location word (TIER0). -/
  loc : Nat
  /-- The page is SHADOWED, so a copy can serve (R163). -/
  shadowed : Bool
  /-- The page it is in, as dispatch resolved it. -/
  ref : PageRef
  /-- Where. -/
  exec : Exec
  /-- Progress. -/
  st : JobSt
  /-- Candidates whose return record has been merged (R154). -/
  got : List Nat
  deriving DecidableEq, Repr

/-- A dispatched request whose effect waits for that of an earlier one on its sequence and layer (R80; log 107). -/
structure Waiter where
  /-- The request. -/
  req : Req
  /-- Count at its dispatch. -/
  since : Nat
  /-- Program body digest of a PROJECT_ATTEND's append and attend (R204). -/
  program : List Byte
  /-- Weight digests that it has so far. -/
  weights : List (List Byte)
  deriving DecidableEq, Repr

/-- A dispatched request. -/
structure Run where
  /-- The request. -/
  req : Req
  /-- Count at dispatch. -/
  tDispatch : Nat
  /-- Layer length its attend covers, by candidate. -/
  lens : List Nat
  /-- Conditioned, rotated query rows, by candidate and query head. -/
  q : List (List (List Nat))
  /-- Leaves. -/
  jobs : List Job
  /-- Spans held locally or remotely: (first span, count, holder) of the remote ones. -/
  remote : List (Nat × Nat)
  /-- Stall causes with the count at which each began. -/
  stalls : List (Stall × Nat)
  /-- Causes it has been counted for (R193). -/
  causes : List Stall
  /-- Its leaves wait for the tables its rows are rotated with (R75, R192). -/
  held : Bool
  /-- Weight tiles that rotating its rows needs (R75, R196). -/
  needs : List TileKey
  /-- Blocks of its records by candidate, as dispatch resolved them: level and first span (R81, R91). -/
  blocks : List (List (Nat × Nat))
  /-- Its records carry PROVISIONAL (R68). -/
  prov : Bool
  /-- Serial of the sequence it found or created. -/
  serial : Nat
  /-- Pending reservation: (layer, page) with its deadline (R79). -/
  reserve : Option (Nat × Nat × Nat)
  /-- Status so far. -/
  status : Nat
  /-- detail. -/
  detail : Nat
  /-- length (Table 3.6). -/
  length : Nat
  /-- Attend performed (R79). -/
  attends : Bool
  /-- A BIND that waits for tier-1 copies: its sequence is created then (R147). -/
  redo : Bool
  /-- Query position of the attend's first candidate and Len(l) at its base: tiles sealed below it serve every candidate. -/
  base : Nat
  /-- Page groups that a BIND under way has found and holds (R81, R147). -/
  groups : List Nat
  /-- It ever stalled or was held (eflags). -/
  stalled : Bool
  /-- A rebuilt tile differed (R329). -/
  rebuildDiffers : Bool
  /-- Generation held at dispatch (Table 13.5). -/
  gen : Nat
  /-- Versions used: program body digest and weights digests (R337). -/
  program : List Byte
  /-- Digests of objects used. -/
  weights : List (List Byte)
  /-- Output bytes of a program run. -/
  output : List Byte
  deriving DecidableEq, Repr

/-- A finished reply that waits for REPLY_SEND (R76, R383). -/
structure Reply where
  /-- The request. -/
  req : Req
  /-- Count at dispatch; 0 if never dispatched. -/
  tDispatch : Nat
  /-- Status. -/
  status : Nat
  /-- detail. -/
  detail : Nat
  /-- length. -/
  length : Nat
  /-- Records. -/
  records : Nat
  /-- remote_blocks. -/
  remoteBlocks : Nat
  /-- Bytes that follow the header. -/
  body : List Byte
  /-- Span range of the records. -/
  spans : Nat × Nat
  /-- eflags. -/
  eflags : Nat
  /-- Program digest. -/
  program : List Byte
  /-- Weight digests. -/
  weights : List (List Byte)
  /-- Generation held at dispatch, or at completion (Table 13.5); filled as the reply is finished. -/
  gen : Option Nat
  /-- It is a holder's reply (R91). -/
  holder : Bool
  /-- Writes no evidence record (EVIDENCE_FULL, R340). -/
  noRecord : Bool
  /-- Earliest hand-over of an isolated class (R366). -/
  notBefore : Nat
  /-- It relays the reply of a forwarded request, whose room was reserved then (R253, R314). -/
  relayed : Bool
  deriving DecidableEq, Repr

/-- Per-class calendar state (R293). -/
structure ClassCal where
  /-- Last bucket served. -/
  last : Nat
  /-- Budget of the current owned minute. -/
  budget : Nat
  /-- Minute number the budget belongs to. -/
  minute : Nat
  /-- Stopped for this minute. -/
  stopped : Bool
  deriving DecidableEq, Repr

/-- A tenant's aggregate (R290). -/
structure TenantAgg where
  /-- Bucket content, 1/256 cost units. -/
  content : Nat
  /-- Minute of its last refill. -/
  last : Nat
  /-- Queued cost Q. -/
  queued : Nat
  deriving DecidableEq, Repr

/-- Admission, calendars, requests in flight (SCH and the request side of ATT). -/
structure SchSt where
  /-- Held requests in admission order. -/
  held : List Req
  /-- Class calendars, 24. -/
  cals : List (Nat × ClassCal)
  /-- Tenant aggregates; an unlisted tenant is full with nothing queued. -/
  aggs : List (Nat × TenantAgg)
  /-- SHARED minutes: class served last, budget, minute, stopped, first released. -/
  sharedLast : Nat
  /-- Budget. -/
  sharedBudget : Nat
  /-- Minute of the budget. -/
  sharedMinute : Nat
  /-- Stopped for this minute. -/
  sharedStopped : Bool
  /-- A request has been released in this SHARED minute. -/
  sharedFirst : Bool
  /-- Dispatched requests. -/
  runs : List Run
  /-- Requests waiting for spares before their set is applied (R125). -/
  spareWait : List (Req × Nat)
  /-- Dispatched requests that wait for the effect of an earlier one, in dispatch order (R80). -/
  order : List Waiter
  /-- Finished replies. -/
  replies : List Reply
  /-- Requests sent on to their home, whose reply has not come back (R314). -/
  forwarded : List Req
  /-- Next request number. -/
  nextRid : Nat
  deriving DecidableEq, Repr

/-! ### Queue pairs (chapter 11) -/

/-- QP states (Table 11.4). -/
inductive QpState where
  | free
  | init
  | ready
  | drain
  | error
  | fenced
  deriving DecidableEq, Repr

/-- A message sent and not yet acknowledged. -/
structure OutMsgQ where
  /-- PSN. -/
  psn : Nat
  /-- tkind. -/
  tkind : Nat
  /-- Message class it travels in. -/
  cls : Nat
  /-- The message. -/
  msg : List Byte
  /-- Purpose serial of a node-initiated operation; 0 for a reply. -/
  op : Nat
  /-- Of an urgent class (R292). -/
  urgent : Bool
  deriving DecidableEq, Repr

/-- A queue-pair context (Table 11.1). -/
structure Qp where
  /-- State. -/
  state : QpState
  /-- Pinned. -/
  pinned : Bool
  /-- Urgent flag (R270). -/
  urgent : Bool
  /-- Host ring. -/
  ring : Bool
  /-- Partition. -/
  part : Nat
  /-- Class. -/
  cls : Nat
  /-- Peer. -/
  peer : Nat
  /-- peer_qpn. -/
  peerQpn : Nat
  /-- retries. -/
  retries : Nat
  /-- max_out. -/
  maxOut : Nat
  /-- snd_next. -/
  sndNext : Nat
  /-- snd_una. -/
  sndUna : Nat
  /-- rcv_next. -/
  rcvNext : Nat
  /-- Current timeout of the retry timer in ticks (R275). -/
  timeout : Nat
  /-- Count at which the retry timer expires; none while it is stopped. -/
  deadline : Option Nat
  /-- An acknowledgement has advanced since the last resend (R275). -/
  progressed : Bool
  /-- NAK SEQUENCE already sent for the current gap (R273). -/
  nakSent : Bool
  /-- A NOT_READY wait: the count at which it ends and the PSN named (R280). -/
  nrWait : Option (Nat × Nat)
  /-- cir. -/
  cir : Nat
  /-- pir. -/
  pir : Nat
  /-- cbs. -/
  cbs : Nat
  /-- pbs. -/
  pbs : Nat
  /-- tc. -/
  tc : Nat
  /-- tp. -/
  tp : Nat
  /-- last. -/
  last : Nat
  /-- depth. -/
  depth : Nat
  /-- Accepted REQUESTs whose reply is not sent (R274). -/
  inbound : Nat
  /-- Unacknowledged messages. -/
  sent : List OutMsgQ
  /-- Latched counters (R296). -/
  latched : List Nat
  /-- Running counters. -/
  running : List Nat
  /-- How often its PSN streams have been cleared: replies to requests of an earlier one are discarded (R276, Table 11.4). -/
  stream : Nat
  /-- Ring bytes 128–191: base, rkind, fn, log2_entries, moderation, head, tail, cring, vector (Table 15.4). -/
  rbase : Nat
  /-- rkind. -/
  rkind : Nat
  /-- fn. -/
  rfn : Nat
  /-- log2_entries. -/
  rlog2 : Nat
  /-- moderation. -/
  rmod : Nat
  /-- head. -/
  rhead : Nat
  /-- tail. -/
  rtail : Nat
  /-- cring. -/
  rcring : Nat
  /-- vector. -/
  rvector : Nat
  /-- Submission entries already fetched (index of the next to fetch). -/
  rfetch : Nat
  /-- Count at the ring's last MSG (R385). -/
  lastMsg : Option Nat
  /-- An MSG is owed. -/
  msgOwed : Bool
  deriving DecidableEq, Repr

/-- A region entry (Table 11.5). -/
structure Region where
  /-- base. -/
  base : Nat
  /-- part. -/
  part : Nat
  /-- length. -/
  length : Nat
  /-- gen. -/
  gen : Nat
  /-- rights[2:0]. -/
  rights : Nat
  /-- valid. -/
  valid : Bool
  /-- mirror. -/
  mirror : Nat
  deriving DecidableEq, Repr

/-- A packet held in the cold-arrival buffer (R280). -/
structure Cold where
  /-- The delivery. -/
  arr : Arrival
  /-- The message. -/
  msg : List Byte
  /-- The packet, where it is no REQUEST. -/
  other : Option Tpkt
  /-- It came before any NOT_READY that is outstanding on the queue pair (R280). -/
  early : Bool
  deriving DecidableEq, Repr

/-- Why a node-initiated remote operation was issued. -/
inductive OpKind where
  /-- A page spill to a pool slice: move number. -/
  | spill (move : Nat)
  /-- A page fetch from a pool slice: move number. -/
  | poolFetch (move : Nat)
  /-- A weight-tile fetch from a device-set member (R196). -/
  | weight (key : TileKey)
  /-- A write forwarded to a mirror donor for a request (R284). -/
  | mirror (rid : Nat)
  /-- A request forwarded to its home (R314). -/
  | forward (rid : Nat)
  /-- A SPAN_WORK sent to a holder (R91). -/
  | spanWork (rid : Nat)
  /-- A sequence record of a home transfer (R315). -/
  | transfer
  deriving DecidableEq, Repr

/-- A node-initiated operation outstanding on a system QP. -/
structure NodeOp where
  /-- QPN. -/
  qpn : Nat
  /-- Purpose. -/
  kind : OpKind
  deriving DecidableEq, Repr

/-- A request of the node that waits for its system queue pair: to come on chip, to be READY, or to have fewer than max_out unacknowledged (R270, R274, R279). -/
structure Later where
  /-- QPN. -/
  qpn : Nat
  /-- Message class it travels in. -/
  cls : Nat
  /-- Of an urgent class (R292). -/
  urgent : Bool
  /-- The message. -/
  msg : List Byte
  /-- Its operation. -/
  op : Nat
  deriving DecidableEq, Repr

/-- Discards that chapter 11 counts and gives no register (log 123). -/
structure Discards where
  /-- Packets that named a FREE queue pair (R272). -/
  badQp : Nat
  /-- Packets of another partition (R272). -/
  partMismatch : Nat
  /-- Stale packets (R273). -/
  stale : Nat
  /-- REQUESTs over the inbound limit (R274). -/
  overLimit : Nat
  /-- Replies of requests whose queue pair entered ERROR (R276). -/
  lateReply : Nat
  deriving DecidableEq, Repr

/-- A holder's reply that waits for its ACK (R287). -/
structure HolderOut where
  /-- Endpoint. -/
  endpoint : Nat
  /-- QPN. -/
  qpn : Nat
  /-- Partition. -/
  part : Nat
  /-- sqp of the packet. -/
  sqp : Nat
  /-- Serial. -/
  serial : Nat
  /-- The reply. -/
  msg : List Byte
  /-- Resends without progress. -/
  retries : Nat
  /-- Current timeout. -/
  timeout : Nat
  /-- Count at which it expires. -/
  deadline : Nat
  deriving DecidableEq, Repr

/-- The queue block. -/
structure QueSt where
  /-- Contexts on chip by QPN (host rings by context number plus ringBase). A QP that is not resident lives in the host's context table (R269). -/
  qps : List (Nat × Qp)
  /-- QPNs of queue pairs that exist and are not on chip, with the frame of their eviction: their images lie in the host's table (R269, R279, R296). -/
  away : List (Nat × Nat)
  /-- System queue pairs: peer and QPN (R270). -/
  system : List (Nat × Nat)
  /-- Contexts whose image is on its way to the host's table, as they were written (R279). -/
  leaving : List (Nat × Qp)
  /-- What became of queue pairs while they were off chip, by QPN: the state they take when their context comes back, READY with cleared PSNs (R270, R278, R319). -/
  marks : List (Nat × QpState)
  /-- Resident QPNs, least recently used first. -/
  resident : List Nat
  /-- Context fetches in progress: QPN and the count at their start. -/
  fetches : List (Nat × Nat)
  /-- Fetches that wait for a victim: QPN and the count at their start. -/
  waitFetch : List (Nat × Nat)
  /-- PSNs named by NOT_READYs we sent, by QPN (R280). -/
  named : List (Nat × Nat)
  /-- A QUE_CMD that waits for a context: action, QPN, image. -/
  cmd : Option (Nat × Nat × List Byte)
  /-- Cold-arrival buffer, in arrival order. -/
  cold : List Cold
  /-- Runs of lent slices that have ended while a mirrored write of them is still under way: its request and the tier-1 run in KiB (R286). -/
  closing : List (Nat × (Nat × Nat))
  /-- Region table; an unlisted entry is invalid at generation 0. -/
  regions : List (Nat × Region)
  /-- Node-initiated operations. -/
  ops : List (Nat × NodeOp)
  /-- Next operation number. -/
  nextOp : Nat
  /-- Requests of the node not sent yet, oldest first. -/
  later : List Later
  /-- Packets and replies discarded. -/
  discards : Discards
  /-- Holder replies outstanding. -/
  holderOut : List HolderOut
  /-- Next holder reply serial. -/
  holderSerial : Nat
  /-- Bytes in the response store (R274). -/
  respBytes : Nat
  deriving DecidableEq, Repr

/-! ### Vesper (chapter 06) -/

/-- What a tile entry of a burst serves: the leaf it serves, or a tile to scrub or move. -/
inductive BurstEntry where
  /-- Job `idx` of request `rid`. -/
  | leaf (rid idx : Nat)
  /-- Pair `pair` of (tenant, sid, layer, head, page), or of a group's shared record when `grp` is set. -/
  | tile (grp : Bool) (tenant sid layer head page pair : Nat)
  /-- Pair slot `pair` of an old location that still waits for its readers (R131, R171). -/
  | old (id pair : Nat)
  /-- Pair slot `pair` of a move's destination (R131, R171). -/
  | dest (move pair : Nat)
  deriving DecidableEq, Repr

/-- Burst kinds (R164). -/
inductive BurstKind where
  | attend
  | scrub
  | move
  deriving DecidableEq, Repr

/-- A tile entry (Table 6.5): one tile, K or V, for the slots of its mask. -/
structure TileEnt where
  /-- What it serves. -/
  ent : BurstEntry
  /-- False: K tile; true: V tile. -/
  isV : Bool
  /-- Pair location word. -/
  loc : Nat
  /-- Tile index t. -/
  tile : Nat
  /-- KV head. -/
  head : Nat
  /-- Slot mask. -/
  mask : Nat
  /-- Corruptions its read meets: byte offset and the bits flipped. -/
  flips : List (Nat × Byte)
  deriving DecidableEq, Repr

/-- A request slot of a burst (R154, Table 6.5): one query position of one request for one KV head. -/
structure BurstSlot where
  /-- Request. -/
  rid : Nat
  /-- Candidate (VERIFY), else 0. -/
  cand : Nat
  /-- KV head whose G query rows it holds. -/
  head : Nat
  /-- Tenant. -/
  tenant : Nat
  /-- Shape word: dcode, kvfmt and G. -/
  shape : Nat
  /-- σ. -/
  sigma : Nat
  /-- Query position. -/
  qPos : Nat
  /-- W. -/
  window : Nat
  /-- range_lo. -/
  lo : Nat
  /-- range_hi. -/
  hi : Nat
  /-- mflags. -/
  mflags : Nat
  /-- Len(l). -/
  len : Nat
  /-- The G query rows of d values. -/
  q : List (List Nat)
  deriving DecidableEq, Repr

/-- A burst descriptor (Table 6.5), and how far its unit has come with it. -/
structure Burst where
  /-- burst_id. -/
  id : Nat
  /-- Kind. -/
  kind : BurstKind
  /-- Urgent. -/
  urgent : Bool
  /-- Class. -/
  cls : Nat
  /-- chain: it starts when the burst before it ends. -/
  chain : Bool
  /-- start_tick, once it has started. -/
  startTick : Nat
  /-- Its planned end, once it has started, in parts of a tick (R165, R173). -/
  endPlan : Nat
  /-- Request slots. -/
  slots : List BurstSlot
  /-- Tile entries. -/
  tiles : List TileEnt
  /-- Tile entries done. -/
  pos : Nat
  /-- Row-set reads left of the tile being read, in Vesper cycles; empty at a tile boundary (R166, R167). -/
  rows : List Nat
  deriving DecidableEq, Repr

/-- A return record on its way to the hub (Table 6.3). -/
structure Return where
  /-- burst_id. -/
  id : Nat
  /-- Kind of its burst. -/
  kind : BurstKind
  /-- Urgent. -/
  urgent : Bool
  /-- Request slot, and the candidate it holds. -/
  slot : Nat
  /-- Candidate. -/
  cand : Nat
  /-- Level k of R84. -/
  level : Nat
  /-- First tile index of the node. -/
  first : Nat
  /-- Partials that follow: G. -/
  rows : Nat
  /-- KV head. -/
  head : Nat
  /-- The partials, one per query row of the slot (Table 6.3). -/
  parts : List Partial
  /-- Tiles of its digest entries (Table 6.4). -/
  tiles : List TileEnt
  /-- rflags.REFUSED (R157). -/
  refused : Bool
  /-- The planned end of its burst, in parts of a tick (R173). -/
  due : Nat
  deriving DecidableEq, Repr

/-- An ordinary access that waits for a window (R168). -/
structure Access where
  /-- Source, as ORDINARY_ACCESS gives it. -/
  source : Nat
  /-- A write. -/
  isWrite : Bool
  /-- Flat address. -/
  addr : Nat
  /-- Bytes of a write. -/
  data : List Byte
  /-- What ECC finds of a read under a code (R178, R179). -/
  ecc : EccOutcome
  deriving DecidableEq, Repr

/-- One Vesper unit. -/
structure VUnit where
  /-- Bursts the hub has planned for it and not delivered: no descriptor slot was free. -/
  plan : List Burst
  /-- Normal descriptor slots, 2 (Table 6.1). -/
  normal : List Burst
  /-- Urgent descriptor slot, 1. -/
  urgentQ : List Burst
  /-- Burst in the normal context. -/
  cur : Option Burst
  /-- Burst in the urgent context. -/
  curU : Option Burst
  /-- The context that runs is stopped before a refresh (R167). -/
  stopped : Bool
  /-- Count to which the context that runs has come, in parts of a tick (R166, R167). -/
  clock : Nat
  /-- The normal context is held by an urgent burst (R169). -/
  preempted : Bool
  /-- Ordinary accesses waiting for a window, in arrival order (R168). -/
  waiting : List Access
  /-- The last window opened in the burst: its end in parts of a tick, and the accesses served in it (R168). -/
  window : Option (Nat × Nat)
  /-- Return records sent and not yet at the hub. -/
  returns : List Return
  /-- Tiles of the pass already scrubbed: local offset reached; none when the pass has ended (R171). -/
  passPos : Option Nat
  /-- Local offsets behind it that the pass reads again: of tiles whose record went missing (R162, R173). -/
  again : List Nat
  /-- Missing return records in this frame (R173). -/
  missing : Nat
  deriving DecidableEq, Repr

/-- A second read of a tile that failed R161 (R163). -/
structure Reread where
  /-- Unit whose bank group holds the tile. -/
  unit : Nat
  /-- Reader of Table 6.16. -/
  reader : Nat
  /-- What the tile serves. -/
  ent : BurstEntry
  /-- V tile. -/
  isV : Bool
  /-- The first read failed on the check word alone: an address error. -/
  differs : Bool
  /-- The pair as it stands where it was read. -/
  pair : Pair
  /-- Its check words as resolved for the first read. -/
  check : Nat × Nat
  /-- Its pair location word. -/
  loc : Nat
  /-- The page of the pair and its place there; none for a location that the tables do not name. -/
  page : Option (PageRef × Nat)
  /-- The read is of a scrub (R171). -/
  scrub : Bool
  deriving DecidableEq, Repr

/-- Vesper control. -/
structure VspSt where
  /-- Units by number; an unlisted unit is idle. -/
  units : List (Nat × VUnit)
  /-- Masked units. -/
  masked : List Nat
  /-- Next burst_id. -/
  nextBurst : Nat
  /-- Leaves audited in this frame, by unit (R173). -/
  audited : List (Nat × Nat)
  /-- Frame in which the running scrub pass began. -/
  passStart : Nat
  /-- Units that have ended the running pass. -/
  passEnded : List Nat
  /-- Sealed-tile bytes read in this frame, by unit (R174). -/
  yardBytes : List (Nat × Nat)
  /-- Re-reads under way (R163), by number. -/
  rereads : List (Nat × Reread)
  deriving DecidableEq, Repr

/-! ### Tiers (chapter 07) -/

/-- What a page move does. -/
inductive MoveKind where
  /-- Tier 0 to tier 1 (Dusk). -/
  | spill1
  /-- Tier 1 to a pool slice. -/
  | spillPool
  /-- Tier 1 to host memory. -/
  | spillHost
  /-- Tier 2 to tier 1 (Dawn). -/
  | fetch
  /-- Tier 1 to tier 0 (Dawn). -/
  | promote
  /-- Tier 0 to tier 0: out of a closed bank group or a bad slot. -/
  | relocate
  /-- The tier-1 shadow of a SEALED page (R184). -/
  | shadow
  /-- A page's tier-1 run, or tier-1 copy, to another place in tier 1: out of a failing unit (R195). -/
  | shift
  /-- To a holder (R317). -/
  | holder (node : Nat)
  /-- From a holder back to the page's home (R317). -/
  | back (node : Nat)
  deriving DecidableEq, Repr

/-- A move in progress (R131). -/
structure Move where
  /-- Kind. -/
  kind : MoveKind
  /-- Page. -/
  page : PageRef
  /-- Destination words or pointer. -/
  dest : List Nat
  /-- Bytes read so far. -/
  bytes : List Pair
  /-- The copy has passed its checks. -/
  copied : Bool
  /-- Tier 2: the donor addressed. -/
  donor : Nat
  /-- Tier 2: a donor has already failed this move (R194). -/
  retried : Bool
  deriving DecidableEq, Repr

/-- An old location that waits for its readers (R131). -/
structure OldLoc where
  /-- Requests that resolved it before the switch. -/
  readers : List Nat
  /-- Tier 0 (true) or tier 1. -/
  tier0 : Bool
  /-- Pair location words, or the tier-1 pointer. -/
  locs : List Nat
  /-- KiB of a pair. -/
  kib : Nat
  /-- The bytes that stay there. -/
  pairs : List Pair
  deriving DecidableEq, Repr

/-- The tier engines and flat memory. -/
structure MemSt where
  /-- Bytes of the flat range outside pair slots: canonical, unlisted reads 0 (R402). -/
  flat : List Host.Cell
  /-- Moves in progress, by number. -/
  moves : List (Nat × Move)
  /-- Next move number. -/
  nextMove : Nat
  /-- Old locations awaiting their readers. -/
  olds : List (Nat × OldLoc)
  /-- Pages queued by Dawn for promotion, in order. -/
  dawn : List PageRef
  /-- Shadows outstanding, oldest first (R184). -/
  backlog : List PageRef
  /-- Retired 64 KiB units of tier 1 (R195). -/
  retired : List Nat
  /-- Units of tier 1 with a failing block, whose live contents are moving out (R195). -/
  failing : List Nat
  /-- KiB pointers of retired 64 KiB places of protected tier 0, each a failing working copy's (R196). -/
  retiredProt : List Nat
  /-- Poisoned weight tiles with the count at which their limit passes and the given-up flag (R196). -/
  poison : List (TileKey × (Nat × Bool))
  /-- Copies of weight tiles that have been read with an error: the working copy in tier 0 (true), or the image in tier 1 (R196). -/
  badCopies : List (TileKey × Bool)
  /-- Dusk is spilling from tier 0 towards bare_high (R188). -/
  dusk0 : Bool
  /-- Dusk is spilling from tier 1 towards t1_high. -/
  dusk1 : Bool
  /-- Free bare memory was below bare_low at the last Midnight (R317). -/
  bareShort : Bool
  /-- bare_low has been unmet at every check since the last Midnight, and at it (R188). -/
  lowAll0 : Bool
  /-- The same of t1_low. -/
  lowAll1 : Bool
  deriving DecidableEq, Repr

end Sys2Proof.Machine
end

