-- ==== Sys2Proof/Machine/Types2.lean ====
section
/-!
DEFINITION. The pieces of the node's state, continued: programs, match engine, links, map agent, health, security, host link, start-up, clocks and power, test port.
-/

namespace Sys2Proof.Machine

open Sys2Proof

/-! ### Programs and weight objects (chapter 08) -/

/-- A step word, as its 128 bits. -/
abbrev StepWord := Nat

/-- A loaded program version (Table 8.3). -/
structure Program where
  /-- Tenant that may run it. -/
  owner : Nat
  /-- Class whose minutes run it. -/
  cls : Nat
  /-- Shape word. -/
  shape : Nat
  /-- Input length. -/
  inBytes : Nat
  /-- Output length. -/
  outBytes : Nat
  /-- Segments per run. -/
  segments : Nat
  /-- Weight-object slots it names. -/
  objects : List Nat
  /-- Step streams, one per core. -/
  streams : List (List StepWord)
  /-- body_digest. -/
  digest : List Byte
  /-- set_id. -/
  setId : List Byte
  /-- Program group it is bound to. -/
  group : Nat
  /-- Cores within the group. -/
  cores : List Nat
  deriving DecidableEq, Repr

/-- A loaded weight object, rotary table or match image (R213, R219). -/
structure WObj where
  /-- Manifest kind: 0 weights, 1 rotary table, 2 automata, 3 TCAM. -/
  kind : Nat
  /-- Plaintext tiles. -/
  tiles : List (List Byte)
  /-- SHA-384 of each plaintext tile. -/
  digests : List (List Byte)
  /-- SHA-384 of the manifest. -/
  manifest : List Byte
  /-- set_id. -/
  setId : List Byte
  /-- Encrypted tiles, each with its tag, as the container holds them (R213, R215). -/
  cipher : List (List Byte)
  /-- idd of each member of the device set (R214, R356). -/
  members : List (List Byte)
  /-- The weight key, unwrapped inside the security block; empty where the node was not asked to unwrap one (R356, R357). -/
  key : List Byte
  deriving DecidableEq, Repr

/-- A slot's versions (R216). -/
structure Slot (α : Type) where
  /-- Active version. -/
  active : Option α
  /-- A version that becomes active at the next Midnight; some none: an unload. -/
  next : Option (Option α)
  /-- Versions made active so far. -/
  version : Nat
  deriving DecidableEq, Repr

/-! ### Match engine (chapter 09) -/

/-- A TCAM entry (160 bits of value and care, a valid mark) as the search cell holds it. -/
structure TcamEnt where
  /-- Value. -/
  value : Nat
  /-- Care. -/
  care : Nat
  deriving DecidableEq, Repr

/-- A rule of a TCAM image. -/
structure Rule where
  /-- Value. -/
  value : Nat
  /-- Care. -/
  care : Nat
  /-- Result word. -/
  word : Nat
  deriving DecidableEq, Repr

/-- An automata image (Tables 9.2, 9.3). -/
structure Automata where
  /-- n_cls. -/
  ncls : Nat
  /-- start. -/
  start : Nat
  /-- Class map. -/
  classes : List Nat
  /-- Result words. -/
  results : List Nat
  /-- Entries. -/
  entries : List Nat
  deriving DecidableEq, Repr

/-- The body of a match image. -/
inductive ImageBody where
  | automata (a : Automata)
  /-- Rules by entry offset within the image's range: none is a hole. -/
  | tcam (range : List (Option Rule))
  deriving DecidableEq, Repr

/-- A match image's active version in the engine. -/
structure Image where
  /-- Body: the engine's ECC copy. -/
  body : ImageBody
  /-- Cascaded. -/
  casc : Bool
  /-- casc_tag. -/
  tag : Nat
  /-- First entry index taken. -/
  first : Nat
  /-- Entries taken. -/
  entries : Nat
  /-- Edits applied since load. -/
  edits : Nat
  /-- Edit digest (R228), or the manifest digest of an automata image. -/
  digest : List Byte
  /-- Active version, counted from 1 (Table 9.7). -/
  version : Nat
  /-- Test vectors: expected record and input. -/
  vectors : List (List Byte × List Byte)
  deriving DecidableEq, Repr

/-- A pending rule edit (R227). -/
structure Edit where
  /-- Match slot. -/
  slot : Nat
  /-- Insert, else delete. -/
  insert : Bool
  /-- Position. -/
  pos : Nat
  /-- Rule inserted. -/
  rule : Rule
  /-- Frame E. -/
  frame : Nat
  /-- MAT_RULE_CTL word, for the edit digest. -/
  ctl : Nat
  /-- Image version at its commit (R229). -/
  version : Nat
  deriving DecidableEq, Repr

/-- A key attached to a page group (R232). -/
structure KeyEnt where
  /-- Key, 16 bytes as a number. -/
  key : Nat
  /-- Shape word. -/
  shape : Nat
  /-- Tenant. -/
  tenant : Nat
  /-- Page group. -/
  group : Nat
  deriving DecidableEq, Repr

/-- The match engine. -/
structure MatSt where
  /-- TCAM search cells where they differ from their ECC copy: (entry, cell content; none: cell invalid). -/
  cellDiff : List (Nat × Option TcamEnt)
  /-- Key records by key index. -/
  keys : List (Nat × KeyEnt)
  /-- Active images by match slot; a version loaded beside it, not yet active, at 64 + slot (R219). -/
  images : List (Nat × Image)
  /-- Older versions that a run keeps, by match slot, with every edit made while they were active (R216, R219, R227). -/
  kept : List (Nat × Image)
  /-- Pending edits in commit order. -/
  edits : List Edit
  /-- Automata images whose engine copy is bad and waits for a refill. -/
  refill : List Nat
  /-- Cascade: next serial of a head. -/
  serial : Nat
  /-- Searches of the head in flight: serial, frame bytes sent, core whose step waits (none: probe), count sent. -/
  searches : List (Nat × (List Byte × Option Nat × Nat))
  /-- Cascade in force since Midnight: MAT_CASC_CFG as live is in RegFile. -/
  trained : Bool
  deriving DecidableEq, Repr

/-! ### Program runs (chapter 08) -/

/-- A program run on its group (R200, R201). -/
structure ProgRun where
  /-- Request it serves. -/
  rid : Nat
  /-- The version it keeps (R216). -/
  prog : Program
  /-- Program slot. -/
  slot : Nat
  /-- Objects it needs, with their versions: weight objects, rotary tables at 1,024 + index, match slots at 2,048 + slot (R216). -/
  needs : List (Nat × Nat)
  /-- The versions of the weight objects it names, in the container's order (R216). -/
  objs : List WObj
  /-- The versions of the rotary tables its steps name. -/
  ropes : List (Nat × WObj)
  /-- Position of its request: q_pos; a RUN names none (log 41). -/
  pos : Nat
  /-- Tiles of its rotary tables that the position needs (R75, R196). -/
  ropeTiles : List TileKey
  /-- The versions of the match images its steps name. -/
  images : List (Nat × Image)
  /-- Segments completed. -/
  seg : Nat
  /-- A segment is executing now. -/
  busy : Bool
  /-- Failed cascade runs of the current segment (R239). -/
  cascFails : Nat
  /-- Its next segment waits for a minute that its class owns: a SHARED one will not do (R217, R239). -/
  waitOwned : Bool
  /-- Input. -/
  input : List Byte
  /-- Output. -/
  output : List Byte
  deriving DecidableEq, Repr

/-- One program core's run context: its SRAM outside resident weights and its place in its stream. -/
structure CoreCtx where
  /-- Activation bytes of SRAM: canonical, unlisted reads 0. -/
  sram : List (Nat × Byte)
  /-- Next step of its stream. -/
  pc : Nat
  /-- The core has reached the end of the segment. -/
  ended : Bool
  /-- Scale codes of quantised tensors, by their first byte: length and code (R210, R211). -/
  scales : List (Nat × (Nat × Nat))
  /-- SRAM, step and scales at the start of the segment, from which it runs again (R217). -/
  start : List (Nat × Byte) × (Nat × List (Nat × (Nat × Nat)))
  deriving DecidableEq, Repr

/-- A load or unload in progress (R215). -/
structure Load where
  /-- ATT_LOAD_CTL.action. -/
  action : Nat
  /-- target. -/
  target : Nat
  /-- slot. -/
  slot : Nat
  /-- Host address. -/
  src : Nat
  /-- Container length. -/
  len : Nat
  /-- Bytes read. -/
  got : List Byte
  /-- A read failed (R379). -/
  failed : Bool
  deriving DecidableEq, Repr

/-- Hub programs. -/
structure ProgSt where
  /-- Program slots 0–63. -/
  programs : List (Nat × Slot Program)
  /-- Weight-object slots 0–1,023, rotary tables at 1,024 + index, match slots at 2,048 + slot. -/
  objects : List (Nat × Slot WObj)
  /-- Older versions of objects that a request or a run keeps, by object number and version (R216). -/
  older : List ((Nat × Nat) × WObj)
  /-- The run that holds each group now. -/
  current : List (Nat × ProgRun)
  /-- Runs of other classes begun on a group, with what its cores hold of each, until a minute of their class (R200, R201). -/
  parked : List (Nat × (ProgRun × List (Nat × CoreCtx)))
  /-- Core contexts by core number. -/
  cores : List (Nat × CoreCtx)
  /-- A load in progress. -/
  load : Option Load
  /-- Class served last on each group in SHARED minutes. -/
  sharedLast : List (Nat × Nat)
  deriving DecidableEq, Repr

/-! ### Fabric links (chapter 10) -/

/-- A packet (Table 10.4). -/
structure Packet where
  /-- dst. -/
  dst : Nat
  /-- src. -/
  src : Nat
  /-- via. -/
  via : Nat
  /-- class. -/
  cls : Nat
  /-- pflags. -/
  pflags : Nat
  /-- map_gen. -/
  mapGen : Nat
  /-- transport, 16 bytes. -/
  transport : List Byte
  /-- Message. -/
  msg : List Byte
  deriving DecidableEq, Repr

/-- A DATA frame kept for resending (R250). -/
structure KeptFrame where
  /-- fseq. -/
  fseq : Nat
  /-- vc. -/
  vc : Nat
  /-- Plaintext. -/
  payload : List Byte
  /-- lflags [3:2]. -/
  lflags : Nat
  /-- The packet it carries. -/
  pkt : Packet
  /-- The packet was injected here. -/
  here : Bool
  /-- Codec blocks that begin in it, in order: offset in the payload, raw offset of the block in the packet (R266). -/
  blks : List (Nat × Nat)
  /-- The packet ends in it. -/
  fin : Bool
  deriving DecidableEq, Repr

/-- A packet being sent on a VC. -/
structure Sending where
  /-- Bytes still to send. -/
  rest : List Byte
  /-- Codec blocks that begin in them: offset in `rest`, raw offset in the packet. -/
  marks : List (Nat × Nat)
  /-- Coded. -/
  coded : Bool
  /-- The packet. -/
  pkt : Packet
  /-- It was injected here. -/
  here : Bool
  deriving DecidableEq, Repr

/-- A coded frame received and not wholly decoded. -/
structure RxSeg where
  /-- fseq. -/
  fseq : Nat
  /-- Units credited once it is wholly decoded (R264). -/
  units : Nat
  /-- Bytes not decoded yet. -/
  bytes : List Byte
  deriving DecidableEq, Repr

/-- A VC's receiving side on a link. -/
structure RxVc where
  /-- Packet bytes decoded so far. -/
  raw : List Byte
  /-- Coded frames received and not wholly decoded. -/
  segs : List RxSeg
  /-- Bytes of the first of them that end a block begun in an earlier frame. -/
  head : Nat
  /-- Blocks begun in the first of them that are decoded. -/
  count : Nat
  /-- Bytes of the next frame to pass over: they were decoded before a damaged block (R266; log 20). -/
  skip : Nat
  /-- Blocks to decode and pass over: they were delivered before a damaged block of the same frame (R266; log 20). -/
  dup : Nat
  deriving DecidableEq, Repr

/-- Handshake progress of a link (R358). -/
inductive HsStage where
  | none
  | gotHs1
  | gotHs2
  | done
  deriving DecidableEq, Repr

/-- What a link handshake has exchanged (Table 14.5). -/
structure Shake where
  /-- This side's ephemeral private key. -/
  ephemeral : Nat
  /-- HS1 as this side sent it. -/
  mine1 : List Byte
  /-- HS2 as this side sent it. -/
  mine2 : List Byte
  /-- The secret that HS2 carries to the partner. -/
  secret : List Byte
  /-- The partner's HS1. -/
  peer1 : List Byte
  /-- The partner's certificate. -/
  cert : List Byte
  /-- The partner's ephemeral public key. -/
  eph : List Byte
  deriving DecidableEq, Repr

/-- No handshake is under way. -/
def Shake.idle : Shake := ⟨0, [], [], [], [], [], []⟩

/-- One fabric link. -/
structure Link where
  /-- State code (Table 10.2). -/
  state : Nat
  /-- Partner's node or endpoint ID; 0x7FF if unknown. -/
  partnerId : Nat
  /-- Partner's link number. -/
  partnerLink : Nat
  /-- Partner's identity digest. -/
  partnerIdent : Nat
  /-- What the handshake under way has exchanged (R358). -/
  shake : Shake
  /-- The partner's HS2. -/
  peer2 : List Byte
  /-- LM, the link master; empty where none is held (R358, R359). -/
  master : List Byte
  /-- Fenced by epoch. -/
  fenced : Bool
  /-- Handshake. -/
  hs : HsStage
  /-- Generations whose link keys are installed. -/
  keyed : List Nat
  /-- Generation whose key is used for sending. -/
  sendGen : Nat
  /-- Next fseq to send. -/
  txSeq : Nat
  /-- Next fseq expected. -/
  rxSeq : Nat
  /-- tx_count of the next frame. -/
  txCount : Nat
  /-- Last accepted tx_count by generation. -/
  rxCount : List (Nat × Nat)
  /-- Cumulative credits received, by VC. -/
  creditsIn : List (Nat × Nat)
  /-- Cumulative units spent, by VC. -/
  spent : List (Nat × Nat)
  /-- Cumulative units consumed and returned, by VC. -/
  returned : List (Nat × Nat)
  /-- Next credit_half. -/
  half : Nat
  /-- Frames kept until acknowledged. -/
  kept : List KeptFrame
  /-- Frames of `kept` still to resend, by fseq. -/
  resend : List Nat
  /-- Resends without progress. -/
  resends : Nat
  /-- Count at which ack last advanced or the first frame was sent. -/
  ackTick : Nat
  /-- NAK to set in the next frame: some codec. -/
  nak : Option Bool
  /-- A NAK has been set for the current gap. -/
  gap : Bool
  /-- A frame has been accepted in the current minute (R247). -/
  heard : Bool
  /-- A frame under another epoch has come in the current minute (R247). -/
  foreign : Bool
  /-- Uncorrectable codewords in the current minute. -/
  fecMinute : Nat
  /-- Count at the last accepted frame (R318). -/
  lastFrame : Nat
  /-- The partner last known at the far end, which is suspected when it falls silent (R318). -/
  lastPartner : Nat
  /-- Packets waiting on this output, in order; whether each was injected here. -/
  txq : List (Bool × Packet)
  /-- Whether the packet last taken from a VC's queue was injected here (R262). -/
  lastLocal : List (Nat × Bool)
  /-- Packets being sent, by VC. -/
  sending : List (Nat × Sending)
  /-- Frames that a resend with a stored block pushed past the replay buffer: each goes out with a new fseq before anything else of its VC (R266; log 20). -/
  later : List KeptFrame
  /-- Receiving side by VC. -/
  rx : List (Nat × RxVc)
  /-- The last 64 DATA frames accepted: fseq and VC (R266). -/
  recent : List (Nat × Nat)
  /-- Frames of other VCs that are resent with a damaged block's frame although they were taken: fseq and VC (R266; log 20). -/
  again : List (Nat × Nat)
  /-- Class served last in the round robin among FWD2, FWD and REQ. -/
  turn : Nat
  deriving DecidableEq, Repr

/-- The link block. -/
structure LnkSt where
  /-- Links by number; an unlisted link is DOWN. -/
  links : List (Nat × Link)
  /-- Routing table entries; unlisted reads unreachable. -/
  routes : List (Nat × Nat)
  /-- Packets held for an output direction with no link UP: whether injected here, and the count held since (R261). -/
  held : List (Nat × ((Bool × Packet) × Nat))
  /-- Packets handed over to this node's queue block and map agent (R262). -/
  handover : List Packet
  deriving DecidableEq, Repr

/-! ### Map agent (chapter 12) -/

/-- A generation prepared by the leader or accepted by a keeper. -/
structure Prepared where
  /-- Generation. -/
  gen : Nat
  /-- Effect frame. -/
  eff : Nat
  /-- Changes. -/
  changes : List Change
  /-- Map after them. -/
  map : MapData
  /-- Keepers that accepted. -/
  accepts : List Nat
  deriving DecidableEq, Repr

/-- The map agent. -/
structure MapSt where
  /-- This node's ID; 0x7FF before one is assigned. -/
  id : Nat
  /-- Its state. -/
  nodeState : NodeState
  /-- Fenced. -/
  fenced : Bool
  /-- Unfence decided: at the next Midnight (R319). -/
  unfence : Bool
  /-- Map in effect. -/
  cur : Option MapData
  /-- Map before it, during its drain window. -/
  prev : Option MapData
  /-- Committed generations not yet in effect, in order. -/
  queue : List MapData
  /-- Frame in which the current generation took effect, E_g. -/
  effFrame : Nat
  /-- Frame of the last valid LEASE. -/
  leaseFrame : Option Nat
  /-- Highest committed generation heard of. -/
  heard : Nat
  /-- A FETCH is under way: generation and next offset. -/
  fetching : Option (Nat × Nat)
  /-- Latest HELLO by partner: state, bare, t1, time bits, LG14. -/
  hellos : List (Nat × (Nat × Nat × Nat × Nat × Bool))
  /-- fabric_id from the configuration image. -/
  fabricId : Nat
  /-- Keeper count of the image. -/
  keeperCount : Nat
  /-- Term known. -/
  term : Nat
  /-- Leader known. -/
  leader : Nat
  /-- Term voted in. -/
  voted : Nat
  /-- Votes received in our own election. -/
  votes : List Nat
  /-- Election wait: the count at which VOTE_REQ goes out. -/
  election : Option Nat
  /-- Count at the last HEARTBEAT. -/
  lastBeat : Nat
  /-- Keeper: last accepted generation and its map. -/
  accepted : Option Prepared
  /-- Leader: proposals received, in order, with the frame of the first PREPARE each could join. -/
  proposals : List (Change × Nat)
  /-- Leader: generation prepared and awaiting accepts. -/
  prepared : Option Prepared
  /-- This node's proposal outstanding: the change and the frame it was sent. -/
  own : Option (Change × Nat)
  /-- Next proposer serial. -/
  serial : Nat
  /-- Leader: suspicions by node: reporters, each with the count at its last SUSPECT. -/
  suspects : List (Nat × List (Nat × Nat))
  /-- Generations of COMMITs seen and not yet held (R310). -/
  seen : List Nat
  /-- Slots that a generation moved from a living node: the two nodes (R315). -/
  moving : List (Nat × (Nat × Nat))
  /-- Leader: verdicts to place in the next PREPARE. -/
  verdicts : List Nat
  /-- Leader: candidates that asked to join: identity and position. -/
  joins : List (Nat × NodeEnt)
  /-- Leader: a LEASE went out in this frame. -/
  leased : Option Nat
  /-- Sequences still to be sent by an outgoing transfer: tenant, sid, target, and the generation that moved them with its effect frame. -/
  outgoing : List (Nat × Nat × Nat × Nat × Nat)
  /-- Slots whose incoming transfer has not ended. -/
  incoming : List Nat
  /-- IDs freed with the frame (R300). -/
  freed : List (Nat × Nat)
  /-- Count at which each link partner of a torus or express link was last suspected. -/
  lastSuspect : List (Nat × Nat)
  /-- This node's mode proposal outstanding: its serial and its frame E (R51). -/
  ownMode : Option (Nat × Nat)
  /-- The mode that proposal asks for. -/
  ownTarget : Nat
  /-- Frame of the last LEND this node proposed (R304). -/
  lendFrame : Option Nat
  /-- Highest generation a partner has reported in effect (R312). -/
  seenEff : Nat
  /-- The node must come back as a candidate (R38, R39, R319). -/
  rejoin : Bool
  deriving DecidableEq, Repr

/-! ### Health and evidence (chapter 13) -/

/-- A scored part's state (Table 17.14). -/
structure Score where
  /-- Score. -/
  score : Nat
  /-- warned. -/
  warned : Bool
  /-- Reached act; the action comes at the next Midnight. -/
  reached : Bool
  /-- acted. -/
  acted : Bool
  deriving DecidableEq, Repr

/-- Health. -/
structure HltSt where
  /-- 0 OK, 1 DEGRADED, 2 FAILED. -/
  health : Nat
  /-- Scores by part number: 0–2047 bank groups, 2048–2055 HBM interfaces, 2056–2063 LPDDR6, 2064–2127 links, 2128–2223 hub cores. -/
  scores : List (Nat × Score)
  /-- Smallest slack of each monitor in the current frame. -/
  slackMin : List (Nat × Int)
  /-- Smallest slack over monitors of the last frames, newest first, up to 64 (R332). -/
  slackHist : List Int
  /-- Consecutive frames at the ceiling with slack below slack_low. -/
  ceilFrames : Nat
  /-- Setpoint in mV by mode. -/
  setpoints : List Nat
  /-- Planned setpoint for the next frame, with its mode. -/
  planned : Option (Nat × Nat)
  /-- Voltage now, mV. -/
  voltage : Nat
  /-- Last kick of each control core. -/
  kicks : List Nat
  /-- Frame of the last watchdog fire. -/
  lastFire : Option Nat
  /-- Restore and replay in progress. -/
  replay : Bool
  /-- Checkpoint slot written last, and its frame. -/
  checkpoint : Nat × Nat
  /-- Bytes of the journal since the checkpoint (R335). -/
  journal : Nat
  /-- Messages that the node had handed out at the checkpoint: the outputs from there on are the journal's (R335). -/
  outFrom : Nat
  /-- Output digest recorded at the last output before the watchdog fired (R335; log 143). -/
  recorded : List Byte
  /-- A DRAIN proposal of itself is due at the next Midnight (R331). -/
  drainDue : Bool
  /-- Evidence buffer, in ev_seq order. -/
  evidence : List (List Byte)
  /-- Entries reserved by requests in flight. -/
  evReserved : Nat
  /-- Next ev_seq. -/
  evSeq : Nat
  /-- ev_seq of the first record after the last seal. -/
  evFrom : Nat
  /-- Records of the current frame, for the chain. -/
  evFrame : List (List Byte)
  /-- Requests of the frame that left no record. -/
  evMissed : Nat
  /-- Chain value. -/
  chain : List Byte
  deriving DecidableEq, Repr

/-! ### Security (chapter 14) -/

/-- An ATTEST that waits for its report (R353). -/
structure AttWait where
  /-- The request. -/
  req : Req
  /-- Count at dispatch. -/
  tDispatch : Nat
  /-- Nonce slot. -/
  slot : Nat
  /-- Signing frame of the report that covers its nonce, once known. -/
  frame : Option Nat
  deriving DecidableEq, Repr

/-- A report whose Midnight has passed and whose signatures are still being made (R351, R352). -/
structure Signing where
  /-- Signing frame. -/
  frame : Nat
  /-- Leaf q. -/
  leaf : Nat
  /-- Payload. -/
  payload : List Byte
  /-- Leaves of the nonce tree. -/
  leaves : List (List Byte)
  deriving DecidableEq, Repr

/-- Security. -/
structure SecSt where
  /-- Start-up state of the PUF SRAM since the last power-on; empty before it is read (R345, R347, R396). -/
  puf : List Byte
  /-- The root secret PR (R345). -/
  root : List Byte
  /-- The public keys of IDK-E, IDK-L, DEK-E and DEK-K, concatenated (R346). -/
  publics : List Byte
  /-- K_t2 (Table 14.1). -/
  tierKey : List Byte
  /-- Working state of the random bit generator: Key and V (R344). -/
  drbg : List Byte × List Byte
  /-- A commit has named the token in SEC_DEBUG, and ACT_ON_TOKEN has yet to act on it (R364, R369; log 147). -/
  tokenDue : Bool
  /-- Replay-protected counters 0–3 (R348, R351, R398). -/
  counters : List Nat
  /-- Next leaf q. -/
  leaf : Nat
  /-- Leaves left in the reserved block. -/
  left : Nat
  /-- Nonces of the next report by slot. -/
  nonces : List (Nat × List Byte)
  /-- Second nonces that wait for the report after. -/
  nonces2 : List (Nat × List Byte)
  /-- The report being signed (R351, R352). -/
  signing : Option Signing
  /-- Reports signed and not yet delivered: signing frame, report, leaves. -/
  signed : List (Nat × (List Byte × List (List Byte)))
  /-- Latest delivered report. -/
  report : List Byte
  /-- Sibling hashes of its slot 4,095. -/
  reportPath : List (List Byte)
  /-- ATTEST requests waiting, in order. -/
  waiting : List AttWait
  /-- idd. -/
  idd : List Byte
  /-- Device certificate. -/
  cert : List Byte
  /-- boot_id. -/
  bootId : List Byte
  /-- Debug tokens loaded since Sunrise. -/
  debugCount : Nat
  /-- Firmware digest. -/
  fw : List Byte
  /-- Configuration digest. -/
  cfg : List Byte
  /-- Operator key digest. -/
  operator : List Byte
  /-- Firmware and configuration svn of this Sunrise. -/
  svn : Nat × Nat
  /-- Accepted firmware digests (R355). -/
  fwAccept : List (List Byte)
  /-- An endpoint CA is present (R401). -/
  endpointCa : Bool
  /-- Tenants each endpoint certificate lists, by endpoint (R360). -/
  endpoints : List (Nat × List Nat)
  /-- Spill serial of K_t2 (R361). -/
  spillSerial : Nat
  deriving DecidableEq, Repr

/-! ### Host link (chapter 15) -/

/-- Why the node reads host memory (R379). -/
inductive HostRead where
  | context (qpn : Nat)
  /-- A submission entry of a ring. -/
  | entry (ring index : Nat)
  /-- A message named by an entry. -/
  | message (ring index replyAddr replyCap len : Nat)
  | page (move : Nat)
  | container
  deriving DecidableEq, Repr

/-- A read of host memory under way: reads longer than 4,096 bytes are made in turn (Table 15.1). -/
structure HostRd where
  /-- Purpose. -/
  why : HostRead
  /-- Count at which the current MRD was issued. -/
  since : Nat
  /-- Function. -/
  fn : Nat
  /-- Host address of the first byte. -/
  addr : Nat
  /-- Bytes received. -/
  got : List Byte
  /-- Bytes wanted. -/
  want : Nat
  /-- Bytes of the current MRD still to come. -/
  left : Nat
  deriving DecidableEq, Repr

/-- A packet kept for resending (R376). -/
structure HostPkt where
  /-- lseq. -/
  lseq : Nat
  /-- Type code (Table 15.2). -/
  type : Nat
  /-- fn. -/
  fn : Nat
  /-- tag. -/
  tag : Nat
  /-- addr. -/
  addr : Nat
  /-- count. -/
  count : Nat
  /-- Payload. -/
  data : List Byte
  deriving DecidableEq, Repr

/-- The Wecia Link. -/
structure HstSt where
  /-- State code (Table 10.2). -/
  state : Nat
  /-- Running on 4 lanes. -/
  narrow : Bool
  /-- The half that a narrow link runs on is lanes 4–7 (R372). -/
  high : Bool
  /-- Codewords not corrected in this minute (R245, R371). -/
  fecMinute : Nat
  /-- Next lseq to send. -/
  txSeq : Nat
  /-- Next lseq expected. -/
  rxSeq : Nat
  /-- Unacknowledged packets. -/
  kept : List HostPkt
  /-- Packets waiting for credit or room. -/
  txq : List HostPkt
  /-- Cumulative posted units returned by the host. -/
  postedIn : Nat
  /-- Posted units spent. -/
  postedOut : Nat
  /-- Cumulative non-posted returned by the host. -/
  npIn : Nat
  /-- Non-posted spent. -/
  npOut : Nat
  /-- Posted units we returned. -/
  postedRet : Nat
  /-- Non-posted requests we returned. -/
  npRet : Nat
  /-- NAK sent for the current gap. -/
  gap : Bool
  /-- Resends without progress. -/
  resends : Nat
  /-- Count at which ack last advanced. -/
  ackTick : Nat
  /-- Outstanding reads by tag. -/
  reads : List (Nat × HostRd)
  /-- I3C dynamic address. -/
  i3cAddr : Option Nat
  deriving DecidableEq, Repr

/-! ### Start-up, power, clocks, flash, test port (chapters 16, 17, 18) -/

/-- Phases of power and reset. -/
inductive PowerSt where
  /-- No power. -/
  | off
  /-- Latched shutdown (R413). -/
  | latched
  /-- RESET_N low, volatile state discarded (R396). -/
  | held
  /-- Running Sunrise or in service. -/
  | on
  deriving DecidableEq, Repr

/-- Start-up, power and clocks. -/
structure SysSt where
  /-- Power phase. -/
  power : PowerSt
  /-- RESET_N level. -/
  resetN : Bool
  /-- Step 10 has ended. -/
  linksUp : Bool
  /-- Step 11 has ended. -/
  timeDone : Bool
  /-- Step 2 has ended, and the standby rail has stayed up since (R396). -/
  oscDone : Bool
  /-- Straps. -/
  oscDly : Nat
  /-- I3C_SA. -/
  i3cSa : Nat
  /-- FLASH_HOLD. -/
  flashHold : Bool
  /-- Count at which the last Twilight began. -/
  twilightAt : Nat
  /-- Minute in which the last summary MSG went, and whether one is owed. -/
  sumMsg : Option Nat
  /-- A summary MSG is owed at the next minute: the lowest block whose bit rose since (R421). -/
  sumOwed : Option Nat
  /-- The minute, counted from the epoch, whose start has been worked (log 64). -/
  minuteDone : Option Nat
  /-- The frame whose Midnight has been worked (log 64). -/
  frameDone : Option Nat
  /-- Largest reading of each sensor in the current frame, 1/16 °C (R424). -/
  tempMax : List (Nat × Int)
  /-- P_s by stack, KiB. -/
  split : List Nat
  /-- REGISTERS entries of the image. -/
  image : List (Nat × Nat)
  /-- HBM4 stacks left unused. -/
  badHbm : List Nat
  /-- Flash bytes: unlisted reads 0xFF (erased). -/
  flash : List (Nat × Nat)
  /-- A flash operation in progress: op, address, length. -/
  flashOp : Option (Nat × Nat × Nat)
  /-- Test port: instruction, as a number; boundary and bypass registers. -/
  tap : Nat
  /-- Boundary-scan cells. -/
  boundary : List Bool
  /-- Bypass bit. -/
  bypass : Bool
  /-- Last value shifted out of the test port. -/
  tdo : Nat
  deriving DecidableEq, Repr

/-! ### Outputs -/

/-- What the node has handed to its surroundings, oldest first. -/
inductive OutMsg where
  /-- A reply handed to its queue pair or ring (R76): request number and its bytes. -/
  | reply (rid : Nat) (bytes : List Byte)
  /-- A frame on a link (Table 10.3): its fields and its plaintext. -/
  | frame (link type vc epoch fseq ack txCount half lflags : Nat) (credits : List Nat) (payload : List Byte)
  /-- A sequence's record and pages sent to a node (R315, R317; log 25). -/
  | transfer (dst : Nat) (r : SeqRec)
  /-- A CTL message of a type to a node (0xFFFF: to link partners): its 32-byte header (R306) and the values of its body (log 15). -/
  | ctl (dst type : Nat) (head : List Byte) (args : List Nat)
  /-- A Wecia packet as it is sent: its bytes (Table 15.1). -/
  | host (p : HostPkt) (bytes : List Byte)
  /-- Register values returned over I3C. -/
  | regValues (values : List Nat)
  /-- Bytes or a status returned to an ordinary access. -/
  | access (status : Nat) (data : List Byte)
  /-- A cascade frame on MATCH_OUT. -/
  | cascade (bytes : List Byte)
  /-- An I3C in-band interrupt with its data byte (R421). -/
  | ibi (block : Nat)
  /-- Bits shifted out of the test port. -/
  | tdo (value : Nat)
  /-- A handshake message on a link: 1, 2 or 3 of Table 14.5 and its bytes (log 145). -/
  | handshake (link step : Nat) (bytes : List Byte)
  deriving DecidableEq, Repr

end Sys2Proof.Machine
end

