-- ==== Sys2Proof/Machine/State.lean ====
section
/-!
DEFINITION. The node's whole state as plain data, the reasons a step can stop, and the machine right after reset (R396, R418).
Every field whose reset value the manual does not give names the log entry that chose it (log 1).
-/

namespace Sys2Proof.Machine

open Sys2Proof

/-- Reasons a step faults: none. Every command has an effect, an answer or a refusal; an access to an address that R19 places no storage at is answered as an address error (R379). -/
inductive Fault where
  deriving DecidableEq, Repr

/-- Reasons a step is refused. -/
inductive Refusal where
  /-- Raised by an arm of exec that has no meaning yet; its mnemonic. Safe: the machine stops. -/
  | notModelled (mnemonic : String)
  /-- Raised by PRIVATE_TEST_INSTRUCTION while a debug token is in force: the manual gives the instruction to the vendor's debug unit and does not say what it does (R364). Safe: the machine stops. -/
  | debugUnit
  deriving DecidableEq, Repr

/-- The node. -/
structure State where
  /-- The Meridian count in ticks (R29). -/
  now : Nat
  /-- Registers. -/
  regs : RegFile
  /-- Fabric time. -/
  time : TimeSt
  /-- Walker. -/
  pgw : PgwSt
  /-- Admission, calendars, requests. -/
  sch : SchSt
  /-- Queue pairs, regions. -/
  que : QueSt
  /-- Vesper units. -/
  vsp : VspSt
  /-- Memory tiers. -/
  mem : MemSt
  /-- Hub programs. -/
  prog : ProgSt
  /-- Match engine. -/
  mat : MatSt
  /-- Fabric links. -/
  lnk : LnkSt
  /-- Map agent. -/
  map : MapSt
  /-- Health and evidence. -/
  hlt : HltSt
  /-- Security. -/
  sec : SecSt
  /-- Wecia Link. -/
  hst : HstSt
  /-- Start-up, power, clocks, flash, test port. -/
  sys : SysSt
  /-- What the node has handed to its surroundings, oldest first. -/
  outbox : List OutMsg
  /-- The model's own counter of free values drawn so far (log 10–14). -/
  freeCtr : Nat
  /-- Commands waiting, first in first out. -/
  pending : List Instr
  deriving DecidableEq, Repr

/-! ### Reset values -/

/-- Registers: every one at its reset value, nothing pending (R418). -/
def RegFile.reset : RegFile := ⟨[], [], [], [], [], []⟩

/-- Fabric time at reset: no source, count not acquired (R38; log 1). -/
def TimeSt.reset : TimeSt :=
  { ppsValid := false, lastEdge := none, nextEdge := none, due := none, tentative := none, lastMsg := none, goodSeconds := 0, inconsistent := 0
    refDegraded := false, acquired := false, slew := 0, slewAt := 0, frac := 0, revealed := 0, reveal := false, partners := [], parent := none, modeChange := none, clockMode := 3
    hbmRefreshes := 0, lpddrRefreshes := 0, lpddrBank := 0 }

/-- Walker at reset: no sequence. -/
def PgwSt.reset : PgwSt :=
  { seqs := [], groups := [], nextGroup := 0, sparesUsed := 0, tlb := [], desc := [], allocs := 0, entries := 0, created := 0, places := [] }

/-- Admission at reset: nothing waits (log 1 for the bucket served last). -/
def SchSt.reset : SchSt :=
  { held := [], cals := [], aggs := [], sharedLast := 23, sharedBudget := 0, sharedMinute := 0, sharedStopped := false
    sharedFirst := false, runs := [], spareWait := [], order := [], replies := [], forwarded := [], nextRid := 0 }

/-- Queues at reset: no queue pair, no region. -/
def QueSt.reset : QueSt :=
  { qps := [], away := [], system := [], leaving := [], marks := [], resident := [], fetches := [], waitFetch := [], named := [], cmd := none, cold := [], closing := [], regions := [], ops := [], nextOp := 1, later := [], discards := ⟨0, 0, 0, 0, 0⟩
    holderOut := [], holderSerial := 0, respBytes := 0 }

/-- Vesper at reset: every unit idle and unmasked. -/
def VspSt.reset : VspSt :=
  { units := [], masked := [], nextBurst := 0, audited := [], passStart := 0, passEnded := [], yardBytes := [], rereads := [] }

/-- Tiers at reset: nothing stored. -/
def MemSt.reset : MemSt :=
  { flat := [], moves := [], nextMove := 0, olds := [], dawn := [], backlog := [], retired := [], failing := [], retiredProt := [], poison := [], badCopies := []
    dusk0 := false, dusk1 := false, bareShort := false, lowAll0 := false, lowAll1 := false }

/-- Programs at reset: every slot empty. -/
def ProgSt.reset : ProgSt :=
  { programs := [], objects := [], older := [], current := [], parked := [], cores := [], load := none, sharedLast := [] }

/-- Match engine at reset: no image, no key. -/
def MatSt.reset : MatSt :=
  { cellDiff := [], keys := [], images := [], kept := [], edits := [], refill := [], serial := 0, searches := [], trained := false }

/-- Links at reset: every link DOWN. -/
def LnkSt.reset : LnkSt := { links := [], routes := [], held := [], handover := [] }

/-- Map agent at reset: no map, no ID (R320). -/
def MapSt.reset : MapSt :=
  { id := 0x7FF, nodeState := .candidate, fenced := false, unfence := false, cur := none, prev := none, queue := []
    effFrame := 0, leaseFrame := none, heard := 0, fetching := none, hellos := [], fabricId := 0, keeperCount := 0
    term := 0, leader := 0x7FF, voted := 0, votes := [], election := none, lastBeat := 0, accepted := none
    proposals := [], prepared := none, own := none, serial := 0, suspects := [], seen := [], moving := [], verdicts := [], joins := []
    leased := none, outgoing := [], incoming := [], freed := [], lastSuspect := [], ownMode := none, ownTarget := 0, lendFrame := none
    seenEff := 0, rejoin := false }

/-- Health at reset: every score 0, health OK (Tables 17.12, 17.14); typical setpoints (Table 13.4; log 1). -/
def HltSt.reset : HltSt :=
  { health := 0, scores := [], slackMin := [], slackHist := [], ceilFrames := 0, setpoints := [750, 750, 660, 600]
    planned := none, voltage := 600, kicks := [0, 0, 0, 0], lastFire := none, replay := false, checkpoint := (0, 0)
    journal := 0, outFrom := 0, recorded := [], drainDue := false, evidence := [], evReserved := 0, evSeq := 0, evFrom := 0, evFrame := [], evMissed := 0
    chain := List.replicate 48 0 }

/-- Security at reset: nothing verified yet (log 1 for the counters, which the flash keeps). -/
def SecSt.reset : SecSt :=
  { counters := [0, 0, 0, 0], leaf := 0, left := 0, nonces := [], signing := none, puf := [], root := [], publics := [], tierKey := [], drbg := ([], []), tokenDue := false
    nonces2 := [], signed := [], report := [], reportPath := [], waiting := [], idd := [], cert := [], bootId := [], debugCount := 0
    fw := [], cfg := [], operator := [], svn := (0, 0), fwAccept := [], endpointCa := false
    endpoints := [], spillSerial := 0 }

/-- Wecia Link at reset: DOWN (Table 15.9). -/
def HstSt.reset : HstSt :=
  { state := 0, narrow := false, high := false, fecMinute := 0, txSeq := 0, rxSeq := 0, kept := [], txq := [], postedIn := 0, postedOut := 0, npIn := 0
    npOut := 0, postedRet := 0, npRet := 0, gap := false, resends := 0, ackTick := 0, reads := [], i3cAddr := none }

/-- Start-up at reset: RESET_N has risen and Sunrise is in step 3 (R396, Table 17.4; log 1). -/
def SysSt.reset : SysSt :=
  { power := .on, resetN := true, linksUp := false, timeDone := false, oscDone := false, oscDly := 0, i3cSa := 0, flashHold := false
    twilightAt := 0, sumMsg := none
    sumOwed := none, minuteDone := none, frameDone := none, tempMax := [], split := List.replicate 8 73728, image := [], badHbm := [], flash := [], flashOp := none, tap := 0
    boundary := [], bypass := false, tdo := 0 }

/-- The machine right after reset. -/
def State.reset : State :=
  { now := 0, regs := RegFile.reset, time := TimeSt.reset, pgw := PgwSt.reset, sch := SchSt.reset, que := QueSt.reset
    vsp := VspSt.reset, mem := MemSt.reset, prog := ProgSt.reset, mat := MatSt.reset, lnk := LnkSt.reset
    map := MapSt.reset, hlt := HltSt.reset, sec := SecSt.reset, hst := HstSt.reset, sys := SysSt.reset
    outbox := [], freeCtr := 0, pending := [] }

end Sys2Proof.Machine
end

