-- ==== Sys2Proof/Machine/Ops.lean ====
section
/-!
DEFINITION. The named operations over registers, events, counters, time, host packets and outputs, which every family's meanings share.
-/

namespace Sys2Proof.Machine

open Sys2Proof

/-! ### Time units (R29, R40) -/

/-- Frame of a count. -/
def frameOf (t : Nat) : Nat := t / 1048576
/-- Minute of a count within its frame. -/
def minuteOf (t : Nat) : Nat := t / 1024 % 1024
/-- Tick of a count within its minute. -/
def tickOf (t : Nat) : Nat := t % 1024
/-- A guard tick (R42). -/
def isGuard (t : Nat) : Bool := decide (1008 ≤ tickOf t)
/-- The current frame. -/
abbrev State.frame (s : State) : Nat := frameOf s.now
/-- The current minute. -/
abbrev State.minute (s : State) : Nat := minuteOf s.now
/-- The current minute, counted from the epoch: frames and minutes together. -/
abbrev State.minutes (s : State) : Nat := s.now / 1024

/-- A command whose instant has come says that the count has reached it: move the count forward to it, never back (log 3). -/
def State.advanceTo (s : State) (t : Nat) : State := { s with now := max s.now t }

/-! ### Register copies (R388) -/

/-- A listed value, or the register's reset value. -/
def regGet (l : List (Nat × Nat)) (a : Nat) : Nat := spGet (resetOf a) l a
/-- Write a value, cut to a register's 32 bits (R386); a register at its reset value is not listed. -/
def regSet (l : List (Nat × Nat)) (a v : Nat) : List (Nat × Nat) := spSet (resetOf a) l a (v % pow2 32)

/-- The live value of a register: the value that governs the node. -/
def State.live (s : State) (a : Nat) : Nat := regGet s.regs.live a
/-- The staged copy of an ST register. -/
def State.staged (s : State) (a : Nat) : Nat := regGet s.regs.staged a
/-- Write a live value. -/
def State.setLive (s : State) (a v : Nat) : State := { s with regs := { s.regs with live := regSet s.regs.live a v } }
/-- Write a staged copy. -/
def State.setStaged (s : State) (a v : Nat) : State := { s with regs := { s.regs with staged := regSet s.regs.staged a v } }
/-- Field [hi:lo] of a live value. -/
def State.fld (s : State) (a hi lo : Nat) : Nat := bitsOf (s.live a) hi lo
/-- Bit i of a live value. -/
def State.bit (s : State) (a i : Nat) : Bool := bitOf (s.live a) i
/-- A 64-bit live value held as a pair of registers (R391). -/
def State.live64 (s : State) (a : Nat) : Nat := s.live a + s.live (a + 4) * pow2 32
/-- A 64-bit staged value. -/
def State.staged64 (s : State) (a : Nat) : Nat := s.staged a + s.staged (a + 4) * pow2 32
/-- Write a 64-bit value to a pair of registers. -/
def State.setLive64 (s : State) (a v : Nat) : State := (s.setLive a (v % pow2 32)).setLive (a + 4) (v / pow2 32 % pow2 32)

/-- A value with its sequence number advanced by one modulo 256 (R392). -/
def seqUp (v : Nat) : Nat := putBits v 31 24 (bitsOf v 31 24 + 1)

/-- Write a whole status register's fields [23:0]: seq advances when they change (R392). -/
def State.putStatus (s : State) (a v : Nat) : State :=
  let old := s.live a
  if v % pow2 24 = old % pow2 24 then s else s.setLive a (seqUp (putBits old 23 0 v))

/-- Write one field of a status register (R392). -/
def State.setStatus (s : State) (a hi lo v : Nat) : State := s.putStatus a (putBits (s.live a) hi lo v)

/-- Advance the sequence number of a status register that names each of its events anew (R420). -/
def State.touch (s : State) (a v : Nat) : State := s.setLive a (seqUp (putBits (s.live a) 23 0 v))

/-! ### Outputs -/

/-- Hand something to the surroundings. -/
def State.emit (s : State) (m : OutMsg) : State := { s with outbox := s.outbox ++ [m] }

/-- Draw a fresh argument for a free value (log 10). -/
def State.fresh (s : State) : Nat × State := (s.freeCtr, { s with freeCtr := s.freeCtr + 1 })

/-! ### Counters latched at Midnight (R41) -/

/-- Add to the running count of a latched register, saturating (R41). -/
def State.bump (s : State) (a : Nat) (n : Nat := 1) : State :=
  { s with regs := { s.regs with run := spSet 0 s.regs.run a (sat32 (spGet 0 s.regs.run a + n)) } }

/-- Keep the largest of a running count and a value. -/
def State.bumpMax (s : State) (a n : Nat) : State :=
  { s with regs := { s.regs with run := spSet 0 s.regs.run a (sat32 (max (spGet 0 s.regs.run a) n)) } }

/-! ### The Wecia Link's sending side (R373–R376) -/

/-- Bytes of a packet as sent, with the link fields of this node (Table 15.1). -/
def hostBytes (h : HstSt) (p : HostPkt) : List Byte :=
  let head := leBytes 1 p.type ++ leBytes 1 p.fn ++ leBytes 1 (ceilDiv p.data.length 32) ++ leBytes 1 p.tag ++
    leBytes 2 p.lseq ++ leBytes 2 ((h.rxSeq + 4095) % 4096) ++ leBytes 8 p.addr ++
    leBytes 4 (h.postedRet % 4096 + 4096 * (h.npRet % 256)) ++ leBytes 4 p.count ++ leBytes 4 0
  let body := padTo (32 * ceilDiv p.data.length 32) p.data
  head ++ leBytes 4 (crc32c (head ++ body)) ++ body

/-- A packet type is posted: MWR, MSG (Table 15.2). -/
def isPosted (type : Nat) : Bool := type == 1 || type == 9
/-- A packet type sent by the node is non-posted: MRD. -/
def isNonPosted (type : Nat) : Bool := type == 2
/-- Units a posted packet spends (R375). -/
def postedUnits (p : HostPkt) : Nat := 1 + ceilDiv p.data.length 32

/-- The packet has room and credit (R375, R376). -/
def HstSt.canSend (h : HstSt) (p : HostPkt) : Bool :=
  h.state == 5 && decide (h.kept.length < 256) &&
  (!isPosted p.type || decide (h.postedOut + postedUnits p ≤ h.postedIn + 2048)) &&
  (!isNonPosted p.type || decide (h.npOut < h.npIn + 256))

/-- Put one packet on the lanes. -/
def State.hostPut (s : State) (p : HostPkt) : State :=
  let h := s.hst
  let p := { p with lseq := h.txSeq }
  let bytes := hostBytes h p
  let ackTick := if h.kept.isEmpty then s.now else h.ackTick
  ({ s with hst := { h with
      txSeq := (h.txSeq + 1) % 4096
      kept := h.kept ++ [p]
      ackTick := ackTick
      postedOut := if isPosted p.type then h.postedOut + postedUnits p else h.postedOut
      npOut := if isNonPosted p.type then h.npOut + 1 else h.npOut } }).emit (.host p bytes)

/-- Send what has credit and room, in order; a packet without credit holds back the later ones of its kind (R374, R375). -/
def hostPump : List HostPkt → Bool → Bool → State → State
  | [], _, _, s => s
  | p :: t, stopP, stopN, s =>
    let blocked := (isPosted p.type && stopP) || (isNonPosted p.type && stopN)
    if !blocked && s.hst.canSend p then hostPump t stopP stopN (s.hostPut p)
    else hostPump t (stopP || isPosted p.type) (stopN || isNonPosted p.type)
      { s with hst := { s.hst with txq := s.hst.txq ++ [p] } }

/-- Send waiting packets that now can go. -/
def State.hostFlush (s : State) : State :=
  hostPump s.hst.txq false false { s with hst := { s.hst with txq := [] } }

/-- Issue a packet to the host: it goes after every packet that waits. -/
def State.hostSend (s : State) (p : HostPkt) : State :=
  ({ s with hst := { s.hst with txq := s.hst.txq ++ [p] } }).hostFlush

/-- Split bytes into runs of at most n. -/
def chunks (n : Nat) : Nat → List Byte → List (List Byte)
  | 0, _ => []
  | k + 1, bs => if bs.length ≤ n then [bs] else bs.take n :: chunks n k (bs.drop n)

/-- Write host memory: MWR packets of up to 768 bytes in address order (R373, R374). -/
def State.hostWrite (s : State) (fn addr : Nat) (bytes : List Byte) : State :=
  if bytes.isEmpty then s
  else ((chunks 768 (bytes.length + 1) bytes).foldl
    (fun (acc : State × Nat) c => (acc.1.hostSend ⟨0, 1, fn, 0, acc.2, c.length, c⟩, acc.2 + c.length)) (s, addr)).1

/-- Answer a request with CPL packets of its tag (R373); the first 8 bits of count are the status. -/
def State.hostCpl (s : State) (fn tag status : Nat) (bytes : List Byte) : State :=
  if bytes.isEmpty then s.hostSend ⟨0, 3, fn, tag, 0, status, []⟩
  else ((chunks 768 (bytes.length + 1) bytes).foldl
    (fun (acc : State × Nat) c =>
      let left := acc.2 - c.length
      (acc.1.hostSend ⟨0, 3, fn, tag, 0, status + 256 * left, c⟩, left)) (s, bytes.length)).1

/-- An interrupt message (Table 15.2). -/
def State.hostMsg (s : State) (fn vector : Nat) : State := s.hostSend ⟨0, 9, fn, 0, vector, 0, []⟩

/-- Enable, role and tenant of a Wecia function as they govern (R377, Table 15.8). -/
def State.fnEnabled (s : State) (fn : Nat) : Bool := fn == 0 || s.bit (Reg.hstFnCfg + 4 * fn) 0
/-- The function holds the tenant role. -/
def State.fnTenant (s : State) (fn : Nat) : Option Nat :=
  if fn ≠ 0 ∧ s.bit (Reg.hstFnCfg + 4 * fn) 1 then some (s.fld (Reg.hstFnCfg + 4 * fn) 13 2) else none

/-- Generation in effect; 0 with no map. -/
def State.gen (s : State) : Nat := (s.map.cur.map (·.gen)).getD 0

/-- A free read tag (R373). -/
def State.freeTag (s : State) : Option Nat := lowestFree (s.hst.reads.map Prod.fst) 256

/-- Issue a read of host memory: an MRD with a free tag, which waits for the link and for credit (R373, R379); none where 256 reads are outstanding. -/
def State.hostIssue (s : State) (fn addr len : Nat) (why : HostRead) : Option State :=
  match s.freeTag with
  | none => none
  | some tag =>
    let n := min 4096 len
    let x : HostRd := ⟨why, s.now, fn, addr, [], len, n⟩
    some (({ s with hst := { s.hst with reads := tabPut s.hst.reads tag x } }).hostSend ⟨0, 2, fn, tag, addr, n, []⟩)

/-- Read host memory for a purpose that waits while the link is not UP. -/
def State.hostRead (s : State) (fn addr len : Nat) (why : HostRead) : Option State :=
  if s.hst.state ≠ 5 then none else s.hostIssue fn addr len why

/-! ### Events and their summary (R392, R393, R421) -/

/-- Block b's event registers. -/
def blockEvents (b : Nat) : List Nat := eventRegs.filter (fun a => a / 0x100000 == b)

/-- Bit b of SYS_EVENT_SUM: an event register of block b holds an SC bit (Table 17.3). -/
def State.sumBit (s : State) (b : Nat) : Bool := (blockEvents b).any (fun a => decide (s.live a % pow2 24 ≠ 0))

/-- SYS_EVENT_SUM. -/
def State.eventSum (s : State) : Nat := (List.range 16).foldl (fun v b => v + b2n (s.sumBit b) * pow2 b) 0

/-- Send the summary MSG and in-band interrupt that SYS_MSG_CFG asks for (R421). -/
def State.sendSummary (s : State) (block : Nat) : State :=
  let fn := s.fld Reg.sysMsgCfg 20 16
  let s := if s.bit Reg.sysMsgCfg 21 && s.fnEnabled fn && (s.fnTenant fn).isNone
    then s.hostMsg fn (s.fld Reg.sysMsgCfg 15 0) else s
  if s.bit Reg.sysMsgCfg 22 && s.hst.i3cAddr.isSome then s.emit (.ibi block) else s

/-- A summary bit rose: one MSG per minute, a later rise in the same minute waits for the next (R421). An enabled bit is one that SYS_ALERT_MASK holds (log 5). -/
def State.summaryRise (s : State) (b : Nat) : State :=
  if !s.bit Reg.sysAlertMask b then s
  else if s.sys.sumMsg = some s.minutes then
    { s with sys := { s.sys with sumOwed := match s.sys.sumOwed with | none => some b | some x => some (min x b) } }
  else ({ s with sys := { s.sys with sumMsg := some s.minutes } }).sendSummary b

/-- Record an event: its bits are set and seq advances, whether or not they were set (R392). -/
def State.raise (s : State) (a bits : Nat) : State :=
  let b := a / 0x100000
  let was := s.sumBit b
  let s := s.setLive a (seqUp (s.live a ||| bits % pow2 24))
  if was || bits % pow2 24 = 0 then s else s.summaryRise b

/-- Record one event bit. -/
def State.raiseBit (s : State) (a i : Nat) : State := s.raise a (pow2 i)

/-- Clear an event register by writing back a value read (R393). -/
def State.clearEvents (s : State) (a value : Nat) : State :=
  let v := s.live a
  if bitsOf value 31 24 = bitsOf v 31 24 then
    s.setLive a (seqUp (v - (v &&& value) % pow2 24))
  else s

/-! ### Boot and mode facts read from their registers -/

/-- Sunrise step (Table 17.4). -/
def State.sunriseStep (s : State) : Nat := s.fld Reg.sysBoot 3 0
/-- The node is in service (Table 17.4). -/
def State.inService (s : State) : Bool := s.bit Reg.sysBoot 6
/-- Sunrise has stopped. -/
def State.bootStopped (s : State) : Bool := s.bit Reg.sysBoot 4
/-- Current mode: 0 NOON, 1 MORNING, 2 EVENING, 3 NIGHT (Table 2.11). -/
def State.mode (s : State) : Nat := s.fld Reg.timeModeStatus 1 0
/-- The node is in Twilight (Table 16.13). -/
def State.inTwilight (s : State) : Bool := s.bit Reg.clkStatus 7
/-- The node is powered and out of reset. -/
def State.running (s : State) : Bool := s.sys.power == .on

/-- ALERT_N is driven low (R421). -/
def State.alertLow (s : State) : Bool :=
  s.sys.power == .latched ||
  (s.running && (s.bootStopped || s.inTwilight || decide (s.eventSum &&& s.live Reg.sysAlertMask ≠ 0)))

/-! ### Pending values (R389) -/

/-- The timing of a pending value that waits for a link's next DETECT (R268). -/
abbrev detectTiming : Nat := 2 ^ 60

/-- Merge the governed bits of a pending value into the live copy. -/
def State.makeLive (s : State) (p : PendVal) : State :=
  let old := s.live p.addr
  s.setLive p.addr ((old - (old &&& p.mask)) ||| (p.value &&& p.mask))

/-- Pending values whose instant has come become live, in address order (R388, R389). -/
def State.applyPending (s : State) (due : PendVal → Bool) : State :=
  let now := s.regs.pend.filter due
  -- a pending copy whose parity is bad becomes live as protected tier 0 holds it, and the live copy waits to be restored (R390)
  let bad := s.regs.badParity.map (fun b => if b.2 == 1 && now.any (fun p => p.addr == b.1) then (b.1, 2) else b)
  let s := { s with regs := { s.regs with pend := s.regs.pend.filter (fun p => !due p), badParity := bad } }
  now.foldl State.makeLive s

end Sys2Proof.Machine
end

