-- ==== Sys2Proof/Machine/Flags.lean ====
section
/-!
DEFINITION. Status codes of replies (Tables 3.7, 8.2, 11.8, 13.6), and the flag computations the blocks share: part scores (R330), health (R331), the time-degraded flag (R33, R36).
-/

namespace Sys2Proof.Machine

open Sys2Proof

/-! ### Status codes -/
namespace Status
/-- OK. -/
abbrev ok := 0x00
/-- CAPACITY. -/
abbrev capacity := 0x01
/-- STATE_LOST. -/
abbrev stateLost := 0x02
/-- STALE_MAP. -/
abbrev staleMap := 0x03
/-- NIGHT_MODE. -/
abbrev nightMode := 0x04
/-- POLICED. -/
abbrev policed := 0x05
/-- WEIGHTS_UNAVAILABLE. -/
abbrev weightsUnavailable := 0x06
/-- NO_SEQUENCE. -/
abbrev noSequence := 0x07
/-- SEQ_EXISTS. -/
abbrev seqExists := 0x08
/-- SHAPE_MISMATCH. -/
abbrev shapeMismatch := 0x09
/-- POSITION_MISMATCH. -/
abbrev positionMismatch := 0x0A
/-- PENDING_COMMIT. -/
abbrev pendingCommit := 0x0B
/-- NO_PROVISIONAL. -/
abbrev noProvisional := 0x0C
/-- TOO_LONG. -/
abbrev tooLong := 0x0D
/-- NOT_SEALED. -/
abbrev notSealed := 0x0E
/-- KEY_CONFLICT. -/
abbrev keyConflict := 0x0F
/-- BAD_FIELD. -/
abbrev badField := 0x10
/-- BAD_OPCODE. -/
abbrev badOpcode := 0x11
/-- TENANT_MISMATCH. -/
abbrev tenantMismatch := 0x12
/-- NO_PROGRAM. -/
abbrev noProgram := 0x13
/-- KEY_INVALID. -/
abbrev keyInvalid := 0x14
/-- KEY_STALE. -/
abbrev keyStale := 0x15
/-- ACCESS. -/
abbrev access := 0x16
/-- OUT_OF_RANGE. -/
abbrev outOfRange := 0x17
/-- WRITE_SEALED. -/
abbrev writeSealed := 0x18
/-- ADDRESS_ERROR. -/
abbrev addressError := 0x19
/-- TILE_CHECK. -/
abbrev tileCheck := 0x1A
/-- MIRROR_FAIL. -/
abbrev mirrorFail := 0x1B
/-- EVIDENCE_FULL. -/
abbrev evidenceFull := 0x1C
end Status

/-! ### Scored parts (Tables 13.2, 17.14): numbers of the parts in HltSt.scores -/
namespace Part
/-- Bank group of unit u. -/
abbrev bankGroup (u : Nat) := u
/-- HBM4 stack interface s. -/
abbrev hbm (s : Nat) := 2048 + s
/-- LPDDR6 stack s. -/
abbrev lpddr (s : Nat) := 2056 + s
/-- Fabric link n. -/
abbrev link (n : Nat) := 2064 + n
/-- Hub core c. -/
abbrev core (c : Nat) := 2128 + c
end Part

/-- A part with nothing against it. -/
def Score.zero : Score := ⟨0, false, false, false⟩

/-- The score record of a part. -/
def State.score (s : State) (p : Nat) : Score := spGet Score.zero s.hlt.scores p

/-- Write a score record. -/
def State.setScore (s : State) (p : Nat) (v : Score) : State :=
  { s with hlt := { s.hlt with scores := spSet Score.zero s.hlt.scores p v } }

/-- Add points to a part, saturating at 65,535; a score that reaches warn or act is noted (R330). -/
def State.addPoints (s : State) (p n : Nat) : State :=
  let sc := s.score p
  let v := min 65535 (sc.score + n)
  let warn := s.fld Reg.hltCfg 15 0
  let act := s.fld Reg.hltCfg 31 16
  let newWarn := decide (sc.score < warn ∧ warn ≤ v)
  let reached := sc.reached || (!sc.acted && decide (act ≤ v))
  let s := s.setScore p { sc with score := v, warned := sc.warned || decide (warn ≤ v), reached := reached }
  if newWarn then s.raiseBit Reg.hltEvent 0 else s

/-- A part that has acted: closed, masked, held down or removed until the next start-up (R330). -/
def State.partActed (s : State) (p : Nat) : Bool := (s.score p).acted

/-- Parts of a range that have acted. -/
def State.actedCount (s : State) (lo n : Nat) : Nat :=
  (s.hlt.scores.filter (fun p => decide (lo ≤ p.1 ∧ p.1 < lo + n) && p.2.acted)).length

/-- Unit u's bank group is closed (R330). -/
def State.bgClosed (s : State) (u : Nat) : Bool := s.partActed (Part.bankGroup u)
/-- LPDDR6 stack s is closed (R330), or failed training (Table 16.1). -/
def State.lpddrClosed (s : State) (k : Nat) : Bool := s.partActed (Part.lpddr k)
/-- Hub core c is removed (R330). -/
def State.coreRemoved (s : State) (c : Nat) : Bool := s.partActed (Part.core c)

/-- Reported or own time is degraded (R33, R36): TIME_STATUS.degraded. -/
def State.timeDegraded (s : State) : Bool := s.bit Reg.timeStatus 3

/-- The node is fenced (R319). -/
abbrev State.fenced (s : State) : Bool := s.map.fenced

end Sys2Proof.Machine
end

