-- ==== Sys2Proof/Machine/Operands.lean ====
section
/-!
DEFINITION. Request messages: the header (Table 3.1), the fixed part headers (Tables 3.4, 3.5, 11.7; R70, R71, R203), the three ingress passes of R56, and the data checks of R61 and R99.
Every field is read little-endian from the message; bytes that were not delivered read as zero (R56).
-/

namespace Sys2Proof.Machine

open Sys2Proof

/-! ### Header -/
namespace Msg
/-- opcode. -/
abbrev opcode (m : List Byte) : Nat := byteAt m 0
/-- flags [0]: whole. -/
abbrev whole (m : List Byte) : Bool := bitOf (byteAt m 1) 0
/-- tenant [11:0]. -/
abbrev tenant (m : List Byte) : Nat := field m 2 2 % 4096
/-- map_gen. -/
abbrev mapGen (m : List Byte) : Nat := field m 4 4
/-- request_id. -/
abbrev requestId (m : List Byte) : Nat := field m 8 8
/-- sequence_id. -/
abbrev sid (m : List Byte) : Nat := field m 16 8
/-- layer. -/
abbrev layer (m : List Byte) : Nat := field m 24 2
/-- body_len. -/
abbrev bodyLen (m : List Byte) : Nat := field m 28 4
/-- shape. -/
abbrev shape (m : List Byte) : Nat := field m 32 4
end Msg

/-- Opcodes (Tables 3.2, 8.1, 11.6; R353). -/
inductive Op where
  | append | attend | appendAttend | verify | commit | prefixBind | release | attest
  | rread | rwrite | rwriteTiles | run | projectAttend | spanWork
  deriving DecidableEq, Repr

/-- The operation of an opcode byte. -/
def opOf (b : Nat) : Option Op :=
  if b = 0x01 then some .append else if b = 0x02 then some .attend else if b = 0x03 then some .appendAttend
  else if b = 0x04 then some .verify else if b = 0x05 then some .commit else if b = 0x06 then some .prefixBind
  else if b = 0x07 then some .release else if b = 0x08 then some .attest else if b = 0x10 then some .rread
  else if b = 0x11 then some .rwrite else if b = 0x12 then some .rwriteTiles else if b = 0x20 then some .run
  else if b = 0x21 then some .projectAttend else if b = 0x30 then some .spanWork else none

/-- The opcode carries an attend part at the start of its body. -/
def Op.hasAttend : Op → Bool
  | .attend | .appendAttend | .verify | .projectAttend | .spanWork => true
  | _ => false

/-- Offset of the append part; none where the opcode has none. -/
def Op.appendOff : Op → Option Nat
  | .append => some 40
  | .appendAttend | .verify => some 72
  | _ => none

/-- Offset of the run header. -/
def Op.runOff : Op → Option Nat
  | .run => some 40
  | .projectAttend => some 72
  | _ => none

/-! ### Attend part (Table 3.5), at byte 40 -/
namespace Attend
/-- q_pos. -/
abbrev qPos (m : List Byte) : Nat := field m 40 4
/-- mflags. -/
abbrev mflags (m : List Byte) : Nat := byteAt m 56
/-- rope_q. -/
abbrev ropeQ (m : List Byte) : Bool := bitOf (byteAt m 56) 3
/-- rope_table. -/
abbrev ropeTable (m : List Byte) : Nat := byteAt m 57
/-- score_scale. -/
abbrev scale (m : List Byte) : Nat := field m 58 2
/-- window. -/
abbrev window (m : List Byte) : Nat := field m 44 4
/-- range_lo. -/
abbrev rangeLo (m : List Byte) : Nat := field m 48 4
/-- range_hi. -/
abbrev rangeHi (m : List Byte) : Nat := field m 52 4
end Attend

/-! ### Append part (Table 3.4), at an offset -/
namespace AppendP
/-- position. -/
abbrev pos (m : List Byte) (o : Nat) : Nat := field m o 4
/-- count. -/
abbrev count (m : List Byte) (o : Nat) : Nat := byteAt m (o + 4)
/-- rope_k. -/
abbrev ropeK (m : List Byte) (o : Nat) : Bool := bitOf (byteAt m (o + 5)) 0
/-- rebuild. -/
abbrev rebuild (m : List Byte) (o : Nat) : Bool := bitOf (byteAt m (o + 5)) 1
/-- rope_table. -/
abbrev ropeTable (m : List Byte) (o : Nat) : Nat := byteAt m (o + 6)
end AppendP

/-- Remote header (Table 11.7), at byte 40. -/
abbrev Remote.key (m : List Byte) : Nat := field m 40 4
/-- offset. -/
abbrev Remote.off (m : List Byte) : Nat := field m 44 8
/-- length. -/
abbrev Remote.len (m : List Byte) : Nat := field m 52 4
/-- rflags[0]: forwarded by the primary donor. -/
abbrev Remote.forwarded (m : List Byte) : Bool := bitOf (byteAt m 56) 0
/-- fmt. -/
abbrev Remote.fmt (m : List Byte) : Nat := byteAt m 57

/-- Run header: program slot (R203). -/
abbrev Run.slot (m : List Byte) (o : Nat) : Nat := field m o 2
/-- in_bytes. -/
abbrev Run.inBytes (m : List Byte) (o : Nat) : Nat := field m (o + 4) 4

/-! ### Ingress (R56) -/

/-- Offset of the first nonzero byte of a reserved field. -/
def nzByte (m : List Byte) (off n : Nat) : List Nat :=
  (((List.range n).find? (fun i => decide (byteAt m (off + i) ≠ 0))).map (off + ·)).toList

/-- One fault where a condition holds. -/
def faultIf (c : Bool) (off : Nat) : List Nat := if c then [off] else []

/-- The smallest of some offsets. -/
def minOff (l : List Nat) : Option Nat := l.foldl (fun m x => some (match m with | none => x | some y => min x y)) none

/-- A shape word uses a reserved code, by byte (R58, Table 3.3). -/
def shapeFaults (w off : Nat) : List Nat :=
  faultIf (decide (bitsOf w 1 0 = 3 ∨ bitsOf w 3 2 = 3)) off ++ faultIf (decide (4 < bitsOf w 10 8)) (off + 1) ++
  faultIf (decide (bitsOf w 23 20 ≠ 0)) (off + 2) ++ faultIf (decide (bitsOf w 31 24 ≠ 0)) (off + 3)

/-- Header faults of pass 2 (R56, R73, R203, R283, R353). -/
def headerFaults (op : Op) (m : List Byte) : List Nat :=
  faultIf (decide (byteAt m 1 / 2 ≠ 0)) 1 ++ faultIf (decide (byteAt m 3 / 16 ≠ 0)) 3 ++
  nzByte m 26 2 ++ nzByte m 36 4 ++ shapeFaults (Msg.shape m) 32 ++
  (match op with
   | .run | .attest | .rread | .rwrite | .rwriteTiles => nzByte m 16 8 ++ nzByte m 24 2 ++ nzByte m 32 4
   | .release => faultIf (decide (Msg.layer m ≠ 0xFFFF)) 24
   | .commit => []
   | _ => faultIf (decide (Msg.layer m = 0xFFFF)) 24)

/-- Faults of the attend part (R65, R67). A range that fails as a whole is reported at its field's first byte: 40 for q_pos (DESIGN CHOICE, log 94). -/
def attendFaults (op : Op) (m : List Byte) : List Nat :=
  faultIf (decide (4194304 ≤ Attend.qPos m)) 40 ++
  faultIf (decide (Attend.mflags m / 16 ≠ 0) || (op == .verify && !bitOf (Attend.mflags m) 0)) 56 ++ nzByte m 60 12

/-- Faults of the append part (R62, R64, R66, R67). -/
def appendFaults (op : Op) (m : List Byte) (o : Nat) : List Nat :=
  let n := AppendP.count m o
  let hi := if op = .append then 64 else if op = .verify then 8 else 1
  faultIf (decide (n < 1 ∨ hi < n)) (o + 4) ++
  faultIf (decide (byteAt m (o + 5) / 4 ≠ 0) || (op != .append && AppendP.rebuild m o)) (o + 5) ++ nzByte m (o + 7) 9

/-- Bytes of the fixed part headers after the request header. -/
def fixedLen : Op → Nat
  | .append => 16 | .attend => 32 | .appendAttend => 48 | .verify => 48 | .commit => 16 | .prefixBind => 16
  | .release => 0 | .attest => 0 | .rread => 32 | .rwrite => 32 | .rwriteTiles => 32 | .run => 16
  | .projectAttend => 48 | .spanWork => 32

/-- Faults of the fixed part headers of the body, in no order (R56). -/
def bodyFaults (op : Op) (m : List Byte) : List Nat :=
  (if op.hasAttend then attendFaults op m else []) ++
  (match op.appendOff with | some o => appendFaults op m o | none => []) ++
  (match op.runOff with
   | some o => faultIf (decide (64 ≤ Run.slot m o)) o ++ nzByte m (o + 2) 2 ++ nzByte m (o + 8) 8
   | none => []) ++
  (match op with
   | .commit => faultIf (decide (8 < byteAt m 44)) 44 ++ nzByte m 45 11
   | .prefixBind => faultIf (decide (2 < byteAt m 40)) 40 ++ nzByte m 41 1 ++
       faultIf (decide (field m 42 2 = 0 ∨ 4096 < field m 42 2)) 42 ++ nzByte m 44 12
   | .rread => faultIf (decide (Remote.len m = 0 ∨ 2097152 < Remote.len m)) 52 ++
       faultIf (decide (byteAt m 56 / 2 ≠ 0)) 56 ++ nzByte m 57 15
   | .rwrite => faultIf (decide (Remote.len m = 0 ∨ 2097120 < Remote.len m)) 52 ++
       faultIf (decide (byteAt m 56 / 2 ≠ 0)) 56 ++ nzByte m 57 15
   | .rwriteTiles => faultIf (decide (Remote.len m = 0 ∨ 2097120 < Remote.len m)) 52 ++
       faultIf (decide (byteAt m 56 / 2 ≠ 0)) 56 ++
       faultIf (decide (bitsOf (byteAt m 57) 1 0 = 3 ∨ bitsOf (byteAt m 57) 3 2 = 3 ∨ bitsOf (byteAt m 57) 7 4 ≠ 0)) 57 ++
       nzByte m 58 14
   | _ => [])

/-- Bytes that must have been delivered for a fault at an offset to show: the whole of a field that may not be zero, else the byte itself (R56). -/
def Op.judgedAt (op : Op) (o : Nat) : Nat :=
  if op = .prefixBind ∧ o = 42 then 44
  else if (op = .rread ∨ op = .rwrite ∨ op = .rwriteTiles) ∧ o = 52 then 56 else o + 1

/-- The tile format code of a tile header byte 1 (Table 5.2). -/
def fmtTile (fmt : Nat) : Nat := tileSize (bitsOf fmt 1 0) (dimOf (bitsOf fmt 3 2))

/-- body_len that the opcode, the shape and the counts require (R56 pass 3). -/
def needBody (op : Op) (m : List Byte) : Nat :=
  let sh := shapeOf (Msg.shape m)
  match op with
  | .append => 16 + 4 * AppendP.count m 40 * sh.heads * sh.d
  | .attend => 32 + 2 * sh.hq * sh.d
  | .appendAttend => 32 + 16 + 4 * sh.heads * sh.d + 2 * sh.hq * sh.d
  | .verify => 32 + 16 + 4 * AppendP.count m 72 * sh.heads * sh.d + 2 * AppendP.count m 72 * sh.hq * sh.d
  | .commit => 16
  | .prefixBind => 16 + 16 * field m 42 2
  | .release => 0
  | .attest => 32
  | .rread => 32
  | .rwrite => 32 + Remote.len m
  | .rwriteTiles =>
    -- the data are whole tiles: no body length satisfies another length (log 6)
    if Remote.len m % fmtTile (Remote.fmt m) ≠ 0 then 0
    else 32 + Remote.len m + 4 * (Remote.len m / fmtTile (Remote.fmt m))
  | .run => 16 + Run.inBytes m 40
  | .projectAttend => 48 + Run.inBytes m 72
  | .spanWork => Msg.bodyLen m

/-- The three passes of R56 over a message delivered with a length: the detail of a BAD_FIELD. -/
def ingressFault (op : Op) (m : List Byte) (delivered : Nat) : Option Nat :=
  if delivered < 40 then some delivered
  else if delivered ≠ 40 + Msg.bodyLen m ∨ 2097152 < Msg.bodyLen m then some 28
  else
    match minOff (headerFaults op m ++ (bodyFaults op m).filter (fun o => decide (op.judgedAt o ≤ delivered))) with
    | some o => some o
    | none =>
      if Msg.bodyLen m < fixedLen op ∨ Msg.bodyLen m ≠ needBody op m then some 28
      else if Msg.layer m ≠ 0xFFFF ∧ (shapeOf (Msg.shape m)).layers ≤ Msg.layer m then some 24
      else if (op = .appendAttend ∨ op = .verify) ∧ Attend.qPos m ≠ AppendP.pos m 72 then some 40
      else none

/-! ### Data (R61, R99) -/

/-- Offset of the first NaN or infinity among BF16 elements from an offset to the message's end (R61). -/
def firstBad : List Byte → Nat → Option Nat
  | a :: b :: t, off => if bf16Bad (a.toNat + 256 * b.toNat) then some off else firstBad t (off + 2)
  | _, _ => none

/-- Offset of the first byte of K, V and Q rows. -/
def dataOff : Op → Option Nat
  | .append => some 56 | .attend => some 72 | .appendAttend => some 88 | .verify => some 88 | _ => none

/-- The data checks of R78: the detail of a BAD_FIELD. A SPAN_WORK is exempt: its Q and scale come checked from the home (DESIGN CHOICE, log 98). -/
def dataFault (op : Op) (m : List Byte) : Option Nat :=
  let nan := match dataOff op with | some o => firstBad (m.drop o) o | none => none
  match nan with
  | some o => some o
  | none => if op.hasAttend && op != .spanWork && bf16Bad (Attend.scale m) then some 58 else none

/-- n BF16 rows of d values from an offset. -/
def rowsAt (m : List Byte) (off n d : Nat) : List (List Nat) :=
  (List.range n).map (fun i => (List.range d).map (fun j => field m (off + 2 * (i * d + j)) 2))

/-- The mask words of a message for a query position (R82). -/
def maskOf (m : List Byte) (q : Nat) : Mask := ⟨q, Attend.window m, Attend.rangeLo m, Attend.rangeHi m, Attend.mflags m⟩

end Sys2Proof.Machine
end

