-- ==== Sys2Proof/Machine/Layout.lean ====
section
/-!
DEFINITION. Flat memory (R19, R133–R137), sequence records in it, and where the node places its tables and buffers (R123, R125, R138–R141, R146, R177, R178; log 89).
-/

namespace Sys2Proof.Machine

open Sys2Proof

/-! ### Flat memory (R19, R133–R137) -/

/-- Bytes of tier 0 and of both tiers. -/
abbrev tier0End : Nat := 0x9000000000
/-- One past the flat range. -/
abbrev flatEnd : Nat := 0x15000000000
/-- KiB of a bank group (R134). -/
abbrev bgKiB : Nat := 294912
/-- KiB pointer of the start of tier 1, and its KiB. -/
abbrev tier1Lo : Nat := 0x24000000
/-- KiB of tier 1. -/
abbrev tier1KiB : Nat := 805306368

/-- Unit and local byte offset of a tier-0 flat address (Table 5.5, R134). -/
def tier0Decode (a : Nat) : Nat × Nat :=
  let seg := a / pow2 36
  let w := bitsOf a 35 21
  let bg := bitsOf a 14 11 ^^^ bitsOf w 6 3
  let stack := bitsOf a 10 8 ^^^ bitsOf w 2 0
  (256 * stack + 16 * bitsOf a 18 15 + bg, seg * pow2 25 + w * 1024 + bitsOf a 20 19 * 256 + a % 256)

/-- The flat address of local byte o of a unit's bank group: the layout function (R135). -/
def flatOf (unit o : Nat) : Nat :=
  let seg := o / pow2 25
  let w := o / 1024 % 32768
  seg * pow2 36 + w * pow2 21 + o / 256 % 4 * pow2 19 + unit / 16 % 16 * pow2 15 +
    (unit % 16 ^^^ bitsOf w 6 3) * pow2 11 + (unit / 256 ^^^ bitsOf w 2 0) * pow2 8 + o % 256

/-- A byte of flat memory outside pair slots. -/
def State.peek (s : State) (a : Nat) : Byte := spGet (0 : Byte) s.mem.flat a
/-- Write one. -/
def State.poke (s : State) (a : Nat) (v : Byte) : State := { s with mem := { s.mem with flat := spSet (0 : Byte) s.mem.flat a v } }
/-- Write bytes whose i-th lies at an address a function gives. -/
def State.pokeAll (s : State) (addr : Nat → Nat) (bs : List Byte) : State :=
  bs.zipIdx.foldl (fun s b => s.poke (addr b.2) b.1) s
/-- Flat memory is in its canonical form: addresses strictly rising, no listed byte zero. -/
def Memory.wf (m : List Host.Cell) : Bool := spWf (0 : Byte) m

/-- Unit of a pair location word: stack, die and bank group (Table 5.6, R152). -/
abbrev locUnit (w : Nat) : Nat := w / pow2 19
/-- KiB offset of a location word. -/
abbrev locOff (w : Nat) : Nat := w % pow2 19
/-- P_s of a unit's stack, KiB (R136, R180). -/
def State.protKiB (s : State) (u : Nat) : Nat := s.sys.split.getD (u / 256) 73728

/-! ### Records -/

/-- An empty pair slot. -/
def Pair.empty : Pair := ⟨[], []⟩
/-- A FREE entry. -/
def Pte.free : Pte := ⟨.free, .tier0, false, false, 0, 0, 0, 0, 0, [], [], none, [0, 0, 0, 0], [0, 0, 0, 0], 0⟩
/-- A head entry with nothing in it. -/
def HeadRec.empty : HeadRec := ⟨[], [], false, false, false, [], []⟩
/-- A layer with no position. -/
def LayerRec.empty (heads : Nat) : LayerRec := ⟨0, none, [], 0, List.replicate heads HeadRec.empty⟩

/-- Entry of page i. -/
def HeadRec.page (h : HeadRec) (i : Nat) : Pte := (tabGet h.pages i).getD Pte.free
/-- Write the entry of page i; a FREE entry that holds no slot is not listed. -/
def HeadRec.setPage (h : HeadRec) (i : Nat) (p : Pte) : HeadRec :=
  { h with pages := if p = Pte.free then tabDel h.pages i else tabPut h.pages i p, depth := h.depth || decide (128 ≤ i) }
/-- Layer l. -/
def SeqRec.layer (r : SeqRec) (l : Nat) : LayerRec := r.layers.getD l (LayerRec.empty 0)
/-- Head h of layer l. -/
def SeqRec.head (r : SeqRec) (l h : Nat) : HeadRec := (r.layer l).heads.getD h HeadRec.empty
/-- Entry (l, h, i). -/
def SeqRec.pte (r : SeqRec) (l h i : Nat) : Pte := (r.head l h).page i
/-- Change a layer. -/
def SeqRec.mapLayer (r : SeqRec) (l : Nat) (f : LayerRec → LayerRec) : SeqRec := { r with layers := listMap r.layers l f }
/-- Write an entry. -/
def SeqRec.setPte (r : SeqRec) (l h i : Nat) (p : Pte) : SeqRec :=
  r.mapLayer l (fun y => { y with heads := listMap y.heads h (fun z => z.setPage i p) })
/-- The shape of a sequence. -/
def SeqRec.sh (r : SeqRec) : Shape := shapeOf r.shape
/-- KiB of a pair of a shape. -/
def Shape.pairKiB (sh : Shape) : Nat := Sys2Proof.Machine.pairKiB sh.kvfmt sh.d

/-! ### What has a place (R123, R125, R138–R142, R146) -/

/-- The stride S of a shape's layer descriptors: the smallest power of two that is not below 64·(1 + H) (R140). -/
def Shape.stride (sh : Shape) : Nat := ([128, 256, 512, 1024, 2048].find? (fun x => decide (64 * (1 + sh.heads) ≤ x))).getD 2048

/-- KiB of one part of a shape's tail buffer: 64 rows of d BF16 values (R123). -/
def Shape.partKiB (sh : Shape) : Nat := ceilDiv (128 * sh.d) 1024

/-- Leaf tables of a head: those with an entry that is not FREE (R141). -/
def HeadRec.leaves (h : HeadRec) : List Nat := (h.pages.map (fun p => p.1 / 16)).foldl setInsert []

/-- Interior tables of a head: none at depth 0; at depth 1 table 0 and those with a leaf (R141). -/
def HeadRec.inters (h : HeadRec) : List Nat := if h.depth then (h.leaves.map (· / 128)).foldl setInsert [0] else []

/-- Structures of a sequence, with their KiB. A held record has no tail buffer: its tail is at its home (R141). -/
def SeqRec.wanted (r : SeqRec) : List (Place × Nat) :=
  let t := r.tenant
  let i := r.sid
  (.layers t i, ceilDiv (r.layers.length * r.sh.stride) 1024) ::
  r.layers.zipIdx.flatMap (fun y => y.1.heads.zipIdx.flatMap (fun h =>
    let tail := 2 * r.sh.partKiB
    (if r.home && decide (t < 4096) then [(Place.tail t i y.2 h.2, tail)] else []) ++
    (if (y.1.prov.bind (·.tile)).isSome then [(Place.spare t i y.2 h.2, tail)] else []) ++
    (if y.1.rebuildSpares = 0 then [] else [(Place.collect t i y.2 h.2, tail)]) ++
    h.1.leaves.map (fun n => (Place.leaf t i y.2 h.2 n, 1)) ++
    h.1.inters.map (fun n => (Place.inter t i y.2 h.2 n, 1))))

/-- Structures of a page group, with their KiB. -/
def GroupRec.wanted (g : Nat) (x : GroupRec) : List (Place × Nat) :=
  [(.group g, 1), (.shared g, max 1 (ceilDiv (64 * x.ptes.flatten.length) 1024))]

/-- The node keeps the structure twice: it is a table (R138). -/
def Place.twice : Place → Bool
  | .layers .. | .inter .. | .leaf .. | .group _ | .shared _ => true
  | .tail .. | .spare .. | .collect .. | .work _ | .image _ => false

/-- The structure is a weight tile's, placed at its load and freed with its version (R215, R216). -/
def Place.ofWeights : Place → Option TileKey
  | .work k | .image k => some k
  | _ => none

/-- Every structure of the sequences and groups, each copy by itself. -/
def State.wantedPlaces (s : State) : List ((Place × Bool) × Nat) :=
  (s.pgw.seqs.flatMap SeqRec.wanted ++ s.pgw.groups.flatMap (fun g => GroupRec.wanted g.1 g.2)).flatMap (fun x =>
    ((x.1, false), x.2) :: (if x.1.twice then [((x.1, true), x.2)] else []))

/-! ### Where it goes (R136, R138, R178, R330; log 89) -/

/-- A run [o, o + n) meets none of some runs. -/
def clearOf (used : List (Nat × Nat)) (o n : Nat) : Bool := used.all (fun u => decide (o + n ≤ u.1 ∨ u.1 + u.2 ≤ o))

/-- 2 MiB runs of flat addresses that lie in the protected region whatever the stack (R136). -/
def State.protChunks (s : State) : Nat := s.sys.split.foldl min bgKiB

/-- KiB runs of the structures that registers place: both copies of the sequence table, and the key records (R138, R139, R232). -/
def State.tableRuns (s : State) : List (Nat × Nat) :=
  let n := pow2 (s.fld Reg.pgwSeqCfg 4 0) / 4
  [(s.live64 Reg.pgwSeqBase / 1024, n), (s.live64 Reg.pgwMirrorBase / 1024, n), (s.live64 Reg.matKeyBase / 1024, 16 * s.fld Reg.matCfg 7 0)]

/-- The first k of p chunks, from one on and round again, that a test admits. -/
def pickChunks (ok : Nat → Bool) (p : Nat) : Nat → Nat → Nat → List Nat
  | 0, _, _ => []
  | _, 0, _ => []
  | f + 1, k + 1, c => if ok (c % p) then c % p :: pickChunks ok p f k (c + 1) else pickChunks ok p f (k + 1) (c + 1)

/-- KiB of the seal map: 2 bits for each KiB of bare memory (R158, R181). -/
def State.sealMapKiB (s : State) : Nat :=
  ((List.range 8).filter (fun k => !s.sys.badHbm.contains k)).foldl (fun n k => n + (bgKiB - s.sys.split.getD k 0) * 256) 0 / 4096

/-- 2 MiB runs of the seal map, of the hub programs' state and of the spare tail pool (Table 7.1, R181): where they lie, and 2 MiB for the programs' state, are the node's choice (DESIGN CHOICE, log 111). -/
def State.fixedChunks (s : State) : (List Nat × List Nat) :=
  let own := ceilDiv s.sealMapKiB 2048 + 1
  let pool := ceilDiv (64 * s.fld Reg.pgwCfg 15 0) 2048
  let p := max 1 s.protChunks
  let ok (c : Nat) : Bool := decide (c % 4 ≠ 3) && clearOf s.tableRuns (2048 * c) 2048
  let l := pickChunks ok p (2 * (own + pool) + 1024) (own + pool) (Config.choice 0 4 % p)
  (l.take own, l.drop own)

/-- KiB runs that hold fixed structures, or are retired: nothing else is placed there (R178, R181, R196). -/
def State.fixedRuns (s : State) : List (Nat × Nat) :=
  let c := s.fixedChunks
  s.tableRuns ++ (c.1 ++ c.2).map (fun c => (2048 * c, 2048)) ++ s.mem.retiredProt.map (fun o => (o, 64))

/-- A run of n KiB from o may hold a structure: inside one 2 MiB run that is protected and carries no check symbols, free of others, in open bank groups. -/
def State.protFits (s : State) (used : List (Nat × Nat)) (n o : Nat) : Bool :=
  decide (o / 2048 < s.protChunks ∧ o / 2048 % 4 ≠ 3 ∧ o % 2048 + n ≤ 2048) && clearOf used o n &&
  (List.range n).all (fun k => (List.range 4).all (fun g => !s.bgClosed (tier0Decode (1024 * (o + k) + 256 * g)).1))

/-- Where n KiB of protected memory go: the node's choice, else the first run that fits. -/
def State.findProt (s : State) (n align : Nat) : Option Nat :=
  let used := s.fixedRuns ++ s.pgw.places.map Prod.snd
  let up (x : Nat) : Nat := align * ceilDiv x align
  match (up (Config.choice s.pgw.allocs 3 % (2048 * s.protChunks + 1)) :: used.map (fun u => up (u.1 + u.2))).find? (s.protFits used n) with
  | some o => some o
  | none => ((List.range s.protChunks).map (2048 * ·)).find? (s.protFits used n)

/-- A buffer of the spare tail pool that none holds, 64 KiB each; where a former tail buffer outlives its place in the pool, room like that of any structure (R125, R181; log 111). -/
def State.findSpare (s : State) (n : Nat) : Option Nat :=
  let used := s.pgw.places.map Prod.snd
  match (s.fixedChunks.2.flatMap (fun c => (List.range 32).map (fun i => 2048 * c + 64 * i))).find? (s.protFits used n) with
  | some o => some o
  | none => s.findProt n 1

/-- The structure is a buffer of the spare tail pool (R125, R142). -/
def Place.ofPool : Place → Bool
  | .spare .. | .collect .. => true
  | _ => false

/-- Where a structure lies: its pointer and KiB. -/
def State.placed (s : State) (x : Place) (mirror : Bool) : Option (Nat × Nat) := (s.pgw.places.find? (fun p => decide (p.1 = (x, mirror)))).map Prod.snd

/-- Place a structure in protected memory, where it has no place: a layer table is aligned to 2 KiB (R140). -/
def State.placeProt (s : State) (x : (Place × Bool) × Nat) : State :=
  if (s.placed x.1.1 x.1.2).isSome then s
  else
    match if x.1.1.ofPool then s.findSpare x.2 else s.findProt x.2 (match x.1.1 with | .layers .. => 2 | _ => 1) with
    | none => s
    | some o => { s with pgw := { s.pgw with places := s.pgw.places ++ [(x.1, (o, x.2))], allocs := s.pgw.allocs + 1 } }

/-- Structures that came have a place, and those that went have none. -/
def State.settlePlaces (s : State) : State :=
  let want := s.wantedPlaces
  let s := { s with pgw := { s.pgw with places := s.pgw.places.filter (fun p => p.1.1.ofWeights.isSome || want.contains (p.1, p.2.2)) } }
  want.foldl State.placeProt s

/-- Flat KiB pointer of a structure, or the none value (R138). -/
def State.ptr (s : State) (x : Place) (mirror : Bool) : Nat := ((s.placed x mirror).map Prod.fst).getD 0xFFFFFFFF

/-- The spares that a provisional set held become a layer's tail buffers (R125). -/
def State.swapTails (s : State) (tenant sid l : Nat) : State :=
  let swap : Place → Place
    | .tail t i k h => if t = tenant ∧ i = sid ∧ k = l then .spare t i k h else .tail t i k h
    | .spare t i k h => if t = tenant ∧ i = sid ∧ k = l then .tail t i k h else .spare t i k h
    | p => p
  { s with pgw := { s.pgw with places := s.pgw.places.map (fun p => ((swap p.1.1, p.1.2), p.2)) } }

end Sys2Proof.Machine
end

