-- ==== Sys2Proof/Machine/Walk.lean ====
section
/-!
DEFINITION. Sequences and pages (chapter 05, R59–R70): records, page-table entries and their resolution, where slots lie, allocation, Dusk's drops, reservation, appends and sealing, provisional sets, rebuilds.
-/

namespace Sys2Proof.Machine

open Sys2Proof

/-- The two buckets of a sequence (R139). -/
def State.buckets (s : State) (tenant sid : Nat) : Nat × Nat :=
  let k := s.fld Reg.pgwSeqCfg 4 0
  let key := sid % pow2 64 ^^^ (tenant * pow2 52 % pow2 64)
  let h := key * 0x9E3779B97F4A7C15 % pow2 64
  let b0 := h / pow2 (64 - k)
  (b0, (h % pow2 k) ^^^ b0 ^^^ 1)

/-- A sequence by tenant and ID. -/
def State.findSeq (s : State) (tenant sid : Nat) : Option SeqRec :=
  s.pgw.seqs.find? (fun r => r.tenant == tenant && r.sid == sid)

/-- Insert a record in (bucket, slot) order. -/
def seqInsert (r : SeqRec) : List SeqRec → List SeqRec
  | [] => [r]
  | x :: t => if r.bucket < x.bucket ∨ (r.bucket = x.bucket ∧ r.slot < x.slot) then r :: x :: t else x :: seqInsert r t

/-- A layer descriptor as the descriptor cache holds it: header and head entries, not the rows of tail buffers nor the entries of leaf tables (Table 5.8). -/
def LayerRec.cached (y : LayerRec) : LayerRec :=
  { y with prov := y.prov.map (fun v => { v with rows := v.rows.map (fun _ => []) })
           heads := y.heads.map (fun h => { h with tailK := [], tailV := [], collect := [], pages := [] }) }

/-- The descriptor-cache entry of a layer. -/
def SeqRec.descEnt (r : SeqRec) (l : Nat) : DescEnt := ⟨{ r with layers := [] }, l, (r.layer l).cached⟩

/-- An entry of the descriptor cache is of a sequence. -/
def DescEnt.of (e : DescEnt) (tenant sid : Nat) : Bool := e.record.tenant == tenant && e.record.sid == sid

/-- Write a sequence's record; no lookup of the descriptor cache returns the old content (R144). -/
def State.putSeq (s : State) (r : SeqRec) : State :=
  let seqs := if (s.findSeq r.tenant r.sid).isSome
    then s.pgw.seqs.map (fun x => if x.tenant = r.tenant ∧ x.sid = r.sid then r else x) else seqInsert r s.pgw.seqs
  let t := { s with pgw := { s.pgw with
    seqs := seqs, desc := s.pgw.desc.map (fun e => if e.of r.tenant r.sid then r.descEnt e.layer else e) } }
  if (s.findSeq r.tenant r.sid).map SeqRec.wanted = some r.wanted then t else t.settlePlaces

/-- Remove a record. -/
def State.delSeq (s : State) (tenant sid : Nat) : State :=
  State.settlePlaces { s with pgw := { s.pgw with
    seqs := s.pgw.seqs.filter (fun x => !(x.tenant == tenant && x.sid == sid))
    tlb := s.pgw.tlb.filter (fun x => !(x.tag.tenant == tenant && x.tag.sid == sid))
    desc := s.pgw.desc.filter (fun x => !x.of tenant sid) } }

/-- The slot a creation takes: the lowest free of b0, else of b1 (R139). -/
def State.freeSeqSlot (s : State) (tenant sid : Nat) : Option (Nat × Nat) :=
  let b := s.buckets tenant sid
  let free (k : Nat) := lowestFree ((s.pgw.seqs.filter (·.bucket == k)).map (·.slot)) 4
  match free b.1 with
  | some i => some (b.1, i)
  | none => (free b.2).map (fun i => (b.2, i))

/-- A record is of a moved home: its entries are TOMBSTONEs (Table 5.4). -/
def SeqRec.tomb (r : SeqRec) : Option (Nat × Nat) :=
  r.layers.findSome? (fun l => l.heads.findSome? (fun h => h.pages.findSome? (fun p =>
    if p.2.state = .tombstone then some (p.2.node, p.2.gen) else none)))

/-! ### Page groups and page references (R146) -/

/-- A page group. -/
def State.group (s : State) (g : Nat) : Option GroupRec := tabGet s.pgw.groups g

/-- A shared record of a group. -/
def GroupRec.pte (g : GroupRec) (l h : Nat) : Pte := (g.ptes.getD l []).getD h Pte.free

/-- Where the content of a sequence's page stands: its own entry, or the shared record. -/
def SeqRec.ref (r : SeqRec) (l h i : Nat) : PageRef :=
  let p := r.pte l h i
  if p.kind = .shared ∧ p.state ≠ .free then ⟨true, p.group, 0, l, h, i⟩ else ⟨false, r.tenant, r.sid, l, h, i⟩

/-- The entry a reference names. -/
def State.pageAt (s : State) (p : PageRef) : Pte :=
  if p.grp then ((s.group p.tenant).map (fun g => g.pte p.layer p.head)).getD Pte.free
  else ((s.findSeq p.tenant p.sid).map (fun r => r.pte p.layer p.head p.page)).getD Pte.free

/-- A page as the walker resolves it. -/
def State.resolve (s : State) (r : SeqRec) (l h i : Nat) : Pte := s.pageAt (r.ref l h i)

/-- The sequences that hold a reference to a group. -/
def State.groupSeqs (s : State) (g : Nat) : List SeqRec :=
  s.pgw.seqs.filter (fun r => (r.head 0 0).pages.any (fun p => p.2.kind == .shared && p.2.group == g && p.2.state != .free))

/-- Drop the TLB entries that hold a page; those that hold a shared record are found by the pointer they keep (R144). -/
def State.invalidate (s : State) (p : PageRef) : State :=
  { s with pgw := { s.pgw with tlb := s.pgw.tlb.filter (fun e =>
      !(e.tag.layer == p.layer && e.tag.head == p.head && e.tag.span == p.page / 4 &&
        (if p.grp then e.shared.contains (some p.tenant) else e.tag.tenant == p.tenant && e.tag.sid == p.sid))) } }

/-- Rewrite an entry or a shared record, and the TLB with it (R144). -/
def State.setPageAt (s : State) (p : PageRef) (e : Pte) : State :=
  let s := s.invalidate p
  if p.grp then
    let put (g : GroupRec) : GroupRec := { g with ptes := listMap g.ptes p.layer (fun hs => listPut Pte.free hs p.head e) }
    { s with pgw := { s.pgw with groups := tabMap s.pgw.groups p.tenant put } }
  else
    match s.findSeq p.tenant p.sid with
    | none => s
    | some r => s.putSeq (r.setPte p.layer p.head p.page e)

/-- Shape of the page a reference names. -/
def State.refShape (s : State) (p : PageRef) : Shape :=
  shapeOf (if p.grp then ((s.group p.tenant).map (·.shape)).getD 0 else ((s.findSeq p.tenant p.sid).map (·.shape)).getD 0)

/-- The record whose class governs a page: its sequence, or the first that references its group (log 22). -/
def State.refOwner (s : State) (p : PageRef) : Option SeqRec :=
  if p.grp then (s.groupSeqs p.tenant).head? else s.findSeq p.tenant p.sid

/-- SHADOWED policy of a page: of its sequence, or of any sequence that references its group (R147, R182). -/
def State.refShadowed (s : State) (p : PageRef) : Bool :=
  if p.grp then (s.groupSeqs p.tenant).any (·.shadowed) else ((s.findSeq p.tenant p.sid).map (·.shadowed)).getD false

/-- Every page with slots or a copy, by reference: sequences' own entries and shared records. -/
def State.allPages (s : State) : List (PageRef × Pte) :=
  s.pgw.seqs.flatMap (fun r => r.layers.zipIdx.flatMap (fun ly => ly.1.heads.zipIdx.flatMap (fun hd =>
    (hd.1.pages.filter (fun p => p.2.kind != .shared)).map (fun p => ((⟨false, r.tenant, r.sid, ly.2, hd.2, p.1⟩ : PageRef), p.2))))) ++
  s.pgw.groups.flatMap (fun g => g.2.ptes.zipIdx.flatMap (fun ly => ly.1.zipIdx.map (fun hd =>
    ((⟨true, g.1, 0, ly.2, hd.2, g.2.page⟩ : PageRef), hd.1))))

/-! ### Slots in use, free space -/

/-- KiB of a pair of the page a reference names. -/
def State.refKiB (s : State) (p : PageRef) : Nat := (s.refShape p).pairKiB

/-- The move writes tier 0. -/
def MoveKind.toTier0 : MoveKind → Bool
  | .promote | .relocate => true
  | _ => false

/-- Tier-0 slots held: unit, KiB offset, KiB. -/
def State.slots0 (s : State) : List (Nat × Nat × Nat) :=
  let cut (k : Nat) (ws : List Nat) := ws.map (fun w => (locUnit w, locOff w, k))
  s.allPages.flatMap (fun p => if p.2.kind = .tier0 then cut (s.refKiB p.1) p.2.locs else []) ++
  s.mem.moves.flatMap (fun m => if m.2.kind.toTier0 then cut (s.refKiB m.2.page) m.2.dest else []) ++
  s.mem.olds.flatMap (fun o => if o.2.tier0 then cut o.2.kib o.2.locs else [])

/-- The move writes tier 1. -/
def MoveKind.toTier1 : MoveKind → Bool
  | .spill1 | .fetch | .shadow | .shift => true
  | _ => false

/-- Tier-1 runs of pages, of their copies, of moves and of old locations: KiB pointer and KiB. -/
def State.runs1 (s : State) : List (Nat × Nat) :=
  s.allPages.flatMap (fun p =>
    let k := 4 * s.refKiB p.1
    (if p.2.kind = .tier1 then p.2.locs.map (fun w => (w, k)) else []) ++
    (match p.2.shadow with | some sh => [(sh.1, k)] | none => [])) ++
  s.mem.moves.flatMap (fun m => if m.2.kind.toTier1 then m.2.dest.map (fun w => (w, 4 * s.refKiB m.2.page)) else []) ++
  s.mem.olds.flatMap (fun o => if o.2.tier0 then [] else o.2.locs.map (fun w => (w, 4 * o.2.kib)))

/-- KiB of a 64 KiB run that some runs leave. -/
def uncovered (runs : List (Nat × Nat)) (ptr : Nat) : Nat :=
  64 - runs.foldl (fun n r => n + (min (r.1 + r.2) (ptr + 64) - max r.1 ptr)) 0

/-- Tier-1 runs of encrypted weight tiles (R215). -/
def State.imageRuns (s : State) : List (Nat × Nat) :=
  s.pgw.places.filterMap (fun p => match p.1.1 with | .image _ => some p.2 | _ => none)

/-- Tier-1 runs taken: what is held, weight images, retired and failing units, and lent pool slices, which are regions of partition 4,095, one that has ended until the last write of it is complete (R195, R286, R304). -/
def State.slots1 (s : State) : List (Nat × Nat) :=
  s.runs1 ++
  s.mem.retired.map (fun u => (tier1Lo + 64 * u, 64)) ++
  s.mem.failing.map (fun u => (tier1Lo + 64 * u, 64)) ++
  s.imageRuns ++
  s.que.regions.filterMap (fun r => if r.2.valid ∧ r.2.part = 4095 then some (r.2.base / 1024, r.2.length / 1024) else none) ++
  (s.que.closing.filter (fun c => s.sch.forwarded.any (fun r => r.rid == c.1))).map Prod.snd

/-- A unit's bank group takes new slots: its group is open and its stack trained and holding bare memory. -/
def State.unitOpen (s : State) (u : Nat) : Bool :=
  !s.bgClosed u && decide (s.protKiB u < bgKiB) && !s.sys.badHbm.contains (u / 256)

/-- KiB of bare memory in open bank groups. -/
def State.bareKiB (s : State) : Nat :=
  ((List.range 2048).filter s.unitOpen).foldl (fun n u => n + (bgKiB - s.protKiB u)) 0
/-- Free bare KiB. -/
def State.freeBare (s : State) : Nat := s.bareKiB - (s.slots0.filter (fun x => s.unitOpen x.1)).foldl (fun n x => n + x.2.2) 0
/-- KiB of tier 1 in open LPDDR6 stacks (R330; log 27). -/
def State.totalTier1 (s : State) : Nat := tier1KiB / 8 * (8 - s.actedCount (Part.lpddr 0) 8)
/-- Free tier-1 KiB. -/
def State.freeTier1 (s : State) : Nat :=
  s.totalTier1 + s.mem.failing.foldl (fun n u => n + (64 - uncovered (s.runs1 ++ s.imageRuns) (tier1Lo + 64 * u))) 0 - s.slots1.foldl (fun n x => n + x.2) 0

/-- Tier-1 KiB in use that the open stacks have no room for. -/
def State.overTier1 (s : State) : Nat :=
  s.slots1.foldl (fun n x => n + x.2) 0 - (s.totalTier1 + s.mem.failing.foldl (fun n u => n + (64 - uncovered (s.runs1 ++ s.imageRuns) (tier1Lo + 64 * u))) 0)

/-! ### Slices' shares (R301, R302) -/

/-- Slice of a class. -/
def State.sliceOf (s : State) (c : Nat) : Nat := (s.map.cur.bind (fun m => tabGet m.classes c)).getD 0

/-- The layout in force for a class: gather (R130, R151). -/
def State.gatherNow (s : State) (c : Nat) : Bool := s.bit (Reg.pgwClassCfg + 4 * c) 0

/-- This node's membership entry for a slice. -/
def State.memb (s : State) (sl : Nat) : Option MembEnt :=
  s.map.cur.bind (fun m => (((tabGet m.members s.map.id).getD []).map Prod.snd).find? (fun e => e.slice == sl))

/-- Class whose slice a page counts against. -/
def State.refSlice (s : State) (p : PageRef) : Nat := s.sliceOf (((s.refOwner p).map (·.cls)).getD 0)

/-- KiB of tier 0 that a slice holds. -/
def State.sliceBare (s : State) (sl : Nat) : Nat :=
  s.allPages.foldl (fun n p => if p.2.kind = .tier0 ∧ s.refSlice p.1 = sl then n + s.refKiB p.1 * p.2.locs.length else n) 0

/-- KiB of tier 1 that a slice holds. -/
def State.sliceT1 (s : State) (sl : Nat) : Nat :=
  s.allPages.foldl (fun n p =>
    if s.refSlice p.1 = sl then n + 4 * s.refKiB p.1 * ((if p.2.kind = .tier1 then p.2.locs.length else 0) + b2n p.2.shadow.isSome) else n) 0

/-- KiB of tier 1 that moves under way will give a slice: shadows, spills and fetches, not the shifts within tier 1, which free what they leave. -/
def State.comingT1 (s : State) (sl : Nat) : Nat :=
  s.mem.moves.foldl (fun n m =>
    if m.2.kind.toTier1 ∧ m.2.kind ≠ .shift ∧ s.refSlice m.2.page = sl then n + 4 * s.refKiB m.2.page * m.2.dest.length else n) 0

/-- A slice holds its bare share or more (R302); a node with no map has no shares (log 29). -/
def State.overBare (s : State) (sl : Nat) : Bool :=
  match s.map.cur with
  | none => false
  | some _ => match s.memb sl with
    | none => true
    | some e => decide (e.bare * s.bareKiB / 256 ≤ s.sliceBare sl)

/-- Tier-1 KiB a slice may still take (R302). -/
def State.roomT1 (s : State) (sl kib : Nat) : Bool :=
  match s.map.cur with
  | none => true
  | some _ => match s.memb sl with
    | none => false
    | some e => decide (s.sliceT1 sl + s.comingT1 sl + 4 * kib ≤ e.tier1 * s.totalTier1 / 256)

/-- A page of an isolated class (R366). -/
def State.isoPage (s : State) (p : PageRef) : Bool := s.bit (Reg.secIsoCfg + 4 * ((s.refOwner p).map (·.cls)).getD 0) 0

/-! ### Choosing slots (R130, R342; log 11) -/

/-- Slots taken so far in an allocation. -/
structure Alloc where
  /-- Tier 0. -/
  t0 : List (Nat × Nat × Nat)
  /-- Tier 1. -/
  t1 : List (Nat × Nat)
  /-- KiB of tier 1 left. -/
  left1 : Nat
  /-- Serial of the next choice. -/
  serial : Nat
  deriving DecidableEq, Repr

/-- An allocation that starts from the state. -/
def State.alloc (s : State) : Alloc := ⟨s.slots0, s.slots1, s.freeTier1, s.pgw.allocs⟩

/-- A start for n KiB in [lo, hi): the preferred one, else the first fit. -/
def fitIn (used : List (Nat × Nat)) (lo hi n pref : Nat) : Option Nat :=
  (pref :: lo :: used.map (fun u => u.1 + u.2)).find? (fun o => decide (lo ≤ o) && decide (o + n ≤ hi) && clearOf used o n)

/-- Starts for k slots of n KiB. -/
def fitMany (lo hi n : Nat) : Nat → List (Nat × Nat) → Nat → Option (List Nat)
  | 0, _, _ => some []
  | k + 1, used, pref =>
    match fitIn used lo hi n pref with
    | none => none
    | some o => (fitMany lo hi n k ((o, n) :: used) (o + n)).map (o :: ·)

/-- k slots of n KiB in one bank group that a test admits: which one is the node's choice. -/
def State.pickUnit (s : State) (a : Alloc) (ok : Nat → Bool) (k n : Nat) : Option (List Nat × Alloc) :=
  let start := Config.choice a.serial 0 % 2048
  let order := (List.range 2048).map (fun i => (start + i) % 2048)
  order.findSome? (fun u =>
    if !(s.unitOpen u && ok u) then none
    else
      let lo := s.protKiB u
      let used := (a.t0.filter (·.1 == u)).map Prod.snd
      match fitMany lo bgKiB n k used (lo + Config.choice a.serial 1 % (bgKiB - lo)) with
      | none => none
      | some os => some (os.map (fun o => u * pow2 19 + o), { a with t0 := os.map (fun o => (u, o, n)) ++ a.t0, serial := a.serial + 1 }))

/-- Bank groups that hold pairs of pages lo … lo + n − 1 of a head in tier 0, or will when moves under way end. -/
def State.headUnits (s : State) (r : SeqRec) (l h lo n : Nat) : List Nat :=
  (rangeFrom lo n).flatMap (fun i =>
    let p := s.resolve r l h i
    let ref := r.ref l h i
    (if p.kind = .tier0 then p.locs.map locUnit else []) ++
    (s.mem.moves.filter (fun m => m.2.kind.toTier0 && decide (m.2.page = ref))).flatMap (fun m => m.2.dest.map locUnit))

/-- k pairs of a spread page, one after the other: different stacks, no bank group of `avoid` (R130). -/
def State.pickSpread (s : State) (avoid : List Nat) (n : Nat) : Nat → Alloc → List Nat → Option (List Nat × Alloc)
  | 0, a, got => some (got, a)
  | k + 1, a, got =>
    match s.pickUnit a (fun u => !(avoid.contains u) && got.all (fun w => locUnit w / 256 != u / 256)) 1 n with
    | none => none
    | some (ws, a) => s.pickSpread avoid n k a (got ++ ws)

/-- Tier-0 slots of page i: four words, or for a gathered span every slot from page i to the span's end (R130, R342). -/
def State.pick0 (s : State) (r : SeqRec) (l h i : Nat) (gather : Bool) (whole : Bool) (a : Alloc) (also : List Nat) : Option (List Nat × Alloc) :=
  let n := r.sh.pairKiB
  let urgent := s.bit (Reg.schClassCfg + 4 * r.cls) 20
  let block := (List.range r.sh.heads).flatMap (fun k => s.headUnits r l k (i / 16 * 16) 16) ++ also
  let span := s.headUnits r l h (i / 4 * 4) 4
  if gather then
    if urgent then none
    else
      let k := if whole then 4 * (4 - i % 4) else 4
      match (span.filter s.unitOpen).head? with
      | some u => s.pickUnit a (fun x => x == u) k n
      | none => s.pickUnit a (fun _ => true) k n
  else s.pickSpread (if urgent then block ++ span else span) n 4 a []

/-- A tier-1 run for one page (R137). -/
def Alloc.pick1 (a : Alloc) (n : Nat) : Option (Nat × Alloc) :=
  if a.left1 < 4 * n then none
  else
    match fitIn a.t1 tier1Lo (tier1Lo + tier1KiB) (4 * n) (tier1Lo + Config.choice a.serial 2 % tier1KiB) with
    | none => none
    | some o => some (o, { a with t1 := (o, 4 * n) :: a.t1, left1 := a.left1 - 4 * n, serial := a.serial + 1 })

/-! ### Freeing under the reader rule (R131) -/

/-- Requests that still read one of some locations. -/
def State.readersOf (s : State) (locs : List Nat) : List Nat :=
  (s.sch.runs.filter (fun r => r.jobs.any (fun j => locs.contains j.loc))).map (·.req.rid)

/-- The bytes of a freed slot stay in storage until something is written over them. -/
def State.keepBytes (s : State) (tier0 : Bool) (locs : List Nat) (kib : Nat) (pairs : List Pair) : State :=
  pairs.zipIdx.foldl (fun s p =>
    let bytes := p.1.k ++ p.1.v
    if tier0 then
      let w := locs.getD p.2 0
      s.pokeAll (fun i => flatOf (locUnit w) (1024 * locOff w + i)) bytes
    else s.pokeAll (fun i => 1024 * (locs.getD 0 0 + kib * p.2) + i) bytes) s

/-- Free a page's slots, once every request that resolved them has completed (R131). -/
def State.freeSlots (s : State) (tier0 : Bool) (locs : List Nat) (kib : Nat) (pairs : List Pair) : State :=
  if locs.isEmpty then s
  else
    match s.readersOf locs with
    | [] => s.keepBytes tier0 locs kib pairs
    | rs =>
      let id := s.mem.nextMove
      { s with mem := { s.mem with nextMove := id + 1, olds := s.mem.olds ++ [(id, (⟨rs, tier0, locs, kib, pairs⟩ : OldLoc))] } }

/-- Free everything an entry holds in this node's tiers. -/
def State.freePte (s : State) (kib : Nat) (p : Pte) : State :=
  let s := match p.kind with
    | .tier0 => s.freeSlots true p.locs kib p.pairs
    | .tier1 => s.freeSlots false p.locs kib p.pairs
    | _ => s
  match p.shadow with
  | some (ptr, ps) => s.freeSlots false [ptr] kib ps
  | none => s

/-! ### Dusk's choice and its drops (R186–R188) -/

/-- A request is stalled on the page: it is stalled, and one of its leaves that are not yet computed reads the page, whether or not that page caused the stall (R186; DESIGN CHOICE, log 113). -/
def State.stalledOn (s : State) (p : PageRef) : Bool :=
  s.sch.runs.any (fun r => !r.stalls.isEmpty && r.jobs.any (fun j => j.st != .done && j.ref == p))

/-- Order of R186: rank, then the higher class, then the earlier entry. -/
def duskKey (s : State) (p : PageRef × Pte) : Nat × Nat × Nat :=
  let c := ((s.refOwner p.1).map (·.cls)).getD 0
  (s.fld (Reg.memClassCfg + 4 * c) 3 1, 24 - c, p.2.entered)

/-- Lexicographic order of keys. -/
def keyLt (a b : Nat × Nat × Nat) : Bool :=
  decide (a.1 < b.1 ∨ (a.1 = b.1 ∧ (a.2.1 < b.2.1 ∨ (a.2.1 = b.2.1 ∧ a.2.2 < b.2.2))))

/-- A SHADOWED page in tier 0. -/
def isDropVictim (p : PageRef × Pte) : Bool := p.2.state == .shadowed && p.2.kind == .tier0

/-- Dusk's next victim among the pages a test admits; a SHADOWED page whose shadow is owed anew keeps its tier-0 copy (R195). -/
def State.victim (s : State) (ok : PageRef × Pte → Bool) : Option (PageRef × Pte) :=
  (s.allPages.filter (fun p => !p.2.moving && ok p && !s.stalledOn p.1 && !(isDropVictim p && s.mem.backlog.contains p.1))).foldl
    (fun best p => match best with
      | none => some p
      | some b => if keyLt (duskKey s p) (duskKey s b) then some p else some b) none

/-- The entry serial of a page that enters a tier (R186). -/
def State.enter (s : State) : Nat × State := (s.pgw.entries, { s with pgw := { s.pgw with entries := s.pgw.entries + 1 } })

/-- Drop the tier-0 copy of a SHADOWED page: SPILLED at its shadow (Table 7.3). -/
def State.dropCopy (s : State) (ref : PageRef) : State :=
  let p := s.pageAt ref
  match p.shadow with
  | none => s
  | some (ptr, ps) =>
    let e := s.enter
    let s := (e.2.setPageAt ref { p with state := .spilled, kind := .tier1, locs := [ptr], pairs := ps, shadow := none, entered := e.1 })
    (s.freeSlots true p.locs (s.refKiB ref) p.pairs).bump (Reg.memStat + 4)

/-! ### Reservation (R129, R150, R188) -/

/-- Reserve page i of one head: tier 0, then tier 0 after drops of Dusk, then tier 1. -/
def State.reserveHead (s : State) (tenant sid l h i : Nat) (also : List Nat) : Nat → Option (State × List Nat)
  | 0 => none
  | f + 1 =>
    match s.findSeq tenant sid with
    | none => none
    | some r =>
      let old := r.pte l h i
      if old.state ≠ .free then some (s, [])
      else
        let base := { Pte.free with state := .reserved, pairs := List.replicate 4 Pair.empty }
        let gather := r.gather
        if old.locs.length = 4 then
          some (s.setPageAt ⟨false, tenant, sid, l, h, i⟩ { base with locs := old.locs }, [])
        else
          let sl := s.sliceOf r.cls
          let ov := s.overBare sl
          match (if ov then none else s.pick0 r l h i gather true s.alloc also) with
          | some (ws, a) =>
            let s := { s with pgw := { s.pgw with allocs := a.serial } }
            let s := s.setPageAt ⟨false, tenant, sid, l, h, i⟩ { base with locs := ws.take 4 }
            -- the span's later pages hold their slots while they stay FREE (R130)
            let s := (List.range (ws.length / 4 - 1)).foldl (fun s k =>
              s.setPageAt ⟨false, tenant, sid, l, h, i + k + 1⟩ { Pte.free with locs := (ws.drop (4 * k + 4)).take 4 }) s
            some (s, ws.map locUnit)
          | none =>
            -- the drops of R188, only of the slice's own pages beyond its share (R302), else never of an isolated class (R366)
            match s.victim (fun v => isDropVictim v && (if ov then s.refSlice v.1 == sl else !s.isoPage v.1)) with
            | some v => (s.dropCopy v.1).reserveHead tenant sid l h i also f
            | none =>
              match (if s.roomT1 sl r.sh.pairKiB then s.alloc.pick1 r.sh.pairKiB else none) with
              | none => none
              | some (o, a) =>
                let s := { s with pgw := { s.pgw with allocs := a.serial } }
                some (s.setPageAt ⟨false, tenant, sid, l, h, i⟩ { base with kind := .tier1, locs := [o] }, [])

/-- Reserve page i for heads 0 … n − 1 of a layer, all or none. -/
def State.reserveHeads (s : State) (tenant sid l i : Nat) (also : List Nat) : Nat → Option (State × List Nat)
  | 0 => some (s, also)
  | n + 1 =>
    match s.reserveHeads tenant sid l i also n with
    | none => none
    | some (s, got) =>
      match s.reserveHead tenant sid l n i got (s.allPages.length + 2) with
      | none => none
      | some (s, more) => some (s, got ++ more)

/-- Reserve page i of a layer for every KV head, all or none (R129). -/
def State.reserve (s : State) (r : SeqRec) (l i : Nat) : Option State :=
  (s.reserveHeads r.tenant r.sid l i [] r.sh.heads).map Prod.fst

/-- Reserve page i in layers 0 … n − 1, all or none. -/
def State.reserveLayers (s : State) (r : SeqRec) (i : Nat) : Nat → Option State
  | 0 => some s
  | n + 1 => match s.reserveLayers r i n with | none => none | some s => s.reserve r n i

/-- The successor page that a layer's length calls for and does not have (R79, R129). -/
def LayerRec.wants (l : LayerRec) (len : Nat) : Option Nat :=
  if len = 0 then none
  else
    let i := (len - 1) / 256
    if 192 ≤ len - 256 * i ∧ i + 1 < 16384 ∧ ((l.heads.getD 0 HeadRec.empty).page (i + 1)).state = .free then some (i + 1) else none

/-- Every position up to a length falls in a page that exists (R79). -/
def LayerRec.holds (l : LayerRec) (len : Nat) : Bool :=
  len == 0 || ((l.heads.getD 0 HeadRec.empty).page ((len - 1) / 256)).state != .free

/-! ### Creation (R59, R129, R139, R150) -/

/-- A new sequence's record. Its home_node names this node: Table 5.8 gives the field a meaning only in a held record, and what a home's own record holds there is the model's choice (DESIGN CHOICE, log 108). -/
def State.newSeq (s : State) (tenant sid cls shape : Nat) (slot : Nat × Nat) : SeqRec :=
  let sh := shapeOf shape
  { serial := s.pgw.created, bucket := slot.1, slot := slot.2, tenant := tenant, sid := sid, cls := cls, home := true
    shadowed := s.bit (Reg.memClassCfg + 4 * cls) 0, gather := s.bit (Reg.pgwClassCfg + 4 * cls) 0
    shape := shape, homeNode := s.map.id, layers := List.replicate sh.layers (LayerRec.empty sh.heads) }

/-- One more sequence has been created. -/
def State.countSeq (s : State) : State := { s with pgw := { s.pgw with created := s.pgw.created + 1 } }

/-- Create a sequence with page 0 reserved everywhere; none is CAPACITY, with the state that the failure leaves. -/
def State.create (s : State) (tenant sid cls shape : Nat) : State × Bool :=
  match s.freeSeqSlot tenant sid with
  | none => (s.raiseBit Reg.pgwEvent 2, false)
  | some slot =>
    let r := s.newSeq tenant sid cls shape slot
    match ((s.putSeq r).countSeq).reserveLayers r 0 r.sh.layers with
    | none => (s, false)
    | some s => (s, true)

/-! ### Rows (R75, R98, R115) -/

/-- Condition a row: its values, whether one saturated, and the counts (saturated, flushed). -/
def condRow (x : List Nat) : List Nat × Bool × (Nat × Nat) :=
  let r := x.map condition
  let sat := (r.filter (fun p => p.2 == .sat)).length
  (r.map Prod.fst, decide (sat ≠ 0), (sat, (r.filter (fun p => p.2 == .flush)).length))

/-- A conditioned token: per KV head its K and V rows with their COND marks. -/
abbrev Token := List ((List Nat × List Nat) × (Bool × Bool))

/-- Sum of conditioned rows' counts. -/
def condSum (rows : List (List Nat × Bool × (Nat × Nat))) : Nat × Nat := rows.foldl (fun a x => (a.1 + x.2.2.1, a.2 + x.2.2.2)) (0, 0)

/-- Condition the rows of an append: tokens in order, and the conditioned rows of K by token and of V. -/
def condTokens (n heads d : Nat) (rope : Nat → List Nat → List Nat) (p : Nat) (k v : List (List Nat)) :
    List Token × List (List (List Nat × Bool × (Nat × Nat))) × List (List Nat × Bool × (Nat × Nat)) :=
  let toks := (List.range n).map (fun t => (List.range heads).map (fun h =>
    (condRow (rope (p + t) (k.getD (t * heads + h) (List.replicate d 0))), condRow (v.getD (t * heads + h) (List.replicate d 0)))))
  (toks.map (fun t => t.map (fun x => ((x.1.1, x.2.1), (x.1.2.1, x.2.2.1)))), toks.map (fun t => t.map Prod.fst), toks.flatten.map Prod.snd)

/-! ### Appending one token to a layer (R63, R123, R124) -/

/-- The page state after its tile `pair` seals (Table 5.4); a page held in tier-1 slots is SPILLED there (log 23). -/
def sealedState (p : Pte) (pair : Nat) : PageState :=
  if pair = 3 then (if p.kind = .tier1 then .spilled else .sealed) else .tail

/-- One token's rows into one head at a position: seals a full tail tile into its slot. The count is of tiles sealed with CLAMPED. -/
def appendHead (sh : Shape) (serial pos : Nat) (row : (List Nat × List Nat) × (Bool × Bool)) (h : HeadRec) : HeadRec × Nat :=
  let k := h.tailK ++ [row.1.1]
  let v := h.tailV ++ [row.1.2]
  let ck := h.condK || row.2.1
  let cv := h.condV || row.2.2
  let page := pos / 256
  let pair := pos / 64 % 4
  let p := h.page page
  if pos % 64 = 63 then
    let tk := sealTile sh.kvfmt sh.dcode k ck
    let tv := sealTile sh.kvfmt sh.dcode v cv
    let p := { p with
      state := sealedState p pair, pairs := listPut Pair.empty p.pairs pair ⟨tk.1, tv.1⟩
      checkK := listPut 0 p.checkK pair (checkWord tk.1), checkV := listPut 0 p.checkV pair (checkWord tv.1), entered := serial }
    ({ h.setPage page p with tailK := [], tailV := [], condK := false, condV := false }, b2n tk.2 + b2n tv.2)
  else
    let h' := if pos % 256 = 0 then h.setPage page { p with state := .tail } else h
    ({ h' with tailK := k, tailV := v, condK := ck, condV := cv }, 0)

/-- One token into a layer. -/
def appendToken (sh : Shape) (serial : Nat) (l : LayerRec) (t : Token) : LayerRec × Nat :=
  let r := l.heads.zipIdx.map (fun h => appendHead sh serial l.len (t.getD h.2 (([], []), (false, false))) h.1)
  ({ l with len := l.len + 1, heads := r.map Prod.fst }, (r.map Prod.snd).foldl (· + ·) 0)

/-- Tokens in order. -/
def appendRows (sh : Shape) (serial : Nat) : List Token → LayerRec → LayerRec × Nat
  | [], l => (l, 0)
  | t :: ts, l =>
    let a := appendToken sh serial l t
    let b := appendRows sh serial ts a.1
    (b.1, a.2 + b.2)

/-- A page's shadow is outstanding: it could not be written as its tiles sealed (R184). -/
def State.oweShadow (s : State) (ref : PageRef) : State :=
  (({ s with mem := { s.mem with backlog := s.mem.backlog ++ [ref] } }).setStatus Reg.memStatus 0 0 1).raiseBit Reg.memEvent 1

/-- The tier-1 copy of a SHADOWED page is written tile by tile as each seals: its room is taken with the page's first tile; without it the page ends with its shadow outstanding (R184). -/
def State.shadowTile (s : State) (ref : PageRef) (pair : Nat) : State :=
  let p := s.pageAt ref
  let bytes := p.pairs.getD pair Pair.empty
  if p.kind ≠ .tier0 then s
  else match s.mem.moves.find? (fun m => decide (m.2.kind = .shadow ∧ m.2.page = ref)) with
  | some (id, m) =>
    let s := if pair = 3 then s.setPageAt ref { p with moving := true } else s
    { s with mem := { s.mem with moves := tabPut s.mem.moves id { m with bytes := listPut Pair.empty m.bytes pair bytes, copied := decide (pair = 3) } } }
  | none =>
    if pair ≠ 0 then (if pair = 3 then s.oweShadow ref else s)
    else match (if s.roomT1 (s.refSlice ref) (s.refKiB ref) then s.alloc.pick1 (s.refKiB ref) else none) with
      | some (o, a) =>
        let id := s.mem.nextMove
        { s with pgw := { s.pgw with allocs := a.serial }
                 mem := { s.mem with nextMove := id + 1, moves := s.mem.moves ++ [(id, (⟨.shadow, ref, [o], [bytes], false, 0, false⟩ : Move))] } }
      | none => s

/-- Entries that differ between two records of a layer: head and page (R144). -/
def changedPages (a b : LayerRec) : List (Nat × Nat) :=
  b.heads.zipIdx.flatMap (fun h =>
    (h.1.pages.filter (fun p => p.2 != (a.heads.getD h.2 HeadRec.empty).page p.1)).map (fun p => (h.2, p.1)))

/-- Write back an appended layer: seals counted (R115), shadows begun (R184). -/
def State.putLayer (s : State) (r : SeqRec) (l : Nat) (lr : LayerRec) (clamped : Nat) : State :=
  let old := r.layer l
  let s := (s.putSeq (r.mapLayer l (fun _ => lr))).bump (Reg.attSatTenant + 16 * r.tenant + 8) clamped
  let s := { s with pgw := { s.pgw with entries := s.pgw.entries + 1 } }
  -- TLB entries of pages whose entries changed (R144)
  let s := (changedPages old lr).foldl (fun s p => s.invalidate ⟨false, r.tenant, r.sid, l, p.1, p.2⟩) s
  let tiles := rangeFrom (old.len / 64) (lr.len / 64 - old.len / 64)
  if r.shadowed then
    tiles.foldl (fun s t => (List.range lr.heads.length).foldl (fun s h => s.shadowTile ⟨false, r.tenant, r.sid, l, h, t / 4⟩ (t % 4)) s) s
  else s

/-! ### Spares (R125, R142) and provisional sets (R67–R70) -/

/-- Spare tail buffers the pool offers. -/
def State.freeSpares (s : State) : Nat := s.fld Reg.pgwCfg 15 0 - s.pgw.sparesUsed
/-- Take or return spares. -/
def State.useSpares (s : State) (take give : Nat) : State :=
  { s with pgw := { s.pgw with sparesUsed := s.pgw.sparesUsed + take - give } }

/-- The tile that c candidates on a layer fill; none where they fill none (R68). -/
def LayerRec.fills (l : LayerRec) (c : Nat) : Option Nat := if 64 ≤ l.len % 64 + c then some (l.len / 64) else none

/-- Write or void the pair slot of a provisionally sealed tile in every head; check words stay (R125). -/
def LayerRec.provPairs (l : LayerRec) (t : Nat) (src : Nat → Pair) : LayerRec :=
  { l with heads := l.heads.zipIdx.map (fun h =>
      let p := h.1.page (t / 4)
      h.1.setPage (t / 4) { p with pairs := listPut Pair.empty p.pairs (t % 4) (src h.2) }) }

/-- Drop a layer's provisional set: a void tile's slot loses its marks (R69, R125, R159). -/
def LayerRec.dropProv (l : LayerRec) : LayerRec :=
  match l.prov with
  | none => l
  | some p => match p.tile with
    | some t => { l.provPairs t (fun _ => Pair.empty) with prov := none }
    | none => { l with prov := none }

/-- Discard a provisional set and return its spares (R69). -/
def State.discardProv (s : State) (r : SeqRec) (l : Nat) : State :=
  match (r.layer l).prov with
  | none => s
  | some p => (s.putSeq (r.mapLayer l LayerRec.dropProv)).useSpares 0 p.spares

/-- Apply a provisional set on a layer without one: the set, and the tile it fills sealed into its slot (R67, R68, R125). The count is of tiles sealed with CLAMPED. -/
def LayerRec.applyProv (l : LayerRec) (rid : Nat) (sh : Shape) (toks : List Token) : LayerRec × Nat :=
  let after := appendRows sh 0 toks l
  match l.fills toks.length with
  | none => ({ l with prov := some ⟨rid, l.len, toks, none, 0, none⟩ }, 0)
  | some t =>
    let src (h : Nat) : Pair := ((after.1.heads.getD h HeadRec.empty).page (t / 4)).pairs.getD (t % 4) Pair.empty
    ({ l.provPairs t src with prov := some ⟨rid, l.len, toks, some t, sh.heads, none⟩ }, after.2)

/-- A layer committed at k candidates (R70). -/
def LayerRec.commitProv (l : LayerRec) (sh : Shape) (serial k : Nat) : LayerRec :=
  match l.prov with
  | none => l
  | some p => (appendRows sh serial (p.rows.take k) l.dropProv).1

/-! ### Lost pages and rebuilds (R142, R149) -/

/-- Positions of a page that are sealed, at a layer length. -/
def sealedPositions (len page : Nat) : Nat := min 256 (len / 64 * 64 - 256 * page)

/-- A span is lost: an entry of it, in any layer or head, is lost (R142). -/
def State.spanLost (s : State) (r : SeqRec) (span : Nat) : Bool :=
  (List.range r.layers.length).any (fun l => (List.range r.sh.heads).any (fun h =>
    (rangeFrom (4 * span) 4).any (fun i => (s.resolve r l h i).lost)))

/-- lost_pages of a layer: its entries, as the walker resolves them, with `lost` set (Table 5.8, R142). -/
def State.lostPages (s : State) (r : SeqRec) (l : Nat) : Nat :=
  (r.layer l).heads.zipIdx.foldl (fun n h => n + (h.1.pages.filter (fun p => (s.resolve r l h.2 p.1).lost)).length) 0

/-- lost_spans of a sequence: the spans in the lost state (Table 5.8, R142). -/
def State.lostSpans (s : State) (r : SeqRec) : Nat :=
  let spans := (r.layers.flatMap (fun l => l.heads.flatMap (fun h => h.pages.map (fun p => p.1 / 4)))).foldl setInsert []
  (spans.filter (fun x => s.spanLost r x)).length

/-- Rebuild positions of a span that is not lost are not kept: a loss to come starts at the span's first position (R142). -/
def State.dropPositions (s : State) (ref : PageRef) : State :=
  let span := ref.page / 4
  let mine := if ref.grp then s.groupSeqs ref.tenant else (s.findSeq ref.tenant ref.sid).toList
  mine.foldl (fun s r =>
    if s.spanLost r span then s
    else s.putSeq { r with layers := r.layers.map (fun l => { l with rebuildPos := tabDel l.rebuildPos span }) }) s

/-- Mark a page lost: a sealed tile in it cannot be read (R142). -/
def State.markLost (s : State) (ref : PageRef) : State :=
  let s := s.dropPositions ref
  let p := s.pageAt ref
  s.setPageAt ref { p with lost := true, rebuilt := 0 }

/-- Rebuild position of a span in a layer. -/
def LayerRec.rebuildAt (l : LayerRec) (span : Nat) : Nat := (tabGet l.rebuildPos span).getD (1024 * span)

/-- The conditions of R64 on a rebuild of n tokens at p. -/
def State.rebuildOk (s : State) (r : SeqRec) (l p n : Nat) : Bool :=
  let lr := r.layer l
  let span := p / 1024
  (p == 1024 * span || p == lr.rebuildAt span) && decide (p + n ≤ lr.len) &&
  ((rangeFrom span ((p + n - 1) / 1024 + 1 - span)).all (fun x => s.spanLost r x))

/-- The rebuild needs spares it does not hold: it begins a collection (R142). -/
def State.rebuildNeeds (s : State) (r : SeqRec) (l p n : Nat) : Bool :=
  (r.layer l).rebuildSpares == 0 &&
  (rangeFrom p n).any (fun x => x % 64 == 0 && decide (x / 64 < (r.layer l).len / 64) &&
    (List.range r.sh.heads).any (fun h => (s.resolve r l h (x / 256)).lost))

/-- Seal a rebuilt tile over its old slot; the flag tells that its check words differ from the old ones (R142, R329). -/
def State.sealRebuilt (s : State) (r : SeqRec) (l h len : Nat) (c : Collect) : State × Bool :=
  let sh := r.sh
  let ref := r.ref l h (c.tile / 4)
  let p := s.pageAt ref
  let pair := c.tile % 4
  let tk := sealTile sh.kvfmt sh.dcode c.k c.cond.1
  let tv := sealTile sh.kvfmt sh.dcode c.v c.cond.2
  -- each tile has a check word of its own, and is counted by itself (R329)
  let differ := b2n (decide (p.checkK.getD pair 0 ≠ checkWord tk.1)) + b2n (decide (p.checkV.getD pair 0 ≠ checkWord tv.1))
  let rebuilt := if p.rebuilt = 64 * pair then p.rebuilt + 64 else p.rebuilt
  let clear := decide (sealedPositions len (c.tile / 4) ≤ rebuilt)
  let s := s.setPageAt ref { p with
    pairs := listPut Pair.empty p.pairs pair ⟨tk.1, tv.1⟩
    checkK := listPut 0 p.checkK pair (checkWord tk.1), checkV := listPut 0 p.checkV pair (checkWord tv.1)
    rebuilt := rebuilt, lost := p.lost && !clear }
  let s := if clear then s.dropPositions ref else s
  let s := if differ = 0 then s else (s.bump (Reg.hltRebuildTenant + 4 * r.tenant) differ).raiseBit Reg.hltEvent 7
  (s.bump (Reg.attSatTenant + 16 * r.tenant + 8) (b2n tk.2 + b2n tv.2), decide (differ ≠ 0))

/-- One head's row of a rebuild at a position (R142): the flag tells a tile that differs. -/
def State.rebuildRow (s : State) (tenant sid l h pos : Nat) (row : (List Nat × List Nat) × (Bool × Bool)) : State × Bool :=
  match s.findSeq tenant sid with
  | none => (s, false)
  | some r =>
    let lr := r.layer l
    let t := pos / 64
    if lr.len / 64 ≤ t ∨ !(s.resolve r l h (t / 4)).lost then (s, false)
    else
      let hd := r.head l h
      let setHead (f : HeadRec → HeadRec) : State :=
        s.putSeq (r.mapLayer l (fun y => { y with heads := listMap y.heads h f }))
      let old := hd.collect.find? (·.tile == t)
      let cur : Option Collect := if pos % 64 = 0 then some ⟨t, [], [], (false, false)⟩ else old
      match cur with
      | none => (s, false)
      | some c =>
        if c.k.length ≠ pos % 64 then (s, false)
        else
          let c : Collect := ⟨t, c.k ++ [row.1.1], c.v ++ [row.1.2], (c.cond.1 || row.2.1, c.cond.2 || row.2.2)⟩
          let rest := hd.collect.filter (fun x => x.tile != t)
          if pos % 64 = 63 then
            let s := setHead (fun z => { z with collect := rest })
            match s.findSeq tenant sid with
            | none => (s, false)
            | some r => s.sealRebuilt r l h lr.len c
          else (setHead (fun z => { z with collect := rest ++ [c] }), false)

/-- A rebuild append (R142): its rows, then the rebuild position and the spares it holds. -/
def State.rebuild (s : State) (r : SeqRec) (l p : Nat) (toks : List Token) : State × Bool :=
  let span := p / 1024
  let heads := r.sh.heads
  -- a rebuild that starts again at the span's first position abandons its collections
  let s := if p = 1024 * span then
      s.putSeq (r.mapLayer l (fun y => { y with heads := y.heads.map (fun h => { h with collect := h.collect.filter (fun c => c.tile / 16 != span) }) }))
    else s
  let out := toks.zipIdx.foldl (fun (acc : State × Bool) t =>
    (List.range heads).foldl (fun (acc : State × Bool) h =>
      let a := acc.1.rebuildRow r.tenant r.sid l h (p + t.2) (t.1.getD h (([], []), (false, false)))
      (a.1, acc.2 || a.2)) acc) (s, false)
  let s := out.1
  match s.findSeq r.tenant r.sid with
  | none => (s, out.2)
  | some r =>
    let lr := r.layer l
    let last := p + toks.length
    let spans := (rangeFrom span ((last - 1) / 1024 + 1 - span)).filter (fun x => s.spanLost r x)
    let active := lr.heads.any (fun h => !h.collect.isEmpty)
    let held := if active then heads else 0
    let s := s.putSeq (r.mapLayer l (fun y => { y with
      rebuildPos := spans.foldl (fun t x => tabPut t x (min last (1024 * (x + 1)))) y.rebuildPos, rebuildSpares := held }))
    (s.useSpares held lr.rebuildSpares, out.2)

/-! ### Releasing (R73, R81, R148) -/

/-- Drop one reference to a group; with none left its keys go and its storage is freed (R148). A group page that is SHADOWED stays so, with its tier-1 copy, when only RECOMPUTE sequences still reference it: Table 5.4 has no way back to SEALED (DESIGN CHOICE, log 112). -/
def State.dropGroup (s : State) (g : Nat) : State :=
  match s.group g with
  | none => s
  | some gr =>
    if 1 < gr.count then { s with pgw := { s.pgw with groups := tabMap s.pgw.groups g (fun x => { x with count := x.count - 1 }) } }
    else
      let kib := (shapeOf gr.shape).pairKiB
      let idx := (s.mat.keys.filter (fun k => k.2.group == g)).map Prod.fst
      let s := { s with mat := { s.mat with keys := s.mat.keys.filter (fun k => k.2.group != g), cellDiff := s.mat.cellDiff.filter (fun c => !idx.contains c.1) }
                        mem := { s.mem with moves := s.mem.moves.filter (fun m => !(m.2.page.grp && m.2.page.tenant == g))
                                            backlog := s.mem.backlog.filter (fun p => !(p.grp && p.tenant == g)) } }
      let s := State.settlePlaces { s with pgw := { s.pgw with groups := tabDel s.pgw.groups g } }
      gr.ptes.flatten.foldl (fun s p => s.freePte kib p) s

/-- Groups a sequence references, each once. -/
def SeqRec.groups (r : SeqRec) : List Nat :=
  (((r.head 0 0).pages.filter (fun p => p.2.kind == .shared && p.2.state != .free)).map (fun p => p.2.group)).dedup

/-- End a sequence: its sets, its moves, its own storage and its references (R73, R131, R148). -/
def State.endSeq (s : State) (r : SeqRec) : State :=
  let kib := r.sh.pairKiB
  let spares := r.layers.foldl (fun n l => n + ((l.prov.map (·.spares)).getD 0) + l.rebuildSpares) 0
  let mine (p : PageRef) : Bool := !p.grp && p.tenant == r.tenant && p.sid == r.sid
  let s := { s with mem := { s.mem with
    moves := s.mem.moves.filter (fun m => !mine m.2.page)
    dawn := s.mem.dawn.filter (fun p => !mine p), backlog := s.mem.backlog.filter (fun p => !mine p) } }
  let s := (s.delSeq r.tenant r.sid).useSpares 0 spares
  let own := r.layers.flatMap (fun l => l.heads.flatMap (fun h => (h.pages.filter (fun p => p.2.kind != .shared)).map Prod.snd))
  let s := own.foldl (fun s p => s.freePte kib p) s
  r.groups.foldl (fun s g => s.dropGroup g) s

end Sys2Proof.Machine
end

