-- ==== Sys2Proof/Machine/MatOps.lean ====
section
/-!
DEFINITION. Shared operations of the match engine (chapter 09): images (R219–R222), scans (R223), the TCAM with its verification (R226, R230), keys (R232, R233), rule edits (R226–R229), cascade frames (R237, R238).
-/

namespace Sys2Proof.Machine

open Sys2Proof

/-! ### Results (Table 9.4) -/

/-- A search result. -/
structure Found where
  /-- index. -/
  index : Nat
  /-- count. -/
  count : Nat
  /-- offset. -/
  offset : Nat
  /-- FAIL. -/
  fail : Bool
  /-- position. -/
  pos : Nat
  /-- word. -/
  word : Nat
  deriving DecidableEq, Repr

/-- Nothing found. -/
def Found.miss : Found := ⟨0xFFFF, 0, 0, false, 0, 0⟩
/-- Something was found. -/
def Found.hit (f : Found) : Bool := f.index != 0xFFFF

/-- The 12 result bytes of a cascade frame (Table 9.7). -/
def Found.frame (f : Found) : List Byte :=
  leBytes 2 f.index ++ leBytes 2 f.count ++ leBytes 2 f.offset ++ leBytes 1 (b2n f.hit + 2 * b2n f.fail) ++ leBytes 1 f.pos ++ leBytes 4 f.word

/-- Read 12 result bytes. -/
def foundOf (b : List Byte) : Found := ⟨field b 0 2, field b 2 2, field b 4 2, bitOf (byteAt b 6) 1, byteAt b 7, field b 8 4⟩

/-- The 16-byte result record; flags [2]: another member's result (Table 9.4). -/
def Found.record (f : Found) : List Byte :=
  leBytes 2 f.index ++ leBytes 2 f.count ++ leBytes 2 f.offset ++
  leBytes 1 (b2n f.hit + 2 * b2n f.fail + 4 * b2n (f.hit && f.pos != 0)) ++ leBytes 1 f.pos ++ leBytes 4 f.word ++ leBytes 4 0

/-! ### Automata (R221–R223) -/

/-- kind of an entry. -/
def entKind (e : Nat) : Nat := bitsOf e 63 62
/-- base, or next. -/
def entLow (e : Nat) : Nat := bitsOf e 17 0
/-- dflt_base, or check. -/
def entMid (e : Nat) : Nat := bitsOf e 35 18

/-- The transition of R223. -/
def Automata.next (a : Automata) (s c : Nat) : Nat :=
  let e := a.entries.getD s 0
  let t := entLow e + c
  let x := a.entries.getD t 0
  if t < a.entries.length ∧ entKind x = 2 ∧ entMid x = s then entLow x
  else entLow (a.entries.getD (entMid e + c) 0)

/-- The loop of R223 over the classes still to feed; j counts bytes fed, b is the input's length. -/
def Automata.scanGo (a : Automata) (b : Nat) : List Nat → Nat → Nat → Nat × Nat × Nat → Nat × Nat × Nat
  | [], _, _, r => r
  | c :: t, j, s, (best, cnt, off) =>
    let s := a.next s c
    let e := a.entries.getD s 0
    if bitOf e 36 then
      let r := bitsOf e 45 37
      let cnt := min (cnt + 1) 0xFFFF
      if r < best then a.scanGo b t (j + 1) s (r, cnt, min (j + 1) b) else a.scanGo b t (j + 1) s (best, cnt, off)
    else a.scanGo b t (j + 1) s (best, cnt, off)

/-- R223: the classes of the bytes, then END. -/
def Automata.scan (a : Automata) (bytes : List Byte) : Found :=
  let cs := bytes.map (fun x => a.classes.getD x.toNat 0) ++ [a.ncls - 1]
  let r := a.scanGo bytes.length cs 0 a.start (0xFFFF, 0, 0)
  ⟨r.1, r.2.1, r.2.2, false, 0, if r.1 = 0xFFFF then 0 else a.results.getD r.1 0⟩

/-- The load conditions of R222, and no others: nonzero bits in a field that Table 9.3 calls zero, and a result index not below n_results, which reads as the word 0, are no part of R222's list and are loaded (DESIGN CHOICE, log 119). -/
def Automata.valid (a : Automata) : Bool :=
  let isState (i : Nat) : Bool := entKind (a.entries.getD i 0) == 1
  a.classes.all (fun c => decide (c + 1 < a.ncls)) && isState a.start &&
  a.entries.all (fun e =>
    (entKind e != 1 || (List.range a.ncls).all (fun c => entKind (a.entries.getD (entMid e + c) 0) == 2)) &&
    (entKind e != 2 || isState (entLow e)) && entKind e != 3)

/-! ### The TCAM (R226, R230) -/

/-- Entries of the key region. -/
def State.keyEntries (s : State) : Nat := 512 * s.fld Reg.matCfg 7 0

/-- A key entry's 160 bits (R232). -/
def keyBits (key shape tenant : Nat) : Nat := key % pow2 128 + shape % pow2 20 * pow2 128 + tenant % pow2 12 * pow2 148

/-- The ECC copy of a TCAM entry. -/
def State.tcamCopy (s : State) (i : Nat) : Option TcamEnt :=
  if i < s.keyEntries then (tabGet s.mat.keys i).map (fun k => ⟨keyBits k.key k.shape k.tenant, pow2 160 - 1⟩)
  else
    (s.mat.images ++ s.mat.kept).findSome? (fun p => match p.2.body with
      | .tcam range => if p.2.first ≤ i ∧ i < p.2.first + p.2.entries then ((range.getD (i - p.2.first) none).map (fun r => (⟨r.value, r.care⟩ : TcamEnt))) else none
      | .automata _ => none)

/-- What the search cell of an entry holds. -/
def State.tcamCell (s : State) (i : Nat) : Option TcamEnt :=
  match tabGet s.mat.cellDiff i with | some c => c | none => s.tcamCopy i

/-- A cell matches a key (R226). -/
def cellMatches (k : Nat) (c : Option TcamEnt) : Bool :=
  match c with | some e => (k ^^^ e.value) &&& e.care == 0 | none => false

/-- Rewrite an entry's cell from its copy. -/
def State.fixCell (s : State) (i : Nat) : State := { s with mat := { s.mat with cellDiff := tabDel s.mat.cellDiff i } }

/-- Search some entries in order and confirm the hit; a hit the copy denies is rewritten, an event raised, and the search made once more (R230). -/
def State.tcamSearch (s : State) (entries : List Nat) (k event : Nat) : Option Nat × State :=
  match entries.find? (fun i => cellMatches k (s.tcamCell i)) with
  | none => (none, s)
  | some i =>
    if cellMatches k (s.tcamCopy i) then (some i, s)
    else
      let s := (s.fixCell i).raiseBit Reg.matEvent event
      match entries.find? (fun i => cellMatches k (s.tcamCell i)) with
      | none => (none, s)
      | some j => (if cellMatches k (s.tcamCopy j) then some j else none, s)

/-! ### Keys (R232, R233) -/

/-- Key indices a search can hit, lowest first. -/
def State.keyIndices (s : State) : List Nat :=
  ((s.mat.keys.map Prod.fst) ++ (s.mat.cellDiff.map Prod.fst).filter (fun i => decide (i < s.keyEntries))).foldl setInsert []

/-- The page group a key names (R72, R230). -/
def State.keyFind (s : State) (tenant shape key : Nat) : Option Nat × State :=
  let r := s.tcamSearch s.keyIndices (keyBits key shape tenant) 0
  (r.1.bind (fun i => (tabGet s.mat.keys i).map (·.group)), r.2)

/-- Free key entries (Table 9.9). -/
def State.keyFree (s : State) : Nat := s.keyEntries - s.mat.keys.length

/-- Attach a key to a group in the lowest free entry. -/
def State.keyAttach (s : State) (tenant shape key group : Nat) : State :=
  match lowestFree (s.mat.keys.map Prod.fst) s.keyEntries with
  | none => s
  | some i => (({ s with mat := { s.mat with keys := tabPut s.mat.keys i ⟨key, shape, tenant, group⟩ } })).fixCell i

/-- Detach a key (R233). -/
def State.keyDetach (s : State) (tenant shape key : Nat) : State :=
  let gone (k : Nat × KeyEnt) : Bool := k.2.tenant == tenant && k.2.shape == shape && k.2.key == key
  let s := (s.mat.keys.filter gone).foldl (fun s k => s.fixCell k.1) s
  { s with mat := { s.mat with keys := s.mat.keys.filter (fun k => !gone k) } }

/-! ### Images -/

/-- An active image. -/
def State.image (s : State) (slot : Nat) : Option Image := tabGet s.mat.images slot
/-- Write an image. -/
def State.putImage (s : State) (slot : Nat) (i : Image) : State := { s with mat := { s.mat with images := tabPut s.mat.images slot i } }

/-- Search an image over input bytes (R223, R226). -/
def State.imageSearch (s : State) (i : Image) (bytes : List Byte) : Found × State :=
  match i.body with
  | .automata a => (a.scan bytes, s)
  | .tcam range =>
    let r := s.tcamSearch ((List.range i.entries).map (i.first + ·)) (leNat (bytes.take 20)) 1
    match r.1 with
    | none => (Found.miss, r.2)
    | some e =>
      let o := e - i.first
      let word := ((range.getD o none).map (·.word)).getD 0
      (⟨((range.take o).filter (·.isSome)).length, 1, 0, false, 0, word⟩, r.2)

/-- Lay n rules over their range with a hole at every offset equal to 2^h − 1 modulo 2^h (R226). -/
def layRules (h : Nat) : Nat → Nat → List Rule → List (Option Rule)
  | 0, _, _ => []
  | n + 1, o, rs =>
    if o % pow2 h = pow2 h - 1 then none :: layRules h n (o + 1) rs
    else match rs with
      | [] => none :: layRules h n (o + 1) []
      | r :: t => some r :: layRules h n (o + 1) t

/-- Entries an image of n rules takes (R226). -/
def rangeLen (h n : Nat) : Nat := ceilDiv (n * pow2 h) (pow2 h - 1)

/-- Parts of an image's test vectors: n of them from an offset, each padded with zeros to 8 bytes inside the plaintext; none where one is malformed (Table 9.2). -/
def vectorsOf (bs : List Byte) : Nat → Nat → Option (List (List Byte × List Byte))
  | 0, _ => some []
  | n + 1, o =>
    let b := field bs (o + 16) 2
    let stop := o + 8 * ceilDiv (18 + b) 8
    if bs.length < stop ∨ !(slice bs (o + 18 + b) (stop - (o + 18 + b))).all (· == 0) then none
    else (vectorsOf bs n stop).map ((slice bs o 16, slice bs (o + 18) b) :: ·)

/-- Read an image's plaintext (Table 9.2); none where it is malformed. -/
def imageBodyOf (kind h : Nat) (bs : List Byte) : Option (ImageBody × List (List Byte × List Byte)) :=
  let n := field bs 4 4
  let nv := field bs 18 2
  let flags := byteAt bs 16
  if nv < 1 ∨ 256 < nv ∨ byteAt bs 17 > 63 ∨ !(slice bs 20 44).all (· == 0) ∨ (if kind = 2 then 2 else 4) ≤ flags then none
  else if kind = 2 then
    let ncls := field bs 8 2
    let nres := field bs 10 2
    if field bs 0 4 ≠ 0x4155544D ∨ n < 2 ∨ 262144 < n ∨ ncls < 2 ∨ 64 < ncls ∨ nres < 1 ∨ 512 < nres then none
    else
      let a : Automata :=
        { ncls := ncls, start := field bs 12 4, classes := (slice bs 64 256).map (·.toNat)
          results := (List.range nres).map (fun i => field bs (320 + 4 * i) 4)
          entries := (List.range n).map (fun i => field bs (320 + 4 * nres + 8 * i) 8) }
      if a.valid then (vectorsOf bs nv (320 + 4 * nres + 8 * n)).map (fun v => (.automata a, v)) else none
  else
    if field bs 0 4 ≠ 0x5443414D ∨ n < 1 ∨ 65536 < n ∨ field bs 8 8 ≠ 0 then none
    else
      let rules := (List.range n).map (fun i =>
        (⟨field bs (64 + 44 * i) 20, field bs (84 + 44 * i) 20, field bs (104 + 44 * i) 4⟩ : Rule))
      (vectorsOf bs nv (64 + 44 * n)).map (fun v => (.tcam (layRules h (rangeLen h n) 0 rules), v))

/-! ### Rule edits (R227–R229) -/

/-- Offset of the rule at a position in rule order; the offset past the last rule for the position past it. -/
def ruleOffset (range : List (Option Rule)) (pos : Nat) : Option Nat :=
  let offs := (range.zipIdx.filter (fun x => x.1.isSome)).map Prod.snd
  match offs[pos]? with
  | some o => some o
  | none => if pos = offs.length then some ((offs.getLast?.map (· + 1)).getD 0) else none

/-- Insert a rule at an offset: rules from there to the nearest hole move up by one (R227). -/
def ruleInsertAt (range : List (Option Rule)) (o : Nat) (r : Rule) : Option (List (Option Rule)) :=
  match (range.drop o).findIdx? (·.isNone) with
  | none => none
  | some k => some (range.take o ++ some r :: (range.drop o).take k ++ range.drop (o + k + 1))

/-- One edit: 5 BAD_POSITION, 1 NO_HOLE (Table 9.13). -/
def applyEdit (range : List (Option Rule)) (e : Edit) : Except Nat (List (Option Rule)) :=
  match ruleOffset range e.pos with
  | none => .error 5
  | some o =>
    if e.insert then (match ruleInsertAt range o e.rule with | some r => .ok r | none => .error 1)
    else match range.getD o none with
      | some _ => .ok (range.set o none)
      | none => .error 5

/-- Edits in order over a range: the range they leave, or what the first that cannot be made reports. -/
def applyEdits : List (Option Rule) → List Edit → Except Nat (List (Option Rule))
  | range, [] => .ok range
  | range, e :: es => match applyEdit range e with | .ok r => applyEdits r es | .error c => .error c

/-- Put an edit behind those of its frame and of earlier ones: the order in which edits are applied (R227). -/
def editInsert (x : Edit) : List Edit → List Edit
  | [] => [x]
  | e :: t => if x.frame < e.frame then x :: e :: t else e :: editInsert x t

/-- The edit digest after one edit (R228). -/
def editDigest (old : List Byte) (e : Edit) : List Byte :=
  sha384 (old ++ leBytes 4 e.ctl ++ leBytes 20 e.rule.value ++ leBytes 20 e.rule.care ++ leBytes 4 e.rule.word)

/-- Report an edit's outcome (Table 9.13). The pending count is that of all frames and slots, and shows 64 where there are more (DESIGN CHOICE, log 137). -/
def State.ruleStatus (s : State) (result : Nat) : State :=
  s.putStatus Reg.matRuleStatus (putBits (putBits (s.live Reg.matRuleStatus) 2 0 result) 14 8 (min 64 s.mat.edits.length))

/-- A commit of the edit that the live MAT_RULE registers hold (R227). Where several causes hold, the report is BAD_SLOT, then PAST_FRAME, then FULL, then BAD_POSITION or NO_HOLE; an edit is also refused where an edit already pending for a later frame could not be made after it (DESIGN CHOICE, log 120). -/
def State.ruleCommit (s : State) : State :=
  let ctl := s.live Reg.matRuleCtl
  let slot := bitsOf ctl 5 0
  let e := s.live64 Reg.matRuleEff
  let wide (a : Nat) : Nat := (List.range 5).foldl (fun v i => v + s.live (a + 4 * i) * pow2 (32 * i)) 0
  match s.image slot with
  | none => s.ruleStatus 2
  | some img =>
    match img.body with
    | .automata _ => s.ruleStatus 2
    | .tcam range =>
      let edit : Edit := ⟨slot, !bitOf ctl 6, bitsOf ctl 31 16, ⟨wide Reg.matRuleValue, wide Reg.matRuleCare, s.live Reg.matRuleWord⟩, e, ctl, img.version⟩
      if e < s.frame + 2 then s.ruleStatus 3
      else if 64 ≤ (s.mat.edits.filter (fun x => x.frame == e)).length then s.ruleStatus 4
      else
        -- after every edit pending, in the order in which they will be made
        match applyEdits range (editInsert edit (s.mat.edits.filter (fun x => x.slot == slot))) with
        | .error c => s.ruleStatus c
        | .ok _ => ({ s with mat := { s.mat with edits := editInsert edit s.mat.edits } }).ruleStatus 0

/-- Discard the pending edits of a slot whose new version has become active (R229). -/
def State.discardEdits (s : State) (slot : Nat) : State :=
  let gone := s.mat.edits.filter (fun e => e.slot == slot)
  if gone.isEmpty then s
  else (({ s with mat := { s.mat with edits := s.mat.edits.filter (fun e => e.slot != slot) } }).ruleStatus 6).raiseBit Reg.matEvent 7

/-- The Midnight that begins frame E: its edits, in commit order (R227, R228). -/
def State.applyDueEdits (s : State) : State :=
  let due := s.mat.edits.filter (fun e => decide (e.frame ≤ s.frame))
  if due.isEmpty then s
  else
    let s := { s with mat := { s.mat with edits := s.mat.edits.filter (fun e => !decide (e.frame ≤ s.frame)) } }
    let s := due.foldl (fun s e =>
      match s.image e.slot with
      | some img =>
        (match img.body with
         | .tcam range => (match applyEdit range e with
            | .ok r =>
              let wrote := (List.range r.length).filter (fun i => decide (range.getD i none ≠ r.getD i none))
              (wrote.foldl (fun s i => s.fixCell (img.first + i)) s).putImage e.slot
                { img with body := .tcam r, digest := editDigest img.digest e, edits := sat32 (img.edits + 1) }
            | .error _ => s)
         | .automata _ => s)
      | none => s) s
    (s.putStatus Reg.matRuleStatus (putBits (s.live Reg.matRuleStatus) 14 8 (min 64 s.mat.edits.length))).raiseBit Reg.matEvent 5

/-! ### Cascade frames (R237, R238, Table 9.7) -/

/-- Bytes of a frame but its CRC: type, tag, version, serial, payload, result. -/
def cascadeBody (type tag version serial : Nat) (payload : List Byte) (f : Found) : List Byte :=
  [0xC5, BitVec.ofNat 8 type, BitVec.ofNat 8 tag, BitVec.ofNat 8 payload.length] ++ leBytes 2 version ++ leBytes 2 serial ++ payload ++ f.frame

/-- A frame with its CRC. -/
def cascadeFrameOf (body : List Byte) (good : Bool) : List Byte :=
  let c := crc16 body
  body ++ leBytes 2 (if good then c else 0xFFFF - c)

/-- The CRC of a received frame is right. -/
def cascadeCrcOk (bs : List Byte) : Bool :=
  decide (22 ≤ bs.length) && decide (bs.length = 22 + byteAt bs 3) &&
  decide (crc16 (bs.take (bs.length - 2)) = field bs (bs.length - 2) 2)

/-- Merge a member's own result, found at its position, into the running one (R238). -/
def mergeFound (automata : Bool) (run own : Found) (pos : Nat) : Found :=
  let own := { own with pos := if own.hit then pos else 0 }
  let cnt := if automata then min (run.count + own.count) 0xFFFF else if own.hit ∨ run.hit then 1 else 0
  let better : Bool :=
    own.hit && (!run.hit ||
      (if automata then decide (own.index < run.index) || (own.index == run.index && decide (own.pos < run.pos)) else decide (own.pos < run.pos)))
  let w := if better then own else run
  { w with count := cnt, fail := run.fail || own.fail }

/-- The active cascaded image of a tag (R238). -/
def State.cascImage (s : State) (tag : Nat) : Option Image :=
  (s.mat.images.find? (fun i => decide (i.1 < 64) && i.2.casc && i.2.tag == tag)).map Prod.snd

/-- An image is of the frame type: 1 TCAM, 2 automata. -/
def Image.type (i : Image) : Nat := match i.body with | .tcam _ => 1 | .automata _ => 2

end Sys2Proof.Machine
end

