-- ==== Sys2Proof/Machine/TableBytes.lean ====
section
/-!
DEFINITION. The bytes of what the node keeps in its memory: sequence table, layer tables, radix tables, group and shared records (R138–R141, R146, Tables 5.8–5.10), tail buffers (R123), key records (R232), weight tiles (R177, R215); log 89.
-/

namespace Sys2Proof.Machine

open Sys2Proof

/-! ### Entries (Tables 5.3, 5.9, 5.10) -/

/-- Code of a page state (Table 5.3). -/
def PageState.code : PageState → Nat
  | .free => 0 | .reserved => 1 | .tail => 2 | .sealed => 3 | .shadowed => 4 | .spilled => 5 | .remote => 6 | .tombstone => 7

/-- Code of a location kind (Table 5.10). -/
def LocKind.code : LocKind → Nat
  | .tier0 => 0 | .tier1 => 1 | .pool => 2 | .holder => 3 | .shared => 4 | .host => 5

/-- Bytes 8–23 of an entry. -/
def Pte.locBytes (p : Pte) : List Byte :=
  padTo 16 (
    if p.state = .tombstone then leBytes 2 p.node
    else match p.kind with
      | .tier0 => p.locs.flatMap (leBytes 4)
      | .tier1 => leBytes 4 (p.locs.headD 0)
      | .pool => leBytes 2 p.node ++ [0, 0] ++ leBytes 8 p.handle
      | .holder => leBytes 2 p.node
      | .host => leBytes 2 0xFFFF ++ [0, 0] ++ leBytes 8 p.handle
      | .shared => [])

/-- The entry (l, h) of a sequence or group of a shape, in 64 bytes (Table 5.9). A shared record takes 64 bytes and a pointer names a KiB: aux holds the pointer of the KiB in which the record lies, and (l, h) gives its place there (DESIGN CHOICE, log 109). -/
def State.pteBytes (s : State) (sh : Shape) (l h : Nat) (p : Pte) (mirror : Bool) : List Byte :=
  let kind := if p.state = .tombstone then 0 else p.kind.code
  let aux :=
    if p.state = .tombstone then p.gen % pow2 32
    else if p.kind = .shared ∧ p.state ≠ .free then s.ptr (.shared p.group) mirror + (l * sh.heads + h) / 16
    else 0
  leBytes 4 (p.state.code + 8 * kind + 64 * b2n p.moving + 128 * b2n p.lost + 256 * p.rebuilt) ++ leBytes 4 aux ++ p.locBytes ++
  leBytes 4 ((p.shadow.map Prod.fst).getD 0xFFFFFFFF) ++ leBytes 4 0 ++
  (List.range 4).flatMap (fun j => leBytes 4 (p.checkK.getD j 0)) ++ (List.range 4).flatMap (fun j => leBytes 4 (p.checkV.getD j 0))

/-! ### Sequence record, layer descriptor, head entry (Table 5.8, R139, R140) -/

/-- A sequence record, in 64 bytes. -/
def State.seqBytes (s : State) (r : SeqRec) (mirror : Bool) : List Byte :=
  padTo 64 (leBytes 8 r.sid ++ leBytes 2 r.tenant ++ leBytes 1 r.cls ++
    leBytes 1 (1 + 2 * b2n r.home + 4 * b2n r.shadowed + 8 * b2n r.gather) ++ leBytes 4 r.shape ++
    leBytes 4 (s.ptr (.layers r.tenant r.sid) mirror) ++ leBytes 2 r.homeNode ++ leBytes 2 (s.lostSpans r))

/-- Pointers of the K and V part of a buffer. -/
def State.partPtrs (s : State) (sh : Shape) (x : Place) : List Byte :=
  match s.placed x false with
  | some p => leBytes 4 p.1 ++ leBytes 4 (p.1 + sh.partKiB)
  | none => leBytes 4 0xFFFFFFFF ++ leBytes 4 0xFFFFFFFF

/-- Candidates of a layer's set that lie beyond the tile they fill: those in the spare (R125). -/
def LayerRec.beyond (y : LayerRec) : List (List ((List Nat × List Nat) × (Bool × Bool))) :=
  match y.prov with
  | some v => if v.tile.isSome then v.rows.drop (64 - y.len % 64) else []
  | none => []

/-- COND of the spare's parts for a head. -/
def LayerRec.spareCond (y : LayerRec) (h : Nat) : Bool × Bool :=
  let c := y.beyond.map (fun t => (t.getD h (([], []), (false, false))).2)
  (c.any Prod.fst, c.any Prod.snd)

/-- Head entry h of layer l, in 64 bytes. -/
def State.headBytes (s : State) (r : SeqRec) (l h : Nat) (mirror : Bool) : List Byte :=
  let y := r.layer l
  let hd := r.head l h
  let sp := y.spareCond h
  let root (k : Nat) : Nat := s.ptr (if hd.depth then .inter r.tenant r.sid l h k else .leaf r.tenant r.sid l h k) mirror
  s.partPtrs r.sh (.tail r.tenant r.sid l h) ++ s.partPtrs r.sh (.spare r.tenant r.sid l h) ++
  leBytes 1 (b2n hd.condK + 2 * b2n hd.condV + 4 * b2n sp.1 + 8 * b2n sp.2 + 16 * b2n hd.depth) ++ List.replicate 15 0 ++
  (List.range 8).flatMap (fun k => leBytes 4 (root k))

/-- The header of layer l's descriptor, in 64 bytes. -/
def State.layerHead (s : State) (r : SeqRec) (l : Nat) : List Byte :=
  let y := r.layer l
  let v := y.prov
  padTo 64 (leBytes 4 y.len ++ leBytes 4 ((v.map (·.base)).getD 0) ++ leBytes 1 ((v.map (fun p => p.rows.length)).getD 0) ++
    leBytes 1 (b2n (v.bind (·.tile)).isSome) ++ leBytes 2 (s.lostPages r l) ++ leBytes 4 ((v.bind (·.tile)).getD 0) ++
    leBytes 4 (((v.bind (·.done)).getD 0) / 1048576 % pow2 32))

/-- A byte of a sequence's layer table: descriptors at the stride S, zero between one's end and the next (R140). -/
def State.layerTableByte (s : State) (r : SeqRec) (mirror : Bool) (off : Nat) : Byte :=
  let l := off / r.sh.stride
  let o := off % r.sh.stride
  if r.layers.length ≤ l then 0
  else if o < 64 then (s.layerHead r l).getD o 0
  else if o / 64 ≤ r.sh.heads then (s.headBytes r l (o / 64 - 1) mirror).getD (o % 64) 0
  else 0

/-! ### Groups (R146) -/

/-- A page-group record, in 64 bytes. -/
def State.groupBytes (s : State) (g : Nat) (x : GroupRec) (mirror : Bool) : List Byte :=
  padTo 64 (leBytes 2 x.tenant ++ [0, 0] ++ leBytes 4 x.shape ++ leBytes 4 x.page ++ leBytes 4 x.count ++ leBytes 4 (s.ptr (.shared g) mirror))

/-! ### Tail buffers (R123) -/

/-- Rows of a buffer as K and V: committed rows of the tail, then candidates (R67, R125); rows a rebuild collects (R142). -/
def SeqRec.bufferRows (r : SeqRec) (l h : Nat) (x : Place) : List (List Nat × List Nat) :=
  let y := r.layer l
  let hd := r.head l h
  let row (t : List ((List Nat × List Nat) × (Bool × Bool))) : List Nat × List Nat := (t.getD h (([], []), (false, false))).1
  match x with
  | .tail .. => hd.tailK.zip hd.tailV ++ (((y.prov.map (·.rows)).getD []).take (64 - y.len % 64)).map row
  | .spare .. => y.beyond.map row
  | _ => ((hd.collect.head?).map (fun c => c.k.zip c.v)).getD []

/-- A byte of a buffer: BF16 values row by row, K part then V part; none in a row that holds nothing. -/
def SeqRec.bufferByte (r : SeqRec) (l h : Nat) (x : Place) (off : Nat) : Option Byte :=
  let part := 1024 * r.sh.partKiB
  let o := off % part
  match (r.bufferRows l h x)[o / (2 * r.sh.d)]? with
  | none => none
  | some w => some ((leBytes 2 ((if off < part then w.1 else w.2).getD (o % (2 * r.sh.d) / 2) 0)).getD (o % 2) 0)

/-! ### Weight tiles (R177, R215) -/

/-- Program runs by group: at work on it, or set aside (R200). -/
def State.progRuns (s : State) : List (Nat × ProgRun) := s.prog.current ++ s.prog.parked.map (fun x => (x.1, x.2.1))

/-- The object of a version: the active one, one that a request or a run keeps, or the one about to become active (R216). -/
def State.weightObj (s : State) (obj ver : Nat) : Option WObj :=
  match tabGet s.prog.objects obj with
  | none => none
  | some sl =>
    if sl.version = ver ∧ sl.active.isSome then sl.active
    else if sl.version + 1 = ver ∧ (sl.next.bind id).isSome then sl.next.bind id
    else (s.prog.older.find? (fun x => x.1 == (obj, ver))).map Prod.snd

/-! ### A byte where it stands -/

/-- A byte of a structure; none where the structure holds nothing there. -/
def State.placeByte (s : State) (x : Place) (mirror : Bool) (off : Nat) : Option Byte :=
  match x with
  | .layers t i => (s.findSeq t i).map (fun r => s.layerTableByte r mirror off)
  | .inter t i l h n => if 512 ≤ off then none else some ((leBytes 4 (s.ptr (.leaf t i l h (128 * n + off / 4)) mirror)).getD (off % 4) 0)
  | .leaf t i l h n => (s.findSeq t i).map (fun r => (s.pteBytes r.sh l h (r.pte l h (16 * n + off / 64)) mirror).getD (off % 64) 0)
  | .tail t i l h | .spare t i l h | .collect t i l h => (s.findSeq t i).bind (fun r => r.bufferByte l h x off)
  | .group g => if 64 ≤ off then none else (s.group g).map (fun y => (s.groupBytes g y mirror).getD off 0)
  | .shared g => (s.group g).bind (fun y =>
      let sh := shapeOf y.shape
      let k := off / 64
      if y.ptes.flatten.length ≤ k then none else some ((s.pteBytes sh (k / sh.heads) (k % sh.heads) (y.pte (k / sh.heads) (k % sh.heads)) mirror).getD (off % 64) 0))
  | .work k => (s.weightObj k.obj k.ver).map (fun o => (o.tiles.getD k.tile []).getD off 0)
  | .image k => (s.weightObj k.obj k.ver).map (fun o => (o.cipher.getD k.tile []).getD off 0)

/-- A byte of a copy of the sequence table: a slot with no record is zero (R139). -/
def State.seqTableByte (s : State) (mirror : Bool) (off : Nat) : Byte :=
  match s.pgw.seqs.find? (fun r => r.bucket == off / 256 && r.slot == off / 64 % 4 && decide (r.tenant < 4096)) with
  | some r => (s.seqBytes r mirror).getD (off % 64) 0
  | none => 0

/-- A key record, in 32 bytes (R232). -/
def State.keyBytes (s : State) (k : KeyEnt) : List Byte :=
  padTo 32 (leBytes 16 k.key ++ leBytes 2 k.tenant ++ [0, 0] ++ leBytes 4 k.shape ++ leBytes 4 (4 * s.ptr (.group k.group) false))

/-- A byte that the node itself keeps at a flat address: of the sequence table, a key record, or a structure with a place. -/
def State.nodeByte (s : State) (a : Nat) : Option Byte :=
  let n := 256 * pow2 (s.fld Reg.pgwSeqCfg 4 0)
  let b0 := s.live64 Reg.pgwSeqBase
  let b1 := s.live64 Reg.pgwMirrorBase
  let kb := s.live64 Reg.matKeyBase
  if b0 ≤ a ∧ a < b0 + n then some (s.seqTableByte false (a - b0))
  else if b1 ≤ a ∧ a < b1 + n then some (s.seqTableByte true (a - b1))
  else
    match (if kb ≤ a then tabGet s.mat.keys ((a - kb) / 32) else none) with
    | some k => some ((s.keyBytes k).getD ((a - kb) % 32) 0)
    | none =>
      match s.pgw.places.find? (fun p => decide (p.2.1 ≤ a / 1024 ∧ a / 1024 < p.2.1 + p.2.2)) with
      | some p => s.placeByte p.1.1 p.1.2 (a - 1024 * p.2.1)
      | none => none

end Sys2Proof.Machine
end

