-- ==== Sys2Proof/Machine/VspOps.lean ====
section
/-!
DEFINITION. Shared operations of the Vesper units and the dial: owners of minutes (R43–R49), burst timing (R155, R165–R167), units, masking (R173), pages' bytes as extents of flat memory (R158).
-/

namespace Sys2Proof.Machine

open Sys2Proof

/-! ### The dial (R43, R49) -/

/-- Owner codes (Table 2.3). -/
abbrev Owner.scrub := 28
/-- MIGRATE. -/
abbrev Owner.migrate := 29
/-- SHARED. -/
abbrev Owner.shared := 30
/-- SYSTEM. -/
abbrev Owner.system := 31

/-- Owner of minute m under the mode's dial; NIGHT's is fixed (R49). -/
def State.ownerAt (s : State) (m : Nat) : Nat :=
  if s.mode = 3 then (if m = 0 then Owner.system else if m % 4 = 1 ∨ m % 4 = 2 then Owner.scrub else Owner.migrate)
  else s.live (Reg.timeDial + 1024 * s.mode + m / 4 * 4) / pow2 (8 * (m % 4)) % 32

/-- Owner of the current minute. -/
def State.owner (s : State) : Nat := s.ownerAt s.minute

/-- A pending or live value of block b waits to be restored (R390). -/
def State.parityBad (s : State) (b : Nat) : Bool := s.regs.badParity.any (fun p => p.2 != 0 && p.1 / 0x100000 == b)

/-- A pending or live value of a block that dispatch depends on waits to be restored (R390; log 65). -/
def State.parityHolds (s : State) : Bool := (List.range 16).any (fun b => b != 0 && s.parityBad b)

/-- Work may be dispatched now: out of the guard ticks, in service, not in Twilight and not fenced, every value it depends on whole (R42, R319, R390, R409). -/
def State.dispatching (s : State) : Bool := !isGuard s.now && s.inService && !s.inTwilight && !s.fenced && s.running && !s.parityHolds

/-- A class is urgent (R292). -/
def State.urgentClass (s : State) (c : Nat) : Bool := s.bit (Reg.schClassCfg + 4 * c) 20

/-! ### Units -/

/-- An idle unit. -/
def VUnit.idle : VUnit :=
  { plan := [], normal := [], urgentQ := [], cur := none, curU := none, stopped := false, clock := 0, preempted := false, waiting := []
    window := none, returns := [], passPos := some 0, again := [], missing := 0 }
/-- Unit u. -/
def State.unit (s : State) (u : Nat) : VUnit := spGet VUnit.idle s.vsp.units u
/-- Bytes of a request slot in the query buffer: its G rows of d values (R154). -/
def BurstSlot.bytes (x : BurstSlot) : Nat := 2 * (shapeOf x.shape).g * (shapeOf x.shape).d

/-- Request slots that a unit's contexts and delivered descriptors fill, each once (R154). -/
def VUnit.slots (v : VUnit) : List BurstSlot := ((v.normal ++ v.urgentQ ++ v.cur.toList ++ v.curU.toList).flatMap (·.slots)).dedup

/-- The unit's 8 request slots and its query buffer have room for a descriptor's (Table 6.1, R154; log 79). -/
def VUnit.holds (v : VUnit) (b : Burst) : Bool :=
  let all := (v.slots ++ b.slots).dedup
  decide (all.length ≤ 8) && decide (all.foldl (fun n x => n + x.bytes) 0 ≤ 32768)

/-- A planned urgent burst goes into the urgent descriptor slot once it is free (Table 6.1). -/
def VUnit.deliverUrgent (v : VUnit) : VUnit :=
  match v.urgentQ, v.plan.find? (·.urgent) with
  | [], some b => if v.holds b then { v with urgentQ := [b], plan := v.plan.erase b } else v
  | _, _ => v

/-- A planned normal burst goes into a free normal descriptor slot: of the first of each kind, one of a kind that neither slot holds, else the first (Table 6.1; log 79). -/
def VUnit.deliverNormal (v : VUnit) : VUnit :=
  let plan := v.plan.filter (fun b => !b.urgent)
  let waits := plan.filter (fun b => decide (plan.find? (fun x => x.kind == b.kind) = some b) && v.holds b)
  let next := match waits.find? (fun b => !v.normal.any (fun x => x.kind == b.kind)) with | some b => some b | none => waits.head?
  match next with
  | some b => if v.normal.length < 2 then { v with normal := v.normal ++ [b], plan := v.plan.erase b } else v
  | none => v

/-- Descriptors travel to the unit as its slots become free (R164). -/
def VUnit.deliver (v : VUnit) : VUnit := v.deliverUrgent.deliverNormal.deliverNormal

/-- Change every tile entry that a unit holds. -/
def VUnit.mapEnts (v : VUnit) (ent : BurstEntry → BurstEntry) : VUnit :=
  let tile (t : TileEnt) : TileEnt := { t with ent := ent t.ent }
  let burst (b : Burst) : Burst := { b with tiles := b.tiles.map tile }
  { v with plan := v.plan.map burst, normal := v.normal.map burst, urgentQ := v.urgentQ.map burst, cur := v.cur.map burst, curU := v.curU.map burst
           returns := v.returns.map (fun r => { r with tiles := r.tiles.map tile }) }

/-- Write unit u. -/
def State.setUnit (s : State) (u : Nat) (v : VUnit) : State :=
  { s with vsp := { s.vsp with units := spSet VUnit.idle s.vsp.units u v.deliver } }
/-- Unit u is masked (R173). -/
def State.masked (s : State) (u : Nat) : Bool := s.vsp.masked.contains u

/-- Parts of a tick in which Vesper time is kept: a cycle at every clock and at every depth of spread is a whole number of them. -/
abbrev vUnit : Nat := 42000

/-- A Vesper cycle by mode: 525, 420 and 210 MHz (R50), stretched by the spread in force (R406; log 142). -/
def State.vCycle (s : State) : Nat :=
  (if s.time.clockMode = 3 then 100 else if s.time.clockMode = 2 then 50 else 40) * (2000 + s.fld Reg.clkStatus 11 8)
/-- Ticks that n Vesper cycles take, rounded up. -/
def State.vTicks (s : State) (n : Nat) : Nat := ceilDiv (n * s.vCycle) vUnit
/-- Refresh margin in ticks (Table 6.6). -/
def State.refreshMargin (s : State) : Nat := if s.time.clockMode = 3 then 88 else if s.time.clockMode = 2 then 48 else 40
/-- Burst limit in ticks (Table 6.6): none for NIGHT attention, which never starts. -/
def State.burstLimit (s : State) (kind : BurstKind) (urgent : Bool) : Nat :=
  if s.time.clockMode = 0 then 2048 else if s.time.clockMode = 1 then (if kind = .attend ∧ urgent then 2048 else 1024) else 3840

/-- The next refresh point of a bank group at or after a count (R47). -/
def nextRefresh (u now : Nat) : Nat :=
  let g := u % 16
  let phase := g % 4 * 1024 + 256 * (g / 4)
  if now % 4096 ≤ phase then now / 4096 * 4096 + phase else now / 4096 * 4096 + 4096 + phase

/-- A bank group is being refreshed (R47). -/
def inRefresh (u now : Nat) : Bool := decide ((now + 4096 - (u % 16 % 4 * 1024 + 256 * (u % 16 / 4))) % 4096 < 192)

/-- The end of the refresh that runs, or else of the next one (R47). -/
def refreshEnd (u now : Nat) : Nat :=
  if inRefresh u now then now - (now + 4096 - (u % 16 % 4 * 1024 + 256 * (u % 16 / 4))) % 4096 + 192 else nextRefresh u now + 192

/-- The start of the next SYSTEM minute after a count. -/
def nextSystem (now : Nat) : Nat := (now / 1048576 + 1) * 1048576

/-- A burst of a unit that has started and not ended. -/
def VUnit.busy (v : VUnit) : Bool := v.cur.isSome || v.curU.isSome

/-! ### Requests' leaves -/

/-- Change a dispatched request. -/
def State.mapRun (s : State) (rid : Nat) (f : Run → Run) : State :=
  { s with sch := { s.sch with runs := s.sch.runs.map (fun r => if r.req.rid = rid then f r else r) } }
/-- A dispatched request. -/
def State.run (s : State) (rid : Nat) : Option Run := s.sch.runs.find? (fun r => r.req.rid == rid)
/-- Change a leaf of a request. -/
def State.mapJob (s : State) (rid idx : Nat) (f : Job → Job) : State := s.mapRun rid (fun r => { r with jobs := listMap r.jobs idx f })

/-- Send a leaf to a hub core (R157, R163, R173). -/
def State.leafToHub (s : State) (e : BurstEntry) : State :=
  match e with
  | .leaf rid idx => s.mapJob rid idx (fun j => if j.st = .done then j else { j with exec := .hub, st := .issued })
  | _ => s

/-! ### Bytes of pages where they lie (R19, R133–R137) -/

/-- A pair slot with bytes: its start in KiB (local offset of a unit, or flat KiB) and the bytes of K then V. -/
structure Extent where
  /-- Unit; none for tier 1. -/
  unit : Option Nat
  /-- Start, KiB. -/
  at_ : Nat
  /-- KiB of the pair. -/
  kib : Nat
  /-- The pair. -/
  pair : Pair
  deriving DecidableEq, Repr

/-- Extents of a page's pairs at some locations. -/
def extentsOf (tier0 : Bool) (kib : Nat) (locs : List Nat) (pairs : List Pair) : List Extent :=
  pairs.zipIdx.filterMap (fun p =>
    if p.1 = Pair.empty then none
    else if tier0 then (locs[p.2]?).map (fun w => ⟨some (locUnit w), locOff w, kib, p.1⟩)
    else (locs[0]?).map (fun w => ⟨none, w + kib * p.2, kib, p.1⟩))

/-- Every extent of sealed bytes in tier 0 and tier 1. -/
def State.extents (s : State) : List Extent :=
  s.allPages.flatMap (fun p =>
    let k := s.refKiB p.1
    (match p.2.kind with
     | .tier0 => extentsOf true k p.2.locs p.2.pairs
     | .tier1 => extentsOf false k p.2.locs p.2.pairs
     | _ => []) ++
    (match p.2.shadow with | some sh => extentsOf false k [sh.1] sh.2 | none => [])) ++
  s.mem.moves.flatMap (fun m => if m.2.kind.toTier0 || m.2.kind.toTier1 then extentsOf m.2.kind.toTier0 (s.refKiB m.2.page) m.2.dest m.2.bytes else []) ++
  s.mem.olds.flatMap (fun o => extentsOf o.2.tier0 o.2.kib o.2.locs o.2.pairs)

/-- Unit and KiB of a flat address, and its byte within the KiB. -/
def placeOf (a : Nat) : Option Nat × Nat × Nat :=
  if a < tier0End then
    let p := tier0Decode a
    (some p.1, p.2 / 1024, p.2 % 1024)
  else (none, a / 1024, a % 1024)

/-- The extent that covers a flat address. -/
def State.extentAt (s : State) (a : Nat) : Option Extent :=
  let p := placeOf a
  s.extents.find? (fun e => e.unit == p.1 && decide (e.at_ ≤ p.2.1) && decide (p.2.1 < e.at_ + e.kib))

/-- The seal map's entry for a KiB of bare memory: 0 unsealed, 1 the first KiB of a sealed tile, 2 a further one (R158, R159; log 80). -/
def State.sealCode (s : State) (a : Nat) : Nat :=
  match s.extentAt a with
  | some e => if e.unit.isNone then 0 else if ((placeOf a).2.1 - e.at_) % (e.kib / 2) = 0 then 1 else 2
  | none => 0

/-- A KiB of bare memory is marked sealed. -/
def State.sealedAt (s : State) (a : Nat) : Bool := s.sealCode a != 0

/-- A flat address lies in the protected region of tier 0 (R136). -/
def State.protectedAt (s : State) (a : Nat) : Bool :=
  decide (a < tier0End) && (let p := tier0Decode a; decide (p.2 < 1024 * s.protKiB p.1))

/-- A flat address lies under a code: in tier 1, or in the protected region (R178, R179). -/
def State.codedAt (s : State) (a : Nat) : Bool := decide (tier0End ≤ a) || s.protectedAt a

/-- A flat address holds inline check symbols (R178). -/
def State.checkSymbol (s : State) (a : Nat) : Bool := s.protectedAt a && bitsOf a 22 21 == 3 && bitsOf a 7 6 == 3

/-- A byte of the flat range: sealed bytes where they stand, then what the node itself keeps there, else what ordinary accesses wrote. Other protected bytes that nothing was written to are free values (log 24, log 89). -/
def State.readFlat (s : State) (serial a : Nat) : Byte :=
  match s.extentAt a with
  | some e =>
    let p := placeOf a
    (e.pair.k ++ e.pair.v).getD (1024 * (p.2.1 - e.at_) + p.2.2) 0
  | none =>
    match s.nodeByte a with
    | some b => b
    | none => if s.protectedAt a ∧ s.peek a = 0 then Config.undefinedByte serial a else s.peek a

/-- n bytes of the flat range. -/
def State.readBytes (s : State) (a n : Nat) : List Byte := (List.range n).map (fun i => s.readFlat s.freeCtr (a + i))

/-- What an ordinary write or read of n bytes meets: the first offset with check symbols, the first in a sealed KiB. -/
def State.firstCheck (s : State) (a n : Nat) : Option Nat := (List.range n).find? (fun i => s.checkSymbol (a + i))
/-- First byte in a sealed KiB. -/
def State.firstSealed (s : State) (a n : Nat) : Option Nat := (List.range n).find? (fun i => s.sealedAt (a + i))

/-- Record a write that R158 rejects. -/
def State.rejectSealed (s : State) (a source : Nat) : State :=
  ((s.setLive Reg.vspWsAddr (a % pow2 32)).setLive (Reg.vspWsAddr + 4) (a / pow2 32 % 512 + 512 * source)).raiseBit Reg.vspEvent 2

/-- An ordinary write: whole, or rejected (R158, R178): the status and its detail. -/
def State.writeFlat (s : State) (a : Nat) (data : List Byte) (source : Nat) : State × Nat × Nat :=
  match s.firstCheck a data.length with
  | some i => (s, Status.addressError, i)
  | none =>
    match s.firstSealed a data.length with
    | some i => (s.rejectSealed a source, Status.writeSealed, i)
    | none => (s.pokeAll (fun i => a + i) data, Status.ok, 0)

end Sys2Proof.Machine
end

