-- ==== Sys2Proof/Machine/Bursts.lean ====
section
/-!
DEFINITION. Bursts of the Vesper units (R154–R157, R162, R164–R167, R173, R174): what a tile entry reads, how the hub plans bursts, how a unit runs them row-set by row-set and what it returns; scrub passes and masking (R171, R173).
-/

namespace Sys2Proof.Machine

open Sys2Proof

/-! ### Entries -/

/-- What planning needs to know of an entry's pair: location, first tile index, KV head, KiB of one tile, candidates it serves, d and G. -/
structure EntInfo where
  /-- Pair location word. -/
  loc : Nat
  /-- Tile index. -/
  tile : Nat
  /-- KV head. -/
  head : Nat
  /-- KiB of one tile. -/
  kib : Nat
  /-- Candidates, one query position each. -/
  cands : List Nat
  /-- Shape of the request. -/
  sh : Shape
  deriving DecidableEq, Repr

/-- An entry's pair. -/
def State.entInfo (s : State) (e : BurstEntry) : EntInfo :=
  match e with
  | .leaf rid idx =>
    match (s.run rid).bind (fun r => (r.jobs[idx]?).map (fun j => (r, j))) with
    | none => ⟨0, 0, 0, 0, [], shapeOf 0⟩
    | some (r, j) =>
      let sh := shapeOf (Msg.shape r.req.msg)
      ⟨j.loc, j.tile, j.head, tileSize sh.kvfmt sh.d / 1024, rangeFrom j.cand (r.lens.length - j.cand), sh⟩
  | .tile g t i l h pg k =>
    let ref : PageRef := ⟨g, t, i, l, h, pg⟩
    ⟨(s.pageAt ref).locs.getD k 0, 4 * pg + k, h, s.refKiB ref / 2, [], s.refShape ref⟩
  | .old id k =>
    match tabGet s.mem.olds id with
    | none => ⟨0, 0, 0, 0, [], shapeOf 0⟩
    | some o => ⟨o.locs.getD k 0, 0, 0, o.kib / 2, [], shapeOf 0⟩
  | .dest id k =>
    match tabGet s.mem.moves id with
    | none => ⟨0, 0, 0, 0, [], shapeOf 0⟩
    | some m => ⟨m.dest.getD k 0, 4 * m.page.page + k, m.page.head, s.refKiB m.page / 2, [], s.refShape m.page⟩

/-- A provisional seal's check words are its own until it is committed (R125). -/
def State.provTile (s : State) (e : BurstEntry) : Bool :=
  match e with
  | .tile false t i l _ pg k => ((s.findSeq t i).bind (fun r => (r.layer l).prov.bind (·.tile))) == some (4 * pg + k)
  | _ => false

/-- Bytes, check words and location of an entry's pair as they stand. A location that no entry of the tables names is held against its own header. -/
def State.entryTile (s : State) (e : BurstEntry) : Option (Pair × (Nat × Nat) × Nat) :=
  let own (p : Pair) (w : Nat) : Option (Pair × (Nat × Nat) × Nat) := if p = Pair.empty then none else some (p, (checkWord p.k, checkWord p.v), w)
  match e with
  | .leaf rid idx =>
    (s.run rid).bind (fun r => (r.jobs[idx]?).bind (fun j => match j.src with
      | .sealed k v => some (⟨k, v⟩, j.check, j.loc)
      | _ => none))
  | .tile g t i l h pg pr =>
    let p := s.pageAt ⟨g, t, i, l, h, pg⟩
    let x := p.pairs.getD pr Pair.empty
    if x = Pair.empty then none
    else if s.provTile e then own x (p.locs.getD pr 0)
    else some (x, (p.checkK.getD pr 0, p.checkV.getD pr 0), p.locs.getD pr 0)
  | .old id k => (tabGet s.mem.olds id).bind (fun o => own (o.pairs.getD k Pair.empty) (o.locs.getD k 0))
  | .dest id k => (tabGet s.mem.moves id).bind (fun m => own (m.bytes.getD k Pair.empty) (m.dest.getD k 0))

/-- The page of an entry, and its pair in it; none for a location that the tables do not name. -/
def State.entryRef (s : State) (e : BurstEntry) : Option (PageRef × Nat) :=
  match e with
  | .leaf rid idx => (s.run rid).bind (fun r => (r.jobs[idx]?).map (fun j => (j.ref, j.tile % 4)))
  | .tile g t i l h p k => some (⟨g, t, i, l, h, p⟩, k)
  | _ => none

/-- Bytes of a tile with some corruptions. -/
def flipAll (flips : List (Nat × Byte)) (b : List Byte) : List Byte := flips.foldl (fun b f => listMap b f.1 (fun x => x ^^^ f.2)) b

/-- A digest entry (Table 6.4): location, K or V, the digest the reader accumulated and the one the header holds. -/
structure DigestEnt where
  /-- Pair location word. -/
  loc : Nat
  /-- V tile. -/
  isV : Bool
  /-- D1 then D2 as accumulated. -/
  computed : Nat × Nat
  /-- Header bytes 8–23 as read. -/
  stored : Nat × Nat
  deriving DecidableEq, Repr

/-- The digest entry of a tile as read. -/
def digestEnt (loc : Nat) (isV : Bool) (tile : List Byte) : DigestEnt := ⟨loc, isV, readDigest tile, (field tile 8 8, field tile 16 8)⟩

/-- The two tests of R161 on a digest entry: none where it passes, else whether the check word alone differs. -/
def DigestEnt.fault (e : DigestEnt) (check : Nat) : Option Bool :=
  let same := decide (e.computed = e.stored)
  if same && decide (e.stored.1 % pow2 32 = check) then none else some same

/-- What R161 finds of one tile as read. -/
def tileFault (loc : Nat) (isV : Bool) (tile : List Byte) (check : Nat) : Option Bool := (digestEnt loc isV tile).fault check

/-- Which tiles of a pair fail R161: for each, whether it is the V tile and whether the check word alone differs. -/
def pairFaults (loc : Nat) (p : Pair) (c : Nat × Nat) : List (Bool × Bool) :=
  ((tileFault loc false p.k c.1).map (fun d => (false, d))).toList ++ ((tileFault loc true p.v c.2).map (fun d => (true, d))).toList

/-- What R161 finds of a tile entry's read. -/
def State.entFault (s : State) (t : TileEnt) : Option Bool :=
  match s.entryTile t.ent with
  | none => none
  | some (p, c, w) => if t.isV then tileFault w true (flipAll t.flips p.v) c.2 else tileFault w false (flipAll t.flips p.k) c.1

/-! ### Occupancy and slots (R154, R155, R166) -/

/-- Vesper cycles a tile entry occupies: read time, or the arithmetic of n slots (R155). -/
def burstCycles (kind : BurstKind) (kib d g n : Nat) : Nat := if kind = .attend then max (16 * kib) (ceilDiv (d * g * n) 4) else 16 * kib

/-- Request slots of a unit (R154). -/
def slotCap (sh : Shape) : Nat := min 8 (32768 / (2 * sh.g * sh.d))

/-- Row-sets a tile of b KiB can span (R166). -/
def rowSetsOf (kib : Nat) : Nat := ceilDiv (kib + 3) 4

/-- Most slots of one request for which a leaf's K and V tile fit one burst; 0 where not even one does (R156, R165, Table 6.11). -/
def State.maskCap (s : State) (urgent : Bool) (sh : Shape) : Nat :=
  let kib := tileSize sh.kvfmt sh.d / 1024
  let maxRows := s.fld Reg.vspBurstCfg 7 0
  if maxRows ≠ 0 ∧ maxRows < 2 * rowSetsOf kib then 0
  else ((List.range (slotCap sh + 1)).filter (fun n =>
    decide (s.vTicks (12 + 2 * burstCycles .attend kib sh.d sh.g n) ≤ s.burstLimit .attend urgent))).foldl max 0

/-- Cycles of the row-set reads of a tile, from its KiB offset on: 16 to a KiB (R166). -/
def rowCycles : Nat → Nat → Nat → List Nat
  | 0, _, _ => []
  | f + 1, off, kib =>
    if kib = 0 then []
    else
      let n := min kib (4 - off % 4)
      (16 * n) :: rowCycles f (off + n) (kib - n)

/-- The same with the arithmetic's excess over the read at the end (R155). -/
def tileRows (off kib occ : Nat) : List Nat :=
  let rs := rowCycles kib off kib
  rs.zipIdx.map (fun r => if r.2 + 1 = rs.length then r.1 + (occ - 16 * kib) else r.1)

/-- The request slot of a candidate for a KV head (R154). -/
def Run.slotFor (r : Run) (cand head : Nat) : BurstSlot :=
  let m := r.req.msg
  let g := (shapeOf (Msg.shape m)).g
  { rid := r.req.rid, cand := cand, head := head, tenant := Msg.tenant m, shape := Msg.shape m, sigma := Attend.scale m
    qPos := Attend.qPos m + cand, window := Attend.window m, lo := Attend.rangeLo m, hi := Attend.rangeHi m, mflags := Attend.mflags m
    len := r.lens.getD cand 0, q := ((r.q.getD cand []).drop (head * g)).take g }

/-! ### Planning (R164, R165) -/

/-- A tile entry to be planned. -/
structure PlanItem where
  /-- The entry, its mask not yet formed. -/
  tile : TileEnt
  /-- Slots it is computed for. -/
  slots : List BurstSlot
  /-- Vesper cycles. -/
  cyc : Nat
  /-- Row-sets it can span. -/
  rows : Nat
  deriving DecidableEq, Repr

/-- Runs of at most n elements. -/
def runsOf (n : Nat) : Nat → List Nat → List (List Nat)
  | 0, _ => []
  | f + 1, l => if l.isEmpty then [] else l.take n :: runsOf n f (l.drop n)

/-- The tile entries of an entry's pair: K before V (R153), for at most `cap` slots at a time (R154). -/
def State.planItems (s : State) (kind : BurstKind) (cap : Nat) (e : BurstEntry) : List PlanItem :=
  let x := s.entInfo e
  let two (slots : List BurstSlot) : List PlanItem :=
    let c := burstCycles kind x.kib x.sh.d x.sh.g slots.length
    [false, true].map (fun v => ⟨⟨e, v, x.loc, x.tile, x.head, 0, []⟩, slots, c, rowSetsOf x.kib⟩)
  match e with
  | .leaf rid _ =>
    match s.run rid with
    | none => []
    | some r => (runsOf cap x.cands.length x.cands).flatMap (fun cs => two (cs.map (fun c => r.slotFor c x.head)))
  | _ => two []

/-- Slots of some items, each once. -/
def slotsOf (l : List PlanItem) : List BurstSlot := (l.flatMap (·.slots)).foldl (fun a x => if a.contains x then a else a ++ [x]) []

/-- An item is the V tile of an attention leaf whose K tile comes before it. -/
def PlanItem.splits (k x : PlanItem) : Bool := x.tile.isV && !k.tile.isV && decide (k.tile.ent = x.tile.ent) && decide (k.slots = x.slots)

/-- Cut tile entries into bursts that keep the limits of R154, R164, R165 and max_rows; a tile of a SCRUB or MOVE burst beyond max_rows goes alone (DESIGN CHOICE, log 88). A burst holds the largest whole number of tiles (R50): where that ends with the K tile of a leaf, the next burst reads it again, since nothing of a burst outlives it (R156; log 79). -/
def State.pack (s : State) (kind : BurstKind) (urgent : Bool) (cap : Nat) : List PlanItem → List PlanItem → List (List PlanItem)
  | [], cur => if cur.isEmpty then [] else [cur]
  | x :: t, cur =>
    let maxRows := s.fld Reg.vspBurstCfg 7 0
    let sum (f : PlanItem → Nat) := cur.foldl (fun n y => n + f y) (f x)
    let full := decide (48 < cur.length + 1) || decide (cap < (slotsOf (cur ++ [x])).length) ||
      decide (s.burstLimit kind urgent < s.vTicks (12 + sum (·.cyc))) || (decide (maxRows ≠ 0) && decide (maxRows < sum (·.rows)))
    let again := (cur.getLast?.toList).filter (fun k => kind == .attend && k.splits x)
    if !cur.isEmpty && full then cur :: s.pack kind urgent cap t (again ++ [x]) else s.pack kind urgent cap t (cur ++ [x])

/-- A burst over some items. -/
def mkBurst (id : Nat) (kind : BurstKind) (urgent : Bool) (cls : Nat) (chain : Bool) (items : List PlanItem) : Burst :=
  let slots := slotsOf items
  let tile (x : PlanItem) : TileEnt := { x.tile with mask := slots.zipIdx.foldl (fun n y => if x.slots.contains y.1 then n + pow2 y.2 else n) 0 }
  { id := id, kind := kind, urgent := urgent, cls := cls, chain := chain, startTick := 0, endPlan := 0, slots := slots, tiles := items.map tile
    pos := 0, rows := [] }

/-- Plan bursts of a unit over some entries, each chained to the one before; a leaf that fits no burst goes to a hub core (R164, R165). -/
def State.sendBursts (s : State) (u : Nat) (kind : BurstKind) (urgent : Bool) (cls : Nat) (es : List BurstEntry) : State :=
  let cap (e : BurstEntry) : Nat := match e with | .leaf .. => s.maskCap urgent (s.entInfo e).sh | _ => 1
  let s := (es.filter (fun e => cap e == 0)).foldl State.leafToHub s
  let items := (es.filter (fun e => cap e != 0)).flatMap (fun e => s.planItems kind (cap e) e)
  let most := match es.head? with | some e => (match e with | .leaf .. => slotCap (s.entInfo e).sh | _ => 8) | none => 8
  let parts := s.pack kind urgent most items []
  (parts.zipIdx).foldl (fun s c =>
    let b := mkBurst (s.vsp.nextBurst % 65536) kind urgent cls (decide (c.2 ≠ 0)) c.1
    let v := s.unit u
    ({ s with vsp := { s.vsp with nextBurst := s.vsp.nextBurst + 1 } }).setUnit u { v with plan := v.plan ++ [b] }) s

/-! ### A unit's progress (R166, R167) -/

/-- A counter of a unit (Table 6.17), by offset. -/
def State.unitCount (s : State) (u off n : Nat) : State := s.bump (Reg.vspUnitStat + 32 * u + off) n

/-- The burst that runs: the urgent context's, else the normal one's unless it is held (R169). -/
def VUnit.running (v : VUnit) : Option Burst :=
  match v.curU with | some b => some b | none => if v.preempted then none else v.cur

/-- Put back the burst that runs. -/
def VUnit.putRunning (v : VUnit) (b : Option Burst) : VUnit := if v.curU.isSome then { v with curU := b } else { v with cur := b }

/-- n Vesper cycles from the unit's clock, which no refresh covers, end at least the refresh margin before the next refresh point (R167). -/
def State.fitsRefresh (s : State) (u clock n : Nat) : Bool :=
  !inRefresh u (clock / vUnit) && decide (clock + n * s.vCycle + vUnit * s.refreshMargin ≤ vUnit * nextRefresh u (clock / vUnit))

/-- The unit stops, or suspends, before a refresh (R167). -/
def State.stopBurst (s : State) (u : Nat) : State := (s.setUnit u { s.unit u with stopped := true }).unitCount u 0x10 1

/-- Cycles pass in the context that runs, and count as busy. -/
def State.spend (s : State) (u n : Nat) : State :=
  let v := s.unit u
  (s.setUnit u { v with clock := v.clock + n * s.vCycle }).unitCount u 0x0C n

/-- A tile entry lies in protected memory (R157). -/
def State.entProtected (s : State) (u : Nat) (t : TileEnt) : Bool := decide (locOff t.loc < s.protKiB u)

/-- Bits set in a slot mask. -/
def maskSlots (mask : Nat) : List Nat := (List.range 8).filter (fun i => bitOf mask i)

/-- Shape and KiB of a tile entry: those its descriptor's slots give, whatever has become of their request; an entry with no slot has its pair's (Table 6.5). -/
def State.tileShape (s : State) (b : Burst) (t : TileEnt) : Shape × Nat :=
  match (maskSlots t.mask).head?.bind (fun i => b.slots[i]?) with
  | some x => let sh := shapeOf x.shape; (sh, tileSize sh.kvfmt sh.d / 1024)
  | none => let x := s.entInfo t.ent; (x.sh, x.kib)

/-- Cycles a tile entry of a burst occupies its unit (R155). -/
def State.tileOcc (s : State) (b : Burst) (t : TileEnt) : Nat :=
  let x := s.tileShape b t
  burstCycles b.kind x.2 x.1.d x.1.g (maskSlots t.mask).length

/-- The V entries of a burst that compute leaves of the same request, head and slots as an entry. -/
def State.kin (s : State) (u : Nat) (b : Burst) (t : TileEnt) : List TileEnt :=
  b.tiles.filter (fun x => x.isV && x.head == t.head && x.mask == t.mask && !s.entProtected u x &&
    (match x.ent, t.ent with | .leaf a _, .leaf c _ => a == c | _, _ => decide (x = t)))

/-- The largest complete node of R84, up to a span, that holds a tile and lies wholly among some tile indices: its level and first tile (R118, R162). -/
def wholeNode (tiles : List Nat) (t : Nat) : Nat × Nat :=
  ((List.range 5).filter (fun k => (rangeFrom (t / pow2 k * pow2 k) (pow2 k)).all tiles.contains)).foldl
    (fun _ k => (k, t / pow2 k * pow2 k)) (0, t)

/-- The partials of a slot over the tiles of a node, as the unit reads them: one per query row (R110, R153, R162, Table 6.3). -/
def State.partsOf (s : State) (x : BurstSlot) (level first : Nat) (tiles : List (TileEnt × TileEnt)) : List Partial :=
  let sh := shapeOf x.shape
  let src (t : TileEnt × TileEnt) : TileSrc := match s.entryTile t.2.ent with
    | some (p, _, _) => .sealed (flipAll t.1.flips p.k) (flipAll t.2.flips p.v)
    | none => .sealed [] []
  x.q.map (fun q => treeNode sh.d (tiles.map (fun t =>
    (t.2.tile, (leaf sh (src t) x.sigma q ⟨x.qPos, x.window, x.lo, x.hi, x.mflags⟩ x.len t.2.tile).1))) level (first / pow2 level))

/-- Return records that the end of a tile completes: for each slot, the node that holds it, once every leaf of the node is computed (R162). -/
def State.returnsOf (s : State) (u : Nat) (b : Burst) (t : TileEnt) : List Return :=
  let past := b.tiles.take b.pos
  if !t.isV then
    -- a tile of a pair that no burst could hold whole has a record of its own; of a leaf, its K tile is read again with its V tile
    (if b.kind != .attend && !b.tiles.any (fun x => x.isV && decide (x.ent = t.ent)) then
      [{ id := b.id, kind := b.kind, urgent := b.urgent, slot := 0, cand := 0, level := 0, first := t.tile, rows := 0, head := t.head, parts := []
         tiles := [t], refused := false, due := b.endPlan }] else [])
  else
    let kin := s.kin u b t
    let node := if b.kind = .attend then wholeNode (kin.map (·.tile)) t.tile else (0, t.tile)
    let mine := if b.kind = .attend then kin.filter (fun x => decide (node.2 ≤ x.tile ∧ x.tile < node.2 + pow2 node.1)) else [t]
    if !mine.all past.contains then []
    else
      let keyOf (x : TileEnt) : List TileEnt := (past.filter (fun k => !k.isV && decide (k.ent = x.ent))).take 1
      let one (slot : Nat) (y : Option BurstSlot) : Return :=
        let parts := (y.map (fun y => s.partsOf y node.1 node.2 (mine.map (fun x => ((keyOf x).headD x, x))))).getD []
        { id := b.id, kind := b.kind, urgent := b.urgent, slot := slot, cand := (y.map (·.cand)).getD 0, level := node.1, first := node.2
          rows := parts.length, head := t.head, parts := parts, tiles := mine.flatMap (fun x => keyOf x ++ [x]), refused := false, due := b.endPlan }
      if b.kind = .attend then (maskSlots t.mask).map (fun i => one i (b.slots[i]?)) else [one 0 none]

/-- The end of a burst: every slot, accumulator and digest state is cleared (R156). -/
def State.clearIfDone (s : State) (u : Nat) : State :=
  let v := s.unit u
  match v.running with
  | some b => if b.tiles.length ≤ b.pos then s.setUnit u { v.putRunning none with window := none } else s
  | none => s

/-- A tile has been read: counts, bytes of the yard, return records (R162, R174, Table 6.17). -/
def State.tileDone (s : State) (u : Nat) (b : Burst) (t : TileEnt) : State :=
  let b := { b with pos := b.pos + 1, rows := [] }
  let v := s.unit u
  let recs := s.returnsOf u b t
  let off := match b.kind with | .attend => 0 | .scrub => 4 | .move => 8
  let n := 1024 * (s.tileShape b t).2
  let s := (s.setUnit u { v.putRunning (some b) with returns := v.returns ++ recs }).unitCount u off 1
  ({ s with vsp := { s.vsp with yardBytes := spSet 0 s.vsp.yardBytes u (spGet 0 s.vsp.yardBytes u + n) } }).clearIfDone u

/-- An entry below P_s is skipped and returned REFUSED (R157). -/
def State.refuseTile (s : State) (u : Nat) (b : Burst) (t : TileEnt) : State :=
  let r : Return := { id := b.id, kind := b.kind, urgent := b.urgent, slot := 0, cand := 0, level := 0, first := t.tile, rows := 0
                      head := t.head, parts := [], tiles := [t], refused := true, due := b.endPlan }
  let v := s.unit u
  ((s.setUnit u { v.putRunning (some { b with pos := b.pos + 1 }) with returns := v.returns ++ [r] }).raiseBit Reg.vspEvent 3).clearIfDone u

/-- One move of the context that runs: a row-set read, a tile begun, a stop, an entry refused, or the end. -/
def State.readOn (s : State) (u : Nat) : State :=
  let v := s.unit u
  match v.running with
  | none => s
  | some b =>
    match b.rows, b.tiles[b.pos]? with
    | _, none => s.clearIfDone u
    | [], some t =>
      if s.entProtected u t then s.refuseTile u b t
      else
        let kib := (s.tileShape b t).2
        let occ := s.tileOcc b t
        if occ = 0 then s.tileDone u b t
        else if s.fitsRefresh u v.clock occ then s.setUnit u (v.putRunning (some { b with rows := tileRows (locOff t.loc + (if t.isV then kib else 0)) kib occ }))
        else s.stopBurst u
    | r :: rest, some t =>
      if !s.fitsRefresh u v.clock r then s.stopBurst u
      else
        let s := s.spend u r
        if rest.isEmpty then s.tileDone u b t
        else
          let v := s.unit u
          s.setUnit u (v.putRunning (some { b with rows := rest }))

/-- The context that runs can go on without passing a count, given in parts of a tick; none: without bound. -/
def State.goesOn (s : State) (u : Nat) (bound : Option Nat) : Bool :=
  let v := s.unit u
  match v.running with
  | none => false
  | some b =>
    !v.stopped && (match bound, b.rows with
      | none, _ => true
      | some t, [] => decide (v.clock < t)
      | some t, r :: _ => decide (v.clock + r * s.vCycle ≤ t))

/-- Run a unit up to a count, or on until it ends or stops; `one`: only until it has a return record. -/
def State.pump (s : State) (u : Nat) (bound : Option Nat) (one : Bool) : Nat → State
  | 0 => s
  | f + 1 => if !s.goesOn u bound || (one && !(s.unit u).returns.isEmpty) then s else (s.readOn u).pump u bound one f

/-- Moves of a burst of 48 tiles are fewer than this. -/
abbrev burstFuel : Nat := 800

/-- Run a unit up to now. -/
def State.pumpNow (s : State) (u : Nat) : State := s.pump u (some (vUnit * s.now)) false burstFuel

/-- The count has reached the unit's clock. -/
def State.catchUp (s : State) (u : Nat) : State := s.advanceTo (ceilDiv (s.unit u).clock vUnit)

/-- Run a unit until its burst ends or stops: what a command says that waits for that. -/
def State.runOut (s : State) (u : Nat) : State :=
  if (s.unit u).running.isNone ∨ (s.unit u).stopped then s else (s.pump u none false burstFuel).catchUp u

/-- Run every unit up to a count. -/
def State.pumpAll (s : State) : State :=
  (s.vsp.units.filter (fun u => u.2.busy)).foldl (fun s u => s.pumpNow u.1) s

/-! ### Starts (R165) -/

/-- The tile entries of a burst's first leaf: its K tile and its V tile, which no two bursts may share (R156). -/
def Burst.firstLeaf (b : Burst) : List TileEnt :=
  match b.tiles with
  | k :: x :: _ => if !k.isV ∧ x.isV ∧ k.ent = x.ent then [k, x] else [k]
  | l => l

/-- Tile entries of a burst that can be planned from a start: it keeps the limit of its kind and mode and max_rows, and its end lies the refresh margin before the next refresh point, and before the next SYSTEM minute (R44, R52, R165). -/
def State.plannable (s : State) (u start : Nat) (b : Burst) : Nat :=
  let c := s.vCycle
  let sys := vUnit * nextSystem start
  let ref := vUnit * nextRefresh u start
  let maxRows := s.fld Reg.vspBurstCfg 7 0
  let n := (b.tiles.foldl (fun (a : Nat × Nat × Nat × Bool) t =>
    let e := a.2.1 + s.tileOcc b t * c
    let r := a.2.2.1 + rowSetsOf (s.tileShape b t).2
    if a.2.2.2 ∧ e + vUnit * s.refreshMargin ≤ ref ∧ e ≤ sys ∧ e ≤ vUnit * (start + s.burstLimit b.kind b.urgent) ∧
        (maxRows = 0 ∨ r ≤ maxRows ∨ (a.1 = 0 ∧ b.kind ≠ .attend)) then (a.1 + 1, e, r, true) else (a.1, a.2.1, a.2.2.1, false))
    (0, vUnit * start + 12 * c, 0, true)).1
  -- of a leaf, a K tile alone is not worth a burst
  if n = 1 ∧ b.kind = .attend ∧ b.firstLeaf.length = 2 then 0 else n

/-- The rest of a burst that is cut at its start, planned anew and chained to it; the K tile of a leaf that the cut divides is read again (R156). -/
def Burst.rest (b : Burst) (n id : Nat) : Burst :=
  let done := b.tiles.take n
  let again := match done.getLast?, (b.tiles.drop n).head? with
    | some k, some x => if b.kind = .attend ∧ !k.isV ∧ x.isV ∧ k.ent = x.ent then [k] else []
    | _, _ => []
  { b with id := id, chain := true, tiles := again ++ b.tiles.drop n }

/-- Start a burst, taken from the unit's slots, in its context with its lead-in, as much of it as can be planned from here; the rest waits in its slot, under the request's class (R164, R165, R166). The class of the burst is the one that owns the minute. -/
def State.startBurst (s : State) (u : Nat) (v : VUnit) (b : Burst) (n : Nat) : State :=
  let start := s.now
  let now := b.tiles.take n
  let go := { b with tiles := now, cls := s.owner, startTick := start % 65536
                     endPlan := vUnit * start + (12 + (now.map (s.tileOcc b)).foldl (· + ·) 0) * s.vCycle }
  let rest := if b.tiles.length ≤ n then [] else [b.rest n (s.vsp.nextBurst % 65536)]
  let s := if rest.isEmpty then s else { s with vsp := { s.vsp with nextBurst := s.vsp.nextBurst + 1 } }
  let v := if b.urgent then { v with curU := some go, urgentQ := rest ++ v.urgentQ, preempted := v.cur.isSome } else { v with cur := some go, normal := rest ++ v.normal }
  (s.setUnit u { v with stopped := false, clock := vUnit * start, window := none }).spend u 12

/-! ### Windows of ordinary accesses (R158, R168) -/

/-- A refresh runs, or is due: not even one access would end before it (R168; log 83). -/
def State.refreshDue (s : State) (u : Nat) : Bool := inRefresh u s.now || decide (vUnit * nextRefresh u s.now < vUnit * s.now + 16 * s.vCycle)

/-- Cycles of a window of n accesses (R168). -/
def windowCycles (n : Nat) : Nat := 12 + 4 * n

/-- Most accesses of a window (R168, Table 6.11). -/
def State.windowMax (s : State) : Nat := s.fld Reg.vspBurstCfg 19 16

/-- Accesses, of k, that a window from a count on can serve before the refresh margin: always one (R168). -/
def State.windowFit (s : State) (u clock k : Nat) : Nat :=
  max 1 (((List.range (k + 1)).filter (fun n => s.fitsRefresh u clock (windowCycles n))).foldl max 0)

/-- A burst runs and is not stopped before a refresh. -/
def VUnit.reading (v : VUnit) : Bool := v.running.isSome && !v.stopped

/-- The row-set read under way ends (R168). -/
def State.endRow (s : State) (u : Nat) : State :=
  let v := s.unit u
  match v.running with
  | some b => if b.rows.isEmpty ∨ v.stopped ∨ vUnit * s.now ≤ v.clock then s else s.readOn u
  | none => s

/-- At the end of a row-set read the unit closes its rows for a window of k accesses and opens them again after it, or is suspended where a refresh is too near for that (R167, R168). -/
def State.openWindow (s : State) (u k : Nat) : State :=
  let v := s.unit u
  let s := ((s.setUnit u { v with clock := max v.clock (vUnit * s.now) }).unitCount u 0x14 1).spend u (windowCycles k)
  let v := s.unit u
  let s := s.setUnit u { v with window := some (v.clock, k) }
  if s.fitsRefresh u v.clock 12 then s.spend u 12 else s.stopBurst u

/-- An access that arrives while a window is open joins it, where fewer than the most have been served and it still ends before the refresh margin (R168). -/
def State.joinWindow (s : State) (u : Nat) : Option State :=
  let v := s.unit u
  match v.window with
  | none => none
  | some (e, n) =>
    if vUnit * s.now ≤ e ∧ n < s.windowMax ∧ s.fitsRefresh u e 4 then
      some ((s.setUnit u { v with window := some (e + 4 * s.vCycle, n + 1), clock := v.clock + 4 * s.vCycle }).unitCount u 0x0C 4)
    else none

/-! ### Scrub passes and masking (R171, R173) -/

/-- When every unit in service has ended its pass, the node pass ends (R171). -/
def State.nodePass (s : State) : State :=
  if !(List.range 2048).all (fun k => s.masked k || s.vsp.passEnded.contains k) then s
  else
    let n := min 0xFFFF (bitsOf (s.live Reg.vspScrubPass) 15 0 + 1)
    let d := min 0xFFFF (s.frame - s.vsp.passStart)
    let s := (s.setLive Reg.vspScrubPass (n + 65536 * d)).raiseBit Reg.vspEvent 6
    { s with vsp := { s.vsp with passStart := s.frame, passEnded := []
                                 units := s.vsp.units.filterMap (fun x =>
                                   let v := { x.2 with passPos := some 0, again := [] }
                                   if v = VUnit.idle then none else some (x.1, v)) } }

/-- A unit ends its pass. -/
def State.endPass (s : State) (u : Nat) : State :=
  let s := (s.setUnit u { s.unit u with passPos := none, again := [] })
  ({ s with vsp := { s.vsp with passEnded := setInsert s.vsp.passEnded u } }).nodePass

/-- Insert by offset. -/
def offInsert (x : Nat × BurstEntry) : List (Nat × BurstEntry) → List (Nat × BurstEntry)
  | [] => [x]
  | y :: t => if x.1 ≤ y.1 then x :: y :: t else y :: offInsert x t

/-- Pair slots of a unit that are marked sealed: of pages, tiles sealed provisionally among them, of old locations and of destinations (R159, R171). -/
def State.sealedPairs (s : State) (u : Nat) : List (Nat × BurstEntry) :=
  let cut (locs : List Nat) (pairs : List Pair) (mk : Nat → BurstEntry) : List (Nat × BurstEntry) :=
    (locs.zipIdx.filter (fun w => locUnit w.1 == u && pairs.getD w.2 Pair.empty != Pair.empty)).map (fun w => (locOff w.1, mk w.2))
  s.allPages.flatMap (fun p => if p.2.kind ≠ .tier0 then []
    else cut p.2.locs p.2.pairs (.tile p.1.grp p.1.tenant p.1.sid p.1.layer p.1.head p.1.page)) ++
  s.mem.olds.flatMap (fun o => if o.2.tier0 then cut o.2.locs o.2.pairs (.old o.1) else []) ++
  s.mem.moves.flatMap (fun m => if m.2.kind.toTier0 then cut m.2.dest m.2.bytes (.dest m.1) else [])

/-- Sealed pairs still ahead of a unit's pass, and those it reads again, in ascending offset. -/
def State.scrubTodo (s : State) (u : Nat) : List (Nat × BurstEntry) :=
  match (s.unit u).passPos with
  | none => []
  | some pos => ((s.sealedPairs u).filter (fun x => decide (pos ≤ x.1) || (s.unit u).again.contains x.1)).foldl (fun l x => offInsert x l) []

/-- A unit's pass ends once every tile has been read, and every record and re-read of it has been dealt with (R162, R171). -/
def State.tryEndPass (s : State) (u : Nat) : State :=
  let v := s.unit u
  if v.passPos.isNone ∨ s.masked u ∨ !(s.scrubTodo u).isEmpty ∨ (v.cur.any (fun b => b.kind == .scrub)) ∨ v.returns.any (fun r => r.kind == .scrub) ∨
      s.vsp.rereads.any (fun r => r.2.unit == u && r.2.reader == 1) then s
  else s.endPass u

/-- Tile entries a unit holds. -/
def VUnit.tiles (v : VUnit) : List TileEnt :=
  (v.plan ++ v.normal ++ v.urgentQ ++ v.cur.toList ++ v.curU.toList).flatMap (fun b => b.tiles) ++ v.returns.flatMap (·.tiles)

/-- Mask a unit until the next start-up: its work goes to the hub, and the node pass goes on without it (R171, R173). -/
def State.maskUnit (s : State) (u : Nat) : State :=
  if s.masked u then s
  else
    let v := s.unit u
    let es := v.tiles.map (·.ent)
    let s := s.setUnit u { v with plan := [], normal := [], urgentQ := [], cur := none, curU := none, stopped := false, preempted := false, returns := [] }
    let s := { s with vsp := { s.vsp with masked := setInsert s.vsp.masked u, yardBytes := s.vsp.yardBytes.filter (fun p => p.1 != u)
                                          passEnded := s.vsp.passEnded.filter (· != u) } }
    let a := Reg.vspUnitMask + 4 * (u / 32)
    let s := (s.setLive a (s.live a ||| pow2 (u % 32))).raiseBit Reg.vspEvent 4
    (es.foldl State.leafToHub s).nodePass

end Sys2Proof.Machine
end

