-- ==== Sys2Proof/Machine/Cipher.lean ====
section
/-!
DEFINITION. AES-256 (FIPS 197), AES-256-GCM (SP 800-38D) and CTR_DRBG (SP 800-90A), the functions of those standards that the manual names (R213, R344, R356, R359, R361; PRESUMED, log 12).
-/

namespace Sys2Proof.Machine

open Sys2Proof

/-- Bitwise sum of two byte strings, as long as the shorter. -/
def xorBytes (a b : List Byte) : List Byte := List.zipWith (· ^^^ ·) a b

/-! ### AES-256 -/

/-- Twice an element of GF(2^8). -/
def gfTwice (a : Nat) : Nat := if a < 128 then 2 * a else (2 * a) % 256 ^^^ 0x1B

/-- Product in GF(2^8), over the low n bits of b. -/
def gfMul (a b : Nat) : Nat → Nat
  | 0 => 0
  | n + 1 => (if bitOf b n then (List.range n).foldl (fun x _ => gfTwice x) a else 0) ^^^ gfMul a b n

/-- x^254, the inverse in GF(2^8): seven factors x^2 … x^128. -/
def gfInv (x : Nat) : Nat :=
  ((List.range 7).foldl (fun (p : Nat × Nat) _ => let q := gfMul p.1 p.1 8; (q, gfMul p.2 q 8)) (x, 1)).2

/-- The S-box. -/
def aesSbox : List Nat :=
  (List.range 256).map (fun x =>
    let b := gfInv x
    let r (k : Nat) : Nat := (b <<< k ||| b >>> (8 - k)) % 256
    b ^^^ r 1 ^^^ r 2 ^^^ r 3 ^^^ r 4 ^^^ 0x63)

/-- S-box of a byte. -/
def subByte (x : Nat) : Nat := aesSbox.getD x 0

/-- The next word of the key schedule, from the last word and the word eight before, at index i. -/
def aesNextWord (i : Nat) (last old : List Nat) : List Nat :=
  let t := if i % 8 = 0 then
      ((last.drop 1 ++ last.take 1).map subByte).zipIdx.map (fun x => if x.2 = 0 then x.1 ^^^ (List.range (i / 8 - 1)).foldl (fun a _ => gfTwice a) 1 else x.1)
    else if i % 8 = 4 then last.map subByte else last
  List.zipWith (· ^^^ ·) t old

/-- Key schedule: n more words, newest first. -/
def aesSchedule : Nat → List (List Nat) → List (List Nat)
  | 0, w => w
  | n + 1, w => aesSchedule n (aesNextWord w.length (w.headD []) (w.getD 7 []) :: w)

/-- The fifteen round keys of a 32-byte key. -/
def aesKeys (key : List Byte) : List (List Nat) :=
  let w := ((List.range 8).map (fun i => (slice key (4 * i) 4).map (·.toNat))).reverse
  let ws := (aesSchedule 52 w).reverse
  (List.range 15).map (fun r => (List.range 4).flatMap (fun i => ws.getD (4 * r + i) []))

/-- Row r of column c takes the byte of column c + r. -/
def shiftRows (s : List Nat) : List Nat := (List.range 16).map (fun i => s.getD (i % 4 + 4 * ((i / 4 + i % 4) % 4)) 0)

/-- Mix one column. -/
def mixColumn (c : List Nat) : List Nat :=
  (List.range 4).map (fun r =>
    let x (k : Nat) : Nat := c.getD ((r + k) % 4) 0
    gfTwice (x 0) ^^^ gfTwice (x 1) ^^^ x 1 ^^^ x 2 ^^^ x 3)

/-- Rounds over the round keys that remain: the last one does not mix. -/
def aesRounds : List (List Nat) → List Nat → List Nat
  | [], s => s
  | k :: t, s =>
    let u := shiftRows (s.map subByte)
    let u := if t.isEmpty then u else (List.range 4).flatMap (fun c => mixColumn ((u.drop (4 * c)).take 4))
    aesRounds t (List.zipWith (· ^^^ ·) u k)

/-- One block under round keys. -/
def aesBlock (keys : List (List Nat)) (b : List Byte) : List Byte :=
  match keys with
  | [] => b
  | k :: t => (aesRounds t (List.zipWith (· ^^^ ·) ((padTo 16 b).map (·.toNat)) k)).map (BitVec.ofNat 8)

/-! ### GCM -/

/-- Product in GF(2^128) in GCM's bit order, over the top n bits of x that remain. -/
def ghashMul (x : Nat) : Nat → Nat → Nat → Nat
  | 0, _, z => z
  | n + 1, v, z =>
    ghashMul x n ((v >>> 1) ^^^ (if v % 2 = 1 then 0xE1 <<< 120 else 0)) (if bitOf x n then z ^^^ v else z)

/-- GHASH of n blocks. -/
def ghash (h : Nat) : Nat → List Byte → Nat → Nat
  | 0, _, y => y
  | n + 1, bs, y => ghash h n (bs.drop 16) (ghashMul (y ^^^ beNat (padTo 16 (bs.take 16))) 128 h 0)

/-- Zeros to a multiple of 16 bytes. -/
def pad16 (bs : List Byte) : List Byte := padTo (16 * ceilDiv bs.length 16) bs

/-- Key stream of n blocks from a counter block's first 12 bytes and count. -/
def gcmStream (keys : List (List Nat)) (nonce : List Byte) : Nat → Nat → List Byte
  | 0, _ => []
  | n + 1, c => aesBlock keys (nonce ++ beBytes 4 c) ++ gcmStream keys nonce n (c + 1)

/-- Tag of a ciphertext. -/
def gcmTag (keys : List (List Nat)) (nonce aad cipher : List Byte) : List Byte :=
  let h := beNat (aesBlock keys (List.replicate 16 0))
  let m := pad16 aad ++ pad16 cipher ++ beBytes 8 (8 * aad.length) ++ beBytes 8 (8 * cipher.length)
  xorBytes (beBytes 16 (ghash h (m.length / 16) m 0)) (aesBlock keys (padTo 12 nonce ++ beBytes 4 1))

/-- What the counter mode of GCM makes of bytes: plaintext to ciphertext, and back. -/
def gcmCrypt (keys : List (List Nat)) (nonce bs : List Byte) : List Byte :=
  xorBytes bs (gcmStream keys (padTo 12 nonce) (ceilDiv bs.length 16) 2)

/-- AES-256-GCM encryption under a 96-bit nonce: the ciphertext, then the 16-byte tag. -/
def gcmSeal (key nonce aad plain : List Byte) : List Byte :=
  let keys := aesKeys key
  let c := gcmCrypt keys nonce plain
  c ++ gcmTag keys nonce aad c

/-- AES-256-GCM decryption of a ciphertext with its tag; none where the tag fails. -/
def gcmOpen (key nonce aad cipher tag : List Byte) : Option (List Byte) :=
  let keys := aesKeys key
  if gcmTag keys nonce aad cipher = tag then some (gcmCrypt keys nonce cipher) else none

/-! ### CTR_DRBG with AES-256 and no derivation function (R344) -/

/-- n blocks of output, and the counter after them. -/
def drbgBlocks (keys : List (List Nat)) : Nat → Nat → List Byte × Nat
  | 0, v => ([], v)
  | n + 1, v =>
    let v := (v + 1) % pow2 128
    let r := drbgBlocks keys n v
    (aesBlock keys (beBytes 16 v) ++ r.1, r.2)

/-- The working state, Key and V, after provided data of 48 bytes. -/
def drbgUpdate (key v data : List Byte) : List Byte × List Byte :=
  let t := xorBytes (drbgBlocks (aesKeys key) 3 (beNat v)).1 data
  (t.take 32, t.drop 32)

/-- The working state that 48 bytes of entropy give. -/
def drbgSeed (entropy : List Byte) : List Byte × List Byte := drbgUpdate (List.replicate 32 0) (List.replicate 16 0) entropy

/-- One request for n bytes: the bytes, and the state after it. -/
def drbgRequest (kv : List Byte × List Byte) (n : Nat) : List Byte × (List Byte × List Byte) :=
  let r := drbgBlocks (aesKeys kv.1) (ceilDiv n 16) (beNat kv.2)
  (r.1.take n, drbgUpdate kv.1 (beBytes 16 r.2) (List.replicate 48 0))

/-- n bytes in requests of at most 65,536. -/
def drbgDraw : Nat → Nat → (List Byte × List Byte) → List Byte × (List Byte × List Byte)
  | 0, _, kv => ([], kv)
  | k + 1, n, kv =>
    if n = 0 then ([], kv)
    else
      let r := drbgRequest kv (min n 65536)
      let x := drbgDraw k (n - 65536) r.2
      (r.1 ++ x.1, x.2)

end Sys2Proof.Machine
end

