-- ==== Sys2Proof/Machine/Curve.lean ====
section
/-!
DEFINITION. The curve P-384 (FIPS 186-5, SP 800-186), its Diffie–Hellman function and deterministic ECDSA with SHA-384, the functions of those standards that the manual names (R345, R349, R356, R358; PRESUMED, log 12).
-/

namespace Sys2Proof.Machine

open Sys2Proof

namespace P384
/-- The prime of the field. -/
def p : Nat := 2 ^ 384 - 2 ^ 128 - 2 ^ 96 + 2 ^ 32 - 1
/-- Order of the base point. -/
def n : Nat := 0xFFFFFFFFFFFFFFFFFFFFFFFFFFFFFFFFFFFFFFFFFFFFFFFFC7634D81F4372DDF581A0DB248B0A77AECEC196ACCC52973
/-- The coefficient b; a is −3. -/
def b : Nat := 0xB3312FA7E23EE7E4988E056BE3F82D19181D9C6EFE8141120314088F5013875AC656398D8A2ED19D2A85C8EDD3EC2AEF
/-- Base point, x. -/
def gx : Nat := 0xAA87CA22BE8B05378EB1C71EF320AD746E1D3B628BA79B9859F741E082542A385502F25DBF55296C3A545E3872760AB7
/-- Base point, y. -/
def gy : Nat := 0x3617DE4A96262C6F5D9E98BF9292DC29F8F41DBD289A147CE9DA3113B5F0B8C00A60B1CE1D7E819D7A431D7C90EA0E5F
end P384

/-- x^e modulo m, by the low k bits of e. -/
def powMod (m x e : Nat) : Nat → Nat
  | 0 => 1 % m
  | k + 1 => let r := powMod m x (e / 2) k; if e % 2 = 1 then r * r % m * x % m else r * r % m

/-- Inverse modulo a prime of 384 bits. -/
def invMod (m x : Nat) : Nat := powMod m x (m - 2) 384

/-- a − b modulo m. -/
def subMod (m a b : Nat) : Nat := (a + (m - b % m)) % m

/-- A point in Jacobian coordinates: (X, Y, Z) stands for (X/Z², Y/Z³), Z = 0 for the point at infinity. -/
abbrev JPoint := Nat × Nat × Nat

/-- Double a point. -/
def ecDouble (a : JPoint) : JPoint :=
  let q := P384.p
  let (x, y, z) := a
  if z = 0 ∨ y = 0 then (1, 1, 0)
  else
    let zz := z * z % q
    let m := 3 * (subMod q x zz) % q * ((x + zz) % q) % q
    let yy := y * y % q
    let s := 4 * x * yy % q
    let x3 := subMod q (m * m) (2 * s)
    (x3, subMod q (m * subMod q s x3) (8 * (yy * yy % q)), 2 * y * z % q)

/-- Add two points. -/
def ecAdd (a b : JPoint) : JPoint :=
  let q := P384.p
  let (x1, y1, z1) := a
  let (x2, y2, z2) := b
  if z1 = 0 then b
  else if z2 = 0 then a
  else
    let z1z1 := z1 * z1 % q
    let z2z2 := z2 * z2 % q
    let u1 := x1 * z2z2 % q
    let u2 := x2 * z1z1 % q
    let s1 := y1 * z2 % q * z2z2 % q
    let s2 := y2 * z1 % q * z1z1 % q
    if u1 = u2 then (if s1 = s2 then ecDouble a else (1, 1, 0))
    else
      let h := subMod q u2 u1
      let r := subMod q s2 s1
      let hh := h * h % q
      let hhh := h * hh % q
      let v := u1 * hh % q
      let x3 := subMod q (r * r) (hhh + 2 * v)
      (x3, subMod q (r * subMod q v x3) (s1 * hhh), h * z1 % q * z2 % q)

/-- k·P, by the low i bits of k. -/
def ecMul (p : JPoint) (k : Nat) : Nat → JPoint
  | 0 => (1, 1, 0)
  | i + 1 => let r := ecDouble (ecMul p (k / 2) i); if k % 2 = 1 then ecAdd r p else r

/-- Affine coordinates; none at infinity. -/
def ecAffine (a : JPoint) : Option (Nat × Nat) :=
  let q := P384.p
  let (x, y, z) := a
  if z = 0 then none
  else
    let i := invMod q z
    some (x * (i * i % q) % q, y * (i * i % q * i % q) % q)

/-- The base point. -/
def ecBase : JPoint := (P384.gx, P384.gy, 1)

/-- A point as 97 bytes, uncompressed. -/
def ecEncode (a : JPoint) : List Byte :=
  match ecAffine a with
  | some (x, y) => 0x04 :: beBytes 48 x ++ beBytes 48 y
  | none => List.replicate 97 0

/-- The point that 97 bytes name, where they name one of the curve. -/
def ecDecode (b : List Byte) : Option JPoint :=
  let q := P384.p
  let x := beNat (slice b 1 48)
  let y := beNat (slice b 49 48)
  if b.length = 97 ∧ byteAt b 0 = 4 ∧ x < q ∧ y < q ∧ y * y % q = (x * x % q * x + (q - 3) * x + P384.b) % q then some (x, y, 1) else none

/-- Public key of a private key. -/
def ecPublic (d : Nat) : List Byte := ecEncode (ecMul ecBase d 384)

/-- The 48-byte x-coordinate of ECDH; none where the other's key is no point of the curve. -/
def ecdh (d : Nat) (pub : List Byte) : Option (List Byte) :=
  (ecDecode pub).bind (fun p => (ecAffine (ecMul p d 384)).map (fun a => beBytes 48 a.1))

/-- The private key that 64 bytes give (R345). -/
def ecPrivate (b : List Byte) : Nat := beNat b % (P384.n - 1) + 1

/-! ### Deterministic ECDSA (FIPS 186-5 with SHA-384; R345, R349) -/

/-- The signature of a digest with a per-message secret k, r ‖ s; none where k does not serve. -/
def ecdsaWith (d e k : Nat) : Option (List Byte) :=
  let n := P384.n
  if k = 0 ∨ n ≤ k then none
  else match ecAffine (ecMul ecBase k 384) with
  | none => none
  | some (x, _) =>
    let r := x % n
    let s := invMod n k * ((e + r * d) % n) % n
    if r = 0 ∨ s = 0 then none else some (beBytes 48 r ++ beBytes 48 s)

/-- Candidates for k in turn from the HMAC generator's key and value. -/
def ecdsaTry (d e : Nat) : Nat → List Byte → List Byte → List Byte
  | 0, _, _ => List.replicate 96 0
  | f + 1, key, v =>
    let v := hmac384 key v
    match ecdsaWith d e (beNat v) with
    | some s => s
    | none =>
      let key := hmac384 key (v ++ [0x00])
      ecdsaTry d e f key (hmac384 key v)

/-- ES384 signature of a message, 96 bytes r ‖ s. -/
def ecdsaSign (d : Nat) (msg : List Byte) : List Byte :=
  let h := sha384 msg
  let e := beNat h
  let seed := beBytes 48 d ++ beBytes 48 (e % P384.n)
  let v := List.replicate 48 (0x01 : Byte)
  let k := hmac384 (List.replicate 48 0) (v ++ [0x00] ++ seed)
  let v := hmac384 k v
  let k := hmac384 k (v ++ [0x01] ++ seed)
  let v := hmac384 k v
  ecdsaTry d e 64 k v

end Sys2Proof.Machine
end

