-- ==== Sys2Proof/Machine/Kem.lean ====
section
/-!
DEFINITION. ML-KEM-1024 (FIPS 203) over SHA-3 and SHAKE (FIPS 202), the functions of those standards that the manual names (R345, R356, R358; PRESUMED, log 12).
A polynomial is a list of 256 coefficients below q.
-/

namespace Sys2Proof.Machine

open Sys2Proof

/-! ### Keccak -/

/-- Round constants of Keccak-f[1600]. -/
def keccakRC : List Nat :=
  [0x0000000000000001, 0x0000000000008082, 0x800000000000808A, 0x8000000080008000, 0x000000000000808B, 0x0000000080000001,
   0x8000000080008081, 0x8000000000008009, 0x000000000000008A, 0x0000000000000088, 0x0000000080008009, 0x000000008000000A] ++
  [0x000000008000808B, 0x800000000000008B, 0x8000000000008089, 0x8000000000008003, 0x8000000000008002, 0x8000000000000080,
   0x000000000000800A, 0x800000008000000A, 0x8000000080008081, 0x8000000000008080, 0x0000000080000001, 0x8000000080008008]

/-- Rotation of the lane at x + 5y. -/
def keccakRot : List Nat := [0, 1, 62, 28, 27, 36, 44, 6, 55, 20, 3, 10, 43, 25, 39, 41, 45, 15, 21, 8, 18, 2, 61, 56, 14]

/-- Rotate left in 64 bits. -/
def rotl (n x : Nat) : Nat := ((x <<< n) % pow2 64) ||| (x >>> (64 - n))

/-- One round over the 25 lanes. -/
def keccakRound (a : List Nat) (rc : Nat) : List Nat :=
  let l (s : List Nat) (i : Nat) : Nat := s.getD i 0
  let c := (List.range 5).map (fun x => l a x ^^^ l a (x + 5) ^^^ l a (x + 10) ^^^ l a (x + 15) ^^^ l a (x + 20))
  let d := (List.range 5).map (fun x => l c ((x + 4) % 5) ^^^ rotl 1 (l c ((x + 1) % 5)))
  let a := a.zipIdx.map (fun x => x.1 ^^^ l d (x.2 % 5))
  let b := (List.range 25).map (fun i =>
    let j := (i % 5 + 3 * (i / 5)) % 5 + 5 * (i % 5)
    rotl (keccakRot.getD j 0) (l a j))
  (List.range 25).map (fun i =>
    let at_ (k : Nat) : Nat := l b ((i % 5 + k) % 5 + 5 * (i / 5))
    at_ 0 ^^^ (not64 (at_ 1) &&& at_ 2) ^^^ (if i = 0 then rc else 0))

/-- Keccak-f[1600]. -/
def keccakF (a : List Nat) : List Nat := keccakRC.foldl keccakRound a

/-- Absorb n blocks of `rate` bytes. -/
def keccakAbsorb (rate : Nat) : Nat → List Byte → List Nat → List Nat
  | 0, _, a => a
  | n + 1, bs, a =>
    keccakAbsorb rate n (bs.drop rate) (keccakF (a.zipIdx.map (fun x => if x.2 < rate / 8 then x.1 ^^^ field bs (8 * x.2) 8 else x.1)))

/-- Squeeze n blocks of `rate` bytes. -/
def keccakSqueeze (rate : Nat) : Nat → List Nat → List Byte
  | 0, _ => []
  | n + 1, a => (a.take (rate / 8)).flatMap (leBytes 8) ++ keccakSqueeze rate n (keccakF a)

/-- The sponge: `suffix` is the domain bits and the first bit of the padding. -/
def sponge (rate suffix : Nat) (bs : List Byte) (n : Nat) : List Byte :=
  let k := bs.length / rate + 1
  let m := padTo (k * rate) (bs ++ [BitVec.ofNat 8 suffix])
  let m := m.dropLast ++ [(m.getLastD 0) ||| 0x80]
  (keccakSqueeze rate (ceilDiv n rate) (keccakAbsorb rate k m (List.replicate 25 0))).take n

/-- SHA3-256. -/
def sha3_256 (bs : List Byte) : List Byte := sponge 136 0x06 bs 32
/-- SHA3-512. -/
def sha3_512 (bs : List Byte) : List Byte := sponge 72 0x06 bs 64
/-- SHAKE128. -/
def shake128 (bs : List Byte) (n : Nat) : List Byte := sponge 168 0x1F bs n
/-- SHAKE256. -/
def shake256 (bs : List Byte) (n : Nat) : List Byte := sponge 136 0x1F bs n

/-! ### Polynomials -/
namespace Kem
/-- q. -/
abbrev q : Nat := 3329
/-- A polynomial. -/
abbrev Poly := List Nat

/-- x^e modulo q, by repeated multiplication in e steps. -/
def pow (x : Nat) : Nat → Nat
  | 0 => 1
  | e + 1 => pow x e * x % q

/-- Seven bits reversed. -/
def rev7 (i : Nat) : Nat := (List.range 7).foldl (fun r k => 2 * r + i / pow2 k % 2) 0

/-- a + b. -/
def add (a b : Poly) : Poly := List.zipWith (fun x y => (x + y) % q) a b
/-- a − b. -/
def sub (a b : Poly) : Poly := List.zipWith (fun x y => (x + q - y) % q) a b

/-- The number-theoretic transform: `d` levels more, at node i of the tree of halves. -/
def nttGo : Nat → Nat → Poly → Poly
  | 0, _, f => f
  | d + 1, i, f =>
    let h := f.length / 2
    let t := (f.drop h).map (fun x => x * pow 17 (rev7 i) % q)
    nttGo d (2 * i) (add (f.take h) t) ++ nttGo d (2 * i + 1) (sub (f.take h) t)

/-- Its inverse, but for the factor 128. -/
def unttGo : Nat → Nat → Poly → Poly
  | 0, _, f => f
  | d + 1, i, f =>
    let h := f.length / 2
    let a := unttGo d (2 * i) (f.take h)
    let b := unttGo d (2 * i + 1) (f.drop h)
    add a b ++ (sub a b).map (fun x => x * pow 17 (256 - rev7 i) % q)

/-- NTT. -/
def ntt (f : Poly) : Poly := nttGo 7 1 f
/-- Inverse NTT. -/
def untt (f : Poly) : Poly := (unttGo 7 1 f).map (fun x => x * 3303 % q)

/-- Product of two transforms. -/
def mul (a b : Poly) : Poly :=
  (List.range 128).flatMap (fun i =>
    let l (f : Poly) (k : Nat) : Nat := f.getD (2 * i + k) 0
    [(l a 0 * l b 0 + l a 1 * l b 1 % q * pow 17 (2 * rev7 i + 1)) % q, (l a 0 * l b 1 + l a 1 * l b 0) % q])

/-- Sum of products of two vectors of transforms. -/
def dot (a b : List Poly) : Poly := (List.zipWith mul a b).foldl add (List.replicate 256 0)

/-- Bits of bytes, the lowest first. -/
def bits (bs : List Byte) : List Nat := bs.flatMap (fun b => (List.range 8).map (fun k => b.toNat / pow2 k % 2))

/-- Coefficients as d bits each. -/
def encode (d : Nat) (f : Poly) : List Byte := leBytes (32 * d) ((f.reverse).foldl (fun n x => n * pow2 d + x % pow2 d) 0)
/-- 256 coefficients of d bits. -/
def decode (d : Nat) (bs : List Byte) : Poly :=
  let n := leNat (bs.take (32 * d))
  (List.range 256).map (fun i => (n >>> (d * i)) % pow2 d)
/-- Compress to d bits. -/
def compress (d x : Nat) : Nat := (2 * pow2 d * x + q) / (2 * q) % pow2 d
/-- Decompress from d bits. -/
def decompress (d y : Nat) : Nat := (2 * q * y + pow2 d) / (2 * pow2 d)

/-- Candidates below q of a byte stream, three bytes at a time: n groups. -/
def accept : Nat → List Byte → List Nat
  | 0, _ => []
  | n + 1, bs =>
    let c (i : Nat) : Nat := byteAt bs i
    ([c 0 + 256 * (c 1 % 16), c 1 / 16 + 16 * c 2].filter (· < q)) ++ accept n (bs.drop 3)

/-- A uniform transform from a seed and two indices. Sixteen blocks give 256 candidates but with a chance below 2^−256. -/
def sample (rho : List Byte) (j i : Nat) : Poly :=
  padTo' ((accept 896 (shake128 (rho ++ [BitVec.ofNat 8 j, BitVec.ofNat 8 i]) 2688)).take 256)
where
  /-- Fill with zeros. -/
  padTo' (l : List Nat) : List Nat := l ++ List.replicate (256 - l.length) 0

/-- A polynomial of the centred binomial distribution, η = 2, from a seed and a number. -/
def noise (seed : List Byte) (k : Nat) : Poly :=
  let b := bits (shake256 (seed ++ [BitVec.ofNat 8 k]) 128)
  (List.range 256).map (fun i => (b.getD (4 * i) 0 + b.getD (4 * i + 1) 0 + q - b.getD (4 * i + 2) 0 - b.getD (4 * i + 3) 0) % q)

/-- Row i of the matrix, or its column. -/
def row (rho : List Byte) (i : Nat) (column : Bool) : List Poly := (List.range 4).map (fun j => if column then sample rho i j else sample rho j i)

/-- The four polynomials of a key, twelve bits a coefficient. -/
def vector (bs : List Byte) : List Poly := (List.range 4).map (fun i => decode 12 (bs.drop (384 * i)))

/-- K-PKE.KeyGen: the encryption and decryption keys. -/
def pkeKeys (d : List Byte) : List Byte × List Byte :=
  let g := sha3_512 (d ++ [4])
  let rho := g.take 32
  let sigma := g.drop 32
  let s := (List.range 4).map (fun i => ntt (noise sigma i))
  let t := (List.range 4).map (fun i => add (dot (row rho i false) s) (ntt (noise sigma (4 + i))))
  (t.flatMap (encode 12) ++ rho, s.flatMap (encode 12))

/-- K-PKE.Encrypt. -/
def pkeEncrypt (ek m r : List Byte) : List Byte :=
  let rho := slice ek 1536 32
  let y := (List.range 4).map (fun i => ntt (noise r i))
  let u := (List.range 4).map (fun i => add (untt (dot (row rho i true) y)) (noise r (4 + i)))
  let mu := (decode 1 m).map (decompress 1)
  let v := add (add (untt (dot (vector ek) y)) (noise r 8)) mu
  u.flatMap (fun f => encode 11 (f.map (compress 11))) ++ encode 5 (v.map (compress 5))

/-- K-PKE.Decrypt. -/
def pkeDecrypt (dk c : List Byte) : List Byte :=
  let u := (List.range 4).map (fun i => ntt ((decode 11 (c.drop (352 * i))).map (decompress 11)))
  let v := (decode 5 (c.drop 1408)).map (decompress 5)
  encode 1 ((sub v (untt (dot (vector dk) u))).map (compress 1))

end Kem

/-- ML-KEM.KeyGen_internal: the encapsulation key, 1,568 bytes, and the decapsulation key. -/
def kemKeys (d z : List Byte) : List Byte × List Byte :=
  let k := Kem.pkeKeys d
  (k.1, k.2 ++ k.1 ++ sha3_256 k.1 ++ z)

/-- ML-KEM.Encaps_internal: the secret and the ciphertext, 1,568 bytes. -/
def kemEncaps (ek m : List Byte) : List Byte × List Byte :=
  let g := sha3_512 (m ++ sha3_256 ek)
  (g.take 32, Kem.pkeEncrypt ek m (g.drop 32))

/-- ML-KEM.Decaps: the secret. -/
def kemDecaps (dk c : List Byte) : List Byte :=
  let ek := slice dk 1536 1568
  let m := Kem.pkeDecrypt dk c
  let g := sha3_512 (m ++ slice dk 3104 32)
  if Kem.pkeEncrypt ek m (g.drop 32) = c then g.take 32 else shake256 (slice dk 3136 32 ++ c) 32

end Sys2Proof.Machine
end

