-- ==== Sys2Proof/Machine/Lms.lean ====
section
/-!
DEFINITION. SHA-256 (FIPS 180-4) and HSS with two levels of LMS_SHA256_M32_H15 over LMOTS_SHA256_N32_W4 (RFC 8554), the functions that the manual names (R345, R346, R349, R350; PRESUMED, log 12).
-/

namespace Sys2Proof.Machine

open Sys2Proof

/-! ### SHA-256 -/

/-- Round constants. -/
def sha256K : List Nat := (primes80.take 64).map (fun p => icbrtGo (p * pow2 96) 36 0 % pow2 32)
/-- Initial value. -/
def sha256Init : List Nat := (primes80.take 8).map (fun p => isqrtGo (p * pow2 64) 37 0 % pow2 32)
/-- Rotate right in 32 bits. -/
def rotr32 (n x : Nat) : Nat := (x >>> n) ||| (x <<< (32 - n)) % pow2 32

/-- Message schedule: sixteen words, then n more, newest first. -/
def sha256Schedule : Nat → List Nat → List Nat
  | 0, w => w
  | n + 1, w =>
    let w2 := w.getD 1 0
    let w15 := w.getD 14 0
    let s0 := rotr32 7 w15 ^^^ rotr32 18 w15 ^^^ (w15 >>> 3)
    let s1 := rotr32 17 w2 ^^^ rotr32 19 w2 ^^^ (w2 >>> 10)
    sha256Schedule n (((w.getD 15 0 + s0 + w.getD 6 0 + s1) % pow2 32) :: w)

/-- One round over the eight working words. -/
def sha256Round (v : List Nat) (kw : Nat × Nat) : List Nat :=
  match v with
  | [a, b, c, d, e, f, g, h] =>
    let t1 := h + (rotr32 6 e ^^^ rotr32 11 e ^^^ rotr32 25 e) + ((e &&& f) ^^^ ((pow2 32 - 1 - e) &&& g)) + kw.1 + kw.2
    let t2 := (rotr32 2 a ^^^ rotr32 13 a ^^^ rotr32 22 a) + ((a &&& b) ^^^ (a &&& c) ^^^ (b &&& c))
    [(t1 + t2) % pow2 32, a, b, c, (d + t1) % pow2 32, e, f, g]
  | _ => v

/-- Blocks of 64 bytes in order. -/
def sha256Blocks : Nat → List Byte → List Nat → List Nat
  | 0, _, v => v
  | n + 1, bs, v =>
    let w := (List.range 16).map (fun i => beNat (slice bs (4 * i) 4))
    let ws := (sha256Schedule 48 w.reverse).reverse
    sha256Blocks n (bs.drop 64) (List.zipWith (fun a b => (a + b) % pow2 32) v ((sha256K.zip ws).foldl sha256Round v))

/-- SHA-256 of bytes. -/
def sha256 (bs : List Byte) : List Byte :=
  let n := bs.length
  let m := bs ++ [0x80] ++ List.replicate ((64 - (n + 9) % 64) % 64) 0 ++ beBytes 8 (8 * n)
  (sha256Blocks (m.length / 64) m sha256Init).flatMap (beBytes 4)

/-! ### LM-OTS -/

/-- Element i of the one-time private key of leaf q (RFC 8554, Appendix A). -/
def otsSecret (id seed : List Byte) (q i : Nat) : List Byte := sha256 (id ++ beBytes 4 q ++ beBytes 2 i ++ [0xFF] ++ seed)

/-- Steps j, j + 1, … of a chain: n of them. -/
def otsChain (id : List Byte) (q i : Nat) : Nat → Nat → List Byte → List Byte
  | 0, _, x => x
  | n + 1, j, x => otsChain id q i n (j + 1) (sha256 (id ++ beBytes 4 q ++ beBytes 2 i ++ beBytes 1 j ++ x))

/-- The one-time public key of leaf q. -/
def otsPublic (id seed : List Byte) (q : Nat) : List Byte :=
  sha256 (id ++ beBytes 4 q ++ [0x80, 0x80] ++ (List.range 67).flatMap (fun i => otsChain id q i 15 0 (otsSecret id seed q i)))

/-- The 67 digits of four bits of a digest and its checksum. -/
def otsDigits (d : List Byte) : List Nat :=
  let nib (bs : List Byte) : List Nat := bs.flatMap (fun b => [b.toNat / 16, b.toNat % 16])
  let m := nib d
  m ++ (nib (beBytes 2 (16 * (m.map (15 - ·)).foldl (· + ·) 0))).take 3

/-- One-time signature of a message with a randomizer. -/
def otsSign (id seed : List Byte) (q : Nat) (c msg : List Byte) : List Byte :=
  let d := sha256 (id ++ beBytes 4 q ++ [0x81, 0x81] ++ c ++ msg)
  beBytes 4 3 ++ c ++ ((otsDigits d).zipIdx).flatMap (fun x => otsChain id q x.2 x.1 0 (otsSecret id seed q x.2))

/-! ### LMS, height 15 -/

/-- Node r of a tree, h levels above its leaves. -/
def lmsNode (id seed : List Byte) : Nat → Nat → List Byte
  | 0, r => sha256 (id ++ beBytes 4 r ++ [0x82, 0x82] ++ otsPublic id seed (r - 32768))
  | h + 1, r => sha256 (id ++ beBytes 4 r ++ [0x83, 0x83] ++ lmsNode id seed h (2 * r) ++ lmsNode id seed h (2 * r + 1))

/-- Public key of a tree, 56 bytes. -/
def lmsPublic (id seed : List Byte) : List Byte := beBytes 4 7 ++ beBytes 4 3 ++ id ++ lmsNode id seed 15 1

/-- Signature with leaf q of a tree, 2,668 bytes. -/
def lmsSign (id seed : List Byte) (q : Nat) (c msg : List Byte) : List Byte :=
  beBytes 4 q ++ otsSign id seed q c msg ++ beBytes 4 7 ++
  (List.range 15).flatMap (fun h => let r := (32768 + q) / pow2 h; lmsNode id seed h (if r % 2 = 0 then r + 1 else r - 1))

/-- A two-level signature from its parts: the count of signed public keys, the top signature, the bottom public key, the bottom signature (R350). -/
def hssOf (top bottomKey bottom : List Byte) : List Byte := beBytes 4 1 ++ top ++ bottomKey ++ bottom

end Sys2Proof.Machine
end

