-- ==== Sys2Proof/Machine/Cose.lean ====
section
/-!
DEFINITION. CBOR (RFC 8949), the COSE_Sign objects of R349 (RFC 9052), and the certificates and reports they carry (R347, R354, R355, R360).
-/

namespace Sys2Proof.Machine

open Sys2Proof

/-- The bytes of an ASCII label. -/
def label (s : String) : List Byte := s.toList.map (fun c => BitVec.ofNat 8 c.toNat)

/-! ### Writing CBOR -/

/-- The head of an item: its major type and argument. -/
def cborHead (major n : Nat) : List Byte :=
  let b (x : Nat) : Byte := BitVec.ofNat 8 (32 * major + x)
  if n < 24 then [b n] else if n < 256 then b 24 :: beBytes 1 n else if n < 65536 then b 25 :: beBytes 2 n
  else if n < pow2 32 then b 26 :: beBytes 4 n else b 27 :: beBytes 8 n
/-- An unsigned integer. -/
def cborUint (n : Nat) : List Byte := cborHead 0 n
/-- A byte string. -/
def cborBytes (bs : List Byte) : List Byte := cborHead 2 bs.length ++ bs
/-- A text string. -/
def cborText (s : String) : List Byte := cborHead 3 (label s).length ++ label s
/-- An array of encoded items. -/
def cborArray (l : List (List Byte)) : List Byte := cborHead 4 l.length ++ l.flatten
/-- A map of unsigned keys to encoded items. -/
def cborMap (l : List (Nat × List Byte)) : List Byte := cborHead 5 l.length ++ l.flatMap (fun p => cborUint p.1 ++ p.2)
/-- A Bool. -/
def cborBool (b : Bool) : List Byte := [if b then 0xF5 else 0xF4]

/-! ### Reading CBOR -/

/-- The head of the first item: its major type, its argument, and the bytes after it. -/
def cborRead (bs : List Byte) : Option (Nat × Nat × List Byte) :=
  match bs with
  | [] => none
  | b :: t =>
    let a := b.toNat % 32
    let n := if a < 24 then 0 else if a = 24 then 1 else if a = 25 then 2 else if a = 26 then 4 else 8
    if 27 < a ∨ t.length < n then none else some (b.toNat / 32, if a < 24 then a else beNat (t.take n), t.drop n)

/-- The bytes after k whole items; `fuel` bounds the items met. -/
def cborSkip : Nat → Nat → List Byte → Option (List Byte)
  | _, 0, bs => some bs
  | 0, _ + 1, _ => none
  | f + 1, k + 1, bs =>
    match cborRead bs with
    | none => none
    | some (m, n, t) =>
      if m = 2 ∨ m = 3 then (if t.length < n then none else cborSkip f k (t.drop n))
      else if m = 4 then cborSkip f (k + n) t
      else if m = 5 then cborSkip f (k + 2 * n) t
      else if m = 6 then cborSkip f (k + 1) t
      else cborSkip f k t

/-- The first item, whole. -/
def cborItem (bs : List Byte) : Option (List Byte) := (cborSkip bs.length 1 bs).map (fun r => bs.take (bs.length - r.length))

/-- Items of a run of k, whole; none where one is cut. -/
def cborItems : Nat → List Byte → Option (List (List Byte))
  | 0, _ => some []
  | k + 1, bs => (cborItem bs).bind (fun i => (cborItems k (bs.drop i.length)).map (fun r => i :: r))

/-- An unsigned integer. -/
def asUint (i : List Byte) : Option Nat := match cborRead i with | some (0, n, _) => some n | _ => none
/-- The negative integer −1 − n: n. -/
def asNint (i : List Byte) : Option Nat := match cborRead i with | some (1, n, _) => some n | _ => none
/-- A byte string. -/
def asBytes (i : List Byte) : Option (List Byte) := match cborRead i with | some (2, n, t) => some (t.take n) | _ => none
/-- The items of an array. -/
def asArray (i : List Byte) : Option (List (List Byte)) := match cborRead i with | some (4, n, t) => if i.length < n then none else cborItems n t | _ => none
/-- Keys and values of a map, in turn. -/
def asMap (i : List Byte) : Option (List (List Byte)) := match cborRead i with | some (5, n, t) => if i.length < n then none else cborItems (2 * n) t | _ => none

/-- The value of an unsigned key among keys and values in turn. -/
def mapValue (k : Nat) : List (List Byte) → Option (List Byte)
  | a :: v :: t => if asUint a = some k then some v else mapValue k t
  | _ => none

/-- The value of an unsigned key of a map. -/
def mapGet (m : List Byte) (k : Nat) : Option (List Byte) := (asMap m).bind (mapValue k)
/-- A byte string of a map. -/
def mapBytes (m : List Byte) (k : Nat) : Option (List Byte) := (mapGet m k).bind asBytes
/-- An unsigned integer of a map. -/
def mapUint (m : List Byte) (k : Nat) : Option Nat := (mapGet m k).bind asUint

/-! ### COSE_Sign (R349) -/

/-- A COSE_Sign as read: its payload where it holds one, and of each signature its algorithm −1 − n, kid and bytes. -/
structure Cose where
  /-- Payload; none where it stands outside. -/
  payload : Option (List Byte)
  /-- Signatures. -/
  sigs : List (Nat × List Byte × List Byte)
  deriving DecidableEq, Repr

/-- One signature: its algorithm in the protected header, its kid in the other, its bytes. -/
def coseSig (i : List Byte) : Option (Nat × List Byte × List Byte) :=
  match asArray i with
  | some [p, u, s] =>
    (((asBytes p).bind (fun h => mapGet h 1)).bind asNint).bind (fun alg => (mapBytes u 4).bind (fun kid => (asBytes s).map (fun b => (alg, kid, b))))
  | _ => none

/-- All of a list of options. -/
def allSome {α : Type} : List (Option α) → Option (List α)
  | [] => some []
  | x :: t => x.bind (fun a => (allSome t).map (fun r => a :: r))

/-- Read a COSE_Sign, tag 98. -/
def coseRead (bs : List Byte) : Option Cose :=
  match cborRead bs with
  | some (6, 98, t) =>
    (match asArray t with
     | some [_, _, p, ss] => ((asArray ss).bind (fun l => allSome (l.map coseSig))).map (fun l => ⟨asBytes p, l⟩)
     | _ => none)
  | _ => none

/-- The object is one of R349: a signature of ES384 and one of HSS-LMS, of one signer, which both verify. -/
def Cose.accepted (c : Cose) (f : SigPair) : Bool :=
  c.sigs.length == 2 && c.sigs.any (fun s => s.1 == 34 && s.2.2.length == 96) && c.sigs.any (fun s => s.1 == 45) &&
  c.sigs.all (fun s => s.2.1.length == 16 && s.2.1 == (c.sigs.headD (0, [], [])).2.1) && f.ec && f.hss

/-- The signer's kid. -/
def Cose.kid (c : Cose) : List Byte := (c.sigs.headD (0, [], [])).2.1

/-- An object of R349 that must hold its own payload: the payload and the kid, where it is accepted. -/
def coseOpen (bs : List Byte) (f : SigPair) : Option (List Byte × List Byte) :=
  (coseRead bs).bind (fun c => if c.accepted f then c.payload.map (fun p => (p, c.kid)) else none)

/-- A signature block over bytes outside it is accepted. -/
def coseBlockOk (bs : List Byte) (f : SigPair) : Bool := ((coseRead bs).map (fun c => c.accepted f)).getD false

/-- The Sig_structure that a signature covers, by the protected headers and the payload. -/
def sigStructure (head alg payload : List Byte) : List Byte :=
  cborArray [cborText "Signature", cborBytes head, cborBytes alg, cborBytes [], cborBytes payload]

/-- Protected header {1: −35}. -/
def headEs384 : List Byte := [0xA1, 0x01, 0x38, 0x22]
/-- Protected header {1: −46}. -/
def headHss : List Byte := [0xA1, 0x01, 0x38, 0x2D]

/-- A COSE_Sign of a payload (tag 98): its protected header, the payload, and a signature each of −35 and −46 with the signer's kid. -/
def coseSign (head payload kid ec hss : List Byte) : List Byte :=
  let sig (alg : List Byte) (s : List Byte) : List Byte := cborArray [cborBytes alg, cborMap [(4, cborBytes kid)], cborBytes s]
  [0xD8, 0x62] ++ cborArray [cborBytes head, cborMap [], cborBytes payload, cborArray [sig headEs384 ec, sig headHss hss]]

/-! ### Certificates (R346, R347, R360) -/

/-- The four public keys of a device certificate's map, concatenated. -/
def certKeys (m : List Byte) : Option (List Byte) :=
  (allSome ((rangeFrom 4 4).map (mapBytes m))).map List.flatten

/-- The identity digest that a device certificate gives. -/
def certIdd (m : List Byte) : Option (List Byte) := (certKeys m).map sha384

/-- The payload of a certificate whose chain verifies and whose key 8 names the signer. -/
def certOpen (cert : List Byte) (f : SigPair) : Option (List Byte) :=
  (coseOpen cert f).bind (fun c => if mapBytes c.1 8 = some c.2 then some c.1 else none)

/-- The payload of a certificate, as it stands. -/
def certPayload (cert : List Byte) : List Byte := ((coseRead cert).bind (·.payload)).getD []

/-- Key 10 of an endpoint's certificate: the tenant IDs. -/
def certTenants (m : List Byte) : List Nat := (((mapGet m 10).bind asArray).getD []).filterMap asUint

/-- Part and stepping of a device certificate's or report's map. -/
def partOk (m : List Byte) : Bool := mapUint m 1 == some 0x1344 && mapUint m 2 == some 0xB0

/-! ### The nonce tree (R352) -/

/-- One level up. -/
def pairUp : List (List Byte) → List (List Byte)
  | a :: b :: t => sha384 (a ++ b) :: pairUp t
  | l => l

/-- The root over 2^n leaves. -/
def treeRoot : Nat → List (List Byte) → List Byte
  | 0, l => l.headD []
  | n + 1, l => treeRoot n (pairUp l)

/-- The sibling hashes of leaf i, from the leaf upward. -/
def siblings : Nat → Nat → List (List Byte) → List (List Byte)
  | 0, _, _ => []
  | n + 1, i, l => l.getD (if i % 2 = 0 then i + 1 else i - 1) [] :: siblings n (i / 2) (pairUp l)

/-- The root that leaf i and its sibling hashes give. -/
def rootOf : Nat → List Byte → List (List Byte) → List Byte
  | _, x, [] => x
  | i, x, h :: t => rootOf (i / 2) (sha384 (if i % 2 = 0 then x ++ h else h ++ x)) t

/-- Leaf of slot t with a nonce. -/
def nonceLeaf (t : Nat) (nonce : List Byte) : List Byte := sha384 (leBytes 2 t ++ nonce)

/-- The nonce that a candidate's report holds in slot 4,095 (R355). -/
def joinNonce (fabric g : Nat) : List Byte := (sha384 (label "mc8 join" ++ leBytes 1 fabric ++ leBytes 8 g)).take 32

end Sys2Proof.Machine
end

