-- ==== Sys2Proof/Machine/Keys.lean ====
section
/-!
DEFINITION. The node's keys (R344–R346, Table 14.1), its flash (R348, R351, R399), the link master and link keys (R358, R359), the wrapping of weight keys (R356) and of tier-2 pages (R361).
The layout of the records in the flash and of a handshake message is the model's own (DESIGN CHOICE, log 145).
-/

namespace Sys2Proof.Machine

open Sys2Proof

/-! ### Random bytes (R344) -/

/-- n bytes of the node's random bit generator. -/
def State.randomBytes (s : State) (n : Nat) : List Byte × State :=
  let r := drbgDraw (n / 65536 + 1) n s.sec.drbg
  (r.1, { s with sec := { s.sec with drbg := r.2 } })

/-- Seed the generator with 48 bytes of the entropy source. -/
def State.seedRandom (s : State) : State :=
  { s with freeCtr := s.freeCtr + 48, sec := { s.sec with drbg := drbgSeed ((List.range 48).map (fun i => Config.randomByte (s.freeCtr + i))) } }

/-- The public keys of the Abalia root in the boot ROM, ECDSA P-384 and HSS: the chain of every certificate ends under them (R344, R347). -/
def rootKeys : List Byte × List Byte := ((List.range 97).map Config.rootKeyByte, (rangeFrom 97 60).map Config.rootKeyByte)

/-! ### Keys from PR (R345, Table 14.1) -/

/-- n bytes derived from PR under a label. -/
def State.derive (s : State) (info : List Byte) (n : Nat) : List Byte := hkdf384 [] s.sec.root info n
/-- Private key of IDK-E. -/
def State.idkE (s : State) : Nat := ecPrivate (s.derive (label "mc8 idk-e") 64)
/-- Private key of DEK-E. -/
def State.dekE (s : State) : Nat := ecPrivate (s.derive (label "mc8 dek-e") 64)
/-- Key pair DEK-K. -/
def State.dekK (s : State) : List Byte × List Byte := let b := s.derive (label "mc8 dek-k") 64; kemKeys (b.take 32) (b.drop 32)
/-- I and SEED of the top tree of IDK-L. -/
def State.hssTop (s : State) : List Byte × List Byte := let b := s.derive (label "mc8 hss-top") 48; (b.take 16, b.drop 16)
/-- I and SEED of bottom tree i. -/
def State.hssBottom (s : State) (i : Nat) : List Byte × List Byte :=
  let b := s.derive (label "mc8 hss-bot" ++ leBytes 4 i) 48
  (b.take 16, b.drop 16)
/-- K_claim. -/
def State.claimKey (s : State) : List Byte := s.derive (label "mc8 claim") 48

/-- The four public keys (R346). -/
def State.publicKeys (s : State) : List Byte :=
  ecPublic s.idkE ++ (beBytes 4 2 ++ lmsPublic s.hssTop.1 s.hssTop.2) ++ ecPublic s.dekE ++ s.dekK.1

/-- The derived keys match the certificate (R347). -/
def State.identified (s : State) : Bool := s.bit Reg.secStatus 0

/-! ### The flash (R399, Table 16.4a) -/
namespace FlashMap
/-- PUF helper data. -/
abbrev helper := 0x10000
/-- Device certificate. -/
abbrev cert := 0x12000
/-- Claim record. -/
abbrev claim := 0x20000
/-- Signing records, a rotating log of 192 entries of 4 KiB. -/
abbrev records := 0x30000
/-- Firmware image and its area. -/
abbrev firmware := 0x100000
/-- Configuration image. -/
abbrev config := 0x2100000
/-- End of the configuration image's area. -/
abbrev top := 0x4000000
end FlashMap

/-- n bytes of the flash. -/
def State.flashBytes (s : State) (a n : Nat) : List Byte := (List.range n).map (fun i => BitVec.ofNat 8 (spGet 255 s.sys.flash (a + i)))
/-- Write bytes of the identity area. -/
def State.putFlash (s : State) (a : Nat) (bs : List Byte) : State :=
  { s with sys := { s.sys with flash := bs.zipIdx.foldl (fun f b => spSet 255 f (a + b.2) b.1.toNat) s.sys.flash } }

/-- Place of the signing record of bottom tree i. -/
def recordAt (i : Nat) : Nat := FlashMap.records + 4096 * (i % 192)
/-- The flash holds "top i begun". -/
def State.topBegun (s : State) (i : Nat) : Bool := leNat (s.flashBytes (recordAt i) 4) == i && s.flashBytes (recordAt i + 4) 1 == [0x01]
/-- The top signature of tree i is stored. -/
def State.topStored (s : State) (i : Nat) : Bool := s.topBegun i && s.flashBytes (recordAt i + 5) 1 == [0x01]
/-- Write "top i begun". -/
def State.beginTop (s : State) (i : Nat) : State := s.putFlash (recordAt i) (leBytes 4 i ++ [0x01, 0xFF])
/-- Store the top signature of tree i. -/
def State.storeTop (s : State) (i : Nat) (sig : List Byte) : State := (s.putFlash (recordAt i + 6) sig).putFlash (recordAt i + 5) [0x01]
/-- The stored top signature of tree i. -/
def State.topSignature (s : State) (i : Nat) : List Byte := s.flashBytes (recordAt i + 6) 2668

/-! ### Weight keys (R356, R357) -/

/-- The KEK of an entry: HKDF over Z and K, salted with set_id; none where its ephemeral key is no point of the curve. -/
def State.kekOf (s : State) (setId e : List Byte) : Option (List Byte) :=
  let c := slice e 145 1568
  (ecdh s.dekE (slice e 48 97)).map (fun z => hkdf384 setId (z ++ kemDecaps s.dekK.2 c) (label "mc8 weight" ++ e.take 48 ++ sha384 c) 32)

/-- The weight key that an entry wraps, with the manifest's bytes 0–23 as additional data; none where the tag fails. -/
def State.unwrapKey (s : State) (setId aad e : List Byte) : Option (List Byte) :=
  (s.kekOf setId e).bind (fun k => gcmOpen k (List.replicate 12 0) aad (slice e 1713 32) (slice e 1745 16))

/-! ### Link handshake (R358, R359) -/

/-- HS1 as bytes: its fields in the order of Table 14.5. -/
def hs1Bytes (m : HsMsg) : List Byte := leBytes 1 m.fabric ++ leBytes 8 m.gen ++ leBytes 2 m.sender ++ leBytes 1 m.linkNo ++ m.cert ++ m.eph

/-- This side's idd is the lower: it is side A. -/
def sideA (mine peer : List Byte) : Bool := decide (beNat mine < beNat peer)

/-- The link master, from this side's view: `peer2` is the partner's HS2; none where a key of the partner is no point of the curve. -/
def State.linkMaster (s : State) (h : Shake) (peer2 : List Byte) : Option (List Byte) :=
  let m := certPayload h.cert
  let a := sideA s.sec.idd ((certIdd m).getD [])
  let theirs := kemDecaps s.dekK.2 peer2
  let static := (mapBytes m 6).getD []
  match ecdh h.ephemeral h.eph, ecdh h.ephemeral static, ecdh s.dekE h.eph with
  | some ee, some es, some se =>
    let salt := sha384 (if a then h.mine1 ++ h.peer1 ++ h.mine2 ++ peer2 else h.peer1 ++ h.mine1 ++ peer2 ++ h.mine2)
    let ikm := if a then ee ++ es ++ se ++ h.secret ++ theirs else ee ++ se ++ es ++ theirs ++ h.secret
    some (hkdf384 salt ikm (label "mc8 link master") 48)
  | _, _, _ => none

/-- HS3 of a side (0 is A) under a link master. -/
def confirmation (master : List Byte) (side : Nat) (transcript : List Byte) : List Byte :=
  hmac384 (hkdfExpand master (label "mc8 confirm" ++ leBytes 1 side) 48) transcript

/-- HS1 ‖ HS2 of side A, then of side B. -/
def Shake.transcript (h : Shake) (a : Bool) (peer2 : List Byte) : List Byte :=
  if a then h.mine1 ++ h.mine2 ++ h.peer1 ++ peer2 else h.peer1 ++ peer2 ++ h.mine1 ++ h.mine2

/-- Key of the frames that side `from_` sends on a link under a generation, by the upper word of tx_count (R359). -/
def linkKey (master : List Byte) (fabric g from_ link hi : Nat) : List Byte :=
  hkdfExpand master (label "mc8 link" ++ leBytes 1 fabric ++ leBytes 8 g ++ leBytes 2 from_ ++ leBytes 1 link ++ leBytes 4 hi) 32

/-! ### Nonces, and what a candidate shows of itself (R352, R355) -/

/-- Queue a nonce in a slot (R352): a second one waits for the next report. -/
def State.queueNonce (s : State) (slot : Nat) (nonce : List Byte) : State :=
  match tabGet s.sec.nonces slot with
  | none => { s with sec := { s.sec with nonces := tabPut s.sec.nonces slot nonce } }
  | some _ => { s with sec := { s.sec with nonces2 := s.sec.nonces2 ++ [(slot, nonce)] } }

/-- The nonce of a JOIN joins the next report, unless one waits in slot 4,095 (log 146). -/
def State.queueJoin (s : State) : State :=
  if (tabGet s.sec.nonces 4095).isSome then s
  else (s.queueNonce 4095 (joinNonce s.map.fabricId s.map.heard)).setStatus Reg.secAttestStatus 0 0 1

/-- The device certificate is that of an identity, and its chain verifies: the identity digest. -/
def joinIdd (f : JoinFacts) (ident : Nat) : Option (List Byte) :=
  (certOpen f.cert f.chain).bind (fun c => if partOk c then (certIdd c).filter (fun i => field i 0 8 == ident) else none)

/-- A candidate's report is its own and shows in slot 4,095 one of the 8 latest generations in effect, a recent count, accepted firmware and this node's operator (R355). -/
def State.joinReportOk (s : State) (f : JoinFacts) (idd : List Byte) : Bool :=
  match coseOpen f.report f.sig with
  | none => false
  | some (r, kid) =>
    let t := (mapUint r 5).getD 0
    let span := 1048576 * (pow2 (s.fld Reg.secCfg 3 0) + 8)
    let shown (g : Nat) : Bool := mapBytes r 4 == some (rootOf 4095 (nonceLeaf 4095 (joinNonce s.map.fabricId g)) f.path)
    partOk r && kid == idd.take 16 && mapBytes r 3 == some idd && f.path.length == 12 && ((List.range 8).any (fun k => decide (k ≤ s.gen) && shown (s.gen - k))) &&
    decide (t ≤ s.now + span ∧ s.now ≤ t + span) && ((mapBytes r 7).map (fun d => s.sec.fwAccept.contains d)).getD false && mapBytes r 9 == some s.sec.operator

/-- A candidate's identity verifies (R320, R355). -/
def State.joinOk (s : State) (f : JoinFacts) (ident : Nat) : Bool := ((joinIdd f ident).map (fun i => s.joinReportOk f i)).getD false

/-! ### Tier-2 pages (R361) -/

/-- Nonce of a spilled page. -/
def spillNonce (serial : Nat) : List Byte := leBytes 8 serial ++ List.replicate 4 0

/-- Additional data of a spilled page: its place and its eight check words. -/
def spillAad (ref : PageRef) (p : Pte) : List Byte :=
  leBytes 2 ref.tenant ++ leBytes 8 ref.sid ++ leBytes 2 ref.layer ++ leBytes 2 ref.head ++ leBytes 4 ref.page ++ (p.checkK ++ p.checkV).flatMap (leBytes 4)

/-- Ciphertext and tag of a spilled page. -/
def State.sealPage (s : State) (serial : Nat) (ref : PageRef) (p : Pte) (plain : List Byte) : List Byte :=
  gcmSeal s.sec.tierKey (spillNonce serial) (spillAad ref p) plain

/-- The page that fetched bytes hold; none where the tag fails. -/
def State.openPage (s : State) (serial : Nat) (ref : PageRef) (p : Pte) (b : List Byte) : Option (List Byte) :=
  gcmOpen s.sec.tierKey (spillNonce serial) (spillAad ref p) (b.take (b.length - 16)) (b.drop (b.length - 16))

end Sys2Proof.Machine
end

