-- ==== Sys2Proof/Machine/Codec.lean ====
section
/-!
DEFINITION. The link codec (R264–R266): blocks of Table 10.8, canonical codes of at most 15 bits, package-merge lengths, and the damage tests.
-/

namespace Sys2Proof.Machine

open Sys2Proof

/-! ### Lengths (R265) -/

/-- A coin of package-merge: weight, a tie key the manual leaves open (log 11), and the symbols it holds. -/
structure Coin where
  /-- Weight. -/
  w : Nat
  /-- Order among equal weights. -/
  tie : Nat
  /-- Symbols, with repeats. -/
  syms : List Nat
  deriving DecidableEq, Repr

/-- Order of coins. -/
def Coin.before (a b : Coin) : Bool := decide (a.w < b.w ∨ (a.w = b.w ∧ a.tie ≤ b.tie))

/-- Insert in order. -/
def coinInsert (c : Coin) : List Coin → List Coin
  | [] => [c]
  | x :: t => if c.before x then c :: x :: t else x :: coinInsert c t

/-- Pair neighbours of an ordered list. -/
def coinPairs (serial : Nat) : List Coin → List Coin
  | a :: b :: t => ⟨a.w + b.w, Config.choice serial (a.w + 256 * b.w), a.syms ++ b.syms⟩ :: coinPairs serial t
  | _ => []

/-- Package-merge over n levels. -/
def packageMerge (serial : Nat) (singles : List Coin) : Nat → List Coin
  | 0 => []
  | k + 1 => (coinPairs serial (packageMerge serial singles k)).foldl (fun l c => coinInsert c l) singles

/-- Occurrences of each byte value in a block. -/
def countOf (bs : List Byte) (v : Nat) : Nat := (bs.filter (fun b => b.toNat == v)).length

/-- Code lengths of a block, by symbol (R265). -/
def codeLengths (serial : Nat) (bs : List Byte) : List Nat :=
  let present := (List.range 256).filter (fun v => decide (countOf bs v ≠ 0))
  match present with
  | [v] => (List.range 256).map (fun i => if i = v then 1 else 0)
  | _ =>
    let singles := present.foldl (fun l v => coinInsert ⟨countOf bs v, Config.choice serial v, [v]⟩ l) []
    let used := (packageMerge serial singles 15).take (2 * present.length - 2)
    let all := used.flatMap (·.syms)
    (List.range 256).map (fun i => (all.filter (· == i)).length)

/-- Canonical codes: shorter first, within a length by ascending symbol: (symbol, length, code). -/
def canonicalCodes (lens : List Nat) : List (Nat × Nat × Nat) :=
  ((rangeFrom 1 15).foldl (fun (acc : Nat × List (Nat × Nat × Nat)) l =>
    let syms := (List.range 256).filter (fun i => lens.getD i 0 == l)
    syms.foldl (fun (a : Nat × List (Nat × Nat × Nat)) v => (a.1 + 1, a.2 ++ [(v, l, a.1)])) (acc.1 * 2, acc.2)) (0, [])).2

/-- Bits of a code, most significant first. -/
def codeBits : Nat → Nat → List Bool
  | 0, _ => []
  | n + 1, c => bitOf c n :: codeBits n c

/-- Pack bits into bytes from bit 7 down, padding with zeros. -/
def packBits : Nat → List Bool → List Byte
  | 0, _ => []
  | f + 1, bits =>
    if bits.isEmpty then []
    else BitVec.ofNat 8 (((List.range 8).foldl (fun v i => v * 2 + b2n (bits.getD i false)) 0)) :: packBits f (bits.drop 8)

/-- Bits of bytes, most significant first. -/
def bitsOfBytes (bs : List Byte) : List Bool := bs.flatMap (fun b => codeBits 8 b.toNat)

/-! ### Blocks (Table 10.8) -/

/-- Header of a block. -/
def blockHead (stored last : Bool) (n coded : Nat) (crc : Nat) : List Byte :=
  leBytes 1 (b2n stored + 2 * b2n last) ++ leBytes 1 0 ++ leBytes 2 n ++ leBytes 2 coded ++ leBytes 2 0 ++ leBytes 4 crc ++ leBytes 4 0

/-- Encode one block; stored when coding would not help, or when asked (R265, R266). -/
def encodeBlock (serial : Nat) (forceStored last : Bool) (raw : List Byte) : List Byte :=
  let n := raw.length
  let lens := codeLengths serial raw
  let codes := canonicalCodes lens
  let bits := raw.flatMap (fun b => match codes.find? (fun c => c.1 == b.toNat) with | some c => codeBits c.2.1 c.2.2 | none => [])
  let table := (List.range 128).map (fun i => BitVec.ofNat 8 (lens.getD (2 * i) 0 + 16 * lens.getD (2 * i + 1) 0))
  let code := packBits (bits.length + 1) bits
  if forceStored || decide (16 + n < 16 + 128 + code.length) then blockHead true last n n (crc32c raw) ++ raw
  else blockHead false last n (128 + code.length) (crc32c raw) ++ table ++ code

/-- Encode a packet's bytes from a raw offset in blocks of 4,096: the stream and where each block begins in it, with its raw offset; as many first blocks stored as asked. -/
def encodeFrom (serial : Nat) (stored : Nat) : Nat → List Byte → Nat → Nat → List Byte × List (Nat × Nat)
  | 0, _, _, _ => ([], [])
  | f + 1, raw, rawOff, out =>
    let b := raw.take 4096
    let rest := raw.drop 4096
    let enc := encodeBlock serial (stored != 0) rest.isEmpty b
    if rest.isEmpty then (enc, [(out, rawOff)])
    else
      let r := encodeFrom serial (stored - 1) f rest (rawOff + 4096) (out + enc.length)
      (enc ++ r.1, (out, rawOff) :: r.2)

/-- What one block at the front of some bytes decodes to (R266). -/
inductive BlockRead where
  /-- More bytes are needed. -/
  | more
  | damaged
  /-- Raw bytes, the last mark, and the bytes the block takes. -/
  | ok (raw : List Byte) (last : Bool) (used : Nat)
  deriving DecidableEq, Repr

/-- Decode n symbols by canonical codes; the bits left. -/
def decodeSyms (codes : List (Nat × Nat × Nat)) : Nat → List Bool → Option (List Byte × List Bool)
  | 0, bits => some ([], bits)
  | n + 1, bits =>
    match codes.find? (fun c => decide (bits.take c.2.1 = codeBits c.2.1 c.2.2)) with
    | none => none
    | some c =>
      match decodeSyms codes n (bits.drop c.2.1) with
      | none => none
      | some r => some (BitVec.ofNat 8 c.1 :: r.1, r.2)

/-- Kraft sum in units of 2^−15. -/
def kraft (lens : List Nat) : Nat := lens.foldl (fun s l => if l = 0 then s else s + pow2 (15 - l)) 0

/-- Decode the block at the front (R266). -/
def decodeBlock (bs : List Byte) : BlockRead :=
  if bs.length < 16 then .more
  else
    let flags := byteAt bs 0
    let n := field bs 2 2
    let coded := field bs 4 2
    let crc := field bs 8 4
    let stored := bitOf flags 0
    let last := bitOf flags 1
    if flags / 4 ≠ 0 ∨ byteAt bs 1 ≠ 0 ∨ n = 0 ∨ 4096 < n ∨ 4096 < coded ∨ field bs 6 2 ≠ 0 ∨ field bs 12 4 ≠ 0 then .damaged
    else if stored ∧ coded ≠ n then .damaged
    else if bs.length < 16 + coded then .more
    else
      let body := slice bs 16 coded
      if stored then (if crc32c body = crc then .ok body last (16 + coded) else .damaged)
      else if coded < 128 then .damaged
      else
        let lens := (body.take 128).flatMap (fun b => [b.toNat % 16, b.toNat / 16])
        let single := lens.filter (· != 0) == [1]
        if !single && kraft lens != pow2 15 then .damaged
        else
          match decodeSyms (canonicalCodes lens) n (bitsOfBytes (body.drop 128)) with
          | none => .damaged
          | some r =>
            if 7 < r.2.length || r.2.any id then .damaged
            else if crc32c r.1 = crc then .ok r.1 last (16 + coded) else .damaged

end Sys2Proof.Machine
end

