-- ==== Sys2Proof/Machine/LinkOps.lean ====
section
/-!
DEFINITION. Shared operations of the fabric links (chapter 10): cabling, link states, routing, outputs, frames sent and taken, packets assembled.
-/

namespace Sys2Proof.Machine

open Sys2Proof

/-! ### Cabling and directions (R241, Table 10.1) -/

/-- A link that has never trained. -/
def Link.down : Link :=
  { state := 0, partnerId := 0x7FF, partnerLink := 0, partnerIdent := 0, shake := Shake.idle, peer2 := [], master := []
    fenced := false, hs := .none, keyed := []
    sendGen := 0, txSeq := 0, rxSeq := 0, txCount := 0, rxCount := [], creditsIn := [], spent := [], returned := []
    half := 0, kept := [], resend := [], resends := 0, ackTick := 0, nak := none, gap := false, heard := false, foreign := false, fecMinute := 0
    lastFrame := 0, lastPartner := 0x7FF, txq := [], lastLocal := [], sending := [], later := [], rx := [], recent := [], again := [], turn := 0 }

/-- Link n. -/
def State.link (s : State) (n : Nat) : Link := spGet Link.down s.lnk.links n
/-- Write link n. -/
def State.setLink (s : State) (n : Nat) (l : Link) : State :=
  { s with lnk := { s.lnk with links := spSet Link.down s.lnk.links n l } }

/-- Link state codes (Table 10.2). -/
abbrev LState.down := 0
/-- DETECT. -/
abbrev LState.detect := 1
/-- TRAIN. -/
abbrev LState.train := 2
/-- ALIGN. -/
abbrev LState.align := 3
/-- KEYED. -/
abbrev LState.keyed := 4
/-- UP. -/
abbrev LState.up := 5
/-- RETRAIN. -/
abbrev LState.retrain := 6
/-- MISWIRED. -/
abbrev LState.miswired := 7

/-- Link n is UP and not fenced by epoch. -/
def State.linkUp (s : State) (n : Nat) : Bool := (s.link n).state == LState.up && !(s.link n).fenced

/-- This node's entry in the map in effect. -/
def State.myEnt (s : State) : Option NodeEnt := s.map.cur.bind (fun m => tabGet m.nodes s.map.id)

/-- An entry of the map in effect. -/
def State.nodeEnt (s : State) (id : Nat) : Option NodeEnt := s.map.cur.bind (fun m => tabGet m.nodes id)

/-- This node is its tray's spare by position (R242). -/
def State.isSpare (s : State) : Bool := match s.myEnt with | some e => e.slot == 16 | none => s.map.nodeState == .spare

/-- Size of a torus dimension: the smallest of 1, 2, 4, 8, 16 that holds every position of the map (R242; log 7). -/
def torusSize (ps : List Nat) : Nat :=
  let m := ps.foldl max 0
  if m = 0 then 1 else if m = 1 then 2 else if m < 4 then 4 else if m < 8 then 8 else 16

/-- Sizes of X, Y, Z. -/
def State.sizes (s : State) : Nat × Nat × Nat :=
  match s.map.cur with
  | none => (16, 8, 8)
  | some m => (16, torusSize (m.nodes.map (fun p => p.2.y)), torusSize (m.nodes.map (fun p => p.2.z)))

/-- Links of an output code; the X position is that of the via node for code 11 (Tables 10.1, 10.7). -/
def dirLinks (code x : Nat) : List Nat :=
  if code < 6 then rangeFrom (8 * code) 8 else if code = 6 then rangeFrom 48 4 else if code = 7 then [52, 53]
  else if code = 8 then [54, 55] else if code = 9 then rangeFrom 56 4 else if code = 11 then rangeFrom (4 * x) 4 else []

/-- Dimension of an output code: 0 X, 1 Y, 2 Z, 3 other (R256). -/
def codeDim (code : Nat) : Nat :=
  if code ≤ 1 ∨ code = 6 then 0 else if code = 2 ∨ code = 3 ∨ code = 7 then 1
  else if code = 4 ∨ code = 5 ∨ code = 8 then 2 else 3

/-- Output code of the direction a link belongs to; 12 for an edge link. -/
def linkCode (n : Nat) : Nat :=
  if n < 48 then n / 8 else if n < 52 then 6 else if n < 54 then 7 else if n < 56 then 8 else if n < 60 then 9 else 12

/-- The express links of dimension d, of a size, are used: those of a dimension of size 1 or 2 are not, nor those of X in a fabric of a single tray (R242; log 44). -/
def expressUsed (sy sz d size : Nat) : Bool := if d = 0 then !(sy == 1 && sz == 1) else decide (4 ≤ size)

/-- Position and link expected at the far end of link n of a node at a position: an express link's is antipodal (Table 10.1, R241); none for the spare's, edge and unused links. -/
def farEnd (sx sy sz : Nat) (e : NodeEnt) (n : Nat) : Option (Nat × Nat × Nat × Nat) :=
  if n < 8 then some ((e.x + 1) % sx, e.y, e.z, n + 8)
  else if n < 16 then some ((e.x + sx - 1) % sx, e.y, e.z, n - 8)
  else if n < 24 then some (e.x, (e.y + 1) % sy, e.z, n + 8)
  else if n < 32 then some (e.x, (e.y + sy - 1) % sy, e.z, n - 8)
  else if n < 40 then some (e.x, e.y, (e.z + 1) % sz, n + 8)
  else if n < 48 then some (e.x, e.y, (e.z + sz - 1) % sz, n - 8)
  else if n < 52 then (if expressUsed sy sz 0 sx then some ((e.x + sx / 2) % sx, e.y, e.z, n) else none)
  else if n < 54 then (if expressUsed sy sz 1 sy then some (e.x, (e.y + sy / 2) % sy, e.z, n) else none)
  else if n < 56 then (if expressUsed sy sz 2 sz then some (e.x, e.y, (e.z + sz / 2) % sz, n) else none)
  else none

/-- Link n of a node at a place leads to link l of another by the cabling (Table 10.1, R241–R243). -/
def wired (sz : Nat × Nat × Nat) (e p : NodeEnt) (n l : Nat) : Bool :=
  if e.slot = 16 then p.slot != 16 && p.tray == e.tray && p.x == n / 4 && l == 56 + n % 4
  else if 56 ≤ n then p.slot == 16 && p.tray == e.tray && l == 4 * e.x + n % 4
  else
    match farEnd sz.1 sz.2.1 sz.2.2 e n with
    | some (x, y, z, k) => p.x == x && p.y == y && p.z == z && l == k && p.slot != 16
    | none => true

/-- The partner matches Table 10.1 and the map (R243); what the map does not hold cannot differ (log 7). -/
def State.cabled (s : State) (n partner partnerLink : Nat) : Bool :=
  if 60 ≤ n && !s.isSpare then
    if s.map.id = 0x7FF then decide (0x8000 ≤ partner) || (decide (56 ≤ partnerLink ∧ partnerLink < 60) && partnerLink % 4 == n % 4)
    else partner == 0x8000 + 16 * s.map.id + (n - 60)
  else
    match s.myEnt, s.nodeEnt partner with
    | some e, some p => wired s.sizes e p n partnerLink
    | _, _ => true

/-! ### Link states (R245, R268, R359) -/

/-- Links UP. -/
def State.upCount (s : State) : Nat := (s.lnk.links.filter (fun p => p.2.state == LState.up)).length

/-- Refresh LNK_STATUS (Table 10.16). -/
def State.refreshLnkStatus (s : State) : State :=
  s.putStatus Reg.lnkStatus (putBits (putBits (putBits (s.live Reg.lnkStatus) 10 0 s.map.id) 11 11 (b2n (s.map.id != 0x7FF)))
    18 12 s.upCount)

/-- Packets with unacknowledged or unsent bytes on a link, in order (R260). -/
def Link.packets (l : Link) : List (Bool × Packet) :=
  let kept := (l.kept ++ l.later).map (fun f => (f.here, f.pkt))
  let part := l.sending.map (fun x => (x.2.here, x.2.pkt))
  (kept ++ part).dedup ++ l.txq

/-- The next UP link of a direction in ascending number, cyclically from a chosen index (R260). -/
def State.upFrom (s : State) (links : List Nat) (i : Nat) : Option Nat :=
  ((links.drop i) ++ (links.take i)).find? (fun n => s.linkUp n)

/-- The links that share link n's direction, as this node is wired. -/
def State.peersOf (s : State) (n : Nat) : List Nat :=
  if s.isSpare then rangeFrom (4 * (n / 4)) 4 else dirLinks (linkCode n) 0

/-- Put packets at the head of a link's queue. -/
def State.requeue (s : State) (n : Nat) (ps : List (Bool × Packet)) : State :=
  let l := s.link n
  s.setLink n { l with txq := ps ++ l.txq }

/-- Resend what a link that left UP still owes on its replacement (R260), or hold it (R261). A link in RETRAIN keeps its replay buffer and the packets half sent, which go on when it is UP again (R250, R252). -/
def State.moveTraffic (s : State) (n st : Nat) : State :=
  let l := s.link n
  let peers := s.peersOf n
  let i := (peers.findIdx? (· == n)).getD 0
  let back := decide (st = LState.retrain)
  let s := s.setLink n { l with txq := [], sending := if back then l.sending else [], later := if back then l.later else [] }
  match s.upFrom peers i with
  | some k => s.requeue k l.packets
  | none =>
    let key := if s.isSpare then 16 + n / 4 else if 60 ≤ n then 32 + n else linkCode n
    { s with lnk := { s.lnk with held := s.lnk.held ++ (if back then l.txq else l.packets).map (fun p => (key, (p, s.now))) } }

/-- Erase LM, every key and the partner's name (R359). -/
def Link.unkey (l : Link) : Link :=
  { l with hs := .none, shake := Shake.idle, peer2 := [], master := [], keyed := [], rxCount := [], partnerId := 0x7FF, partnerLink := 0, partnerIdent := 0, fenced := false
           kept := [], resend := [], resends := 0, txSeq := 0, rxSeq := 0, txCount := 0, creditsIn := [], spent := []
           returned := [], half := 0, later := [], rx := [], recent := [], again := [], nak := none, gap := false
           heard := false, foreign := false }

/-- The map has no place for the partner any more: its keys go and the link, fenced by epoch, stays as it is trained (R247, R312, R359). -/
def Link.cutOff (l : Link) : Link := { l with hs := .none, shake := Shake.idle, peer2 := [], master := [], keyed := [], rxCount := [], fenced := true, heard := false, foreign := false }

/-- A link leaves UP: events, count, points, traffic (R245, R260, R330). -/
def State.leaveUp (s : State) (n st : Nat) : State :=
  let s := if st = LState.down ∨ st = LState.detect then s.raiseBit Reg.lnkEvent 0 else s
  let s := if st = LState.retrain ∨ st = LState.detect then
      ((s.raiseBit Reg.lnkEvent 1).bump (Reg.lnkPortStat + 32 * n + 0x1C)).addPoints (Part.link n) 32 else s
  let s := s.moveTraffic n st
  if (s.peersOf n).any (fun k => s.linkUp k) then s else s.raiseBit Reg.lnkEvent 3

/-- A link enters a state (Table 10.2). On entry into DETECT a pending LNK_PORT_CFG takes effect and a disabled or acted link goes DOWN (R268, R330). -/
def State.setLinkState (s : State) (n st : Nat) : State :=
  let was := (s.link n).state
  let s := s.setLink n { s.link n with state := st }
  let s := if was = LState.up ∧ st ≠ LState.up then s.leaveUp n st
    else if was ≠ LState.up ∧ (st = LState.down ∨ st = LState.detect) then s.moveTraffic n st else s
  let s := if st = LState.detect then s.applyPending (fun p => decide (p.timing = detectTiming + n)) else s
  let st := if st = LState.detect ∧ (!s.bit (Reg.lnkPortCfg + 4 * n) 0 ∨ s.partActed (Part.link n)) then LState.down else st
  let s := if st = LState.down ∨ st = LState.detect then s.setLink n { (s.link n).unkey with state := st } else s
  s.refreshLnkStatus

/-! ### Routing (R256, R260–R262) -/

/-- An unreachable entry: both outputs 15 (Table 10.7). -/
abbrev noRoute : Nat := 0xFF
/-- Routing entry of a node ID (R255). -/
def State.routeEnt (s : State) (id : Nat) : Nat := spGet noRoute s.lnk.routes id

/-- The node whose routing entry leads to a destination (R254). -/
def targetNode (dst : Nat) : Nat := if 0x8000 ≤ dst then (dst - 0x8000) / 16 else dst

/-- VC of a packet's next hop (R253). -/
def vcOf (p : Packet) : Nat := 4 * p.cls + 2 * (p.pflags % 2) + bitsOf p.pflags 2 2

/-- Where a packet goes next. -/
inductive Hop where
  | consume
  | edge (n : Nat)
  | drop
  /-- Output code, the via node's X position for code 11. -/
  | out (code x : Nat)
  deriving DecidableEq, Repr

/-- The hop runs across a wrap of its ring (R256). -/
def State.wraps (s : State) (code : Nat) : Bool :=
  match s.myEnt with
  | none => false
  | some e =>
    let sz := s.sizes
    (code == 0 && e.x + 1 == sz.1) || (code == 1 && e.x == 0) || (code == 2 && e.y + 1 == sz.2.1) ||
    (code == 3 && e.y == 0) || (code == 4 && e.z + 1 == sz.2.2) || (code == 5 && e.z == 0)

/-- One step of R256, from a packet that came in by a link or was injected. -/
def State.nextHop (s : State) (inLink : Option Nat) (p : Packet) : Hop × Packet :=
  let me := s.map.id
  let p := if p.via ≠ 0xFFFF ∧ p.via = me then { p with pflags := putBits p.pflags 1 0 3 } else p
  let tgt := targetNode p.dst
  let toVia := decide (p.via ≠ 0xFFFF) && !bitOf p.pflags 1
  let target := if toVia then p.via else tgt
  let e := s.routeEnt target
  let code := if target = me then 10 else if bitOf p.pflags 0 then bitsOf e 7 4 else bitsOf e 3 0
  let dim := codeDim code
  let changed : Bool := match inLink with | some n => decide (codeDim (linkCode n) ≠ dim) | none => true
  let p := if changed ∨ code = 6 ∨ code = 7 ∨ code = 8 then { p with pflags := putBits p.pflags 2 2 0 } else p
  let p := if s.wraps code then { p with pflags := putBits p.pflags 2 2 1 } else p
  if code = 10 then
    if 0x8000 ≤ p.dst then (if (p.dst - 0x8000) % 16 < 4 then .edge (60 + (p.dst - 0x8000) % 16) else .drop, p) else (.consume, p)
  else if code = 9 ∨ code < 9 then (.out code 0, p)
  else if code = 11 then (.out 11 ((s.nodeEnt p.via).map (·.x) |>.getD 0), p)
  else (.drop, p)

/-- Index within a direction of the link a flow takes (R260; log 7 for the spare's links). -/
def flowIndex (code : Nat) (p : Packet) : Nat :=
  let h := (p.src + 3 * p.dst + 7 * p.cls) % 8
  if code < 6 then h else if code = 7 ∨ code = 8 then h % 2 else h % 4

/-- Put a packet on a link's queue. -/
def State.enqueue (s : State) (n : Nat) (here : Bool) (p : Packet) : State :=
  let l := s.link n
  s.setLink n { l with txq := l.txq ++ [(here, p)] }

/-- Discard an unroutable packet (R256). -/
def State.unroutable (s : State) : State := (s.bump Reg.lnkStatDrop).raiseBit Reg.lnkEvent 4

/-- Put a packet on a link of the direction or edge it leaves by, or hold it (R260, R261, R263). -/
def State.routeOut (s : State) (inLink : Option Nat) (h : Hop × Packet) : State :=
  match h with
  | (.edge n, p) =>
    if p.cls = 3 then (if s.linkUp n then s.enqueue n inLink.isNone p
      else { s with lnk := { s.lnk with held := s.lnk.held ++ [(32 + n, ((inLink.isNone, p), s.now))] } })
    else s.unroutable
  | (.out code x, p) =>
    match s.upFrom (dirLinks code x) (flowIndex code p) with
    | some n => s.enqueue n inLink.isNone p
    | none =>
      let key := if code = 11 then 16 + x else code
      { s with lnk := { s.lnk with held := s.lnk.held ++ [(key, ((inLink.isNone, p), s.now))] } }
  | _ => s

/-- A fenced node forwards nothing and sends CTL of its own only (R26, R319). -/
def State.mayLeave (s : State) (here : Bool) (p : Packet) : Bool := !s.map.fenced || (here && p.cls == 4)

/-- Route a packet on (R256, R260, R261, R263, R319). -/
def State.routePacket (s : State) (inLink : Option Nat) (p : Packet) : State :=
  match s.nextHop inLink p with
  -- tkind 6 to 255 is reserved, and discarded (Table 11.2)
  | (.consume, p) => if p.cls ≠ 4 ∧ 6 ≤ byteAt p.transport 3 then s else { s with lnk := { s.lnk with handover := s.lnk.handover ++ [p] } }
  | (.drop, _) => s.unroutable
  | _ => if s.mayLeave inLink.isNone p then s.routeOut inLink (s.nextHop inLink p) else s

/-- Inject a packet of this node (R256). -/
def State.inject (s : State) (dst cls : Nat) (urgent : Bool) (transport msg : List Byte) : State :=
  let e := s.routeEnt (targetNode dst)
  let via := if bitOf e 9 ∧ targetNode dst ≠ s.map.id then bitsOf e 20 10 else 0xFFFF
  let flags := b2n (bitOf e 8) + 8 * b2n urgent
  let gen := (s.map.cur.map (·.gen)).getD 0
  s.routePacket none ⟨dst, s.map.id, via, cls, flags, gen % pow2 32, transport, msg⟩

/-- Held packets whose direction has a link UP again go on (R261). -/
def State.releaseHeld (s : State) : State :=
  let held := s.lnk.held
  let s := { s with lnk := { s.lnk with held := [] } }
  held.foldl (fun s h =>
    let key := h.1
    let links := if 32 ≤ key then [key - 32] else if 16 ≤ key then dirLinks 11 (key - 16) else dirLinks key 0
    let code := if 16 ≤ key then 11 else key
    match s.upFrom links (if 32 ≤ key then 0 else flowIndex code h.2.1.2) with
    | some n => s.enqueue n h.2.1.1 h.2.1.2
    | none => { s with lnk := { s.lnk with held := s.lnk.held ++ [h] } }) s

/-! ### Packets as bytes (Table 10.4) -/

/-- Bytes of a packet. -/
def Packet.bytes (p : Packet) : List Byte :=
  leBytes 2 p.dst ++ leBytes 2 p.src ++ leBytes 2 p.via ++ leBytes 1 p.cls ++ leBytes 1 p.pflags ++
  leBytes 4 p.msg.length ++ leBytes 4 p.mapGen ++ padTo 16 p.transport ++ p.msg

/-- A packet at the front of some bytes, once they hold it whole. -/
def packetOf (bs : List Byte) : Option (Packet × Nat) :=
  if bs.length < 32 then none
  else
    let n := field bs 8 4
    if bs.length < 32 + n then none
    else some (⟨field bs 0 2, field bs 2 2, field bs 4 2, byteAt bs 6, byteAt bs 7, field bs 12 4, slice bs 16 16, slice bs 32 n⟩, 32 + n)

/-- The sender codes a packet (R264). -/
def State.codes (s : State) (p : Packet) : Bool :=
  p.cls != 4 && s.bit Reg.lnkCodecCfg p.cls && decide (64 * s.fld Reg.lnkCodecCfg 15 8 ≤ 32 + p.msg.length) &&
  !(bitOf p.pflags 3 && s.bit Reg.lnkCodecCfg 4)

/-- Begin to send a packet (R252, R264). -/
def State.beginSend (s : State) (here : Bool) (p : Packet) : Sending × State :=
  let bs := p.bytes
  if s.codes p then
    let f := s.fresh
    let r := encodeFrom f.1 0 (bs.length + 1) bs 0 0
    (⟨r.1, r.2, true, p, here⟩, f.2)
  else (⟨bs, [], false, p, here⟩, s)

/-! ### Credits (R248) -/

/-- Units outstanding on a VC. -/
def Link.out (l : Link) (vc : Nat) : Nat := spGet 0 l.spent vc - spGet 0 l.creditsIn vc

/-- Units of the shared pool in use. -/
def Link.sharedUse (l : Link) : Nat := (List.range 20).foldl (fun a v => a + (l.out v - 25)) 0

/-- A VC may send a frame of len units. -/
def Link.hasCredit (l : Link) (vc len : Nat) : Bool :=
  decide (l.out vc + len ≤ 25) || decide (l.sharedUse + len ≤ 1036)

/-- Take the credit counts of a frame: each only if it lies within 1,536 ahead (R248). -/
def Link.takeCredits (l : Link) (half : Nat) (cs : List Nat) : Link :=
  let r := cs.zipIdx.foldl (fun (t : List (Nat × Nat)) c =>
    let vc := 10 * half + c.2
    let held := spGet 0 t vc
    let ahead := (c.1 + 65536 - held % 65536) % 65536
    if ahead ≤ 1536 then spSet 0 t vc (held + ahead) else t) l.creditsIn
  { l with creditsIn := r }

/-! ### Acknowledgement and replay (R249, R250, R266) -/

/-- fseq a is at or before b, in 32-bit sequence space. -/
def seqLe (a b : Nat) : Bool := decide ((b + pow2 32 - a) % pow2 32 < pow2 31)

/-- Frames the partner's ack covers leave the replay buffer (R250). -/
def State.takeAck (s : State) (n ack : Nat) : State :=
  let l := s.link n
  let kept := l.kept.filter (fun f => !seqLe f.fseq ack)
  if kept.length = l.kept.length then s
  else s.setLink n { l with kept := kept, resend := l.resend.filter (fun q => kept.any (fun f => f.fseq == q)), resends := 0, ackTick := s.now }

/-- As many resends as the limit allows have gone out without progress (R250). -/
def State.resentOut (s : State) (n : Nat) : Bool := decide (s.fld Reg.lnkRetryCfg 15 12 ≤ (s.link n).resends)

/-- The link gives up resending and enters RETRAIN (R250). -/
def State.retrainLink (s : State) (n : Nat) : State := (s.setLink n { s.link n with resends := 0 }).setLinkState n LState.retrain

/-- Resend every unacknowledged frame; after limit resends without progress the link enters RETRAIN instead (R250, R330). -/
def State.replay (s : State) (n : Nat) : State :=
  let l := s.link n
  if l.kept.isEmpty then s
  else if s.resentOut n then s.retrainLink n
  else (s.setLink n { l with resend := l.kept.map (·.fseq), resends := l.resends + 1, ackTick := s.now }).addPoints (Part.link n) 1

/-- Cut bytes into frame payloads of 1,536, the last one padded to whole units: each with the blocks that begin in it and whether it is the last (R246, R252). -/
def cutFrames : Nat → List Byte → List (Nat × Nat) → List (List Byte × List (Nat × Nat) × Bool)
  | 0, _, _ => []
  | f + 1, bs, marks =>
    let chunk := bs.take 1536
    let rest := bs.drop 1536
    let here := marks.filter (fun m => decide (m.1 < 1536))
    let there := (marks.filter (fun m => decide (1536 ≤ m.1))).map (fun m => (m.1 - 1536, m.2))
    (padTo (64 * ceilDiv chunk.length 64) chunk, here, rest.isEmpty) :: (if rest.isEmpty then [] else cutFrames f rest there)

/-- The bytes of a frame's packet from that frame on, with every block that begins in it stored, and where the blocks begin (R266). -/
def KeptFrame.stored (f : KeptFrame) (serial : Nat) : List Byte × List (Nat × Nat) :=
  match f.blks with
  | [] => ([], [])
  | (off, raw) :: _ =>
    let r := encodeFrom serial f.blks.length (f.pkt.bytes.length + 1) (f.pkt.bytes.drop raw) raw off
    (f.payload.take off ++ r.1, r.2)

/-- Units of some frames. -/
def unitsOf (fs : List KeptFrame) : Nat := fs.foldl (fun a f => a + f.payload.length / 64) 0

/-- Put frames, in order, into the places that a VC has in the replay buffer; the frames that find no place are left. -/
def refill (vc : Nat) : List KeptFrame → List KeptFrame → List KeptFrame × List KeptFrame
  | [], new => ([], new)
  | k :: kept, new =>
    if k.vc = vc then
      match new with
      | [] => let r := refill vc kept []
              ({ k with payload := [], blks := [] } :: r.1, r.2)
      | g :: rest => let r := refill vc kept rest
                     ({ g with fseq := k.fseq } :: r.1, r.2)
    else
      let r := refill vc kept new
      (k :: r.1, r.2)

/-- The replay buffer with the blocks that begin in its first frame stored (R266; log 20). The frames of other VCs stay as they were sent, and later packets of the VC keep their frames (R252).
What the longer blocks push out of the buffer follows with new sequence numbers; the units spent change by the difference. -/
def Link.storeFirst (l : Link) (serial : Nat) : Link :=
  match l.kept with
  | [] => l
  | f :: _ =>
    if f.blks.isEmpty then l
    else
      let kept := l.kept.filter (fun g => g.vc == f.vc)
      let mine := kept ++ l.later.filter (fun g => g.vc == f.vc)
      let new := f.stored serial
      let cut := (cutFrames (new.1.length + 1) new.1 new.2).map (fun c => ({ f with payload := c.1, blks := c.2.1, fin := c.2.2 } : KeptFrame))
      let others := l.later.filter (fun g => g.vc != f.vc)
      let done (r : List KeptFrame × List KeptFrame) : List (Nat × Nat) :=
        spSet 0 l.spent f.vc (spGet 0 l.spent f.vc + unitsOf (r.1.filter (fun g => g.vc == f.vc)) - unitsOf kept)
      match mine.findIdx? (·.fin) with
      | some i =>
        let r := refill f.vc l.kept (cut ++ mine.drop (i + 1))
        { l with kept := r.1, later := r.2 ++ others, spent := done r }
      | none =>
        -- the packet goes on beyond the buffer
        let r := refill f.vc l.kept cut
        let at_ := 1536 * kept.length
        let rest : Sending := ⟨new.1.drop at_, (new.2.filter (fun m => decide (at_ ≤ m.1))).map (fun m => (m.1 - at_, m.2)), true, f.pkt, f.here⟩
        { l with kept := r.1, later := others, spent := done r
                 sending := if rest.rest.isEmpty then tabDel l.sending f.vc else tabPut l.sending f.vc rest }

/-- A NAK with CODEC: resend from the first unacknowledged frame with the blocks that begin in it stored, and count it (R266). -/
def State.replayStored (s : State) (n : Nat) : State :=
  let l := s.link n
  if l.kept.isEmpty then s
  else
    let s := s.bump (Reg.lnkPortStat + 32 * n + 0x18)
    if s.resentOut n then s.retrainLink n
    else
      let fr := s.fresh
      (fr.2.setLink n (l.storeFirst fr.1)).replay n

/-- What a received frame's header says back: acks, NAK, credits (R248–R250). -/
def State.takeHeader (s : State) (n : Nat) (f : Frame) : State :=
  let s := s.takeAck n f.ack
  let s := s.setLink n ((s.link n).takeCredits f.half f.credits)
  if bitOf f.lflags 0 then (if bitOf f.lflags 1 then s.replayStored n else s.replay n) else s

/-- A frame's tag verifies under a key in use and its tx_count is new (R247). -/
def Link.admits (l : Link) (f : Frame) : Option Nat :=
  match l.keyed.find? (fun g => g % 256 == f.epoch) with
  | none => none
  | some g => if f.tagOk && (match tabGet l.rxCount g with | some c => decide (c < f.txCount) | none => true) then some g else none

/-- FEC counts of a frame's arrival (R245, R330, Table 10.18). -/
def State.fecCount (s : State) (n : Nat) (corrected bad : Nat) : State :=
  let s := s.bump (Reg.lnkPortStat + 32 * n + 0x10) corrected
  if bad = 0 then s
  else
    let s := (s.bump (Reg.lnkPortStat + 32 * n + 0x14) bad).addPoints (Part.link n) bad
    let l := s.link n
    let s := s.setLink n { l with fecMinute := l.fecMinute + bad }
    if s.fld Reg.lnkRetryCfg 23 16 < l.fecMinute + bad ∧ l.state = LState.up then s.setLinkState n LState.retrain else s

/-! ### Packets taken from a link (R263) -/

/-- A link carries TIME and CTL only: that of a partner which the map in effect does not hold as serving or as a spare, and every link of a candidate (Table 12.2, R320). -/
def State.ctlOnly (s : State) (n : Nat) : Bool :=
  let l := s.link n
  if 60 ≤ n ∧ !s.isSpare ∧ 0x7FF < l.partnerId then false
  else s.map.nodeState == .candidate ||
    (s.map.cur.isSome && (match s.nodeEnt l.partnerId with
      | some e => !(e.state == .member || e.state == .draining || e.state == .spare)
      | none => true))

/-- A packet arrives whole on a link: the edge test of R263, then routing; a link of a candidate carries CTL only (Table 12.2, R320). -/
def State.packetIn (s : State) (n : Nat) (p : Packet) : State :=
  if s.ctlOnly n ∧ p.cls ≠ 4 then s
  else if 60 ≤ n ∧ !s.isSpare then
    let tkind := byteAt p.transport 3
    if s.bit Reg.lnkCfg 0 && p.src == 0x8000 + 16 * s.map.id + (n - 60) &&
       (p.cls == 0 || (p.cls == 3 && (tkind == 2 || tkind == 3))) then
      -- a requester's packet is injected here
      let e := s.routeEnt (targetNode p.dst)
      let via := if bitOf e 9 ∧ targetNode p.dst ≠ s.map.id then bitsOf e 20 10 else 0xFFFF
      s.routePacket none { p with via := via, pflags := putBits (putBits p.pflags 0 0 (b2n (bitOf e 8))) 2 1 0 }
    else (s.bump Reg.lnkStatDrop).raiseBit Reg.lnkEvent 5
  else s.routePacket (some n) p

/-- An idle receiving side. -/
def RxVc.idle : RxVc := ⟨[], [], 0, 0, 0, 0⟩

/-- Deliver every whole packet at the front of decoded bytes; a packet ends its frame, so the rest is padding (R252). A transit packet goes on once it is whole here, where R262 forwards its frames one by one (DESIGN CHOICE, log 127). -/
def State.assemble (s : State) (n : Nat) (raw : List Byte) : State × List Byte :=
  match packetOf raw with
  | some (p, _) => (s.packetIn n p, [])
  | none => (s, raw)

/-- Units of a VC's frames go back to the sender (R248). -/
def Link.credit (l : Link) (vc units : Nat) : Link := { l with returned := spSet 0 l.returned vc (spGet 0 l.returned vc + units) }

/-- Take decoded bytes off the front of the frames held: the frames left and the units of those wholly decoded. The block that follows begins in the first frame left: `fresh` says that it is a new first frame, of which `head` bytes end the block before. -/
def RxVc.eat (r : RxVc) : Nat → List RxSeg → Bool → Nat → RxVc × Nat
  | _, [], _, units => ({ r with segs := [], head := 0, count := 0 }, units)
  | k, g :: t, moved, units =>
    if k < g.bytes.length then
      ({ r with segs := { g with bytes := g.bytes.drop k } :: t, head := if moved then k else r.head, count := if moved then 0 else r.count + 1 }, units)
    else r.eat (k - g.bytes.length) t true (units + g.units)

/-- A damaged block is discarded with every later frame: the receiver goes back to the frame in which it began and asks for it with CODEC. What that frame and the frames of other VCs after it had delivered is passed over when they come again (R266; log 20). -/
def State.blockDamaged (s : State) (n vc : Nat) (r : RxVc) : State × RxVc :=
  let l := s.link n
  let start := (r.segs.head?.map (·.fseq)).getD l.rxSeq
  let after := l.recent.filter (fun x => seqLe start x.1)
  let again := (l.again ++ after).dedup.filter (fun x => !(x.2 == vc && seqLe start x.1))
  let s := s.setLink n { l with rxSeq := start, again := again, recent := l.recent.filter (fun x => !seqLe start x.1), nak := some true, gap := true }
  ((s.raiseBit Reg.lnkEvent 6).addPoints (Part.link n) 4, { r with segs := [], head := 0, count := 0, skip := r.head, dup := r.count + r.dup })

/-- Decode whole blocks of the coded bytes of a VC, before any of their bytes is used or credited (R264, R266). -/
def State.decodeVc (s : State) (n vc : Nat) : Nat → RxVc → State × RxVc
  | 0, r => (s, r)
  | f + 1, r =>
    match decodeBlock (r.segs.flatMap (·.bytes)) with
    | .more => (s, r)
    | .damaged => s.blockDamaged n vc r
    | .ok raw last used =>
      -- after the last block the rest of the frame is padding
      let e := if last then ({ r with segs := [], head := 0, count := 0 }, (r.segs.map (·.units)).sum) else r.eat used r.segs false 0
      let s := s.setLink n ((s.link n).credit vc e.2)
      if 0 < r.dup then s.decodeVc n vc f { e.1 with dup := r.dup - 1 }
      else
        let (s, left) := s.assemble n (r.raw ++ raw)
        if last then (s, { e.1 with raw := left }) else s.decodeVc n vc f { e.1 with raw := left }

/-- Take an accepted DATA frame's payload: an uncoded one is credited at once, a coded one when it is decoded (R248, R252, R264). -/
def State.takePayload (s : State) (n : Nat) (f : Frame) : State :=
  let l := s.link n
  let key := (f.fseq, f.vc)
  let l := { l with recent := (l.recent ++ [key]).drop (l.recent.length - 63) }
  if l.again.contains key then s.setLink n { l with again := l.again.filter (· != key) }
  else
    let r := (tabGet l.rx f.vc).getD RxVc.idle
    if bitOf f.lflags 2 then
      let first := r.segs.isEmpty
      let r := { r with segs := r.segs ++ [⟨f.fseq, f.len, f.payload.drop r.skip⟩], head := if first then r.skip else r.head
                        count := if first then 0 else r.count, skip := 0 }
      let (s, r) := (s.setLink n l).decodeVc n f.vc (f.payload.length + 1) r
      let l := s.link n
      s.setLink n { l with rx := tabPut l.rx f.vc r }
    else
      let (s, left) := (s.setLink n (l.credit f.vc f.len)).assemble n (r.raw ++ f.payload)
      let l := s.link n
      s.setLink n { l with rx := tabPut l.rx f.vc { r with raw := left } }

/-! ### Frames sent (R246, R250, R262) -/

/-- The ten credit counts of a frame. -/
def Link.creditList (l : Link) : List Nat := (List.range 10).map (fun i => spGet 0 l.returned (10 * l.half + i) % 65536)

/-- The ack of a frame sent: the last frame before the first one whose block is not decoded yet, which the sender must keep to send its block stored (R250, R266). -/
def Link.ackSeq (l : Link) : Nat :=
  let starts := (l.rx.filterMap (fun r => r.2.segs.head?.map (·.fseq))).filter (fun q => seqLe q l.rxSeq)
  let behind := (starts.map (fun q => (l.rxSeq + pow2 32 - q) % pow2 32)).foldl max 0
  (l.rxSeq + 2 * pow2 32 - 1 - behind) % pow2 32

/-- Emit one frame with the link's current ack, credits and NAK. -/
def State.putFrame (s : State) (n type vc fseq lflags : Nat) (payload : List Byte) : State :=
  let l := s.link n
  let nak := match l.nak with | none => 0 | some false => 1 | some true => 3
  let ack := l.ackSeq
  let s := s.setLink n { l with txCount := l.txCount + 1, half := 1 - l.half, nak := none }
  (s.bump (Reg.lnkPortStat + 32 * n)).emit
    (.frame n type vc (l.sendGen % 256) fseq ack l.txCount l.half (lflags + nak) l.creditList payload)

/-- Rank of a VC's packet in the arbitration of R262; smaller goes first. -/
def sendRank (turn : Nat) (p : Packet) : Nat :=
  if p.cls = 4 then 0 else if bitOf p.pflags 3 then 1 else if p.cls = 3 then 2 else 3 + (turn + 2 - p.cls) % 3

/-- The packet a VC would send next: the one in progress, or one whose origin alternates with the last (R262). -/
def Link.headOf (l : Link) (vc : Nat) : Option (Bool × Packet) :=
  match l.later.find? (fun g => g.vc == vc), tabGet l.sending vc with
  | some g, _ => some (g.here, g.pkt)
  | none, some x => some (x.here, x.pkt)
  | none, none =>
    let q := l.txq.filter (fun e => vcOf e.2 == vc)
    match tabGet l.lastLocal vc with
    | some was => match q.find? (fun e => e.1 != was) with | some e => some e | none => q.head?
    | none => q.head?

/-- Remove the first entry of a queue equal to one. -/
def dropFirst {α : Type} [DecidableEq α] (a : α) : List α → List α
  | [] => []
  | x :: t => if x = a then t else x :: dropFirst a t

/-- VCs that could send, best first. -/
def Link.ready (l : Link) : List (Nat × (Bool × Packet)) :=
  let cands := (List.range 20).filterMap (fun vc => (l.headOf vc).map (fun e => (vc, e)))
  cands.foldl (fun acc c => ins c acc) []
where
  /-- Insert by rank. -/
  ins (c : Nat × (Bool × Packet)) : List (Nat × (Bool × Packet)) → List (Nat × (Bool × Packet))
    | [] => [c]
    | x :: t => if sendRank l.turn c.2.2 < sendRank l.turn x.2.2 then c :: x :: t else x :: ins c t

/-- Send a frame of a VC under the next fseq; it is kept until its ack comes (R248, R250). -/
def State.sendKept (s : State) (n : Nat) (l : Link) (g : KeptFrame) : State :=
  let frame : KeptFrame := { g with fseq := l.txSeq }
  let l := { l with
    kept := l.kept ++ [frame], txSeq := (l.txSeq + 1) % pow2 32
    spent := spSet 0 l.spent g.vc (spGet 0 l.spent g.vc + g.payload.length / 64)
    ackTick := if l.kept.isEmpty then s.now else l.ackTick
    turn := if g.pkt.cls ≤ 2 then g.pkt.cls else l.turn }
  (s.setLink n l).putFrame n 0 g.vc frame.fseq g.lflags g.payload

/-- Send one frame's worth of a VC's packet. -/
def State.sendPacket (s : State) (n vc : Nat) (e : Bool × Packet) : State :=
  let l := s.link n
  let (snd, s, l) := match tabGet l.sending vc with
    | some x => (x, s, l)
    | none =>
      let b := s.beginSend e.1 e.2
      (b.1, b.2, { l with txq := dropFirst e l.txq, lastLocal := tabPut l.lastLocal vc e.1 })
  let chunk := snd.rest.take 1536
  let rest := snd.rest.drop 1536
  let payload := padTo (64 * ceilDiv chunk.length 64) chunk
  let flags := 4 * b2n snd.coded + 8 * b2n (bitOf snd.pkt.pflags 3)
  let marks := (snd.marks.filter (fun m => decide (1536 ≤ m.1))).map (fun m => (m.1 - 1536, m.2))
  let l := { l with sending := if rest.isEmpty then tabDel l.sending vc else tabPut l.sending vc { snd with rest := rest, marks := marks } }
  s.sendKept n l ⟨0, vc, payload, flags, snd.pkt, snd.here, snd.marks.filter (fun m => decide (m.1 < 1536)), rest.isEmpty⟩

/-- Send a VC's next frame: one that a resend pushed on, else of its packet (R252, R266). -/
def State.sendFrom (s : State) (n vc : Nat) (e : Bool × Packet) : State :=
  let l := s.link n
  match l.later.find? (fun g => g.vc == vc) with
  | some g => s.sendKept n { l with later := dropFirst g l.later } g
  | none => s.sendPacket n vc e

/-- Units that the next frame of a VC takes: of the packet in progress, or of the one it begins, as coded (R248, R264). -/
def State.nextLen (s : State) (n vc : Nat) (p : Packet) : Nat :=
  match (s.link n).later.find? (fun g => g.vc == vc) with
  | some g => g.payload.length / 64
  | none =>
    let rest := match tabGet (s.link n).sending vc with
      | some x => x.rest
      | none => (s.beginSend true p).1.rest
    ceilDiv (min rest.length 1536) 64

/-- A packet may go out on a link: while the node is fenced only CTL of its own, on a candidate's link only CTL (R319, R320; log 93). -/
def State.mayCarry (s : State) (n : Nat) (e : Bool × Packet) : Bool := s.mayLeave e.1 e.2 && (!s.ctlOnly n || e.2.cls == 4)

/-- A fenced node forwards nothing: what waits for a link is discarded, but for CTL of its own (R26, R319; log 93). -/
def State.dropTransit (s : State) : State :=
  { s with lnk := { s.lnk with
      links := s.lnk.links.map (fun l => (l.1, { l.2 with txq := l.2.txq.filter (fun p => p.1 && p.2.cls == 4) }))
      held := s.lnk.held.filter (fun h => h.2.1.1 && h.2.1.2.cls == 4) } }

/-- An ACK or NAK of a node for a queue pair takes the place of one that still waits on a link (R253). -/
def State.coalesce (s : State) (dst dqp : Nat) : State :=
  let mine (p : Bool × Packet) : Bool :=
    p.1 && p.2.src == s.map.id && p.2.cls == 3 && p.2.dst == dst && (byteAt p.2.transport 3 == 2 || byteAt p.2.transport 3 == 3) && field p.2.transport 0 3 == dqp
  { s with lnk := { s.lnk with
      links := s.lnk.links.map (fun l => (l.1, { l.2 with txq := l.2.txq.filter (fun p => !mine p) }))
      held := s.lnk.held.filter (fun h => !mine h.2.1) } }

/-- A frame has verified: it shows that the partner sends under an epoch this node holds (R247, R318). -/
def State.heardFrame (s : State) (n g txCount : Nat) : State :=
  let l := s.link n
  s.setLink n { l with rxCount := tabPut l.rxCount g txCount, lastFrame := s.now, heard := true, fenced := false }

/-- A frame is accepted, and counted (Table 10.18). -/
def State.frameTaken (s : State) (n : Nat) : State := s.bump (Reg.lnkPortStat + 32 * n + 4)

/-- A frame that fails R247 or R249 is counted; one under an epoch that this node does not hold is noted (R247; log 8). -/
def State.badFrame (s : State) (n : Nat) (f : Frame) : State :=
  let s := s.bump (Reg.lnkPortStat + 32 * n + 8)
  let l := s.link n
  if l.keyed.any (fun g => g % 256 == f.epoch) then s else s.setLink n { l with foreign := true }

end Sys2Proof.Machine
end

