-- ==== Sys2Proof/Machine/QueOps.lean ====
section
/-!
DEFINITION. Shared operations of queue pairs (chapter 11): context images (Table 11.1), residence and eviction (R279, R280), transport packets out (R271), acceptance of a message (R272–R274), responses.
-/

namespace Sys2Proof.Machine

open Sys2Proof

/-- Key of a host ring's context in QueSt.qps. -/
abbrev ringBase : Nat := 0x100000
/-- Partition of node-to-node traffic (R269). -/
abbrev sysPart : Nat := 4095

/-- A context with everything zero. -/
def Qp.zero : Qp :=
  { state := .free, pinned := false, urgent := false, ring := false, part := 0, cls := 0, peer := 0, peerQpn := 0
    retries := 0, maxOut := 0, sndNext := 0, sndUna := 0, rcvNext := 0, timeout := 8192, deadline := none
    progressed := true, nakSent := false, nrWait := none, cir := 0, pir := 0, cbs := 0, pbs := 0, tc := 0, tp := 0
    last := 0, depth := 0, inbound := 0, sent := [], latched := List.replicate 7 0, running := List.replicate 7 0
    stream := 0, rbase := 0, rkind := 0, rfn := 0, rlog2 := 0, rmod := 0, rhead := 0, rtail := 0, rcring := 0
    rvector := 0, rfetch := 0, lastMsg := none, msgOwed := false }

/-- State codes (Table 11.4). -/
def QpState.code : QpState → Nat
  | .free => 0 | .init => 1 | .ready => 2 | .drain => 3 | .error => 4 | .fenced => 5

/-- State of a code. -/
def qpStateOf (c : Nat) : QpState :=
  if c = 1 then .init else if c = 2 then .ready else if c = 3 then .drain else if c = 4 then .error
  else if c = 5 then .fenced else .free

/-- The context image (Table 11.1, Table 15.4). -/
def Qp.image (q : Qp) (qpn : Nat) : List Byte :=
  leBytes 4 (qpn % pow2 20 + pow2 20 * q.state.code + pow2 23 * b2n q.pinned + pow2 24 * b2n q.urgent + pow2 25 * b2n q.ring) ++
  leBytes 2 q.part ++ leBytes 1 q.cls ++ leBytes 1 0 ++ leBytes 2 q.peer ++ leBytes 3 q.peerQpn ++ leBytes 1 q.retries ++
  leBytes 2 q.maxOut ++ leBytes 3 q.sndNext ++ leBytes 1 0 ++ leBytes 3 q.sndUna ++ leBytes 1 0 ++ leBytes 3 q.rcvNext ++
  leBytes 1 0 ++ leBytes 4 ((q.deadline.getD 0) % pow2 32) ++ leBytes 3 q.cir ++ leBytes 1 0 ++ leBytes 3 q.pir ++ leBytes 1 0 ++
  leBytes 4 q.cbs ++ leBytes 4 q.pbs ++ leBytes 4 q.tc ++ leBytes 4 q.tp ++ leBytes 8 q.last ++ leBytes 4 q.depth ++
  q.latched.flatMap (leBytes 4) ++ q.running.flatMap (leBytes 4) ++ leBytes 4 0 ++
  (if q.ring then
    leBytes 8 q.rbase ++ leBytes 1 q.rkind ++ leBytes 1 q.rfn ++ leBytes 1 q.rlog2 ++ leBytes 1 q.rmod ++ leBytes 4 q.rhead ++
    leBytes 4 q.rtail ++ leBytes 2 q.rcring ++ leBytes 2 q.rvector ++ List.replicate 40 0
   else List.replicate 64 0) ++ List.replicate 64 0

/-- Read a context image. -/
def qpOfImage (b : List Byte) : Qp :=
  let id := field b 0 4
  { Qp.zero with
    state := qpStateOf (bitsOf id 22 20), pinned := bitOf id 23, urgent := bitOf id 24, ring := bitOf id 25
    part := field b 4 2 % 4096, cls := byteAt b 6, peer := field b 8 2, peerQpn := field b 10 3, retries := byteAt b 13
    maxOut := field b 14 2, sndNext := field b 16 3, sndUna := field b 20 3, rcvNext := field b 24 3
    cir := field b 32 3, pir := field b 36 3, cbs := field b 40 4, pbs := field b 44 4, tc := field b 48 4, tp := field b 52 4
    last := field b 56 8, depth := field b 64 4
    latched := (List.range 7).map (fun i => field b (68 + 4 * i) 4)
    running := (List.range 7).map (fun i => field b (96 + 4 * i) 4)
    rbase := field b 128 8, rkind := byteAt b 136, rfn := byteAt b 137 % 32, rlog2 := byteAt b 138, rmod := byteAt b 139
    rhead := field b 140 4, rtail := field b 144 4, rcring := field b 148 2, rvector := field b 150 2, rfetch := field b 140 4 }

/-- A context on chip. -/
def State.qp (s : State) (k : Nat) : Option Qp := tabGet s.que.qps k
/-- Write a context. -/
def State.putQp (s : State) (k : Nat) (q : Qp) : State := { s with que := { s.que with qps := tabPut s.que.qps k q } }
/-- Change a context where it is on chip. -/
def State.mapQp (s : State) (k : Nat) (f : Qp → Qp) : State := { s with que := { s.que with qps := tabMap s.que.qps k f } }

/-- Contexts pinned (Table 11.12). -/
def State.pinnedCount (s : State) : Nat := (s.que.qps.filter (fun p => p.2.pinned)).length

/-- Refresh QUE_STATUS.resident (Table 11.16). -/
def State.refreshQue (s : State) : State := s.setStatus Reg.queStatus 13 0 (min 8192 s.que.qps.length)

/-- Count a discard. -/
def State.discard (s : State) (f : Discards → Discards) : State := { s with que := { s.que with discards := f s.que.discards } }

/-- A packet that names a FREE queue pair: counted, and bad_qp (R272). -/
def State.badQp (s : State) : State := (s.discard (fun d => { d with badQp := d.badQp + 1 })).raiseBit Reg.queEvent 5
/-- A packet of another partition: counted, and part_mismatch (R272). -/
def State.partMismatch (s : State) : State := (s.discard (fun d => { d with partMismatch := d.partMismatch + 1 })).raiseBit Reg.queEvent 1

/-- Count an event of a QP's running counters (R296): the i-th counter, by adding. -/
def Qp.bump (q : Qp) (i n : Nat) : Qp := { q with running := listPut 0 q.running i (sat32 (q.running.getD i 0 + n)) }
/-- Keep the largest. -/
def Qp.bumpMax (q : Qp) (i n : Nat) : Qp := { q with running := listPut 0 q.running i (sat32 (max (q.running.getD i 0) n)) }

/-! ### Packets out (R271) -/

/-- Transport fields (Table 11.2). -/
def transportBytes (dqp tkind psn tflags part hint sqp : Nat) : List Byte :=
  leBytes 3 dqp ++ leBytes 1 tkind ++ leBytes 3 psn ++ leBytes 1 tflags ++ leBytes 2 part ++ leBytes 2 hint ++ leBytes 3 sqp ++ leBytes 1 0

/-- Message class of a kind of packet (R253): requests of the node travel REQ, everything it returns RSP. -/
def State.sendTransport (s : State) (cls dst dqp tkind psn tflags part hint sqp : Nat) (msg : List Byte) : State :=
  s.inject dst cls (bitOf tflags 1) (transportBytes dqp tkind psn tflags part hint sqp) msg

/-- ACK of a PSN on a context (R253, R274). -/
def State.sendAck (s : State) (k : Nat) (q : Qp) (psn : Nat) : State :=
  (s.coalesce q.peer q.peerQpn).sendTransport 3 q.peer q.peerQpn 2 psn (2 * b2n q.urgent) q.part 0 k []

/-- NAK with a syndrome (R253, R273, R276). -/
def State.sendNak (s : State) (k : Nat) (q : Qp) (psn syndrome : Nat) : State :=
  (s.coalesce q.peer q.peerQpn).sendTransport 3 q.peer q.peerQpn 3 psn (2 * b2n q.urgent) q.part syndrome k []

/-- NOT_READY to the sender of a packet (R280); it is counted, and later packets of the QP are dropped until the named PSN, the first one where several are outstanding. A packet that carries no message is not sent again, so none is waited for (log 37). -/
def State.sendNotReady (s : State) (arr : Arrival) (hint : Nat) (carries : Bool := true) : State :=
  let s := if carries ∧ (tabGet s.que.named arr.ctx).isNone then { s with que := { s.que with named := tabPut s.que.named arr.ctx arr.psn } } else s
  (s.bump (Reg.queStat + 4)).sendTransport 3 arr.src arr.sqp 4 arr.psn 0 arr.part hint arr.ctx []

/-! ### Residence (R279, R280) -/

/-- Address of a QP's image in the host table. -/
def State.ctxAddr (s : State) (qpn : Nat) : Nat := s.live64 Reg.queCtxBase + 256 * qpn

/-- The table is set: its base was given and lies in a valid use-1 window of function 0 (R378). -/
def State.inWindow (s : State) (fn use addr len : Nat) : Bool :=
  (List.range 256).any (fun w =>
    let b := Reg.hstWin + 32 * w
    let ctl := s.live (b + 16)
    bitOf ctl 7 && bitsOf ctl 4 0 == fn && bitsOf ctl 6 5 == use &&
    decide (s.live64 b ≤ addr) && decide (addr + len ≤ s.live64 b + s.live64 (b + 8)))

/-- A context may be evicted (R279). -/
def State.evictable (s : State) (k : Nat) (q : Qp) : Bool :=
  !q.pinned && !q.ring && q.sent.isEmpty && q.inbound == 0 && !(s.que.cold.any (fun c => c.arr.ctx == k)) &&
  !(s.que.ops.any (fun o => o.2.qpn == k))

/-- Mark a context most recently used: an eviction of it is cancelled (R279). -/
def State.touchQp (s : State) (k : Nat) : State :=
  if s.que.resident.contains k then
    { s with que := { s.que with resident := s.que.resident.filter (· != k) ++ [k], leaving := tabDel s.que.leaving k } } else s

/-- There is room for one more context. -/
def State.hasRoom (s : State) : Bool := decide (s.que.qps.length + s.que.fetches.length < 8192)

/-- Begin an eviction for a fetch that waits: the image of the least recently used context that qualifies is written back; none where no context qualifies, or where an eviction for each waiting fetch is under way (R279). -/
def State.startEvict (s : State) : State :=
  if s.que.waitFetch.length ≤ s.que.leaving.length then s
  else
    match s.que.resident.find? (fun k => (tabGet s.que.leaving k).isNone && (match s.qp k with | some q => s.evictable k q | none => false)) with
    | none => s
    | some k =>
      match s.qp k with
      | none => s
      | some q => ({ s with que := { s.que with leaving := s.que.leaving ++ [(k, q)] } }).hostWrite 0 (s.ctxAddr k) (q.image k)

/-- The host has not yet acknowledged a context's image (R375, R376). -/
def State.imageWaits (s : State) (k : Nat) : Bool :=
  (s.hst.txq ++ s.hst.kept).any (fun p => p.type == 1 && p.fn == 0 && p.addr == s.ctxAddr k)

/-- A context leaves the chip: its write-back has completed (R279). -/
def State.evicted (s : State) (k : Nat) : State :=
  match s.qp k with
  | none => s
  | some q =>
    let away := if q.state = .free then s.que.away else tabPut s.que.away k s.frame
    ({ s with que := { s.que with qps := tabDel s.que.qps k, away := away, resident := s.que.resident.filter (· != k) } }).refreshQue

/-- Evictions whose write-back has completed; a context that has changed since it was written stays, for the image is no longer its own. -/
def State.settleEvictions (s : State) : State :=
  let done := s.que.leaving.filter (fun k => !s.imageWaits k.1)
  (done.filter (fun k => s.qp k.1 == some k.2)).foldl (fun s k => s.evicted k.1) { s with que := { s.que with leaving := s.que.leaving.filter (fun k => s.imageWaits k.1) } }

/-- A held packet carries a message, which its sender resends. -/
def Cold.carries (c : Cold) : Bool := match c.other with | some p => p.tkind == 1 | none => true

/-- A NOT_READY is outstanding on the QP, and the packet is not the message it names (R280). -/
def State.shutOut (s : State) (c : Cold) : Bool :=
  match tabGet s.que.named c.arr.ctx with
  | none => false
  | some n => !(c.carries && n == c.arr.psn)

/-- The host table cannot be read: every cold packet of the QP is answered with NOT_READY, but for those that an earlier one shuts out (R280). -/
def State.unreachable (s : State) (qpn : Nat) : State :=
  let gone := s.que.cold.filter (fun c => c.arr.ctx == qpn && (c.early || !s.shutOut c))
  let s := { s with que := { s.que with cold := s.que.cold.filter (fun c => c.arr.ctx != qpn) } }
  let s := (s.setStatus Reg.queStatus 14 14 0).raiseBit Reg.queEvent 4
  gone.foldl (fun s c => s.sendNotReady c.arr (s.fld Reg.queCfg 23 16) c.carries) s

/-- The context table is set and can be asked for: it lies in a use-1 window of function 0 and the Wecia Link is UP (R378, Table 11.16). -/
def State.tableReady (s : State) : Bool := s.inWindow 0 1 (s.live64 Reg.queCtxBase) 268435456 && s.hst.state == 5

/-- Start fetching a context, unless one is under way; where the table cannot be asked for, only a request of the node waits for it (R280). -/
def State.startFetch (s : State) (qpn : Nat) : State :=
  if (tabGet s.que.fetches qpn).isSome || (tabGet s.que.waitFetch qpn).isSome then s
  else if !s.tableReady && !s.que.later.any (fun m => m.qpn == qpn) then s.unreachable qpn
  else if !s.tableReady then { s.unreachable qpn with que := { (s.unreachable qpn).que with waitFetch := tabPut s.que.waitFetch qpn s.now } }
  else
    let wait : State := { s with que := { s.que with waitFetch := tabPut s.que.waitFetch qpn s.now } }
    if !s.hasRoom then wait.startEvict
    else
      match s.hostRead 0 (s.ctxAddr qpn) 256 (.context qpn) with
      | some s => { s with que := { s.que with fetches := tabPut s.que.fetches qpn s.now } }
      | none => wait

/-- Bytes the cold-arrival buffer holds. -/
def State.coldBytes (s : State) : Nat := s.que.cold.foldl (fun n c => n + 32 + c.msg.length) 0

/-- While a NOT_READY is outstanding on a QP, its packets are discarded until the message of the named PSN arrives (R280): none where this one is. -/
def State.passNamed (s : State) (k psn : Nat) (carries : Bool) : Option State :=
  match tabGet s.que.named k with
  | none => some s
  | some n => if carries && n == psn then some { s with que := { s.que with named := tabDel s.que.named k } } else none

/-- A packet for a QP that is not resident (R280). One that is held while a NOT_READY is outstanding is judged when the context is there, after its partition (R272). -/
def State.coldArrival (s : State) (c : Cold) : State :=
  if 65536 < 32 + c.msg.length then (if s.shutOut c then s else (s.sendNotReady c.arr 1 c.carries).startFetch c.arr.ctx)
  else if 2048 ≤ s.que.cold.length ∨ 4194304 < s.coldBytes + 32 + c.msg.length then
    (if s.shutOut c then s else (s.raiseBit Reg.queEvent 2).sendNotReady c.arr (s.fld Reg.queCfg 23 16) c.carries)
  else
    let s := { s with que := { s.que with cold := s.que.cold ++ [{ c with early := (tabGet s.que.named c.arr.ctx).isNone }] } }
    (s.bump Reg.queStat).startFetch c.arr.ctx

/-- Packets of a QP wait in the cold-arrival buffer: later ones go behind them (R280). -/
def State.coldWaits (s : State) (k : Nat) : Bool :=
  (s.qp k).isNone || (s.que.cold.any (fun c => c.arr.ctx == k) && (tabGet s.que.fetches k).isSome)

/-! ### Acceptance of a message (R272–R274) -/

/-- What becomes of an arriving message. -/
inductive Verdict where
  /-- Accepted: the message checks follow. -/
  | accept (s : State)
  /-- Ended here. -/
  | done (s : State)

/-- d = (psn − E) mod 2^24. -/
def psnDelta (psn e : Nat) : Nat := (psn + pow2 24 - e % pow2 24) % pow2 24

/-- PSN verdict on a context that takes the message (R273). -/
def State.psnVerdict (s : State) (k : Nat) (q : Qp) (psn : Nat) (request : Bool) : Verdict :=
  let d := psnDelta psn q.rcvNext
  if d = 0 then
    if request && decide (q.maxOut < q.inbound + 1) then .done (s.discard (fun d => { d with overLimit := d.overLimit + 1 }))      -- R274: discarded whole
    else
      let q' := { q with rcvNext := (q.rcvNext + 1) % pow2 24, nakSent := false, inbound := q.inbound + b2n request }
      .accept ((s.putQp k q').sendAck k q' psn)
  else if d < pow2 23 then
    if q.nakSent then .done s else .done ((s.putQp k { q with nakSent := true }).sendNak k q q.rcvNext 1)
  else if pow2 24 - 1024 ≤ d then .done ((s.bump (Reg.queStat + 8)).sendAck k q ((q.rcvNext + pow2 24 - 1) % pow2 24))
  else .done (s.discard (fun d => { d with stale := d.stale + 1 }))

/-- The context that an arriving packet names, and the state in which it goes on (R272 steps 1 and 2, R280); `error` where the packet ends here. -/
def State.packetCtx (s : State) (c : Cold) : Except State (Qp × State) :=
  let k := c.arr.ctx
  if ringBase ≤ k then .error s.badQp
  else if s.coldWaits k then .error (s.coldArrival c)
  else match s.qp k with
    | none => .error s
    | some q =>
      let s := s.touchQp k
      if q.state = .free then .error s.badQp
      else if c.arr.part ≠ q.part then .error s.partMismatch
      else match s.passNamed k c.arr.psn c.carries with
        | none => .error s
        | some s => if q.state = .init ∨ q.state = .fenced then .error s else .ok (q, s)

/-- The checks of R272 over a REQUEST. -/
def State.acceptRequest (s : State) (arr : Arrival) (msg : List Byte) : Verdict :=
  match s.packetCtx ⟨arr, msg, none, false⟩ with
  | .error s => .done s
  | .ok (q, s) =>
    if q.state = .error ∨ (q.state = .drain ∧ psnDelta arr.psn q.rcvNext = 0) then .done (s.sendNak arr.ctx q arr.psn 2)
    else s.psnVerdict arr.ctx q arr.psn true

/-! ### Responses and node-initiated messages (R274, R275) -/

/-- Start the retry timer of a context if it does not run; a NOT_READY wait stands in its place (R280). -/
def Qp.arm (q : Qp) (now : Nat) : Qp := if q.deadline.isSome || q.nrWait.isSome then q else { q with deadline := some (now + q.timeout) }

/-- Send a message in a context's own PSN stream: tkind 0 for a request of the node, 1 for a response. -/
def State.sendMessage (s : State) (k : Nat) (cls tkind : Nat) (urgent : Bool) (msg : List Byte) (op : Nat) : State :=
  match s.qp k with
  | none => s
  | some q =>
    let psn := q.sndNext
    let q' := ({ q with sndNext := (psn + 1) % pow2 24, sent := q.sent ++ [(⟨psn, tkind, cls, msg, op, urgent⟩ : OutMsgQ)] }).arm s.now
    (s.putQp k q').sendTransport cls q.peer q.peerQpn tkind psn (2 * b2n urgent) q.part 0 k msg

/-- Resend every unacknowledged message from a PSN, with tflags.resend (R275). -/
def State.resendFrom (s : State) (k psn : Nat) : State :=
  match s.qp k with
  | none => s
  | some q =>
    (q.sent.filter (fun m => decide (psnDelta m.psn psn < pow2 23))).foldl
      (fun s m => s.sendTransport m.cls q.peer q.peerQpn m.tkind m.psn (1 + 2 * b2n (q.urgent || m.urgent)) q.part 0 k m.msg) s

/-- The system QP to a peer, created on first use (R270); its numbers are the map agent's (log 11). With no room on chip it begins its life in the host's table (log 124). -/
def State.systemQp (s : State) (peer : Nat) : Nat × State :=
  match tabGet s.que.system peer with
  | some k => (k, s)
  | none =>
    let used := s.que.qps.map Prod.fst ++ s.que.away.map Prod.fst ++ s.que.fetches.map Prod.fst
    let f := s.fresh
    let s := f.2
    let n := (lowestFree used ringBase).getD 0
    let q := { Qp.zero with state := .ready, part := sysPart, peer := peer, peerQpn := Config.choice f.1 0 % ringBase, maxOut := 512 }
    let s := { s with que := { s.que with system := tabPut s.que.system peer n } }
    if s.hasRoom then
      (n, ({ s with que := { s.que with qps := tabPut s.que.qps n q, resident := s.que.resident ++ [n] } }).refreshQue)
    else (n, ({ s with que := { s.que with away := tabPut s.que.away n s.frame } }).hostWrite 0 (s.ctxAddr n) (q.image n))

/-- A request of the node may go out on a context now: on chip, READY, and fewer than max_out unacknowledged (R274, R277). -/
def State.maySend (s : State) (k : Nat) : Bool :=
  match s.qp k with
  | none => false
  | some q => q.state == .ready && decide (q.sent.length < q.maxOut)

/-- Requests of the node that wait for a context go out, oldest first, as far as they may. -/
def State.sendLater (s : State) (k : Nat) : State :=
  (s.que.later.filter (fun m => m.qpn == k)).foldl (fun s m =>
    if s.maySend k then
      ({ s with que := { s.que with later := s.que.later.filter (fun x => x.op != m.op) } }).touchQp k |>.sendMessage k m.cls 0 m.urgent m.msg m.op
    else s) s

/-- Send a node-initiated remote operation to a peer and remember why. -/
def State.nodeOp (s : State) (peer : Nat) (msg : List Byte) (kind : OpKind) (cls : Nat := 0) (urgent : Bool := false) : State :=
  let r := s.systemQp peer
  let k := r.1
  let s := r.2
  let id := s.que.nextOp
  let s := { s with que := { s.que with
    nextOp := id + 1, ops := s.que.ops ++ [(id, (⟨k, kind⟩ : NodeOp))], later := s.que.later ++ [(⟨k, cls, urgent, msg, id⟩ : Later)] } }
  if (s.qp k).isNone then s.startFetch k else s.sendLater k

/-- Bytes of responses among some messages (R274). -/
def respOf (ms : List OutMsgQ) : Nat := ms.foldl (fun n m => if m.tkind = 1 then n + m.msg.length else n) 0

/-- A queue pair that a modify takes to INIT: PSNs and outstanding messages are cleared (Table 11.4). -/
def Qp.cleared (q : Qp) : Qp :=
  { q with state := .init, sndNext := 0, sndUna := 0, rcvNext := 0, sent := [], retries := 0, timeout := 8192, deadline := none
           nrWait := none, nakSent := false, progressed := true, stream := q.stream + 1 }

/-- The responses that a context holds leave the response store (R274). -/
def State.freeResponses (s : State) (q : Qp) : State := { s with que := { s.que with respBytes := s.que.respBytes - respOf q.sent } }

end Sys2Proof.Machine
end

