-- ==== Sys2Proof/Machine/MemOps.lean ====
section
/-!
DEFINITION. Shared operations of the memory tiers (chapter 07): moves by copy, check and switch (R131), Dusk (R187–R189), Dawn (R190, R191), tier-2 slots, shadows (R184), lost and repaired pages (R163, R185, R194).
-/

namespace Sys2Proof.Machine

open Sys2Proof

/-! ### Messages of the node (Tables 3.1, 11.7) -/

/-- Request header with body length. -/
def reqHeader (opcode tenant mapGen requestId sid layer bodyLen shape : Nat) : List Byte :=
  leBytes 1 opcode ++ leBytes 1 0 ++ leBytes 2 tenant ++ leBytes 4 mapGen ++ leBytes 8 requestId ++ leBytes 8 sid ++
  leBytes 2 layer ++ leBytes 2 0 ++ leBytes 4 bodyLen ++ leBytes 4 shape ++ leBytes 4 0

/-- Generation in effect, low 32 bits. -/
def State.genLow (s : State) : Nat := ((s.map.cur.map (·.gen)).getD 0) % pow2 32

/-- A remote-memory message. -/
def State.remoteMsg (s : State) (opcode key off len rflags fmt : Nat) (data : List Byte) : List Byte :=
  let head := leBytes 4 key ++ leBytes 8 off ++ leBytes 4 len ++ leBytes 1 rflags ++ leBytes 1 fmt ++ List.replicate 14 0
  reqHeader opcode sysPart s.genLow s.que.nextOp 0 0 (32 + data.length) 0 ++ head ++ data

/-! ### Tier-2 slots (Table 5.10, R189, R304, R378) -/

/-- Class flags that govern a page. -/
def State.refClass (s : State) (p : PageRef) : Nat := ((s.refOwner p).map (·.cls)).getD 0
/-- pool_ok. -/
def State.poolOk (s : State) (c : Nat) : Bool := s.bit (Reg.memClassCfg + 4 * c) 4
/-- host_ok. -/
def State.hostOk (s : State) (c : Nat) : Bool := s.bit (Reg.memClassCfg + 4 * c) 5

/-- KiB runs held in the pool slice of a key, and in the host window of an index. -/
def State.poolRuns (s : State) (key : Nat) : List (Nat × Nat) :=
  s.allPages.filterMap (fun p => if p.2.kind = .pool ∧ p.2.handle % pow2 32 = key then some (p.2.handle / pow2 32, 4 * s.refKiB p.1) else none) ++
  s.mem.moves.filterMap (fun m => if m.2.kind = .spillPool ∧ m.2.dest.headD 0 % pow2 32 = key
    then some (m.2.dest.headD 0 / pow2 32, 4 * s.refKiB m.2.page) else none)

/-- KiB of a page in host memory: its bytes and a tag (R361; log 26). -/
def hostKiB (pairKib : Nat) : Nat := 4 * pairKib + 1

/-- KiB runs held in a host window. -/
def State.hostRuns (s : State) (w : Nat) : List (Nat × Nat) :=
  s.allPages.filterMap (fun p => if p.2.kind = .host ∧ p.2.handle % 256 = w then some (p.2.handle / 65536, hostKiB (s.refKiB p.1)) else none) ++
  s.mem.moves.filterMap (fun m => if m.2.kind = .spillHost ∧ m.2.dest.headD 0 % 256 = w
    then some (m.2.dest.headD 0 / 65536, hostKiB (s.refKiB m.2.page)) else none)

/-- A slice with room for a page, mirrored or plain as Table 7.2 asks, on no excluded or dead donor: its donor and handle. -/
def State.pickPool (s : State) (mirrored : Bool) (kib : Nat) (skip : Nat) : Option (Nat × Nat) :=
  match s.map.cur with
  | none => none
  | some m => m.pools.findSome? (fun p =>
      let dead (n : Nat) : Bool := n == skip || (tabGet m.nodes n).any (fun e => e.state == .dead)
      if p.2.borrower = s.map.id ∧ decide (p.2.mirror ≠ 0xFFFF) = mirrored ∧ !dead p.2.donor ∧ !(mirrored && dead p.2.mirror) then
        (fitIn (s.poolRuns p.2.key) 0 (1048576 * p.2.size) (4 * kib) 0).map (fun o => (p.2.donor, p.2.key + pow2 32 * o))
      else none)

/-- A use-2 window with room for a page: the handle. -/
def State.pickHost (s : State) (kib : Nat) : Option Nat :=
  (List.range 256).findSome? (fun w =>
    let b := Reg.hstWin + 32 * w
    let ctl := s.live (b + 16)
    if bitOf ctl 7 ∧ bitsOf ctl 4 0 = 0 ∧ bitsOf ctl 6 5 = 2 then
      (fitIn (s.hostRuns w) 0 (s.live64 (b + 8) / 1024) (hostKiB kib) 0).map (fun o => w + 65536 * o)
    else none)

/-- Host address of a handle. -/
def State.hostAddr (s : State) (handle : Nat) : Nat := s.live64 (Reg.hstWin + 32 * (handle % 256)) + 1024 * (handle / 65536)

/-- Bytes of a page in slot order. -/
def pageOf (ps : List Pair) : List Byte := ps.flatMap (fun p => p.k ++ p.v)

/-- Cut page bytes into its pairs. -/
def pairsOf (tile : Nat) (bs : List Byte) : List Pair :=
  (List.range 4).map (fun j => ⟨slice bs (2 * j * tile) tile, slice bs ((2 * j + 1) * tile) tile⟩)

/-! ### Moves (R131) -/

/-- Every tile of a page's pairs passes R161 against its entry. -/
def pairsOk (p : Pte) (ps : List Pair) : Bool :=
  (List.range 4).all (fun j => digestOk (ps.getD j Pair.empty).k (p.checkK.getD j 0) && digestOk (ps.getD j Pair.empty).v (p.checkV.getD j 0))

/-- Start a move of a page: its number. -/
def State.startMove (s : State) (kind : MoveKind) (ref : PageRef) (dest : List Nat) (bytes : List Pair) (donor : Nat) : Nat × State :=
  let id := s.mem.nextMove
  let p := s.pageAt ref
  let s := s.setPageAt ref { p with moving := true }
  (id, { s with mem := { s.mem with nextMove := id + 1, moves := s.mem.moves ++ [(id, (⟨kind, ref, dest, bytes, false, donor, false⟩ : Move))] } })

/-- Two pages are of one span of one sequence's layer. -/
def sameSpan (a b : PageRef) : Bool := a.grp == b.grp && a.tenant == b.tenant && a.sid == b.sid && a.layer == b.layer && a.page / 4 == b.page / 4

/-- Moves of one span between its home and a holder: they end together, so that requests find the span whole on one node (R91, R317). -/
def State.spanMoves (s : State) (m : Move) : List (Nat × Move) := s.mem.moves.filter (fun x => x.2.kind == m.kind && sameSpan x.2.page m.page)

/-- Pages of some spans of a layer, as references. -/
def SeqRec.spanRefs (r : SeqRec) (l lo n : Nat) : List PageRef :=
  (rangeFrom (4 * lo) (4 * n)).flatMap (fun i => (List.range r.sh.heads).map (fun h => r.ref l h i))

/-- Abandon a move: the page stays where it was (R131, R189). -/
def State.abandonMove (s : State) (id : Nat) : State :=
  match tabGet s.mem.moves id with
  | none => s
  | some m =>
    let l := match m.kind with
      | .holder _ | .back _ => s.spanMoves m
      | _ => [(id, m)]
    l.foldl (fun s x => State.setPageAt { s with mem := { s.mem with moves := tabDel s.mem.moves x.1 } } x.2.page { s.pageAt x.2.page with moving := false }) s

/-- MOVE bursts that read a tier-0 page's pairs; a masked unit's pairs are read by the hub (R172, R173). -/
def State.readPage (s : State) (ref : PageRef) (locs : List Nat) : State :=
  locs.zipIdx.foldl (fun s w =>
    let u := locUnit w.1
    if s.masked u then s
    else s.sendBursts u .move false (s.refClass ref) [.tile ref.grp ref.tenant ref.sid ref.layer ref.head ref.page w.2]) s

/-- A page that a stalled leaf waits for has come: the leaf is computed on a hub core from its bytes (R192). -/
def State.wakeFetch (s : State) (ref : PageRef) (p : Pte) : State :=
  { s with sch := { s.sch with runs := s.sch.runs.map (fun r =>
      { r with jobs := r.jobs.map (fun j =>
        if j.exec = .fetch ∧ j.ref = ref then
          let pr := p.pairs.getD (j.tile % 4) Pair.empty
          { j with exec := .hub, src := .sealed pr.k pr.v, loc := p.locs.headD 0 }
        else j) }) } }

/-- Some pages of a record, alone, as they travel between a home and a holder (R317; log 25). -/
def SeqRec.these (r : SeqRec) (ps : List (PageRef × Pte)) (home : Nat) : SeqRec :=
  { r with home := false, homeNode := home, layers := r.layers.zipIdx.map (fun y =>
    { y.1 with prov := none, heads := y.1.heads.zipIdx.map (fun h =>
      { h.1 with tailK := [], tailV := [], collect := []
                 pages := (ps.filter (fun p => decide (p.1.layer = y.2 ∧ p.1.head = h.2))).map (fun p => (p.1.page, p.2)) }) }) }

/-- One page of a record, alone. -/
def SeqRec.only (r : SeqRec) (ref : PageRef) (p : Pte) (home : Nat) : SeqRec := r.these [(ref, p)] home

/-- MEM_STATUS.shadow_backlog follows the outstanding shadows (R184). -/
def State.settleBacklog (s : State) : State :=
  if s.mem.backlog.isEmpty ∧ s.bit Reg.memStatus 0 then s.setStatus Reg.memStatus 0 0 0 else s

/-- A page's shadow is no longer outstanding (R184). -/
def State.unowed (s : State) (ref : PageRef) : State :=
  State.settleBacklog { s with mem := { s.mem with backlog := s.mem.backlog.filter (· != ref) } }

/-- Switch a page whose copy has passed its checks: the entry is rewritten, the old location freed under the reader rule (R131, Table 5.4). -/
def State.switchMove (s : State) (id : Nat) : State :=
  match tabGet s.mem.moves id with
  | none => s
  | some m =>
    let p := s.pageAt m.page
    let kib := s.refKiB m.page
    let e := s.enter
    let s := { e.2 with mem := { e.2.mem with moves := tabDel e.2.mem.moves id } }
    let p := { p with moving := false }
    let q := { p with entered := e.1 }
    match m.kind with
    | .spill1 =>
      ((s.setPageAt m.page { q with state := .spilled, kind := .tier1, locs := m.dest, pairs := m.bytes }).freeSlots true p.locs kib p.pairs).bump Reg.memStat
    | .spillPool =>
      ((s.setPageAt m.page { q with state := .spilled, kind := .pool, node := m.donor, handle := m.dest.headD 0, locs := [], pairs := [] }).freeSlots
        false p.locs kib p.pairs).bump Reg.memStat
    | .spillHost =>
      ((s.setPageAt m.page { q with state := .spilled, kind := .host, node := 0xFFFF, handle := m.dest.headD 0, gen := m.donor, locs := [], pairs := m.bytes }).freeSlots
        false p.locs kib p.pairs).bump Reg.memStat
    | .fetch =>
      let q := { q with state := .spilled, kind := .tier1, node := 0, handle := 0, gen := 0, locs := m.dest, pairs := m.bytes }
      ((s.setPageAt m.page q).bump (Reg.memStat + 8)).wakeFetch m.page q
    | .promote =>
      if s.refShadowed m.page then
        (s.setPageAt m.page { q with state := .shadowed, kind := .tier0, locs := m.dest, pairs := m.bytes, shadow := some (p.locs.headD 0, p.pairs) }).bump (Reg.memStat + 8)
      else
        ((s.setPageAt m.page { q with state := .sealed, kind := .tier0, locs := m.dest, pairs := m.bytes }).freeSlots false p.locs kib p.pairs).bump (Reg.memStat + 8)
    | .relocate => (s.setPageAt m.page { p with locs := m.dest, pairs := m.bytes }).freeSlots true p.locs kib p.pairs
    | .shift =>
      if p.kind = .tier1 then (s.setPageAt m.page { p with locs := m.dest, pairs := m.bytes }).freeSlots false p.locs kib p.pairs
      else
        match p.shadow with
        | some (ptr, ps) => (s.setPageAt m.page { p with shadow := some (m.dest.headD 0, m.bytes) }).freeSlots false [ptr] kib ps
        | none => s.setPageAt m.page p
    | .shadow =>
      let st := if p.state = .sealed then PageState.shadowed else p.state
      let s := match p.shadow with | some x => s.freeSlots false [x.1] kib x.2 | none => s
      (s.setPageAt m.page { p with state := st, shadow := some (m.dest.headD 0, m.bytes) }).unowed m.page
    | .back _ => s.setPageAt m.page { p with moving := true }
    | .holder n =>
      (s.setPageAt m.page { q with state := .remote, kind := .holder, node := n, locs := [], pairs := [] }).freeSlots true p.locs kib p.pairs

/-- A move has all four pairs. -/
def Move.full (m : Move) : Bool := m.bytes.length == 4 && m.bytes.all (fun p => p != Pair.empty)

/-- The request that carries a page to a pool slice, once it has been read from tier 1 (R189, R284). -/
def State.sendPool (s : State) (id : Nat) (m : Move) : State :=
  let p := s.pageAt m.page
  let sh := s.refShape m.page
  let handle := m.dest.headD 0
  let checks := (List.range 4).flatMap (fun j => leBytes 4 (p.checkK.getD j 0) ++ leBytes 4 (p.checkV.getD j 0))
  let bytes := pageOf m.bytes
  s.nodeOp m.donor (s.remoteMsg 0x12 (handle % pow2 32) (1024 * (handle / pow2 32)) bytes.length 0 (sh.kvfmt + 4 * sh.dcode) (bytes ++ checks)) (.spill id)

/-- A page's copy stands at the other node, or is ready for it: with all of its span the entries switch. What a holder gives back goes to the home as one record, and the holder keeps its copies until the home has taken them (R317; log 25). -/
def State.spanSwitch (s : State) (id : Nat) : State :=
  match tabGet s.mem.moves id with
  | none => s
  | some m =>
    let s := { s with mem := { s.mem with moves := tabPut s.mem.moves id { m with copied := true } } }
    let l := s.spanMoves m
    if !l.all (fun x => x.2.copied) then s
    else
      let s := match m.kind, s.refOwner m.page with
        | .back n, some r => s.emit (.transfer n (r.these (l.map (fun x => (x.2.page, { s.pageAt x.2.page with
            state := .sealed, kind := .tier0, moving := false, locs := [], pairs := x.2.bytes, shadow := none }))) n))
        | _, _ => s
      l.foldl (fun s x => s.switchMove x.1) s

/-- A pair of a page has been read and checked for the page's move: when every tile has passed, the move goes on (R131, R172). -/
def State.movePair (s : State) (ref : PageRef) (pair : Nat) (bytes : Pair) : State :=
  match s.mem.moves.find? (fun m => decide (m.2.page = ref)) with
  | none => s
  | some (id, m) =>
    let m := { m with bytes := listPut Pair.empty m.bytes pair bytes }
    let s := { s with mem := { s.mem with moves := tabPut s.mem.moves id m } }
    if !m.full then s
    else
      match m.kind with
      | .spill1 | .relocate | .shadow | .shift | .promote => s.switchMove id
      | .back _ => s.spanSwitch id
      | .spillPool => s.sendPool id m
      | .holder n =>
        -- the copy travels over the system queue pair as a held record of one page; the switch waits for its answer (R317; log 25)
        match s.refOwner ref with
        | none => s
        | some r =>
          let p := s.pageAt ref
          let pte := { p with state := .sealed, kind := .tier0, moving := false, locs := [], pairs := m.bytes, shadow := none }
          (s.emit (.transfer n (r.only ref pte s.map.id))).nodeOp n (s.remoteMsg 0x12 0 0 0 0 0 []) (.spill id)
      | _ => s

/-! ### Tier 2 -/

/-- Spill a tier-1 page to a pool slice (R189): the hub reads it under tier 1's code first (R15, R179). -/
def State.spillPool (s : State) (ref : PageRef) (donor handle : Nat) : State := (s.startMove .spillPool ref [handle] [] donor).2

/-- Spill a tier-1 page to host memory, encrypted (R189, R361); the copy ends at PAGE_COPY_DONE (log 26). -/
def State.spillHost (s : State) (ref : PageRef) (handle : Nat) : State :=
  let p := s.pageAt ref
  let serial := s.sec.spillSerial
  let s := { s with sec := { s.sec with spillSerial := serial + 1 } }
  let m := s.startMove .spillHost ref [handle] p.pairs serial
  m.2.hostWrite 0 (m.2.hostAddr handle) (s.sealPage serial ref p (pageOf p.pairs))

/-- Spill one tier-1 page as Table 7.3 allows, not to an excluded donor. -/
def State.spillTier2 (s : State) (ref : PageRef) (skip : Nat) : Option State :=
  let c := s.refClass ref
  let kib := s.refKiB ref
  let sh := s.refShadowed ref
  match (if s.poolOk c then s.pickPool sh kib skip else none) with
  | some d => some (s.spillPool ref d.1 d.2)
  | none => if !sh && s.hostOk c then (s.pickHost kib).map (fun h => s.spillHost ref h) else none

/-- Fetch a tier-2 page into tier 1 (R190, R191), a pool page from one of its donors; `again`: the page's other donor has failed (R194). None where tier 1 has no room or the page is not in tier 2. -/
def State.fetchAt (s : State) (ref : PageRef) (donor : Nat) (again : Bool) : Option State :=
  let p := s.pageAt ref
  let kib := s.refKiB ref
  let n := 4 * 1024 * kib
  if p.state ≠ .spilled ∨ p.moving then none
  else
    match p.kind with
    | .pool =>
      match s.alloc.pick1 kib with
      | none => none
      | some (o, a) =>
        let s := { s with pgw := { s.pgw with allocs := a.serial } }
        let m := s.startMove .fetch ref [o] [] donor
        let m := (m.1, { m.2 with mem := { m.2.mem with moves := tabMap m.2.mem.moves m.1 (fun x => { x with retried := again }) } })
        some (m.2.nodeOp donor (m.2.remoteMsg 0x10 (p.handle % pow2 32) (1024 * (p.handle / pow2 32)) n 0 0 []) (.poolFetch m.1))
    | .host =>
      match s.alloc.pick1 kib with
      | none => none
      | some (o, a) =>
        let s := { s with pgw := { s.pgw with allocs := a.serial } }
        let m := s.startMove .fetch ref [o] p.pairs p.gen
        m.2.hostRead 0 (m.2.hostAddr p.handle) (n + 16) (.page m.1)
    | _ => none

/-- Fetch a tier-2 page from where its entry says it is. -/
def State.fetchPage (s : State) (ref : PageRef) : Option State := s.fetchAt ref (s.pageAt ref).node false

/-! ### Watermarks, Dusk and Dawn at a minute (R184, R187, R188, R191) -/

/-- n 256ths of a total. -/
def part256 (n total : Nat) : Nat := n * total / 256

/-- KiB that moves under way will free. -/
def State.movingKiB (s : State) (f : MoveKind → Bool) : Nat :=
  s.mem.moves.foldl (fun n m => if f m.2.kind then n + 4 * s.refKiB m.2.page else n) 0

/-- The move leaves tier 0. -/
def MoveKind.leaves0 : MoveKind → Bool
  | .spill1 | .holder _ | .back _ => true
  | _ => false
/-- The move leaves tier 1. -/
def MoveKind.leaves1 : MoveKind → Bool
  | .spillPool | .spillHost => true
  | _ => false

/-- A page Dusk may spill to tier 1: SEALED in tier 0 of a RECOMPUTE class (Table 7.3). -/
def State.isSpillVictim (s : State) (p : PageRef × Pte) : Bool :=
  p.2.state == .sealed && p.2.kind == .tier0 && !s.refShadowed p.1

/-- A page Dusk may spill to tier 2 (Table 7.3). -/
def isTier1Victim (p : PageRef × Pte) : Bool := p.2.state == .spilled && p.2.kind == .tier1

/-- A page finds its slice at its share of tier 1: Dusk spills the slice's own oldest tier-1 page to tier 2 (R302). -/
def State.makeRoom1 (s : State) (ref : PageRef) : State :=
  let sl := s.refSlice ref
  if s.roomT1 sl (s.refKiB ref) then s
  else match s.victim (fun p => isTier1Victim p && s.refSlice p.1 == sl && (s.isoPage p.1 == s.isoPage ref)) with
    | some v => (s.spillTier2 v.1 0xFFFF).getD s
    | none => s

/-- Dusk at tier 0: drops and spills until the projected free space reaches a target; a victim that has no room in tier 1 is passed over (R187). -/
def State.dusk0 (s : State) (target : Nat) (migrate : Bool) (passed : List PageRef) : Nat → State
  | 0 => s
  | f + 1 =>
    if target ≤ s.freeBare + s.movingKiB MoveKind.leaves0 then s
    else
      match s.victim (fun p => !s.isoPage p.1 && !passed.contains p.1 && (isDropVictim p || (migrate && s.isSpillVictim p))) with
      | none => s
      | some v =>
        if isDropVictim v then (s.dropCopy v.1).dusk0 target migrate passed f
        else
          match (if s.roomT1 (s.refSlice v.1) (s.refKiB v.1) then s.alloc.pick1 (s.refKiB v.1) else none) with
          | none => (s.makeRoom1 v.1).dusk0 target migrate (v.1 :: passed) f
          | some (o, a) =>
            let s := { s with pgw := { s.pgw with allocs := a.serial } }
            ((s.startMove .spill1 v.1 [o] [] 0).2.readPage v.1 v.2.locs).dusk0 target migrate passed f

/-- Dusk at tier 1; victims with no permitted destination are passed over (R187). -/
def State.dusk1 (s : State) (target : Nat) (passed : List PageRef) : Nat → State
  | 0 => s
  | f + 1 =>
    if target ≤ s.freeTier1 + s.movingKiB MoveKind.leaves1 then s
    else
      match s.victim (fun p => isTier1Victim p && !s.isoPage p.1 && !passed.contains p.1) with
      | none => s
      | some v =>
        match s.spillTier2 v.1 0xFFFF with
        | some s => s.dusk1 target passed f
        | none => s.dusk1 target (v.1 :: passed) f

/-- KiB over its share that a slice holds, in tier 0 and tier 1 (R302). -/
def State.excess (s : State) (sl : Nat) : Nat × Nat :=
  match s.map.cur with
  | none => (0, 0)
  | some _ =>
    let e := s.memb sl
    (s.sliceBare sl - part256 ((e.map (·.bare)).getD 0) s.bareKiB, s.sliceT1 sl - part256 ((e.map (·.tier1)).getD 0) s.totalTier1)

/-- Spill a slice's own oldest tier-0 pages down to its share in a MIGRATE minute (R302); the count is of KiB still over. -/
def State.shrink0 (s : State) (sl ov : Nat) : Nat → State
  | 0 => s
  | f + 1 =>
    if ov = 0 then s
    else
      match s.victim (fun p => s.refSlice p.1 == sl && (isDropVictim p || s.isSpillVictim p)) with
      | none => s
      | some v =>
        let kib := 4 * s.refKiB v.1
        if isDropVictim v then (s.dropCopy v.1).shrink0 sl (ov - kib) f
        else
          match (if s.roomT1 sl (s.refKiB v.1) then s.alloc.pick1 (s.refKiB v.1) else none) with
          | none => s
          | some (o, a) =>
            let s := { s with pgw := { s.pgw with allocs := a.serial } }
            ((s.startMove .spill1 v.1 [o] [] 0).2.readPage v.1 v.2.locs).shrink0 sl (ov - kib) f

/-- Spill a slice's own tier-1 pages to tier 2 down to its share (R302). -/
def State.shrink1 (s : State) (sl ov : Nat) (passed : List PageRef) : Nat → State
  | 0 => s
  | f + 1 =>
    if ov = 0 then s
    else
      match s.victim (fun p => isTier1Victim p && s.refSlice p.1 == sl && !passed.contains p.1) with
      | none => s
      | some v =>
        match s.spillTier2 v.1 0xFFFF with
        | some s => s.shrink1 sl (ov - 4 * s.refKiB v.1) passed f
        | none => s.shrink1 sl ov (v.1 :: passed) f

/-- The share rule of R302 in a MIGRATE minute. -/
def State.shareMinute (s : State) : State :=
  if s.owner ≠ Owner.migrate then s
  else (List.range 24).foldl (fun s sl =>
    let x := s.excess sl
    let n := s.allPages.length + 1
    let s := if x.1 = 0 then s else s.shrink0 sl x.1 n
    if x.2 = 0 then s else s.shrink1 sl x.2 [] n) s

/-- Free bare memory is below bare_low (R188). -/
def State.belowLow0 (s : State) : Bool := decide (s.freeBare < part256 (s.fld Reg.memDuskCfg 7 0) s.bareKiB)
/-- Free tier 1 is below t1_low (R188). -/
def State.belowLow1 (s : State) : Bool := decide (s.freeTier1 < part256 (s.fld Reg.memDuskCfg 23 16) s.totalTier1)

/-- The watermark checks of a minute (R188). -/
def State.duskMinute (s : State) : State :=
  let bare := s.bareKiB
  let t1 := s.totalTier1
  let low0 := s.belowLow0
  let low1 := s.belowLow1
  let high0 := part256 (s.fld Reg.memDuskCfg 15 8) bare
  let high1 := part256 (s.fld Reg.memDuskCfg 31 24) t1
  let s := s.putStatus Reg.memStatus (putBits (putBits (s.live Reg.memStatus) 2 2 (b2n low0)) 3 3 (b2n low1))
  let on0 := low0 || (s.mem.dusk0 && decide (s.freeBare < high0))
  let on1 := low1 || (s.mem.dusk1 && decide (s.freeTier1 < high1))
  let s := { s with mem := { s.mem with dusk0 := on0, dusk1 := on1, lowAll0 := s.mem.lowAll0 && low0, lowAll1 := s.mem.lowAll1 && low1 } }
  let n := s.allPages.length + 1
  let s := if on0 then s.dusk0 high0 (decide (s.owner = Owner.migrate) || decide (s.mode = 3)) [] n else s
  if on1 then s.dusk1 high1 [] n else s

/-- Outstanding shadows, oldest first, in a MIGRATE minute, within the slice's share of tier 1 (R184, R302). A page that has left tier 0 owes none; a copy stays owed until it is switched in, also one that takes a failed one's place (R195). -/
def State.shadowMinute (s : State) : List PageRef → State
  | [] => s.settleBacklog
  | ref :: rest =>
    let p := s.pageAt ref
    if p.state = .remote ∧ p.moving then s.shadowMinute rest
    else if (p.state ≠ .sealed ∧ p.state ≠ .shadowed) ∨ p.kind ≠ .tier0 then (s.unowed ref).shadowMinute rest
    else if p.moving then s.shadowMinute rest
    else
      match (if s.roomT1 (s.refSlice ref) (s.refKiB ref) then s.alloc.pick1 (s.refKiB ref) else none) with
      | none => (s.makeRoom1 ref).shadowMinute rest
      | some (o, a) =>
        let s := { s with pgw := { s.pgw with allocs := a.serial } }
        (((s.startMove .shadow ref [o] [] 0).2.readPage ref p.locs)).shadowMinute rest

/-- Sealed pages with a tier-1 run or copy in a failing unit move it elsewhere in tier 1 (R195). -/
def State.leaveUnit (s : State) (v : PageRef × Pte) : State :=
  if v.2.moving then s
  else match s.alloc.pick1 (s.refKiB v.1) with
    | none => s
    | some (o, a) => (({ s with pgw := { s.pgw with allocs := a.serial } }).startMove .shift v.1 [o] [] 0).2

/-- A page has a tier-1 run, or a tier-1 copy, that meets a unit of tier 1, and may move (R128, R195). -/
def State.inUnit (s : State) (u : Nat) (v : PageRef × Pte) : Bool :=
  let meets (ptr : Nat) : Bool := decide (ptr < tier1Lo + 64 * u + 64 ∧ tier1Lo + 64 * u < ptr + 4 * s.refKiB v.1)
  (v.2.state == .spilled && v.2.kind == .tier1 && meets (v.2.locs.headD 0)) || (!s.mem.backlog.contains v.1 && (v.2.shadow.map (fun x => meets x.1)).getD false)

/-- Live contents leave failing units (R195). -/
def State.leaveUnits (s : State) : State :=
  s.mem.failing.foldl (fun s u => (s.allPages.filter (fun v => s.inUnit u v)).foldl State.leaveUnit s) s

/-- Ask a holder for a page that requests need again, and for all it holds of its span: the REMOTE entries alone, without bytes (R317; log 25). -/
def State.askHolder (s : State) (ref : PageRef) : State :=
  let p := s.pageAt ref
  match s.refOwner ref with
  | none => s
  | some r =>
    let span := if ref.grp then [(ref, p)]
      else ((r.spanRefs ref.layer (ref.page / 4) 1).map (fun x => (x, s.pageAt x))).filter (fun x => x.2.state == .remote && x.2.node == p.node && !x.2.moving && !x.1.grp)
    (span.foldl (fun s x => s.setPageAt x.1 { x.2 with moving := true }) s).emit (.transfer p.node ((if ref.grp then { r with sid := p.handle } else r).these span p.node))

/-- The pool-table entry of the slice that holds a page (R304). -/
def State.poolEnt (s : State) (p : Pte) : Option PoolEnt :=
  s.map.cur.bind (fun mp => (mp.pools.find? (fun x => x.2.key == p.handle % pow2 32 && x.2.borrower == s.map.id)).map Prod.snd)

/-- The other donor of a page's mirrored slice. -/
def State.otherDonor (s : State) (p : Pte) (donor : Nat) : Option Nat :=
  match s.poolEnt p with
  | some e => if p.kind = .pool ∧ e.mirror ≠ 0xFFFF then some (if donor = e.donor then e.mirror else e.donor) else none
  | none => none

/-- Tier-2 pages that a request still waits for, or whose donor is dead, are asked for again where tier 1 had no room (R192, R194). -/
def State.fetchMinute (s : State) : State :=
  let dead (n : Nat) : Bool := (s.map.cur.bind (fun m => tabGet m.nodes n)).any (fun e => e.state == .dead)
  let waited := s.sch.runs.flatMap (fun r => (r.jobs.filter (fun j => j.exec == .fetch)).map (·.ref))
  -- a dead donor's page comes from the donor that lives, and a new mirror pair is written (R194)
  let gone := s.allPages.filterMap (fun p => (s.otherDonor p.2 p.2.node).bind (fun o =>
    if dead p.2.node then some (p.1, o) else if dead o then some (p.1, p.2.node) else none))
  let s := gone.foldl (fun s x => (s.fetchAt x.1 x.2 true).getD s) s
  waited.foldl (fun s ref => (s.fetchPage ref).getD s) s

/-- Queue a tier-1 page for promotion, fetch a tier-2 page, or ask a holder for its page (R190, R317). -/
def State.dawnWant (s : State) (ref : PageRef) : State :=
  let p := s.pageAt ref
  if p.state = .remote ∧ p.kind = .holder ∧ !p.moving ∧ s.bit Reg.memDawnCfg 0 ∧
      part256 (s.fld Reg.memDuskCfg 7 0) s.bareKiB ≤ s.freeBare then s.askHolder ref
  else if p.state ≠ .spilled ∨ !s.bit Reg.memDawnCfg 0 then s
  else
    let s := if p.kind = .tier1 then s else (s.fetchPage ref).getD s
    if s.mem.dawn.contains ref then s else { s with mem := { s.mem with dawn := s.mem.dawn ++ [ref] } }

/-- Promotions of a MIGRATE minute (R190, R191): while free bare memory is at its low mark, a page of an isolated class while its slice is below its bare share (R366). -/
def State.promoteAll (s : State) : List PageRef → State
  | [] => s
  | ref :: rest =>
    let p := s.pageAt ref
    let drop (s : State) : State := { s with mem := { s.mem with dawn := s.mem.dawn.filter (· != ref) } }
    if p.state ≠ .spilled ∨ (p.kind ≠ .tier1 ∧ p.kind ≠ .pool ∧ p.kind ≠ .host) then (drop s).promoteAll rest
    else if p.kind ≠ .tier1 ∨ p.moving then s.promoteAll rest
    else if s.isoPage ref ∧ s.overBare (s.refSlice ref) then s.promoteAll rest
    else if !s.isoPage ref ∧ s.freeBare < part256 (s.fld Reg.memDuskCfg 7 0) s.bareKiB then s.promoteAll rest
    else
      match s.refOwner ref with
      | none => (drop s).promoteAll rest
      | some r =>
        match s.pick0 r ref.layer ref.head ref.page (s.gatherNow r.cls) false s.alloc [] with
        | none => s.promoteAll rest
        | some (ws, a) =>
          let s := drop { s with pgw := { s.pgw with allocs := a.serial } }
          ((s.startMove .promote ref ws [] 0).2).promoteAll rest

/-- Spilled pages of an isolated class whose slice is below its bare share are wanted without a request (R366). -/
def State.isoDawn (s : State) : State :=
  let want := s.allPages.filter (fun p => p.2.state == .spilled && s.isoPage p.1 && !s.overBare (s.refSlice p.1))
  want.foldl (fun s p => s.dawnWant p.1) s

/-- Dawn in a MIGRATE minute: urgent classes first, then in order. -/
def State.dawnMinute (s : State) : State :=
  if !s.bit Reg.memDawnCfg 4 then s
  else
    let s := s.isoDawn
    let q := s.mem.dawn
    let urgent (p : PageRef) : Bool := s.urgentClass (s.refClass p)
    s.promoteAll (q.filter urgent ++ q.filter (fun p => !urgent p))

/-- Pages of closed bank groups move out in MIGRATE minutes (R330). -/
def State.evacuate (s : State) : List (PageRef × Pte) → State
  | [] => s
  | v :: rest =>
    match s.refOwner v.1 with
    | none => s.evacuate rest
    | some r =>
      match s.pick0 r v.1.layer v.1.head v.1.page (s.gatherNow r.cls) false s.alloc [] with
      | none => s.evacuate rest
      | some (ws, a) =>
        let s := { s with pgw := { s.pgw with allocs := a.serial } }
        ((s.startMove .relocate v.1 ws [] 0).2.readPage v.1 v.2.locs).evacuate rest

/-- Sealed pages with a slot in a closed bank group. -/
def State.stranded (s : State) : List (PageRef × Pte) :=
  s.allPages.filter (fun p => (p.2.state == .sealed || p.2.state == .shadowed) && p.2.kind == .tier0 && !p.2.moving &&
    p.2.locs.any (fun w => s.bgClosed (locUnit w)))

/-! ### Persistent failures (R163, R185) -/

/-- Bank groups that the other pages of a page's span use, and that moves of them will use (R130). -/
def State.spanNeighbours (s : State) (ref : PageRef) : List Nat :=
  match s.refOwner ref with
  | none => []
  | some r => ((rangeFrom (ref.page / 4 * 4) 4).filter (· != ref.page)).flatMap (fun i => s.headUnits r ref.layer ref.head i 1)

/-- Bank groups that the aligned block of 4 spans of a page of an urgent class uses, over every KV head (R342). -/
def State.urgentBlock (s : State) (ref : PageRef) : List Nat :=
  match s.refOwner ref with
  | none => []
  | some r => if s.bit (Reg.schClassCfg + 4 * r.cls) 20 then (List.range r.sh.heads).flatMap (fun k => s.headUnits r ref.layer k (ref.page / 16 * 16) 16) else []

/-- A pair of a page may take a new slot in a unit: where the layout now is gather and the page stands gathered, in that unit; else in another stack than the page's other pairs, and in no bank group of the span (R130), nor, of an urgent class, of its block of 4 spans (R342). -/
def State.pairFits (s : State) (ref : PageRef) (pair u : Nat) : Bool :=
  let p := s.pageAt ref
  let others := (p.locs.zipIdx.filter (fun w => w.2 != pair)).map (fun w => locUnit w.1)
  if s.gatherNow (s.refClass ref) ∧ others.dedup.length ≤ 1 then others.all (· == u)
  else others.all (fun x => x / 256 != u / 256) && locUnit (p.locs.getD pair 0) != u && !(s.spanNeighbours ref).contains u &&
    !(s.urgentBlock ref).contains u

/-- Record a digest failure (Tables 6.16, 6.17). -/
def State.recordFail (s : State) (loc : Nat) (isV persistent : Bool) (reader : Nat) (checkWordDiffers : Bool) : State :=
  let u := locUnit loc
  ((s.setLive Reg.vspFailLoc loc).setLive Reg.vspFailInfo
    (u + 2048 * b2n isV + 4096 * b2n persistent + 8192 * reader + 32768 * b2n checkWordDiffers))

/-! ### Tier-2 failures (R194) -/

/-- The donor that failed, where another has served: none is 0xFFFF. -/
def State.failedDonor (s : State) (p : Pte) (served : Nat) : Nat := (s.otherDonor p served).getD 0xFFFF

/-- A tier-2 fetch failed: the mirror donor is asked, or the page is lost. -/
def State.fetchFailed (s : State) (id : Nat) : State :=
  match tabGet s.mem.moves id with
  | none => s
  | some m =>
    let p := s.pageAt m.page
    let s := s.raiseBit Reg.memEvent 2
    match s.otherDonor p m.donor with
    | some other =>
      if !m.retried then
        let m' := { m with donor := other, retried := true }
        let s := { s with mem := { s.mem with moves := tabPut s.mem.moves id m' } }
        s.nodeOp other (s.remoteMsg 0x10 (p.handle % pow2 32) (1024 * (p.handle / pow2 32)) (4096 * s.refKiB m.page) 0 0 []) (.poolFetch id)
      else (s.abandonMove id).markLost m.page
    | none => (s.abandonMove id).markLost m.page

/-- A fetched page's bytes have come: checked against the entry, then switched to tier 1 (R161, R191). -/
def State.fetchDone (s : State) (id : Nat) (bytes : List Byte) : State :=
  match tabGet s.mem.moves id with
  | none => s
  | some m =>
    let p := s.pageAt m.page
    let sh := s.refShape m.page
    let ps := pairsOf (tileSize sh.kvfmt sh.d) bytes
    if pairsOk p ps then
      let s := State.switchMove { s with mem := { s.mem with moves := tabPut s.mem.moves id { m with bytes := ps } } } id
      -- from the other donor: a new mirror pair is written in the background (R194)
      if m.retried then (s.spillTier2 m.page (s.failedDonor p m.donor)).getD s else s
    else s.fetchFailed id

/-- A spill to tier 2 failed: abandoned, and Dusk picks a destination on another donor (R189). -/
def State.spillFailed (s : State) (id : Nat) : State :=
  match tabGet s.mem.moves id with
  | none => s
  | some m =>
    let s := s.abandonMove id
    match m.kind with
    | .spillPool => (s.spillTier2 m.page m.donor).getD s
    | _ => s

end Sys2Proof.Machine
end

