-- ==== Sys2Proof/Machine/RunOps.lean ====
section
/-!
DEFINITION. Requests from dispatch to reply (chapter 03): homes (R303, R313–R316), replies (R76), stalls (R192, R193), leaves and where they are computed (R84–R86, R91), records (R87–R90), holds of a reservation (R79).
-/

namespace Sys2Proof.Machine

open Sys2Proof

/-! ### Homes (R303, R314–R316, R321, R322) -/

/-- The home slot of a sequence for a class (R303). -/
def State.homeSlot (s : State) (tenant sid cls : Nat) : Nat :=
  let e := (s.map.cur.bind (fun m => tabGet m.slices (s.sliceOf cls))).getD ⟨0, 0, 0⟩
  let key := sid % pow2 64 ^^^ (tenant * pow2 52 % pow2 64)
  e.base + key * 0xC2B2AE3D27D4EB4F % pow2 64 / pow2 (64 - e.log2)

/-- The home node of a slot; a slot with none names no node. A node with no map takes itself for every home (log 29). -/
def State.homeOf (s : State) (slot : Nat) : Nat :=
  match s.map.cur with | none => s.map.id | some m => (tabGet m.homes slot).getD 0xFFFF

/-- The loss bit of a slot (R322). -/
def State.lossBit (s : State) (slot : Nat) : Bool :=
  match s.map.cur with | none => false | some m => m.loss.contains slot

/-- The request names a sequence that has a home. -/
def Op.homed : Op → Bool
  | .append | .attend | .appendAttend | .verify | .commit | .prefixBind | .release | .projectAttend => true
  | _ => false

/-- Operation of a held request. -/
def Req.op (r : Req) : Op := (opOf (Msg.opcode r.msg)).getD .attest
/-- Arrived on another node first (R314). -/
def Req.fwd (r : Req) : Bool := match r.arr.via with | .fwd _ => true | _ => false

/-- A sequence this node is home to (Table 5.8). -/
def State.homeSeq (s : State) (tenant sid : Nat) : Option SeqRec :=
  match s.findSeq tenant sid with
  | some r => if r.home && (r.tomb).isNone then some r else none
  | none => none

/-- Len(l) of a sequence for a reply; Len(0) where every layer is named (Table 3.6). -/
def SeqRec.lenFor (q : SeqRec) (l : Nat) : Nat := if l = 0xFFFF then (q.layer 0).len else (q.layer l).len

/-- The request's sequence is leaving this node (R315). -/
def State.leaving (s : State) (r : Req) : Bool :=
  r.op.homed && s.map.outgoing.any (fun x => x.1 == Msg.tenant r.msg && x.2.1 == Msg.sid r.msg)

/-- The request's sequence has not yet arrived at this node, its home (R315, R321). -/
def State.awaited (s : State) (r : Req) : Bool :=
  let t := Msg.tenant r.msg
  let i := Msg.sid r.msg
  r.op.homed && s.map.incoming.contains (s.homeSlot t i r.cls) && (s.homeSeq t i).isNone

/-- A held request may not be dispatched (R315, R321). -/
def State.holdsBack (s : State) (r : Req) : Bool := s.leaving r || s.awaited r

/-- The home of a request's sequence where it is another node (R303, R314). -/
def State.awayHome (s : State) (r : Req) (op : Op) : Option Nat :=
  let home := s.homeOf (s.homeSlot (Msg.tenant r.msg) (Msg.sid r.msg) r.cls)
  if op.homed ∧ home ≠ s.map.id then some home else none

/-! ### Replies (R76) -/

/-- A finished reply waits for REPLY_SEND; STALE_MAP completions of this node are counted (R325). -/
def State.reply (s : State) (x : Reply) : State :=
  let s := if x.status = Status.staleMap ∧ !x.relayed then s.bump (Reg.mapStat + 4) else s
  { s with sch := { s.sch with replies := s.sch.replies ++ [{ x with gen := some (x.gen.getD (x.req.gen.getD s.genLow)) }] } }

/-- A reply without records. -/
def Reply.plain (r : Req) (tDispatch status detail length : Nat) : Reply :=
  { req := r, tDispatch := tDispatch, status := status, detail := detail, length := length, records := 0, remoteBlocks := 0
    body := [], spans := (0, 0), eflags := 4 * b2n r.heldMove, program := [], weights := [], gen := none, holder := r.op = .spanWork, noRecord := false, notBefore := 0, relayed := false }

/-- Completed before dispatch (R78): length 0. -/
def State.refuse (s : State) (r : Req) (status detail : Nat) : State := s.reply (Reply.plain r 0 status detail 0)

/-- Completed at or after dispatch. -/
def State.answer (s : State) (r : Req) (status detail length : Nat) : State :=
  s.reply { (Reply.plain r s.now status detail length) with
    notBefore := if s.bit (Reg.secIsoCfg + 4 * r.cls) 0 then s.now + 16 * s.fld (Reg.secIsoCfg + 4 * r.cls) 31 16 else 0 }

/-- Send a request on to a node, once, as class FWD (R314, R316). -/
def State.forward (s : State) (r : Req) (dst : Nat) : State :=
  ({ s with sch := { s.sch with forwarded := s.sch.forwarded ++ [r] } }.bump Reg.mapStat).nodeOp dst r.msg (.forward r.rid) 1 r.urgent

/-! ### Stalls (R192, R193) -/

/-- Code of a stall cause (Table 7.4). -/
def Stall.code : Stall → Nat
  | .reserve => 0 | .spareTail => 1 | .shadowWrite => 2 | .fetchLate => 3 | .fetchFail => 4 | .digestRepair => 5
  | .weightRepair => 6 | .tableRepair => 7

/-- Count a request once for a cause. -/
def State.stallCount (s : State) (tenant : Nat) (c : Stall) : State := s.bump (Reg.memStallTenant + 64 * tenant + 8 * c.code)
/-- Charge a stall's ticks, all of them to the frame in which the stall ends (R193; DESIGN CHOICE, log 114). -/
def State.stallTicks (s : State) (tenant : Nat) (c : Stall) (since : Nat) : State :=
  s.bump (Reg.memStallTenant + 64 * tenant + 8 * c.code + 4) (s.now - since)

/-- A dispatched request stalls with a cause: counted once for it, however often it returns (R193). -/
def State.stall (s : State) (rid : Nat) (c : Stall) : State :=
  match s.run rid with
  | none => s
  | some r =>
    if r.stalls.any (fun x => x.1 == c) then s
    else
      let t := s.mapRun rid (fun r => { r with stalls := r.stalls ++ [(c, s.now)], causes := r.causes ++ [c], stalled := true })
      if r.causes.contains c then t else t.stallCount (Msg.tenant r.req.msg) c

/-- A stall of a cause ends now. -/
def State.unstall (s : State) (rid : Nat) (c : Stall) : State :=
  match s.run rid with
  | none => s
  | some r =>
    match r.stalls.find? (fun x => x.1 == c) with
    | none => s
    | some x => (s.mapRun rid (fun r => { r with stalls := r.stalls.filter (fun y => y.1 != c) })).stallTicks (Msg.tenant r.req.msg) c x.2

/-! ### Rotary tables and weight objects in use (R74, R196, R213) -/

/-- Object number of a rotary table. -/
abbrev rotObj (idx : Nat) : Nat := 1024 + idx
/-- The active version of a weight object. -/
def State.activeObj (s : State) (n : Nat) : Option WObj := (tabGet s.prog.objects n).bind (·.active)

/-- An active rotary table of head dimension d, with its version (R74, R216). -/
def State.rotary (s : State) (idx d : Nat) : Option Turn :=
  match tabGet s.prog.objects (rotObj idx) with
  | none => none
  | some sl => match sl.active with
    | none => none
    | some o => match rotaryOf o.tiles.flatten with
      | some t => if o.kind = 1 ∧ t.d = d then some ⟨idx, sl.version, t, o.manifest⟩ else none
      | none => none

/-- Weight tiles of a table that a position needs (R75). -/
def Rotary.tiles (t : Rotary) (p : Nat) : List Nat :=
  let h := t.r / 2
  if h = 0 then []
  else [p % 1024, 1024 + p % 1024, 2048 + p / 1024, 6144 + p / 1024].flatMap (fun row =>
    let a := 16 + 4 * row * h
    [a / 65536, (a + 4 * h - 1) / 65536])

/-- Some of these tiles are poisoned: whether the repair of one has been given up (R196, R197). -/
def State.poisoned (s : State) (keys : List TileKey) : Option Bool :=
  match s.mem.poison.filter (fun p => keys.contains p.1) with
  | [] => none
  | l => some (l.any (fun p => p.2.2))

/-- Rotate a row where a table is named. -/
def Turn.row (t : Option Turn) (p : Nat) (x : List Nat) : List Nat :=
  match t with | some t => ropeRow t.table p x | none => x

/-- Weight tiles that rotating positions p … p + n − 1 needs. -/
def Turn.needs (t : Option Turn) (p n : Nat) : List TileKey :=
  match t with
  | none => []
  | some t => (((rangeFrom p n).flatMap t.table.tiles).foldl setInsert []).map (fun k => ⟨rotObj t.idx, t.version, k⟩)

/-- Look up a named table: `error` where the check of R74 fails. -/
def State.turn (s : State) (use : Bool) (idx d : Nat) : Except Unit (Option Turn) :=
  if !use then .ok none
  else match s.rotary idx d with | some t => .ok (some t) | none => .error ()

/-- Manifest digests of the tables used, by index (Table 13.5). -/
def turnDigests (ts : List (Option Turn)) : List (List Byte) :=
  (List.range 1024).filterMap (fun i => ((ts.filterMap id).find? (fun t => t.idx == i)).map (·.manifest))

/-- The table whose repair has been given up stands in the way: its index, the detail of WEIGHTS_UNAVAILABLE (R75, R196). -/
def State.gaveUp (s : State) (keys : List TileKey) : Option Nat :=
  (keys.find? (fun k => s.mem.poison.any (fun p => p.1 == k && p.2.2))).map (fun k => k.obj - 1024)

/-! ### What a request attends over -/

/-- A candidate's view: the layer as it stands for it, its length, its query position. -/
structure Cand where
  /-- Layer. -/
  lr : LayerRec
  /-- Length. -/
  len : Nat
  /-- Query position. -/
  q : Nat
  deriving DecidableEq, Repr

/-- An entry of a layer view as the walker resolves it. -/
def State.entry (s : State) (p : Pte) (l h : Nat) : Pte :=
  if p.kind = .shared ∧ p.state ≠ .free then ((s.group p.group).map (fun g => g.pte l h)).getD Pte.free else p

/-- Where the pages of a span of a layer lie: here (none), or at holders (R91). -/
def State.spanPlaces (s : State) (lr : LayerRec) (l span : Nat) : List (Option Nat) :=
  (lr.heads.zipIdx.flatMap (fun h => (rangeFrom (4 * span) 4).filterMap (fun i =>
    let p := s.entry (h.1.page i) l h.2
    match p.state with
    | .free | .tombstone => none
    | .remote => if p.kind = .holder then some (some p.node) else none
    | _ => some none))).dedup

/-- A page holds sealed rows of a layer here. -/
def Pte.here (p : Pte) : Bool := p.state == .sealed || p.state == .shadowed || p.state == .spilled || p.state == .tail

/-- Spans with an unmasked position for some candidate: first and count. -/
def spanUnion (m : List Byte) (cs : List Cand) : Nat × Nat :=
  let iv := (cs.map (fun c => (maskOf m c.q).spans c.len)).filter (fun x => decide (x.2 ≠ 0))
  match iv with
  | [] => (0, 0)
  | x :: t =>
    let lo := t.foldl (fun a y => min a y.1) x.1
    let hi := t.foldl (fun a y => max a (y.1 + y.2)) (x.1 + x.2)
    (lo, hi - lo)

/-- Every page of a gathered span stands in tier 0 in one bank group, SEALED or SHADOWED (R130). -/
def State.spanUnit (s : State) (lr : LayerRec) (l h span : Nat) : Option Nat :=
  let ps := (rangeFrom (4 * span) 4).map (fun i => s.entry ((lr.heads.getD h HeadRec.empty).page i) l h)
  let us := ps.flatMap (fun p => p.locs.map locUnit)
  if ps.all (fun p => (p.state == .sealed || p.state == .shadowed) && p.kind == .tier0) then
    match us with | u :: t => if t.all (· == u) then some u else none | [] => none
  else none

/-- The job of one sealed tile (R86, R192). -/
def State.sealedJob (s : State) (tenant sid : Nat) (lr : LayerRec) (l cand h t : Nat) (whole : Bool) : Job :=
  let own := (lr.heads.getD h HeadRec.empty).page (t / 4)
  let ref : PageRef := if own.kind = .shared ∧ own.state ≠ .free then ⟨true, own.group, 0, l, h, t / 4⟩ else ⟨false, tenant, sid, l, h, t / 4⟩
  let p := s.entry ((lr.heads.getD h HeadRec.empty).page (t / 4)) l h
  let pr := p.pairs.getD (t % 4) Pair.empty
  let word := if p.kind = .tier0 then p.locs.getD (t % 4) 0 else p.locs.headD 0
  let u := locUnit word
  let exec : Exec :=
    match p.kind with
    | .tier0 =>
      if s.masked u then .hub
      else if whole then (match s.spanUnit lr l h (t / 16) with | some u => .unit u | none => .hub)
      else .unit u
    | .pool | .host => .fetch
    | _ => .hub
  { cand := cand, head := h, tile := t, src := .sealed pr.k pr.v, check := (p.checkK.getD (t % 4) 0, p.checkV.getD (t % 4) 0)
    loc := word, shadowed := p.shadow.isSome, ref := ref, exec := exec, st := if exec = .hub then .issued else .waiting, got := [] }

/-- A tail tile's leaf, computed at dispatch (R192), or a tile sealed provisionally, which a hub core reads from its slot through R161. -/
def freshJob (tenant sid l : Nat) (sh : Shape) (c : Cand) (cand h t : Nat) : Job :=
  let hd := c.lr.heads.getD h HeadRec.empty
  let ref : PageRef := ⟨false, tenant, sid, l, h, t / 4⟩
  if t < c.len / 64 then
    let p := hd.page (t / 4)
    let pr := p.pairs.getD (t % 4) Pair.empty
    { cand := cand, head := h, tile := t, src := .sealed pr.k pr.v, check := (checkWord pr.k, checkWord pr.v)
      loc := if p.kind = .tier0 then p.locs.getD (t % 4) 0 else p.locs.headD 0, shadowed := false
      ref := ref, exec := .hub, st := .issued, got := [] }
  else
    { cand := cand, head := h, tile := t, src := .tail hd.tailK hd.tailV (hd.condK || hd.condV), check := (0, 0), loc := pow2 40 + sh.heads
      shadowed := false, ref := ref, exec := .hub, st := .done, got := [] }

/-- Leaves a request needs here (R83, R84): tiles sealed below its base once, the others per candidate; a tile whose rows do not lie here is none of them (R83, R91). -/
def State.jobsOf (s : State) (m : List Byte) (sh : Shape) (l base : Nat) (cs : List Cand) : List Job :=
  match cs with
  | [] => []
  | c0 :: _ =>
    let whole := Msg.whole m
    let cut := base / 64
    let need (t : Nat) : Bool := cs.any (fun c => let r := (maskOf m c.q).tiles c.len; decide (r.1 ≤ t ∧ t < r.1 + r.2))
    let sp := spanUnion m cs
    let early := (rangeFrom (16 * sp.1) (16 * sp.2)).filter (fun t => decide (t < cut) && need t)
    early.flatMap (fun t => ((List.range sh.heads).filter (fun h => (s.entry ((c0.lr.heads.getD h HeadRec.empty).page (t / 4)) l h).here)).map (fun h => s.sealedJob (Msg.tenant m) (Msg.sid m) c0.lr l 0 h t whole)) ++
    cs.zipIdx.flatMap (fun c =>
      let r := (maskOf m c.1.q).tiles c.1.len
      ((rangeFrom r.1 r.2).filter (fun t => decide (cut ≤ t))).flatMap (fun t => (List.range sh.heads).map (fun h => freshJob (Msg.tenant m) (Msg.sid m) l sh c.1 c.2 h t)))

/-- Keep an urgent request's share of each unit: at most the limit's tile entries, n to a leaf; the rest go to hub cores (R169). -/
def capUrgent (limit n : Nat) : List Job → List (Nat × Nat) → List Job
  | [], _ => []
  | j :: t, used =>
    match j.exec with
    | .unit u =>
      let k := spGet 0 used u
      if k + n ≤ limit then j :: capUrgent limit n t (spSet 0 used u (k + n))
      else { j with exec := .hub, st := .issued } :: capUrgent limit n t used
    | _ => j :: capUrgent limit n t used

/-! ### Dawn (R190) -/

/-- Dawn looks at the pages of some spans in some layers. -/
def State.dawnLook (s : State) (tenant sid : Nat) (layers : List Nat) (lo n : Nat) : State :=
  match s.findSeq tenant sid with
  | none => s
  | some r => layers.foldl (fun s l => (r.spanRefs l lo n).foldl (fun s p => s.dawnWant p) s) s

/-! ### Records (R87–R91, R112) -/

/-- Tree blocks of a request, as (j, first span), for one candidate (R89, R91). -/
def State.blocksOf (s : State) (lr : LayerRec) (l a n : Nat) (split : Bool) : List (Nat × Nat) :=
  if n = 0 then []
  else
    let top := coverBlock a (a + n - 1) 12
    if split then maxBlocks (fun x => decide (a ≤ x ∧ x < a + n)) (fun x => (s.spanPlaces lr l x).all (·.isNone)) (fun x => (s.spanPlaces lr l x).contains none) top.1 top.2 else [top]

/-- A job's source for a candidate's tile. -/
def Run.jobFor (r : Run) (cand h t : Nat) : Option Job :=
  let c := if t < r.base / 64 then 0 else cand
  r.jobs.find? (fun j => j.cand == c && j.head == h && j.tile == t)

/-- Leaves of one query head of one candidate over its tiles, as far as they are computed, and the scores clamped (R110, R115). -/
def Run.leaves (r : Run) (cand qh : Nat) : List (Nat × Partial) × Nat :=
  let m := r.req.msg
  let sh := shapeOf (Msg.shape m)
  let len := r.lens.getD cand 0
  let mk := maskOf m (Attend.qPos m + cand)
  let tl := mk.tiles len
  let row := (r.q.getD cand []).getD qh []
  let out := (rangeFrom tl.1 tl.2).filterMap (fun t =>
    ((r.jobFor cand (qh / sh.g) t).filter (fun j => j.st == .done)).map (fun j => (t, leaf sh j.src (Attend.scale m) row mk len t)))
  (out.map (fun x => (x.1, x.2.1)), out.foldl (fun n x => n + x.2.2) 0)

/-- The records of one query head of one candidate, with their spans. -/
def Run.headRecords (r : Run) (cand qh : Nat) (blocks : List (Nat × Nat)) (prov : Bool) : List (List Byte × (Nat × Nat)) :=
  let m := r.req.msg
  let d := (shapeOf (Msg.shape m)).d
  let lv := r.leaves cand qh
  let tag := Msg.requestId m
  if blocks.isEmpty ∧ r.remote.isEmpty then [(recordBytes (Partial.none d) prov tag 0 0, (0, 0))]
  else blocks.map (fun b =>
    let last := b.2 + pow2 b.1 - 1
    let p := treeNode d lv.1 (4 + b.1) (b.2 / pow2 b.1)
    (recordBytes p prov tag b.2 last, (b.2, last)))

/-- Scores clamped in the leaves of a request that are computed (R115). -/
def Run.clamps (r : Run) : Nat :=
  if !r.attends then 0
  else (List.range r.lens.length).foldl (fun n c =>
    (List.range (shapeOf (Msg.shape r.req.msg)).hq).foldl (fun n h => n + (r.leaves c h).2) n) 0

/-- Block list of a SPAN_WORK message: 4 bytes a block, [11:0] first span, [23:12] last (log 30). -/
def givenBlocks (m : List Byte) (off n : Nat) : List (Nat × Nat) :=
  (List.range n).map (fun i =>
    let w := field m (off + 4 * i) 4
    let a := bitsOf w 11 0
    (Nat.log2 (bitsOf w 23 12 + 1 - a), a))

/-- Offset of the model's trailer in a SPAN_WORK message: after the attend part and Q of c candidates. -/
def spanTrailer (m : List Byte) : Nat := m.length - 12 - 4 * field m (m.length - 4) 2

/-! ### Completion -/

/-- A released sequence whose pages an earlier request still has to fetch keeps them under a record that no request can name (R81). -/
def SeqRec.ghost (r : SeqRec) : Bool := decide (4096 ≤ r.tenant)

/-- A fetch of a request is outstanding on a page of a record. -/
def State.fetchesOf (s : State) (tenant sid : Nat) : Bool :=
  s.sch.runs.any (fun x => x.jobs.any (fun j => j.exec == .fetch && !j.ref.grp && j.ref.tenant == tenant && j.ref.sid == sid))

/-- End the kept records that nothing waits for any more. -/
def State.sweepGhosts (s : State) : State :=
  (s.pgw.seqs.filter (fun r => r.ghost && !s.fetchesOf r.tenant r.sid)).foldl (fun s r => s.endSeq r) s

/-- Version number of an object's active version. -/
def State.verOf (s : State) (obj : Nat) : Nat := ((tabGet s.prog.objects obj).map (·.version)).getD 0

/-- A poisoned tile is of one of some versions. -/
def keyOf (needs : List (Nat × Nat)) (k : TileKey) : Bool := needs.contains (k.obj, k.ver)

/-- Content of MEM_STATUS.repair_active and MEM_REPAIR.poisoned. -/
def State.refreshPoison (s : State) : State :=
  let n := s.mem.poison.length
  let s := s.setStatus Reg.memStatus 1 1 (b2n (n != 0))
  s.setLive Reg.memRepair (putBits (s.live Reg.memRepair) 15 0 n)

/-- A request whose effect waits has found a version of a rotary table (R98, R216). -/
def Req.names (r : Req) (k : TileKey) : Bool :=
  match r.turns with
  | none | some (.inl _) => false
  | some (.inr t) => [t.1, t.2].any (fun x => match x with | some t => rotObj t.idx == k.obj && t.version == k.ver | none => false)

/-- A version of an object is in use: active, about to become active, or kept by a request or a run (R216). -/
def State.versionUsed (s : State) (k : TileKey) : Bool :=
  (match tabGet s.prog.objects k.obj with
   | some x => (x.version == k.ver && x.active.isSome) || (x.version + 1 == k.ver && (x.next.bind id).isSome)
   | none => false) ||
  s.sch.runs.any (fun r => r.needs.any (fun n => n.obj == k.obj && n.ver == k.ver)) ||
  (s.sch.spareWait.map Prod.fst ++ s.sch.order.map (·.req)).any (fun r => r.names k) || s.progRuns.any (fun c => keyOf c.2.needs k)

/-- Match images whose engine copy still waits for a repair, and MAT_STATUS.repair_active (R231). -/
def State.endRefills (s : State) : State :=
  let left := s.mat.refill.filter (fun i => s.mem.poison.any (fun p => p.1.obj == 2048 + i))
  ({ s with mat := { s.mat with refill := left } }).setStatus Reg.matStatus 2 2 (b2n !left.isEmpty)

/-- A version that nothing uses any more goes: the object, its tiles, and their poison (R216). -/
def State.dropStale (s : State) : State :=
  let kept (p : (Place × Bool) × (Nat × Nat)) : Bool := match p.1.1.ofWeights with | some k => s.versionUsed k | none => true
  let older (x : (Nat × Nat) × WObj) : Bool := s.versionUsed ⟨x.1.1, x.1.2, 0⟩
  let image (x : Nat × Image) : Bool := s.versionUsed ⟨2048 + x.1, x.2.version, 0⟩
  if s.pgw.places.all kept && s.mem.poison.all (fun p => s.versionUsed p.1) && s.mem.badCopies.all (fun c => s.versionUsed c.1) &&
      s.prog.older.all older && s.mat.kept.all image then s
  else
    State.endRefills <| State.refreshPoison { s with
      prog := { s.prog with older := s.prog.older.filter older }
      mat := { s.mat with kept := s.mat.kept.filter image }
      pgw := { s.pgw with places := s.pgw.places.filter kept }
      mem := { s.mem with poison := s.mem.poison.filter (fun p => s.versionUsed p.1), badCopies := s.mem.badCopies.filter (fun c => s.versionUsed c.1) } }

/-- A run leaves its group: its cores' SRAM outside resident weights is zeroed (R365). -/
def State.endProgram (s : State) (rid : Nat) : State :=
  let gone := (s.prog.current.filter (fun c => c.2.rid == rid)).flatMap (fun c => c.2.prog.cores.map (8 * c.1 + ·))
  if gone.isEmpty then { s with prog := { s.prog with parked := s.prog.parked.filter (fun c => c.2.1.rid != rid) } }
  else { s with prog := { s.prog with current := s.prog.current.filter (fun c => c.2.rid != rid), cores := s.prog.cores.filter (fun c => !gone.contains c.1) } }

/-- Take a request off the dispatched ones. -/
def State.dropRun (s : State) (rid : Nat) : State :=
  let s := s.endProgram rid
  ({ s with sch := { s.sch with runs := s.sch.runs.filter (fun r => r.req.rid != rid) } }).sweepGhosts.dropStale

/-- A VERIFY's set on its layer, as the VERIFY completes: its 64 frames run from here, or it is discarded (R69). -/
def State.endVerify (s : State) (rid : Nat) (m : List Byte) (keep : Bool) : State :=
  match s.homeSeq (Msg.tenant m) (Msg.sid m) with
  | none => s
  | some r =>
    let l := Msg.layer m
    match (r.layer l).prov with
    | none => s
    | some p =>
      if p.done.isSome ∨ p.verify ≠ rid then s
      else if keep then s.putSeq (r.mapLayer l (fun y => { y with prov := some { p with done := some s.now } }))
      else s.discardProv r l

/-- Count the scores clamped in the leaves that a request leaves computed, as it completes with whatever status (R115; DESIGN CHOICE, log 99: in the frame of its completion). -/
def State.countClamps (s : State) (r : Run) : State := s.bump (Reg.attSatTenant + 16 * Msg.tenant r.req.msg + 12) r.clamps

/-- Complete a dispatched request: its records where it attends (R76, R90), its counts. -/
def State.completeRun (s : State) (r : Run) : State :=
  let op := r.req.op
  let sh := shapeOf (Msg.shape r.req.msg)
  let s := (s.dropRun r.req.rid).countClamps r
  let flat := if !r.attends then []
    else (List.range r.lens.length).flatMap (fun c =>
      (List.range sh.hq).flatMap (fun h => r.headRecords c h (r.blocks.getD c []) r.prov))
  let lo := flat.foldl (fun (a : Option Nat) x => some (match a with | none => x.2.1 | some y => min y x.2.1)) none
  let hi := flat.foldl (fun a x => max a x.2.2) 0
  s.reply
    { req := r.req, tDispatch := r.tDispatch, status := r.status, detail := r.detail, length := r.length, records := flat.length
      remoteBlocks := r.remote.foldl (fun n x => n + x.1) 0
      body := flat.flatMap Prod.fst ++ r.output, spans := (lo.getD 0, hi)
      eflags := 2 * b2n (!r.remote.isEmpty || op == .spanWork) + 4 * b2n (r.stalled || r.req.heldMove) + 64 * b2n r.rebuildDiffers
      program := r.program, weights := r.weights, gen := some r.gen, holder := op = .spanWork, noRecord := false, relayed := false
      notBefore := if s.bit (Reg.secIsoCfg + 4 * r.req.cls) 0 then r.tDispatch + 16 * s.fld (Reg.secIsoCfg + 4 * r.req.cls) 31 16 else 0 }

/-- Nothing of the request is left to wait for. -/
def Run.ready (r : Run) : Bool := !r.redo && r.reserve.isNone && r.stalls.isEmpty && r.jobs.all (fun j => j.st == .done)

/-- Complete a request that has nothing left to wait for; one whose program still runs does (R200). -/
def State.tryComplete (s : State) (rid : Nat) : State :=
  match s.run rid with
  | none => s
  | some r => if r.ready && !s.progRuns.any (fun c => c.2.rid == rid) then s.completeRun r else s

/-- Tiles of a request that units still read, or whose records are still to come, are checked after its end too: they go on under their pages' names (R161, R163). -/
def State.keepReads (s : State) (r : Run) : State :=
  let ent (e : BurstEntry) : BurstEntry := match e with
    | .leaf rid idx => if rid ≠ r.req.rid then e else (match r.jobs[idx]? with
      | some j => .tile j.ref.grp j.ref.tenant j.ref.sid j.ref.layer j.ref.head j.ref.page (j.tile % 4)
      | none => e)
    | e => e
  { s with vsp := { s.vsp with units := s.vsp.units.map (fun u => (u.1, u.2.mapEnts ent))
                               rereads := s.vsp.rereads.map (fun x => (x.1, { x.2 with ent := ent x.2.ent })) } }

/-- Complete a dispatched request with an execution status and no records (R76, R78). Its stalls are charged up to the failure, which no dispatch resumes (R193; DESIGN CHOICE, log 115). -/
def State.failRun (s : State) (rid status detail : Nat) : State :=
  match s.run rid with
  | none => s
  | some r =>
    let m := r.req.msg
    let s := r.stalls.foldl (fun s x => s.stallTicks (Msg.tenant m) x.1 x.2) s
    let s := ((s.keepReads r).dropRun rid).countClamps r
    let s := if r.req.op = .verify then s.endVerify rid m false else s
    s.reply { (Reply.plain r.req r.tDispatch status detail r.length) with
      eflags := 4 * b2n (r.stalled || r.req.heldMove) + 64 * b2n r.rebuildDiffers + 2 * b2n (r.req.op == .spanWork)
      gen := some r.gen, program := r.program, weights := r.weights
      notBefore := if s.bit (Reg.secIsoCfg + 4 * r.req.cls) 0 then r.tDispatch + 16 * s.fld (Reg.secIsoCfg + 4 * r.req.cls) 31 16 else 0 }

/-- Spans with an unmasked position that a dispatched request resolves, ascending (R82, R145). -/
def Run.spans (r : Run) : List Nat :=
  if !r.attends then []
  else ((List.range r.lens.length).flatMap (fun j =>
    let sp := (maskOf r.req.msg (Attend.qPos r.req.msg + j)).spans (r.lens.getD j 0)
    rangeFrom sp.1 sp.2)).foldl setInsert []

/-- Lost spans among some (R142): the detail of a STATE_LOST. -/
def State.lostDetail (s : State) (q : SeqRec) (lo n : Nat) : Option Nat :=
  match (rangeFrom lo n).filter (fun x => s.spanLost q x) with
  | [] => none
  | a :: t => some (a + 4096 * (t.getLast?.getD a))

/-- Requests that need a page now lost complete with STATE_LOST (R142, R163, R185). -/
def State.sweepLost (s : State) : State :=
  s.sch.runs.foldl (fun s r =>
    if !r.attends || r.jobs.all (fun j => j.st == .done) then s
    else
      let tl := (r.jobs.filter (fun j => j.st != .done && (s.pageAt j.ref).lost)).map (fun j => j.tile / 16)
      match tl.foldl setInsert [] with
      | [] => s
      | a :: t => s.failRun r.req.rid Status.stateLost (a + 4096 * (t.getLast?.getD a))) s

/-! ### Launching an attend (R80, R86, R91, R190, R192) -/

/-- SPAN_WORK to a holder: the request's header with opcode 0x30 and the length of its body, the attend part, Q, the requester's reference and the blocks (R91, R287; log 30). -/
def spanWorkMsg (r : Req) (q : List Byte) (cands : Nat) (blocks : List (Nat × Nat)) : List Byte :=
  let m := r.msg
  let ref := r.arr.src % pow2 16 + pow2 16 * (r.arr.sqp % pow2 20) + pow2 36 * (Msg.tenant m)
  let list := blocks.flatMap (fun b => leBytes 4 (b.2 + 4096 * (b.2 + pow2 b.1 - 1)))
  let tail := leBytes 8 ref ++ list ++ leBytes 2 blocks.length ++ leBytes 1 (Msg.opcode m) ++ leBytes 1 cands
  leBytes 1 0x30 ++ slice m 1 27 ++ leBytes 4 (32 + q.length + tail.length) ++ slice m 32 8 ++ slice m 40 32 ++ q ++ tail

/-- Ticks that n core cycles take in a mode, rounded up (R50). -/
def State.coreTicks (s : State) (n : Nat) : Nat := ceilDiv (n * s.vCycle) (2 * vUnit)

/-- A walk's length: 47 + n core cycles where all n lookups hit; where some miss, the rounds of table reads add a time that the manual only bounds, by 5 × 400 ticks and 24 core cycles, for an urgent class with the TLB in use and at most 256 reads in a round (R144, R145; log 19). -/
def State.walkTime (s : State) (n missed : Nat) (bound : Bool) : State :=
  if n = 0 then s
  else if missed = 0 then s.bumpMax (Reg.pgwStat + 8) (s.coreTicks (47 + n))
  else
    let x := s.fresh
    let more := Config.choice x.1 3
    x.2.bumpMax (Reg.pgwStat + 8) (s.coreTicks (47 + n) + (if bound then more % (2001 + s.coreTicks 24) else more % pow2 31))

/-- Set of the TLB that a tag selects: 2,048 sets of eight ways (R143). -/
def TlbTag.set (t : TlbTag) : Nat := Config.tlbSet t.tenant t.sid t.layer t.head t.span % 2048

/-- The entry that a walk of a span makes (Table 5.11). -/
def State.tlbEntry (s : State) (t : TlbTag) : TlbEntry :=
  let r := s.findSeq t.tenant t.sid
  let pages := rangeFrom (4 * t.span) 4
  ⟨t, pages.map (fun i => r.bind (fun r => let p := r.pte t.layer t.head i; if p.kind = .shared ∧ p.state ≠ .free then some p.group else none)),
    pages.map (fun i => (r.map (fun r => s.resolve r t.layer t.head i)).getD Pte.free)⟩

/-- A lookup hits. -/
def State.tlbHit (s : State) (t : TlbTag) : Bool := s.bit Reg.pgwCfg 16 && s.pgw.tlb.any (fun e => e.tag == t)

/-- Put an entry in front; the least recently used of its set goes where the set is full (R143; log 31). -/
def tlbPut (e : TlbEntry) (l : List TlbEntry) : List TlbEntry :=
  let rest := l.filter (fun x => x.tag != e.tag)
  let set := rest.filter (fun x => x.tag.set == e.tag.set)
  e :: (match set.drop 7 with | v :: _ => rest.filter (fun x => x.tag != v.tag) | [] => rest)

/-- TLB lookups of a walk: one per span and KV head (R143, R145; log 31). -/
def State.lookups (s : State) (tags : List TlbTag) : State :=
  tags.foldl (fun s t =>
    let s := s.bump Reg.pgwStat
    let s := if s.tlbHit t then s else s.bump (Reg.pgwStat + 4)
    { s with pgw := { s.pgw with tlb := tlbPut (s.tlbEntry t) s.pgw.tlb } }) s

/-- The descriptor cache holds a layer of a sequence. -/
def State.descHit (s : State) (tenant sid l : Nat) : Bool := s.pgw.desc.any (fun e => e.of tenant sid && e.layer == l)

/-- The descriptor cache takes a sequence's record and a layer's descriptor in front: 4,096 entries, least recently used out (R143; log 31). -/
def State.descLook (s : State) (tenant sid l : Nat) : State :=
  match s.findSeq tenant sid with
  | none => s
  | some r => { s with pgw := { s.pgw with desc := (r.descEnt l :: s.pgw.desc.filter (fun e => !(e.of tenant sid && e.layer == l))).take 4096 } }

/-- Table reads of round 4 for some lookups that miss: one per leaf table, which holds four spans of a head (Table 5.12); rounds 1 to 3 read no more. -/
def State.leafReads (_ : State) (tags : List TlbTag) : Nat := ((tags.map (fun t => (t.head, t.span / 4))).dedup).length

/-- Table reads of round 5: one per SHARED entry (Table 5.12). -/
def State.sharedReads (s : State) (tags : List TlbTag) : Nat :=
  tags.foldl (fun n t => n + ((rangeFrom (4 * t.span) 4).filter (fun i =>
    ((s.findSeq t.tenant t.sid).map (fun q => (q.pte t.layer t.head i).kind == .shared)).getD false)).length) 0

/-- The walk of a request's spans, with its counts (R145). -/
def State.walk (s : State) (req : Req) (l heads : Nat) (sp : Nat × Nat) : State :=
  let m := req.msg
  let tags := (rangeFrom sp.1 sp.2).flatMap (fun a => (List.range heads).map (fun h => (⟨Msg.tenant m, Msg.sid m, l, h, a⟩ : TlbTag)))
  let missed := (tags.filter (fun t => !s.tlbHit t)).length + b2n (!s.descHit (Msg.tenant m) (Msg.sid m) l)
  let walked := tags.filter (fun t => !s.tlbHit t)
  let bound := req.urgent && s.bit Reg.pgwCfg 16 && decide (s.leafReads walked ≤ 256 ∧ s.sharedReads walked ≤ 256)
  if tags.isEmpty then s else ((s.lookups tags).descLook (Msg.tenant m) (Msg.sid m) l).walkTime tags.length missed bound

/-- What conditioning counts: elements saturated, elements flushed, and elements that no readable table rotates (R98, R115). -/
structure Conds where
  /-- Saturated. -/
  sat : Nat
  /-- Flushed. -/
  flush : Nat
  /-- Elements whose rotated values are not known. -/
  unread : Nat
  deriving DecidableEq, Repr

/-- Two counts together. -/
def Conds.add (a b : Conds) : Conds := ⟨a.sat + b.sat, a.flush + b.flush, a.unread + b.unread⟩

/-- Counts of conditioned rows, or their elements where the table that rotates them is lost. -/
def condsOf (lost : Bool) (rows : List (List Nat × Bool × (Nat × Nat))) : Conds :=
  if lost then ⟨0, 0, (rows.map (fun r => r.1.length)).sum⟩ else let c := condSum rows; ⟨c.1, c.2, 0⟩

/-- The repair of a tile that a table needs at a position has been given up (R75, R196). -/
def State.lostAt (s : State) (t : Option Turn) (p : Nat) : Bool := s.poisoned (Turn.needs t p 1) == some true

/-- The conditioned, rotated query rows of a message, by candidate and head, and the counts (R75, R98). -/
def State.queryRows (s : State) (m : List Byte) (off n hq d p : Nat) (t : Option Turn) : List (List (List Nat)) × Conds :=
  let rows := (List.range n).map (fun j => (rowsAt m (off + 2 * j * hq * d) hq d).map (fun x => condRow (Turn.row t (p + j) x)))
  (rows.map (fun c => c.map Prod.fst), rows.zipIdx.foldl (fun a r => a.add (condsOf (s.lostAt t (p + r.2)) r.1)) ⟨0, 0, 0⟩)

/-- Count conditioning for a tenant (R115). A holder counts the rows of Q it conditions, as the home does (log 84). What rotation by a table given up would leave is not stated: those elements count by free values (log 84). -/
def State.condCount (s : State) (tenant : Nat) (c : Conds) : State :=
  let x := if c.unread = 0 then ((0, 0), s) else
    let f := s.fresh
    let sat := Config.choice f.1 0 % (c.unread + 1)
    ((sat, Config.choice f.1 1 % (c.unread - sat + 1)), f.2)
  (x.2.bump (Reg.attSatTenant + 16 * tenant) (c.sat + x.1.1)).bump (Reg.attSatTenant + 16 * tenant + 4) (c.flush + x.1.2)

/-- Everything a dispatch found for a request that runs. -/
structure Launch where
  /-- Sequence as dispatch leaves it. -/
  seq : SeqRec
  /-- Candidates. -/
  cands : List Cand
  /-- Tiles sealed below this length serve every candidate. -/
  base : Nat
  /-- Query rows. -/
  q : List (List (List Nat))
  /-- Bytes of Q as sent, for holders. -/
  qBytes : List Byte
  /-- Weight tiles that rotating its rows needs (R75). -/
  needs : List TileKey
  /-- A table's repair has been given up: its index, the detail of WEIGHTS_UNAVAILABLE (R75, R196). -/
  gaveUp : Option Nat
  /-- The request attends. -/
  attends : Bool
  /-- Len(l) it leaves. -/
  length : Nat
  /-- A successor page that could not be reserved yet: layer and page. -/
  reserve : Option (Nat × Nat)
  /-- rebuild_differs. -/
  differs : Bool
  /-- detail of an OK. -/
  detail : Nat
  /-- Program body digest. -/
  program : List Byte
  /-- Weight digests. -/
  weights : List (List Byte)
  deriving DecidableEq, Repr

/-- Send a request's leaves to the units that wait for them; one whose unit is masked meanwhile goes to a hub core (R164, R173). -/
def State.sendLeaves (s : State) (req : Req) (jobs : List Job) : State :=
  let units := (jobs.filterMap (fun j => match j.exec with | .unit u => some u | _ => none)).foldl setInsert []
  units.foldl (fun s u =>
    let es := (jobs.zipIdx.filter (fun j => j.1.exec == .unit u)).map (fun j => BurstEntry.leaf req.rid j.2)
    if s.masked u then es.foldl State.leafToHub s else s.sendBursts u .attend req.urgent req.cls es) s

/-- Issue the fetches that a request's leaves wait for; where tier 1 has no room the next minute tries again (R192). -/
def State.fetchLeaves (s : State) (jobs : List Job) : State :=
  (jobs.filter (fun j => j.exec == .fetch)).foldl (fun s j => (s.fetchPage j.ref).getD s) s

/-- The blocks a SPAN_WORK names (R91; log 30). -/
def ownBlocks (m : List Byte) : List (Nat × Nat) := givenBlocks m (spanTrailer m + 8) (field m (m.length - 4) 2)

/-- The records of a request carry PROVISIONAL: a VERIFY's, at its home and at its holders (R68, R91; log 30). -/
def isProv (op : Op) (m : List Byte) : Bool := op == .verify || (op == .spanWork && byteAt m (m.length - 2) == 0x04)

/-- Leaves a request needs here: a holder computes the tiles of its own blocks only (R91), an urgent request at most its share of each unit (R169). -/
def State.leavesOf (s : State) (req : Req) (l base : Nat) (cands : List Cand) : List Job :=
  let m := req.msg
  let sh := shapeOf (Msg.shape m)
  let jobs := s.jobsOf m sh l base cands
  let own := ownBlocks m
  let jobs := if req.op = .spanWork then jobs.filter (fun j => own.any (fun b => decide (b.2 ≤ j.tile / 16 ∧ j.tile / 16 < b.2 + pow2 b.1))) else jobs
  if req.urgent then capUrgent (s.fld Reg.vspBurstCfg 12 8) (2 * ceilDiv cands.length (max 1 (s.maskCap true sh))) jobs [] else jobs

/-- The run of a dispatch. -/
def State.runOf (s : State) (req : Req) (x : Launch) (jobs : List Job) (remote : List (Nat × Nat)) : Run :=
  let m := req.msg
  let l := Msg.layer m
  let lr := (x.cands.headD ⟨x.seq.layer l, 0, 0⟩).lr
  let blocks := x.cands.map (fun c =>
    if req.op = .spanWork then ownBlocks m
    else
      let sp := (maskOf m c.q).spans c.len
      s.blocksOf lr l sp.1 sp.2 (!remote.isEmpty))
  { req := req, tDispatch := s.now, lens := x.cands.map (·.len), q := x.q, jobs := jobs, remote := remote, stalls := [], causes := []
    held := false, needs := x.needs, blocks := blocks, prov := isProv req.op m, serial := x.seq.serial
    reserve := x.reserve.map (fun p => (p.1, p.2, s.now + 4194304))
    status := Status.ok, detail := x.detail, length := x.length, attends := x.attends, redo := false, base := x.base, groups := [], stalled := false
    rebuildDiffers := x.differs, gen := req.gen.getD s.genLow, program := x.program, weights := x.weights, output := [] }

/-- Dawn's lookahead at a dispatch (R190). -/
def State.lookAhead (s : State) (m : List Byte) (layers : Nat) (sp : Nat × Nat) : State :=
  let l := Msg.layer m
  let ahead := s.fld Reg.memDawnCfg 3 1
  if s.bit Reg.memDawnCfg 0 then s.dawnLook (Msg.tenant m) (Msg.sid m) ((rangeFrom (l + 1) ahead).filter (fun k => decide (k < layers))) sp.1 sp.2 else s

/-- Put a dispatched request to work: the walk, lost spans, a table given up, leaves, holders, bursts, fetches, Dawn's lookahead, holds (R75, R78, R79, R91, R192). -/
def State.launch (s : State) (req : Req) (x : Launch) : State :=
  let m := req.msg
  let l := Msg.layer m
  let sh := shapeOf (Msg.shape m)
  let sp := if x.attends then spanUnion m x.cands else (0, 0)
  let lr := (x.cands.headD ⟨x.seq.layer l, 0, 0⟩).lr
  let lost := s.lostDetail x.seq sp.1 sp.2
  -- scores of leaves whose Q no readable table can rotate are never evaluated (R75, R115)
  let jobs := if x.attends && x.gaveUp.isNone then s.leavesOf req l x.base x.cands else []
  let holders := ((rangeFrom sp.1 sp.2).flatMap (fun a => (s.spanPlaces lr l a).filterMap id)).foldl setInsert []
  let top := if sp.2 = 0 then (0, 0) else coverBlock sp.1 (sp.1 + sp.2 - 1) 12
  let work := holders.map (fun n => (n, maxBlocks (fun a => decide (sp.1 ≤ a ∧ a < sp.1 + sp.2)) (fun a => s.spanPlaces lr l a == [some n]) (fun a => (s.spanPlaces lr l a).contains (some n)) top.1 top.2))
  let run := s.runOf req x jobs (work.map (fun w => (w.2.length, w.1)))
  let s := { s with sch := { s.sch with runs := s.sch.runs ++ [run] } }
  let s := s.walk req l sh.heads sp
  match lost, x.gaveUp with
  | some d, _ => s.failRun req.rid Status.stateLost d
  | none, some d => s.failRun req.rid Status.weightsUnavailable d
  | none, none =>
    let s := work.foldl (fun s w => s.nodeOp w.1 (spanWorkMsg req x.qBytes x.cands.length w.2) (.spanWork req.rid) (if req.fwd then 2 else 1) req.urgent) s
    let wait := (s.poisoned x.needs).isSome
    let s := if wait then
        (s.mapRun req.rid (fun r => { r with held := true, jobs := r.jobs.map (fun j => { j with st := .waiting }) })).stall req.rid .weightRepair
      else s.sendLeaves req jobs
    let s := s.fetchLeaves jobs
    let s := if jobs.any (fun j => j.exec == .fetch) then s.stall req.rid .fetchLate else s
    let s := if x.reserve.isSome then s.stall req.rid .reserve else s
    (s.lookAhead m sh.layers sp).tryComplete req.rid

/-- The walk and the first execution status of a request that applies nothing: a lost span, a table given up, no page (R78, R79, R145). -/
def State.cannot (s : State) (req : Req) (q : Option SeqRec) (cands : List Cand) (gaveUp : Option Nat) (len : Nat) : State :=
  let m := req.msg
  let sp := spanUnion m cands
  let s := s.walk req (Msg.layer m) (shapeOf (Msg.shape m)).heads (if q.isSome then sp else (0, 0))
  match q.bind (fun q => s.lostDetail q sp.1 sp.2), gaveUp with
  | some d, _ => s.answer req Status.stateLost d len
  | none, some d => s.answer req Status.weightsUnavailable d len
  | none, none => s.answer req Status.capacity len len

/-- Try the reservation a layer's length calls for (R79, R129, R188): the state, and the page that could not be had. -/
def State.tryReserve (s : State) (tenant sid l len : Nat) : State × Option (Nat × Nat) :=
  match s.findSeq tenant sid with
  | none => (s, none)
  | some r =>
    match (r.layer l).wants len with
    | none => (s, none)
    | some i =>
      match s.reserve r l i with
      | some s => (s, none)
      | none =>
        -- with no room in tier 1 either, Dusk spills tier-1 pages to tier 2 and the reservation waits (R188)
        (s.dusk1 (s.freeTier1 + 4 * r.sh.pairKiB * r.sh.heads) [] (s.allPages.length + 1), some (l, i))

end Sys2Proof.Machine
end

