-- ==== Sys2Proof/Machine/ProgOps.lean ====
section
/-!
DEFINITION. Shared operations of hub programs (chapter 08): step words (R208), a core's buffers and resident weights, the start of a run and of a segment (R200, R201, R206), runs that wait for a repair (R217).
The manual does not say where a step's tensors, scales and biases lie inside its buffers: log 41 lays them out.
-/

namespace Sys2Proof.Machine

open Sys2Proof

/-! ### Step words (Table 8.4) -/
namespace StepWord
/-- op. -/
abbrev op (w : Nat) : Nat := bitsOf w 7 0
/-- Weight format, sflags [1:0]. -/
abbrev fmt (w : Nat) : Nat := bitsOf w 9 8
/-- Add bias, sflags [2]. -/
abbrev bias (w : Nat) : Bool := bitOf w 10
/-- start. -/
abbrev start (w : Nat) : Nat := bitsOf w 31 16
/-- dst, as a byte address. -/
abbrev dst (w : Nat) : Nat := 32 * bitsOf w 47 32
/-- src_a, as a byte address. -/
abbrev srcA (w : Nat) : Nat := 32 * bitsOf w 63 48
/-- src_b, as a byte offset. -/
abbrev srcB (w : Nat) : Nat := 32 * bitsOf w 79 64
/-- m. -/
abbrev m (w : Nat) : Nat := bitsOf w 95 80
/-- k_or_imm. -/
abbrev k (w : Nat) : Nat := bitsOf w 111 96
/-- n. -/
abbrev n (w : Nat) : Nat := bitsOf w 127 112
/-- Elements, 64·m. -/
abbrev e (w : Nat) : Nat := 64 * bitsOf w 95 80
/-- Row length of a norm: k_or_imm, or the whole tensor where it is zero (log 41). -/
abbrev row (w : Nat) : Nat := if k w = 0 then e w else k w
/-- Bytes an IN, OUT or SYNC moves: 2·m·n, or 128·m where n is zero (log 41). -/
abbrev ioBytes (w : Nat) : Nat := if n w = 0 then 128 * m w else 2 * m w * n w
end StepWord

/-- SRAM of a hub core. -/
abbrev sramBytes : Nat := 2097152

/-! ### A core's context -/

/-- A core with nothing in its buffers. -/
def CoreCtx.empty : CoreCtx := ⟨[], 0, false, [], ([], (0, []))⟩
/-- Context of a core. -/
def State.core (s : State) (c : Nat) : CoreCtx := (tabGet s.prog.cores c).getD CoreCtx.empty
/-- Write a context. -/
def State.putCore (s : State) (c : Nat) (x : CoreCtx) : State := { s with prog := { s.prog with cores := tabPut s.prog.cores c x } }
/-- n bytes of a core's buffers. -/
def CoreCtx.read (x : CoreCtx) (a n : Nat) : List Byte := (List.range n).map (fun i => spGet (0 : Byte) x.sram (a + i))
/-- Write bytes to a core's buffers. -/
def CoreCtx.write (x : CoreCtx) (a : Nat) (bs : List Byte) : CoreCtx :=
  { x with sram := (bs.zipIdx).foldl (fun m b => spSet (0 : Byte) m (a + b.2) b.1) x.sram }
/-- BF16 elements of bytes. -/
def elemsOf (n : Nat) (bs : List Byte) : List Nat := (List.range n).map (fun i => field bs (2 * i) 2)
/-- BF16 elements of a buffer. -/
def CoreCtx.elems (x : CoreCtx) (a n : Nat) : List Nat := elemsOf n (x.read a (2 * n))
/-- Bytes of BF16 elements. -/
def elemBytes (l : List Nat) : List Byte := l.flatMap (leBytes 2)
/-- The next step. -/
def CoreCtx.next (x : CoreCtx) : CoreCtx := { x with pc := x.pc + 1 }

/-- Cut a list into rows of n. -/
def rowsOfList (n : Nat) (l : List Nat) : List (List Nat) := (List.range (l.length / n)).map (fun i => (l.drop (n * i)).take n)

/-! ### Resident weights (R199, R212; log 41) -/

/-- Bytes of the objects a program names that each of its cores holds. -/
def shareLen (objs : List WObj) (cores : Nat) : Nat :=
  32 * ceilDiv (ceilDiv (objs.foldl (fun n o => n + 65536 * o.tiles.length) 0) (max 1 cores)) 32

/-- n resident bytes of the core of a rank from an offset. -/
def residentOf (objs : List WObj) (cores rank off n : Nat) : List Byte :=
  slice (objs.flatMap (fun o => o.tiles.flatten)) (rank * shareLen objs cores + off) n

/-! ### What a run needs (R206, R216) -/

/-- Slots its ROPE and MATCH steps name. -/
def Program.named (p : Program) (op : Nat) : List Nat :=
  ((p.streams.flatten.filter (fun w => StepWord.op w == op)).map (fun w => if op = 0x0D then bitsOf w 79 64 else StepWord.k w)).foldl setInsert []

/-- Object numbers a program needs. -/
def Program.needs (p : Program) : List Nat := p.objects ++ (p.named 0x0B).map rotObj ++ (p.named 0x0D).map (2048 + ·)

/-- A run needs a tile: any of its objects and images, of a rotary table those of its position (R75, R196). -/
def ProgRun.wants (p : ProgRun) (k : TileKey) : Bool :=
  keyOf p.needs k && (!(p.ropes.any (fun r => rotObj r.1 == k.obj)) || p.ropeTiles.contains k)

/-- Position of a program's request: q_pos; a RUN names none, so a free value stands for it (log 41). -/
def State.progPos (s : State) (r : Req) : Nat :=
  if r.op = .projectAttend then Attend.qPos r.msg else Config.choice s.freeCtr 4194304 % 4194304

/-- Tiles that a position needs of the rotary tables a run names (R75). -/
def State.progTiles (s : State) (ropes : List (Nat × WObj)) (p : Nat) : List TileKey :=
  ropes.flatMap (fun x => match rotaryOf x.2.tiles.flatten with
    | some t => (t.tiles p).map (fun k => ⟨rotObj x.1, s.verOf (rotObj x.1), k⟩)
    | none => [])

/-- Some tiles that a run needs are poisoned: their object, and whether their repair has been given up (R196). -/
def State.needsPoison (s : State) (wants : TileKey → Bool) : Option (Nat × Bool) :=
  let bad := s.mem.poison.filter (fun p => wants p.1)
  match bad.find? (fun p => p.2.2) with
  | some p => some (p.1.obj, true)
  | none => bad.head?.map (fun p => (p.1.obj, false))

/-- detail of WEIGHTS_UNAVAILABLE (R206): [31] marks a weight object or match image; a rotary table gives its index. -/
def poisonDetail (obj : Nat) : Nat := if obj < 1024 then obj + pow2 31 else if obj < 2048 then obj - 1024 else obj - 2048 + pow2 31

/-- The program a tenant sees in a slot (R206). -/
def State.program (s : State) (slot tenant : Nat) : Option Program :=
  ((tabGet s.prog.programs slot).bind (·.active)).filter (fun p => p.owner == tenant)

/-- Offset of the run header in a program request. -/
def Req.runOff (r : Req) : Nat := (r.op.runOff).getD 40

/-- The program a request names. -/
def State.programOf (s : State) (r : Req) : Option Program := s.program (Run.slot r.msg r.runOff) (Msg.tenant r.msg)

/-! ### Runs and segments (R200, R201) -/

/-- Write a group's run. -/
def State.putProg (s : State) (g : Nat) (p : ProgRun) : State := { s with prog := { s.prog with current := tabPut s.prog.current g p } }

/-- Core numbers of a run. -/
def ProgRun.coreNums (p : ProgRun) (g : Nat) : List Nat := p.prog.cores.map (8 * g + ·)

/-- Dispatch the next segment of a group's run: each core keeps what it needs to run it again (R200, R217). -/
def State.startSegment (s : State) (g : Nat) : State :=
  match tabGet s.prog.current g with
  | none => s
  | some p =>
    let s := s.putProg g { p with busy := true, waitOwned := false }
    (p.coreNums g).foldl (fun s c =>
      let x := s.core c
      s.putCore c { x with ended := false, start := (x.sram, (x.pc, x.scales)) }) s

/-- Stop a run's segment; it runs again from its start, in a minute that its class owns (R217, R239). -/
def State.haltSegment (s : State) (g : Nat) : State :=
  match tabGet s.prog.current g with
  | none => s
  | some p =>
    if !p.busy then s
    else
      let s := s.putProg g { p with busy := false, waitOwned := true }
      (p.coreNums g).foldl (fun s c =>
        let x := s.core c
        s.putCore c { x with ended := false, sram := x.start.1, pc := x.start.2.1, scales := x.start.2.2 }) s

/-- A run stalls with WEIGHT_REPAIR, and goes on in a minute that its class owns: what it executes is run again from the segment's start (R196, R217). -/
def State.stallRun (s : State) (rid : Nat) : State :=
  let own (p : ProgRun) : ProgRun := if p.rid = rid then { p with waitOwned := true } else p
  let s := (s.prog.current.filter (fun c => c.2.rid == rid)).foldl (fun s c => s.haltSegment c.1) s
  State.stall { s with prog := { s.prog with
    current := s.prog.current.map (fun c => (c.1, own c.2))
    parked := s.prog.parked.map (fun x => (x.1, (own x.2.1, x.2.2))) } } rid .weightRepair

/-- The group a request's program runs on. -/
def State.groupOfRun (s : State) (rid : Nat) : Option Nat := (s.progRuns.find? (fun c => c.2.rid == rid)).map Prod.fst

/-- Len(l) that a program request leaves where it fails: of the sequence that a PROJECT_ATTEND names (Table 3.6). -/
def State.progLen (s : State) (r : Req) : Nat :=
  if r.op = .projectAttend then ((s.homeSeq (Msg.tenant r.msg) (Msg.sid r.msg)).map (fun q => q.lenFor (Msg.layer r.msg))).getD 0 else 0

/-- Start a program request on its group (R200, R203, R204, R206). The input length is checked before the shape (DESIGN CHOICE, log 135), and its evidence carries the edit digest that an image has at this dispatch (R228; DESIGN CHOICE, log 138). The detail of a SHAPE_MISMATCH with the program's declared shape is that shape word (DESIGN CHOICE, log 86). -/
def State.startProgram (s : State) (r : Req) : State :=
  let m := r.msg
  let o := r.runOff
  match s.programOf r with
  | none => s.answer r Status.noProgram (Run.slot m o) (s.progLen r)
  | some p =>
    if Run.inBytes m o ≠ p.inBytes then s.answer r Status.badField (o + 4) (s.progLen r)
    else if r.op = .projectAttend ∧ p.shape ≠ Msg.shape m then s.answer r Status.shapeMismatch p.shape (s.progLen r)
    else
      let objs := p.objects.filterMap s.activeObj
      let ropes := (p.named 0x0B).filterMap (fun i => (s.activeObj (rotObj i)).map (fun w => (i, w)))
      let images := (p.named 0x0D).filterMap (fun i => (s.image i).map (fun w => (i, w)))
      let pos := s.progPos r
      let pr : ProgRun :=
        { rid := r.rid, prog := p, slot := Run.slot m o, needs := p.needs.map (fun n => (n, s.verOf n)), objs := objs, ropes := ropes, pos := pos
          ropeTiles := s.progTiles ropes pos, images := images, seg := 0
          busy := false, cascFails := 0, waitOwned := false, input := slice m (o + 16) p.inBytes, output := List.replicate p.outBytes 0 }
      match s.needsPoison pr.wants with
      | some (obj, true) => s.answer r Status.weightsUnavailable (poisonDetail obj) (s.progLen r)
      | bad =>
        let digests := (p.objects.foldl setInsert []).filterMap (fun i => (s.activeObj i).map (·.manifest)) ++ ropes.map (·.2.manifest) ++ images.map (·.2.digest)
        let run : Run :=
          { req := r, tDispatch := s.now, lens := [], q := [], jobs := [], remote := [], stalls := [], causes := [], held := false, needs := []
            blocks := [], prov := false, serial := 0, reserve := none
            status := Status.ok, detail := 0, length := s.progLen r, attends := false, redo := false, base := 0, groups := [], stalled := false
            rebuildDiffers := false, gen := r.gen.getD s.genLow, program := p.digest, weights := digests, output := [] }
        let s := ({ s with sch := { s.sch with runs := s.sch.runs ++ [run] }, freeCtr := s.freeCtr + 1 }).putProg p.group pr
        if bad.isSome then s.stallRun r.rid else s.startSegment p.group

/-- The program run of a request needs a tile. -/
def State.programWants (s : State) (rid : Nat) (k : TileKey) : Bool := s.progRuns.any (fun p => p.2.rid == rid && p.2.wants k)

/-- A group's run has met an error of a tile of an object's version: it stops with WEIGHT_REPAIR, and the segment that met it runs again; a refill that the working copy served is counted (R217, Table 8.8). -/
def State.refillStall (s : State) (g obj ver : Nat) (served : Bool) : State :=
  match tabGet s.prog.current g with
  | none => s
  | some c =>
    if !c.needs.contains (obj, ver) then s
    else
      let s := s.haltSegment g
      match s.run c.rid with
      | none => s
      | some r => (if served then s.bump (Reg.attProgTenant + 16 * Msg.tenant r.req.msg + 0xC) else s).stall r.req.rid .weightRepair

/-- Groups whose run names a version of an object. -/
def State.groupsNaming (s : State) (obj ver : Nat) : List Nat := (s.prog.current.filter (fun c => c.2.needs.contains (obj, ver))).map Prod.fst

/-! ### Finding the step a core is at -/

/-- A core's place: its group, the group's run, its rank in the program, its context. -/
structure CoreAt where
  /-- Group. -/
  group : Nat
  /-- Run. -/
  run : ProgRun
  /-- Rank. -/
  rank : Nat
  /-- Context. -/
  ctx : CoreCtx
  deriving DecidableEq, Repr

/-- The core executes a segment and w is its next step (R208). -/
def State.coreAt (s : State) (core w : Nat) : Option CoreAt :=
  match tabGet s.prog.current (core / 8) with
  | none => none
  | some p =>
    match p.prog.cores.findIdx? (· == core % 8) with
    | none => none
    | some rank =>
      let x := s.core core
      if p.busy ∧ !x.ended ∧ (p.prog.streams.getD rank [])[x.pc]? = some w then some ⟨core / 8, p, rank, x⟩ else none

/-- Resident weights of a core's step. -/
def CoreAt.resident (a : CoreAt) (off n : Nat) : List Byte := residentOf a.run.objs a.run.prog.cores.length a.rank off n

end Sys2Proof.Machine
end

