-- ==== Sys2Proof/Machine/Starts.lean ====
section
/-!
DEFINITION. Dispatch (R78 step 5, R80): what each operation does when its calendar releases it, one function per operation (R59–R75, R79, R81, R146–R150).
-/

namespace Sys2Proof.Machine

open Sys2Proof

/-! ### References and holds -/

/-- Rename the page references that the engines hold. -/
def State.remap (s : State) (f : PageRef → PageRef) : State :=
  let ent (e : BurstEntry) : BurstEntry := match e with
    | .tile g t i l h p k => (let r := f ⟨g, t, i, l, h, p⟩
                              .tile r.grp r.tenant r.sid r.layer r.head r.page k)
    | e => e
  { s with
    mem := { s.mem with moves := s.mem.moves.map (fun m => (m.1, { m.2 with page := f m.2.page }))
                        dawn := s.mem.dawn.map f, backlog := s.mem.backlog.map f }
    sch := { s.sch with runs := s.sch.runs.map (fun r => { r with jobs := r.jobs.map (fun j => { j with ref := f j.ref }) }) }
    vsp := { s.vsp with units := s.vsp.units.map (fun u => (u.1, u.2.mapEnts ent))
                        rereads := s.vsp.rereads.map (fun x => (x.1, { x.2 with ent := ent x.2.ent, page := x.2.page.map (fun p => (f p.1, p.2)) })) } }

/-- A BIND that waits until the tier-1 copies of the groups it holds are written (R147). -/
def State.waitRun (s : State) (r : Req) (groups : List Nat) : State :=
  let run : Run :=
    { req := r, tDispatch := s.now, lens := [], q := [], jobs := [], remote := [], stalls := [], causes := [], held := false, needs := [], blocks := []
      prov := false, serial := 0, reserve := none, status := Status.ok, detail := 0, length := 0, attends := false, redo := true, base := 0
      groups := groups, stalled := false, rebuildDiffers := false, gen := r.gen.getD s.genLow, program := [], weights := [], output := [] }
  ({ s with sch := { s.sch with runs := s.sch.runs ++ [run] } }).stall r.rid .shadowWrite

/-- An append whose rows of K a poisoned tile keeps from being rotated: it takes effect, with the tables found at its dispatch, when the tile is repaired, and not at all where the repair is given up (R75, R197; log 107). -/
def State.waitTable (s : State) (r : Req) (turns : Option Turn × Option Turn) (needs : List TileKey) (program : List Byte) (weights : List (List Byte)) : State :=
  let run : Run :=
    { req := { r with turns := some (.inr turns) }, tDispatch := s.now, lens := [], q := [], jobs := [], remote := [], stalls := [], causes := [], held := false
      needs := needs, blocks := [], prov := false, serial := 0, reserve := none, status := Status.ok, detail := 0, length := 0, attends := false
      redo := true, base := 0, groups := [], stalled := false, rebuildDiffers := false, gen := r.gen.getD s.genLow, program := program, weights := weights, output := [] }
  ({ s with sch := { s.sch with runs := s.sch.runs ++ [run] } }).stall r.rid .weightRepair

/-- Count the conditioning of a request's rows for its tenant, once: past the dispatch checks, whatever becomes of it (R115; log 84). -/
def State.conditioned (s : State) (r : Req) (c : Conds) : State := if r.counted then s else s.condCount (Msg.tenant r.msg) c

/-- A request that waits for spare tail buffers takes effect once they are free, with the tables found at its dispatch (R98, R125). -/
def State.waitSpares (s : State) (r : Req) (turns : Option Turn × Option Turn) : State :=
  ({ s with sch := { s.sch with spareWait := s.sch.spareWait ++ [({ r with heldMove := true, counted := true, turns := some (.inr turns), gen := some (r.gen.getD s.genLow) }, s.now)] } }).stallCount (Msg.tenant r.msg) .spareTail

/-! ### The checks every operation on a sequence shares (R78) -/

/-- The sequence checks: the record, none for a sequence this request creates; else the status, detail and length of its reply (R58, R59, R322). -/
def State.seqCheck (s : State) (r : Req) (creates : Bool) : Except (Nat × Nat × Nat) (Option SeqRec) :=
  let m := r.msg
  match s.homeSeq (Msg.tenant m) (Msg.sid m) with
  | some q => if q.shape ≠ Msg.shape m then .error (Status.shapeMismatch, q.shape, q.lenFor (Msg.layer m)) else .ok (some q)
  | none =>
    if creates then .ok none
    else if s.lossBit (s.homeSlot (Msg.tenant m) (Msg.sid m) r.cls) then
      (if r.op = .release then .error (Status.ok, 0, 0) else .error (Status.stateLost, 0x00FFF000, 0))
    else .error (Status.noSequence, 0, 0)

/-- What an operation with an append part finds in its message. -/
structure AppendIn where
  /-- Offset of the part. -/
  o : Nat
  /-- Position. -/
  p : Nat
  /-- Tokens. -/
  n : Nat
  /-- Conditioned tokens. -/
  toks : List Token
  /-- What its conditioning counts. -/
  counts : Conds
  deriving DecidableEq, Repr

/-- Read and condition an append part (R62, R75, R98). -/
def State.appendIn (s : State) (m : List Byte) (o : Nat) (dataAt : Nat) (t : Option Turn) : AppendIn :=
  let sh := shapeOf (Msg.shape m)
  let p := AppendP.pos m o
  let n := AppendP.count m o
  let k := rowsAt m dataAt (n * sh.heads) sh.d
  let v := rowsAt m (dataAt + 2 * n * sh.heads * sh.d) (n * sh.heads) sh.d
  let x := condTokens n sh.heads sh.d (fun pos row => Turn.row t pos row) p k v
  ⟨o, p, n, x.1, x.2.1.zipIdx.foldl (fun a r => a.add (condsOf (s.lostAt t (p + r.2)) r.1)) (condsOf false x.2.2)⟩

/-- The rotary checks of R74 in message order: the tables of Q and K, or the offset at fault; of a request whose effect waited, those found at its dispatch (R98). -/
def State.tables (s : State) (r : Req) (useQ : Bool) (idxQ : Nat) (useK : Bool) (idxK kOff d : Nat) : Except Nat (Option Turn × Option Turn) :=
  match r.turns with
  | some (.inr t) => .ok t
  | some (.inl e) => .error e
  | none =>
    match s.turn useQ idxQ d with
    | .error _ => .error 57
    | .ok tq => match s.turn useK idxK d with | .error _ => .error kOff | .ok tk => .ok (tq, tk)

/-- The tables that a request finds as it is dispatched, by the fields of its operation, or the offset of the field at fault (R74). -/
def State.turnsOf (s : State) (r : Req) : Option (Nat ⊕ (Option Turn × Option Turn)) :=
  let m := r.msg
  let d := (shapeOf (Msg.shape m)).d
  let ask (useQ : Bool) (useK : Bool) (o : Nat) :=
    match s.tables r (useQ && Attend.ropeQ m) (Attend.ropeTable m) (useK && AppendP.ropeK m o) (AppendP.ropeTable m o) (o + 6) d with
    | .error e => some (.inl e)
    | .ok t => some (.inr t)
  match r.op with
  | .append => ask false true 40
  | .attend => ask true false 0
  | .appendAttend | .verify | .projectAttend => ask true true 72
  | _ => r.turns

/-- Find or create the sequence of a request that its checks accept: none is CAPACITY at creation (R150). -/
def State.seqFor (s : State) (r : Req) (q : Option SeqRec) : State × Option SeqRec :=
  match q with
  | some q => (s, some q)
  | none =>
    let m := r.msg
    let c := s.create (Msg.tenant m) (Msg.sid m) r.cls (Msg.shape m)
    if c.2 then (c.1, c.1.findSeq (Msg.tenant m) (Msg.sid m)) else (c.1, none)

/-! ### APPEND, ATTEND, APPEND_ATTEND (R63–R66) -/

/-- Apply an append on a layer (R63, R79): the state and the page that could not be reserved. -/
def State.applyAppend (s : State) (q : SeqRec) (l : Nat) (a : AppendIn) : State × Option (Nat × Nat) :=
  let x := appendRows q.sh s.pgw.entries a.toks (q.layer l)
  (s.putLayer q l x.1 x.2).tryReserve q.tenant q.sid l x.1.len

/-- A rebuild APPEND (R64, R142). -/
def State.startRebuild (s : State) (r : Req) (q : SeqRec) : State :=
  let m := r.msg
  let l := Msg.layer m
  let lr := q.layer l
  match s.tables r false 0 (AppendP.ropeK m 40) (AppendP.ropeTable m 40) 46 q.sh.d with
  | .error o => s.answer r Status.badField o lr.len
  | .ok (_, tk) =>
    let p := AppendP.pos m 40
    let n := AppendP.count m 40
    if !s.rebuildOk q l p n then s.answer r Status.positionMismatch lr.len lr.len
    else match lr.prov with
      | some v => s.answer r Status.pendingCommit v.base lr.len
      | none =>
        let needs := Turn.needs tk p n
        let gone := s.gaveUp needs
        let a := s.appendIn m 40 56 tk
        if gone.isSome then (s.conditioned r a.counts).cannot r (some q) [] gone lr.len
        else if (s.poisoned needs).isSome then s.waitTable r (none, tk) needs [] []
        else if s.rebuildNeeds q l p n ∧ s.freeSpares < q.sh.heads then (s.conditioned r a.counts).waitSpares r (none, tk)
        else
          let s := s.conditioned r a.counts
          let x := s.rebuild q l p a.toks
          x.1.launch r
            { seq := (x.1.findSeq q.tenant q.sid).getD q, cands := [], base := 0, q := [], qBytes := [], needs := needs, gaveUp := none, attends := false
              length := lr.len, reserve := none, differs := x.2, detail := 0, program := [], weights := turnDigests [tk] }

/-- APPEND (R63). -/
def State.startAppend (s : State) (r : Req) : State :=
  let m := r.msg
  let l := Msg.layer m
  let p := AppendP.pos m 40
  let n := AppendP.count m 40
  let re := AppendP.rebuild m 40
  match s.seqCheck r (!re && p == 0) with
  | .error e => s.answer r e.1 e.2.1 e.2.2
  | .ok q0 =>
    match re, q0 with
    | true, some q => s.startRebuild r q
    | _, _ =>
      let sh := shapeOf (Msg.shape m)
      let lr := (q0.map (fun q => q.layer l)).getD (LayerRec.empty sh.heads)
      match s.tables r false 0 (AppendP.ropeK m 40) (AppendP.ropeTable m 40) 46 sh.d with
      | .error o => s.answer r Status.badField o lr.len
      | .ok (_, tk) =>
        if p ≠ lr.len then s.answer r Status.positionMismatch lr.len lr.len
        else match lr.prov with
          | some v => s.answer r Status.pendingCommit v.base lr.len
          | none =>
            if 4194304 < p + n then s.answer r Status.tooLong lr.len lr.len
            else
              let needs := Turn.needs tk p n
              let gone := s.gaveUp needs
              let a := s.appendIn m 40 56 tk
              if gone.isSome ∨ (q0.isSome ∧ !lr.holds (p + n)) then (s.conditioned r a.counts).cannot r q0 [] gone lr.len
              else if (s.poisoned needs).isSome then s.waitTable r (none, tk) needs [] []
              else match (s.conditioned r a.counts).seqFor r q0 with
                | (s, none) => s.answer r Status.capacity 0 0
                | (s, some q) =>
                  let x := s.applyAppend q l a
                  x.1.launch r
                    { seq := (x.1.findSeq q.tenant q.sid).getD q, cands := [], base := 0, q := [], qBytes := [], needs := needs, gaveUp := none
                      attends := false, length := p + n, reserve := x.2, differs := false, detail := 0, program := [], weights := turnDigests [tk] }

/-- ATTEND (R65). -/
def State.startAttend (s : State) (r : Req) : State :=
  let m := r.msg
  let l := Msg.layer m
  match s.seqCheck r false with
  | .error e => s.answer r e.1 e.2.1 e.2.2
  | .ok none => s
  | .ok (some q) =>
    let lr := q.layer l
    let sh := q.sh
    match s.tables r (Attend.ropeQ m) (Attend.ropeTable m) false 0 0 sh.d with
    | .error o => s.answer r Status.badField o lr.len
    | .ok (tq, _) =>
      let needs := Turn.needs tq (Attend.qPos m) 1
      let rows := s.queryRows m 72 1 sh.hq sh.d (Attend.qPos m) tq
      (s.conditioned r rows.2).launch r
        { seq := q, cands := [⟨lr, lr.len, Attend.qPos m⟩], base := lr.len, q := rows.1, qBytes := m.drop 72, needs := needs
          gaveUp := s.gaveUp needs, attends := true, length := lr.len, reserve := none, differs := false, detail := 0, program := []
          weights := turnDigests [tq] }

/-- A request whose sequence cannot be created: a table of Q given up comes before CAPACITY (R78, R150). -/
def State.notCreated (s : State) (r : Req) (needQ : List TileKey) : State :=
  match s.gaveUp needQ with
  | some d => s.answer r Status.weightsUnavailable d 0
  | none => s.answer r Status.capacity 0 0

/-- APPEND_ATTEND (R66) over a message of its layout; also the append and attend of a program's output (R204). -/
def State.startAppendAttend (s : State) (r : Req) (m : List Byte) (program : List Byte) (objs : List (List Byte)) : State :=
  let l := Msg.layer m
  let p := AppendP.pos m 72
  match s.seqCheck r (p == 0) with
  | .error e => s.answer r e.1 e.2.1 e.2.2
  | .ok q0 =>
    let sh := shapeOf (Msg.shape m)
    let lr := (q0.map (fun q => q.layer l)).getD (LayerRec.empty sh.heads)
    match s.tables r (Attend.ropeQ m) (Attend.ropeTable m) (AppendP.ropeK m 72) (AppendP.ropeTable m 72) 78 sh.d with
    | .error o => s.answer r Status.badField o lr.len
    | .ok (tq, tk) =>
      if p ≠ lr.len then s.answer r Status.positionMismatch lr.len lr.len
      else match lr.prov with
        | some v => s.answer r Status.pendingCommit v.base lr.len
        | none =>
          if 4194304 < p + 1 then s.answer r Status.tooLong lr.len lr.len
          else
            let needK := Turn.needs tk p 1
            let needQ := Turn.needs tq p 1
            let goneK := s.gaveUp needK
            let a := s.appendIn m 72 88 tk
            let qOff := 88 + 4 * sh.heads * sh.d
            let rows := s.queryRows m qOff 1 sh.hq sh.d p tq
            let count (s : State) := s.conditioned r (a.counts.add rows.2)
            if goneK.isSome ∨ (q0.isSome ∧ !lr.holds (p + 1)) then
              (count s).cannot r q0 [⟨lr, p + 1, p⟩] (s.gaveUp (needQ ++ needK)) lr.len
            else if (s.poisoned needK).isSome then s.waitTable r (tq, tk) needK program objs
            else match (count s).seqFor r q0 with
              | (s, none) => s.notCreated r needQ
              | (s, some q) =>
                let x := s.applyAppend q l a
                let q' := (x.1.findSeq q.tenant q.sid).getD q
                let lr' := q'.layer l
                x.1.launch r
                  { seq := q', cands := [⟨lr', lr'.len, p⟩], base := lr'.len, q := rows.1, qBytes := m.drop qOff, needs := needQ ++ needK
                    gaveUp := s.gaveUp needQ, attends := true, length := lr'.len, reserve := x.2, differs := false, detail := 0
                    program := program, weights := objs ++ turnDigests [tq, tk] }

/-! ### VERIFY and COMMIT (R67–R70, R125) -/

/-- Candidates of a VERIFY: candidate j sees the layer with the rows up to its own appended (R67). -/
def verifyCands (sh : Shape) (l : LayerRec) (toks : List Token) (p : Nat) : List Cand :=
  (List.range toks.length).map (fun j =>
    let v := (appendRows sh 0 (toks.take (j + 1)) l).1
    (⟨v, v.len, p + j⟩ : Cand))

/-- VERIFY. -/
def State.startVerify (s : State) (r : Req) : State :=
  let m := r.msg
  let l := Msg.layer m
  let p := AppendP.pos m 72
  let c := AppendP.count m 72
  match s.seqCheck r (p == 0) with
  | .error e => s.answer r e.1 e.2.1 e.2.2
  | .ok q0 =>
    let sh := shapeOf (Msg.shape m)
    let lr := (q0.map (fun q => q.layer l)).getD (LayerRec.empty sh.heads)
    match s.tables r (Attend.ropeQ m) (Attend.ropeTable m) (AppendP.ropeK m 72) (AppendP.ropeTable m 72) 78 sh.d with
    | .error o => s.answer r Status.badField o lr.len
    | .ok (tq, tk) =>
      if p ≠ lr.len then s.answer r Status.positionMismatch lr.len lr.len
      else if 4194304 < p + c then s.answer r Status.tooLong lr.len lr.len
      else
        let needK := Turn.needs tk p c
        let needQ := Turn.needs tq p c
        let goneK := s.gaveUp needK
        let a := s.appendIn m 72 88 tk
        let qOff := 88 + 4 * c * sh.heads * sh.d
        let rows := s.queryRows m qOff c sh.hq sh.d p tq
        let count (s : State) := s.conditioned r (a.counts.add rows.2)
        let need := if (lr.fills c).isSome then sh.heads else 0
        let short := decide (s.freeSpares + ((lr.prov.map (·.spares)).getD 0) < need)
        let cands := (List.range c).map (fun j => (⟨lr, p + j + 1, p + j⟩ : Cand))
        let sp := spanUnion m cands
        let gone := s.gaveUp (needQ ++ needK)
        -- STATE_LOST and WEIGHTS_UNAVAILABLE come before the CAPACITY that want of spares may bring (R78)
        if goneK.isSome ∨ (q0.isSome ∧ !lr.holds (p + c)) ∨ (short ∧ (gone.isSome ∨ (q0.bind (fun q => s.lostDetail q sp.1 sp.2)).isSome)) then
          (count s).cannot r q0 cands gone lr.len
        else if (s.poisoned needK).isSome then s.waitTable r (tq, tk) needK [] []
        else if short then (count s).waitSpares r (tq, tk)
        else match (count s).seqFor r q0 with
          | (s, none) => s.notCreated r needQ
          | (s, some q) =>
            -- the new set replaces the old one in this step (R69)
            let s := s.discardProv q l
            let q := (s.findSeq q.tenant q.sid).getD q
            let x := (q.layer l).applyProv r.rid sh a.toks
            let s := ((s.putSeq (q.mapLayer l (fun _ => x.1))).useSpares need 0).bump (Reg.attSatTenant + 16 * q.tenant + 8) x.2
            let t := s.tryReserve q.tenant q.sid l (p + c)
            let s := t.1
            let q := (s.findSeq q.tenant q.sid).getD q
            s.launch r
              { seq := q, cands := verifyCands sh (q.layer l).dropProv a.toks p, base := lr.len, q := rows.1, qBytes := m.drop qOff, needs := needQ ++ needK
                gaveUp := s.gaveUp needQ, attends := true, length := lr.len, reserve := t.2, differs := false, detail := 0, program := []
                weights := turnDigests [tq, tk] }

/-- Layers a COMMIT names. -/
def commitLayers (q : SeqRec) (l : Nat) : List Nat := if l = 0xFFFF then List.range q.layers.length else [l]

/-- COMMIT (R70). -/
def State.startCommit (s : State) (r : Req) : State :=
  let m := r.msg
  let p := field m 40 4
  let k := byteAt m 44
  match s.seqCheck r false with
  | .error e => s.answer r e.1 e.2.1 e.2.2
  | .ok none => s
  | .ok (some q) =>
    let ls := commitLayers q (Msg.layer m)
    match ls.find? (fun l => match (q.layer l).prov with | some v => decide (v.base ≠ p ∨ v.rows.length < k) | none => true) with
    | some l => s.answer r Status.noProvisional l (q.lenFor (Msg.layer m))
    | none =>
      let s := ls.foldl (fun s l =>
        match s.findSeq q.tenant q.sid with
        | none => s
        | some q =>
          let lr := q.layer l
          let spares := (lr.prov.map (·.spares)).getD 0
          -- accepted, the sealing candidate makes the spares the layer's tail buffers (R125)
          let seals := (lr.prov.bind (·.tile)).isSome && decide (64 ≤ lr.len % 64 + k)
          let s := if seals then s.swapTails q.tenant q.sid l else s
          (s.useSpares 0 spares).putLayer q l (lr.commitProv q.sh s.pgw.entries k) 0) s
      s.answer r Status.ok 0 (((s.findSeq q.tenant q.sid).getD q).lenFor (Msg.layer m))

/-! ### PREFIX_BIND (R71, R146–R148, R233) -/

/-- Key i of a PREFIX_BIND. -/
def bindKey (m : List Byte) (i : Nat) : Nat := field m (56 + 16 * i) 16

/-- Every entry of page i, over layers and heads. -/
def SeqRec.column (q : SeqRec) (i : Nat) : List (Nat × Nat × PageRef) :=
  (List.range q.layers.length).flatMap (fun l => (List.range q.sh.heads).map (fun h => (l, h, q.ref l h i)))

/-- Page i is sealed and intact in every layer and head (R71). -/
def State.pageWhole (s : State) (q : SeqRec) (i : Nat) : Bool :=
  (q.column i).all (fun x =>
    let p := s.pageAt x.2.2
    !p.lost && (p.state == .sealed || p.state == .shadowed || p.state == .spilled || p.state == .remote))

/-- The group page i of a sequence belongs to. -/
def SeqRec.groupOf (q : SeqRec) (i : Nat) : Option Nat :=
  let p := q.pte 0 0 i
  if p.kind = .shared ∧ p.state ≠ .free then some p.group else none

/-- Turn page i of a sequence into a page group (R146): its number. -/
def State.makeGroup (s : State) (tenant sid i : Nat) : State × Nat :=
  match s.findSeq tenant sid with
  | none => (s, 0)
  | some q =>
    match q.groupOf i with
    | some g => (s, g)
    | none =>
      let g := s.pgw.nextGroup
      let rec0 : GroupRec := { tenant := tenant, shape := q.shape, page := i, count := 1
                               ptes := (List.range q.layers.length).map (fun l => (List.range q.sh.heads).map (fun h =>
                                 -- a holder knows the page by the sequence that placed it (log 140)
                                 let p := q.pte l h i
                                 if p.kind = .holder then { p with handle := sid } else p)) }
      let q' := (q.column i).foldl (fun q x => q.setPte x.1 x.2.1 i { Pte.free with state := .sealed, kind := .shared, group := g }) q
      let s := State.settlePlaces { s with pgw := { s.pgw with groups := tabPut s.pgw.groups g rec0, nextGroup := g + 1 } }
      let s := (s.putSeq q').remap (fun p => if !p.grp ∧ p.tenant = tenant ∧ p.sid = sid ∧ p.page = i then { p with grp := true, tenant := g, sid := 0 } else p)
      ((q.column i).foldl (fun s x => s.invalidate ⟨false, tenant, sid, x.1, x.2.1, i⟩) s, g)

/-- The conflicts of a PUBLISH (R71, R233), key by key: the first index at fault, the new keys, and the state the searches leave. -/
def State.publishScan (s : State) (q : SeqRec) (m : List Byte) : List Nat → List (Nat × Nat) → State × Option Nat × List (Nat × Nat)
  | [], fresh => (s, none, fresh)
  | i :: t, fresh =>
    let key := bindKey m i
    if fresh.any (fun x => x.2 == key) ∨ (List.range i).any (fun j => bindKey m j == key) then (s, some i, fresh)
    else
      let f := s.keyFind q.tenant q.shape key
      match f.1 with
      | none => f.2.publishScan q m t (fresh ++ [(i, key)])
      | some g => if q.groupOf i = some g then f.2.publishScan q m t fresh else (f.2, some i, fresh)

/-- PUBLISH. -/
def State.startPublish (s : State) (r : Req) (q : SeqRec) : State :=
  let m := r.msg
  let np := field m 42 2
  let len := q.lenFor (Msg.layer m)
  match (List.range np).find? (fun i => !s.pageWhole q i) with
  | some i => s.answer r Status.notSealed i len
  | none =>
    match s.publishScan q m (List.range np) [] with
    | (s, some i, _) => s.answer r Status.keyConflict i len
    | (s, none, fresh) =>
      if s.keyFree < fresh.length then s.answer r Status.capacity (q.lenFor 0xFFFF) len
      else
        let s := fresh.foldl (fun s x =>
          let g := s.makeGroup q.tenant q.sid x.1
          g.1.keyAttach q.tenant q.shape x.2 g.2) s
        s.answer r Status.ok 0 len

/-- UNPUBLISH. -/
def State.startUnpublish (s : State) (r : Req) (q : SeqRec) : State :=
  let m := r.msg
  let s := (List.range (field m 42 2)).foldl (fun s i => s.keyDetach q.tenant q.shape (bindKey m i)) s
  s.answer r Status.ok 0 (q.lenFor (Msg.layer m))

/-- A shared record lacks the tier-1 copy that a SHADOWED sequence asks for (R147). -/
def needsCopy (p : Pte) : Bool := p.shadow.isNone && p.kind != .tier1

/-- Begin the tier-1 copies of a group: none where one cannot be made (R147). -/
def State.copyGroup (s : State) (g : Nat) (gr : GroupRec) : Option State :=
  let cells := gr.ptes.zipIdx.flatMap (fun ly => ly.1.zipIdx.map (fun hd => (ly.2, hd.2)))
  cells.foldl (fun acc x =>
    match acc with
    | none => none
    | some s =>
      let ref : PageRef := ⟨true, g, 0, x.1, x.2, gr.page⟩
      let p := s.pageAt ref
      if !needsCopy p ∨ s.mem.moves.any (fun m => decide (m.2.page = ref ∧ (m.2.kind = .shadow ∨ m.2.kind = .fetch))) then some s
      -- a page carries one move at a time: its copy is owed until the move it carries has ended (R131; log 110)
      else if p.moving then some (if s.mem.backlog.contains ref then s else s.oweShadow ref)
      else match p.kind with
        | .tier0 =>
          (match (if s.roomT1 (s.refSlice ref) (s.refKiB ref) then s.alloc.pick1 (s.refKiB ref) else none) with
           | none => none
           | some (o, a) =>
             let s := { s with pgw := { s.pgw with allocs := a.serial } }
             some ((s.startMove .shadow ref [o] [] 0).2.readPage ref p.locs))
        | .pool | .host => s.fetchPage ref
        -- held at a holder: asked back, and copied once it is here (R191; log 140)
        | .holder => some (if s.mem.backlog.contains ref then s.askHolder ref else (s.oweShadow ref).askHolder ref)
        | _ => none) (some s)

/-- The groups a BIND finds from key i on, each held as it is found (R71, R81, R147). The flag tells that copies are being written. -/
def State.bindScan (s : State) (m : List Byte) (shadowed : Bool) : List Nat → List Nat → Bool → State × List Nat × Bool
  | [], got, w => (s, got, w)
  | i :: t, got, w =>
    let f := s.keyFind (Msg.tenant m) (Msg.shape m) (bindKey m i)
    let s := f.2
    match f.1.bind (fun g => (s.group g).map (fun x => (g, x))) with
    | none => (s, got, w)
    | some (g, gr) =>
      if gr.page ≠ i then (s, got, w)
      else
        let hold (s : State) : State := { s with pgw := { s.pgw with groups := tabMap s.pgw.groups g (fun x => { x with count := x.count + 1 }) } }
        let cells := gr.ptes.flatten
        if shadowed ∧ cells.any needsCopy then
          if cells.any (·.lost) then (s, got, w)
          else match s.copyGroup g gr with
            | none => (s, got, w)
            | some s => (hold s).bindScan m shadowed t (got ++ [g]) true
        else (hold s).bindScan m shadowed t (got ++ [g]) w

/-- Of the groups a waiting BIND holds, those before the first whose copies could not be made. -/
def State.bindKept (s : State) (gs : List Nat) : List Nat :=
  gs.takeWhile (fun g => match s.group g with
    | none => false
    | some gr => gr.ptes.flatten.all (fun p => !needsCopy p))

/-- Create the sequence of a BIND over the m groups it holds. -/
def State.bindCreate (s : State) (r : Req) (gs : List Nat) : State :=
  let m := r.msg
  let tenant := Msg.tenant m
  let sid := Msg.sid m
  let n := gs.length
  if n = 0 then
    match s.seqFor r none with
    | (s, none) => s.answer r Status.capacity 0 0
    | (s, some _) => s.answer r Status.ok 0 0
  else
    match s.freeSeqSlot tenant sid with
    | none => (gs.foldl (fun s g => s.dropGroup g) (s.raiseBit Reg.pgwEvent 2)).answer r Status.capacity 0 0
    | some slot =>
      let q := s.newSeq tenant sid r.cls (Msg.shape m) slot
      let pages := gs.zipIdx.map (fun g => (g.2, { Pte.free with state := PageState.sealed, kind := LocKind.shared, group := g.1 }))
      let lay (y : LayerRec) : LayerRec := { y with len := 256 * n, heads := y.heads.map (fun h => { h with pages := pages, depth := decide (128 < n) }) }
      let q := { q with layers := q.layers.map lay }
      let s := (s.putSeq q).countSeq
      let t := match s.reserveLayers q n q.sh.layers with
        | some s => (s, none)
        | none => (s.dusk1 (s.freeTier1 + 4 * q.sh.pairKiB * q.sh.heads * q.sh.layers) [] (s.allPages.length + 1), some (0xFFFF, n))
      t.1.launch r
        { seq := q, cands := [], base := 0, q := [], qBytes := [], needs := [], gaveUp := none, attends := false, length := 256 * n
          reserve := t.2, differs := false, detail := n, program := [], weights := [] }

/-- BIND, with the groups an earlier look at the keys already holds. -/
def State.startBind (s : State) (r : Req) (held : Option (List Nat)) : State :=
  let m := r.msg
  match s.homeSeq (Msg.tenant m) (Msg.sid m) with
  | some q => ((held.getD []).foldl (fun s g => s.dropGroup g) s).answer r Status.seqExists 0 (q.lenFor (Msg.layer m))
  | none =>
    match held with
    | some gs =>
      let kept := s.bindKept gs
      ((gs.drop kept.length).foldl (fun s g => s.dropGroup g) s).bindCreate r kept
    | none =>
      let f := s.bindScan m (s.bit (Reg.memClassCfg + 4 * r.cls) 0) (List.range (field m 42 2)) [] false
      if f.2.2 then f.1.waitRun r f.2.1 else f.1.bindCreate r f.2.1

/-- PREFIX_BIND by its action. -/
def State.startPrefixBind (s : State) (r : Req) (held : Option (List Nat)) : State :=
  let a := byteAt r.msg 40
  if a = 0 then s.startBind r held
  else match s.seqCheck r false with
    | .error e => s.answer r e.1 e.2.1 e.2.2
    | .ok none => s
    | .ok (some q) => if a = 1 then s.startPublish r q else s.startUnpublish r q

/-! ### RELEASE (R73, R81, R125, R148) -/

/-- End a sequence; pages that an earlier request still has to fetch stay under a record that no request can name (R81). -/
def State.releaseSeq (s : State) (q : SeqRec) : State :=
  if s.fetchesOf q.tenant q.sid then
    let k := 4096 * (1 + s.mem.nextMove) + q.tenant
    let s := { s with mem := { s.mem with nextMove := s.mem.nextMove + 1 } }
    let spares := q.layers.foldl (fun n l => n + ((l.prov.map (·.spares)).getD 0) + l.rebuildSpares) 0
    let bare (y : LayerRec) : LayerRec := { y.dropProv with rebuildSpares := 0, heads := y.dropProv.heads.map (fun h => { h with collect := [] }) }
    let q' := { q with tenant := k, bucket := pow2 40, slot := k, home := false, layers := q.layers.map bare }
    let s := (s.delSeq q.tenant q.sid).useSpares 0 spares
    let s := (s.putSeq q').remap (fun p => if !p.grp ∧ p.tenant = q.tenant ∧ p.sid = q.sid then { p with tenant := k } else p)
    let mine (p : PageRef) : Bool := !p.grp && p.tenant == k && p.sid == q.sid
    let needed (p : PageRef) : Bool := s.sch.runs.any (fun r => r.jobs.any (fun j => j.exec == .fetch && j.ref == p))
    -- queued and running moves go, but for the fetches that an earlier request waits for (R81, R191)
    let gone := s.mem.moves.filter (fun m => mine m.2.page && !(m.2.kind == .fetch && needed m.2.page))
    let s := gone.foldl (fun s m => s.abandonMove m.1) s
    { s with mem := { s.mem with dawn := s.mem.dawn.filter (fun p => !mine p), backlog := s.mem.backlog.filter (fun p => !mine p) } }
  else s.endSeq q

/-- RELEASE. -/
def State.startRelease (s : State) (r : Req) : State :=
  match s.seqCheck r false with
  | .error e => s.answer r e.1 e.2.1 e.2.2
  | .ok none => s
  | .ok (some q) =>
    (s.releaseSeq q).answer r Status.ok 0 0

/-! ### ATTEST, SPAN_WORK (R91, R353) -/

/-- ATTEST: its nonce joins its tenant's slot, and it waits for the report. -/
def State.startAttest (s : State) (r : Req) : State :=
  let t := Msg.tenant r.msg
  let s := s.queueNonce t (slice r.msg 40 32)
  let w : AttWait := ⟨{ r with gen := some (r.gen.getD s.genLow) }, s.now, t, none⟩
  { s with sec := { s.sec with waiting := s.sec.waiting ++ [w] } }

/-- SPAN_WORK at a holder: the leaves of the given blocks only (R91; log 30). The holder counts its conditioning of Q too (DESIGN CHOICE, log 84). -/
def State.startSpanWork (s : State) (r : Req) : State :=
  let m := r.msg
  let l := Msg.layer m
  match s.findSeq (Msg.tenant m) (Msg.sid m) with
  | none => s.answer r Status.noSequence 0 0
  | some q =>
    if q.shape ≠ Msg.shape m then s.answer r Status.shapeMismatch q.shape 0
    else
      let sh := q.sh
      match s.tables r (Attend.ropeQ m) (Attend.ropeTable m) false 0 0 sh.d with
      | .error o => s.answer r Status.badField o 0
      | .ok (tq, _) =>
        let c := max 1 (byteAt m (m.length - 1))
        let last := (ownBlocks m).foldl (fun n b => max n (b.2 + pow2 b.1)) 0
        let needs := Turn.needs tq (Attend.qPos m) c
        let rows := s.queryRows m 72 c sh.hq sh.d (Attend.qPos m) tq
        let lr := q.layer l
        -- positions beyond Len(l) lie on pages that no holder has (R82, R83)
        let len := 1024 * last
        (s.conditioned r rows.2).launch r
          { seq := q, cands := (List.range c).map (fun j => (⟨{ lr with len := len }, len, Attend.qPos m + j⟩ : Cand)), base := len
            q := rows.1, qBytes := [], needs := needs, gaveUp := s.gaveUp needs, attends := true, length := 0, reserve := none, differs := false
            detail := 0, program := [], weights := turnDigests [tq] }

/-! ### Dispatch -/

/-- Where a request that may not run here goes: forwarded once, or STALE_MAP (R314, R316). -/
def State.elsewhere (s : State) (r : Req) (dst : Nat) : State :=
  if r.fwd ∨ r.op = .spanWork then s.answer r Status.staleMap s.genLow 0 else s.forward r dst

/-- Execute a released request (R80). -/
def State.execute (s : State) (r : Req) (held : Option (List Nat)) : State :=
  match r.op with
  | .append => s.startAppend r
  | .attend => s.startAttend r
  | .appendAttend => s.startAppendAttend r r.msg [] []
  | .verify => s.startVerify r
  | .commit => s.startCommit r
  | .prefixBind => s.startPrefixBind r held
  | .release => s.startRelease r
  | .attest => s.startAttest r
  | .spanWork => s.startSpanWork r
  | .run | .projectAttend => s.startProgram r
  | .rread | .rwrite | .rwriteTiles => s

/-! ### Effects in dispatch order (R80) -/

/-- The effect of a request on a layer must come before a later one's: on one sequence, and one layer unless either names all of them or the sequence does not exist yet. A VERIFY and an ATTEND do not meet (R69). -/
def State.before (s : State) (e r : Req) : Bool :=
  let el := Msg.layer e.msg
  let rl := Msg.layer r.msg
  Msg.tenant e.msg == Msg.tenant r.msg && Msg.sid e.msg == Msg.sid r.msg &&
  (el == rl || el == 0xFFFF || rl == 0xFFFF || e.op == .prefixBind || r.op == .prefixBind || (s.homeSeq (Msg.tenant r.msg) (Msg.sid r.msg)).isNone) &&
  !((e.op == .verify || e.op == .attend) && r.op == .attend)

/-- The effect of a request waits for those of some earlier ones, beside these (log 107). -/
def State.behind (s : State) (ahead : List Waiter) (r : Req) : Bool :=
  (s.sch.spareWait.map Prod.fst ++ (s.sch.runs.filter (·.redo)).map (·.req) ++ ahead.map (·.req)).any (fun e => s.before e r)

/-- A waiting request takes effect; what it yields keeps its dispatch's count (R80). -/
def State.effect (s : State) (w : Waiter) (held : Option (List Nat)) : State :=
  let s := if w.req.op = .projectAttend ∧ !w.program.isEmpty then s.startAppendAttend w.req w.req.msg w.program w.weights else s.execute w.req held
  { s with sch := { s.sch with
      runs := s.sch.runs.map (fun x => if x.req.rid = w.req.rid then { x with tDispatch := w.since } else x)
      spareWait := s.sch.spareWait.map (fun x => if x.1.rid = w.req.rid then (x.1, w.since) else x)
      replies := s.sch.replies.map (fun x => if x.req.rid = w.req.rid then { x with tDispatch := w.since } else x) } }

/-- The first waiting request that no earlier one holds, and the others. -/
def State.freed (s : State) : List Waiter → List Waiter → Option (Waiter × List Waiter)
  | _, [] => none
  | ahead, w :: t => if s.behind ahead w.req then s.freed (ahead ++ [w]) t else some (w, ahead ++ t)

/-- VERIFYs and rebuilds of a sequence that wait for spares complete with CAPACITY as it is released (R125). -/
def State.endSpareWaits (s : State) (tenant sid : Nat) : State :=
  let mine (x : Req × Nat) : Bool := Msg.tenant x.1.msg == tenant && Msg.sid x.1.msg == sid
  let waits := s.sch.spareWait.filter mine
  let s := { s with sch := { s.sch with spareWait := s.sch.spareWait.filter (fun x => !mine x) } }
  waits.foldl (fun s x =>
    let len := ((s.homeSeq tenant sid).map (fun q => q.lenFor (Msg.layer x.1.msg))).getD 0
    ((s.stallTicks tenant .spareTail x.2).raiseBit Reg.pgwEvent 3).answer x.1 Status.capacity len len) s

/-- A RELEASE waits behind one that waits for spares. -/
def State.stuckRelease (s : State) : Option Waiter :=
  s.sch.order.find? (fun w => w.req.op == .release && s.sch.spareWait.any (fun x => s.before x.1 w.req))

/-- Waiting requests take effect in dispatch order, as far as they may; a RELEASE ends the waits for spares before it. -/
def State.goOn : Nat → State → State
  | 0, s => s
  | n + 1, s =>
    match s.freed [] s.sch.order with
    | some (w, rest) => State.goOn n (State.effect { s with sch := { s.sch with order := rest } } w none)
    | none =>
      match s.stuckRelease with
      | some w => State.goOn n (s.endSpareWaits (Msg.tenant w.req.msg) (Msg.sid w.req.msg))
      | none => s

/-- Let what waits go on. -/
def State.settleOrder (s : State) : State := State.goOn (2 * s.sch.order.length) s

/-- A request takes effect, now or after those before it. -/
def State.inOrder (s : State) (r : Req) (program : List Byte) (weights : List (List Byte)) : State :=
  let w : Waiter := ⟨{ r with turns := s.turnsOf r, gen := some (r.gen.getD s.genLow) }, s.now, program, weights⟩
  if s.behind s.sch.order r then { s with sch := { s.sch with order := s.sch.order ++ [w] } } else s.effect { w with req := r } none

/-- A SPAN_WORK reaches a TOMBSTONE among the pages of its blocks; sealed pages that stay here under a held record serve it (R315, R316). -/
def State.spanTomb (s : State) (m : List Byte) : Bool :=
  match s.findSeq (Msg.tenant m) (Msg.sid m) with
  | none => false
  | some q => (ownBlocks m).any (fun b => (q.spanRefs (Msg.layer m) b.2 (pow2 b.1)).any (fun ref => (s.pageAt ref).state == .tombstone))

/-- Dispatch a request: at the home its map names, unless the sequence has left (R303, R314, R316). -/
def State.dispatch (s : State) (r : Req) : State :=
  let m := r.msg
  if r.op = .spanWork then (if s.spanTomb m then s.elsewhere r s.map.id else s.execute r none)
  else if r.op.homed then
    match (s.findSeq (Msg.tenant m) (Msg.sid m)).bind SeqRec.tomb with
    | some t => s.elsewhere r t.1
    | none =>
      let home := s.homeOf (s.homeSlot (Msg.tenant m) (Msg.sid m) r.cls)
      if home ≠ s.map.id ∧ (s.homeSeq (Msg.tenant m) (Msg.sid m)).isNone then s.elsewhere r home
      else if r.op = .projectAttend then s.execute r none
      else (if r.op = .release then (s.endSpareWaits (Msg.tenant m) (Msg.sid m)).settleOrder else s).inOrder r [] []
  else s.execute r none

/-- A request that waited before its effect goes on: a BIND with the groups it holds, an append with its tables (R80, R147, R197). -/
def State.redo (s : State) (rid : Nat) : State :=
  match s.run rid with
  | none => s
  | some old =>
    let r := { old.req with heldMove := true }
    let s := old.stalls.foldl (fun s x => s.stallTicks (Msg.tenant r.msg) x.1 x.2) s
    ((s.dropRun rid).effect ⟨r, old.tDispatch, old.program, old.weights⟩ (some old.groups)).settleOrder

end Sys2Proof.Machine
end

