-- ==== Sys2Proof/Machine/WeightRepair.lean ====
section
/-!
DEFINITION. The 64 KiB units of tier 1 that fail (R195), and the repair of weight tiles (R196, R197).
-/

namespace Sys2Proof.Machine

open Sys2Proof

/-! ### Units of tier 1 that fail (R195) -/

/-- A run of n KiB from a pointer meets a 64 KiB unit of tier 1. -/
def meetsUnit (ptr n u : Nat) : Bool := decide (ptr < tier1Lo + 64 * u + 64 ∧ tier1Lo + 64 * u < ptr + n)

/-- A unit that fails takes no new contents; what lives there moves out (R195). -/
def State.failUnit (s : State) (u : Nat) : State :=
  if s.mem.retired.contains u then s else { s with mem := { s.mem with failing := setInsert s.mem.failing u } }

/-- Live contents of a tier-1 unit: pages' runs and copies, destinations of moves, old locations and weight tiles (R195). -/
def State.unitLive (s : State) (u : Nat) : Bool := (s.runs1 ++ s.imageRuns).any (fun r => meetsUnit r.1 r.2 u)

/-- Failing units whose live contents have moved are retired for good (R195). -/
def State.retireUnits (s : State) : State :=
  let gone := s.mem.failing.filter (fun u => !s.unitLive u)
  if gone.isEmpty then s
  else
    let s := { s with mem := { s.mem with retired := gone.foldl setInsert s.mem.retired, failing := s.mem.failing.filter (fun u => !gone.contains u) } }
    s.setStatus Reg.memStatus 23 4 s.mem.retired.length

/-! ### The repair of a weight tile (R196) -/

/-- A copy of an image whose tile has been repaired is refilled (R231). -/
def State.refreshMat (s : State) : State :=
  let t := s.endRefills
  if t.mat.refill = s.mat.refill then t else t.raiseBit Reg.matEvent 3

/-- A tile is poisoned. -/
def State.isPoisoned (s : State) (k : TileKey) : Bool := s.mem.poison.any (fun p => p.1 == k)

/-- Live members of an object's device set in the map, other than this node, in ascending ID: the map names a node by the first 8 bytes of its idd (R196, R214; log 35). -/
def State.donors (s : State) (o : WObj) : List Nat :=
  match s.map.cur with
  | none => []
  | some m => (m.nodes.filter (fun p => (p.2.state == .member || p.2.state == .draining) && p.1 != s.map.id &&
      o.members.any (fun idd => leNat (idd.take 8) == p.2.ident))).map Prod.fst

/-- Ask the next member after a node for a weight tile, which crosses encrypted and with its tag (R196, R214; log 35). -/
def State.weightAsk (s : State) (k : TileKey) (after : Option Nat) : State :=
  match s.weightObj k.obj k.ver with
  | none => s
  | some o =>
    match (s.donors o).find? (fun n => match after with | none => true | some a => decide (a < n)) with
    | none => s
    | some n => s.nodeOp n (s.remoteMsg 0x10 0 (65552 * k.tile) 65552 0 0 []) (.weight k)

/-- A tile's copy takes a new location; a failing unit of tier 1 is retired once nothing lives there, and a failing place of protected tier 0 at once (R195, R196). -/
def State.rehome (s : State) (k : TileKey) (work : Bool) : State :=
  let x : Place := if work then .work k else .image k
  let gone := if work && s.mem.badCopies.contains (k, true) then ((s.placed x false).map Prod.fst).toList else []
  let put (s : State) (o : Nat) : State :=
    { s with mem := { s.mem with retiredProt := gone.foldl setInsert s.mem.retiredProt }, pgw := { s.pgw with allocs := s.pgw.allocs + 1, places := s.pgw.places.filter (fun p => decide (p.1 ≠ (x, false))) ++ [((x, false), (o, 64))] } }
  if (s.placed x false).isNone then s
  else
    match if work then s.findProt 64 1 else (s.alloc.pick1 16).map Prod.fst with
    | some o => (put s o).retireUnits
    | none => s

/-- Images of weight tiles that live in failing units move to other places of tier 1 (R195). -/
def State.leaveImages (s : State) : State :=
  (s.pgw.places.filterMap (fun p => match p.1.1 with
    | .image k => if s.mem.failing.any (meetsUnit p.2.1 p.2.2) ∧ !s.mem.badCopies.contains (k, false) then some k else none
    | _ => none)).foldl (fun s k => s.rehome k false) s

/-- A candidate has passed the manifest digest: it is written to new locations and the poison is cleared; where a copy finds no new location the tile stays poisoned, and is tried again (R196; log 117). -/
def State.clearPoison (s : State) (k : TileKey) : State :=
  let bad := (s.mem.badCopies.filter (fun c => c.1 == k)).map Prod.snd
  let at_ (s : State) (w : Bool) : Option (Nat × Nat) := s.placed (if w then .work k else .image k) false
  let was := s
  let s := bad.foldl (fun s w => s.rehome k w) s
  if bad.any (fun w => (at_ was w).isSome && at_ s w == at_ was w) then s
  else
    let s := { s with mem := { s.mem with poison := s.mem.poison.filter (fun p => p.1 != k), badCopies := s.mem.badCopies.filter (fun c => c.1 != k) } }
    let s := s.refreshMat
    let v := s.live Reg.memRepair
    ((s.setLive Reg.memRepair (putBits v 31 16 (min 0xFFFF (bitsOf v 31 16 + 1)))).refreshPoison).raiseBit Reg.memEvent 4

/-- Try a poisoned tile's sources in order: the node's own other copy, which may fail its check too (a free value, log 87), then the members (R196). -/
def State.trySources (s : State) (k : TileKey) : State :=
  if !s.isPoisoned k then s
  else if [true, false].all (fun w => s.mem.badCopies.contains (k, w)) then s.weightAsk k none
  else
    let x := s.fresh
    if Config.copyFails x.1 then
      let more := [true, false].filterMap (fun w => if s.mem.badCopies.contains (k, w) then none else some (k, w))
      State.weightAsk { x.2 with mem := { x.2.mem with badCopies := s.mem.badCopies ++ more } } k none
    else x.2.clearPoison k

/-- A copy of a tile has been read with an uncorrectable error: the tile is poisoned, and its repair starts (R196). -/
def State.poisonTile (s : State) (k : TileKey) (work : Bool) : State :=
  let s := if s.mem.badCopies.contains (k, work) then s else { s with mem := { s.mem with badCopies := s.mem.badCopies ++ [(k, work)] } }
  if s.isPoisoned k then s
  else
    let s := { s with mem := { s.mem with poison := s.mem.poison ++ [(k, (s.now + 4194304, false))] } }
    ((s.refreshPoison).raiseBit Reg.memEvent 3).trySources k

end Sys2Proof.Machine
end

