-- ==== Sys2Proof/Machine/TierEcc.lean ====
section
/-!
DEFINITION. Tier 1 under its own code, and what its errors cost (R15, R179, R185, R195, R331); the protected region under inline symbols (R178).
-/

namespace Sys2Proof.Machine

open Sys2Proof

/-- LPDDR6 stack over which the granule of a tier-1 address is spread (R137). -/
def spreadStack (a : Nat) : Nat := (a - tier0End) / 256 % 8

/-- LPDDR6 stack that a tier-1 address lies in: the granules of a closed stack have moved to open ones (R137, R330; log 27). -/
def State.lpddrStack (s : State) (a : Nat) : Nat :=
  let k := spreadStack a
  let left := (List.range 8).filter (fun i => !s.lpddrClosed i)
  if s.lpddrClosed k then left.getD (Config.choice ((a - tier0End) / 256) left.length % left.length) k else k

/-- The 64 KiB unit of tier 1 that holds an address (R195). -/
def tier1Unit (a : Nat) : Nat := (a - tier0End) / 65536

/-- A page's tier-1 run covers a tier-1 address. -/
def State.coversTier1 (s : State) (ref : PageRef) (ptr a : Nat) : Bool :=
  decide (ptr ≤ a / 1024 ∧ a / 1024 < ptr + 4 * s.refKiB ref)

/-- The weight tile whose working copy or image holds a flat address (R196). -/
def State.tileAt (s : State) (a : Nat) : Option (TileKey × Bool) :=
  s.pgw.places.findSome? (fun p =>
    if p.2.1 ≤ a / 1024 ∧ a / 1024 < p.2.1 + p.2.2 then
      match p.1.1 with
      | .work k => some (k, true)
      | .image k => some (k, false)
      | _ => none
    else none)

/-- The shadow of a page in tier 0 has failed: the page stays SHADOWED, and its copy is owed anew from the tier-0 copy (R128, R195). -/
def State.reshadow (s : State) (ref : PageRef) : State :=
  if s.mem.backlog.contains ref then s else ({ s with mem := { s.mem with backlog := s.mem.backlog ++ [ref] } }).setStatus Reg.memStatus 0 0 1

/-- A page gives its shadow up: SHADOWED, it is SEALED again with its shadow outstanding (R184, R330). -/
def State.dropShadow (s : State) (ref : PageRef) (p : Pte) : State :=
  let s := s.setPageAt ref { p with shadow := none, state := if p.state = .shadowed then .sealed else p.state }
  let s := match p.shadow with | some x => s.freeSlots false [x.1] (s.refKiB ref) x.2 | none => s
  if p.kind = .tier0 then ({ s with mem := { s.mem with backlog := s.mem.backlog ++ [ref] } }).setStatus Reg.memStatus 0 0 1 else s

/-- A move into tier 1, which a closed stack had a part of, is abandoned and starts again towards the others (R131, R330). -/
def State.restartTier1 (s : State) : State :=
  (s.mem.moves.filter (fun m => m.2.kind.toTier1)).foldl (fun s m =>
    let s := s.abandonMove m.1
    match m.2.kind with
    | .fetch => (s.fetchPage m.2.page).getD s
    | .shadow => if (s.pageAt m.2.page).pairs.length = 4 then s.reshadow m.2.page else s
    | _ => s) s

/-- An LPDDR6 stack has closed: what lived in it lives in the others, and while those lack room SHADOWED pages give their shadows up (R330; log 27). -/
def State.leaveStack (s : State) : State :=
  (s.allPages.filter (fun v => v.2.state == .shadowed && v.2.kind == .tier0 && v.2.shadow.isSome && !v.2.moving)).foldl
    (fun s v => if s.overTier1 = 0 then s else s.dropShadow v.1 (s.pageAt v.1)) s.restartTier1

/-- What an uncorrectable error does to what it strikes: a shadow is written again from the tier-0 copy, an only copy is lost, a weight tile's image is poisoned (R185, R195, R196). -/
def State.tier1Strike (s : State) (a : Nat) : State :=
  match s.allPages.find? (fun p => (p.2.shadow.map (fun x => s.coversTier1 p.1 x.1 a)).getD false) with
  | some (ref, p) => (if p.kind = .tier0 then s.reshadow ref else s.dropShadow ref p).raiseBit Reg.memEvent 6
  | none =>
    match s.allPages.find? (fun p => p.2.kind == .tier1 && s.coversTier1 p.1 (p.2.locs.headD 0) a) with
    | some (ref, _) => ((s.markLost ref).sweepLost).raiseBit Reg.memEvent 6
    | none =>
      match s.tileAt a with
      | some (k, work) => s.poisonTile k work
      | none => s

/-- What ECC found of a read of a tier-1 address: scored, and an uncorrectable error acted on (R179, R195, R331). The 64 KiB unit is retired whatever the failing block held, or held nothing (DESIGN CHOICE, log 116). -/
def State.tier1Ecc (s : State) (a : Nat) (e : EccOutcome) : State :=
  match e with
  | .clean => s
  | .corrected => s.addPoints (Part.lpddr (s.lpddrStack a)) 1
  | .uncorrectable => (((s.addPoints (Part.lpddr (s.lpddrStack a)) 64).failUnit (tier1Unit a)).tier1Strike a).retireUnits

/-- What ECC found of an access to a flat address (Table 13.3): bare memory carries no check symbols. -/
def State.eccScore (s : State) (a : Nat) (e : EccOutcome) : State :=
  if tier0End ≤ a then s.tier1Ecc a e
  else if !s.protectedAt a then s
  else
    match e with
    | .clean => s
    | .corrected => s.addPoints (Part.bankGroup (tier0Decode a).1) 1
    | .uncorrectable =>
      let s := s.addPoints (Part.bankGroup (tier0Decode a).1) 64
      match s.tileAt a with
      | some (k, work) => s.poisonTile k work
      | none => s

/-- What ECC found of the blocks of a read of n bytes, each named by its offset from the address: every one is scored and acted on; the first that stays uncorrected (R15, R178, R179). -/
def State.eccOver (s : State) (a n : Nat) (ecc : List (Nat × EccOutcome)) : State × Option Nat :=
  let struck := ecc.filter (fun x => decide (x.1 < n) && s.codedAt (a + x.1))
  (struck.foldl (fun s x => s.eccScore (a + x.1) x.2) s, (struck.find? (fun x => x.2 == .uncorrectable)).map Prod.fst)

/-- Symbols of a 64-byte block that some corrupted bytes strike (R179). -/
def badSymbols (offs : List Nat) (blk : Nat) : Nat := (((offs.filter (fun o => o / 64 == blk)).map (· / 2)).dedup).length

/-- What the code finds of a tile's bytes with some bytes corrupted: the blocks it corrects, and those it only detects, as byte offsets (R179). -/
def eccBlocks (offs : List Nat) : List (Nat × EccOutcome) :=
  ((offs.map (· / 64)).dedup).map (fun b => (64 * b, if badSymbols offs b ≤ 1 then .corrected else .uncorrectable))

/-- Read a tier-1 tile whose bytes start at a flat address: each block scored; whether all could be corrected (R179, R195). -/
def State.readTier1 (s : State) (a : Nat) (offs : List Nat) : State × Bool :=
  let bs := eccBlocks offs
  (bs.foldl (fun s b => s.tier1Ecc (a + b.1) b.2) s, bs.all (fun b => b.2 != .uncorrectable))

end Sys2Proof.Machine
end

