-- ==== Sys2Proof/Machine/Windows.lean ====
section
/-!
DEFINITION. Ordinary accesses to the bank groups, and the windows in which they are served (R158, R168).
-/

namespace Sys2Proof.Machine

open Sys2Proof

/-- Source of an access as VSP_WS_ADDR_HI holds it (Table 6.15). -/
def accessSource (source : Nat) : Nat := source % 8
/-- Rank of an access in a window: the page walker's, then those of urgent classes, then the rest (R168; log 83). -/
def accessRank (source : Nat) : Nat := if source % 8 = 4 then 0 else if source / 8 % 2 = 1 then 1 else 2

/-- Serve one ordinary access: 64 bytes of a read, or a write whole. An address outside the flat range, and one that holds check symbols, is an address error (R19, R178). Tier 1 and the protected region answer under their codes (R15, R178, R179); a read whose error stays uncorrected answers ADDRESS_ERROR with no data (DESIGN CHOICE, log 104). -/
def State.serveAccess (s : State) (source : Nat) (isWrite : Bool) (addr : Nat) (data : List Byte) (ecc : EccOutcome) : State :=
  if flatEnd < addr + (if isWrite then data.length else 64) then s.emit (.access Status.addressError [])
  else if isWrite then
    let w := s.writeFlat addr data (accessSource source)
    w.1.emit (.access w.2.1 [])
  else match s.firstCheck addr 64 with
    | some _ => s.emit (.access Status.addressError [])
    | none =>
      let t := s.fresh.2.eccScore addr ecc
      if s.codedAt addr ∧ ecc = .uncorrectable then t.emit (.access Status.addressError []) else t.emit (.access Status.ok (s.readBytes addr 64))

/-- Waiting accesses in the order of service (R168). -/
def byRank (l : List Access) : List Access := [0, 1, 2].flatMap (fun k => l.filter (fun a => accessRank a.source == k))

/-- Serve waiting accesses, and take them from those that wait. -/
def State.serveWaiting (s : State) (u k : Nat) : State :=
  let order := byRank (s.unit u).waiting
  let s := s.setUnit u { s.unit u with waiting := order.drop k }
  (order.take k).foldl (fun s a => s.serveAccess a.source a.isWrite a.addr a.data a.ecc) s

/-- n accesses that the node itself puts to a bank group for a request, a host or a hub core join the window that is open, or wait for theirs and for a refresh; those that wait already are served before them (R168, R284, R379). -/
def State.passUnit (s : State) (u : Nat) : Nat → Nat → State
  | 0, _ => s
  | f + 1, n =>
    if n = 0 then s else
    let s := s.pumpNow u
    match s.joinWindow u with
    | some s => s.passUnit u f (n - 1)
    | none =>
      let s := if (s.unit u).reading then (s.endRow u).catchUp u else s
      if s.refreshDue u then (s.advanceTo (refreshEnd u s.now)).passUnit u f n
      else if !(s.unit u).reading then s.serveWaiting u (s.unit u).waiting.length
      else
        let w := (s.unit u).waiting.length
        let k := min (min (w + n) (max 1 s.windowMax)) (s.windowFit u (max (s.unit u).clock (vUnit * s.now)) (w + n))
        let s := (s.openWindow u k).serveWaiting u k
        (s.advanceTo (ceilDiv (((s.unit u).window.map Prod.fst).getD 0) vUnit)).passUnit u f (n - (k - w))

/-- n accesses pass a bank group: at once where it is idle and no refresh is due (R168). -/
def State.passBank (s : State) (u n : Nat) : State :=
  if (s.unit u).busy ∨ s.refreshDue u then s.passUnit u (2 * (n + (s.unit u).waiting.length) + 2) n else s

/-- The 64-byte accesses to some bytes of the flat range pass the bank groups they meet (R158, R168). -/
def State.passWindows (s : State) (a n : Nat) : State :=
  let us := ((List.range (ceilDiv (a % 64 + n) 64)).map (fun i => a / 64 * 64 + 64 * i)).filterMap (fun b =>
    if b < tier0End then some (tier0Decode b).1 else none)
  us.dedup.foldl (fun s u => s.passBank u (us.filter (· == u)).length) s

/-- A hub core reads a tile of a pair slot: one access to 64 bytes (R158, R168). -/
def State.passTile (s : State) (loc : Nat) (tile : List Byte) : State := s.passBank (locUnit loc) (tile.length / 64)

end Sys2Proof.Machine
end

