-- ==== Sys2Proof/Machine/Admit.lean ====
section
/-!
DEFINITION. From the arrival of a request to its calendar (R78 steps 1 to 4): acceptance (R272), ingress (R56), the map check (R313), meter and aggregate (R288–R290), NIGHT_MODE and EVIDENCE_FULL, the data checks, admission (R85, R290), and remote memory, which executes at once (R282–R286, R291).
-/

namespace Sys2Proof.Machine

open Sys2Proof

/-! ### Costs and buckets (R85, R288) -/

/-- Spans a request attends to, against the length at admission extended by its own positions (R85). -/
def State.spanCount (s : State) (op : Op) (m : List Byte) : Nat × Nat :=
  let len := (((s.findSeq (Msg.tenant m) (Msg.sid m)).map (fun q => (q.layer (Msg.layer m)).len)).getD 0)
  let q := Attend.qPos m
  match op with
  | .attend => (maskOf m q).spans len
  | .appendAttend | .projectAttend => (maskOf m q).spans (max len (q + 1))
  | .verify => (maskOf m (q + AppendP.count m 72 - 1)).spans (max len (q + AppendP.count m 72))
  | _ => (0, 0)

/-- Spans that a request needs, as Dawn sees them at its admission: of every candidate of a VERIFY, of the blocks of a SPAN_WORK (R190). -/
def State.lookSpans (s : State) (op : Op) (m : List Byte) : Nat × Nat :=
  let len := (((s.findSeq (Msg.tenant m) (Msg.sid m)).map (fun q => (q.layer (Msg.layer m)).len)).getD 0)
  let q := Attend.qPos m
  match op with
  | .verify => spanUnion m ((List.range (AppendP.count m 72)).map (fun j => (⟨LayerRec.empty 0, max len (q + j + 1), q + j⟩ : Cand)))
  | .spanWork =>
    match ownBlocks m with
    | [] => (0, 0)
    | b :: t =>
      let lo := t.foldl (fun a x => min a x.2) b.2
      (lo, t.foldl (fun a x => max a (x.2 + pow2 x.1)) (b.2 + pow2 b.1) - lo)
  | _ => s.spanCount op m

/-- Spans with an unmasked position in the blocks a SPAN_WORK covers, for any of its candidates (R85, R288; log 30). -/
def spanWorkCount (m : List Byte) : Nat :=
  let bs := ownBlocks m
  let len := 1024 * bs.foldl (fun n b => max n (b.2 + pow2 b.1)) 0
  let open_ (a : Nat) : Bool := (List.range (max 1 (byteAt m (m.length - 1)))).any (fun j =>
    let sp := (maskOf m (Attend.qPos m + j)).spans len
    decide (sp.1 ≤ a ∧ a < sp.1 + sp.2))
  bs.foldl (fun n b => n + ((rangeFrom b.2 (pow2 b.1)).filter open_).length) 0

/-- Segments of the program a request names; 1 where no version is active. -/
def State.segmentsOf (s : State) (slot : Nat) : Nat :=
  (((tabGet s.prog.programs slot).bind (·.active)).map (·.segments)).getD 1

/-- Cost and span count (R288). -/
def State.costOf (s : State) (op : Op) (m : List Byte) : Nat × Nat :=
  let h := (shapeOf (Msg.shape m)).heads
  let n := (s.spanCount op m).2
  match op with
  | .attend | .appendAttend => (max 1 (n * h), n)
  | .verify => (max 1 (n * h) * AppendP.count m 72, n)
  | .run => (s.segmentsOf (Run.slot m 40), 0)
  | .projectAttend => (s.segmentsOf (Run.slot m 72) + max 1 (n * h), n)
  | .rread | .rwrite | .rwriteTiles => (ceilDiv (Remote.len m) 65536, 0)
  | .spanWork => (max 1 (spanWorkCount m * h), spanWorkCount m)
  | _ => (1, 0)

/-! ### Meter and aggregate (R289, R290) -/

/-- Refill a meter at a minute. -/
def Qp.refill (q : Qp) (minute : Nat) : Qp :=
  let el := min (minute - q.last) 65536
  { q with tc := min q.cbs (q.tc + q.cir * el), tp := min q.pbs (q.tp + q.pir * el), last := minute }

/-- Colour of a cost in 1/256 units, on a refilled meter. -/
def Qp.colour (q : Qp) (k : Nat) : Colour := if q.tp < k then .red else if q.tc < k then .yellow else .green

/-- The deductions of a colour. -/
def Qp.deduct (q : Qp) (c : Colour) (k : Nat) : Qp :=
  match c with
  | .green => { q with tc := q.tc - k, tp := q.tp - k }
  | .yellow => { q with tp := q.tp - k }
  | _ => q

/-- A tenant's aggregate, refilled; one never touched is full (R290). -/
def State.agg (s : State) (t : Nat) : TenantAgg :=
  let b := Reg.schTenantCfg + 16 * t
  let depth := s.live (b + 4)
  match tabGet s.sch.aggs t with
  | none => ⟨depth, s.minutes, 0⟩
  | some a => { a with content := min depth (a.content + s.fld b 23 0 * min (s.minutes - a.last) 65536), last := s.minutes }

/-- Write an aggregate. -/
def State.putAgg (s : State) (t : Nat) (a : TenantAgg) : State := { s with sch := { s.sch with aggs := tabPut s.sch.aggs t a } }

/-- Class c is isolated (R366). -/
def State.isolated (s : State) (c : Nat) : Bool := s.bit (Reg.secIsoCfg + 4 * c) 0

/-- Entries reserved for isolated classes and not yet in use, beside those of one class (R366). -/
def State.isoSpare (s : State) (cls : Nat) (inUse : Nat → Nat) : Nat :=
  (List.range 24).foldl (fun n c =>
    if c = cls ∨ !s.isolated c then n
    else
      let ts := ((s.que.qps.filter (fun q => q.2.cls == c && q.2.part != sysPart)).map (fun q => q.2.part)).dedup
      n + (ts.foldl (fun n t => n + s.fld (Reg.schTenantCfg + 16 * t + 8) 19 0) 0 - inUse c)) 0

/-- The calendar pool holds a free entry for a class (R290, R292, R366). -/
def State.poolFree (s : State) (cls : Nat) : Bool :=
  decide (s.sch.held.length + s.isoSpare cls (fun c => (s.sch.held.filter (·.cls == c)).length) < 65536)

/-- An evidence entry is free for a class: one is always kept for the seal (R340, R366). -/
def State.evidenceFree (s : State) (cls : Nat) : Bool :=
  decide (s.hlt.evidence.length + s.hlt.evReserved + s.isoSpare cls (fun c => (s.sch.held.filter (fun r => r.cls == c && r.evEntry)).length) < 65535)

/-- A request leaves no record for want of an entry (R340). -/
def State.evidenceMissed (s : State) : State :=
  ({ s with hlt := { s.hlt with evMissed := s.hlt.evMissed + 1 } }).raiseBit Reg.hltEvent 6

/-- SCH_STATUS follows the pool (Table 11.18). -/
def State.refreshPool (s : State) : State := s.setStatus Reg.schStatus 16 0 s.sch.held.length

/-- Counters of a tenant: 0 green, 1 yellow, 2 dropped (Table 11.21). -/
def State.tenantCount (s : State) (t i : Nat) : State := s.bump (Reg.schTenantStat + 16 * t + 4 * i)

/-- Drop with POLICED (R289, R290). -/
def State.police (s : State) (r : Req) : State := (s.tenantCount (Msg.tenant r.msg) 2).refuse r Status.policed 0

/-! ### Remote memory (R282–R286) -/

/-- The key checks of R285: the region, or the status. -/
def State.region (s : State) (part key : Nat) (op : Op) (off len : Nat) : Except Nat Region :=
  match tabGet s.que.regions (key % 65536) with
  | none => .error Status.keyInvalid
  | some g =>
    if g.part ≠ part then .error Status.keyInvalid
    else if g.gen ≠ key / 65536 then .error Status.keyStale
    else if !g.valid then .error Status.keyInvalid
    else
      let ok := match op with
        | .rread => bitOf g.rights 0
        | .rwrite => bitOf g.rights 1 && !bitOf g.rights 2
        | _ => bitOf g.rights 1
      if !ok then .error Status.access else if g.length < off + len then .error Status.outOfRange else .ok g

/-- Answer a remote-memory request: its length is 0 (Table 3.6). -/
def State.remoteReply (s : State) (r : Req) (status detail : Nat) (body : List Byte) : State :=
  s.reply { (Reply.plain r s.now status detail 0) with body := body }

/-- The first tile of an RWRITE_TILES that fails its digest or check word (R161, R284). -/
def badTile (data : List Byte) (size n : Nat) : Option Nat :=
  (List.range n).find? (fun i => !digestOk (slice data (size * i) size) (field data (size * n + 4 * i) 4))

/-- A write that has landed here goes on to the mirror donor, or is answered (R284). -/
def State.mirrorWrite (s : State) (r : Req) (g : Region) : State :=
  let m := r.msg
  if g.mirror = 0xFFFF ∨ Remote.forwarded m then s.remoteReply r Status.ok 0 []
  else
    let m' := m.take 56 ++ [1] ++ m.drop 57
    ({ s with sch := { s.sch with forwarded := s.sch.forwarded ++ [r] } }).nodeOp g.mirror m' (.mirror r.rid) 1 r.urgent

/-- Execute a remote-memory request (R284, R285): its accesses are ordinary accesses, and wait at busy bank groups (R168). A read that meets an error its memory's code cannot correct is answered with ADDRESS_ERROR and no data (DESIGN CHOICE, log 104). -/
def State.remote (s : State) (r : Req) (op : Op) (part : Nat) : State :=
  let m := r.msg
  let off := Remote.off m
  let len := Remote.len m
  match s.region part (Remote.key m) op off len with
  | .error c => s.remoteReply r c 0 []
  | .ok g =>
    let a := g.base + off
    let s := s.passWindows a len
    match op with
    | .rread =>
      (match s.firstCheck a len with
       | some i => s.remoteReply r Status.addressError i []
       | none =>
         let t := s.fresh.2.eccOver a len r.arr.ecc
         (match t.2 with
          | some i => t.1.remoteReply r Status.addressError i []
          | none => t.1.remoteReply r Status.ok 0 (s.readBytes a len)))
    | .rwriteTiles =>
      let size := fmtTile (Remote.fmt m)
      let n := len / size
      let data := m.drop 72
      (match s.firstCheck a len, s.firstSealed a len, badTile data size n with
       | some i, _, _ => s.remoteReply r Status.addressError i []
       | none, some i, _ => (s.rejectSealed a 1).remoteReply r Status.writeSealed i []
       | none, none, some i =>
         -- the written bytes are undefined
         let f := s.fresh
         (f.2.pokeAll (fun k => a + k) ((List.range len).map (Config.undefinedByte f.1))).remoteReply r Status.tileCheck i []
       | none, none, none => (s.pokeAll (fun k => a + k) (data.take len)).mirrorWrite r g)
    | _ =>
      let w := s.writeFlat a (slice m 72 len) 1
      if w.2.1 ≠ Status.ok then w.1.remoteReply r w.2.1 w.2.2 [] else w.1.mirrorWrite r g

/-! ### Admission (R78 steps 2 to 4) -/

/-- The generation a request carries is accepted (R313). -/
def State.mapOk (s : State) (g : Nat) : Bool :=
  let cur := (s.map.cur.map (·.gen)).getD 0
  g == cur % pow2 32 || (decide (1 ≤ cur) && g == (cur - 1) % pow2 32 && decide (s.frame ≤ s.map.effFrame + 3) && decide (s.map.effFrame ≤ s.frame))

/-- Place an admitted request in its calendar (R85, R290). -/
def State.place (s : State) (r : Req) (k : Nat) : State :=
  let r := { r with heldMove := r.heldMove || s.holdsBack r }
  let s := { s with sch := { s.sch with held := s.sch.held ++ [r] }, hlt := { s.hlt with evReserved := s.hlt.evReserved + b2n r.evEntry } }
  let s := s.mapQp k (fun q => { q with depth := q.depth + 1 })
  let s := if s.awaited r then s.bump (Reg.mapStat + 8) else s
  let m := r.msg
  let s := if r.op.hasAttend then
      let sp := s.lookSpans r.op m
      s.dawnLook (Msg.tenant m) (Msg.sid m) [Msg.layer m] sp.1 sp.2
    else s
  s.refreshPool

/-- The checks after the meter and aggregate, then admission (R78, R290); `deduct` is what admission takes. A request past the EVIDENCE_FULL check has its entry, whatever the data checks find; a SPAN_WORK takes one when its record is written (R340). -/
def State.admitReq (s : State) (r : Req) (op : Op) (k part : Nat) (deduct : State → State) : State :=
  let m := r.msg
  let away := s.awayHome r op
  let entry := away.isNone && op != .spanWork
  if s.mode = 3 ∧ Msg.tenant m ≠ sysPart then s.refuse r Status.nightMode 0
  else if away.isNone && op != .spanWork && !s.evidenceFree r.cls then
    s.evidenceMissed.reply { (Reply.plain r 0 Status.evidenceFull 0 0) with noRecord := true }
  else match dataFault op m with
    | some o => (State.refuse { s with hlt := { s.hlt with evReserved := s.hlt.evReserved + b2n entry } } { r with evEntry := entry } Status.badField o)
    | none =>
      let s := deduct s
      match away with
      | some home => s.forward r home
      | none =>
        let r := { r with evEntry := entry }
        match op with
        | .rread | .rwrite | .rwriteTiles =>
          ({ s with hlt := { s.hlt with evReserved := s.hlt.evReserved + 1 } }).remote r op part
        | _ => s.place r k

/-- The map check, the meter and the aggregate (R289–R291, R313). -/
def State.admission (s : State) (r : Req) (op : Op) (q : Qp) (k : Nat) : State :=
  let m := r.msg
  if !s.mapOk (Msg.mapGen m) ∨ (r.fwd ∧ (s.awayHome r op).isSome) then s.refuse r Status.staleMap s.genLow
  else if q.part = sysPart then
    -- neither metered nor charged (R291, R314); a calendar entry is still needed
    if op ≠ .rread ∧ op ≠ .rwrite ∧ op ≠ .rwriteTiles ∧ !s.poolFree r.cls then (s.raiseBit Reg.schEvent 0).police r
    else s.admitReq r op k q.part id
  else
    let cost := r.cost * 256
    let t := q.part
    let q1 := q.refill s.minutes
    let a := s.agg t
    let s := (s.mapQp k (fun _ => q1)).putAgg t a
    match q1.colour cost with
    | .red => (s.mapQp k (fun q => q.bump 6 1)).police r
    | c =>
      let b := Reg.schTenantCfg + 16 * t
      let fits := decide (cost ≤ a.content) && decide (a.queued + r.cost ≤ s.fld (b + 8) 19 0) &&
        (c != .yellow || decide (a.queued + r.cost ≤ s.fld (b + 12) 19 0))
      let remote := op == .rread || op == .rwrite || op == .rwriteTiles
      if !fits then s.police r
      else if !s.poolFree r.cls then (s.raiseBit Reg.schEvent 0).police r
      else
        let take (s : State) : State :=
          let n := a.queued + (if remote || (s.awayHome r op).isSome then 0 else r.cost)
          let s := s.mapQp k (fun q => (q.deduct c cost).bump (if c = .green then 4 else 5) 1)
          ((s.putAgg t { a with content := a.content - cost, queued := n }).bumpMax (Reg.schTenantStat + 16 * t + 0xC) n).tenantCount t (if c = .green then 0 else 1)
        s.admitReq r op k q.part take

/-- Ingress (R78 step 1) of an accepted message on a context. -/
def State.ingress (s : State) (arr : Arrival) (m : List Byte) (q : Qp) (k : Nat) : State :=
  let fwd := match arr.via with | .fwd _ => true | _ => false
  let op? := (opOf (Msg.opcode m)).bind (fun op =>
    if (op = .attest ∧ !s.bit Reg.secCfg 4) ∨ (op = .spanWork ∧ !fwd) then none else some op)
  let cls0 := match arr.via with | .fwd c => c | _ => q.cls
  let cls := match op? with
    | some .spanWork => ((s.findSeq (Msg.tenant m) (Msg.sid m)).map (·.cls)).getD cls0
    | _ => cls0
  let cost := match op? with | some op => s.costOf op m | none => (0, 0)
  let attends := match op? with | some op => op.hasAttend | none => false
  let r : Req :=
    { rid := s.sch.nextRid, arr := arr, msg := m, cls := cls, urgent := s.urgentClass cls, cost := cost.1
      bucket := if attends then bucketOf cost.2 else 0, tAdmit := if s.isolated cls then s.now + 112 else s.now
      notBefore := if s.isolated cls then s.now + 112 else 0, evEntry := false, heldMove := false, counted := false, turns := none, gen := none, stream := q.stream }
  let s := { s with sch := { s.sch with nextRid := s.sch.nextRid + 1 } }
  match op? with
  | none => s.refuse r Status.badOpcode 0
  | some op =>
    match ingressFault op m arr.length with
    | some o => s.refuse r Status.badField o
    | none =>
      if Msg.tenant m ≠ q.part ∧ !fwd then s.refuse r Status.tenantMismatch 0
      else s.admission r op q k

/-- A context has taken one more message in (R274). -/
def Qp.took (q : Qp) : Qp := { q with inbound := q.inbound + 1 }

/-- A message arrives: on a queue pair by R272, on a host ring by R381. -/
def State.arrive (s : State) (arr : Arrival) (m : List Byte) : State :=
  if !s.running then s
  else match arr.via with
  | .ring .. =>
    let k := ringBase + arr.ctx
    (match s.qp k with
     | some q =>
       if q.ring ∧ q.rkind = 0 ∧ !s.fenced then
         (s.putQp k q.took).ingress arr m q.took k
       else s
     | none => s)
  | _ =>
    match s.acceptRequest arr m with
    | .done s => s
    | .accept s => (match s.qp arr.ctx with | some q => s.ingress arr m q arr.ctx | none => s)

/-- A request row of the table: its message must be of that row's kind; another message is no such command and has no effect (log 4). -/
def State.requestRow (s : State) (mine : Bool) (arr : Arrival) (m : List Byte) : State := if mine then s.arrive arr m else s

end Sys2Proof.Machine
end

