-- ==== Sys2Proof/Machine/Calendars.lean ====
section
/-!
DEFINITION. Calendars (R293, R294, R366), table reads (R138), hub-core leaves (R192), holds that end (R69, R79, R125), and the dispatch that resumes a stalled request (R192, R193).
-/

namespace Sys2Proof.Machine

open Sys2Proof

/-! ### Release (R293, R294) -/

/-- Calendar of class c; after Sunrise its last bucket is 9 (R293). -/
def State.cal (s : State) (c : Nat) : ClassCal := (tabGet s.sch.cals c).getD ⟨9, 0, 0, true⟩
/-- Write a calendar. -/
def State.putCal (s : State) (c : Nat) (k : ClassCal) : State := { s with sch := { s.sch with cals := tabPut s.sch.cals c k } }

/-- A held request that its calendar may offer: not a program run, not held for its home, not before its isolated release (R200, R315, R366). -/
def State.offered (s : State) (r : Req) : Bool :=
  r.op != .run && r.op != .projectAttend && decide (r.notBefore ≤ s.now) && !s.holdsBack r

/-- An earlier request of the same sequence still waits that was held for a home move: those go out in arrival order (R315, R321). -/
def State.behindHeld (s : State) (r : Req) : Bool :=
  (s.sch.held.takeWhile (fun q => q.rid != r.rid)).any (fun q =>
    q.heldMove && q.op.homed && r.op.homed && Msg.tenant q.msg == Msg.tenant r.msg && Msg.sid q.msg == Msg.sid r.msg)

/-- Class c's requests that may be released, in admission order. -/
def State.ready (s : State) (c : Nat) : List Req := s.sch.held.filter (fun r => r.cls == c && s.offered r && !s.behindHeld r)

/-- The head of the first non-empty bucket after a bucket, cyclically (R293). -/
def State.headAfter (s : State) (c last : Nat) : Option (Nat × Req) :=
  let rs := s.ready c
  ((List.range 10).map (fun i => (last + 1 + i) % 10)).findSome? (fun b => (rs.find? (fun r => r.bucket == b)).map (fun r => (b, r)))

/-- The tenant whose aggregate a held request counts in; none for system queue pairs (R290, R291). -/
def State.charged (s : State) (r : Req) : Option Nat :=
  let k := match r.arr.via with | .ring .. => ringBase + r.arr.ctx % ringBase | _ => r.arr.ctx
  if r.fwd ∨ r.op = .spanWork ∨ ((s.qp k).map (·.part)) = some sysPart then none else some (Msg.tenant r.msg)

/-- Context key of a request. -/
def Req.key (r : Req) : Nat := match r.arr.via with | .ring .. => ringBase + r.arr.ctx % ringBase | _ => r.arr.ctx

/-- Take a request out of its calendar: Q, depth, counters (R290, R293, R296). -/
def State.unhold (s : State) (r : Req) : State :=
  let wait := s.now - r.tAdmit
  let s := { s with sch := { s.sch with held := s.sch.held.filter (fun x => x.rid != r.rid) } }
  let s := match s.charged r with
    | some t => (let a := s.agg t
                 s.putAgg t { a with queued := a.queued - r.cost })
    | none => s
  let s := s.mapQp r.key (fun q => (((q.bump 3 1).bump 2 wait).bumpMax 1 wait |> fun q => { q with depth := q.depth - 1 }))
  let b := Reg.schClassStat + 16 * r.cls
  ((s.bump b).bumpMax (b + 8) wait).refreshPool

/-- Release a request: it is dispatched in the same step (R80). -/
def State.release (s : State) (r : Req) : State := (s.unhold r).dispatch r

/-- Class c's calendar at the current minute: the budget is the quota at its first tick (R293). -/
def State.calNow (s : State) (c : Nat) : ClassCal :=
  let k := s.cal c
  if k.minute = s.minutes ∧ !(k.minute = 0 ∧ k.stopped) then k
  else { k with budget := s.fld (Reg.schClassCfg + 4 * c) 19 0, minute := s.minutes, stopped := false }

/-- CALENDAR_RELEASE: one tick of R293 in a minute that class c owns. -/
def execCalendarRelease (cls : Nat) (s : State) : Host.Outcome State Fault Refusal :=
  if !s.dispatching ∨ s.mode = 3 ∨ s.owner ≠ cls ∨ 24 ≤ cls then .next s
  else
    let k := s.calNow cls
    if k.stopped then .next (s.putCal cls k)
    else match s.headAfter cls k.last with
      | none => .next (s.putCal cls k)
      | some (b, r) =>
        if k.budget < r.cost ∧ k.budget < s.fld (Reg.schClassCfg + 4 * cls) 19 0 then .next (s.putCal cls { k with stopped := true })
        else .next ((s.putCal cls { k with budget := k.budget - r.cost, last := b }).release r)

/-- SHARED_RELEASE: one visit of R294 in a SHARED minute. -/
def execSharedRelease (s : State) : Host.Outcome State Fault Refusal :=
  let quota := s.fld Reg.schCfg 19 0
  if !s.dispatching ∨ s.mode = 3 ∨ s.owner ≠ Owner.shared ∨ quota = 0 then .next s
  else
    let s := if s.sch.sharedMinute = s.minutes then s
      else { s with sch := { s.sch with sharedMinute := s.minutes, sharedBudget := quota, sharedStopped := false, sharedFirst := false } }
    if s.sch.sharedStopped then .next s
    else
      let order := (List.range 24).map (fun i => (s.sch.sharedLast + 1 + i) % 24)
      match order.find? (fun c => !s.isolated c && !(s.ready c).isEmpty) with
      | none => .next s
      | some c =>
        match s.headAfter c (s.cal c).last with
        | none => .next s
        | some (b, r) =>
          if s.sch.sharedBudget < r.cost ∧ s.sch.sharedFirst then .next { s with sch := { s.sch with sharedStopped := true } }
          else
            let s := { s with sch := { s.sch with sharedBudget := s.sch.sharedBudget - r.cost, sharedLast := c, sharedFirst := true } }
            .next ((s.putCal c { s.cal c with last := b }).release r)

/-! ### Table reads (R138, R145) -/

/-- TABLE_READ_DONE. A copy that failed is read from the mirror and rewritten: the request is stalled from here to the dispatch that resumes it, and PGW_STATUS says that a rewrite is under way until the next minute (R138, R193; log 85). With both copies lost, a request that needs some of the spans they locate completes with STATE_LOST for those. -/
def execTableReadDone (rid : Nat) (outcome : TableRead) (s : State) : Host.Outcome State Fault Refusal :=
  match s.run rid with
  | none => .next s
  | some r =>
    match outcome with
    | .ok => .next s
    | .mirror => .next (((s.raiseBit Reg.pgwEvent 0).setStatus Reg.pgwStatus 1 1 1).stall rid .tableRepair)
    | .lost first last =>
      let s := s.raiseBit Reg.pgwEvent 1
      .next (match r.spans.filter (fun a => decide (first ≤ a ∧ a ≤ last)) with
        | [] => s
        | a :: t => s.failRun rid Status.stateLost (a + 4096 * (t.getLast?.getD a)))

/-! ### Reads of sealed tiles by the hub (R161, R163, R179) -/

/-- Offsets in a pair's bytes, K tile first, that some corruptions strike. -/
def flipOffs (flips : List Flip) (idx tile : Nat) : List Nat :=
  (flips.filter (fun f => f.idx == idx && f.bits != 0)).map (fun f => f.off + (if f.isV then tile else 0))

/-- A tile's re-read failed too. A SHADOWED page's pair is read from its tier-1 copy, under that tier's code, and rewritten into a new slot, or its tier-0 copy dropped where none is free; a page with no good copy is lost (R142, R163, R179). -/
def State.repairPair (s : State) (flips : List Flip) (ref : PageRef) (pair : Nat) : State :=
  let p := s.pageAt ref
  match p.shadow with
  | none => s.markLost ref
  | some (ptr, ps) =>
    let kib := s.refKiB ref
    let good := ps.getD pair Pair.empty
    let r := s.readTier1 (1024 * (ptr + kib * pair)) (flipOffs flips 1 good.k.length)
    if !r.2 then r.1.markLost ref
    else
      let s := r.1
      let ok (u : Nat) : Bool := s.pairFits ref pair u
      match s.pickUnit s.alloc ok 1 kib with
      | some ([w], a) =>
        let s := { s with pgw := { s.pgw with allocs := a.serial } }
        let s := s.setPageAt ref { p with locs := listPut 0 p.locs pair w, pairs := listPut Pair.empty p.pairs pair good }
        s.freeSlots true [p.locs.getD pair 0] kib [p.pairs.getD pair Pair.empty]
      | _ => s.dropCopy ref

/-- Bytes of a tile pair with the bits of some corruptions flipped. -/
def corrupt (flips : List Flip) (idx : Nat) (p : Pair) : Pair :=
  (flips.filter (fun f => f.idx == idx)).foldl (fun p f =>
    if f.isV then { p with v := listMap p.v f.off (fun b => b ^^^ f.bits) } else { p with k := listMap p.k f.off (fun b => b ^^^ f.bits) }) p

/-- A tile has failed R161: it is read once more where it stands, whatever becomes of its request (R163). `differs`: the check word alone fails. -/
def State.reread (s : State) (u reader : Nat) (scrub : Bool) (e : BurstEntry) (isV differs : Bool) : State :=
  let id := (lowestFree (s.vsp.rereads.map Prod.fst) (s.vsp.rereads.length + 1)).getD 0
  let t := (s.entryTile e).getD (Pair.empty, (0, 0), 0)
  let x : Reread := ⟨u, reader, e, isV, differs, t.1, t.2.1, t.2.2, s.entryRef e, scrub⟩
  let s := { s with vsp := { s.vsp with rereads := tabPut s.vsp.rereads id x } }
  match e with
  | .leaf rid idx => (s.mapJob rid idx (fun j => { j with exec := .reread u })).stall rid .digestRepair
  | _ => s

/-- The page of a leaf stands in tier 1, where its pointer says. -/
def Job.inTier1 (j : Job) : Bool := decide (tier1Lo ≤ j.loc ∧ j.loc < tier1Lo + tier1KiB)

/-- A hub core reads a leaf's tiles: those of tier 1 under its code, which corrects what it can, those of tier 0 through R161; what passes is computed (R161, R179, R192). -/
def State.hubLeaf (s : State) (rid : Nat) (flips : List Flip) (j : Job × Nat) : State :=
  let done (s : State) : State := s.mapJob rid j.2 (fun x => { x with st := .done })
  match j.1.src with
  | .sealed k v =>
    if j.1.inTier1 then
      let r := s.readTier1 (1024 * j.1.loc + j.1.tile % 4 * (k.length + v.length)) (flipOffs flips j.2 k.length)
      if r.2 then done r.1 else r.1
    else
      let s := (s.passTile j.1.loc k).passTile j.1.loc v
      match pairFaults j.1.loc (corrupt flips j.2 ⟨k, v⟩) j.1.check with
      | [] => done s
      | bad => bad.foldl (fun s f => s.reread (locUnit j.1.loc) 3 false (.leaf rid j.2) f.1 f.2) s
  | _ => done s

/-- HUB_CORE_WORK_DONE: the leaves a request has given to hub cores (R162, R343). -/
def execHubCoreWorkDone (rid : Nat) (flips : List Flip) (s : State) : Host.Outcome State Fault Refusal :=
  match s.run rid with
  | none => .next s
  | some r =>
    let mine := r.jobs.zipIdx.filter (fun j => j.1.exec == .hub && j.1.st == .issued)
    .next ((mine.foldl (fun s j => s.hubLeaf rid flips j) s).tryComplete rid)

/-! ### Resuming (R192, R193) -/

/-- No tile that a dispatched request needs is poisoned: those of its rotary tables, and of its program's objects while that runs (R75, R196, R197). -/
def State.wholeFor (s : State) (r : Run) : Bool :=
  s.mem.poison.all (fun p => !r.needs.contains p.1 && !s.programWants r.req.rid p.1)

/-- A stall of a request has lost its cause. -/
def State.stallOver (s : State) (r : Run) (c : Stall) : Bool :=
  match c with
  | .reserve => r.reserve.isNone
  | .spareTail => true
  | .shadowWrite => r.groups.all (fun g => match s.group g with
      | none => true
      | some gr => gr.ptes.flatten.all (fun p => !needsCopy p || p.lost))
  | .fetchLate | .fetchFail => r.jobs.all (fun j => j.exec != .fetch)
  | .digestRepair => r.jobs.all (fun j => match j.exec with | .reread _ => false | _ => true)
  | .weightRepair => s.wholeFor r
  | .tableRepair => true

/-- What a resumed request still has to do is dispatched: leaves that waited for its tables, and those that came meanwhile (R192). -/
def State.resumeLeaves (s : State) (rid : Nat) : State :=
  match s.run rid with
  | none => s
  | some r =>
    let tail (j : Job) : Bool := match j.src with | .tail .. => true | _ => false
    let go (j : Job) : Job :=
      if j.exec = .hub ∧ j.st = .waiting then { j with st := if tail j then .done else .issued } else j
    let t := s.mapRun rid (fun r => { r with held := false, jobs := r.jobs.map go })
    if r.held then t.sendLeaves r.req r.jobs else t

/-- STALL_RESUME: in the first minute of its class, or a SHARED one where it is not isolated (R366), with every cause cleared, the rest of the work is dispatched. -/
def execStallResume (rid : Nat) (s : State) : Host.Outcome State Fault Refusal :=
  match s.run rid with
  | none => .next s
  | some r =>
    if !s.dispatching ∨ s.mode = 3 ∨ (s.owner ≠ r.req.cls ∧ (s.owner ≠ Owner.shared ∨ s.isolated r.req.cls)) ∨ r.stalls.isEmpty ∨
        !r.stalls.all (fun x => s.stallOver r x.1) then .next s
    else if r.redo then .next (s.redo rid)
    else
      let s := r.stalls.foldl (fun s x => s.unstall rid x.1) s
      if (s.groupOfRun rid).isSome then .next s else .next ((s.resumeLeaves rid).tryComplete rid)

/-! ### Holds of R79 and R125 -/

/-- Try a pending reservation for the sequence that the request found: its page, in one layer or in all (R79, R129, R147). -/
def State.retryReserve (s : State) (r : Run) (l i : Nat) : Option State :=
  match s.findSeq (Msg.tenant r.req.msg) (Msg.sid r.req.msg) with
  | none => none
  | some q =>
    if q.serial ≠ r.serial then none
    else if l = 0xFFFF then s.reserveLayers q i q.sh.layers
    else if ((q.layer l).heads.all (fun h => (h.page i).state != .free)) then some s
    else s.reserve q l i

/-- RESERVATION_DONE: the page could be had within its limit. -/
def execReservationDone (rid : Nat) (s : State) : Host.Outcome State Fault Refusal :=
  match s.run rid with
  | none => .next s
  | some r =>
    match r.reserve with
    | none => .next s
    | some (l, i, dl) =>
      if dl ≤ s.now then .next s
      else match s.retryReserve r l i with
        | none => .next s
        | some s => .next (((s.mapRun rid (fun r => { r with reserve := none })).unstall rid .reserve).tryComplete rid)

/-- RESERVATION_TIMEOUT: CAPACITY with Len(l) as the request leaves it, the append applied and its attend returned (R79). -/
def execReservationTimeout (rid : Nat) (s : State) : Host.Outcome State Fault Refusal :=
  match s.run rid with
  | none => .next s
  | some r =>
    match r.reserve with
    | none => .next s
    | some (_, _, dl) =>
      let s := s.advanceTo dl
      let s := s.mapRun rid (fun r => { r with reserve := none, status := Status.capacity, detail := r.length })
      .next ((s.unstall rid .reserve).tryComplete rid)

/-- A request that waits for spares. -/
def State.spareWaiter (s : State) (rid : Nat) : Option (Req × Nat) := s.sch.spareWait.find? (fun x => x.1.rid == rid)
/-- Take it off the wait. -/
def State.dropWaiter (s : State) (rid : Nat) : State := { s with sch := { s.sch with spareWait := s.sch.spareWait.filter (fun x => x.1.rid != rid) } }

/-- SPARE_TAIL_GRANT: spares are free, so the request takes effect in a minute of its class, or a SHARED one where it is not isolated (R80, R125, R192, R366). Still too few, it goes on waiting from its first start. -/
def execSpareTailGrant (rid : Nat) (s : State) : Host.Outcome State Fault Refusal :=
  match s.spareWaiter rid with
  | none => .next s
  | some x =>
    let m := x.1.msg
    let old := match s.homeSeq (Msg.tenant m) (Msg.sid m) with
      | some q => if x.1.op = .verify then (((q.layer (Msg.layer m)).prov.map (·.spares)).getD 0) else 0
      | none => 0
    if !s.dispatching ∨ s.mode = 3 ∨ (s.owner ≠ x.1.cls ∧ (s.owner ≠ Owner.shared ∨ s.isolated x.1.cls)) ∨ s.freeSpares + old < (shapeOf (Msg.shape m)).heads then .next s
    else .next ((((s.dropWaiter rid).stallTicks (Msg.tenant m) .spareTail x.2).effect ⟨x.1, x.2, [], []⟩ none).settleOrder)

/-- SPARE_WAIT_TIMEOUT: after 4 frames, CAPACITY with nothing applied (R125). -/
def execSpareWaitTimeout (rid : Nat) (s : State) : Host.Outcome State Fault Refusal :=
  match s.spareWaiter rid with
  | none => .next s
  | some x =>
    let s := s.advanceTo (x.2 + 4194304)
    let m := x.1.msg
    let len := ((s.homeSeq (Msg.tenant m) (Msg.sid m)).map (fun q => q.lenFor (Msg.layer m))).getD 0
    .next (((((s.dropWaiter rid).stallTicks (Msg.tenant m) .spareTail x.2).raiseBit Reg.pgwEvent 3).answer x.1 Status.capacity len len).settleOrder)

/-- PROVISIONAL_EXPIRY: 64 frames after its VERIFY completed, an uncommitted set is discarded (R69). -/
def execProvisionalExpiry (tenant sid layer : Nat) (s : State) : Host.Outcome State Fault Refusal :=
  match s.homeSeq tenant sid with
  | none => .next s
  | some q =>
    match (q.layer layer).prov.bind (·.done) with
    | none => .next s
    | some t => .next ((s.advanceTo (t + 67108864)).discardProv q layer)

end Sys2Proof.Machine
end

