-- ==== Sys2Proof/Machine/Replies.lean ====
section
/-!
DEFINITION. Replies handed over (R76, R274, R287, R381–R383), evidence records (R337, R338, R340), ring messages (R385).
-/

namespace Sys2Proof.Machine

open Sys2Proof

/-! ### Bytes -/

/-- The opcode a reply answers: a holder's is the one its SPAN_WORK carries (R91; log 30). -/
def Reply.opcode (x : Reply) : Nat :=
  if x.req.op = .spanWork ∧ Msg.opcode x.req.msg = 0x30 then byteAt x.req.msg (x.req.msg.length - 2) else Msg.opcode x.req.msg

/-- The reply (Table 3.6). -/
def Reply.bytes (x : Reply) (gen : Nat) : List Byte :=
  leBytes 1 (x.opcode ||| 0x80) ++ leBytes 1 x.status ++ leBytes 2 x.records ++ leBytes 4 gen ++ leBytes 8 (Msg.requestId x.req.msg) ++
  leBytes 4 x.length ++ leBytes 2 x.remoteBlocks ++ leBytes 2 0 ++ leBytes 4 x.detail ++ leBytes 4 0 ++ x.body

/-- The result digest (R338). -/
def Reply.digest (x : Reply) : List Byte :=
  let m := x.req.msg
  sha384 (leBytes 8 (Msg.requestId m) ++ leBytes 1 (Msg.opcode m) ++ leBytes 1 x.status ++ leBytes 2 x.records ++ leBytes 4 x.length ++
    leBytes 4 x.detail ++ leBytes 8 (Msg.sid m) ++ leBytes 2 (Msg.layer m) ++ leBytes 2 0 ++ (if x.req.op = .attest then [] else x.body))

/-- The evidence record (Table 13.5). -/
def State.evidenceOf (s : State) (x : Reply) (discarded : Bool) : List Byte :=
  let m := x.req.msg
  let eflags := x.eflags + b2n s.timeDegraded + 8 * b2n x.req.fwd + 16 * b2n discarded + 32 * b2n x.req.urgent
  leBytes 1 1 ++ leBytes 1 (b2n x.holder) ++ leBytes 2 (Msg.tenant m) ++ leBytes 1 (Msg.opcode m) ++ leBytes 1 x.status ++
  leBytes 1 x.req.cls ++ leBytes 1 eflags ++ leBytes 8 (Msg.requestId m) ++ leBytes 8 (Msg.sid m) ++ leBytes 4 (x.gen.getD s.genLow) ++
  leBytes 2 (Msg.layer m) ++ leBytes 2 s.map.id ++ leBytes 8 x.req.tAdmit ++ leBytes 8 x.tDispatch ++ leBytes 8 s.now ++
  leBytes 4 (x.spans.1 % 4096 + 4096 * (x.spans.2 % 4096)) ++ leBytes 2 x.records ++ leBytes 2 x.remoteBlocks ++
  padTo 48 x.program ++ (if x.weights.isEmpty then List.replicate 48 0 else sha384 x.weights.flatten) ++ x.digest ++
  leBytes 4 x.length ++ leBytes 4 x.detail ++ leBytes 8 s.hlt.evSeq ++ List.replicate 32 0

/-- Put a record in the evidence buffer under the next ev_seq. -/
def State.putEvidence (s : State) (bytes : List Byte) : State :=
  { s with hlt := { s.hlt with evidence := s.hlt.evidence ++ [bytes], evFrame := s.hlt.evFrame ++ [bytes], evSeq := s.hlt.evSeq + 1 } }

/-- Write a finished request's record, in the entry it reserved or in a free one (R340). -/
def State.writeEvidence (s : State) (x : Reply) (discarded : Bool) : State :=
  if x.noRecord then s
  else if x.req.evEntry then
    let s := { s with hlt := { s.hlt with evReserved := s.hlt.evReserved - 1 } }
    s.putEvidence (s.evidenceOf x discarded)
  else if 65535 ≤ s.hlt.evidence.length + s.hlt.evReserved then s.evidenceMissed
  else s.putEvidence (s.evidenceOf x discarded)

/-! ### Rings (R380, R382, R383, R385) -/

/-- Entries a ring holds. -/
def Qp.ringSize (q : Qp) : Nat := pow2 q.rlog2
/-- Entries in use, modulo 2^32. -/
def Qp.ringUsed (q : Qp) : Nat := (q.rtail + pow2 32 - q.rhead % pow2 32) % pow2 32
/-- Address of entry i of a ring with entries of a size. -/
def Qp.ringAddr (q : Qp) (i size : Nat) : Nat := q.rbase + size * (i % q.ringSize)

/-- An entry has been written to a ring: its MSG now, or owed (R385). -/
def State.ringMsg (s : State) (k : Nat) : State :=
  match s.qp k with
  | none => s
  | some q =>
    let due := match q.lastMsg with | none => true | some t => decide (t + 1024 * q.rmod ≤ s.now)
    if due then (s.putQp k { q with lastMsg := some s.now, msgOwed := false }).hostMsg q.rfn q.rvector
    else s.putQp k { q with msgOwed := true }

/-- MSG_MODERATION: the interval of a ring ends with a message owed (R385). -/
def execMsgModeration (ring : Nat) (s : State) : Host.Outcome State Fault Refusal :=
  let k := ringBase + ring
  match s.qp k with
  | none => .next s
  | some q =>
    if !q.ring ∨ !q.msgOwed then .next s
    else
      let s := s.advanceTo ((q.lastMsg.getD 0) + 1024 * q.rmod)
      .next ((s.putQp k { q with lastMsg := some s.now, msgOwed := false }).hostMsg q.rfn q.rvector)

/-- The evidence ring. -/
def State.evidenceRing (s : State) : Option (Nat × Qp) := s.que.qps.find? (fun p => p.2.ring && p.2.rkind == 2 && p.2.state == .ready)

/-- EVIDENCE_RING_WRITE: the oldest buffered record goes to the evidence ring, when that has room (R340, R383). -/
def execEvidenceRingWrite (s : State) : Host.Outcome State Fault Refusal :=
  match s.evidenceRing, s.hlt.evidence with
  | some (k, q), r :: t =>
    if q.ringSize ≤ q.ringUsed ∨ s.hst.state ≠ 5 then .next s
    else
      let s := (({ s with hlt := { s.hlt with evidence := t } }).hostWrite q.rfn (q.ringAddr q.rtail 256) r)
      .next ((s.mapQp k (fun q => { q with rtail := (q.rtail + 1) % pow2 32 })).ringMsg k)
  | _, _ => .next s

/-! ### Handing over (R76, R274, R276, R287, R382) -/

/-- The completion entry (Table 15.6). -/
def completionEntry (x : Reply) (sub len : Nat) (phase truncated : Bool) : List Byte :=
  leBytes 8 (Msg.requestId x.req.msg) ++ leBytes 4 sub ++ leBytes 4 len ++ leBytes 1 x.status ++ leBytes 1 (x.opcode ||| 0x80) ++
  leBytes 1 (b2n phase + 2 * b2n truncated) ++ leBytes 1 0 ++ leBytes 4 x.detail ++ List.replicate 8 0

/-- A reply has been handed over, or discarded: its record, its place in its context (R17, R274). -/
def State.finish (s : State) (x : Reply) (bytes : List Byte) (discarded : Bool) : State :=
  let s := { s with sch := { s.sch with replies := s.sch.replies.filter (fun y => y.req.rid != x.req.rid) } }
  let s := s.mapQp x.req.key (fun q => { q with inbound := q.inbound - 1 })
  let late := decide (x.notBefore ≠ 0 ∧ x.notBefore < s.now)
  let s := if late then (s.bump (Reg.secIsoLate + 4 * x.req.cls)).raiseBit Reg.secEvent 8 else s
  let s := if x.req.op = .verify then s.endVerify x.req.rid x.req.msg true else s
  let s := s.writeEvidence x discarded
  let s := if discarded then s.discard (fun d => { d with lateReply := d.lateReply + 1 }) else s
  if discarded then s else s.emit (.reply x.req.rid bytes)

/-- A holder's reply goes straight to the requester (R91, R287). -/
def State.sendHolder (s : State) (x : Reply) (bytes : List Byte) : State :=
  let m := x.req.msg
  let ref := field m (spanTrailer m) 8
  let h : HolderOut := ⟨bitsOf ref 15 0, bitsOf ref 35 16, bitsOf ref 47 36, x.req.arr.ctx, s.que.holderSerial, bytes, 0, 8192, s.now + 8192⟩
  let s := { s with que := { s.que with holderOut := s.que.holderOut ++ [h], holderSerial := s.que.holderSerial + 1 } }
  s.sendTransport 3 h.endpoint h.qpn 5 (h.serial % pow2 24) 0 h.part 0 h.sqp bytes

/-- Bytes of the response store reserved for the replies of forwarded requests, one entry each (R253; log 95). -/
def State.relayRoom (s : State) : Nat :=
  65536 * ((s.que.ops.filter (fun o => match o.2.kind with | .forward _ => true | _ => false)).length + (s.sch.replies.filter (fun x => x.relayed)).length)

/-- Bytes of the response store that finished replies of full completion rings fill (R383). -/
def State.ringHeld (s : State) : Nat :=
  (s.sch.replies.map (fun x => match x.req.arr.via with
    | .ring .. =>
      (match (s.qp x.req.key).bind (fun q => s.qp (ringBase + q.rcring)) with
       | some c => if c.ring && c.rkind == 1 && decide (c.ringSize ≤ c.ringUsed) then 32 + x.body.length else 0
       | none => 0)
    | _ => 0)).foldl (· + ·) 0

/-- The response store has room for a reply: a relayed one moves into the entry reserved for it (R253, R274). -/
def State.roomFor (s : State) (x : Reply) (n : Nat) : Bool := decide (s.que.respBytes + s.ringHeld + n + (if x.relayed then 0 else s.relayRoom) ≤ 67108864)

/-- REPLY_SEND: a finished reply is handed to its link or ring, once there is room (R76, R274, R366, R383). -/
def execReplySend (rid : Nat) (s : State) : Host.Outcome State Fault Refusal :=
  match s.sch.replies.find? (fun x => x.req.rid == rid) with
  | none => .next s
  | some x =>
    let bytes := x.bytes s.genLow
    if s.now < x.notBefore ∨ !s.running then .next s
    else match x.req.arr.via with
    | .ring sub addr cap =>
      (match s.qp x.req.key with
       | none => .next (s.finish x bytes true)
       | some q =>
         let ck := ringBase + q.rcring
         (match s.qp ck with
          | none => .next s
          | some c =>
            if !c.ring ∨ c.rkind ≠ 1 ∨ c.ringSize ≤ c.ringUsed then .next s
            else
              let cut := decide (cap < bytes.length)
              let out := if cut then bytes.take 32 else bytes
              let s := if s.inWindow q.rfn 0 addr out.length then s.hostWrite q.rfn addr out else s
              let s := if cut then s.bump (Reg.hstStat + 8) else s
              let phase := decide (c.rtail / c.ringSize % 2 = 0)
              let s := s.hostWrite c.rfn (c.ringAddr c.rtail 32) (completionEntry x sub bytes.length phase cut)
              let s := s.mapQp ck (fun c => { c with rtail := (c.rtail + 1) % pow2 32 })
              .next ((s.ringMsg ck).finish x bytes false)))
    | _ =>
      if x.holder ∧ x.req.fwd then .next ((s.sendHolder x bytes).finish x bytes false)
      else match s.qp x.req.arr.ctx with
      | none => .next (s.finish x bytes true)
      | some q =>
        if q.state = .error ∨ q.state = .fenced ∨ q.state = .init ∨ q.stream ≠ x.req.stream then .next (s.finish x bytes true)
        else if !s.roomFor x bytes.length ∨ q.maxOut ≤ q.sent.length then .next s
        else
          let s := { s with que := { s.que with respBytes := s.que.respBytes + bytes.length } }
          .next ((s.sendMessage x.req.arr.ctx 3 1 x.req.urgent bytes 0).finish x bytes false)

end Sys2Proof.Machine
end

