-- ==== Sys2Proof/Machine/Remote.lean ====
section
/-!
DEFINITION. What ends a node-initiated operation (R189, R194, R196, R276, R284, R314, R315), weight repair (R196, R197), queue pairs that fail (R276, R278), and the node that fences itself (R319).
-/

namespace Sys2Proof.Machine

open Sys2Proof

/-! ### Weight repair (R196, R197, R217) -/

/-- A member's answer to a weight fetch: the tile encrypted, with its tag. Under one key and nonce only one ciphertext opens to the tile that the manifest digest names, so a candidate passes where it equals what the container held; else the next member is asked (R196, R213; log 35). -/
def State.weightAnswer (s : State) (k : TileKey) (donor : Nat) (bytes : Option (List Byte)) : State :=
  if !s.isPoisoned k then s
  else match s.weightObj k.obj k.ver, bytes with
    | some o, some b => if b = o.cipher.getD k.tile [] then s.clearPoison k else s.weightAsk k (some donor)
    | _, _ => s.weightAsk k (some donor)

/-- Mark a poisoned tile as given up. -/
def giveUp (k : TileKey) (l : List (TileKey × (Nat × Bool))) : List (TileKey × (Nat × Bool)) :=
  l.map (fun x => if x.1 = k then (x.1, (x.2.1, true)) else x)

/-- Every stalled request that needs a tile completes with WEIGHTS_UNAVAILABLE (R196, R197). -/
def State.failStalled (s : State) (k : TileKey) : State :=
  (s.sch.runs.filter (fun r => r.stalls.any (fun x => x.1 == .weightRepair) &&
    (r.needs.contains k || s.programWants r.req.rid k))).foldl (fun s r =>
    if r.redo then s.redo r.req.rid else s.failRun r.req.rid Status.weightsUnavailable (poisonDetail k.obj)) s

/-- The poisoned tile that a command names: of the oldest version where several are. -/
def State.poisonAt (s : State) (obj tile : Nat) : Option (TileKey × (Nat × Bool)) := s.mem.poison.find? (fun p => p.1.obj == obj && p.1.tile == tile && !p.2.2)

/-- WEIGHT_REPAIR_TIMEOUT: no candidate has passed within the limit (R196, R197). -/
def execWeightRepairTimeout (obj tile : Nat) (s : State) : Host.Outcome State Fault Refusal :=
  match s.poisonAt obj tile with
  | none => .next s
  | some p =>
    let s := s.advanceTo p.2.1
    let l := giveUp p.1 s.mem.poison
    let s := ({ s with mem := { s.mem with poison := l } }).raiseBit Reg.memEvent 5
    .next (s.failStalled p.1)

/-- SRAM_REFILL_DONE: a tile that the segment of a group met an error in was refilled from the tier-0 working copy, or that copy failed too (R196, R217); of a match image, the engine's copy (R231). -/
def execSramRefillDone (obj tile : Nat) (how : Refill) (s : State) : Host.Outcome State Fault Refusal :=
  let s := if !how.ok then s else if obj < 2048 then s.raiseBit Reg.attProgEvent 3 else s.raiseBit Reg.matEvent 3
  let ver := match tabGet s.prog.current how.group with
    | some c => ((c.needs.find? (fun n => n.1 == obj)).map Prod.snd).getD (s.verOf obj)
    | none => s.verOf obj
  -- an error that the SRAM of a hub core could not correct (Table 13.3)
  let s := if obj < 2048 then s.addPoints (Part.core (8 * how.group + how.core)) 64 else s
  let s := s.refillStall how.group obj ver how.ok
  .next (if how.ok then s
    else
      let s := s.poisonTile ⟨obj, ver, tile⟩ true
      if 2048 ≤ obj then State.refreshMat { s with mat := { s.mat with refill := setInsert s.mat.refill (obj - 2048) } } else s)

/-! ### The end of a node-initiated operation -/

/-- A reply that came back to the node that forwarded a request is relayed (R76, R314). Its map_gen is that of the node which hands it over (DESIGN CHOICE, log 139). -/
def relayReply (r : Req) (m : List Byte) : Reply :=
  { (Reply.plain r 0 (byteAt m 1) (field m 24 4) (field m 16 4)) with
    records := field m 2 2, remoteBlocks := field m 20 2, body := m.drop 32, noRecord := true, relayed := true }

/-- Take a forwarded request off the list. -/
def State.takeForwarded (s : State) (rid : Nat) : Option Req × State :=
  (s.sch.forwarded.find? (fun r => r.rid == rid), { s with sch := { s.sch with forwarded := s.sch.forwarded.filter (fun r => r.rid != rid) } })

/-- Requests that waited for a page of a move that failed (R193 cause 4). -/
def State.fetchTrouble (s : State) (ref : PageRef) : State :=
  s.sch.runs.foldl (fun s r => if r.jobs.any (fun j => j.exec == .fetch && j.ref == ref) then s.stall r.req.rid .fetchFail else s) s

/-- A tier-2 fetch of a move failed (R194). -/
def State.tier2Fail (s : State) (id : Nat) : State :=
  match tabGet s.mem.moves id with
  | none => s
  | some m => ((s.fetchTrouble m.page).fetchFailed id).sweepLost

/-- An operation of the node has been answered. -/
def State.opAnswered (s : State) (o : NodeOp) (m : List Byte) : State :=
  let ok := byteAt m 1 == Status.ok
  match o.kind with
  | .spill id => if !ok then s.spillFailed id else
    (match (tabGet s.mem.moves id).map (·.kind) with
     | some (MoveKind.holder _) => s.spanSwitch id
     | _ => s.switchMove id)
  | .poolFetch id =>
    if !ok then s.tier2Fail id
    else (match tabGet s.mem.moves id with
      | none => s
      | some mv =>
        let sh := s.refShape mv.page
        if pairsOk (s.pageAt mv.page) (pairsOf (tileSize sh.kvfmt sh.d) (m.drop 32)) then s.fetchDone id (m.drop 32) else s.tier2Fail id)
  | .weight k => s.weightAnswer k (((s.qp o.qpn).map (·.peer)).getD 0) (if ok then some (m.drop 32) else none)
  | .mirror rid =>
    let f := s.takeForwarded rid
    (match f.1 with
     | some r => f.2.remoteReply r (if ok then Status.ok else Status.mirrorFail) 0 []
     | none => s)
  | .forward rid =>
    let f := s.takeForwarded rid
    (match f.1 with
     | some r => f.2.reply (relayReply r m)
     | none => s)
  | .spanWork _ | .transfer => s

/-- An operation of the node has failed locally (R276). A forwarded request whose home cannot be reached is answered with STALE_MAP (log 36). -/
def State.opFailed (s : State) (o : NodeOp) : State :=
  match o.kind with
  | .spill id => s.spillFailed id
  | .poolFetch id => s.tier2Fail id
  | .weight k => s.weightAnswer k (((s.qp o.qpn).map (·.peer)).getD 0) none
  | .mirror rid =>
    let f := s.takeForwarded rid
    (match f.1 with | some r => f.2.remoteReply r Status.mirrorFail 0 [] | none => s)
  | .forward rid =>
    let f := s.takeForwarded rid
    (match f.1 with
     | some r => (f.2.bump (Reg.mapStat + 4)).reply { (Reply.plain r 0 Status.staleMap s.genLow 0) with relayed := true }
     | none => s)
  | .spanWork _ | .transfer => s

/-- Take an operation off the list. -/
def State.dropOp (s : State) (id : Nat) : State := { s with que := { s.que with ops := tabDel s.que.ops id } }

/-! ### Queue pairs that fail (R276, R278) -/

/-- A queue pair stops: its messages are dropped, its operations fail (R276). Off chip, it stops when its context comes back. -/
def State.failQp (s : State) (k : Nat) (st : QpState) : State :=
  let gone := s.que.ops.filter (fun o => o.2.qpn == k)
  let s := { s with que := { s.que with later := s.que.later.filter (fun m => m.qpn != k)
                                        marks := if (s.qp k).isNone then tabPut s.que.marks k st else s.que.marks } }
  let s := s.mapQp k (fun q => { q with state := st, deadline := none, nrWait := none, sent := q.sent.filter (fun m => m.tkind == 1) })
  let s := gone.foldl (fun s o => s.dropOp o.1) s
  gone.foldl (fun s o => s.opFailed o.2) s

/-- Retries are exhausted (R276). -/
def State.exhaust (s : State) (k : Nat) : State :=
  ((s.raiseBit Reg.queEvent 0).bump (Reg.queStat + 12)).failQp k .error

/-- The map fences a peer: its system queue pair leaves READY for FENCED, and what it has outstanding fails (R278); dead, it goes on to ERROR (Table 11.4). -/
def State.fencePeer (s : State) (peer : Nat) (dead : Bool) : State :=
  match tabGet s.que.system peer with
  | none => s
  | some k =>
    let st := match s.qp k with | some q => some q.state | none => tabGet s.que.marks k
    let s := if st.any (· != .ready) then s else s.failQp k .fenced
    let next (x : QpState) : QpState := if dead ∧ x = .fenced then .error else x
    { s.mapQp k (fun q => { q with state := next q.state }) with que := { (s.mapQp k (fun q => { q with state := next q.state })).que with marks := tabMap s.que.marks k next } }

/-- Requests of the node that wait for a queue pair in ERROR or FENCED fail; one that is off chip is fetched (R276, R279). -/
def State.settleLater (s : State) : State :=
  (s.que.later.map (·.qpn)).dedup.foldl (fun s k =>
    match s.qp k with
    | none => s.startFetch k
    | some q => if q.state = .error ∨ q.state = .fenced then s.failQp k q.state else s.sendLater k) s

/-- The map agent destroys a system queue pair whose peer the map has removed, once nothing of it is held, running or outstanding (R270, R277). -/
def State.dropSystem (s : State) : State :=
  let kept := s.que.system.map Prod.snd
  let idle := s.que.qps.filter (fun q => q.2.part == sysPart && !q.2.ring && !kept.contains q.1 && q.2.inbound == 0 && q.2.depth == 0 &&
    !s.que.ops.any (fun o => o.2.qpn == q.1))
  (idle.foldl (fun s q =>
    let s := (s.freeResponses q.2).hostWrite 0 (s.ctxAddr q.1) (Qp.zero.image q.1)
    { s with que := { s.que with qps := tabDel s.que.qps q.1, resident := s.que.resident.filter (· != q.1), named := tabDel s.que.named q.1
                                 leaving := tabDel s.que.leaving q.1 } }) s).refreshQue

/-- The map no longer has the peer that a system queue pair leads to (R270). -/
def MapData.removed (m : MapData) (old : Option MapData) (peer : Nat) : Bool :=
  match tabGet m.nodes peer with
  | none => true
  | some e => e.state == .empty || e.state == .retired || (old.bind (fun o => tabGet o.nodes peer)).any (fun x => x.ident != e.ident)

/-- A system queue pair that is off chip is destroyed: its image becomes FREE, as does one that is on its way here (R270, R277). -/
def State.destroyAway (s : State) (k : Nat) : State :=
  if (tabGet s.que.away k).isNone then s
  else ({ s with que := { s.que with marks := if (tabGet s.que.fetches k).isSome then tabPut s.que.marks k .free else tabDel s.que.marks k
                                     waitFetch := tabDel s.que.waitFetch k } }).hostWrite 0 (s.ctxAddr k) (Qp.zero.image k)

/-- System queue pairs under a generation that takes effect: those to removed peers go, those to peers that serve come back from ERROR and FENCED (R270, R277; log 124). -/
def State.systemPeers (s : State) (m : MapData) (old : Option MapData) : State :=
  let out := s.que.system.filter (fun p => m.removed old p.1)
  let s := out.foldl (fun s p => (s.fencePeer p.1 false).destroyAway p.2) s
  let s := { s with que := { s.que with
    system := s.que.system.filter (fun p => !m.removed old p.1)
    away := s.que.away.filter (fun a => !out.any (fun p => p.2 == a.1)) } }
  let back := s.que.system.filter (fun p => (tabGet m.nodes p.1).any (fun e => e.state == .member || e.state == .draining))
  (back.foldl (fun s p =>
    match s.qp p.2 with
    | some q => if q.state = .error ∨ q.state = .fenced then (s.freeResponses q).putQp p.2 { q.cleared with state := .ready } else s
    | none => { s with que := { s.que with marks := tabMap s.que.marks p.2 (fun x => if x = .free then x else .ready) } }) s).dropSystem

/-! ### Fencing (R319) -/

/-- Drop the requests a calendar holds, with their claims. -/
def State.dropHeld (s : State) : State :=
  let s := s.sch.held.foldl (fun s r =>
    let s := match s.charged r with
      | some t => (let a := s.agg t
                   s.putAgg t { a with queued := a.queued - r.cost })
      | none => s
    let s := s.mapQp r.key (fun q => { q with depth := q.depth - 1, inbound := q.inbound - 1 })
    { s with hlt := { s.hlt with evReserved := s.hlt.evReserved - b2n r.evEntry } }) s
  ({ s with sch := { s.sch with held := [] } }).refreshPool

/-- The node fences itself: dispatch stops, held requests go without reply, queue pairs enter ERROR. -/
def State.fenceNode (s : State) : State :=
  if s.fenced then s
  else
    let s := s.dropHeld
    let s := { s with map := { s.map with fenced := true }, sch := { s.sch with spareWait := [], order := [] } }
    let s := s.dropTransit
    let s := s.que.qps.foldl (fun s q => if q.2.state = .free then s else s.failQp q.1 .error) s
    let s := s.que.away.foldl (fun s q => s.failQp q.1 .error) s
    (s.setStatus Reg.mapStatus 3 3 1).raiseBit Reg.mapEvent 1

end Sys2Proof.Machine
end

