-- ==== Sys2Proof/Machine/Routes.lean ====
section
/-!
DEFINITION. The routing table that the map agent builds from a generation (R255–R258, R267).
-/

namespace Sys2Proof.Machine

open Sys2Proof

/-- A position of the torus. -/
structure Pos where
  /-- x. -/
  x : Nat
  /-- y. -/
  y : Nat
  /-- z. -/
  z : Nat
  deriving DecidableEq, Repr

/-- Position of a node. -/
def NodeEnt.pos (e : NodeEnt) : Pos := ⟨e.x, e.y, e.z⟩

/-- A node that serves: MEMBER or DRAINING. -/
def NodeEnt.serves (e : NodeEnt) : Bool := e.state == .member || e.state == .draining

/-- Node IDs with routes over the torus: serving nodes that are not spares. -/
def MapData.torusNodes (m : MapData) : List (Nat × NodeEnt) := m.nodes.filter (fun p => p.2.serves && p.2.slot != 16)

/-- The stand-in at a position. -/
def MapData.standInAt (m : MapData) (p : Pos) : Option (Nat × NodeEnt) := m.nodes.find? (fun n => n.2.slot == 16 && n.2.standIn && n.2.pos == p)

/-- A stand-in stands at the position. -/
def MapData.stoodIn (m : MapData) (p : Pos) : Bool := (m.standInAt p).isSome

/-- The position is no hole: a serving node is there and no stand-in stands for it (R258). -/
def MapData.open (m : MapData) (p : Pos) : Bool := m.torusNodes.any (fun n => n.2.pos == p) && !m.stoodIn p

/-- Sizes of X, Y and Z of a map (log 7). -/
def MapData.sizes (m : MapData) : Nat × Nat × Nat :=
  (16, torusSize (m.nodes.map (fun p => p.2.y)), torusSize (m.nodes.map (fun p => p.2.z)))

/-- Codes of a dimension: ring +, ring −, express. -/
def dimCodes (d : Nat) : Nat × Nat × Nat := (2 * d, 2 * d + 1, 6 + d)

/-- Hops from coordinate a: an express hop first or not, then k ring hops up or down; (output code, coordinate reached). -/
def ringHops (size d a : Nat) (express up : Bool) (k : Nat) : List (Nat × Nat) :=
  let c := dimCodes d
  let start := if express then (a + size / 2) % size else a
  (if express then [(c.2.2, start)] else []) ++
  (List.range k).map (fun i => if up then (c.1, (start + i + 1) % size) else (c.2.1, (start + size - (i + 1)) % size))

/-- Ways from a to b within one dimension (R257): ring hops only, or one express hop and then ring hops in one direction, where the dimension's express links are used (R242). -/
def ringWays (express : Bool) (size d a b : Nat) : List (List (Nat × Nat)) :=
  if a = b then [[]]
  else
    let up (x : Nat) : Nat := (b + size - x) % size
    let down (x : Nat) : Nat := (x + size - b) % size
    let e := (a + size / 2) % size
    [ringHops size d a false true (up a), ringHops size d a false false (down a)] ++
    (if express then [ringHops size d a true true (up e), ringHops size d a true false (down e % size)] else [])

/-- The shortest way whose coordinates are all open; without holes this is R257's (log 44). -/
def ringPath (express : Bool) (size d a b : Nat) (free : Nat → Bool) : Option (List (Nat × Nat)) :=
  ((ringWays express size d a b).filter (fun w => w.all (fun h => free h.2))).foldl
    (fun best w => match best with | none => some w | some v => if w.length < v.length then some w else some v) none

/-- The way along one dimension from a position to a coordinate: output codes and the position reached. -/
def MapData.leg (m : MapData) (d : Nat) (p : Pos) (c : Nat) : Option (List Nat × Pos) :=
  let sz := m.sizes
  let put (v : Nat) : Pos := if d = 0 then { p with x := v } else if d = 1 then { p with y := v } else { p with z := v }
  let size := if d = 0 then sz.1 else if d = 1 then sz.2.1 else sz.2.2
  let a := if d = 0 then p.x else if d = 1 then p.y else p.z
  (ringPath (expressUsed sz.2.1 sz.2.2 d size) size d a c (fun v => m.open (put v))).map (fun w => (w.map Prod.fst, put c))

/-- A hole-free route in a dimension order: its output codes (R257, R258). -/
def MapData.route (m : MapData) (p q : Pos) : List Nat → Option (List Nat)
  | [] => if p = q then some [] else none
  | d :: rest =>
    match m.leg d p (if d = 0 then q.x else if d = 1 then q.y else q.z) with
    | none => none
    | some (cs, p') => (m.route p' q rest).map (cs ++ ·)

/-- Route in set A, order X, Y, Z. -/
def MapData.routeA (m : MapData) (p q : Pos) : Option (List Nat) := m.route p q [0, 1, 2]
/-- Route in set B, order Z, Y, X. -/
def MapData.routeB (m : MapData) (p q : Pos) : Option (List Nat) := m.route p q [2, 1, 0]

/-- First output of a route; 15 where there is none. -/
def firstCode (r : Option (List Nat)) : Nat := (r.map (fun l => l.headD 10)).getD 15

/-- A routing entry (Table 10.6). -/
def packEntry (a b set viaEn via : Nat) : Nat := a + 16 * b + 256 * set + 512 * viaEn + 1024 * via

/-- Entry at a torus node for another (R257, R258). -/
def MapData.torusEntry (m : MapData) (me dst : NodeEnt) : Nat :=
  let a := m.routeA me.pos dst.pos
  let b := m.routeB me.pos dst.pos
  if a.isSome then packEntry (firstCode a) (firstCode b) 0 0 0
  else if b.isSome then packEntry 15 (firstCode b) 1 0 0
  else
    match m.torusNodes.find? (fun v => m.open v.2.pos && (m.routeA me.pos v.2.pos).isSome && (m.routeB v.2.pos dst.pos).isSome) with
    | some v => packEntry 15 15 0 1 v.1
    | none => noRoute

/-- Relays of a stand-in (R267). -/
def MapData.relaysOf (m : MapData) (spare : Nat) : List Nat := (tabGet m.relays spare).getD []

/-- The relay of an index; none where there is no relay. -/
def relayAt (rs : List Nat) (i : Nat) : Option Nat := if rs.isEmpty then none else rs[i % rs.length]?

/-- Entry at node `id` for a destination (R255–R258, R267). -/
def MapData.entry (m : MapData) (id dst : Nat) : Nat :=
  match tabGet m.nodes id, tabGet m.nodes dst with
  | some me, some d =>
    if id = dst then packEntry 10 10 0 0 0
    else if !d.serves then noRoute
    else if me.slot = 16 then
      (match relayAt (m.relaysOf id) dst with | some r => packEntry 11 11 0 1 r | none => noRoute)
    else if d.slot = 16 then
      (match relayAt (m.relaysOf dst) id with
       | some r => packEntry 15 (if (m.relaysOf dst).contains id then 9 else 15) 0 1 r
       | none => noRoute)
    else if !m.open d.pos then noRoute
    else m.torusEntry me d
  | _, _ => noRoute

/-- The table of a node. -/
def MapData.table (m : MapData) (id : Nat) : List (Nat × Nat) :=
  m.nodes.foldl (fun t p => spSet noRoute t p.1 (m.entry id p.1)) []

/-! ### The check of R259 -/

/-- Where a hop leads from a node: over the torus to the serving node at the position, to the tray's spare, or from the spare to the via node. -/
def MapData.neighbour (m : MapData) (id via code : Nat) : Option Nat :=
  match tabGet m.nodes id with
  | none => none
  | some e =>
    let sz := m.sizes
    let at_ (x y z : Nat) : Option Nat := (m.torusNodes.find? (fun n => n.2.pos == ⟨x % sz.1, y % sz.2.1, z % sz.2.2⟩)).map Prod.fst
    if code = 0 then at_ (e.x + 1) e.y e.z else if code = 1 then at_ (e.x + sz.1 - 1) e.y e.z
    else if code = 2 then at_ e.x (e.y + 1) e.z else if code = 3 then at_ e.x (e.y + sz.2.1 - 1) e.z
    else if code = 4 then at_ e.x e.y (e.z + 1) else if code = 5 then at_ e.x e.y (e.z + sz.2.2 - 1)
    else if code = 6 then at_ (e.x + sz.1 / 2) e.y e.z else if code = 7 then at_ e.x (e.y + sz.2.1 / 2) e.z
    else if code = 8 then at_ e.x e.y (e.z + sz.2.2 / 2)
    else if code = 9 then (m.nodes.find? (fun n => n.2.slot == 16 && n.2.tray == e.tray && n.2.serves)).map Prod.fst
    else if code = 11 then some via else none

/-- The hops that the tables give a packet from a node on, by the procedure of R256: the set, B being true, and the output code. A packet that finds no way on has made the hops up to there. -/
def MapData.walk (m : MapData) (dst via : Nat) : Nat → Nat → Bool → Bool → List (Bool × Nat)
  | 0, _, _, _ => []
  | f + 1, id, setB, done =>
    let here := via == id
    let setB := setB || here
    let done := done || here
    let e := m.entry id (if via ≠ 0xFFFF ∧ !done then via else dst)
    let code := if setB then bitsOf e 7 4 else bitsOf e 3 0
    if code = 10 then []
    else
      -- a stand-in leaves to the via node that the packet names, as in R256
      match m.neighbour id (if via ≠ 0xFFFF then via else bitsOf e 20 10) code with
      | none => []
      | some n => (setB, code) :: m.walk dst via f n setB done

/-- One hop may follow another in the channel order: sets A then B, dimensions in the set's order, within one an express hop before ring hops of one direction (R259). -/
def hopFollows (a b : Bool × Nat) : Bool :=
  if 9 ≤ a.2 ∨ 9 ≤ b.2 then !a.1 || b.1
  else if a.1 ≠ b.1 then b.1
  else if codeDim a.2 = codeDim b.2 then decide (b.2 < 6) && (decide (6 ≤ a.2) || a.2 == b.2)
  else if a.1 then decide (codeDim b.2 < codeDim a.2) else decide (codeDim a.2 < codeDim b.2)

/-- Each hop of a route may follow the one before. -/
def hopsOrdered : List (Bool × Nat) → Bool
  | a :: b :: t => hopFollows a b && hopsOrdered (b :: t)
  | _ => true

/-- Every route of the tables that a generation gives keeps the channel order (R259). -/
def MapData.ordered (m : MapData) : Bool :=
  let ids := (m.nodes.filter (fun n => n.2.serves)).map Prod.fst
  ids.all (fun a => ids.all (fun b =>
    let e := m.entry a b
    let set := bitOf e 8
    let via := if bitOf e 9 then bitsOf e 20 10 else 0xFFFF
    e == noRoute || a == b || hopsOrdered (m.walk b via 64 a set false)))

/-- Some pair of serving nodes has no route (R258). -/
def MapData.broken (m : MapData) : Bool :=
  m.torusNodes.any (fun a => m.torusNodes.any (fun b => a.1 != b.1 && m.entry a.1 b.1 == noRoute))

end Sys2Proof.Machine
end

