-- ==== Sys2Proof/Machine/MapOps.lean ====
section
/-!
DEFINITION. The Eulin map (chapter 12): its bytes and digest, the effect of each change, the leader's checks, committing a generation, and the map agent's messages.
-/

namespace Sys2Proof.Machine

open Sys2Proof

/-! ### Bytes and digest (R299, Table 12.1) -/

/-- n bytes of an entry whose layout the manual does not give (log 43). -/
def openBytes (part n : Nat) (fields : List Nat) : List Byte := (List.range n).map (Config.mapByte part fields)

/-- Header fields. -/
def MapData.header (m : MapData) : List Byte :=
  openBytes 0 256 ([m.fabricId, m.gen, m.eff, m.term, m.leader, m.mode, (m.modeNext.map Prod.fst).getD 4, (m.modeNext.map Prod.snd).getD 0,
    m.timeRoot.getD 0xFFFF] ++ m.keepers ++ m.relays.flatMap (fun r => r.1 :: r.2))

/-- A node-table entry's 16 bytes. -/
def nodeBytes (e : Option NodeEnt) : List Byte :=
  match e with
  | none => openBytes 1 16 []
  | some e => openBytes 1 16 [e.state.code, e.x, e.y, e.z, e.tray, e.slot, b2n e.standIn, e.ident]

/-- A slice-table entry's 64 bytes: slot_base, slot_log2 and flags in its first word, whose order is open (log 43), and zeros. -/
def sliceBytes (e : Option SliceEnt) : List Byte :=
  openBytes 3 4 (match e with | none => [] | some e => [e.base, e.log2, e.flags]) ++ List.replicate 60 0

/-- A membership entry (Table 12.3); an unused one has slice 0xFF. -/
def membBytes (e : Option MembEnt) : List Byte :=
  match e with
  | none => leBytes 1 0xFF ++ List.replicate 7 0
  | some e => leBytes 1 e.slice ++ leBytes 1 e.bare ++ leBytes 1 e.tier1 ++ leBytes 1 e.lend ++ leBytes 2 e.pgroups ++ leBytes 1 e.edges ++ [0]

/-- A pool-table entry's 16 bytes. -/
def poolBytes (e : Option PoolEnt) : List Byte :=
  match e with
  | none => openBytes 7 16 []
  | some e => openBytes 7 16 [e.donor, e.mirror, e.borrower, e.key, e.size, e.slice]

/-- One byte of loss bits. -/
def lossByte (loss : List Nat) (i : Nat) : Byte :=
  BitVec.ofNat 8 ((List.range 8).foldl (fun v b => v + b2n (loss.contains (8 * i + b)) * pow2 b) 0)

/-- All parts in order. -/
def MapData.bytes (m : MapData) : List Byte :=
  m.header ++
  (List.range 2048).flatMap (fun i => nodeBytes (tabGet m.nodes i)) ++
  (List.range 24).flatMap (fun c => leBytes 1 ((tabGet m.classes c).getD 0)) ++
  (List.range 24).flatMap (fun i => sliceBytes (tabGet m.slices i)) ++
  (List.range 2048).flatMap (fun i => (List.range 8).flatMap (fun k => membBytes (tabGet ((tabGet m.members i).getD []) k))) ++
  (List.range 65536).flatMap (fun i => leBytes 2 ((tabGet m.homes i).getD 0xFFFF)) ++
  (List.range 8192).map (lossByte m.loss) ++
  (List.range 4096).flatMap (fun i => poolBytes (tabGet m.pools i))

/-- The map digest (R299). -/
def MapData.digest (m : MapData) : List Byte := sha384 m.bytes

/-! ### Actions: Table 12.10, and the model's codes of the leader's own changes (log 45) -/

namespace Action
/-- Member proposes LEND; as prepared, the grant. -/
abbrev lend := 16
/-- Borrower returns a slice. -/
abbrev reclaim := 17
/-- Mode change (R51). -/
abbrev mode := 18
/-- Admit a candidate (R320). -/
abbrev admitNode := 19
/-- A stand-in goes back to SPARE (R323). -/
abbrev toSpare := 20
/-- Name a time root (R309). -/
abbrev timeRoot := 21
/-- A new relay set (R267). -/
abbrev relays := 22
end Action

/-! ### Applying a change list -/

/-- Members: serving nodes that are no idle spare, rising by ID. -/
def MapData.membersOf (m : MapData) : List (Nat × NodeEnt) := m.nodes.filter (fun p => p.2.state == .member)

/-- The node's membership entry for a slice. -/
def MapData.serving (m : MapData) (id sl : Nat) : Option MembEnt := (((tabGet m.members id).getD []).map Prod.snd).find? (fun e => e.slice == sl)

/-- Slice of a home slot: the one whose range holds it (R303). -/
def MapData.slotSlice (m : MapData) (slot : Nat) : Option Nat :=
  (m.slices.find? (fun e => decide (e.2.base ≤ slot ∧ slot < e.2.base + pow2 e.2.log2))).map Prod.fst

/-- Change a node's entry. -/
def MapData.mapNode (m : MapData) (id : Nat) (f : NodeEnt → NodeEnt) : MapData := { m with nodes := tabMap m.nodes id f }

/-- The member that becomes a keeper beside some others: the lowest-ID one in a tray that holds none of them, or the lowest-ID one (R305). -/
def MapData.nextKeeper (m : MapData) (others : List Nat) : Option Nat :=
  let trays := others.filterMap (fun k => (tabGet m.nodes k).map (·.tray))
  let cands := m.membersOf.filter (fun p => !m.keepers.contains p.1)
  ((cands.find? (fun p => !trays.contains p.2.tray)).orElse (fun _ => cands.head?)).map Prod.fst

/-- Replace a keeper that goes (R305). -/
def MapData.replaceKeeper (m : MapData) (id : Nat) : MapData :=
  if !m.keepers.contains id then m
  else
    let others := m.keepers.filter (· != id)
    match m.nextKeeper others with
    | some c => { m with keepers := m.keepers.map (fun k => if k = id then c else k) }
    | none => { m with keepers := others }

/-- Give a slot a home; a slot that had one is in transfer (R315, R321). -/
def MapData.giveSlot (m : MapData) (slot dst : Nat) (dead : Bool) : MapData :=
  let old := (tabGet m.homes slot).getD 0xFFFF
  let m := { m with homes := tabPut m.homes slot dst }
  if old = 0xFFFF ∨ old = dst then m else { m with moves := m.moves ++ [(slot, old, dst, dead)] }

/-- Slots a node homes. -/
def MapData.slotsOf (m : MapData) (id : Nat) : List Nat := (m.homes.filter (fun h => h.2 == id)).map Prod.fst

/-- The tray's spare that stands for no one (R321). -/
def MapData.spareOf (m : MapData) (tray : Nat) : Option Nat :=
  (m.nodes.find? (fun p => p.2.slot == 16 && p.2.tray == tray && p.2.state == .spare)).map Prod.fst

/-- Nodes of a tray at X positions of a mask, in ascending X (R267). -/
def MapData.relaysAt (m : MapData) (tray mask : Nat) : List Nat :=
  (List.range 16).filterMap (fun x => if bitOf mask x then
    (m.torusNodes.find? (fun p => p.2.tray == tray && p.2.x == x)).map Prod.fst else none)

/-- The tray's spare takes a position, its membership entries and its slots (R321). -/
def MapData.standFor (m : MapData) (id mask : Nat) (dead : Bool) : MapData :=
  match tabGet m.nodes id with
  | none => m
  | some e =>
    match m.spareOf e.tray with
    | none => m
    | some sp =>
      let m := m.mapNode sp (fun n => { n with state := .member, standIn := true, x := e.x, y := e.y, z := e.z })
      let m := { m with members := tabPut m.members sp ((tabGet m.members id).getD []), relays := tabPut m.relays sp (m.relaysAt e.tray mask) }
      (m.slotsOf id).foldl (fun m sl => m.giveSlot sl sp dead) m

/-- The member of a slot's slice that holds the fewest slots (R321). -/
def MapData.fewest (m : MapData) (slot : Nat) : Option Nat :=
  let ok := m.membersOf.filter (fun p => match m.slotSlice slot with | some sl => (m.serving p.1 sl).isSome | none => false)
  (ok.foldl (fun (best : Option (Nat × Nat)) p =>
    let n := (m.slotsOf p.1).length
    match best with | none => some (p.1, n) | some b => if n < b.2 then some (p.1, n) else some b) none).map Prod.fst

/-- A node goes for good: DEAD or RETIRED; what it borrowed falls free (log 45). -/
def MapData.remove (m : MapData) (id : Nat) (st : NodeState) : MapData :=
  let m := (m.mapNode id (fun e => { e with state := st })).replaceKeeper id
  { m with pools := m.pools.filter (fun p => p.2.borrower != id) }

/-- One change. -/
def MapData.change (m : MapData) (c : Change) : MapData :=
  if c.action = 1 then (rangeFrom c.a0 c.a1).foldl (fun m sl => m.giveSlot sl c.a2 false) m
  else if c.action = 2 then
    let id := bitsOf c.a0 10 0
    let i := bitsOf c.a0 18 16
    let sl := bitsOf c.a1 7 0
    let l := (tabGet m.members id).getD []
    let e : MembEnt := ⟨sl, bitsOf c.a1 15 8, bitsOf c.a1 23 16, bitsOf c.a1 31 24, bitsOf c.a2 15 0, bitsOf c.a2 23 16⟩
    { m with members := tabPut m.members id (if sl = 0xFF then tabDel l i else tabPut l i e) }
  else if c.action = 3 then { m with classes := tabPut m.classes c.a0 c.a1 }
  else if c.action = 4 then
    { m with slices := tabPut m.slices c.a0 ⟨bitsOf c.a1 15 0, bitsOf c.a1 20 16, ((tabGet m.slices c.a0).map (·.flags)).getD 0⟩ }
  else if c.action = 5 then (m.mapNode c.a0 (fun e => { e with state := .draining })).replaceKeeper c.a0
  else if c.action = 6 then m.remove c.a0 .retired
  else if c.action = 7 then
    ((m.mapNode c.a0 (fun e => { e with state := .draining })).replaceKeeper c.a0).standFor c.a0 c.a1 false
  else if c.action = 8 then
    match tabGet m.nodes c.a0 with
    | none => m
    | some e =>
      let m := m.mapNode c.a0 (fun n => { n with state := .member })
      (match m.standInAt e.pos with
       | none => m
       | some sp =>
         let m := (m.mapNode sp.1 (fun n => { n with state := .draining, standIn := false })).replaceKeeper sp.1
         let m := { m with members := tabDel (tabPut m.members c.a0 ((tabGet m.members sp.1).getD [])) sp.1 }
         (m.slotsOf sp.1).foldl (fun m sl => m.giveSlot sl c.a0 false) m)
  else if c.action = 9 then { m with loss := m.loss.filter (fun x => !(decide (c.a0 ≤ x) && decide (x < c.a0 + c.a1))) }
  else if c.action = 10 then
    let slots := m.slotsOf c.a0
    let m := m.remove c.a0 .dead
    let m := if c.a1 = 1 then m.standFor c.a0 c.a2 true
      else slots.foldl (fun m sl => match m.fewest sl with | some d => m.giveSlot sl d true | none => { m with homes := tabDel m.homes sl }) m
    { m with loss := slots.foldl setInsert m.loss }
  else if c.action = Action.lend then
    { m with pools := tabPut m.pools (c.a0 / 256) ⟨c.a1 % 65536, c.a1 / 65536, c.proposer, c.a2, 1, c.a0 % 256⟩ }
  else if c.action = Action.reclaim then { m with pools := tabDel m.pools c.a0 }
  else if c.action = Action.mode then { m with mode := (m.modeNext.map Prod.fst).getD m.mode, modeNext := some (c.a0, c.a1 + pow2 32 * c.a2) }
  else if c.action = Action.admitNode then
    let pos : Pos := ⟨bitsOf c.a0 14 11, bitsOf c.a0 17 15, bitsOf c.a0 20 18⟩
    let spare := bitOf c.a0 29
    let st : NodeState := if spare then .spare else if m.stoodIn pos then .candidate else .member
    let e : NodeEnt := ⟨st, pos.x, pos.y, pos.z, bitsOf c.a0 28 21, if spare then 16 else pos.x, false, c.a1 + pow2 32 * c.a2⟩
    let id := bitsOf c.a0 10 0
    -- it holds no shares and no loans, whatever a node of that ID once held (R320)
    let loan (p : Nat × PoolEnt) : Option (Nat × PoolEnt) :=
      if p.2.mirror = id then some (p.1, { p.2 with mirror := 0xFFFF })
      else if p.2.donor ≠ id then some p
      else if p.2.mirror = 0xFFFF then none else some (p.1, { p.2 with donor := p.2.mirror, mirror := 0xFFFF })
    { m with nodes := tabPut m.nodes id e, members := tabDel m.members id, pools := (m.pools.filter (fun p => p.2.borrower != id)).filterMap loan }
  else if c.action = Action.toSpare then
    let m := m.mapNode c.a0 (fun e => { e with state := .spare, standIn := false })
    { m with relays := tabDel m.relays c.a0, members := tabDel m.members c.a0 }
  else if c.action = Action.timeRoot then { m with timeRoot := if c.a0 = 0xFFFF then none else some c.a0 }
  else if c.action = Action.relays then
    { m with relays := tabPut m.relays c.a0 (match tabGet m.nodes c.a0 with | some e => m.relaysAt e.tray c.a1 | none => []) }
  else m

/-- The mode in a frame: a mode change acts at its own frame E, whatever the effect frame of the generation that carries it, or of a later one (R51, R309). -/
def MapData.modeAt (m : MapData) (frame : Nat) : Nat :=
  match m.modeNext with | some (x, e) => if e ≤ frame then x else m.mode | none => m.mode

/-- The next generation: a change list applied to the previous one, with its effect frame, term and leader (R308, R309). -/
def MapData.next (m : MapData) (eff term leader : Nat) (cs : List Change) : MapData :=
  let m := cs.foldl MapData.change { m with moves := [] }
  { m with gen := m.gen + 1, eff := eff, term := term, leader := leader }

/-- What the first generation is formed from: a fabric of no node, at generation 0, in NIGHT (R54, R299). -/
def MapData.empty (fabricId : Nat) : MapData :=
  { fabricId := fabricId, gen := 0, eff := 0, keepers := [], term := 0, leader := 0x7FF, mode := 3, modeNext := none, timeRoot := none, relays := []
    nodes := [], classes := [], slices := [], members := [], homes := [], loss := [], pools := [], moves := [] }

/-- The keepers of a fabric as it is formed, in different trays wherever it has enough, and its leader, the lowest-ID one, in term 1 (R305). -/
def MapData.seat (m : MapData) (count : Nat) : MapData :=
  let m := (List.range count).foldl (fun m _ => match m.nextKeeper m.keepers with | some k => { m with keepers := m.keepers ++ [k] } | none => m) m
  { m with term := 1, leader := m.keepers.foldl min 0x7FF }

/-- Generation 1, the one a fabric is formed with (R299, R305; log 105). -/
def MapData.formed (fabricId count eff : Nat) (cs : List Change) : MapData :=
  ((MapData.empty fabricId).next eff 1 0x7FF cs).seat count

/-! ### What the agent holds -/

/-- The highest committed generation held. -/
def State.tip (s : State) : Option MapData := s.map.queue.getLast?.orElse (fun _ => s.map.cur)
/-- The keepers that decide the next generation: those of the highest committed one (R305, R308). -/
def State.keepers (s : State) : List Nat := (s.tip.map (·.keepers)).getD []
/-- This node is a keeper. -/
def State.isKeeper (s : State) : Bool := s.keepers.contains s.map.id
/-- This node is the leader. -/
def State.isLeader (s : State) : Bool := s.isKeeper && s.map.leader == s.map.id && !s.fenced
/-- More than half of the keeper count (R305). -/
def State.majority (s : State) (n : Nat) : Bool := decide (s.map.keeperCount < 2 * n)
/-- This node's identity: idd bytes 0–7 (R346). -/
def State.myIdent (s : State) : Nat := field s.sec.idd 0 8

/-- Refresh MAP_STATUS (Table 12.11). -/
def State.refreshMap (s : State) : State :=
  let mp := s.map
  let v := mp.nodeState.code + 8 * b2n mp.fenced + 16 * b2n s.isKeeper + 32 * b2n s.isLeader + 64 * bitsOf (s.live Reg.mapStatus) 6 6 +
    128 * b2n (!mp.outgoing.isEmpty || !mp.incoming.isEmpty) + 256 * min 3 mp.queue.length
  s.putStatus Reg.mapStatus (putBits (s.live Reg.mapStatus) 9 0 v)

/-! ### Messages (R306) -/

/-- Body length of a CTL message: 20 bytes for each change of a PROPOSE (Table 12.4); else the manual gives no widths (log 15). -/
def ctlLen (type : Nat) (args : List Nat) : Nat := if type = 4 then 20 * (args.length / 6) else Config.ctlLength type args.length

/-- The 32-byte CTL header (R306). -/
def ctlBytes (h : CtlHdr) (type : Nat) (args : List Nat) : List Byte :=
  leBytes 1 type ++ leBytes 1 h.version ++ leBytes 1 h.fabricId ++ [0] ++ leBytes 2 h.sender ++ [0, 0] ++ leBytes 4 h.term ++ leBytes 8 h.gen ++
    leBytes 4 (ctlLen type args) ++ List.replicate 8 0

/-- The header of a message of this node. -/
def State.ctlHead (s : State) (type : Nat) (args : List Nat) : List Byte :=
  ctlBytes ⟨1, s.map.fabricId % 16, s.map.id, s.map.term, s.gen, 0, 0⟩ type args

/-- A CTL message to a node as it leaves. -/
def State.ctlMsg (s : State) (dst type : Nat) (args : List Nat) : OutMsg := .ctl dst type (s.ctlHead type args) args

/-- Send a CTL message. -/
def State.ctl (s : State) (dst type : Nat) (args : List Nat) : State := s.emit (s.ctlMsg dst type args)
/-- Pass on a message of another node, its header as it came (R310, R320). -/
def State.ctlOn (s : State) (h : CtlHdr) (dst type : Nat) (args : List Nat) : State := s.emit (.ctl dst type (ctlBytes h type args) args)
/-- Every link partner. -/
abbrev partners : Nat := 0xFFFF
/-- A change list as it travels. -/
def changeArgs (cs : List Change) : List Nat := cs.flatMap (fun c => [c.action, c.a0, c.a1, c.a2, c.serial, c.proposer])
/-- Bytes as numbers. -/
def byteArgs (bs : List Byte) : List Nat := bs.map BitVec.toNat

/-- The keeper that a fetch asks: the first that the map held names, the leader known where no map is held, else whoever a partner reaches (R310, R320; log 105). -/
def State.fetchFrom (s : State) : Option Nat :=
  if s.map.cur.isSome then s.keepers.find? (· != s.map.id)
  else if s.map.leader ≠ 0x7FF then some s.map.leader else some partners

/-- Ask a keeper for the whole map (R310). -/
def State.startFetchMap (s : State) (gen : Nat) : State :=
  match s.fetchFrom with
  | none => s
  | some k => ({ s with map := { s.map with fetching := some (gen, 0) } }).ctl k 8 [gen, 0]

/-- The position seen in training: of each link whose partner is known, its number, the partner's ID and the partner's link (R243). -/
def State.seenInTraining (s : State) : List Nat :=
  (s.lnk.links.filter (fun l => l.2.partnerId != 0x7FF)).flatMap (fun l => [l.1, l.2.partnerId, l.2.partnerLink])

/-- A byte string as it travels in a JOIN. -/
def sizedArgs (bs : List Byte) : List Nat := bs.length :: byteArgs bs

/-- Send JOIN through a partner: the identity, the position seen in training, the device certificate, and the latest report with the path to its slot 4,095 (R320, R355, Table 12.4); the next report covers a nonce of the generation heard of. -/
def State.sendJoin (s : State) (partner : Nat) : State :=
  (s.ctl partner 11 (s.myIdent :: s.seenInTraining ++ sizedArgs s.sec.cert ++ sizedArgs s.sec.report ++ byteArgs s.sec.reportPath.flatten)).queueJoin

/-- The header is of this fabric and version (R306). -/
def State.ctlOk (s : State) (h : CtlHdr) : Bool := s.running && h.version == 1 && h.fabricId == s.map.fabricId

/-- The node fences itself and fetches the map (R319). -/
def State.fenceSelf (s : State) : State :=
  if s.fenced then s else ((s.fenceNode).startFetchMap (max s.map.heard s.gen)).refreshMap

/-- A valid message of a generation at least two above the one held (R319). -/
def State.checkAhead (s : State) (gen : Nat) : State :=
  if s.map.cur.isSome ∧ s.gen + 2 ≤ gen then ({ s with map := { s.map with heard := max s.map.heard gen } }).fenceSelf else s

/-- What every valid message brings beside its own effect: a generation at least two above the one held fences the node (R319). -/
def State.ctlIn (s : State) (h : CtlHdr) : State := s.checkAhead h.gen

/-- Take a newer term and its leader from a message (R307). -/
def State.takeTerm (s : State) (h : CtlHdr) : State :=
  if s.map.term < h.term then
    (({ s with map := { s.map with term := h.term, leader := h.sender, election := none, votes := [] } }).raiseBit Reg.mapEvent 8).refreshMap
  else s

/-- A message of the leader of the term known. -/
def State.fromLeader (s : State) (h : CtlHdr) : Bool := h.term == s.map.term && h.sender == s.map.leader

/-! ### Commit of a generation (R308, R310) -/

/-- Announce a mode change that a commit carries (R51). -/
def State.announceMode (s : State) (old new : Option (Nat × Nat)) : State :=
  match new with
  | some (x, e) =>
    if new = old ∨ e ≤ s.frame then s
    else
      let v := putBits (putBits (s.live Reg.timeModeStatus) 3 2 x) 4 4 1
      ((s.setLive Reg.timeModeStatus v).setLive64 Reg.timeModeEff e).raiseBit Reg.timeEvent 6
  | none => s

/-- The outcome of this node's operator proposal (Table 12.9). -/
def State.endProposal (s : State) (result : Nat) : State :=
  let s := { s with map := { s.map with own := none } }
  (s.touch Reg.mapPropStatus (putBits (s.live Reg.mapPropStatus) 2 0 result)).raiseBit Reg.mapEvent 5

/-- The outcome of this node's mode proposal (R51). -/
def State.endMode (s : State) (refused : Bool) : State :=
  let s := { s with map := { s.map with ownMode := none } }
  let v := putBits (s.live Reg.timeModeStatus) 5 5 0
  s.setLive Reg.timeModeStatus (if refused then putBits v 6 6 1 else v)

/-- A serial of this node's proposals has been decided. -/
def State.decided (s : State) (serial result : Nat) : State :=
  let s := if s.map.own.any (fun o => o.1.serial == serial) then s.endProposal result else s
  if s.map.ownMode.any (fun o => o.1 == serial) then s.endMode (decide (result ≠ 2)) else s

/-- Hold a committed generation until its effect frame (R309). -/
def State.adopt (s : State) (m : MapData) (cs : List Change) : State :=
  let oldMode := s.tip.bind (·.modeNext)
  let s := { s with map := { s.map with queue := s.map.queue ++ [m], heard := max s.map.heard m.gen, seen := s.map.seen.filter (fun g => decide (m.gen < g)) } }
  let s := s.announceMode oldMode m.modeNext
  let s := if m.broken then s.raiseBit Reg.lnkEvent 4 else s
  let s := (cs.filter (fun c => c.proposer == s.map.id)).foldl (fun s c => s.decided c.serial 2) s
  s.refreshMap

/-- E_g of a generation committed in the current frame (R309). -/
def State.effectFrame (s : State) : Nat :=
  match s.tip with | some m => max (s.frame + 1) (m.eff + 4) | none => s.frame + 1

/-- The leader sends a new stand-in, which holds no map, the whole of it (R321). -/
def State.sendMap (s : State) (m : MapData) (dst : Nat) : State :=
  let bytes := m.bytes
  (List.range (ceilDiv bytes.length 4096)).foldl (fun s i => s.ctl dst 9 (4096 * i :: byteArgs ((bytes.drop (4096 * i)).take 4096))) s

/-- Stand-ins that a map has and another has not. -/
def newStandIns (old new : MapData) : List Nat :=
  ((new.nodes.filter (fun p => p.2.standIn)).map Prod.fst).filter (fun id => !(tabGet old.nodes id).any (fun e => e.standIn))

/-- COMMIT goes from the leader to every member, of the generation before and of this one (Table 12.4, R310). -/
def State.sendCommit (s : State) (p : Prepared) : State :=
  let of (m : MapData) : List Nat := (m.nodes.filter (fun n => n.2.serves)).map Prod.fst
  let dsts := ((((s.tip.map of).getD []) ++ of p.map).foldl setInsert []).filter (· != s.map.id)
  dsts.foldl (fun s id => s.ctl id 7 ([p.gen, p.eff] ++ changeArgs p.changes ++ byteArgs p.map.digest)) s

/-- The leader commits the prepared generation (R308), unless its tables would break the channel order (R259). -/
def State.leaderCommit (s : State) (p : Prepared) : State :=
  if !p.map.ordered then s
  else
  let s := { s with map := { s.map with
    prepared := none
    proposals := s.map.proposals.filter (fun x => !p.changes.any (fun c => c.serial == x.1.serial && c.proposer == x.1.proposer))
    verdicts := s.map.verdicts.filter (fun v => !p.changes.any (fun c => c.action == 10 && c.a0 == v))
    joins := s.map.joins.filter (fun j => !p.changes.any (fun c => c.action == Action.admitNode && c.a1 + pow2 32 * c.a2 == j.1)) } }
  let s := s.sendCommit p
  let s := (newStandIns (s.tip.getD p.map) p.map).foldl (fun s id => s.sendMap p.map id) s
  s.adopt p.map p.changes

/-- The leader counts an acceptance and commits on a majority before minute 768 of the PREPARE's frame (R308). -/
def State.countAccept (s : State) (keeper : Nat) : State :=
  match s.map.prepared with
  | none => s
  | some p =>
    let p := { p with accepts := setInsert p.accepts keeper }
    let s := { s with map := { s.map with prepared := some p } }
    if s.majority p.accepts.length ∧ 704 ≤ s.minute ∧ s.minute < 768 then s.leaderCommit p else s

/-! ### The leader's checks (R301, R303, R308, R326) -/

/-- Result codes (Table 12.9). -/
abbrev propInvalid : Nat := 3
/-- TIMEOUT. -/
abbrev propTimeout : Nat := 4
/-- BUSY. -/
abbrev propBusy : Nat := 5

/-- Sum of a share over a node's entries. -/
def shareSum (l : List (Nat × MembEnt)) (f : MembEnt → Nat) : Nat := l.foldl (fun n e => n + f e.2) 0

/-- Another node homes a slot of a slice. -/
def MapData.homedElsewhere (m : MapData) (me sl : Nat) : Bool := m.homes.any (fun h => h.2 != me && m.slotSlice h.1 == some sl)

/-- Some node holds a sequence of a class of a slice: this one by its own table, others as they tell (R303; log 45). -/
def State.classBusy (s : State) (m : MapData) (sl : Nat) (of : Nat → Bool) : Bool :=
  s.pgw.seqs.any (fun r => of r.cls) || (m.homedElsewhere s.map.id sl && Config.heldElsewhere 0 sl s.now)

/-- A slot whose transfer from a living node has not ended: this node tells of its own, the others' ends are theirs to tell (R315; log 45). -/
def State.slotMoving (s : State) (slot : Nat) : Bool :=
  s.map.queue.any (fun m => m.moves.any (fun x => x.1 == slot)) ||
  (match tabGet s.map.moving slot with
   | none => false
   | some (a, b) =>
     if b = s.map.id then s.map.incoming.contains slot
     else if a = s.map.id then s.map.outgoing.any (fun o => o.2.2.1 == b)
     else Config.heldElsewhere 2 slot s.now)

/-- A slot is moving, or an earlier change of the same generation moves it from a living node (R315). -/
def State.slotBusy (s : State) (m : MapData) (slot : Nat) : Bool := s.slotMoving slot || m.moves.any (fun x => x.1 == slot && !x.2.2.2)

/-- A node holds nothing any more: no slot, no loan, and, as it tells, no sequence or page (R323, R326; log 45). -/
def State.emptied (s : State) (m : MapData) (id : Nat) : Bool :=
  (m.slotsOf id).isEmpty && m.pools.all (fun p => p.2.donor != id && p.2.mirror != id && p.2.borrower != id) &&
  (if id = s.map.id then s.pgw.seqs.isEmpty else !Config.heldElsewhere 1 id s.now)

/-- Bits of the X positions whose tray mates report their link to the spare UP (R267, R321). -/
def State.relayMask (s : State) (m : MapData) (tray but : Nat) : Nat :=
  m.torusNodes.foldl (fun v p =>
    let up := if p.1 = s.map.id then (rangeFrom 56 4).any (fun n => s.linkUp n)
      else ((tabGet s.map.hellos p.1).map (fun h => h.2.2.2.2)).getD false
    if p.2.tray = tray ∧ p.1 ≠ but ∧ up then v + pow2 p.2.x else v) 0

/-- Bits set in a 16-bit mask. -/
def bitCount (mask : Nat) : Nat := ((List.range 16).filter (fun x => bitOf mask x)).length

/-- The tray of a node has a spare that can stand in for it (R321). -/
def State.spareReady (s : State) (m : MapData) (id : Nat) : Bool :=
  match tabGet m.nodes id with
  | none => false
  | some e =>
    match (m.spareOf e.tray).bind (fun sp => tabGet m.nodes sp) with
    | some sp => sp.state == .spare && decide (8 ≤ bitCount (s.relayMask m e.tray id))
    | none => false

/-- GiB that a donor has lent of a slice's share. -/
def MapData.lentBy (m : MapData) (donor sl : Nat) : Nat :=
  (m.pools.filter (fun p => (p.2.donor == donor || p.2.mirror == donor) && p.2.slice == sl)).foldl (fun n p => n + p.2.size) 0

/-- GiB a member could still lend to borrowers of a slice (R304; log 45). -/
def MapData.lendable (m : MapData) (id sl : Nat) : Nat :=
  match m.serving id sl with | some e => e.lend * 768 / 256 - m.lentBy id sl | none => 0

/-- The donor with the most lendable room, ties to the lowest ID (R304). -/
def MapData.donorFor (m : MapData) (sl : Nat) (ok : Nat × NodeEnt → Bool) : Option (Nat × NodeEnt) :=
  (m.membersOf.filter (fun p => ok p && decide (0 < m.lendable p.1 sl))).foldl (fun (best : Option (Nat × NodeEnt)) p =>
    match best with | none => some p | some b => if m.lendable b.1 sl < m.lendable p.1 sl then some p else some b) none

/-- The grant that answers a LEND of a slice: donor, mirror (R304). -/
def MapData.grant (m : MapData) (borrower sl : Nat) (mirrored : Bool) : Option (Nat × Nat) :=
  match m.donorFor sl (fun p => p.1 != borrower) with
  | none => none
  | some d =>
    if !mirrored then some (d.1, 0xFFFF)
    else
      let oneTray := m.nodes.all (fun p => p.2.tray == d.2.tray)
      (m.donorFor sl (fun p => p.1 != borrower && p.1 != d.1 && (oneTray || p.2.tray != d.2.tray))).map (fun x => (d.1, x.1))

/-- The leader's answer to a proposal over a map, whose moves are those of the generation being prepared: 0 accepts it, else the code of its REFUSE. -/
def State.proposalCode (s : State) (m : MapData) (c : Change) : Nat :=
  let ent := tabGet m.nodes c.a0
  let st := ent.map (·.state)
  let bad (ok : Bool) : Nat := if ok then 0 else propInvalid
  if 3 ≤ s.map.queue.length then propBusy
  else if c.action = 1 then
    let slots := rangeFrom c.a0 c.a1
    if c.a1 = 0 ∨ 65536 < c.a1 ∨ 65536 < c.a0 + c.a1 then propInvalid
    else if slots.any (s.slotBusy m) then propBusy
    else bad ((tabGet m.nodes c.a2).any (fun e => e.state == .member) &&
      slots.all (fun sl => match m.slotSlice sl with | some x => (m.serving c.a2 x).isSome | none => false))
  else if c.action = 2 then
    let id := bitsOf c.a0 10 0
    let l := ((m.change c).members.find? (fun p => p.1 == id)).map Prod.snd |>.getD []
    bad ((tabGet m.nodes id).any (fun e => e.state == .member) && (bitsOf c.a1 7 0 == 0xFF || decide (bitsOf c.a1 7 0 < 24)) &&
      bitsOf c.a2 15 12 == 0 && bitsOf c.a2 31 20 == 0 &&
      decide (shareSum l (·.bare) ≤ 256 ∧ shareSum l (·.tier1) ≤ 256 ∧ shareSum l (·.lend) ≤ 256))
  else if c.action = 3 then bad (decide (c.a0 < 24 ∧ c.a1 < 24) && !s.classBusy m ((tabGet m.classes c.a0).getD 0) (· == c.a0))
  else if c.action = 4 then
    let base := bitsOf c.a1 15 0
    let lg := bitsOf c.a1 20 16
    let busy := s.classBusy m c.a0 (fun k => (tabGet m.classes k).getD 0 == c.a0)
    bad (decide (c.a0 < 24 ∧ lg ≤ 16 ∧ base % pow2 lg = 0) && !busy &&
      m.slices.all (fun e => e.1 == c.a0 || decide (e.2.base + pow2 e.2.log2 ≤ base ∨ base + pow2 lg ≤ e.2.base)))
  else if c.action = 5 then
    bad (st == some .member && (m.slotsOf c.a0).all (fun sl => match m.slotSlice sl with
      | some x => m.membersOf.any (fun p => p.1 != c.a0 && (m.serving p.1 x).isSome) | none => false))
  else if c.action = 6 then
    bad (st == some .draining && s.emptied m c.a0)
  else if c.action = 7 then
    if (m.slotsOf c.a0).any (s.slotBusy m) then propBusy
    else bad ((st == some .member || st == some .draining) && s.spareReady m c.a0)
  else if c.action = 8 then
    if ((ent.bind (fun e => m.standInAt e.pos)).map (fun p => (m.slotsOf p.1).any (s.slotBusy m))).getD false then propBusy
    else bad (st == some .candidate && (ent.map (fun e => m.stoodIn e.pos)).getD false)
  else if c.action = 9 then 0
  else if c.action = 10 then bad (st == some .member || st == some .draining)
  else if c.action = Action.lend then bad ((m.grant c.proposer c.a0 (c.a1 == 1)).isSome)
  else if c.action = Action.reclaim then bad ((tabGet m.pools c.a0).any (fun p => p.borrower == c.proposer))
  else if c.action = Action.mode then
    if m.modeNext.any (fun x => decide (s.frame < x.2)) then propBusy else bad (decide (c.a0 < 4))
  else propInvalid

/-- Tell a proposer that its change is refused (R308). -/
def State.sendRefuse (s : State) (c : Change) (code : Nat) : State :=
  if c.proposer = s.map.id then s.decided c.serial code else s.ctl c.proposer 14 [c.serial, code]

/-- The frame of the first PREPARE a proposal received now can join (R308). -/
def State.prepareFrame (s : State) : Nat := if s.minute < 704 then s.frame else s.frame + 1

/-- The leader receives one change. -/
def State.leaderTake (s : State) (c : Change) : State :=
  match s.tip with
  | none => s
  | some m =>
    let preparedMode := (s.map.prepared.map (fun p => p.changes.any (fun x => x.action == Action.mode))).getD false
    let queuedMode := s.map.proposals.any (fun x => x.1.action == Action.mode)
    let code := if c.action = Action.mode ∧ (preparedMode ∨ queuedMode) then propBusy else s.proposalCode { m with moves := [] } c
    if code ≠ 0 then s.sendRefuse c code
    else { s with map := { s.map with proposals := s.map.proposals ++ [(c, s.prepareFrame)] } }

/-- Send a change to the leader, or take it where this node leads (R308). -/
def State.propose (s : State) (action a0 a1 a2 : Nat) : State × Nat :=
  let serial := s.map.serial
  let s := { s with map := { s.map with serial := serial + 1 } }
  let c : Change := ⟨action, a0, a1, a2, serial, s.map.id⟩
  (if s.isLeader then s.leaderTake c else s.ctl s.map.leader 4 (changeArgs [c]), serial)

/-! ### The leader's PREPARE at minute 704 (R304, R308, R309, R318, R320, R321, R323) -/

/-- A proposal as it goes into a PREPARE over a map: its final arguments; none where it no longer holds. -/
def State.settle (s : State) (m : MapData) (c : Change) : Option Change :=
  if s.proposalCode m c ≠ 0 then none
  else if c.action = Action.lend then
    match m.grant c.proposer c.a0 (c.a1 == 1), lowestFree (m.pools.map Prod.fst) 4096 with
    | some g, some i => some { c with a0 := c.a0 + 256 * i, a1 := g.1 + 65536 * g.2, a2 := (65535 - i) + 65536 * ((m.gen + 1) % 65535) }
    | _, _ => none
  else if c.action = 7 then
    some { c with a1 := match tabGet m.nodes c.a0 with | some e => s.relayMask m e.tray c.a0 | none => 0 }
  else if c.action = 10 then
    let stand := s.bit Reg.mapCfg 8 && s.spareReady m c.a0
    some { c with a1 := b2n stand, a2 := match tabGet m.nodes c.a0 with | some e => s.relayMask m e.tray c.a0 | none => 0 }
  else some c

/-- Settle proposals in order, each over the map the earlier ones leave; those that no longer hold come back with the code of their REFUSE. -/
def State.settleAll (s : State) : List Change → MapData → List Change → List Change × List (Change × Nat)
  | [], _, out => (out, [])
  | c :: rest, m, out =>
    match s.settle m c with
    | some d => s.settleAll rest (m.change d) (out ++ [d])
    | none =>
      let r := s.settleAll rest m out
      let code := s.proposalCode m c
      (r.1, (c, if code = 0 then propInvalid else code) :: r.2)

/-- An ID is in no use in a map. -/
def MapData.idFree (m : MapData) (i : Nat) : Bool := (tabGet m.nodes i).all (fun e => e.state == .empty || e.state == .dead || e.state == .retired)

/-- Lowest ID that is in use in no map held, prepared ones included, and was not freed within 16 frames; the ID of a node that goes is freed when its generation takes effect (R300). -/
def State.nextId (s : State) (m : MapData) : Option Nat :=
  (List.range 2047).find? (fun i =>
    (m :: (s.map.queue ++ s.map.cur.toList)).all (fun m => m.idFree i) && s.map.freed.all (fun f => f.1 != i || decide (f.2 + 16 < s.frame)))

/-- A place in a tray is taken by another node: a position, a spare's slot, or one of a tray's 16 X positions (R4, R242, R320). A DRAINING node that is no spare holds its place no longer: a candidate may be admitted to it (DESIGN CHOICE, log 131). -/
def MapData.seatTaken (m : MapData) (ident : Nat) (e : NodeEnt) : Bool :=
  m.nodes.any (fun p => (p.2.serves || p.2.state == .spare || p.2.state == .candidate) &&
    (p.2.ident == ident ||
      (if e.slot = 16 then p.2.slot == 16 && p.2.tray == e.tray
       else p.2.slot != 16 && p.2.state != .draining && (p.2.pos == e.pos || (p.2.tray == e.tray && p.2.x == e.x)))))

/-- A tray and a slot that a fabric has: a tray's 16 nodes lie in slot order along X (R4, R242). -/
def NodeEnt.seated (e : NodeEnt) : Bool := decide (e.tray < 64 ∧ (e.slot = 16 ∨ (e.slot < 16 ∧ e.slot = e.x)))

/-- The position a candidate names agrees with the cabling that it saw in training and with its tray's place (R242, R243, R320): of each link the number, the partner and the partner's link. -/
def MapData.seatCabled (m : MapData) (e : NodeEnt) (seen : List (Nat × Nat × Nat)) : Bool :=
  seen.all (fun l => (60 ≤ l.1 && e.slot != 16) || (tabGet m.nodes l.2.1).all (fun p => wired m.sizes e p l.1 l.2.2)) &&
  (e.slot == 16 || m.nodes.all (fun p => !p.2.serves || p.2.slot == 16 || p.2.tray != e.tray || (p.2.y == e.y && p.2.z == e.z)))

/-- Admissions of candidates that asked to join, each where its place is still free (R320). -/
def State.admissions (s : State) : List (Nat × NodeEnt) → MapData → List Change → List Change
  | [], _, out => out
  | j :: rest, m, out =>
    match (if m.seatTaken j.1 j.2 then none else s.nextId m) with
    | none => s.admissions rest m out
    | some id =>
      let e := j.2
      let c : Change := ⟨Action.admitNode, id + pow2 11 * e.x + pow2 15 * e.y + pow2 18 * e.z + pow2 21 * e.tray + pow2 29 * b2n (e.slot == 16),
        j.1 % pow2 32, j.1 / pow2 32, 0, s.map.leader⟩
      s.admissions rest (m.change c) (out ++ [c])

/-- Nodes at the far ends of a node's torus and express links. -/
def MapData.mesh (m : MapData) (id : Nat) : List Nat :=
  match tabGet m.nodes id with
  | none => []
  | some e =>
    if e.slot = 16 then []
    else
      let sz := m.sizes
      (m.torusNodes.filter (fun p => p.1 != id && (List.range 56).any (fun n =>
        match farEnd sz.1 sz.2.1 sz.2.2 e n with | some x => p.2.x == x.1 && p.2.y == x.2.1 && p.2.z == x.2.2.1 | none => false))).map Prod.fst

/-- Link partners of a node by the map: over torus and express links, and over the links between a stand-in and its tray mates (R241, R318). -/
def MapData.partnersOf (m : MapData) (id : Nat) : List Nat :=
  match tabGet m.nodes id with
  | none => []
  | some e =>
    if e.slot = 16 then (m.torusNodes.filter (fun p => p.2.tray == e.tray)).map Prod.fst
    else m.mesh id ++ (m.nodes.filter (fun p => p.2.slot == 16 && p.2.tray == e.tray && p.2.serves)).map Prod.fst

/-- Hops over torus and express links within which a node's neighbourhood takes in all of some nodes; 99 where it never does. -/
def MapData.reach (m : MapData) (all : List Nat) : Nat → List Nat → List Nat → Nat → Nat
  | 0, _, _, _ => 99
  | f + 1, seen, front, d =>
    if all.all seen.contains then d
    else
      let next := (front.flatMap m.mesh).foldl (fun l n => if seen.contains n then l else setInsert l n) []
      if next.isEmpty then 99 else m.reach all f (seen ++ next) next (d + 1)

/-- The member whose largest hop count to any member, over torus and express links, is smallest; ties to the lowest ID (R309). -/
def MapData.bestRoot (m : MapData) : Option Nat :=
  let all := ((m.torusNodes.filter (fun p => p.2.state == .member)).map Prod.fst)
  (all.foldl (fun (best : Option (Nat × Nat)) id =>
    let n := m.reach all 99 [id] [id] 0
    match best with | none => some (id, n) | some b => if n < b.2 then some (id, n) else some b) none).map Prod.fst

/-- Some member reports PPS_IN and TIME_IN valid: this node itself, or a partner's HELLO (R309). -/
def State.anyPps (s : State) : Bool := s.time.ppsValid || s.map.hellos.any (fun h => h.2.2.2.2.1 % 4 == 1)

/-- Changes the leader makes of its own: verdicts, admissions, relay sets, spares that are free again, the time root. -/
def State.ownChanges (s : State) (m : MapData) : List Change :=
  let mk (a a0 a1 : Nat) : Change := ⟨a, a0, a1, 0, 0, s.map.leader⟩
  let spares := m.relays.filterMap (fun r => (tabGet m.nodes r.1).map (fun e => (r.1, e, r.2)))
  let relays := spares.filterMap (fun r =>
    let now := s.relayMask m r.2.1.tray 0xFFFF
    let left := r.2.2.foldl (fun v id => match tabGet m.nodes id with
      | some e => if e.serves ∧ bitOf now e.x then v + pow2 e.x else v | none => v) 0
    if (m.relaysAt r.2.1.tray left).length = r.2.2.length then none else some (mk Action.relays r.1 left))
  let back := spares.filterMap (fun r => if r.2.1.state = .draining ∧ s.emptied m r.1 then some (mk Action.toSpare r.1 0) else none)
  let root := if s.anyPps then (if m.timeRoot.isSome then [mk Action.timeRoot 0xFFFF 0] else [])
    else if m.bestRoot ≠ m.timeRoot then [mk Action.timeRoot (m.bestRoot.getD 0xFFFF) 0] else []
  relays ++ back ++ root

/-- Send a PREPARE to the keepers of the generation before; the leader accepts its own (R305, R308). -/
def State.sendPrepare (s : State) (p : Prepared) : State :=
  let p := { p with accepts := [s.map.id] }
  let s := { s with map := { s.map with prepared := some p, accepted := some p } }
  let s := (s.keepers.filter (· != s.map.id)).foldl (fun s k => s.ctl k 5 ([p.gen, p.eff] ++ changeArgs p.changes ++ byteArgs p.map.digest)) s
  s.countAccept s.map.id

/-- First count of frame f. -/
abbrev frameStart (f : Nat) : Nat := 1048576 * f

/-- Frame E of a mode change (R51). -/
def Change.modeFrame (c : Change) : Nat := c.a1 + pow2 32 * c.a2

/-- Count at which a proposal that has not been committed is refused: the end of frame P + 2, and of frame E − 2 for a mode change (R51, R308). -/
def proposalLimit (x : Change × Nat) : Nat :=
  if x.1.action = Action.mode then min (frameStart (x.2 + 3)) (frameStart (x.1.modeFrame - 1)) else frameStart (x.2 + 3)

/-- A mode change that was not committed by the end of frame E − 2 (R51). -/
def Change.lateMode (c : Change) (now : Nat) : Bool := c.action == Action.mode && decide (frameStart (c.modeFrame - 1) ≤ now)

/-- Mode changes that have come too late to be committed, of a generation prepared: their proposers are told (R51). -/
def State.dropLateModes (s : State) (cs : List Change) : State := (cs.filter (fun c => c.lateMode s.now)).foldl (fun s c => s.sendRefuse c propTimeout) s

/-- The leader refuses proposals whose time has run out, those in a generation that it has prepared and not committed too, one that a new leader found accepted among them (R51, R308). -/
def State.refuseLate (s : State) : State :=
  if !s.isLeader then s
  else
    let late := s.map.proposals.filter (fun p => decide (proposalLimit p ≤ s.now))
    let held (c : Change) : Bool := late.any (fun p => p.1.serial == c.serial && p.1.proposer == c.proposer && p.1.action == c.action)
    let gone (c : Change) : Bool := held c || c.lateMode s.now
    let other := ((s.map.prepared.map (·.changes)).getD []).filter (fun c => !held c)
    let prepared := s.map.prepared.bind (fun p =>
      let cs := p.changes.filter (fun c => !gone c)
      if cs.isEmpty then none
      else if cs = p.changes then some p
      else some { p with changes := cs, map := (s.tip.map (fun m => m.next p.eff s.map.term s.map.id cs)).getD p.map, accepts := [] })
    let s := { s with map := { s.map with proposals := s.map.proposals.filter (fun p => !late.contains p), prepared := prepared } }
    (late.foldl (fun s p => s.sendRefuse p.1 propTimeout) s).dropLateModes other

/-- Tick 0 of minute 704: the leader bundles what it holds into one PREPARE, or prepares the same generation again (R308). -/
def State.prepareMinute (s : State) : State :=
  let s := s.refuseLate
  match (if s.isLeader then s.tip else none) with
  | none => s
  | some m =>
    let eff := s.effectFrame
    match s.map.prepared with
    | some p => s.sendPrepare { p with eff := eff, map := m.next eff s.map.term s.map.id p.changes }
    | none =>
      if 3 ≤ s.map.queue.length then s
      else
        let due := (s.map.proposals.filter (fun x => decide (x.2 ≤ s.frame))).map Prod.fst
        let verdicts := s.map.verdicts.map (fun v => (⟨10, v, 0, 0, 0, s.map.id⟩ : Change))
        let r := s.settleAll (verdicts ++ due) { m with moves := [] } []
        let s := (r.2.filter (fun c => due.contains c.1)).foldl (fun s c => s.sendRefuse c.1 c.2) s
        let s := { s with map := { s.map with proposals := s.map.proposals.filter (fun x => !r.2.any (fun c => c.1 == x.1)) } }
        let mid := r.1.foldl MapData.change m
        let adm := s.admissions s.map.joins mid []
        let cs := r.1 ++ adm ++ s.ownChanges (adm.foldl MapData.change mid)
        if cs.isEmpty then s
        else s.sendPrepare ⟨m.gen + 1, eff, cs, m.next eff s.map.term s.map.id cs, []⟩

end Sys2Proof.Machine
end

