-- ==== Sys2Proof/Machine/MapAgent.lean ====
section
/-!
DEFINITION. The map agent (chapter 12): what a generation does when it takes effect, home transfers, holders, fencing and return, and the commands of the map's messages.
-/

namespace Sys2Proof.Machine

open Sys2Proof

/-! ### Home transfers and holders (R315–R317) -/

/-- An entry as it is sent to a new home: sealed pages of this node's tiers become REMOTE there, tails carry their bytes (R315). -/
def State.sentPte (s : State) (p : Pte) (l h : Nat) : Pte :=
  let q := s.entry p l h
  match q.state with
  | .tail | .reserved => { q with locs := [], moving := false }
  | .sealed | .shadowed | .spilled =>
    if q.kind = .tier0 ∨ q.kind = .tier1 then
      { q with state := .remote, kind := .holder, node := s.map.id, locs := [], pairs := [], shadow := none, moving := false }
    else { q with moving := false }
  -- the slots that a span holds for its later pages stay behind (R130)
  | .free => { q with locs := [] }
  | _ => { q with moving := false }

/-- Change every listed entry of a record. -/
def SeqRec.mapPages (r : SeqRec) (f : Nat → Nat → Pte → Pte) : SeqRec :=
  { r with layers := r.layers.zipIdx.map (fun y => { y.1 with heads := y.1.heads.zipIdx.map (fun h =>
    { h.1 with pages := (h.1.pages.map (fun p => (p.1, f y.2 h.2 p.2))).filter (fun p => p.2 != Pte.free) }) }) }

/-- The record as the new home receives it. -/
def State.sentRec (s : State) (r : SeqRec) : SeqRec := r.mapPages (fun l h p => s.sentPte p l h)

/-- A TOMBSTONE: aux names the generation, bytes 8–9 the new home; one that was SHARED still counts in its group until the clean-up (R128, R148, R316). -/
def tombstone (gen dst : Nat) (p : Pte) : Pte :=
  { Pte.free with state := .tombstone, gen := gen, node := dst, kind := if p.kind = .shared then .shared else .tier0, group := p.group }

/-- An entry as the old home keeps it: sealed pages that lie in its tiers stay; every other entry that is not FREE becomes a TOMBSTONE during the drain window, and FREE after it (Table 5.4, R315, R316). -/
def State.keptPte (s : State) (gen dst : Nat) (tomb : Bool) (l h : Nat) (p : Pte) : Pte :=
  let gone := if tomb then tombstone gen dst p else Pte.free
  match p.state with
  | .free => Pte.free
  | .tombstone => p
  | .tail | .reserved | .remote => gone
  | .sealed | .shadowed | .spilled =>
    let q := s.entry p l h
    if q.kind = .tier0 ∨ q.kind = .tier1 then { p with moving := false } else gone

/-- Groups that any entry of a sequence names, each once. -/
def SeqRec.allGroups (r : SeqRec) : List Nat :=
  (r.layers.flatMap (fun l => l.heads.flatMap (fun h => (h.pages.filter (fun p => p.2.kind == .shared && p.2.state != .free)).map (fun p => p.2.group)))).foldl setInsert []

/-- No lookup finds a sequence's old entries (R144). -/
def State.forgetSeq (s : State) (r : SeqRec) : State :=
  { s with pgw := { s.pgw with 
      tlb := s.pgw.tlb.filter (fun t => !(t.tag.tenant == r.tenant && t.tag.sid == r.sid))
      desc := s.pgw.desc.filter (fun t => !t.of r.tenant r.sid) } }

/-- Moves, promotions and shadows of a sequence end. -/
def State.dropMoves (s : State) (r : SeqRec) : State :=
  let mine (p : PageRef) : Bool := !p.grp && p.tenant == r.tenant && p.sid == r.sid
  { s with mem := { s.mem with
      moves := s.mem.moves.filter (fun m => !mine m.2.page)
      dawn := s.mem.dawn.filter (fun p => !mine p)
      backlog := s.mem.backlog.filter (fun p => !mine p) } }

/-- Send one sequence to its new home and keep what stays, by the drain window of the generation that moved it (R315, R316). -/
def State.sendSeq (s : State) (r : SeqRec) (dst gen eff : Nat) : State :=
  let s := s.emit (.transfer dst (s.sentRec r))
  let tomb := decide (s.frame ≤ eff + 3)
  let kib := r.sh.pairKiB
  let gone := r.layers.flatMap (fun l => l.heads.flatMap (fun h =>
    (h.pages.filter (fun p => p.2.state == .tail || p.2.state == .reserved || p.2.state == .free)).map Prod.snd))
  let spares := r.layers.foldl (fun n l => n + ((l.prov.map (·.spares)).getD 0) + l.rebuildSpares) 0
  let kept := { r.mapPages (fun l h p => s.keptPte gen dst tomb l h p) with home := false, homeNode := dst }
  let kept := { kept with layers := kept.layers.map (fun l => { l with prov := none, rebuildSpares := 0, heads := l.heads.map (fun h => { h with tailK := [], tailV := [], collect := [] }) }) }
  let s := if kept.layers.all (fun l => l.heads.all (fun h => h.pages.isEmpty)) then s.delSeq r.tenant r.sid else s.putSeq kept
  let s := gone.foldl (fun s p => s.freePte kib p) s
  let lost := (r.allGroups.filter (fun g => !kept.allGroups.contains g))
  let s := lost.foldl (fun s g => s.dropGroup g) s
  ((s.useSpares 0 spares).dropMoves r).forgetSeq r

/-- A request of a sequence is still at work here. -/
def State.seqBusy (s : State) (tenant sid : Nat) : Bool :=
  let of (r : Req) : Bool := r.op.homed && Msg.tenant r.msg == tenant && Msg.sid r.msg == sid
  s.sch.runs.any (fun r => of r.req) || s.sch.spareWait.any (fun r => of r.1) || s.sch.order.any (fun w => of w.req)

/-- All transfers of the generation have ended (Table 12.12). -/
def State.transfersEnd (s : State) (was : Bool) : State :=
  let s := if was ∧ s.map.outgoing.isEmpty ∧ s.map.incoming.isEmpty then s.raiseBit Reg.mapEvent 4 else s
  s.refreshMap

/-- The record that ends the transfers to a node (log 25). -/
def endMark (from_ : Nat) : SeqRec := ⟨0, 0, 0, 0, 0, 0, true, false, false, 0, from_, []⟩

/-- Send the sequences that are due, in order, each once its dispatched requests are complete (R315). -/
def State.sendTransfers (s : State) : List (Nat × Nat × Nat × Nat × Nat) → State
  | [] => s
  | x :: rest =>
    if s.seqBusy x.1 x.2.1 then s
    else
      let s := match s.findSeq x.1 x.2.1 with | some r => s.sendSeq r x.2.2.1 x.2.2.2.1 x.2.2.2.2 | none => s
      let s := { s with map := { s.map with outgoing := rest } }
      let s := if rest.any (fun y => y.2.2.1 == x.2.2.1) then s else s.emit (.transfer x.2.2.1 (endMark s.map.id))
      s.sendTransfers rest

/-- The transfer work of a minute. -/
def State.transferMinute (s : State) : State :=
  if s.map.outgoing.isEmpty ∨ s.fenced then s else (s.sendTransfers s.map.outgoing).transfersEnd true

/-- Place a page's bytes in tier 0, by its class's layout as it is now (R130); none where its slice has no room there. -/
def State.placeTier0 (s : State) (r : SeqRec) (ref : PageRef) (p : Pte) : Option State :=
  let e := s.enter
  let s := e.2
  match (if s.overBare (s.sliceOf r.cls) then none else s.pick0 r ref.layer ref.head ref.page (s.gatherNow r.cls) false s.alloc []) with
  | some (ws, a) =>
    some (({ s with pgw := { s.pgw with allocs := a.serial } }).setPageAt ref { p with node := 0, handle := 0, entered := e.1, kind := .tier0, locs := ws.take 4 })
  | none => none

/-- Place a page that comes to this node in tier 0, else within its slice's share of tier 1 (R302); none where neither has room. -/
def State.placePage (s : State) (r : SeqRec) (ref : PageRef) (p : Pte) (open_ : Bool) : Option State :=
  match s.placeTier0 r ref p with
  | some s => some s
  | none =>
    let e := s.enter
    let s := e.2
    if !s.roomT1 (s.sliceOf r.cls) r.sh.pairKiB then none
    else match s.alloc.pick1 r.sh.pairKiB with
    | some (o, a) =>
      some (({ s with pgw := { s.pgw with allocs := a.serial } }).setPageAt ref
        { p with node := 0, handle := 0, entered := e.1, kind := .tier1, locs := [o], state := if open_ then p.state else .spilled })
    | none => none

/-- Pages a record lists. -/
def SeqRec.listed (r : SeqRec) : List (PageRef × Pte) :=
  r.layers.zipIdx.flatMap (fun y => y.1.heads.zipIdx.flatMap (fun h => h.1.pages.map (fun p =>
    ((⟨false, r.tenant, r.sid, y.2, h.2, p.1⟩ : PageRef), p.2))))

/-- A sequence arrives at its new home: its tails get slots here (R315; log 47). -/
def State.takeHome (s : State) (r : SeqRec) : State :=
  match (s.findSeq r.tenant r.sid).map (fun x => (x.bucket, x.slot)) |>.orElse (fun _ => s.freeSeqSlot r.tenant r.sid) with
  | none => s.raiseBit Reg.pgwEvent 2
  | some b =>
    let s := s.putSeq { r with bucket := b.1, slot := b.2, home := true, homeNode := s.map.id }
    let tails := r.listed.filter (fun p => p.2.state == .tail || p.2.state == .reserved)
    let spares := r.layers.foldl (fun n l => n + ((l.prov.map (·.spares)).getD 0) + l.rebuildSpares) 0
    (tails.foldl (fun s p => (s.placePage r p.1 p.2 true).getD s) s).useSpares spares 0

/-- A holder returns a page: it is read as any move reads it, a tier-0 page through R161, a tier-1 page under that tier's code (R161, R179, R317). -/
def State.giveBack (s : State) (home : Nat) (ref : PageRef) (p : Pte) : State :=
  let s := (s.startMove (.back home) ref [] [] home).2
  if p.kind = .tier0 then s.readPage ref p.locs else s

/-- Where the home keeps the page that a holder knows by a sequence: its own entry, or the shared record that the entry became (R128, R148). -/
def State.homeRef (s : State) (ref : PageRef) : PageRef :=
  if (s.pageAt ref).kind != .shared ∧ (s.pageAt ref).state = .remote then ref
  else match s.pgw.groups.find? (fun g => g.2.tenant == ref.tenant && g.2.page == ref.page &&
      (g.2.pte ref.layer ref.head).state == .remote && (g.2.pte ref.layer ref.head).handle == ref.sid) with
    | some g => ⟨true, g.1, 0, ref.layer, ref.head, ref.page⟩
    | none => ref

/-- Pages come back from a holder: REMOTE becomes SEALED or SHADOWED in tier 0 (Table 5.4), and the holder is told which copies to free; where tier 0 lacks room for one of them, all stay with their holder (R317; log 25). -/
def State.takeBack (s : State) (src : Nat) (r : SeqRec) : State :=
  let back := r.listed.map (fun p => (s.homeRef p.1, p))
  let want := back.filter (fun x => (s.pageAt x.1).state == .remote && (s.pageAt x.1).node == src)
  let t := want.foldl (fun (t : Option State) x =>
    match t, s.refOwner x.1 with
    | some t, some q =>
      let mine := s.pageAt x.1
      if !pairsOk mine x.2.2.pairs then none
      else t.placeTier0 q x.1 { mine with state := if mine.shadow.isSome then .shadowed else .sealed, moving := false, pairs := x.2.2.pairs }
    | _, _ => none) (some s)
  let answer (st : PageState) : SeqRec := r.these (r.listed.map (fun p => (p.1, { Pte.free with state := st }))) src
  match t with
  | some t => t.emit (.transfer src (answer .free))
  | none => (want.foldl (fun s x => s.setPageAt x.1 { s.pageAt x.1 with moving := false }) s).emit (.transfer src (answer .tombstone))

/-- Pages of a held record arrive: kept for their home, brought back to it, asked for, or given free (R317; log 25). -/
def State.takeHeld (s : State) (src : Nat) (r : SeqRec) : State :=
  let s := if (s.findSeq r.tenant r.sid).isSome ∨ r.homeNode = s.map.id then s
    else match s.freeSeqSlot r.tenant r.sid with
      | none => s
      | some b => s.putSeq { r.mapPages (fun _ _ _ => Pte.free) with bucket := b.1, slot := b.2 }
  if r.homeNode = s.map.id then s.takeBack src r
  else r.listed.foldl (fun s p =>
    match s.findSeq r.tenant r.sid with
    | none => s
    | some q =>
      let mine := s.pageAt p.1
      match p.2.state with
      -- the home asks for its page back
      | .remote => if q.home ∨ mine.state = .free ∨ mine.moving then s else s.giveBack src p.1 mine
      -- it has taken the page, or cannot
      | .free => if q.home ∨ !mine.moving then s else (s.setPageAt p.1 Pte.free).freePte q.sh.pairKiB mine
      | .tombstone => if q.home then s else s.setPageAt p.1 { mine with moving := false }
      | _ => if pairsOk p.2 p.2.pairs then (s.placePage q p.1 p.2 false).getD s else s) s

/-- Member of the same slice with free bare memory above bare_high by its latest HELLO (R317). -/
def State.holderFor (s : State) (sl : Nat) : Option Nat :=
  let high := s.fld Reg.memDuskCfg 15 8
  match s.map.cur with
  | none => none
  | some m => (m.membersOf.find? (fun p => p.1 != s.map.id && (m.serving p.1 sl).isSome &&
      ((tabGet s.map.hellos p.1).map (fun h => decide (high < h.2.1))).getD false)).map Prod.fst

/-- An aligned block of 16 spans of a layer whose pages are all sealed here in tier 0 (R317). -/
def State.blockReady (s : State) (r : SeqRec) (l b : Nat) : Bool :=
  decide (16384 * (b + 1) ≤ (r.layer l).len) &&
  (r.spanRefs l (16 * b) 16).all (fun ref =>
    let p := s.pageAt ref
    !ref.grp && (p.state == .sealed || p.state == .shadowed) && p.kind == .tier0 && !p.moving)

/-- A home short of bare memory places one block on a holder in a MIGRATE minute (R317), never of an isolated class (R366). -/
def State.holderMinute (s : State) : State :=
  if !s.mem.bareShort ∨ s.owner ≠ Owner.migrate ∨ s.fenced then s
  else
    let cands := (s.pgw.seqs.filter (fun r => r.home && r.tomb.isNone && !s.isolated r.cls)).flatMap (fun r =>
      r.layers.zipIdx.flatMap (fun y => (List.range (y.1.len / 16384)).filterMap (fun b =>
        if s.blockReady r y.2 b then (s.holderFor (s.sliceOf r.cls)).map (fun n => (r, y.2, b, n)) else none)))
    match cands with
    | [] => s
    | (r, l, b, n) :: _ => (r.spanRefs l (16 * b) 16).foldl (fun s ref =>
        (s.startMove (.holder n) ref [] [] n).2.readPage ref (s.pageAt ref).locs) s

/-- A holder that is DRAINING or short of bare memory returns what it holds (R317). -/
def State.returnMinute (s : State) : State :=
  let low := decide (s.freeBare < part256 (s.fld Reg.memDuskCfg 7 0) s.bareKiB)
  if s.fenced ∨ !(low || s.map.nodeState == .draining) then s
  else
    (s.pgw.seqs.filter (fun r => !r.home && !r.ghost && r.homeNode != s.map.id)).foldl (fun s r =>
      ((r.listed.filter (fun p => (p.2.state == .sealed || p.2.state == .shadowed || p.2.state == .spilled) && !p.2.moving && p.2.pairs.length == 4)).foldl (fun s p =>
        s.giveBack r.homeNode p.1 p.2) s)) s

/-! ### Pool slices (R194, R304) -/

/-- GiB in KiB. -/
abbrev gib : Nat := 1048576

/-- Register the slices the map lends from this node, and end those it lends no more (R304). -/
def State.lendTable (s : State) (m : MapData) : State :=
  let mine := m.pools.filter (fun p => p.2.donor == s.map.id || p.2.mirror == s.map.id)
  let s := s.que.regions.foldl (fun s r =>
    if r.2.valid ∧ r.2.part = 4095 ∧ !mine.any (fun p => p.2.key % 65536 == r.1 && p.2.key / 65536 == r.2.gen) then
      let open_ := (s.sch.forwarded.filter (fun q => Remote.key q.msg % 65536 == r.1 && Remote.key q.msg / 65536 == r.2.gen && s.que.ops.any (fun o => o.2.kind == .mirror q.rid))).map
        (fun q => (q.rid, (r.2.base / 1024, r.2.length / 1024)))
      { s with que := { s.que with regions := tabPut s.que.regions r.1 { r.2 with valid := false, gen := min 65535 (r.2.gen + 1) }
                                   closing := s.que.closing.filter (fun c => s.sch.forwarded.any (fun r => r.rid == c.1)) ++ open_ } }
    else s) s
  mine.foldl (fun s p =>
    let i := p.2.key % 65536
    if (tabGet s.que.regions i).any (fun r => r.valid || decide (p.2.key / 65536 < r.gen) || r.gen == 65535) then s
    else
      match fitIn s.slots1 tier1Lo (tier1Lo + tier1KiB) (gib * p.2.size) tier1Lo with
      | none => s
      | some o =>
        let mirror := if p.2.donor = s.map.id then p.2.mirror else 0xFFFF
        { s with que := { s.que with regions := tabPut s.que.regions i ⟨1024 * o, 4095, 1024 * gib * p.2.size, p.2.key / 65536, 7, true, mirror⟩ } }) s

/-- One page that a dead donor held: its other donor is asked and a new mirror pair written later; with no other copy it is lost. Where tier 1 has no room for the fetch it is tried again at a minute (R192, R194). -/
def State.donorLost (s : State) (dead : List Nat) (ref : PageRef) (p : Pte) : State :=
  let moveOf (s : State) : Option (Nat × Move) := s.mem.moves.find? (fun m => decide (m.2.page = ref))
  let act (s : State) (m : Nat × Move) : State :=
    if dead.contains m.2.donor then s.tier2Fail m.1
    else { s with mem := { s.mem with moves := tabPut s.mem.moves m.1 { m.2 with retried := true } } }
  match moveOf s with
  | some m => act s m
  | none =>
    match s.fetchPage ref with
    | some s' => (match moveOf s' with | some m => act s' m | none => s')
    | none => if (s.otherDonor p p.node).isSome then s else (s.raiseBit Reg.memEvent 2).markLost ref

/-- Pages held on donors now dead are fetched from the mirror or lost, without waiting to be needed (R194). -/
def State.poolLost (s : State) (dead : List Nat) : State :=
  let lost (p : Pte) : Bool := p.kind == .pool && (dead.contains p.node || ((s.otherDonor p p.node).map dead.contains).getD false)
  let on := s.allPages.filter (fun p => lost p.2)
  if on.isEmpty then s else (on.foldl (fun s p => s.donorLost dead p.1 p.2) (s.raiseBit Reg.memEvent 7)).sweepLost

/-- Pages at holders now dead: RECOMPUTE pages are lost, SHADOWED pages become SPILLED at their shadow (R317). -/
def State.holdersLost (s : State) (dead : List Nat) : State :=
  ((s.allPages.filter (fun p => p.2.kind == .holder && p.2.state == .remote && dead.contains p.2.node)).foldl (fun s p =>
    match p.2.shadow with
    | some sh => s.setPageAt p.1 { p.2 with state := .spilled, kind := .tier1, node := 0, locs := [sh.1], pairs := sh.2, shadow := none }
    | none => s.markLost p.1) s).sweepLost

/-- A borrower's minute: pages come back from DRAINING donors (R304), LEND is proposed when tier 1 runs low. -/
def State.lendMinute (s : State) : State :=
  match (if s.fenced then none else s.map.cur) with
  | none => s
  | some m =>
    let draining (id : Nat) : Bool := (tabGet m.nodes id).any (fun e => e.state == .draining)
    let s := (s.allPages.filter (fun p => p.2.kind == .pool && p.2.state == .spilled &&
        (draining p.2.node || ((s.otherDonor p.2 p.2.node).map draining).getD false))).foldl
      (fun s p => (s.fetchPage p.1).getD s) s
    let low := decide (s.freeTier1 < part256 (s.fld Reg.memDuskCfg 23 16) s.totalTier1)
    let cls := (List.range 24).find? (fun c => s.poolOk c && (s.memb (s.sliceOf c)).isSome)
    match cls with
    | some c =>
      if low ∧ s.map.nodeState = .member ∧ s.map.lendFrame ≠ some s.frame then
        ({ s with map := { s.map with lendFrame := some s.frame } }.propose Action.lend (s.sliceOf c) (b2n (s.bit (Reg.memClassCfg + 4 * c) 0)) 0).1
      else s
    | none => s

/-- Empty slices are returned: from a DRAINING donor, or when tier 1 is not short (R304; log 45). -/
def State.reclaimMidnight (s : State) : State :=
  match (if s.fenced then none else s.map.cur) with
  | none => s
  | some m =>
    let low := decide (s.freeTier1 < part256 (s.fld Reg.memDuskCfg 31 24) s.totalTier1)
    (m.pools.filter (fun p => p.2.borrower == s.map.id && (s.poolRuns p.2.key).isEmpty &&
      (!low || [p.2.donor, p.2.mirror].any (fun d => (tabGet m.nodes d).any (fun e => e.state == .draining))))).foldl (fun s p => (s.propose Action.reclaim p.1 0 0).1) s

/-! ### Fencing and coming back (R38, R39, R319, R320) -/

/-- Run in NIGHT with no map (R54). -/
def State.runNight (s : State) : State :=
  let s := s.setLive Reg.timeModeStatus (putBits (s.live Reg.timeModeStatus) 4 0 3)
  s.setLive Reg.timeDialStatus (putBits (s.live Reg.timeDialStatus) 1 0 3)

/-- Discard every sequence, page, held record and pool slice; verified programs and weights stay, in the versions now active (R216, R319). -/
def State.discardTenants (s : State) : State :=
  State.dropStale { s with
    pgw := { s.pgw with seqs := [], groups := [], sparesUsed := 0, tlb := [], desc := [], places := s.pgw.places.filter (fun p => p.1.1.ofWeights.isSome) }
    mat := { s.mat with keys := [] }
    mem := { s.mem with moves := [], olds := [], dawn := [], backlog := [] }
    sch := { s.sch with runs := [], held := [], spareWait := [], order := [], forwarded := [] }
    vsp := { s.vsp with units := s.vsp.units.map (fun u => (u.1, { u.2 with plan := [], normal := [], urgentQ := [], cur := none, curU := none, stopped := false, preempted := false, returns := [] })) }
    que := { s.que with ops := [], later := [], regions := s.que.regions.map (fun r =>
      if r.2.part = 4095 ∧ r.2.valid then (r.1, { r.2 with valid := false, gen := min 65535 (r.2.gen + 1) }) else r) }
    prog := { s.prog with current := [], parked := [], cores := [] }
    hlt := { s.hlt with evReserved := 0 } }

/-- Every link that is not down trains anew: its keys are gone (R320, R359). -/
def State.retrainAll (s : State) : State :=
  (s.lnk.links.filter (fun l => l.2.state != LState.down && l.2.state != LState.detect)).foldl (fun s l => s.setLinkState l.1 LState.detect) s

/-- Come back as a candidate: its links train anew, and the first that is UP carries its JOIN (R319, R320). -/
def State.becomeCandidate (s : State) : State :=
  let s := s.discardTenants
  let s := { s with
    map := { s.map with id := 0x7FF, nodeState := .candidate, fenced := false, unfence := false, rejoin := false, cur := none, prev := none
                        queue := [], leaseFrame := none, fetching := none, accepted := none, prepared := none, proposals := []
                        election := none, votes := [], outgoing := [], incoming := [], moving := [], seen := [], suspects := [], verdicts := [], joins := [] }
    lnk := { s.lnk with routes := [] } }
  s.retrainAll.runNight.refreshLnkStatus.refreshMap

/-- A stand-in that goes back to SPARE keeps its ID and holds no map and no tenant state; it runs in NIGHT (R321, R323). -/
def State.backToSpare (s : State) : State :=
  let s := { s.discardTenants with
    map := { s.map with cur := none, prev := none, queue := [], fetching := none, accepted := none, prepared := none, proposals := [], election := none
                        votes := [], outgoing := [], incoming := [], moving := [], seen := [], suspects := [], verdicts := [], joins := [] }
    lnk := { s.lnk with routes := [] } }
  s.runNight

/-- Fence for time: the node must come back as a candidate (R36, R38, R39). -/
def State.fenceForTime (s : State) : State :=
  let s := s.fenceSelf
  { s with map := { s.map with rejoin := true } }

/-! ### Effect of a generation (R312) -/

/-- Nodes in a state in the new map that were serving before. -/
def gone (old : Option MapData) (new : MapData) (st : NodeState) : List Nat :=
  (new.nodes.filter (fun p => p.2.state == st && !((old.bind (fun m => tabGet m.nodes p.1)).any (fun e => e.state == st)))).map Prod.fst

/-- This node's ID in a map: the one whose entry holds its identity (R300, R320). -/
def State.idIn (s : State) (m : MapData) : Nat :=
  match tabGet m.nodes s.map.id with
  | some _ => s.map.id
  | none => ((m.nodes.find? (fun p => p.2.ident == s.myIdent && (p.2.serves || p.2.state == .spare || p.2.state == .candidate))).map Prod.fst).getD s.map.id

/-- Keys of a generation on a link, beside those of the one before it; a dead or removed partner is fenced (R247, R312, R359). -/
def Link.onGeneration (l : Link) (out : List Nat) (g : Nat) : Link :=
  if out.contains l.partnerId then l.cutOff
  else if l.keyed.isEmpty then l
  else { l with keyed := [g, g - 1] }

/-- A partner that had no ID when the link trained takes the one that the map gives its identity (R300, R320). -/
def Link.nameFrom (l : Link) (m : MapData) : Link :=
  if l.partnerId ≠ 0x7FF ∨ l.state = LState.down then l
  else match m.nodes.find? (fun p => p.2.ident == l.partnerIdent && (p.2.serves || p.2.state == .spare)) with
    | some p => { l with partnerId := p.1, lastPartner := p.1 }
    | none => l

/-- Change every link. -/
def State.mapLinks (s : State) (f : Link → Link) : State :=
  { s with lnk := { s.lnk with links := s.lnk.links.map (fun (l : Nat × Link) => (l.1, f l.2)) } }

/-- A map change ends MISWIRED: the link trains again and is compared with the new map (Table 10.2). -/
def State.leaveMiswired (s : State) : State :=
  (s.lnk.links.filter (fun l => l.2.state == LState.miswired)).foldl (fun s l => s.setLinkState l.1 LState.detect) s

/-- Stand-ins of a map. -/
def MapData.standIns (m : MapData) : List Nat := (m.nodes.filter (fun p => p.2.standIn)).map Prod.fst

/-- The Midnight that begins E_g. -/
def State.takeEffect (s : State) (m : MapData) : State :=
  let old := s.map.cur
  let dead := gone old m .dead
  let out := dead ++ gone old m .retired
  let id := s.idIn m
  let moves := m.moves.filter (fun x => !x.2.2.2 && x.2.1 == id)
  let target (r : SeqRec) : Option Nat := (moves.find? (fun x => r.home && s.homeSlot r.tenant r.sid r.cls == x.1)).map (fun x => x.2.2.1)
  let living := m.moves.filter (fun x => !x.2.2.2)
  -- transfers of earlier generations that still run go on beside the new ones (R315)
  let outgoing := s.map.outgoing ++ (s.pgw.seqs.filterMap (fun r => (target r).map (fun d => (r.tenant, r.sid, d, m.gen, m.eff)))).filter (fun x =>
    !s.map.outgoing.any (fun y => y.1 == x.1 && y.2.1 == x.2.1))
  let incoming := ((m.moves.filter (fun x => x.2.2.1 == id)).map Prod.fst).foldl setInsert s.map.incoming
  let quiet := (moves.map (fun x => x.2.2.1)).dedup.filter (fun d => !outgoing.any (fun o => o.2.2.1 == d))
  let st := ((tabGet m.nodes id).map (·.state)).getD s.map.nodeState
  let s := { s with
    map := { s.map with cur := some m, prev := old, effFrame := m.eff, id := id, nodeState := st, queue := s.map.queue.filter (fun q => decide (m.gen < q.gen))
                        term := max s.map.term m.term, leader := if s.map.term ≤ m.term then m.leader else s.map.leader
                        outgoing := outgoing, incoming := incoming
                        moving := living.foldl (fun (l : List (Nat × Nat × Nat)) (x : Nat × Nat × Nat × Bool) => tabPut l x.1 (x.2.1, x.2.2.1)) s.map.moving, freed := s.map.freed ++ out.map (fun n => (n, s.frame)) }
    lnk := { s.lnk with routes := m.table id } }
  let s := s.mapLinks (fun l => (l.onGeneration out m.gen).nameFrom m)
  let s := (dead.foldl (fun s n => s.fencePeer n true) s).systemPeers m old
  let s := quiet.foldl (fun s d => s.emit (.transfer d (endMark s.map.id))) s
  let s := s.raiseBit Reg.mapEvent 0
  let s := if dead.isEmpty then s else s.raiseBit Reg.mapEvent 2
  let s := if m.standIns = (old.map MapData.standIns).getD [] then s else s.raiseBit Reg.mapEvent 3
  let s := ((s.lendTable m).poolLost dead).holdersLost dead
  let s := if st = .dead then ({ s.fenceSelf with map := { s.fenceSelf.map with rejoin := true } }) else s
  let s := if st = .spare then s.backToSpare else s
  (s.transfersEnd false).leaveMiswired.refreshLnkStatus

/-- The keys of every generation but the current one are erased at the end of the drain window, a node's first map included (R247, R359). -/
def State.dropOldKeys (s : State) : State := s.mapLinks (fun l => { l with keyed := l.keyed.filter (· == s.gen) })

/-- Tombstones become FREE and the keys of g − 1 go at the end of the drain window (R128, R316, R359). -/
def State.endDrain (s : State) : State :=
  let clean (r : SeqRec) : SeqRec := r.mapPages (fun _ _ p => if p.state = .tombstone then Pte.free else p)
  let tombed := s.pgw.seqs.filter (fun r => r.tomb.isSome)
  -- the groups that only tombstones still named (R148)
  let gone := tombed.flatMap (fun r => r.allGroups.filter (fun g => !(clean r).allGroups.contains g))
  let keep := (s.pgw.seqs.map clean).filter (fun r => r.home || r.ghost || r.layers.any (fun l => l.heads.any (fun h => !h.pages.isEmpty)))
  let s := State.settlePlaces { s with map := { s.map with prev := none }, pgw := { s.pgw with seqs := keep } }
  (gone.foldl (fun s g => s.dropGroup g) (tombed.foldl (fun s r => s.forgetSeq r) s)).dropOldKeys

/-- A Midnight without a lease for the frame that ended (R311). -/
def State.leaseCheck (s : State) : State :=
  let serving := s.map.nodeState == .member || s.map.nodeState == .draining
  let missed := s.map.cur.isSome && serving && decide (s.map.effFrame + 1 ≤ s.frame) && s.map.leaseFrame != some (s.frame - 1)
  let s := if missed ∧ !s.fenced then (s.raiseBit Reg.mapEvent 7).fenceSelf else s
  s.setStatus Reg.mapStatus 6 6 0

/-- A fenced node whose map names it unfences, its state intact; one that must rejoin becomes a candidate (R319). Neither happens before time is reacquired (R38, R39), or in FAILED (R331). -/
def State.unfenceCheck (s : State) : State :=
  if !s.time.acquired ∨ s.inTwilight ∨ s.hlt.health = 2 then s
  else if s.map.rejoin then s.becomeCandidate
  else if s.fenced ∧ s.map.unfence ∧ !s.hlt.replay then
    let s := ({ s with map := { s.map with fenced := false, unfence := false, leaseFrame := some (s.frame - 1) } }).refreshMap
    match s.map.cur with | some m => s.systemPeers m s.map.cur | none => s
  else s

/-- The map agent's Midnight. -/
def State.mapMidnight (s : State) : State :=
  let s := s.leaseCheck
  -- the key of a generation adopted at an earlier Midnight is used from here on (R247)
  let s := s.mapLinks (fun l => { l with sendGen := if s.map.cur.isSome ∧ l.keyed.contains s.gen then s.gen else l.sendGen })
  -- the drain window of g ends before g + 1 can take effect (R309, R316)
  let s := if s.map.cur.isSome ∧ s.map.effFrame + 4 ≤ s.frame then (if s.map.prev.isSome then s.endDrain else s.dropOldKeys) else s
  let s := (s.map.queue.filter (fun m => decide (m.eff ≤ s.frame))).foldl State.takeEffect s
  let s := if s.map.cur.isSome ∧ s.frame = s.map.effFrame + 1 then
      let dead := ((s.map.cur.map (fun m => m.moves.filter (fun x => x.2.2.2))).getD []).map Prod.fst
      let s := { s with map := { s.map with incoming := s.map.incoming.filter (fun x => !dead.contains x) } }
      s.transfersEnd (!dead.isEmpty)
    else s
  let s := if s.map.cur.isSome ∧ s.gen < s.map.seenEff ∧ !s.fenced then s.fenceSelf else s
  (s.dropSystem.unfenceCheck.reclaimMidnight).refreshMap

/-! ### What the agent sends at a minute -/

/-- A node can be reached: its next hop has a link UP. -/
def State.reachable (s : State) (id : Nat) : Bool :=
  id == s.map.id ||
  (let e := s.routeEnt id
   let via := if bitOf e 9 then bitsOf e 20 10 else 0xFFFF
   match s.nextHop none ⟨id, s.map.id, via, 4, b2n (bitOf e 8), 0, [], []⟩ with
   | (.out code x, _) => (s.upFrom (dirLinks code x) 0).isSome
   | (.consume, _) => true
   | _ => false)

/-- HELLO to every partner (Table 12.4); the links of a SPARE carry none (R321). -/
def State.sendHello (s : State) : State :=
  if s.map.nodeState = .spare then s
  else
  let tip := (s.tip.map (·.gen)).getD 0
  let digest := match s.map.cur with | some m => field m.digest 0 2 | none => 0
  let bare := if s.bareKiB = 0 then 0 else 256 * s.freeBare / s.bareKiB
  let t1 := if s.totalTier1 = 0 then 0 else 256 * s.freeTier1 / s.totalTier1
  s.ctl partners 1 [s.gen, tip, digest, s.map.nodeState.code, bare, t1, s.live Reg.timeStatus % 32, b2n ((rangeFrom 56 4).any (fun n => s.linkUp n))]

/-- LEASE to each member without a verdict, where a majority of keepers can be reached (R311). -/
def State.sendLease (s : State) : State :=
  match (if s.isLeader then s.map.cur else none) with
  | none => s
  | some m =>
    if !s.majority (s.keepers.filter s.reachable).length then s
    else
      let out := (s.map.prepared.map (fun p => p.changes.filterMap (fun c => if c.action = 10 then some c.a0 else none))).getD []
      let later := s.map.queue.flatMap (fun q => (q.nodes.filter (fun p => p.2.state == .dead)).map Prod.fst)
      let s := (m.nodes.filter (fun p => p.2.serves && p.1 != s.map.id && !out.contains p.1 && !later.contains p.1)).foldl
        (fun s p => s.ctl p.1 2 [s.frame, s.gen]) s
      ({ s with map := { s.map with leased := some s.frame, leaseFrame := some s.frame } }).setStatus Reg.mapStatus 6 6 1

/-- HEARTBEAT to each keeper (R307). -/
def State.sendHeartbeat (s : State) : State :=
  if !s.isLeader then s
  else (s.keepers.filter (· != s.map.id)).foldl (fun s k => s.ctl k 3 [(s.tip.map (·.gen)).getD 0]) s

/-- Every link partner of a torus or express link fences this node by epoch (R319). -/
def State.partnersFence (s : State) : Bool :=
  let up := s.lnk.links.filter (fun l => decide (l.1 < 56) && l.2.state == LState.up)
  !up.isEmpty && up.all (fun l => l.2.fenced)

/-- The map agent's work at tick 0 of a minute. -/
def State.mapMinute (s : State) : State :=
  let m := s.minute
  let s := if m % 16 = 0 then s.sendHello.sendHeartbeat else s
  let s := if m = 512 then s.sendLease else s
  let s := if m = 704 then s.prepareMinute else s
  let s := if s.map.cur.isSome ∧ !s.fenced ∧ s.partnersFence then s.fenceSelf else s
  ((s.transferMinute.lendMinute).holderMinute).returnMinute

end Sys2Proof.Machine
end

