-- ==== Sys2Proof/Machine/Steps.lean ====
section
/-!
DEFINITION. The steps of hub programs (R208–R211, R235, R239): one definition per row of Table 8.5.
A step command names a core and the step word the core executes; it has its effect when that word is the core's next one in a segment under way (log 4).
-/

namespace Sys2Proof.Machine

open Sys2Proof

/-- Carry out a core's step: f gives the context the step leaves. -/
def State.stepCore (s : State) (core w : Nat) (f : CoreAt → CoreCtx) : State :=
  match s.coreAt core w with
  | none => s
  | some a => s.putCore core (f a).next

/-- A step that writes BF16 elements to dst. -/
def State.stepElems (s : State) (core w : Nat) (f : CoreAt → List Nat) : State :=
  s.stepCore core w (fun a => a.ctx.write (StepWord.dst w) (elemBytes (f a)))

/-- An element-wise step on src_a and src_b. -/
def State.stepPair (s : State) (core w : Nat) (f : Fr → Fr → Fr) : State :=
  s.stepElems core w (fun a =>
    ((a.ctx.elems (StepWord.srcA w) (StepWord.e w)).zip (a.ctx.elems (StepWord.srcB w) (StepWord.e w))).map
      (fun p => bf16Round (f (bf16Val p.1) (bf16Val p.2))))

/-- FUNC with a code (Table 8.5). -/
def State.stepFunc (s : State) (core w code : Nat) : State :=
  if StepWord.k w ≠ code then s
  else s.stepElems core w (fun a => (a.ctx.elems (StepWord.srcA w) (StepWord.e w)).map (funcBf16 code))

/-- IN: the core's share of the input, from src_a on, to dst (log 41). -/
def execStepIn (core w : Nat) (s : State) : Host.Outcome State Fault Refusal :=
  .next (if StepWord.op w ≠ 0x01 then s
    else s.stepCore core w (fun a => a.ctx.write (StepWord.dst w) (slice a.run.input (StepWord.srcA w) (StepWord.ioBytes w))))

/-- Put bytes into an output. -/
def putOutput (out : List Byte) (off : Nat) (bs : List Byte) : List Byte :=
  ((out.take off ++ bs) ++ out.drop (off + bs.length)).take out.length

/-- OUT: dst to the output, from src_a on (log 41). -/
def execStepOut (core w : Nat) (s : State) : Host.Outcome State Fault Refusal :=
  .next (if StepWord.op w ≠ 0x02 then s
    else match s.coreAt core w with
      | none => s
      | some a =>
        let out := putOutput a.run.output (StepWord.srcA w) (a.ctx.read (StepWord.dst w) (StepWord.ioBytes w))
        (s.putProg a.group { a.run with output := out }).putCore core a.ctx.next)

/-! ### MATMUL (R210) -/

/-- Signed value of an INT8 byte. -/
def int8 (b : Byte) : Int := b.toInt

/-- Operands of a MATMUL: the resident matrix by rows, the scale codes of its columns, its bias (log 41). -/
def matWeights (w : Nat) (a : CoreAt) : (Nat → Nat → Fr) × (Nat → Fr) × (Nat → Fr) :=
  let k := StepWord.k w
  let n := StepWord.n w
  let size := if StepWord.fmt w = 2 then 2 * k * n else k * n
  let bs := a.resident (StepWord.srcB w) (size + (if StepWord.fmt w = 2 then 0 else n) + (if StepWord.bias w then 2 * n else 0))
  let elem (i j : Nat) : Fr :=
    if StepWord.fmt w = 2 then bf16Val (field bs (2 * (n * i + j)) 2)
    else if StepWord.fmt w = 1 then Fr.shift (Fr.ofInt (e4m3Val512 (byteAt bs (n * i + j)))) (-9)
    else Fr.ofInt (int8 (bs.getD (n * i + j) 0))
  let scale (j : Nat) : Fr := scaleVal (byteAt bs (size + j))
  let bOff := size + (if StepWord.fmt w = 2 then 0 else n)
  let bias (j : Nat) : Fr := if StepWord.bias w then bf16Val (field bs (bOff + 2 * j) 2) else ⟨0, 1⟩
  (elem, scale, bias)

/-- One row of the product: the activations x, as values, of scale sx. -/
def matRow (w : Nat) (ws : (Nat → Nat → Fr) × (Nat → Fr) × (Nat → Fr)) (sx : Fr) (x : List Fr) : List Nat :=
  (List.range (StepWord.n w)).map (fun j =>
    let sum := (x.zipIdx).foldl (fun (acc : Fr) p => acc.add (p.1.mul (ws.1 p.2 j))) ⟨0, 1⟩
    let v := if StepWord.fmt w = 2 then sum else (sx.mul (ws.2.1 j)).mul sum
    bf16Round (v.add (ws.2.2 j)))

/-- The scale code of the quantised tensor that holds a byte of a core's buffers (R211). -/
def CoreCtx.scaleAt (x : CoreCtx) (at_ : Nat) : Option Nat :=
  (x.scales.find? (fun q => decide (q.1 ≤ at_ ∧ at_ < q.1 + q.2.1))).map (fun q => q.2.2)

/-- A quantised tensor has been written: its scale, in place of those of tensors it overwrites (R211). -/
def CoreCtx.putScale (x : CoreCtx) (at_ len code : Nat) : CoreCtx :=
  { x with scales := (at_, (len, code)) :: x.scales.filter (fun q => decide (q.1 + q.2.1 ≤ at_ ∨ at_ + len ≤ q.1)) }

/-- The product of a MATMUL; sx gives the scale code of the activations that start at a byte. -/
def matProduct (w : Nat) (a : CoreAt) (sx : Nat → Nat) : List Nat :=
  let k := StepWord.k w
  let m := StepWord.m w
  let rows : List (List Fr) :=
    if StepWord.fmt w = 2 then (rowsOfList k (a.ctx.elems (StepWord.srcA w) (m * k))).map (fun r => r.map bf16Val)
    else (List.range m).map (fun i => (a.ctx.read (StepWord.srcA w + k * i) k).map (fun b => Fr.ofInt (int8 b)))
  rows.zipIdx.flatMap (fun r => matRow w (matWeights w a) (scaleVal (sx (StepWord.srcA w + k * r.2))) r.1)

/-- MATMUL: activations by a resident weight matrix; activations no QUANT step has scaled have a free scale (log 41). -/
def execMatmul (core w : Nat) (s : State) : Host.Outcome State Fault Refusal :=
  .next (if StepWord.op w ≠ 0x03 then s
    else match s.coreAt core w with
      | none => s
      | some a =>
        let f := s.fresh
        let sx (at_ : Nat) : Nat := (a.ctx.scaleAt at_).getD (Config.choice f.1 256 % 256)
        f.2.putCore core (a.ctx.write (StepWord.dst w) (elemBytes (matProduct w a sx))).next)

/-- ADD. -/
def execAdd (core w : Nat) (s : State) : Host.Outcome State Fault Refusal :=
  .next (if StepWord.op w ≠ 0x04 then s else s.stepPair core w Fr.add)

/-- MUL. -/
def execMul (core w : Nat) (s : State) : Host.Outcome State Fault Refusal :=
  .next (if StepWord.op w ≠ 0x05 then s else s.stepPair core w Fr.mul)

/-- RMSNORM: gains and ε beside them in the resident weights (log 41). -/
def execRmsnorm (core w : Nat) (s : State) : Host.Outcome State Fault Refusal :=
  .next (if StepWord.op w ≠ 0x06 then s
    else s.stepElems core w (fun a =>
      let n := StepWord.row w
      let g := elemsOf (n + 1) (a.resident (StepWord.srcB w) (2 * n + 2))
      (rowsOfList n (a.ctx.elems (StepWord.srcA w) (StepWord.e w))).flatMap (fun x => rmsNorm x (g.take n) (g.getD n 0))))

/-- LAYERNORM: gains, offsets and ε in that order in the resident weights (log 41). -/
def execLayernorm (core w : Nat) (s : State) : Host.Outcome State Fault Refusal :=
  .next (if StepWord.op w ≠ 0x07 then s
    else s.stepElems core w (fun a =>
      let n := StepWord.row w
      let g := elemsOf (2 * n + 1) (a.resident (StepWord.srcB w) (4 * n + 2))
      (rowsOfList n (a.ctx.elems (StepWord.srcA w) (StepWord.e w))).flatMap
        (fun x => layerNorm x (g.take n) ((g.drop n).take n) (g.getD (2 * n) 0))))

/-- FUNC code 0: sigmoid. -/
def execFuncSigmoid (core w : Nat) (s : State) : Host.Outcome State Fault Refusal :=
  .next (if StepWord.op w ≠ 0x08 then s else s.stepFunc core w 0)
/-- FUNC code 1: tanh. -/
def execFuncTanh (core w : Nat) (s : State) : Host.Outcome State Fault Refusal :=
  .next (if StepWord.op w ≠ 0x08 then s else s.stepFunc core w 1)
/-- FUNC code 2: GELU, erf form. -/
def execFuncGelu (core w : Nat) (s : State) : Host.Outcome State Fault Refusal :=
  .next (if StepWord.op w ≠ 0x08 then s else s.stepFunc core w 2)
/-- FUNC code 3: SiLU. -/
def execFuncSilu (core w : Nat) (s : State) : Host.Outcome State Fault Refusal :=
  .next (if StepWord.op w ≠ 0x08 then s else s.stepFunc core w 3)
/-- FUNC code 4: exp2. -/
def execFuncExp2 (core w : Nat) (s : State) : Host.Outcome State Fault Refusal :=
  .next (if StepWord.op w ≠ 0x08 then s else s.stepFunc core w 4)

/-! ### QUANT (R211) -/

/-- The dynamic scale code of a tensor. -/
def dynScale (x : List Nat) : Nat :=
  let a := x.foldl (fun m b => max m (bfMag b)) 0
  if (bf16Val a).isZero then 0 else upS 0 255 ((bf16Val a).div ⟨127, 1⟩)

/-- The code of one element, and whether the clamp changed it. -/
def quantCode (code b : Nat) : Byte × Bool :=
  let q := rneK 0 ((bf16Val b).div (scaleVal code))
  let c := clampI (-127) 127 q
  (BitVec.ofInt 8 c, decide (c ≠ q))

/-- Quantise src_a to dst at a scale, recording the scale of dst and counting what the clamp changed. -/
def State.stepQuant (s : State) (core w : Nat) (scale : List Nat → Nat) : State :=
  match s.coreAt core w with
  | none => s
  | some a =>
    let x := a.ctx.elems (StepWord.srcA w) (StepWord.e w)
    let code := scale x
    let q := x.map (quantCode code)
    let ctx := a.ctx.write (StepWord.dst w) (q.map Prod.fst)
    let s := s.bump (Reg.attProgTenant + 16 * a.run.prog.owner + 8) (q.filter (·.2)).length
    s.putCore core (ctx.next.putScale (StepWord.dst w) (StepWord.e w) code)

/-- QUANT_DYN. -/
def execQuantDyn (core w : Nat) (s : State) : Host.Outcome State Fault Refusal :=
  .next (if StepWord.op w ≠ 0x09 then s else s.stepQuant core w dynScale)
/-- QUANT_STATIC: at scale code k_or_imm. -/
def execQuantStatic (core w : Nat) (s : State) : Host.Outcome State Fault Refusal :=
  .next (if StepWord.op w ≠ 0x0A then s else s.stepQuant core w (fun _ => StepWord.k w % 256))

/-! ### ROPE, SYNC -/

/-- A poisoned tile that a ROPE step of a run needs: whether its repair has been given up (R196). -/
def State.ropePoison (s : State) (p : ProgRun) (idx : Nat) : Option Bool := s.poisoned (p.ropeTiles.filter (fun k => k.obj == rotObj idx))

/-- ROPE: R75 with rotary table k_or_imm, row by row of its d; a table the run does not hold leaves free values (log 41). While a tile it needs is poisoned its segment halts and the run stalls with WEIGHT_REPAIR, or the request fails once the repair is given up (R196, R197, R217). -/
def execRope (core w : Nat) (s : State) : Host.Outcome State Fault Refusal :=
  .next (if StepWord.op w ≠ 0x0B then s
    else match s.coreAt core w with
      | none => s
      | some a =>
        match s.ropePoison a.run (StepWord.k w) with
        | some true => s.failRun a.run.rid Status.weightsUnavailable (poisonDetail (rotObj (StepWord.k w)))
        | some false => s.stallRun a.run.rid
        | none =>
        let p := a.run.pos
        let f := s.fresh
        let x := a.ctx.elems (StepWord.srcA w) (StepWord.e w)
        let out : List Byte := match (tabGet a.run.ropes (StepWord.k w)).bind (fun o => rotaryOf o.tiles.flatten) with
          | some t => elemBytes ((rowsOfList t.d x).flatMap (ropeRow t p))
          | none => (List.range (2 * StepWord.e w)).map (Config.undefinedByte f.1)
        f.2.putCore core (a.ctx.write (StepWord.dst w) out).next)

/-- SYNC: the core's dst region reaches every core of the program, with the scales of tensors quantised in it; the region of rank r lies r regions after dst (log 41). -/
def execSync (core w : Nat) (s : State) : Host.Outcome State Fault Refusal :=
  .next (if StepWord.op w ≠ 0x0C then s
    else match s.coreAt core w with
      | none => s
      | some a =>
        let at_ := StepWord.dst w + a.rank * StepWord.ioBytes w
        let bytes := a.ctx.read at_ (StepWord.ioBytes w)
        let s := s.putCore core a.ctx.next
        let scales := a.ctx.scales.filter (fun q => decide (at_ ≤ q.1 ∧ q.1 + q.2.1 ≤ at_ + bytes.length))
        ((a.run.coreNums a.group).filter (· != core)).foldl (fun s c =>
          s.putCore c (scales.foldl (fun x q => x.putScale q.1 q.2.1 q.2.2) ((s.core c).write at_ bytes))) s)

/-! ### MATCH (R235, R239) -/

/-- A TCAM version searched in its own copy. -/
def tcamFind (range : List (Option Rule)) (k : Nat) : Found :=
  match range.findIdx? (fun r => match r with | some x => (k ^^^ x.value) &&& x.care == 0 | none => false) with
  | none => Found.miss
  | some o => ⟨((range.take o).filter (·.isSome)).length, 1, 0, false, 0, ((range.getD o none).map (·.word)).getD 0⟩

/-- Search an image's content, outside the search cells. -/
def Image.find (i : Image) (bytes : List Byte) : Found :=
  match i.body with
  | .automata a => a.scan bytes
  | .tcam range => tcamFind range (leNat (bytes.take 20))

/-- The image a slot's version is, as the engine holds it: the active one, or an older one that a run keeps (R216, R219). -/
def State.imageVersion (s : State) (slot version : Nat) : Option Image :=
  match (s.image slot).filter (fun i => i.version == version) with
  | some i => some i
  | none => (s.mat.kept.find? (fun x => x.1 == slot && x.2.version == version)).map Prod.snd

/-- The search of a run's image: the version it was dispatched with (R216), with every edit in force (R227), its hit confirmed (R230). -/
def State.matchSearch (s : State) (slot : Nat) (held : Image) (bytes : List Byte) : Found × State :=
  match s.imageVersion slot held.version with
  | some i => s.imageSearch i bytes
  | none => (held.find bytes, s)

/-- The head of a trained ring (R237, Table 9.11). -/
def State.isHead (s : State) : Bool := s.bit Reg.matCascCfg 0 && s.fld Reg.matCascCfg 3 1 == 0

/-- Start a cascade search: its frame, with the version active at the head, goes out on MATCH_OUT with no result yet (R237). The manual does not say what a cascaded step does on a node that is no head: it sends nothing, and the step waits for CASCADE_TIMEOUT (DESIGN CHOICE, log 122). -/
def State.cascadeStart (s : State) (type tag version : Nat) (payload : List Byte) (core : Option Nat) : State :=
  let n := s.mat.serial
  let frame := cascadeFrameOf (cascadeBody type tag version n payload Found.miss) true
  let s := { s with mat := { s.mat with serial := (n + 1) % 65536, searches := tabPut s.mat.searches n (frame, core, s.now) } }
  if s.isHead then s.emit (.cascade frame) else s

/-- A MATCH step writes its record and goes on. -/
def State.matchRecord (s : State) (core w : Nat) (f : Found) : State :=
  s.stepCore core w (fun a => a.ctx.write (StepWord.dst w) f.record)

/-- The engine's copy of an image that a MATCH step needs is bad: whether its repair has been given up (R196, R231). -/
def State.imagePoison (s : State) (p : ProgRun) (slot : Nat) : Option Bool :=
  if s.mat.refill.contains slot then s.poisoned ((s.mem.poison.map Prod.fst).filter (fun k => k.obj == 2048 + slot && p.needs.contains (k.obj, k.ver))) else none

/-- MATCH: a local search writes its record; a cascaded one sends its frame and waits for it. While the engine's copy of the image is bad the run stalls with WEIGHT_REPAIR, or its request fails once the repair is given up (R196, R231). -/
def execMatchStep (core w : Nat) (s : State) : Host.Outcome State Fault Refusal :=
  .next (if StepWord.op w ≠ 0x0D then s
    else match s.coreAt core w with
      | none => s
      | some a =>
        let slot := bitsOf w 79 64
        let bytes := a.ctx.read (StepWord.srcA w) (StepWord.k w)
        match s.imagePoison a.run slot with
        | some true => s.failRun a.run.rid Status.weightsUnavailable (poisonDetail (2048 + slot))
        | some false => s.stallRun a.run.rid
        | none =>
        match tabGet a.run.images slot with
        | none => s.matchRecord core w Found.miss
        | some img =>
          if !img.casc then
            let r := s.matchSearch slot img bytes
            r.2.matchRecord core w r.1
          else if s.mat.searches.any (fun x => x.2.2.1 == some core) then s
          else s.cascadeStart img.type img.tag (((s.image slot).map (·.version)).getD img.version) bytes (some core))

/-! ### SEG, END -/

/-- SEG: the core has ended the segment. -/
def execSeg (core w : Nat) (s : State) : Host.Outcome State Fault Refusal :=
  .next (if StepWord.op w ≠ 0x0E then s else s.stepCore core w (fun a => { a.ctx with ended := true }))

/-- END: the core has ended the run; its buffers are zeroed when the whole run ends (R365). -/
def execEndStep (core w : Nat) (s : State) : Host.Outcome State Fault Refusal :=
  .next (if StepWord.op w ≠ 0x0F then s else s.stepCore core w (fun a => { a.ctx with ended := true }))

/-! ### The end of a segment -/

/-- The APPEND_ATTEND that a PROJECT_ATTEND's output makes, in that message's layout (R204): Q, K rows, V rows in the output; bytes that a shorter output lacks are zeros (DESIGN CHOICE, log 103). -/
def projectedMsg (m out : List Byte) : List Byte :=
  let sh := shapeOf (Msg.shape m)
  let q := 2 * sh.hq * sh.d
  let kv := 2 * sh.heads * sh.d
  let flags : Byte := BitVec.ofNat 8 (b2n (Attend.ropeQ m))
  slice m 0 72 ++ (slice m 40 4 ++ [1, flags, BitVec.ofNat 8 (Attend.ropeTable m), 0] ++ List.replicate 8 0) ++
    slice out q kv ++ slice out (q + kv) kv ++ slice out 0 q

/-- The last segment of a run has ended: a RUN replies, a PROJECT_ATTEND appends and attends (R204, R205). -/
def State.finishRun (s : State) (p : ProgRun) : State :=
  match s.run p.rid with
  | none => s.endProgram p.rid
  | some r =>
    let s := s.bump (Reg.attProgTenant + 16 * p.prog.owner)
    if r.req.op = .projectAttend then
      let q := { r.req with heldMove := r.req.heldMove || r.stalled, gen := some r.gen, msg := projectedMsg r.req.msg p.output }
      (s.dropRun p.rid).inOrder q r.program r.weights
    else (s.endProgram p.rid).completeRun { r with output := p.output, detail := p.prog.outBytes }

/-- SEGMENT_END: every core of the group has ended the segment (R200). -/
def execSegmentEnd (group : Nat) (s : State) : Host.Outcome State Fault Refusal :=
  match tabGet s.prog.current group with
  | none => .next s
  | some p =>
    if !p.busy ∨ !(p.coreNums group).all (fun c => (s.core c).ended) then .next s
    else
      let s := s.bump (Reg.attProgTenant + 16 * p.prog.owner + 4)
      let p := { p with busy := false, seg := p.seg + 1, cascFails := 0 }
      let s := s.putProg group p
      .next (if p.seg < p.prog.segments then s else s.finishRun p)

end Sys2Proof.Machine
end

