-- ==== Sys2Proof/Machine/Match.lean ====
section
/-!
DEFINITION. The match engine's own events (R227, R231, R236–R239): rule edits, scrub, audit, cascade frames as head and as member.
-/

namespace Sys2Proof.Machine

open Sys2Proof

/-! ### Rule edits (R227; log 2) -/

/-- Commit one value to a staged register: its staged and its live copy. -/
def State.commitTo (s : State) (a v : Nat) : State := (s.setStaged a v).setLive a v

/-- Commit a 160-bit value to five registers. -/
def State.commitWide (s : State) (a v : Nat) : State :=
  (List.range 5).foldl (fun s i => s.commitTo (a + 4 * i) (v / pow2 (32 * i) % pow2 32)) s

/-- A row of MAT_RULE_CTL: the commit of its registers, then the edit. -/
def State.ruleRow (s : State) (ctl frame value care word : Nat) : State :=
  if !s.running then s
  else
    let s := ((s.commitTo Reg.matRuleCtl (ctl % pow2 32)).commitTo Reg.matRuleEff (frame % pow2 32)).commitTo (Reg.matRuleEff + 4) (frame / pow2 32 % 4096)
    let s := ((s.commitWide Reg.matRuleValue value).commitWide Reg.matRuleCare care).commitTo Reg.matRuleWord (word % pow2 32)
    s.ruleCommit

/-- RULE_INSERT. -/
def execRuleInsert (slot position value care word frame : Nat) (s : State) : Host.Outcome State Fault Refusal :=
  .next (s.ruleRow (slot % 64 + 65536 * (position % 65536)) frame value care word)

/-- RULE_DELETE names no value: the edit digest of R228 takes what MAT_RULE_VALUE, CARE and WORD hold, the live values, with which their staged copies are committed (DESIGN CHOICE, log 121). -/
def execRuleDelete (slot position frame : Nat) (s : State) : Host.Outcome State Fault Refusal :=
  let wide (a : Nat) : Nat := (List.range 5).foldl (fun v i => v + s.live (a + 4 * i) * pow2 (32 * i)) 0
  .next (s.ruleRow (slot % 64 + 64 + 65536 * (position % 65536)) frame (wide Reg.matRuleValue) (wide Reg.matRuleCare) (s.live Reg.matRuleWord))

/-! ### Scrub and audit (R231) -/

/-- A bit of an entry's cell: value bits from 0, care bits from 160. -/
def flipCell (e : TcamEnt) (bit : Nat) : TcamEnt :=
  if bit < 160 then { e with value := e.value ^^^ pow2 bit } else { e with care := e.care ^^^ pow2 (bit - 160) }

/-- TCAM_SCRUB: every entry is compared with its copy. A flip of bit b < 320 struck before the entry was read and is found; one of bit 320 + b strikes after it and stays (log 33). -/
def execTcamScrub (flips : List (Nat × Nat)) (s : State) : Host.Outcome State Fault Refusal :=
  if !s.running then .next s
  else
    let early := (flips.filter (fun f => decide (f.2 < 320) && (s.tcamCopy f.1).isSome)).map Prod.fst
    let bad := (s.mat.cellDiff.map Prod.fst ++ early).foldl setInsert []
    let s := { s with mat := { s.mat with cellDiff := [] } }
    let s := if bad.isEmpty then s else (s.bump Reg.matStat bad.length).raiseBit Reg.matEvent 2
    .next ((flips.filter (fun f => decide (320 ≤ f.2 ∧ f.2 < 640))).foldl (fun s f =>
      match s.tcamCell f.1 with
      | none => s
      | some e => { s with mat := { s.mat with cellDiff := tabPut s.mat.cellDiff f.1 (some (flipCell e (f.2 - 320))) } }) s)

/-- The version that an audit's image number names, and its slot: below 64 the active one of the slot, from 64 the one loaded beside it, from 128 on the older ones that runs keep, one after another (R231; log 33). -/
def State.auditVersion (s : State) (n : Nat) : Option (Nat × Nat) :=
  let slot := n % 64
  if n < 64 then (s.image slot).map (fun i => (slot, i.version))
  else if n < 128 then (s.image n).map (fun _ => (slot, s.verOf (2048 + slot) + 1))
  else ((s.mat.kept.filter (fun x => x.1 == slot))[n / 64 - 2]?).map (fun x => (slot, x.2.version))

/-- AUTOMATA_AUDIT: loaded images whose engine copy is bad are refilled from the tier-0 copy, or their repair starts (R196, R231). -/
def execAutomataAudit (bad : List (Nat × Nat)) (repaired : Bool) (s : State) : Host.Outcome State Fault Refusal :=
  if !s.running then .next s
  else
    .next (bad.foldl (fun s b =>
      match s.auditVersion b.1 with
      | none => s
      | some (i, ver) =>
        let s := (s.groupsNaming (2048 + i) ver).foldl (fun s g => s.refillStall g (2048 + i) ver repaired) (if repaired then s.raiseBit Reg.matEvent 3 else s)
        if repaired then s
        else
          let s := s.poisonTile ⟨2048 + i, ver, b.2⟩ true
          State.refreshMat { s with mat := { s.mat with refill := setInsert s.mat.refill i } }) s)

/-! ### The cascade -/

/-- CASCADE_FRAME: a member merges its own search and forwards the frame, whether or not it is fenced, in every mode (R237, R238). -/
def execCascadeFrame (bytes : List Byte) (s : State) : Host.Outcome State Fault Refusal :=
  let n := byteAt bytes 3
  if !s.running ∨ !s.bit Reg.matCascCfg 0 ∨ s.fld Reg.matCascCfg 3 1 = 0 ∨ bytes.length ≠ 22 + n then .next s
  else
    let type := byteAt bytes 1
    let payload := slice bytes 8 n
    let run := foundOf (slice bytes (8 + n) 12)
    let x : Found × State :=
      if type = 0 then (run, s)
      else match (s.cascImage (byteAt bytes 2)).filter (fun i => i.type == type && i.version % 65536 == field bytes 4 2) with
        | none => ({ run with fail := true }, s)
        | some i =>
          let r := s.imageSearch i payload
          (mergeFound (type = 2) run r.1 (s.fld Reg.matCascCfg 3 1), r.2)
    .next (x.2.emit (.cascade (cascadeFrameOf (slice bytes 0 (8 + n) ++ x.1.frame) (cascadeCrcOk bytes))))

/-- MAT_STATUS.ring_ok. -/
def State.ringOk2 (s : State) (ok : Bool) : State := s.setStatus Reg.matStatus 1 1 (b2n ok)

/-- A search of the head has ended. -/
def State.dropSearch (s : State) (n : Nat) : State := { s with mat := { s.mat with searches := tabDel s.mat.searches n } }

/-- The step word a waiting core is at. -/
def State.coreWord (s : State) (core : Nat) : Option Nat :=
  match tabGet s.prog.current (core / 8) with
  | none => none
  | some p => (p.prog.cores.findIdx? (· == core % 8)).bind (fun r => (p.prog.streams.getD r [])[(s.core core).pc]?)

/-- The image a frame of the head searched, as its run keeps it. -/
def State.frameImage (s : State) (core : Nat) : Option (Nat × Image) :=
  match tabGet s.prog.current (core / 8), s.coreWord core with
  | some p, some w => (tabGet p.images (bitsOf w 79 64)).map (fun i => (bitsOf w 79 64, i))
  | _, _ => none

/-- The waiting step writes the running result merged with the head's own, as position 0 (R238, R239). -/
def State.deliver (s : State) (core : Nat) (frame : List Byte) (run : Found) : State :=
  match s.frameImage core, s.coreWord core with
  | some (slot, img), some w =>
    let r := s.matchSearch slot img (slice frame 8 (byteAt frame 3))
    r.2.matchRecord core w (mergeFound (img.type = 2) run r.1 0)
  | _, _ => s

/-- A search failed (R239): its segment runs again, until the third failed run writes a record with FAIL. -/
def State.cascadeFail (s : State) (n : Nat) : State :=
  match tabGet s.mat.searches n with
  | none => s
  | some (frame, core, _) =>
    let s := ((s.dropSearch n).bump (Reg.matStat + 4)).raiseBit Reg.matEvent 4
    match core with
    | none => s.ringOk2 false
    | some c =>
      match tabGet s.prog.current (c / 8) with
      | none => s
      | some p =>
        let s := s.putProg (c / 8) { p with cascFails := p.cascFails + 1 }
        if p.cascFails + 1 < 3 then s.haltSegment (c / 8)
        else s.deliver c frame { Found.miss with fail := true }

/-- CASCADE_RETURN: a frame comes back to the head (R239). -/
def execCascadeReturn (bytes : List Byte) (s : State) : Host.Outcome State Fault Refusal :=
  let n := byteAt bytes 3
  let serial := field bytes 6 2
  match tabGet s.mat.searches serial with
  | none => .next s
  | some (frame, core, sent) =>
    let f := foundOf (slice bytes (8 + n) 12)
    if s.running ∧ cascadeCrcOk bytes ∧ slice bytes 0 8 = slice frame 0 8 ∧ !f.fail ∧ s.now ≤ sent + 4 * frame.length + 192 then
      (match core with
       | none => .next ((s.dropSearch serial).ringOk2 true)
       | some c => .next ((s.dropSearch serial).deliver c frame f))
    else .next (s.cascadeFail serial)

/-- CASCADE_TIMEOUT: 4·F + 192 ticks have passed (R239). -/
def execCascadeTimeout (serial : Nat) (s : State) : Host.Outcome State Fault Refusal :=
  match tabGet s.mat.searches serial with
  | none => .next s
  | some (frame, _, sent) => .next ((s.advanceTo (sent + 4 * frame.length + 192)).cascadeFail serial)

/-- Minute 0 of a frame: the head sends a probe (R239). -/
def State.cascadeProbe (s : State) : State := if s.isHead then s.cascadeStart 0 0 0 [] none else s

end Sys2Proof.Machine
end

