-- ==== Sys2Proof/Machine/MapCmds.lean ====
section
/-!
DEFINITION. The commands of the map: the operator's proposals (R51, R326), and the messages and timers of the map agent (chapter 12).
-/

namespace Sys2Proof.Machine

open Sys2Proof

/-! ### Proposals (R51, R325, R326) -/

/-- A commit of a written MAP_PROP_CTL: the staged proposal goes to the leader (R325). -/
def State.propCommit (s : State) : State :=
  let a := s.fld Reg.mapPropCtl 3 0
  if s.fld Reg.mapPropStatus 2 0 = 1 then s
  else if a = 0 ∨ 11 ≤ a then (s.touch Reg.mapPropStatus (putBits (s.live Reg.mapPropStatus) 2 0 propInvalid)).raiseBit Reg.mapEvent 5
  else
    let a0 := s.live Reg.mapPropArg
    let a1 := s.live (Reg.mapPropArg + 4)
    let a2 := s.live (Reg.mapPropArg + 8)
    let s := s.setStatus Reg.mapPropStatus 2 0 1
    let s := { s with map := { s.map with own := some (⟨a, a0, a1, a2, s.map.serial, s.map.id⟩, s.frame) } }
    (s.propose a a0 a1 a2).1

/-- A commit of a written TIME_MODE_REQ (R51). -/
def State.modeCommit (s : State) : State :=
  let st := s.live Reg.timeModeStatus
  let lead := s.fld Reg.timeModeReq 15 8
  if bitOf st 5 then s
  else if lead < 5 then s.setLive Reg.timeModeStatus (putBits st 6 6 1)
  else
    let e := s.frame + lead
    let s := s.setLive Reg.timeModeStatus (putBits st 6 5 1)
    let s := { s with map := { s.map with ownMode := some (s.map.serial, e), ownTarget := s.fld Reg.timeModeReq 1 0 } }
    (s.propose Action.mode (s.fld Reg.timeModeReq 1 0) (e % pow2 32) (e / pow2 32)).1

/-- A proposal row: its staged registers, captured, and the command (R437; log 2). -/
def State.propRow (s : State) (action a0 a1 a2 : Nat) : State :=
  if !s.running then s
  else ((((s.commitTo (Reg.mapPropArg) (a0 % pow2 32)).commitTo (Reg.mapPropArg + 4) (a1 % pow2 32)).commitTo (Reg.mapPropArg + 8) (a2 % pow2 32)).commitTo
    Reg.mapPropCtl action).propCommit

/-- Propose a mode change. -/
def execModeProposal (mode lead : Nat) (s : State) : Host.Outcome State Fault Refusal :=
  .next (if !s.running then s else (s.commitTo Reg.timeModeReq (mode % 4 + 256 * (lead % 256))).modeCommit)

/-- Action 1. -/
def execMoveSlots (first count target : Nat) (s : State) : Host.Outcome State Fault Refusal := .next (s.propRow 1 first count target)
/-- Action 2. -/
def execSetMembership (arg0 arg1 arg2 : Nat) (s : State) : Host.Outcome State Fault Refusal := .next (s.propRow 2 arg0 arg1 arg2)
/-- Action 3. -/
def execSetClass (cls slice : Nat) (s : State) : Host.Outcome State Fault Refusal := .next (s.propRow 3 cls slice 0)
/-- Action 4. -/
def execSetSlice (slice arg : Nat) (s : State) : Host.Outcome State Fault Refusal := .next (s.propRow 4 slice arg 0)
/-- Action 5. -/
def execDrain (id : Nat) (s : State) : Host.Outcome State Fault Refusal := .next (s.propRow 5 id 0 0)
/-- Action 6. -/
def execRetire (id : Nat) (s : State) : Host.Outcome State Fault Refusal := .next (s.propRow 6 id 0 0)
/-- Action 7. -/
def execStandIn (id : Nat) (s : State) : Host.Outcome State Fault Refusal := .next (s.propRow 7 id 0 0)
/-- Action 8. -/
def execReturnNode (id : Nat) (s : State) : Host.Outcome State Fault Refusal := .next (s.propRow 8 id 0 0)
/-- Action 9. -/
def execClearLoss (first count : Nat) (s : State) : Host.Outcome State Fault Refusal := .next (s.propRow 9 first count 0)
/-- Action 10. -/
def execDeclareDead (id : Nat) (s : State) : Host.Outcome State Fault Refusal := .next (s.propRow 10 id 0 0)

/-! ### HELLO, LEASE, HEARTBEAT (R306, R307, R310, R311) -/

/-- A committed generation is known that this node does not hold: fetch the map (R310). A node with no map asks once for each generation it hears of (R320; log 105). -/
def State.learn (s : State) (gen : Nat) : State :=
  let new := s.map.cur.isSome || decide (s.map.heard < gen)
  let s := { s with map := { s.map with heard := max s.map.heard gen } }
  if (s.tip.map (·.gen)).getD 0 < gen ∧ s.map.fetching.isNone ∧ new then s.startFetchMap gen else s

/-- A partner's HELLO. -/
def execHello (link : Nat) (h : CtlHdr) (inEffect committed digest16 state bare t1 timeBits : Nat) (lg14 : Bool) (s : State) : Host.Outcome State Fault Refusal :=
  if !s.ctlOk h ∨ 64 ≤ link ∨ pow2 16 ≤ digest16 then .next s
  else
    let s := (s.ctlIn h).checkAhead inEffect
    let s := { s with map := { s.map with seenEff := max s.map.seenEff inEffect
                                          hellos := if h.sender = 0x7FF then s.map.hellos else tabPut s.map.hellos h.sender (state, bare, t1, timeBits, lg14) } }
    .next (s.learn committed)

/-- The leader's LEASE for the frame. -/
def execLease (h : CtlHdr) (frame gen : Nat) (s : State) : Host.Outcome State Fault Refusal :=
  if !s.ctlOk h then .next s
  else
    let s := ((s.takeTerm h).ctlIn h).checkAhead gen
    if s.fromLeader h ∧ frame = s.frame then
      .next (({ s with map := { s.map with leaseFrame := some frame } }).setStatus Reg.mapStatus 6 6 1)
    else .next s

/-- The leader's HEARTBEAT to a keeper. -/
def execHeartbeat (h : CtlHdr) (committed : Nat) (s : State) : Host.Outcome State Fault Refusal :=
  if !s.ctlOk h then .next s
  else if !s.isKeeper then .next (s.ctlIn h)
  else
    let s := (s.takeTerm h).ctlIn h
    if s.fromLeader h then .next (({ s with map := { s.map with lastBeat := s.now, election := none } }).learn committed) else .next s

/-! ### Elections (R307) -/

/-- Periods without HEARTBEAT: 8 × 16 minutes. -/
abbrev beatLimit : Nat := 131072

/-- This keeper's rank by ID. -/
def State.keeperRank (s : State) : Nat := (s.keepers.filter (fun k => decide (k < s.map.id))).length

/-- The last generation this keeper accepted. -/
def State.lastAccepted (s : State) : Nat := max ((s.tip.map (·.gen)).getD 0) ((s.map.accepted.map (·.gen)).getD 0)

/-- Eight periods have passed: the wait of 16·r minutes begins. -/
def execElectionTimeout (s : State) : Host.Outcome State Fault Refusal :=
  if !s.isKeeper ∨ s.map.leader = s.map.id ∨ s.map.election.isSome ∨ !s.running then .next s
  else
    let s := s.advanceTo (s.map.lastBeat + beatLimit)
    .next { s with map := { s.map with election := some (s.now + 16384 * s.keeperRank) } }

/-- The wait ends: VOTE_REQ with the term plus one. -/
def execElectionBackoff (s : State) : Host.Outcome State Fault Refusal :=
  match s.map.election with
  | some t =>
    let s := s.advanceTo t
    let term := max s.map.term s.map.voted + 1
    let s := { s with map := { s.map with election := none, voted := term, votes := [s.map.id] } }
    .next ((s.keepers.filter (· != s.map.id)).foldl (fun s k => s.ctl k 12 [term, s.lastAccepted]) s)
  | none => .next s

/-- A keeper grants one vote a term, to a requester whose last accepted generation is at least its own. -/
def execVoteReq (h : CtlHdr) (lastAccepted : Nat) (s : State) : Host.Outcome State Fault Refusal :=
  if !s.ctlOk h then .next s
  else if !s.isKeeper then .next (s.ctlIn h)
  else
    let s := s.ctlIn h
    let term := h.bodyTerm
    let ok : Bool := s.keepers.contains h.sender && decide (s.map.term < term ∧ s.map.voted < term ∧ s.lastAccepted ≤ lastAccepted)
    let s := if ok then { s with map := { s.map with voted := term, votes := [] } } else s
    .next (s.ctl h.sender 13 [term, b2n ok])

/-- The requester leads from a majority: HEARTBEAT, the frame's LEASE, and what it accepted and cannot confirm is prepared again, but for a mode change that can no longer be committed (R51, R307). -/
def State.winElection (s : State) : State :=
  let s := { s with map := { s.map with term := s.map.voted, leader := s.map.id, votes := [], lastBeat := s.now } }
  let s := (s.raiseBit Reg.mapEvent 8).sendHeartbeat
  let s := if s.map.leased = some s.frame ∨ s.map.leaseFrame = some s.frame then s else s.sendLease
  let s := match s.map.accepted with
    | some p =>
      (match s.tip with
       | some m =>
         let cs := p.changes.filter (fun (c : Change) => !c.lateMode s.now)
         let s := if m.gen < p.gen then s.dropLateModes p.changes else s
         if m.gen < p.gen ∧ !cs.isEmpty then
           (let eff := s.effectFrame
            s.sendPrepare { p with eff := eff, changes := cs, map := m.next eff s.map.term s.map.id cs }) else s
       | none => s)
    | none => s
  s.refreshMap

/-- A vote. -/
def execVote (h : CtlHdr) (granted : Bool) (s : State) : Host.Outcome State Fault Refusal :=
  if !s.ctlOk h then .next s
  else if !s.isKeeper ∨ !granted ∨ s.map.votes.isEmpty ∨ h.bodyTerm ≠ s.map.voted then .next (s.ctlIn h)
  else
    let s := s.ctlIn h
    let votes := setInsert s.map.votes h.sender
    let s := { s with map := { s.map with votes := votes } }
    .next (if s.majority votes.length then s.winElection else s)

/-! ### PROPOSE to COMMIT (R308, R310) -/

/-- Proposals reach the leader. -/
def execPropose (h : CtlHdr) (changes : List Change) (s : State) : Host.Outcome State Fault Refusal :=
  if !s.ctlOk h then .next s
  else if !s.isLeader then .next (s.ctlIn h)
  else .next ((changes.take 64).foldl (fun s c => s.leaderTake { c with proposer := h.sender }) (s.ctlIn h))

/-- A keeper applies a PREPARE and accepts it. -/
def execPrepare (h : CtlHdr) (eff : Nat) (changes : List Change) (digest : List Byte) (s : State) : Host.Outcome State Fault Refusal :=
  if !s.ctlOk h then .next s
  else if !s.isKeeper then .next (s.ctlIn h)
  else
    let s := (s.takeTerm h).ctlIn h
    match s.tip with
    | some m =>
      let next := m.next eff h.term h.sender changes
      if s.fromLeader h ∧ h.bodyGen = next.gen ∧ digest = next.digest then
        .next (({ s with map := { s.map with accepted := some ⟨next.gen, eff, changes, next, []⟩ } }).ctl h.sender 6 (next.gen :: byteArgs digest))
      else .next s
    | none => .next s

/-- The leader counts an ACCEPT. -/
def execAccept (h : CtlHdr) (digest : List Byte) (s : State) : Host.Outcome State Fault Refusal :=
  if !s.ctlOk h then .next s
  else if !s.isLeader then .next (s.ctlIn h)
  else
    let s := s.ctlIn h
    match s.map.prepared with
    | some p =>
      .next (if h.bodyGen = p.gen ∧ digest = p.map.digest ∧ s.keepers.contains h.sender
        then s.countAccept h.sender else s)
    | none => .next s

/-- Forward a COMMIT as it came, once on one UP link of each torus and express direction but the one it came from (R310). -/
def State.floodCommit (s : State) (link : Nat) (h : CtlHdr) (eff : Nat) (changes : List Change) (digest : List Byte) : State :=
  ((List.range 9).filter (fun d => d != linkCode link)).foldl (fun s d =>
    match s.upFrom (dirLinks d 0) 0 with
    | some n => s.ctlOn h (s.link n).partnerId 7 ([h.bodyGen, eff] ++ changeArgs changes ++ byteArgs digest)
    | none => s) s

/-- The generation that a COMMIT's change list makes of the one held; of none held, generation 1, as its leader formed it (R299, R305, R310; log 105). -/
def State.committedMap (s : State) (h : CtlHdr) (eff : Nat) (changes : List Change) : Option MapData :=
  match s.tip with
  | some m => some (m.next eff h.term h.sender changes)
  | none =>
    let m := MapData.formed s.map.fabricId s.map.keeperCount eff changes
    if h.term = m.term ∧ h.sender = m.leader then some m else none

/-- A COMMIT of a generation not yet seen. -/
def execMapCommit (link : Nat) (h : CtlHdr) (eff : Nat) (changes : List Change) (digest : List Byte) (s : State) : Host.Outcome State Fault Refusal :=
  let held := (s.tip.map (·.gen)).getD 0
  if !s.ctlOk h then .next s
  else if h.bodyGen ≤ held ∨ s.map.seen.contains h.bodyGen then .next (s.ctlIn h)
  else
    let s := { s with map := { s.map with seen := s.map.seen ++ [h.bodyGen] } }
    let s := ((s.takeTerm h).ctlIn h).floodCommit link h eff changes digest
    match s.committedMap h eff changes with
    | some next => .next (if next.gen = h.bodyGen ∧ next.digest = digest then s.adopt next changes else s.learn h.bodyGen)
    | none => .next (s.learn h.bodyGen)

/-- The leader refuses this node's proposal. -/
def execRefuse (h : CtlHdr) (serial code : Nat) (s : State) : Host.Outcome State Fault Refusal :=
  .next (if !s.ctlOk h then s else if s.fromLeader h then (s.ctlIn h).decided serial (code % 8) else s.ctlIn h)

/-- Earliest of some counts. -/
def earliest (l : List Nat) : Option Nat := match l with | [] => none | a :: t => some (t.foldl min a)

/-- Counts at which a proposal times out: the leader's held and prepared ones at the end of P + 2, mode changes at the end of E − 2, this node's mode change at the end of E − 2, and its proposal that reaches no leader in 2 frames (R51, R308, Table 12.9). -/
def State.proposalDeadlines (s : State) : List Nat :=
  (if s.isLeader then s.map.proposals.map proposalLimit else []) ++
  (s.map.ownMode.map (fun o => frameStart (o.2 - 1))).toList ++
  (match s.map.own with | some o => if s.reachable s.map.leader then [] else [frameStart (o.2 + 3)] | none => [])

/-- A proposal's time runs out. -/
def execProposalTimeout (s : State) : Host.Outcome State Fault Refusal :=
  match earliest s.proposalDeadlines with
  | none => .next s
  | some t =>
    let s := s.advanceTo t
    let s := s.refuseLate
    let s := if s.map.ownMode.any (fun o => decide (frameStart (o.2 - 1) ≤ s.now)) then s.endMode true else s
    let lost : Bool := s.map.own.any (fun (o : Change × Nat) => decide (frameStart (o.2 + 3) ≤ s.now)) && !s.reachable s.map.leader
    .next (if lost then s.endProposal 6 else s)

/-! ### Fetching the map (R310) -/

/-- A keeper answers with a 4 KiB chunk. -/
def execFetch (h : CtlHdr) (wanted offset : Nat) (s : State) : Host.Outcome State Fault Refusal :=
  if !s.ctlOk h then .next s
  else if !s.isKeeper then .next (s.ctlIn h)
  else
    let s := s.ctlIn h
    match (s.map.queue ++ s.map.cur.toList).find? (fun m => m.gen == wanted) |>.orElse (fun _ => s.tip) with
    | some m => .next (s.ctl h.sender 9 (offset :: byteArgs ((m.bytes.drop offset).take 4096)))
    | none => .next s

/-- A map names this node as one that serves, so that it holds the map: a spare and a candidate hold none (R320, R321). -/
def State.namedIn (s : State) (m : MapData) : Bool := (tabGet m.nodes (s.idIn m)).any (fun e => e.serves)

/-- The whole map has been fetched: held until its effect frame, or from the next Midnight (R310, R319). -/
def State.fetched (s : State) (m : MapData) : State :=
  if s.map.cur.isNone ∧ s.map.queue.isEmpty ∧ !s.namedIn m then { s with map := { s.map with fetching := none } }
  else
  let oldMode := s.tip.bind (·.modeNext)
  let older := s.map.queue.filter (fun (q : MapData) => decide (q.gen < m.gen))
  let s := { s with map := { s.map with fetching := none, queue := older ++ [m], heard := max s.map.heard m.gen, seen := s.map.seen.filter (fun g => decide (m.gen < g)) } }
  let s := s.announceMode oldMode m.modeNext
  -- a mode change that the map commits for the frame of this node's own proposal ends it (R51)
  let s : State := if s.map.ownMode.any (fun o => decide (m.modeNext = some (s.map.ownTarget, o.2))) then s.endMode false else s
  let member := (tabGet m.nodes s.map.id).any (fun e => e.state == .member)
  let s : State := if s.fenced ∧ !s.map.rejoin then { s with map := { s.map with unfence := member, rejoin := !member } } else s
  (s.raiseBit Reg.mapEvent 6).refreshMap

/-- A fetch of the map under way; a node with no map takes one that it did not ask for from its first chunk on, which is noted as generation 0 (R321; log 105). -/
def State.fetchUnder (s : State) : Option (Nat × Nat) :=
  match s.map.fetching with
  | some x => some x
  | none => if s.map.cur.isNone ∧ s.map.queue.isEmpty then some (0, 0) else none

/-- A chunk of the map: the next is asked for, until the last; where the leader sends the whole map, the next comes unasked (R310, R321). -/
def execMapPart (h : CtlHdr) (offset : Nat) (last : Bool) (m : MapData) (s : State) : Host.Outcome State Fault Refusal :=
  if !s.ctlOk h then .next s
  else
  let s := s.ctlIn h
  match s.fetchUnder with
  | none => .next s
  | some (g, off) =>
    if offset ≠ off then .next s
    else if !last then
      let s := { s with map := { s.map with fetching := some (g, off + 4096) } }
      .next (if g = 0 then s else s.ctl h.sender 8 [g, off + 4096])
    else if m.gen < (s.tip.map (·.gen)).getD 0 ∨ m.fabricId ≠ s.map.fabricId then .next { s with map := { s.map with fetching := none } }
    else .next (s.fetched m)

/-! ### Liveness (R318), admission (R320) -/

/-- Ticks within which a SUSPECT is repeated while the silence lasts, and as many again: a suspicion older than this has ended (R318; log 106). -/
abbrev suspectSpan : Nat := 32768

/-- The leader notes a suspicion: two partners who suspect the node, or every one, bring a verdict (R318). -/
def State.noteSuspect (s : State) (reporter id : Nat) : State :=
  match s.tip with
  | none => s
  | some m =>
    if !(tabGet m.nodes id).any (fun e => e.serves) then s
    else
      let ps := m.partnersOf id
      let rs := tabPut (((tabGet s.map.suspects id).getD []).filter (fun r => decide (s.now ≤ r.2 + suspectSpan))) reporter s.now
      let s := { s with map := { s.map with suspects := tabPut s.map.suspects id rs } }
      let by_ := (rs.map Prod.fst).filter ps.contains
      if 2 ≤ by_.length ∨ (!ps.isEmpty ∧ ps.all by_.contains) then { s with map := { s.map with verdicts := setInsert s.map.verdicts id } } else s

/-- A SUSPECT reaches the leader. A node that reports itself has an unrecoverable fault (R318). -/
def execSuspect (h : CtlHdr) (id minutes : Nat) (s : State) : Host.Outcome State Fault Refusal :=
  if !s.ctlOk h then .next s
  else if !s.isLeader ∨ pow2 32 ≤ minutes then .next (s.ctlIn h)
  else
    let s := s.ctlIn h
    if h.sender = id then .next { s with map := { s.map with verdicts := setInsert s.map.verdicts id } }
    else .next (s.noteSuspect h.sender id)

/-- Count of the last frame accepted from a partner on any link. -/
def State.lastFrom (s : State) (partner : Nat) : Nat :=
  (s.lnk.links.filter (fun l => l.2.lastPartner == partner)).foldl (fun n l => max n l.2.lastFrame) 0

/-- A partner has been silent for suspect × 16 minutes, or 16 minutes more: SUSPECT (R318). -/
def execSuspectTimeout (partner : Nat) (s : State) : Host.Outcome State Fault Refusal :=
  if s.map.cur.isNone ∨ s.fenced ∨ !s.running ∨ !s.lnk.links.any (fun l => l.2.lastPartner == partner) then .next s
  else
    let last := s.lastFrom partner
    let due := max (last + 16384 * s.fld Reg.mapCfg 7 0) (match tabGet s.map.lastSuspect partner with | some t => if last ≤ t then t + 16384 else 0 | none => 0)
    let s := s.advanceTo due
    let s := { s with map := { s.map with lastSuspect := tabPut s.map.lastSuspect partner s.now } }
    .next (if s.isLeader then s.noteSuspect s.map.id partner else s.ctl s.map.leader 10 [partner, (s.now - last) / 1024])

/-- A JOIN as it travels. -/
def joinArgs (f : JoinFacts) (ident x y z tray slot : Nat) : List Nat :=
  [ident, x, y, z, tray, slot] ++ f.seen.flatMap (fun l => [l.1, l.2.1, l.2.2]) ++ sizedArgs f.cert ++ sizedArgs f.report ++ byteArgs f.path.flatten

/-- A candidate's JOIN: at the leader, its identity verified, its place one that a fabric has, that the cabling agrees with and that is free; a partner that holds a map passes it on (R4, R243, R306, R320). -/
def execJoin (h : CtlHdr) (identOk : JoinFacts) (ident x y z tray slot : Nat) (s : State) : Host.Outcome State Fault Refusal :=
  if !s.ctlOk h then .next s
  else
    let s := s.ctlIn h
    match s.tip with
    | none => .next s
    | some m =>
      if !s.isLeader then
        .next (if s.fenced ∨ s.map.cur.isNone ∨ h.sender ≠ 0x7FF then s else s.ctlOn h s.map.leader 11 (joinArgs identOk ident x y z tray slot))
      else
        let e : NodeEnt := ⟨.candidate, x, y, z, tray, slot, false, ident⟩
        .next (if !s.joinOk identOk ident || !e.seated || !m.seatCabled e identOk.seen || m.seatTaken ident e then s
          else { s with map := { s.map with joins := tabPut s.map.joins ident e } })

/-! ### SEQUENCE_TRANSFER (R315, R317) -/

/-- A record from another node: a sequence for its new home, pages of a held record, or the end of a transfer (log 25). -/
def execSequenceTransfer (src : Nat) (r : SeqRec) (s : State) : Host.Outcome State Fault Refusal :=
  if s.fenced ∨ s.map.cur.isNone then .next s
  else if r.layers.isEmpty then
    let done := (s.map.moving.filter (fun x => x.2.1 == src && x.2.2 == s.map.id)).map Prod.fst
    .next (({ s with map := { s.map with incoming := s.map.incoming.filter (fun x => !done.contains x) } }).transfersEnd (!s.map.incoming.isEmpty))
  else if r.home then .next (s.takeHome r)
  else .next (s.takeHeld src r)

end Sys2Proof.Machine
end

