-- ==== Sys2Proof/Machine/Time.lean ====
section
/-!
DEFINITION. Fabric time (R29–R39, R47, R48, R52, R251): PPS_IN and TIME_IN, link time transfer, the choice of source and parent, steps while acquiring and the fence on a large offset, refresh, and the clock switch of a mode change.
An offset that is measured is slewed out at 100 ppm of the count's own advance: an idle tick moves the count by it, and the operands of commands carry the count so moved (log 52).
-/

namespace Sys2Proof.Machine

open Sys2Proof

/-! ### Source, parent and hop count (R30, R33, R36) -/

/-- Seconds between edges, in ticks. -/
abbrev second : Nat := 1000000000
/-- Offset above which a node in service fences itself: 64 ticks, in 1/16 ticks (R38). -/
abbrev fenceOffset : Nat := 1024

/-- PPS_IN and TIME_IN are enabled and valid: two good seconds and a confirmed message (R32). -/
def State.ppsOk (s : State) : Bool :=
  s.bit Reg.timeCfg 0 && s.bit Reg.timeCfg 2 && decide (2 ≤ s.time.goodSeconds) && s.time.nextEdge.isSome

/-- Partners that can be followed: the link is UP and the partner reports a hop count below 8 (R36). -/
def State.timeParents (s : State) : List (Nat × Nat) :=
  s.time.partners.filterMap (fun p =>
    match p.2.hop with
    | some h => if (s.link p.1).state = LState.up ∧ h < 8 then some (p.1, h) else none
    | none => none)

/-- The partner with the lowest hop count, ties to the lowest link number. -/
def State.timeParent (s : State) : Option (Nat × Nat) :=
  (if s.bit Reg.timeCfg 3 then s.timeParents else []).foldl
    (fun b p => match b with | none => some p | some q => if p.2 < q.2 ∨ (p.2 = q.2 ∧ p.1 < q.1) then some p else b) none

/-- This node is the time root that the map names (R36). -/
def State.isTimeRoot (s : State) : Bool := s.map.cur.any (fun m => m.timeRoot == some s.map.id)

/-- Source, hop count and degraded state that the node now has: (source, hop, degraded). A root on its own oscillator shows source 0 (log 53). -/
def State.timeFacts (s : State) : Nat × Nat × Bool :=
  if s.ppsOk then (1, 0, s.time.refDegraded)
  else if s.isTimeRoot then (0, 0, true)
  else match s.timeParent with
    | some (n, h) => (2, h + 1, decide (1 ≤ h) || ((tabGet s.time.partners n).map (fun p => p.degraded)).getD false)
    | none => (0, 15, false)

/-- The node fences itself for want of time and must reacquire it (R36, R38). -/
def State.loseTime (s : State) : State :=
  let s := { s with time := { s.time with acquired := false, slew := 0, revealed := 0, reveal := false } }
  (s.setStatus Reg.timeStatus 4 4 0).fenceForTime

/-- TIME_STATUS follows the facts; a change of source is an event; a node in service with no source loses time (R30, R36). -/
def State.refreshTime (s : State) : State :=
  let f := s.timeFacts
  let old := s.live Reg.timeStatus
  let parent := if f.1 = 2 then s.timeParent.map Prod.fst else none
  let s := { s with time := { s.time with parent := parent, ppsValid := s.ppsOk } }
  let v := putBits (putBits (putBits old 1 0 f.1) 3 3 (b2n f.2.2)) 8 5 f.2.1
  let s := s.putStatus Reg.timeStatus (if f.2.1 = 15 then putBits v 2 2 0 else v)
  let s := if f.1 ≠ bitsOf old 1 0 then s.raiseBit Reg.timeEvent 4 else s
  if f.2.1 = 15 ∧ s.inService ∧ !s.inTwilight ∧ s.time.acquired then s.loseTime else s

/-! ### Offsets (R38) -/

/-- Time is acquired: step 12 may follow, and a node in service may rejoin. -/
def State.acquire (s : State) : State :=
  let s := { s with time := { s.time with acquired := true } }
  if s.inService then s.setStatus Reg.timeStatus 4 4 1 else s

/-- Move an amount towards zero by at most b. -/
def towardsZero (b : Nat) (x : Int) : Int := if x.natAbs ≤ b then 0 else if 0 < x then x - b else x + b

/-- The count moves towards its source at no more than 100 ppm: 16 of 160,000 parts of a tick in each tick (R38). It is locked once what is left lies within 1.5 ticks (Table 2.8). -/
def State.slewOn (s : State) : State :=
  let b := 16 * (s.now - s.time.slewAt)
  let left := towardsZero b s.time.slew
  let s := { s with time := { s.time with slew := left, slewAt := s.now, revealed := towardsZero b s.time.revealed } }
  if s.time.acquired then s.setStatus Reg.timeStatus 2 2 (b2n (decide (left.natAbs ≤ 240000))) else s

/-- The count after one tick, in 1/160,000 ticks beyond the whole count before it: the tick and what slewing adds to it or takes from it (R38). -/
def TimeSt.ticked (t : TimeSt) : Nat := ((160000 : Int) + (t.frac : Int) + (t.slew - towardsZero 16 t.slew)).toNat

/-- One tick passes (R29, R38). -/
def State.countOn (s : State) : State :=
  let n := s.time.ticked
  { s with
    now := s.now + n / 160000
    time := { s.time with
      frac := n % 160000, slew := towardsZero 16 s.time.slew, slewAt := s.now + n / 160000, revealed := towardsZero 16 s.time.revealed } }

/-- The offset lies above the fence offset; what a commit revealed and is still being slewed out counts for nothing (R38, R55; log 78). -/
def State.fenceTest (s : State) (off : Int) : Bool :=
  !s.time.reveal && decide (10000 * fenceOffset < (10000 * off - s.time.revealed).natAbs)

/-- An offset of the count from its source, in 1/16 ticks, has been measured: it is slewed out from here, or fences the node (R38; log 54). -/
def State.measured (s : State) (off : Int) : State :=
  let s := s.slewOn
  let fence := s.fenceTest off
  let s := s.setLive Reg.timeOffset (ofSigned 16 (clampI (-32768) 32767 off))
  let s := s.setStatus Reg.timeStatus 2 2 (b2n (decide (off.natAbs ≤ 24)))
  if fence ∧ s.inService ∧ s.time.acquired then (s.raiseBit Reg.timeEvent 3).loseTime
  else
    { s with time := { s.time with
        slew := -(10000 * off), slewAt := s.now, reveal := false
        revealed := if s.time.reveal then 10000 * off else s.time.revealed } }

/-- A count taken before a step, as it reads after it: steps move the count by `d` in 1/16 ticks. -/
def shifted (d : Int) (t : Nat) : Nat := ((t : Int) + d).toNat

/-- The count is set by a step while acquiring: the counts the time unit has noted move with it, and an exchange under way is dropped. -/
def State.stepCount (s : State) (t : Nat) : State :=
  let d : Int := 16 * (t : Int) - 16 * (s.now : Int)
  let time := { s.time with
    slew := 0, slewAt := t, frac := 0, revealed := 0, reveal := false
    lastEdge := s.time.lastEdge.map (shifted d), lastMsg := s.time.lastMsg.map (shifted (d / 16))
    partners := s.time.partners.map (fun p => (p.1, { p.2 with ourTx := 0, prevTx := 0, lastArr := shifted d p.2.lastArr })) }
  (({ s with now := t, time := time }).setStatus Reg.timeStatus 2 2 1).acquire

/-! ### PPS_IN and TIME_IN (R31, R32, R34) -/

/-- Step 11 of Sunrise has begun, at the end of step 5, or has ended: time is taken (Table 16.1). -/
def State.takesTime (s : State) : Bool := s.running && decide (6 ≤ s.sunriseStep)

/-- The second since the last edge lies within its tolerance. -/
def goodSecond (last edge : Nat) : Bool := decide (16 * (second - 1000) ≤ edge - last ∧ edge - last ≤ 16 * (second + 1000))

/-- PPS_IN and TIME_IN become invalid. -/
def State.ppsBad (s : State) : State := ({ s with time := { s.time with goodSeconds := 0 } }).raiseBit Reg.timeEvent 0

/-- An edge that a message has announced: acquisition steps the count to the announced value and the delay from the reference plane to the ball (R34), later edges measure it. An edge that no accepted message announced measures nothing (log 52). In Twilight the count runs on from the crystal and follows nothing (R39). -/
def State.announcedEdge (s : State) (edge : Nat) : State :=
  match s.time.due with
  | none => s
  | some n =>
    let s := { s with time := { s.time with due := none } }
    if !s.ppsOk ∨ s.inTwilight then s
    else if !s.time.acquired then
      let ball := 16 * n + s.fld Reg.timePpsComp 15 0
      let s := s.stepCount (ball / 16)
      { s with time := { s.time with lastEdge := some ball } }
    else if s.time.inconsistent ≠ 0 then s
    else s.measured ((edge : Int) - (s.fld Reg.timePpsComp 15 0 : Int) - 16 * (n : Int))

/-- PPS_IN_EDGE: the count at the sampled edge, in 1/16 ticks. The second between edges is that at the ball, whatever TIME_PPS_COMP says; the count is measured at the reference plane (R32, R34). -/
def execPpsInEdge (edge : Nat) (s : State) : Host.Outcome State Fault Refusal :=
  if !s.takesTime ∨ !s.bit Reg.timeCfg 0 then .next s
  else
    let s := s.advanceTo (edge / 16)
    let s := match s.time.lastEdge with
      | none => s
      | some last =>
        if goodSecond last edge then { s with time := { s.time with goodSeconds := s.time.goodSeconds + 1 } } else s.ppsBad
    let s := { s with time := { s.time with lastEdge := some edge } }
    .next (s.refreshTime.announcedEdge edge).refreshTime

/-- PPS_MISSING: no edge within a second and 1,000 ticks of the last. -/
def execPpsMissing (s : State) : Host.Outcome State Fault Refusal :=
  match s.time.lastEdge with
  | none => .next s
  | some last =>
    if !s.takesTime ∨ !s.bit Reg.timeCfg 0 then .next s
    else
      let s := s.advanceTo (last / 16 + second + 1001)
      .next ({ s with time := { s.time with lastEdge := none } }).ppsBad.refreshTime

/-- The message's own form: its length, sync, type, version and CRC (Table 2.1). -/
def timeFormOk (b : List Byte) : Bool :=
  b.length == 16 && byteAt b 0 == 0xA5 && byteAt b 1 == 0x4D && byteAt b 2 == 1 && field b 14 2 == crc16 (b.take 14)

/-- The value announced agrees with the running count to 64 ticks; nothing is known before a count is acquired (log 52). -/
def State.announceOk (s : State) (next : Nat) : Bool :=
  match s.time.lastEdge with
  | some e => !s.time.acquired || decide ((16 * (next : Int) + (s.fld Reg.timePpsComp 15 0 : Int) - (e : Int) - 16 * (second : Int)).natAbs ≤ fenceOffset)
  | none => true

/-- A message is accepted: it announces the next edge; four inconsistent seconds in a row are an event each second (R38). -/
def State.acceptTime (s : State) (b : List Byte) : State :=
  let next := field b 4 8
  let n := if s.announceOk next then 0 else s.time.inconsistent + 1
  let s := { s with time := { s.time with nextEdge := some next, due := some next, tentative := none, lastMsg := some s.now, refDegraded := bitOf (byteAt b 3) 0, inconsistent := n } }
  if 4 ≤ n then s.raiseBit Reg.timeEvent 1 else s

/-- A message is ignored. -/
def State.rejectTime (s : State) : State := s.raiseBit Reg.timeEvent 1

/-- TIME_IN_MESSAGE: 16 bytes, so many ticks after the last edge. Where a second message disagrees with the first, it is ignored, and a third has to agree with the second (DESIGN CHOICE, log 128). -/
def execTimeInMessage (bytes : List Byte) (sinceEdge : Nat) (s : State) : Host.Outcome State Fault Refusal :=
  if !s.takesTime ∨ !s.bit Reg.timeCfg 2 then .next s
  else
    let s := match s.time.lastEdge with | some e => s.advanceTo (e / 16 + sinceEdge) | none => s
    let next := field bytes 4 8
    if !timeFormOk bytes ∨ sinceEdge < 10000000 ∨ 900000000 < sinceEdge then .next s.rejectTime
    else match s.time.nextEdge, s.time.tentative with
      | some n, _ => .next (if next = n + second then s.acceptTime bytes else s.rejectTime).refreshTime
      | none, none => .next { s with time := { s.time with tentative := some next, lastMsg := some s.now } }
      | none, some t =>
        if next = t + second then .next (s.acceptTime bytes).refreshTime
        else .next ({ s with time := { s.time with tentative := some next } }).rejectTime

/-- TIME_IN_LOSS: two seconds have passed since the last valid message (R32). -/
def execTimeInLoss (s : State) : Host.Outcome State Fault Refusal :=
  match s.time.lastMsg with
  | none => .next s
  | some t =>
    if !s.takesTime then .next s
    else
      let s := s.advanceTo (t + 2 * second)
      .next ({ s with time := { s.time with nextEdge := none, due := none, tentative := none, lastMsg := none, inconsistent := 0 } }).refreshTime

/-! ### Link time transfer (R35, R251) -/

/-- A partner of which nothing is known. -/
def PartnerTime.unknown : PartnerTime := ⟨0, 0, 0, 0, 0, 0, false, 0, none, false, 0⟩

/-- The partner on a link. -/
def State.partner (s : State) (n : Nat) : PartnerTime := (tabGet s.time.partners n).getD PartnerTime.unknown
/-- Write the partner on a link. -/
def State.putPartner (s : State) (n : Nat) (p : PartnerTime) : State := { s with time := { s.time with partners := tabPut s.time.partners n p } }

/-- Byte 25 of a TIME frame. -/
def hopByte (h : Nat) : Nat := if h = 15 then 0xFF else h

/-- The count in 1/16 ticks, the moved part of a tick included (R38, R251). -/
def State.sixteenths (s : State) : Nat := 16 * s.now + s.time.frac / 10000

/-- The payload of a TIME frame (R251). -/
def State.timePayload (s : State) (p : PartnerTime) : List Byte :=
  let t := s.sixteenths
  padTo 64 (leBytes 8 t ++ leBytes 8 p.lastTx ++ leBytes 8 (t - p.lastArr) ++ leBytes 1 (s.live Reg.timeStatus % 16) ++
    leBytes 1 (hopByte (s.fld Reg.timeStatus 8 5)))

/-- A TIME frame goes out on every link that carries frames: those UP, fenced or not, and those MISWIRED (R243, R247, R251). -/
def State.sendTimeFrames (s : State) : State :=
  if !s.bit Reg.timeCfg 3 then s
  else (s.lnk.links.filter (fun l => l.2.state == LState.up || l.2.state == LState.miswired)).foldl (fun s l =>
    let p := s.partner l.1
    (s.putFrame l.1 2 0 0 0 (s.timePayload p)).putPartner l.1 { p with ourTx := s.sixteenths, prevTx := p.ourTx }) s

/-- One exchange of a window of 64: half the round trip, from the frame sent at tx, less the turnaround. Until the first window ends, the mean of its exchanges so far serves (log 55). -/
def PartnerTime.exchange (p : PartnerTime) (tx arrival turnaround : Nat) : PartnerTime :=
  let d : Int := ((arrival : Int) - (tx : Int) - (turnaround : Int)) / 2
  let sum := p.pathSum + d
  let n := p.count + 1
  if n = 64 then { p with pathSum := 0, count := 0, averaged := true, path := sum / 64 }
  else { p with pathSum := sum, count := n, path := if p.averaged then p.path else sum / n }

/-- A path delay to the partner is known. -/
def PartnerTime.known (p : PartnerTime) : Bool := p.averaged || p.count != 0

/-- A TIME frame echoes t_tx of the last frame its sender had from us as it sent: of the last we sent, or of the one before it, which two partners who send at the same tick echo (R35, R251). -/
def PartnerTime.echoed (p : PartnerTime) (echo : Nat) : Bool := echo != 0 && (echo == p.ourTx || echo == p.prevTx)

/-- What a TIME frame tells of its sender. -/
def PartnerTime.take (p : PartnerTime) (b : List Byte) (arrival : Nat) : PartnerTime :=
  let p := if p.echoed (field b 8 8) then p.exchange (field b 8 8) arrival (field b 16 8) else p
  let tx := field b 0 8
  { p with
    lastTx := tx, lastArr := arrival, offset := (tx : Int) + p.path - (arrival : Int)
    hop := if byteAt b 25 ≤ 8 then some (byteAt b 25) else none
    degraded := bitOf (byteAt b 24) 3 }

/-- The parent's offset is the node's measure of its own count: a node that is acquiring steps to it. -/
def State.followParent (s : State) (n : Nat) : State :=
  let p := s.partner n
  if s.time.parent ≠ some n ∨ s.inTwilight then s
  else if !p.known then s
  else if s.time.acquired then s.measured (-p.offset)
  else s.stepCount (((s.now : Int) + p.offset / 16).toNat)

/-- TIME_FRAME: a partner's TIME frame, its arrival in ticks and 1/16 ticks; one that fails R247 is counted and skipped (R249). Its header's ack, NAK and credits are taken as those of any frame (R246), and its codewords and itself counted as any frame's (R245, Table 10.18). -/
def execTimeFrame (link : Nat) (f : Frame) (tick part : Nat) (s : State) : Host.Outcome State Fault Refusal :=
  let s := if (s.link link).state = LState.up then s.fecCount link f.fecCorrected f.fecBad else s
  let l := s.link link
  if (l.state ≠ LState.up ∧ l.state ≠ LState.miswired) ∨ !s.running then .next s
  else match l.admits f with
  | none => .next (s.badFrame link f)
  | some g =>
    let s := ((s.advanceTo tick).heardFrame link g f.txCount).frameTaken link
    let s := if l.state = LState.up then s.takeHeader link f else s
    if !s.bit Reg.timeCfg 3 then .next s
    else
      let p := (s.partner link).take f.payload (16 * tick + part)
      let s := s.putPartner link p
      let s := if 64 < p.offset.natAbs ∧ s.time.acquired ∧ p.known then s.raiseBit Reg.timeEvent 2 else s
      .next (s.refreshTime.followParent link).refreshTime

/-! ### Refresh (R47, R48) -/

/-- HBM_REFRESH: the refresh point of a bank group of every core die. -/
def execHbmRefresh (bg : Nat) (s : State) : Host.Outcome State Fault Refusal :=
  if s.inTwilight ∨ !s.running ∨ 16 ≤ bg ∨ s.minute % 4 ≠ bg % 4 ∨ tickOf s.now ≠ 256 * (bg / 4) then .next s
  else .next { s with time := { s.time with hbmRefreshes := s.time.hbmRefreshes + 1 } }

/-- LPDDR_REFRESH: one per-bank refresh to each channel, stepping through the 16 banks. -/
def execLpddrRefresh (s : State) : Host.Outcome State Fault Refusal :=
  if s.inTwilight ∨ !s.running ∨ (tickOf s.now ≠ 0 ∧ tickOf s.now ≠ 512) then .next s
  else .next { s with time := { s.time with lpddrRefreshes := s.time.lpddrRefreshes + 1, lpddrBank := (s.time.lpddrBank + 1) % 16 } }

/-! ### The clock switch (R52, R406) -/

/-- CLK_STATUS.ssc_live: the depth committed, at most 0.25 % in EVENING. -/
def State.refreshSsc (s : State) : State :=
  let d := s.fld Reg.clkCfg 3 0
  s.setStatus Reg.clkStatus 11 8 (if !s.bit Reg.clkStatus 2 then 0 else if s.time.clockMode = 2 then min 5 d else d)

/-- MODE_CLOCK_SWITCH: in ticks 64–191 of minute 0 of frame E the clocks become those of the current mode. -/
def execModeClockSwitch (s : State) : Host.Outcome State Fault Refusal :=
  if !s.running ∨ s.inTwilight ∨ s.minute ≠ 0 ∨ 191 < tickOf s.now ∨ s.time.clockMode = s.mode then .next s
  else
    let s := s.advanceTo (s.now / 1048576 * 1048576 + 64)
    .next ({ s with time := { s.time with clockMode := s.mode } }).refreshSsc

end Sys2Proof.Machine
end

