-- ==== Sys2Proof/Machine/Links.lean ====
section
/-!
DEFINITION. Commands of the fabric links and of the Wecia Link's training: LINK_SIGNAL_DETECT … DIRECTION_HOLD_EXPIRY (chapters 10, 14, 15).
An event that the link's state rules out has no effect (log 4).
-/

namespace Sys2Proof.Machine

open Sys2Proof

/-! ### The Wecia Link's states (R371, Table 15.9) -/

/-- Refresh HST_STATUS. -/
def State.refreshHstStatus (s : State) : State :=
  s.putStatus Reg.hstStatus (putBits (putBits (s.live Reg.hstStatus) 2 0 s.hst.state) 3 3 (b2n s.hst.narrow))

/-- Resend every unacknowledged packet with the current link fields (R376). -/
def State.hostResend (s : State) : State :=
  s.hst.kept.foldl (fun s p => (s.emit (.host p (hostBytes s.hst p))).bump (Reg.hstStat)) s

/-- The Wecia Link enters a state. -/
def State.setHostState (s : State) (st : Nat) : State :=
  let was := s.hst.state
  let s := { s with hst := { s.hst with state := st } }
  let s := if was = LState.up ∧ (st = LState.down ∨ st = LState.detect) then s.raiseBit Reg.hstEvent 0 else s
  let s := if st = LState.retrain ∧ was ≠ LState.retrain then s.raiseBit Reg.hstEvent 1 else s
  let s := if st = LState.detect ∨ st = LState.down then
      { s with hst := { s.hst with narrow := false, high := false, txSeq := 0, rxSeq := 0, kept := [], postedIn := 0, postedOut := 0
                                   npIn := 0, npOut := 0, postedRet := 0, npRet := 0, gap := false, resends := 0
                                   txq := s.hst.kept ++ s.hst.txq } } else s
  let s := s.refreshHstStatus
  if st = LState.up then
    ({ s with hst := { s.hst with ackTick := s.now } }).hostResend.hostFlush
  else s

/-- One resend episode; after 8 without progress the link enters RETRAIN in place of the next (R376). -/
def State.hostReplay (s : State) : State :=
  let h := s.hst
  if h.kept.isEmpty then s
  else
    if 8 ≤ h.resends then ({ s with hst := { h with resends := 0, ackTick := s.now } }).setHostState LState.retrain
    else ({ s with hst := { h with resends := h.resends + 1, ackTick := s.now } }).hostResend

/-- Codewords that could not be corrected: more than fec_limit in one minute take the link to RETRAIN (R245, R371). -/
def State.hostFec (s : State) (bad : Nat) : State :=
  let n := s.hst.fecMinute + bad
  let s := { s with hst := { s.hst with fecMinute := n } }
  if s.fld Reg.lnkRetryCfg 23 16 < n ∧ s.hst.state = LState.up then s.setHostState LState.retrain else s

/-! ### LINK_SIGNAL_DETECT, LINK_TRAIN_DONE, LINK_ALIGN_DONE (R243–R245, R324, R370–R372) -/

/-- Signal on both lanes: DETECT becomes TRAIN. -/
def execLinkSignalDetect (link : LinkRef) (s : State) : Host.Outcome State Fault Refusal :=
  match link with
  | .fabric n => .next (if (s.link n).state = LState.detect then s.setLinkState n LState.train else s)
  | .host => .next (if s.hst.state = LState.detect then s.setHostState LState.train else s)

/-- A handshake starts: a fresh ephemeral key, and HS1 goes to the partner (R358). -/
def State.startShake (s : State) (n : Nat) : State :=
  let r := s.randomBytes 64
  let s := r.2
  let d := ecPrivate r.1
  let b := hs1Bytes ⟨s.map.fabricId, if s.map.cur.isSome then s.gen else 0, s.map.id, n, s.sec.cert, ecPublic d, ⟨true, true⟩, [], []⟩
  let l := s.link n
  (s.setLink n { l with hs := .none, shake := { Shake.idle with ephemeral := d, mine1 := b } }).emit (.handshake n 1 b)

/-- A link trained enters ALIGN: without keys it starts a handshake. -/
def State.linkAligns (s : State) (n : Nat) : State :=
  let s := s.setLinkState n LState.align
  if (s.link n).keyed.isEmpty ∧ s.identified then s.startShake n else s

/-- Equalisation done: TRAIN or RETRAIN becomes ALIGN; the Wecia Link trains on one half when the other fails (R372). -/
def execLinkTrainDone (link : LinkRef) (lowOk highOk : Bool) (s : State) : Host.Outcome State Fault Refusal :=
  match link with
  | .fabric n =>
    let st := (s.link n).state
    .next (if (st = LState.train ∨ st = LState.retrain) ∧ lowOk ∧ highOk then s.linkAligns n else s)
  | .host =>
    let st := s.hst.state
    if st = LState.train ∧ (lowOk ∨ highOk) then
      let narrow := !(lowOk && highOk)
      let s := if narrow then s.raiseBit Reg.hstEvent 2 else s
      .next (({ s with hst := { s.hst with narrow := narrow, high := !lowOk } }).setHostState LState.align)
    else if st = LState.retrain ∧ (if s.hst.narrow then (if s.hst.high then highOk else lowOk) else lowOk && highOk) then
      .next (s.setHostState LState.align)
    else .next s

/-- Keys of the link are installed: UP, its replay buffer is resent (R245, R250). A candidate in service sends its JOIN through the partner (R320). -/
def State.linkGoesUp (s : State) (n : Nat) : State :=
  let s := s.setLinkState n LState.up
  let l := s.link n
  let s := (s.setLink n { l with resend := l.kept.map (·.fseq), ackTick := s.now, lastFrame := s.now }).releaseHeld
  if s.inService ∧ s.map.nodeState = .candidate ∧ s.map.cur.isNone then s.sendJoin l.partnerId else s

/-- Lanes deskewed and identities exchanged: ALIGN becomes KEYED, MISWIRED where the partner does not match (R243, R324), and UP where the keys are held; the Wecia Link goes UP (R371). -/
def execLinkAlignDone (link : LinkRef) (partner partnerLink fabric : Nat) (s : State) : Host.Outcome State Fault Refusal :=
  match link with
  | .host => .next (if s.hst.state = LState.align then s.setHostState LState.up else s)
  | .fabric n =>
    if (s.link n).state ≠ LState.align then .next s
    else
      let s := s.setLink n { s.link n with partnerId := partner, partnerLink := partnerLink, lastPartner := partner }
      if s.cabled n partner partnerLink && ((decide (60 ≤ n) && !s.isSpare) || fabric == s.map.fabricId) then
        if (s.link n).keyed.isEmpty then .next (s.setLinkState n LState.keyed)
        else .next ((s.setLinkState n LState.keyed).linkGoesUp n)
      else .next ((s.setLinkState n LState.miswired).raiseBit Reg.lnkEvent 2)

/-! ### HS1, HS2, HS3 (R358–R360) -/

/-- A handshake that fails returns the link to DETECT (R358). -/
def State.linkAuthFail (s : State) (n : Nat) : State := (s.raiseBit Reg.secEvent 3).setLinkState n LState.detect

/-- The handshake runs in ALIGN or KEYED (R358). -/
def Link.shaking (l : Link) : Bool := l.state == LState.align || l.state == LState.keyed

/-- HS1: the certificate and its chain are checked, and HS2 goes out: a secret encapsulated to the partner's certified DEK-K. A candidate takes the generation from its partner; without an endpoint CA an edge link keys no requester (R401). -/
def execHs1 (link : Nat) (m : HsMsg) (s : State) : Host.Outcome State Fault Refusal :=
  let l := s.link link
  let edge := decide (60 ≤ link) && !s.isSpare
  if !l.shaking then .next s
  else match certOpen m.cert m.chain with
  | none => .next (s.linkAuthFail link)
  | some c =>
    match certIdd c, mapBytes c 7 with
    | some idd, some ek =>
      if (edge && !s.sec.endpointCa) || !s.identified then .next (s.linkAuthFail link)
      else
        let r := s.randomBytes 32
        let e := kemEncaps ek r.1
        let h := { l.shake with mine2 := e.2, secret := e.1, peer1 := hs1Bytes m, cert := m.cert, eph := m.eph }
        let s := (r.2.setLink link { l with hs := .gotHs1, partnerIdent := field idd 0 8, shake := h }).emit (.handshake link 2 e.2)
        .next (if s.map.cur.isNone then { s with map := { s.map with heard := max s.map.heard m.gen } } else s)
    | _, _ => .next (s.linkAuthFail link)

/-- HS2: the partner's encapsulation arrives; the link master follows, and HS3 goes out. -/
def execHs2 (link : Nat) (m : HsMsg) (s : State) : Host.Outcome State Fault Refusal :=
  let l := s.link link
  if !l.shaking || l.hs != .gotHs1 then .next s
  else match s.linkMaster l.shake m.cipher with
  | none => .next (s.linkAuthFail link)
  | some lm =>
    let a := sideA s.sec.idd ((certIdd (certPayload l.shake.cert)).getD [])
    .next ((s.setLink link { l with hs := .gotHs2, master := lm, peer2 := m.cipher }).emit
      (.handshake link 3 (confirmation lm (if a then 0 else 1) (l.shake.transcript a m.cipher))))

/-- The HS3 that the partner of a link owes (R358). -/
def State.expectedHs3 (s : State) (link : Nat) : List Byte :=
  let l := s.link link
  let a := sideA s.sec.idd ((certIdd (certPayload l.shake.cert)).getD [])
  confirmation l.master (if a then 1 else 0) (l.shake.transcript a l.peer2)

/-- Generations whose keys a node installs: its current one and, in the drain window, the one before (R359). -/
def State.keyGens (s : State) : List Nat :=
  match s.map.cur with
  | none => [s.map.heard]
  | some m => if s.frame < s.map.effFrame + 4 then [m.gen, m.gen - 1] else [m.gen]

/-- Generation whose key a link keyed now sends under: that of g from the Midnight after its adoption (R247). -/
def State.sendKey (s : State) : Nat :=
  match s.map.cur with
  | none => s.map.heard
  | some m => if s.frame ≤ s.map.effFrame then m.gen - 1 else m.gen

/-- HS3: the confirmation verifies, the link master and the keys are derived, and a KEYED link goes UP (R358–R360). -/
def execHs3 (link : Nat) (m : HsMsg) (s : State) : Host.Outcome State Fault Refusal :=
  let l := s.link link
  if !l.shaking || l.hs != .gotHs2 then .next s
  else if m.mac ≠ s.expectedHs3 link then .next (s.linkAuthFail link)
  else
    let s := s.setLink link { l with hs := .done, keyed := s.keyGens, sendGen := s.sendKey, fenced := false }
    let s := if 60 ≤ link ∧ !s.isSpare then
        { s with sec := { s.sec with endpoints := tabPut s.sec.endpoints (field l.shake.peer1 9 2) (certTenants (certPayload l.shake.cert)) } } else s
    .next (if l.state = LState.keyed then s.linkGoesUp link else s)

/-! ### LINK_STATE_TIMEOUT, LANE_LOCK_LOSS -/

/-- A state's limit passes, or the DETECT retry comes: back to DETECT (Table 10.2). -/
def execLinkStateTimeout (link : LinkRef) (s : State) : Host.Outcome State Fault Refusal :=
  match link with
  | .fabric n =>
    let st := (s.link n).state
    .next (if st = LState.detect ∨ st = LState.train ∨ st = LState.align ∨ st = LState.keyed ∨ st = LState.retrain
      then s.setLinkState n LState.detect else s)
  | .host =>
    let st := s.hst.state
    .next (if st = LState.detect ∨ st = LState.train ∨ st = LState.align ∨ st = LState.retrain
      then s.setHostState LState.detect else s)

/-- A lane of an UP link loses lock: RETRAIN (R245, R371). -/
def execLaneLockLoss (link : LinkRef) (s : State) : Host.Outcome State Fault Refusal :=
  match link with
  | .fabric n => .next (if (s.link n).state = LState.up then s.setLinkState n LState.retrain else s)
  | .host => .next (if s.hst.state = LState.up then s.setHostState LState.retrain else s)

/-! ### DATA_FRAME, IDLE_FRAME (R247–R250, R266) -/

/-- Ask for a resend once per gap (R249). -/
def State.askResend (s : State) (n : Nat) : State :=
  let l := s.link n
  if l.gap then s else s.setLink n { l with gap := true, nak := some false }

/-- A DATA frame. -/
def execDataFrame (link : Nat) (f : Frame) (s : State) : Host.Outcome State Fault Refusal :=
  let s := if (s.link link).state = LState.up then s.fecCount link f.fecCorrected f.fecBad else s
  let l := s.link link
  if l.state ≠ LState.up then .next s
  else
    match l.admits f with
    | none => .next ((s.badFrame link f).askResend link)
    | some g =>
      let s := (s.heardFrame link g f.txCount).takeHeader link f
      let l := s.link link
      if l.state ≠ LState.up then .next s
      else if f.fseq ≠ l.rxSeq then .next ((s.bump (Reg.lnkPortStat + 32 * link + 8)).askResend link)
      else
        .next (((s.frameTaken link).setLink link { l with rxSeq := (l.rxSeq + 1) % pow2 32, gap := false }).takePayload link f)

/-- An IDLE frame: acks, NAKs and credits. -/
def execIdleFrame (link : Nat) (f : Frame) (s : State) : Host.Outcome State Fault Refusal :=
  let s := if (s.link link).state = LState.up then s.fecCount link f.fecCorrected f.fecBad else s
  let l := s.link link
  if l.state ≠ LState.up then .next s
  else
    match l.admits f with
    | none => .next (s.badFrame link f)
    | some g => .next (((s.heardFrame link g f.txCount).frameTaken link).takeHeader link f)

/-- ack has not advanced for the resend timeout while frames are outstanding (R250). -/
def execLinkResendTimeout (link : Nat) (s : State) : Host.Outcome State Fault Refusal :=
  let l := s.link link
  if l.state ≠ LState.up ∨ l.kept.isEmpty then .next s
  else .next ((s.advanceTo (l.ackTick + 16 * s.fld Reg.lnkRetryCfg 11 0)).replay link)

/-! ### FRAME_TRANSMIT, DIRECTION_HOLD_EXPIRY -/

/-- An IDLE frame, unless the node is fenced: then it sends only TIME and CTL frames (R246, R319). -/
def State.sendIdle (s : State) (link : Nat) : State := if s.map.fenced then s else s.putFrame link 1 0 0 0 []

/-- The link sends its next frame: a resent one, else the best ready VC's, else IDLE; a link fenced by epoch carries only TIME frames (R246, R247, R250, R262, R319). -/
def execFrameTransmit (link : Nat) (s : State) : Host.Outcome State Fault Refusal :=
  let l := s.link link
  if l.state ≠ LState.up ∨ l.fenced then .next s
  else
    match l.resend with
    | q :: rest =>
      match l.kept.find? (fun f => f.fseq == q) with
      | some f =>
        if s.mayLeave f.here f.pkt then
          .next (((s.setLink link { l with resend := rest }).bump (Reg.lnkPortStat + 32 * link + 12)).putFrame link 0 f.vc f.fseq f.lflags f.payload)
        else .next s
      | none => .next ((s.setLink link { l with resend := rest }).sendIdle link)
    | [] =>
      if 64 ≤ l.kept.length then .next (s.sendIdle link)
      else
        match l.ready.find? (fun c => s.mayCarry link c.2 && l.hasCredit c.1 (s.nextLen link c.1 c.2.2)) with
        | some (vc, e) => .next (s.sendFrom link vc e)
        | none => .next (s.sendIdle link)

/-- Packets held for an output direction with no link UP reach hold_frames frames: discarded and counted (R261). -/
def execDirectionHoldExpiry (dir : Nat) (s : State) : Host.Outcome State Fault Refusal :=
  let hold := 1048576 * s.fld Reg.lnkCfg 15 8
  match s.lnk.held.find? (fun h => h.1 == dir) with
  | none => .next s
  | some first =>
    let s := s.advanceTo (first.2.2 + hold)
    let old := s.lnk.held.filter (fun h => h.1 == dir && decide (h.2.2 + hold ≤ s.now))
    let s := { s with lnk := { s.lnk with held := s.lnk.held.filter (fun h => !(h.1 == dir && decide (h.2.2 + hold ≤ s.now))) } }
    .next ((s.bump Reg.lnkStatDrop old.length).raiseBit Reg.lnkEvent 3)

end Sys2Proof.Machine
end

