-- ==== Sys2Proof/Machine/Programs.lean ====
section
/-!
DEFINITION. Loading and unloading programs, weight objects and match images (R199, R207, R212–R216, R219–R222, R235, R357), their activation at Midnight, and the dispatch of program segments at the start of a minute (R200, R201).
-/

namespace Sys2Proof.Machine

open Sys2Proof

/-! ### Results (Table 8.6) -/
namespace LoadResult
/-- OK. -/
abbrev ok := 0
/-- BAD_FORMAT. -/
abbrev badFormat := 1
/-- BAD_SIGNATURE. -/
abbrev badSignature := 2
/-- NOT_MEMBER. -/
abbrev notMember := 3
/-- DIGEST. -/
abbrev digest := 4
/-- NO_SPACE. -/
abbrev noSpace := 5
/-- BAD_SCHEDULE. -/
abbrev badSchedule := 6
/-- MISSING_OBJECT. -/
abbrev missingObject := 7
/-- IN_USE. -/
abbrev inUse := 8
end LoadResult

/-! ### Reading the container (R215, R379) -/

/-- The next read of the container: up to 4,096 bytes (Table 15.1), inside a use-3 window of function 0 (R378). Without a free tag it waits for one; over a link that is not UP it runs into its time limit (R379). -/
def State.readContainer (s : State) : State :=
  match s.prog.load with
  | none => s
  | some x =>
    if x.action = 2 ∨ x.failed ∨ x.len ≤ x.got.length then s
    else
      if s.inWindow 0 3 x.src x.len then (s.hostIssue 0 (x.src + x.got.length) (min 4096 (x.len - x.got.length)) .container).getD s
      else { s with prog := { s.prog with load := some { x with failed := true } } }

/-- Bytes of the container have come, or a read has failed (R379). -/
def State.containerRead (s : State) (bytes : Option (List Byte)) : State :=
  match s.prog.load with
  | none => s
  | some x =>
    match bytes with
    | none => { s with prog := { s.prog with load := some { x with failed := true } } }
    | some b => State.readContainer { s with prog := { s.prog with load := some { x with got := x.got ++ b } } }

/-- A commit of ATT_LOAD_CTL acts (R215): the reserved action does nothing. -/
def State.loadCommit (s : State) : State :=
  if s.bit Reg.attLoadStatus 0 then s.raiseBit Reg.attProgEvent 1
  else
    let ctl := s.live Reg.attLoadCtl
    if bitsOf ctl 1 0 = 3 then s
    else
      let x : Load := ⟨bitsOf ctl 1 0, bitsOf ctl 2 2, bitsOf ctl 25 16, s.live64 Reg.attLoadSrc, s.live Reg.attLoadLen, [], false⟩
      (({ s with prog := { s.prog with load := some x } }).setStatus Reg.attLoadStatus 0 0 1).readContainer

/-- A row of ATT_LOAD_CTL: the commit of its registers, then the command (log 2). -/
def State.loadRow (s : State) (ctl : Nat) (src : Option (Nat × Nat)) : State :=
  if !s.running then s
  else if s.bit Reg.attLoadStatus 0 then s.raiseBit Reg.attProgEvent 1
  else
    let s := match src with
      | some (a, n) => ((s.commitTo Reg.attLoadSrc (a % pow2 32 - a % 4096)).commitTo (Reg.attLoadSrc + 4) (a / pow2 32 % pow2 32)).commitTo Reg.attLoadLen (n % pow2 32)
      | none => s
    (s.commitTo Reg.attLoadCtl ctl).loadCommit

/-- LOAD_PROGRAM. The container names no slot (Table 8.3): a program goes to the slot that ATT_LOAD_CTL names (log 42). -/
def execLoadProgram (src len : Nat) (s : State) : Host.Outcome State Fault Refusal :=
  .next (s.loadRow (putBits (s.staged Reg.attLoadCtl) 1 0 0) (some (src, len)))
/-- LOAD_WEIGHT_OBJECT. -/
def execLoadWeightObject (src len : Nat) (s : State) : Host.Outcome State Fault Refusal :=
  .next (s.loadRow (putBits (s.staged Reg.attLoadCtl) 1 0 1) (some (src, len)))
/-- UNLOAD: target 0 a program slot, 1 a weight object (Table 8.9). -/
def execUnload (target slot : Nat) (s : State) : Host.Outcome State Fault Refusal :=
  .next (s.loadRow (2 + 4 * (target % 2) + 65536 * (slot % 1024)) none)

/-! ### Weight objects (R213, R219–R222) -/

/-- A version that is loaded in a slot, active or about to be. -/
def Slot.loaded {α : Type} (x : Slot α) : Option α :=
  match x.next with
  | some v => v
  | none => x.active

/-- A loaded object. -/
def State.loadedObj (s : State) (n : Nat) : Option WObj := (tabGet s.prog.objects n).bind Slot.loaded
/-- A loaded match image: the version beside the active one, else the active one. -/
def State.loadedImage (s : State) (slot : Nat) : Option Image :=
  match tabGet s.mat.images (64 + slot) with
  | some i => some i
  | none => if (s.loadedObj (2048 + slot)).isSome then s.image slot else none

/-- Object number of a manifest: its kind and slot (R213, R219). -/
def objNumber (kind slot : Nat) : Option Nat :=
  if kind = 0 then (if slot < 1024 then some slot else none)
  else if kind = 1 then (if slot < 256 then some (1024 + slot) else none)
  else if kind = 2 ∨ kind = 3 then (if slot < 64 then some (2048 + slot) else none)
  else none

/-- Offset of the digest list: after the manifest and the tiles with their tags. -/
def digestListAt (w : Nat) : Nat := 512 + w * 65552

/-- Offset of the wrapped-key block. -/
def keyBlockAt (b : List Byte) : Nat := field b 20 4
/-- n of the wrapped-key block. -/
def keyCount (b : List Byte) : Nat := field b (keyBlockAt b) 2
/-- Entry i of the wrapped-key block (Table 14.4). -/
def keyEntry (b : List Byte) (i : Nat) : List Byte := slice b (keyBlockAt b + 16 + 1792 * i) 1792
/-- Entries of the wrapped-key block. -/
def keyEntriesOf (b : List Byte) : List (List Byte) := (List.range (keyCount b)).map (keyEntry b)

/-- The layout of the wrapped-key block (R356): its header, and entries that end in zeros. -/
def keyBlockOk (b : List Byte) : Bool :=
  let o := keyBlockAt b
  let n := keyCount b
  decide (1 ≤ n ∧ n ≤ 64) && decide (field b (o + 2) 2 = 1792) && (slice b (o + 4) 12).all (· == 0) && decide (o + 16 + 1792 * n ≤ b.length) &&
  (keyEntriesOf b).all (fun e => (slice e 1761 31).all (· == 0))

/-- The entry that the node unwraps: the one whose idd is its own (R357). -/
def State.myKeyEntry (s : State) (b : List Byte) : Option (List Byte) := (keyEntriesOf b).find? (fun e => decide (e.take 48 = s.sec.idd))

/-- The format of a weight object (R213). -/
def objFormatOk (b : List Byte) : Bool :=
  let w := field b 8 4
  decide (field b 0 4 = 0x57544F42) && (objNumber (field b 4 2) (field b 6 2)).isSome && decide (1 ≤ w ∧ w ≤ 4096) &&
  (slice b 76 436).all (· == 0) && decide (digestListAt w + 48 * w ≤ b.length) &&
  keyBlockOk b && decide (field b 72 4 < b.length)

/-- Tile j as the container holds it, with its tag. -/
def sealedTile (b : List Byte) (j : Nat) : List Byte := slice b (512 + 65552 * j) 65552

/-- The plaintext of tile j under a weight key: its nonce is set_id and j (R213); none where the tag fails. -/
def plainTile (key b : List Byte) (j : Nat) : Option (List Byte) :=
  gcmOpen key (slice b 12 8 ++ leBytes 4 j) [] ((sealedTile b j).take 65536) ((sealedTile b j).drop 65536)

/-- The plaintext tiles: every tag passes, every tile its entry of the digest list, and the list the manifest (R213). -/
def tilesOf (key b : List Byte) : Option (List (List Byte)) :=
  let w := field b 8 4
  let list := slice b (digestListAt w) (48 * w)
  if sha384 list ≠ slice b 24 48 then none
  else (allSome ((List.range w).map (plainTile key b))).filter (fun ts => ts.zipIdx.all (fun t => decide (sha384 t.1 = slice list (48 * t.2) 48)))

/-- The object a container holds, with its tiles and the weight key of the node's entry. -/
def objOf (b key : List Byte) (tiles : List (List Byte)) : WObj :=
  let w := field b 8 4
  { kind := field b 4 2, tiles := tiles, digests := (List.range w).map (fun i => slice b (digestListAt w + 48 * i) 48)
    manifest := sha384 (b.take 512), setId := slice b 12 8, cipher := (List.range w).map (sealedTile b)
    members := (keyEntriesOf b).map (fun e => e.take 48), key := key }

/-- The signature block of a container is accepted (R349): a COSE_Sign that starts at an offset. -/
def sigBlockOk (b : List Byte) (off : Nat) (f : SigPair) : Bool := ((cborItem (b.drop off)).map (fun i => coseBlockOk i f)).getD false

/-- The image is a TCAM image. -/
def Image.isTcam (i : Image) : Bool := match i.body with | .tcam _ => true | .automata _ => false

/-- Images that hold entries of the engine: active, loaded beside an active one, or kept by a run (R216, R219). -/
def State.heldImages (s : State) : List Image := (s.mat.images ++ s.mat.kept).map Prod.snd

/-- Ranges that held images of a kind take: first entry and entries. -/
def State.rangesOf (s : State) (tcam : Bool) : List (Nat × Nat) :=
  (s.heldImages.filter (fun i => i.isTcam == tcam)).map (fun i => (i.first, i.entries))

/-- A contiguous range for n entries between lo and hi, its start a multiple of a step: the lowest of those that begin where another ends (log 11). -/
def placeRange (used : List (Nat × Nat)) (lo hi step n : Nat) : Option Nat :=
  let up (x : Nat) : Nat := step * ceilDiv x step
  (((lo :: used.map (fun u => u.1 + u.2)).map up).filter (fun a => decide (lo ≤ a ∧ a + n ≤ hi) && clearOf used a n)).foldl
    (fun m a => some (match m with | none => a | some b => min a b)) none

/-- Check a match image and place it beside the slot's active version (R219, R222): a result code, or the image. -/
def State.imageFor (s : State) (o : WObj) : Except Nat Image :=
  let bs := o.tiles.flatten
  match imageBodyOf o.kind (s.fld Reg.matCfg 11 8) bs with
  | none => .error LoadResult.badFormat
  | some (body, vs) =>
    let img : Image := { body := body, casc := bitOf (byteAt bs 16) 0, tag := byteAt bs 17, first := 0, entries := 0, edits := 0
                         digest := o.manifest, version := 0, vectors := vs }
    if !vs.all (fun v => decide ((img.find v.2).record = v.1)) then .error LoadResult.digest
    else match body with
      | .automata a =>
        match placeRange (s.rangesOf false) 0 262144 1 a.entries.length with
        | none => .error LoadResult.noSpace
        | some first => .ok { img with entries := a.entries.length, first := first }
      | .tcam range =>
        -- a range starts at a multiple of 2^h, so that the holes fall on the TCAM indices R226 names
        match placeRange (s.rangesOf true) s.keyEntries 65536 (pow2 (s.fld Reg.matCfg 11 8)) range.length with
        | none => .error LoadResult.noSpace
        | some a => .ok { img with first := a, entries := range.length }

/-- Put a version beside a slot's active one (R216). -/
def loadSlot {α : Type} (l : List (Nat × Slot α)) (n : Nat) (v : Option α) : List (Nat × Slot α) :=
  tabPut l n (match tabGet l n with
    | some x => { x with next := some v }
    | none => { active := none, next := some v, version := 0 })

/-- Forget the places of a version's tiles. -/
def State.unplace (s : State) (obj ver : Nat) : State :=
  { s with pgw := { s.pgw with places := s.pgw.places.filter (fun p => match p.1.1.ofWeights with | some k => !(k.obj == obj && k.ver == ver) | none => true) } }

/-- Place n tiles of a version: each one's encrypted image in tier 1 and its working copy in protected tier 0; none where either lacks room (R215). -/
def State.placeTiles (s : State) (obj ver : Nat) : Nat → Option State
  | 0 => some s
  | n + 1 =>
    match s.placeTiles obj ver n with
    | none => none
    | some s =>
      match s.alloc.pick1 16 with
      | none => none
      | some (o, a) =>
        let s := { s with pgw := { s.pgw with allocs := a.serial, places := s.pgw.places ++ [((Place.image ⟨obj, ver, n⟩, false), (o, 64))] } }
        match s.findProt 64 1 with
        | none => none
        | some w => some { s with pgw := { s.pgw with allocs := s.pgw.allocs + 1, places := s.pgw.places ++ [((Place.work ⟨obj, ver, n⟩, false), (w, 64))] } }

/-- Programs loaded in the slots: active, and about to become active, but for those of one slot that a load replaces. -/
def State.loadedProgs (s : State) (but : Option Nat) : List Program :=
  s.prog.programs.flatMap (fun p => p.2.active.toList ++ (if some p.1 = but then [] else (p.2.next.bind id).toList))

/-- The version of an object that becomes active at the next Midnight. -/
def State.nextObj (s : State) (n : Nat) : Option WObj := (tabGet s.prog.objects n).bind (fun x => x.next.bind id)

/-- Resident bytes that the loaded programs hold in the SRAM of a core, each object in its active version and the one beside it, and those that runs keep of older versions (R199, R215, R216; log 91). -/
def State.residentBytes (s : State) (progs : List Program) (core : Nat) : Nat :=
  let on (g : Nat) (p : Program) : Bool := g == core / 8 && p.cores.contains (core % 8)
  let share (p : Program) (objs : List WObj) : Nat := if objs.isEmpty then 0 else shareLen objs p.streams.length
  let now := progs.foldl (fun n p => if on p.group p then n + share p (p.objects.filterMap s.activeObj) + share p (p.objects.filterMap s.nextObj) else n) 0
  s.progRuns.foldl (fun n c =>
    let p := c.2.prog
    if !on c.1 p then n
    else if !progs.any (fun x => x.digest == p.digest) then n + share p c.2.objs
    else n + share p (((p.objects.zip c.2.objs).filter (fun x => decide (s.activeObj x.1 ≠ some x.2))).map Prod.snd)) now

/-- The program cores' SRAM has room for what some programs hold. -/
def State.sramRoom (s : State) (progs : List Program) : Bool :=
  progs.all (fun p => p.cores.all (fun c => decide (s.residentBytes progs (8 * p.group + c) ≤ sramBytes)))

/-- Put an object beside its slot's active version, its tiles placed in both tiers and resident where programs use it; none where something lacks room (R215, R216). -/
def State.placeObject (s : State) (n : Nat) (o : WObj) : Option State :=
  let ver := s.verOf n + 1
  match (s.unplace n ver).placeTiles n ver o.tiles.length with
  | none => none
  | some s =>
    let s := { s with prog := { s.prog with objects := loadSlot s.prog.objects n (some o) } }
    if s.sramRoom (s.loadedProgs none) then some s else none

/-- ε of every norm is greater than zero in the resident weights of its core (R209); a pattern of exponent 255 is a finite number as any other (log 118). -/
def epsilonsOk (objs : List WObj) (p : Program) : Bool :=
  (p.streams.zipIdx).all (fun c => c.1.all (fun w =>
    let at_ := if StepWord.op w = 0x06 then some (2 * StepWord.row w) else if StepWord.op w = 0x07 then some (4 * StepWord.row w) else none
    match at_ with
    | none => true
    | some o =>
      let e := field (residentOf objs p.streams.length c.2 (StepWord.srcB w + o) 2) 0 2
      decide (0 < e ∧ e < 0x8000)))

/-- Every loaded program that names an object takes its new version: the ε of every norm is greater than zero there too (R209). -/
def State.epsilonsWith (s : State) (n : Nat) (o : WObj) : Bool :=
  (s.loadedProgs none).all (fun p => !p.objects.contains n || epsilonsOk (p.objects.filterMap (fun i => if i = n then some o else s.loadedObj i)) p)

/-- Load a weight object, rotary table or match image: its result. -/
def State.loadObject (s : State) (b : List Byte) (f : LoadFacts) : State × Nat :=
  match objNumber (field b 4 2) (field b 6 2) with
  | none => (s, LoadResult.badFormat)
  | some n =>
    if !objFormatOk b then (s, LoadResult.badFormat)
    else if !sigBlockOk b (field b 72 4) f.sig then (s, LoadResult.badSignature)
    else match s.myKeyEntry b with
      | none => (s, LoadResult.notMember)
      | some e =>
        match s.unwrapKey (slice b 12 8) (b.take 24) e with
        | none => (s.raiseBit Reg.secEvent 4, LoadResult.notMember)
        | some key =>
        match tilesOf key b with
        | none => (s, LoadResult.digest)
        | some tiles =>
          let o := objOf b key tiles
          if o.kind = 1 ∧ (rotaryOf o.tiles.flatten).isNone then (s, LoadResult.badFormat)
          else if !s.epsilonsWith n o then (s, LoadResult.badSchedule)
          else if n < 2048 then (match s.placeObject n o with | some t => (t, LoadResult.ok) | none => (s, LoadResult.noSpace))
          else
            -- a version loaded earlier and not yet active gives its place up
            let s1 := { s with mat := { s.mat with images := tabDel s.mat.images (64 + (n - 2048)) } }
            match s1.imageFor o with
            | .error c => (s, c)
            | .ok i => match s1.placeObject n o with
              | some t => (t.putImage (64 + (n - 2048)) i, LoadResult.ok)
              | none => (s, LoadResult.noSpace)

/-! ### Programs (R207, R212, R235) -/

/-- Bytes of the streams. -/
def streamBytes (b : List Byte) : Nat := 16 * field b 6 2 * field b 60 4

/-- Reserved parts of a step word are zero: sflags [7:3], and all of sflags, m and n of a MATCH (Table 8.4, R235). -/
def stepReserved (w : Nat) : Bool :=
  decide (bitsOf w 15 11 = 0) && (StepWord.op w != 0x0D || decide (bitsOf w 15 8 = 0 ∧ StepWord.m w = 0 ∧ StepWord.n w = 0))

/-- The format of a program container: no reserved field of its header or of a step word is set (R207, Table 8.6). -/
def progFormatOk (b : List Byte) : Bool :=
  let cores := field b 6 2
  let nobj := field b 26 2
  decide (field b 0 4 = 0x48505247) && decide (field b 4 2 = 1) && decide (1 ≤ cores ∧ cores ≤ 8) && decide (field b 8 2 < 4096) &&
  decide (byteAt b 10 < 24) && decide (byteAt b 11 = 0) && (decide (field b 12 4 = 0) || (shapeFaults (field b 12 4) 12).isEmpty) &&
  decide (1 ≤ field b 24 2 ∧ field b 24 2 ≤ 4096) && decide (nobj ≤ 16) &&
  (List.range 16).all (fun i => if i < nobj then decide (field b (28 + 2 * i) 2 < 1024) else decide (field b (28 + 2 * i) 2 = 0xFFFF)) &&
  (slice b 124 132).all (· == 0) && decide (256 + streamBytes b ≤ field b 120 4 ∧ field b 120 4 < b.length) &&
  (List.range (streamBytes b / 16)).all (fun i => stepReserved (field b (256 + 16 * i) 16))

/-- Occupancy of a step (Tables 8.5, 9.5); the MATCH step's depends on its image. -/
def occupancy (w : Nat) (match_ : Nat) : Nat :=
  let e := StepWord.e w
  let io := ceilDiv (StepWord.ioBytes w) 64 + 16
  match StepWord.op w with
  | 0x01 | 0x02 => io
  | 0x03 => (if StepWord.fmt w = 2 then 2 else 1) * (ceilDiv (StepWord.m w * StepWord.k w * StepWord.n w) 1024 + 16)
  | 0x04 | 0x05 => ceilDiv e 256 + 8
  | 0x06 => ceilDiv (2 * e) 256 + 32
  | 0x07 => ceilDiv (3 * e) 256 + 32
  | 0x08 => ceilDiv e 64 + 8
  | 0x09 => ceilDiv (2 * e) 256 + 8
  | 0x0A => ceilDiv e 256 + 8
  | 0x0B => ceilDiv e 64 + 8
  | 0x0C => 32
  | 0x0D => match_
  | _ => 0

/-- Occupancy of a MATCH step on an image (Table 9.5). -/
def matchOccupancy (img : Image) (b : Nat) : Nat :=
  if img.casc then
    let f := match img.body with | .tcam _ => 42 | .automata _ => 22 + b
    ceilDiv (21 * (4 * f + 184)) 20 + 16
  else match img.body with
    | .tcam _ => 64
    | .automata _ => 2 * (b + 1) + 24

/-- The input length a MATCH step may have on an image (R235). -/
def matchLenOk (img : Image) (b : Nat) : Bool :=
  match img.body with
  | .tcam _ => b == 20
  | .automata _ => decide (1 ≤ b ∧ b ≤ (if img.casc then 128 else 407))

/-- A step of a known kind (Tables 8.4, 8.5; R235): an unknown op, weight format 3 of MATMUL, a function code above 4 and a rotary table above 255 are refused with BAD_SCHEDULE (DESIGN CHOICE, log 133). SEG and END may start at 840, after a step that ends there (DESIGN CHOICE, log 102). -/
def stepFormOk (w : Nat) : Bool :=
  let op := StepWord.op w
  decide (1 ≤ op ∧ op ≤ 0x0F) && decide (StepWord.start w < 840 ∨ 0x0E ≤ op) &&
  (op != 0x03 || decide (StepWord.fmt w ≠ 3)) && (op != 0x08 || decide (StepWord.k w ≤ 4)) &&
  (op != 0x0A || decide (StepWord.k w ≤ 255)) && (op != 0x0B || decide (StepWord.k w ≤ 255))

/-- Buffer ranges (address, bytes) of a step. -/
def bufferRanges (w : Nat) (cores : Nat) : List (Nat × Nat) :=
  let e := StepWord.e w
  let d := StepWord.dst w
  let a := StepWord.srcA w
  match StepWord.op w with
  | 0x01 | 0x02 => [(d, StepWord.ioBytes w)]
  | 0x03 => [(d, 2 * StepWord.m w * StepWord.n w), (a, (if StepWord.fmt w = 2 then 2 else 1) * StepWord.m w * StepWord.k w)]
  | 0x04 | 0x05 => [(d, 2 * e), (a, 2 * e), (StepWord.srcB w, 2 * e)]
  | 0x06 | 0x07 | 0x08 | 0x0B => [(d, 2 * e), (a, 2 * e)]
  | 0x09 | 0x0A => [(d, e), (a, 2 * e)]
  | 0x0C => [(d, cores * StepWord.ioBytes w)]
  | 0x0D => [(d, 32), (a, StepWord.k w)]
  | _ => []

/-- Resident range (offset, bytes) of a step (log 41). -/
def weightRange (w : Nat) : Nat × Nat :=
  let kn := StepWord.k w * StepWord.n w
  let b := if StepWord.bias w then 2 * StepWord.n w else 0
  match StepWord.op w with
  | 0x03 => (StepWord.srcB w, if StepWord.fmt w = 2 then 2 * kn + b else kn + StepWord.n w + b)
  | 0x06 => (StepWord.srcB w, 2 * StepWord.row w + 2)
  | 0x07 => (StepWord.srcB w, 4 * StepWord.row w + 2)
  | _ => (0, 0)

/-- A place in the check of a stream: segments ended, end of the step before, END seen, in order so far. -/
structure StreamPos where
  /-- Segments ended. -/
  seg : Nat
  /-- First cycle the next step may have. -/
  free : Nat
  /-- END has been met. -/
  ended : Bool
  /-- Every check so far has held. -/
  ok : Bool
  deriving DecidableEq, Repr

/-- One step of a stream's check (R212, R235). -/
def State.streamStep (s : State) (share cores group : Nat) (p : StreamPos) (w : Nat) : StreamPos :=
  if p.ended then p
  else
    let img := if StepWord.op w = 0x0D then s.loadedImage (bitsOf w 79 64) else none
    let occ := occupancy w ((img.map (fun i => matchOccupancy i (StepWord.k w))).getD 0)
    let casc := (img.map (·.casc)).getD false
    let stop := StepWord.start w + occ
    let wr := weightRange w
    let ok := p.ok && stepFormOk w && decide (p.free ≤ StepWord.start w) && decide (stop ≤ 840) &&
      (bufferRanges w cores).all (fun r => decide (r.1 + r.2 ≤ sramBytes)) && decide (wr.1 + wr.2 ≤ share ∨ wr.2 = 0) &&
      (match img with | some i => matchLenOk i (StepWord.k w) | none => true) &&
      (!casc || decide (s.fld Reg.matCascCfg 11 8 = group))
    if StepWord.op w = 0x0E then { p with seg := p.seg + 1, free := 0, ok := ok }
    else if StepWord.op w = 0x0F then { p with seg := p.seg + 1, ended := true, ok := ok }
    else { p with free := stop, ok := ok }

/-- Segments in which a stream has a cascaded MATCH step, one entry for each. -/
def State.cascSegs (s : State) : List Nat → Nat → List Nat
  | [], _ => []
  | w :: t, seg =>
    if StepWord.op w = 0x0F then []
    else if StepWord.op w = 0x0E then s.cascSegs t (seg + 1)
    else if StepWord.op w = 0x0D ∧ ((s.loadedImage (bitsOf w 79 64)).map (·.casc)).getD false then seg :: s.cascSegs t seg
    else s.cascSegs t seg

/-- No segment of a program has more than one cascaded MATCH step, over all its cores (R200, R235). -/
def State.cascOk (s : State) (p : Program) : Bool :=
  let segs := p.streams.flatMap (fun ws => s.cascSegs ws 0)
  decide segs.Nodup

/-- A stream passes R212 and R235. -/
def State.streamOk (s : State) (share cores group segments : Nat) (ws : List Nat) : Bool :=
  let p := ws.foldl (s.streamStep share cores group) ⟨0, 0, false, true⟩
  p.ok && p.ended && p.seg == segments

/-- Groups that a class's program may run on here: program groups that the membership entry of its slice names (R199, R302; log 29). -/
def State.groupsFor (s : State) (cls : Nat) : List Nat :=
  let mine := (List.range 12).filter (fun g => bitOf (s.live Reg.attProgCg) g)
  match s.map.cur with
  | none => mine
  | some m =>
    let slice := (tabGet m.classes cls).getD 0
    let bits := (((tabGet m.members s.map.id).getD []).filter (fun e => e.2.slice == slice)).foldl (fun b e => b ||| e.2.pgroups) 0
    mine.filter (fun g => bitOf bits g)

/-- A group with enough cores left, and room in their SRAM beside the other slots' programs: the cascade's own group where the program names a cascaded image, else the lowest (log 11). -/
def State.groupChoice (s : State) (slot : Nat) (p : Program) : Option (Nat × List Nat) :=
  let free (g : Nat) : List Nat := (List.range 8).filter (fun c => !s.coreRemoved (8 * g + c))
  let n := p.streams.length
  let room (g : Nat) : Bool := s.sramRoom ({ p with group := g, cores := (free g).take n } :: s.loadedProgs (some slot))
  let ok := (s.groupsFor p.cls).filter (fun g => decide (n ≤ (free g).length) && room g)
  let casc := (p.named 0x0D).any (fun i => ((s.loadedImage i).map (·.casc)).getD false)
  let want := s.fld Reg.matCascCfg 11 8
  ((if casc ∧ ok.contains want then some want else ok.head?)).map (fun g => (g, (free g).take n))

/-- The program a container holds, not yet bound. -/
def programOfBytes (b : List Byte) : Program :=
  let cores := field b 6 2
  let steps := field b 60 4
  { owner := field b 8 2, cls := byteAt b 10, shape := field b 12 4, inBytes := field b 16 4, outBytes := field b 20 4
    segments := field b 24 2, objects := (List.range (field b 26 2)).map (fun i => field b (28 + 2 * i) 2)
    streams := (List.range cores).map (fun c => (List.range steps).map (fun i => field b (256 + 16 * (c * steps + i)) 16))
    digest := slice b 64 48, setId := slice b 112 8, group := 0, cores := [] }

/-- Resident bytes on a core of what other loaded programs hold of objects that a program does not name (R365). -/
def State.foreignBytes (s : State) (slot : Nat) (p : Program) (core : Nat) : Nat :=
  (s.loadedProgs (some slot)).foldl (fun n x =>
    let objs := (x.objects.filter (fun o => !p.objects.contains o)).filterMap s.loadedObj
    if x.group == core / 8 && x.cores.contains (core % 8) && !objs.isEmpty then n + shareLen objs x.streams.length else n) 0

/-- No buffer of a program overlaps the resident weights of objects it does not name, which lie at the top of the SRAM of the cores it takes (R365; log 41). -/
def State.buffersClear (s : State) (slot : Nat) (p : Program) : Bool :=
  match s.groupChoice slot p with
  | none => true
  | some (g, cores) =>
    (p.streams.zip cores).all (fun c => c.1.all (fun w => (bufferRanges w p.streams.length).all (fun r => r.2 == 0 || decide (r.1 + r.2 + s.foreignBytes slot p (8 * g + c.2) ≤ sramBytes))))

/-- Load a program into a slot: its result (R215). While an object it names is not loaded, its weight references are judged by the share of those that are (DESIGN CHOICE, log 134). -/
def State.loadProg (s : State) (slot : Nat) (b : List Byte) (f : LoadFacts) : State × Nat :=
  if !progFormatOk b then (s, LoadResult.badFormat)
  else
    let p := programOfBytes b
    let named := p.objects.map s.loadedObj ++ (p.named 0x0D).map (fun i => if i < 64 then s.loadedObj (2048 + i) else none)
    let tables := (p.named 0x0B).map (fun i => s.loadedObj (rotObj i))
    let objs := (p.objects.filterMap s.loadedObj)
    if named.any (fun o => match o with | some x => decide (x.setId ≠ p.setId) | none => false) then (s, LoadResult.badFormat)
    else if !sigBlockOk b (field b 120 4) f.sig then (s, LoadResult.badSignature)
    else if !f.member then (s, LoadResult.notMember)
    else if sha384 (slice b 256 (streamBytes b)) ≠ p.digest then (s, LoadResult.digest)
    else
      let group := ((s.groupChoice (slot % 64) p).map Prod.fst).getD (s.fld Reg.matCascCfg 11 8)
      let share := shareLen objs p.streams.length
      if !p.streams.all (s.streamOk share p.streams.length group p.segments) ∨ !s.cascOk p ∨ !s.buffersClear (slot % 64) p then (s, LoadResult.badSchedule)
      else if (named ++ tables).any Option.isNone then (s, LoadResult.missingObject)
      else if !epsilonsOk objs p then (s, LoadResult.badSchedule)
      else match s.groupChoice (slot % 64) p with
        | none => (s, LoadResult.noSpace)
        | some (g, cores) =>
          let v := { p with group := g, cores := cores }
          ({ s with prog := { s.prog with programs := loadSlot s.prog.programs (slot % 64) (some v) } }, LoadResult.ok)

/-- An active program names an object (R216). -/
def State.objInUse (s : State) (n : Nat) : Bool :=
  s.prog.programs.any (fun p => match p.2.active with | some x => x.needs.contains n | none => false)

/-- Unload a slot: its result (R216). A program slot above 63 is taken modulo 64 (DESIGN CHOICE, log 132). It leaves at the next Midnight, as a load into an empty slot comes at it; of an empty slot it answers OK (DESIGN CHOICE, log 101). -/
def State.unloadSlot (s : State) (target slot : Nat) : State × Nat :=
  if target = 0 then
    (if (tabGet s.prog.programs (slot % 64)).isNone then (s, LoadResult.ok)
     else ({ s with prog := { s.prog with programs := loadSlot s.prog.programs (slot % 64) none } }, LoadResult.ok))
  else if s.objInUse slot then (s, LoadResult.inUse)
  else if (tabGet s.prog.objects slot).isNone then (s, LoadResult.ok)
  else (State.dropStale { s with prog := { s.prog with objects := loadSlot s.prog.objects slot none } }, LoadResult.ok)

/-- The load or unload has all it waits for. -/
def Load.ready (x : Load) : Bool := x.action == 2 || x.failed || decide (x.len ≤ x.got.length)

/-- LOAD_DONE: the container is checked and the outcome stands in ATT_LOAD_STATUS (R215). -/
def execLoadDone (facts : LoadFacts) (s : State) : Host.Outcome State Fault Refusal :=
  match s.prog.load with
  | none => .next s
  | some x =>
    if !s.running ∨ !x.ready then .next s
    else
      let r : State × Nat :=
        if x.action = 2 then s.unloadSlot x.target x.slot
        else if x.failed then (s, LoadResult.badFormat)
        else if x.action = 0 then s.loadProg x.slot (x.got.take x.len) facts
        else s.loadObject (x.got.take x.len) facts
      let s := { r.1 with prog := { r.1.prog with load := none } }
      .next ((s.putStatus Reg.attLoadStatus (putBits (putBits (s.live Reg.attLoadStatus) 0 0 0) 15 8 r.2)).raiseBit Reg.attProgEvent 0)

/-! ### Midnight: versions become active (R216, R229) -/

/-- A slot's waiting version becomes active. -/
def Slot.activate {α : Type} (x : Slot α) : Slot α :=
  match x.next with
  | none => x
  | some v => { active := v, next := none, version := x.version + b2n v.isSome }

/-- Replace or remove the engine's image of a slot whose object changes; the old version stays for the runs that keep it, until dropStale (R216). An image that is unloaded loses its pending edits as one that is replaced does (R229; DESIGN CHOICE, log 136). -/
def State.swapImage (s : State) (slot : Nat) (version : Nat) : State :=
  let new := tabGet s.mat.images (64 + slot)
  let images := tabDel (tabDel s.mat.images (64 + slot)) slot
  let kept := s.mat.kept ++ ((s.image slot).map (fun i => (slot, i))).toList
  let s := { s with mat := { s.mat with kept := kept, images := match new with | some i => tabPut images slot { i with version := version } | none => images } }
  s.discardEdits slot

/-- Every version loaded or unloaded since the last Midnight takes effect. -/
def State.activateVersions (s : State) : State :=
  let swaps := (s.prog.objects.filter (fun o => decide (2048 ≤ o.1) && o.2.next.isSome)).map (fun o => (o.1 - 2048, o.2.activate.version))
  let live {α : Type} (l : List (Nat × Slot α)) : List (Nat × Slot α) :=
    (l.map (fun p => (p.1, p.2.activate))).filter (fun p => p.2.active.isSome || decide (p.2.version ≠ 0))
  let was := s.prog.objects.filterMap (fun o => if o.2.next.isSome then o.2.active.map (fun x => ((o.1, o.2.version), x)) else none)
  let s := { s with prog := { s.prog with programs := live s.prog.programs, objects := live s.prog.objects, older := s.prog.older ++ was } }
  (swaps.foldl (fun s x => s.swapImage x.1 x.2) s).dropStale

/-! ### ATT_PROG_CG (R199) -/

/-- Attention groups of a mask. -/
def attentionGroups (mask : Nat) : Nat := ((List.range 12).filter (fun g => !bitOf mask g)).length

/-- A mask removes no group that holds a loaded program and leaves 8 attention groups. -/
def State.cgOk (s : State) (mask : Nat) : Bool :=
  decide (8 ≤ attentionGroups mask) &&
  s.prog.programs.all (fun p => (match p.2.active with | some x => bitOf mask x.group | none => true) &&
    (match p.2.next with | some (some x) => bitOf mask x.group | _ => true))

/-! ### The start of a minute (R200, R201) -/

/-- Program requests that wait for their minute, not held back by anything else. -/
def State.progHeld (s : State) : List Req :=
  s.sch.held.filter (fun r => (r.op == .run || r.op == .projectAttend) && decide (r.notBefore ≤ s.now) && !s.holdsBack r)

/-- A class may run programs in the minute that an owner has. -/
def State.progOwner (s : State) (owner cls : Nat) : Bool := owner == cls || (owner == Owner.shared && !s.isolated cls)

/-- Requests of the minute's class that name no program they may see: they complete with NO_PROGRAM (R206). -/
def State.noPrograms (s : State) (owner : Nat) : State :=
  (s.progHeld.filter (fun r => s.progOwner owner r.cls && (s.programOf r).isNone)).foldl (fun s r => s.release r) s

/-- The next request of a class for a group (R201). -/
def State.nextOf (s : State) (g cls : Nat) : Option Req :=
  s.progHeld.find? (fun r => match s.programOf r with | some p => p.group == g && p.cls == cls | none => false)

/-- The run of a class on a group, at work on it or set aside (R201). -/
def State.runOn (s : State) (g cls : Nat) : Option ProgRun := (s.progRuns.find? (fun x => x.1 == g && x.2.prog.cls == cls)).map Prod.snd

/-- Set the run of a group aside, with what its cores hold (R200, R201; log 90). -/
def State.park (s : State) (g : Nat) : State :=
  match tabGet s.prog.current g with
  | none => s
  | some p =>
    let mine := p.coreNums g
    { s with prog := { s.prog with
        current := tabDel s.prog.current g, parked := s.prog.parked ++ [(g, (p, s.prog.cores.filter (fun c => mine.contains c.1)))]
        cores := s.prog.cores.filter (fun c => !mine.contains c.1) } }

/-- Put a run that was set aside back on its group. -/
def State.bring (s : State) (g rid : Nat) : State :=
  match s.prog.parked.find? (fun x => x.1 == g && x.2.1.rid == rid) with
  | none => s
  | some x =>
    let s := s.park g
    { s with prog := { s.prog with
        parked := s.prog.parked.filter (fun y => y.2.1.rid != rid), current := tabPut s.prog.current g x.2.1
        cores := x.2.2.foldl (fun l c => tabPut l c.1 c.2) s.prog.cores } }

/-- No core that a program is bound to has been removed. -/
def State.coresWhole (s : State) (g : Nat) (p : Program) : Bool := p.cores.all (fun c => !s.coreRemoved (8 * g + c))

/-- A run that holds part of a removed core takes the cores of the same program's new binding on its group, once one is active (R330). -/
def State.rebind (s : State) (g : Nat) : State :=
  match tabGet s.prog.current g with
  | none => s
  | some p =>
    if p.busy ∨ s.coresWhole g p.prog then s
    else
      match (tabGet s.prog.programs p.slot).bind (fun x => x.active) with
      | none => s
      | some q =>
        if q.digest ≠ p.prog.digest ∨ q.group ≠ g ∨ !s.coresWhole g q then s
        else
          let old := p.coreNums g
          let ctxs := old.map s.core
          let kept := s.prog.cores.filter (fun c => !old.contains c.1)
          let p' := { p with prog := { p.prog with cores := q.cores } }
          { s with prog := { s.prog with current := tabPut s.prog.current g p'
                                         cores := ((p'.coreNums g).zip ctxs).foldl (fun l c => tabPut l c.1 c.2) kept } }

/-- A tile that a run reads as it goes on: of its rotary tables, or of a match image whose engine copy is bad (R75, R231). -/
def State.runReads (s : State) (p : ProgRun) (k : TileKey) : Bool :=
  p.ropeTiles.contains k || (k.obj ≥ 2048 && s.mat.refill.contains (k.obj - 2048) && p.needs.contains (k.obj, k.ver))

/-- Tiles that a run reads as it goes on are poisoned: whether the repair of one has been given up (R75, R196, R231). -/
def State.runPoison (s : State) (p : ProgRun) : Option Bool := (s.needsPoison (s.runReads p)).map Prod.snd

/-- A run may go on in a minute of an owner: its request is not stalled, what it reads as it goes on is whole, and so are its cores; after a halt its class must own the minute (R196, R200, R217, R330). What it holds in SRAM is good, whatever becomes of the copies in the tiers. -/
def State.mayGo (s : State) (owner g : Nat) (p : ProgRun) : Bool :=
  match s.run p.rid with
  | none => false
  | some r => r.stalls.all (fun x => s.stallOver r x.1) && (s.runPoison p).isNone && s.coresWhole g p.prog && (!p.waitOwned || owner == p.prog.cls)

/-- A run that needs a poisoned tile of a rotary table, or a match image that is being refilled, stalls with WEIGHT_REPAIR, or ends where its repair has been given up (R75, R196, R231). -/
def State.ropeStalls (s : State) : State :=
  s.progRuns.foldl (fun s c =>
    if c.2.busy then s
    else match s.runPoison c.2 with
      | none => s
      | some false => s.stallRun c.2.rid
      | some true => s.failRun c.2.rid Status.weightsUnavailable (((s.needsPoison (s.runReads c.2)).map (fun x => poisonDetail x.1)).getD 0)) s

/-- Classes that may take a group in a minute: its owner; in a SHARED minute all in turn (R200). -/
def State.groupClasses (s : State) (owner g : Nat) : List Nat :=
  if owner ≠ Owner.shared then [owner]
  else
    let last := (tabGet s.prog.sharedLast g).getD 23
    ((List.range 24).map (fun i => (last + 1 + i) % 24)).filter (fun c => !s.isolated c)

/-- What a class has for a group: its run, where it may go on, or its next request where it has no run. -/
def State.groupWork (s : State) (owner g cls : Nat) : Option (ProgRun ⊕ Req) :=
  match s.runOn g cls with
  | some p => if s.mayGo owner g p then some (.inl p) else none
  | none => (s.nextOf g cls).map .inr

/-- One group at tick 0: the run of a class goes on, or its next request starts (R200, R201). -/
def State.groupMinute (s : State) (owner g : Nat) : Nat → State
  | 0 => s
  | n + 1 =>
    match (s.groupClasses owner g).findSome? (fun c => (s.groupWork owner g c).map (fun x => (c, x))) with
    | none => s
    | some (c, x) =>
      let s := if owner = Owner.shared then { s with prog := { s.prog with sharedLast := tabPut s.prog.sharedLast g c } } else s
      match x with
      | .inl p =>
        let s := s.bring g p.rid
        (match s.run p.rid with
         | none => s
         | some r => (r.stalls.foldl (fun s x => s.unstall p.rid x.1) s).startSegment g)
      | .inr r =>
        let s := (s.park g).release r
        -- a request that failed a dispatch check leaves the group to the next
        if (tabGet s.prog.current g).isSome then s else s.groupMinute owner g n

/-- A group's runs take the cores of new bindings where theirs have been removed (R330). -/
def State.rebindAll (s : State) (g : Nat) : State :=
  ((s.progRuns.filter (fun x => x.1 == g)).map (fun x => x.2.rid)).foldl (fun s rid => (s.bring g rid).rebind g) s

/-- Tick 0 of a minute: one segment on each program group (R200). -/
def State.programMinute (s : State) (owner : Nat) : State :=
  if s.mode = 3 ∨ !(owner < 24 ∨ owner = Owner.shared) then s
  else
    let s := (s.noPrograms owner).ropeStalls
    ((List.range 12).filter (fun g => bitOf (s.live Reg.attProgCg) g)).foldl (fun s g =>
      if ((tabGet s.prog.current g).map (·.busy)).getD false then s else (s.rebindAll g).groupMinute owner g (s.sch.held.length + 1)) s

end Sys2Proof.Machine
end

