-- ==== Sys2Proof/Machine/Transport.lean ====
section
/-!
DEFINITION. Acknowledgements, retries and responses of queue pairs (R273–R276, R280, R287).
-/

namespace Sys2Proof.Machine

open Sys2Proof

/-- A packet that is no REQUEST, as the cold-arrival buffer holds it. -/
def coldOf (p : Tpkt) : Cold :=
  ⟨⟨.qp, p.dqp, p.psn, p.part, p.msg.length, bitOf p.tflags 0, p.src, p.sqp, []⟩, p.msg, some p, false⟩

/-- Context of a packet that acknowledges or answers (R272, R280). -/
def State.answerCtx (s : State) (p : Tpkt) : Except State (Qp × State) := s.packetCtx (coldOf p)

/-- a comes at or before b in PSN order. -/
def psnLe (a b : Nat) : Bool := decide (psnDelta b a < pow2 23)

/-- SPAN_WORKs and transfers end when their message is acknowledged: nothing answers them on this queue pair (R91, R315). -/
def endsAtAck (k : Nat) (acked : List OutMsgQ) (o : Nat × NodeOp) : Bool :=
  o.2.qpn == k && acked.any (fun m => m.op == o.1) && (match o.2.kind with | .spanWork _ | .transfer => true | _ => false)

/-- An ACK of PSN n covers every PSN up to n; progress restarts the timer, but not in ERROR, nor while a NOT_READY of a message still unacknowledged makes it wait (R274, R275, R280). -/
def State.ackUpTo (s : State) (k : Nat) (q : Qp) (n : Nat) : State :=
  let acked := q.sent.filter (fun m => psnLe m.psn n)
  let rest := q.sent.filter (fun m => !psnLe m.psn n)
  if acked.isEmpty then s
  else
    let wait := q.nrWait.filter (fun w => rest.any (fun m => m.psn == w.2))
    let q := { q with sent := rest, sndUna := (n + 1) % pow2 24, retries := 0, timeout := 8192, progressed := true, nrWait := wait
                      deadline := if rest.isEmpty ∨ wait.isSome ∨ q.state = .error then none else some (s.now + 8192) }
    let s := s.putQp k q
    ({ s with que := { s.que with respBytes := s.que.respBytes - respOf acked, ops := s.que.ops.filter (fun o => !endsAtAck k acked o) } }).sendLater k

/-- An ACK arrives: of a holder's reply, or on a queue pair. -/
def State.ackIn (s : State) (p : Tpkt) : State :=
  if bitOf p.tflags 2 then
    { s with que := { s.que with holderOut := s.que.holderOut.filter (fun h => !(h.serial % pow2 24 == p.psn && h.endpoint == p.src)) } }
  else match s.answerCtx p with
    | .error s => s
    | .ok (q, s) => s.ackUpTo p.dqp q p.psn

/-- TRANSPORT_ACK. -/
def execTransportAck (p : Tpkt) (s : State) : Host.Outcome State Fault Refusal := .next (if s.running then s.ackIn p else s)

/-- A NAK arrives: SEQUENCE resends from the PSN named; QP_ERROR puts the queue pair into ERROR (R275, Table 11.4). -/
def State.nakIn (s : State) (p : Tpkt) : State :=
  match s.answerCtx p with
  | .error s => s
  | .ok (q, s) =>
    if p.hint % 256 = 2 then (if q.state = .ready then s.failQp p.dqp .error else s)
    else if p.hint % 256 = 1 ∧ q.state ≠ .error then
      let q := { q with retries := if q.progressed then q.retries else min 7 (q.retries + 1), progressed := false }
      (s.putQp p.dqp q).resendFrom p.dqp p.psn
    else s

/-- TRANSPORT_NAK. -/
def execTransportNak (p : Tpkt) (s : State) : Host.Outcome State Fault Refusal := .next (if s.running then s.nakIn p else s)

/-- A NOT_READY arrives: the wait replaces the timer for that retry (R280). -/
def State.notReadyIn (s : State) (p : Tpkt) : State :=
  match s.answerCtx p with
  | .error s => s
  | .ok (q, s) =>
    if q.sent.isEmpty ∨ q.state = .error then s
    else s.putQp p.dqp { q with nrWait := some (s.now + 1024 * p.hint, p.psn), deadline := none }

/-- TRANSPORT_NOT_READY. -/
def execTransportNotReady (p : Tpkt) (s : State) : Host.Outcome State Fault Refusal := .next (if s.running then s.notReadyIn p else s)

/-- NOT_READY_WAIT_EXPIRY: resend from the named PSN; the timeout does not double (R280). -/
def execNotReadyWaitExpiry (qpn : Nat) (s : State) : Host.Outcome State Fault Refusal :=
  match s.qp qpn with
  | none => .next s
  | some q =>
    match q.nrWait with
    | none => .next s
    | some (t, psn) =>
      let s := s.advanceTo t
      .next ((s.putQp qpn { q with nrWait := none, deadline := some (s.now + q.timeout), progressed := false }).resendFrom qpn psn)

/-- The operation a RESPONSE answers: by the request_id it carries. -/
def State.opOfReply (s : State) (k : Nat) (m : List Byte) : Option (Nat × NodeOp) :=
  let id := field m 8 8
  s.que.ops.find? (fun o => o.2.qpn == k && (match o.2.kind with
    | .forward rid | .mirror rid => s.sch.forwarded.any (fun r => r.rid == rid && Msg.requestId r.msg == id)
    | _ => o.1 == id))

/-- A RESPONSE arrives: an answer to an operation of this node, accepted in PSN order (R273, R274). -/
def State.responseIn (s : State) (p : Tpkt) : State :=
  match s.answerCtx p with
  | .error s => s
  | .ok (q, s) =>
    if q.state = .error then s
    else match s.psnVerdict p.dqp q p.psn false with
      | .done s => s
      | .accept s =>
        match s.opOfReply p.dqp p.msg with
        | none => s
        | some o => (s.dropOp o.1).opAnswered o.2 p.msg

/-- TRANSPORT_RESPONSE. -/
def execTransportResponse (p : Tpkt) (s : State) : Host.Outcome State Fault Refusal := .next (if s.running then s.responseIn p else s)

/-- A held packet that is no REQUEST goes on, its context on chip (R280). -/
def State.transportIn (s : State) (p : Tpkt) : State :=
  if p.tkind = 1 then s.responseIn p else if p.tkind = 2 then s.ackIn p else if p.tkind = 3 then s.nakIn p else s.notReadyIn p

/-- Key of a holder's reply in QP_RETRY_TIMEOUT: its serial above this (log 39). -/
abbrev holderBase : Nat := 0x200000

/-- A holder's reply is resent, or given up (R275, R287). -/
def State.holderRetry (s : State) (serial : Nat) : State :=
  match s.que.holderOut.find? (fun h => h.serial == serial) with
  | none => s
  | some h =>
    let s := s.advanceTo h.deadline
    let rest := s.que.holderOut.filter (fun x => x.serial != serial)
    if 7 ≤ h.retries then { s with que := { s.que with holderOut := rest } }
    else
      let t := min 1048576 (2 * h.timeout)
      let h := { h with retries := h.retries + 1, timeout := t, deadline := s.now + t }
      ({ s with que := { s.que with holderOut := rest ++ [h] } }).sendTransport 3 h.endpoint h.qpn 5 (h.serial % pow2 24) 1 h.part 0 h.sqp h.msg

/-- QP_RETRY_TIMEOUT: resend everything unacknowledged with a doubled timeout, or exhaust (R275, R276). -/
def execQpRetryTimeout (qpn : Nat) (s : State) : Host.Outcome State Fault Refusal :=
  if holderBase ≤ qpn then .next (s.holderRetry (qpn - holderBase))
  else match s.qp qpn with
    | none => .next s
    | some q =>
      match q.deadline with
      | none => .next s
      | some t =>
        let s := s.advanceTo t
        if 7 ≤ q.retries then .next (s.exhaust qpn)
        else
          let n := min 1048576 (2 * q.timeout)
          .next ((s.putQp qpn { q with retries := q.retries + 1, timeout := n, deadline := some (s.now + n), progressed := false }).resendFrom qpn q.sndUna)

end Sys2Proof.Machine
end

