-- ==== Sys2Proof/Machine/QueueCmds.lean ====
section
/-!
DEFINITION. QUE_CMD (R270, R277, R281, R282, R286, R297, R380) and the rows that stand for its commits.
-/

namespace Sys2Proof.Machine

open Sys2Proof

/-! ### Results (Table 11.15) -/
namespace QueResult
/-- OK. -/
abbrev ok := 0
/-- BAD_STATE. -/
abbrev badState := 1
/-- BAD_FIELD. -/
abbrev badField := 2
/-- PIN_LIMIT. -/
abbrev pinLimit := 3
/-- NO_CONTEXT. -/
abbrev noContext := 4
/-- IN_USE. -/
abbrev inUse := 5
/-- NO_TABLE. -/
abbrev noTable := 6
end QueResult

/-- End a command with its result. -/
def State.queEnd (s : State) (r : Nat) : State :=
  let s := { s with que := { s.que with cmd := none } }
  (s.putStatus Reg.queCmdStatus (16 * r)).setLive Reg.quePinned s.pinnedCount

/-- QUE_CMD_DATA as bytes. -/
def State.queData (s : State) : List Byte := (List.range 64).flatMap (fun i => leBytes 4 (s.live (Reg.queCmdData + 4 * i)))

/-- Put bytes into QUE_CMD_DATA: it holds the result of a read (Table 11.12). -/
def State.putQueData (s : State) (b : List Byte) : State :=
  (List.range 64).foldl (fun s i =>
    let a := Reg.queCmdData + 4 * i
    (s.setLive a (field b (4 * i) 4)).setStaged a (field b (4 * i) 4)) s

/-! ### Queue pairs -/

/-- Zero fields of an image, and the ranges of Table 11.1. -/
def imageOk (b : List Byte) (q : Qp) : Bool :=
  bitsOf (field b 0 4) 31 26 == 0 && byteAt b 5 / 16 == 0 && q.cls < 24 && decide (1 ≤ q.maxOut ∧ q.maxOut ≤ 512) && q.part != sysPart &&
  [7, 19, 23, 27, 35, 39].all (fun i => byteAt b i == 0) && (slice b 124 4).all (· == 0) && (slice b 192 64).all (· == 0) &&
  (q.ring || (slice b 128 64).all (· == 0))

/-- A queue pair to the endpoint of an edge link of this node needs its slice's bit in this node's membership (R302). -/
def State.edgeOk (s : State) (q : Qp) : Bool :=
  q.ring || s.map.cur.isNone || decide (q.peer < 0x8000) || (q.peer - 0x8000) / 16 != s.map.id ||
  (match s.memb (s.sliceOf q.cls) with | some e => bitOf e.edges ((q.peer - 0x8000) % 16) | none => false)

/-- A queue pair to an endpoint that has shown its certificate carries a partition that the certificate lists (R360; log 126). -/
def State.endpointOk (s : State) (q : Qp) : Bool :=
  q.ring || (match tabGet s.sec.endpoints q.peer with | some ts => ts.contains q.part | none => true)

/-- The conditions of R380 on a ring. -/
def State.ringOk (s : State) (key : Nat) (q : Qp) : Bool :=
  let size := (if q.rkind = 2 then 256 else 32) * q.ringSize
  decide (6 ≤ q.rlog2 ∧ q.rlog2 ≤ 16) && decide (q.rbase % 4096 = 0) && decide (q.rkind ≤ 2) && s.inWindow q.rfn 0 q.rbase size &&
  (match s.fnTenant q.rfn with | some t => q.part == t && q.rkind != 2 | none => true) &&
  (q.rkind != 2 || s.que.qps.all (fun p => p.1 == key || !(p.2.ring && p.2.rkind == 2)))

/-- Create a queue pair or a ring in INIT (R277). -/
def State.queCreate (s : State) (qpn : Nat) (b : List Byte) : State :=
  let q := qpOfImage b
  let key := if q.ring then ringBase + qpn else qpn
  let old := s.qp key
  if (old.map (fun o => o.state != .free)).getD false then s.queEnd QueResult.badState
  else if !imageOk b q ∨ !s.edgeOk q ∨ !s.endpointOk q ∨ (q.ring ∧ !s.ringOk key q) then s.queEnd QueResult.badField
  else if old.isNone ∧ !s.hasRoom then s.queEnd QueResult.noContext
  else
    let q := { q with state := .init, pinned := false, urgent := s.urgentClass q.cls, last := s.minutes, depth := 0 }
    let s := s.putQp key q
    let res := if q.ring ∨ s.que.resident.contains key then s.que.resident else s.que.resident ++ [key]
    (({ s with que := { s.que with resident := res, named := tabDel s.que.named key } }).refreshQue).queEnd QueResult.ok

/-- Fields a modify takes from its image. -/
def Qp.modified (q n : Qp) : Qp :=
  { q with cls := n.cls, cir := n.cir, pir := n.pir, cbs := n.cbs, pbs := n.pbs, maxOut := n.maxOut }

/-- Modify a queue pair: only the transitions of Table 11.4. -/
def State.queModify (s : State) (key : Nat) (q : Qp) (b : List Byte) : State :=
  let n := qpOfImage b
  if q.part = sysPart then s.queEnd QueResult.badState
  else if !imageOk b n ∨ !s.edgeOk n ∨ !s.endpointOk n ∨ n.part ≠ q.part ∨ (q.ring ∧ !s.ringOk key n) then s.queEnd QueResult.badField
  else
    match q.state, n.state with
    | .init, .ready =>
      (s.putQp key { q.modified n with state := .ready, peer := n.peer, peerQpn := n.peerQpn, sndNext := n.sndNext, sndUna := n.sndNext
                                       rcvNext := n.rcvNext, tc := n.tc, tp := n.tp, last := s.minutes }).queEnd QueResult.ok
    | .ready, .drain => (s.putQp key { q with state := .drain }).queEnd QueResult.ok
    | .error, .init | .fenced, .init =>
      let rejoined := match s.nodeEnt q.peer with | some e => e.state == .member || e.state == .draining | none => false
      if q.state = .fenced ∧ !rejoined then s.queEnd QueResult.badState
      else
        let s := { s with que := { s.que with named := tabDel s.que.named key } }
        ((s.freeResponses q).putQp key q.cleared).queEnd QueResult.ok
    | _, _ => s.queEnd QueResult.badState

/-- Destroy a queue pair (R277): its image in the host table becomes FREE. -/
def State.queDestroy (s : State) (key : Nat) (q : Qp) : State :=
  if q.part = sysPart then s.queEnd QueResult.badState
  else if q.inbound ≠ 0 ∨ q.depth ≠ 0 ∨ s.que.ops.any (fun o => o.2.qpn == key) then s.queEnd QueResult.inUse
  else if q.state ≠ .drain then s.queEnd QueResult.badState
  else if !q.sent.isEmpty then s.queEnd QueResult.inUse
  else
    let s := if q.ring then s else s.hostWrite 0 (s.ctxAddr key) (Qp.zero.image key)
    (({ s with que := { s.que with qps := tabDel s.que.qps key, resident := s.que.resident.filter (· != key), named := tabDel s.que.named key } }).refreshQue).queEnd QueResult.ok

/-- Pin or unpin a context (R281). -/
def State.quePin (s : State) (key : Nat) (q : Qp) (on : Bool) : State :=
  if q.state = .free then s.queEnd QueResult.badState
  else if on ∧ !q.pinned ∧ s.fld Reg.queCfg 10 0 ≤ s.pinnedCount then s.queEnd QueResult.pinLimit
  else (s.putQp key { q with pinned := on }).queEnd QueResult.ok

/-- A command on a queue pair whose context is on chip. -/
def State.queOnChip (s : State) (action key : Nat) (q : Qp) (b : List Byte) : State :=
  if action = 1 then s.queCreate (key % ringBase) b
  else if q.state = .free ∧ action ≠ 4 then s.queEnd QueResult.badState
  else if action = 2 then s.queModify key q b
  else if action = 3 then s.queDestroy key q
  else if action = 4 then (s.putQueData (q.image (key % ringBase))).queEnd QueResult.ok
  else s.quePin key q (action == 7)

/-! ### Regions (R282, R286) -/

/-- Read a region entry (Table 11.5). -/
def regionOf (b : List Byte) (gen : Nat) : Region :=
  { base := field b 0 6, part := field b 6 2 % 4096, length := field b 8 8, gen := gen, rights := byteAt b 18 % 8, valid := true, mirror := field b 20 2 }

/-- Fields of a region entry are in their ranges. -/
def regionOk (b : List Byte) : Bool :=
  let base := field b 0 6
  let len := field b 8 8
  decide (base % 4096 = 0) && decide (len % 4096 = 0) && decide (0 < len) && decide (base + len ≤ flatEnd) && byteAt b 7 / 16 == 0 &&
  field b 6 2 != sysPart && byteAt b 18 / 16 == 0 && byteAt b 19 == 0 && (slice b 22 10).all (· == 0)

/-- Generation of a region entry. -/
def State.regionGen (s : State) (i : Nat) : Nat := ((tabGet s.que.regions i).map (·.gen)).getD 0

/-- Register a region. -/
def State.queRegister (s : State) (i : Nat) (b : List Byte) : State :=
  let old := tabGet s.que.regions i
  if (old.map (·.valid)).getD false then s.queEnd QueResult.inUse
  else if s.regionGen i = 0xFFFF then s.queEnd QueResult.badState
  else if !regionOk b then s.queEnd QueResult.badField
  else ({ s with que := { s.que with regions := tabPut s.que.regions i (regionOf b (s.regionGen i)) } }).queEnd QueResult.ok

/-- Deregister a region: its generation advances (R282, R286). -/
def State.queDeregister (s : State) (i : Nat) : State :=
  match tabGet s.que.regions i with
  | none => s.queEnd QueResult.badState
  | some g =>
    if !g.valid then s.queEnd QueResult.badState
    else if g.part = sysPart then s.queEnd QueResult.badField
    else ({ s with que := { s.que with regions := tabPut s.que.regions i { g with valid := false, gen := min 0xFFFF (g.gen + 1) } } }).queEnd QueResult.ok

/-! ### The command (R297) -/

/-- Execute the command that the live QUE_CMD registers hold. -/
def State.queCommand (s : State) : State :=
  if s.bit Reg.queCmdStatus 0 then s.raiseBit Reg.queEvent 6
  else
    let action := s.fld Reg.queCmd 3 0
    let qpn := s.fld Reg.queCmdQpn 19 0
    let b := s.queData
    if action = 0 then s
    else if action = 5 then s.queRegister (qpn % 65536) b
    else if action = 6 then s.queDeregister (qpn % 65536)
    else if 8 < action then s.queEnd QueResult.badField
    else
      -- a create and a modify say by the image's id which they mean (Table 11.1, R380)
      let ring := if action = 1 ∨ action = 2 then bitOf (field b 0 4) 25 else (s.qp (ringBase + qpn)).isSome && (s.qp qpn).isNone
      let key := if ring then ringBase + qpn else qpn
      match s.qp key with
      | some q => (s.touchQp key).queOnChip action key q b
      | none =>
        if ring then s.queOnChip action key Qp.zero b
        else if !s.tableReady then s.queEnd QueResult.noTable
        else (({ s with que := { s.que with cmd := some (action, qpn, b) } }).setStatus Reg.queCmdStatus 0 0 1).startFetch qpn

/-- A context has come on chip: the command that waited for it goes on (R279, R297). -/
def State.queCommandResume (s : State) (qpn : Nat) : State :=
  match s.que.cmd with
  | none => s
  | some (action, n, b) =>
    if n ≠ qpn then s
    else match s.qp qpn with
      | some q => s.queOnChip action qpn q b
      | none => s.queEnd QueResult.noContext

/-- A context could not be read (R280, R379): an unreadable table; a command that waited for it ends. -/
def State.contextFailed (s : State) (qpn : Nat) : State :=
  let s := ({ s with que := { s.que with fetches := tabDel s.que.fetches qpn } }).unreachable qpn
  match s.que.cmd with
  | some (_, n, _) => if n = qpn then s.queEnd QueResult.noTable else s
  | none => s

/-- Fetches that waited for a victim or a read tag try again; where the table cannot be asked for they fail, and only requests of the node wait on (R280). -/
def State.retryFetches (s : State) : State :=
  s.que.waitFetch.foldl (fun s p =>
    let mine := s.que.later.any (fun m => m.qpn == p.1)
    if !s.tableReady then
      (if mine then s else ({ s with que := { s.que with waitFetch := tabDel s.que.waitFetch p.1 } }).contextFailed p.1)
    else if !s.hasRoom then s.startEvict
    else
      match s.hostRead 0 (s.ctxAddr p.1) 256 (.context p.1) with
      | some s2 => { s2 with que := { s2.que with waitFetch := tabDel s2.que.waitFetch p.1, fetches := tabPut s2.que.fetches p.1 p.2 } }
      | none => s) s

/-- A row of QUE_CMD: the commit of its registers, then the command (log 2). -/
def State.queRow (s : State) (action qpn : Nat) (image : Option (List Byte)) : State :=
  if !s.running ∨ !s.inService then s
  else if s.bit Reg.queCmdStatus 0 then s.raiseBit Reg.queEvent 6
  else
    let s := ((s.setStaged Reg.queCmd action).setLive Reg.queCmd action)
    let s := ((s.setStaged Reg.queCmdQpn (qpn % pow2 20)).setLive Reg.queCmdQpn (qpn % pow2 20))
    let s := match image with | some b => s.putQueData b | none => s
    s.queCommand

/-- CREATE_QP. -/
def execCreateQp (qpn : Nat) (image : List Byte) (s : State) : Host.Outcome State Fault Refusal := .next (s.queRow 1 qpn (some image))
/-- MODIFY_QP. -/
def execModifyQp (qpn : Nat) (image : List Byte) (s : State) : Host.Outcome State Fault Refusal := .next (s.queRow 2 qpn (some image))
/-- DESTROY_QP. -/
def execDestroyQp (qpn : Nat) (s : State) : Host.Outcome State Fault Refusal := .next (s.queRow 3 qpn none)
/-- READ_QP. -/
def execReadQp (qpn : Nat) (s : State) : Host.Outcome State Fault Refusal := .next (s.queRow 4 qpn none)
/-- REGISTER_REGION. -/
def execRegisterRegion (index : Nat) (entry : List Byte) (s : State) : Host.Outcome State Fault Refusal := .next (s.queRow 5 index (some entry))
/-- DEREGISTER_REGION. -/
def execDeregisterRegion (index : Nat) (s : State) : Host.Outcome State Fault Refusal := .next (s.queRow 6 index none)
/-- PIN. -/
def execPin (qpn : Nat) (s : State) : Host.Outcome State Fault Refusal := .next (s.queRow 7 qpn none)
/-- UNPIN. -/
def execUnpin (qpn : Nat) (s : State) : Host.Outcome State Fault Refusal := .next (s.queRow 8 qpn none)

end Sys2Proof.Machine
end

