-- ==== Sys2Proof/Machine/Vesper.lean ====
section
/-!
DEFINITION. Vesper units (chapter 06): bursts (R164–R167, R169), return records and their checks (R161–R163), audit and masking (R173), scrubbing (R171), moves (R172), ordinary accesses and windows (R158, R168).
-/

namespace Sys2Proof.Machine

open Sys2Proof

/-! ### Starting, resuming and holding bursts -/

/-- The dial lets an ATTEND burst start now (R165). -/
def State.mayStart (s : State) (b : Burst) : Bool :=
  s.dispatching && s.mode != 3 && (s.owner == b.cls || s.owner == Owner.shared)

/-- The first leaf of a burst takes longer than the mode lets any burst take, or more row-sets than max_rows: it was planned before a change of either (R165, Table 6.11). -/
def State.tooLong (s : State) (b : Burst) : Bool :=
  let l := b.firstLeaf
  let maxRows := s.fld Reg.vspBurstCfg 7 0
  decide (s.burstLimit b.kind b.urgent < s.vTicks (12 + (l.map (s.tileOcc b)).foldl (· + ·) 0)) ||
  (maxRows != 0 && decide (maxRows < (l.map (fun t => rowSetsOf (s.tileShape b t).2)).foldl (· + ·) 0))

/-- Start a waiting ATTEND burst of a unit, taken from its slots, if the dial lets it and some of it can be planned from here; what no burst can hold under this mode goes to hub cores (R165; log 88). -/
def State.attendFrom (s : State) (u : Nat) (b : Burst) (v : VUnit) : Option State :=
  let n := s.plannable u s.now b
  if !s.mayStart b then none
  else if s.tooLong b then some ((b.tiles.map (·.ent)).foldl State.leafToHub (s.setUnit u v))
  else if n ≠ 0 then some (s.startBurst u v b n) else none

/-- ATTEND_BURST: the unit's next urgent burst, else its next normal one, starts at its chain point: what ran before it has ended. -/
def execAttendBurst (unit : Nat) (s : State) : Host.Outcome State Fault Refusal :=
  if s.masked unit ∨ inRefresh unit s.now then .next s
  else
    let t := s.runOut unit
    let v := t.unit unit
    if inRefresh unit t.now ∨ v.curU.isSome then .next s
    else match v.urgentQ, v.cur with
      | b :: rest, none => .next ((t.attendFrom unit b { v with urgentQ := rest }).getD s)
      | _, some _ => .next s
      | [], none =>
        match v.normal.find? (fun b => b.kind == .attend) with
        | some b => .next ((t.attendFrom unit b { v with normal := v.normal.erase b }).getD s)
        | none => .next s

/-- BURST_RESUME: a burst that a refresh stopped goes on at the first tick after it, one that an urgent burst held once that has ended, with a new lead-in and whoever owns the minute (R165, R167, R169). -/
def execBurstResume (unit : Nat) (s : State) : Host.Outcome State Fault Refusal :=
  if s.masked unit then .next s
  else
    let t := if (s.unit unit).stopped then s else s.runOut unit
    let v := t.unit unit
    if v.stopped then
      let t := t.advanceTo (refreshEnd unit (v.clock / vUnit))
      let v := { v with stopped := false, preempted := if v.curU.isSome then v.preempted else false, clock := vUnit * t.now }
      .next ((t.setUnit unit v).spend unit 12)
    else if v.curU.isNone ∧ v.preempted ∧ v.cur.isSome ∧ !inRefresh unit t.now then
      .next ((t.setUnit unit { v with preempted := false, clock := vUnit * t.now }).spend unit 12)
    else .next s

/-- The tile that a unit is reading ends: one that has begun is read to its end (R169). -/
def State.endTile (s : State) (u : Nat) : Nat → State
  | 0 => s
  | f + 1 =>
    let v := s.unit u
    match v.running with
    | some b => if b.rows.isEmpty ∨ v.stopped then s else (s.readOn u).endTile u f
    | none => s

/-- URGENT_PREEMPT: at the end of the current tile the normal burst, whatever its kind, is held and the urgent burst starts (R169). -/
def execUrgentPreempt (unit : Nat) (s : State) : Host.Outcome State Fault Refusal :=
  if s.masked unit ∨ !s.bit Reg.vspBurstCfg 13 then .next s
  else
    let t := ((s.pumpNow unit).endTile unit 8).catchUp unit
    let v := t.unit unit
    match v.urgentQ, v.cur with
    | b :: rest, some n =>
      if v.curU.isSome ∨ !n.rows.isEmpty ∨ inRefresh unit t.now then .next s
      else .next (((t.attendFrom unit b { v with urgentQ := rest }).map (fun t => if v.preempted ∨ (t.unit unit).curU.isNone then t else t.unitCount unit 0x18 1)).getD s)
    | _, _ => .next s

/-! ### Failures (R163) and audit (R173) -/

/-- Give a leaf to a hub core, to be computed when its request resumes (R163, R192). -/
def State.leafWaits (s : State) (e : BurstEntry) : State :=
  match e with
  | .leaf rid idx => s.mapJob rid idx (fun j => if j.st = .done then j else { j with exec := .hub, st := .waiting })
  | _ => s

/-- A leaf whose tile failed for good is computed from the page's tier-1 copy, or from where the page stands now (R131, R163). -/
def State.leafFrom (s : State) (e : BurstEntry) (pair : Nat) (p : Pte) : State :=
  match e with
  | .leaf rid idx =>
    let at_ : Option (Nat × Pair) := match p.shadow with
      | some (ptr, ps) => some (ptr, ps.getD pair Pair.empty)
      | none => if p.lost then none else match p.kind with
        | .tier0 => some (p.locs.getD pair 0, p.pairs.getD pair Pair.empty)
        | .tier1 => some (p.locs.headD 0, p.pairs.getD pair Pair.empty)
        | _ => none
    match at_ with
    | some x => s.mapJob rid idx (fun j => if j.st = .done then j else { j with loc := x.1, src := .sealed x.2.k x.2.v })
    | none => s
  | _ => s

/-- Record, count and score a tile that failed R161 (R163, R329, Tables 6.16, 6.17). -/
def State.charge (s : State) (x : Reread) (loc : Nat) (persistent differs : Bool) : State :=
  let u := locUnit loc
  ((s.recordFail loc x.isV persistent x.reader differs).unitCount u 0x1C 1).addPoints (Part.bankGroup u) (if persistent then 128 else 8)

/-- The re-read passed: what waits for the pair goes on, once no other tile of it is being read again. -/
def State.rereadPassed (s : State) (x : Reread) (p : Pair) : State :=
  if s.vsp.rereads.any (fun r => decide (r.2.ent = x.ent)) then s
  else
    match x.ent, x.page with
    | .leaf .., _ => s.leafWaits x.ent
    | _, some (ref, pair) => if 2 ≤ x.reader ∧ !x.scrub then s.movePair ref pair p else s
    | _, none => s

/-- The move of a page goes on with a pair that has been repaired; where the page has left tier 0, the move is abandoned (R131). -/
def State.moveRepaired (s : State) (ref : PageRef) (pair : Nat) : State :=
  let p := s.pageAt ref
  if p.lost ∨ p.kind ≠ .tier0 then
    match s.mem.moves.find? (fun m => decide (m.2.page = ref)) with
    | some m => s.abandonMove m.1
    | none => s
  else s.movePair ref pair (p.pairs.getD pair Pair.empty)

/-- The re-read failed too: the page's repair policy applies, unless the page has left this location meanwhile (R131, R163). No scrub completes a request (R171). -/
def State.rereadFailed (s : State) (x : Reread) (flips : List Flip) (ref : PageRef) (pair : Nat) : State :=
  let q := s.pageAt ref
  let here := decide (q.kind = .tier0 ∧ q.locs.getD pair 0 = x.loc)
  let s := if here then s.repairPair flips ref pair else s
  let s := (s.leafFrom x.ent pair (s.pageAt ref)).leafWaits x.ent
  match x.ent with
  | .leaf .. => s.sweepLost
  | _ => if 2 ≤ x.reader ∧ !x.scrub then (s.moveRepaired ref pair).sweepLost else s

/-- TILE_REREAD_DONE: the second read of re-read number `rid` (R163); `flips` strike entry 0, and as entry 1 the pair of the tier-1 copy that a repair reads. -/
def execTileRereadDone (rid : Nat) (flips : List Flip) (s : State) : Host.Outcome State Fault Refusal :=
  match tabGet s.vsp.rereads rid with
  | none => .next s
  | some x =>
    let s := { s with vsp := { s.vsp with rereads := tabDel s.vsp.rereads rid } }
    let s := s.passTile x.loc (if x.isV then x.pair.v else x.pair.k)
    let read := corrupt flips 0 x.pair
    match (if x.isV then tileFault x.loc true read.v x.check.2 else tileFault x.loc false read.k x.check.1) with
    | none => .next ((((s.raiseBit Reg.vspEvent 1).charge x x.loc false x.differs).rereadPassed x x.pair).tryEndPass x.unit)
    | some differs =>
      let s := (s.raiseBit Reg.vspEvent 0).charge x x.loc true differs
      .next ((match x.page with
        | some (ref, pair) => s.rereadFailed x flips ref pair
        | none => s).tryEndPass x.unit)

/-- Reader code of a burst's kind (Table 6.16). -/
def BurstKind.reader : BurstKind → Nat
  | .attend => 0
  | .scrub => 1
  | .move => 2

/-- A record whose tiles have all passed: its leaves are merged, its pairs go to their copies, its scrub is finalised (R162). -/
def State.acceptRecord (s : State) (unit : Nat) (r : Return) : State :=
  match r.kind with
  | .attend =>
    r.tiles.foldl (fun s t => match t.ent, t.isV with
      | .leaf rid idx, true =>
        let all := (s.entInfo t.ent).cands
        s.mapJob rid idx (fun j =>
          let got := setInsert j.got r.cand
          if j.exec = .unit unit then { j with got := got, st := if all.all got.contains then .done else j.st } else j)
      | _, _ => s) s
  | .scrub => s.tryEndPass unit
  | .move =>
    r.tiles.foldl (fun s t => match t.isV, s.entryRef t.ent, s.entryTile t.ent with
      | true, some (ref, pair), some (p, _, _) => s.movePair ref pair p
      | _, _, _ => s) s

/-- The leaf of a record that the hub audits: level 0, not urgent, at most so many in a frame and spread evenly over the units in service (R173; log 82). -/
def State.audits (s : State) (unit : Nat) (r : Return) : Bool :=
  let n := s.fld Reg.vspScrubCfg 15 8
  r.kind == .attend && !r.urgent && r.level == 0 && decide ((s.vsp.audited.foldl (fun k x => k + x.2) 0) < n) &&
    decide (spGet 0 s.vsp.audited unit < ceilDiv n (2048 - s.vsp.masked.length))

/-- VESPER_RETURN_RECORD: the unit's next record reaches the hub and is checked (R161, R162); `flips` number its pairs. `wrong`: the unit's partial differs from the hub's, should the leaf be audited (R173). -/
def execVesperReturnRecord (unit : Nat) (flips : List Flip) (wrong : Bool) (s : State) : Host.Outcome State Fault Refusal :=
  let t := if (s.unit unit).returns.isEmpty then (s.pump unit none true burstFuel).catchUp unit else s
  let v := t.unit unit
  match v.returns with
  | [] => .next s
  | r :: rest =>
    let s := t.setUnit unit { v with returns := rest }
    if r.refused then .next (r.tiles.foldl (fun s t => s.leafToHub t.ent) s)
    else
      let tiles := r.tiles.zipIdx.map (fun x =>
        { x.1 with flips := x.1.flips ++ (flips.filter (fun f => f.idx == x.2 / 2 && f.isV == x.1.isV)).map (fun f => (f.off, f.bits)) })
      let bad := tiles.filterMap (fun t => (s.entFault t).map (fun d => (t, d)))
      if !bad.isEmpty then
        -- the whole record is discarded; its other leaves go to hub cores
        let s := r.tiles.foldl (fun s t => s.leafToHub t.ent) s
        .next (bad.foldl (fun s x => s.reread unit r.kind.reader (r.kind == .scrub) x.1.ent x.1.isV x.2) s)
      else
        let audit := s.audits unit r
        let s := s.acceptRecord unit r
        let s := if audit then { s with vsp := { s.vsp with audited := spSet 0 s.vsp.audited unit (spGet 0 s.vsp.audited unit + 1) } } else s
        let s := if audit && wrong then ((s.raiseBit Reg.vspEvent 5).addPoints (Part.bankGroup unit) 1024).maskUnit unit else s
        .next (r.tiles.foldl (fun s t => match t.ent with | .leaf rid _ => s.tryComplete rid | _ => s) s)

/-- RETURN_RECORD_MISSING: 1,024 Vesper cycles after its burst's planned end; its leaves go to hub cores, a scrub reads its tiles again, and the second in a frame masks the unit (R162, R173). -/
def execReturnRecordMissing (unit : Nat) (s : State) : Host.Outcome State Fault Refusal :=
  let t := if (s.unit unit).returns.isEmpty then (s.pump unit none true burstFuel).catchUp unit else s
  let v := t.unit unit
  match v.returns with
  | [] => .next s
  | r :: rest =>
    let s := t.advanceTo (ceilDiv (r.due + 1024 * t.vCycle) vUnit)
    let again := if r.kind = .scrub then (r.tiles.map (fun t => locOff t.loc)).foldl setInsert v.again else v.again
    let s := s.setUnit unit { v with returns := rest, missing := v.missing + 1, again := again }
    let s := (r.tiles.foldl (fun s t => s.leafToHub t.ent) s).addPoints (Part.bankGroup unit) 256
    .next ((if 1 ≤ v.missing then s.maskUnit unit else s).tryEndPass unit)

/-! ### Scrubbing (R171) and moves (R172) -/

/-- Start a SCRUB or MOVE burst over planned entries, taken from the unit's slots: as much as can be planned from here. -/
def State.startOther (s : State) (u : Nat) (v : VUnit) (b : Burst) (flips : List Flip) : Option State :=
  let n := s.plannable u s.now b
  if n = 0 then none
  else
    let ents := (b.tiles.map (·.ent)).foldl (fun a x => if a.contains x then a else a ++ [x]) []
    let strike (t : TileEnt) : TileEnt :=
      { t with flips := (flips.filter (fun f => f.isV == t.isV && decide (ents[f.idx]? = some t.ent))).map (fun f => (f.off, f.bits)) }
    some (s.startBurst u v { b with tiles := b.tiles.map strike } n)

/-- A pass has read the pair slots at some offsets: its position lies past them, and a tile sealed ahead of it is still to come (R171). A masked unit's pass begins anew at its end. -/
def State.passed (s : State) (u : Nat) (offs : List Nat) : State :=
  let v := s.unit u
  s.setUnit u { v with again := v.again.filter (fun o => !offs.contains o)
                       passPos := if offs.isEmpty then some 0 else some (offs.foldl (fun n o => max n (o + 1)) (v.passPos.getD 0)) }

/-- The hub reads the next sealed tiles of a masked unit's bank group itself (R173). -/
def State.hubScrub (s : State) (u : Nat) (todo : List (Nat × BurstEntry)) (flips : List Flip) : State :=
  let part := todo.take 3
  let s := part.zipIdx.foldl (fun s x =>
    match s.entryTile x.1.2 with
    | some (p, c, w) => (pairFaults w (corrupt flips x.2 p) c).foldl (fun s f => s.reread u 3 true x.1.2 f.1 f.2) ((s.passTile w p.k).passTile w p.v)
    | none => s) s
  s.passed u (part.map Prod.fst)

/-- SCRUB_BURST: the unit's next sealed tiles in ascending offset, each through R161; `flips` number its pairs. -/
def execScrubBurst (unit : Nat) (flips : List Flip) (s : State) : Host.Outcome State Fault Refusal :=
  let t := s.runOut unit
  let v := t.unit unit
  let moveWork := (v.normal ++ v.plan).any (fun b => b.kind == .move)
  let owner := t.owner == Owner.scrub || (t.bit Reg.vspScrubCfg 1 && t.owner == Owner.migrate && !moveWork)
  if 2048 ≤ unit ∨ inRefresh unit t.now ∨ v.busy ∨ !t.bit Reg.vspScrubCfg 0 ∨ !owner ∨ isGuard t.now ∨ !t.running then .next s
  else
    let todo := t.scrubTodo unit
    if t.masked unit then .next (t.hubScrub unit todo flips)
    else if todo.isEmpty then .next (t.tryEndPass unit)
    else
      let items := todo.flatMap (fun x => t.planItems .scrub 1 x.2)
      let b := mkBurst (t.vsp.nextBurst % 65536) .scrub false 0 false ((t.pack .scrub false 8 items []).headD [])
      match t.startOther unit v { b with tiles := b.tiles.take (2 * (b.tiles.length / 2)) } flips with
      | none => .next s
      | some t =>
        -- what was not read waits for the next burst of the pass
        let read := (((t.unit unit).cur.map (fun b => b.tiles.filter (·.isV))).getD []).map (·.ent)
        let v := t.unit unit
        let t := ({ t with vsp := { t.vsp with nextBurst := t.vsp.nextBurst + 1 } }).setUnit unit
          { v with normal := v.normal.filter (fun (b : Burst) => b.kind != BurstKind.scrub)
                   cur := v.cur.map (fun (b : Burst) => { b with tiles := b.tiles.filter (fun x => read.contains x.ent) }) }
        .next (if read.isEmpty then t else t.passed unit ((todo.filter (fun x => read.contains x.2)).map Prod.fst))

/-- MOVE_BURST: the unit starts on its next move burst; what passes goes to the copy (R131). -/
def execMoveBurst (unit : Nat) (flips : List Flip) (s : State) : Host.Outcome State Fault Refusal :=
  let t := s.runOut unit
  let v := t.unit unit
  if t.masked unit ∨ inRefresh unit t.now ∨ v.busy ∨ t.owner ≠ Owner.migrate ∨ isGuard t.now ∨ !t.running then .next s
  else match v.normal.find? (fun b => b.kind == .move) with
    | none => .next s
    | some b => .next ((t.startOther unit { v with normal := v.normal.erase b } b flips).getD s)

/-! ### Ordinary accesses (R158, R168) -/

/-- ORDINARY_ACCESS: served at once with the bank group idle and no refresh due, or in a window that is open, else it waits (R168). -/
def execOrdinaryAccess (unit : Nat) (source : Nat) (isWrite : Bool) (addr : Nat) (data : AccessData) (s : State) : Host.Outcome State Fault Refusal :=
  let s := s.pumpNow unit
  let v := s.unit unit
  let serve (s : State) : State := s.serveAccess source isWrite addr data.bytes data.ecc
  if addr < tier0End ∧ (tier0Decode addr).1 = unit ∧ (v.busy ∨ s.refreshDue unit) then
    match s.joinWindow unit with
    | some t => .next (serve t)
    | none => .next (s.setUnit unit { v with waiting := v.waiting ++ [⟨source, isWrite, addr, data.bytes, data.ecc⟩] })
  else .next (serve s)

/-- ACCESS_WINDOW: up to n waiting accesses, at most host_window_max, and as many as fit before the refresh margin. In a burst the window opens at the end of a row-set read, and the rows are opened again after it (R168). -/
def execAccessWindow (unit n : Nat) (s : State) : Host.Outcome State Fault Refusal :=
  let s := s.pumpNow unit
  let s := if (s.unit unit).reading then (s.endRow unit).catchUp unit else s
  let v := s.unit unit
  let most := min n (min v.waiting.length s.windowMax)
  if most = 0 ∨ s.refreshDue unit then .next s
  else
    let k := min most (s.windowFit unit (if v.reading then max v.clock (vUnit * s.now) else vUnit * s.now) most)
    let order := byRank v.waiting
    let s := s.setUnit unit { v with waiting := order.drop k }
    let s := if v.reading then s.openWindow unit k else s
    .next ((order.take k).foldl (fun s a => s.serveAccess a.source a.isWrite a.addr a.data a.ecc) s)

/-- OLD_LOCATION_FREE: the last request that resolved an old location has completed (R131). -/
def execOldLocationFree (id : Nat) (s : State) : Host.Outcome State Fault Refusal :=
  match tabGet s.mem.olds id with
  | none => .next s
  | some o =>
    if s.sch.runs.any (fun r => o.readers.contains r.req.rid) then .next s
    else .next (({ s with mem := { s.mem with olds := tabDel s.mem.olds id } }).keepBytes o.tier0 o.locs o.kib o.pairs)

end Sys2Proof.Machine
end

