-- ==== Sys2Proof/Machine/Tiers.lean ====
section
/-!
DEFINITION. Tier 1's patrol (R179, R195) and the copies the hub makes (R131, R163, R173, R184, R189, R191).
-/

namespace Sys2Proof.Machine

open Sys2Proof

/-- TIER1_PATROL: a block of tier 1 is read; a corrected error is written back, an uncorrectable one costs what it strikes a copy (R179, R195). Only tier 1 is patrolled. -/
def execTier1Patrol (addr : Nat) (outcome : EccOutcome) (s : State) : Host.Outcome State Fault Refusal :=
  .next (if addr < tier0End ∨ flatEnd ≤ addr then s else s.tier1Ecc addr outcome)

/-- Where a move reads a page: in tier 0, or at a KiB pointer of tier 1, with the bytes there. -/
def moveSource (m : Move) (p : Pte) : Option Nat × List Pair :=
  match m.kind, p.shadow with
  | .shift, some (ptr, ps) => if p.kind = .tier1 then (p.locs.head?, p.pairs) else (some ptr, ps)
  | _, _ => (if p.kind = .tier1 then p.locs.head? else none, p.pairs)

/-- A burst, a record or a re-read of a unit still stands for a pair of a page. -/
def State.pairPending (s : State) (ref : PageRef) (j : Nat) : Bool :=
  let e : BurstEntry := .tile ref.grp ref.tenant ref.sid ref.layer ref.head ref.page j
  s.vsp.rereads.any (fun r => decide (r.2.ent = e)) || s.vsp.units.any (fun u => u.2.tiles.any (fun t => decide (t.ent = e)))

/-- Pairs of a move that the hub reads itself: of tier 1, of a masked unit, or for which no unit has an entry (R172, R173). -/
def State.hubPairs (s : State) (m : Move) : List Nat :=
  (List.range 4).filter (fun j => m.bytes.getD j Pair.empty == Pair.empty && !s.pairPending m.page j)

/-- One pair of a page as the hub reads it: tier 1 under its code; what passes goes to the copy, what fails R161 is read once more (R131, R161, R163, R179). -/
def State.hubPair (s : State) (ref : PageRef) (src : Option Nat × List Pair) (p : Pte) (flips : List Flip) (j : Nat) : State :=
  let pr := src.2.getD j Pair.empty
  match src.1 with
  | some ptr =>
    let r := s.readTier1 (1024 * ptr + j * (pr.k.length + pr.v.length)) (flipOffs flips j pr.k.length)
    if r.2 then r.1.movePair ref j pr else r.1
  | none =>
    let s := (s.passTile (p.locs.getD j 0) pr.k).passTile (p.locs.getD j 0) pr.v
    match pairFaults (p.locs.getD j 0) (corrupt flips j pr) (p.checkK.getD j 0, p.checkV.getD j 0) with
    | [] => s.movePair ref j pr
    | bad => bad.foldl (fun s f => s.reread (locUnit (p.locs.getD j 0)) 3 false (.tile ref.grp ref.tenant ref.sid ref.layer ref.head ref.page j) f.1 f.2) s

/-- The hub's part of a move: the pairs it reads itself; a page that is lost meanwhile ends its move (R131, R195). -/
def State.hubMove (s : State) (id : Nat) (m : Move) (flips : List Flip) : State :=
  let p := s.pageAt m.page
  let s := (s.hubPairs m).foldl (fun s j => s.hubPair m.page (moveSource m p) p flips j) s
  if (tabGet s.mem.moves id).isSome ∧ (s.pageAt m.page).lost then s.abandonMove id else s

/-- A page that leaves tier 1 for host memory is read under tier 1's code: an error that cannot be corrected ends the move (R189, R195). -/
def State.hostMove (s : State) (id : Nat) (m : Move) (flips : List Flip) : State :=
  let p := s.pageAt m.page
  let r := p.pairs.zipIdx.foldl (fun (a : State × Bool) x =>
    let y := a.1.readTier1 (1024 * p.locs.headD 0 + x.2 * (x.1.k.length + x.1.v.length)) (flipOffs flips x.2 x.1.k.length)
    (y.1, a.2 && y.2)) (s, true)
  if r.2 then r.1.switchMove id else r.1.abandonMove id

/-- PAGE_COPY_DONE: the hub has read and written the pages of a move; `flips` are by pair. -/
def execPageCopyDone (id : Nat) (flips : List Flip) (s : State) : Host.Outcome State Fault Refusal :=
  match tabGet s.mem.moves id with
  | none => .next s
  | some m =>
    match m.kind with
    | .fetch => .next s
    | .spillHost => .next (s.hostMove id m flips)
    | .shadow => .next (if m.full ∧ m.copied then s.switchMove id else if m.full then s else s.hubMove id m flips)
    | .spillPool => .next ((if m.full then s else s.hubMove id m flips).retireUnits)
    | .spill1 | .relocate | .holder _ | .back _ | .promote | .shift => .next (s.hubMove id m flips).retireUnits

end Sys2Proof.Machine
end

