-- ==== Sys2Proof/Machine/HostOps.lean ====
section
/-!
DEFINITION. The Wecia Link's receiving side (R375, R376), doorbells and host rings (R380–R384), host accesses of node memory (R379), and the completions of the node's reads of host memory (R280, R361, R379, R381).
-/

namespace Sys2Proof.Machine

open Sys2Proof

/-! ### A packet is received (R375, R376) -/

/-- Credits a header returns: a count is taken only within the pool ahead of the count held. -/
def HstSt.takeCredits (h : HstSt) (hdr : HostHdr) : HstSt :=
  let dp := (hdr.posted % 4096 + 4096 - h.postedIn % 4096) % 4096
  let dn := (hdr.nonPosted % 256 + 256 - h.npIn % 256) % 256
  { h with postedIn := if dp ≤ 2048 then h.postedIn + dp else h.postedIn, npIn := h.npIn + dn }

/-- The acknowledgement a header carries: kept packets up to it are freed. -/
def HstSt.takeAck (h : HstSt) (ack now : Nat) : HstSt :=
  match h.kept with
  | [] => h
  | p :: _ =>
    let n := (ack % 4096 + 4097 - p.lseq % 4096) % 4096
    if 0 < n ∧ n ≤ h.kept.length then { h with kept := h.kept.drop n, resends := 0, ackTick := now } else h

/-- The link fields of a good packet; what waited for them goes out. -/
def State.hostHeader (s : State) (hdr : HostHdr) : State :=
  ({ s with hst := (s.hst.takeAck hdr.ack s.now).takeCredits hdr }).hostFlush.settleEvictions.retryFetches

/-- A failing or out-of-order packet: discarded, one NAK per gap. The NAK names the last packet accepted and consumes no lseq. -/
def State.hostBad (s : State) : State :=
  if s.hst.gap then s
  else
    let s := { s with hst := { s.hst with gap := true } }
    let p : HostPkt := ⟨s.hst.txSeq, 0x0A, 0, 0, 0, 0, []⟩
    s.emit (.host p (hostBytes s.hst p))

/-- What the lanes of an UP link brought is counted before the packet is looked at (R245, R371). -/
def State.hostSeen (s : State) (fecBad : Nat) : State := if !s.running ∨ s.hst.state ≠ LState.up then s else s.hostFec fecBad

/-- Accept a packet that spends posted units or a non-posted buffer, which are returned as it is used: `error` where it ends here. -/
def State.hostTake (s : State) (hdr : HostHdr) (posted np : Nat) : Except State State :=
  let s := s.hostSeen hdr.fecBad
  if !s.running ∨ s.hst.state ≠ LState.up then .error s
  else if hdr.lseq ≠ s.hst.rxSeq then .error s.hostBad
  else
    let h := { s.hst with rxSeq := (s.hst.rxSeq + 1) % 4096, gap := false, postedRet := s.hst.postedRet + posted, npRet := s.hst.npRet + np }
    .ok (({ s with hst := h }).hostHeader hdr)

/-- HOST_IDLE_PACKET: ack and credits; it carries the next lseq without consuming it. -/
def execHostIdlePacket (hdr : HostHdr) (s : State) : Host.Outcome State Fault Refusal :=
  let s := s.hostSeen hdr.fecBad
  if !s.running ∨ s.hst.state ≠ LState.up then .next s
  else if hdr.lseq ≠ s.hst.rxSeq then .next s.hostBad
  else .next (s.hostHeader hdr)

/-- HOST_BAD_PACKET: a bad crc, an unknown type, or out of order, discarded with one NAK a gap. A packet of a type that only the node sends is accepted and not used: one that asks for an answer receives UNSUPPORTED (Table 15.3; log 144). -/
def execHostBadPacket (why : HostBad) (s : State) : Host.Outcome State Fault Refusal :=
  match why with
  | .crc n | .outOfOrder n =>
    let s := s.hostSeen n
    .next (if !s.running ∨ s.hst.state ≠ LState.up then s else s.hostBad)
  | .wrongWay hdr type fn tag units =>
    match s.hostTake hdr (if type = 2 then 0 else 1 + units) (if type = 2 then 1 else 0) with
    | .error s => .next s
    | .ok s => .next (if type = 2 then s.hostCpl (fn % 32) tag 1 [] else s)

/-- HOST_NAK: every unacknowledged packet from ack + 1 is resent. -/
def execHostNak (hdr : HostHdr) (s : State) : Host.Outcome State Fault Refusal :=
  let s := s.hostSeen hdr.fecBad
  if !s.running ∨ s.hst.state ≠ LState.up then .next s
  else if hdr.lseq ≠ s.hst.rxSeq then .next s.hostBad
  else .next (({ s with hst := (s.hst.takeAck hdr.ack s.now).takeCredits hdr }).hostReplay.hostFlush.settleEvictions.retryFetches)

/-- HOST_RESEND_TIMEOUT: ack has not advanced for 4,096 ticks. -/
def execHostResendTimeout (s : State) : Host.Outcome State Fault Refusal :=
  if !s.running ∨ s.hst.state ≠ LState.up ∨ s.hst.kept.isEmpty then .next s
  else .next (s.advanceTo (s.hst.ackTick + 4096)).hostReplay

/-! ### Host rings: submission entries (R381) -/

/-- Read the next submission entry of a ring. One entry of a ring is read at a time, so that messages arrive in index order (log 49). -/
def State.ringPump (s : State) (k : Nat) : State :=
  match s.qp k with
  | none => s
  | some q =>
    if !q.ring ∨ q.rkind ≠ 0 ∨ q.state ≠ .ready ∨ s.fenced ∨ !s.inService ∨ s.parityBad 15 ∨ q.rfetch ≠ q.rhead ∨ q.rhead = q.rtail then s
    else match s.hostRead q.rfn (q.ringAddr q.rhead 32) 32 (.entry (k - ringBase) q.rhead) with
    | none => s
    | some s => s.mapQp k (fun q => { q with rfetch := (q.rhead + 1) % pow2 32 })

/-- Every ring looks for its next entry. -/
def State.pumpRings (s : State) : State := s.que.qps.foldl (fun s p => if p.2.ring then s.ringPump p.1 else s) s

/-- An entry is done with: the ring's head passes it. -/
def State.ringTaken (s : State) (ring index : Nat) : State :=
  (s.mapQp (ringBase + ring) (fun q => { q with rhead := (index + 1) % pow2 32, rfetch := (index + 1) % pow2 32 })).ringPump (ringBase + ring)

/-- A message or reply buffer is bad: the entry completes with BAD_FIELD and detail 0, and zero in every field the reply would copy; a node that has fenced itself meanwhile takes no entry. -/
def State.ringBad (s : State) (ring index replyAddr replyCap : Nat) (m : List Byte) : State :=
  let k := ringBase + ring
  match s.qp k with
  | none => s
  | some q =>
    if s.fenced then s.mapQp k (fun q => { q with rfetch := q.rhead }) else
    let s := s.mapQp k (fun q => { q with inbound := q.inbound + 1 })
    let arr : Arrival := ⟨.ring index replyAddr replyCap, ring, 0, q.part, 0, false, 0, 0, []⟩
    let r : Req := { rid := s.sch.nextRid, arr := arr, msg := m, cls := q.cls, urgent := s.urgentClass q.cls, cost := 0, bucket := 0
                     tAdmit := s.now, notBefore := 0, evEntry := false, heldMove := false, counted := false, turns := none, gen := none, stream := q.stream }
    (({ s with sch := { s.sch with nextRid := s.sch.nextRid + 1 } }).refuse r Status.badField 0).ringTaken ring index

/-- The longest message R56 can accept: more is not read. -/
abbrev maxMessage : Nat := 2097192

/-- The message of an entry has come: it arrives on the ring's context; a node that has fenced itself meanwhile takes no entry. -/
def State.ringMessage (s : State) (ring index raddr cap len : Nat) (m : List Byte) : State :=
  let k := ringBase + ring
  if s.fenced then s.mapQp k (fun q => { q with rfetch := q.rhead })
  else
    let part := ((s.qp k).map (·.part)).getD 0
    (s.arrive ⟨.ring index raddr cap, ring, 0, part, len, false, 0, 0, []⟩ m).ringTaken ring index

/-- A submission entry has been read (Table 15.5). -/
def State.ringEntry (s : State) (ring index : Nat) (b : List Byte) : State :=
  match s.qp (ringBase + ring) with
  | none => s
  | some q =>
    if s.fenced then s.mapQp (ringBase + ring) (fun q => { q with rfetch := q.rhead }) else
    let addr := field b 0 8
    let len := field b 8 4
    let cap := field b 12 4
    let raddr := field b 16 8
    if !s.inWindow q.rfn 0 addr len ∨ !s.inWindow q.rfn 0 raddr cap then s.ringBad ring index raddr cap []
    else if len = 0 then s.ringMessage ring index raddr cap len []
    else match s.hostRead q.rfn addr (min len maxMessage) (.message ring index raddr cap len) with
    | some s => s
    | none => s.ringBad ring index raddr cap []

/-- An entry could not be read: it is read again (log 49). -/
def State.ringRetry (s : State) (ring : Nat) : State := s.mapQp (ringBase + ring) (fun q => { q with rfetch := q.rhead })

/-! ### DBELL (R377, R384) -/

/-- A doorbell is discarded. -/
def State.doorbellBad (s : State) : State := (s.bump (Reg.hstStat + 4)).raiseBit Reg.hstEvent 3

/-- A doorbell of an enabled function. -/
def State.doorbell (s : State) (fn ctx index : Nat) : State :=
  let k := ringBase + ctx % 8192
  match s.qp k with
  | none => s.doorbellBad
  | some q =>
    let i := index % pow2 32
    let d := (i + pow2 32 - q.rhead % pow2 32) % pow2 32
    if !q.ring ∨ q.rfn ≠ fn then s.doorbellBad
    else if q.rkind = 0 then
      if d ≤ q.ringSize then (s.putQp k { q with rtail := i }).ringPump k else s.doorbellBad
    else if d ≤ q.ringUsed then s.putQp k { q with rhead := i }
    else s.doorbellBad

/-- DBELL: a ring's new tail or head. -/
def execDbell (hdr : HostHdr) (fn ctx index : Nat) (s : State) : Host.Outcome State Fault Refusal :=
  match s.hostTake hdr 1 0 with
  | .error s => .next s
  | .ok s => .next (if s.fnEnabled (fn % 32) then s.doorbell (fn % 32) ctx index else s)

/-! ### NWR and NRD (R158, R178, R179, R379) -/

/-- The function may access node memory. -/
def State.fnMemory (s : State) (fn : Nat) : Bool := s.fnEnabled fn && (s.fnTenant fn).isNone

/-- First byte of a run in the protected region. -/
def State.firstProtected (s : State) (a n : Nat) : Option Nat := (List.range n).find? (fun i => s.protectedAt (a + i))

/-- What an NWR does: the new state and its completion status. An address with check symbols is an address error before it is a protected address. -/
def State.nodeWrite (s : State) (addr : Nat) (data : List Byte) : State × Nat :=
  if flatEnd < addr + data.length then (s, 3)
  else if (s.firstCheck addr data.length).isSome then (s, 3)
  else if (s.firstProtected addr data.length).isSome then (s, 1)
  else
    let w := s.writeFlat addr data 0
    (w.1, if w.2.1 = Status.writeSealed then 2 else if w.2.1 = Status.addressError then 3 else 0)

/-- NWR: an ordinary write by an operator function. -/
def execNwr (hdr : HostHdr) (fn tag addr : Nat) (data : List Byte) (s : State) : Host.Outcome State Fault Refusal :=
  match s.hostTake hdr 0 1 with
  | .error s => .next s
  | .ok s =>
    let f := fn % 32
    if !s.fnMemory f then .next (s.hostCpl f tag 1 [])
    else
      let w := (s.passWindows addr data.length).nodeWrite addr data
      .next (w.1.hostCpl f tag w.2 [])

/-- NRD: a read of any flat address by an operator function. -/
def execNrd (hdr : HostHdr) (fn tag addr count : Nat) (ecc : List (Nat × EccOutcome)) (s : State) : Host.Outcome State Fault Refusal :=
  match s.hostTake hdr 0 1 with
  | .error s => .next s
  | .ok s =>
    let f := fn % 32
    if !s.fnMemory f then .next (s.hostCpl f tag 1 [])
    else if flatEnd < addr + count ∨ (s.firstCheck addr count).isSome then .next (s.hostCpl f tag 3 [])
    else
      let s := s.passWindows addr count
      let data := s.readBytes addr count
      let t := s.eccOver addr count ecc
      match t.2 with
      | some _ => .next (t.1.hostCpl f tag 4 [])
      | none => .next (t.1.fresh.2.hostCpl f tag 0 data)

/-! ### Completions of the node's reads (R280, R361, R379, R381) -/

/-- The counters of a context that comes back: those of the frame in which it left latch now, and every whole frame that it missed is zeros (R296; log 48). -/
def Qp.caughtUp (q : Qp) (left : Option Nat) (frame : Nat) : Qp :=
  if left = some frame then q
  else { q with latched := if left.map (· + 1) = some frame then q.running else List.replicate 7 0, running := List.replicate 7 0 }

/-- A system queue pair that comes back, by the map in effect: to a dead peer ERROR, to one that does not serve FENCED, to one that serves READY (R278, Table 11.4; log 124). -/
def State.sysState (s : State) (q : Qp) : Qp :=
  if q.part ≠ sysPart then { q with urgent := if q.state = .free then q.urgent else s.urgentClass q.cls }
  else match s.nodeEnt q.peer with
    | none => q
    | some e =>
      if e.state = .dead then { q with state := .error }
      else if e.state = .member ∨ e.state = .draining then (if q.state = .ready then q else { q.cleared with state := .ready })
      else { q with state := .fenced }

/-- What became of a queue pair while it was off chip (R270, R278, R319). -/
def Qp.marked (q : Qp) (m : Option QpState) : Qp :=
  match m with
  | none => q
  | some .ready => { q.cleared with state := .ready }
  | some .free => Qp.zero
  | some st => { q with state := st }

/-- A context image has come: its counters and its state catch up, and its held packets go on in arrival order (R280). -/
def State.contextDone (s : State) (qpn : Nat) (b : List Byte) : State :=
  let since := (tabGet s.que.fetches qpn).getD s.now
  let left := tabGet s.que.away qpn
  let q := (s.sysState ((qpOfImage b).caughtUp left s.frame)).marked (tabGet s.que.marks qpn)
  let s := ({ s with que := { s.que with fetches := tabDel s.que.fetches qpn, away := tabDel s.que.away qpn, marks := tabDel s.que.marks qpn } }).putQp qpn q
  let s := ({ s with que := { s.que with resident := s.que.resident.filter (· != qpn) ++ [qpn] } }).refreshQue
  let s := (s.setStatus Reg.queStatus 14 14 1).bumpMax (Reg.queStat + 16) (s.now - since)
  let s := if 3000 < s.now - since then s.raiseBit Reg.queEvent 3 else s
  let mine := s.que.cold.filter (fun c => c.arr.ctx == qpn)
  let s := { s with que := { s.que with cold := s.que.cold.filter (fun c => c.arr.ctx != qpn) } }
  let go (s : State) (c : Cold) : State := match c.other with | none => s.arrive c.arr c.msg | some p => s.transportIn p
  -- those that came before the NOT_READY that is outstanding do not wait for the PSN it names
  let named := tabGet s.que.named qpn
  let s := (mine.filter (·.early)).foldl go { s with que := { s.que with named := tabDel s.que.named qpn } }
  let s := match named with | some n => { s with que := { s.que with named := tabPut s.que.named qpn n } } | none => s
  let s := (mine.filter (fun c => !c.early)).foldl go s
  (s.sendLater qpn).queCommandResume qpn

/-- A read has ended well. -/
def State.readDone (s : State) (why : HostRead) (b : List Byte) : State :=
  match why with
  | .context qpn => s.contextDone qpn b
  | .entry ring index => s.ringEntry ring index b
  | .message ring index raddr cap len => s.ringMessage ring index raddr cap len b
  | .container => s.containerRead (some b)
  | .page id =>
    (match tabGet s.mem.moves id with
     | none => s
     | some m =>
       -- the page's entry holds the serial under which it was spilled (R361; log 26)
       match s.openPage (s.pageAt m.page).gen m.page (s.pageAt m.page) b with
       | some plain => s.fetchDone id plain
       | none => s.tier2Fail id)

/-- A read has failed. -/
def State.readFailed (s : State) (why : HostRead) : State :=
  let s := s.raiseBit Reg.hstEvent 5
  match why with
  | .context qpn => s.contextFailed qpn
  | .entry ring _ => s.ringRetry ring
  | .message ring index raddr cap _ => s.ringBad ring index raddr cap []
  | .container => s.containerRead none
  | .page id => s.tier2Fail id

/-- Take a read off the list, with an MRD of it that still waits for credit. -/
def State.dropRead (s : State) (tag : Nat) : State :=
  { s with hst := { s.hst with reads := tabDel s.hst.reads tag, txq := s.hst.txq.filter (fun p => !(p.type == 2 && p.tag == tag)) } }

/-- What follows the end of any read: fetches, rings and a load that waited for a tag. -/
def State.afterRead (s : State) : State :=
  let s := s.retryFetches.pumpRings
  if s.hst.reads.any (fun x => x.2.why == .container) then s else s.readContainer

/-- A completion packet: a part of a read, its end, or the next part of a long one. Its count names the status and the bytes still to come: none ends the tag, and an end that comes before the bytes do is a read not completed (R373, R379; DESIGN CHOICE, log 144). -/
def State.completion (s : State) (tag count : Nat) (data : List Byte) : State :=
  match tabGet s.hst.reads tag with
  | none => s
  | some x =>
    let got := x.got ++ data.take x.left
    let left := x.left - data.length
    let more := bitsOf count 23 8
    if bitsOf count 7 0 ≠ 0 ∨ (more = 0 ∧ left ≠ 0) then ((s.dropRead tag).readFailed x.why).afterRead
    else
      if more ≠ 0 then { s with hst := { s.hst with reads := tabPut s.hst.reads tag { x with got := got, left := left } } }
      else if got.length < x.want then
        let n := min 4096 (x.want - got.length)
        let y : HostRd := { x with got := got, left := n, since := s.now }
        ({ s with hst := { s.hst with reads := tabPut s.hst.reads tag y } }).hostSend ⟨0, 2, x.fn, tag, x.addr + got.length, n, []⟩
      else ((s.dropRead tag).readDone x.why got).afterRead

/-- HOST_COMPLETION: a CPL of the host. -/
def execHostCompletion (hdr : HostHdr) (tag count : Nat) (data : List Byte) (s : State) : Host.Outcome State Fault Refusal :=
  match s.hostTake hdr 0 0 with
  | .error s => .next s
  | .ok s => .next (s.completion (tag % 256) count data)

/-- HOST_READ_TIMEOUT: 65,536 ticks have passed since the read was issued. -/
def execHostReadTimeout (tag : Nat) (s : State) : Host.Outcome State Fault Refusal :=
  match tabGet s.hst.reads tag with
  | none => .next s
  | some x => .next ((((s.advanceTo (x.since + 65536)).dropRead tag).readFailed x.why).afterRead)

end Sys2Proof.Machine
end

