-- ==== Sys2Proof/Machine/Views.lean ====
section
/-!
DEFINITION. What a register read returns (R29, R363, R386–R388, R391, R417): staged and live copies, and the registers computed from the node's other state.
-/

namespace Sys2Proof.Machine

open Sys2Proof

/-! ### Where an address leads (R387, R388, R417) -/

/-- A register, the live copy of a staged one, or nothing. -/
inductive Target where
  | reg (r : RegRef)
  | copy (r : RegRef)
  | unmapped
  deriving DecidableEq, Repr

/-- The target of an address. -/
def targetOf (a : Nat) : Target :=
  match findReg a with
  | some r => .reg r
  | none =>
    if liveOff ≤ a % 0x100000 then
      (match findReg (a - liveOff) with
       | some r => if r.row.acc = .st then .copy r else .unmapped
       | none => .unmapped)
    else .unmapped

/-! ### Computed registers -/

/-- The i-th 32-bit word of bytes, byte 0 at bits [7:0]. -/
def wordAt (bs : List Byte) (i : Nat) : Nat := field bs (4 * i) 4

/-- Word i of a value wider than a register. -/
def wideWord (v i : Nat) : Nat := v / pow2 (32 * i) % pow2 32

/-- A value of the map in effect; 0 with no map. -/
def State.ofMap (s : State) (f : MapData → Nat) : Nat := (s.map.cur.map f).getD 0

/-- A window that shows a length and then bytes (SEC_REPORT, SEC_CERT). -/
def lengthWindow (bs : List Byte) (i : Nat) : Nat := if i = 0 then bs.length else wordAt bs (i - 1)

/-- MAT_IMAGE entry (Table 9.16). -/
def State.imageView (s : State) (slot w : Nat) : Nat :=
  match s.image slot with
  | none => 0
  | some i =>
    if w = 0 then (match i.body with | .automata _ => 1 | .tcam _ => 2) + 4 * b2n i.casc
    else if w = 1 then i.first else if w = 2 then i.entries else sat32 i.edits

/-- LNK_PORT_STATE (Table 10.15). -/
def State.portView (s : State) (n : Nat) : Nat :=
  let l := s.link n
  l.state + 8 * b2n l.fenced + pow2 4 * (l.partnerLink % 64) + pow2 10 * (l.partnerId % 2048) + pow2 21 * (l.sendGen % 256)

/-- HLT_SCORE entry (Table 17.14). -/
def State.scoreView (s : State) (part : Nat) : Nat :=
  let x := s.score part
  x.score + pow2 16 * b2n x.warned + pow2 17 * b2n x.acted

/-- A word of MAP_VIEW (R325). -/
def State.mapView (s : State) (base i : Nat) : Nat :=
  s.ofMap (fun m =>
    if base = 0xC10000 then wordAt (nodeBytes (tabGet m.nodes (i / 4))) (i % 4)
    else if base = 0xC18000 then wordAt ((rangeFrom (4 * i) 4).flatMap (fun c => leBytes 1 ((tabGet m.classes c).getD 0))) 0
    else if base = 0xC18100 then wordAt (sliceBytes (tabGet m.slices (i / 16))) (i % 16)
    else if base = 0xC20000 then wordAt (membBytes (tabGet ((tabGet m.members (i / 16)).getD []) (i / 2 % 8))) (i % 2)
    else if base = 0xC40000 then wordAt ((rangeFrom (2 * i) 2).flatMap (fun h => leBytes 2 ((tabGet m.homes h).getD 0xFFFF))) 0
    else wordAt ((rangeFrom (4 * i) 4).map (lossByte m.loss)) 0)

/-- The value of a computed register, to an access of a role. -/
def State.view (s : State) (tenant : Option Nat) (r : RegRef) : Nat :=
  let b := r.row.base
  let e := r.entry
  let w := r.word
  if b = Reg.sysEventSum then s.eventSum
  else if b = Reg.timeNow then wideWord s.now w
  else if b = Reg.matKeyFree then s.keyFree
  else if b = Reg.matImage then s.imageView e w
  else if b = Reg.lnkPortState then s.portView e
  else if b = Reg.lnkRoute then s.routeEnt e
  else if b = Reg.quePinned then s.pinnedCount
  else if b = 0xC00004 then s.map.fabricId % 16 + 16 * (s.map.keeperCount % 8)
  else if b = 0xC00008 then wideWord (s.ofMap (·.gen)) w
  else if b = 0xC00010 then wideWord ((s.tip.map (·.gen)).getD 0) w
  else if b = 0xC00018 then wideWord ((s.tip.map (·.eff)).getD 0) w
  else if b = 0xC00028 then s.ofMap (fun m => m.loss.length)
  else if b = 0xC00050 then s.ofMap (fun m => wordAt m.digest e)
  else if 0xC10000 ≤ b ∧ b < 0xD00000 then s.mapView b e
  else if b = 0xD0002C then (match tenant with | none => 0 | some t => 1 + pow2 12 * (t % 4096))
  else if b = 0xD00030 then s.sec.leaf % pow2 30
  else if b = 0xD00080 then wordAt s.sec.idd e
  else if b = 0xD10000 then lengthWindow s.sec.report e
  else if b = 0xD30000 then lengthWindow s.sec.cert e
  else if b = 0xE10000 then s.scoreView (Part.bankGroup e)
  else if b = 0xE12000 then s.scoreView (Part.hbm e)
  else if b = 0xE12020 then s.scoreView (Part.lpddr e)
  else if b = 0xE12100 then s.scoreView (Part.link e)
  else if b = 0xE12200 then s.scoreView (Part.core e)
  else 0

/-! ### Roles (R363) -/

/-- A tenant access may read a register. -/
def tenantMay (t : Nat) (r : RegRef) : Bool :=
  let b := r.row.base
  [0x000000, Reg.timeNow, Reg.timeStatus, Reg.timeLatchFrame, Reg.timeModeStatus, Reg.timeModeEff, 0xC00008, 0xC00050, 0xC18000,
   0xC18100, 0xC40000, Reg.secNotice, 0xD0002C, 0xD00080, 0xD30000, Reg.hltHeartbeat].contains b ||
  ([Reg.attSatTenant, Reg.attProgTenant, Reg.memStallTenant, Reg.schTenantStat, Reg.hltRebuildTenant].contains b && r.entry == t)

/-- A denied access: counted and raised. -/
def State.denied (s : State) : State := (s.bump Reg.secStatDenied).raiseBit Reg.secEvent 5

/-- An access at an offset that holds no register, or a write to a live copy (R387, R417). -/
def State.unmappedAccess (s : State) : State := s.bump (Reg.hstStat + 12)

/-- What a register itself reads as, to a role that may read it. -/
def State.regValue (s : State) (tenant : Option Nat) (a : Nat) (r : RegRef) : Nat :=
  match r.row.acc with
  | .wo => 0
  | .st => s.staged a
  | .view => s.view tenant r
  | _ => s.live a

/-- Read one register (R386–R388). -/
def State.readReg (s : State) (tenant : Option Nat) (a : Nat) : Nat × State :=
  let a := a % pow2 24
  match tenant with
  | some t =>
    (match findReg a with
     | some r => if tenantMay t r then (s.regValue tenant a r, s) else (0, s.denied)
     | none => (0, s.denied))
  | none =>
    match targetOf a with
    | .reg r => (s.regValue none a r, s)
    | .copy _ => (s.live (a - liveOff), s)
    | .unmapped => (0, s.unmappedAccess)

/-- Read consecutive registers, one after another (R387). -/
def State.readRegs (s : State) (tenant : Option Nat) (a : Nat) : Nat → List Nat × State
  | 0 => ([], s)
  | n + 1 =>
    let x := s.readReg tenant a
    let y := x.2.readRegs tenant (a + 4) n
    (x.1 :: y.1, y.2)

end Sys2Proof.Machine
end

