-- ==== Sys2Proof/Machine/Commit.lean ====
section
/-!
DEFINITION. Commits (R389, R390, R419, R420, R437): capture of the staged copies of the named groups, the rules that refuse a value, the dial rules (R45, R46, R292), and the command registers.
-/

namespace Sys2Proof.Machine

open Sys2Proof

/-! ### Groups and candidates -/

/-- Commit group of a block (R419). -/
def State.groupOf (s : State) (block : Nat) : Nat := bitsOf (s.live64 Reg.sysCommit) (4 * block + 2) (4 * block)

/-- Registers that act as commands (R437). -/
def commandRegs : List Nat := [Reg.timeModeReq, Reg.attLoadCtl, Reg.matRuleCtl, Reg.queCmd, Reg.mapPropCtl, Reg.secAttestCtl]

/-- Merge the governed bits of a value. -/
def mergeBits (old mask v : Nat) : Nat := (old - (old &&& mask)) ||| (v &&& mask)

/-- A staged register as every earlier commit will leave it: its live value under its pending values. -/
def State.target (s : State) (a : Nat) : Nat :=
  (s.regs.pend.filter (fun p => p.addr == a)).foldl (fun v p => mergeBits v p.mask p.value) (s.live a)

/-- Staged registers of the named groups that can differ from what governs, lowest address first: any other equals its reset value in every copy. -/
def State.candidates (s : State) (scope : Nat → Bool) : List Nat :=
  let isSt (a : Nat) : Bool := ((findReg a).map (fun (r : RegRef) => r.row.acc == .st)).getD false
  let all : List Nat := s.regs.staged.map Prod.fst ++ s.regs.live.map Prod.fst ++ s.regs.pend.map PendVal.addr
  (all.foldl (fun l a => if scope a && isSt a then setInsert l a else l) []).filter
    (fun a => !commandRegs.contains a && s.staged a != s.target a)

/-- The register that an address belongs to, where one register spans several words (R417). -/
def regKey (a : Nat) : Nat :=
  if a = Reg.hltCfg + 4 then Reg.hltCfg
  else if Reg.hstWin ≤ a ∧ a < Reg.hstWin + 8192 then a - (a - Reg.hstWin) % 32
  else a

/-! ### Dials (R45) -/

/-- Entry m of dial k as a lookup of dial registers gives it. -/
def dialEntry (val : Nat → Nat) (k m : Nat) : Nat := val (Reg.timeDial + 1024 * k + m / 4 * 4) / pow2 (8 * (m % 4)) % 256

/-- The earlier of two faults (minute, rule). -/
def firstFault (a b : Option (Nat × Nat)) : Option (Nat × Nat) :=
  match a, b with
  | none, b => b
  | a, none => a
  | some x, some y => if x.1 < y.1 ∨ (x.1 = y.1 ∧ x.2 ≤ y.2) then some x else some y

/-- Faults of one aligned group of four minutes by rules 1 to 3. -/
def groupFault (entry : Nat → Nat) (urgent : List Nat) (g : Nat) : Option (Nat × Nat) :=
  let ms := rangeFrom (4 * g) 4
  let one := ms.foldl (fun f m =>
    let e := entry m
    firstFault f (if (m = 0 ∧ e ≠ Owner.system) ∨ (m ≠ 0 ∧ e = Owner.system) then some (m, 1)
      else if 24 ≤ e % 32 ∧ e % 32 ≤ 27 then some (m, 2) else none)) none
  firstFault one (if urgent.all (fun c => ms.any (fun m => entry m == c)) then none else some (4 * g, 3))

/-- The fault of dial k: its minute and its rule; none where it passes (R45). -/
def dialFault (entry : Nat → Nat) (k : Nat) (urgent : List Nat) : Option (Nat × Nat) :=
  match (List.range 256).foldl (fun f g => firstFault f (groupFault entry urgent g)) none with
  | some f => some f
  | none =>
    let count (p : Nat → Bool) : Nat := ((List.range 1024).filter (fun m => p (entry m))).length
    if count (· == Owner.scrub) < 16 ∨ count (· == Owner.migrate) < 32 then some (0, 4)
    else if k = 1 ∧ count (fun e => urgent.contains e) < 512 then some (0, 5)
    else none

/-! ### Rules that refuse one register's value -/

/-- Every request that the node holds, until its reply has been handed over. -/
def State.openReqs (s : State) : List Req :=
  s.sch.held ++ s.sch.runs.map (·.req) ++ s.sch.spareWait.map (·.1) ++ s.sch.order.map (·.req) ++ s.sch.replies.map (·.req) ++ s.sch.forwarded ++ s.sec.waiting.map (·.req)

/-- Function of ring context k. -/
def State.ringFn (s : State) (k : Nat) : Option Nat := (s.qp k).bind (fun q => if q.ring then some q.rfn else none)

/-- A reply buffer of a request that a ring of function fn brought lies so (R378, R382). -/
def State.replyBuffer (s : State) (fn : Nat) (inside : Nat → Nat → Bool) : Bool :=
  s.openReqs.any (fun r => match r.arr.via with
    | .ring _ addr cap => s.ringFn (ringBase + r.arr.ctx) == some fn && cap != 0 && inside addr cap
    | _ => false)

/-- A message being read for a ring of function fn, or the reply buffer of its entry, lies so (R378, R381). -/
def State.messageBuffer (s : State) (fn : Nat) (inside : Nat → Nat → Bool) : Bool :=
  s.hst.reads.any (fun x => x.2.fn == fn && (match x.2.why with
    | .message _ _ raddr cap _ => inside x.2.addr x.2.want || (cap != 0 && inside raddr cap)
    | _ => false))

/-- A host window is in use (R378). -/
def State.windowUsed (s : State) (w : Nat) : Bool :=
  let b := Reg.hstWin + 32 * w
  let ctl := s.live (b + 16)
  let base := s.live64 b
  let len := s.live64 (b + 8)
  let use := bitsOf ctl 6 5
  let inside (a n : Nat) : Bool := decide (base ≤ a ∧ a + n ≤ base + len)
  bitOf ctl 7 &&
  (if use = 0 then s.que.qps.any (fun q => q.2.ring && q.2.rfn == bitsOf ctl 4 0 && inside q.2.rbase ((if q.2.rkind = 2 then 256 else 32) * q.2.ringSize)) ||
      s.replyBuffer (bitsOf ctl 4 0) inside || s.messageBuffer (bitsOf ctl 4 0) inside
   else if use = 1 then inside (s.live64 Reg.queCtxBase) 268435456
   else if use = 2 then
     s.allPages.any (fun p => p.2.kind == .host && p.2.handle % 256 == w) ||
     s.mem.moves.any (fun m => m.2.kind == .spillHost && m.2.dest.headD 0 % 256 == w)
   else match s.prog.load with | some x => x.action != 2 && inside x.src x.len | none => false)

/-- A tenant queue pair exists, on chip or in the host's table (R297). -/
def State.tenantQps (s : State) : Bool :=
  s.que.away.any (fun a => !s.que.system.any (fun p => p.2 == a.1)) || s.que.qps.any (fun q => q.2.state != .free && q.2.part != sysPart)

/-- Megahertz of a clock that CLK_OBS can show, by CLK_OBS_CFG.sel (Table 16.12). -/
def State.obsMHz (s : State) (sel : Nat) : Nat :=
  let arith := if s.time.clockMode = 3 then 420 else if s.time.clockMode = 2 then 840 else 1050
  if sel = 0 then 100 else if sel = 1 then 25 else if sel = 2 then arith else if sel = 3 then arith / 2
  else if sel = 4 ∨ sel = 5 then 1000 else Config.pllMHz sel

/-- A value of MAT_CFG has another key_units, which is ignored: a key is attached or a TCAM image loaded (R240). -/
def State.keyUnitsHeld (s : State) (v : Nat) : Bool :=
  bitsOf v 7 0 != s.fld Reg.matCfg 7 0 && (!s.mat.keys.isEmpty || (s.mat.images ++ s.mat.kept).any (fun i => i.2.isTcam))

/-- A value is refused: the chapter's own events, as (register, bit); none where it is accepted. `val` gives the captured value of any register of the commit. A table base outside the protected region is refused like one out of its alignment (R151; DESIGN CHOICE, log 100). -/
def State.refusal (s : State) (val : Nat → Nat) (r : RegRef) (a : Nat) : Option (List (Nat × Nat)) :=
  let v := val a
  let b := r.row.base
  let bad (c : Bool) (es : List (Nat × Nat)) : Option (List (Nat × Nat)) := if c then some es else none
  if b = Reg.vspBurstCfg then
    bad (bitsOf v 12 8 == 0 || decide (16 < bitsOf v 12 8) || bitsOf v 19 16 == 0 || decide (8 < bitsOf v 19 16)) []
  else if b = Reg.memDuskCfg then bad (decide (bitsOf v 15 8 ≤ bitsOf v 7 0) || decide (bitsOf v 31 24 ≤ bitsOf v 23 16)) []
  else if b = Reg.pgwSeqCfg then
    if s.bit Reg.pgwStatus 0 then some [(Reg.pgwEvent, 4)] else bad (decide (bitsOf v 4 0 < 12) || decide (22 < bitsOf v 4 0)) []
  else if b = Reg.pgwSeqBase ∨ b = Reg.pgwMirrorBase then
    if s.bit Reg.pgwStatus 0 then some [(Reg.pgwEvent, 4)] else bad (!s.protectedAt (val b + pow2 32 * val (b + 4))) []
  else if b = Reg.matCfg then
    if bitsOf v 11 8 < 2 ∨ 8 < bitsOf v 11 8 ∨ 128 < bitsOf v 7 0 then some []
    else bad (s.keyUnitsHeld v && bitsOf v 11 8 == s.fld Reg.matCfg 11 8) [(Reg.matEvent, 6)]
  else if b = Reg.attProgCg then bad (!s.cgOk v) [(Reg.attProgEvent, 2)]
  else if b = Reg.queCfg then bad (decide (1024 < bitsOf v 10 0)) []
  else if b = Reg.queCtxBase then bad s.tenantQps []
  else if b = Reg.queCmd then bad (decide (8 < v)) []
  else if b = Reg.schClassCfg then bad (bitsOf v 19 0 == 0) [(Reg.schEvent, 1)]
  else if b = Reg.mapCfg then bad (bitsOf v 7 0 == 0) []
  else if b = Reg.secCfg then bad (decide (bitsOf v 3 0 < 10) || decide (16 < bitsOf v 3 0)) []
  else if b = Reg.secIsoCfg then
    bad (bitOf v 0 && (!bitOf (val (Reg.schClassCfg + 4 * r.entry)) 20 || bitsOf v 31 16 == 0)) [(Reg.secEvent, 7)]
  else if b = Reg.hstWin then bad (s.windowUsed r.entry) [(Reg.hstEvent, 4)]
  else if b = Reg.clkCfg then bad (decide (10 < bitsOf v 3 0)) []
  else if b = Reg.clkObsCfg then
    bad (decide (8 < bitsOf v 3 0) || (bitOf v 8 && decide (200 * pow2 (bitsOf v 7 4) < s.obsMHz (bitsOf v 3 0)))) [(Reg.clkEvent, 5)]
  else if b = Reg.hltCfg then
    let lo := val Reg.hltCfg
    let hi := val (Reg.hltCfg + 4)
    bad (decide (bitsOf lo 31 16 ≤ bitsOf lo 15 0) || decide (bitsOf hi 15 8 ≤ bitsOf hi 7 0) || decide (bitsOf hi 7 0 < 8)) [(Reg.hltEvent, 8)]
  else if b = Reg.timeModeReq then bad (decide (bitsOf v 15 8 < 5)) []
  else none

/-! ### The dials and the urgent flags of a commit (R45, R292) -/

/-- What the dial check finds: addresses it refuses, events, and TIME_DIAL_STATUS fields (checked, ok, minute, rule); none where nothing was to be checked. -/
structure DialCheck where
  /-- Refused addresses. -/
  refused : List Nat
  /-- Events. -/
  events : List (Nat × Nat)
  /-- Report. -/
  report : Option (Nat × Bool × Nat × Nat)

/-- Dials that changed words belong to, rising. -/
def dialsOf (changed : List Nat) : List Nat :=
  changed.foldl (fun l a => if Reg.timeDial ≤ a ∧ a < Reg.timeDial + 3072 then setInsert l ((a - Reg.timeDial) / 1024) else l) []

/-- Check the dials and urgent flags among the accepted changes of a commit. -/
def State.dialCheck (s : State) (changed : List Nat) : DialCheck :=
  let val (a : Nat) : Nat := if changed.contains a then s.staged a else s.target a
  let flips := (List.range 24).filter (fun c => bitOf (val (Reg.schClassCfg + 4 * c)) 20 != bitOf (s.target (Reg.schClassCfg + 4 * c)) 20)
  let urgent := (List.range 24).filter (fun c => bitOf (val (Reg.schClassCfg + 4 * c)) 20)
  let dials := dialsOf changed
  let checked := if flips.isEmpty then dials else [0, 1, 2]
  let found := checked.map (fun k => (k, dialFault (dialEntry val k) k urgent))
  let bads := found.filter (fun f => f.2.isSome)
  let report : Option (Nat × Bool × Nat × Nat) :=
    match bads, found.getLast? with
    | (k, some f) :: _, _ => some (k, false, f.1, f.2)
    | _, some (k, _) => some (k, true, 0, 0)
    | _, none => none
  let wordsOf (k : Nat) : List Nat := changed.filter (fun a => decide (Reg.timeDial + 1024 * k ≤ a ∧ a < Reg.timeDial + 1024 * k + 1024))
  if bads.isEmpty then ⟨[], [], report⟩
  else if !flips.isEmpty then
    ⟨dials.flatMap wordsOf ++ flips.map (fun c => Reg.schClassCfg + 4 * c),
      (Reg.schEvent, 1) :: (if dials.isEmpty then [] else [(Reg.timeEvent, 5)]), report⟩
  else ⟨bads.flatMap (fun f => wordsOf f.1), bads.map (fun _ => (Reg.timeEvent, 5)), report⟩

/-- Write TIME_DIAL_STATUS's report (Table 2.12). -/
def State.dialReport (s : State) (r : Option (Nat × Bool × Nat × Nat)) : State :=
  match r with
  | none => s
  | some (k, ok, m, rule) =>
    s.setLive Reg.timeDialStatus (putBits (putBits (putBits (putBits (s.live Reg.timeDialStatus) 3 2 k) 4 4 (b2n ok)) 14 5 m) 17 15 rule)

/-! ### Capture (R389) -/

/-- A pending value takes its place: it replaces the one for the same bits; a dial word queued in an earlier frame keeps its own Midnight (R46, R389). -/
def State.putPend (s : State) (p : PendVal) : State :=
  let dial := decide (Reg.timeDial ≤ p.addr ∧ p.addr < Reg.timeDial + 3072)
  let keep (q : PendVal) : Bool := !(q.addr == p.addr && q.mask == p.mask && (!dial || q.timing == p.timing))
  { s with regs := { s.regs with
      pend := s.regs.pend.filter keep ++ [p]
      badParity := s.regs.badParity.filter (fun b => b != (p.addr, 1)) } }

/-- One part of an accepted register is captured: live at once, or pending until its instant. -/
def State.capturePart (s : State) (r : RegRef) (a v : Nat) (part : Timing × Nat) : State :=
  let mask := part.2
  if v &&& mask = s.target a &&& mask then s
  else match part.1 with
  | .now => s.makeLive ⟨a, mask, v &&& mask, 0⟩
  | .midnight => s.putPend ⟨a, mask, v &&& mask, s.frame + 1⟩
  | .frame2 => s.putPend ⟨a, mask, v &&& mask, s.frame + 2⟩
  | .detect => s.putPend ⟨a, mask, v &&& mask, detectTiming + r.entry⟩

/-- A register is captured, part by part. -/
def State.capture (s : State) (a : Nat) : State :=
  match findReg a with
  | none => s
  | some r =>
    let v := s.staged a
    -- key_units alone is ignored; hole_log2 of the same commit counts (R240)
    if r.row.base = Reg.matCfg ∧ s.keyUnitsHeld v then
      (r.timed.foldl (fun s p => s.capturePart r a (putBits v 7 0 (s.fld Reg.matCfg 7 0)) p) s).raiseBit Reg.matEvent 6
    else r.timed.foldl (fun s p => s.capturePart r a v p) s

/-! ### What a commit starts beside its registers -/

/-- The node moves to a preferred feed that is valid (R412, R424). -/
def State.preferFeed (s : State) : State :=
  let want := s.fld Reg.pwrFeedCfg 0 0
  if s.fld Reg.pwrStatus 0 0 ≠ want ∧ s.bit Reg.pwrStatus (1 + want) then
    (s.setStatus Reg.pwrStatus 0 0 want).raiseBit Reg.pwrEvent 0
  else s

/-- The token that SEC_DEBUG holds is to be acted on: the security block's findings come with ACT_ON_TOKEN. SEC_ATTEST_CTL.queue queues the captured nonce in slot 4,095 (R352). -/
def State.attestCommit (s : State) : State :=
  let s := if s.bit Reg.secAttestCtl 1 then { s with sec := { s.sec with tokenDue := true } } else s
  if s.bit Reg.secAttestCtl 0 then
    let nonce := (List.range 8).flatMap (fun i => leBytes 4 (s.live (Reg.secAttestNonce + 4 * i)))
    let s := s.queueNonce 4095 nonce
    s.putStatus Reg.secAttestStatus (putBits (s.live Reg.secAttestStatus) 1 0 1)
  else s

/-- A command register acts (R437). -/
def State.command (s : State) (a : Nat) : State :=
  if a = Reg.timeModeReq then s.modeCommit
  else if a = Reg.attLoadCtl then s.loadCommit
  else if a = Reg.matRuleCtl then s.ruleCommit
  else if a = Reg.queCmd then s.queCommand
  else if a = Reg.mapPropCtl then s.propCommit
  else if a = Reg.secAttestCtl then s.attestCommit
  else s

/-- Links that DOWN holds and a pending LNK_PORT_CFG enables enter DETECT, and one that is MISWIRED leaves it when its port is disabled (R245, R268, Table 10.2). -/
def State.enableLinks (s : State) (as : List Nat) : State :=
  as.foldl (fun s a =>
    if Reg.lnkPortCfg ≤ a ∧ a < Reg.lnkPortCfg + 256 then
      let n := (a - Reg.lnkPortCfg) / 4
      if (s.link n).state = LState.down ∧ bitOf (s.target a) 0 ∧ 4 ≤ s.sunriseStep then s.setLinkState n LState.detect
      else if (s.link n).state = LState.miswired ∧ !bitOf (s.target a) 0 then s.setLinkState n LState.detect else s
    else s) s

/-- Effects on the blocks of registers that became live at once. -/
def State.afterCapture (s : State) (as : List Nat) : State :=
  let s := s.enableLinks as
  let s := if as.contains Reg.pwrFeedCfg then s.preferFeed else s
  let s := if as.contains Reg.timeCfg || as.contains Reg.timePpsComp then { s with time := { s.time with reveal := true } } else s
  -- edges that come while pps_en is 0 are not seen, so none before them is a previous one (R32)
  let s := if s.bit Reg.timeCfg 0 then s else { s with time := { s.time with lastEdge := none } }
  let s := if as.contains Reg.timeCfg then s.refreshTime else s
  if as.any (fun a => a / 0x100000 == 15 || a == Reg.queCtxBase || a == Reg.queCtxBase + 4) then
    s.setStatus Reg.queStatus 14 14 (b2n (s.inWindow 0 1 (s.live64 Reg.queCtxBase) 268435456))
  else s

/-! ### The commit -/

/-- Record a parity mismatch (R390). -/
def State.parityFound (s : State) (a copy : Nat) : State :=
  (s.setLive Reg.sysParityAddr (a % pow2 24 + pow2 24 * copy)).raiseBit Reg.sysEvent 0

/-- SYS_COMMIT_LAST describes a commit (Table 17.7). -/
def State.commitLast (s : State) (mask : Nat) (whole : Bool) (refused : Nat) : State :=
  s.touch Reg.sysCommitLast (mask % 256 + 256 * b2n whole + 512 * min 127 refused)

/-- Raise a list of events. -/
def State.raiseAll (s : State) (es : List (Nat × Nat)) : State := es.foldl (fun s e => s.raiseBit e.1 e.2) s

/-- Registers of the named groups pass or are refused by their own rules: (accepted addresses, refused addresses, events of the chapters). -/
def State.judge (s : State) (as : List Nat) : List Nat × List Nat × List (Nat × Nat) :=
  let val (a : Nat) : Nat := if as.contains a then s.staged a else s.target a
  as.foldl (fun (x : List Nat × List Nat × List (Nat × Nat)) a =>
    match findReg a with
    | none => x
    | some r =>
      match s.refusal val r a with
      | none => (x.1 ++ [a], x.2.1, x.2.2)
      | some es => (x.1, x.2.1 ++ [a], if x.2.1.any (fun b => regKey b == regKey a) then x.2.2 else x.2.2 ++ es)) ([], [], [])

/-- Commit the groups of a mask (R389, R420). A mask of zero does nothing. -/
def State.commitGroups (s : State) (mask : Nat) : State :=
  if mask % 256 = 0 then s
  else
    let scope (a : Nat) : Bool := bitOf mask (s.groupOf (a / 0x100000))
    match s.regs.badParity.find? (fun b => b.2 == 0 && scope b.1) with
    | some b => ((s.parityFound b.1 0).raiseBit Reg.sysEvent 1).commitLast mask true 0
    | none =>
      let as := s.candidates scope
      let cmds := commandRegs.filter (fun a => scope a && s.regs.written.contains a)
      let j := s.judge as
      let k := s.judge cmds
      let d := s.dialCheck j.1
      let taken := j.1.filter (fun a => !d.refused.contains a)
      let refused := j.2.1 ++ d.refused ++ k.2.1
      let keys := refused.foldl (fun l a => setInsert l (regKey a)) []
      let s := { s with regs := { s.regs with written := s.regs.written.filter (fun a => !scope a) } }
      let s := taken.foldl (fun s a => s.capture a) s
      let s := k.1.foldl (fun s a => s.setLive a (s.staged a)) s
      let s := (s.raiseAll (j.2.2 ++ d.events ++ k.2.2)).dialReport d.report
      let s := keys.foldl (fun s _ => s.raiseBit Reg.sysEvent 2) s
      let s := (s.setLive Reg.sysRefusedAddr (keys.headD 0)).commitLast mask false keys.length
      let s := if k.2.1.contains Reg.timeModeReq ∧ !s.bit Reg.timeModeStatus 5 then
          s.setLive Reg.timeModeStatus (putBits (s.live Reg.timeModeStatus) 6 6 1) else s
      k.1.foldl (fun s a => s.command a) (s.afterCapture taken)

end Sys2Proof.Machine
end

