-- ==== Sys2Proof/Machine/Regs.lean ====
section
/-!
DEFINITION. Register accesses through the two ports (R363, R386–R388, R393, R417), the commit strobe (R420), parity restoration (R390), and the flash bridge (R403, R404, R422).
-/

namespace Sys2Proof.Machine

open Sys2Proof

/-! ### Health that falls (R331) -/

/-- Health becomes FAILED: the node fences itself and reports itself to the leader with minutes silent 0xFFFF (R319, R331). -/
def State.becomeFailed (s : State) : State :=
  if s.hlt.health = 2 then s
  else
    let s := { s with hlt := { s.hlt with health := 2, drainDue := false } }
    let s := ((s.setStatus Reg.hltStatus 1 0 2).raiseBit Reg.hltEvent 3).fenceSelf
    if s.map.cur.isSome then s.ctl s.map.leader 10 [s.map.id, 0xFFFF] else s

/-- Health becomes DEGRADED: DRAIN is proposed at the next Midnight where auto_drain says so (R331). -/
def State.becomeDegraded (s : State) : State :=
  if s.hlt.health ≠ 0 then s
  else
    let s := { s with hlt := { s.hlt with health := 1, drainDue := s.bit (Reg.hltCfg + 4) 16 } }
    (s.setStatus Reg.hltStatus 1 0 1).raiseBit Reg.hltEvent 2

/-! ### The flash bridge (R422) -/
namespace Flash
/-- Results (Table 17.9): OK. -/
abbrev ok := 0
/-- REFUSED. -/
abbrev refused := 1
/-- CLOSED. -/
abbrev closed := 2
/-- PORT. -/
abbrev port := 3
/-- BUSY. -/
abbrev busy := 4
/-- DEVICE. -/
abbrev device := 5
/-- Lowest address that may be erased or programmed (Table 16.4a). -/
abbrev images := 0x100000
end Flash

/-- The bridge is open: a stopped step that opens it, or service (R403, R404). -/
def State.bridgeOpen (s : State) : Bool := s.bit Reg.sysBoot 5

/-- SYS_FLASH_STATUS.result. -/
def State.flashResult (s : State) (r : Nat) : State := s.setStatus Reg.sysFlashStatus 4 2 r

/-- An operation may touch these addresses. -/
def flashAllowed (op addr lenM1 : Nat) : Bool :=
  if op = 1 then true
  else if op = 2 then decide (Flash.images ≤ addr) && addr % 65536 == 0
  else decide (Flash.images ≤ addr) && decide (addr % 256 + lenM1 < 256)

/-- A write of SYS_FLASH_CTL with op ≠ 0 (R422). -/
def State.flashStart (s : State) (wecia : Bool) (op lenM1 : Nat) : State :=
  let addr := s.live Reg.sysFlashAddr
  if s.sys.flashOp.isSome then s.flashResult Flash.busy
  else if !s.bridgeOpen then s.flashResult Flash.closed
  else if wecia then s.flashResult Flash.port
  else if !flashAllowed op addr lenM1 then s.flashResult Flash.refused
  else ({ s with sys := { s.sys with flashOp := some (op, addr, lenM1 + 1) } }).setStatus Reg.sysFlashStatus 0 0 1

/-- The i-th byte of the bridge buffer. -/
def State.flashByte (s : State) (i : Nat) : Nat := bitsOf (s.live (Reg.sysFlashData + i / 4 * 4)) (8 * (i % 4) + 7) (8 * (i % 4))

/-- Write the i-th byte of the bridge buffer. -/
def State.putFlashByte (s : State) (i v : Nat) : State :=
  let a := Reg.sysFlashData + i / 4 * 4
  s.setLive a (putBits (s.live a) (8 * (i % 4) + 7) (8 * (i % 4)) v)

/-- What a finished operation has done to the flash and the buffer. -/
def State.flashEffect (s : State) (op addr n : Nat) : State :=
  if op = 1 then (List.range n).foldl (fun s i => s.putFlashByte i (spGet 255 s.sys.flash (addr + i))) s
  else if op = 2 then
    { s with sys := { s.sys with flash := s.sys.flash.filter (fun p => decide (p.1 < addr ∨ addr + 65536 ≤ p.1)) } }
  else
    { s with sys := { s.sys with flash := (List.range n).foldl (fun f i => spSet 255 f (addr + i) (s.flashByte i)) s.sys.flash } }

/-- A bridge operation ends with a result (R422; log 51). -/
def State.flashEnd (s : State) (result : Nat) : State :=
  let s := { s with sys := { s.sys with flashOp := none } }
  (s.putStatus Reg.sysFlashStatus (putBits (putBits (s.live Reg.sysFlashStatus) 0 0 0) 4 2 result)).raiseBit Reg.sysEvent 4

/-- FLASH_DONE: the flash has finished the operation. -/
def execFlashDone (s : State) : Host.Outcome State Fault Refusal :=
  match s.sys.flashOp with
  | none => .next s
  | some (op, addr, n) => .next ((s.flashEffect op addr n).flashEnd Flash.ok)

/-- FLASH_DEVICE_TIMEOUT: 500 ms have passed. -/
def execFlashDeviceTimeout (s : State) : Host.Outcome State Fault Refusal :=
  match s.sys.flashOp with
  | none => .next s
  | some _ => .next (s.flashEnd Flash.device)

/-! ### One register write (R387, R388, R393, R417, R422) -/

/-- Bits that are not reserved take the value; reserved bits read as at reset. -/
def RegRef.cut (r : RegRef) (v : Nat) : Nat := mergeBits (r.reset % pow2 32) r.mask v

/-- A copy has been written whole: its parity is good again (R390). -/
def State.goodParity (s : State) (a copy : Nat) : State :=
  { s with regs := { s.regs with badParity := s.regs.badParity.filter (fun b => b != (a, copy)) } }

/-- A write of a staged register; a write of a command register arms it (R437). -/
def State.stageWrite (s : State) (r : RegRef) (a v : Nat) : State :=
  let s := (s.setStaged a (r.cut v)).goodParity a 0
  if commandRegs.contains a then { s with regs := { s.regs with written := setInsert s.regs.written a } } else s

/-- A write of an RW register. -/
def State.directWrite (s : State) (wecia : Bool) (r : RegRef) (a v : Nat) : State :=
  if a = Reg.sysFlashCtl then
    let op := bitsOf v 1 0
    let s := s.setLive a (putBits (r.cut v) 1 0 0)
    if op = 0 then s else s.flashStart wecia op (bitsOf v 9 2)
  else if r.row.base = Reg.sysFlashData ∧ s.sys.flashOp.isSome then s
  else (s.setLive a (r.cut v)).goodParity a 2

/-- An operator write of one register. -/
def State.operatorWrite (s : State) (wecia : Bool) (a v : Nat) : State :=
  match targetOf a with
  | .unmapped => s.unmappedAccess
  | .copy _ => s.unmappedAccess
  | .reg r =>
    match r.row.acc with
    | .st => s.stageWrite r a v
    | .rw => s.directWrite wecia r a v
    | .ev => s.clearEvents a v
    | .wo => if a = Reg.sysCommitGo then s.commitGroups (v % 256) else s.setLive a v
    | .ro | .rs | .lat | .view => s

/-- Write one register: every tenant write is denied (R363). -/
def State.writeReg (s : State) (wecia : Bool) (tenant : Option Nat) (a v : Nat) : State :=
  match tenant with
  | some _ => s.denied
  | none => s.operatorWrite wecia (a % pow2 24) (v % pow2 32)

/-- Write consecutive registers, one after another (R387). -/
def State.writeRegs (s : State) (wecia : Bool) (tenant : Option Nat) (a : Nat) : List Nat → State
  | [] => s
  | v :: vs => (s.writeReg wecia tenant a v).writeRegs wecia tenant (a + 4) vs

/-! ### The ports (R363, R377, R386, R413) -/

/-- I3C serves register accesses from the end of step 3, or in a step that has stopped (R386, R395, R403). -/
def State.i3cOpen (s : State) : Bool := s.running && (decide (3 < s.sunriseStep) || s.bootStopped)

/-- A write through a port: over the Wecia Link it is answered once it has taken effect. -/
def State.portWrite (s : State) (port : Port) (op : Bool → Option Nat → State → State) : State :=
  match port with
  | .i3c => if s.i3cOpen then op false none s else s
  | .wecia hdr fn tag =>
    match s.hostTake hdr 0 1 with
    | .error s => s
    | .ok s =>
      if s.fnEnabled (fn % 32) then (op true (s.fnTenant (fn % 32)) s).hostCpl (fn % 32) tag 0 []
      else s.hostCpl (fn % 32) tag 1 []

/-- REGISTER_WRITE: up to eight consecutive registers. -/
def execRegisterWrite (port : Port) (addr : Nat) (values : List Nat) (s : State) : Host.Outcome State Fault Refusal :=
  .next (s.portWrite port (fun w t s => s.writeRegs w t (addr / 4 * 4) (values.take 8)))

/-- COMMIT_GO: a write of SYS_COMMIT_GO. -/
def execCommitGo (port : Port) (mask : Nat) (s : State) : Host.Outcome State Fault Refusal :=
  .next (s.portWrite port (fun w t s => s.writeReg w t Reg.sysCommitGo mask))

/-- EVENT_CLEAR: a write-back to an event register. -/
def execEventClear (port : Port) (addr value : Nat) (s : State) : Host.Outcome State Fault Refusal :=
  .next (s.portWrite port (fun w t s => s.writeReg w t (addr / 4 * 4) value))

/-- A flash row: SYS_FLASH_ADDR holds the address as SYS_FLASH_CTL is written (log 2). -/
def State.flashRow (s : State) (port : Port) (op addr lenM1 : Nat) : State :=
  s.portWrite port (fun w t s =>
    let s := if t.isNone then s.setLive Reg.sysFlashAddr (addr % pow2 32) else s
    s.writeReg w t Reg.sysFlashCtl (op + 4 * (lenM1 % 256)))

/-- FLASH_READ. -/
def execFlashRead (port : Port) (addr lenM1 : Nat) (s : State) : Host.Outcome State Fault Refusal := .next (s.flashRow port 1 addr lenM1)
/-- FLASH_ERASE. -/
def execFlashErase (port : Port) (addr : Nat) (s : State) : Host.Outcome State Fault Refusal := .next (s.flashRow port 2 addr 0)
/-- FLASH_PROGRAM. -/
def execFlashProgram (port : Port) (addr lenM1 : Nat) (s : State) : Host.Outcome State Fault Refusal := .next (s.flashRow port 3 addr lenM1)

/-- Registers of the standby domain, which a shut-down node still shows over I3C (R411, R413, R418). -/
def standbyRegs : List Nat := [Reg.pwrLastShutdown, Reg.clkTwilight]

/-- REGISTER_READ: up to eight consecutive registers. -/
def execRegisterRead (port : Port) (addr count : Nat) (s : State) : Host.Outcome State Fault Refusal :=
  let a := addr / 4 * 4
  let n := min 8 count
  match port with
  | .i3c =>
    if s.i3cOpen then
      let x := s.readRegs none a n
      .next (x.2.emit (.regValues x.1))
    else if s.sys.power = .latched ∧ standbyRegs.contains (a % pow2 24) then .next (s.emit (.regValues [s.live (a % pow2 24)]))
    else .next s
  | .wecia hdr fn tag =>
    match s.hostTake hdr 0 1 with
    | .error s => .next s
    | .ok s =>
      if s.fnEnabled (fn % 32) then
        let x := s.readRegs (s.fnTenant (fn % 32)) a n
        .next (x.2.hostCpl (fn % 32) tag 0 (x.1.flatMap (leBytes 4)))
      else .next (s.hostCpl (fn % 32) tag 1 [])

/-- I3C_ENTDAA: the node takes its dynamic address. -/
def execI3cEntdaa (addr : Nat) (s : State) : Host.Outcome State Fault Refusal :=
  .next (if s.i3cOpen then { s with hst := { s.hst with i3cAddr := some (addr % 128) } } else s)

/-! ### Parity (R390) -/

/-- PARITY_RESTORE: a pending or live copy takes its value from protected tier 0 again, or the protected value is itself lost. -/
def execParityRestore (addr copy : Nat) (ok : Bool) (s : State) : Host.Outcome State Fault Refusal :=
  if copy = 0 ∨ !s.regs.badParity.contains (addr, copy) then .next s
  else if ok then .next (s.goodParity addr copy)
  else .next s.becomeFailed

end Sys2Proof.Machine
end

