-- ==== Sys2Proof/Machine/Health.lean ====
section
/-!
DEFINITION. Health (R330, R331), ageing and the voltage plan (R52, R332), the watchdog, checkpoints and replay (R334, R335), the heartbeat register (R336).
-/

namespace Sys2Proof.Machine

open Sys2Proof

/-! ### Conditions (R331) -/

/-- HLT_STATUS counts closed bank groups and removed cores (Table 17.12). -/
def State.refreshHlt (s : State) : State :=
  s.putStatus Reg.hltStatus
    (putBits (putBits (s.live Reg.hltStatus) 15 4 (s.actedCount (Part.bankGroup 0) 2048)) 22 16 (s.actedCount (Part.core 0) 96))

/-- Attention groups that keep all their cores. -/
def State.wholeGroups (s : State) : Nat :=
  ((List.range 12).filter (fun g => !bitOf (s.live Reg.attProgCg) g && (List.range 8).all (fun c => !s.coreRemoved (8 * g + c)))).length

/-- A torus direction has fewer than 4 links UP: of a node with a map and a place in the torus (log 57). -/
def State.torusShort (s : State) : Bool :=
  s.map.cur.isSome && s.inService && !s.isSpare && !s.inTwilight &&
  (List.range 6).any (fun d =>
    let n := if codeDim d = 0 then s.sizes.1 else if codeDim d = 1 then s.sizes.2.1 else s.sizes.2.2
    decide (1 < n) && decide (((dirLinks d 0).filter (fun k => (s.link k).state == LState.up)).length < 4))

/-- A condition of DEGRADED holds (R331, R332). -/
def State.degradedNow (s : State) : Bool :=
  decide (64 < s.actedCount (Part.bankGroup 0) 2048) || decide (0 < s.actedCount (Part.hbm 0) 8) ||
  decide (2 < s.actedCount (Part.lpddr 0) 8) || decide (8 < s.actedCount (Part.link 0) 64) ||
  decide (8 < s.actedCount (Part.core 0) 96) || decide (16 ≤ s.hlt.ceilFrames) || s.torusShort

/-- Health follows its conditions. -/
def State.checkHealth (s : State) : State :=
  if s.wholeGroups < 8 then s.becomeFailed else if s.degradedNow then s.becomeDegraded else s

/-! ### Parts that act (Table 13.2) -/

/-- Moves towards a closed bank group are abandoned: their pages start again towards another part. -/
def State.abandonClosed (s : State) : State :=
  (s.mem.moves.filter (fun m => m.2.kind.toTier0 && m.2.dest.any (fun w => s.bgClosed (locUnit w)))).foldl
    (fun s m => s.abandonMove m.1) s

/-- A removed core's program is unloaded; a run that the core holds part of stalls (Table 13.2). -/
def State.unloadCore (s : State) (c : Nat) : State :=
  let g := c / 8
  let bound (p : Program) : Bool := p.group == g && p.cores.contains (c % 8)
  let hit := s.prog.programs.any (fun p => (p.2.active.map bound).getD false)
  let drop (p : Nat × Slot Program) : Nat × Slot Program := if (p.2.active.map bound).getD false then (p.1, { p.2 with active := none }) else p
  let s := { s with prog := { s.prog with programs := s.prog.programs.map drop } }
  let s := match tabGet s.prog.current g with
    | some r => if r.prog.cores.contains (c % 8) then s.stall r.rid .weightRepair else s
    | none => s
  if hit then s.raiseBit Reg.attProgEvent 0 else s

/-- The action of a part whose score reached act. -/
def State.partAction (s : State) (p : Nat) : State :=
  let sc := s.score p
  let s := (s.setScore p { sc with acted := true, reached := false }).raiseBit Reg.hltEvent 1
  if p < 2048 then (s.maskUnit p).abandonClosed
  else if p < Part.link 0 then (if Part.lpddr 0 ≤ p then s.leaveStack else s)
  else if p < Part.core 0 then s.setLinkState (p - Part.link 0) LState.down
  else s.unloadCore (p - Part.core 0)

/-- Every part that has reached act since the last Midnight acts (R330). -/
def State.partsAct (s : State) : State :=
  let due := (s.hlt.scores.filter (fun p => p.2.reached && !p.2.acted)).map Prod.fst
  (due.foldl State.partAction s).refreshHlt

/-- Every score halves at a Midnight whose frame is a multiple of 1,024 (R330). -/
def State.halveScores (s : State) : State :=
  if s.frame % 1024 ≠ 0 then s
  else
    let half (p : Nat × Score) : Option (Nat × Score) :=
      let v := { p.2 with score := p.2.score / 2 }
      if v = Score.zero then none else some (p.1, v)
    { s with hlt := { s.hlt with scores := s.hlt.scores.filterMap half } }

/-! ### Ageing and voltage (R52, R332, Table 13.4) -/

/-- Floor of a mode's setpoint, mV. -/
def floorMv (mode : Nat) : Nat := if mode < 2 then 700 else if mode = 2 then 620 else 570
/-- Ceiling. -/
def ceilMv (mode : Nat) : Nat := if mode < 2 then 800 else if mode = 2 then 710 else 650
/-- Typical value. -/
def typicalMv (mode : Nat) : Nat := if mode < 2 then 750 else if mode = 2 then 660 else 600

/-- The setpoint kept for a mode. -/
def State.setpoint (s : State) (mode : Nat) : Nat := s.hlt.setpoints.getD mode (typicalMv mode)

/-- The smallest of some readings. -/
def minInt (l : List Int) : Option Int := match l with | [] => none | a :: t => some (t.foldl min a)

/-- AGEING_MEASURE: each monitor keeps the smallest slack of its frame; negative slack is FAILED. -/
def State.ageing (s : State) (slack : List Int) : State :=
  let put (l : List (Nat × Int)) (x : Int × Nat) : List (Nat × Int) :=
    tabPut l x.2 (match tabGet l x.2 with | some y => min x.1 y | none => x.1)
  let s := { s with hlt := { s.hlt with slackMin := (slack.take 128).zipIdx.foldl put s.hlt.slackMin } }
  if slack.any (fun x => decide (x < 0)) then s.becomeFailed else s

/-- HLT_AGE latches; the frame's smallest slack joins the history (R41, R332). -/
def State.latchAge (s : State) : State :=
  let s := s.hlt.slackMin.foldl (fun s p => s.setLive (Reg.hltAge + 4 * p.1) (ofSigned 16 p.2)) s
  let hist := match minInt (s.hlt.slackMin.map Prod.snd) with | some m => (m :: s.hlt.slackHist).take 64 | none => s.hlt.slackHist
  { s with hlt := { s.hlt with slackMin := [], slackHist := hist } }

/-- Frames E − 1 and E of a mode change. -/
def State.changingMode (s : State) : Bool :=
  (s.bit Reg.timeModeStatus 4 && s.live64 Reg.timeModeEff == s.frame + 1) || (s.time.modeChange.map Prod.fst) == some s.frame

/-- The plan made for the last frame becomes the setpoint of its mode. -/
def State.takePlan (s : State) : State :=
  match s.hlt.planned with
  | none => s
  | some (mv, m) =>
    if m = s.mode then { s with hlt := { s.hlt with setpoints := listPut 0 s.hlt.setpoints m mv, planned := none } }
    else { s with hlt := { s.hlt with planned := none } }

/-- HLT_STATUS.at_ceiling. -/
def State.refreshCeiling (s : State) : State :=
  s.setStatus Reg.hltStatus 3 3 (b2n (decide (s.setpoint s.mode = ceilMv s.mode)))

/-- The setpoint planned from a slack history, its newest first. -/
def planMv (mv mode slackLow slackHigh : Nat) (hist : List Int) : Nat :=
  match hist with
  | [] => mv
  | m :: _ =>
    if m < (slackLow : Int) then min (ceilMv mode) (mv + 5)
    else if 64 ≤ hist.length ∧ hist.all (fun x => decide ((slackHigh : Int) ≤ x)) then max (floorMv mode) (mv - 5)
    else mv

/-- VOLTAGE_PLAN: at the Midnight that begins frame F, the setpoint of frame F + 1 (log 58). -/
def State.voltagePlan (s : State) (fresh : Bool) : State :=
  -- the frame that ended ran at its own mode's setpoint, before the plan made for this one is taken
  let was := match s.time.modeChange with | some (f, old) => if f = s.frame then old else s.mode | none => s.mode
  let top := decide (s.setpoint was = ceilMv was)
  let s := s.takePlan.refreshCeiling
  let mode := s.mode
  let mv := s.setpoint mode
  let low := s.fld (Reg.hltCfg + 4) 7 0
  let short := fresh && ((s.hlt.slackHist.head?.map (fun x => decide (x < (low : Int)))).getD false)
  let s := { s with hlt := { s.hlt with ceilFrames := if top ∧ short then s.hlt.ceilFrames + 1 else 0 } }
  if s.changingMode ∨ !fresh then s
  else
    let new := planMv mv mode low (s.fld (Reg.hltCfg + 4) 15 8) s.hlt.slackHist
    let s := { s with hlt := { s.hlt with planned := some (new, mode) } }
    let s := (s.setLive Reg.hltVplan (new + 1024 * mode)).setLive (Reg.hltVplan + 4) ((s.frame + 1) % pow2 32)
    if new = mv then s else s.raiseBit Reg.hltEvent 4

/-- MARGIN_VOLTAGE_MOVE: in minute 0 the voltage goes to the mode's setpoint; a mode change moves it by R52. -/
def execMarginVoltageMove (s : State) : Host.Outcome State Fault Refusal :=
  if !s.running ∨ s.minute ≠ 0 ∨ s.time.modeChange.map Prod.fst = some s.frame then .next s
  else
    let s := s.advanceTo (s.now / 1048576 * 1048576 + 192)
    .next { s with hlt := { s.hlt with voltage := s.setpoint s.mode } }

/-- The mode that the map held gives the frame to come; NIGHT where no map is in effect by then (R51, R54). -/
def State.nextMode (s : State) : Nat :=
  if s.map.cur.isNone ∧ !s.map.queue.any (fun m => decide (m.eff ≤ s.frame + 1)) then 3
  else match s.tip with
    | none => 3
    | some m => m.modeAt (s.frame + 1)

/-- MODE_VOLTAGE_MOVE: raised in minutes 768 to 1,007 of frame E − 1, lowered from minute 1 of frame E, for a change announced and for the mode that a node takes as it joins (R52, R54). -/
def State.modeVoltage (s : State) : State :=
  let next := s.nextMode
  if 768 ≤ s.minute ∧ s.minute < 1008 ∧ next ≠ s.mode ∧ s.hlt.voltage < s.setpoint next then
    { s with hlt := { s.hlt with voltage := s.setpoint next } }
  else if s.minute = 1 ∧ s.time.modeChange.map Prod.fst = some s.frame ∧ s.setpoint s.mode < s.hlt.voltage then
    { s with hlt := { s.hlt with voltage := s.setpoint s.mode } }
  else s

/-! ### The watchdog (R334, R335) -/

/-- Ticks in which every control core must kick. -/
abbrev kickLimit : Nat := 262144

/-- WATCHDOG_KICK. -/
def execWatchdogKick (core : Nat) (s : State) : Host.Outcome State Fault Refusal :=
  if 4 ≤ core ∨ !s.running then .next s
  else .next { s with hlt := { s.hlt with kicks := listPut 0 s.hlt.kicks core s.now } }

/-- Bytes of an output of the control cores: a map message or a transfer (R335; log 143). -/
def OutMsg.control : OutMsg → List Byte
  | .ctl dst _ head args => leBytes 2 dst ++ head ++ args.flatMap (leBytes 8)
  | .transfer dst r => leBytes 2 dst ++ leBytes 2 r.tenant ++ leBytes 8 r.sid
  | _ => []

/-- SHA-384 over the control cores' outputs since the checkpoint (R335). -/
def State.outputDigest (s : State) : List Byte := sha384 ((s.outbox.drop s.hlt.outFrom).flatMap OutMsg.control)

/-- The watchdog fires: the node fences itself, the control cores start again, restore and replay begin; a second fire within 64 frames is FAILED. -/
def State.watchdog (s : State) : State :=
  let second := (s.hlt.lastFire.map (fun f => decide (s.frame ≤ f + 64))).getD false
  let fires := min 255 (s.fld Reg.hltWdog 7 0 + 1)
  let s := (s.setLive Reg.hltWdog (fires + 256 * (s.frame % pow2 24))).raiseBit Reg.hltEvent 5
  let s := { s with hlt := { s.hlt with lastFire := some s.frame, replay := true, journal := 0, recorded := s.outputDigest, kicks := List.replicate 4 s.now } }
  let s := (s.setStatus Reg.hltStatus 2 2 1).fenceSelf
  if second then s.becomeFailed else s

/-- WATCHDOG_FIRE: a control core has not kicked for 262,144 ticks. -/
def execWatchdogFire (core : Nat) (s : State) : Host.Outcome State Fault Refusal :=
  if 4 ≤ core ∨ !s.running then .next s
  else .next (s.advanceTo (s.hlt.kicks.getD core 0 + kickLimit)).watchdog

/-- The journal grows; outgrowing its 64 MiB within a frame it fires the watchdog at once (R335). -/
def State.journaled (s : State) (n : Nat) : State :=
  if s.hlt.replay then s
  else
    let s := { s with hlt := { s.hlt with journal := s.hlt.journal + n } }
    if 67108864 < s.hlt.journal then s.watchdog else s

/-- REPLAY_DONE, with the output digest that the replay has made: where it agrees with the recorded one the replay ends, and the node may unfence; otherwise it is FAILED (R335). -/
def execReplayDone (digest : List Byte) (s : State) : Host.Outcome State Fault Refusal :=
  if !s.hlt.replay then .next s
  else
    let s := ({ s with hlt := { s.hlt with replay := false } }).setStatus Reg.hltStatus 2 2 0
    .next (if digest = s.hlt.recorded then s else s.becomeFailed)

/-- CHECKPOINT: the other slot is written and the journal begins anew. -/
def State.writeCheckpoint (s : State) : State :=
  if s.hlt.replay then s
  else { s with hlt := { s.hlt with checkpoint := (1 - s.hlt.checkpoint.1, s.frame), journal := 0, outFrom := s.outbox.length } }

/-- HLT_HEARTBEAT (R336). -/
def State.heartbeat (s : State) : State :=
  s.setLive Reg.hltHeartbeat (s.frame % pow2 24 + pow2 24 * s.hlt.health + pow2 26 * b2n s.fenced + pow2 27 * b2n s.hlt.replay)

/-- A DRAIN of itself is due (R331). -/
def State.proposeDrain (s : State) : State :=
  if !s.hlt.drainDue then s
  else
    let s := { s with hlt := { s.hlt with drainDue := false } }
    if s.map.cur.isSome ∧ s.map.nodeState = .member then (s.propose 5 s.map.id 0 0).1 else s

end Sys2Proof.Machine
end

