-- ==== Sys2Proof/Machine/Sec.lean ====
section
/-!
DEFINITION. Reports and their delivery (R349–R354), tokens (R348, R364), the notice of the operating point (R367).
A report is composed at its Midnight and signed while the security block works on it (log 148).
-/

namespace Sys2Proof.Machine

open Sys2Proof

/-! ### The nonces of a report (R352) -/

/-- The leaves of the 4,096 slots: a slot with no nonce takes 32 fresh random bytes. -/
def State.nonceLeaves (s : State) : List (List Byte) × State :=
  let r := s.randomBytes 131072
  ((List.range 4096).map (fun t =>
    nonceLeaf t (match tabGet s.sec.nonces t with | some n => n | none => slice r.1 (32 * t) 32)), r.2)

/-! ### The payload (Table 14.3) -/

/-- The rank of an inventory entry: kind, then slot. -/
def invInsert (x : Nat × Nat × List Byte) : List (Nat × Nat × List Byte) → List (Nat × Nat × List Byte)
  | [] => [x]
  | y :: t => if x.1 < y.1 ∨ (x.1 = y.1 ∧ x.2.1 ≤ y.2.1) then x :: y :: t else y :: invInsert x t

/-- Kind code of a program in the inventory, which the manual does not give (log 59). -/
def programKind : Nat := Config.choice 59 256

/-- Active programs, weight objects, rotary tables and match images with their digests. -/
def State.inventory (s : State) : List (Nat × Nat × List Byte) :=
  let progs := s.prog.programs.filterMap (fun p => p.2.active.map (fun x => (programKind, p.1, x.digest)))
  let objs := (s.prog.objects.filter (fun o => decide (o.1 < 2048))).filterMap (fun o => o.2.active.map (fun x =>
    (if o.1 < 1024 then 0 else 1, if o.1 < 1024 then o.1 else o.1 - 1024, x.manifest)))
  let imgs := (s.mat.images.filter (fun p => decide (p.1 < 64))).map (fun p =>
    ((match p.2.body with | .automata _ => 2 | .tcam _ => 3), p.1, p.2.digest))
  (progs ++ objs ++ imgs).foldr invInsert []

/-- The digest of the map in effect; zeros with no map. -/
def State.mapDigest (s : State) : List Byte := match s.map.cur with | some m => m.digest | none => List.replicate 48 0

/-- The payload of a report signed with leaf q (R354). -/
def State.reportPayload (s : State) (root : List Byte) (q : Nat) : List Byte :=
  let inv := s.inventory
  let entry (x : Nat × Nat × List Byte) : List Byte := leBytes 1 x.1 ++ leBytes 2 x.2.1 ++ padTo 48 x.2.2
  let st : List (List Byte) := [cborUint s.mode, cborUint s.hlt.health, cborBool s.fenced, cborUint (s.live Reg.timeStatus % 32)]
  cborMap [(1, cborUint 0x1344), (2, cborUint 0xB0), (3, cborBytes s.sec.idd), (4, cborBytes root), (5, cborUint s.now),
    (6, cborArray [cborUint s.map.fabricId, cborUint s.gen, cborBytes s.mapDigest]),
    (7, cborBytes s.sec.fw), (8, cborBytes s.sec.cfg), (9, cborBytes s.sec.operator),
    (10, cborArray [cborUint s.frame, cborBytes s.hlt.chain]),
    (11, cborArray [cborUint inv.length, cborBytes (sha384 (inv.flatMap entry))]),
    (12, cborArray st), (13, cborUint q), (14, cborBytes s.sec.bootId), (15, cborUint s.sec.debugCount)]

/-! ### Leaves (R351) -/

/-- Signing stops until the next Sunrise. -/
def State.counterFault (s : State) : State := (s.setStatus Reg.secStatus 2 2 1).raiseBit Reg.secEvent 1

/-- A leaf to sign with: the next of the reserved block, or the first of a block reserved now. -/
def State.reserveLeaf (s : State) (counterOk : Bool) : State :=
  if s.sec.left ≠ 0 then s
  else if !counterOk then s.counterFault
  else
    let c := s.sec.counters.getD 0 0
    { s with sec := { s.sec with counters := listPut 0 s.sec.counters 0 (c + 1), leaf := 256 * c, left := 256 } }

/-- The next leaf is taken; the bottom tree it opens is noted in the flash before its top signature is made; few leaves left are noted. -/
def State.useLeaf (s : State) : State :=
  let tree := s.sec.leaf / 32768
  let s := if s.topStored tree then s else s.beginTop tree
  let s := { s with sec := { s.sec with leaf := s.sec.leaf + 1, left := s.sec.left - 1 } }
  s.setStatus Reg.secStatus 3 3 (b2n (decide (2 ^ 30 < s.sec.leaf + 2 ^ 20)))

/-! ### Signing (R352) -/

/-- Second nonces move up to the next report, the oldest of each slot. -/
def moveUp : List (Nat × List Byte) → List (Nat × List Byte) → List (Nat × List Byte) × List (Nat × List Byte)
  | [], now => (now, [])
  | (t, n) :: rest, now =>
    if (tabGet now t).isNone then moveUp rest (tabPut now t n)
    else
      let r := moveUp rest now
      (r.1, (t, n) :: r.2)

/-- The first waiting ATTEST of each slot of the report takes its frame. -/
def markWaiting (frame : Nat) : List AttWait → List Nat → List AttWait
  | [], _ => []
  | w :: t, slots =>
    if w.frame.isNone ∧ slots.contains w.slot then { w with frame := some frame } :: markWaiting frame t (slots.filter (· != w.slot))
    else w :: markWaiting frame t slots

/-- The node can sign: identity and counters are good, and leaves remain. -/
def State.canSign (s : State) : Bool :=
  s.bit Reg.secStatus 0 && !s.bit Reg.secStatus 2 && decide (s.sec.leaf < 2 ^ 30) && s.inService

/-- The top signature of a bottom tree: stored, or made now and stored (R351). -/
def State.openTree (s : State) (tree : Nat) : State :=
  if s.topStored tree then s
  else
    let r := s.randomBytes 32
    let b := r.2.hssBottom tree
    r.2.storeTop tree (lmsSign r.2.hssTop.1 r.2.hssTop.2 tree r.1 (lmsPublic b.1 b.2))

/-- The node's two signatures of a payload with leaf q: ES384, and the two-level HSS signature (R349, R350). -/
def State.signWith (s : State) (q : Nat) (head payload : List Byte) : (List Byte × List Byte) × State :=
  let tree := q / 32768
  let s := s.openTree tree
  let r := s.randomBytes 32
  let b := r.2.hssBottom tree
  ((ecdsaSign r.2.idkE (sigStructure head headEs384 payload),
    hssOf (r.2.topSignature tree) (lmsPublic b.1 b.2) (lmsSign b.1 b.2 (q % 32768) r.1 (sigStructure head headHss payload))), r.2)

/-- Protected header of a report's body: {3: 60} (R354). -/
def headReport : List Byte := [0xA1, 0x03, 0x18, 0x3C]

/-- The signing under way ends: the report stands ready for its delivery (R351, R352). -/
def State.finishReport (s : State) : State :=
  match s.sec.signing with
  | none => s
  | some x =>
    let r := s.signWith x.leaf headReport x.payload
    let report := coseSign headReport x.payload (s.sec.idd.take 16) r.1.1 r.1.2
    State.raiseBit { r.2 with sec := { r.2.sec with signing := none, signed := r.2.sec.signed ++ [(x.frame, (report, x.leaves))] } } Reg.secEvent 0

/-- REPORT_SIGN: at a Midnight whose frame is a multiple of the period, the report is composed over the nonces queued, and its signing begins. -/
def State.signReport (s : State) (counterOk : Bool) : State :=
  if s.frame % pow2 (s.fld Reg.secCfg 3 0) ≠ 0 ∨ !s.canSign then s
  else
    let s := s.finishReport.reserveLeaf counterOk
    if s.sec.left = 0 ∨ 2 ^ 30 ≤ s.sec.leaf then s
    else
      let q := s.sec.leaf
      let (leaves, s) := s.useLeaf.nonceLeaves
      let up := moveUp s.sec.nonces2 []
      let slots := s.sec.nonces.map Prod.fst
      let s := { s with
        sec := { s.sec with
          signing := some ⟨s.frame, q, s.reportPayload (treeRoot 12 leaves) q, leaves⟩, nonces := up.1, nonces2 := up.2
          waiting := markWaiting s.frame s.sec.waiting slots } }
      if slots.contains 4095 ∧ (tabGet s.sec.nonces 4095).isNone then s.setStatus Reg.secAttestStatus 0 0 0 else s

/-! ### Queueing and delivery (R352, R353) -/

/-- ATTEST_QUEUE: the operator's nonce for slot 4,095. -/
def execAttestQueue (nonce : List Byte) (s : State) : Host.Outcome State Fault Refusal :=
  if !s.running then .next s
  else
    let s := (List.range 8).foldl (fun s i => s.commitTo (Reg.secAttestNonce + 4 * i) (field nonce (4 * i) 4)) s
    .next (s.commitTo Reg.secAttestCtl 1).attestCommit

/-- The reply to a waiting ATTEST: the report and the twelve sibling hashes of its slot (R353), at an isolated class not before its hold (R366). -/
def State.attestReply (s : State) (w : AttWait) (report : List Byte) (leaves : List (List Byte)) : State :=
  s.reply { (Reply.plain w.req w.tDispatch Status.ok report.length 0) with
    body := report ++ (siblings 12 w.slot leaves).flatten
    notBefore := if s.bit (Reg.secIsoCfg + 4 * w.req.cls) 0 then w.tDispatch + 16 * s.fld (Reg.secIsoCfg + 4 * w.req.cls) 31 16 else 0 }

/-- The nonce that SEC_ATTEST_NONCE holds live. -/
def State.attestNonce (s : State) : List Byte := (List.range 8).flatMap (fun i => leBytes 4 (s.live (Reg.secAttestNonce + 4 * i)))

/-- The oldest report signed goes to those that wait for it and to SEC_REPORT, which SEC_ATTEST_STATUS.ready shows to cover the operator's nonce or not. A candidate shows it with its JOIN (R355). -/
def State.deliverReport (s : State) (m : Nat) (report : List Byte) (leaves : List (List Byte)) (rest : List (Nat × (List Byte × List (List Byte)))) : State :=
  let s := s.advanceTo (1048576 * (m + 4) + 1024)
  let due := s.sec.waiting.filter (fun w => w.frame == some m)
  let s := { s with sec := { s.sec with signed := rest, report := report, reportPath := siblings 12 4095 leaves, waiting := s.sec.waiting.filter (fun w => w.frame != some m) } }
  let s : State := due.foldl (fun s w => s.attestReply w report leaves) s
  let covers := leaves[4095]? == some (nonceLeaf 4095 s.attestNonce) && !s.bit Reg.secAttestStatus 0
  let s : State := s.setStatus Reg.secAttestStatus 1 1 (b2n covers)
  if s.inService ∧ s.map.nodeState = .candidate ∧ s.map.cur.isNone then s.sendJoin partners else s

/-- REPORT_DELIVERY: tick 0 of minute 1 of frame M + 4. -/
def execReportDelivery (s : State) : Host.Outcome State Fault Refusal :=
  if !s.running then .next s
  else
    let t := if s.sec.signed.isEmpty then s.finishReport else s
    match t.sec.signed with
    | [] => .next s
    | (m, (report, leaves)) :: rest => .next (t.deliverReport m report leaves rest)

/-! ### Tokens (R348, R364) -/

/-- Every tier, all SRAM, the buffers of the links and of the host link, and every key but the identity keys are zeroed (R364). -/
def State.zeroize (s : State) : State :=
  { s with
    pgw := { PgwSt.reset with nextGroup := s.pgw.nextGroup, allocs := s.pgw.allocs, entries := s.pgw.entries }
    mem := { MemSt.reset with nextMove := s.mem.nextMove, retired := s.mem.retired }
    prog := ProgSt.reset
    mat := MatSt.reset
    sch := { SchSt.reset with nextRid := s.sch.nextRid }
    vsp := { s.vsp with units := [], rereads := [] }
    que := { s.que with qps := [], away := [], system := [], leaving := [], marks := [], closing := [], later := [], resident := [], fetches := [], waitFetch := [], named := [], cmd := none, cold := []
                        ops := [], holderOut := [], regions := [], respBytes := 0 }
    lnk := { s.lnk with held := [], links := s.lnk.links.map (fun l => (l.1, { l.2.unkey with state := l.2.state, kept := [], txq := [], sending := [], later := [], rx := [] })) }
    hst := { s.hst with kept := [], txq := [], reads := [] }
    hlt := { s.hlt with evidence := [], evFrame := [], evReserved := 0, checkpoint := (0, 0) }
    sec := { s.sec with waiting := [], signing := none, signed := [], nonces := [], nonces2 := [], report := [], reportPath := [], tierKey := List.replicate 32 0 } }

/-- Links whose keys are gone go back to DETECT (R364). -/
def State.dropLinks (s : State) : State :=
  (s.lnk.links.filter (fun l => l.2.state != LState.down)).foldl (fun s l => s.setLinkState l.1 LState.detect) s

/-- A valid debug token. -/
def State.debugToken (s : State) : State :=
  let s := s.fenceSelf.zeroize.dropLinks
  let s := { s with sec := { s.sec with debugCount := s.sec.debugCount + 1 } }
  (s.setStatus Reg.secStatus 4 4 1).raiseBit Reg.secEvent 6

/-- A valid release token: counter 1 becomes even (R348). -/
def State.releaseToken (s : State) : State :=
  let c := s.sec.counters.getD 1 0
  let s := { s with sec := { s.sec with counters := listPut 0 s.sec.counters 1 (c + c % 2) } }
  s.setStatus Reg.secStatus 1 1 0

/-- The bytes of SEC_DEBUG. -/
def State.tokenBytes (s : State) : List Byte := (List.range 4096).flatMap (fun i => leBytes 4 (s.live (Reg.secDebug + 4 * i)))

/-- Kind of the token in SEC_DEBUG where it is one of R364 for this node: signed by the vendor, naming this idd and, to debug, this boot_id. -/
def State.tokenKind (s : State) (f : TokenFacts) : Option Nat :=
  match (cborItem s.tokenBytes).bind (fun i => coseOpen i f.sig) with
  | none => none
  | some (m, _) =>
    let kind := (mapUint m 1).getD 0
    if mapBytes m 2 ≠ some s.sec.idd then none
    else if kind = 2 ∨ (kind = 1 ∧ mapBytes m 3 = some s.sec.bootId) then some kind else none

/-- ACT_ON_TOKEN: the security block has checked the token in SEC_DEBUG that a commit of SEC_ATTEST_CTL.token named, this command's own where none is due (log 147). -/
def execActOnToken (facts : TokenFacts) (s : State) : Host.Outcome State Fault Refusal :=
  if !s.running then .next s
  else
    let s := if s.sec.tokenDue then { s with sec := { s.sec with tokenDue := false } } else s.commitTo Reg.secAttestCtl 2
    let s := s.setStatus Reg.secAttestStatus 2 2 (b2n (s.tokenKind facts).isNone)
    .next (match s.tokenKind facts with
    | none => s
    | some 1 => s.debugToken
    | some _ => s.releaseToken)

/-! ### SEC_NOTICE (R367) -/

/-- Kilohertz of the Vesper clock in a mode (R50). -/
def vesperKHz (mode : Nat) : Nat := if mode = 3 then 210000 else if mode = 2 then 420000 else 525000

/-- Depth that the core PLL applies in a mode from a committed depth (R406). -/
def depthIn (mode d : Nat) : Nat := if mode = 2 then min 5 d else d

/-- At the Midnight that begins frame F: whether the core voltage setpoint, the clocks or their spread differ in frame F + 1. NOON and MORNING share one clock (Table 2.4). -/
def State.notice (s : State) : State :=
  let changes := s.bit Reg.timeModeStatus 4 && s.live64 Reg.timeModeEff == s.frame + 1
  let next := if changes then s.fld Reg.timeModeStatus 3 2 else s.mode
  let volts := (s.hlt.planned.map (fun p => decide (p.1 ≠ s.setpoint p.2))).getD false || decide (s.setpoint next ≠ s.setpoint s.mode)
  let d := s.fld Reg.clkCfg 3 0
  let d' := ((s.regs.pend.find? (fun p => p.addr == Reg.clkCfg && p.timing == s.frame + 1 && decide (p.mask % 16 ≠ 0))).map (fun p => p.value % 16)).getD d
  let clocks := decide (vesperKHz next ≠ vesperKHz s.mode) || decide (depthIn next d' ≠ depthIn s.mode d)
  s.setLive Reg.secNotice (b2n (volts || clocks) + 256 * ((s.frame + 1) % pow2 24))

/-! ### The test port (R364) -/

/-! Instructions of the test port, by the model's own numbers (log 60). -/
namespace Tap
/-- IDCODE. -/
abbrev idcode := 1
/-- BYPASS. -/
abbrev bypass := 2
/-- SAMPLE/PRELOAD. -/
abbrev sample := 3
/-- EXTEST. -/
abbrev extest := 4
end Tap

/-- The port has power and holds an instruction. -/
def State.setTap (s : State) (i : Nat) : State := { s with sys := { s.sys with tap := i } }
/-- The port's output. -/
def State.shiftOut (s : State) (v : Nat) : State := ({ s with sys := { s.sys with tdo := v } }).emit (.tdo v)
/-- The hub is powered, in reset or out of it. -/
def State.powered (s : State) : Bool := s.sys.power == .on || s.sys.power == .held

/-- IDCODE: part, stepping and manufacturer (R432). -/
def execIdcode (s : State) : Host.Outcome State Fault Refusal :=
  .next (if s.powered then (s.setTap Tap.idcode).shiftOut 0xB134454F else s)

/-- BYPASS: one bit in, the bit before it out. -/
def execBypass (bit : Bool) (s : State) : Host.Outcome State Fault Refusal :=
  if !s.powered then .next s
  else
    let out := b2n s.sys.bypass
    .next ((({ s with sys := { s.sys with bypass := bit } }).setTap Tap.bypass).shiftOut out)

/-- SAMPLE_PRELOAD: the cells' captured levels go out while the bits given are preloaded; what a pin reads is a free value (log 14). -/
def execSamplePreload (bits : List Bool) (s : State) : Host.Outcome State Fault Refusal :=
  if !s.powered then .next s
  else
    let out := (List.range bits.length).foldl (fun v i => v + b2n (Config.captureBit (s.freeCtr + i)) * pow2 i) 0
    let s := { s with freeCtr := s.freeCtr + bits.length, sys := { s.sys with boundary := bits } }
    .next ((s.setTap Tap.sample).shiftOut out)

/-- EXTEST: the cells drive the pins while RESET_N is asserted, and do nothing otherwise. -/
def execExtest (bits : List Bool) (s : State) : Host.Outcome State Fault Refusal :=
  if !s.powered ∨ s.sys.resetN then .next s
  else .next (({ s with sys := { s.sys with boundary := bits } }).setTap Tap.extest)

/-- PRIVATE_TEST_INSTRUCTION: open only after a valid debug token, until the next reset; what the vendor's debug unit then does the manual does not say. -/
def execPrivateTestInstruction (_code : Nat) (s : State) : Host.Outcome State Fault Refusal :=
  if s.powered ∧ s.bit Reg.secStatus 4 then .refused .debugUnit
  else .next s

end Sys2Proof.Machine
end

