-- ==== Sys2Proof/Machine/Boot.lean ====
section
/-!
DEFINITION. Power, reset and Sunrise (R345, R348, R351, R395–R404, R418), feeds and shutdown (R411–R415), Twilight (R39, R409, R410).
-/

namespace Sys2Proof.Machine

open Sys2Proof

/-! ### SYS_BOOT (Table 17.4) -/
namespace Stop
/-- Stop codes: RAIL. -/
abbrev rail := 1
/-- HOLD. -/
abbrev hold := 2
/-- REFCLK. -/
abbrev refclk := 3
/-- FLASH. -/
abbrev flash := 4
/-- FW. -/
abbrev fw := 5
/-- CFG. -/
abbrev cfg := 6
/-- IDENTITY. -/
abbrev identity := 7
/-- COUNTER. -/
abbrev counter := 8
/-- MEMORY. -/
abbrev memory := 9
/-- APPLY. -/
abbrev apply := 10
end Stop

/-- The flash bridge opens or closes, as both registers show. -/
def State.setBridge (s : State) (on : Bool) : State := (s.setStatus Reg.sysBoot 5 5 (b2n on)).setStatus Reg.sysFlashStatus 1 1 (b2n on)
/-- Sunrise goes on to a step. -/
def State.toStep (s : State) (n : Nat) : State := s.putStatus Reg.sysBoot (putBits (putBits (putBits (s.live Reg.sysBoot) 3 0 n) 4 4 0) 15 8 0)
/-- Sunrise stops in its step with a code. -/
def State.bootStop (s : State) (code : Nat) (bridge : Bool) : State :=
  let s := s.putStatus Reg.sysBoot (putBits (putBits (s.live Reg.sysBoot) 4 4 1) 15 8 code)
  (if bridge then s.setBridge true else s).raiseBit Reg.sysEvent 3

/-! ### Reset and power (R396, R413, R418) -/

/-- What survives a reset: the flash with its counters and records, the standby domain, the PUF SRAM's start-up state while the node has power (R347, R396), the pins' own state; the rest is State.reset. -/
def State.cleared (s : State) (power : PowerSt) (standby : Bool) : State :=
  let keep (a : Nat) (l : List (Nat × Nat)) : List (Nat × Nat) := if standby then regSet l a (s.live a) else l
  let feeds := regSet [] Reg.pwrStatus (s.live Reg.pwrStatus % 8)
  let xtal := regSet feeds Reg.clkStatus (if standby then s.live Reg.clkStatus &&& 2 else 0)
  { State.reset with
    regs := { RegFile.reset with live := keep Reg.clkTwilight (keep Reg.pwrLastShutdown xtal) }
    sec := { SecSt.reset with counters := s.sec.counters, spillSerial := s.sec.spillSerial, puf := if standby then s.sec.puf else [] }
    sys := { SysSt.reset with power := power, resetN := s.sys.resetN, oscDly := s.sys.oscDly, i3cSa := s.sys.i3cSa, flashHold := s.sys.flashHold
                              flash := s.sys.flash, oscDone := standby && s.sys.oscDone }
    outbox := s.outbox, freeCtr := s.freeCtr, pending := s.pending }

/-- Straps, as the node samples them. -/
def State.straps (s : State) (oscDly i3cSa : Nat) (flashHold : Bool) : State :=
  { s with sys := { s.sys with oscDly := oscDly % 8, i3cSa := i3cSa % 8, flashHold := flashHold } }

/-- POWER_ON: power returns with a valid feed, and Sunrise starts with step 1 (log 62). -/
def execPowerOn (feedB : Bool) (oscDly i3cSa : Nat) (flashHold : Bool) (s : State) : Host.Outcome State Fault Refusal :=
  let s := (s.cleared .on false).straps oscDly i3cSa flashHold
  let s := s.setLive Reg.pwrStatus (b2n feedB + (if feedB then 4 else 2))
  .next (s.toStep 1)

/-- OSC_DELAY_EXPIRY: step 2 ends; step 3 waits for RESET_N. -/
def execOscDelayExpiry (s : State) : Host.Outcome State Fault Refusal :=
  if !s.running ∨ s.sunriseStep ≠ 2 then .next s
  else
    let s := ({ s with sys := { s.sys with oscDone := true } }).setStatus Reg.clkStatus 1 1 1
    .next (if s.sys.resetN then s.toStep 3 else { s with sys := { s.sys with power := .held } })

/-- A feed is valid. -/
def State.feedOk (s : State) : Bool := s.bit Reg.pwrStatus 1 || s.bit Reg.pwrStatus 2

/-- RESET_ASSERT: RESET_N has been low for 1 µs. A latched shutdown waits for the pulse's end. -/
def execResetAssert (s : State) : Host.Outcome State Fault Refusal :=
  let low (s : State) : State := { s with sys := { s.sys with resetN := false } }
  match s.sys.power with
  | .on | .held => .next (low (s.cleared .held true))
  | .off | .latched => .next (low s)

/-- RESET_RELEASE: RESET_N rises and the straps are sampled; after a latched shutdown with a valid feed, Sunrise runs from step 1. Step 2 is skipped where the standby rail has stayed up (R396). -/
def execResetRelease (oscDly i3cSa : Nat) (flashHold : Bool) (s : State) : Host.Outcome State Fault Refusal :=
  if s.sys.resetN then .next s
  else
    let s := { s with sys := { s.sys with resetN := true } }
    let rise (s : State) : State := { s with sys := { s.sys with power := .on } }
    match s.sys.power with
    | .held => .next ((rise (s.straps oscDly i3cSa flashHold)).toStep 3)
    | .latched => .next (if s.feedOk then (rise (s.straps oscDly i3cSa flashHold)).toStep 1 else s)
    | .on => .next (s.straps oscDly i3cSa flashHold)
    | .off => .next s

/-- A shutdown: everything volatile is lost, its cause is kept, and it is latched. -/
def State.shutdown (s : State) (cause index : Nat) : State :=
  (s.cleared .latched true).setLive Reg.pwrLastShutdown (cause + 16 * (index % 256))

/-! ### Images (R180, R181, R400, R401) -/

/-- A container of the flash as Sunrise reads it: its security version, its header and body, its signature block. -/
structure Container where
  /-- svn. -/
  svn : Nat
  /-- SHA-384 of header and body. -/
  digest : List Byte
  /-- Body. -/
  body : List Byte
  /-- Signature block. -/
  sig : List Byte
  deriving DecidableEq, Repr

/-- The container at a flash address in an area of `size` bytes, where its header is one of Table 16.5 with a magic and a body of at most `most` bytes (R400). -/
def State.containerAt (s : State) (addr size magic most : Nat) : Option Container :=
  let h := s.flashBytes addr 256
  let n := field h 8 4
  let off := field h 64 4
  let len := field h 68 4
  if field h 0 4 ≠ magic ∨ field h 4 2 ≠ 1 ∨ field h 6 2 ≠ 0 ∨ most < n ∨ !(h.drop 88).all (· == 0) ∨ off < 256 + n ∨ size < off + len then none
  else
    let body := s.flashBytes (addr + 256) n
    if sha384 body ≠ slice h 16 48 then none else some ⟨field h 12 4, sha384 (h ++ body), body, s.flashBytes (addr + off) len⟩

/-- The firmware image. -/
def State.firmware (s : State) : Option Container := s.containerAt FlashMap.firmware 0x2000000 0x4D434657 0x1F00000
/-- The configuration image. -/
def State.configImage (s : State) : Option Container := s.containerAt FlashMap.config 0x1F00000 0x4D434347 0x1E00000

/-- Sections of a configuration body: type and data, each after its 8-byte header and padded with zeros to a multiple of 8; none where one is malformed (R401). -/
def sectionsIn : Nat → List Byte → Option (List (Nat × List Byte))
  | 0, bs => if bs.isEmpty then some [] else none
  | f + 1, bs =>
    if bs.isEmpty then some []
    else
      let n := field bs 4 4
      let whole := 8 + 8 * ceilDiv n 8
      if bs.length < whole ∨ field bs 2 2 ≠ 0 ∨ !((bs.take whole).drop (8 + n)).all (· == 0) then none
      else (sectionsIn f (bs.drop whole)).map (fun r => (field bs 0 2, slice bs 8 n) :: r)

/-- The sections of a configuration image. -/
def Container.sections (c : Container) : Option (List (Nat × List Byte)) := sectionsIn (c.body.length / 8 + 1) c.body

/-- Data of the sections of a type. -/
def sectionsOf (f : List (Nat × List Byte)) (t : Nat) : List (List Byte) := (f.filter (fun x => x.1 == t)).map Prod.snd
/-- Data of the first section of a type. -/
def sectionOf (f : List (Nat × List Byte)) (t : Nat) : List Byte := (sectionsOf f t).headD []

/-- Register writes that the DIAL and REGISTERS sections make, in order. -/
def imageWrites (f : List (Nat × List Byte)) : List (Nat × Nat) :=
  (sectionsOf f 3).flatMap (fun d => (List.range 256).map (fun i => (Reg.timeDial + 1024 * byteAt d 0 + 4 * i, field d (1 + 4 * i) 4))) ++
  (sectionsOf f 7).flatMap (fun d => (List.range (d.length / 8)).map (fun i => (field d (8 * i) 4, field d (8 * i + 4) 4)))

/-- The value an image gives a register; its reset value where it gives none. -/
def imageVal (ws : List (Nat × Nat)) (a : Nat) : Nat := match (ws.filter (fun w => w.1 == a)).getLast? with | some w => w.2 | none => resetOf a

/-- A split's P_s values. -/
def splitOf (d : List Byte) : List Nat := (List.range 8).map (fun i => field d (4 * i) 4)

/-- The sections pass R401. -/
def sectionsOk (f : List (Nat × List Byte)) : Bool :=
  let count (t : Nat) : Nat := (sectionsOf f t).length
  let ws := imageWrites f
  let urgent := (List.range 24).filter (fun c => bitOf (imageVal ws (Reg.schClassCfg + 4 * c)) 20)
  let isSt (a : Nat) : Bool := match findReg a with | some r => r.row.acc == .st | none => false
  let fab := sectionOf f 1
  let keepers := byteAt fab 1
  f.all (fun x => decide (1 ≤ x.1 ∧ x.1 ≤ 7)) &&
  count 1 == 1 && count 2 == 1 && count 3 == 3 && count 4 == 1 && decide (count 5 ≤ 1) && decide (count 6 ≤ 1) &&
  fab.length == 2 && (keepers == 3 || keepers == 5 || keepers == 7) &&
  (sectionOf f 2).length == 32 && (splitOf (sectionOf f 2)).all (fun p => p % 64 == 0 && decide (8192 ≤ p ∧ p ≤ 294912)) &&
  (sectionsOf f 3).all (fun d => d.length == 1025) &&
  (List.range 3).all (fun k => (sectionsOf f 3).any (fun d => byteAt d 0 == k) && (dialFault (dialEntry (imageVal ws) k) k urgent).isNone) &&
  (sectionOf f 4).length == 157 && (sectionOf f 6).length % 48 == 0 &&
  (sectionsOf f 7).all (fun d => d.length % 8 == 0) && ws.all (fun w => isSt w.1)

/-- KiB of protected memory that the fixed structures of R181 leave: check symbols take a sixteenth. -/
def spareProtected (split : List Nat) (bad : List Nat) (log2Buckets spareTails : Nat) : Int :=
  let good := (List.range 8).filter (fun k => !bad.contains k)
  let prot := good.foldl (fun n k => n + split.getD k 0 * 256) 0
  let bare := good.foldl (fun n k => n + (294912 - split.getD k 0) * 256) 0
  (prot * 15 / 16 : Nat) - ((bare / 4096 + pow2 log2Buckets / 2 + 64 * spareTails : Nat) : Int)

/-! ### Steps of Sunrise (Table 16.1) -/

/-- An svn lies between its counter and 16 above it (R402). -/
def svnOk (svn counter : Nat) : Bool := decide (counter ≤ svn ∧ svn ≤ counter + 16)

/-- The block of leaves this Sunrise signs with; a bottom tree begun and not stored is skipped (R351). -/
def State.bootLeaves (s : State) : State :=
  let c := s.sec.counters.getD 0 0
  let tree := c / 128
  let skip := s.topBegun tree && !s.topStored tree
  let first := if skip then 128 * (tree + 1) else c
  let s := { s with sec := { s.sec with counters := listPut 0 s.sec.counters 0 (first + 1), leaf := 256 * first, left := 256 } }
  let s := s.setStatus Reg.secStatus 3 3 (b2n (decide (2 ^ 30 < s.sec.leaf + 2 ^ 20)))
  if skip then s.raiseBit Reg.secEvent 2 else s

/-- The claim state as counter 1 gives it (R348). -/
def State.claimOdd (s : State) : Bool := s.sec.counters.getD 1 0 % 2 == 1

/-- The claim record for a digest of operator keys (R348). -/
def State.claimOf (s : State) (operator : List Byte) : List Byte := hmac384 s.claimKey operator

/-- The claim record in the flash verifies for the operator keys of an image. -/
def State.claimHolds (s : State) (f : List (Nat × List Byte)) : Bool := s.flashBytes FlashMap.claim 48 == s.claimOf (sha384 (sectionOf f 4))

/-- The device certificate in the flash. -/
def State.deviceCert (s : State) : List Byte := (cborItem (s.flashBytes FlashMap.cert 8192)).getD []

/-- The derived public keys have the digest that the device certificate gives (R347). -/
def State.identityOk (s : State) : Bool := certIdd (certPayload s.deviceCert) == some (sha384 s.sec.publics)

/-- Sections of the configuration image; none where its container or they are malformed. -/
def State.imageSections (s : State) : List (Nat × List Byte) := ((s.configImage.bind Container.sections).getD [])

/-- The first check of step 7 that fails: its code, and whether the bridge opens. A check reads its own counter first (R402). -/
def State.verifyStop (s : State) (f : SunriseFacts) : Option (Nat × Bool) :=
  let bad (k : Nat) : Bool := f.badCounters.contains k
  if !s.identityOk then some (Stop.identity, false)
  else match s.firmware with
  | none => some (Stop.fw, true)
  | some fw =>
    if !coseBlockOk fw.sig f.fwSig then some (Stop.fw, true)
    else if bad 2 then some (Stop.counter, true)
    else if !svnOk fw.svn (s.sec.counters.getD 2 0) then some (Stop.fw, true)
    else match s.configImage with
    | none => some (Stop.cfg, true)
    | some c =>
      if !coseBlockOk c.sig f.cfgSig then some (Stop.cfg, true)
      else if bad 1 then some (Stop.counter, true)
      else if s.claimOdd ∧ !s.claimHolds s.imageSections then some (Stop.cfg, true)
      else if bad 3 then some (Stop.counter, true)
      else if !svnOk c.svn (s.sec.counters.getD 3 0) then some (Stop.cfg, true)
      else if c.sections.isNone ∨ !sectionsOk s.imageSections then some (Stop.cfg, true)
      else if bad 0 then some (Stop.counter, true)
      else none

/-- What the verified images give the node. -/
def State.takeImage (s : State) : State :=
  let f := s.imageSections
  let fab := sectionOf f 1
  let fw := (s.firmware.map Container.digest).getD []
  let s := { s with
    map := { s.map with fabricId := byteAt fab 0 % 16, keeperCount := byteAt fab 1 }
    sys := { s.sys with image := imageWrites f, split := splitOf (sectionOf f 2) }
    sec := { s.sec with operator := sha384 (sectionOf f 4), fw := fw, cfg := (s.configImage.map Container.digest).getD []
                        svn := ((s.firmware.map Container.svn).getD 0, (s.configImage.map Container.svn).getD 0)
                        endpointCa := !(sectionsOf f 5).isEmpty, fwAccept := if (sectionsOf f 6).isEmpty then [fw] else chunks 48 ((sectionOf f 6).length + 1) (sectionOf f 6) } }
  s.setStatus Reg.secStatus 1 1 (b2n s.claimOdd)

/-- Links that are enabled, and the Wecia Link, enter DETECT (R245, R268). -/
def State.linksDetect (s : State) : State :=
  let on := (List.range 64).filter (fun n => s.bit (Reg.lnkPortCfg + 4 * n) 0)
  (on.foldl (fun s n => s.setLinkState n LState.detect) s).setHostState LState.detect

/-- Step 7. A counter whose answer fails also stops the node's signing (R351). -/
def State.verifyStep (s : State) (f : SunriseFacts) : State :=
  let s := { s with sec := { s.sec with idd := sha384 s.sec.publics, cert := s.deviceCert } }
  let s := s.setStatus Reg.secStatus 0 0 (b2n s.identityOk)
  match s.verifyStop f with
  | some (code, bridge) => (if code = Stop.counter then s.counterFault else s).bootStop code bridge
  | none => ((s.takeImage.bootLeaves).toStep 8).linksDetect

/-- Parts whose training failed have acted (R330, R395). -/
def State.markActed (s : State) (ps : List Nat) : State :=
  ps.foldl (fun s p => (s.setScore p { s.score p with acted := true }).raiseBit Reg.hltEvent 1) s

/-- Step 8: training, zeroed memory, the split and the fixed structures (R180, R181). -/
def State.memoryStep (s : State) (f : SunriseFacts) : State :=
  let bad := f.badHbm.filter (· < 8)
  let s := { s with mem := MemSt.reset, sys := { s.sys with badHbm := bad } }
  let s := (s.markActed (bad.map Part.hbm)).markActed ((f.badLpddr.filter (· < 8)).map Part.lpddr)
  let s := (List.range 8).foldl (fun s k => s.setLive (Reg.memSplit + 4 * k) (s.sys.split.getD k 0)) s
  let left := spareProtected s.sys.split bad (bitsOf (imageVal s.sys.image Reg.pgwSeqCfg) 4 0) (bitsOf (imageVal s.sys.image Reg.pgwCfg) 15 0)
  if left < 1048576 then s.bootStop Stop.memory true else (s.checkHealth).toStep 9

/-- Step 9: every value of the image is written, committed and compared (R401; log 63). -/
def State.applyStep (s : State) : State :=
  let write (s : State) (w : Nat × Nat) : State := match findReg w.1 with | some r => s.stageWrite r w.1 w.2 | none => s
  let s := s.sys.image.foldl write s
  let s := (s.commitGroups 0xFF).applyPending (fun _ => true)
  if s.sys.image.all (fun w => s.live w.1 == imageVal s.sys.image w.1) then s.toStep 11 else s.bootStop Stop.apply true

/-- Step 5: every PLL is locked. -/
def State.clocksUp (s : State) : State :=
  (s.putStatus Reg.clkStatus (putBits (s.live Reg.clkStatus) 7 0 0x7F)).refreshSsc

/-- Step 4: PR from the PUF SRAM's start-up state and the helper data, the public keys it gives, and K_t2 and boot_id of this Sunrise (R345, Table 14.1). The start-up state is the one that the last power-on gave. -/
def State.pufStep (s : State) (readout : List Byte) : State :=
  let puf := if s.sec.puf.isEmpty then readout else s.sec.puf
  let helper := s.flashBytes FlashMap.helper 8192
  let s := { s with sec := { s.sec with puf := puf, root := (List.range 32).map (Config.pufByte puf helper) } }
  let s := { s with sec := { s.sec with publics := s.publicKeys } }
  let r := s.seedRandom.randomBytes 48
  { r.2 with sec := { r.2.sec with tierKey := slice r.1 0 32, bootId := slice r.1 32 16 } }

/-- SUNRISE_STEP_END: the step in progress completes its work, with what it has found outside. -/
def execSunriseStepEnd (f : SunriseFacts) (s : State) : Host.Outcome State Fault Refusal :=
  if !s.running ∨ s.inService ∨ (s.bootStopped ∧ !(s.sunriseStep = 5 ∧ f.refclkOk)) then .next s
  else match s.sunriseStep with
  | 1 => .next (match f.badRail with | some r => s.shutdown 2 r | none => s.toStep (if s.sys.oscDone then 3 else 2))
  | 3 => .next (if s.sys.flashHold then s.bootStop Stop.hold true else s.toStep 4)
  | 4 => .next ((s.pufStep f.puf).toStep 5)
  | 5 => .next (if f.refclkOk then s.clocksUp.toStep 6 else s.bootStop Stop.refclk false)
  | 6 => .next (if f.flashOk then s.toStep 7 else s.bootStop Stop.flash true)
  | 7 => .next (s.verifyStep f)
  | 8 => .next (s.memoryStep f)
  | 9 => .next s.applyStep
  | _ => .next s

/-! ### Step 12 (R348, R402) -/

/-- The claim record and the counters 1, 2 and 3. -/
def State.claimNow (s : State) : State :=
  let c1 := s.sec.counters.getD 1 0
  let put (s : State) : State := s.putFlash FlashMap.claim (s.claimOf s.sec.operator)
  let s := if c1 % 2 = 0 then { put s with sec := { s.sec with counters := listPut 0 s.sec.counters 1 (c1 + 1) } } else s
  let s := { s with sec := { s.sec with counters := listPut 0 (listPut 0 s.sec.counters 2 (max (s.sec.counters.getD 2 0) s.sec.svn.1)) 3
                                                      (max (s.sec.counters.getD 3 0) s.sec.svn.2) } }
  s.setStatus Reg.secStatus 1 1 1

/-- PWR_STATUS.limits: NOON's in Sunrise, the higher power's around a mode change (R414). -/
def State.refreshLimits (s : State) : State :=
  let m := s.mode
  let lim := if !s.inService then 0
    else if s.bit Reg.timeModeStatus 4 ∧ s.live64 Reg.timeModeEff = s.frame + 1 then min m (s.fld Reg.timeModeStatus 3 2)
    else match s.time.modeChange with
      | some (e, old) => if e = s.frame then min m old else m
      | none => m
  s.setStatus Reg.pwrStatus 4 3 lim

/-- SERVICE: steps 8, 9 and 11 have ended. -/
def execService (s : State) : Host.Outcome State Fault Refusal :=
  if !s.running ∨ s.inService ∨ s.bootStopped ∨ s.sunriseStep ≠ 11 ∨ !s.time.acquired then .next s
  else
    let s := s.claimNow.setStatus Reg.timeStatus 4 4 1
    let s := (s.toStep 12).setStatus Reg.sysBoot 6 6 1
    let s := { s with hlt := { s.hlt with kicks := List.replicate 4 s.now, voltage := s.setpoint 3 } }
    let s := (s.setBridge true).setStatus Reg.pgwStatus 0 0 1
    .next ((s.runNight.refreshLimits).sendJoin partners)

/-! ### Feeds (R411–R413) -/

/-- The node draws from a feed. -/
def State.useFeed (s : State) (b : Bool) : State :=
  if s.bit Reg.pwrStatus 0 = b then s else (s.setStatus Reg.pwrStatus 0 0 (b2n b)).raiseBit Reg.pwrEvent 0

/-- The standby domain has power. -/
def State.standbyUp (s : State) : Bool := s.sys.power != .off

/-- FEED_INVALID. -/
def execFeedInvalid (feedB : Bool) (s : State) : Host.Outcome State Fault Refusal :=
  if !s.standbyUp then .next s
  else
    let i := 1 + b2n feedB
    let s := (s.setStatus Reg.pwrStatus i i 0).raiseBit Reg.pwrEvent 3
    .next (if s.bit Reg.pwrStatus 0 = feedB ∧ s.bit Reg.pwrStatus (1 + b2n (!feedB)) then s.useFeed (!feedB) else s)

/-- FEED_VALID: 1 s within 46 V to 58 V. The node returns to its preferred feed, or takes the only valid one. -/
def execFeedValid (feedB : Bool) (s : State) : Host.Outcome State Fault Refusal :=
  if !s.standbyUp then .next s
  else
    let i := 1 + b2n feedB
    let s := s.setStatus Reg.pwrStatus i i 1
    let inUse := s.bit Reg.pwrStatus (1 + s.fld Reg.pwrStatus 0 0)
    .next (if s.fld Reg.pwrFeedCfg 0 0 = b2n feedB ∨ !inUse then s.useFeed feedB else s)

/-- FEED_LOSS_SHUTDOWN: neither feed has been valid for 20,000 ticks. -/
def execFeedLossShutdown (s : State) : Host.Outcome State Fault Refusal :=
  if (s.sys.power ≠ .on ∧ s.sys.power ≠ .held) ∨ s.feedOk then .next s else .next (s.shutdown 1 0)

/-- RAIL_FAULT: a rail leaves its window. -/
def execRailFault (rail : Nat) (s : State) : Host.Outcome State Fault Refusal :=
  if (s.sys.power ≠ .on ∧ s.sys.power ≠ .held) ∨ 5 ≤ rail then .next s else .next (s.shutdown 2 rail)

/-- PEAK: a breach of a limit of R414. -/
def execPeak (s : State) : Host.Outcome State Fault Refusal := .next (if s.running then s.raiseBit Reg.pwrEvent 1 else s)

/-! ### Twilight (R39, R409, R410) -/

/-- The node enters Twilight: clocks coast, links go DOWN, it fences itself and must reacquire time. -/
def State.enterTwilight (s : State) (event : Nat) : State :=
  let v := s.live Reg.clkStatus
  let v := putBits (putBits v 7 2 0x20) 11 8 0
  let s := ((s.putStatus Reg.clkStatus (if event = 0 then putBits v 0 0 0 else v)).raiseBit Reg.clkEvent event).raiseBit Reg.clkEvent 2
  let n := min 0xFFFF (s.fld Reg.clkTwilight 15 0 + 1)
  let s := s.setLive Reg.clkTwilight (putBits (s.live Reg.clkTwilight) 15 0 n)
  let s := { s with sys := { s.sys with twilightAt := s.now }, time := { s.time with acquired := false } }
  let s := s.setStatus Reg.timeStatus 4 4 0
  let s := (s.lnk.links.filter (fun l => l.2.state != LState.down)).foldl (fun s l => s.setLinkState l.1 LState.down) s
  let s : State := s.setHostState LState.down
  let s : State := if s.map.cur.isSome ∨ s.inService then s.fenceForTime else s
  if event = 0 ∧ !s.bit Reg.clkStatus 1 then s.becomeFailed else s

/-- REFCLK_LOSS. -/
def execRefclkLoss (s : State) : Host.Outcome State Fault Refusal :=
  .next (if s.running && s.bit Reg.clkStatus 0 && !s.inTwilight then s.enterTwilight 0 else s)

/-- PLL_UNLOCK: a PLL in service loses lock. -/
def execPllUnlock (pll : Nat) (s : State) : Host.Outcome State Fault Refusal :=
  .next (if s.running && s.bit Reg.clkStatus (2 + pll % 5) && !s.inTwilight then s.enterTwilight 1 else s)

/-- TWILIGHT_EXIT: REFCLK has been valid for 1 ms. Clocks return to the mode's, memories retrain, links go to DETECT; the map, fetched again, decides how the node comes back (R319). -/
def execTwilightExit (s : State) : Host.Outcome State Fault Refusal :=
  if !s.running ∨ !s.inTwilight then .next s
  else
    let ms := min 0xFFFF ((s.now - s.sys.twilightAt) / 1000000)
    let s := s.setLive Reg.clkTwilight (putBits (s.live Reg.clkTwilight) 31 16 ms)
    let s := { s with time := { s.time with clockMode := if s.map.cur.isSome then s.mode else 3 } }
    let s := (s.putStatus Reg.clkStatus (putBits (putBits (s.live Reg.clkStatus) 7 2 0x1F) 0 0 1)).refreshSsc
    let s := s.linksDetect.raiseBit Reg.clkEvent 3
    .next (if s.fenced then s.startFetchMap (max s.map.heard s.gen) else s)

/-- XTAL_LOSS: in Twilight the count cannot run, and the node is FAILED. -/
def execXtalLoss (s : State) : Host.Outcome State Fault Refusal :=
  if !s.running then .next s
  else
    let s := (s.setStatus Reg.clkStatus 1 1 0).raiseBit Reg.clkEvent 4
    .next (if s.inTwilight then s.becomeFailed else s)

/-- XTAL_RETURN: the crystal runs again. -/
def execXtalReturn (s : State) : Host.Outcome State Fault Refusal := .next (if s.running then s.setStatus Reg.clkStatus 1 1 1 else s)

end Sys2Proof.Machine
end

