-- ==== Sys2Proof/Machine/Minute.lean ====
section
/-!
DEFINITION. The start of a minute (R40): TIME frames, checks, readings and the work that is due (R52, R184, R188, R191, R199–R201, R239, R251, R293, R296, R306–R311, R332, R390, R415, R421).
-/

namespace Sys2Proof.Machine

open Sys2Proof

/-! ### What the last minute leaves (R293, R296) -/

/-- A class that ends its owned minute with requests held counts it in quota_short. -/
def State.quotaShort (s : State) (minute : Nat) : State :=
  let c := s.ownerAt minute
  if c < 24 ∧ s.mode ≠ 3 ∧ s.inService ∧ s.sch.held.any (fun r => r.cls == c) then
    (s.bump (Reg.schClassStat + 16 * c + 12)).raiseBit Reg.schEvent 2
  else s

/-- Held cost of a class. -/
def State.heldCost (s : State) (c : Nat) : Nat := (s.sch.held.filter (fun r => r.cls == c)).foldl (fun n r => n + r.cost) 0

/-- Depths at tick 0 of a minute. -/
def State.depths (s : State) : State :=
  let s := (List.range 24).foldl (fun s c =>
    let n := s.heldCost c
    if n = 0 then s else s.bumpMax (Reg.schClassStat + 16 * c + 4) n) s
  { s with que := { s.que with qps := s.que.qps.map (fun (q : Nat × Qp) => if q.2.depth = 0 then q else (q.1, q.2.bumpMax 0 q.2.depth)) } }

/-- Uncorrectable codewords are counted anew in each minute (R250). -/
def State.fecReset (s : State) : State :=
  -- a partner that sends only under other epochs is fenced, and its system queue pair with it (R247, R278)
  let out := (s.lnk.links.filter (fun l => !l.2.fenced && l.2.foreign && !l.2.heard && l.2.partnerId != 0x7FF)).map (fun l => l.2.partnerId)
  -- its keys are erased (R359)
  let s := s.mapLinks (fun l =>
    let l := { l with fecMinute := 0 }
    if l.foreign && !l.heard then l.cutOff else { l with heard := false, foreign := false })
  let s := { s with hst := { s.hst with fecMinute := 0 } }
  out.foldl (fun s n => s.fencePeer n false) s

/-! ### Signals and readings -/

/-- A summary message owed since the last minute (R421). -/
def State.owedSummary (s : State) : State :=
  match s.sys.sumOwed with
  | none => s
  | some b => ({ s with sys := { s.sys with sumOwed := none, sumMsg := some s.minutes } }).sendSummary b

/-- PARITY_SCAN: mismatches found, each once until it is restored (R390). -/
def State.parityScan (s : State) (found : List (Nat × Nat)) : State :=
  found.foldl (fun s p =>
    if s.regs.badParity.contains p then s
    else ({ s with regs := { s.regs with badParity := s.regs.badParity ++ [p] } }).parityFound p.1 p.2) s

/-- Warning and shutdown limits of a sensor in °C, the shutdown cause and the sensor's index in it (Tables 16.8, 17.18, 17.19). -/
def tempLimits (i : Nat) : Int × Int × Nat × Nat :=
  if i < 16 then (100, 110, 3, i) else if i < 144 then (82, 85, 4, i - 16)
  else if i < 152 then (92, 105, 5, i - 144) else (112, 125, 6, i - 152)

/-- THERMAL_SAMPLE: each reading, the largest of the frame, warning and shutdown (R415). -/
def State.thermal (s : State) (temps : List Int) : State :=
  let rs := (temps.take 176).zipIdx
  let s := rs.foldl (fun s (x : Int × Nat) =>
    let a := Reg.pwrTemp + 4 * x.2
    let most := match tabGet s.sys.tempMax x.2 with | some y => max x.1 y | none => x.1
    ({ s with sys := { s.sys with tempMax := tabPut s.sys.tempMax x.2 most } }).setLive a (putBits (s.live a) 15 0 (ofSigned 16 x.1))) s
  let s := if rs.any (fun x => decide (16 * (tempLimits x.2).1 ≤ x.1)) then s.raiseBit Reg.pwrEvent 2 else s
  match rs.find? (fun x => decide (16 * (tempLimits x.2).2.1 ≤ x.1)) with
  | some x => s.shutdown (tempLimits x.2).2.2.1 (tempLimits x.2).2.2.2
  | none => s

/-- Points of corrected SRAM errors and of retried stack-interface transfers (Table 13.3), charged at the minute that reports them (log 125). -/
def State.corrected (s : State) (cores hbms : List Nat) : State :=
  let s := (cores.filter (· < 96)).foldl (fun s c => s.addPoints (Part.core c) 1) s
  (hbms.filter (· < 8)).foldl (fun s k => s.addPoints (Part.hbm k) 1) s

/-- Feed voltages in units of 10 mV. -/
def State.feedVolts (s : State) (a b : Nat) : State := s.setLive Reg.pwrFeedV (a % 65536 + 65536 * (b % 65536))

/-! ### Work that is due -/

/-- Work that touches tier 0 belongs to MIGRATE minutes (R131). -/
def State.migrateMinute (s : State) : State :=
  if s.owner ≠ Owner.migrate then s
  else
    let s := (s.shadowMinute s.mem.backlog).dawnMinute
    s.evacuate s.stranded

/-- What a node in service does at tick 0. -/
def State.serviceMinute (s : State) : State :=
  if !s.inService ∨ s.inTwilight then s
  else
    let s := s.mapMinute
    if !s.dispatching then s
    else
      let s := s.duskMinute.shareMinute.fetchMinute.leaveUnits.leaveImages.retireUnits.migrateMinute
      s.programMinute s.owner

/-- The count at which the next minute not yet worked begins (log 64). -/
def State.minuteAt (s : State) : Nat :=
  if tickOf s.now = 0 ∧ s.sys.minuteDone ≠ some s.minutes then s.now else 1024 * (s.minutes + 1)

/-- MINUTE_START. -/
def execMinuteStart (env : MinuteEnv) (s : State) : Host.Outcome State Fault Refusal :=
  if !s.running then .next s
  else
    let t := s.minuteAt
    let s := if minuteOf t = 0 then s else s.quotaShort (minuteOf t - 1)
    let s := ((s.advanceTo t).slewOn.pumpAll).setStatus Reg.pgwStatus 1 1 0
    let s := { s with sys := { s.sys with minuteDone := some s.minutes } }
    let s := s.depths.fecReset.owedSummary
    let s := (s.corrected env.sramFixed env.retried)
    let s := ((s.parityScan env.parity).feedVolts env.feedA env.feedB).thermal env.temps
    if !s.running then .next s
    else
      let s := if env.signed then s.finishReport else s
      let s := ((s.ageing env.slack).journaled env.journal).modeVoltage
      let s := s.refreshTime.sendTimeFrames
      let s := if s.minute = 0 then s.cascadeProbe else s
      let s := s.serviceMinute
      .next (s.settleLater.retryFetches.pumpRings).checkHealth

end Sys2Proof.Machine
end

