-- ==== Sys2Proof/Machine/Midnight.lean ====
section
/-!
DEFINITION. Midnight (R41): counters latch, pending values and versions take effect, mode and map change, parts act, the voltage is planned, the evidence sealed, reports signed (R46, R52–R54, R116, R174, R188, R196, R216, R227, R236, R290, R312, R316, R319, R330–R336, R340, R352, R367, R389).
-/

namespace Sys2Proof.Machine

open Sys2Proof

/-! ### Latching (R41, R174, R296) -/

/-- An address of a latched counter. -/
def isLatched (a : Nat) : Bool := match findReg a with | some r => r.row.acc == .lat | none => false

/-- COUNTER_LATCH: every latched counter takes its count and starts again from zero; TIME_LATCH_FRAME names the frame that ended. -/
def State.latchCounters (s : State) (ended : Nat) : State :=
  let old := s.regs.live.filter (fun p => !isLatched p.1)
  let live := s.regs.run.foldl (fun l p => regSet l p.1 p.2) old
  let latchQp (q : Nat × Qp) : Nat × Qp :=
    (q.1, { q.2 with latched := q.2.running, running := List.replicate 7 0 })
  let s := { s with regs := { s.regs with live := live, run := [] }, que := { s.que with qps := s.que.qps.map latchQp } }
  -- what tenants still have queued is there in the new frame too (R296)
  let s := s.sch.aggs.foldl (fun s t => if t.2.queued = 0 then s else s.bumpMax (Reg.schTenantStat + 16 * t.1 + 0xC) t.2.queued) s
  s.setLive64 Reg.timeLatchFrame ended

/-- Edges of the Vesper clock in the frame that ended: whole cycles, one more or not by the phase, and fewer by what the spread in force takes, which the manual leaves open (R174, R406; logs 11, 142). R52 lets the clocks switch anywhere in ticks 64 to 191: the model switches them at tick 64 (DESIGN CHOICE, log 129). -/
def State.frameCycles (s : State) (ended : Nat) : Nat × State :=
  let now := vesperKHz s.time.clockMode
  let kilo := match s.time.modeChange with
    | some (e, old) => if e = ended then 64 * vesperKHz old + (1048576 - 64) * now else 1048576 * now
    | none => 1048576 * now
  let x := s.fresh
  let most := kilo / 1000000 + b2n (kilo % 1000000 != 0)
  let least := kilo * 2000 / (1000000 * (2000 + s.fld Reg.clkStatus 11 8))
  (least + Config.choice x.1 2 % (most - least + 1), x.2)

/-- The yard latches: bytes, cycles and factor of the units in service (R174). -/
def State.latchYard (s : State) (ended : Nat) : State :=
  let x := s.frameCycles ended
  let s := x.2
  let units := 2048 - s.vsp.masked.length
  let cycles := x.1 * units
  let bytes := s.vsp.yardBytes.foldl (fun n p => if s.masked p.1 then n else n + p.2) 0
  let factor := if cycles = 0 then 0 else min 0xFFFF (bytes * 65536 / (64 * cycles))
  let s := ((s.setLive64 Reg.vspYardBytes bytes).setLive64 Reg.vspYardCycles cycles).setLive Reg.vspYardFactor factor
  let whole := b2n (s.sys.frameDone == some ended)
  let s := s.putStatus Reg.vspStatus (putBits (putBits (s.live Reg.vspStatus) 11 0 s.vsp.masked.length) 12 12 whole)
  let clean (u : Nat × VUnit) : Option (Nat × VUnit) :=
    let v := { u.2 with missing := 0 }
    if v = VUnit.idle then none else some (u.1, v)
  { s with vsp := { s.vsp with yardBytes := [], audited := [], units := s.vsp.units.filterMap clean } }

/-- Occupancy of the tiers in MiB (Table 7.6). -/
def State.latchOccupancy (s : State) : State :=
  let t2 := s.allPages.foldl (fun n p =>
    if p.2.kind = .pool then n + (if (s.otherDonor p.2 p.2.node).isSome then 8 else 4) * s.refKiB p.1 else if p.2.kind = .host then n + hostKiB (s.refKiB p.1) else n) 0
  ((s.setLive Reg.memOcc (s.freeBare / 1024)).setLive (Reg.memOcc + 4) (s.freeTier1 / 1024)).setLive (Reg.memOcc + 8) (t2 / 1024)

/-- Power and the frame's largest temperatures (Tables 17.15, 17.19). -/
def State.latchPower (s : State) (env : MidnightEnv) : State :=
  let s := s.setLive Reg.pwrInput (env.powerAvg % 65536 + 65536 * (env.powerMax % 65536))
  let s := s.sys.tempMax.foldl (fun s p =>
    let a := Reg.pwrTemp + 4 * p.1
    s.setLive a (putBits (s.live a) 31 16 (ofSigned 16 p.2))) s
  { s with sys := { s.sys with tempMax := [] } }

/-- A low watermark still unmet at a Midnight after a frame in which no check met it (R188). -/
def State.duskShort (s : State) : State :=
  let low0 := s.belowLow0
  let low1 := s.belowLow1
  let s := if (low0 && s.mem.lowAll0) || (low1 && s.mem.lowAll1) then s.raiseBit Reg.memEvent 0 else s
  { s with mem := { s.mem with bareShort := low0, lowAll0 := low0, lowAll1 := low1 } }

/-- Tenants whose latched counter at an offset of their entry has reached the threshold, of those that latched anything. -/
def State.satTenants (s : State) (k : Nat) : List Nat :=
  let t := s.live Reg.attSatThresh
  (s.regs.live.filter (fun p => decide (Reg.attSatTenant ≤ p.1 ∧ p.1 < Reg.attSatTenant + 65536) && p.1 % 16 == k && decide (t ≤ p.2))).map
    (fun p => (p.1 - Reg.attSatTenant) / 16)

/-- The comparison of R116, with the threshold now in force. -/
def State.saturation (s : State) : State :=
  if s.live Reg.attSatThresh = 0 then s.setLive Reg.attSatFirst 0
  else
    let hits := [0, 8, 12].map s.satTenants
    let bits := (hits.zipIdx).foldl (fun n h => if h.1.isEmpty then n else n + pow2 h.2) 0
    match hits.flatten with
    | [] => s.setLive Reg.attSatFirst 0
    | a :: t => (s.raise Reg.attSatEvent bits).setLive Reg.attSatFirst (t.foldl min a + 4096)

/-! ### Pending values (R236, R290, R389, R406) -/

/-- Tenants whose aggregate a due value changes. -/
def State.aggChanged (s : State) (frame : Nat) : List Nat :=
  s.regs.pend.foldl (fun l p =>
    if p.timing ≤ frame ∧ Reg.schTenantCfg ≤ p.addr ∧ p.addr < Reg.schTenantCfg + 65536 ∧ p.addr % 16 < 8 then setInsert l ((p.addr - Reg.schTenantCfg) / 16) else l) []

/-- PENDING_VALUE_EFFECT: values due at this Midnight become live; a lowered aggregate depth cuts the content (R290); a cascade setting trains its member (R236). -/
def State.pendingEffect (s : State) : State :=
  let f := s.frame
  let ts := s.aggChanged f
  -- a mask that would now take a group from a loaded program is refused (R199)
  let cgBad := s.regs.pend.any (fun p => decide (p.timing ≤ f) && p.addr == Reg.attProgCg && !s.cgOk p.value)
  let s := if cgBad then State.raiseBit { s with regs := { s.regs with pend := s.regs.pend.filter (fun p => p.addr != Reg.attProgCg) } } Reg.attProgEvent 2 else s
  let casc := s.regs.pend.any (fun p => decide (p.timing ≤ f) && p.addr == Reg.matCascCfg) || (s.bit Reg.matCascCfg 0 && !s.mat.trained)
  let s := ts.foldl (fun s t => s.putAgg t (s.agg t)) s
  let s := s.applyPending (fun p => decide (p.timing ≤ f))
  let s := ts.foldl (fun s t => s.putAgg t (s.agg t)) s
  let s := if casc then
      let on := s.bit Reg.matCascCfg 0
      ({ s with mat := { s.mat with trained := on } }).setStatus Reg.matStatus 0 0 (b2n on)
    else s
  s.refreshSsc

/-- A queue pair takes its urgent flag from its class at each Midnight (R270); a system queue pair has no tenant class. -/
def State.urgentQps (s : State) : State :=
  { s with que := { s.que with qps := s.que.qps.map (fun (q : Nat × Qp) =>
      if q.2.part = sysPart ∨ q.2.state = .free then q else (q.1, { q.2 with urgent := s.urgentClass q.2.cls })) } }

/-! ### The mode (R52–R54) -/

/-- The mode that the committed map gives a frame; NIGHT with no map. -/
def State.modeOfMap (s : State) : Nat :=
  if s.map.cur.isNone then 3
  else match s.tip with
    | none => 3
    | some m => m.modeAt s.frame

/-- A held request completes with NIGHT_MODE (R53). -/
def State.nightReply (s : State) (r : Req) : State :=
  let s := match s.charged r with
    | some t => (let a := s.agg t
                 s.putAgg t { a with queued := a.queued - r.cost })
    | none => s
  (s.mapQp r.key (fun q => { q with depth := q.depth - 1 })).refuse r Status.nightMode 0

/-- NIGHT_ENTRY: every request that waits in a calendar completes with NIGHT_MODE. -/
def State.nightEntry (s : State) : State :=
  let held := s.sch.held
  (held.foldl State.nightReply { s with sch := { s.sch with held := [] } }).refreshPool

/-- MODE_CHANGE: the current mode takes the map's, and an announcement that has come is cleared. A node that learns of a higher mode after minute 1,007 of the frame before raises its voltage here (log 130). -/
def State.modeMidnight (s : State) : State :=
  let old := s.mode
  let new := s.modeOfMap
  let st := s.live Reg.timeModeStatus
  let st := if s.bit Reg.timeModeStatus 4 ∧ s.live64 Reg.timeModeEff ≤ s.frame then putBits st 4 2 0 else st
  let s := s.setLive Reg.timeModeStatus (putBits st 1 0 new)
  let s := s.setLive Reg.timeDialStatus (putBits (s.live Reg.timeDialStatus) 1 0 new)
  if new = old then s
  else
    let s := { s with time := { s.time with modeChange := some (s.frame, old) }, hlt := { s.hlt with voltage := max s.hlt.voltage (s.setpoint new) } }
    if new = 3 then s.nightEntry else s

/-! ### Evidence and repair (R196, R340) -/

/-- EVIDENCE_SEAL: the ending frame's record of kind 2, in the entry kept for it. -/
def State.seal (s : State) (ended : Nat) : State :=
  let h := s.hlt
  let chain := sha384 (h.chain ++ sha384 h.evFrame.flatten)
  let rec_ := padTo 216 (leBytes 1 1 ++ leBytes 1 2 ++ List.replicate 6 0 ++ leBytes 8 ended ++ leBytes 8 h.evFrame.length ++ leBytes 4 h.evMissed ++
    leBytes 4 0 ++ chain)
  let bytes := padTo 256 (rec_ ++ leBytes 8 h.evSeq)
  { s with hlt := { h with evidence := h.evidence ++ [bytes], evSeq := h.evSeq + 1, evFrom := h.evSeq + 1, evFrame := [], evMissed := 0, chain := chain } }

/-- WEIGHT_REPAIR_RETRY: a tile still poisoned is tried again, once per frame (R196). -/
def State.weightRetry (s : State) : State :=
  (s.mem.poison.filter (fun p => !s.que.ops.any (fun o => o.2.kind == .weight p.1))).foldl (fun s p => s.trySources p.1) s

/-! ### The Midnight -/

/-- The count at which the next frame not yet worked begins (log 64). -/
def State.midnightAt (s : State) : Nat :=
  if s.now % 1048576 = 0 ∧ s.sys.frameDone ≠ some s.frame then s.now else 1048576 * (s.frame + 1)

/-- What latches at the tick of Midnight. -/
def State.latchAll (s : State) (env : MidnightEnv) (ended : Nat) : State :=
  ((((s.latchCounters ended).latchYard ended).latchOccupancy).latchPower env).latchAge

/-- MIDNIGHT. -/
def execMidnight (env : MidnightEnv) (s : State) : Host.Outcome State Fault Refusal :=
  if !s.running then .next s
  else
    let s := s.advanceTo (s.midnightAt - 1)
    let s := s.quotaShort 1023
    let fresh := !s.hlt.slackMin.isEmpty
    let s := (s.advanceTo s.midnightAt).pumpAll
    let ended := s.frame - 1
    let s := (s.latchAll env ended)
    let s := { s with sys := { s.sys with frameDone := some s.frame } }
    let s := s.pendingEffect.urgentQps.saturation.duskShort
    let s := s.activateVersions.applyDueEdits
    let s := s.mapMidnight.modeMidnight
    let s := s.halveScores.partsAct
    let s := (s.voltagePlan fresh).refreshLimits
    let s := if s.inService then (s.seal ended).weightRetry else s
    let s := (s.signReport env.counterOk).notice
    -- a node that has become DEGRADED since the last Midnight proposes its DRAIN before this one finds anything new (R331)
    .next ((s.writeCheckpoint.proposeDrain).checkHealth).heartbeat

end Sys2Proof.Machine
end

