-- ==== Sys2Proof/Machine/Requests.lean ====
section
/-!
DEFINITION. The rows of requests (Tables 3.2, 8.1, 11.6; R71, R353): the arrival of one message of each kind.
-/

namespace Sys2Proof.Machine

open Sys2Proof

/-- APPEND (R63). -/
def execAppend (arr : Arrival) (msg : List Byte) (s : State) : Host.Outcome State Fault Refusal :=
  .next (s.requestRow (Msg.opcode msg == 0x01) arr msg)

/-- ATTEND (R65). -/
def execAttend (arr : Arrival) (msg : List Byte) (s : State) : Host.Outcome State Fault Refusal :=
  .next (s.requestRow (Msg.opcode msg == 0x02) arr msg)

/-- APPEND_ATTEND (R66). -/
def execAppendAttend (arr : Arrival) (msg : List Byte) (s : State) : Host.Outcome State Fault Refusal :=
  .next (s.requestRow (Msg.opcode msg == 0x03) arr msg)

/-- VERIFY (R67). -/
def execVerify (arr : Arrival) (msg : List Byte) (s : State) : Host.Outcome State Fault Refusal :=
  .next (s.requestRow (Msg.opcode msg == 0x04) arr msg)

/-- COMMIT (R70). -/
def execCommit (arr : Arrival) (msg : List Byte) (s : State) : Host.Outcome State Fault Refusal :=
  .next (s.requestRow (Msg.opcode msg == 0x05) arr msg)

/-- PREFIX_BIND with action BIND, or with an action that R71 refuses. -/
def execBind (arr : Arrival) (msg : List Byte) (s : State) : Host.Outcome State Fault Refusal :=
  .next (s.requestRow (Msg.opcode msg == 0x06 && byteAt msg 40 != 1 && byteAt msg 40 != 2) arr msg)

/-- PREFIX_BIND with action PUBLISH (R71). -/
def execPublish (arr : Arrival) (msg : List Byte) (s : State) : Host.Outcome State Fault Refusal :=
  .next (s.requestRow (Msg.opcode msg == 0x06 && byteAt msg 40 == 1) arr msg)

/-- PREFIX_BIND with action UNPUBLISH (R71). -/
def execUnpublish (arr : Arrival) (msg : List Byte) (s : State) : Host.Outcome State Fault Refusal :=
  .next (s.requestRow (Msg.opcode msg == 0x06 && byteAt msg 40 == 2) arr msg)

/-- RELEASE (R73). -/
def execRelease (arr : Arrival) (msg : List Byte) (s : State) : Host.Outcome State Fault Refusal :=
  .next (s.requestRow (Msg.opcode msg == 0x07) arr msg)

/-- SPAN_WORK at a holder (R91). -/
def execSpanWork (arr : Arrival) (msg : List Byte) (s : State) : Host.Outcome State Fault Refusal :=
  .next (s.requestRow (Msg.opcode msg == 0x30) arr msg)

/-- RUN (R203). -/
def execRun (arr : Arrival) (msg : List Byte) (s : State) : Host.Outcome State Fault Refusal :=
  .next (s.requestRow (Msg.opcode msg == 0x20) arr msg)

/-- PROJECT_ATTEND (R204). -/
def execProjectAttend (arr : Arrival) (msg : List Byte) (s : State) : Host.Outcome State Fault Refusal :=
  .next (s.requestRow (Msg.opcode msg == 0x21) arr msg)

/-- RREAD (R284). -/
def execRread (arr : Arrival) (msg : List Byte) (s : State) : Host.Outcome State Fault Refusal :=
  .next (s.requestRow (Msg.opcode msg == 0x10) arr msg)

/-- RWRITE (R284). -/
def execRwrite (arr : Arrival) (msg : List Byte) (s : State) : Host.Outcome State Fault Refusal :=
  .next (s.requestRow (Msg.opcode msg == 0x11) arr msg)

/-- RWRITE_TILES (R284). -/
def execRwriteTiles (arr : Arrival) (msg : List Byte) (s : State) : Host.Outcome State Fault Refusal :=
  .next (s.requestRow (Msg.opcode msg == 0x12) arr msg)

/-- ATTEST (R353). -/
def execAttest (arr : Arrival) (msg : List Byte) (s : State) : Host.Outcome State Fault Refusal :=
  .next (s.requestRow (Msg.opcode msg == 0x08) arr msg)

/-- A request with an opcode the node does not recognise (R57, R202, R283). -/
def execBadOpcode (arr : Arrival) (msg : List Byte) (s : State) : Host.Outcome State Fault Refusal :=
  .next (s.requestRow ((opOf (Msg.opcode msg)).isNone) arr msg)

end Sys2Proof.Machine
end

