-- ==== Sys2Proof/Machine/Dispatch.lean ====
section
/-!
DEFINITION. One arm per command: each is one direct call of the command's own meaning.
-/

namespace Sys2Proof.Machine

open Sys2Proof

/-- The effect of a command on everything but the queue. -/
def exec (i : Instr) (s : State) : Host.Outcome State Fault Refusal :=
  match i with
  | .ppsInEdge sixteenths => Sys2Proof.Machine.execPpsInEdge sixteenths s
  | .ppsMissing => Sys2Proof.Machine.execPpsMissing s
  | .timeInMessage bytes sinceEdge => Sys2Proof.Machine.execTimeInMessage bytes sinceEdge s
  | .timeInLoss => Sys2Proof.Machine.execTimeInLoss s
  | .timeFrame link f tick part => Sys2Proof.Machine.execTimeFrame link f tick part s
  | .minuteStart env => Sys2Proof.Machine.execMinuteStart env s
  | .midnight env => Sys2Proof.Machine.execMidnight env s
  | .modeClockSwitch => Sys2Proof.Machine.execModeClockSwitch s
  | .hbmRefresh bg => Sys2Proof.Machine.execHbmRefresh bg s
  | .lpddrRefresh => Sys2Proof.Machine.execLpddrRefresh s
  | .registerWrite port addr values => Sys2Proof.Machine.execRegisterWrite port addr values s
  | .commitGo port mask => Sys2Proof.Machine.execCommitGo port mask s
  | .eventClear port addr value => Sys2Proof.Machine.execEventClear port addr value s
  | .parityRestore addr copy ok => Sys2Proof.Machine.execParityRestore addr copy ok s
  | .modeProposal mode lead => Sys2Proof.Machine.execModeProposal mode lead s
  | .loadProgram src len => Sys2Proof.Machine.execLoadProgram src len s
  | .loadWeightObject src len => Sys2Proof.Machine.execLoadWeightObject src len s
  | .unload target slot => Sys2Proof.Machine.execUnload target slot s
  | .loadDone facts => Sys2Proof.Machine.execLoadDone facts s
  | .ruleInsert slot position value care word frame => Sys2Proof.Machine.execRuleInsert slot position value care word frame s
  | .ruleDelete slot position frame => Sys2Proof.Machine.execRuleDelete slot position frame s
  | .tcamScrub flips => Sys2Proof.Machine.execTcamScrub flips s
  | .automataAudit bad repaired => Sys2Proof.Machine.execAutomataAudit bad repaired s
  | .cascadeFrame bytes => Sys2Proof.Machine.execCascadeFrame bytes s
  | .cascadeReturn bytes => Sys2Proof.Machine.execCascadeReturn bytes s
  | .cascadeTimeout serial => Sys2Proof.Machine.execCascadeTimeout serial s
  | .createQp qpn image => Sys2Proof.Machine.execCreateQp qpn image s
  | .modifyQp qpn image => Sys2Proof.Machine.execModifyQp qpn image s
  | .destroyQp qpn => Sys2Proof.Machine.execDestroyQp qpn s
  | .readQp qpn => Sys2Proof.Machine.execReadQp qpn s
  | .registerRegion index entry => Sys2Proof.Machine.execRegisterRegion index entry s
  | .deregisterRegion index => Sys2Proof.Machine.execDeregisterRegion index s
  | .pin qpn => Sys2Proof.Machine.execPin qpn s
  | .unpin qpn => Sys2Proof.Machine.execUnpin qpn s
  | .moveSlots first count target => Sys2Proof.Machine.execMoveSlots first count target s
  | .setMembership arg0 arg1 arg2 => Sys2Proof.Machine.execSetMembership arg0 arg1 arg2 s
  | .setClass cls slice => Sys2Proof.Machine.execSetClass cls slice s
  | .setSlice slice arg => Sys2Proof.Machine.execSetSlice slice arg s
  | .drain id => Sys2Proof.Machine.execDrain id s
  | .retire id => Sys2Proof.Machine.execRetire id s
  | .standIn id => Sys2Proof.Machine.execStandIn id s
  | .returnNode id => Sys2Proof.Machine.execReturnNode id s
  | .clearLoss first count => Sys2Proof.Machine.execClearLoss first count s
  | .declareDead id => Sys2Proof.Machine.execDeclareDead id s
  | .attestQueue nonce => Sys2Proof.Machine.execAttestQueue nonce s
  | .actOnToken facts => Sys2Proof.Machine.execActOnToken facts s
  | .reportDelivery => Sys2Proof.Machine.execReportDelivery s
  | .flashRead port addr lenM1 => Sys2Proof.Machine.execFlashRead port addr lenM1 s
  | .flashErase port addr => Sys2Proof.Machine.execFlashErase port addr s
  | .flashProgram port addr lenM1 => Sys2Proof.Machine.execFlashProgram port addr lenM1 s
  | .flashDone => Sys2Proof.Machine.execFlashDone s
  | .flashDeviceTimeout => Sys2Proof.Machine.execFlashDeviceTimeout s
  | .i3cEntdaa addr => Sys2Proof.Machine.execI3cEntdaa addr s
  | .dbell hdr fn ctx index => Sys2Proof.Machine.execDbell hdr fn ctx index s
  | .nwr hdr fn tag addr data => Sys2Proof.Machine.execNwr hdr fn tag addr data s
  | .nrd hdr fn tag addr count ecc => Sys2Proof.Machine.execNrd hdr fn tag addr count ecc s
  | .hostCompletion hdr tag status data => Sys2Proof.Machine.execHostCompletion hdr tag status data s
  | .hostReadTimeout tag => Sys2Proof.Machine.execHostReadTimeout tag s
  | .hostNak hdr => Sys2Proof.Machine.execHostNak hdr s
  | .hostResendTimeout => Sys2Proof.Machine.execHostResendTimeout s
  | .msgModeration ring => Sys2Proof.Machine.execMsgModeration ring s
  | .evidenceRingWrite => Sys2Proof.Machine.execEvidenceRingWrite s
  | .linkSignalDetect link => Sys2Proof.Machine.execLinkSignalDetect link s
  | .linkTrainDone link lowOk highOk => Sys2Proof.Machine.execLinkTrainDone link lowOk highOk s
  | .linkAlignDone link partner partnerLink fabric => Sys2Proof.Machine.execLinkAlignDone link partner partnerLink fabric s
  | .hs1 link m => Sys2Proof.Machine.execHs1 link m s
  | .hs2 link m => Sys2Proof.Machine.execHs2 link m s
  | .hs3 link m => Sys2Proof.Machine.execHs3 link m s
  | .linkStateTimeout link => Sys2Proof.Machine.execLinkStateTimeout link s
  | .laneLockLoss link => Sys2Proof.Machine.execLaneLockLoss link s
  | .dataFrame link f => Sys2Proof.Machine.execDataFrame link f s
  | .idleFrame link f => Sys2Proof.Machine.execIdleFrame link f s
  | .linkResendTimeout link => Sys2Proof.Machine.execLinkResendTimeout link s
  | .frameTransmit link => Sys2Proof.Machine.execFrameTransmit link s
  | .directionHoldExpiry dir => Sys2Proof.Machine.execDirectionHoldExpiry dir s
  | .transportAck p => Sys2Proof.Machine.execTransportAck p s
  | .transportNak p => Sys2Proof.Machine.execTransportNak p s
  | .transportNotReady p => Sys2Proof.Machine.execTransportNotReady p s
  | .notReadyWaitExpiry qpn => Sys2Proof.Machine.execNotReadyWaitExpiry qpn s
  | .transportResponse p => Sys2Proof.Machine.execTransportResponse p s
  | .qpRetryTimeout qpn => Sys2Proof.Machine.execQpRetryTimeout qpn s
  | .append arr msg => Sys2Proof.Machine.execAppend arr msg s
  | .attend arr msg => Sys2Proof.Machine.execAttend arr msg s
  | .appendAttend arr msg => Sys2Proof.Machine.execAppendAttend arr msg s
  | .verify arr msg => Sys2Proof.Machine.execVerify arr msg s
  | .commit arr msg => Sys2Proof.Machine.execCommit arr msg s
  | .bind arr msg => Sys2Proof.Machine.execBind arr msg s
  | .publish arr msg => Sys2Proof.Machine.execPublish arr msg s
  | .unpublish arr msg => Sys2Proof.Machine.execUnpublish arr msg s
  | .release arr msg => Sys2Proof.Machine.execRelease arr msg s
  | .spanWork arr msg => Sys2Proof.Machine.execSpanWork arr msg s
  | .run arr msg => Sys2Proof.Machine.execRun arr msg s
  | .projectAttend arr msg => Sys2Proof.Machine.execProjectAttend arr msg s
  | .rread arr msg => Sys2Proof.Machine.execRread arr msg s
  | .rwrite arr msg => Sys2Proof.Machine.execRwrite arr msg s
  | .rwriteTiles arr msg => Sys2Proof.Machine.execRwriteTiles arr msg s
  | .attest arr msg => Sys2Proof.Machine.execAttest arr msg s
  | .badOpcode arr msg => Sys2Proof.Machine.execBadOpcode arr msg s
  | .calendarRelease cls => Sys2Proof.Machine.execCalendarRelease cls s
  | .sharedRelease => Sys2Proof.Machine.execSharedRelease s
  | .tableReadDone rid outcome => Sys2Proof.Machine.execTableReadDone rid outcome s
  | .attendBurst unit => Sys2Proof.Machine.execAttendBurst unit s
  | .scrubBurst unit flips => Sys2Proof.Machine.execScrubBurst unit flips s
  | .moveBurst unit flips => Sys2Proof.Machine.execMoveBurst unit flips s
  | .burstResume unit => Sys2Proof.Machine.execBurstResume unit s
  | .urgentPreempt unit => Sys2Proof.Machine.execUrgentPreempt unit s
  | .ordinaryAccess unit source isWrite addr data => Sys2Proof.Machine.execOrdinaryAccess unit source isWrite addr data s
  | .accessWindow unit n => Sys2Proof.Machine.execAccessWindow unit n s
  | .vesperReturnRecord unit flips wrong => Sys2Proof.Machine.execVesperReturnRecord unit flips wrong s
  | .tileRereadDone rid flips => Sys2Proof.Machine.execTileRereadDone rid flips s
  | .returnRecordMissing unit => Sys2Proof.Machine.execReturnRecordMissing unit s
  | .oldLocationFree id => Sys2Proof.Machine.execOldLocationFree id s
  | .provisionalExpiry tenant sid layer => Sys2Proof.Machine.execProvisionalExpiry tenant sid layer s
  | .reservationDone rid => Sys2Proof.Machine.execReservationDone rid s
  | .reservationTimeout rid => Sys2Proof.Machine.execReservationTimeout rid s
  | .spareTailGrant rid => Sys2Proof.Machine.execSpareTailGrant rid s
  | .spareWaitTimeout rid => Sys2Proof.Machine.execSpareWaitTimeout rid s
  | .stallResume rid => Sys2Proof.Machine.execStallResume rid s
  | .replySend rid => Sys2Proof.Machine.execReplySend rid s
  | .tier1Patrol addr outcome => Sys2Proof.Machine.execTier1Patrol addr outcome s
  | .weightRepairTimeout obj tile => Sys2Proof.Machine.execWeightRepairTimeout obj tile s
  | .sramRefillDone obj tile how => Sys2Proof.Machine.execSramRefillDone obj tile how s
  | .segmentEnd group => Sys2Proof.Machine.execSegmentEnd group s
  | .stepIn core w => Sys2Proof.Machine.execStepIn core w s
  | .stepOut core w => Sys2Proof.Machine.execStepOut core w s
  | .matmul core w => Sys2Proof.Machine.execMatmul core w s
  | .add core w => Sys2Proof.Machine.execAdd core w s
  | .mul core w => Sys2Proof.Machine.execMul core w s
  | .rmsnorm core w => Sys2Proof.Machine.execRmsnorm core w s
  | .layernorm core w => Sys2Proof.Machine.execLayernorm core w s
  | .funcSigmoid core w => Sys2Proof.Machine.execFuncSigmoid core w s
  | .funcTanh core w => Sys2Proof.Machine.execFuncTanh core w s
  | .funcGelu core w => Sys2Proof.Machine.execFuncGelu core w s
  | .funcSilu core w => Sys2Proof.Machine.execFuncSilu core w s
  | .funcExp2 core w => Sys2Proof.Machine.execFuncExp2 core w s
  | .quantDyn core w => Sys2Proof.Machine.execQuantDyn core w s
  | .quantStatic core w => Sys2Proof.Machine.execQuantStatic core w s
  | .rope core w => Sys2Proof.Machine.execRope core w s
  | .sync core w => Sys2Proof.Machine.execSync core w s
  | .matchStep core w => Sys2Proof.Machine.execMatchStep core w s
  | .seg core w => Sys2Proof.Machine.execSeg core w s
  | .endStep core w => Sys2Proof.Machine.execEndStep core w s
  | .hello link h inEffect committed digest16 state bare t1 timeBits lg14 => Sys2Proof.Machine.execHello link h inEffect committed digest16 state bare t1 timeBits lg14 s
  | .lease h frame gen => Sys2Proof.Machine.execLease h frame gen s
  | .heartbeat h committed => Sys2Proof.Machine.execHeartbeat h committed s
  | .electionTimeout => Sys2Proof.Machine.execElectionTimeout s
  | .electionBackoff => Sys2Proof.Machine.execElectionBackoff s
  | .voteReq h lastAccepted => Sys2Proof.Machine.execVoteReq h lastAccepted s
  | .vote h granted => Sys2Proof.Machine.execVote h granted s
  | .propose h changes => Sys2Proof.Machine.execPropose h changes s
  | .prepare h eff changes digest => Sys2Proof.Machine.execPrepare h eff changes digest s
  | .accept h digest => Sys2Proof.Machine.execAccept h digest s
  | .mapCommit link h eff changes digest => Sys2Proof.Machine.execMapCommit link h eff changes digest s
  | .refuse h serial code => Sys2Proof.Machine.execRefuse h serial code s
  | .proposalTimeout => Sys2Proof.Machine.execProposalTimeout s
  | .fetch h wanted offset => Sys2Proof.Machine.execFetch h wanted offset s
  | .mapPart h offset last m => Sys2Proof.Machine.execMapPart h offset last m s
  | .suspect h id minutes => Sys2Proof.Machine.execSuspect h id minutes s
  | .suspectTimeout partner => Sys2Proof.Machine.execSuspectTimeout partner s
  | .join h identOk ident x y z tray slot => Sys2Proof.Machine.execJoin h identOk ident x y z tray slot s
  | .sequenceTransfer src r => Sys2Proof.Machine.execSequenceTransfer src r s
  | .marginVoltageMove => Sys2Proof.Machine.execMarginVoltageMove s
  | .watchdogKick core => Sys2Proof.Machine.execWatchdogKick core s
  | .watchdogFire core => Sys2Proof.Machine.execWatchdogFire core s
  | .replayDone digest => Sys2Proof.Machine.execReplayDone digest s
  | .powerOn feedB oscDly i3cSa flashHold => Sys2Proof.Machine.execPowerOn feedB oscDly i3cSa flashHold s
  | .oscDelayExpiry => Sys2Proof.Machine.execOscDelayExpiry s
  | .resetRelease oscDly i3cSa flashHold => Sys2Proof.Machine.execResetRelease oscDly i3cSa flashHold s
  | .resetAssert => Sys2Proof.Machine.execResetAssert s
  | .sunriseStepEnd facts => Sys2Proof.Machine.execSunriseStepEnd facts s
  | .service => Sys2Proof.Machine.execService s
  | .feedInvalid feedB => Sys2Proof.Machine.execFeedInvalid feedB s
  | .feedValid feedB => Sys2Proof.Machine.execFeedValid feedB s
  | .feedLossShutdown => Sys2Proof.Machine.execFeedLossShutdown s
  | .railFault rail => Sys2Proof.Machine.execRailFault rail s
  | .peak => Sys2Proof.Machine.execPeak s
  | .refclkLoss => Sys2Proof.Machine.execRefclkLoss s
  | .pllUnlock pll => Sys2Proof.Machine.execPllUnlock pll s
  | .twilightExit => Sys2Proof.Machine.execTwilightExit s
  | .xtalLoss => Sys2Proof.Machine.execXtalLoss s
  | .idcode => Sys2Proof.Machine.execIdcode s
  | .bypass bit => Sys2Proof.Machine.execBypass bit s
  | .samplePreload bits => Sys2Proof.Machine.execSamplePreload bits s
  | .extest bits => Sys2Proof.Machine.execExtest bits s
  | .registerRead port addr count => Sys2Proof.Machine.execRegisterRead port addr count s
  | .hostIdlePacket hdr => Sys2Proof.Machine.execHostIdlePacket hdr s
  | .hostBadPacket outOfOrder => Sys2Proof.Machine.execHostBadPacket outOfOrder s
  | .xtalReturn => Sys2Proof.Machine.execXtalReturn s
  | .pageCopyDone id flips => Sys2Proof.Machine.execPageCopyDone id flips s
  | .hubCoreWorkDone rid flips => Sys2Proof.Machine.execHubCoreWorkDone rid flips s
  | .privateTestInstruction code => Sys2Proof.Machine.execPrivateTestInstruction code s

end Sys2Proof.Machine
end

