-- ==== Sys2Proof/Machine/Step.lean ====
section
/-!
DEFINITION. One step: the command at the front of the queue takes effect on the rest; with no command waiting, one tick of Meridian passes (R29; log 21).
-/

namespace Sys2Proof.Machine

open Sys2Proof

/-- With no command waiting one tick passes: the count advances by it and by what slewing moves it in it, at most 16 parts in 160,000 of a tick either way, and never runs back (R29, R38; logs 21, 52). -/
def State.tick (s : State) : State := s.slewOn.countOn

/-- Take the front command and run it with the queue's rest. -/
def step (s : State) : Host.Outcome State Fault Refusal :=
  match s.pending with
  | [] => .next s.tick
  | c :: rest => exec c { s with pending := rest }

/-- Put the command that a table word spells at the front of the queue; a word that spells none changes nothing. -/
def State.withFetchWord (s : State) (nbits w : Nat) : State :=
  match decodeTableWord nbits w with
  | none => s
  | some c => { s with pending := c :: s.pending }

end Sys2Proof.Machine
end

