-- ==== Sys2Proof/Safety.lean ====
section
/-!
DEFINITION. The terms in which claims are stated: canonical forms of memory and registers, the invariant every step keeps, and a step that stops.
-/

namespace Sys2Proof.Machine

open Sys2Proof

/-- Keys of a list of pairs rise strictly. -/
def keysRise {α : Type} : List (Nat × α) → Bool
  | [] => true
  | [_] => true
  | p :: q :: t => decide (p.1 < q.1) && keysRise (q :: t)

/-- A table of register values is canonical: addresses rise, no entry holds its register's reset value, every value has 32 bits (R386, R418). -/
def regsCanonical (l : List (Nat × Nat)) : Bool := keysRise l && l.all (fun p => decide (p.2 ≠ resetOf p.1) && decide (p.2 < pow2 32))

/-- A table of counts is canonical: addresses rise, no entry is zero, every count has 32 bits (R41). -/
def countsCanonical (l : List (Nat × Nat)) : Bool := keysRise l && l.all (fun p => decide (p.2 ≠ 0) && decide (p.2 < pow2 32))

/-- Flash is canonical: addresses rise, no entry reads as erased, every value is a byte (R398). -/
def flashCanonical (l : List (Nat × Nat)) : Bool := keysRise l && l.all (fun p => decide (p.2 ≠ 255) && decide (p.2 < 256))

/-- The invariant: the register file, the running counts, flat memory and the flash hold the one form that equal contents have. -/
def State.Inv (s : State) : Prop :=
  regsCanonical s.regs.live = true ∧ regsCanonical s.regs.staged = true ∧ countsCanonical s.regs.run = true ∧
  Memory.wf s.mem.flat = true ∧ flashCanonical s.sys.flash = true

/-- Between s and t only live register values differ. -/
def OnlyLive (s t : State) : Prop := t = { s with regs := { s.regs with live := t.regs.live } }

/-- Between s and t only what recording an event changes differs: live register values, and the summary message it may owe or send (R392, R421). -/
def OnlySignals (s t : State) : Prop :=
  t = { s with
    regs := { s.regs with live := t.regs.live }
    sys := { s.sys with sumMsg := t.sys.sumMsg, sumOwed := t.sys.sumOwed }
    hst := t.hst
    outbox := t.outbox }

/-- Between s and t only the Wecia Link's sending side and the outbox differ (R373–R376). -/
def OnlyHost (s t : State) : Prop := t = { s with hst := t.hst, outbox := t.outbox }

/-- Every register but those of a list reads in t as in s. -/
def SameRegsBut (as : List Nat) (s t : State) : Prop := ∀ a, a ∉ as → t.live a = s.live a

/-- The parts of the state. -/
inductive Blk where
  /-- The count. -/
  | now
  /-- Live register values. -/
  | live
  /-- Staged register values. -/
  | staged
  /-- Running counts. -/
  | run
  /-- Pending register values. -/
  | pend
  /-- Copies whose parity is bad. -/
  | parity
  /-- Command registers written. -/
  | written
  /-- Fabric time. -/
  | time
  /-- Walker. -/
  | pgw
  /-- Admission and requests. -/
  | sch
  /-- Queue pairs. -/
  | que
  /-- Vesper units. -/
  | vsp
  /-- Tiers. -/
  | mem
  /-- Programs. -/
  | prog
  /-- Match engine. -/
  | mat
  /-- Links. -/
  | lnk
  /-- Map agent. -/
  | map
  /-- Health. -/
  | hlt
  /-- Security. -/
  | sec
  /-- Wecia Link. -/
  | hst
  /-- Start-up, power, clocks, flash, test port, but for the summary message. -/
  | sys
  /-- The summary message sent or owed. -/
  | sum
  /-- What has been handed out. -/
  | outbox
  /-- Free values drawn. -/
  | freeCtr
  deriving DecidableEq, Repr

/-- A part is the same in two states. -/
def Blk.Same (s t : State) : Blk → Prop
  | .now => t.now = s.now
  | .live => t.regs.live = s.regs.live
  | .staged => t.regs.staged = s.regs.staged
  | .run => t.regs.run = s.regs.run
  | .pend => t.regs.pend = s.regs.pend
  | .parity => t.regs.badParity = s.regs.badParity
  | .written => t.regs.written = s.regs.written
  | .time => t.time = s.time
  | .pgw => t.pgw = s.pgw
  | .sch => t.sch = s.sch
  | .que => t.que = s.que
  | .vsp => t.vsp = s.vsp
  | .mem => t.mem = s.mem
  | .prog => t.prog = s.prog
  | .mat => t.mat = s.mat
  | .lnk => t.lnk = s.lnk
  | .map => t.map = s.map
  | .hlt => t.hlt = s.hlt
  | .sec => t.sec = s.sec
  | .hst => t.hst = s.hst
  | .sys => { t.sys with sumMsg := s.sys.sumMsg, sumOwed := s.sys.sumOwed } = s.sys
  | .sum => t.sys.sumMsg = s.sys.sumMsg ∧ t.sys.sumOwed = s.sys.sumOwed
  | .outbox => t.outbox = s.outbox
  | .freeCtr => t.freeCtr = s.freeCtr

/-- From s to t only the parts m differ. -/
def OnlyParts (m : List Blk) (s t : State) : Prop := ∀ k, k ∉ m → Blk.Same s t k

/-- The parts of the state that each command may change, whatever its operands and the state it meets. -/
def partsOf (i : Instr) : List Blk :=
  match i with
  | .ppsInEdge _ => [.now, .live, .run, .time, .pgw, .sch, .que, .vsp, .mem, .prog, .mat, .lnk, .map, .hlt, .sec, .hst, .sum, .outbox, .freeCtr]
  | .ppsMissing => [.now, .live, .run, .time, .pgw, .sch, .que, .vsp, .mem, .prog, .mat, .lnk, .map, .hlt, .sec, .hst, .sum, .outbox, .freeCtr]
  | .timeInMessage _ _ => [.now, .live, .run, .time, .pgw, .sch, .que, .vsp, .mem, .prog, .mat, .lnk, .map, .hlt, .sec, .hst, .sum, .outbox, .freeCtr]
  | .timeInLoss => [.now, .live, .run, .time, .pgw, .sch, .que, .vsp, .mem, .prog, .mat, .lnk, .map, .hlt, .sec, .hst, .sum, .outbox, .freeCtr]
  | .timeFrame _ _ _ _ => [.now, .live, .run, .pend, .parity, .time, .pgw, .sch, .que, .vsp, .mem, .prog, .mat, .lnk, .map, .hlt, .sec, .hst, .sum, .outbox, .freeCtr]
  | .minuteStart _ => [.now, .live, .staged, .run, .pend, .parity, .written, .time, .pgw, .sch, .que, .vsp, .mem, .prog, .mat, .lnk, .map, .hlt, .sec, .hst, .sys, .sum, .outbox, .freeCtr]
  | .midnight _ => [.now, .live, .run, .pend, .parity, .time, .pgw, .sch, .que, .vsp, .mem, .prog, .mat, .lnk, .map, .hlt, .sec, .hst, .sys, .sum, .outbox, .freeCtr]
  | .modeClockSwitch => [.now, .live, .time]
  | .hbmRefresh _ => [.time]
  | .lpddrRefresh => [.time]
  | .registerWrite _ _ _ => [.live, .staged, .run, .pend, .parity, .written, .time, .pgw, .sch, .que, .vsp, .mem, .prog, .mat, .lnk, .map, .hlt, .sec, .hst, .sys, .sum, .outbox, .freeCtr]
  | .commitGo _ _ => [.live, .staged, .run, .pend, .parity, .written, .time, .pgw, .sch, .que, .vsp, .mem, .prog, .mat, .lnk, .map, .hlt, .sec, .hst, .sys, .sum, .outbox, .freeCtr]
  | .eventClear _ _ _ => [.live, .staged, .run, .pend, .parity, .written, .time, .pgw, .sch, .que, .vsp, .mem, .prog, .mat, .lnk, .map, .hlt, .sec, .hst, .sys, .sum, .outbox, .freeCtr]
  | .parityRestore _ _ _ => [.live, .run, .parity, .pgw, .sch, .que, .vsp, .mem, .prog, .mat, .lnk, .map, .hlt, .sec, .hst, .sum, .outbox, .freeCtr]
  | .modeProposal _ _ => [.live, .staged, .map, .hst, .sum, .outbox]
  | .loadProgram _ _ => [.live, .staged, .prog, .hst, .sum, .outbox]
  | .loadWeightObject _ _ => [.live, .staged, .prog, .hst, .sum, .outbox]
  | .unload _ _ => [.live, .staged, .prog, .hst, .sum, .outbox]
  | .loadDone _ => [.live, .pgw, .mem, .prog, .mat, .hst, .sum, .outbox]
  | .ruleInsert _ _ _ _ _ _ => [.live, .staged, .mat]
  | .ruleDelete _ _ _ => [.live, .staged, .mat]
  | .tcamScrub _ => [.live, .run, .mat, .hst, .sum, .outbox]
  | .automataAudit _ _ => [.live, .run, .pgw, .sch, .que, .mem, .prog, .mat, .lnk, .hst, .sum, .outbox, .freeCtr]
  | .cascadeFrame _ => [.live, .mat, .hst, .sum, .outbox]
  | .cascadeReturn _ => [.live, .run, .prog, .mat, .hst, .sum, .outbox]
  | .cascadeTimeout _ => [.now, .live, .run, .prog, .mat, .hst, .sum, .outbox]
  | .createQp _ _ => [.live, .staged, .run, .que, .lnk, .hst, .sum, .outbox]
  | .modifyQp _ _ => [.live, .staged, .run, .que, .lnk, .hst, .sum, .outbox]
  | .destroyQp _ => [.live, .staged, .run, .que, .lnk, .hst, .sum, .outbox]
  | .readQp _ => [.live, .staged, .run, .que, .lnk, .hst, .sum, .outbox]
  | .registerRegion _ _ => [.live, .staged, .run, .que, .lnk, .hst, .sum, .outbox]
  | .deregisterRegion _ => [.live, .staged, .run, .que, .lnk, .hst, .sum, .outbox]
  | .pin _ => [.live, .staged, .run, .que, .lnk, .hst, .sum, .outbox]
  | .unpin _ => [.live, .staged, .run, .que, .lnk, .hst, .sum, .outbox]
  | .moveSlots _ _ _ => [.live, .staged, .map, .hst, .sum, .outbox]
  | .setMembership _ _ _ => [.live, .staged, .map, .hst, .sum, .outbox]
  | .setClass _ _ => [.live, .staged, .map, .hst, .sum, .outbox]
  | .setSlice _ _ => [.live, .staged, .map, .hst, .sum, .outbox]
  | .drain _ => [.live, .staged, .map, .hst, .sum, .outbox]
  | .retire _ => [.live, .staged, .map, .hst, .sum, .outbox]
  | .standIn _ => [.live, .staged, .map, .hst, .sum, .outbox]
  | .returnNode _ => [.live, .staged, .map, .hst, .sum, .outbox]
  | .clearLoss _ _ => [.live, .staged, .map, .hst, .sum, .outbox]
  | .declareDead _ => [.live, .staged, .map, .hst, .sum, .outbox]
  | .attestQueue _ => [.live, .staged, .sec]
  | .actOnToken _ => [.live, .staged, .run, .pend, .parity, .pgw, .sch, .que, .vsp, .mem, .prog, .mat, .lnk, .map, .hlt, .sec, .hst, .sum, .outbox, .freeCtr]
  | .reportDelivery => [.now, .live, .run, .sch, .sec, .hst, .sys, .sum, .outbox]
  | .flashRead _ _ _ => [.live, .staged, .run, .pend, .parity, .written, .time, .pgw, .sch, .que, .vsp, .mem, .prog, .mat, .lnk, .map, .hlt, .sec, .hst, .sys, .sum, .outbox, .freeCtr]
  | .flashErase _ _ => [.live, .staged, .run, .pend, .parity, .written, .time, .pgw, .sch, .que, .vsp, .mem, .prog, .mat, .lnk, .map, .hlt, .sec, .hst, .sys, .sum, .outbox, .freeCtr]
  | .flashProgram _ _ _ => [.live, .staged, .run, .pend, .parity, .written, .time, .pgw, .sch, .que, .vsp, .mem, .prog, .mat, .lnk, .map, .hlt, .sec, .hst, .sys, .sum, .outbox, .freeCtr]
  | .flashDone => [.live, .hst, .sys, .sum, .outbox]
  | .flashDeviceTimeout => [.live, .hst, .sys, .sum, .outbox]
  | .i3cEntdaa _ => [.hst]
  | .dbell _ _ _ _ => [.live, .run, .que, .lnk, .hst, .sum, .outbox]
  | .nwr _ _ _ _ _ => [.now, .live, .run, .pgw, .sch, .que, .vsp, .mem, .prog, .mat, .lnk, .hlt, .hst, .sum, .outbox, .freeCtr]
  | .nrd _ _ _ _ _ _ => [.now, .live, .run, .pgw, .sch, .que, .vsp, .mem, .prog, .mat, .lnk, .hlt, .hst, .sum, .outbox, .freeCtr]
  | .hostCompletion _ _ _ _ => [.now, .live, .staged, .run, .pgw, .sch, .que, .vsp, .mem, .prog, .mat, .lnk, .hlt, .sec, .hst, .sum, .outbox, .freeCtr]
  | .hostReadTimeout _ => [.now, .live, .run, .pgw, .sch, .que, .vsp, .mem, .prog, .mat, .lnk, .hst, .sum, .outbox, .freeCtr]
  | .hostNak _ => [.live, .run, .que, .lnk, .hst, .sum, .outbox]
  | .hostResendTimeout => [.now, .live, .run, .hst, .sum, .outbox]
  | .msgModeration _ => [.now, .que, .hst, .outbox]
  | .evidenceRingWrite => [.que, .hlt, .hst, .outbox]
  | .linkSignalDetect _ => [.live, .run, .pend, .parity, .lnk, .hlt, .hst, .sum, .outbox]
  | .linkTrainDone _ _ _ => [.live, .run, .pend, .parity, .lnk, .hlt, .sec, .hst, .sum, .outbox]
  | .linkAlignDone _ _ _ _ => [.live, .run, .pend, .parity, .lnk, .hlt, .sec, .hst, .sum, .outbox]
  | .hs1 _ _ => [.live, .run, .pend, .parity, .lnk, .map, .hlt, .sec, .hst, .sum, .outbox]
  | .hs2 _ _ => [.live, .run, .pend, .parity, .lnk, .hlt, .hst, .sum, .outbox]
  | .hs3 _ _ => [.live, .run, .pend, .parity, .lnk, .hlt, .sec, .hst, .sum, .outbox]
  | .linkStateTimeout _ => [.live, .run, .pend, .parity, .lnk, .hlt, .hst, .sum, .outbox]
  | .laneLockLoss _ => [.live, .run, .pend, .parity, .lnk, .hlt, .hst, .sum, .outbox]
  | .dataFrame _ _ => [.live, .run, .pend, .parity, .lnk, .hlt, .hst, .sum, .outbox, .freeCtr]
  | .idleFrame _ _ => [.live, .run, .pend, .parity, .lnk, .hlt, .hst, .sum, .outbox, .freeCtr]
  | .linkResendTimeout _ => [.now, .live, .run, .pend, .parity, .lnk, .hlt, .hst, .sum, .outbox]
  | .frameTransmit _ => [.run, .lnk, .outbox, .freeCtr]
  | .directionHoldExpiry _ => [.now, .live, .run, .lnk, .hst, .sum, .outbox]
  | .transportAck _ => [.live, .run, .que, .lnk, .hst, .sum, .outbox]
  | .transportNak _ => [.live, .run, .pgw, .sch, .que, .vsp, .mem, .prog, .mat, .lnk, .sec, .hst, .sum, .outbox, .freeCtr]
  | .transportNotReady _ => [.live, .run, .que, .lnk, .hst, .sum, .outbox]
  | .notReadyWaitExpiry _ => [.now, .live, .run, .que, .lnk, .hst, .sum, .outbox]
  | .transportResponse _ => [.live, .run, .pgw, .sch, .que, .vsp, .mem, .prog, .mat, .lnk, .sec, .hst, .sum, .outbox, .freeCtr]
  | .qpRetryTimeout _ => [.now, .live, .run, .pgw, .sch, .que, .vsp, .mem, .prog, .mat, .lnk, .sec, .hst, .sum, .outbox, .freeCtr]
  | .append _ _ => [.now, .live, .run, .pgw, .sch, .que, .vsp, .mem, .prog, .mat, .lnk, .hlt, .hst, .sum, .outbox, .freeCtr]
  | .attend _ _ => [.now, .live, .run, .pgw, .sch, .que, .vsp, .mem, .prog, .mat, .lnk, .hlt, .hst, .sum, .outbox, .freeCtr]
  | .appendAttend _ _ => [.now, .live, .run, .pgw, .sch, .que, .vsp, .mem, .prog, .mat, .lnk, .hlt, .hst, .sum, .outbox, .freeCtr]
  | .verify _ _ => [.now, .live, .run, .pgw, .sch, .que, .vsp, .mem, .prog, .mat, .lnk, .hlt, .hst, .sum, .outbox, .freeCtr]
  | .commit _ _ => [.now, .live, .run, .pgw, .sch, .que, .vsp, .mem, .prog, .mat, .lnk, .hlt, .hst, .sum, .outbox, .freeCtr]
  | .bind _ _ => [.now, .live, .run, .pgw, .sch, .que, .vsp, .mem, .prog, .mat, .lnk, .hlt, .hst, .sum, .outbox, .freeCtr]
  | .publish _ _ => [.now, .live, .run, .pgw, .sch, .que, .vsp, .mem, .prog, .mat, .lnk, .hlt, .hst, .sum, .outbox, .freeCtr]
  | .unpublish _ _ => [.now, .live, .run, .pgw, .sch, .que, .vsp, .mem, .prog, .mat, .lnk, .hlt, .hst, .sum, .outbox, .freeCtr]
  | .release _ _ => [.now, .live, .run, .pgw, .sch, .que, .vsp, .mem, .prog, .mat, .lnk, .hlt, .hst, .sum, .outbox, .freeCtr]
  | .spanWork _ _ => [.now, .live, .run, .pgw, .sch, .que, .vsp, .mem, .prog, .mat, .lnk, .hlt, .hst, .sum, .outbox, .freeCtr]
  | .run _ _ => [.now, .live, .run, .pgw, .sch, .que, .vsp, .mem, .prog, .mat, .lnk, .hlt, .hst, .sum, .outbox, .freeCtr]
  | .projectAttend _ _ => [.now, .live, .run, .pgw, .sch, .que, .vsp, .mem, .prog, .mat, .lnk, .hlt, .hst, .sum, .outbox, .freeCtr]
  | .rread _ _ => [.now, .live, .run, .pgw, .sch, .que, .vsp, .mem, .prog, .mat, .lnk, .hlt, .hst, .sum, .outbox, .freeCtr]
  | .rwrite _ _ => [.now, .live, .run, .pgw, .sch, .que, .vsp, .mem, .prog, .mat, .lnk, .hlt, .hst, .sum, .outbox, .freeCtr]
  | .rwriteTiles _ _ => [.now, .live, .run, .pgw, .sch, .que, .vsp, .mem, .prog, .mat, .lnk, .hlt, .hst, .sum, .outbox, .freeCtr]
  | .attest _ _ => [.now, .live, .run, .pgw, .sch, .que, .vsp, .mem, .prog, .mat, .lnk, .hlt, .hst, .sum, .outbox, .freeCtr]
  | .badOpcode _ _ => [.now, .live, .run, .pgw, .sch, .que, .vsp, .mem, .prog, .mat, .lnk, .hlt, .hst, .sum, .outbox, .freeCtr]
  | .calendarRelease _ => [.live, .run, .pgw, .sch, .que, .vsp, .mem, .prog, .mat, .lnk, .sec, .hst, .sum, .outbox, .freeCtr]
  | .sharedRelease => [.live, .run, .pgw, .sch, .que, .vsp, .mem, .prog, .mat, .lnk, .sec, .hst, .sum, .outbox, .freeCtr]
  | .tableReadDone _ _ => [.live, .run, .pgw, .sch, .vsp, .mem, .prog, .mat, .hst, .sum, .outbox]
  | .attendBurst _ => [.now, .live, .run, .sch, .vsp, .hst, .sum, .outbox]
  | .scrubBurst _ _ => [.now, .live, .run, .pgw, .sch, .que, .vsp, .mem, .prog, .mat, .lnk, .hlt, .hst, .sum, .outbox, .freeCtr]
  | .moveBurst _ _ => [.now, .live, .run, .vsp, .hst, .sum, .outbox]
  | .burstResume _ => [.now, .live, .run, .vsp, .hst, .sum, .outbox]
  | .urgentPreempt _ => [.now, .live, .run, .sch, .vsp, .hst, .sum, .outbox]
  | .ordinaryAccess _ _ _ _ _ => [.live, .run, .pgw, .sch, .que, .vsp, .mem, .prog, .mat, .lnk, .hlt, .hst, .sum, .outbox, .freeCtr]
  | .accessWindow _ _ => [.now, .live, .run, .pgw, .sch, .que, .vsp, .mem, .prog, .mat, .lnk, .hlt, .hst, .sum, .outbox, .freeCtr]
  | .vesperReturnRecord _ _ _ => [.now, .live, .run, .pgw, .sch, .que, .vsp, .mem, .prog, .mat, .lnk, .hlt, .hst, .sum, .outbox, .freeCtr]
  | .tileRereadDone _ _ => [.now, .live, .run, .pgw, .sch, .que, .vsp, .mem, .prog, .mat, .lnk, .hlt, .hst, .sum, .outbox, .freeCtr]
  | .returnRecordMissing _ => [.now, .live, .run, .sch, .vsp, .hlt, .hst, .sum, .outbox]
  | .oldLocationFree _ => [.mem]
  | .provisionalExpiry _ _ _ => [.now, .pgw]
  | .reservationDone _ => [.live, .run, .pgw, .sch, .mem, .prog, .mat]
  | .reservationTimeout _ => [.now, .live, .run, .pgw, .sch, .mem, .prog, .mat]
  | .spareTailGrant _ => [.live, .run, .pgw, .sch, .que, .vsp, .mem, .prog, .mat, .lnk, .sec, .hst, .sum, .outbox, .freeCtr]
  | .spareWaitTimeout _ => [.now, .live, .run, .pgw, .sch, .que, .vsp, .mem, .prog, .mat, .lnk, .sec, .hst, .sum, .outbox, .freeCtr]
  | .stallResume _ => [.live, .run, .pgw, .sch, .que, .vsp, .mem, .prog, .mat, .lnk, .sec, .hst, .sum, .outbox, .freeCtr]
  | .replySend _ => [.live, .run, .pgw, .sch, .que, .lnk, .hlt, .hst, .sum, .outbox]
  | .tier1Patrol _ _ => [.live, .run, .pgw, .sch, .que, .vsp, .mem, .prog, .mat, .lnk, .hlt, .hst, .sum, .outbox, .freeCtr]
  | .weightRepairTimeout _ _ => [.now, .live, .run, .pgw, .sch, .que, .vsp, .mem, .prog, .mat, .lnk, .sec, .hst, .sum, .outbox, .freeCtr]
  | .sramRefillDone _ _ _ => [.live, .run, .pgw, .sch, .que, .mem, .prog, .mat, .lnk, .hlt, .hst, .sum, .outbox, .freeCtr]
  | .segmentEnd _ => [.live, .run, .pgw, .sch, .que, .vsp, .mem, .prog, .mat, .lnk, .sec, .hst, .sum, .outbox, .freeCtr]
  | .stepIn _ _ => [.prog]
  | .stepOut _ _ => [.prog]
  | .matmul _ _ => [.prog, .freeCtr]
  | .add _ _ => [.prog]
  | .mul _ _ => [.prog]
  | .rmsnorm _ _ => [.prog]
  | .layernorm _ _ => [.prog]
  | .funcSigmoid _ _ => [.prog]
  | .funcTanh _ _ => [.prog]
  | .funcGelu _ _ => [.prog]
  | .funcSilu _ _ => [.prog]
  | .funcExp2 _ _ => [.prog]
  | .quantDyn _ _ => [.run, .prog]
  | .quantStatic _ _ => [.run, .prog]
  | .rope _ _ => [.live, .run, .pgw, .sch, .vsp, .mem, .prog, .mat, .freeCtr]
  | .sync _ _ => [.prog]
  | .matchStep _ _ => [.live, .run, .pgw, .sch, .vsp, .mem, .prog, .mat, .hst, .sum, .outbox]
  | .seg _ _ => [.prog]
  | .endStep _ _ => [.prog]
  | .hello _ _ _ _ _ _ _ _ _ _ => [.live, .run, .pgw, .sch, .que, .vsp, .mem, .prog, .mat, .lnk, .map, .hlt, .sec, .hst, .sum, .outbox, .freeCtr]
  | .lease _ _ _ => [.live, .run, .pgw, .sch, .que, .vsp, .mem, .prog, .mat, .lnk, .map, .hlt, .sec, .hst, .sum, .outbox, .freeCtr]
  | .heartbeat _ _ => [.live, .run, .pgw, .sch, .que, .vsp, .mem, .prog, .mat, .lnk, .map, .hlt, .sec, .hst, .sum, .outbox, .freeCtr]
  | .electionTimeout => [.now, .map]
  | .electionBackoff => [.now, .map, .outbox]
  | .voteReq _ _ => [.live, .run, .pgw, .sch, .que, .vsp, .mem, .prog, .mat, .lnk, .map, .hlt, .sec, .hst, .sum, .outbox, .freeCtr]
  | .vote _ _ => [.live, .run, .pgw, .sch, .que, .vsp, .mem, .prog, .mat, .lnk, .map, .hlt, .sec, .hst, .sum, .outbox, .freeCtr]
  | .propose _ _ => [.live, .run, .pgw, .sch, .que, .vsp, .mem, .prog, .mat, .lnk, .map, .hlt, .sec, .hst, .sum, .outbox, .freeCtr]
  | .prepare _ _ _ _ => [.live, .run, .pgw, .sch, .que, .vsp, .mem, .prog, .mat, .lnk, .map, .hlt, .sec, .hst, .sum, .outbox, .freeCtr]
  | .accept _ _ => [.live, .run, .pgw, .sch, .que, .vsp, .mem, .prog, .mat, .lnk, .map, .hlt, .sec, .hst, .sum, .outbox, .freeCtr]
  | .mapCommit _ _ _ _ _ => [.live, .run, .pgw, .sch, .que, .vsp, .mem, .prog, .mat, .lnk, .map, .hlt, .sec, .hst, .sum, .outbox, .freeCtr]
  | .refuse _ _ _ => [.live, .run, .pgw, .sch, .que, .vsp, .mem, .prog, .mat, .lnk, .map, .hlt, .sec, .hst, .sum, .outbox, .freeCtr]
  | .proposalTimeout => [.now, .live, .map, .hst, .sum, .outbox]
  | .fetch _ _ _ => [.live, .run, .pgw, .sch, .que, .vsp, .mem, .prog, .mat, .lnk, .map, .hlt, .sec, .hst, .sum, .outbox, .freeCtr]
  | .mapPart _ _ _ _ => [.live, .run, .pgw, .sch, .que, .vsp, .mem, .prog, .mat, .lnk, .map, .hlt, .sec, .hst, .sum, .outbox, .freeCtr]
  | .suspect _ _ _ => [.live, .run, .pgw, .sch, .que, .vsp, .mem, .prog, .mat, .lnk, .map, .hlt, .sec, .hst, .sum, .outbox, .freeCtr]
  | .suspectTimeout _ => [.now, .map, .outbox]
  | .join _ _ _ _ _ _ _ _ => [.live, .run, .pgw, .sch, .que, .vsp, .mem, .prog, .mat, .lnk, .map, .hlt, .sec, .hst, .sum, .outbox, .freeCtr]
  | .sequenceTransfer _ _ => [.live, .pgw, .sch, .vsp, .mem, .map, .hst, .sum, .outbox]
  | .marginVoltageMove => [.now, .hlt]
  | .watchdogKick _ => [.hlt]
  | .watchdogFire _ => [.now, .live, .run, .pgw, .sch, .que, .vsp, .mem, .prog, .mat, .lnk, .map, .hlt, .sec, .hst, .sum, .outbox, .freeCtr]
  | .replayDone _ => [.live, .run, .pgw, .sch, .que, .vsp, .mem, .prog, .mat, .lnk, .map, .hlt, .sec, .hst, .sum, .outbox, .freeCtr]
  | .powerOn _ _ _ _ => [.now, .live, .staged, .run, .pend, .parity, .written, .time, .pgw, .sch, .que, .vsp, .mem, .prog, .mat, .lnk, .map, .hlt, .sec, .hst, .sys, .sum]
  | .oscDelayExpiry => [.live, .sys]
  | .resetRelease _ _ _ => [.live, .sys]
  | .resetAssert => [.now, .live, .staged, .run, .pend, .parity, .written, .time, .pgw, .sch, .que, .vsp, .mem, .prog, .mat, .lnk, .map, .hlt, .sec, .hst, .sys, .sum]
  | .sunriseStepEnd _ => [.now, .live, .staged, .run, .pend, .parity, .written, .time, .pgw, .sch, .que, .vsp, .mem, .prog, .mat, .lnk, .map, .hlt, .sec, .hst, .sys, .sum, .outbox, .freeCtr]
  | .service => [.live, .hlt, .sec, .sys, .outbox]
  | .feedInvalid _ => [.live, .hst, .sum, .outbox]
  | .feedValid _ => [.live, .hst, .sum, .outbox]
  | .feedLossShutdown => [.now, .live, .staged, .run, .pend, .parity, .written, .time, .pgw, .sch, .que, .vsp, .mem, .prog, .mat, .lnk, .map, .hlt, .sec, .hst, .sys, .sum]
  | .railFault _ => [.now, .live, .staged, .run, .pend, .parity, .written, .time, .pgw, .sch, .que, .vsp, .mem, .prog, .mat, .lnk, .map, .hlt, .sec, .hst, .sys, .sum]
  | .peak => [.live, .hst, .sum, .outbox]
  | .refclkLoss => [.live, .run, .pend, .parity, .time, .pgw, .sch, .que, .vsp, .mem, .prog, .mat, .lnk, .map, .hlt, .sec, .hst, .sys, .sum, .outbox, .freeCtr]
  | .pllUnlock _ => [.live, .run, .pend, .parity, .time, .pgw, .sch, .que, .vsp, .mem, .prog, .mat, .lnk, .map, .hlt, .sec, .hst, .sys, .sum, .outbox, .freeCtr]
  | .twilightExit => [.live, .run, .pend, .parity, .time, .lnk, .map, .hlt, .hst, .sum, .outbox]
  | .xtalLoss => [.live, .run, .pgw, .sch, .que, .vsp, .mem, .prog, .mat, .lnk, .map, .hlt, .sec, .hst, .sum, .outbox, .freeCtr]
  | .idcode => [.sys, .outbox]
  | .bypass _ => [.sys, .outbox]
  | .samplePreload _ => [.sys, .outbox, .freeCtr]
  | .extest _ => [.sys]
  | .registerRead _ _ _ => [.live, .run, .que, .lnk, .hst, .sum, .outbox]
  | .hostIdlePacket _ => [.live, .run, .que, .lnk, .hst, .sum, .outbox]
  | .hostBadPacket _ => [.live, .run, .que, .lnk, .hst, .sum, .outbox]
  | .xtalReturn => [.live]
  | .pageCopyDone _ _ => [.now, .live, .run, .pgw, .sch, .que, .vsp, .mem, .prog, .mat, .lnk, .hlt, .hst, .sum, .outbox, .freeCtr]
  | .hubCoreWorkDone _ _ => [.now, .live, .run, .pgw, .sch, .que, .vsp, .mem, .prog, .mat, .lnk, .hlt, .hst, .sum, .outbox, .freeCtr]
  | .privateTestInstruction _ => []

/-- The step stops. -/
def State.stops (s : State) : Prop := ∀ t, step s ≠ .next t

/-- The outcome is a next state with a property. -/
def NextWith (o : Host.Outcome State Fault Refusal) (p : State → Prop) : Prop := ∃ t, o = .next t ∧ p t

/-- The command answers a next state that differs from the present one in the parts m alone, leaves the queue as it is, and has a property. -/
def Completes (i : Instr) (s : State) (m : List Blk) (p : State → Prop) : Prop :=
  NextWith (exec i s) (fun t => OnlyParts m s t ∧ t.pending = s.pending ∧ p t)

/-- From s to t exactly these messages were handed out, in order. -/
def Sends (s t : State) (ms : List OutMsg) : Prop := t.outbox = s.outbox ++ ms

/-! ### Terms of the statements about requests (R56, R78, R288–R292, R313) -/

/-- A message comes in on a submission ring of a running node that has not fenced itself. -/
def OnRing (s : State) (arr : Arrival) (q : Qp) : Prop :=
  s.running = true ∧ (∃ i a c, arr.via = .ring i a c) ∧ s.qp (ringBase + arr.ctx) = some q ∧ q.ring = true ∧ q.rkind = 0 ∧ s.fenced = false

/-- Every check from ingress to admission lets a tenant's request on a ring through, its colour green, its sequence at home here. -/
def RingAdmits (s : State) (arr : Arrival) (m : List Byte) (op : Op) (q : Qp) : Prop :=
  OnRing s arr q ∧ opOf (Msg.opcode m) = some op ∧ op ≠ .spanWork ∧ (op = .attest → s.bit Reg.secCfg 4 = true) ∧
  ingressFault op m arr.length = none ∧ Msg.tenant m = q.part ∧ q.part ≠ sysPart ∧ s.mapOk (Msg.mapGen m) = true ∧ s.mode ≠ 3 ∧ dataFault op m = none ∧
  (q.refill s.minutes).colour (256 * (s.costOf op m).1) = .green ∧ 256 * (s.costOf op m).1 ≤ (s.agg q.part).content ∧
  (s.agg q.part).queued + (s.costOf op m).1 ≤ s.fld (Reg.schTenantCfg + 16 * q.part + 8) 19 0 ∧
  s.poolFree q.cls = true ∧ s.evidenceFree q.cls = true ∧
  (op.homed = true → s.homeOf (s.homeSlot (Msg.tenant m) (Msg.sid m) q.cls) = s.map.id)

/-- No bank group that a range of the flat addresses meets has a burst or is in or due a refresh: an access to it waits for nothing (R168). -/
def State.QuietAt (s : State) (a n : Nat) : Prop :=
  ∀ x, a / 64 * 64 ≤ x → x < a + n → x < tier0End → (s.unit (tier0Decode x).1).busy = false ∧ s.refreshDue (tier0Decode x).1 = false

/-- A generation is less than two above the one held, or no map is held: a message that carries it fences nothing (R319). -/
def State.NotBehind (s : State) (gen : Nat) : Prop := s.map.cur = none ∨ gen < s.gen + 2

/-- No context waits to leave the chip or to be fetched (R279). -/
def State.NoneComesOrLeaves (s : State) : Prop := s.que.leaving = [] ∧ s.que.waitFetch = []

/-- The row of the table that a request's message belongs to, with its operation. -/
def requestRows (arr : Arrival) (m : List Byte) : List (Instr × Op × Bool) :=
  let is (n : Nat) : Bool := Msg.opcode m == n
  [(.append arr m, .append, is 0x01), (.attend arr m, .attend, is 0x02), (.appendAttend arr m, .appendAttend, is 0x03), (.verify arr m, .verify, is 0x04),
   (.commit arr m, .commit, is 0x05), (.bind arr m, .prefixBind, is 0x06 && byteAt m 40 != 1 && byteAt m 40 != 2),
   (.publish arr m, .prefixBind, is 0x06 && byteAt m 40 == 1), (.unpublish arr m, .prefixBind, is 0x06 && byteAt m 40 == 2),
   (.release arr m, .release, is 0x07), (.attest arr m, .attest, is 0x08), (.run arr m, .run, is 0x20), (.projectAttend arr m, .projectAttend, is 0x21)]

end Sys2Proof.Machine
end

