-- ==== Sys2Proof/Certificates/Slice0/Obligations.lean ====
section
/-!
DEFINITION. The statements about this model.
Each command's completion is stated for operands and a state that let it take the effect the manual gives it; a state meets the invariant State.Inv wherever a statement reads registers after they were written.
-/

open Sys2Proof Sys2Proof.Machine

/-- For every command c, every state s and every rest of the queue, a step of s with c in front of that rest answers what exec answers for c on s with the rest as its queue. -/
def Obligations.StepRunsFrontCommand : Prop :=
  ∀ (c : Instr) (rest : List Instr) (s : State),
    step { s with pending := c :: rest } = exec c { s with pending := rest }

/-- The model's choice (logs 21, 52): where no command waits, a step answers a next state in which one tick has passed: the count, in 1/160,000 of a tick, is later by one tick and by what slewing still moved it, at most 16 parts either way, and never runs back; where nothing is slewed out and less than a tick is carried it is one tick later. Only the count, the slewing and TIME_STATUS change, and the queue is empty. -/
def Obligations.IdleStepPassesOneTick : Prop :=
  ∀ s : State, s.pending = [] →
    NextWith (step s) (fun t =>
      (160000 * t.now + t.time.frac : Int) = 160000 * (s.now + 1) + s.time.frac + (s.slewOn.time.slew - t.time.slew) ∧
      (s.slewOn.time.slew - t.time.slew).natAbs ≤ 16 ∧ s.now ≤ t.now ∧ t.time.frac < 160000 ∧
      (s.time.slew = 0 → s.time.frac < 160000 → t.now = s.now + 1 ∧ t.time.frac = s.time.frac) ∧
      t.time = { s.time with slew := t.time.slew, slewAt := t.now, frac := t.time.frac, revealed := t.time.revealed } ∧
      SameRegsBut [Reg.timeStatus] s t ∧ OnlyParts [.now, .live, .time] s t ∧ t.pending = [])

/-- For every command, every operand and every state: where exec answers a next state, every part of the state outside partsOf of the command is as it was (the count, live, staged and pending register values, running counts, command registers, fabric time, walker, admission, queue pairs, Vesper units, tiers, programs, match engine, links, map agent, health, security, Wecia Link, start-up and test port, outbox, free values). For every command and every state: where exec answers a next state, the queue of waiting commands is as it was. -/
def Obligations.CommandsChangeTheirPartsAndNotTheQueue : Prop :=
  (∀ (i : Instr) (s t : State), exec i s = .next t → OnlyParts (partsOf i) s t)
  ∧ (∀ (i : Instr) (s t : State), exec i s = .next t → t.pending = s.pending)

/-- The invariant says that live and staged register values, running counts, flat memory and the flash stand in their one canonical form: addresses rise strictly, no entry equals what an unlisted address reads as, every register value and count has 32 bits, every byte of memory and of the flash is a byte. Every step from such a state, whatever command it takes, gives such a state. -/
def Obligations.EveryStepKeepsTheInvariant : Prop :=
  ∀ s t : State, s.Inv → step s = .next t → t.Inv

/-- State.reset meets the invariant that every step keeps, and its queue is empty. -/
def Obligations.ResetMeetsTheInvariant : Prop :=
  State.reset.Inv ∧ State.reset.pending = []

/-- For every command of every row of the table, all operands and every state, but for PRIVATE_TEST_INSTRUCTION in a powered hub with a debug token in force: exec answers a next state, which differs from the present one in the row's parts alone and has the queue of waiting commands as it was. PRIVATE_TEST_INSTRUCTION there is refused, whatever its code. -/
def Obligations.EveryCommandCompletesButPrivateInstructions : Prop :=
  (∀ (i : Instr) (s : State), (∀ code, i = .privateTestInstruction code → ¬(s.powered = true ∧ s.bit Reg.secStatus 4 = true)) →
     Completes i s (partsOf i) (fun _ => True))
  ∧ (∀ (code : Nat) (s : State), s.powered = true → s.bit Reg.secStatus 4 = true → exec (.privateTestInstruction code) s = .refused .debugUnit)

/-- With the hub powered: IDCODE puts the part number, stepping and manufacturer code of R432 on the port's output; BYPASS puts out the bit taken in before and takes the new one; SAMPLE_PRELOAD loads the boundary cells and puts out one free value per cell; EXTEST, while RESET_N is asserted, loads the cells that drive the pins. With RESET_N high, EXTEST leaves the whole state as it is. Nothing else of the node changes. PRIVATE_TEST_INSTRUCTION, whatever its code: with the hub powered and a debug token in force (SEC_STATUS.debug_active) the model stops, since the manual does not say what the vendor's debug unit then does; without one, the whole state stays as it is. -/
def Obligations.TestPortAndPrivateInstructions : Prop :=
  (∀ s : State, s.powered = true →
     Completes .idcode s [.sys, .outbox] (fun t =>
       t.sys.tdo = 0xB * 2 ^ 28 + 0x1344 * 2 ^ 12 + 0x2A7 * 2 + 1 ∧ Sends s t [.tdo t.sys.tdo] ∧
       t.sys = { s.sys with tdo := t.sys.tdo, tap := t.sys.tap })
     ∧ (∀ bit, Completes (.bypass bit) s [.sys, .outbox] (fun t =>
       t.sys.tdo = b2n s.sys.bypass ∧ t.sys.bypass = bit ∧ Sends s t [.tdo t.sys.tdo] ∧
       t.sys = { s.sys with tdo := t.sys.tdo, tap := t.sys.tap, bypass := bit }))
     ∧ (∀ bits, Completes (.samplePreload bits) s [.sys, .outbox, .freeCtr] (fun t =>
       t.sys.boundary = bits ∧ t.freeCtr = s.freeCtr + bits.length ∧ Sends s t [.tdo t.sys.tdo] ∧
       t.sys = { s.sys with tdo := t.sys.tdo, tap := t.sys.tap, boundary := bits }))
     ∧ (∀ bits, s.sys.resetN = false → Completes (.extest bits) s [.sys] (fun t =>
       t.sys = { s.sys with tap := t.sys.tap, boundary := bits }))
     ∧ (∀ bits, s.sys.resetN = true → exec (.extest bits) s = .next s))
  ∧ (∀ (code : Nat) (s : State),
     (s.powered = true ∧ s.bit Reg.secStatus 4 = true → exec (.privateTestInstruction code) s = .refused .debugUnit)
     ∧ (s.bit Reg.secStatus 4 = false ∨ s.powered = false → exec (.privateTestInstruction code) s = .next s))

/-- From the end of step 5 of Sunrise on, with PPS_IN enabled, for an edge that comes one good second after the last: where no message has announced it and no time is acquired, the second counts and it becomes the last edge. Where TIME_IN has announced it, two good seconds have passed and the node, not in Twilight, is still acquiring, the count is set by a step to the value announced and the delay from the reference plane to the ball, time counts as acquired, the edge is noted at the ball, and TIME_STATUS shows source 1, hop 0 and locked. Where time is acquired, seconds are consistent and nothing that a commit revealed is outstanding, TIME_OFFSET shows the edge less TIME_PPS_COMP and the value announced; of at most 64 ticks, it is what the count must still be moved by, the other way, and the node stays acquired. PPS_MISSING in a node that has seen an edge forgets that edge and the good seconds, lets the count reach a second and 1,001 ticks after it, and the source is no longer PPS_IN. TIME_IN_LOSS after a message that was not ignored lets the count reach two seconds after it and forgets the edge announced, the seconds of inconsistency and that message. -/
def Obligations.PpsEdgesCountLossesInvalidate : Prop :=
  (∀ (s : State) (edge last : Nat), s.Inv → s.takesTime = true → s.bit Reg.timeCfg 0 = true → s.time.lastEdge = some last →
     goodSecond last edge = true →
     let leaves (p : State → Prop) : Prop := Completes (.ppsInEdge edge) s (partsOf (.ppsInEdge edge)) (fun t =>
       t.time.goodSeconds = s.time.goodSeconds + 1 ∧ p t)
     (s.time.due = none → s.time.acquired = false → leaves (fun t =>
         t.now = max s.now (edge / 16) ∧ t.time.lastEdge = some edge ∧ t.time.acquired = false))
     ∧ (∀ n, s.time.due = some n → s.time.nextEdge.isSome = true → s.bit Reg.timeCfg 2 = true → 1 ≤ s.time.goodSeconds → s.inTwilight = false →
         (s.time.acquired = false → leaves (fun t =>
           t.now = (16 * n + s.fld Reg.timePpsComp 15 0) / 16 ∧ t.time.acquired = true ∧ t.time.lastEdge = some (16 * n + s.fld Reg.timePpsComp 15 0) ∧
           t.fld Reg.timeStatus 1 0 = 1 ∧ t.fld Reg.timeStatus 2 2 = 1 ∧ t.fld Reg.timeStatus 8 5 = 0))
         ∧ (s.time.acquired = true → s.time.inconsistent = 0 → s.time.reveal = false → s.time.revealed = 0 →
           let off : Int := (edge : Int) - (s.fld Reg.timePpsComp 15 0 : Int) - 16 * (n : Int)
           off.natAbs ≤ fenceOffset → leaves (fun t =>
             t.now = max s.now (edge / 16) ∧ t.time.lastEdge = some edge ∧ t.time.acquired = true ∧ t.live Reg.timeOffset = ofSigned 16 off ∧
             t.time.slew = -(10000 * off) ∧ t.time.slewAt = t.now))))
  ∧ (∀ s : State, s.Inv → s.takesTime = true →
     (∀ last, s.time.lastEdge = some last → s.bit Reg.timeCfg 0 = true →
       Completes .ppsMissing s (partsOf .ppsMissing) (fun t =>
         t.now = max s.now (last / 16 + second + 1001) ∧ t.time.lastEdge = none ∧ t.time.goodSeconds = 0 ∧ t.time.ppsValid = false ∧ t.fld Reg.timeStatus 1 0 ≠ 1))
     ∧ (∀ m, s.time.lastMsg = some m → Completes .timeInLoss s (partsOf .timeInLoss) (fun t =>
         t.now = max s.now (m + 2 * second) ∧ t.time.nextEdge = none ∧ t.time.due = none ∧ t.time.tentative = none ∧ t.time.lastMsg = none ∧
         t.time.inconsistent = 0 ∧ t.time.ppsValid = false)))

/-- From the end of step 5 of Sunrise on, with TIME_IN enabled, for a message of the form of Table 2.1 that comes 10 to 900 ms after an edge: where nothing is accepted and nothing waits, it waits for a second; where one waits that names the edge one second before, it is accepted, names the next edge, announces the edge to come, and gives the reference flag of byte 3; where one is accepted, the message that names the edge one second after it is accepted too, and one that names another is ignored and sets TIME_EVENT.time_in_bad, the accepted edge standing. A message that comes outside the window, or whose form is wrong, is ignored and sets that event. In a running node, on a link that is UP or MISWIRED: a TIME frame adds its codewords to the link's counts as any frame does, and where the link stays up under them: one whose tag fails, or whose tx_count is not new, adds one to the link's authentication count, is noted where its epoch is none of the link's, and changes nothing else. One that is accepted is counted, and where it asks for no resend, in a node with time acquired and link time transfer enabled, it records what the frame says of the partner: its time of sending, its arrival, its hop count, whether it is degraded, with one exchange of the path delay where the frame answers the node's last. -/
def Obligations.TimeMessagesAndFramesAreFollowed : Prop :=
  (∀ (s : State) (b : List Byte) (since : Nat), s.Inv → s.takesTime = true → s.bit Reg.timeCfg 2 = true →
     ((timeFormOk b = false ∨ since < 10000000 ∨ 900000000 < since) →
       Completes (.timeInMessage b since) s [.now, .live, .hst, .sum, .outbox] (fun t => t.bit Reg.timeEvent 1 = true))
     ∧ (timeFormOk b = true → 10000000 ≤ since → since ≤ 900000000 →
       (s.time.nextEdge = none → s.time.tentative = none → Completes (.timeInMessage b since) s [.now, .time] (fun t =>
         t.time = { s.time with tentative := some (field b 4 8), lastMsg := some t.now }))
       ∧ (∀ w, s.time.nextEdge = none → s.time.tentative = some w → field b 4 8 = w + second →
         Completes (.timeInMessage b since) s (partsOf (.timeInMessage b since)) (fun t =>
           t.time.nextEdge = some (field b 4 8) ∧ t.time.due = some (field b 4 8) ∧ t.time.tentative = none ∧ t.time.refDegraded = bitOf (byteAt b 3) 0))
       ∧ (∀ n, s.time.nextEdge = some n → Completes (.timeInMessage b since) s (partsOf (.timeInMessage b since)) (fun t =>
           (field b 4 8 = n + second → t.time.nextEdge = some (n + second) ∧ t.time.due = some (n + second) ∧ t.time.refDegraded = bitOf (byteAt b 3) 0) ∧
           (field b 4 8 ≠ n + second → t.time.nextEdge = some n ∧ t.time.due = s.time.due ∧ t.bit Reg.timeEvent 1 = true)))))
  ∧ (∀ (s : State) (link tick part : Nat) (f : Frame), s.running = true → (s.link link).state = LState.up ∨ (s.link link).state = LState.miswired →
     let u := if (s.link link).state = LState.up then s.fecCount link f.fecCorrected f.fecBad else s
     let l := u.link link
     let p := (s.partner link).take f.payload (16 * tick + part)
     (l.state = LState.up ∨ l.state = LState.miswired) →
     (l.admits f = none → Completes (.timeFrame link f tick part) s (partsOf (.timeFrame link f tick part)) (fun t =>
         t.regs = (u.bump (Reg.lnkPortStat + 32 * link + 8)).regs ∧ (∀ k, k ≠ link → t.link k = s.link k) ∧ t.time = s.time ∧
         t.link link = if l.keyed.any (fun g => g % 256 == f.epoch) then l else { l with foreign := true }))
     ∧ (∀ g, l.admits f = some g → bitOf f.lflags 0 = false → s.time.acquired = true → s.bit Reg.timeCfg 3 = true →
       Completes (.timeFrame link f tick part) s (partsOf (.timeFrame link f tick part)) (fun t =>
         tabGet t.time.partners link = some p ∧ p.lastTx = field f.payload 0 8 ∧ p.lastArr = 16 * tick + part ∧
         p.hop = (if byteAt f.payload 25 ≤ 8 then some (byteAt f.payload 25) else none) ∧ p.degraded = bitOf (byteAt f.payload 24) 3)))

/-- In a running node out of Twilight, HBM_REFRESH of bank group g below 16, in a minute m with m mod 4 = g mod 4 and at tick 256 × (g div 4), issues one refresh; LPDDR_REFRESH at tick 0 or tick 512 issues one per-bank refresh and goes on to the next of the banks in order. Nothing else changes. In a running node out of Twilight, in ticks 0 to 191 of minute 0 of a frame and with clocks of another mode than the current one, MODE_CLOCK_SWITCH makes the clocks those of the current mode; the count has reached tick 64 of the frame; of the registers only CLK_STATUS may differ; from tick 192 on it changes nothing. In a running node, in minute 0 of a frame in which no mode change began, MARGIN_VOLTAGE_MOVE makes the voltage the setpoint of the current mode, the count having reached tick 192 of the frame; nothing else changes. -/
def Obligations.RefreshClockAndVoltageKeepTheirPoints : Prop :=
  (∀ s : State, s.running = true → s.inTwilight = false →
     (∀ bg, bg < 16 → s.minute % 4 = bg % 4 → tickOf s.now = 256 * (bg / 4) →
       Completes (.hbmRefresh bg) s [.time] (fun t => t.time = { s.time with hbmRefreshes := s.time.hbmRefreshes + 1 }))
     ∧ (tickOf s.now = 0 ∨ tickOf s.now = 512 →
       Completes .lpddrRefresh s [.time] (fun t =>
         t.time = { s.time with lpddrRefreshes := s.time.lpddrRefreshes + 1, lpddrBank := (s.time.lpddrBank + 1) % 16 })))
  ∧ (∀ s : State, s.Inv → s.running = true → s.inTwilight = false → s.minute = 0 → s.time.clockMode ≠ s.mode →
     (tickOf s.now < 192 → Completes .modeClockSwitch s [.now, .live, .time] (fun t =>
       t.now = max s.now (1048576 * s.frame + 64) ∧ t.time = { s.time with clockMode := s.mode } ∧ SameRegsBut [Reg.clkStatus] s t))
     ∧ (192 ≤ tickOf s.now → exec .modeClockSwitch s = .next s))
  ∧ (∀ s : State, s.running = true → s.minute = 0 → s.time.modeChange.map Prod.fst ≠ some s.frame →
     Completes .marginVoltageMove s [.now, .hlt] (fun t =>
       t.now = max s.now (1048576 * s.frame + 192) ∧ t.hlt = { s.hlt with voltage := s.setpoint s.mode }))

/-- For every count C: the frame is C from bit 20 up, the minute C[19:10] below 1,024, the tick C[9:0] below 1,024, and the three make up C again; Midnight is where C[19:0] = 0. In a running node, MINUTE_START with no temperature reading at its shutdown limit brings the count to the start of the next minute not yet worked, a multiple of 1,024 ticks, and marks that minute; MIDNIGHT brings the count to the start of the next frame not yet worked, a multiple of 1,048,576 ticks, and marks that frame. -/
def Obligations.MinutesFramesAndCounts : Prop :=
  (∀ c : Nat, frameOf c = c >>> 20 ∧ minuteOf c = bitsOf c 19 10 ∧ tickOf c = bitsOf c 9 0 ∧ minuteOf c < 1024 ∧ tickOf c < 1024 ∧
     c = frameOf c * 2 ^ 20 + minuteOf c * 2 ^ 10 + tickOf c ∧ (bitsOf c 19 0 = 0 ↔ minuteOf c = 0 ∧ tickOf c = 0))
  ∧ (∀ s : State, s.running = true →
     (∀ env : MinuteEnv, ((env.temps.take 176).zipIdx.any (fun x => decide (16 * (tempLimits x.2).2.1 ≤ x.1))) = false →
       Completes (.minuteStart env) s (partsOf (.minuteStart env)) (fun t =>
         t.now = s.minuteAt ∧ t.now % 1024 = 0 ∧ s.now ≤ t.now ∧ t.now ≤ s.now + 1024 ∧ t.sys.minuteDone = some (t.now / 1024)))
     ∧ (∀ env : MidnightEnv,
       Completes (.midnight env) s (partsOf (.midnight env)) (fun t =>
         t.now = s.midnightAt ∧ t.now % 1048576 = 0 ∧ s.now ≤ t.now ∧ t.now ≤ s.now + 1048576 ∧ t.sys.frameDone = some (t.now / 1048576))))

/-- While the current mode is NIGHT, whatever the registers hold: minute 0 belongs to SYSTEM, minutes with m mod 4 = 1 or 2 to SCRUB, and every other minute to MIGRATE. -/
def Obligations.NightDialIsFixed : Prop :=
  ∀ (s : State) (m : Nat), s.mode = 3 →
    (m = 0 → s.ownerAt m = Owner.system) ∧ ((m % 4 = 1 ∨ m % 4 = 2) → s.ownerAt m = Owner.scrub) ∧
    (m ≠ 0 → m % 4 ≠ 1 → m % 4 ≠ 2 → s.ownerAt m = Owner.migrate)

/-- In a state that meets the invariant: after the counters latch for a frame, every latched counter's register reads its running count, the running counts are all zero, and TIME_LATCH_FRAME reads the frame that ended; every register that is not a latched counter and whose address holds no running count reads as before. -/
def Obligations.MidnightLatchesEveryCounter : Prop :=
  ∀ (s : State) (ended : Nat), s.Inv → ended < 2 ^ 64 →
    (∀ a, isLatched a = true → a ≠ Reg.timeLatchFrame → a ≠ Reg.timeLatchFrame + 4 → (s.latchCounters ended).live a = spGet 0 s.regs.run a)
    ∧ (s.latchCounters ended).regs.run = []
    ∧ (s.latchCounters ended).live64 Reg.timeLatchFrame = ended
    ∧ (∀ a, isLatched a = false → a ∉ s.regs.run.map Prod.fst → a ≠ Reg.timeLatchFrame → a ≠ Reg.timeLatchFrame + 4 →
        (s.latchCounters ended).live a = s.live a)

/-- With the I3C port open, REGISTER_WRITE of one 32-bit value to the address of one register: of a staged register it writes the staged copy, cut to the bits that are not reserved, and no live value; of an RW register that is none of the flash bridge's it writes the live value, so cut; of a register that software cannot write it changes nothing; of an address that holds no register, or of a live copy, it counts one unmapped access and changes nothing else. With the port closed it changes nothing. No other register's copy changes. -/
def Obligations.RegisterWritesReachTheirOneCopy : Prop :=
  ∀ (s : State) (a v : Nat), s.Inv → a % 4 = 0 → a < 2 ^ 24 → v < 2 ^ 32 →
    (s.i3cOpen = false → exec (.registerWrite .i3c a [v]) s = .next s)
    ∧ (s.i3cOpen = true →
      (∀ r, targetOf a = .reg r → r.row.acc = .st →
        Completes (.registerWrite .i3c a [v]) s [.staged, .parity, .written] (fun t =>
          t.staged a = r.cut v % 2 ^ 32 ∧ ∀ b, b ≠ a → t.staged b = s.staged b))
      ∧ (∀ r, targetOf a = .reg r → r.row.acc = .rw → a ≠ Reg.sysFlashCtl → r.row.base ≠ Reg.sysFlashData →
        Completes (.registerWrite .i3c a [v]) s [.live, .parity] (fun t => t.live a = r.cut v % 2 ^ 32 ∧ SameRegsBut [a] s t))
      ∧ (∀ r, targetOf a = .reg r → (r.row.acc = .ro ∨ r.row.acc = .rs ∨ r.row.acc = .lat ∨ r.row.acc = .view) →
        exec (.registerWrite .i3c a [v]) s = .next s)
      ∧ ((targetOf a = .unmapped ∨ ∃ r, targetOf a = .copy r) →
        Completes (.registerWrite .i3c a [v]) s [.run] (fun t => t.regs = (s.bump (Reg.hstStat + 12)).regs)))

/-- With the I3C port open, EVENT_CLEAR of an event register: where the value's [31:24] equal the register's, every event bit that the value holds at 1 reads 0, every other event bit reads as before, and the sequence number is one more modulo 256; no other register changes. Where they differ, nothing changes. In a state that meets the invariant, recording the events of a set of bits below bit 24 in a register: each of those bits reads 1 afterwards, every other event bit as before, the sequence number is one more modulo 256 whether or not the bits were set; no other register changes, and beside registers only the summary message, the Wecia Link's sending side and the outbox can. -/
def Obligations.EventsAreRecordedAndCleared : Prop :=
  (∀ (s : State) (a v : Nat) (r : RegRef), s.Inv → a % 4 = 0 → a < 2 ^ 24 → v < 2 ^ 32 → s.i3cOpen = true →
     targetOf a = .reg r → r.row.acc = .ev →
     (bitsOf v 31 24 = s.fld a 31 24 →
       Completes (.eventClear .i3c a v) s [.live] (fun t =>
         (∀ i, i < 24 → t.bit a i = (s.bit a i && !bitOf v i)) ∧ t.fld a 31 24 = (s.fld a 31 24 + 1) % 256 ∧ SameRegsBut [a] s t))
     ∧ (bitsOf v 31 24 ≠ s.fld a 31 24 → exec (.eventClear .i3c a v) s = .next s))
  ∧ (∀ (s : State) (a bits : Nat), s.Inv →
     (∀ i, i < 24 → (s.raise a bits).bit a i = (s.bit a i || bitOf bits i)) ∧
     (s.raise a bits).fld a 31 24 = (s.fld a 31 24 + 1) % 256 ∧
     SameRegsBut [a] s (s.raise a bits) ∧ OnlyParts [.live, .hst, .sum, .outbox] s (s.raise a bits))

/-- With the I3C port open, REGISTER_READ of one register hands out one value: of a staged register its staged copy, of an RW, RO, RS, event or latched register its live value, of a live copy the live value of its register, of a write-only register zero; nothing but the outbox changes. At an address that holds no register it hands out zero and counts one unmapped access. With the I3C port open, I3C_ENTDAA of a 7-bit address makes it the node's dynamic address; with the port closed it changes nothing. -/
def Obligations.RegisterReadsAndTheI3cAddress : Prop :=
  (∀ (s : State) (a : Nat), a % 4 = 0 → a < 2 ^ 24 → s.i3cOpen = true →
     (∀ r, targetOf a = .reg r → r.row.acc = .st →
       Completes (.registerRead .i3c a 1) s [.outbox] (fun t => Sends s t [.regValues [s.staged a]]))
     ∧ (∀ r, targetOf a = .reg r → (r.row.acc = .rw ∨ r.row.acc = .ro ∨ r.row.acc = .rs ∨ r.row.acc = .ev ∨ r.row.acc = .lat) →
       Completes (.registerRead .i3c a 1) s [.outbox] (fun t => Sends s t [.regValues [s.live a]]))
     ∧ (∀ r, targetOf a = .copy r →
       Completes (.registerRead .i3c a 1) s [.outbox] (fun t => Sends s t [.regValues [s.live (a - 0x80000)]]))
     ∧ (∀ r, targetOf a = .reg r → r.row.acc = .wo →
       Completes (.registerRead .i3c a 1) s [.outbox] (fun t => Sends s t [.regValues [0]]))
     ∧ (targetOf a = .unmapped →
       Completes (.registerRead .i3c a 1) s [.run, .outbox] (fun t =>
         Sends s t [.regValues [0]] ∧ t.regs = (s.bump (Reg.hstStat + 12)).regs)))
  ∧ (∀ (s : State) (addr : Nat), addr < 128 →
     (s.i3cOpen = true → Completes (.i3cEntdaa addr) s [.hst] (fun t => t.hst = { s.hst with i3cAddr := some addr }))
     ∧ (s.i3cOpen = false → exec (.i3cEntdaa addr) s = .next s))

/-- With the I3C port open, COMMIT_GO of a nonzero mask, where one staged register of blocks 4 to 8 in the named groups differs from what governs, its rule accepts the value, no staged copy of those groups has bad parity and no command register of those groups was written: a register that takes effect at once then reads the staged value in its governed bits; one that waits for Midnight, or for the frame after next, keeps its live value and holds the staged bits as a pending value for frame F + 1 or F + 2. Of MAT_CFG, while a key is attached or a TCAM image is loaded, the staged key_units is ignored, MAT_EVENT.cfg_ignored is set and the rest counts. SYS_COMMIT_LAST names the mask with no refusal, and SYS_REFUSED_ADDR reads 0. A mask of zero changes nothing. Under the same circumstances, where the one staged register's rule refuses the value: its live value, its pending values and its staged copy stand, SYS_EVENT.value_refused is set, SYS_COMMIT_LAST counts one refusal and SYS_REFUSED_ADDR reads the register's address. -/
def Obligations.CommitsCaptureAndDiscard : Prop :=
  (∀ (s : State) (mask a : Nat) (r : RegRef) (when_ : Timing) (bits : Nat), s.Inv → s.i3cOpen = true →
     exec (.commitGo .i3c 0) s = .next s ∧
     (mask < 256 → mask ≠ 0 → s.regs.badParity = [] → s.regs.written = [] →
      s.candidates (fun x => bitOf mask (s.groupOf (x / 0x100000))) = [a] → 4 ≤ a / 0x100000 → a / 0x100000 ≤ 8 →
      findReg a = some r → r.timed = [(when_, bits)] → bits < 2 ^ 32 → s.staged a &&& bits ≠ s.target a &&& bits →
      let held : Prop := r.row.base = Reg.matCfg ∧ s.keyUnitsHeld (s.staged a) = true
      let v (kept : Nat) : Nat := if r.row.base = Reg.matCfg ∧ s.keyUnitsHeld (s.staged a) = true then putBits (s.staged a) 7 0 kept else s.staged a
      v (s.fld Reg.matCfg 7 0) &&& bits ≠ s.target a &&& bits →
      s.refusal (fun x => if [a].contains x then s.staged x else s.target x) r a = none →
      Completes (.commitGo .i3c mask) s (partsOf (.commitGo .i3c mask)) (fun t =>
        t.fld Reg.sysCommitLast 7 0 = mask ∧ t.fld Reg.sysCommitLast 15 8 = 0 ∧ t.live Reg.sysRefusedAddr = 0 ∧
        (held → t.bit Reg.matEvent 6 = true) ∧
        (when_ = .now → t.live a = mergeBits (s.live a) bits (v (s.fld Reg.matCfg 7 0)) % 2 ^ 32) ∧
        (when_ = .midnight → t.live a = s.live a ∧ ⟨a, bits, v (s.fld Reg.matCfg 7 0) &&& bits, s.frame + 1⟩ ∈ t.regs.pend) ∧
        (when_ = .frame2 → t.live a = s.live a ∧ ⟨a, bits, v (s.fld Reg.matCfg 7 0) &&& bits, s.frame + 2⟩ ∈ t.regs.pend))))
  ∧ (∀ (s : State) (mask a : Nat) (r : RegRef) (es : List (Nat × Nat)), s.Inv → s.i3cOpen = true →
     mask < 256 → mask ≠ 0 → s.regs.badParity = [] → s.regs.written = [] →
     s.candidates (fun x => bitOf mask (s.groupOf (x / 0x100000))) = [a] → 4 ≤ a / 0x100000 → a / 0x100000 ≤ 8 →
     findReg a = some r → s.refusal (fun x => if [a].contains x then s.staged x else s.target x) r a = some es → a ∉ es.map Prod.fst →
     Completes (.commitGo .i3c mask) s (partsOf (.commitGo .i3c mask)) (fun t =>
       t.fld Reg.sysCommitLast 7 0 = mask ∧ t.fld Reg.sysCommitLast 15 9 = 1 ∧ t.live Reg.sysRefusedAddr = regKey a % 2 ^ 32 ∧
       t.bit Reg.sysEvent 2 = true ∧ t.live a = s.live a ∧ t.regs.pend = s.regs.pend ∧ t.staged a = s.staged a))

/-- For a pending or live copy (copy 1 or 2) that waits for restoration: PARITY_RESTORE that succeeds takes it off the list of copies with bad parity and changes nothing else; one that fails makes the health of a node that is already fenced FAILED, shows it in HLT_STATUS and sets HLT_EVENT.failed. -/
def Obligations.ParityRestorationEndsOrFailsTheNode : Prop :=
  ∀ (s : State) (a copy : Nat), copy ≠ 0 → (a, copy) ∈ s.regs.badParity →
    Completes (.parityRestore a copy true) s [.parity] (fun t => t.regs = { s.regs with badParity := s.regs.badParity.filter (fun b => b != (a, copy)) })
    ∧ (s.Inv → s.hlt.health ≠ 2 → s.fenced = true → Completes (.parityRestore a copy false) s (partsOf (.parityRestore a copy false)) (fun t =>
        t.hlt.health = 2 ∧ t.fld Reg.hltStatus 1 0 = 2 ∧ t.bit Reg.hltEvent 3 = true ∧ t.regs.badParity = s.regs.badParity))

/-- With the I3C port open, FLASH_READ, FLASH_ERASE or FLASH_PROGRAM with address and length in range: where the bridge is open, nothing runs and the addresses are allowed, the operation runs and SYS_FLASH_STATUS shows busy; where the bridge is closed the result is CLOSED; where an erase or program lies below 0x100000, an erase is not aligned to 64 KiB or a program crosses a page the result is REFUSED; where an operation runs the result is BUSY and it goes on. The flash's contents never change. FLASH_DEVICE_TIMEOUT ends a running operation with DEVICE and SYS_EVENT.flash_done. FLASH_DONE of an operation of n bytes ends it with OK, not busy, and sets SYS_EVENT.flash_done. An erase leaves every byte of the 64 KiB from its address at 0xFF and every other byte as it was; a program of at most 256 bytes leaves the buffer's first n bytes at its address and every other byte as it was; a read of at most 256 bytes leaves the flash as it was and the flash's bytes in the buffer. -/
def Obligations.FlashCommandsStartAndFinish : Prop :=
  (∀ (s : State), s.Inv → s.i3cOpen = true →
     (∀ (op addr lenM1 : Nat) (i : Instr), addr < 2 ^ 32 → lenM1 < 256 →
       (op = 1 ∧ i = .flashRead .i3c addr lenM1 ∨ op = 2 ∧ lenM1 = 0 ∧ i = .flashErase .i3c addr ∨ op = 3 ∧ i = .flashProgram .i3c addr lenM1) →
       (s.sys.flashOp = none → s.bridgeOpen = true → flashAllowed op addr lenM1 = true →
         Completes i s [.live, .sys] (fun t => t.sys = { s.sys with flashOp := some (op, addr, lenM1 + 1) } ∧ t.bit Reg.sysFlashStatus 0 = true)) ∧
       (s.sys.flashOp = none → s.bridgeOpen = false → Completes i s [.live] (fun t => t.fld Reg.sysFlashStatus 4 2 = Flash.closed)) ∧
       (s.sys.flashOp = none → s.bridgeOpen = true → flashAllowed op addr lenM1 = false →
         Completes i s [.live] (fun t => t.fld Reg.sysFlashStatus 4 2 = Flash.refused)) ∧
       (s.sys.flashOp ≠ none → Completes i s [.live] (fun t => t.fld Reg.sysFlashStatus 4 2 = Flash.busy)))
     ∧ (s.sys.flashOp ≠ none → Completes .flashDeviceTimeout s [.live, .hst, .sys, .sum, .outbox] (fun t =>
         t.sys.flashOp = none ∧ t.sys.flash = s.sys.flash ∧ t.fld Reg.sysFlashStatus 4 2 = Flash.device ∧ t.bit Reg.sysFlashStatus 0 = false ∧
         t.bit Reg.sysEvent 4 = true)))
  ∧ (∀ (s : State) (op addr n : Nat), s.Inv → s.sys.flashOp = some (op, addr, n) → n ≤ 256 →
     Completes .flashDone s [.live, .hst, .sys, .sum, .outbox] (fun t =>
       t.sys.flashOp = none ∧ t.fld Reg.sysFlashStatus 4 2 = Flash.ok ∧ t.bit Reg.sysFlashStatus 0 = false ∧ t.bit Reg.sysEvent 4 = true ∧
       (op = 1 → t.sys.flash = s.sys.flash ∧ ∀ i, i < n → t.flashByte i = spGet 255 s.sys.flash (addr + i)) ∧
       (op = 2 → ∀ x, spGet 255 t.sys.flash x = if addr ≤ x ∧ x < addr + 65536 then 255 else spGet 255 s.sys.flash x) ∧
       (op = 3 → ∀ x, spGet 255 t.sys.flash x = if addr ≤ x ∧ x < addr + n then s.flashByte (x - addr) else spGet 255 s.sys.flash x)))

/-- For a dial k given by its 1,024 entries and a set of urgent classes, the check finds no fault exactly when: entry 0 is SYSTEM and no other entry is; no entry uses a reserved code (24 to 27); every urgent class owns a minute of every aligned group of four; at least 16 minutes are SCRUB and 32 are MIGRATE; and, for dial 1, the urgent classes together own at least 512 minutes. -/
def Obligations.DialsPassExactlyWhenEveryRuleHolds : Prop :=
  ∀ (entry : Nat → Nat) (k : Nat) (urgent : List Nat),
    dialFault entry k urgent = none ↔
      (entry 0 = Owner.system ∧ ∀ m, 0 < m → m < 1024 → entry m ≠ Owner.system)
      ∧ (∀ m, m < 1024 → ¬ (24 ≤ entry m % 32 ∧ entry m % 32 ≤ 27))
      ∧ (∀ g, g < 256 → ∀ c ∈ urgent, ∃ m, 4 * g ≤ m ∧ m < 4 * g + 4 ∧ entry m = c)
      ∧ 16 ≤ ((List.range 1024).filter (fun m => entry m == Owner.scrub)).length
      ∧ 32 ≤ ((List.range 1024).filter (fun m => entry m == Owner.migrate)).length
      ∧ (k = 1 → 512 ≤ ((List.range 1024).filter (fun m => urgent.contains (entry m))).length)

/-- In a state that meets the invariant, making the pending values due by frame f live leaves the others pending in their order; a register none of them names reads as before; a register that just one of them names has its governed bits from that value and its other bits as before. -/
def Obligations.PendingValuesBecomeLiveAtTheirFrame : Prop :=
  ∀ (s : State) (f : Nat), s.Inv →
    (s.applyPending (fun p => decide (p.timing ≤ f))).regs.pend = s.regs.pend.filter (fun p => !decide (p.timing ≤ f))
    ∧ (∀ a, (∀ p ∈ s.regs.pend, p.timing ≤ f → p.addr ≠ a) → (s.applyPending (fun p => decide (p.timing ≤ f))).live a = s.live a)
    ∧ (∀ p ∈ s.regs.pend, p.timing ≤ f → (∀ q ∈ s.regs.pend, q.timing ≤ f → q.addr = p.addr → q = p) →
        (s.applyPending (fun p => decide (p.timing ≤ f))).live p.addr = mergeBits (s.live p.addr) p.mask p.value % 2 ^ 32)

/-- POWER_ON leaves a running node in Sunrise step 1 that draws from the feed named, with no register but SYS_BOOT and PWR_STATUS off its reset value. RESET_ASSERT in a powered hub holds it in reset: every register reads its reset value but CLK_TWILIGHT and PWR_LAST_SHUTDOWN, which stand, and the pins' own PWR_STATUS and CLK_STATUS; nothing is staged, pending or counted. FEED_LOSS_SHUTDOWN with no valid feed and RAIL_FAULT of one of the five rails latch a shutdown whose cause PWR_LAST_SHUTDOWN shows. In all four the memory lists nothing, the flash and the flash's counters stand, and what was handed out stands. -/
def Obligations.PowerAndResetClearAllButFlashAndStandby : Prop :=
  ∀ s : State, s.Inv →
    (∀ feedB oscDly i3cSa flashHold, Completes (.powerOn feedB oscDly i3cSa flashHold) s (partsOf (.powerOn feedB oscDly i3cSa flashHold)) (fun t =>
        t.running = true ∧ t.sunriseStep = 1 ∧ t.bit Reg.pwrStatus 0 = feedB ∧ t.bit Reg.pwrStatus (1 + b2n feedB) = true ∧
        (∀ a, a ≠ Reg.sysBoot → a ≠ Reg.pwrStatus → t.live a = resetOf a) ∧
        t.mem = MemSt.reset ∧ t.sys.flash = s.sys.flash ∧ t.sec.counters = s.sec.counters ∧ t.outbox = s.outbox))
    ∧ ((s.sys.power = .on ∨ s.sys.power = .held) → Completes .resetAssert s (partsOf .resetAssert) (fun t =>
        t.sys.power = .held ∧ t.sys.resetN = false ∧ t.live Reg.clkTwilight = s.live Reg.clkTwilight ∧
        t.live Reg.pwrLastShutdown = s.live Reg.pwrLastShutdown ∧
        (∀ a, a ∉ [Reg.clkTwilight, Reg.pwrLastShutdown, Reg.pwrStatus, Reg.clkStatus] → t.live a = resetOf a) ∧
        t.regs.staged = [] ∧ t.regs.pend = [] ∧ t.regs.run = [] ∧ t.now = 0 ∧
        t.mem = MemSt.reset ∧ t.sys.flash = s.sys.flash ∧ t.sec.counters = s.sec.counters ∧ t.outbox = s.outbox))
    ∧ ((s.sys.power = .on ∨ s.sys.power = .held) → s.feedOk = false → Completes .feedLossShutdown s (partsOf .feedLossShutdown) (fun t =>
        t.sys.power = .latched ∧ t.live Reg.pwrLastShutdown = 1 ∧ t.mem = MemSt.reset ∧ t.sys.flash = s.sys.flash ∧
        t.sec.counters = s.sec.counters ∧ t.outbox = s.outbox))
    ∧ (∀ rail, rail < 5 → (s.sys.power = .on ∨ s.sys.power = .held) → Completes (.railFault rail) s (partsOf (.railFault rail)) (fun t =>
        t.sys.power = .latched ∧ t.live Reg.pwrLastShutdown = 2 + 16 * rail ∧ t.mem = MemSt.reset ∧ t.sys.flash = s.sys.flash ∧
        t.sec.counters = s.sec.counters ∧ t.outbox = s.outbox))

/-- With RESET_N low: RESET_RELEASE of a held hub raises RESET_N, samples the straps (three bits of OSC delay, three of the I3C address, the flash hold) and Sunrise is in step 3; of a hub whose shutdown is latched, with a valid feed, the same from step 1; of a latched hub with no valid feed only RESET_N changes. OSC_DELAY_EXPIRY in step 2 shows the crystal good, notes that the delay has run on this power, and goes on to step 3 where RESET_N is high, and holds the hub in reset where it is low. -/
def Obligations.ResetReleaseSamplesStrapsAndStartsSunrise : Prop :=
  ∀ (s : State) (o i : Nat) (h : Bool), s.Inv →
    (s.sys.resetN = false →
      (s.sys.power = .held → Completes (.resetRelease o i h) s [.live, .sys] (fun t =>
        t.sys = { s.sys with resetN := true, power := .on, oscDly := o % 8, i3cSa := i % 8, flashHold := h } ∧ t.sunriseStep = 3 ∧ SameRegsBut [Reg.sysBoot] s t)) ∧
      (s.sys.power = .latched → s.feedOk = true → Completes (.resetRelease o i h) s [.live, .sys] (fun t =>
        t.sys = { s.sys with resetN := true, power := .on, oscDly := o % 8, i3cSa := i % 8, flashHold := h } ∧ t.sunriseStep = 1 ∧ SameRegsBut [Reg.sysBoot] s t)) ∧
      (s.sys.power = .latched → s.feedOk = false → Completes (.resetRelease o i h) s [.sys] (fun t => t.sys = { s.sys with resetN := true })))
    ∧ (s.running = true → s.sunriseStep = 2 →
      (s.sys.resetN = true → Completes .oscDelayExpiry s [.live, .sys] (fun t =>
        t.sys = { s.sys with oscDone := true } ∧ t.sunriseStep = 3 ∧ t.bit Reg.clkStatus 1 = true ∧ SameRegsBut [Reg.sysBoot, Reg.clkStatus] s t)) ∧
      (s.sys.resetN = false → Completes .oscDelayExpiry s [.live, .sys] (fun t =>
        t.sys = { s.sys with power := .held, oscDone := true } ∧ t.bit Reg.clkStatus 1 = true ∧ SameRegsBut [Reg.clkStatus] s t)))

/-- In a running node not in service whose Sunrise has not stopped, SUNRISE_STEP_END: step 1 with good rails goes to step 2, or to step 3 where the oscillator delay has run since the standby rail came up, with a bad rail shuts the node down; step 3 goes to 4 unless the flash hold strap stops it with HOLD; step 4 takes the PUF SRAM's start-up state, the one kept while the node had power before the one read now, derives PR of 32 bytes and the public keys from it, seeds the generator with 48 bytes of entropy, draws a boot_id of 16 bytes and goes to 5; step 5 with REFCLK good shows every clock locked and goes to 6, else stops with REFCLK; step 6 goes to 7, or stops with FLASH; step 7 with every check passed takes the digest of the public keys as identity, the certificate of the flash, and register values and split of the configuration image in the flash, and reserves a block of 256 leaves (and, with no link and nothing pending, goes to 8), else stops with the failed check's code; step 8 with 1 GiB or more of protected memory left goes to 9, else stops with MEMORY; step 9 goes to 11 or stops with APPLY. A stop stays in its step, shows its code and sets SYS_EVENT.boot_stop. -/
def Obligations.SunriseStepsEndAsTheirFactsSay : Prop :=
  ∀ (s : State) (f : SunriseFacts), s.Inv → s.running = true → s.inService = false → s.bootStopped = false →
    let goesTo (n : Nat) (p : State → Prop) : Prop := Completes (.sunriseStepEnd f) s (partsOf (.sunriseStepEnd f)) (fun t => t.sunriseStep = n ∧ t.bootStopped = false ∧ p t)
    let stopsWith (code : Nat) : Prop := Completes (.sunriseStepEnd f) s (partsOf (.sunriseStepEnd f)) (fun t =>
      t.sunriseStep = s.sunriseStep ∧ t.bootStopped = true ∧ t.fld Reg.sysBoot 15 8 = code ∧ t.bit Reg.sysEvent 3 = true)
    (s.sunriseStep = 1 → f.badRail = none → goesTo (if s.sys.oscDone = true then 3 else 2) (fun t => t.sys = s.sys))
    ∧ (∀ r, s.sunriseStep = 1 → f.badRail = some r → Completes (.sunriseStepEnd f) s (partsOf (.sunriseStepEnd f)) (fun t =>
        t.sys.power = .latched ∧ t.live Reg.pwrLastShutdown = 2 + 16 * (r % 256)))
    ∧ (s.sunriseStep = 3 → s.sys.flashHold = false → goesTo 4 (fun t => t.sec = s.sec))
    ∧ (s.sunriseStep = 3 → s.sys.flashHold = true → stopsWith Stop.hold)
    ∧ (s.sunriseStep = 4 → goesTo 5 (fun t => t.sec.bootId.length = 16 ∧ t.freeCtr = s.freeCtr + 48 ∧ t.sec.root.length = 32 ∧
        t.sec.puf = (if s.sec.puf.isEmpty = true then f.puf else s.sec.puf) ∧ t.sec.publics = t.publicKeys))
    ∧ (s.sunriseStep = 5 → f.refclkOk = true → goesTo 6 (fun t => t.fld Reg.clkStatus 7 0 = 0x7F))
    ∧ (s.sunriseStep = 5 → f.refclkOk = false → stopsWith Stop.refclk)
    ∧ (s.sunriseStep = 6 → f.flashOk = true → goesTo 7 (fun t => t.sys = s.sys))
    ∧ (s.sunriseStep = 6 → f.flashOk = false → stopsWith Stop.flash)
    ∧ (s.sunriseStep = 7 → Completes (.sunriseStepEnd f) s (partsOf (.sunriseStepEnd f)) (fun t =>
        match s.verifyStop f with
        | none => t.sec.idd = sha384 s.sec.publics ∧ t.sec.cert = s.deviceCert ∧ t.sys.image = imageWrites s.imageSections ∧
            t.sys.split = splitOf (sectionOf s.imageSections 2) ∧ t.sec.left = 256 ∧ (s.regs.pend = [] → s.lnk.links = [] → t.sunriseStep = 8 ∧ t.bootStopped = false)
        | some (code, _) => t.sunriseStep = 7 ∧ t.bootStopped = true ∧ t.fld Reg.sysBoot 15 8 = code ∧ t.bit Reg.sysEvent 3 = true))
    ∧ (s.sunriseStep = 8 → 1048576 ≤ spareProtected s.sys.split (f.badHbm.filter (· < 8)) (bitsOf (imageVal s.sys.image Reg.pgwSeqCfg) 4 0)
          (bitsOf (imageVal s.sys.image Reg.pgwCfg) 15 0) →
        Completes (.sunriseStepEnd f) s (partsOf (.sunriseStepEnd f)) (fun t => t.sunriseStep = 9 ∧ t.bootStopped = false ∧ t.sys.badHbm = f.badHbm.filter (· < 8)))
    ∧ (s.sunriseStep = 8 → spareProtected s.sys.split (f.badHbm.filter (· < 8)) (bitsOf (imageVal s.sys.image Reg.pgwSeqCfg) 4 0)
          (bitsOf (imageVal s.sys.image Reg.pgwCfg) 15 0) < 1048576 → stopsWith Stop.memory)
    ∧ (s.sunriseStep = 9 → Completes (.sunriseStepEnd f) s (partsOf (.sunriseStepEnd f)) (fun t =>
        (t.sunriseStep = 11 ∧ ∀ w ∈ s.sys.image, w.1 ≠ Reg.sysBoot → t.live w.1 = imageVal s.sys.image w.1) ∨
        (t.bootStopped = true ∧ t.fld Reg.sysBoot 15 8 = Stop.apply ∧ t.bit Reg.sysEvent 3 = true)))

/-- In a running node whose Sunrise stands in step 11 with time acquired, SERVICE: SYS_BOOT shows step 12 and in service, the bridge is open, the current mode is NIGHT, PGW_STATUS.tables_live is 1, counter 1 is odd (the claim), counters 2 and 3 are at least the security version numbers of this Sunrise, each watchdog timer starts at the present count, and one JOIN with this node's identity, certificate and report goes to the partners. In a node not claimed before, the claim record of the operator's keys stands in the flash; in a claimed one the flash is as it was. -/
def Obligations.ServiceOpensTheNode : Prop :=
  ∀ s : State, s.Inv → s.running = true → s.inService = false → s.bootStopped = false → s.sunriseStep = 11 → s.time.acquired = true →
    Completes .service s (partsOf .service) (fun t =>
      t.inService = true ∧ t.sunriseStep = 12 ∧ t.bridgeOpen = true ∧ t.mode = 3 ∧ t.bit Reg.pgwStatus 0 = true ∧ t.claimOdd = true ∧
      s.sec.svn.1 ≤ t.sec.counters.getD 2 0 ∧ s.sec.svn.2 ≤ t.sec.counters.getD 3 0 ∧ t.hlt.kicks = List.replicate 4 s.now ∧
      Sends s t [s.ctlMsg partners 11 (s.myIdent :: s.seenInTraining ++ sizedArgs s.sec.cert ++ sizedArgs s.sec.report ++ byteArgs s.sec.reportPath.flatten)] ∧
      t.sys = { s.sys with flash := t.sys.flash } ∧ (s.claimOdd = true → t.sys.flash = s.sys.flash) ∧
      (s.claimOdd = false → ∀ i, i < (s.claimOf s.sec.operator).length → spGet 255 t.sys.flash (FlashMap.claim + i) = ((s.claimOf s.sec.operator).getD i 0).toNat))

/-- With the standby domain up: FEED_INVALID of a feed clears its valid bit and sets PWR_EVENT.feed_invalid, and where it was in use and the other is valid the node draws from the other and sets PWR_EVENT.switchover. FEED_VALID sets its valid bit, and where it is preferred and not in use the node draws from it. PEAK in a running node sets PWR_EVENT.peak. No register but PWR_STATUS and PWR_EVENT changes. -/
def Obligations.FeedsSwitchAsTheyComeAndGo : Prop :=
  ∀ (s : State), s.Inv →
    (∀ b, s.standbyUp = true →
      Completes (.feedInvalid b) s [.live, .hst, .sum, .outbox] (fun t =>
        t.bit Reg.pwrStatus (1 + b2n b) = false ∧ t.bit Reg.pwrEvent 3 = true ∧ SameRegsBut [Reg.pwrStatus, Reg.pwrEvent] s t ∧
        (s.bit Reg.pwrStatus 0 = b → s.bit Reg.pwrStatus (1 + b2n (!b)) = true → t.bit Reg.pwrStatus 0 = !b ∧ t.bit Reg.pwrEvent 0 = true)))
    ∧ (∀ b, s.standbyUp = true →
      Completes (.feedValid b) s [.live, .hst, .sum, .outbox] (fun t =>
        t.bit Reg.pwrStatus (1 + b2n b) = true ∧ SameRegsBut [Reg.pwrStatus, Reg.pwrEvent] s t ∧
        (s.fld Reg.pwrFeedCfg 0 0 = b2n b → s.bit Reg.pwrStatus 0 = !b → t.bit Reg.pwrStatus 0 = b ∧ t.bit Reg.pwrEvent 0 = true)))
    ∧ (s.running = true → Completes .peak s [.live, .hst, .sum, .outbox] (fun t => t.bit Reg.pwrEvent 1 = true ∧ SameRegsBut [Reg.pwrEvent] s t))

/-- In a running node out of Twilight: REFCLK_LOSS with REFCLK good, or PLL_UNLOCK of a PLL that is locked, starts Twilight at the present count and gives up the time acquired; where the node has no link, no map and a good crystal, CLK_STATUS shows Twilight and CLK_EVENT what happened. In Twilight, TWILIGHT_EXIT gives the clocks the current mode (NIGHT with no map); with no link and nothing pending CLK_STATUS shows Twilight no more. In a running node: XTAL_LOSS out of Twilight clears CLK_STATUS.xtal_ok and sets CLK_EVENT.xtal_loss; XTAL_RETURN sets xtal_ok; beside CLK_EVENT and CLK_STATUS these two change no register. -/
def Obligations.TwilightAndTheCrystal : Prop :=
  (∀ (s : State), s.Inv → s.running = true →
     (s.inTwilight = false → s.bit Reg.clkStatus 0 = true → Completes .refclkLoss s (partsOf .refclkLoss) (fun t =>
         t.sys.twilightAt = s.now ∧ t.time = { s.time with acquired := false } ∧
         (s.lnk.links = [] → s.map.cur = none → s.bit Reg.clkStatus 1 = true →
           t.inTwilight = true ∧ t.bit Reg.clkStatus 0 = false ∧ t.bit Reg.clkEvent 0 = true ∧ t.bit Reg.clkEvent 2 = true)))
     ∧ (∀ pll, pll < 5 → s.inTwilight = false → s.bit Reg.clkStatus (2 + pll) = true → Completes (.pllUnlock pll) s (partsOf (.pllUnlock pll)) (fun t =>
         t.sys.twilightAt = s.now ∧ t.time = { s.time with acquired := false } ∧
         (s.lnk.links = [] → s.map.cur = none → t.inTwilight = true ∧ t.bit Reg.clkEvent 1 = true ∧ t.bit Reg.clkEvent 2 = true)))
     ∧ (s.inTwilight = true → Completes .twilightExit s (partsOf .twilightExit) (fun t =>
         t.time = { s.time with clockMode := if s.map.cur.isSome then s.mode else 3 } ∧ t.sys = { s.sys with sumMsg := t.sys.sumMsg, sumOwed := t.sys.sumOwed } ∧
         (s.lnk.links = [] → s.regs.pend = [] → t.inTwilight = false ∧ t.fld Reg.clkStatus 6 2 = 31 ∧ t.bit Reg.clkEvent 3 = true))))
  ∧ (∀ (s : State), s.Inv → s.running = true →
     (s.inTwilight = false → Completes .xtalLoss s [.live, .hst, .sum, .outbox] (fun t =>
         t.bit Reg.clkStatus 1 = false ∧ t.bit Reg.clkEvent 4 = true ∧ SameRegsBut [Reg.clkStatus, Reg.clkEvent] s t))
     ∧ Completes .xtalReturn s [.live] (fun t => t.bit Reg.clkStatus 1 = true ∧ SameRegsBut [Reg.clkStatus] s t))

/-- Right after reset every register reads its reset value in both copies, Sunrise is in step 3, the mode is NIGHT, TIME_STATUS shows no source and hop 15, nothing is pending, no queue pair, sequence, program, link or map is known, and the node is not in service. (The count 0 and the absence of a map are the model's choice, log 1.) -/
def Obligations.ResetLeavesTheStatedValues : Prop :=
  (∀ a, State.reset.live a = resetOf a ∧ State.reset.staged a = resetOf a) ∧
  State.reset.sunriseStep = 3 ∧ State.reset.mode = 3 ∧ State.reset.fld Reg.timeStatus 1 0 = 0 ∧ State.reset.fld Reg.timeStatus 8 5 = 15 ∧
  State.reset.regs.pend = [] ∧ State.reset.que.qps = [] ∧ State.reset.pgw.seqs = [] ∧ State.reset.prog.programs = [] ∧
  State.reset.lnk.links = [] ∧ State.reset.map.cur = none ∧ State.reset.inService = false ∧ State.reset.running = true

/-- In a running node: WATCHDOG_KICK of one of the four control cores makes the present count that core's and changes nothing else. WATCHDOG_FIRE in a node that is fenced and whose watchdog has not fired before lets the count reach the core's limit, adds one to HLT_WDOG.fires up to 255, sets HLT_EVENT.watchdog, shows and starts a replay and restarts every timer. REPLAY_DONE whose digest agrees with the one recorded ends the replay and shows it; with any other digest it ends the replay and the node, fenced and not FAILED yet, is FAILED, shown and recorded. -/
def Obligations.WatchdogKicksFiresAndReplays : Prop :=
  ∀ (s : State) (core : Nat), s.Inv → s.running = true → core < 4 →
    Completes (.watchdogKick core) s [.hlt] (fun t => t.hlt = { s.hlt with kicks := listPut 0 s.hlt.kicks core s.now })
    ∧ (s.fenced = true → s.hlt.lastFire = none →
      Completes (.watchdogFire core) s (partsOf (.watchdogFire core)) (fun t =>
        t.now = max s.now (s.hlt.kicks.getD core 0 + 262144) ∧ t.fld Reg.hltWdog 7 0 = min 255 (s.fld Reg.hltWdog 7 0 + 1) ∧
        t.bit Reg.hltEvent 5 = true ∧ t.bit Reg.hltStatus 2 = true ∧ t.hlt.replay = true ∧ t.hlt.kicks = List.replicate 4 t.now ∧
        t.hlt.lastFire = some t.frame ∧ SameRegsBut [Reg.hltWdog, Reg.hltEvent, Reg.hltStatus] s t))
    ∧ (s.hlt.replay = true → Completes (.replayDone s.hlt.recorded) s [.live, .hlt] (fun t =>
        t.hlt = { s.hlt with replay := false } ∧ t.bit Reg.hltStatus 2 = false ∧ SameRegsBut [Reg.hltStatus] s t))
    ∧ (∀ digest, s.hlt.replay = true → digest ≠ s.hlt.recorded → s.hlt.health ≠ 2 → s.fenced = true → Completes (.replayDone digest) s (partsOf (.replayDone digest)) (fun t =>
        t.hlt.replay = false ∧ t.hlt.health = 2 ∧ t.bit Reg.hltStatus 2 = false ∧ t.fld Reg.hltStatus 1 0 = 2 ∧ t.bit Reg.hltEvent 3 = true))

/-- In a running node, ATTEST_QUEUE of a 32-byte nonce with no nonce in slot 4,095 queues it there and shows SEC_ATTEST_STATUS.queued and not ready; with one there it waits as the slot's next. ACT_ON_TOKEN, of the token that SEC_DEBUG holds, ends the commit of SEC_ATTEST_CTL.token that named it, or makes one: a token that fails its checks, or is none of R364 for this node, sets token_bad and changes no more than that; a valid release token makes counter 1 even, clears SEC_STATUS.claimed and token_bad; a valid debug token in a node already fenced zeroes flat memory, sequences, programs, match images, queue pairs, requests, evidence and the key of tier 2, counts the token, sets SEC_STATUS.debug_active and SEC_EVENT.debug_loaded. In a running node with a signed report of frame M at the front, REPORT_DELIVERY brings the count to tick 0 of minute 1 of frame M + 4, makes that report and its path of slot 4,095 those that can be read, takes it off the list of signed reports, and takes off the requests that waited for it, for each of which one reply with status OK joins those waiting, with the report and the twelve sibling hashes of its slot; every other waiting request and every other reply stays. Unless it is a candidate in service, which then sends its JOIN, the node shows SEC_ATTEST_STATUS.ready exactly where that report covers the nonce of SEC_ATTEST_NONCE and none is queued, and no other register changes. -/
def Obligations.NoncesAndReports : Prop :=
  (∀ (s : State), s.Inv → s.running = true →
     (∀ nonce : List Byte, nonce.length = 32 → Completes (.attestQueue nonce) s [.live, .staged, .sec] (fun t =>
         t.fld Reg.secAttestStatus 1 0 = 1 ∧ t.attestNonce = nonce ∧
         (tabGet s.sec.nonces 4095 = none → t.sec = { s.sec with nonces := tabPut s.sec.nonces 4095 nonce }) ∧
         (tabGet s.sec.nonces 4095 ≠ none → t.sec = { s.sec with nonces2 := s.sec.nonces2 ++ [(4095, nonce)] })))
     ∧ (∀ f : TokenFacts,
       (s.tokenKind f = none → Completes (.actOnToken f) s [.live, .staged, .sec] (fun t =>
         t.bit Reg.secAttestStatus 2 = true ∧ t.sec = { s.sec with tokenDue := false } ∧ SameRegsBut [Reg.secAttestStatus, Reg.secAttestCtl] s t))
       ∧ (s.tokenKind f = some 2 → Completes (.actOnToken f) s [.live, .staged, .sec] (fun t =>
         t.bit Reg.secAttestStatus 2 = false ∧ t.claimOdd = false ∧ t.bit Reg.secStatus 1 = false ∧
         t.sec = { s.sec with counters := t.sec.counters, tokenDue := false } ∧ SameRegsBut [Reg.secAttestStatus, Reg.secAttestCtl, Reg.secStatus] s t))
       ∧ (s.tokenKind f = some 1 → s.fenced = true → Completes (.actOnToken f) s (partsOf (.actOnToken f)) (fun t =>
         t.mem.flat = [] ∧ t.pgw.seqs = [] ∧ t.pgw.groups = [] ∧ t.prog = ProgSt.reset ∧ t.mat = MatSt.reset ∧ t.sch.held = [] ∧ t.sch.replies = [] ∧ t.hlt.evidence = [] ∧
         t.sec.tierKey = List.replicate 32 0 ∧ t.sec.debugCount = s.sec.debugCount + 1 ∧ t.bit Reg.secStatus 4 = true ∧ t.bit Reg.secEvent 6 = true))))
  ∧ (∀ (s : State) (m : Nat) (report : List Byte) (leaves : List (List Byte)) (rest : List (Nat × (List Byte × List (List Byte)))),
     s.Inv → s.running = true → s.sec.signed = (m, (report, leaves)) :: rest →
     let joins : Prop := s.inService = true ∧ s.map.nodeState = .candidate ∧ s.map.cur = none
     Completes .reportDelivery s (partsOf .reportDelivery) (fun t =>
       t.now = max s.now (1048576 * (m + 4) + 1024) ∧
       t.sec.signed = rest ∧ t.sec.report = report ∧ t.sec.reportPath = siblings 12 4095 leaves ∧ t.sec.waiting = s.sec.waiting.filter (fun w => w.frame != some m) ∧
       (∃ made : List Reply, t.sch.replies = List.append s.sch.replies made ∧ made.length = (s.sec.waiting.filter (fun w => w.frame == some m)).length ∧
         (∀ (i : Nat) (w : AttWait), (s.sec.waiting.filter (fun w => w.frame == some m))[i]? = some w → ∃ x : Reply, made[i]? = some x ∧ x.req = w.req ∧ x.status = Status.ok ∧
           x.tDispatch = w.tDispatch ∧ x.body = report ++ (siblings 12 w.slot leaves).flatten)) ∧
       (¬joins → SameRegsBut [Reg.secAttestStatus] s t ∧ t.outbox = s.outbox ∧
         t.sec = { s.sec with signed := rest, report := report, reportPath := siblings 12 4095 leaves, waiting := s.sec.waiting.filter (fun w => w.frame != some m) } ∧
         (t.bit Reg.secAttestStatus 1 = true ↔ leaves[4095]? = some (nonceLeaf 4095 s.attestNonce) ∧ s.bit Reg.secAttestStatus 0 = false)) ∧
       (joins → ∃ u : State, u.map = s.map ∧ u.sec.cert = s.sec.cert ∧ Sends s t [u.ctlMsg partners 11
         (u.myIdent :: u.seenInTraining ++ sizedArgs s.sec.cert ++ sizedArgs report ++ byteArgs (siblings 12 4095 leaves).flatten)])))

/-- For APPEND, ATTEND, APPEND_ATTEND, VERIFY, COMMIT, BIND, PUBLISH, UNPUBLISH, RELEASE, ATTEST, RUN and PROJECT_ATTEND: where a message of the row's opcode (and action) comes in on a submission ring and every check from ingress to admission lets it through, one request joins the end of those held; it has the next request number, the message and delivery as they came, the ring's class, the cost of R288, the present count as its admission (of an isolated class 112 ticks later, before which it is not released); one evidence entry more is reserved; the tenant's aggregate gives up 256 units a cost unit and counts the cost as queued. No reply is sent and memory stays but for what Dawn may begin to move. -/
def Obligations.RequestsReachTheirCalendar : Prop :=
  ∀ (s : State) (arr : Arrival) (m : List Byte) (q : Qp) (i : Instr) (op : Op), s.Inv →
    (i, op, true) ∈ requestRows arr m → RingAdmits s arr m op q →
    Completes i s (partsOf i) (fun t =>
      (∃ r, t.sch.held = s.sch.held ++ [r] ∧ r.rid = s.sch.nextRid ∧ r.msg = m ∧ r.arr = arr ∧ r.cls = q.cls ∧ r.cost = (s.costOf op m).1 ∧
        r.tAdmit = s.now + (if s.isolated q.cls = true then 112 else 0) ∧ r.notBefore = (if s.isolated q.cls = true then s.now + 112 else 0) ∧ r.evEntry = true) ∧
      t.sch.nextRid = s.sch.nextRid + 1 ∧ t.sch.replies = s.sch.replies ∧ t.hlt.evReserved = s.hlt.evReserved + 1 ∧
      (∃ a, tabGet t.sch.aggs q.part = some a ∧ a.content = (s.agg q.part).content - 256 * (s.costOf op m).1 ∧
        a.queued = (s.agg q.part).queued + (s.costOf op m).1))

/-- Where a SPAN_WORK message of another node is accepted on a system queue pair in a mode other than NIGHT and passes ingress, map check, data check and pool: one request joins the end of those held, with the class of the sequence it names here (or the class the packet carries) and the cost of R288, and no evidence entry is reserved for it; no tenant's aggregate changes. A message with an opcode that no row of Tables 3.2, 8.1 and 11.6 gives, coming in on a submission ring: one reply of the next request number with status BAD_OPCODE and detail 0 joins those waiting; nothing joins a calendar; beside the queue pair's own count of messages nothing else changes. -/
def Obligations.SpanWorkAndUnknownOpcodes : Prop :=
  (∀ (s s1 : State) (arr : Arrival) (m : List Byte) (q : Qp) (c : Nat),
     s.running = true → arr.via = .fwd c → s.acceptRequest arr m = .accept s1 → s1.qp arr.ctx = some q → q.part = sysPart →
     Msg.opcode m = 0x30 → ingressFault .spanWork m arr.length = none → s1.mapOk (Msg.mapGen m) = true → s1.mode ≠ 3 → dataFault .spanWork m = none →
     let cls := ((s1.findSeq (Msg.tenant m) (Msg.sid m)).map (·.cls)).getD c
     s1.poolFree cls = true →
     Completes (.spanWork arr m) s (partsOf (.spanWork arr m)) (fun t =>
       (∃ r, t.sch.held = s.sch.held ++ [r] ∧ r.rid = s.sch.nextRid ∧ r.msg = m ∧ r.arr = arr ∧ r.cls = cls ∧ r.cost = (s1.costOf .spanWork m).1 ∧ r.evEntry = false) ∧
       t.hlt.evReserved = s.hlt.evReserved ∧ t.sch.aggs = s.sch.aggs ∧ t.sch.replies = s.sch.replies))
  ∧ (∀ (s : State) (arr : Arrival) (m : List Byte) (q : Qp), OnRing s arr q → opOf (Msg.opcode m) = none →
     Completes (.badOpcode arr m) s [.sch, .que] (fun t =>
       (∃ x, t.sch.replies = s.sch.replies ++ [x] ∧ x.req.rid = s.sch.nextRid ∧ x.req.msg = m ∧ x.status = Status.badOpcode ∧ x.detail = 0) ∧
       t.sch.held = s.sch.held ∧ t.que = (s.putQp (ringBase + arr.ctx) q.took).que))

/-- Where an RREAD comes in on a submission ring and is let through, its key names a region that allows the read and covers it, no check symbol lies in its range, no bank group it meets is busy or due a refresh and no block under a code meets an error: one reply joins those waiting, of that request, with status OK and the bytes that stand at the region's base plus the offset; no memory changes and nothing joins a calendar. Where the first block that its code cannot correct lies at offset k of the range, the reply has status ADDRESS_ERROR, detail k and no data (the model's choice, log 104). Where an RWRITE or RWRITE_TILES comes in on a submission ring and is let through, its key names a region without mirror that allows the write and covers it, no check symbol and no sealed KiB lies in its range, no bank group it meets is busy or due a refresh, and (for tiles) every tile passes its digest: the bytes of the message stand at the region's base plus the offset, every other byte of ordinary flat memory reads as before, and one reply with status OK joins those waiting. -/
def Obligations.RemoteAccessesReadAndWriteTheFlatRange : Prop :=
  (∀ (s : State) (arr : Arrival) (m : List Byte) (q : Qp) (g : Region), s.Inv → Msg.opcode m = 0x10 → RingAdmits s arr m .rread q →
     s.region q.part (Remote.key m) .rread (Remote.off m) (Remote.len m) = .ok g →
     let a := g.base + Remote.off m
     let struck := arr.ecc.filter (fun x => decide (x.1 < Remote.len m) && s.codedAt (a + x.1))
     s.firstCheck a (Remote.len m) = none → s.QuietAt a (Remote.len m) →
     (struck = [] → Completes (.rread arr m) s (partsOf (.rread arr m)) (fun t =>
       (∃ x, t.sch.replies = s.sch.replies ++ [x] ∧ x.req.rid = s.sch.nextRid ∧ x.req.msg = m ∧ x.status = Status.ok ∧ x.length = 0 ∧
         x.body = s.readBytes a (Remote.len m)) ∧
       t.mem = s.mem ∧ t.sch.held = s.sch.held))
     ∧ (∀ y, struck.find? (fun x => x.2 == .uncorrectable) = some y → Completes (.rread arr m) s (partsOf (.rread arr m)) (fun t =>
       ∃ x, t.sch.replies.getLast? = some x ∧ x.req.rid = s.sch.nextRid ∧ x.req.msg = m ∧ x.status = Status.addressError ∧ x.detail = y.1 ∧ x.body = [])))
  ∧ (∀ (s : State) (arr : Arrival) (m : List Byte) (q : Qp) (g : Region), s.Inv → g.mirror = 0xFFFF →
     let a := g.base + Remote.off m
     let len := Remote.len m
     let lands (i : Instr) (data : List Byte) : Prop := Completes i s (partsOf i) (fun t =>
       (∀ x, t.peek x = if a ≤ x ∧ x < a + data.length then data.getD (x - a) 0 else s.peek x) ∧
       (∃ x, t.sch.replies = s.sch.replies ++ [x] ∧ x.req.rid = s.sch.nextRid ∧ x.status = Status.ok) ∧ t.sch.held = s.sch.held)
     (Msg.opcode m = 0x11 → RingAdmits s arr m .rwrite q → s.region q.part (Remote.key m) .rwrite (Remote.off m) len = .ok g →
       s.QuietAt a len → s.firstCheck a (slice m 72 len).length = none → s.firstSealed a (slice m 72 len).length = none → lands (.rwrite arr m) (slice m 72 len))
     ∧ (Msg.opcode m = 0x12 → RingAdmits s arr m .rwriteTiles q → s.region q.part (Remote.key m) .rwriteTiles (Remote.off m) len = .ok g →
       s.QuietAt a len → s.firstCheck a len = none → s.firstSealed a len = none → badTile (m.drop 72) (fmtTile (Remote.fmt m)) (len / fmtTile (Remote.fmt m)) = none →
       lands (.rwriteTiles arr m) ((m.drop 72).take len)))

/-- In service with no command under way, for a queue pair whose context is on chip and an image that names a queue pair and no ring: CREATE_QP of a FREE one with an image in its ranges, to an endpoint it may have, puts it in INIT with the image's fields, unpinned; MODIFY_QP takes INIT to READY with the fields the image may set, READY to DRAIN, ERROR, and FENCED once the map names the peer a member again, to INIT with cleared stream, and answers BAD_STATE to a system pair or a transition outside Table 11.4, the context unchanged; both answer BAD_FIELD to an endpoint whose slice's edge bit the node lacks or whose certificate does not list the partition, the context unchanged; DESTROY_QP of a drained idle pair of a tenant takes it off the chip; READ_QP puts the context's image into QUE_CMD_DATA; PIN pins it while fewer are pinned than QUE_CFG's limit and answers PIN_LIMIT at the limit; UNPIN unpins it. Every other context stays as it is. The result stands in QUE_CMD_STATUS[7:4], 0 for OK, and busy reads 0. -/
def Obligations.QueuePairCommandsFollowTheirTable : Prop :=
  ∀ (s : State) (qpn : Nat) (q : Qp), s.Inv → s.running = true → s.inService = true → s.bit Reg.queCmdStatus 0 = false → qpn < ringBase → s.qp qpn = some q →
    let ends (i : Instr) (result : Nat) (after : Option Qp) : Prop := Completes i s [.live, .staged, .que, .hst, .outbox] (fun t =>
      t.qp qpn = after ∧ (∀ k, k ≠ qpn → t.qp k = s.qp k) ∧ t.que.regions = s.que.regions ∧
      t.fld Reg.queCmdStatus 7 4 = result ∧ t.bit Reg.queCmdStatus 0 = false)
    let allowed (image : List Byte) : Prop := s.edgeOk (qpOfImage image) = true ∧ s.endpointOk (qpOfImage image) = true
    (∀ image : List Byte, image.length = 256 → q.state = .free → imageOk image (qpOfImage image) = true → bitOf (field image 0 4) 25 = false →
      (allowed image → ends (.createQp qpn image) 0 (some { qpOfImage image with
        state := .init, pinned := false, urgent := s.urgentClass (qpOfImage image).cls, last := s.minutes, depth := 0 }))
      ∧ (¬allowed image → ends (.createQp qpn image) 2 (some q)))
    ∧ (∀ image : List Byte, q.state ≠ .free → q.part ≠ sysPart → image.length = 256 → bitOf (field image 0 4) 25 = false → ¬allowed image → ends (.modifyQp qpn image) 2 (some q))
    ∧ (∀ image : List Byte, image.length = 256 → bitOf (field image 0 4) 25 = false → q.state ≠ .free → q.part ≠ sysPart → q.ring = false →
      imageOk image (qpOfImage image) = true → allowed image → (qpOfImage image).part = q.part →
      (q.state = .init → (qpOfImage image).state = .ready → ends (.modifyQp qpn image) 0 (some { q.modified (qpOfImage image) with
        state := .ready, peer := (qpOfImage image).peer, peerQpn := (qpOfImage image).peerQpn, sndNext := (qpOfImage image).sndNext
        sndUna := (qpOfImage image).sndNext, rcvNext := (qpOfImage image).rcvNext, tc := (qpOfImage image).tc, tp := (qpOfImage image).tp
        last := s.minutes }))
      ∧ (q.state = .ready → (qpOfImage image).state = .drain → ends (.modifyQp qpn image) 0 (some { q with state := .drain }))
      ∧ (q.state = .error → (qpOfImage image).state = .init → ends (.modifyQp qpn image) 0 (some q.cleared))
      ∧ (q.state = .fenced → (qpOfImage image).state = .init → (∀ e, s.nodeEnt q.peer = some e → e.state ≠ .member ∧ e.state ≠ .draining) →
          ends (.modifyQp qpn image) 1 (some q))
      ∧ (q.state = .fenced → (qpOfImage image).state = .init → (∃ e, s.nodeEnt q.peer = some e ∧ (e.state = .member ∨ e.state = .draining)) →
          ends (.modifyQp qpn image) 0 (some q.cleared))
      ∧ (q.state = .drain ∨ (qpOfImage image).state = .error ∨ (qpOfImage image).state = .fenced → ends (.modifyQp qpn image) 1 (some q)))
    ∧ (∀ image : List Byte, image.length = 256 → bitOf (field image 0 4) 25 = false → q.state ≠ .free → q.part = sysPart → ends (.modifyQp qpn image) 1 (some q) ∧ ends (.destroyQp qpn) 1 (some q))
    ∧ (q.part ≠ sysPart → q.ring = false → q.inbound = 0 → q.depth = 0 → q.sent = [] → s.que.ops = [] → q.state = .drain → ends (.destroyQp qpn) 0 none)
    ∧ (ends (.readQp qpn) 0 (some q) ∧ Completes (.readQp qpn) s [.live, .staged, .que] (fun t =>
        ∀ i, i < 64 → t.live (Reg.queCmdData + 4 * i) = field (q.image qpn) (4 * i) 4 % 2 ^ 32))
    ∧ (q.state ≠ .free → (q.pinned = true ∨ s.pinnedCount < s.fld Reg.queCfg 10 0) → ends (.pin qpn) 0 (some { q with pinned := true }))
    ∧ (q.state ≠ .free → q.pinned = false → s.fld Reg.queCfg 10 0 ≤ s.pinnedCount → ends (.pin qpn) 3 (some q))
    ∧ (q.state ≠ .free → ends (.unpin qpn) 0 (some { q with pinned := false }))

/-- In service with no command under way: REGISTER_REGION of an entry in its ranges at an index whose entry is not valid and whose generation is below 65,535 makes it valid with the entry's fields and the index's generation; at an index whose entry is valid it answers IN_USE. DEREGISTER_REGION of a tenant's valid entry makes it invalid, its generation one more, at most 65,535; of an index with no entry it answers BAD_STATE. Every other entry and every context stays as it is, and after an answer other than OK every entry does. -/
def Obligations.RegionsAreRegisteredAndDeregistered : Prop :=
  ∀ (s : State) (i : Nat) (entry : List Byte), s.Inv → s.running = true → s.inService = true → s.bit Reg.queCmdStatus 0 = false → i < 65536 →
    let ends (c : Instr) (result : Nat) (after : Option Region) : Prop := Completes c s [.live, .staged, .que] (fun t =>
      tabGet t.que.regions i = after ∧ (∀ k, k ≠ i → tabGet t.que.regions k = tabGet s.que.regions k) ∧ t.que.qps = s.que.qps ∧
      t.fld Reg.queCmdStatus 7 4 = result ∧ t.bit Reg.queCmdStatus 0 = false)
    (entry.length = 32 → regionOk entry = true → (∀ g, tabGet s.que.regions i = some g → g.valid = false ∧ g.gen < 0xFFFF) →
      ends (.registerRegion i entry) 0 (some (regionOf entry (s.regionGen i))))
    ∧ (∀ g, tabGet s.que.regions i = some g → g.valid = true → ends (.registerRegion i entry) 5 (some g))
    ∧ (∀ g, tabGet s.que.regions i = some g → g.valid = true → g.part ≠ sysPart →
      ends (.deregisterRegion i) 0 (some { g with valid := false, gen := min 0xFFFF (g.gen + 1) }))
    ∧ (tabGet s.que.regions i = none → ends (.deregisterRegion i) 1 none)

/-- In a running node that does not lead: each of the ten proposals of Table 12.10, with no proposal PENDING, makes MAP_PROP_STATUS read PENDING, holds the change (its action, its arguments modulo 2^32, this node's next serial and its ID) as this node's own with the present frame, and sends exactly that change to the leader in one PROPOSE; while one is PENDING it changes nothing but the registers its commit captures. A mode proposal with a lead of 5 to 255 and none pending sets proposal_pending, clears proposal_refused, holds its serial and frame E = F + L, and sends the mode and E to the leader; with a lead below 5 it sets proposal_refused and sends nothing; with one pending it is ignored. -/
def Obligations.OperatorProposalsReachTheLeader : Prop :=
  ∀ s : State, s.Inv → s.running = true → s.isLeader = false →
    (∀ (i : Instr) (a x y z : Nat),
      ((∃ first count target, i = .moveSlots first count target ∧ (a, x, y, z) = (1, first, count, target)) ∨
       (∃ p q r, i = .setMembership p q r ∧ (a, x, y, z) = (2, p, q, r)) ∨ (∃ c sl, i = .setClass c sl ∧ (a, x, y, z) = (3, c, sl, 0)) ∨
       (∃ sl p, i = .setSlice sl p ∧ (a, x, y, z) = (4, sl, p, 0)) ∨ (∃ id, i = .drain id ∧ (a, x, y, z) = (5, id, 0, 0)) ∨
       (∃ id, i = .retire id ∧ (a, x, y, z) = (6, id, 0, 0)) ∨ (∃ id, i = .standIn id ∧ (a, x, y, z) = (7, id, 0, 0)) ∨
       (∃ id, i = .returnNode id ∧ (a, x, y, z) = (8, id, 0, 0)) ∨ (∃ p q, i = .clearLoss p q ∧ (a, x, y, z) = (9, p, q, 0)) ∨
       (∃ id, i = .declareDead id ∧ (a, x, y, z) = (10, id, 0, 0))) →
      (s.fld Reg.mapPropStatus 2 0 ≠ 1 → Completes i s [.live, .staged, .map, .outbox] (fun t =>
        let c : Change := ⟨a, x % 2 ^ 32, y % 2 ^ 32, z % 2 ^ 32, s.map.serial, s.map.id⟩
        t.fld Reg.mapPropStatus 2 0 = 1 ∧ t.map = { s.map with own := some (c, s.frame), serial := s.map.serial + 1 } ∧
        Sends s t [s.ctlMsg s.map.leader 4 (changeArgs [c])]))
      ∧ (s.fld Reg.mapPropStatus 2 0 = 1 → Completes i s [.live, .staged] (fun t =>
        t.fld Reg.mapPropStatus 2 0 = 1 ∧ t.live Reg.mapPropCtl = a ∧ t.live Reg.mapPropArg = x % 2 ^ 32)))
    ∧ (∀ mode lead : Nat, mode < 4 → lead < 256 →
      (s.bit Reg.timeModeStatus 5 = false → 5 ≤ lead → Completes (.modeProposal mode lead) s [.live, .staged, .map, .outbox] (fun t =>
        t.bit Reg.timeModeStatus 5 = true ∧ t.bit Reg.timeModeStatus 6 = false ∧ t.mode = s.mode ∧
        t.map = { s.map with ownMode := some (s.map.serial, s.frame + lead), ownTarget := mode, serial := s.map.serial + 1 } ∧
        Sends s t [s.ctlMsg s.map.leader 4
          (changeArgs [⟨Action.mode, mode, (s.frame + lead) % 2 ^ 32, (s.frame + lead) / 2 ^ 32, s.map.serial, s.map.id⟩])]))
      ∧ (s.bit Reg.timeModeStatus 5 = false → lead < 5 → Completes (.modeProposal mode lead) s [.live, .staged] (fun t =>
        t.bit Reg.timeModeStatus 6 = true ∧ t.bit Reg.timeModeStatus 5 = false))
      ∧ (s.bit Reg.timeModeStatus 5 = true → Completes (.modeProposal mode lead) s [.live, .staged] (fun t =>
        t.live Reg.timeModeStatus = s.live Reg.timeModeStatus)))

/-- For a message of this fabric and version, of no generation two above the one held: a HELLO is noted by its sender and raises the highest generations heard; in a node with a map it starts a fetch from the first other keeper where it tells of a committed generation not held. A LEASE of the leader of the term known for the present frame is held and shown as lease_ok; of another frame it changes nothing. A keeper that gets the leader's HEARTBEAT restarts its wait and ends an election under way; of a greater term it takes term and sender as leader and records leader_change. A keeper accepts a PREPARE of the leader whose change list, applied to the highest generation it holds, gives the generation and digest named, and answers ACCEPT; else it changes nothing. A COMMIT of a generation not yet seen that applies so is held until its effect frame; one seen before, or of a generation held, changes nothing. A REFUSE of the leader ends this node's proposal of that serial with its code and prop_done. A keeper answers FETCH with the 4 KiB of the map at the offset. -/
def Obligations.MessagesOfTheLeaderAreFollowed : Prop :=
  ∀ (s : State) (h : CtlHdr), s.Inv → s.ctlOk h = true → s.NotBehind h.gen →
    (∀ (link inEff committed dig st bare t1 bits : Nat) (lg : Bool), link < 64 → dig < 2 ^ 16 → h.sender ≠ 0x7FF → s.NotBehind inEff →
      let m := { s.map with seenEff := max s.map.seenEff inEff, hellos := tabPut s.map.hellos h.sender (st, bare, t1, bits, lg), heard := max s.map.heard committed }
      (committed ≤ (s.tip.map (·.gen)).getD 0 → Completes (.hello link h inEff committed dig st bare t1 bits lg) s [.map] (fun t => t.map = m))
      ∧ (∀ k, s.map.cur ≠ none → s.map.fetching = none → (s.tip.map (·.gen)).getD 0 < committed → s.keepers.find? (· != s.map.id) = some k →
        Completes (.hello link h inEff committed dig st bare t1 bits lg) s [.map, .outbox] (fun t =>
          t.map = { m with fetching := some (committed, 0) } ∧ Sends s t [s.ctlMsg k 8 [committed, 0]])))
    ∧ (∀ frame gen, h.term = s.map.term → h.sender = s.map.leader → s.NotBehind gen →
      (frame = s.frame → Completes (.lease h frame gen) s [.live, .map] (fun t =>
        t.map = { s.map with leaseFrame := some frame } ∧ t.bit Reg.mapStatus 6 = true ∧ SameRegsBut [Reg.mapStatus] s t))
      ∧ (frame ≠ s.frame → exec (.lease h frame gen) s = .next s))
    ∧ (∀ committed, s.isKeeper = true → committed ≤ (s.tip.map (·.gen)).getD 0 →
      (h.term = s.map.term → h.sender = s.map.leader → Completes (.heartbeat h committed) s [.map] (fun t =>
        t.map = { s.map with lastBeat := s.now, election := none, heard := max s.map.heard committed }))
      ∧ (s.map.term < h.term → Completes (.heartbeat h committed) s [.live, .map, .hst, .sum, .outbox] (fun t =>
        t.map = { s.map with term := h.term, leader := h.sender, votes := [], lastBeat := s.now, election := none, heard := max s.map.heard committed } ∧
        t.bit Reg.mapEvent 8 = true)))
    ∧ (∀ (m : MapData) (eff : Nat) (cs : List Change) (digest : List Byte), s.tip = some m →
      let next := m.next eff h.term h.sender cs
      (s.isKeeper = true → h.term = s.map.term → h.sender = s.map.leader →
        (h.bodyGen = next.gen → digest = next.digest → Completes (.prepare h eff cs digest) s [.map, .outbox] (fun t =>
          t.map = { s.map with accepted := some ⟨next.gen, eff, cs, next, []⟩ } ∧
          Sends s t [s.ctlMsg h.sender 6 (next.gen :: byteArgs digest)]))
        ∧ ((h.bodyGen ≠ next.gen ∨ digest ≠ next.digest) → exec (.prepare h eff cs digest) s = .next s))
      ∧ (∀ link, (h.bodyGen = next.gen → digest = next.digest → s.map.seen.contains next.gen = false → Completes (.mapCommit link h eff cs digest) s [.live, .map, .hst, .sum, .outbox] (fun t =>
          t.map.queue = s.map.queue ++ [next] ∧ t.map.heard = max s.map.heard next.gen ∧ t.map.cur = s.map.cur))
        ∧ ((h.bodyGen ≤ m.gen ∨ s.map.seen.contains h.bodyGen = true) → exec (.mapCommit link h eff cs digest) s = .next s)))
    ∧ (∀ (serial code : Nat) (c : Change) (f : Nat), s.fromLeader h = true → s.map.own = some (c, f) → c.serial = serial → s.map.ownMode = none →
      Completes (.refuse h serial code) s [.live, .map, .hst, .sum, .outbox] (fun t =>
        t.map = { s.map with own := none } ∧ t.fld Reg.mapPropStatus 2 0 = code % 8 ∧ t.bit Reg.mapEvent 5 = true))
    ∧ (∀ (m : MapData) (wanted offset : Nat), s.isKeeper = true → (s.map.queue ++ s.map.cur.toList).find? (fun m => m.gen == wanted) = some m →
      Completes (.fetch h wanted offset) s [.outbox] (fun t =>
        Sends s t [s.ctlMsg h.sender 9 (offset :: byteArgs ((m.bytes.drop offset).take 4096))]))

/-- ELECTION_TIMEOUT in a keeper that does not lead and has no election under way lets 131,072 ticks since the last HEARTBEAT pass and begins its wait of 16 minutes times its rank. ELECTION_BACKOFF ends the wait with one VOTE_REQ of the next term to every other keeper, its own vote given. VOTE_REQ of a keeper whose body names a term neither known nor voted in, and whose last accepted generation is at least this keeper's, is granted and answered so; any other is refused and answered so. A VOTE granted to this node's election is counted; with the majority the node leads that term and records leader_change. PROPOSE at the leader holds a change that passes its checks until the next PREPARE and answers one that fails with REFUSE and its code. ACCEPT of the prepared generation by a keeper is counted; with the majority in minutes 704 to 767, and tables that keep the channel order, the generation is committed, and else waits. PROPOSAL_TIMEOUT ends a proposal that reached no leader with NO_LEADER after 2 frames, and a mode proposal at the end of frame E − 2 with proposal_refused; at the leader it ends the proposal whose limit comes with TIMEOUT. -/
def Obligations.ElectionsAndTheLeadersWork : Prop :=
  ∀ (s : State) (h : CtlHdr), s.Inv → s.running = true → s.NotBehind h.gen →
    (s.isKeeper = true → s.map.leader ≠ s.map.id → s.map.election = none → Completes .electionTimeout s [.now, .map] (fun t =>
      t.now = max s.now (s.map.lastBeat + 131072) ∧ t.map = { s.map with election := some (t.now + 16384 * s.keeperRank) }))
    ∧ (∀ w : Nat, s.map.election = some w → Completes .electionBackoff s [.now, .map, .outbox] (fun t =>
      let term := max s.map.term s.map.voted + 1
      t.now = max s.now w ∧ t.map = { s.map with election := none, voted := term, votes := [s.map.id] } ∧
      Sends s t ((s.keepers.filter (· != s.map.id)).map (fun k => s.ctlMsg k 12 [term, s.lastAccepted]))))
    ∧ (∀ last : Nat, s.ctlOk h = true → s.isKeeper = true →
      (h.sender ∈ s.keepers → s.map.term < h.bodyTerm → s.map.voted < h.bodyTerm → s.lastAccepted ≤ last → Completes (.voteReq h last) s [.map, .outbox] (fun t =>
        t.map = { s.map with voted := h.bodyTerm, votes := [] } ∧ Sends s t [s.ctlMsg h.sender 13 [h.bodyTerm, 1]]))
      ∧ ((h.sender ∉ s.keepers ∨ h.bodyTerm ≤ s.map.term ∨ h.bodyTerm ≤ s.map.voted ∨ last < s.lastAccepted) → Completes (.voteReq h last) s [.outbox] (fun t =>
        Sends s t [s.ctlMsg h.sender 13 [h.bodyTerm, 0]])))
    ∧ (s.ctlOk h = true → s.isKeeper = true → s.map.votes ≠ [] → h.bodyTerm = s.map.voted →
      (s.majority (setInsert s.map.votes h.sender).length = true → Completes (.vote h true) s (partsOf (.vote h true)) (fun t =>
        t.map.leader = s.map.id ∧ t.map.term = s.map.voted ∧ t.map.votes = [] ∧ t.bit Reg.mapEvent 8 = true))
      ∧ (s.majority (setInsert s.map.votes h.sender).length = false → Completes (.vote h true) s [.map] (fun t =>
        t.map = { s.map with votes := setInsert s.map.votes h.sender })))
    ∧ (∀ (m : MapData) (c : Change), s.ctlOk h = true → s.isLeader = true → s.tip = some m → c.action ≠ Action.mode →
      let code := s.proposalCode { m with moves := [] } { c with proposer := h.sender }
      (code = 0 → Completes (.propose h [c]) s [.map] (fun t =>
        t.map = { s.map with proposals := s.map.proposals ++ [({ c with proposer := h.sender }, s.prepareFrame)] }))
      ∧ (code ≠ 0 → h.sender ≠ s.map.id → Completes (.propose h [c]) s [.outbox] (fun t =>
        Sends s t [s.ctlMsg h.sender 14 [c.serial, code]])))
    ∧ (∀ p : Prepared, s.ctlOk h = true → s.isLeader = true → h.sender ∈ s.keepers → s.map.prepared = some p → h.bodyGen = p.gen →
      (s.majority (setInsert p.accepts h.sender).length = true → 704 ≤ s.minute → s.minute < 768 → p.map.ordered = true →
        Completes (.accept h p.map.digest) s (partsOf (.accept h p.map.digest)) (fun t => t.map.prepared = none ∧ t.map.queue = s.map.queue ++ [p.map]))
      ∧ ((s.majority (setInsert p.accepts h.sender).length = false ∨ s.minute < 704 ∨ 768 ≤ s.minute ∨ p.map.ordered = false) → Completes (.accept h p.map.digest) s [.map] (fun t =>
        t.map = { s.map with prepared := some { p with accepts := setInsert p.accepts h.sender } })))
    ∧ (∀ x, s.isLeader = true → s.map.proposals = [x] → x.1.proposer ≠ s.map.id → s.map.own = none → s.map.ownMode = none → s.map.prepared = none →
      Completes .proposalTimeout s [.now, .map, .outbox] (fun t => t.now = max s.now (proposalLimit x) ∧ t.map = { s.map with proposals := [] } ∧
        Sends s t [s.ctlMsg x.1.proposer 14 [x.1.serial, propTimeout]]))
    ∧ (s.isLeader = false →
      (∀ c f, s.map.own = some (c, f) → s.map.ownMode = none → s.reachable s.map.leader = false →
        Completes .proposalTimeout s (partsOf .proposalTimeout) (fun t =>
          t.now = max s.now (2 ^ 20 * (f + 3)) ∧ t.map = { s.map with own := none } ∧ t.fld Reg.mapPropStatus 2 0 = 6 ∧ t.bit Reg.mapEvent 5 = true))
      ∧ (∀ serial e, s.map.own = none → s.map.ownMode = some (serial, e) → Completes .proposalTimeout s [.now, .live, .map] (fun t =>
          t.now = max s.now (2 ^ 20 * (e - 1)) ∧ t.map = { s.map with ownMode := none } ∧
          t.bit Reg.timeModeStatus 5 = false ∧ t.bit Reg.timeModeStatus 6 = true)))

/-- For messages of this fabric, of no generation two above the one held. SUSPECT at the leader notes its reporter and when, and a node's own report, or a second partner's within 32 minutes, brings a verdict. SUSPECT_TIMEOUT of a link partner on a node that does not lead lets the silence reach its limit and tells the leader how many minutes it lasts. JOIN at the leader, its identity and report verified, at a place of a tray that a fabric has, that agrees with the cabling it saw and that no node holds, is noted for the next PREPARE, and with any of these failing changes nothing; at a node with a map that does not lead and has not fenced itself, a candidate's JOIN goes on to the leader as it came. MAP_PART at the offset asked for asks for the next 4 KiB (unless it comes unasked), or, as the last of a map of this fabric not older than what is held, queues the map and records catch_up, where the node holds a map or this one names it. SEQUENCE_TRANSFER of a sequence without tails whose new home this node is makes it a sequence of this home in a free slot of its buckets. -/
def Obligations.SuspicionJoinAndTransfers : Prop :=
  ∀ (s : State) (h : CtlHdr), s.Inv → s.running = true → s.ctlOk h = true → s.NotBehind h.gen →
    (∀ (id minutes : Nat) (m : MapData) (e : NodeEnt), s.isLeader = true → minutes < 2 ^ 32 → s.tip = some m → tabGet m.nodes id = some e → e.serves = true →
      (h.sender = id → Completes (.suspect h id minutes) s [.map] (fun t => t.map = { s.map with verdicts := setInsert s.map.verdicts id }))
      ∧ (h.sender ≠ id →
        let rs := tabPut (((tabGet s.map.suspects id).getD []).filter (fun r => decide (s.now ≤ r.2 + 32768))) h.sender s.now
        (2 ≤ ((rs.map Prod.fst).filter (m.partnersOf id).contains).length → Completes (.suspect h id minutes) s [.map] (fun t =>
          t.map = { s.map with suspects := tabPut s.map.suspects id rs, verdicts := setInsert s.map.verdicts id }))
        ∧ ((rs.map Prod.fst).filter (m.partnersOf id).contains = [] → Completes (.suspect h id minutes) s [.map] (fun t =>
          t.map = { s.map with suspects := tabPut s.map.suspects id rs }))))
    ∧ (∀ partner, s.map.cur ≠ none → s.fenced = false → (∃ l ∈ s.lnk.links, l.2.lastPartner = partner) → tabGet s.map.lastSuspect partner = none → s.isLeader = false →
      Completes (.suspectTimeout partner) s [.now, .map, .outbox] (fun t =>
        t.now = max s.now (s.lastFrom partner + 16384 * s.fld Reg.mapCfg 7 0) ∧ t.map = { s.map with lastSuspect := tabPut s.map.lastSuspect partner t.now } ∧
        Sends s t [s.ctlMsg s.map.leader 10 [partner, (t.now - s.lastFrom partner) / 1024]]))
    ∧ (∀ (m : MapData) (f : JoinFacts) (ident x y z tray slot : Nat), s.tip = some m →
      let e : NodeEnt := ⟨.candidate, x, y, z, tray, slot, false, ident⟩
      let good : Prop := s.joinOk f ident = true ∧ e.seated = true ∧ m.seatCabled e f.seen = true ∧ m.seatTaken ident e = false
      (s.isLeader = true → good → Completes (.join h f ident x y z tray slot) s [.map] (fun t =>
        t.map = { s.map with joins := tabPut s.map.joins ident e }))
      ∧ (s.isLeader = true → ¬good → exec (.join h f ident x y z tray slot) s = .next s)
      ∧ (s.isLeader = false → s.fenced = false → s.map.cur ≠ none → h.sender = 0x7FF → Completes (.join h f ident x y z tray slot) s [.outbox] (fun t =>
        let args := joinArgs f ident x y z tray slot
        Sends s t [.ctl s.map.leader 11 (ctlBytes h 11 args) args])))
    ∧ (∀ (g offset : Nat) (m : MapData), s.map.fetching = some (g, offset) →
      (g ≠ 0 → Completes (.mapPart h offset false m) s [.map, .outbox] (fun t =>
        t.map = { s.map with fetching := some (g, offset + 4096) } ∧ Sends s t [s.ctlMsg h.sender 8 [g, offset + 4096]]))
      ∧ (g = 0 → Completes (.mapPart h offset false m) s [.map] (fun t => t.map = { s.map with fetching := some (g, offset + 4096) }))
      ∧ ((s.map.cur ≠ none ∨ s.map.queue ≠ [] ∨ s.namedIn m = true) → (s.tip.map (·.gen)).getD 0 ≤ m.gen → m.fabricId = s.map.fabricId → Completes (.mapPart h offset true m) s (partsOf (.mapPart h offset true m)) (fun t =>
        t.map.fetching = none ∧ t.map.queue = s.map.queue.filter (fun q => decide (q.gen < m.gen)) ++ [m] ∧ t.bit Reg.mapEvent 6 = true)))
    ∧ (∀ (src : Nat) (r : SeqRec) (b : Nat × Nat), s.fenced = false → s.map.cur ≠ none → r.layers ≠ [] → r.home = true → s.findSeq r.tenant r.sid = none →
      s.freeSeqSlot r.tenant r.sid = some b → r.listed.filter (fun p => p.2.state == .tail || p.2.state == .reserved) = [] →
      Completes (.sequenceTransfer src r) s [.pgw] (fun t =>
        t.findSeq r.tenant r.sid = some { r with bucket := b.1, slot := b.2, home := true, homeNode := s.map.id }))

/-- For a fabric link n below 64, with nothing held for a direction: signal takes it from DETECT to TRAIN; equalisation done from TRAIN or RETRAIN to ALIGN, where a link without keys, in a node whose keys match its certificate, draws an ephemeral key and sends HS1 with it; alignment with the partner that Table 10.1 and the map expect takes it from ALIGN to KEYED, or with the keys held to UP with every kept frame to be resent, and with another partner or fabric to MISWIRED, recorded. In ALIGN or KEYED, HS1 with a certificate that verifies and names an identity and a DEK-K, in a node whose keys match its certificate and, on an edge link, with an endpoint CA, is answered with HS2, a secret encapsulated to that key; HS2 from which the link master follows is answered with HS3, this side's confirmation; HS3 with the confirmation that the partner owes installs the keys of the present generations and takes a KEYED link UP, an edge link's partner noted with the tenants of its certificate. Each of the three that fails these checks records link_auth and returns the link to DETECT. A state's timeout returns an enabled link to DETECT. A link that returns to DETECT has no keys, no partner and no traffic. Lost lane lock takes an UP link to RETRAIN, recorded, the packets that waited for it taken off it. Where a link's traffic is taken off it another link's queue may take it over; else no other link changes. -/
def Obligations.LinksTrainKeyAndComeUp : Prop :=
  ∀ (s : State) (n : Nat), s.Inv → n < 64 → s.lnk.held = [] →
    let l := s.link n
    let becomes (i : Instr) (m : List Blk) (x : Link) : Prop := Completes i s m (fun t => t.link n = x ∧ ∀ k, k ≠ n → t.link k = s.link k)
    let tells (i : Instr) (m : List Blk) (x : Link) (out : List OutMsg) : Prop := Completes i s m (fun t => t.link n = x ∧ Sends s t out ∧ ∀ k, k ≠ n → t.link k = s.link k)
    let moved (i : Instr) (m : List Blk) (x : Link) : Prop := Completes i s m (fun t => t.link n = x ∧ ∀ k, k ≠ n → t.link k = { s.link k with txq := (t.link k).txq })
    let edge : Prop := 60 ≤ n ∧ s.isSpare = false
    let down : Link := { l.unkey with state := LState.detect, txq := [], sending := [] }
    let up (x : Link) : Link := { x with state := LState.up, resend := l.kept.map (·.fseq), ackTick := s.now, lastFrame := s.now }
    (l.state = LState.detect → becomes (.linkSignalDetect (.fabric n)) [.live, .lnk] { l with state := LState.train })
    ∧ (l.state = LState.train ∨ l.state = LState.retrain →
      (s.identified = false ∨ l.keyed ≠ [] → becomes (.linkTrainDone (.fabric n) true true) [.live, .lnk] { l with state := LState.align })
      ∧ (s.identified = true → l.keyed = [] →
        let d := ecPrivate (s.randomBytes 64).1
        let b := hs1Bytes ⟨s.map.fabricId, if s.map.cur.isSome = true then s.gen else 0, s.map.id, n, s.sec.cert, ecPublic d, ⟨true, true⟩, [], []⟩
        tells (.linkTrainDone (.fabric n) true true) [.live, .lnk, .sec, .outbox] { l with state := LState.align, hs := .none, shake := { Shake.idle with ephemeral := d, mine1 := b } } [.handshake n 1 b]))
    ∧ (∀ partner far fabric, l.state = LState.align →
      let x := { l with partnerId := partner, partnerLink := far, lastPartner := partner }
      (s.cabled n partner far = true → (edge ∨ fabric = s.map.fabricId) →
        (l.keyed = [] → becomes (.linkAlignDone (.fabric n) partner far fabric) [.live, .lnk] { x with state := LState.keyed })
        ∧ (l.keyed ≠ [] → becomes (.linkAlignDone (.fabric n) partner far fabric) (partsOf (.linkAlignDone (.fabric n) partner far fabric)) (up x)))
      ∧ (s.cabled n partner far = false ∨ (¬edge ∧ fabric ≠ s.map.fabricId) →
        becomes (.linkAlignDone (.fabric n) partner far fabric) [.live, .lnk, .hst, .sum, .outbox] { x with state := LState.miswired } ∧
        Completes (.linkAlignDone (.fabric n) partner far fabric) s (partsOf (.linkAlignDone (.fabric n) partner far fabric)) (fun t => t.bit Reg.lnkEvent 2 = true)))
    ∧ (∀ m : HsMsg, l.state = LState.align ∨ l.state = LState.keyed →
      (∀ c idd ek, certOpen m.cert m.chain = some c → certIdd c = some idd → mapBytes c 7 = some ek → s.identified = true → (¬edge ∨ s.sec.endpointCa = true) →
        let e := kemEncaps ek (s.randomBytes 32).1
        tells (.hs1 n m) [.lnk, .map, .sec, .outbox] { l with
          hs := .gotHs1, partnerIdent := field idd 0 8, shake := { l.shake with mine2 := e.2, secret := e.1, peer1 := hs1Bytes m, cert := m.cert, eph := m.eph } } [.handshake n 2 e.2])
      ∧ (∀ lm, l.hs = .gotHs1 → s.linkMaster l.shake m.cipher = some lm →
        let a := sideA s.sec.idd ((certIdd (certPayload l.shake.cert)).getD [])
        tells (.hs2 n m) [.lnk, .outbox] { l with hs := .gotHs2, master := lm, peer2 := m.cipher }
          [.handshake n 3 (confirmation lm (if a = true then 0 else 1) (l.shake.transcript a m.cipher))])
      ∧ (l.hs = .gotHs2 → m.mac = s.expectedHs3 n →
        let x := { l with hs := .done, keyed := s.keyGens, sendGen := s.sendKey, fenced := false }
        becomes (.hs3 n m) (partsOf (.hs3 n m)) (if l.state = LState.keyed then up x else x) ∧
        Completes (.hs3 n m) s (partsOf (.hs3 n m)) (fun t => t.sec.endpoints =
          (if 60 ≤ n ∧ s.isSpare = false then tabPut s.sec.endpoints (field l.shake.peer1 9 2) (certTenants (certPayload l.shake.cert)) else s.sec.endpoints))))
    ∧ (s.regs.pend = [] → s.bit (Reg.lnkPortCfg + 4 * n) 0 = true → s.partActed (Part.link n) = false →
      (∀ m : HsMsg, (l.state = LState.align ∨ l.state = LState.keyed) →
        let refused (i : Instr) : Prop := moved i [.live, .lnk, .hst, .sum, .outbox] down ∧ Completes i s (partsOf i) (fun t => t.bit Reg.secEvent 3 = true)
        ((certOpen m.cert m.chain = none ∨ s.identified = false ∨ (edge ∧ s.sec.endpointCa = false)) → refused (.hs1 n m))
        ∧ (∀ c, certOpen m.cert m.chain = some c → (certIdd c = none ∨ mapBytes c 7 = none) → refused (.hs1 n m))
        ∧ (l.hs = .gotHs1 → s.linkMaster l.shake m.cipher = none → refused (.hs2 n m))
        ∧ (l.hs = .gotHs2 → m.mac ≠ s.expectedHs3 n → refused (.hs3 n m)))
      ∧ (l.state = LState.detect ∨ l.state = LState.train ∨ l.state = LState.align ∨ l.state = LState.keyed ∨ l.state = LState.retrain →
        moved (.linkStateTimeout (.fabric n)) [.live, .lnk] down))
    ∧ (l.state = LState.up → moved (.laneLockLoss (.fabric n)) (partsOf (.laneLockLoss (.fabric n))) { l with state := LState.retrain, txq := [] } ∧
        Completes (.laneLockLoss (.fabric n)) s (partsOf (.laneLockLoss (.fabric n))) (fun t => t.bit Reg.lnkEvent 1 = true))

/-- For a fabric link n that is UP. A DATA or IDLE frame with codewords that, with those of its minute, exceed fec_limit takes the link to RETRAIN, recorded, its kept frames and the fseq expected as they were. Of frames without such codewords: a DATA frame in order whose tag and tx_count are accepted, uncoded and asking for no resend, advances the fseq expected, releases the kept frames its ack covers and returns its units; its payload, where it does not come a second time, waits with what its VC holds or, where that makes a whole packet for this node that this torus link may carry, is handed over. One out of order asks for a resend once and takes nothing. One that is not accepted counts as bad, is noted where its epoch is none of the link's, and asks for a resend. IDLE releases the frames its ack covers. A frame accepted shows the minute not to be one of foreign epochs and the link not to be fenced. LINK_RESEND_TIMEOUT with frames kept marks all of them for resending as often as the limit allows, and then takes the link to RETRAIN with its frames kept. FRAME_TRANSMIT resends the next marked frame, else sends a frame of the first ready VC with credit whose packet the link may carry, keeping it, else IDLE; each goes out with the link's ack, which names the last frame before the first whose coded block is not decoded yet: with no coded frame waiting, the last one taken. It sends nothing on a link fenced by epoch, and in a node that has fenced itself neither IDLE nor a frame of what is not its own CTL. DIRECTION_HOLD_EXPIRY discards the packets held too long for the direction and records it. -/
def Obligations.FramesMoveInOrderAndAreResent : Prop :=
  ∀ (s : State) (n : Nat), s.Inv → n < 64 → (s.link n).state = LState.up →
    let l := s.link n
    let ack := l.ackSeq
    ((∀ r ∈ l.rx, r.2.segs = []) → l.ackSeq = (l.rxSeq + 2 ^ 32 - 1) % 2 ^ 32)
    ∧ (∀ f : Frame, f.fecBad ≠ 0 → s.fld Reg.lnkRetryCfg 23 16 < l.fecMinute + f.fecBad → ∀ i ∈ [Instr.dataFrame n f, .idleFrame n f],
      Completes i s (partsOf i) (fun t => (t.link n).state = LState.retrain ∧ (t.link n).kept = l.kept ∧ (t.link n).rxSeq = l.rxSeq ∧ t.bit Reg.lnkEvent 1 = true))
    ∧ (∀ (f : Frame) (g : Nat), f.fecBad = 0 → l.admits f = some g → bitOf f.lflags 0 = false →
      let kept := l.kept.filter (fun x => !seqLe x.fseq f.ack)
      let r := (tabGet l.rx f.vc).getD RxVc.idle
      let got : List Byte := List.append r.raw f.payload
      let fresh : Prop := bitOf f.lflags 2 = false ∧ f.fseq = l.rxSeq ∧ l.again.contains (f.fseq, f.vc) = false
      (fresh → packetOf got = none → Completes (.dataFrame n f) s [.run, .lnk] (fun t =>
        (t.link n).rxSeq = (l.rxSeq + 1) % 2 ^ 32 ∧ (t.link n).kept = kept ∧ (t.link n).rxCount = tabPut l.rxCount g f.txCount ∧ (t.link n).lastFrame = s.now ∧
        (t.link n).heard = true ∧ (t.link n).fenced = false ∧
        (tabGet (t.link n).rx f.vc).map (·.raw) = some got ∧ t.lnk.handover = s.lnk.handover ∧ ∀ k, k ≠ n → t.link k = s.link k))
      ∧ (∀ p used, fresh → packetOf got = some (p, used) → n < 60 → p.dst = s.map.id → p.via = 0xFFFF →
          s.map.id < 0x8000 → p.cls = 4 ∨ (s.ctlOnly n = false ∧ byteAt p.transport 3 < 6) → Completes (.dataFrame n f) s [.run, .lnk] (fun t =>
        (t.link n).rxSeq = (l.rxSeq + 1) % 2 ^ 32 ∧ (tabGet (t.link n).rx f.vc).map (·.raw) = some [] ∧
        ∃ q, t.lnk.handover = List.append s.lnk.handover [q] ∧ q.src = p.src ∧ q.msg = p.msg ∧ q.transport = p.transport ∧ q.cls = p.cls))
      ∧ (f.fseq ≠ l.rxSeq → l.gap = false → Completes (.dataFrame n f) s [.run, .lnk] (fun t =>
        (t.link n).rxSeq = l.rxSeq ∧ (t.link n).nak = some false ∧ (t.link n).gap = true ∧ (t.link n).rx = l.rx ∧ (t.link n).kept = kept))
      ∧ (Completes (.idleFrame n f) s [.run, .lnk] (fun t =>
        (t.link n).kept = kept ∧ (t.link n).rxSeq = l.rxSeq ∧ (t.link n).lastFrame = s.now ∧ (t.link n).rx = l.rx ∧
        (t.link n).heard = true ∧ (t.link n).fenced = false)))
    ∧ (∀ f : Frame, f.fecBad = 0 → l.admits f = none →
      let x : Link := if l.keyed.any (fun g => g % 256 == f.epoch) then l else { l with foreign := true }
      (l.gap = false → Completes (.dataFrame n f) s [.run, .lnk] (fun t => t.link n = { x with gap := true, nak := some false } ∧ ∀ k, k ≠ n → t.link k = s.link k)) ∧
      Completes (.idleFrame n f) s [.run, .lnk] (fun t => t.link n = x ∧ ∀ k, k ≠ n → t.link k = s.link k))
    ∧ (l.kept ≠ [] →
      let after (x : State → Link) : Prop := Completes (.linkResendTimeout n) s (partsOf (.linkResendTimeout n)) (fun t =>
        t.now = max s.now (l.ackTick + 16 * s.fld Reg.lnkRetryCfg 11 0) ∧ t.link n = x t)
      (l.resends < s.fld Reg.lnkRetryCfg 15 12 → after (fun t => { l with resend := l.kept.map (·.fseq), resends := l.resends + 1, ackTick := t.now }))
      ∧ (s.fld Reg.lnkRetryCfg 15 12 ≤ l.resends → after (fun _ => { l with state := LState.retrain, txq := [], resends := 0 })))
    ∧ (l.fenced = true → exec (.frameTransmit n) s = .next s)
    ∧ (∀ q rest f, l.fenced = false → l.resend = q :: rest → l.kept.find? (fun f => f.fseq == q) = some f → s.mayLeave f.here f.pkt = false →
        exec (.frameTransmit n) s = .next s)
    ∧ (∀ q rest f, l.fenced = false → l.resend = q :: rest → l.kept.find? (fun f => f.fseq == q) = some f → s.mayLeave f.here f.pkt = true →
        Completes (.frameTransmit n) s [.run, .lnk, .outbox] (fun t =>
        (t.link n).resend = rest ∧ (t.link n).kept = l.kept ∧ (t.link n).txSeq = l.txSeq ∧ (t.link n).txCount = l.txCount + 1 ∧
        ∃ flags credits, Sends s t [.frame n 0 f.vc (l.sendGen % 256) f.fseq ack l.txCount l.half flags credits f.payload]))
    ∧ (l.resend = [] → l.fenced = false → (64 ≤ l.kept.length ∨ l.ready.find? (fun c => s.mayCarry n c.2 && l.hasCredit c.1 (s.nextLen n c.1 c.2.2)) = none) →
        (s.map.fenced = false → Completes (.frameTransmit n) s [.run, .lnk, .outbox] (fun t =>
          (t.link n).kept = l.kept ∧ (t.link n).txSeq = l.txSeq ∧ (t.link n).nak = none ∧
          ∃ flags credits, Sends s t [.frame n 1 0 (l.sendGen % 256) 0 ack l.txCount l.half flags credits []]))
        ∧ (s.map.fenced = true → exec (.frameTransmit n) s = .next s))
    ∧ (∀ vc e, l.resend = [] → l.fenced = false → l.kept.length < 64 → l.ready.find? (fun c => s.mayCarry n c.2 && l.hasCredit c.1 (s.nextLen n c.1 c.2.2)) = some (vc, e) →
      Completes (.frameTransmit n) s [.run, .lnk, .outbox, .freeCtr] (fun t =>
        (t.link n).txSeq = (l.txSeq + 1) % 2 ^ 32 ∧ (∃ f, (t.link n).kept = List.append l.kept [f] ∧ f.fseq = l.txSeq ∧ f.vc = vc ∧
          ∃ flags credits, Sends s t [.frame n 0 vc (l.sendGen % 256) l.txSeq ack l.txCount l.half flags credits f.payload])))
    ∧ (∀ dir first, s.lnk.held.find? (fun h => h.1 == dir) = some first → Completes (.directionHoldExpiry dir) s [.now, .live, .run, .lnk, .hst, .sum, .outbox] (fun t =>
        t.now = max s.now (first.2.2 + 2 ^ 20 * s.fld Reg.lnkCfg 15 8) ∧ t.bit Reg.lnkEvent 3 = true ∧
        t.lnk = { s.lnk with held := s.lnk.held.filter (fun h => !(h.1 == dir && decide (h.2.2 + 2 ^ 20 * s.fld Reg.lnkCfg 15 8 ≤ t.now))) }))

/-- Signal takes the Wecia Link from DETECT to TRAIN; training done takes it to ALIGN, from TRAIN on one half and so recorded where only one half trained, from RETRAIN on the halves it had: a narrow link on its own half, whatever the other does, else on both, and otherwise not; alignment takes it UP; lost lane lock takes it from UP to RETRAIN, recorded, its replay buffer kept. In a running node with the link UP and nothing waiting to be sent, the codewords of a packet join those of its minute: above fec_limit the link enters RETRAIN, recorded, its replay buffer kept and the packet not used. Up to it: an IDLE packet with the next lseq consumes none, frees the kept packets it acknowledges and returns credits (no context waiting to leave the chip or to be fetched); a packet out of order or bad sends one NAK per gap; a NAK with fewer than 8 resends before it resends every packet still kept; the resend timeout does so once 4,096 ticks have passed since ack advanced, and after 8 resends the link enters RETRAIN in place of the next, recorded. -/
def Obligations.WeciaLinkTrainsAndKeepsOrder : Prop :=
  ∀ (s : State) (hdr : HostHdr), s.Inv →
    let seen (k : Nat) : HstSt := { s.hst with fecMinute := s.hst.fecMinute + k }
    let within (k : Nat) : Prop := s.hst.fecMinute + k ≤ s.fld Reg.lnkRetryCfg 23 16
    let freed := ((seen hdr.fecBad).takeAck hdr.ack s.now).takeCredits hdr
    (s.hst.state = LState.detect → Completes (.linkSignalDetect .host) s [.live, .hst] (fun t =>
      t.hst = { s.hst with state := LState.train } ∧ t.fld Reg.hstStatus 2 0 = LState.train))
    ∧ (∀ low high : Bool, s.hst.state = LState.train → (low || high) = true → s.hst.txq = [] → Completes (.linkTrainDone .host low high) s [.live, .hst, .sum, .outbox] (fun t =>
      t.hst.state = LState.align ∧ t.hst.narrow = !(low && high) ∧ t.hst.high = !low ∧ t.fld Reg.hstStatus 2 0 = LState.align ∧ ((low && high) = false → t.bit Reg.hstEvent 2 = true)))
    ∧ (∀ low high : Bool, s.hst.state = LState.retrain →
      let half := if s.hst.narrow = true then (if s.hst.high = true then high else low) else low && high
      (half = true → Completes (.linkTrainDone .host low high) s [.live, .hst] (fun t => t.hst = { s.hst with state := LState.align } ∧ t.fld Reg.hstStatus 2 0 = LState.align))
      ∧ (half = false → exec (.linkTrainDone .host low high) s = .next s))
    ∧ (∀ p l f, s.hst.state = LState.align → s.hst.txq = [] → s.hst.kept = [] → Completes (.linkAlignDone .host p l f) s [.live, .hst] (fun t =>
      t.hst = { s.hst with state := LState.up, ackTick := s.now } ∧ t.fld Reg.hstStatus 2 0 = LState.up))
    ∧ (s.hst.state = LState.up → Completes (.laneLockLoss .host) s [.live, .hst, .sum, .outbox] (fun t =>
      t.hst.state = LState.retrain ∧ t.fld Reg.hstStatus 2 0 = LState.retrain ∧ t.bit Reg.hstEvent 1 = true ∧ t.hst.txSeq = s.hst.txSeq ∧ t.hst.rxSeq = s.hst.rxSeq ∧
      t.hst.kept = s.hst.kept))
    ∧ (s.running = true → s.hst.state = LState.up → s.hst.txq = [] →
      (hdr.lseq = s.hst.rxSeq → s.NoneComesOrLeaves → within hdr.fecBad → Completes (.hostIdlePacket hdr) s [.hst] (fun t => t.hst = freed))
      ∧ (hdr.lseq ≠ s.hst.rxSeq → s.hst.gap = false → within hdr.fecBad → Completes (.hostIdlePacket hdr) s [.hst, .outbox] (fun t =>
        t.hst = { seen hdr.fecBad with gap := true } ∧ ∃ p b, Sends s t [.host p b] ∧ p.type = 0x0A))
      ∧ (∀ k : Nat, ∀ why ∈ [HostBad.crc k, .outOfOrder k],
        (within k → s.hst.gap = false → Completes (.hostBadPacket why) s [.hst, .outbox] (fun t =>
          t.hst = { seen k with gap := true } ∧ ∃ p b, Sends s t [.host p b] ∧ p.type = 0x0A))
        ∧ (within k → s.hst.gap = true → Completes (.hostBadPacket why) s [.hst] (fun t => t.hst = seen k))
        ∧ (¬within k → Completes (.hostBadPacket why) s [.live, .hst, .sum, .outbox] (fun t =>
          t.hst.state = LState.retrain ∧ t.hst.kept = s.hst.kept ∧ t.bit Reg.hstEvent 1 = true)))
      ∧ (¬within hdr.fecBad → ∀ i ∈ [Instr.hostIdlePacket hdr, .hostNak hdr], Completes i s [.live, .hst, .sum, .outbox] (fun t =>
          t.hst.state = LState.retrain ∧ t.hst.kept = s.hst.kept ∧ t.hst.rxSeq = s.hst.rxSeq ∧ t.bit Reg.hstEvent 1 = true))
      ∧ (hdr.lseq = s.hst.rxSeq → s.NoneComesOrLeaves → within hdr.fecBad → freed.kept ≠ [] → freed.resends < 8 → Completes (.hostNak hdr) s [.run, .hst, .outbox] (fun t =>
        t.hst = { freed with resends := freed.resends + 1, ackTick := s.now } ∧
        Sends s t (freed.kept.map (fun p => .host p (hostBytes { freed with resends := freed.resends + 1, ackTick := s.now } p)))))
      ∧ (s.hst.kept ≠ [] →
        (s.hst.resends < 8 → Completes .hostResendTimeout s [.now, .run, .hst, .outbox] (fun t =>
          t.now = max s.now (s.hst.ackTick + 4096) ∧ t.hst = { s.hst with resends := s.hst.resends + 1, ackTick := t.now } ∧
          Sends s t (s.hst.kept.map (fun p => .host p (hostBytes t.hst p)))))
        ∧ (8 ≤ s.hst.resends → Completes .hostResendTimeout s [.now, .live, .hst, .sum, .outbox] (fun t =>
          t.now = max s.now (s.hst.ackTick + 4096) ∧ t.hst.state = LState.retrain ∧ t.hst.kept = s.hst.kept ∧ t.bit Reg.hstEvent 1 = true))))

/-- In a running node with the Wecia Link UP, nothing kept and nothing waiting, no context waiting to leave the chip or to be fetched, on an accepted packet whose codewords leave the minute within fec_limit: DBELL of an enabled function moves the tail of its submission ring within the ring's size, and else is counted, recorded and changes no ring. NWR by an operator function to flat bytes that are neither protected nor sealed, at bank groups that are neither busy nor due a refresh, writes exactly those bytes and completes with OK; by any other function it writes nothing and completes with UNSUPPORTED. NRD by an operator function of up to 768 clean bytes without check symbols at such bank groups completes with the bytes that a read gives and changes no memory. A part of a completion with bytes still to come joins what its read has got; a completion of the container being loaded with an error, or one that ends before the bytes asked for have come (the model's choice, log 144), or 65,536 ticks without one, ends that read and fails the load, recorded. MSG_MODERATION sends the message a ring owes, at the end of its interval, counted in ticks from the last message. EVIDENCE_RING_WRITE moves the oldest buffered record to the evidence ring's next entry. -/
def Obligations.HostAccessesRingsAndCompletions : Prop :=
  ∀ (s : State) (hdr : HostHdr) (fn tag : Nat), s.Inv → s.running = true → s.hst.state = LState.up → s.hst.txq = [] → s.hst.kept = [] → s.NoneComesOrLeaves → fn < 32 → tag < 256 →
    let sent (t : State) (type status : Nat) (data : List Byte) : Prop := ∃ p b, Sends s t [.host p b] ∧ p.type = type ∧ p.fn = fn ∧ p.tag = tag ∧
      p.count = status ∧ p.data = data
    let fits : Prop := hdr.lseq = s.hst.rxSeq ∧ s.hst.fecMinute + hdr.fecBad ≤ s.fld Reg.lnkRetryCfg 23 16
    (fits →
      (∀ (ctx index : Nat) (q : Qp), ctx < 8192 → index < 2 ^ 32 → s.fnEnabled fn = true → s.qp (ringBase + ctx) = some q → q.ring = true → q.rfn = fn → q.rkind = 0 →
        ((index + 2 ^ 32 - q.rhead % 2 ^ 32) % 2 ^ 32 ≤ q.ringSize → Completes (.dbell hdr fn ctx index) s [.que, .hst, .outbox] (fun t =>
          ∃ q', t.qp (ringBase + ctx) = some q' ∧ q'.rtail = index ∧ q'.rhead = q.rhead ∧ ∀ k, k ≠ ringBase + ctx → t.qp k = s.qp k))
        ∧ (q.ringSize < (index + 2 ^ 32 - q.rhead % 2 ^ 32) % 2 ^ 32 → Completes (.dbell hdr fn ctx index) s [.live, .run, .hst, .sum, .outbox] (fun t =>
          t.bit Reg.hstEvent 3 = true ∧ t.regs.run = (s.bump (Reg.hstStat + 4)).regs.run)))
      ∧ (∀ (addr : Nat) (data : List Byte),
        (s.fnMemory fn = true → addr + data.length ≤ flatEnd → s.QuietAt addr data.length → s.firstCheck addr data.length = none → s.firstProtected addr data.length = none →
          s.firstSealed addr data.length = none → Completes (.nwr hdr fn tag addr data) s [.mem, .hst, .outbox] (fun t =>
            (∀ x, t.peek x = if addr ≤ x ∧ x < addr + data.length then data.getD (x - addr) 0 else s.peek x) ∧ sent t 3 0 []))
        ∧ (s.fnMemory fn = false → Completes (.nwr hdr fn tag addr data) s [.hst, .outbox] (fun t => sent t 3 1 [])))
      ∧ (∀ addr count : Nat, s.fnMemory fn = true → addr + count ≤ flatEnd → s.QuietAt addr count → s.firstCheck addr count = none → 0 < count → count ≤ 768 →
        Completes (.nrd hdr fn tag addr count []) s [.hst, .outbox, .freeCtr] (fun t => sent t 3 0 (s.readBytes addr count)))
      ∧ (∀ (x : HostRd) (count : Nat) (data : List Byte), tabGet s.hst.reads tag = some x → data.length ≤ x.left → bitsOf count 7 0 = 0 → bitsOf count 23 8 ≠ 0 → Completes (.hostCompletion hdr tag count data) s [.hst] (fun t =>
          t.hst.reads = tabPut s.hst.reads tag { x with got := x.got ++ data, left := x.left - data.length } ∧ t.hst.rxSeq = (s.hst.rxSeq + 1) % 4096)))
    ∧ (∀ (x : HostRd) (ld : Load), tabGet s.hst.reads tag = some x → x.why = .container → s.prog.load = some ld →
        (∀ p ∈ s.que.qps, p.2.ring = false) →
        Completes (.hostReadTimeout tag) s [.now, .live, .prog, .hst, .sum, .outbox] (fun t =>
          t.now = max s.now (x.since + 65536) ∧ tabGet t.hst.reads tag = none ∧ t.bit Reg.hstEvent 5 = true ∧ t.prog = { s.prog with load := some { ld with failed := true } })
        ∧ (∀ (count : Nat) (data : List Byte), fits → (bitsOf count 7 0 ≠ 0 ∨ (bitsOf count 23 8 = 0 ∧ data.length < x.left)) → Completes (.hostCompletion hdr tag count data) s [.live, .prog, .hst, .sum, .outbox] (fun t =>
          tabGet t.hst.reads tag = none ∧ t.bit Reg.hstEvent 5 = true ∧ t.prog = { s.prog with load := some { ld with failed := true } })))
    ∧ (∀ (ring : Nat) (q : Qp), s.qp (ringBase + ring) = some q → q.ring = true → q.msgOwed = true → s.hst.postedOut + 1 ≤ s.hst.postedIn + 2048 →
        Completes (.msgModeration ring) s [.now, .que, .hst, .outbox] (fun t =>
          t.now = max s.now (q.lastMsg.getD 0 + 1024 * q.rmod) ∧ t.qp (ringBase + ring) = some { q with lastMsg := some t.now, msgOwed := false } ∧
          ∃ p b, Sends s t [.host p b] ∧ p.type = 9 ∧ p.fn = q.rfn ∧ p.addr = q.rvector))
    ∧ (∀ (k : Nat) (q : Qp) (r : List Byte) (rest : List (List Byte)), s.evidenceRing = some (k, q) → s.qp k = some q → s.hlt.evidence = r :: rest → r.length = 256 →
        q.ringUsed < q.ringSize → s.hst.postedOut + 9 ≤ s.hst.postedIn + 2048 → Completes .evidenceRingWrite s [.que, .hlt, .hst, .outbox] (fun t =>
          t.hlt = { s.hlt with evidence := rest } ∧ (t.qp k).map (·.rtail) = some ((q.rtail + 1) % 2 ^ 32) ∧
          ∃ p b more, Sends s t (.host p b :: more) ∧ p.type = 1 ∧ p.fn = q.rfn ∧ p.addr = q.ringAddr q.rtail 256 ∧ p.data = r))

/-- In a running node, for a packet of the partition of a queue pair on chip that is READY, with no packet or request waiting for it and no NOT_READY outstanding on it: an ACK frees every message up to its PSN, the oldest unacknowledged PSN is the next, retries and timeout start anew, a wait for a message still unacknowledged stands and else the timer runs only while messages remain; an ACK of another partition frees nothing and is recorded. A SEQUENCE NAK resends from the PSN named, counting a retry where nothing progressed since the last; a QP_ERROR NAK on a queue pair without operations of the node puts it into ERROR with its requests dropped. NOT_READY with messages outstanding replaces the timer by a wait of its hint in minutes, whose expiry restarts the timer and resends from the PSN named. A retry timeout with fewer than 7 retries doubles the timeout, at most 1,048,576 ticks, and resends everything unacknowledged; the eighth puts the queue pair into ERROR, recorded. A RESPONSE with the PSN expected is taken and acknowledged, the ACK in place of any that still waits for that pair, and one that answers no operation changes nothing else. Other contexts stay as they are. -/
def Obligations.TransportAcknowledgesRetriesAndAnswers : Prop :=
  ∀ (s : State) (p : Tpkt) (q : Qp), s.Inv → s.running = true → s.qp p.dqp = some q → q.state = .ready → p.dqp < ringBase →
    tabGet s.que.fetches p.dqp = none → tabGet s.que.named p.dqp = none → (∀ m ∈ s.que.later, m.qpn ≠ p.dqp) →
    let leaves (i : Instr) (m : List Blk) (x : Qp) (more : State → Prop) : Prop := Completes i s m (fun t =>
      t.qp p.dqp = some x ∧ (∀ k, k ≠ p.dqp → t.qp k = s.qp k) ∧ more t)
    let acked := q.sent.filter (fun m => psnLe m.psn p.psn)
    let rest := q.sent.filter (fun m => !psnLe m.psn p.psn)
    let wait := q.nrWait.filter (fun w => rest.any (fun m => m.psn == w.2))
    (bitOf p.tflags 2 = false → p.part = q.part → acked ≠ [] →
      leaves (.transportAck p) [.que] { q with sent := rest, sndUna := (p.psn + 1) % 2 ^ 24, retries := 0, timeout := 8192, progressed := true, nrWait := wait, deadline := if rest.isEmpty ∨ wait.isSome then none else some (s.now + 8192) }
        (fun t => t.que.respBytes = s.que.respBytes - respOf acked))
    ∧ (bitOf p.tflags 2 = false → p.part ≠ q.part → leaves (.transportAck p) [.live, .que, .hst, .sum, .outbox] q (fun t => t.bit Reg.queEvent 1 = true))
    ∧ (p.part = q.part →
      (p.hint % 256 = 1 → leaves (.transportNak p) [.live, .run, .que, .lnk, .hst, .sum, .outbox]
          { q with retries := if q.progressed then q.retries else min 7 (q.retries + 1), progressed := false } (fun t => t.lnk = (s.resendFrom p.dqp p.psn).lnk))
      ∧ (p.hint % 256 = 2 → (∀ o ∈ s.que.ops, o.2.qpn ≠ p.dqp) → leaves (.transportNak p) [.que]
          { q with state := .error, deadline := none, nrWait := none, sent := q.sent.filter (fun m => m.tkind == 1) } (fun t => t.que.ops = s.que.ops))
      ∧ (q.sent ≠ [] → leaves (.transportNotReady p) [.que] { q with nrWait := some (s.now + 1024 * p.hint, p.psn), deadline := none } (fun _ => True))
      ∧ (p.psn % 2 ^ 24 = q.rcvNext → q.rcvNext < 2 ^ 24 → s.opOfReply p.dqp p.msg = none → leaves (.transportResponse p) [.live, .run, .que, .lnk, .hst, .sum, .outbox]
          { q with rcvNext := (q.rcvNext + 1) % 2 ^ 24, nakSent := false }
          (fun t => t.lnk = ((s.coalesce q.peer q.peerQpn).sendTransport 3 q.peer q.peerQpn 2 p.psn (2 * b2n q.urgent) q.part 0 p.dqp []).lnk)))
    ∧ (∀ w psn, q.nrWait = some (w, psn) → leaves (.notReadyWaitExpiry p.dqp) [.now, .live, .run, .que, .lnk, .hst, .sum, .outbox]
        { q with nrWait := none, deadline := some (max s.now w + q.timeout), progressed := false } (fun t => t.now = max s.now w ∧ t.lnk = ((s.advanceTo w).resendFrom p.dqp psn).lnk))
    ∧ (∀ d, q.deadline = some d →
      (q.retries < 7 →
        let n := min 1048576 (2 * q.timeout)
        leaves (.qpRetryTimeout p.dqp) [.now, .live, .run, .que, .lnk, .hst, .sum, .outbox]
          { q with retries := q.retries + 1, timeout := n, deadline := some (max s.now d + n), progressed := false }
          (fun t => t.now = max s.now d ∧ t.lnk = ((s.advanceTo d).resendFrom p.dqp q.sndUna).lnk))
      ∧ (7 ≤ q.retries → (∀ o ∈ s.que.ops, o.2.qpn ≠ p.dqp) → leaves (.qpRetryTimeout p.dqp) [.now, .live, .run, .que, .hst, .sum, .outbox]
          { q with state := .error, deadline := none, nrWait := none, sent := q.sent.filter (fun m => m.tkind == 1) }
          (fun t => t.now = max s.now d ∧ t.bit Reg.queEvent 0 = true)))

/-- Where work may be dispatched in a mode other than NIGHT and the minute belongs to a class below 24 whose calendar has not stopped: CALENDAR_RELEASE of an ATTEST at the head of the first non-empty bucket after the last served, with a cost within the budget or an untouched budget, takes it out of the held requests, charges the budget (not below zero), makes its bucket the last served and queues its nonce and its wait for the report; with a cost above a budget already touched the calendar stops for the minute and nothing is released; with nothing to release only the calendar is noted. In a SHARED minute SHARED_RELEASE does the same for the next class in turn that is not isolated and has a request, from the shared budget. -/
def Obligations.CalendarsReleaseWithinTheirBudget : Prop :=
  ∀ (s : State), s.Inv → s.dispatching = true → s.mode ≠ 3 →
    let after (t : State) (r : Req) : Prop := t.sch.held = s.sch.held.filter (fun x => x.rid != r.rid) ∧
      t.sec.waiting = List.append s.sec.waiting [⟨{ r with gen := some (r.gen.getD s.genLow) }, s.now, Msg.tenant r.msg, none⟩] ∧ t.fld Reg.schStatus 16 0 = t.sch.held.length % 2 ^ 17 ∧ t.sch.runs = s.sch.runs
    (∀ cls : Nat, s.owner = cls → cls < 24 →
      let k := s.calNow cls
      let quota := s.fld (Reg.schClassCfg + 4 * cls) 19 0
      k.stopped = false →
      (s.headAfter cls k.last = none → Completes (.calendarRelease cls) s [.sch] (fun t => t.sch = { s.sch with cals := tabPut s.sch.cals cls k }))
      ∧ (∀ b r, s.headAfter cls k.last = some (b, r) →
        (k.budget < r.cost → k.budget < quota → Completes (.calendarRelease cls) s [.sch] (fun t =>
          t.sch = { s.sch with cals := tabPut s.sch.cals cls { k with stopped := true } }))
        ∧ (r.cost ≤ k.budget ∨ quota ≤ k.budget → r.op = .attest → Completes (.calendarRelease cls) s (partsOf (.calendarRelease cls)) (fun t =>
          tabGet t.sch.cals cls = some { k with budget := k.budget - r.cost, last := b } ∧ after t r))))
    ∧ (∀ (cls b : Nat) (r : Req), s.owner = Owner.shared → s.fld Reg.schCfg 19 0 ≠ 0 → s.sch.sharedMinute ≠ s.minutes →
      ((List.range 24).map (fun i => (s.sch.sharedLast + 1 + i) % 24)).find? (fun c => !s.isolated c && !(s.ready c).isEmpty) = some cls →
      s.headAfter cls (s.cal cls).last = some (b, r) → r.op = .attest → Completes .sharedRelease s (partsOf .sharedRelease) (fun t =>
        t.sch.sharedBudget = s.fld Reg.schCfg 19 0 - r.cost ∧ t.sch.sharedLast = cls ∧ t.sch.sharedFirst = true ∧ t.sch.sharedMinute = s.minutes ∧
        tabGet t.sch.cals cls = some { s.cal cls with last := b } ∧ after t r))

/-- For a dispatched request, whatever its stalls and leaves: TABLE_READ_DONE with both copies good changes nothing; with the mirror's good stalls the request for TABLE_REPAIR, counted once for it, shows PGW_STATUS.mirror_degraded and records table_mirror; with both copies lost records table_lost, and the request completes with STATE_LOST over those of its spans that the lost table locates, or, needing none of them, goes on. RESERVATION_DONE before its limit, the page to be had, ends the hold, at or after its limit changes nothing; RESERVATION_TIMEOUT ends it at the limit with CAPACITY: the request goes on waiting for what else it waits for, or else completes with its status. STALL_RESUME in a minute of the class, or a SHARED one where it is not isolated, with every stall over, ends them all: a request that has not taken effect takes effect; one with a program keeps to it; any other gives its waiting leaves to the hub and waits for them, or else completes. SPARE_TAIL_GRANT in such a minute, with enough spares, dispatches the waiting request; an APPEND behind which none waits, to a sequence this home does not know, completes with NO_SEQUENCE; with too few spares nothing changes. SPARE_WAIT_TIMEOUT after 4 frames completes the waiting request with CAPACITY, recorded, and those behind it go on. PROVISIONAL_EXPIRY 64 frames after its VERIFY discards a layer's set and returns its spares. -/
def Obligations.HoldsAndStallsEnd : Prop :=
  ∀ (s : State) (rid : Nat), s.Inv →
    let mayRun (cls : Nat) : Prop := s.dispatching = true ∧ s.mode ≠ 3 ∧ (s.owner = cls ∨ (s.owner = Owner.shared ∧ s.isolated cls = false))
    let done (i : Instr) (base : List Reply) (r : Run) : Prop := Completes i s (partsOf i) (fun t =>
      t.run rid = none ∧ ∃ x, t.sch.replies = List.append base [x] ∧ x.req = r.req ∧ x.status = r.status ∧ x.length = r.length)
    let goesOn (i : Instr) (base : List Reply) (r : Run) : Prop :=
      (r.ready = false ∨ s.progRuns.any (fun c => c.2.rid == rid) = true → Completes i s (partsOf i) (fun t => t.run rid = some r ∧ t.sch.replies = base))
      ∧ (r.ready = true → s.progRuns.any (fun c => c.2.rid == rid) = false → done i base r)
    (∀ r : Run, s.run rid = some r →
      exec (.tableReadDone rid .ok) s = .next s
      ∧ Completes (.tableReadDone rid .mirror) s [.live, .run, .sch, .hst, .sum, .outbox] (fun t =>
          t.bit Reg.pgwEvent 0 = true ∧ t.bit Reg.pgwStatus 1 = true ∧
          (r.stalls.any (fun x => x.1 == .tableRepair) = true → t.run rid = some r ∧ t.regs.run = s.regs.run) ∧
          (r.stalls.any (fun x => x.1 == .tableRepair) = false →
            t.run rid = some { r with stalls := List.append r.stalls [(.tableRepair, s.now)], causes := List.append r.causes [.tableRepair], stalled := true } ∧
            t.regs.run = if r.causes.contains .tableRepair = true then s.regs.run
              else (s.bump (Reg.memStallTenant + 64 * Msg.tenant r.req.msg + 8 * Stall.tableRepair.code)).regs.run))
      ∧ (∀ first last : Nat, let hit := r.spans.filter (fun a => decide (first ≤ a ∧ a ≤ last))
          (hit = [] → Completes (.tableReadDone rid (.lost first last)) s [.live, .hst, .sum, .outbox] (fun t => t.bit Reg.pgwEvent 1 = true))
          ∧ (∀ a more, hit = a :: more → Completes (.tableReadDone rid (.lost first last)) s (partsOf (.tableReadDone rid (.lost first last))) (fun t =>
            t.run rid = none ∧ t.bit Reg.pgwEvent 1 = true ∧
            (∃ x, t.sch.replies = List.append s.sch.replies [x] ∧ x.req = r.req ∧ x.status = Status.stateLost ∧ x.detail = a + 4096 * more.getLast?.getD a ∧ x.body = []))))
      ∧ (∀ (l i dl : Nat), r.reserve = some (l, i, dl) →
        (dl ≤ s.now ∨ s.retryReserve r l i = none → exec (.reservationDone rid) s = .next s)
        ∧ (∀ (u : State) (r1 : Run), s.now < dl → s.retryReserve r l i = some u → u.run rid = some r1 → u.progRuns = s.progRuns →
          goesOn (.reservationDone rid) u.sch.replies { r1 with reserve := none, stalls := r1.stalls.filter (fun y => y.1 != .reserve) })
        ∧ goesOn (.reservationTimeout rid) s.sch.replies { r with reserve := none, stalls := r.stalls.filter (fun y => y.1 != .reserve), status := Status.capacity, detail := r.length }
        ∧ Completes (.reservationTimeout rid) s (partsOf (.reservationTimeout rid)) (fun t => t.now = max s.now dl))
      ∧ (mayRun r.req.cls → r.stalls ≠ [] → (∀ x ∈ r.stalls, s.stallOver r x.1 = true) →
          let tail (j : Job) : Prop := ∃ k v c, j.src = .tail k v c
          let go (j j' : Job) : Prop := (j.exec = .hub ∧ j.st = .waiting → (tail j → j' = { j with st := .done }) ∧ (¬tail j → j' = { j with st := .issued })) ∧
            (¬(j.exec = .hub ∧ j.st = .waiting) → j' = j)
          (r.redo = true → exec (.stallResume rid) s = .next (s.redo rid))
          ∧ (r.redo = false → s.groupOfRun rid ≠ none → Completes (.stallResume rid) s [.run, .sch] (fun t => t.run rid = some { r with stalls := [] }))
          ∧ (r.redo = false → s.groupOfRun rid = none → r.held = false → ∃ jobs : List Job, jobs.length = r.jobs.length ∧
              (∀ (i : Nat) (j j' : Job), r.jobs[i]? = some j → jobs[i]? = some j' → go j j') ∧ goesOn (.stallResume rid) s.sch.replies { r with stalls := [], jobs := jobs })
          ∧ (r.redo = false → s.groupOfRun rid = none → r.held = true → Completes (.stallResume rid) s (partsOf (.stallResume rid)) (fun t =>
              (∃ r', t.run rid = some r' ∧ r'.stalls = [] ∧ r'.held = false) ∨
              (t.run rid = none ∧ ∃ x, t.sch.replies = List.append s.sch.replies [x] ∧ x.req = r.req ∧ x.status = r.status)))))
    ∧ (∀ x : Req × Nat, s.spareWaiter rid = some x →
      let m := x.1.msg
      let own := match s.homeSeq (Msg.tenant m) (Msg.sid m) with
        | some q => if x.1.op = .verify then (((q.layer (Msg.layer m)).prov.map (·.spares)).getD 0) else 0
        | none => 0
      let taken := (s.dropWaiter rid).stallTicks (Msg.tenant m) .spareTail x.2
      let enough : Prop := (shapeOf (Msg.shape m)).heads ≤ s.freeSpares + own
      (¬mayRun x.1.cls ∨ ¬enough → exec (.spareTailGrant rid) s = .next s)
      ∧ (mayRun x.1.cls → enough → exec (.spareTailGrant rid) s = .next (taken.effect ⟨x.1, x.2, [], []⟩ none).settleOrder)
      ∧ (mayRun x.1.cls → enough → s.sch.order = [] → (∀ y ∈ s.sch.replies, y.req.rid ≠ rid) → s.map.cur = none → x.1.op = .append → AppendP.rebuild m 40 = false → AppendP.pos m 40 ≠ 0 →
        s.findSeq (Msg.tenant m) (Msg.sid m) = none → Completes (.spareTailGrant rid) s (partsOf (.spareTailGrant rid)) (fun t =>
          t.sch.spareWait = s.sch.spareWait.filter (fun y => y.1.rid != rid) ∧
          (∃ y, t.sch.replies = List.append s.sch.replies [y] ∧ y.req = x.1 ∧ y.status = Status.noSequence)))
      ∧ (∃ v : State, exec (.spareWaitTimeout rid) s = .next v.settleOrder ∧
          OnlyParts [.now, .live, .run, .sch, .hst, .sum, .outbox] s v ∧ v.sch.order = s.sch.order ∧ (s.sch.order = [] → v.settleOrder = v) ∧
          v.now = max s.now (x.2 + 2 ^ 22) ∧ v.sch.spareWait = s.sch.spareWait.filter (fun y => y.1.rid != rid) ∧ v.bit Reg.pgwEvent 3 = true ∧
          (∃ y, v.sch.replies = List.append s.sch.replies [y] ∧ y.req = x.1 ∧ y.status = Status.capacity)))
    ∧ (∀ (tenant sid l done : Nat) (q : SeqRec) (p : Prov), s.homeSeq tenant sid = some q → (q.layer l).prov = some p → p.done = some done →
      Completes (.provisionalExpiry tenant sid l) s [.now, .pgw] (fun t =>
        t.now = max s.now (done + 2 ^ 26) ∧ (∃ q', t.findSeq tenant sid = some q' ∧ (q'.layer l).prov = none ∧ (q'.layer l).len = (q.layer l).len) ∧
        t.pgw.sparesUsed = s.pgw.sparesUsed - p.spares))

/-- For a unit in service whose planned bursts have all been delivered. Outside its refresh with both contexts free, ATTEND_BURST starts the urgent burst that waits, or with none waiting the first normal attention burst, where the dial lets it start and at least one of its tiles can be planned from here: as many tiles as can be planned go into its context under the class of the minute, the rest stays first in its slot, the unit's clock stands after the lead-in; where its first leaf is longer than the mode lets any burst be, or reads more row-sets than max_rows, its leaves go to hub cores instead; where it may not start, nothing changes. BURST_RESUME takes a stopped context up again at the end of the refresh that stopped it, or one held by an urgent burst once that has ended, with a new lead-in. With VSP_BURST_CFG[13] set, URGENT_PREEMPT of a unit at a tile boundary starts the urgent burst and holds the normal one, whatever its kind. Reading on, the unit begins the row-set reads of a tile whose whole occupancy ends before the refresh margin, and takes a row-set read that does, and else stops; a tile in protected memory is skipped, a record says that it was refused, and protected is recorded. However it reads on, its clock moves only to a count that lies the margin before the next refresh point. No other unit changes. -/
def Obligations.BurstsRunUntilARefreshStopsThem : Prop :=
  ∀ (s : State) (u : Nat) (b : Burst) (more : List Burst), s.Inv → keysRise s.vsp.units = true → s.masked u = false → (s.unit u).plan = [] →
    let v := s.unit u
    let leaves (i : Instr) (m : List Blk) (now : Nat) (w : VUnit) : Prop := Completes i s m (fun t =>
      t.now = now ∧ t.unit u = w ∧ (∀ k, k ≠ u → t.unit k = s.unit k) ∧ t.vsp.masked = s.vsp.masked ∧ t.vsp.rereads = s.vsp.rereads)
    let begun (x : State) (n : Nat) : Burst := { b with
      tiles := b.tiles.take n, cls := x.owner, startTick := x.now % 65536
      endPlan := vUnit * x.now + (12 + ((b.tiles.take n).map (x.tileOcc b)).foldl (· + ·) 0) * x.vCycle }
    let toHub (i : Instr) (m : List Blk) (now : Nat) (w : VUnit) : Prop := Completes i s m (fun t =>
      t.now = now ∧ t.unit u = w ∧ (∀ k, k ≠ u → t.unit k = s.unit k) ∧ t.sch = ((b.tiles.map (·.ent)).foldl State.leafToHub s).sch)
    let left (n : Nat) : List Burst := if b.tiles.length ≤ n then [] else [b.rest n (s.vsp.nextBurst % 65536)]
    let lead (now : Nat) : Nat := vUnit * now + 12 * s.vCycle
    (inRefresh u s.now = false → v.curU = none → v.cur = none →
      let n := s.plannable u s.now b
      let starts (rest w : VUnit) : Prop :=
        (s.mayStart b = true → s.tooLong b = false → n ≠ 0 → leaves (.attendBurst u) [.run, .vsp] s.now w)
        ∧ (s.mayStart b = true → s.tooLong b = true → toHub (.attendBurst u) [.sch, .vsp] s.now rest)
        ∧ (s.mayStart b = false ∨ (n = 0 ∧ s.tooLong b = false) → exec (.attendBurst u) s = .next s)
      (b.urgent = true → v.urgentQ = b :: more →
        starts { v with urgentQ := more }
          { v with urgentQ := List.append (left n) more, curU := some (begun s n), preempted := false, stopped := false, clock := lead s.now, window := none })
      ∧ (b.urgent = false → v.urgentQ = [] → v.normal.find? (fun x => x.kind == .attend) = some b →
        starts { v with normal := v.normal.erase b }
          { v with normal := List.append (left n) (v.normal.erase b), cur := some (begun s n), stopped := false, clock := lead s.now, window := none }))
    ∧ (v.stopped = true →
        let now := max s.now (refreshEnd u (v.clock / vUnit))
        leaves (.burstResume u) [.now, .run, .vsp] now { v with stopped := false, preempted := v.curU.isSome && v.preempted, clock := lead now })
    ∧ (v.stopped = false → v.curU = none → v.preempted = true → v.cur.isSome = true → inRefresh u s.now = false →
        leaves (.burstResume u) [.run, .vsp] s.now { v with preempted := false, clock := lead s.now })
    ∧ (∀ c, s.bit Reg.vspBurstCfg 13 = true → v.curU = none → v.cur = some c → c.rows = [] → vUnit * s.now ≤ v.clock → b.urgent = true → v.urgentQ = b :: more →
        let x := s.advanceTo (ceilDiv v.clock vUnit)
        let n := x.plannable u x.now b
        inRefresh u x.now = false →
          (x.mayStart b = true → x.tooLong b = false → n ≠ 0 → leaves (.urgentPreempt u) [.now, .run, .vsp] x.now
            { v with urgentQ := List.append (left n) more, curU := some (begun x n), preempted := true, stopped := false, clock := lead x.now, window := none })
          ∧ (x.mayStart b = true → x.tooLong b = true → toHub (.urgentPreempt u) [.now, .sch, .vsp] x.now { v with urgentQ := more })
          ∧ (x.mayStart b = false ∨ (n = 0 ∧ x.tooLong b = false) → exec (.urgentPreempt u) s = .next s))
    ∧ (∀ (c : Burst) (e : TileEnt), v.running = some c → v.stopped = false → c.tiles[c.pos]? = some e →
        let t := s.readOn u
        let kib := (s.tileShape c e).2
        (c.rows = [] → s.entProtected u e = false → s.tileOcc c e ≠ 0 →
          (s.fitsRefresh u v.clock (s.tileOcc c e) = false → t.unit u = { v with stopped := true })
          ∧ (s.fitsRefresh u v.clock (s.tileOcc c e) = true → t.unit u = v.putRunning (some { c with
              rows := tileRows (locOff e.loc + (if e.isV = true then kib else 0)) kib (s.tileOcc c e) })))
        ∧ (c.rows = [] → s.entProtected u e = true → t.bit Reg.vspEvent 3 = true ∧ (t.unit u).clock = v.clock ∧
            ∃ x, (t.unit u).returns = List.append v.returns [x] ∧ x.refused = true ∧ x.tiles = [e])
        ∧ (∀ r rest, c.rows = r :: rest →
          (s.fitsRefresh u v.clock r = false → t.unit u = { v with stopped := true })
          ∧ (s.fitsRefresh u v.clock r = true → (t.unit u).clock = v.clock + r * s.vCycle)
          ∧ (s.fitsRefresh u v.clock r = true → rest ≠ [] → t.unit u = { v.putRunning (some { c with rows := rest }) with clock := v.clock + r * s.vCycle })))
    ∧ (((s.readOn u).unit u).clock = v.clock ∨ ((s.readOn u).unit u).clock + vUnit * s.refreshMargin ≤ vUnit * nextRefresh u (v.clock / vUnit))

/-- For an idle unit in service, out of its refresh, whose planned bursts have all been delivered: a SCRUB_BURST with sealed tiles ahead of the pass starts a burst over some of them, where one tile or more can be planned from here, and moves the pass on to no tile that it does not read, nor forgets one to be read again (the pairs at distinct offsets); with none left the unit's pass ends, and with every other unit's ended the node's does: VSP_SCRUB_PASS counts it, pass is recorded and every unit starts again. A MOVE_BURST in a MIGRATE minute starts the first move burst that waits, as much of it as can be planned, the rest staying in its slot. For a unit that has been run up to the present: an ORDINARY_ACCESS to a tier-0 address of a unit that is busy, or in or due its refresh, joins the unit's open window where one more still fits, else waits; any other is served: an access beyond the flat range, or to check symbols, is answered with ADDRESS_ERROR and changes nothing; a read that its code passes, or that lies under none, is answered with the bytes; one under a code with an uncorrectable error is answered with ADDRESS_ERROR (the model's choice, log 104); a write with no check symbol or sealed KiB in its range is written and answered OK. ACCESS_WINDOW with one access to serve and no refresh due takes the first of the walker's, else of the urgent ones, else of the rest, and where that is a plain write, writes it; within a burst it opens at the end of the row-set read, costs the window's cycles and, where they fit before the refresh, the reopening's, and else suspends the burst. -/
def Obligations.UnitsScrubMoveAndServeAccesses : Prop :=
  ∀ (s : State) (u : Nat) (flips : List Flip), s.Inv → keysRise s.vsp.units = true → (s.unit u).plan = [] →
    let v := s.unit u
    let lead : Nat := vUnit * s.now + 12 * s.vCycle
    (u < 2048 → s.masked u = false → inRefresh u s.now = false → v.busy = false → isGuard s.now = false → s.running = true →
      (∀ pos, s.bit Reg.vspScrubCfg 0 = true → s.owner = Owner.scrub → v.passPos = some pos →
        let todo := s.scrubTodo u
        let b0 := mkBurst (s.vsp.nextBurst % 65536) .scrub false 0 false ((s.pack .scrub false 8 (todo.flatMap (fun x => s.planItems .scrub 1 x.2)) []).headD [])
        let n := s.plannable u s.now { b0 with tiles := b0.tiles.take (2 * (b0.tiles.length / 2)) }
        let apart : Prop := (todo.map Prod.fst).Nodup ∧ (todo.map Prod.snd).Nodup
        let last : Prop := ∀ k, k < 2048 → k ≠ u → s.masked k = true ∨ s.vsp.passEnded.contains k = true
        let dealtWith : Prop := v.returns.any (fun r => r.kind == .scrub) = false ∧ s.vsp.rereads.any (fun r => r.2.unit == u && r.2.reader == 1) = false
        (todo ≠ [] → n = 0 → exec (.scrubBurst u flips) s = .next s)
        ∧ (todo ≠ [] → n ≠ 0 → apart → Completes (.scrubBurst u flips) s [.run, .vsp] (fun t => ∃ c p again,
            t.unit u = { v with cur := some c, stopped := false, clock := lead, window := none, passPos := some p, again := again
                                normal := v.normal.filter (fun x => x.kind != .scrub) } ∧
            c.kind = .scrub ∧ c.pos = 0 ∧ (∀ y ∈ c.tiles, y.ent ∈ todo.map Prod.snd) ∧ (∀ o ∈ again, o ∈ v.again) ∧
            (∀ x ∈ todo, (∀ y ∈ c.tiles, y.ent = x.2 → y.isV = false) → p ≤ x.1 ∨ x.1 ∈ again)))
        ∧ (todo = [] → dealtWith → ¬last → Completes (.scrubBurst u flips) s [.vsp] (fun t =>
            t.unit u = { v with passPos := none, again := [] } ∧ t.vsp.passEnded = setInsert s.vsp.passEnded u))
        ∧ (todo = [] → dealtWith → last → Completes (.scrubBurst u flips) s [.live, .vsp, .hst, .sum, .outbox] (fun t =>
            (∀ k, (t.unit k).passPos = some 0 ∧ (t.unit k).again = []) ∧ t.vsp.passEnded = [] ∧ t.vsp.passStart = s.frame ∧ t.bit Reg.vspEvent 6 = true ∧
            t.fld Reg.vspScrubPass 15 0 = min 0xFFFF (s.fld Reg.vspScrubPass 15 0 + 1)))
        ∧ (todo = [] → ¬dealtWith → exec (.scrubBurst u flips) s = .next s))
      ∧ (∀ b : Burst, s.owner = Owner.migrate → v.normal.find? (fun x => x.kind == .move) = some b → b.urgent = false →
          let n := s.plannable u s.now b
          let which (l : List TileEnt) : List (BurstEntry × Bool) := l.map (fun y => (y.ent, y.isV))
          (n = 0 → exec (.moveBurst u flips) s = .next s)
          ∧ (n ≠ 0 → Completes (.moveBurst u flips) s [.run, .vsp] (fun t => ∃ (c : Burst) (rest : List Burst),
            t.unit u = { v with normal := List.append rest (v.normal.erase b), cur := some c, stopped := false, clock := lead, window := none } ∧
            c.id = b.id ∧ c.kind = .move ∧ which c.tiles = which (b.tiles.take n) ∧ which (rest.flatMap (·.tiles)) = which (b.tiles.drop n)))))
    ∧ (s.goesOn u (some (vUnit * s.now)) = false → ∀ (source addr : Nat) (isWrite : Bool) (data : List Byte) (ecc : EccOutcome),
        let waits : Prop := addr < tier0End ∧ (tier0Decode addr).1 = u ∧ (v.busy = true ∨ s.refreshDue u = true)
        let plain : Prop := addr + data.length ≤ flatEnd ∧ s.firstCheck addr data.length = none ∧ s.firstSealed addr data.length = none
        let access : Instr := .ordinaryAccess u source isWrite addr ⟨data, ecc⟩
        let written (t : State) : Prop := Sends s t [.access Status.ok []] ∧ (∀ i, i < data.length → t.peek (addr + i) = data.getD i 0) ∧
          (∀ a, a < addr ∨ addr + data.length ≤ a → t.peek a = s.peek a)
        let joins (e k : Nat) : Prop := v.window = some (e, k) ∧ vUnit * s.now ≤ e ∧ k < s.fld Reg.vspBurstCfg 19 16 ∧ s.fitsRefresh u e 4 = true
        (waits → (∀ e k, ¬joins e k) → Completes access s [.vsp] (fun t =>
            t.unit u = { v with waiting := List.append v.waiting [⟨source, isWrite, addr, data, ecc⟩] } ∧ ∀ k, k ≠ u → t.unit k = s.unit k))
        ∧ (∀ e k, waits → joins e k → isWrite = true → plain → Completes access s [.run, .vsp, .mem, .outbox] (fun t =>
            written t ∧ t.unit u = { v with window := some (e + 4 * s.vCycle, k + 1), clock := v.clock + 4 * s.vCycle }))
        ∧ (¬waits → (flatEnd < addr + (if isWrite = true then data.length else 64) ∨ (isWrite = false ∧ s.firstCheck addr 64 ≠ none) ∨
              (isWrite = true ∧ s.firstCheck addr data.length ≠ none)) →
            Completes access s [.outbox] (fun t => Sends s t [.access Status.addressError []]))
        ∧ (¬waits → isWrite = false → addr + 64 ≤ flatEnd → s.firstCheck addr 64 = none →
          (s.codedAt addr = false ∨ ecc = .clean → Completes access s [.outbox, .freeCtr] (fun t => Sends s t [.access Status.ok (s.readBytes addr 64)]))
          ∧ (s.codedAt addr = true → ecc = .corrected → Completes access s (partsOf access) (fun t => t.outbox.getLast? = some (.access Status.ok (s.readBytes addr 64))))
          ∧ (s.codedAt addr = true → ecc = .uncorrectable → Completes access s (partsOf access) (fun t => t.outbox.getLast? = some (.access Status.addressError []))))
        ∧ (¬waits → isWrite = true → plain → Completes access s [.mem, .outbox] written)
        ∧ (plain → ∀ n : Nat, (byRank v.waiting).head? = some ⟨source, true, addr, data, ecc⟩ → min n (min v.waiting.length (s.fld Reg.vspBurstCfg 19 16)) = 1 →
            (v.busy = false → s.refreshDue u = false → Completes (.accessWindow u n) s [.vsp, .mem, .outbox] (fun t =>
              written t ∧ t.unit u = { v with waiting := (byRank v.waiting).drop 1 }))
            ∧ (∀ c, v.running = some c → v.stopped = false → c.rows = [] →
              let x := s.advanceTo (ceilDiv v.clock vUnit)
              let e := max v.clock (vUnit * x.now) + 16 * s.vCycle
              let fits := s.fitsRefresh u e 12
              x.refreshDue u = false → Completes (.accessWindow u n) s [.now, .run, .vsp, .mem, .outbox] (fun t =>
                written t ∧ t.now = x.now ∧ t.unit u = { v with
                  waiting := (byRank v.waiting).drop 1, window := some (e, 1), clock := if fits = true then e + 12 * s.vCycle else e, stopped := !fits }))))

/-- Where the bank groups that a hub core reads are idle with no refresh due: for the oldest return record of a unit whose planned bursts have all been delivered, over the two tiles of one leaf of a dispatched request: if it is refused the leaf goes to a hub core; if both tiles pass, with another leaf of the request still to be done, the candidate of the record has its partial, the leaf is done once every candidate it serves has, and the request goes on waiting; if a tile fails, the leaf goes to a hub core and a re-read of that tile, where it was read, is noted. A record missing 1,024 cycles after its burst's planned end gives its leaf to a hub core, counts, adds 256 points to the bank group and, as the second in a frame, masks the unit. A re-read that passes records transient and adds 8 points to the bank group of the tile, the leaf then waiting for a hub core once no other tile of it is read again; one that fails records persistent. HUB_CORE_WORK_DONE does every leaf given to a hub core whose tiles pass, the request waiting on for any other. -/
def Obligations.ReturnRecordsAreChecked : Prop :=
  ∀ (s : State) (u rid idx : Nat) (r : Run) (flips : List Flip), s.Inv → keysRise s.vsp.units = true → keysRise s.hlt.scores = true → (s.unit u).plan = [] →
    s.run rid = some r →
    let v := s.unit u
    let e : BurstEntry := .leaf rid idx
    let idle (loc : Nat) : Prop := (s.unit (locUnit loc)).busy = false ∧ s.refreshDue (locUnit loc) = false
    let leaf (t : State) (f : Job → Job) : Prop := t.run rid = some { r with jobs := listMap r.jobs idx f }
    let toHub (j : Job) : Job := if j.st = .done then j else { j with exec := .hub, st := .issued }
    (∀ (x : Return) (rest : List Return) (k w : TileEnt), v.returns = x :: rest → x.kind = .attend → x.tiles = [k, w] → k.ent = e → w.ent = e → k.isV = false → w.isV = true →
      let strike (y : TileEnt) : TileEnt := { y with flips := List.append y.flips ((flips.filter (fun f => f.idx == 0 && f.isV == y.isV)).map (fun f => (f.off, f.bits))) }
      let all := (s.entInfo e).cands
      (∀ wrong, x.refused = true → Completes (.vesperReturnRecord u flips wrong) s [.sch, .vsp] (fun t => t.unit u = { v with returns := rest } ∧ leaf t toHub))
      ∧ (x.refused = false → s.entFault (strike k) = none → s.entFault (strike w) = none → (∃ i j, i ≠ idx ∧ r.jobs[i]? = some j ∧ j.st ≠ .done) →
          Completes (.vesperReturnRecord u flips false) s [.sch, .vsp] (fun t => t.unit u = { v with returns := rest } ∧ leaf t (fun j =>
            let got := setInsert j.got x.cand
            if j.exec = .unit u then { j with got := got, st := if all.all got.contains = true then .done else j.st } else j)))
      ∧ (∀ wrong differs, x.refused = false → s.entFault (strike k) = some differs → s.entFault (strike w) = none →
          Completes (.vesperReturnRecord u flips wrong) s [.run, .sch, .vsp] (fun t => t.unit u = { v with returns := rest } ∧
            (∃ n y, tabGet t.vsp.rereads n = some y ∧ y.unit = u ∧ y.reader = 0 ∧ y.ent = e ∧ y.isV = false ∧ y.differs = differs ∧ y.scrub = false ∧
              s.entryTile e = some (y.pair, y.check, y.loc) ∧ y.page = s.entryRef e) ∧
            (∃ r', t.run rid = some r' ∧ r'.jobs = listMap (listMap r.jobs idx toHub) idx (fun j => { j with exec := .reread u }))))
      ∧ Completes (.returnRecordMissing u) s (partsOf (.returnRecordMissing u)) (fun t =>
          (v.missing = 0 → t.unit u = { v with returns := rest, missing := 1, passPos := (t.unit u).passPos, again := (t.unit u).again } ∧ t.vsp.masked = s.vsp.masked ∧ leaf t toHub) ∧ t.now = max s.now (ceilDiv (x.due + 1024 * s.vCycle) vUnit) ∧
          (v.missing ≠ 0 → t.masked u = true) ∧ (t.score (Part.bankGroup u)).score = min 65535 ((s.score (Part.bankGroup u)).score + 256)))
    ∧ (∀ (n : Nat) (y : Reread), tabGet s.vsp.rereads n = some y → y.ent = e → idle y.loc →
        let read := corrupt flips 0 y.pair
        let found := if y.isV = true then tileFault y.loc true read.v y.check.2 else tileFault y.loc false read.k y.check.1
        (found = none → Completes (.tileRereadDone n flips) s (partsOf (.tileRereadDone n flips)) (fun t =>
          t.bit Reg.vspEvent 1 = true ∧ t.vsp.rereads = tabDel s.vsp.rereads n ∧
          ((tabDel s.vsp.rereads n).any (fun z => decide (z.2.ent = e)) = false → leaf t (fun j => if j.st = .done then j else { j with exec := .hub, st := .waiting })) ∧
          (t.score (Part.bankGroup (locUnit y.loc))).score = min 65535 ((s.score (Part.bankGroup (locUnit y.loc))).score + 8)))
        ∧ (found ≠ none → Completes (.tileRereadDone n flips) s (partsOf (.tileRereadDone n flips)) (fun t =>
          t.bit Reg.vspEvent 0 = true ∧ t.vsp.rereads = tabDel s.vsp.rereads n)))
    ∧ ((∀ j ∈ r.jobs.zipIdx, j.1.exec = .hub → j.1.st = .issued → ∀ k w, j.1.src = .sealed k w →
          (j.1.inTier1 = true → flipOffs flips j.2 k.length = []) ∧ (j.1.inTier1 = false → idle j.1.loc ∧ pairFaults j.1.loc (corrupt flips j.2 ⟨k, w⟩) j.1.check = [])) →
        (∃ j ∈ r.jobs, j.st ≠ .done ∧ ¬(j.exec = .hub ∧ j.st = .issued)) → Completes (.hubCoreWorkDone rid flips) s [.sch] (fun t =>
          t.run rid = some { r with jobs := r.jobs.map (fun j => if j.exec = .hub ∧ j.st = .issued then { j with st := .done } else j) }))

/-- TIER1_PATROL of a clean block changes nothing, nor does one outside tier 1; a corrected error adds one point to its LPDDR6 stack; an uncorrectable one that strikes no page and no weight tile adds 64 points and fails its 64 KiB unit, which is retired at once where nothing lives in it. PAGE_COPY_DONE of a shadow whose tiles have been read and written ends the move: the page has the tier-1 copy, SHADOWED if it was SEALED; before they are written it changes nothing. OLD_LOCATION_FREE frees an old location with no reader left and leaves one with a reader. WEIGHT_REPAIR_TIMEOUT of an open repair gives the tile up and records it. SRAM_REFILL_DONE with no run on the group records the refill, of an object or of a match image; where the working copy failed too the tile is poisoned, which is recorded, and remains so where the other copy has failed as well; an error of an object also adds 64 points to the hub core. -/
def Obligations.TiersPatrolSwitchFreeAndRepair : Prop :=
  ∀ (s : State), s.Inv → keysRise s.hlt.scores = true →
    (∀ a : Nat, (a < tier0End ∨ flatEnd ≤ a → ∀ o, exec (.tier1Patrol a o) s = .next s)
      ∧ (tier0End ≤ a → a < flatEnd →
        let part := Part.lpddr (s.lpddrStack a)
        exec (.tier1Patrol a .clean) s = .next s
        ∧ Completes (.tier1Patrol a .corrected) s [.live, .hlt, .hst, .sum, .outbox] (fun t =>
            (t.score part).score = min 65535 ((s.score part).score + 1) ∧ ∀ p, p ≠ part → t.score p = s.score p)
        ∧ (s.allPages = [] → s.tileAt a = none → s.mem.failing = [] → s.mem.retired.contains (tier1Unit a) = false →
            let struck (m : MemSt) : Prop := Completes (.tier1Patrol a .uncorrectable) s [.live, .mem, .hlt, .hst, .sum, .outbox] (fun t =>
              (t.score part).score = min 65535 ((s.score part).score + 64) ∧ t.mem = m)
            (s.unitLive (tier1Unit a) = false → struck { s.mem with retired := setInsert s.mem.retired (tier1Unit a) })
            ∧ (s.unitLive (tier1Unit a) = true → struck { s.mem with failing := [tier1Unit a] }))))
    ∧ (∀ (id : Nat) (m : Move) (flips : List Flip), tabGet s.mem.moves id = some m → m.kind = .shadow → m.full = true →
        (m.copied = false → exec (.pageCopyDone id flips) s = .next s)
        ∧ (m.copied = true → m.page.grp = false → (s.pageAt m.page).state = .sealed → Completes (.pageCopyDone id flips) s [.live, .pgw, .mem] (fun t =>
          t.mem.moves = tabDel s.mem.moves id ∧ t.mem.backlog.contains m.page = false ∧
          t.pageAt m.page = { s.pageAt m.page with state := .shadowed, moving := false, shadow := some (m.dest.headD 0, m.bytes) })))
    ∧ (∀ (id : Nat) (o : OldLoc), tabGet s.mem.olds id = some o →
        (s.sch.runs.any (fun r => o.readers.contains r.req.rid) = true → exec (.oldLocationFree id) s = .next s)
        ∧ (s.sch.runs.any (fun r => o.readers.contains r.req.rid) = false → Completes (.oldLocationFree id) s [.mem] (fun t =>
            t.mem.olds = tabDel s.mem.olds id ∧ t.mem.moves = s.mem.moves)))
    ∧ (∀ (obj tile : Nat) (p : TileKey × (Nat × Bool)), s.poisonAt obj tile = some p →
        Completes (.weightRepairTimeout obj tile) s (partsOf (.weightRepairTimeout obj tile)) (fun t =>
          t.now = max s.now p.2.1 ∧ t.bit Reg.memEvent 5 = true ∧ ∀ x ∈ t.mem.poison, x.1 = p.1 → x.2.2 = true))
    ∧ (∀ (obj tile g core : Nat), tabGet s.prog.current g = none →
        let k : TileKey := ⟨obj, s.verOf obj, tile⟩
        let part := Part.core (8 * g + core)
        let hit (t : State) : Prop := (t.score part).score = min 65535 ((s.score part).score + 64)
        (obj < 2048 → Completes (.sramRefillDone obj tile ⟨true, g, core⟩) s [.live, .hlt, .hst, .sum, .outbox] (fun t => t.bit Reg.attProgEvent 3 = true ∧ hit t))
        ∧ (2048 ≤ obj → Completes (.sramRefillDone obj tile ⟨true, g, core⟩) s [.live, .hst, .sum, .outbox] (fun t => t.bit Reg.matEvent 3 = true))
        ∧ (s.map.cur = none → s.isPoisoned k = false → Completes (.sramRefillDone obj tile ⟨false, g, core⟩) s (partsOf (.sramRefillDone obj tile ⟨false, g, core⟩)) (fun t =>
          t.bit Reg.memEvent 3 = true ∧ (obj < 2048 → hit t) ∧ (s.mem.badCopies.contains (k, false) = true → t.isPoisoned k = true))))

/-- On a running node, for a finished reply: before its earliest instant REPLY_SEND changes nothing; later than it, the reply is handed over all the same and SEC_EVENT records it late. Over a queue pair that is READY or drains, with room, the reply's bytes go as the pair's next message; with no room nothing changes; where the pair is in ERROR, FENCED or INIT, or has begun a new stream since the request came, or is no more, the reply is discarded and counted. To a host ring's request it is written with one entry of the ring's completion ring, whose tail goes on by one; while that ring is full nothing changes. In each case the reply is off the list, its place in the context ends, and its evidence record, if it owes one, is written: in the entry reserved for it or in a free one; with none free it is counted as missed. (A holder's reply to its home goes another way and is not meant.) -/
def Obligations.FinishedRepliesAreHandedOver : Prop :=
  ∀ (s : State) (rid : Nat) (x : Reply), s.Inv → s.running = true → s.sch.replies.find? (fun y => y.req.rid == rid) = some x →
    let bytes := x.bytes s.genLow
    let free : Prop := s.hlt.evidence.length + s.hlt.evReserved < 65535
    let ends (sent : Bool) (more : State → Prop) : Prop := Completes (.replySend rid) s (partsOf (.replySend rid)) (fun t =>
      t.sch.replies = s.sch.replies.filter (fun y => y.req.rid != rid) ∧
      (x.notBefore ≠ 0 → x.notBefore < s.now → t.bit Reg.secEvent 8 = true) ∧
      (x.noRecord = true → t.hlt.evidence = s.hlt.evidence ∧ t.hlt.evReserved = s.hlt.evReserved) ∧
      (x.noRecord = false → x.req.evEntry = true → ∃ e, t.hlt.evidence = List.append s.hlt.evidence [e] ∧ t.hlt.evReserved = s.hlt.evReserved - 1) ∧
      (x.noRecord = false → x.req.evEntry = false → free → ∃ e, t.hlt.evidence = List.append s.hlt.evidence [e] ∧ t.hlt.evReserved = s.hlt.evReserved) ∧
      (x.noRecord = false → x.req.evEntry = false → ¬free → t.hlt.evidence = s.hlt.evidence ∧ t.hlt.evMissed = s.hlt.evMissed + 1 ∧ t.bit Reg.hltEvent 6 = true) ∧
      (sent = true → .reply rid bytes ∈ t.outbox ∧ t.que.discards = s.que.discards) ∧
      (sent = false → (∀ b, .reply rid b ∈ t.outbox → .reply rid b ∈ s.outbox) ∧ t.que.discards.lateReply = s.que.discards.lateReply + 1) ∧ more t)
    (s.now < x.notBefore → exec (.replySend rid) s = .next s)
    ∧ (x.notBefore ≤ s.now →
      ((∀ i a c, x.req.arr.via ≠ .ring i a c) → (x.holder = false ∨ x.req.fwd = false) →
        (∀ q : Qp, s.qp x.req.arr.ctx = some q → x.req.key = x.req.arr.ctx →
          ((q.state = .ready ∨ q.state = .drain) → q.stream = x.req.stream → s.roomFor x bytes.length = true → q.sent.length < q.maxOut →
            ends true (fun t => (∃ q', t.qp x.req.arr.ctx = some q' ∧ q'.inbound = q.inbound - 1 ∧ q'.sent = List.append q.sent [⟨q.sndNext, 1, 3, bytes, 0, x.req.urgent⟩] ∧
              q'.sndNext = (q.sndNext + 1) % 2 ^ 24) ∧ t.que.respBytes = s.que.respBytes + bytes.length))
          ∧ ((q.state = .ready ∨ q.state = .drain) → q.stream = x.req.stream → (s.roomFor x bytes.length = false ∨ q.maxOut ≤ q.sent.length) → exec (.replySend rid) s = .next s)
          ∧ (q.state = .error ∨ q.state = .fenced ∨ q.state = .init ∨ q.stream ≠ x.req.stream →
            ends false (fun t => ∃ q', t.qp x.req.arr.ctx = some q' ∧ q'.inbound = q.inbound - 1 ∧ q'.sent = q.sent)))
        ∧ (s.qp x.req.arr.ctx = none → ends false (fun _ => True)))
      ∧ (∀ (sub addr cap : Nat) (q c : Qp), x.req.arr.via = .ring sub addr cap → s.qp x.req.key = some q → s.qp (ringBase + q.rcring) = some c → c.ring = true → c.rkind = 1 →
        (c.ringUsed < c.ringSize → ends true (fun t => (t.qp (ringBase + q.rcring)).map (·.rtail) = some ((c.rtail + 1) % 2 ^ 32)))
        ∧ (c.ringSize ≤ c.ringUsed → exec (.replySend rid) s = .next s)))

/-- On a running node: while a load is in progress LOAD_PROGRAM, LOAD_WEIGHT_OBJECT and UNLOAD only record the refusal. Otherwise each commits its registers, shows busy and holds one load: its action, the container's place and length, or the unload's target and slot; a container outside a use-3 window has failed. LOAD_DONE of a load that has all it waits for ends it, clears busy, puts the result in ATT_LOAD_STATUS[15:8] and records it: BAD_FORMAT for a failed read; a program's or object's result as its checks give it, with no slot changed unless that is OK; an unload of a program slot in use from the next Midnight on leaves it, of an object that an active program names answers IN_USE. -/
def Obligations.LoadsAreCommandedCheckedAndNoted : Prop :=
  ∀ (s : State) (src len target slot : Nat), s.Inv → s.running = true → src % 4096 = 0 → src < 2 ^ 64 → len < 2 ^ 32 →
    let fields (i : Instr) (action : Nat) : Prop := Completes i s (partsOf i) (fun t => t.bit Reg.attLoadStatus 0 = true ∧
      ∃ x, t.prog.load = some x ∧ x.action = action ∧ x.src = src ∧ x.len = len ∧ x.got = [] ∧ x.slot = bitsOf (s.staged Reg.attLoadCtl) 25 16 ∧
        (s.inWindow 0 3 src len = false → 0 < len → x.failed = true))
    (s.bit Reg.attLoadStatus 0 = true → ∀ i ∈ [Instr.loadProgram src len, .loadWeightObject src len, .unload target slot],
      Completes i s [.live, .hst, .sum, .outbox] (fun t => t.bit Reg.attProgEvent 1 = true))
    ∧ (s.bit Reg.attLoadStatus 0 = false → fields (.loadProgram src len) 0 ∧ fields (.loadWeightObject src len) 1 ∧
        Completes (.unload target slot) s (partsOf (.unload target slot)) (fun t => t.bit Reg.attLoadStatus 0 = true ∧
          ∃ x, t.prog.load = some x ∧ x.action = 2 ∧ x.target = target % 2 ∧ x.slot = slot % 1024))
    ∧ (∀ (x : Load) (f : LoadFacts), s.prog.load = some x → x.ready = true →
        let ends (result : Nat) (p : State → Prop) : Prop := Completes (.loadDone f) s (partsOf (.loadDone f)) (fun t => t.prog.load = none ∧
          t.bit Reg.attLoadStatus 0 = false ∧ t.fld Reg.attLoadStatus 15 8 = result ∧ t.bit Reg.attProgEvent 0 = true ∧ t.prog.current = s.prog.current ∧ p t)
        let same (t : State) : Prop := t.prog.programs = s.prog.programs ∧ t.prog.objects = s.prog.objects ∧ t.mat = s.mat
        (x.action ≠ 2 → x.failed = true → ends LoadResult.badFormat same)
        ∧ (x.action = 0 → x.failed = false → let r := s.loadProg x.slot (x.got.take x.len) f
            ends r.2 (fun t => t.prog.objects = s.prog.objects ∧ t.mat = s.mat ∧ t.prog.programs = r.1.prog.programs ∧
              (r.2 ≠ LoadResult.ok → same t) ∧ ∀ k, k ≠ x.slot % 64 → tabGet t.prog.programs k = tabGet s.prog.programs k))
        ∧ (x.action = 1 → x.failed = false → let r := s.loadObject (x.got.take x.len) f
            ends r.2 (fun t => t.prog.programs = s.prog.programs ∧ t.prog.objects = r.1.prog.objects ∧ t.mat = r.1.mat ∧ (r.2 ≠ LoadResult.ok → same t)))
        ∧ (x.action = 2 → x.target = 0 → ∀ y, tabGet s.prog.programs (x.slot % 64) = some y → ends LoadResult.ok (fun t =>
            tabGet t.prog.programs (x.slot % 64) = some { y with next := some none } ∧ t.prog.objects = s.prog.objects))
        ∧ (x.action = 2 → x.target = 1 → s.objInUse x.slot = true → ends LoadResult.inUse same))

/-- For a core of a segment under way whose next step is the word w, with a FUNC of code 0 to 4: the step's command writes at dst what Table 8.5 gives and moves the core to its next step: IN the input from src_a; MATMUL the product, each row of activations at the scale of the tensor it was quantised in, any code where no QUANT step has set one; ADD and MUL element by element, rounded once; RMSNORM and LAYERNORM row by row with the resident gains, offsets and epsilon; FUNC its function of each element, rounded once; QUANT codes clamped to 127, with their scale kept for the tensor at dst and the clamps counted for the tenant; ROPE, with no tile that it needs poisoned, the rotation of the run's position by the table the run holds. OUT writes dst's bytes into the run's output; SYNC copies the core's region, with the scales of tensors quantised in it, to every core of its program; SEG and END end the core's segment. Every other core, run, program and object stays as it is. Where tensors and scales lie within the buffers is the model's choice (log 41). -/
def Obligations.ProgramStepsComputeTheirTable : Prop :=
  ∀ (s : State) (core w : Nat) (a : CoreAt), s.Inv → s.coreAt core w = some a →
    let xs := a.ctx.elems (StepWord.srcA w) (StepWord.e w)
    let ys := a.ctx.elems (StepWord.srcB w) (StepWord.e w)
    let rest (t : State) : Prop := t.prog.programs = s.prog.programs ∧ t.prog.objects = s.prog.objects ∧ t.prog.load = s.prog.load
    let alone (t : State) : Prop := rest t ∧ t.prog.current = s.prog.current ∧ ∀ c, c ≠ core → t.core c = s.core c
    let puts (i : Instr) (m : List Blk) (bs : List Byte) : Prop := Completes i s m (fun t => t.core core = (a.ctx.write (StepWord.dst w) bs).next ∧ alone t)
    let puts1 (i : Instr) (l : List Nat) : Prop := puts i [.prog] (elemBytes l)
    let quant (i : Instr) (code : Nat) : Prop := Completes i s [.run, .prog] (fun t => alone t ∧
      t.core core = (a.ctx.write (StepWord.dst w) (xs.map (fun x => (quantCode code x).1))).next.putScale (StepWord.dst w) (StepWord.e w) code ∧
      t.regs.run = (s.bump (Reg.attProgTenant + 16 * a.run.prog.owner + 8) (xs.filter (fun x => (quantCode code x).2)).length).regs.run)
    (StepWord.op w = 0x01 → puts (.stepIn core w) [.prog] (slice a.run.input (StepWord.srcA w) (StepWord.ioBytes w)))
    ∧ (StepWord.op w = 0x02 → Completes (.stepOut core w) s [.prog] (fun t => rest t ∧ t.core core = a.ctx.next ∧ (∀ c, c ≠ core → t.core c = s.core c) ∧
        tabGet t.prog.current a.group = some { a.run with output := putOutput a.run.output (StepWord.srcA w) (a.ctx.read (StepWord.dst w) (StepWord.ioBytes w)) }))
    ∧ (StepWord.op w = 0x03 → Completes (.matmul core w) s [.prog, .freeCtr] (fun t => alone t ∧
        ∃ free, free < 256 ∧ t.core core = (a.ctx.write (StepWord.dst w) (elemBytes (matProduct w a (fun x => (a.ctx.scaleAt x).getD free)))).next))
    ∧ (StepWord.op w = 0x04 → puts1 (.add core w) ((xs.zip ys).map (fun p => bf16Round ((bf16Val p.1).add (bf16Val p.2)))))
    ∧ (StepWord.op w = 0x05 → puts1 (.mul core w) ((xs.zip ys).map (fun p => bf16Round ((bf16Val p.1).mul (bf16Val p.2)))))
    ∧ (StepWord.op w = 0x06 → let n := StepWord.row w; let g := elemsOf (n + 1) (a.resident (StepWord.srcB w) (2 * n + 2))
        puts1 (.rmsnorm core w) ((rowsOfList n xs).flatMap (fun x => rmsNorm x (g.take n) (g.getD n 0))))
    ∧ (StepWord.op w = 0x07 → let n := StepWord.row w; let g := elemsOf (2 * n + 1) (a.resident (StepWord.srcB w) (4 * n + 2))
        puts1 (.layernorm core w) ((rowsOfList n xs).flatMap (fun x => layerNorm x (g.take n) ((g.drop n).take n) (g.getD (2 * n) 0))))
    ∧ (StepWord.op w = 0x08 → ∀ f ∈ [(Instr.funcSigmoid core w, 0), (.funcTanh core w, 1), (.funcGelu core w, 2), (.funcSilu core w, 3), (.funcExp2 core w, 4)],
        StepWord.k w = f.2 → puts1 f.1 (xs.map (fun x => bf16Round (funcVal f.2 (bf16Val x)))))
    ∧ (StepWord.op w = 0x09 → quant (.quantDyn core w) (dynScale xs))
    ∧ (StepWord.op w = 0x0A → quant (.quantStatic core w) (StepWord.k w % 256))
    ∧ (StepWord.op w = 0x0B → ∀ o t, tabGet a.run.ropes (StepWord.k w) = some o → rotaryOf o.tiles.flatten = some t → s.ropePoison a.run (StepWord.k w) = none →
        puts (.rope core w) [.prog, .freeCtr] (elemBytes ((rowsOfList t.d xs).flatMap (ropeRow t a.run.pos))))
    ∧ (StepWord.op w = 0x0C → a.run.prog.cores.Nodup → Completes (.sync core w) s [.prog] (fun t => rest t ∧ t.prog.current = s.prog.current ∧ t.core core = a.ctx.next ∧
        (let n := StepWord.ioBytes w; let region := StepWord.dst w + a.rank * n
         let scales := a.ctx.scales.filter (fun q => decide (region ≤ q.1 ∧ q.1 + q.2.1 ≤ region + n))
         ∀ c, c ≠ core → t.core c = (if c ∈ a.run.coreNums a.group
           then scales.foldl (fun x q => x.putScale q.1 q.2.1 q.2.2) ((s.core c).write region (a.ctx.read region n)) else s.core c))))
    ∧ (StepWord.op w = 0x0E → Completes (.seg core w) s [.prog] (fun t => alone t ∧ t.core core = { a.ctx with ended := true, pc := a.ctx.pc + 1 }))
    ∧ (StepWord.op w = 0x0F → Completes (.endStep core w) s [.prog] (fun t => alone t ∧ t.core core = { a.ctx with ended := true, pc := a.ctx.pc + 1 }))

/-- For a group with a segment under way: SEGMENT_END changes nothing before every core has ended it. Once all have, the segment is counted for the tenant and for the run, and the group keeps its run, no longer executing; after the last segment of a RUN the run is counted, leaves the group with its cores' buffers gone, and its request completes with the output. -/
def Obligations.SegmentsEndAndRunsFinish : Prop :=
  ∀ (s : State) (g : Nat) (p : ProgRun), s.Inv → tabGet s.prog.current g = some p → p.busy = true →
    let all := (p.coreNums g).all (fun c => (s.core c).ended)
    let counted := s.bump (Reg.attProgTenant + 16 * p.prog.owner + 4)
    (all = false → exec (.segmentEnd g) s = .next s)
    ∧ (all = true → p.seg + 1 < p.prog.segments → Completes (.segmentEnd g) s [.run, .prog] (fun t =>
        tabGet t.prog.current g = some { p with busy := false, seg := p.seg + 1, cascFails := 0 } ∧ t.prog.cores = s.prog.cores ∧ t.regs.run = counted.regs.run))
    ∧ (∀ r : Run, all = true → p.prog.segments ≤ p.seg + 1 → s.run p.rid = some r → r.req.op = .run → r.attends = false → r.req.rid = p.rid →
        (∀ c ∈ s.prog.current, c.2.rid = p.rid → c.1 = g) → (∀ c ∈ s.prog.current, c.1 = g → c.2 = p) → p.prog.cores ≠ [] →
        Completes (.segmentEnd g) s (partsOf (.segmentEnd g)) (fun t =>
          (∃ x, t.sch.replies = List.append s.sch.replies [x] ∧ x.req = r.req ∧ x.status = r.status ∧ x.body = p.output ∧ x.detail = p.prog.outBytes) ∧ t.run p.rid = none ∧
          tabGet t.prog.current g = none ∧ (∀ c ∈ p.coreNums g, tabGet t.prog.cores c = none) ∧
          (r.status ≠ Status.staleMap → t.regs.run = ((counted.bump (Reg.attProgTenant + 16 * p.prog.owner)).bump (Reg.attSatTenant + 16 * Msg.tenant r.req.msg + 12) 0).regs.run)))

/-- On a running node, for a slot and position in range and a frame below 2^44: RULE_INSERT and RULE_DELETE of a slot without an active TCAM image answer 2; for a frame less than two ahead they answer 3; with 64 edits already pending for the frame they answer 4; where one of the slot's pending edits and this one, in the order of their frames, would then not apply, they answer 5 for a position and 1 for want of a hole; else the edit joins the pending ones behind those of its frame and they answer OK. The answer stands in MAT_RULE_STATUS[2:0] and the count of pending edits, at most 64, in [14:8]. No image, key or search cell changes. -/
def Obligations.RuleEditsArePendingUntilTheirFrame : Prop :=
  ∀ (s : State) (slot pos value care word frame : Nat), s.Inv → s.running = true → slot < 64 → pos < 65536 → value < 2 ^ 160 → care < 2 ^ 160 → word < 2 ^ 32 → frame < 2 ^ 44 →
    let wide (a : Nat) : Nat := (List.range 5).foldl (fun v i => v + s.live (a + 4 * i) * 2 ^ (32 * i)) 0
    let ends (i : Instr) (result : Nat) (edits : List Edit) : Prop := Completes i s [.live, .staged, .mat] (fun t =>
      t.mat = { s.mat with edits := edits } ∧ t.fld Reg.matRuleStatus 2 0 = result ∧ t.fld Reg.matRuleStatus 14 8 = min 64 edits.length)
    let both (i : Instr) (insert : Bool) (r : Rule) : Prop :=
      ((∀ img, s.image slot = some img → ∃ a, img.body = .automata a) → ends i 2 s.mat.edits)
      ∧ (∀ img range, s.image slot = some img → img.body = .tcam range →
        let edit : Edit := ⟨slot, insert, pos, r, frame, slot + (if insert then 0 else 64) + 65536 * pos, img.version⟩
        let all := editInsert edit (s.mat.edits.filter (fun x => x.slot == slot))
        let full : Prop := 64 ≤ (s.mat.edits.filter (fun x => x.frame == frame)).length
        (frame < s.frame + 2 → ends i 3 s.mat.edits)
        ∧ (s.frame + 2 ≤ frame → full → ends i 4 s.mat.edits)
        ∧ (s.frame + 2 ≤ frame → ¬full → ∀ c, applyEdits range all = .error c → (c = 1 ∨ c = 5) ∧ ends i c s.mat.edits)
        ∧ (s.frame + 2 ≤ frame → ¬full → ∀ x, applyEdits range all = .ok x → ends i 0 (editInsert edit s.mat.edits)))
    both (.ruleInsert slot pos value care word frame) true ⟨value, care, word⟩
    ∧ both (.ruleDelete slot pos frame) false ⟨wide Reg.matRuleValue, wide Reg.matRuleCare, s.live Reg.matRuleWord⟩

/-- On a running node: TCAM_SCRUB with no error striking makes every cell its copy again, counting and recording what differed; AUTOMATA_AUDIT with no bad image changes nothing, and with no run under way a repaired bad image is recorded. A MATCH step, the engine's copy of its image good: of a local image it writes the result of its run's version as the engine holds it, or, where the engine holds it no longer, of the copy the run keeps; of a cascaded image it sends one frame, with the version active at the head, under the next serial and waits. A member of the ring merges its own result, at its position, into a frame of a version it holds, and a version it does not hold sets FAIL; probes and bad CRCs go on unrepaired. At the head a good return of a probe sets ring_ok and of a MATCH writes the merged record; a time-out or a bad return counts and records a failure: a probe's clears ring_ok, a step's first and second in a segment halt it to run again in a minute its class owns, and its third writes a record with FAIL. -/
def Obligations.TheEngineScrubsAuditsAndCascades : Prop :=
  ∀ (s : State), s.Inv → s.running = true →
    (let bad : List Nat := (s.mat.cellDiff.map Prod.fst).foldl setInsert []
     (bad = [] → Completes (.tcamScrub []) s [.mat] (fun t => t.mat = { s.mat with cellDiff := [] }))
      ∧ (bad ≠ [] → Completes (.tcamScrub []) s [.live, .run, .mat, .hst, .sum, .outbox] (fun t => (∀ i, t.tcamCell i = t.tcamCopy i ∧ t.tcamCopy i = s.tcamCopy i) ∧
          t.bit Reg.matEvent 2 = true ∧ t.regs.run = (s.bump Reg.matStat bad.length).regs.run)))
    ∧ (∀ r, exec (.automataAudit [] r) s = .next s)
    ∧ (∀ k tile img, k < 64 → s.image k = some img → s.prog.current = [] → Completes (.automataAudit [(k, tile)] true) s [.live, .hst, .sum, .outbox] (fun t => t.bit Reg.matEvent 3 = true))
    ∧ (∀ core w a img, s.coreAt core w = some a → StepWord.op w = 0x0D → s.imagePoison a.run (bitsOf w 79 64) = none → tabGet a.run.images (bitsOf w 79 64) = some img →
        let input := a.ctx.read (StepWord.srcA w) (StepWord.k w)
        (img.casc = false → s.imageVersion (bitsOf w 79 64) img.version = none → Completes (.matchStep core w) s [.prog] (fun t =>
          t.core core = (a.ctx.write (StepWord.dst w) (img.find input).record).next ∧ ∀ c, c ≠ core → t.core c = s.core c))
        ∧ (∀ i, img.casc = false → s.imageVersion (bitsOf w 79 64) img.version = some i → Completes (.matchStep core w) s (partsOf (.matchStep core w)) (fun t =>
          t.core core = (a.ctx.write (StepWord.dst w) (s.imageSearch i input).1.record).next ∧ ∀ c, c ≠ core → t.core c = s.core c))
        ∧ (img.casc = true → s.isHead = true → s.mat.searches.any (fun x => x.2.2.1 == some core) = false → Completes (.matchStep core w) s [.mat, .outbox] (fun t =>
          let active := ((s.image (bitsOf w 79 64)).map (·.version)).getD img.version
          let frame := cascadeFrameOf (cascadeBody img.type img.tag active s.mat.serial input Found.miss) true
          Sends s t [.cascade frame] ∧ tabGet t.mat.searches s.mat.serial = some (frame, some core, s.now) ∧ t.mat.serial = (s.mat.serial + 1) % 65536)))
    ∧ (∀ bytes : List Byte, s.bit Reg.matCascCfg 0 = true → s.fld Reg.matCascCfg 3 1 ≠ 0 → bytes.length = 22 + byteAt bytes 3 →
        let n := byteAt bytes 3
        let run := foundOf (slice bytes (8 + n) 12)
        let sends (f : Found) : Prop := Completes (.cascadeFrame bytes) s (partsOf (.cascadeFrame bytes)) (fun t =>
          .cascade (cascadeFrameOf (List.append (slice bytes 0 (8 + n)) f.frame) (cascadeCrcOk bytes)) ∈ t.outbox)
        (byteAt bytes 1 = 0 → sends run)
        ∧ (byteAt bytes 1 ≠ 0 → s.cascImage (byteAt bytes 2) = none → sends { run with fail := true })
        ∧ (∀ i, byteAt bytes 1 ≠ 0 → s.cascImage (byteAt bytes 2) = some i → i.type = byteAt bytes 1 → i.version % 65536 = field bytes 4 2 →
            sends (mergeFound (byteAt bytes 1 = 2) run (s.imageSearch i (slice bytes 8 n)).1 (s.fld Reg.matCascCfg 3 1))))
    ∧ (∀ (n : Nat) (frame : List Byte) (core : Option Nat) (sent : Nat), tabGet s.mat.searches n = some (frame, core, sent) →
        let failed (i : Instr) : Prop :=
          (core = none → Completes i s (partsOf i) (fun t => tabGet t.mat.searches n = none ∧ t.bit Reg.matEvent 4 = true ∧ t.bit Reg.matStatus 1 = false ∧
            t.regs.run = (s.bump (Reg.matStat + 4)).regs.run))
          ∧ (∀ c p, core = some c → tabGet s.prog.current (c / 8) = some p → Completes i s (partsOf i) (fun t => tabGet t.mat.searches n = none ∧ t.bit Reg.matEvent 4 = true ∧
            (p.cascFails < 2 → p.busy = true → tabGet t.prog.current (c / 8) = some { p with cascFails := p.cascFails + 1, busy := false, waitOwned := true }) ∧
            (2 ≤ p.cascFails → tabGet t.prog.current (c / 8) = some { p with cascFails := p.cascFails + 1 } ∧
              ∀ w a img, s.coreAt c w = some a → tabGet p.images (bitsOf w 79 64) = some img → s.imageVersion (bitsOf w 79 64) img.version = none →
                t.core c = (a.ctx.write (StepWord.dst w) (mergeFound (img.type = 2) { Found.miss with fail := true }
                  (img.find (slice frame 8 (byteAt frame 3))) 0).record).next)))
        failed (.cascadeTimeout n)
        ∧ (∀ bytes : List Byte, field bytes 6 2 = n →
          let f := foundOf (slice bytes (8 + byteAt bytes 3) 12)
          let good : Prop := cascadeCrcOk bytes = true ∧ slice bytes 0 8 = slice frame 0 8 ∧ f.fail = false ∧ s.now ≤ sent + 4 * frame.length + 192
          (¬good → failed (.cascadeReturn bytes))
          ∧ (good → core = none → Completes (.cascadeReturn bytes) s [.live, .mat] (fun t => t.bit Reg.matStatus 1 = true ∧ tabGet t.mat.searches n = none))
          ∧ (∀ c w a img, good → core = some c → s.coreAt c w = some a → tabGet a.run.images (bitsOf w 79 64) = some img → s.imageVersion (bitsOf w 79 64) img.version = none →
              Completes (.cascadeReturn bytes) s [.prog, .mat] (fun t => tabGet t.mat.searches n = none ∧
                t.core c = (a.ctx.write (StepWord.dst w) (mergeFound (img.type = 2) f (img.find (slice frame 8 (byteAt frame 3))) 0).record).next))))

/-- The merge of two EMPTY partials is EMPTY. Of any others it has the larger M, the sum of both L each shifted right by how far its own M lies below it, by dimension the L-weighted mean of O rounded by round_div, and SATURATED of either; it is what every inner node of the tree of R84 with a leaf below it holds, one without is EMPTY. The side with the larger M is not shifted, so where both L exceed 2^31 the merge's does; with leaves of at most 2^38, no node of a tree of 2^16 leaves exceeds 2^54. A merge with EMPTY on either side is the other side bit for bit. The merge is commutative. Four partials merged as ((A, B), (C, D)) and as (((A, B), C), D) can differ in the last bit of O. -/
def Obligations.TheCanonicalMergeIsRule111 : Prop :=
  (∀ a b : Partial, a.empty = true → b.empty = true → (merge a b).empty = true)
    ∧ (∀ a b : Partial, ¬(a.empty = true ∧ b.empty = true) →
      let m := max a.m b.m
      let la := shr a.l (m - a.m).toNat
      let lb := shr b.l (m - b.m).toNat
      merge a b = ⟨false, m, la + lb, List.zipWith (fun x y => roundDiv ((la : Int) * x + (lb : Int) * y) (la + lb)) a.o b.o, a.sat || b.sat⟩ ∧
      (a.m ≤ b.m → lb = b.l) ∧ (b.m ≤ a.m → la = a.l) ∧ merge a b = merge b a)
    ∧ (∀ (d : Nat) (leaves : List (Nat × Partial)) (k i : Nat), treeNode d leaves (k + 1) i =
        if leaves.any (fun p => p.1 / 2 ^ (k + 1) == i) then merge (treeNode d leaves k (2 * i)) (treeNode d leaves k (2 * i + 1)) else Partial.none d)
    ∧ (∀ a b : Partial, 2 ^ 31 < a.l → 2 ^ 31 < b.l → 2 ^ 31 < (merge a b).l)
    ∧ (∀ (d : Nat) (leaves : List (Nat × Partial)) (k i : Nat), (∀ p ∈ leaves, p.2.l ≤ 2 ^ 38) → k ≤ 16 → (treeNode d leaves k i).l ≤ 2 ^ 54)
    ∧ (∀ b : Partial, b.empty = false → -32768 ≤ b.m → 0 < b.l → merge (Partial.none b.o.length) b = b ∧ merge b (Partial.none b.o.length) = b)
    ∧ (∃ a b c d : Partial, a.empty = false ∧ b.empty = false ∧ c.empty = false ∧ d.empty = false ∧
        ∃ x y : Int, (merge (merge a b) (merge c d)).o = [x] ∧ (merge (merge (merge a b) c) d).o = [y] ∧ y = x + 1)

/-- An EMPTY partial finalises to +0 in every dimension, any other to bf16(O·2^-32). A bound on the V values of a leaf, and on both sides of a merge, bounds O where L is above zero, so O stays below 2^15 with V; and for a nonzero O below 2^15 the result is neither zero nor the largest magnitude. A leaf of one position with a weight above zero has L = w and O = v; a tree with this one leaf is that leaf at every node over it, and finalises to bf16(v); and bf16 of the Q15.32 value of a conditioned BF16 element is the element. -/
def Obligations.FinalisationIsRule113 : Prop :=
  (∀ p : Partial, p.empty = true → finalise p = p.o.map (fun _ => 0))
    ∧ (∀ p : Partial, p.empty = false → finalise p = p.o.map (fun x => bf16Round ⟨x, 2 ^ 32⟩))
    ∧ (∀ (bound d : Nat) (scored : List ((Int × Bool) × List Int)) (flagged : Bool), (∀ x ∈ scored, x.2.length = d ∧ ∀ v ∈ x.2, v.natAbs ≤ bound) →
        0 < (leafOf d scored flagged).1.l → ∀ o ∈ (leafOf d scored flagged).1.o, o.natAbs ≤ bound)
    ∧ (∀ (bound : Nat) (a b : Partial), (∀ o ∈ a.o, o.natAbs ≤ bound) → (∀ o ∈ b.o, o.natAbs ≤ bound) → 0 < (merge a b).l → ∀ o ∈ (merge a b).o, o.natAbs ≤ bound)
    ∧ (∀ x : Int, x ≠ 0 → x.natAbs < 2 ^ 47 → bf16Round ⟨x, 2 ^ 32⟩ % 2 ^ 15 ≠ 0 ∧ bf16Round ⟨x, 2 ^ 32⟩ % 2 ^ 15 < 0x7F7F)
    ∧ (∀ (d : Nat) (x : Int) (clamped flagged : Bool) (v : List Int), v.length = d →
        let p := (leafOf d [((x, clamped), v)] flagged).1
        p.l = exp2w ((x + 65535) / 65536 * 65536 - x).toNat ∧
        (0 < p.l → p.o = v ∧ (-32768 ≤ p.m → ∀ t k : Nat, treeNode d [(t, p)] k (t / 2 ^ k) = p ∧
          finalise (treeNode d [(t, p)] k (t / 2 ^ k)) = v.map (fun y => bf16Round ⟨y, 2 ^ 32⟩))))
    ∧ (∀ b : Nat, b < 2 ^ 16 → (condition b).1 = b → bf16Round ⟨bf16Q32 b, 2 ^ 32⟩ = b)

/-- For a page walker's tables in memory, at addresses where no sealed pair lies: of a sequence record at bucket b and slot i below the table's size, no other at its place, byte k of 64 stands at PGW_SEQ_BASE + 256·b + 64·i + k, and in the mirror copy, where the two tables do not overlap, at PGW_MIRROR_BASE plus the same; a slot with no record reads zero. The record's bytes are Table 5.8's: sequence_id, tenant, class, flags, shape, the pointer to the layer table, home_node and lost_spans, then zeros. The stride of a shape of 1 to 16 KV heads is the smallest power of two not below 64·(1 + H), and the bytes of a layer table between one descriptor's end and the next are zero. A page-table entry of at most four locations, with rebuilt at most 256, is Table 5.9's 64 bytes: state, kind, moving, lost and rebuilt, the location words of a page in tier 0, the tier-1 copy's pointer or none, and the eight check words. -/
def Obligations.TablesStandInMemoryAsLaidOut : Prop :=
  (∀ (s : State) (serial k : Nat), k < 64 →
     let n := 256 * 2 ^ s.fld Reg.pgwSeqCfg 4 0
     let at_ (base b i : Nat) : Nat := s.live64 base + (256 * b + 64 * i + k)
     let apart : Prop := s.live64 Reg.pgwSeqBase + n ≤ s.live64 Reg.pgwMirrorBase ∨ s.live64 Reg.pgwMirrorBase + n ≤ s.live64 Reg.pgwSeqBase
     (∀ r ∈ s.pgw.seqs, r.tenant < 4096 → 256 * r.bucket < n → r.slot < 4 →
        (∀ q ∈ s.pgw.seqs, q.tenant < 4096 → q.bucket = r.bucket → q.slot = r.slot → q = r) →
        (s.extentAt (at_ Reg.pgwSeqBase r.bucket r.slot) = none → s.readFlat serial (at_ Reg.pgwSeqBase r.bucket r.slot) = (s.seqBytes r false).getD k 0)
        ∧ (apart → s.extentAt (at_ Reg.pgwMirrorBase r.bucket r.slot) = none →
            s.readFlat serial (at_ Reg.pgwMirrorBase r.bucket r.slot) = (s.seqBytes r true).getD k 0))
     ∧ (∀ b i, 256 * b < n → i < 4 → (∀ q ∈ s.pgw.seqs, q.bucket = b → q.slot = i → 4096 ≤ q.tenant) → s.extentAt (at_ Reg.pgwSeqBase b i) = none →
        s.readFlat serial (at_ Reg.pgwSeqBase b i) = 0))
  ∧ (∀ (s : State) (r : SeqRec) (mirror : Bool),
     let x := s.seqBytes r mirror
     x.length = 64 ∧ field x 0 8 = r.sid % 2 ^ 64 ∧ field x 8 2 = r.tenant % 2 ^ 16 ∧ field x 10 1 = r.cls % 256 ∧
     field x 11 1 = 1 + 2 * b2n r.home + 4 * b2n r.shadowed + 8 * b2n r.gather ∧ field x 12 4 = r.shape % 2 ^ 32 ∧
     field x 16 4 = s.ptr (.layers r.tenant r.sid) mirror % 2 ^ 32 ∧ field x 20 2 = r.homeNode % 2 ^ 16 ∧ field x 22 2 = s.lostSpans r % 2 ^ 16 ∧
     ∀ i, 24 ≤ i → x.getD i 0 = 0)
  ∧ (∀ (s : State) (r : SeqRec) (mirror : Bool) (off : Nat), 1 ≤ r.sh.heads → r.sh.heads ≤ 16 →
     (∃ e, r.sh.stride = 2 ^ e) ∧ 64 * (1 + r.sh.heads) ≤ r.sh.stride ∧ (∀ e, 64 * (1 + r.sh.heads) ≤ 2 ^ e → r.sh.stride ≤ 2 ^ e) ∧
     (64 * (1 + r.sh.heads) ≤ off % r.sh.stride → s.layerTableByte r mirror off = 0))
  ∧ (∀ (s : State) (sh : Shape) (l h : Nat) (p : Pte) (mirror : Bool), p.locs.length ≤ 4 → p.rebuilt ≤ 256 → p.state ≠ .tombstone →
     let x := s.pteBytes sh l h p mirror
     let ctl := field x 0 4
     x.length = 64 ∧ bitsOf ctl 2 0 = p.state.code ∧ bitsOf ctl 5 3 = p.kind.code ∧ bitOf ctl 6 = p.moving ∧ bitOf ctl 7 = p.lost ∧ bitsOf ctl 16 8 = p.rebuilt ∧
     bitsOf ctl 31 17 = 0 ∧ (p.kind = .tier0 → ∀ j, j < p.locs.length → field x (8 + 4 * j) 4 = p.locs.getD j 0 % 2 ^ 32) ∧
     field x 24 4 = (p.shadow.map Prod.fst).getD 0xFFFFFFFF % 2 ^ 32 ∧
     ∀ j, j < 4 → field x (32 + 4 * j) 4 = p.checkK.getD j 0 % 2 ^ 32 ∧ field x (48 + 4 * j) 4 = p.checkV.getD j 0 % 2 ^ 32)

/-- In a running node. On the Wecia Link UP, whatever waits to be sent: an IDLE packet or a NAK in order is accepted, with the credits it returns; a NAK sends every kept packet again that it does not acknowledge, and the resend timeout every one kept, with fewer than 8 resends before; a bad packet that opens a gap sends one NAK; all with no more codewords in the minute than fec_limit. Where class c owns a minute whose calendar has not stopped, CALENDAR_RELEASE releases a request of any opcode that fits: it is held no longer, the budget falls by its cost, and it is dispatched in the same step; in a SHARED minute SHARED_RELEASE does so for the first request of the minute. ELECTION_TIMEOUT begins a keeper's wait; ELECTION_BACKOFF ends it with a term voted for itself; VOTE_REQ is answered with VOTE, granted or not; a VOTE granted to the election under way is counted or elects; a PROPOSE of one valid change is held for the next PREPARE; ACCEPT of the prepared generation below a majority is counted; PROPOSAL_TIMEOUT at the leader refuses the one proposal it holds with TIMEOUT. PRIVATE_TEST_INSTRUCTION stops in a powered hub with a debug token in force, because R364 opens the private instructions and does not say what they do; without one it does nothing. -/
def Obligations.TimersVotesAndReleasesComplete : Prop :=
  ∀ s : State, s.running = true →
    (∀ hdr : HostHdr, s.hst.state = LState.up →
      let freed := (s.hst.takeAck hdr.ack s.now).takeCredits hdr
      let within (k : Nat) : Prop := s.hst.fecMinute + k ≤ s.fld Reg.lnkRetryCfg 23 16
      (hdr.lseq = s.hst.rxSeq → within hdr.fecBad → Completes (.hostIdlePacket hdr) s (partsOf (.hostIdlePacket hdr)) (fun t =>
        t.hst.rxSeq = s.hst.rxSeq ∧ t.hst.postedIn = freed.postedIn ∧ t.hst.npIn = freed.npIn ∧ ∀ p ∈ freed.kept, p ∈ t.hst.kept))
      ∧ (hdr.lseq = s.hst.rxSeq → within hdr.fecBad → freed.kept ≠ [] → freed.resends < 8 → Completes (.hostNak hdr) s (partsOf (.hostNak hdr)) (fun t =>
        t.hst.resends = freed.resends + 1 ∧ t.hst.postedIn = freed.postedIn ∧ t.hst.npIn = freed.npIn ∧
        ∀ p ∈ freed.kept, p ∈ t.hst.kept ∧ ∃ b, .host p b ∈ t.outbox))
      ∧ (s.hst.kept ≠ [] → s.hst.resends < 8 → Completes .hostResendTimeout s [.now, .run, .hst, .outbox] (fun t =>
        s.hst.ackTick + 4096 ≤ t.now ∧ t.hst.resends = s.hst.resends + 1 ∧ ∀ p ∈ s.hst.kept, ∃ b, .host p b ∈ t.outbox))
      ∧ (∀ k : Nat, ∀ why ∈ [HostBad.crc k, .outOfOrder k], within k → s.hst.gap = false → Completes (.hostBadPacket why) s [.hst, .outbox] (fun t =>
        t.hst = { s.hst with gap := true, fecMinute := s.hst.fecMinute + k } ∧ ∃ p b, Sends s t [.host p b] ∧ p.type = 0x0A)))
    ∧ (∀ (cls b : Nat) (r : Req), s.dispatching = true → s.mode ≠ 3 →
      let out (t : State) : Prop := t.sch.held = s.sch.held.filter (fun x => x.rid != r.rid)
      (let k := s.calNow cls
       s.owner = cls → cls < 24 → k.stopped = false → s.headAfter cls k.last = some (b, r) →
       (r.cost ≤ k.budget ∨ s.fld (Reg.schClassCfg + 4 * cls) 19 0 ≤ k.budget) →
       Completes (.calendarRelease cls) s (partsOf (.calendarRelease cls)) (fun t => out t ∧
        tabGet t.sch.cals cls = some { k with budget := k.budget - r.cost, last := b } ∧
        t = (s.putCal cls { k with budget := k.budget - r.cost, last := b }).release r))
      ∧ (s.owner = Owner.shared → s.fld Reg.schCfg 19 0 ≠ 0 → s.sch.sharedMinute ≠ s.minutes →
        ((List.range 24).map (fun i => (s.sch.sharedLast + 1 + i) % 24)).find? (fun c => !s.isolated c && !(s.ready c).isEmpty) = some cls →
        s.headAfter cls (s.cal cls).last = some (b, r) → Completes .sharedRelease s (partsOf .sharedRelease) (fun t => out t ∧
          t.sch.sharedBudget = s.fld Reg.schCfg 19 0 - r.cost ∧ t.sch.sharedLast = cls ∧ t.sch.sharedMinute = s.minutes ∧
          tabGet t.sch.cals cls = some { s.cal cls with last := b })))
    ∧ (s.isKeeper = true → s.map.leader ≠ s.map.id → s.map.election = none → Completes .electionTimeout s [.now, .map] (fun t =>
      s.map.lastBeat + 131072 ≤ t.now ∧ t.map = { s.map with election := some (t.now + 16384 * s.keeperRank) }))
    ∧ (∀ w : Nat, s.map.election = some w → Completes .electionBackoff s [.now, .map, .outbox] (fun t =>
      w ≤ t.now ∧ t.map = { s.map with election := none, voted := max s.map.term s.map.voted + 1, votes := [s.map.id] } ∧
      t.outbox.length = s.outbox.length + (s.keepers.filter (· != s.map.id)).length))
    ∧ (∀ h : CtlHdr, s.ctlOk h = true → s.NotBehind h.gen →
      (∀ last : Nat, s.isKeeper = true → Completes (.voteReq h last) s [.map, .outbox] (fun t =>
        ∃ granted, Sends s t [s.ctlMsg h.sender 13 [h.bodyTerm, b2n granted]] ∧ t.map.voted = (if granted = true then h.bodyTerm else s.map.voted)))
      ∧ (s.isKeeper = true → s.map.votes ≠ [] → h.bodyTerm = s.map.voted → Completes (.vote h true) s (partsOf (.vote h true)) (fun t =>
        t.map.votes = setInsert s.map.votes h.sender ∨ (t.map.leader = s.map.id ∧ t.map.term = s.map.voted)))
      ∧ (∀ (m : MapData) (c : Change), s.isLeader = true → s.tip = some m → c.action ≠ Action.mode → s.proposalCode { m with moves := [] } { c with proposer := h.sender } = 0 →
        Completes (.propose h [c]) s [.map] (fun t => t.map = { s.map with proposals := s.map.proposals ++ [({ c with proposer := h.sender }, s.prepareFrame)] }))
      ∧ (∀ p : Prepared, s.isLeader = true → h.sender ∈ s.keepers → s.map.prepared = some p → h.bodyGen = p.gen →
        s.majority (setInsert p.accepts h.sender).length = false → Completes (.accept h p.map.digest) s [.map] (fun t =>
          t.map = { s.map with prepared := some { p with accepts := setInsert p.accepts h.sender } })))
    ∧ (∀ x, s.isLeader = true → s.map.proposals = [x] → x.1.proposer ≠ s.map.id → s.map.own = none → s.map.ownMode = none → s.map.prepared = none →
      Completes .proposalTimeout s [.now, .map, .outbox] (fun t => proposalLimit x ≤ t.now ∧ t.map.proposals = [] ∧
        Sends s t [s.ctlMsg x.1.proposer 14 [x.1.serial, propTimeout]]))
    ∧ (∀ code : Nat, (s.powered = true → s.bit Reg.secStatus 4 = true → exec (.privateTestInstruction code) s = .refused .debugUnit)
      ∧ (s.bit Reg.secStatus 4 = false → exec (.privateTestInstruction code) s = .next s))
end

