-- ==== Sys2Proof/Laws/State.lean ====
section
/-!
SUPPORT. What each elementary update of the state gives for each field: one lemma per field, true by rfl.
-/

namespace Sys2Proof.Machine

open Sys2Proof

@[simp] theorem State.advanceTo_now (s : State) (t : Nat) : (s.advanceTo t).now = max s.now t := rfl
@[simp] theorem State.advanceTo_regs (s : State) (t : Nat) : (s.advanceTo t).regs = s.regs := rfl
@[simp] theorem State.advanceTo_time (s : State) (t : Nat) : (s.advanceTo t).time = s.time := rfl
@[simp] theorem State.advanceTo_pgw (s : State) (t : Nat) : (s.advanceTo t).pgw = s.pgw := rfl
@[simp] theorem State.advanceTo_sch (s : State) (t : Nat) : (s.advanceTo t).sch = s.sch := rfl
@[simp] theorem State.advanceTo_que (s : State) (t : Nat) : (s.advanceTo t).que = s.que := rfl
@[simp] theorem State.advanceTo_vsp (s : State) (t : Nat) : (s.advanceTo t).vsp = s.vsp := rfl
@[simp] theorem State.advanceTo_mem (s : State) (t : Nat) : (s.advanceTo t).mem = s.mem := rfl
@[simp] theorem State.advanceTo_prog (s : State) (t : Nat) : (s.advanceTo t).prog = s.prog := rfl
@[simp] theorem State.advanceTo_mat (s : State) (t : Nat) : (s.advanceTo t).mat = s.mat := rfl
@[simp] theorem State.advanceTo_lnk (s : State) (t : Nat) : (s.advanceTo t).lnk = s.lnk := rfl
@[simp] theorem State.advanceTo_map (s : State) (t : Nat) : (s.advanceTo t).map = s.map := rfl
@[simp] theorem State.advanceTo_hlt (s : State) (t : Nat) : (s.advanceTo t).hlt = s.hlt := rfl
@[simp] theorem State.advanceTo_sec (s : State) (t : Nat) : (s.advanceTo t).sec = s.sec := rfl
@[simp] theorem State.advanceTo_hst (s : State) (t : Nat) : (s.advanceTo t).hst = s.hst := rfl
@[simp] theorem State.advanceTo_sys (s : State) (t : Nat) : (s.advanceTo t).sys = s.sys := rfl
@[simp] theorem State.advanceTo_outbox (s : State) (t : Nat) : (s.advanceTo t).outbox = s.outbox := rfl
@[simp] theorem State.advanceTo_freeCtr (s : State) (t : Nat) : (s.advanceTo t).freeCtr = s.freeCtr := rfl
@[simp] theorem State.advanceTo_pending (s : State) (t : Nat) : (s.advanceTo t).pending = s.pending := rfl

@[simp] theorem State.setLive_now (s : State) (a v : Nat) : (s.setLive a v).now = s.now := rfl
@[simp] theorem State.setLive_regs (s : State) (a v : Nat) : (s.setLive a v).regs = { s.regs with live := regSet s.regs.live a v } := rfl
@[simp] theorem State.setLive_time (s : State) (a v : Nat) : (s.setLive a v).time = s.time := rfl
@[simp] theorem State.setLive_pgw (s : State) (a v : Nat) : (s.setLive a v).pgw = s.pgw := rfl
@[simp] theorem State.setLive_sch (s : State) (a v : Nat) : (s.setLive a v).sch = s.sch := rfl
@[simp] theorem State.setLive_que (s : State) (a v : Nat) : (s.setLive a v).que = s.que := rfl
@[simp] theorem State.setLive_vsp (s : State) (a v : Nat) : (s.setLive a v).vsp = s.vsp := rfl
@[simp] theorem State.setLive_mem (s : State) (a v : Nat) : (s.setLive a v).mem = s.mem := rfl
@[simp] theorem State.setLive_prog (s : State) (a v : Nat) : (s.setLive a v).prog = s.prog := rfl
@[simp] theorem State.setLive_mat (s : State) (a v : Nat) : (s.setLive a v).mat = s.mat := rfl
@[simp] theorem State.setLive_lnk (s : State) (a v : Nat) : (s.setLive a v).lnk = s.lnk := rfl
@[simp] theorem State.setLive_map (s : State) (a v : Nat) : (s.setLive a v).map = s.map := rfl
@[simp] theorem State.setLive_hlt (s : State) (a v : Nat) : (s.setLive a v).hlt = s.hlt := rfl
@[simp] theorem State.setLive_sec (s : State) (a v : Nat) : (s.setLive a v).sec = s.sec := rfl
@[simp] theorem State.setLive_hst (s : State) (a v : Nat) : (s.setLive a v).hst = s.hst := rfl
@[simp] theorem State.setLive_sys (s : State) (a v : Nat) : (s.setLive a v).sys = s.sys := rfl
@[simp] theorem State.setLive_outbox (s : State) (a v : Nat) : (s.setLive a v).outbox = s.outbox := rfl
@[simp] theorem State.setLive_freeCtr (s : State) (a v : Nat) : (s.setLive a v).freeCtr = s.freeCtr := rfl
@[simp] theorem State.setLive_pending (s : State) (a v : Nat) : (s.setLive a v).pending = s.pending := rfl

@[simp] theorem State.setStaged_now (s : State) (a v : Nat) : (s.setStaged a v).now = s.now := rfl
@[simp] theorem State.setStaged_regs (s : State) (a v : Nat) : (s.setStaged a v).regs = { s.regs with staged := regSet s.regs.staged a v } := rfl
@[simp] theorem State.setStaged_time (s : State) (a v : Nat) : (s.setStaged a v).time = s.time := rfl
@[simp] theorem State.setStaged_pgw (s : State) (a v : Nat) : (s.setStaged a v).pgw = s.pgw := rfl
@[simp] theorem State.setStaged_sch (s : State) (a v : Nat) : (s.setStaged a v).sch = s.sch := rfl
@[simp] theorem State.setStaged_que (s : State) (a v : Nat) : (s.setStaged a v).que = s.que := rfl
@[simp] theorem State.setStaged_vsp (s : State) (a v : Nat) : (s.setStaged a v).vsp = s.vsp := rfl
@[simp] theorem State.setStaged_mem (s : State) (a v : Nat) : (s.setStaged a v).mem = s.mem := rfl
@[simp] theorem State.setStaged_prog (s : State) (a v : Nat) : (s.setStaged a v).prog = s.prog := rfl
@[simp] theorem State.setStaged_mat (s : State) (a v : Nat) : (s.setStaged a v).mat = s.mat := rfl
@[simp] theorem State.setStaged_lnk (s : State) (a v : Nat) : (s.setStaged a v).lnk = s.lnk := rfl
@[simp] theorem State.setStaged_map (s : State) (a v : Nat) : (s.setStaged a v).map = s.map := rfl
@[simp] theorem State.setStaged_hlt (s : State) (a v : Nat) : (s.setStaged a v).hlt = s.hlt := rfl
@[simp] theorem State.setStaged_sec (s : State) (a v : Nat) : (s.setStaged a v).sec = s.sec := rfl
@[simp] theorem State.setStaged_hst (s : State) (a v : Nat) : (s.setStaged a v).hst = s.hst := rfl
@[simp] theorem State.setStaged_sys (s : State) (a v : Nat) : (s.setStaged a v).sys = s.sys := rfl
@[simp] theorem State.setStaged_outbox (s : State) (a v : Nat) : (s.setStaged a v).outbox = s.outbox := rfl
@[simp] theorem State.setStaged_freeCtr (s : State) (a v : Nat) : (s.setStaged a v).freeCtr = s.freeCtr := rfl
@[simp] theorem State.setStaged_pending (s : State) (a v : Nat) : (s.setStaged a v).pending = s.pending := rfl

@[simp] theorem State.bump_now (s : State) (a n : Nat) : (s.bump a n).now = s.now := rfl
@[simp] theorem State.bump_regs (s : State) (a n : Nat) : (s.bump a n).regs = { s.regs with run := spSet 0 s.regs.run a (sat32 (spGet 0 s.regs.run a + n)) } := rfl
@[simp] theorem State.bump_time (s : State) (a n : Nat) : (s.bump a n).time = s.time := rfl
@[simp] theorem State.bump_pgw (s : State) (a n : Nat) : (s.bump a n).pgw = s.pgw := rfl
@[simp] theorem State.bump_sch (s : State) (a n : Nat) : (s.bump a n).sch = s.sch := rfl
@[simp] theorem State.bump_que (s : State) (a n : Nat) : (s.bump a n).que = s.que := rfl
@[simp] theorem State.bump_vsp (s : State) (a n : Nat) : (s.bump a n).vsp = s.vsp := rfl
@[simp] theorem State.bump_mem (s : State) (a n : Nat) : (s.bump a n).mem = s.mem := rfl
@[simp] theorem State.bump_prog (s : State) (a n : Nat) : (s.bump a n).prog = s.prog := rfl
@[simp] theorem State.bump_mat (s : State) (a n : Nat) : (s.bump a n).mat = s.mat := rfl
@[simp] theorem State.bump_lnk (s : State) (a n : Nat) : (s.bump a n).lnk = s.lnk := rfl
@[simp] theorem State.bump_map (s : State) (a n : Nat) : (s.bump a n).map = s.map := rfl
@[simp] theorem State.bump_hlt (s : State) (a n : Nat) : (s.bump a n).hlt = s.hlt := rfl
@[simp] theorem State.bump_sec (s : State) (a n : Nat) : (s.bump a n).sec = s.sec := rfl
@[simp] theorem State.bump_hst (s : State) (a n : Nat) : (s.bump a n).hst = s.hst := rfl
@[simp] theorem State.bump_sys (s : State) (a n : Nat) : (s.bump a n).sys = s.sys := rfl
@[simp] theorem State.bump_outbox (s : State) (a n : Nat) : (s.bump a n).outbox = s.outbox := rfl
@[simp] theorem State.bump_freeCtr (s : State) (a n : Nat) : (s.bump a n).freeCtr = s.freeCtr := rfl
@[simp] theorem State.bump_pending (s : State) (a n : Nat) : (s.bump a n).pending = s.pending := rfl

@[simp] theorem State.bumpMax_now (s : State) (a n : Nat) : (s.bumpMax a n).now = s.now := rfl
@[simp] theorem State.bumpMax_regs (s : State) (a n : Nat) : (s.bumpMax a n).regs = { s.regs with run := spSet 0 s.regs.run a (sat32 (max (spGet 0 s.regs.run a) n)) } := rfl
@[simp] theorem State.bumpMax_time (s : State) (a n : Nat) : (s.bumpMax a n).time = s.time := rfl
@[simp] theorem State.bumpMax_pgw (s : State) (a n : Nat) : (s.bumpMax a n).pgw = s.pgw := rfl
@[simp] theorem State.bumpMax_sch (s : State) (a n : Nat) : (s.bumpMax a n).sch = s.sch := rfl
@[simp] theorem State.bumpMax_que (s : State) (a n : Nat) : (s.bumpMax a n).que = s.que := rfl
@[simp] theorem State.bumpMax_vsp (s : State) (a n : Nat) : (s.bumpMax a n).vsp = s.vsp := rfl
@[simp] theorem State.bumpMax_mem (s : State) (a n : Nat) : (s.bumpMax a n).mem = s.mem := rfl
@[simp] theorem State.bumpMax_prog (s : State) (a n : Nat) : (s.bumpMax a n).prog = s.prog := rfl
@[simp] theorem State.bumpMax_mat (s : State) (a n : Nat) : (s.bumpMax a n).mat = s.mat := rfl
@[simp] theorem State.bumpMax_lnk (s : State) (a n : Nat) : (s.bumpMax a n).lnk = s.lnk := rfl
@[simp] theorem State.bumpMax_map (s : State) (a n : Nat) : (s.bumpMax a n).map = s.map := rfl
@[simp] theorem State.bumpMax_hlt (s : State) (a n : Nat) : (s.bumpMax a n).hlt = s.hlt := rfl
@[simp] theorem State.bumpMax_sec (s : State) (a n : Nat) : (s.bumpMax a n).sec = s.sec := rfl
@[simp] theorem State.bumpMax_hst (s : State) (a n : Nat) : (s.bumpMax a n).hst = s.hst := rfl
@[simp] theorem State.bumpMax_sys (s : State) (a n : Nat) : (s.bumpMax a n).sys = s.sys := rfl
@[simp] theorem State.bumpMax_outbox (s : State) (a n : Nat) : (s.bumpMax a n).outbox = s.outbox := rfl
@[simp] theorem State.bumpMax_freeCtr (s : State) (a n : Nat) : (s.bumpMax a n).freeCtr = s.freeCtr := rfl
@[simp] theorem State.bumpMax_pending (s : State) (a n : Nat) : (s.bumpMax a n).pending = s.pending := rfl

@[simp] theorem State.emit_now (s : State) (m : OutMsg) : (s.emit m).now = s.now := rfl
@[simp] theorem State.emit_regs (s : State) (m : OutMsg) : (s.emit m).regs = s.regs := rfl
@[simp] theorem State.emit_time (s : State) (m : OutMsg) : (s.emit m).time = s.time := rfl
@[simp] theorem State.emit_pgw (s : State) (m : OutMsg) : (s.emit m).pgw = s.pgw := rfl
@[simp] theorem State.emit_sch (s : State) (m : OutMsg) : (s.emit m).sch = s.sch := rfl
@[simp] theorem State.emit_que (s : State) (m : OutMsg) : (s.emit m).que = s.que := rfl
@[simp] theorem State.emit_vsp (s : State) (m : OutMsg) : (s.emit m).vsp = s.vsp := rfl
@[simp] theorem State.emit_mem (s : State) (m : OutMsg) : (s.emit m).mem = s.mem := rfl
@[simp] theorem State.emit_prog (s : State) (m : OutMsg) : (s.emit m).prog = s.prog := rfl
@[simp] theorem State.emit_mat (s : State) (m : OutMsg) : (s.emit m).mat = s.mat := rfl
@[simp] theorem State.emit_lnk (s : State) (m : OutMsg) : (s.emit m).lnk = s.lnk := rfl
@[simp] theorem State.emit_map (s : State) (m : OutMsg) : (s.emit m).map = s.map := rfl
@[simp] theorem State.emit_hlt (s : State) (m : OutMsg) : (s.emit m).hlt = s.hlt := rfl
@[simp] theorem State.emit_sec (s : State) (m : OutMsg) : (s.emit m).sec = s.sec := rfl
@[simp] theorem State.emit_hst (s : State) (m : OutMsg) : (s.emit m).hst = s.hst := rfl
@[simp] theorem State.emit_sys (s : State) (m : OutMsg) : (s.emit m).sys = s.sys := rfl
@[simp] theorem State.emit_outbox (s : State) (m : OutMsg) : (s.emit m).outbox = s.outbox ++ [m] := rfl
@[simp] theorem State.emit_freeCtr (s : State) (m : OutMsg) : (s.emit m).freeCtr = s.freeCtr := rfl
@[simp] theorem State.emit_pending (s : State) (m : OutMsg) : (s.emit m).pending = s.pending := rfl

@[simp] theorem State.fresh_now (s : State) : (s.fresh.2).now = s.now := rfl
@[simp] theorem State.fresh_regs (s : State) : (s.fresh.2).regs = s.regs := rfl
@[simp] theorem State.fresh_time (s : State) : (s.fresh.2).time = s.time := rfl
@[simp] theorem State.fresh_pgw (s : State) : (s.fresh.2).pgw = s.pgw := rfl
@[simp] theorem State.fresh_sch (s : State) : (s.fresh.2).sch = s.sch := rfl
@[simp] theorem State.fresh_que (s : State) : (s.fresh.2).que = s.que := rfl
@[simp] theorem State.fresh_vsp (s : State) : (s.fresh.2).vsp = s.vsp := rfl
@[simp] theorem State.fresh_mem (s : State) : (s.fresh.2).mem = s.mem := rfl
@[simp] theorem State.fresh_prog (s : State) : (s.fresh.2).prog = s.prog := rfl
@[simp] theorem State.fresh_mat (s : State) : (s.fresh.2).mat = s.mat := rfl
@[simp] theorem State.fresh_lnk (s : State) : (s.fresh.2).lnk = s.lnk := rfl
@[simp] theorem State.fresh_map (s : State) : (s.fresh.2).map = s.map := rfl
@[simp] theorem State.fresh_hlt (s : State) : (s.fresh.2).hlt = s.hlt := rfl
@[simp] theorem State.fresh_sec (s : State) : (s.fresh.2).sec = s.sec := rfl
@[simp] theorem State.fresh_hst (s : State) : (s.fresh.2).hst = s.hst := rfl
@[simp] theorem State.fresh_sys (s : State) : (s.fresh.2).sys = s.sys := rfl
@[simp] theorem State.fresh_outbox (s : State) : (s.fresh.2).outbox = s.outbox := rfl
@[simp] theorem State.fresh_freeCtr (s : State) : (s.fresh.2).freeCtr = s.freeCtr + 1 := rfl
@[simp] theorem State.fresh_pending (s : State) : (s.fresh.2).pending = s.pending := rfl

@[simp] theorem State.poke_now (s : State) (a : Nat) (v : Byte) : (s.poke a v).now = s.now := rfl
@[simp] theorem State.poke_regs (s : State) (a : Nat) (v : Byte) : (s.poke a v).regs = s.regs := rfl
@[simp] theorem State.poke_time (s : State) (a : Nat) (v : Byte) : (s.poke a v).time = s.time := rfl
@[simp] theorem State.poke_pgw (s : State) (a : Nat) (v : Byte) : (s.poke a v).pgw = s.pgw := rfl
@[simp] theorem State.poke_sch (s : State) (a : Nat) (v : Byte) : (s.poke a v).sch = s.sch := rfl
@[simp] theorem State.poke_que (s : State) (a : Nat) (v : Byte) : (s.poke a v).que = s.que := rfl
@[simp] theorem State.poke_vsp (s : State) (a : Nat) (v : Byte) : (s.poke a v).vsp = s.vsp := rfl
@[simp] theorem State.poke_mem (s : State) (a : Nat) (v : Byte) : (s.poke a v).mem = { s.mem with flat := spSet (0 : Byte) s.mem.flat a v } := rfl
@[simp] theorem State.poke_prog (s : State) (a : Nat) (v : Byte) : (s.poke a v).prog = s.prog := rfl
@[simp] theorem State.poke_mat (s : State) (a : Nat) (v : Byte) : (s.poke a v).mat = s.mat := rfl
@[simp] theorem State.poke_lnk (s : State) (a : Nat) (v : Byte) : (s.poke a v).lnk = s.lnk := rfl
@[simp] theorem State.poke_map (s : State) (a : Nat) (v : Byte) : (s.poke a v).map = s.map := rfl
@[simp] theorem State.poke_hlt (s : State) (a : Nat) (v : Byte) : (s.poke a v).hlt = s.hlt := rfl
@[simp] theorem State.poke_sec (s : State) (a : Nat) (v : Byte) : (s.poke a v).sec = s.sec := rfl
@[simp] theorem State.poke_hst (s : State) (a : Nat) (v : Byte) : (s.poke a v).hst = s.hst := rfl
@[simp] theorem State.poke_sys (s : State) (a : Nat) (v : Byte) : (s.poke a v).sys = s.sys := rfl
@[simp] theorem State.poke_outbox (s : State) (a : Nat) (v : Byte) : (s.poke a v).outbox = s.outbox := rfl
@[simp] theorem State.poke_freeCtr (s : State) (a : Nat) (v : Byte) : (s.poke a v).freeCtr = s.freeCtr := rfl
@[simp] theorem State.poke_pending (s : State) (a : Nat) (v : Byte) : (s.poke a v).pending = s.pending := rfl

@[simp] theorem State.setUnit_now (s : State) (u : Nat) (v : VUnit) : (s.setUnit u v).now = s.now := rfl
@[simp] theorem State.setUnit_regs (s : State) (u : Nat) (v : VUnit) : (s.setUnit u v).regs = s.regs := rfl
@[simp] theorem State.setUnit_time (s : State) (u : Nat) (v : VUnit) : (s.setUnit u v).time = s.time := rfl
@[simp] theorem State.setUnit_pgw (s : State) (u : Nat) (v : VUnit) : (s.setUnit u v).pgw = s.pgw := rfl
@[simp] theorem State.setUnit_sch (s : State) (u : Nat) (v : VUnit) : (s.setUnit u v).sch = s.sch := rfl
@[simp] theorem State.setUnit_que (s : State) (u : Nat) (v : VUnit) : (s.setUnit u v).que = s.que := rfl
@[simp] theorem State.setUnit_vsp (s : State) (u : Nat) (v : VUnit) : (s.setUnit u v).vsp = { s.vsp with units := spSet VUnit.idle s.vsp.units u v.deliver } := rfl
@[simp] theorem State.setUnit_mem (s : State) (u : Nat) (v : VUnit) : (s.setUnit u v).mem = s.mem := rfl
@[simp] theorem State.setUnit_prog (s : State) (u : Nat) (v : VUnit) : (s.setUnit u v).prog = s.prog := rfl
@[simp] theorem State.setUnit_mat (s : State) (u : Nat) (v : VUnit) : (s.setUnit u v).mat = s.mat := rfl
@[simp] theorem State.setUnit_lnk (s : State) (u : Nat) (v : VUnit) : (s.setUnit u v).lnk = s.lnk := rfl
@[simp] theorem State.setUnit_map (s : State) (u : Nat) (v : VUnit) : (s.setUnit u v).map = s.map := rfl
@[simp] theorem State.setUnit_hlt (s : State) (u : Nat) (v : VUnit) : (s.setUnit u v).hlt = s.hlt := rfl
@[simp] theorem State.setUnit_sec (s : State) (u : Nat) (v : VUnit) : (s.setUnit u v).sec = s.sec := rfl
@[simp] theorem State.setUnit_hst (s : State) (u : Nat) (v : VUnit) : (s.setUnit u v).hst = s.hst := rfl
@[simp] theorem State.setUnit_sys (s : State) (u : Nat) (v : VUnit) : (s.setUnit u v).sys = s.sys := rfl
@[simp] theorem State.setUnit_outbox (s : State) (u : Nat) (v : VUnit) : (s.setUnit u v).outbox = s.outbox := rfl
@[simp] theorem State.setUnit_freeCtr (s : State) (u : Nat) (v : VUnit) : (s.setUnit u v).freeCtr = s.freeCtr := rfl
@[simp] theorem State.setUnit_pending (s : State) (u : Nat) (v : VUnit) : (s.setUnit u v).pending = s.pending := rfl

@[simp] theorem State.setLink_now (s : State) (n : Nat) (l : Link) : (s.setLink n l).now = s.now := rfl
@[simp] theorem State.setLink_regs (s : State) (n : Nat) (l : Link) : (s.setLink n l).regs = s.regs := rfl
@[simp] theorem State.setLink_time (s : State) (n : Nat) (l : Link) : (s.setLink n l).time = s.time := rfl
@[simp] theorem State.setLink_pgw (s : State) (n : Nat) (l : Link) : (s.setLink n l).pgw = s.pgw := rfl
@[simp] theorem State.setLink_sch (s : State) (n : Nat) (l : Link) : (s.setLink n l).sch = s.sch := rfl
@[simp] theorem State.setLink_que (s : State) (n : Nat) (l : Link) : (s.setLink n l).que = s.que := rfl
@[simp] theorem State.setLink_vsp (s : State) (n : Nat) (l : Link) : (s.setLink n l).vsp = s.vsp := rfl
@[simp] theorem State.setLink_mem (s : State) (n : Nat) (l : Link) : (s.setLink n l).mem = s.mem := rfl
@[simp] theorem State.setLink_prog (s : State) (n : Nat) (l : Link) : (s.setLink n l).prog = s.prog := rfl
@[simp] theorem State.setLink_mat (s : State) (n : Nat) (l : Link) : (s.setLink n l).mat = s.mat := rfl
@[simp] theorem State.setLink_lnk (s : State) (n : Nat) (l : Link) : (s.setLink n l).lnk = { s.lnk with links := spSet Link.down s.lnk.links n l } := rfl
@[simp] theorem State.setLink_map (s : State) (n : Nat) (l : Link) : (s.setLink n l).map = s.map := rfl
@[simp] theorem State.setLink_hlt (s : State) (n : Nat) (l : Link) : (s.setLink n l).hlt = s.hlt := rfl
@[simp] theorem State.setLink_sec (s : State) (n : Nat) (l : Link) : (s.setLink n l).sec = s.sec := rfl
@[simp] theorem State.setLink_hst (s : State) (n : Nat) (l : Link) : (s.setLink n l).hst = s.hst := rfl
@[simp] theorem State.setLink_sys (s : State) (n : Nat) (l : Link) : (s.setLink n l).sys = s.sys := rfl
@[simp] theorem State.setLink_outbox (s : State) (n : Nat) (l : Link) : (s.setLink n l).outbox = s.outbox := rfl
@[simp] theorem State.setLink_freeCtr (s : State) (n : Nat) (l : Link) : (s.setLink n l).freeCtr = s.freeCtr := rfl
@[simp] theorem State.setLink_pending (s : State) (n : Nat) (l : Link) : (s.setLink n l).pending = s.pending := rfl

@[simp] theorem State.setScore_now (s : State) (p : Nat) (v : Score) : (s.setScore p v).now = s.now := rfl
@[simp] theorem State.setScore_regs (s : State) (p : Nat) (v : Score) : (s.setScore p v).regs = s.regs := rfl
@[simp] theorem State.setScore_time (s : State) (p : Nat) (v : Score) : (s.setScore p v).time = s.time := rfl
@[simp] theorem State.setScore_pgw (s : State) (p : Nat) (v : Score) : (s.setScore p v).pgw = s.pgw := rfl
@[simp] theorem State.setScore_sch (s : State) (p : Nat) (v : Score) : (s.setScore p v).sch = s.sch := rfl
@[simp] theorem State.setScore_que (s : State) (p : Nat) (v : Score) : (s.setScore p v).que = s.que := rfl
@[simp] theorem State.setScore_vsp (s : State) (p : Nat) (v : Score) : (s.setScore p v).vsp = s.vsp := rfl
@[simp] theorem State.setScore_mem (s : State) (p : Nat) (v : Score) : (s.setScore p v).mem = s.mem := rfl
@[simp] theorem State.setScore_prog (s : State) (p : Nat) (v : Score) : (s.setScore p v).prog = s.prog := rfl
@[simp] theorem State.setScore_mat (s : State) (p : Nat) (v : Score) : (s.setScore p v).mat = s.mat := rfl
@[simp] theorem State.setScore_lnk (s : State) (p : Nat) (v : Score) : (s.setScore p v).lnk = s.lnk := rfl
@[simp] theorem State.setScore_map (s : State) (p : Nat) (v : Score) : (s.setScore p v).map = s.map := rfl
@[simp] theorem State.setScore_hlt (s : State) (p : Nat) (v : Score) : (s.setScore p v).hlt = { s.hlt with scores := spSet Score.zero s.hlt.scores p v } := rfl
@[simp] theorem State.setScore_sec (s : State) (p : Nat) (v : Score) : (s.setScore p v).sec = s.sec := rfl
@[simp] theorem State.setScore_hst (s : State) (p : Nat) (v : Score) : (s.setScore p v).hst = s.hst := rfl
@[simp] theorem State.setScore_sys (s : State) (p : Nat) (v : Score) : (s.setScore p v).sys = s.sys := rfl
@[simp] theorem State.setScore_outbox (s : State) (p : Nat) (v : Score) : (s.setScore p v).outbox = s.outbox := rfl
@[simp] theorem State.setScore_freeCtr (s : State) (p : Nat) (v : Score) : (s.setScore p v).freeCtr = s.freeCtr := rfl
@[simp] theorem State.setScore_pending (s : State) (p : Nat) (v : Score) : (s.setScore p v).pending = s.pending := rfl

@[simp] theorem State.putQp_now (s : State) (k : Nat) (q : Qp) : (s.putQp k q).now = s.now := rfl
@[simp] theorem State.putQp_regs (s : State) (k : Nat) (q : Qp) : (s.putQp k q).regs = s.regs := rfl
@[simp] theorem State.putQp_time (s : State) (k : Nat) (q : Qp) : (s.putQp k q).time = s.time := rfl
@[simp] theorem State.putQp_pgw (s : State) (k : Nat) (q : Qp) : (s.putQp k q).pgw = s.pgw := rfl
@[simp] theorem State.putQp_sch (s : State) (k : Nat) (q : Qp) : (s.putQp k q).sch = s.sch := rfl
@[simp] theorem State.putQp_que (s : State) (k : Nat) (q : Qp) : (s.putQp k q).que = { s.que with qps := tabPut s.que.qps k q } := rfl
@[simp] theorem State.putQp_vsp (s : State) (k : Nat) (q : Qp) : (s.putQp k q).vsp = s.vsp := rfl
@[simp] theorem State.putQp_mem (s : State) (k : Nat) (q : Qp) : (s.putQp k q).mem = s.mem := rfl
@[simp] theorem State.putQp_prog (s : State) (k : Nat) (q : Qp) : (s.putQp k q).prog = s.prog := rfl
@[simp] theorem State.putQp_mat (s : State) (k : Nat) (q : Qp) : (s.putQp k q).mat = s.mat := rfl
@[simp] theorem State.putQp_lnk (s : State) (k : Nat) (q : Qp) : (s.putQp k q).lnk = s.lnk := rfl
@[simp] theorem State.putQp_map (s : State) (k : Nat) (q : Qp) : (s.putQp k q).map = s.map := rfl
@[simp] theorem State.putQp_hlt (s : State) (k : Nat) (q : Qp) : (s.putQp k q).hlt = s.hlt := rfl
@[simp] theorem State.putQp_sec (s : State) (k : Nat) (q : Qp) : (s.putQp k q).sec = s.sec := rfl
@[simp] theorem State.putQp_hst (s : State) (k : Nat) (q : Qp) : (s.putQp k q).hst = s.hst := rfl
@[simp] theorem State.putQp_sys (s : State) (k : Nat) (q : Qp) : (s.putQp k q).sys = s.sys := rfl
@[simp] theorem State.putQp_outbox (s : State) (k : Nat) (q : Qp) : (s.putQp k q).outbox = s.outbox := rfl
@[simp] theorem State.putQp_freeCtr (s : State) (k : Nat) (q : Qp) : (s.putQp k q).freeCtr = s.freeCtr := rfl
@[simp] theorem State.putQp_pending (s : State) (k : Nat) (q : Qp) : (s.putQp k q).pending = s.pending := rfl

@[simp] theorem State.mapQp_now (s : State) (k : Nat) (f : Qp → Qp) : (s.mapQp k f).now = s.now := rfl
@[simp] theorem State.mapQp_regs (s : State) (k : Nat) (f : Qp → Qp) : (s.mapQp k f).regs = s.regs := rfl
@[simp] theorem State.mapQp_time (s : State) (k : Nat) (f : Qp → Qp) : (s.mapQp k f).time = s.time := rfl
@[simp] theorem State.mapQp_pgw (s : State) (k : Nat) (f : Qp → Qp) : (s.mapQp k f).pgw = s.pgw := rfl
@[simp] theorem State.mapQp_sch (s : State) (k : Nat) (f : Qp → Qp) : (s.mapQp k f).sch = s.sch := rfl
@[simp] theorem State.mapQp_que (s : State) (k : Nat) (f : Qp → Qp) : (s.mapQp k f).que = { s.que with qps := tabMap s.que.qps k f } := rfl
@[simp] theorem State.mapQp_vsp (s : State) (k : Nat) (f : Qp → Qp) : (s.mapQp k f).vsp = s.vsp := rfl
@[simp] theorem State.mapQp_mem (s : State) (k : Nat) (f : Qp → Qp) : (s.mapQp k f).mem = s.mem := rfl
@[simp] theorem State.mapQp_prog (s : State) (k : Nat) (f : Qp → Qp) : (s.mapQp k f).prog = s.prog := rfl
@[simp] theorem State.mapQp_mat (s : State) (k : Nat) (f : Qp → Qp) : (s.mapQp k f).mat = s.mat := rfl
@[simp] theorem State.mapQp_lnk (s : State) (k : Nat) (f : Qp → Qp) : (s.mapQp k f).lnk = s.lnk := rfl
@[simp] theorem State.mapQp_map (s : State) (k : Nat) (f : Qp → Qp) : (s.mapQp k f).map = s.map := rfl
@[simp] theorem State.mapQp_hlt (s : State) (k : Nat) (f : Qp → Qp) : (s.mapQp k f).hlt = s.hlt := rfl
@[simp] theorem State.mapQp_sec (s : State) (k : Nat) (f : Qp → Qp) : (s.mapQp k f).sec = s.sec := rfl
@[simp] theorem State.mapQp_hst (s : State) (k : Nat) (f : Qp → Qp) : (s.mapQp k f).hst = s.hst := rfl
@[simp] theorem State.mapQp_sys (s : State) (k : Nat) (f : Qp → Qp) : (s.mapQp k f).sys = s.sys := rfl
@[simp] theorem State.mapQp_outbox (s : State) (k : Nat) (f : Qp → Qp) : (s.mapQp k f).outbox = s.outbox := rfl
@[simp] theorem State.mapQp_freeCtr (s : State) (k : Nat) (f : Qp → Qp) : (s.mapQp k f).freeCtr = s.freeCtr := rfl
@[simp] theorem State.mapQp_pending (s : State) (k : Nat) (f : Qp → Qp) : (s.mapQp k f).pending = s.pending := rfl

@[simp] theorem State.putCore_now (s : State) (c : Nat) (x : CoreCtx) : (s.putCore c x).now = s.now := rfl
@[simp] theorem State.putCore_regs (s : State) (c : Nat) (x : CoreCtx) : (s.putCore c x).regs = s.regs := rfl
@[simp] theorem State.putCore_time (s : State) (c : Nat) (x : CoreCtx) : (s.putCore c x).time = s.time := rfl
@[simp] theorem State.putCore_pgw (s : State) (c : Nat) (x : CoreCtx) : (s.putCore c x).pgw = s.pgw := rfl
@[simp] theorem State.putCore_sch (s : State) (c : Nat) (x : CoreCtx) : (s.putCore c x).sch = s.sch := rfl
@[simp] theorem State.putCore_que (s : State) (c : Nat) (x : CoreCtx) : (s.putCore c x).que = s.que := rfl
@[simp] theorem State.putCore_vsp (s : State) (c : Nat) (x : CoreCtx) : (s.putCore c x).vsp = s.vsp := rfl
@[simp] theorem State.putCore_mem (s : State) (c : Nat) (x : CoreCtx) : (s.putCore c x).mem = s.mem := rfl
@[simp] theorem State.putCore_prog (s : State) (c : Nat) (x : CoreCtx) : (s.putCore c x).prog = { s.prog with cores := tabPut s.prog.cores c x } := rfl
@[simp] theorem State.putCore_mat (s : State) (c : Nat) (x : CoreCtx) : (s.putCore c x).mat = s.mat := rfl
@[simp] theorem State.putCore_lnk (s : State) (c : Nat) (x : CoreCtx) : (s.putCore c x).lnk = s.lnk := rfl
@[simp] theorem State.putCore_map (s : State) (c : Nat) (x : CoreCtx) : (s.putCore c x).map = s.map := rfl
@[simp] theorem State.putCore_hlt (s : State) (c : Nat) (x : CoreCtx) : (s.putCore c x).hlt = s.hlt := rfl
@[simp] theorem State.putCore_sec (s : State) (c : Nat) (x : CoreCtx) : (s.putCore c x).sec = s.sec := rfl
@[simp] theorem State.putCore_hst (s : State) (c : Nat) (x : CoreCtx) : (s.putCore c x).hst = s.hst := rfl
@[simp] theorem State.putCore_sys (s : State) (c : Nat) (x : CoreCtx) : (s.putCore c x).sys = s.sys := rfl
@[simp] theorem State.putCore_outbox (s : State) (c : Nat) (x : CoreCtx) : (s.putCore c x).outbox = s.outbox := rfl
@[simp] theorem State.putCore_freeCtr (s : State) (c : Nat) (x : CoreCtx) : (s.putCore c x).freeCtr = s.freeCtr := rfl
@[simp] theorem State.putCore_pending (s : State) (c : Nat) (x : CoreCtx) : (s.putCore c x).pending = s.pending := rfl

@[simp] theorem State.putProg_now (s : State) (g : Nat) (p : ProgRun) : (s.putProg g p).now = s.now := rfl
@[simp] theorem State.putProg_regs (s : State) (g : Nat) (p : ProgRun) : (s.putProg g p).regs = s.regs := rfl
@[simp] theorem State.putProg_time (s : State) (g : Nat) (p : ProgRun) : (s.putProg g p).time = s.time := rfl
@[simp] theorem State.putProg_pgw (s : State) (g : Nat) (p : ProgRun) : (s.putProg g p).pgw = s.pgw := rfl
@[simp] theorem State.putProg_sch (s : State) (g : Nat) (p : ProgRun) : (s.putProg g p).sch = s.sch := rfl
@[simp] theorem State.putProg_que (s : State) (g : Nat) (p : ProgRun) : (s.putProg g p).que = s.que := rfl
@[simp] theorem State.putProg_vsp (s : State) (g : Nat) (p : ProgRun) : (s.putProg g p).vsp = s.vsp := rfl
@[simp] theorem State.putProg_mem (s : State) (g : Nat) (p : ProgRun) : (s.putProg g p).mem = s.mem := rfl
@[simp] theorem State.putProg_prog (s : State) (g : Nat) (p : ProgRun) : (s.putProg g p).prog = { s.prog with current := tabPut s.prog.current g p } := rfl
@[simp] theorem State.putProg_mat (s : State) (g : Nat) (p : ProgRun) : (s.putProg g p).mat = s.mat := rfl
@[simp] theorem State.putProg_lnk (s : State) (g : Nat) (p : ProgRun) : (s.putProg g p).lnk = s.lnk := rfl
@[simp] theorem State.putProg_map (s : State) (g : Nat) (p : ProgRun) : (s.putProg g p).map = s.map := rfl
@[simp] theorem State.putProg_hlt (s : State) (g : Nat) (p : ProgRun) : (s.putProg g p).hlt = s.hlt := rfl
@[simp] theorem State.putProg_sec (s : State) (g : Nat) (p : ProgRun) : (s.putProg g p).sec = s.sec := rfl
@[simp] theorem State.putProg_hst (s : State) (g : Nat) (p : ProgRun) : (s.putProg g p).hst = s.hst := rfl
@[simp] theorem State.putProg_sys (s : State) (g : Nat) (p : ProgRun) : (s.putProg g p).sys = s.sys := rfl
@[simp] theorem State.putProg_outbox (s : State) (g : Nat) (p : ProgRun) : (s.putProg g p).outbox = s.outbox := rfl
@[simp] theorem State.putProg_freeCtr (s : State) (g : Nat) (p : ProgRun) : (s.putProg g p).freeCtr = s.freeCtr := rfl
@[simp] theorem State.putProg_pending (s : State) (g : Nat) (p : ProgRun) : (s.putProg g p).pending = s.pending := rfl

@[simp] theorem State.putPartner_now (s : State) (n : Nat) (p : PartnerTime) : (s.putPartner n p).now = s.now := rfl
@[simp] theorem State.putPartner_regs (s : State) (n : Nat) (p : PartnerTime) : (s.putPartner n p).regs = s.regs := rfl
@[simp] theorem State.putPartner_time (s : State) (n : Nat) (p : PartnerTime) : (s.putPartner n p).time = { s.time with partners := tabPut s.time.partners n p } := rfl
@[simp] theorem State.putPartner_pgw (s : State) (n : Nat) (p : PartnerTime) : (s.putPartner n p).pgw = s.pgw := rfl
@[simp] theorem State.putPartner_sch (s : State) (n : Nat) (p : PartnerTime) : (s.putPartner n p).sch = s.sch := rfl
@[simp] theorem State.putPartner_que (s : State) (n : Nat) (p : PartnerTime) : (s.putPartner n p).que = s.que := rfl
@[simp] theorem State.putPartner_vsp (s : State) (n : Nat) (p : PartnerTime) : (s.putPartner n p).vsp = s.vsp := rfl
@[simp] theorem State.putPartner_mem (s : State) (n : Nat) (p : PartnerTime) : (s.putPartner n p).mem = s.mem := rfl
@[simp] theorem State.putPartner_prog (s : State) (n : Nat) (p : PartnerTime) : (s.putPartner n p).prog = s.prog := rfl
@[simp] theorem State.putPartner_mat (s : State) (n : Nat) (p : PartnerTime) : (s.putPartner n p).mat = s.mat := rfl
@[simp] theorem State.putPartner_lnk (s : State) (n : Nat) (p : PartnerTime) : (s.putPartner n p).lnk = s.lnk := rfl
@[simp] theorem State.putPartner_map (s : State) (n : Nat) (p : PartnerTime) : (s.putPartner n p).map = s.map := rfl
@[simp] theorem State.putPartner_hlt (s : State) (n : Nat) (p : PartnerTime) : (s.putPartner n p).hlt = s.hlt := rfl
@[simp] theorem State.putPartner_sec (s : State) (n : Nat) (p : PartnerTime) : (s.putPartner n p).sec = s.sec := rfl
@[simp] theorem State.putPartner_hst (s : State) (n : Nat) (p : PartnerTime) : (s.putPartner n p).hst = s.hst := rfl
@[simp] theorem State.putPartner_sys (s : State) (n : Nat) (p : PartnerTime) : (s.putPartner n p).sys = s.sys := rfl
@[simp] theorem State.putPartner_outbox (s : State) (n : Nat) (p : PartnerTime) : (s.putPartner n p).outbox = s.outbox := rfl
@[simp] theorem State.putPartner_freeCtr (s : State) (n : Nat) (p : PartnerTime) : (s.putPartner n p).freeCtr = s.freeCtr := rfl
@[simp] theorem State.putPartner_pending (s : State) (n : Nat) (p : PartnerTime) : (s.putPartner n p).pending = s.pending := rfl

@[simp] theorem State.putAgg_now (s : State) (k : Nat) (a : TenantAgg) : (s.putAgg k a).now = s.now := rfl
@[simp] theorem State.putAgg_regs (s : State) (k : Nat) (a : TenantAgg) : (s.putAgg k a).regs = s.regs := rfl
@[simp] theorem State.putAgg_time (s : State) (k : Nat) (a : TenantAgg) : (s.putAgg k a).time = s.time := rfl
@[simp] theorem State.putAgg_pgw (s : State) (k : Nat) (a : TenantAgg) : (s.putAgg k a).pgw = s.pgw := rfl
@[simp] theorem State.putAgg_sch (s : State) (k : Nat) (a : TenantAgg) : (s.putAgg k a).sch = { s.sch with aggs := tabPut s.sch.aggs k a } := rfl
@[simp] theorem State.putAgg_que (s : State) (k : Nat) (a : TenantAgg) : (s.putAgg k a).que = s.que := rfl
@[simp] theorem State.putAgg_vsp (s : State) (k : Nat) (a : TenantAgg) : (s.putAgg k a).vsp = s.vsp := rfl
@[simp] theorem State.putAgg_mem (s : State) (k : Nat) (a : TenantAgg) : (s.putAgg k a).mem = s.mem := rfl
@[simp] theorem State.putAgg_prog (s : State) (k : Nat) (a : TenantAgg) : (s.putAgg k a).prog = s.prog := rfl
@[simp] theorem State.putAgg_mat (s : State) (k : Nat) (a : TenantAgg) : (s.putAgg k a).mat = s.mat := rfl
@[simp] theorem State.putAgg_lnk (s : State) (k : Nat) (a : TenantAgg) : (s.putAgg k a).lnk = s.lnk := rfl
@[simp] theorem State.putAgg_map (s : State) (k : Nat) (a : TenantAgg) : (s.putAgg k a).map = s.map := rfl
@[simp] theorem State.putAgg_hlt (s : State) (k : Nat) (a : TenantAgg) : (s.putAgg k a).hlt = s.hlt := rfl
@[simp] theorem State.putAgg_sec (s : State) (k : Nat) (a : TenantAgg) : (s.putAgg k a).sec = s.sec := rfl
@[simp] theorem State.putAgg_hst (s : State) (k : Nat) (a : TenantAgg) : (s.putAgg k a).hst = s.hst := rfl
@[simp] theorem State.putAgg_sys (s : State) (k : Nat) (a : TenantAgg) : (s.putAgg k a).sys = s.sys := rfl
@[simp] theorem State.putAgg_outbox (s : State) (k : Nat) (a : TenantAgg) : (s.putAgg k a).outbox = s.outbox := rfl
@[simp] theorem State.putAgg_freeCtr (s : State) (k : Nat) (a : TenantAgg) : (s.putAgg k a).freeCtr = s.freeCtr := rfl
@[simp] theorem State.putAgg_pending (s : State) (k : Nat) (a : TenantAgg) : (s.putAgg k a).pending = s.pending := rfl

@[simp] theorem State.putImage_now (s : State) (k : Nat) (i : Image) : (s.putImage k i).now = s.now := rfl
@[simp] theorem State.putImage_regs (s : State) (k : Nat) (i : Image) : (s.putImage k i).regs = s.regs := rfl
@[simp] theorem State.putImage_time (s : State) (k : Nat) (i : Image) : (s.putImage k i).time = s.time := rfl
@[simp] theorem State.putImage_pgw (s : State) (k : Nat) (i : Image) : (s.putImage k i).pgw = s.pgw := rfl
@[simp] theorem State.putImage_sch (s : State) (k : Nat) (i : Image) : (s.putImage k i).sch = s.sch := rfl
@[simp] theorem State.putImage_que (s : State) (k : Nat) (i : Image) : (s.putImage k i).que = s.que := rfl
@[simp] theorem State.putImage_vsp (s : State) (k : Nat) (i : Image) : (s.putImage k i).vsp = s.vsp := rfl
@[simp] theorem State.putImage_mem (s : State) (k : Nat) (i : Image) : (s.putImage k i).mem = s.mem := rfl
@[simp] theorem State.putImage_prog (s : State) (k : Nat) (i : Image) : (s.putImage k i).prog = s.prog := rfl
@[simp] theorem State.putImage_mat (s : State) (k : Nat) (i : Image) : (s.putImage k i).mat = { s.mat with images := tabPut s.mat.images k i } := rfl
@[simp] theorem State.putImage_lnk (s : State) (k : Nat) (i : Image) : (s.putImage k i).lnk = s.lnk := rfl
@[simp] theorem State.putImage_map (s : State) (k : Nat) (i : Image) : (s.putImage k i).map = s.map := rfl
@[simp] theorem State.putImage_hlt (s : State) (k : Nat) (i : Image) : (s.putImage k i).hlt = s.hlt := rfl
@[simp] theorem State.putImage_sec (s : State) (k : Nat) (i : Image) : (s.putImage k i).sec = s.sec := rfl
@[simp] theorem State.putImage_hst (s : State) (k : Nat) (i : Image) : (s.putImage k i).hst = s.hst := rfl
@[simp] theorem State.putImage_sys (s : State) (k : Nat) (i : Image) : (s.putImage k i).sys = s.sys := rfl
@[simp] theorem State.putImage_outbox (s : State) (k : Nat) (i : Image) : (s.putImage k i).outbox = s.outbox := rfl
@[simp] theorem State.putImage_freeCtr (s : State) (k : Nat) (i : Image) : (s.putImage k i).freeCtr = s.freeCtr := rfl
@[simp] theorem State.putImage_pending (s : State) (k : Nat) (i : Image) : (s.putImage k i).pending = s.pending := rfl

@[simp] theorem State.setTap_now (s : State) (i : Nat) : (s.setTap i).now = s.now := rfl
@[simp] theorem State.setTap_regs (s : State) (i : Nat) : (s.setTap i).regs = s.regs := rfl
@[simp] theorem State.setTap_time (s : State) (i : Nat) : (s.setTap i).time = s.time := rfl
@[simp] theorem State.setTap_pgw (s : State) (i : Nat) : (s.setTap i).pgw = s.pgw := rfl
@[simp] theorem State.setTap_sch (s : State) (i : Nat) : (s.setTap i).sch = s.sch := rfl
@[simp] theorem State.setTap_que (s : State) (i : Nat) : (s.setTap i).que = s.que := rfl
@[simp] theorem State.setTap_vsp (s : State) (i : Nat) : (s.setTap i).vsp = s.vsp := rfl
@[simp] theorem State.setTap_mem (s : State) (i : Nat) : (s.setTap i).mem = s.mem := rfl
@[simp] theorem State.setTap_prog (s : State) (i : Nat) : (s.setTap i).prog = s.prog := rfl
@[simp] theorem State.setTap_mat (s : State) (i : Nat) : (s.setTap i).mat = s.mat := rfl
@[simp] theorem State.setTap_lnk (s : State) (i : Nat) : (s.setTap i).lnk = s.lnk := rfl
@[simp] theorem State.setTap_map (s : State) (i : Nat) : (s.setTap i).map = s.map := rfl
@[simp] theorem State.setTap_hlt (s : State) (i : Nat) : (s.setTap i).hlt = s.hlt := rfl
@[simp] theorem State.setTap_sec (s : State) (i : Nat) : (s.setTap i).sec = s.sec := rfl
@[simp] theorem State.setTap_hst (s : State) (i : Nat) : (s.setTap i).hst = s.hst := rfl
@[simp] theorem State.setTap_sys (s : State) (i : Nat) : (s.setTap i).sys = { s.sys with tap := i } := rfl
@[simp] theorem State.setTap_outbox (s : State) (i : Nat) : (s.setTap i).outbox = s.outbox := rfl
@[simp] theorem State.setTap_freeCtr (s : State) (i : Nat) : (s.setTap i).freeCtr = s.freeCtr := rfl
@[simp] theorem State.setTap_pending (s : State) (i : Nat) : (s.setTap i).pending = s.pending := rfl

@[simp] theorem State.putStatus_now (s : State) (a v : Nat) : (s.putStatus a v).now = s.now := by unfold State.putStatus; dsimp only; split <;> rfl
@[simp] theorem State.putStatus_time (s : State) (a v : Nat) : (s.putStatus a v).time = s.time := by unfold State.putStatus; dsimp only; split <;> rfl
@[simp] theorem State.putStatus_pgw (s : State) (a v : Nat) : (s.putStatus a v).pgw = s.pgw := by unfold State.putStatus; dsimp only; split <;> rfl
@[simp] theorem State.putStatus_sch (s : State) (a v : Nat) : (s.putStatus a v).sch = s.sch := by unfold State.putStatus; dsimp only; split <;> rfl
@[simp] theorem State.putStatus_que (s : State) (a v : Nat) : (s.putStatus a v).que = s.que := by unfold State.putStatus; dsimp only; split <;> rfl
@[simp] theorem State.putStatus_vsp (s : State) (a v : Nat) : (s.putStatus a v).vsp = s.vsp := by unfold State.putStatus; dsimp only; split <;> rfl
@[simp] theorem State.putStatus_mem (s : State) (a v : Nat) : (s.putStatus a v).mem = s.mem := by unfold State.putStatus; dsimp only; split <;> rfl
@[simp] theorem State.putStatus_prog (s : State) (a v : Nat) : (s.putStatus a v).prog = s.prog := by unfold State.putStatus; dsimp only; split <;> rfl
@[simp] theorem State.putStatus_mat (s : State) (a v : Nat) : (s.putStatus a v).mat = s.mat := by unfold State.putStatus; dsimp only; split <;> rfl
@[simp] theorem State.putStatus_lnk (s : State) (a v : Nat) : (s.putStatus a v).lnk = s.lnk := by unfold State.putStatus; dsimp only; split <;> rfl
@[simp] theorem State.putStatus_map (s : State) (a v : Nat) : (s.putStatus a v).map = s.map := by unfold State.putStatus; dsimp only; split <;> rfl
@[simp] theorem State.putStatus_hlt (s : State) (a v : Nat) : (s.putStatus a v).hlt = s.hlt := by unfold State.putStatus; dsimp only; split <;> rfl
@[simp] theorem State.putStatus_sec (s : State) (a v : Nat) : (s.putStatus a v).sec = s.sec := by unfold State.putStatus; dsimp only; split <;> rfl
@[simp] theorem State.putStatus_hst (s : State) (a v : Nat) : (s.putStatus a v).hst = s.hst := by unfold State.putStatus; dsimp only; split <;> rfl
@[simp] theorem State.putStatus_sys (s : State) (a v : Nat) : (s.putStatus a v).sys = s.sys := by unfold State.putStatus; dsimp only; split <;> rfl
@[simp] theorem State.putStatus_outbox (s : State) (a v : Nat) : (s.putStatus a v).outbox = s.outbox := by unfold State.putStatus; dsimp only; split <;> rfl
@[simp] theorem State.putStatus_freeCtr (s : State) (a v : Nat) : (s.putStatus a v).freeCtr = s.freeCtr := by unfold State.putStatus; dsimp only; split <;> rfl
@[simp] theorem State.putStatus_pending (s : State) (a v : Nat) : (s.putStatus a v).pending = s.pending := by unfold State.putStatus; dsimp only; split <;> rfl

@[simp] theorem State.setStatus_now (s : State) (a hi lo v : Nat) : (s.setStatus a hi lo v).now = s.now := State.putStatus_now s a _
@[simp] theorem State.setStatus_time (s : State) (a hi lo v : Nat) : (s.setStatus a hi lo v).time = s.time := State.putStatus_time s a _
@[simp] theorem State.setStatus_pgw (s : State) (a hi lo v : Nat) : (s.setStatus a hi lo v).pgw = s.pgw := State.putStatus_pgw s a _
@[simp] theorem State.setStatus_sch (s : State) (a hi lo v : Nat) : (s.setStatus a hi lo v).sch = s.sch := State.putStatus_sch s a _
@[simp] theorem State.setStatus_que (s : State) (a hi lo v : Nat) : (s.setStatus a hi lo v).que = s.que := State.putStatus_que s a _
@[simp] theorem State.setStatus_vsp (s : State) (a hi lo v : Nat) : (s.setStatus a hi lo v).vsp = s.vsp := State.putStatus_vsp s a _
@[simp] theorem State.setStatus_mem (s : State) (a hi lo v : Nat) : (s.setStatus a hi lo v).mem = s.mem := State.putStatus_mem s a _
@[simp] theorem State.setStatus_prog (s : State) (a hi lo v : Nat) : (s.setStatus a hi lo v).prog = s.prog := State.putStatus_prog s a _
@[simp] theorem State.setStatus_mat (s : State) (a hi lo v : Nat) : (s.setStatus a hi lo v).mat = s.mat := State.putStatus_mat s a _
@[simp] theorem State.setStatus_lnk (s : State) (a hi lo v : Nat) : (s.setStatus a hi lo v).lnk = s.lnk := State.putStatus_lnk s a _
@[simp] theorem State.setStatus_map (s : State) (a hi lo v : Nat) : (s.setStatus a hi lo v).map = s.map := State.putStatus_map s a _
@[simp] theorem State.setStatus_hlt (s : State) (a hi lo v : Nat) : (s.setStatus a hi lo v).hlt = s.hlt := State.putStatus_hlt s a _
@[simp] theorem State.setStatus_sec (s : State) (a hi lo v : Nat) : (s.setStatus a hi lo v).sec = s.sec := State.putStatus_sec s a _
@[simp] theorem State.setStatus_hst (s : State) (a hi lo v : Nat) : (s.setStatus a hi lo v).hst = s.hst := State.putStatus_hst s a _
@[simp] theorem State.setStatus_sys (s : State) (a hi lo v : Nat) : (s.setStatus a hi lo v).sys = s.sys := State.putStatus_sys s a _
@[simp] theorem State.setStatus_outbox (s : State) (a hi lo v : Nat) : (s.setStatus a hi lo v).outbox = s.outbox := State.putStatus_outbox s a _
@[simp] theorem State.setStatus_freeCtr (s : State) (a hi lo v : Nat) : (s.setStatus a hi lo v).freeCtr = s.freeCtr := State.putStatus_freeCtr s a _
@[simp] theorem State.setStatus_pending (s : State) (a hi lo v : Nat) : (s.setStatus a hi lo v).pending = s.pending := State.putStatus_pending s a _

@[simp] theorem State.slewOn_now (s : State) : s.slewOn.now = s.now := by unfold State.slewOn; dsimp only; split <;> simp
@[simp] theorem State.slewOn_pgw (s : State) : s.slewOn.pgw = s.pgw := by unfold State.slewOn; dsimp only; split <;> simp
@[simp] theorem State.slewOn_sch (s : State) : s.slewOn.sch = s.sch := by unfold State.slewOn; dsimp only; split <;> simp
@[simp] theorem State.slewOn_que (s : State) : s.slewOn.que = s.que := by unfold State.slewOn; dsimp only; split <;> simp
@[simp] theorem State.slewOn_vsp (s : State) : s.slewOn.vsp = s.vsp := by unfold State.slewOn; dsimp only; split <;> simp
@[simp] theorem State.slewOn_mem (s : State) : s.slewOn.mem = s.mem := by unfold State.slewOn; dsimp only; split <;> simp
@[simp] theorem State.slewOn_prog (s : State) : s.slewOn.prog = s.prog := by unfold State.slewOn; dsimp only; split <;> simp
@[simp] theorem State.slewOn_mat (s : State) : s.slewOn.mat = s.mat := by unfold State.slewOn; dsimp only; split <;> simp
@[simp] theorem State.slewOn_lnk (s : State) : s.slewOn.lnk = s.lnk := by unfold State.slewOn; dsimp only; split <;> simp
@[simp] theorem State.slewOn_map (s : State) : s.slewOn.map = s.map := by unfold State.slewOn; dsimp only; split <;> simp
@[simp] theorem State.slewOn_hlt (s : State) : s.slewOn.hlt = s.hlt := by unfold State.slewOn; dsimp only; split <;> simp
@[simp] theorem State.slewOn_sec (s : State) : s.slewOn.sec = s.sec := by unfold State.slewOn; dsimp only; split <;> simp
@[simp] theorem State.slewOn_hst (s : State) : s.slewOn.hst = s.hst := by unfold State.slewOn; dsimp only; split <;> simp
@[simp] theorem State.slewOn_sys (s : State) : s.slewOn.sys = s.sys := by unfold State.slewOn; dsimp only; split <;> simp
@[simp] theorem State.slewOn_outbox (s : State) : s.slewOn.outbox = s.outbox := by unfold State.slewOn; dsimp only; split <;> simp
@[simp] theorem State.slewOn_freeCtr (s : State) : s.slewOn.freeCtr = s.freeCtr := by unfold State.slewOn; dsimp only; split <;> simp
@[simp] theorem State.slewOn_pending (s : State) : s.slewOn.pending = s.pending := by unfold State.slewOn; dsimp only; split <;> simp

@[simp] theorem State.countOn_now (s : State) : s.countOn.now = s.now + s.time.ticked / 160000 := rfl
@[simp] theorem State.countOn_regs (s : State) : s.countOn.regs = s.regs := rfl
@[simp] theorem State.countOn_pgw (s : State) : s.countOn.pgw = s.pgw := rfl
@[simp] theorem State.countOn_sch (s : State) : s.countOn.sch = s.sch := rfl
@[simp] theorem State.countOn_que (s : State) : s.countOn.que = s.que := rfl
@[simp] theorem State.countOn_vsp (s : State) : s.countOn.vsp = s.vsp := rfl
@[simp] theorem State.countOn_mem (s : State) : s.countOn.mem = s.mem := rfl
@[simp] theorem State.countOn_prog (s : State) : s.countOn.prog = s.prog := rfl
@[simp] theorem State.countOn_mat (s : State) : s.countOn.mat = s.mat := rfl
@[simp] theorem State.countOn_lnk (s : State) : s.countOn.lnk = s.lnk := rfl
@[simp] theorem State.countOn_map (s : State) : s.countOn.map = s.map := rfl
@[simp] theorem State.countOn_hlt (s : State) : s.countOn.hlt = s.hlt := rfl
@[simp] theorem State.countOn_sec (s : State) : s.countOn.sec = s.sec := rfl
@[simp] theorem State.countOn_hst (s : State) : s.countOn.hst = s.hst := rfl
@[simp] theorem State.countOn_sys (s : State) : s.countOn.sys = s.sys := rfl
@[simp] theorem State.countOn_outbox (s : State) : s.countOn.outbox = s.outbox := rfl
@[simp] theorem State.countOn_freeCtr (s : State) : s.countOn.freeCtr = s.freeCtr := rfl
@[simp] theorem State.countOn_pending (s : State) : s.countOn.pending = s.pending := rfl

@[simp] theorem State.tick_now (s : State) : s.tick.now = s.now + s.slewOn.time.ticked / 160000 := by rw [State.tick, State.countOn_now, State.slewOn_now]
@[simp] theorem State.tick_regs (s : State) : s.tick.regs = s.slewOn.regs := rfl
@[simp] theorem State.tick_pgw (s : State) : s.tick.pgw = s.pgw := by rw [State.tick, State.countOn_pgw, State.slewOn_pgw]
@[simp] theorem State.tick_sch (s : State) : s.tick.sch = s.sch := by rw [State.tick, State.countOn_sch, State.slewOn_sch]
@[simp] theorem State.tick_que (s : State) : s.tick.que = s.que := by rw [State.tick, State.countOn_que, State.slewOn_que]
@[simp] theorem State.tick_vsp (s : State) : s.tick.vsp = s.vsp := by rw [State.tick, State.countOn_vsp, State.slewOn_vsp]
@[simp] theorem State.tick_mem (s : State) : s.tick.mem = s.mem := by rw [State.tick, State.countOn_mem, State.slewOn_mem]
@[simp] theorem State.tick_prog (s : State) : s.tick.prog = s.prog := by rw [State.tick, State.countOn_prog, State.slewOn_prog]
@[simp] theorem State.tick_mat (s : State) : s.tick.mat = s.mat := by rw [State.tick, State.countOn_mat, State.slewOn_mat]
@[simp] theorem State.tick_lnk (s : State) : s.tick.lnk = s.lnk := by rw [State.tick, State.countOn_lnk, State.slewOn_lnk]
@[simp] theorem State.tick_map (s : State) : s.tick.map = s.map := by rw [State.tick, State.countOn_map, State.slewOn_map]
@[simp] theorem State.tick_hlt (s : State) : s.tick.hlt = s.hlt := by rw [State.tick, State.countOn_hlt, State.slewOn_hlt]
@[simp] theorem State.tick_sec (s : State) : s.tick.sec = s.sec := by rw [State.tick, State.countOn_sec, State.slewOn_sec]
@[simp] theorem State.tick_hst (s : State) : s.tick.hst = s.hst := by rw [State.tick, State.countOn_hst, State.slewOn_hst]
@[simp] theorem State.tick_sys (s : State) : s.tick.sys = s.sys := by rw [State.tick, State.countOn_sys, State.slewOn_sys]
@[simp] theorem State.tick_outbox (s : State) : s.tick.outbox = s.outbox := by rw [State.tick, State.countOn_outbox, State.slewOn_outbox]
@[simp] theorem State.tick_freeCtr (s : State) : s.tick.freeCtr = s.freeCtr := by rw [State.tick, State.countOn_freeCtr, State.slewOn_freeCtr]
@[simp] theorem State.tick_pending (s : State) : s.tick.pending = s.pending := by rw [State.tick, State.countOn_pending, State.slewOn_pending]

end Sys2Proof.Machine
end

