-- ==== Sys2Proof/Laws/Tables.lean ====
section
/-!
SUPPORT. Sparse tables and keyed tables: what a read after a write gives, and that writes keep the canonical form.
-/

namespace Sys2Proof.Machine

open Sys2Proof

/-- A rising list's tail rises. -/
theorem keysRise_tail {α : Type} {p : Nat × α} {t : List (Nat × α)} (h : keysRise (p :: t) = true) : keysRise t = true := by
  cases t with
  | nil => rfl
  | cons q t => simp only [keysRise, Bool.and_eq_true] at h; exact h.2

/-- In a rising list every later key is above the first. -/
theorem keysRise_lt {α : Type} {p : Nat × α} {t : List (Nat × α)} (h : keysRise (p :: t) = true) : ∀ q ∈ t, p.1 < q.1 := by
  induction t generalizing p with
  | nil => intro q hq; cases hq
  | cons r t ih =>
    simp only [keysRise, Bool.and_eq_true, decide_eq_true_eq] at h
    intro q hq
    cases hq with
    | head => exact h.1
    | tail _ hq => exact Nat.lt_trans h.1 (ih h.2 q hq)

/-- A key below every later one may stand in front. -/
theorem keysRise_cons {α : Type} {p : Nat × α} {t : List (Nat × α)} (h : keysRise t = true) (hp : ∀ q ∈ t, p.1 < q.1) : keysRise (p :: t) = true := by
  cases t with
  | nil => rfl
  | cons q t =>
    simp only [keysRise, Bool.and_eq_true, decide_eq_true_eq]
    exact ⟨hp q (List.mem_cons_self ..), h⟩

/-- Below every key a table reads as the default. -/
theorem spGet_below {α : Type} (d : α) {l : List (Nat × α)} {x : Nat} (h : ∀ q ∈ l, x < q.1) : spGet d l x = d := by
  cases l with
  | nil => rfl
  | cons p t =>
    have hp := h p (List.mem_cons_self ..)
    simp only [spGet]
    rw [if_neg (by omega), if_pos hp]

/-- A write changes no key but its own: every entry after it was there before or is the one written. -/
theorem mem_spSet {α : Type} [DecidableEq α] {d : α} {l : List (Nat × α)} {x : Nat} {v : α} {q : Nat × α}
    (h : q ∈ spSet d l x v) : q ∈ l ∨ (q = (x, v) ∧ v ≠ d) := by
  induction l with
  | nil =>
    simp only [spSet] at h
    split at h
    · cases h
    · rename_i hv; simp only [List.mem_singleton] at h; exact .inr ⟨h, hv⟩
  | cons p t ih =>
    obtain ⟨k, w⟩ := p
    simp only [spSet] at h
    split at h
    · split at h
      · exact .inl (List.mem_cons_of_mem _ h)
      · rename_i hv
        rcases List.mem_cons.mp h with h | h
        · exact .inr ⟨h, hv⟩
        · exact .inl (List.mem_cons_of_mem _ h)
    · split at h
      · split at h
        · exact .inl h
        · rename_i hv
          rcases List.mem_cons.mp h with h | h
          · exact .inr ⟨h, hv⟩
          · exact .inl h
      · rcases List.mem_cons.mp h with h | h
        · exact .inl (h ▸ List.mem_cons_self ..)
        · rcases ih h with h | h
          · exact .inl (List.mem_cons_of_mem _ h)
          · exact .inr h

/-- A write keeps the keys rising. -/
theorem keysRise_spSet {α : Type} [DecidableEq α] (d : α) {l : List (Nat × α)} (x : Nat) (v : α) (h : keysRise l = true) :
    keysRise (spSet d l x v) = true := by
  induction l with
  | nil => simp only [spSet]; split <;> rfl
  | cons p t ih =>
    obtain ⟨k, w⟩ := p
    have ht := keysRise_tail h
    have hlt := keysRise_lt h
    simp only [spSet]
    split
    · rename_i hx
      split
      · exact ht
      · exact keysRise_cons ht (fun q hq => hx ▸ hlt q hq)
    · split
      · rename_i hx
        split
        · exact h
        · refine keysRise_cons h (fun q hq => ?_)
          rcases List.mem_cons.mp hq with hq | hq
          · exact hq ▸ hx
          · exact Nat.lt_trans hx (hlt q hq)
      · rename_i hne hge
        refine keysRise_cons (ih ht) (fun q hq => ?_)
        rcases mem_spSet hq with hq | ⟨hq, _⟩
        · exact hlt q hq
        · subst hq; show k < x; omega

/-- The value just written is read back. -/
theorem spGet_spSet_same {α : Type} [DecidableEq α] (d : α) {l : List (Nat × α)} (x : Nat) (v : α) (h : keysRise l = true) :
    spGet d (spSet d l x v) x = v := by
  induction l with
  | nil =>
    simp only [spSet]
    split
    · rename_i hv; exact hv.symm
    · simp only [spGet, if_true]
  | cons p t ih =>
    obtain ⟨k, w⟩ := p
    have hlt := keysRise_lt h
    simp only [spSet]
    split
    · rename_i hx
      split
      · rename_i hv; rw [hv]; exact spGet_below d (fun q hq => hx ▸ hlt q hq)
      · simp only [spGet, if_true]
    · rename_i hne
      split
      · rename_i hx
        split
        · rename_i hv; rw [hv]; simp only [spGet]; rw [if_neg hne, if_pos hx]
        · simp only [spGet, if_true]
      · rename_i hge
        simp only [spGet]
        rw [if_neg hne, if_neg hge]
        exact ih (keysRise_tail h)

/-- Every other key reads as before, whatever an unlisted key reads as. -/
theorem spGet_spSet_other {α : Type} [DecidableEq α] (d e : α) {l : List (Nat × α)} {x y : Nat} (v : α) (h : keysRise l = true) (hy : y ≠ x) :
    spGet e (spSet d l x v) y = spGet e l y := by
  induction l with
  | nil =>
    simp only [spSet]
    split
    · rfl
    · simp only [spGet]; rw [if_neg hy]; split <;> rfl
  | cons p t ih =>
    obtain ⟨k, w⟩ := p
    have hlt := keysRise_lt h
    simp only [spSet]
    split
    · rename_i hx
      split
      · simp only [spGet]
        rw [if_neg (by omega)]
        split
        · rename_i hlo; exact spGet_below e (fun q hq => Nat.lt_trans hlo (hlt q hq))
        · rfl
      · simp only [spGet]; rw [if_neg hy, if_neg (show ¬ y = k by omega), hx]
    · rename_i hne
      split
      · rename_i hx
        split
        · rfl
        · simp only [spGet]
          rw [if_neg hy]
          split
          · rename_i hlo; rw [if_neg (by omega), if_pos (by omega)]
          · rfl
      · rename_i hge
        simp only [spGet]
        rw [ih (keysRise_tail h)]

/-- A read after a write, both cases at once. -/
theorem spGet_spSet {α : Type} [DecidableEq α] (d : α) {l : List (Nat × α)} (x y : Nat) (v : α) (h : keysRise l = true) :
    spGet d (spSet d l x v) y = if y = x then v else spGet d l y := by
  split
  · rename_i hy; rw [hy]; exact spGet_spSet_same d x v h
  · rename_i hy; exact spGet_spSet_other d d v h hy

/-- Entries that a property holds of keep it under a write that has it. -/
theorem all_spSet {α : Type} [DecidableEq α] {d : α} {l : List (Nat × α)} {x : Nat} {v : α} {p : Nat × α → Bool}
    (h : l.all p = true) (hv : v ≠ d → p (x, v) = true) : (spSet d l x v).all p = true := by
  rw [List.all_eq_true] at h ⊢
  intro q hq
  rcases mem_spSet hq with hq | ⟨hq, hd⟩
  · exact h q hq
  · exact hq ▸ hv hd

/-- Filtering keeps the keys rising. -/
theorem keysRise_filter {α : Type} (f : Nat × α → Bool) {l : List (Nat × α)} (h : keysRise l = true) : keysRise (l.filter f) = true := by
  induction l with
  | nil => rfl
  | cons p t ih =>
    rw [List.filter_cons]
    split
    · exact keysRise_cons (ih (keysRise_tail h)) (fun q hq => keysRise_lt h q (List.mem_of_mem_filter hq))
    · exact ih (keysRise_tail h)

/-- Filtering keeps what holds of every entry. -/
theorem all_filter {α : Type} {f p : α → Bool} {l : List α} (h : l.all p = true) : (l.filter f).all p = true := by
  rw [List.all_eq_true] at h ⊢
  exact fun q hq => h q (List.mem_of_mem_filter hq)

/-- Register tables stay canonical under a write of any value (R386, R418). -/
theorem regsCanonical_regSet {l : List (Nat × Nat)} (a v : Nat) (h : regsCanonical l = true) : regsCanonical (regSet l a v) = true := by
  simp only [regsCanonical, Bool.and_eq_true] at h ⊢
  refine ⟨keysRise_spSet _ a _ h.1, all_spSet h.2 (fun hv => ?_)⟩
  simp only [Bool.and_eq_true, decide_eq_true_eq]
  exact ⟨hv, Nat.mod_lt _ (by decide)⟩

/-- Register tables stay canonical when entries go. -/
theorem regsCanonical_filter {l : List (Nat × Nat)} (f : Nat × Nat → Bool) (h : regsCanonical l = true) : regsCanonical (l.filter f) = true := by
  simp only [regsCanonical, Bool.and_eq_true] at h ⊢
  exact ⟨keysRise_filter f h.1, all_filter h.2⟩

/-- Counts stay canonical under a write cut to 32 bits (R41). -/
theorem countsCanonical_spSet {l : List (Nat × Nat)} (a n : Nat) (h : countsCanonical l = true) : countsCanonical (spSet 0 l a (sat32 n)) = true := by
  simp only [countsCanonical, Bool.and_eq_true] at h ⊢
  refine ⟨keysRise_spSet _ a _ h.1, all_spSet h.2 (fun hv => ?_)⟩
  simp only [Bool.and_eq_true, decide_eq_true_eq]
  refine ⟨hv, ?_⟩
  have : sat32 n ≤ 0xFFFFFFFF := Nat.min_le_right ..
  show sat32 n < 4294967296
  omega

/-- The canonical form of Word.lean, said by its two halves. -/
theorem spWf_iff {α : Type} [DecidableEq α] (d : α) (l : List (Nat × α)) :
    spWf d l = true ↔ keysRise l = true ∧ l.all (fun p => decide (p.2 ≠ d)) = true := by
  induction l with
  | nil => simp [spWf, keysRise]
  | cons p t ih =>
    obtain ⟨k, v⟩ := p
    cases t with
    | nil => simp [spWf, keysRise]
    | cons q t =>
      obtain ⟨k', v'⟩ := q
      simp only [spWf, keysRise, List.all_cons, Bool.and_eq_true] at ih ⊢
      rw [ih]
      constructor
      · rintro ⟨⟨h1, h2⟩, h3, h4, h5⟩; exact ⟨⟨h2, h3⟩, h1, h4, h5⟩
      · rintro ⟨⟨h2, h3⟩, h1, h4, h5⟩; exact ⟨⟨h1, h2⟩, h3, h4, h5⟩

/-- Memory stays canonical under a write of one byte. -/
theorem memory_wf_spSet {m : List Host.Cell} (a : Nat) (v : Byte) (h : Memory.wf m = true) : Memory.wf (spSet (0 : Byte) m a v) = true := by
  rw [Memory.wf, spWf_iff] at h ⊢
  exact ⟨keysRise_spSet _ a v h.1, all_spSet h.2 (fun hv => by simpa using hv)⟩

/-- Flash stays canonical under a write of a byte. -/
theorem flashCanonical_spSet {l : List (Nat × Nat)} (a v : Nat) (hb : v < 256) (h : flashCanonical l = true) : flashCanonical (spSet 255 l a v) = true := by
  simp only [flashCanonical, Bool.and_eq_true] at h ⊢
  refine ⟨keysRise_spSet _ a v h.1, all_spSet h.2 (fun hv => ?_)⟩
  simp only [Bool.and_eq_true, decide_eq_true_eq]
  exact ⟨hv, hb⟩

/-- Flash stays canonical when a sector is erased. -/
theorem flashCanonical_filter {l : List (Nat × Nat)} (f : Nat × Nat → Bool) (h : flashCanonical l = true) : flashCanonical (l.filter f) = true := by
  simp only [flashCanonical, Bool.and_eq_true] at h ⊢
  exact ⟨keysRise_filter f h.1, all_filter h.2⟩

/-! ### Keyed tables -/

/-- A key reads what was put under it. -/
theorem tabGet_tabPut_same {α : Type} (t : List (Nat × α)) (x : Nat) (v : α) : tabGet (tabPut t x v) x = some v := by
  induction t with
  | nil => simp [tabPut, tabGet]
  | cons p t ih =>
    obtain ⟨k, w⟩ := p
    simp only [tabPut]
    split
    · simp [tabGet]
    · rename_i h
      split
      · simp [tabGet]
      · simp only [tabGet, List.find?_cons] at ih ⊢
        rw [beq_eq_false_iff_ne.mpr (fun e => h e.symm)]
        exact ih

/-- Every other key reads as before. -/
theorem tabGet_tabPut_other {α : Type} (t : List (Nat × α)) {x y : Nat} (v : α) (hy : y ≠ x) : tabGet (tabPut t x v) y = tabGet t y := by
  induction t with
  | nil => simp [tabPut, tabGet, Ne.symm hy]
  | cons p t ih =>
    obtain ⟨k, w⟩ := p
    simp only [tabPut]
    split
    · rename_i h; subst h; simp [tabGet, Ne.symm hy]
    · split
      · simp [tabGet, Ne.symm hy]
      · simp only [tabGet, List.find?_cons] at ih ⊢
        split
        · rfl
        · exact ih

/-- A key that was removed reads as absent, and every other as before. -/
theorem tabGet_tabDel {α : Type} (t : List (Nat × α)) (x y : Nat) : tabGet (tabDel t x) y = if y = x then none else tabGet t y := by
  induction t with
  | nil => simp [tabDel, tabGet]
  | cons p t ih =>
    obtain ⟨k, w⟩ := p
    simp only [tabDel, tabGet, List.filter_cons] at ih ⊢
    by_cases h : k = x
    · subst h
      simp only [bne_self_eq_false, Bool.false_eq_true, if_false, ih]
      by_cases hy : y = k
      · simp [hy]
      · rw [if_neg hy, if_neg hy, List.find?_cons, beq_eq_false_iff_ne.mpr (Ne.symm hy)]
    · rw [if_pos (by simpa using h), List.find?_cons, List.find?_cons]
      by_cases hy : k = y
      · subst hy; simp [h]
      · rw [beq_eq_false_iff_ne.mpr hy]; exact ih

end Sys2Proof.Machine
end

