-- ==== Sys2Proof/Laws/Signals.lean ====
section
/-!
SUPPORT. Reading registers after writing them, and what recording an event or sending to the host can change (R373–R376, R388, R392, R421).
-/

namespace Sys2Proof.Machine

open Sys2Proof

/-! ### Register reads after writes -/

/-- The live table is canonical. -/
abbrev State.liveWf (s : State) : Prop := regsCanonical s.regs.live = true

theorem State.Inv.liveWf {s : State} (h : s.Inv) : s.liveWf := h.1

theorem State.liveWf.rise {s : State} (h : s.liveWf) : keysRise s.regs.live = true := by
  simp only [State.liveWf, regsCanonical, Bool.and_eq_true] at h
  exact h.1

theorem State.liveWf.setLive {s : State} (h : s.liveWf) (a v : Nat) : (s.setLive a v).liveWf := regsCanonical_regSet a v h

/-- A register reads what was written to it, cut to 32 bits; every other reads as before. -/
theorem State.live_setLive {s : State} (h : s.liveWf) (a v x : Nat) :
    (s.setLive a v).live x = if x = a then v % pow2 32 else s.live x := by
  simp only [State.live, State.setLive_regs, regGet, regSet]
  split
  · rename_i hx; subst hx; exact spGet_spSet_same _ _ _ h.rise
  · rename_i hx; exact spGet_spSet_other _ _ _ h.rise hx

/-- Every register reads as 32 bits. -/
theorem spGet_lt {d b : Nat} {l : List (Nat × Nat)} (hd : d < b) (hl : l.all (fun p => decide (p.2 < b)) = true) (x : Nat) : spGet d l x < b := by
  induction l with
  | nil => exact hd
  | cons p t ih =>
    obtain ⟨k, v⟩ := p
    simp only [List.all_cons, Bool.and_eq_true, decide_eq_true_eq] at hl
    simp only [spGet]
    split
    · exact hl.1
    · split
      · exact hd
      · exact ih hl.2

/-! ### The relations compose -/

theorem OnlyLive.refl (s : State) : OnlyLive s s := rfl
theorem OnlyLive.trans {s t u : State} (h : OnlyLive s t) (k : OnlyLive t u) : OnlyLive s u := by
  unfold OnlyLive at h k ⊢; rw [k, h]
theorem OnlyHost.refl (s : State) : OnlyHost s s := rfl
theorem OnlyHost.trans {s t u : State} (h : OnlyHost s t) (k : OnlyHost t u) : OnlyHost s u := by
  unfold OnlyHost at h k ⊢; rw [k, h]
theorem OnlySignals.refl (s : State) : OnlySignals s s := rfl
theorem OnlySignals.trans {s t u : State} (h : OnlySignals s t) (k : OnlySignals t u) : OnlySignals s u := by
  unfold OnlySignals at h k ⊢; rw [k, h]
theorem OnlyLive.signals {s t : State} (h : OnlyLive s t) : OnlySignals s t := by
  unfold OnlyLive at h; unfold OnlySignals; rw [h]
theorem OnlyHost.signals {s t : State} (h : OnlyHost s t) : OnlySignals s t := by
  unfold OnlyHost at h; unfold OnlySignals; rw [h]

/-! ### Operations -/

theorem State.setLive_onlyLive (s : State) (a v : Nat) : OnlyLive s (s.setLive a v) := rfl

theorem State.putStatus_onlyLive (s : State) (a v : Nat) : OnlyLive s (s.putStatus a v) := by
  unfold State.putStatus
  dsimp only
  split
  · rfl
  · rfl

theorem State.setStatus_onlyLive (s : State) (a hi lo v : Nat) : OnlyLive s (s.setStatus a hi lo v) := s.putStatus_onlyLive ..
theorem State.touch_onlyLive (s : State) (a v : Nat) : OnlyLive s (s.touch a v) := rfl
theorem State.clearEvents_onlyLive (s : State) (a v : Nat) : OnlyLive s (s.clearEvents a v) := by
  unfold State.clearEvents
  dsimp only
  split <;> rfl

theorem State.hostPut_onlyHost (s : State) (p : HostPkt) : OnlyHost s (s.hostPut p) := rfl

theorem hostPump_onlyHost (l : List HostPkt) (p n : Bool) (s : State) : OnlyHost s (hostPump l p n s) := by
  induction l generalizing p n s with
  | nil => rfl
  | cons x t ih =>
    simp only [hostPump]
    split
    · exact (s.hostPut_onlyHost x).trans (ih ..)
    · exact OnlyHost.trans (t := { s with hst := { s.hst with txq := s.hst.txq ++ [x] } }) rfl (ih ..)

theorem State.hostFlush_onlyHost (s : State) : OnlyHost s s.hostFlush :=
  OnlyHost.trans (t := { s with hst := { s.hst with txq := [] } }) rfl (hostPump_onlyHost ..)

theorem State.hostSend_onlyHost (s : State) (p : HostPkt) : OnlyHost s (s.hostSend p) :=
  OnlyHost.trans (t := { s with hst := { s.hst with txq := s.hst.txq ++ [p] } }) rfl (State.hostFlush_onlyHost _)

theorem State.hostMsg_onlyHost (s : State) (f v : Nat) : OnlyHost s (s.hostMsg f v) := s.hostSend_onlyHost _

theorem onlyHost_foldl {α β : Type} {f : State × β → α → State × β} (hf : ∀ p a, OnlyHost p.1 (f p a).1) (l : List α) (p : State × β) :
    OnlyHost p.1 (l.foldl f p).1 := by
  induction l generalizing p with
  | nil => rfl
  | cons a l ih => exact (hf p a).trans (ih _)

theorem State.hostWrite_onlyHost (s : State) (f a : Nat) (b : List Byte) : OnlyHost s (s.hostWrite f a b) := by
  unfold State.hostWrite
  split
  · rfl
  · exact onlyHost_foldl (fun p _ => p.1.hostSend_onlyHost _) _ (s, a)

theorem State.hostCpl_onlyHost (s : State) (f t st : Nat) (b : List Byte) : OnlyHost s (s.hostCpl f t st b) := by
  unfold State.hostCpl
  split
  · exact s.hostSend_onlyHost _
  · exact onlyHost_foldl (fun p _ => p.1.hostSend_onlyHost _) _ (s, b.length)

theorem State.sendSummary_onlyHost (s : State) (b : Nat) : OnlyHost s (s.sendSummary b) := by
  unfold State.sendSummary
  dsimp only
  have h : OnlyHost s (if (s.bit Reg.sysMsgCfg 21 && s.fnEnabled (s.fld Reg.sysMsgCfg 20 16) && (s.fnTenant (s.fld Reg.sysMsgCfg 20 16)).isNone) = true
      then s.hostMsg (s.fld Reg.sysMsgCfg 20 16) (s.fld Reg.sysMsgCfg 15 0) else s) := by
    split
    · exact s.hostMsg_onlyHost ..
    · rfl
  generalize (if (s.bit Reg.sysMsgCfg 21 && s.fnEnabled (s.fld Reg.sysMsgCfg 20 16) && (s.fnTenant (s.fld Reg.sysMsgCfg 20 16)).isNone) = true
      then s.hostMsg (s.fld Reg.sysMsgCfg 20 16) (s.fld Reg.sysMsgCfg 15 0) else s) = u at h ⊢
  split
  · exact h.trans rfl
  · exact h

/-- What a rise of a summary bit can change (R421). -/
theorem State.summaryRise_signals (s : State) (b : Nat) : OnlySignals s (s.summaryRise b) := by
  unfold State.summaryRise
  split
  · rfl
  · split
    · rfl
    · exact OnlySignals.trans (t := { s with sys := { s.sys with sumMsg := some s.minutes } }) rfl (State.sendSummary_onlyHost _ _).signals

/-- What recording an event can change (R392, R421). -/
theorem State.raise_signals (s : State) (a bits : Nat) : OnlySignals s (s.raise a bits) := by
  unfold State.raise
  dsimp only
  split
  · exact (s.setLive_onlyLive ..).signals
  · exact (s.setLive_onlyLive ..).signals.trans (State.summaryRise_signals _ _)

theorem State.raiseBit_signals (s : State) (a i : Nat) : OnlySignals s (s.raiseBit a i) := s.raise_signals ..

/-! ### Registers after them -/

theorem OnlyHost.regs {s t : State} (h : OnlyHost s t) : t.regs = s.regs := by rw [h]

theorem State.summaryRise_regs (s : State) (b : Nat) : (s.summaryRise b).regs = s.regs := by
  unfold State.summaryRise
  split
  · rfl
  · split
    · rfl
    · exact (State.sendSummary_onlyHost _ _).regs

/-- Recording an event writes its register, with its sequence number advanced, and no other (R392). -/
theorem State.raise_regs (s : State) (a bits : Nat) : (s.raise a bits).regs = (s.setLive a (seqUp (s.live a ||| bits % pow2 24))).regs := by
  unfold State.raise
  dsimp only
  split
  · rfl
  · exact State.summaryRise_regs _ _

theorem State.live_raise {s : State} (h : s.liveWf) (a bits x : Nat) :
    (s.raise a bits).live x = if x = a then seqUp (s.live a ||| bits % pow2 24) % pow2 32 else s.live x := by
  rw [State.live, State.raise_regs, ← State.live, State.live_setLive h]

theorem State.raise_liveWf {s : State} (h : s.liveWf) (a bits : Nat) : (s.raise a bits).liveWf := by
  rw [State.liveWf, State.raise_regs]; exact h.setLive _ _

theorem State.live_putStatus {s : State} (h : s.liveWf) (a v x : Nat) (hx : x ≠ a) : (s.putStatus a v).live x = s.live x := by
  unfold State.putStatus
  dsimp only
  split
  · rfl
  · rw [State.live_setLive h, if_neg hx]

theorem State.putStatus_liveWf {s : State} (h : s.liveWf) (a v : Nat) : (s.putStatus a v).liveWf := by
  unfold State.putStatus
  dsimp only
  split
  · exact h
  · exact h.setLive _ _

end Sys2Proof.Machine
end

