-- ==== Sys2Proof/Laws/Bits.lean ====
section
/-!
SUPPORT. Bit fields: reading a field after writing one, and the fields of a status register, whose sequence number advances with them (R392).
-/

namespace Sys2Proof

/-- A number with a field replaced: what stands above, the field, what stands below. -/
theorem putBits_parts {hi lo : Nat} (h : lo ≤ hi + 1) (x v : Nat) :
    putBits x hi lo v = 2 ^ (hi + 1) * (x / 2 ^ (hi + 1)) + (2 ^ lo * (v % 2 ^ (hi + 1 - lo)) + x % 2 ^ lo) := by
  have e : 2 ^ (hi + 1) = 2 ^ lo * 2 ^ (hi + 1 - lo) := by rw [← Nat.pow_add]; congr 1; omega
  simp only [putBits, bitsOf, pow2, Nat.shiftRight_eq_div_pow]
  have h1 := Nat.div_add_mod x (2 ^ lo)
  have h2 := Nat.div_add_mod (x / 2 ^ lo) (2 ^ (hi + 1 - lo))
  rw [e, ← Nat.div_div_eq_div_mul]
  generalize 2 ^ (hi + 1 - lo) = m at *
  generalize 2 ^ lo = l at *
  generalize hA : x / l / m = A at *
  generalize hB : x / l % m = B at *
  generalize hC : x % l = C at *
  generalize v % m = V at *
  have hx : x = l * m * A + l * B + C := by rw [← h1, ← h2]; ring
  have : B * l = l * B := Nat.mul_comm ..
  have : V * l = l * V := Nat.mul_comm ..
  rw [hx]; omega

/-- Bits of a number with a field replaced. -/
theorem testBit_putBits {hi lo : Nat} (h : lo ≤ hi + 1) (x v i : Nat) :
    (putBits x hi lo v).testBit i = if lo ≤ i ∧ i ≤ hi then v.testBit (i - lo) else x.testBit i := by
  have hl : x % 2 ^ lo < 2 ^ lo := Nat.mod_lt _ (Nat.two_pow_pos _)
  have hm : 2 ^ lo * (v % 2 ^ (hi + 1 - lo)) + x % 2 ^ lo < 2 ^ (hi + 1) := by
    have e : 2 ^ (hi + 1) = 2 ^ lo * 2 ^ (hi + 1 - lo) := by rw [← Nat.pow_add]; congr 1; omega
    have hv : v % 2 ^ (hi + 1 - lo) < 2 ^ (hi + 1 - lo) := Nat.mod_lt _ (Nat.two_pow_pos _)
    rw [e]
    calc _ < 2 ^ lo * (v % 2 ^ (hi + 1 - lo)) + 2 ^ lo := by omega
      _ = 2 ^ lo * (v % 2 ^ (hi + 1 - lo) + 1) := by ring
      _ ≤ _ := Nat.mul_le_mul_left _ hv
  rw [putBits_parts h, Nat.testBit_two_pow_mul_add _ hm, Nat.testBit_two_pow_mul_add _ hl]
  by_cases h1 : i < hi + 1
  · rw [if_pos h1]
    by_cases h2 : i < lo
    · rw [if_pos h2, if_neg (by omega), Nat.testBit_mod_two_pow]; simp [h2]
    · rw [if_neg h2, if_pos (by omega), Nat.testBit_mod_two_pow]; simp; omega
  · rw [if_neg h1, if_neg (by omega), Nat.testBit_div_two_pow]
    congr 1; omega

/-- Bits of a field. -/
theorem testBit_bitsOf (x hi lo i : Nat) : (bitsOf x hi lo).testBit i = (decide (i < hi + 1 - lo) && x.testBit (i + lo)) := by
  simp only [bitsOf, pow2, Nat.testBit_mod_two_pow, Nat.testBit_shiftRight, Nat.add_comm]

/-- A field has no more bits than its width. -/
theorem bitsOf_lt (x hi lo : Nat) : bitsOf x hi lo < 2 ^ (hi + 1 - lo) := Nat.mod_lt _ (Nat.two_pow_pos _)

/-- A field reads what was written to it, cut to its width. -/
theorem bitsOf_putBits {hi lo : Nat} (h : lo ≤ hi + 1) (x v : Nat) : bitsOf (putBits x hi lo v) hi lo = v % 2 ^ (hi + 1 - lo) := by
  apply Nat.eq_of_testBit_eq
  intro i
  rw [testBit_bitsOf, testBit_putBits h, Nat.testBit_mod_two_pow]
  by_cases hi' : i < hi + 1 - lo
  · rw [if_pos (by omega)]; simp
  · simp [hi']

/-- Any other field reads as before. -/
theorem bitsOf_putBits_other {hi lo a b : Nat} (h : lo ≤ hi + 1) (x v : Nat) (hd : a < lo ∨ hi < b) : bitsOf (putBits x hi lo v) a b = bitsOf x a b := by
  apply Nat.eq_of_testBit_eq
  intro i
  rw [testBit_bitsOf, testBit_bitsOf, testBit_putBits h]
  by_cases hi' : i < a + 1 - b
  · rw [if_neg (by omega)]
  · simp [hi']

end Sys2Proof

namespace Sys2Proof.Machine

open Sys2Proof

/-- Advancing the sequence number leaves the fields below it. -/
theorem seqUp_low (v : Nat) : seqUp v % 2 ^ 24 = v % 2 ^ 24 := by
  have := bitsOf_putBits_other (hi := 31) (lo := 24) (a := 23) (b := 0) (by decide) v (bitsOf v 31 24 + 1) (Or.inl (by decide))
  simpa [bitsOf, pow2, seqUp] using this

/-- A field below bit 24 depends on the low 24 bits alone. -/
theorem bitsOf_low {x y hi : Nat} (h : x % 2 ^ 24 = y % 2 ^ 24) (hh : hi < 24) (lo : Nat) : bitsOf x hi lo = bitsOf y hi lo := by
  apply Nat.eq_of_testBit_eq
  intro i
  rw [testBit_bitsOf, testBit_bitsOf]
  by_cases hi' : i < hi + 1 - lo
  · have h1 : (x % 2 ^ 24).testBit (i + lo) = (y % 2 ^ 24).testBit (i + lo) := by rw [h]
    have h2 : i + lo < 24 := by omega
    rw [Nat.testBit_mod_two_pow, Nat.testBit_mod_two_pow, decide_eq_true h2, Bool.true_and, Bool.true_and] at h1
    rw [h1]
  · simp [hi']

/-- A status register shows the fields written to it (R392). -/
theorem State.putStatus_low {s : State} (h : s.liveWf) (a v : Nat) : (s.putStatus a v).live a % 2 ^ 24 = v % 2 ^ 24 := by
  unfold State.putStatus
  dsimp only
  split
  · rename_i e; exact e.symm
  · rw [State.live_setLive h, if_pos rfl]
    have e : ∀ n, n % pow2 32 % 2 ^ 24 = n % 2 ^ 24 := fun n => Nat.mod_mod_of_dvd n ⟨256, by decide⟩
    rw [e, seqUp_low]
    have := bitsOf_putBits (hi := 23) (lo := 0) (by decide) (s.live a) v
    simpa [bitsOf, pow2] using this

/-- A field of a status register reads what was written to it. -/
theorem State.fld_setStatus {s : State} (h : s.liveWf) {a hi lo v : Nat} (hl : lo ≤ hi) (hh : hi < 24) :
    (s.setStatus a hi lo v).fld a hi lo = v % 2 ^ (hi + 1 - lo) := by
  unfold State.fld State.setStatus
  rw [bitsOf_low (State.putStatus_low h a _) hh, bitsOf_putBits (by omega)]

/-- The other fields of the register, and every other register, read as before. -/
theorem State.fld_setStatus_other {s : State} (h : s.liveWf) {a hi lo v x i j : Nat} (hl : lo ≤ hi) (hx : x ≠ a ∨ (i < 24 ∧ (i < lo ∨ hi < j))) :
    (s.setStatus a hi lo v).fld x i j = s.fld x i j := by
  unfold State.fld State.setStatus
  rcases Decidable.em (x = a) with e | e
  · subst e
    rcases hx with hx | ⟨hi', hd⟩
    · exact absurd rfl hx
    · rw [bitsOf_low (State.putStatus_low h x _) hi', bitsOf_putBits_other (by omega) _ _ hd]
  · rw [State.live_putStatus h _ _ _ e]

end Sys2Proof.Machine
end

