-- ==== Sys2Proof/Laws/Keep.lean ====
section
/-!
SUPPORT. What every operation of the model keeps. The state falls into named parts; for each operation one lemma says which parts it may change, that it leaves the queue of waiting commands alone, and that it keeps the invariant. The combinators here carry that through conditionals, matches and folds; the files of Laws/Keeps state it operation by operation.
-/

namespace Sys2Proof.Machine

open Sys2Proof

theorem Blk.Same.refl (s : State) (k : Blk) : Blk.Same s s k := by cases k <;> first | rfl | exact ⟨rfl, rfl⟩

theorem Blk.Same.trans {s t u : State} {k : Blk} (h : Blk.Same s t k) (g : Blk.Same t u k) : Blk.Same s u k := by
  cases k
  case sys =>
    simp only [Blk.Same] at h g ⊢
    rw [← h, ← g]
  case sum => exact ⟨g.1.trans h.1, g.2.trans h.2⟩
  all_goals exact Eq.trans g h

/-- Every part of l is among the parts m. -/
def Within (l m : List Blk) : Prop := l.all (fun k => decide (k ∈ m)) = true

theorem within_mem {l m : List Blk} {k : Blk} (h : decide (k ∈ l) = true) (hm : Within l m) : k ∈ m :=
  of_decide_eq_true (List.all_eq_true.mp hm k (of_decide_eq_true h))

theorem Within.sub {a l m : List Blk} (hm : Within l m) (h : Within a l) : Within a m :=
  List.all_eq_true.mpr (fun k hk => decide_eq_true (within_mem (List.all_eq_true.mp h k hk) hm))

/-- From z to s only the parts m differ; the queue is the same, and the invariant is kept. -/
structure Keeps (m : List Blk) (z s : State) : Prop where
  /-- The queue. -/
  queue : s.pending = z.pending
  /-- The invariant. -/
  inv : z.Inv → s.Inv
  /-- The parts outside m. -/
  same : ∀ k, k ∉ m → Blk.Same z s k

/-- The state of an option, if it holds one, keeps the rest. -/
structure KeepsO (m : List Blk) (z : State) (o : Option State) : Prop where
  /-- It does. -/
  some : ∀ t, o = some t → Keeps m z t

/-- The state of a pair in an option keeps the rest. -/
structure KeepsP {α : Type} (m : List Blk) (z : State) (o : Option (State × α)) : Prop where
  /-- It does. -/
  some : ∀ p, o = some p → Keeps m z p.1

/-- Both results of an operation that may fail keep the rest. -/
structure KeepsE (m : List Blk) (z : State) (o : Except State State) : Prop where
  /-- On failure. -/
  error : ∀ t, o = .error t → Keeps m z t
  /-- On success. -/
  ok : ∀ t, o = .ok t → Keeps m z t

/-- The state left by a failure keeps the rest. -/
structure KeepsF {α : Type} (m : List Blk) (z : State) (o : Except State α) : Prop where
  /-- It does. -/
  error : ∀ t, o = .error t → Keeps m z t

/-- The states of both results of an operation that may fail, the second beside a value, keep the rest. -/
structure KeepsQ {α : Type} (m : List Blk) (z : State) (o : Except State (α × State)) : Prop where
  /-- On failure. -/
  error : ∀ t, o = .error t → Keeps m z t
  /-- On success. -/
  ok : ∀ a t, o = .ok (a, t) → Keeps m z t

/-- The next state of an outcome, if there is one, keeps the rest. -/
structure KeepsN (m : List Blk) (z : State) (o : Host.Outcome State Fault Refusal) : Prop where
  /-- It does. -/
  next : ∀ t, o = .next t → Keeps m z t

/-- Either state of a verdict on an arriving message keeps the rest. -/
structure KeepsV (m : List Blk) (z : State) (v : Verdict) : Prop where
  /-- Accepted. -/
  accept : ∀ t, v = .accept t → Keeps m z t
  /-- Ended. -/
  done : ∀ t, v = .done t → Keeps m z t

variable {m : List Blk} {z : State}

theorem Keeps.refl (z : State) : Keeps m z z := ⟨rfl, id, fun k _ => Blk.Same.refl z k⟩

theorem Keeps.trans {s t : State} (h : Keeps m z s) (g : Keeps m s t) : Keeps m z t :=
  ⟨g.queue.trans h.queue, fun i => g.inv (h.inv i), fun k hk => (h.same k hk).trans (g.same k hk)⟩

/-- What a step of an operation must show: the queue, the invariant, and the parts it does not change. -/
theorem Keeps.step {s t : State} (h : Keeps m z s) (hq : t.pending = s.pending) (hi : s.Inv → t.Inv) (hs : ∀ k, k ∉ m → Blk.Same s t k) :
    Keeps m z t := h.trans ⟨hq, hi, hs⟩

/-- A state built from s with some parts changed, none of them one that the invariant looks at. -/
theorem keeps_mk {s : State} {now : Nat} {regs : RegFile} {time : TimeSt} {pgw : PgwSt} {sch : SchSt} {que : QueSt} {vsp : VspSt} {mem : MemSt} {prog : ProgSt} {mat : MatSt} {lnk : LnkSt} {map : MapSt} {hlt : HltSt} {sec : SecSt} {hst : HstSt} {sys : SysSt} {outbox : List OutMsg} {freeCtr : Nat}
    (hl : regs.live = s.regs.live := by with_reducible rfl) (hsg : regs.staged = s.regs.staged := by with_reducible rfl) (hr : regs.run = s.regs.run := by with_reducible rfl)
    (hfl : mem.flat = s.mem.flat := by with_reducible rfl) (hfs : sys.flash = s.sys.flash := by with_reducible rfl)
    (k_now : Blk.now ∈ m ∨ now = s.now := by first | exact Or.inr (by with_reducible rfl) | exact Or.inl (within_mem rfl ‹_›))
    (k_time : Blk.time ∈ m ∨ time = s.time := by first | exact Or.inr (by with_reducible rfl) | exact Or.inl (within_mem rfl ‹_›))
    (k_pgw : Blk.pgw ∈ m ∨ pgw = s.pgw := by first | exact Or.inr (by with_reducible rfl) | exact Or.inl (within_mem rfl ‹_›))
    (k_sch : Blk.sch ∈ m ∨ sch = s.sch := by first | exact Or.inr (by with_reducible rfl) | exact Or.inl (within_mem rfl ‹_›))
    (k_que : Blk.que ∈ m ∨ que = s.que := by first | exact Or.inr (by with_reducible rfl) | exact Or.inl (within_mem rfl ‹_›))
    (k_vsp : Blk.vsp ∈ m ∨ vsp = s.vsp := by first | exact Or.inr (by with_reducible rfl) | exact Or.inl (within_mem rfl ‹_›))
    (k_mem : Blk.mem ∈ m ∨ mem = s.mem := by first | exact Or.inr (by with_reducible rfl) | exact Or.inl (within_mem rfl ‹_›))
    (k_prog : Blk.prog ∈ m ∨ prog = s.prog := by first | exact Or.inr (by with_reducible rfl) | exact Or.inl (within_mem rfl ‹_›))
    (k_mat : Blk.mat ∈ m ∨ mat = s.mat := by first | exact Or.inr (by with_reducible rfl) | exact Or.inl (within_mem rfl ‹_›))
    (k_lnk : Blk.lnk ∈ m ∨ lnk = s.lnk := by first | exact Or.inr (by with_reducible rfl) | exact Or.inl (within_mem rfl ‹_›))
    (k_map : Blk.map ∈ m ∨ map = s.map := by first | exact Or.inr (by with_reducible rfl) | exact Or.inl (within_mem rfl ‹_›))
    (k_hlt : Blk.hlt ∈ m ∨ hlt = s.hlt := by first | exact Or.inr (by with_reducible rfl) | exact Or.inl (within_mem rfl ‹_›))
    (k_sec : Blk.sec ∈ m ∨ sec = s.sec := by first | exact Or.inr (by with_reducible rfl) | exact Or.inl (within_mem rfl ‹_›))
    (k_hst : Blk.hst ∈ m ∨ hst = s.hst := by first | exact Or.inr (by with_reducible rfl) | exact Or.inl (within_mem rfl ‹_›))
    (k_outbox : Blk.outbox ∈ m ∨ outbox = s.outbox := by first | exact Or.inr (by with_reducible rfl) | exact Or.inl (within_mem rfl ‹_›))
    (k_freeCtr : Blk.freeCtr ∈ m ∨ freeCtr = s.freeCtr := by first | exact Or.inr (by with_reducible rfl) | exact Or.inl (within_mem rfl ‹_›))
    (k_pend : Blk.pend ∈ m ∨ regs.pend = s.regs.pend := by first | exact Or.inr (by with_reducible rfl) | exact Or.inl (within_mem rfl ‹_›))
    (k_parity : Blk.parity ∈ m ∨ regs.badParity = s.regs.badParity := by first | exact Or.inr (by with_reducible rfl) | exact Or.inl (within_mem rfl ‹_›))
    (k_written : Blk.written ∈ m ∨ regs.written = s.regs.written := by first | exact Or.inr (by with_reducible rfl) | exact Or.inl (within_mem rfl ‹_›))
    (k_sys : Blk.sys ∈ m ∨ { sys with sumMsg := s.sys.sumMsg, sumOwed := s.sys.sumOwed } = s.sys := by first | exact Or.inr (by with_reducible rfl) | exact Or.inl (within_mem rfl ‹_›))
    (k_sum : Blk.sum ∈ m ∨ (sys.sumMsg = s.sys.sumMsg ∧ sys.sumOwed = s.sys.sumOwed) := by first | exact Or.inr ⟨by with_reducible rfl, by with_reducible rfl⟩ | exact Or.inl (within_mem rfl ‹_›))
    (h : Keeps m z s) : Keeps m z ⟨now, regs, time, pgw, sch, que, vsp, mem, prog, mat, lnk, map, hlt, sec, hst, sys, outbox, freeCtr, s.pending⟩ := by
  refine h.step rfl (fun i => ?_) (fun k hk => ?_)
  · obtain ⟨h1, h2, h3, h4, h5⟩ := i
    exact ⟨hl ▸ h1, hsg ▸ h2, hr ▸ h3, hfl ▸ h4, hfs ▸ h5⟩
  · cases k
    case now => exact k_now.resolve_left hk
    case live => exact hl
    case staged => exact hsg
    case run => exact hr
    case pend => exact k_pend.resolve_left hk
    case parity => exact k_parity.resolve_left hk
    case written => exact k_written.resolve_left hk
    case time => exact k_time.resolve_left hk
    case pgw => exact k_pgw.resolve_left hk
    case sch => exact k_sch.resolve_left hk
    case que => exact k_que.resolve_left hk
    case vsp => exact k_vsp.resolve_left hk
    case mem => exact k_mem.resolve_left hk
    case prog => exact k_prog.resolve_left hk
    case mat => exact k_mat.resolve_left hk
    case lnk => exact k_lnk.resolve_left hk
    case map => exact k_map.resolve_left hk
    case hlt => exact k_hlt.resolve_left hk
    case sec => exact k_sec.resolve_left hk
    case hst => exact k_hst.resolve_left hk
    case sys => exact k_sys.resolve_left hk
    case sum => exact k_sum.resolve_left hk
    case outbox => exact k_outbox.resolve_left hk
    case freeCtr => exact k_freeCtr.resolve_left hk

/-- A state built from s with some parts changed and flat memory emptied. -/
theorem keeps_mk_empty {s : State} {now : Nat} {regs : RegFile} {time : TimeSt} {pgw : PgwSt} {sch : SchSt} {que : QueSt} {vsp : VspSt} {mem : MemSt} {prog : ProgSt} {mat : MatSt} {lnk : LnkSt} {map : MapSt} {hlt : HltSt} {sec : SecSt} {hst : HstSt} {sys : SysSt} {outbox : List OutMsg} {freeCtr : Nat}
    (hl : regs.live = s.regs.live := by with_reducible rfl) (hsg : regs.staged = s.regs.staged := by with_reducible rfl) (hr : regs.run = s.regs.run := by with_reducible rfl)
    (hfl : mem.flat = [] := by with_unfolding_all rfl) (hfs : sys.flash = s.sys.flash := by with_reducible rfl)
    (k_now : Blk.now ∈ m ∨ now = s.now := by first | exact Or.inr (by with_reducible rfl) | exact Or.inl (within_mem rfl ‹_›))
    (k_time : Blk.time ∈ m ∨ time = s.time := by first | exact Or.inr (by with_reducible rfl) | exact Or.inl (within_mem rfl ‹_›))
    (k_pgw : Blk.pgw ∈ m ∨ pgw = s.pgw := by first | exact Or.inr (by with_reducible rfl) | exact Or.inl (within_mem rfl ‹_›))
    (k_sch : Blk.sch ∈ m ∨ sch = s.sch := by first | exact Or.inr (by with_reducible rfl) | exact Or.inl (within_mem rfl ‹_›))
    (k_que : Blk.que ∈ m ∨ que = s.que := by first | exact Or.inr (by with_reducible rfl) | exact Or.inl (within_mem rfl ‹_›))
    (k_vsp : Blk.vsp ∈ m ∨ vsp = s.vsp := by first | exact Or.inr (by with_reducible rfl) | exact Or.inl (within_mem rfl ‹_›))
    (k_mem : Blk.mem ∈ m ∨ mem = s.mem := by first | exact Or.inr (by with_reducible rfl) | exact Or.inl (within_mem rfl ‹_›))
    (k_prog : Blk.prog ∈ m ∨ prog = s.prog := by first | exact Or.inr (by with_reducible rfl) | exact Or.inl (within_mem rfl ‹_›))
    (k_mat : Blk.mat ∈ m ∨ mat = s.mat := by first | exact Or.inr (by with_reducible rfl) | exact Or.inl (within_mem rfl ‹_›))
    (k_lnk : Blk.lnk ∈ m ∨ lnk = s.lnk := by first | exact Or.inr (by with_reducible rfl) | exact Or.inl (within_mem rfl ‹_›))
    (k_map : Blk.map ∈ m ∨ map = s.map := by first | exact Or.inr (by with_reducible rfl) | exact Or.inl (within_mem rfl ‹_›))
    (k_hlt : Blk.hlt ∈ m ∨ hlt = s.hlt := by first | exact Or.inr (by with_reducible rfl) | exact Or.inl (within_mem rfl ‹_›))
    (k_sec : Blk.sec ∈ m ∨ sec = s.sec := by first | exact Or.inr (by with_reducible rfl) | exact Or.inl (within_mem rfl ‹_›))
    (k_hst : Blk.hst ∈ m ∨ hst = s.hst := by first | exact Or.inr (by with_reducible rfl) | exact Or.inl (within_mem rfl ‹_›))
    (k_outbox : Blk.outbox ∈ m ∨ outbox = s.outbox := by first | exact Or.inr (by with_reducible rfl) | exact Or.inl (within_mem rfl ‹_›))
    (k_freeCtr : Blk.freeCtr ∈ m ∨ freeCtr = s.freeCtr := by first | exact Or.inr (by with_reducible rfl) | exact Or.inl (within_mem rfl ‹_›))
    (k_pend : Blk.pend ∈ m ∨ regs.pend = s.regs.pend := by first | exact Or.inr (by with_reducible rfl) | exact Or.inl (within_mem rfl ‹_›))
    (k_parity : Blk.parity ∈ m ∨ regs.badParity = s.regs.badParity := by first | exact Or.inr (by with_reducible rfl) | exact Or.inl (within_mem rfl ‹_›))
    (k_written : Blk.written ∈ m ∨ regs.written = s.regs.written := by first | exact Or.inr (by with_reducible rfl) | exact Or.inl (within_mem rfl ‹_›))
    (k_sys : Blk.sys ∈ m ∨ { sys with sumMsg := s.sys.sumMsg, sumOwed := s.sys.sumOwed } = s.sys := by first | exact Or.inr (by with_reducible rfl) | exact Or.inl (within_mem rfl ‹_›))
    (k_sum : Blk.sum ∈ m ∨ (sys.sumMsg = s.sys.sumMsg ∧ sys.sumOwed = s.sys.sumOwed) := by first | exact Or.inr ⟨by with_reducible rfl, by with_reducible rfl⟩ | exact Or.inl (within_mem rfl ‹_›))
    (h : Keeps m z s) : Keeps m z ⟨now, regs, time, pgw, sch, que, vsp, mem, prog, mat, lnk, map, hlt, sec, hst, sys, outbox, freeCtr, s.pending⟩ := by
  refine h.step rfl (fun i => ?_) (fun k hk => ?_)
  · obtain ⟨h1, h2, h3, h4, h5⟩ := i
    exact ⟨hl ▸ h1, hsg ▸ h2, hr ▸ h3, hfl ▸ rfl, hfs ▸ h5⟩
  · cases k
    case now => exact k_now.resolve_left hk
    case live => exact hl
    case staged => exact hsg
    case run => exact hr
    case pend => exact k_pend.resolve_left hk
    case parity => exact k_parity.resolve_left hk
    case written => exact k_written.resolve_left hk
    case time => exact k_time.resolve_left hk
    case pgw => exact k_pgw.resolve_left hk
    case sch => exact k_sch.resolve_left hk
    case que => exact k_que.resolve_left hk
    case vsp => exact k_vsp.resolve_left hk
    case mem => exact k_mem.resolve_left hk
    case prog => exact k_prog.resolve_left hk
    case mat => exact k_mat.resolve_left hk
    case lnk => exact k_lnk.resolve_left hk
    case map => exact k_map.resolve_left hk
    case hlt => exact k_hlt.resolve_left hk
    case sec => exact k_sec.resolve_left hk
    case hst => exact k_hst.resolve_left hk
    case sys => exact k_sys.resolve_left hk
    case sum => exact k_sum.resolve_left hk
    case outbox => exact k_outbox.resolve_left hk
    case freeCtr => exact k_freeCtr.resolve_left hk

/-- Cut: what is shown may be used. -/
theorem keeps_cut {p r : Prop} (hp : p) (h : p → r) : r := h hp

theorem keeps_foldl {α : Type} {f : State → α → State} {l : List α} {s : State} (hf : ∀ s a, Keeps m z s → Keeps m z (f s a))
    (h : Keeps m z s) : Keeps m z (l.foldl f s) := by
  induction l generalizing s with
  | nil => exact h
  | cons a l ih => exact ih (hf s a h)

theorem keeps_foldl_fst {α β : Type} {f : State × β → α → State × β} {l : List α} {p : State × β}
    (hf : ∀ p a, Keeps m z p.1 → Keeps m z (f p a).1) (h : Keeps m z p.1) : Keeps m z (l.foldl f p).1 := by
  induction l generalizing p with
  | nil => exact h
  | cons a l ih => exact ih (hf p a h)

theorem keeps_foldl_snd {α β : Type} {f : β × State → α → β × State} {l : List α} {p : β × State}
    (hf : ∀ p a, Keeps m z p.2 → Keeps m z (f p a).2) (h : Keeps m z p.2) : Keeps m z (l.foldl f p).2 := by
  induction l generalizing p with
  | nil => exact h
  | cons a l ih => exact ih (hf p a h)

theorem keeps_of_some {o : Option State} {t : State} (e : o = some t) (h : KeepsO m z o) : Keeps m z t := h.some t e
theorem keeps_of_somep {α : Type} {o : Option (State × α)} {p : State × α} (e : o = some p) (h : KeepsP m z o) : Keeps m z p.1 := h.some p e
theorem keeps_of_somepair {α : Type} {o : Option (State × α)} {t : State} {a : α} (e : o = some (t, a)) (h : KeepsP m z o) : Keeps m z t := h.some (t, a) e
theorem keeps_getD {o : Option State} {s : State} (h : KeepsO m z o) (hs : Keeps m z s) : Keeps m z (o.getD s) := by
  cases o with
  | none => exact hs
  | some t => exact h.some t rfl
theorem keepsO_map {α : Type} {o : Option α} {f : α → State} (h : ∀ a, Keeps m z (f a)) : KeepsO m z (o.map f) := ⟨fun _ e => by
  cases o with
  | none => cases e
  | some a => cases e; exact h a⟩
theorem keepsO_map_keeps {o : Option State} {f : State → State} (hf : ∀ t, Keeps m z t → Keeps m z (f t)) (h : KeepsO m z o) : KeepsO m z (o.map f) := ⟨fun _ e => by
  cases o with
  | none => cases e
  | some t => cases e; exact hf t (h.some t rfl)⟩
theorem keeps_ite {c : Prop} [Decidable c] {s t : State} (h : Keeps m z s) (g : Keeps m z t) : Keeps m z (if c then s else t) := by
  split
  · exact h
  · exact g
theorem keeps_unsome {s : State} (h : KeepsO m z (some s)) : Keeps m z s := h.some s rfl
theorem keepsO_foldl {α : Type} {f : Option State → α → Option State} {l : List α} {o : Option State}
    (hf : ∀ o a, KeepsO m z o → KeepsO m z (f o a)) (h : KeepsO m z o) : KeepsO m z (l.foldl f o) := by
  induction l generalizing o with
  | nil => exact h
  | cons a l ih => exact ih (hf o a h)
theorem keeps_id {s : State} (h : Keeps m z s) : Keeps m z (id s) := h
theorem keepsV_accept {s : State} (h : Keeps m z s) : KeepsV m z (.accept s) := ⟨fun _ e => (Verdict.accept.inj e) ▸ h, fun _ h => (nomatch h)⟩
theorem keepsV_done {s : State} (h : Keeps m z s) : KeepsV m z (.done s) := ⟨fun _ h => (nomatch h), fun _ e => (Verdict.done.inj e) ▸ h⟩
theorem keeps_of_accept {v : Verdict} {t : State} (e : v = .accept t) (h : KeepsV m z v) : Keeps m z t := h.accept t e
theorem keeps_of_done {v : Verdict} {t : State} (e : v = .done t) (h : KeepsV m z v) : Keeps m z t := h.done t e
theorem keeps_of_error {o : Except State State} {t : State} (e : o = .error t) (h : KeepsE m z o) : Keeps m z t := h.error t e
theorem keeps_of_ok {o : Except State State} {t : State} (e : o = .ok t) (h : KeepsE m z o) : Keeps m z t := h.ok t e
theorem keeps_of_fail {α : Type} {o : Except State α} {t : State} (e : o = .error t) (h : KeepsF m z o) : Keeps m z t := h.error t e
theorem keeps_of_failq {α : Type} {o : Except State (α × State)} {t : State} (e : o = .error t) (h : KeepsQ m z o) : Keeps m z t := h.error t e
theorem keeps_of_okq {α : Type} {o : Except State (α × State)} {a : α} {t : State} (e : o = .ok (a, t)) (h : KeepsQ m z o) : Keeps m z t := h.ok a t e
theorem keeps_of_fst {α : Type} {p : State × α} {t : State} {a : α} (e : p = (t, a)) (h : Keeps m z p.1) : Keeps m z t := by subst e; exact h
theorem keeps_of_snd {α : Type} {p : α × State} {t : State} {a : α} (e : p = (a, t)) (h : Keeps m z p.2) : Keeps m z t := by subst e; exact h
theorem keeps_eq {s t : State} (e : s = t) (h : Keeps m z s) : Keeps m z t := e ▸ h

theorem keepsO_none : KeepsO m z none := ⟨fun _ h => nomatch h⟩
theorem keepsO_some {s : State} (h : Keeps m z s) : KeepsO m z (some s) := ⟨fun _ e => (Option.some.inj e) ▸ h⟩
theorem keepsO_map_fst {α : Type} {o : Option (State × α)} (h : KeepsP m z o) : KeepsO m z (o.map Prod.fst) := ⟨fun _ e => by
  cases o with
  | none => cases e
  | some p => cases e; exact h.some p rfl⟩
theorem keepsP_none {α : Type} : KeepsP (α := α) m z none := ⟨fun _ h => nomatch h⟩
theorem keepsP_some {α : Type} {p : State × α} (h : Keeps m z p.1) : KeepsP m z (some p) := ⟨fun _ e => (Option.some.inj e) ▸ h⟩
theorem keepsE_error {s : State} (h : Keeps m z s) : KeepsE m z (.error s) := ⟨fun _ e => (Except.error.inj e) ▸ h, fun _ h => (nomatch h)⟩
theorem keepsE_ok {s : State} (h : Keeps m z s) : KeepsE m z (.ok s) := ⟨fun _ h => (nomatch h), fun _ e => (Except.ok.inj e) ▸ h⟩
theorem keepsF_error {α : Type} {s : State} (h : Keeps m z s) : KeepsF (α := α) m z (.error s) := ⟨fun _ e => (Except.error.inj e) ▸ h⟩
theorem keepsF_ok {α : Type} {a : α} : KeepsF m z (.ok a) := ⟨fun _ h => nomatch h⟩
theorem keepsQ_error {α : Type} {s : State} (h : Keeps m z s) : KeepsQ (α := α) m z (.error s) :=
  ⟨fun _ e => (Except.error.inj e) ▸ h, fun _ _ h => (nomatch h)⟩
theorem keepsQ_ok {α : Type} {a : α} {s : State} (h : Keeps m z s) : KeepsQ m z (.ok (a, s)) :=
  ⟨fun _ h => (nomatch h), fun _ _ e => (Prod.mk.inj (Except.ok.inj e)).2 ▸ h⟩
theorem keepsN_next {s : State} (h : Keeps m z s) : KeepsN m z (.next s) := ⟨fun _ e => (Host.Outcome.next.inj e) ▸ h⟩
theorem keepsN_fault {f : Fault} : KeepsN m z (.fault f) := ⟨fun _ h => nomatch h⟩
theorem keepsN_refused {r : Refusal} : KeepsN m z (.refused r) := ⟨fun _ h => nomatch h⟩


/-- A register write keeps the rest. -/
theorem State.setLive_keeps (hm : Within [.live] m) {s : State} (a v : Nat) (h : Keeps m z s) : Keeps m z (s.setLive a v) :=
  h.step rfl (fun i => ⟨regsCanonical_regSet a v i.1, i.2⟩) (fun k hk => by
    cases k
    case live => exact absurd (within_mem rfl hm) hk
    case sum => exact ⟨rfl, rfl⟩
    all_goals rfl)

theorem State.setStaged_keeps (hm : Within [.staged] m) {s : State} (a v : Nat) (h : Keeps m z s) : Keeps m z (s.setStaged a v) :=
  h.step rfl (fun i => ⟨i.1, regsCanonical_regSet a v i.2.1, i.2.2⟩) (fun k hk => by
    cases k
    case staged => exact absurd (within_mem rfl hm) hk
    case sum => exact ⟨rfl, rfl⟩
    all_goals rfl)

theorem State.bump_keeps (hm : Within [.run] m) {s : State} (a n : Nat) (h : Keeps m z s) : Keeps m z (s.bump a n) :=
  h.step rfl (fun i => ⟨i.1, i.2.1, countsCanonical_spSet a _ i.2.2.1, i.2.2.2⟩) (fun k hk => by
    cases k
    case run => exact absurd (within_mem rfl hm) hk
    case sum => exact ⟨rfl, rfl⟩
    all_goals rfl)

theorem State.bumpMax_keeps (hm : Within [.run] m) {s : State} (a n : Nat) (h : Keeps m z s) : Keeps m z (s.bumpMax a n) :=
  h.step rfl (fun i => ⟨i.1, i.2.1, countsCanonical_spSet a _ i.2.2.1, i.2.2.2⟩) (fun k hk => by
    cases k
    case run => exact absurd (within_mem rfl hm) hk
    case sum => exact ⟨rfl, rfl⟩
    all_goals rfl)

/-- A write of one byte of flat memory keeps the rest. -/
theorem State.poke_keeps (hm : Within [.mem] m) {s : State} (a : Nat) (v : Byte) (h : Keeps m z s) : Keeps m z (s.poke a v) :=
  h.step rfl (fun i => ⟨i.1, i.2.1, i.2.2.1, memory_wf_spSet a v i.2.2.2.1, i.2.2.2.2⟩) (fun k hk => by
    cases k
    case mem => exact absurd (within_mem rfl hm) hk
    case sum => exact ⟨rfl, rfl⟩
    all_goals rfl)

/-- A byte of the bridge buffer is a byte. -/
theorem State.flashByte_lt (s : State) (i : Nat) : s.flashByte i < 256 := by
  have e : 8 * (i % 4) + 7 + 1 - 8 * (i % 4) = 8 := by omega
  unfold State.flashByte bitsOf
  rw [e]
  exact Nat.mod_lt _ (by decide)

/-- A change of the flash alone keeps the rest. -/
theorem keeps_flash (hm : Within [.sys] m) {s : State} {f : List (Nat × Nat)} (hf : flashCanonical s.sys.flash = true → flashCanonical f = true) (h : Keeps m z s) :
    Keeps m z { s with sys := { s.sys with flash := f } } :=
  h.step rfl (fun i => ⟨i.1, i.2.1, i.2.2.1, i.2.2.2.1, hf i.2.2.2.2⟩) (fun k hk => by
    cases k
    case sys => exact absurd (within_mem rfl hm) hk
    case sum => exact ⟨rfl, rfl⟩
    all_goals rfl)

/-- A command completes: what it answers, what keeps it within its parts, and the property. -/
theorem completes_of {i : Instr} {s t : State} {m : List Blk} {p : State → Prop} (he : exec i s = .next t) (hk : KeepsN m s (exec i s)) (hp : p t) :
    Completes i s m p := ⟨t, he, (hk.next t he).same, (hk.next t he).queue, hp⟩

/-- A command completes, its answer built from the present state with only some parts changed. -/
theorem completes_keeps {i : Instr} {s t : State} {m : List Blk} {p : State → Prop} (he : exec i s = .next t) (hk : Keeps m s t) (hp : p t) :
    Completes i s m p := ⟨t, he, hk.same, hk.queue, hp⟩

end Sys2Proof.Machine
end

