-- ==== Sys2Proof/Laws/Keeps/Base.lean ====
section
/-!
SUPPORT. What the operations of Machine/Ops, Flags, LinkOps, Layout, Walk, VspOps, Bursts, QueOps, Keys keep: the parts of the state outside the list each lemma names, the queue, and the invariant.
-/

namespace Sys2Proof.Machine

open Sys2Proof

set_option Elab.async false

variable {m : List Blk} {z : State}

/-! ### Ops -/

theorem State.advanceTo_keeps (hm : Within [.now] m) {a0 : State} (a1 : ℕ) (h0 : Keeps m z a0) : Keeps m z (State.advanceTo a0 a1) := by
  unfold State.advanceTo
  with_reducible refine keeps_mk (h := ?_)
  with_reducible assumption

theorem State.setLive64_keeps (hm : Within [.live] m) {a0 : State} (a1 : ℕ) (a2 : ℕ) (h0 : Keeps m z a0) : Keeps m z (State.setLive64 a0 a1 a2) := by
  unfold State.setLive64
  apply State.setLive_keeps (hm.sub rfl)
  apply State.setLive_keeps (hm.sub rfl)
  with_reducible assumption

theorem State.putStatus_keeps (hm : Within [.live] m) {a0 : State} (a1 : ℕ) (a2 : ℕ) (h0 : Keeps m z a0) : Keeps m z (State.putStatus a0 a1 a2) := by
  unfold State.putStatus
  lift_lets
  (intro x; clear_value x)
  split
  with_reducible assumption
  apply State.setLive_keeps (hm.sub rfl)
  with_reducible assumption

theorem State.setStatus_keeps (hm : Within [.live] m) {a0 : State} (a1 : ℕ) (a2 : ℕ) (a3 : ℕ) (a4 : ℕ) (h0 : Keeps m z a0) : Keeps m z (State.setStatus a0 a1 a2 a3 a4) := by
  unfold State.setStatus
  apply State.putStatus_keeps (hm.sub rfl)
  with_reducible assumption

theorem State.touch_keeps (hm : Within [.live] m) {a0 : State} (a1 : ℕ) (a2 : ℕ) (h0 : Keeps m z a0) : Keeps m z (State.touch a0 a1 a2) := by
  unfold State.touch
  apply State.setLive_keeps (hm.sub rfl)
  with_reducible assumption

theorem State.emit_keeps (hm : Within [.outbox] m) {a0 : State} (a1 : OutMsg) (h0 : Keeps m z a0) : Keeps m z (State.emit a0 a1) := by
  unfold State.emit
  with_reducible refine keeps_mk (h := ?_)
  with_reducible assumption

theorem State.fresh_keeps (hm : Within [.freeCtr] m) {a0 : State} (h0 : Keeps m z a0) : Keeps m z (State.fresh a0).2 := by
  unfold State.fresh
  dsimp only
  with_reducible refine keeps_mk (h := ?_)
  with_reducible assumption

theorem State.hostPut_keeps (hm : Within [.hst, .outbox] m) {a0 : State} (a1 : HostPkt) (h0 : Keeps m z a0) : Keeps m z (State.hostPut a0 a1) := by
  unfold State.hostPut
  lift_lets
  (intro (x : HstSt); subst x)
  iterate 3 (intro x; clear_value x)
  apply State.emit_keeps (hm.sub rfl)
  with_reducible refine keeps_mk (h := ?_)
  with_reducible assumption

theorem hostPump_keeps (hm : Within [.hst, .outbox] m) (a0 : List HostPkt) (a1 : Bool) (a2 : Bool) {a3 : State} (h3 : Keeps m z a3) : Keeps m z (hostPump a0 a1 a2 a3) := by
  induction a0 generalizing a1 a2 a3 with
  | nil =>
    unfold hostPump
    with_reducible assumption
  | cons x t ih =>
    unfold hostPump
    lift_lets
    (intro x; clear_value x)
    (intro (x : HstSt); subst x)
    split
    with_reducible apply ih
    apply State.hostPut_keeps (hm.sub rfl)
    with_reducible assumption
    with_reducible apply ih
    with_reducible refine keeps_mk (h := ?_)
    with_reducible assumption

theorem State.hostFlush_keeps (hm : Within [.hst, .outbox] m) {a0 : State} (h0 : Keeps m z a0) : Keeps m z (State.hostFlush a0) := by
  unfold State.hostFlush
  apply hostPump_keeps (hm.sub rfl)
  with_reducible refine keeps_mk (h := ?_)
  with_reducible assumption

theorem State.hostSend_keeps (hm : Within [.hst, .outbox] m) {a0 : State} (a1 : HostPkt) (h0 : Keeps m z a0) : Keeps m z (State.hostSend a0 a1) := by
  unfold State.hostSend
  apply State.hostFlush_keeps (hm.sub rfl)
  with_reducible refine keeps_mk (h := ?_)
  with_reducible assumption

theorem State.hostWrite_keeps (hm : Within [.hst, .outbox] m) {a0 : State} (a1 : ℕ) (a2 : ℕ) (a3 : List Byte) (h0 : Keeps m z a0) : Keeps m z (State.hostWrite a0 a1 a2 a3) := by
  unfold State.hostWrite
  split
  with_reducible assumption
  (with_reducible refine keeps_foldl_fst (fun s a hs => ?_) ?_)
  dsimp only
  apply State.hostSend_keeps (hm.sub rfl)
  with_reducible assumption
  with_reducible assumption

theorem State.hostCpl_keeps (hm : Within [.hst, .outbox] m) {a0 : State} (a1 : ℕ) (a2 : ℕ) (a3 : ℕ) (a4 : List Byte) (h0 : Keeps m z a0) : Keeps m z (State.hostCpl a0 a1 a2 a3 a4) := by
  unfold State.hostCpl
  split
  apply State.hostSend_keeps (hm.sub rfl)
  with_reducible assumption
  (with_reducible refine keeps_foldl_fst (fun s a hs => ?_) ?_)
  lift_lets
  (intro x; clear_value x)
  dsimp only
  apply State.hostSend_keeps (hm.sub rfl)
  with_reducible assumption
  with_reducible assumption

theorem State.hostMsg_keeps (hm : Within [.hst, .outbox] m) {a0 : State} (a1 : ℕ) (a2 : ℕ) (h0 : Keeps m z a0) : Keeps m z (State.hostMsg a0 a1 a2) := by
  unfold State.hostMsg
  apply State.hostSend_keeps (hm.sub rfl)
  with_reducible assumption

theorem State.hostIssue_keeps (hm : Within [.hst, .outbox] m) {a0 : State} (a1 : ℕ) (a2 : ℕ) (a3 : ℕ) (a4 : HostRead) (h0 : Keeps m z a0) : KeepsO m z (State.hostIssue a0 a1 a2 a3 a4) := by
  unfold State.hostIssue
  split
  with_reducible apply keepsO_none
  lift_lets
  iterate 2 (intro x; clear_value x)
  (intro (x : HstSt); subst x)
  with_reducible apply keepsO_some
  apply State.hostSend_keeps (hm.sub rfl)
  with_reducible refine keeps_mk (h := ?_)
  with_reducible assumption

theorem State.hostRead_keeps (hm : Within [.hst, .outbox] m) {a0 : State} (a1 : ℕ) (a2 : ℕ) (a3 : ℕ) (a4 : HostRead) (h0 : Keeps m z a0) : KeepsO m z (State.hostRead a0 a1 a2 a3 a4) := by
  unfold State.hostRead
  split
  with_reducible apply keepsO_none
  apply State.hostIssue_keeps (hm.sub rfl)
  with_reducible assumption

theorem State.sendSummary_keeps (hm : Within [.hst, .outbox] m) {a0 : State} (a1 : ℕ) (h0 : Keeps m z a0) : Keeps m z (State.sendSummary a0 a1) := by
  unfold State.sendSummary
  lift_lets
  (intro x; clear_value x)
  (intro x; refine keeps_cut (p := Keeps m z x) ?_ (fun hx => ?_); (on_goal 2 => clear_value x); (on_goal 1 => subst x))
  split
  apply State.hostMsg_keeps (hm.sub rfl)
  with_reducible assumption
  with_reducible assumption
  split
  apply State.emit_keeps (hm.sub rfl)
  with_reducible assumption
  with_reducible assumption

theorem State.summaryRise_keeps (hm : Within [.hst, .sum, .outbox] m) {a0 : State} (a1 : ℕ) (h0 : Keeps m z a0) : Keeps m z (State.summaryRise a0 a1) := by
  unfold State.summaryRise
  split
  with_reducible assumption
  split
  with_reducible refine keeps_mk (h := ?_)
  with_reducible assumption
  apply State.sendSummary_keeps (hm.sub rfl)
  with_reducible refine keeps_mk (h := ?_)
  with_reducible assumption

theorem State.raise_keeps (hm : Within [.live, .hst, .sum, .outbox] m) {a0 : State} (a1 : ℕ) (a2 : ℕ) (h0 : Keeps m z a0) : Keeps m z (State.raise a0 a1 a2) := by
  unfold State.raise
  lift_lets
  iterate 2 (intro x; clear_value x)
  (intro x; refine keeps_cut (p := Keeps m z x) ?_ (fun hx => ?_); (on_goal 2 => clear_value x); (on_goal 1 => subst x))
  apply State.setLive_keeps (hm.sub rfl)
  with_reducible assumption
  split
  with_reducible assumption
  apply State.summaryRise_keeps (hm.sub rfl)
  with_reducible assumption

theorem State.raiseBit_keeps (hm : Within [.live, .hst, .sum, .outbox] m) {a0 : State} (a1 : ℕ) (a2 : ℕ) (h0 : Keeps m z a0) : Keeps m z (State.raiseBit a0 a1 a2) := by
  unfold State.raiseBit
  apply State.raise_keeps (hm.sub rfl)
  with_reducible assumption

theorem State.clearEvents_keeps (hm : Within [.live] m) {a0 : State} (a1 : ℕ) (a2 : ℕ) (h0 : Keeps m z a0) : Keeps m z (State.clearEvents a0 a1 a2) := by
  unfold State.clearEvents
  lift_lets
  (intro x; clear_value x)
  split
  apply State.setLive_keeps (hm.sub rfl)
  with_reducible assumption
  with_reducible assumption

theorem State.makeLive_keeps (hm : Within [.live] m) {a0 : State} (a1 : PendVal) (h0 : Keeps m z a0) : Keeps m z (State.makeLive a0 a1) := by
  unfold State.makeLive
  lift_lets
  (intro x; clear_value x)
  apply State.setLive_keeps (hm.sub rfl)
  with_reducible assumption

theorem State.applyPending_keeps (hm : Within [.live, .pend, .parity] m) {a0 : State} (a1 : PendVal → Bool) (h0 : Keeps m z a0) : Keeps m z (State.applyPending a0 a1) := by
  unfold State.applyPending
  lift_lets
  iterate 2 (intro x; clear_value x)
  (intro (x : RegFile); subst x)
  (intro x; refine keeps_cut (p := Keeps m z x) ?_ (fun hx => ?_); (on_goal 2 => clear_value x); (on_goal 1 => subst x))
  with_reducible refine keeps_mk (h := ?_)
  with_reducible assumption
  (with_reducible refine keeps_foldl (fun s a hs => ?_) ?_)
  apply State.makeLive_keeps (hm.sub rfl)
  with_reducible assumption
  with_reducible assumption

/-! ### Flags -/

theorem State.setScore_keeps (hm : Within [.hlt] m) {a0 : State} (a1 : ℕ) (a2 : Score) (h0 : Keeps m z a0) : Keeps m z (State.setScore a0 a1 a2) := by
  unfold State.setScore
  with_reducible refine keeps_mk (h := ?_)
  with_reducible assumption

theorem State.addPoints_keeps (hm : Within [.live, .hlt, .hst, .sum, .outbox] m) {a0 : State} (a1 : ℕ) (a2 : ℕ) (h0 : Keeps m z a0) : Keeps m z (State.addPoints a0 a1 a2) := by
  unfold State.addPoints
  lift_lets
  iterate 6 (intro x; clear_value x)
  (intro x; refine keeps_cut (p := Keeps m z x) ?_ (fun hx => ?_); (on_goal 2 => clear_value x); (on_goal 1 => subst x))
  apply State.setScore_keeps (hm.sub rfl)
  with_reducible assumption
  split
  apply State.raiseBit_keeps (hm.sub rfl)
  with_reducible assumption
  with_reducible assumption

/-! ### LinkOps -/

theorem State.setLink_keeps (hm : Within [.lnk] m) {a0 : State} (a1 : ℕ) (a2 : Link) (h0 : Keeps m z a0) : Keeps m z (State.setLink a0 a1 a2) := by
  unfold State.setLink
  with_reducible refine keeps_mk (h := ?_)
  with_reducible assumption

theorem State.refreshLnkStatus_keeps (hm : Within [.live] m) {a0 : State} (h0 : Keeps m z a0) : Keeps m z (State.refreshLnkStatus a0) := by
  unfold State.refreshLnkStatus
  apply State.putStatus_keeps (hm.sub rfl)
  with_reducible assumption

theorem State.requeue_keeps (hm : Within [.lnk] m) {a0 : State} (a1 : ℕ) (a2 : List (Bool × Packet)) (h0 : Keeps m z a0) : Keeps m z (State.requeue a0 a1 a2) := by
  unfold State.requeue
  lift_lets
  (intro x; clear_value x)
  apply State.setLink_keeps (hm.sub rfl)
  with_reducible assumption

theorem State.moveTraffic_keeps (hm : Within [.lnk] m) {a0 : State} (a1 : ℕ) (a2 : ℕ) (h0 : Keeps m z a0) : Keeps m z (State.moveTraffic a0 a1 a2) := by
  unfold State.moveTraffic
  lift_lets
  iterate 4 (intro x; clear_value x)
  (intro x; refine keeps_cut (p := Keeps m z x) ?_ (fun hx => ?_); (on_goal 2 => clear_value x); (on_goal 1 => subst x))
  apply State.setLink_keeps (hm.sub rfl)
  with_reducible assumption
  (intro x; clear_value x)
  (intro (x : LnkSt); subst x)
  split
  apply State.requeue_keeps (hm.sub rfl)
  with_reducible assumption
  with_reducible refine keeps_mk (h := ?_)
  with_reducible assumption

theorem State.leaveUp_keeps (hm : Within [.live, .run, .lnk, .hlt, .hst, .sum, .outbox] m) {a0 : State} (a1 : ℕ) (a2 : ℕ) (h0 : Keeps m z a0) : Keeps m z (State.leaveUp a0 a1 a2) := by
  unfold State.leaveUp
  lift_lets
  (intro x; refine keeps_cut (p := Keeps m z x) ?_ (fun hx => ?_); (on_goal 2 => clear_value x); (on_goal 1 => subst x))
  split
  apply State.raiseBit_keeps (hm.sub rfl)
  with_reducible assumption
  with_reducible assumption
  (intro x; refine keeps_cut (p := Keeps m z x) ?_ (fun hx => ?_); (on_goal 2 => clear_value x); (on_goal 1 => subst x))
  split
  apply State.addPoints_keeps (hm.sub rfl)
  apply State.bump_keeps (hm.sub rfl)
  apply State.raiseBit_keeps (hm.sub rfl)
  with_reducible assumption
  with_reducible assumption
  (intro x; refine keeps_cut (p := Keeps m z x) ?_ (fun hx => ?_); (on_goal 2 => clear_value x); (on_goal 1 => subst x))
  apply State.moveTraffic_keeps (hm.sub rfl)
  with_reducible assumption
  split
  with_reducible assumption
  apply State.raiseBit_keeps (hm.sub rfl)
  with_reducible assumption

theorem State.setLinkState_keeps (hm : Within [.live, .run, .pend, .parity, .lnk, .hlt, .hst, .sum, .outbox] m) {a0 : State} (a1 : ℕ) (a2 : ℕ) (h0 : Keeps m z a0) : Keeps m z (State.setLinkState a0 a1 a2) := by
  unfold State.setLinkState
  lift_lets
  iterate 2 (intro x; clear_value x)
  (intro x; refine keeps_cut (p := Keeps m z x) ?_ (fun hx => ?_); (on_goal 2 => clear_value x); (on_goal 1 => subst x))
  apply State.setLink_keeps (hm.sub rfl)
  with_reducible assumption
  (intro x; refine keeps_cut (p := Keeps m z x) ?_ (fun hx => ?_); (on_goal 2 => clear_value x); (on_goal 1 => subst x))
  split
  apply State.leaveUp_keeps (hm.sub rfl)
  with_reducible assumption
  split
  apply State.moveTraffic_keeps (hm.sub rfl)
  with_reducible assumption
  with_reducible assumption
  (intro x; refine keeps_cut (p := Keeps m z x) ?_ (fun hx => ?_); (on_goal 2 => clear_value x); (on_goal 1 => subst x))
  split
  apply State.applyPending_keeps (hm.sub rfl)
  with_reducible assumption
  with_reducible assumption
  iterate 2 (intro x; clear_value x)
  (intro x; refine keeps_cut (p := Keeps m z x) ?_ (fun hx => ?_); (on_goal 2 => clear_value x); (on_goal 1 => subst x))
  split
  apply State.setLink_keeps (hm.sub rfl)
  with_reducible assumption
  with_reducible assumption
  apply State.refreshLnkStatus_keeps (hm.sub rfl)
  with_reducible assumption

theorem State.enqueue_keeps (hm : Within [.lnk] m) {a0 : State} (a1 : ℕ) (a2 : Bool) (a3 : Packet) (h0 : Keeps m z a0) : Keeps m z (State.enqueue a0 a1 a2 a3) := by
  unfold State.enqueue
  lift_lets
  (intro x; clear_value x)
  apply State.setLink_keeps (hm.sub rfl)
  with_reducible assumption

theorem State.unroutable_keeps (hm : Within [.live, .run, .hst, .sum, .outbox] m) {a0 : State} (h0 : Keeps m z a0) : Keeps m z (State.unroutable a0) := by
  unfold State.unroutable
  apply State.raiseBit_keeps (hm.sub rfl)
  apply State.bump_keeps (hm.sub rfl)
  with_reducible assumption

theorem State.routeOut_keeps (hm : Within [.live, .run, .lnk, .hst, .sum, .outbox] m) {a0 : State} (a1 : Option ℕ) (a2 : Hop × Packet) (h0 : Keeps m z a0) : Keeps m z (State.routeOut a0 a1 a2) := by
  unfold State.routeOut
  split
  split
  split
  apply State.enqueue_keeps (hm.sub rfl)
  with_reducible assumption
  with_reducible refine keeps_mk (h := ?_)
  with_reducible assumption
  apply State.unroutable_keeps (hm.sub rfl)
  with_reducible assumption
  split
  apply State.enqueue_keeps (hm.sub rfl)
  with_reducible assumption
  lift_lets
  (intro x; clear_value x)
  (intro (x : LnkSt); subst x)
  with_reducible refine keeps_mk (h := ?_)
  with_reducible assumption
  with_reducible assumption

theorem State.routePacket_keeps (hm : Within [.live, .run, .lnk, .hst, .sum, .outbox] m) {a0 : State} (a1 : Option ℕ) (a2 : Packet) (h0 : Keeps m z a0) : Keeps m z (State.routePacket a0 a1 a2) := by
  unfold State.routePacket
  split
  split
  with_reducible assumption
  with_reducible refine keeps_mk (h := ?_)
  with_reducible assumption
  apply State.unroutable_keeps (hm.sub rfl)
  with_reducible assumption
  split
  apply State.routeOut_keeps (hm.sub rfl)
  with_reducible assumption
  with_reducible assumption

theorem State.inject_keeps (hm : Within [.live, .run, .lnk, .hst, .sum, .outbox] m) {a0 : State} (a1 : ℕ) (a2 : ℕ) (a3 : Bool) (a4 : List Byte) (a5 : List Byte) (h0 : Keeps m z a0) : Keeps m z (State.inject a0 a1 a2 a3 a4 a5) := by
  unfold State.inject
  lift_lets
  iterate 4 (intro x; clear_value x)
  apply State.routePacket_keeps (hm.sub rfl)
  with_reducible assumption

theorem State.releaseHeld_keeps (hm : Within [.lnk] m) {a0 : State} (h0 : Keeps m z a0) : Keeps m z (State.releaseHeld a0) := by
  unfold State.releaseHeld
  lift_lets
  (intro x; clear_value x)
  (intro (x : LnkSt); subst x)
  (intro x; refine keeps_cut (p := Keeps m z x) ?_ (fun hx => ?_); (on_goal 2 => clear_value x); (on_goal 1 => subst x))
  with_reducible refine keeps_mk (h := ?_)
  with_reducible assumption
  (with_reducible refine keeps_foldl (fun s a hs => ?_) ?_)
  lift_lets
  iterate 3 (intro x; clear_value x)
  split
  apply State.enqueue_keeps (hm.sub rfl)
  with_reducible assumption
  with_reducible refine keeps_mk (h := ?_)
  with_reducible assumption
  with_reducible assumption

theorem State.beginSend_keeps (hm : Within [.freeCtr] m) {a0 : State} (a1 : Bool) (a2 : Packet) (h0 : Keeps m z a0) : Keeps m z (State.beginSend a0 a1 a2).2 := by
  unfold State.beginSend
  lift_lets
  (intro x; clear_value x)
  (intro x; refine keeps_cut (p := Keeps m z x.2) ?_ (fun hx => ?_); (on_goal 2 => clear_value x); (on_goal 1 => subst x))
  apply State.fresh_keeps (hm.sub rfl)
  with_reducible assumption
  (intro x; clear_value x)
  split
  with_reducible assumption
  with_reducible assumption

theorem State.takeAck_keeps (hm : Within [.lnk] m) {a0 : State} (a1 : ℕ) (a2 : ℕ) (h0 : Keeps m z a0) : Keeps m z (State.takeAck a0 a1 a2) := by
  unfold State.takeAck
  lift_lets
  iterate 2 (intro x; clear_value x)
  split
  with_reducible assumption
  apply State.setLink_keeps (hm.sub rfl)
  with_reducible assumption

theorem State.retrainLink_keeps (hm : Within [.live, .run, .pend, .parity, .lnk, .hlt, .hst, .sum, .outbox] m) {a0 : State} (a1 : ℕ) (h0 : Keeps m z a0) : Keeps m z (State.retrainLink a0 a1) := by
  unfold State.retrainLink
  apply State.setLinkState_keeps (hm.sub rfl)
  apply State.setLink_keeps (hm.sub rfl)
  with_reducible assumption

theorem State.replay_keeps (hm : Within [.live, .run, .pend, .parity, .lnk, .hlt, .hst, .sum, .outbox] m) {a0 : State} (a1 : ℕ) (h0 : Keeps m z a0) : Keeps m z (State.replay a0 a1) := by
  unfold State.replay
  lift_lets
  (intro x; clear_value x)
  split
  with_reducible assumption
  split
  apply State.retrainLink_keeps (hm.sub rfl)
  with_reducible assumption
  apply State.addPoints_keeps (hm.sub rfl)
  apply State.setLink_keeps (hm.sub rfl)
  with_reducible assumption

theorem State.replayStored_keeps (hm : Within [.live, .run, .pend, .parity, .lnk, .hlt, .hst, .sum, .outbox, .freeCtr] m) {a0 : State} (a1 : ℕ) (h0 : Keeps m z a0) : Keeps m z (State.replayStored a0 a1) := by
  unfold State.replayStored
  lift_lets
  (intro x; clear_value x)
  (intro x; refine keeps_cut (p := Keeps m z x) ?_ (fun hx => ?_); (on_goal 2 => clear_value x); (on_goal 1 => subst x))
  apply State.bump_keeps (hm.sub rfl)
  with_reducible assumption
  (intro x; refine keeps_cut (p := Keeps m z x.2) ?_ (fun hx => ?_); (on_goal 2 => clear_value x); (on_goal 1 => subst x))
  apply State.fresh_keeps (hm.sub rfl)
  with_reducible assumption
  split
  with_reducible assumption
  split
  apply State.retrainLink_keeps (hm.sub rfl)
  with_reducible assumption
  apply State.replay_keeps (hm.sub rfl)
  apply State.setLink_keeps (hm.sub rfl)
  with_reducible assumption

theorem State.takeHeader_keeps (hm : Within [.live, .run, .pend, .parity, .lnk, .hlt, .hst, .sum, .outbox, .freeCtr] m) {a0 : State} (a1 : ℕ) (a2 : Frame) (h0 : Keeps m z a0) : Keeps m z (State.takeHeader a0 a1 a2) := by
  unfold State.takeHeader
  lift_lets
  (intro x; refine keeps_cut (p := Keeps m z x) ?_ (fun hx => ?_); (on_goal 2 => clear_value x); (on_goal 1 => subst x))
  apply State.takeAck_keeps (hm.sub rfl)
  with_reducible assumption
  (intro x; refine keeps_cut (p := Keeps m z x) ?_ (fun hx => ?_); (on_goal 2 => clear_value x); (on_goal 1 => subst x))
  apply State.setLink_keeps (hm.sub rfl)
  with_reducible assumption
  split
  split
  apply State.replayStored_keeps (hm.sub rfl)
  with_reducible assumption
  apply State.replay_keeps (hm.sub rfl)
  with_reducible assumption
  with_reducible assumption

theorem State.fecCount_keeps (hm : Within [.live, .run, .pend, .parity, .lnk, .hlt, .hst, .sum, .outbox] m) {a0 : State} (a1 : ℕ) (a2 : ℕ) (a3 : ℕ) (h0 : Keeps m z a0) : Keeps m z (State.fecCount a0 a1 a2 a3) := by
  unfold State.fecCount
  lift_lets
  (intro x; refine keeps_cut (p := Keeps m z x) ?_ (fun hx => ?_); (on_goal 2 => clear_value x); (on_goal 1 => subst x))
  apply State.bump_keeps (hm.sub rfl)
  with_reducible assumption
  (intro x; refine keeps_cut (p := Keeps m z x) ?_ (fun hx => ?_); (on_goal 2 => clear_value x); (on_goal 1 => subst x))
  apply State.addPoints_keeps (hm.sub rfl)
  apply State.bump_keeps (hm.sub rfl)
  with_reducible assumption
  (intro x; clear_value x)
  (intro x; refine keeps_cut (p := Keeps m z x) ?_ (fun hx => ?_); (on_goal 2 => clear_value x); (on_goal 1 => subst x))
  apply State.setLink_keeps (hm.sub rfl)
  with_reducible assumption
  split
  with_reducible assumption
  split
  apply State.setLinkState_keeps (hm.sub rfl)
  with_reducible assumption
  with_reducible assumption

theorem State.packetIn_keeps (hm : Within [.live, .run, .lnk, .hst, .sum, .outbox] m) {a0 : State} (a1 : ℕ) (a2 : Packet) (h0 : Keeps m z a0) : Keeps m z (State.packetIn a0 a1 a2) := by
  unfold State.packetIn
  split
  with_reducible assumption
  split
  lift_lets
  iterate 3 (intro x; clear_value x)
  split
  apply State.routePacket_keeps (hm.sub rfl)
  with_reducible assumption
  apply State.raiseBit_keeps (hm.sub rfl)
  apply State.bump_keeps (hm.sub rfl)
  with_reducible assumption
  apply State.routePacket_keeps (hm.sub rfl)
  with_reducible assumption

theorem State.assemble_keeps (hm : Within [.live, .run, .lnk, .hst, .sum, .outbox] m) {a0 : State} (a1 : ℕ) (a2 : List Byte) (h0 : Keeps m z a0) : Keeps m z (State.assemble a0 a1 a2).1 := by
  unfold State.assemble
  split
  dsimp only
  apply State.packetIn_keeps (hm.sub rfl)
  with_reducible assumption
  with_reducible assumption

theorem State.blockDamaged_keeps (hm : Within [.live, .lnk, .hlt, .hst, .sum, .outbox] m) {a0 : State} (a1 : ℕ) (a2 : ℕ) (a3 : RxVc) (h0 : Keeps m z a0) : Keeps m z (State.blockDamaged a0 a1 a2 a3).1 := by
  unfold State.blockDamaged
  lift_lets
  iterate 4 (intro x; clear_value x)
  (intro x; refine keeps_cut (p := Keeps m z x) ?_ (fun hx => ?_); (on_goal 2 => clear_value x); (on_goal 1 => subst x))
  apply State.setLink_keeps (hm.sub rfl)
  with_reducible assumption
  dsimp only
  apply State.addPoints_keeps (hm.sub rfl)
  apply State.raiseBit_keeps (hm.sub rfl)
  with_reducible assumption

theorem State.decodeVc_keeps (hm : Within [.live, .run, .lnk, .hlt, .hst, .sum, .outbox] m) {a0 : State} (a1 : ℕ) (a2 : ℕ) (a3 : ℕ) (a4 : RxVc) (h0 : Keeps m z a0) : Keeps m z (State.decodeVc a0 a1 a2 a3 a4).1 := by
  induction a3 generalizing a0 a1 a2 a4 with
  | zero =>
    unfold State.decodeVc
    with_reducible assumption
  | succ k ih =>
    unfold State.decodeVc
    split
    with_reducible assumption
    apply State.blockDamaged_keeps (hm.sub rfl)
    with_reducible assumption
    lift_lets
    (intro x; clear_value x)
    (intro x; refine keeps_cut (p := Keeps m z x) ?_ (fun hx => ?_); (on_goal 2 => clear_value x); (on_goal 1 => subst x))
    apply State.setLink_keeps (hm.sub rfl)
    with_reducible assumption
    (intro x; clear_value x)
    split
    with_reducible apply ih
    with_reducible assumption
    split
    split
    dsimp only
    (with_reducible refine keeps_of_fst (by with_reducible assumption) ?_)
    apply State.assemble_keeps (hm.sub rfl)
    with_reducible assumption
    with_reducible apply ih
    (with_reducible refine keeps_of_fst (by with_reducible assumption) ?_)
    apply State.assemble_keeps (hm.sub rfl)
    with_reducible assumption

theorem State.takePayload_keeps (hm : Within [.live, .run, .lnk, .hlt, .hst, .sum, .outbox] m) {a0 : State} (a1 : ℕ) (a2 : Frame) (h0 : Keeps m z a0) : Keeps m z (State.takePayload a0 a1 a2) := by
  unfold State.takePayload
  lift_lets
  iterate 6 (intro x; clear_value x)
  split
  apply State.setLink_keeps (hm.sub rfl)
  with_reducible assumption
  split
  dsimp only
  apply State.setLink_keeps (hm.sub rfl)
  apply State.decodeVc_keeps (hm.sub rfl)
  apply State.setLink_keeps (hm.sub rfl)
  with_reducible assumption
  dsimp only
  apply State.setLink_keeps (hm.sub rfl)
  apply State.assemble_keeps (hm.sub rfl)
  apply State.setLink_keeps (hm.sub rfl)
  with_reducible assumption

theorem State.putFrame_keeps (hm : Within [.run, .lnk, .outbox] m) {a0 : State} (a1 : ℕ) (a2 : ℕ) (a3 : ℕ) (a4 : ℕ) (a5 : ℕ) (a6 : List Byte) (h0 : Keeps m z a0) : Keeps m z (State.putFrame a0 a1 a2 a3 a4 a5 a6) := by
  unfold State.putFrame
  lift_lets
  iterate 3 (intro x; clear_value x)
  (intro x; refine keeps_cut (p := Keeps m z x) ?_ (fun hx => ?_); (on_goal 2 => clear_value x); (on_goal 1 => subst x))
  apply State.setLink_keeps (hm.sub rfl)
  with_reducible assumption
  apply State.emit_keeps (hm.sub rfl)
  apply State.bump_keeps (hm.sub rfl)
  with_reducible assumption

theorem State.sendKept_keeps (hm : Within [.run, .lnk, .outbox] m) {a0 : State} (a1 : ℕ) (a2 : Link) (a3 : KeptFrame) (h0 : Keeps m z a0) : Keeps m z (State.sendKept a0 a1 a2 a3) := by
  unfold State.sendKept
  lift_lets
  iterate 2 (intro x; clear_value x)
  apply State.putFrame_keeps (hm.sub rfl)
  apply State.setLink_keeps (hm.sub rfl)
  with_reducible assumption

theorem State.sendPacket_keeps (hm : Within [.run, .lnk, .outbox, .freeCtr] m) {a0 : State} (a1 : ℕ) (a2 : ℕ) (a3 : Bool × Packet) (h0 : Keeps m z a0) : Keeps m z (State.sendPacket a0 a1 a2 a3) := by
  unfold State.sendPacket
  lift_lets
  (intro x; clear_value x)
  (intro x; refine keeps_cut (p := Keeps m z x.2) ?_ (fun hx => ?_); (on_goal 2 => clear_value x); (on_goal 1 => subst x))
  apply State.beginSend_keeps (hm.sub rfl)
  with_reducible assumption
  split
  dsimp only
  apply State.sendKept_keeps (hm.sub rfl)
  with_reducible assumption
  dsimp only
  apply State.sendKept_keeps (hm.sub rfl)
  with_reducible assumption

theorem State.sendFrom_keeps (hm : Within [.run, .lnk, .outbox, .freeCtr] m) {a0 : State} (a1 : ℕ) (a2 : ℕ) (a3 : Bool × Packet) (h0 : Keeps m z a0) : Keeps m z (State.sendFrom a0 a1 a2 a3) := by
  unfold State.sendFrom
  lift_lets
  (intro x; clear_value x)
  split
  apply State.sendKept_keeps (hm.sub rfl)
  with_reducible assumption
  apply State.sendPacket_keeps (hm.sub rfl)
  with_reducible assumption

theorem State.dropTransit_keeps (hm : Within [.lnk] m) {a0 : State} (h0 : Keeps m z a0) : Keeps m z (State.dropTransit a0) := by
  unfold State.dropTransit
  with_reducible refine keeps_mk (h := ?_)
  with_reducible assumption

theorem State.coalesce_keeps (hm : Within [.lnk] m) {a0 : State} (a1 : ℕ) (a2 : ℕ) (h0 : Keeps m z a0) : Keeps m z (State.coalesce a0 a1 a2) := by
  unfold State.coalesce
  lift_lets
  (intro x; clear_value x)
  (intro (x : LnkSt); subst x)
  with_reducible refine keeps_mk (h := ?_)
  with_reducible assumption

theorem State.heardFrame_keeps (hm : Within [.lnk] m) {a0 : State} (a1 : ℕ) (a2 : ℕ) (a3 : ℕ) (h0 : Keeps m z a0) : Keeps m z (State.heardFrame a0 a1 a2 a3) := by
  unfold State.heardFrame
  lift_lets
  (intro x; clear_value x)
  apply State.setLink_keeps (hm.sub rfl)
  with_reducible assumption

theorem State.frameTaken_keeps (hm : Within [.run] m) {a0 : State} (a1 : ℕ) (h0 : Keeps m z a0) : Keeps m z (State.frameTaken a0 a1) := by
  unfold State.frameTaken
  apply State.bump_keeps (hm.sub rfl)
  with_reducible assumption

theorem State.badFrame_keeps (hm : Within [.run, .lnk] m) {a0 : State} (a1 : ℕ) (a2 : Frame) (h0 : Keeps m z a0) : Keeps m z (State.badFrame a0 a1 a2) := by
  unfold State.badFrame
  lift_lets
  (intro x; refine keeps_cut (p := Keeps m z x) ?_ (fun hx => ?_); (on_goal 2 => clear_value x); (on_goal 1 => subst x))
  apply State.bump_keeps (hm.sub rfl)
  with_reducible assumption
  (intro x; clear_value x)
  split
  with_reducible assumption
  apply State.setLink_keeps (hm.sub rfl)
  with_reducible assumption

/-! ### Layout -/

theorem State.pokeAll_keeps (hm : Within [.mem] m) {a0 : State} (a1 : ℕ → ℕ) (a2 : List Byte) (h0 : Keeps m z a0) : Keeps m z (State.pokeAll a0 a1 a2) := by
  unfold State.pokeAll
  (with_reducible refine keeps_foldl (fun s a hs => ?_) ?_)
  apply State.poke_keeps (hm.sub rfl)
  with_reducible assumption
  with_reducible assumption

theorem State.placeProt_keeps (hm : Within [.pgw] m) {a0 : State} (a1 : (Place × Bool) × ℕ) (h0 : Keeps m z a0) : Keeps m z (State.placeProt a0 a1) := by
  unfold State.placeProt
  split
  with_reducible assumption
  split
  with_reducible assumption
  with_reducible refine keeps_mk (h := ?_)
  with_reducible assumption

theorem State.settlePlaces_keeps (hm : Within [.pgw] m) {a0 : State} (h0 : Keeps m z a0) : Keeps m z (State.settlePlaces a0) := by
  unfold State.settlePlaces
  lift_lets
  (intro x; clear_value x)
  (intro (x : PgwSt); subst x)
  (intro x; refine keeps_cut (p := Keeps m z x) ?_ (fun hx => ?_); (on_goal 2 => clear_value x); (on_goal 1 => subst x))
  with_reducible refine keeps_mk (h := ?_)
  with_reducible assumption
  (with_reducible refine keeps_foldl (fun s a hs => ?_) ?_)
  apply State.placeProt_keeps (hm.sub rfl)
  with_reducible assumption
  with_reducible assumption

theorem State.swapTails_keeps (hm : Within [.pgw] m) {a0 : State} (a1 : ℕ) (a2 : ℕ) (a3 : ℕ) (h0 : Keeps m z a0) : Keeps m z (State.swapTails a0 a1 a2 a3) := by
  unfold State.swapTails
  lift_lets
  (intro x; clear_value x)
  (intro (x : PgwSt); subst x)
  with_reducible refine keeps_mk (h := ?_)
  with_reducible assumption

/-! ### Walk -/

theorem State.putSeq_keeps (hm : Within [.pgw] m) {a0 : State} (a1 : SeqRec) (h0 : Keeps m z a0) : Keeps m z (State.putSeq a0 a1) := by
  unfold State.putSeq
  lift_lets
  (intro x; clear_value x)
  (intro (x : PgwSt); subst x)
  (intro x; refine keeps_cut (p := Keeps m z x) ?_ (fun hx => ?_); (on_goal 2 => clear_value x); (on_goal 1 => subst x))
  with_reducible refine keeps_mk (h := ?_)
  with_reducible assumption
  split
  with_reducible assumption
  apply State.settlePlaces_keeps (hm.sub rfl)
  with_reducible assumption

theorem State.delSeq_keeps (hm : Within [.pgw] m) {a0 : State} (a1 : ℕ) (a2 : ℕ) (h0 : Keeps m z a0) : Keeps m z (State.delSeq a0 a1 a2) := by
  unfold State.delSeq
  apply State.settlePlaces_keeps (hm.sub rfl)
  with_reducible refine keeps_mk (h := ?_)
  with_reducible assumption

theorem State.invalidate_keeps (hm : Within [.pgw] m) {a0 : State} (a1 : PageRef) (h0 : Keeps m z a0) : Keeps m z (State.invalidate a0 a1) := by
  unfold State.invalidate
  with_reducible refine keeps_mk (h := ?_)
  with_reducible assumption

theorem State.setPageAt_keeps (hm : Within [.pgw] m) {a0 : State} (a1 : PageRef) (a2 : Pte) (h0 : Keeps m z a0) : Keeps m z (State.setPageAt a0 a1 a2) := by
  unfold State.setPageAt
  lift_lets
  (intro x; refine keeps_cut (p := Keeps m z x) ?_ (fun hx => ?_); (on_goal 2 => clear_value x); (on_goal 1 => subst x))
  apply State.invalidate_keeps (hm.sub rfl)
  with_reducible assumption
  (intro x; clear_value x)
  (intro (x : PgwSt); subst x)
  split
  with_reducible refine keeps_mk (h := ?_)
  with_reducible assumption
  split
  with_reducible assumption
  apply State.putSeq_keeps (hm.sub rfl)
  with_reducible assumption

theorem State.keepBytes_keeps (hm : Within [.mem] m) {a0 : State} (a1 : Bool) (a2 : List ℕ) (a3 : ℕ) (a4 : List Pair) (h0 : Keeps m z a0) : Keeps m z (State.keepBytes a0 a1 a2 a3 a4) := by
  unfold State.keepBytes
  (with_reducible refine keeps_foldl (fun s a hs => ?_) ?_)
  lift_lets
  iterate 2 (intro x; clear_value x)
  split
  apply State.pokeAll_keeps (hm.sub rfl)
  with_reducible assumption
  apply State.pokeAll_keeps (hm.sub rfl)
  with_reducible assumption
  with_reducible assumption

theorem State.freeSlots_keeps (hm : Within [.mem] m) {a0 : State} (a1 : Bool) (a2 : List ℕ) (a3 : ℕ) (a4 : List Pair) (h0 : Keeps m z a0) : Keeps m z (State.freeSlots a0 a1 a2 a3 a4) := by
  unfold State.freeSlots
  split
  with_reducible assumption
  split
  apply State.keepBytes_keeps (hm.sub rfl)
  with_reducible assumption
  lift_lets
  (intro x; clear_value x)
  (intro (x : MemSt); subst x)
  with_reducible refine keeps_mk (h := ?_)
  with_reducible assumption

theorem State.freePte_keeps (hm : Within [.mem] m) {a0 : State} (a1 : ℕ) (a2 : Pte) (h0 : Keeps m z a0) : Keeps m z (State.freePte a0 a1 a2) := by
  unfold State.freePte
  lift_lets
  (intro x; refine keeps_cut (p := Keeps m z x) ?_ (fun hx => ?_); (on_goal 2 => clear_value x); (on_goal 1 => subst x))
  split
  apply State.freeSlots_keeps (hm.sub rfl)
  with_reducible assumption
  apply State.freeSlots_keeps (hm.sub rfl)
  with_reducible assumption
  with_reducible assumption
  split
  apply State.freeSlots_keeps (hm.sub rfl)
  with_reducible assumption
  with_reducible assumption

theorem State.enter_keeps (hm : Within [.pgw] m) {a0 : State} (h0 : Keeps m z a0) : Keeps m z (State.enter a0).2 := by
  unfold State.enter
  dsimp only
  with_reducible refine keeps_mk (h := ?_)
  with_reducible assumption

theorem State.dropCopy_keeps (hm : Within [.run, .pgw, .mem] m) {a0 : State} (a1 : PageRef) (h0 : Keeps m z a0) : Keeps m z (State.dropCopy a0 a1) := by
  unfold State.dropCopy
  lift_lets
  (intro x; clear_value x)
  (intro x; refine keeps_cut (p := Keeps m z x.2) ?_ (fun hx => ?_); (on_goal 2 => clear_value x); (on_goal 1 => subst x))
  apply State.enter_keeps (hm.sub rfl)
  with_reducible assumption
  split
  with_reducible assumption
  lift_lets
  (intro x; refine keeps_cut (p := Keeps m z x) ?_ (fun hx => ?_); (on_goal 2 => clear_value x); (on_goal 1 => subst x))
  apply State.setPageAt_keeps (hm.sub rfl)
  with_reducible assumption
  apply State.bump_keeps (hm.sub rfl)
  apply State.freeSlots_keeps (hm.sub rfl)
  with_reducible assumption

theorem State.reserveHead_keeps (hm : Within [.run, .pgw, .mem] m) {a0 : State} (a1 : ℕ) (a2 : ℕ) (a3 : ℕ) (a4 : ℕ) (a5 : ℕ) (a6 : List ℕ) (a7 : ℕ) (h0 : Keeps m z a0) : KeepsP m z (State.reserveHead a0 a1 a2 a3 a4 a5 a6 a7) := by
  induction a7 generalizing a0 a1 a2 a3 a4 a5 a6 with
  | zero =>
    unfold State.reserveHead
    with_reducible apply keepsP_none
  | succ k ih =>
    unfold State.reserveHead
    split
    with_reducible apply keepsP_none
    lift_lets
    iterate 6 (intro x; clear_value x)
    (intro (x : PgwSt); subst x)
    split
    with_reducible apply keepsP_some
    with_reducible assumption
    split
    with_reducible apply keepsP_some
    dsimp only
    apply State.setPageAt_keeps (hm.sub rfl)
    with_reducible assumption
    split
    lift_lets
    (intro x; refine keeps_cut (p := Keeps m z x) ?_ (fun hx => ?_); (on_goal 2 => clear_value x); (on_goal 1 => subst x))
    with_reducible refine keeps_mk (h := ?_)
    with_reducible assumption
    (intro x; refine keeps_cut (p := Keeps m z x) ?_ (fun hx => ?_); (on_goal 2 => clear_value x); (on_goal 1 => subst x))
    apply State.setPageAt_keeps (hm.sub rfl)
    with_reducible assumption
    (intro x; refine keeps_cut (p := Keeps m z x) ?_ (fun hx => ?_); (on_goal 2 => clear_value x); (on_goal 1 => subst x))
    (with_reducible refine keeps_foldl (fun s a hs => ?_) ?_)
    apply State.setPageAt_keeps (hm.sub rfl)
    with_reducible assumption
    with_reducible assumption
    with_reducible apply keepsP_some
    with_reducible assumption
    split
    with_reducible apply ih
    apply State.dropCopy_keeps (hm.sub rfl)
    with_reducible assumption
    split
    with_reducible apply keepsP_none
    lift_lets
    (intro x; refine keeps_cut (p := Keeps m z x) ?_ (fun hx => ?_); (on_goal 2 => clear_value x); (on_goal 1 => subst x))
    with_reducible refine keeps_mk (h := ?_)
    with_reducible assumption
    with_reducible apply keepsP_some
    dsimp only
    apply State.setPageAt_keeps (hm.sub rfl)
    with_reducible assumption

theorem State.reserveHeads_keeps (hm : Within [.run, .pgw, .mem] m) {a0 : State} (a1 : ℕ) (a2 : ℕ) (a3 : ℕ) (a4 : ℕ) (a5 : List ℕ) (a6 : ℕ) (h0 : Keeps m z a0) : KeepsP m z (State.reserveHeads a0 a1 a2 a3 a4 a5 a6) := by
  induction a6 generalizing a0 a1 a2 a3 a4 a5 with
  | zero =>
    unfold State.reserveHeads
    with_reducible apply keepsP_some
    with_reducible assumption
  | succ k ih =>
    unfold State.reserveHeads
    split
    with_reducible apply keepsP_none
    split
    with_reducible apply keepsP_none
    with_reducible apply keepsP_some
    dsimp only
    (with_reducible refine keeps_of_somepair (by with_reducible assumption) ?_)
    apply State.reserveHead_keeps (hm.sub rfl)
    (with_reducible refine keeps_of_somepair (by with_reducible assumption) ?_)
    with_reducible apply ih
    with_reducible assumption

theorem State.reserve_keeps (hm : Within [.run, .pgw, .mem] m) {a0 : State} (a1 : SeqRec) (a2 : ℕ) (a3 : ℕ) (h0 : Keeps m z a0) : KeepsO m z (State.reserve a0 a1 a2 a3) := by
  unfold State.reserve
  with_reducible apply keepsO_map_fst
  apply State.reserveHeads_keeps (hm.sub rfl)
  with_reducible assumption

theorem State.reserveLayers_keeps (hm : Within [.run, .pgw, .mem] m) {a0 : State} (a1 : SeqRec) (a2 : ℕ) (a3 : ℕ) (h0 : Keeps m z a0) : KeepsO m z (State.reserveLayers a0 a1 a2 a3) := by
  induction a3 generalizing a0 a1 a2 with
  | zero =>
    unfold State.reserveLayers
    with_reducible apply keepsO_some
    with_reducible assumption
  | succ k ih =>
    unfold State.reserveLayers
    split
    with_reducible apply keepsO_none
    apply State.reserve_keeps (hm.sub rfl)
    (with_reducible refine keeps_of_some (by with_reducible assumption) ?_)
    with_reducible apply ih
    with_reducible assumption

theorem State.countSeq_keeps (hm : Within [.pgw] m) {a0 : State} (h0 : Keeps m z a0) : Keeps m z (State.countSeq a0) := by
  unfold State.countSeq
  with_reducible refine keeps_mk (h := ?_)
  with_reducible assumption

theorem State.create_keeps (hm : Within [.live, .run, .pgw, .mem, .hst, .sum, .outbox] m) {a0 : State} (a1 : ℕ) (a2 : ℕ) (a3 : ℕ) (a4 : ℕ) (h0 : Keeps m z a0) : Keeps m z (State.create a0 a1 a2 a3 a4).1 := by
  unfold State.create
  split
  dsimp only
  apply State.raiseBit_keeps (hm.sub rfl)
  with_reducible assumption
  lift_lets
  (intro x; clear_value x)
  split
  with_reducible assumption
  dsimp only
  (with_reducible refine keeps_of_some (by with_reducible assumption) ?_)
  apply State.reserveLayers_keeps (hm.sub rfl)
  apply State.countSeq_keeps (hm.sub rfl)
  apply State.putSeq_keeps (hm.sub rfl)
  with_reducible assumption

theorem State.oweShadow_keeps (hm : Within [.live, .mem, .hst, .sum, .outbox] m) {a0 : State} (a1 : PageRef) (h0 : Keeps m z a0) : Keeps m z (State.oweShadow a0 a1) := by
  unfold State.oweShadow
  apply State.raiseBit_keeps (hm.sub rfl)
  apply State.setStatus_keeps (hm.sub rfl)
  with_reducible refine keeps_mk (h := ?_)
  with_reducible assumption

theorem State.shadowTile_keeps (hm : Within [.live, .pgw, .mem, .hst, .sum, .outbox] m) {a0 : State} (a1 : PageRef) (a2 : ℕ) (h0 : Keeps m z a0) : Keeps m z (State.shadowTile a0 a1 a2) := by
  unfold State.shadowTile
  lift_lets
  iterate 2 (intro x; clear_value x)
  (intro x; refine keeps_cut (p := Keeps m z x) ?_ (fun hx => ?_); (on_goal 2 => clear_value x); (on_goal 1 => subst x))
  split
  apply State.setPageAt_keeps (hm.sub rfl)
  with_reducible assumption
  with_reducible assumption
  (intro (x : MemSt); subst x)
  (intro x; clear_value x)
  (intro (x : PgwSt); subst x)
  (intro (x : MemSt); subst x)
  split
  with_reducible assumption
  split
  with_reducible refine keeps_mk (h := ?_)
  with_reducible assumption
  split
  split
  apply State.oweShadow_keeps (hm.sub rfl)
  with_reducible assumption
  with_reducible assumption
  split
  with_reducible refine keeps_mk (h := ?_)
  with_reducible assumption
  with_reducible assumption

theorem State.putLayer_keeps (hm : Within [.live, .run, .pgw, .mem, .hst, .sum, .outbox] m) {a0 : State} (a1 : SeqRec) (a2 : ℕ) (a3 : LayerRec) (a4 : ℕ) (h0 : Keeps m z a0) : Keeps m z (State.putLayer a0 a1 a2 a3 a4) := by
  unfold State.putLayer
  lift_lets
  (intro x; clear_value x)
  (intro x; refine keeps_cut (p := Keeps m z x) ?_ (fun hx => ?_); (on_goal 2 => clear_value x); (on_goal 1 => subst x))
  apply State.bump_keeps (hm.sub rfl)
  apply State.putSeq_keeps (hm.sub rfl)
  with_reducible assumption
  (intro (x : PgwSt); subst x)
  (intro x; refine keeps_cut (p := Keeps m z x) ?_ (fun hx => ?_); (on_goal 2 => clear_value x); (on_goal 1 => subst x))
  with_reducible refine keeps_mk (h := ?_)
  with_reducible assumption
  (intro x; refine keeps_cut (p := Keeps m z x) ?_ (fun hx => ?_); (on_goal 2 => clear_value x); (on_goal 1 => subst x))
  (with_reducible refine keeps_foldl (fun s a hs => ?_) ?_)
  apply State.invalidate_keeps (hm.sub rfl)
  with_reducible assumption
  with_reducible assumption
  (intro x; clear_value x)
  split
  (with_reducible refine keeps_foldl (fun s a hs => ?_) ?_)
  (with_reducible refine keeps_foldl (fun s a hs => ?_) ?_)
  apply State.shadowTile_keeps (hm.sub rfl)
  with_reducible assumption
  with_reducible assumption
  with_reducible assumption
  with_reducible assumption

theorem State.useSpares_keeps (hm : Within [.pgw] m) {a0 : State} (a1 : ℕ) (a2 : ℕ) (h0 : Keeps m z a0) : Keeps m z (State.useSpares a0 a1 a2) := by
  unfold State.useSpares
  with_reducible refine keeps_mk (h := ?_)
  with_reducible assumption

theorem State.discardProv_keeps (hm : Within [.pgw] m) {a0 : State} (a1 : SeqRec) (a2 : ℕ) (h0 : Keeps m z a0) : Keeps m z (State.discardProv a0 a1 a2) := by
  unfold State.discardProv
  split
  with_reducible assumption
  apply State.useSpares_keeps (hm.sub rfl)
  apply State.putSeq_keeps (hm.sub rfl)
  with_reducible assumption

theorem State.dropPositions_keeps (hm : Within [.pgw] m) {a0 : State} (a1 : PageRef) (h0 : Keeps m z a0) : Keeps m z (State.dropPositions a0 a1) := by
  unfold State.dropPositions
  lift_lets
  iterate 2 (intro x; clear_value x)
  (with_reducible refine keeps_foldl (fun s a hs => ?_) ?_)
  split
  with_reducible assumption
  apply State.putSeq_keeps (hm.sub rfl)
  with_reducible assumption
  with_reducible assumption

theorem State.markLost_keeps (hm : Within [.pgw] m) {a0 : State} (a1 : PageRef) (h0 : Keeps m z a0) : Keeps m z (State.markLost a0 a1) := by
  unfold State.markLost
  lift_lets
  (intro x; refine keeps_cut (p := Keeps m z x) ?_ (fun hx => ?_); (on_goal 2 => clear_value x); (on_goal 1 => subst x))
  apply State.dropPositions_keeps (hm.sub rfl)
  with_reducible assumption
  (intro x; clear_value x)
  apply State.setPageAt_keeps (hm.sub rfl)
  with_reducible assumption

theorem State.sealRebuilt_keeps (hm : Within [.live, .run, .pgw, .hst, .sum, .outbox] m) {a0 : State} (a1 : SeqRec) (a2 : ℕ) (a3 : ℕ) (a4 : ℕ) (a5 : Collect) (h0 : Keeps m z a0) : Keeps m z (State.sealRebuilt a0 a1 a2 a3 a4 a5).1 := by
  unfold State.sealRebuilt
  lift_lets
  iterate 9 (intro x; clear_value x)
  (intro x; refine keeps_cut (p := Keeps m z x) ?_ (fun hx => ?_); (on_goal 2 => clear_value x); (on_goal 1 => subst x))
  apply State.setPageAt_keeps (hm.sub rfl)
  with_reducible assumption
  (intro x; refine keeps_cut (p := Keeps m z x) ?_ (fun hx => ?_); (on_goal 2 => clear_value x); (on_goal 1 => subst x))
  split
  apply State.dropPositions_keeps (hm.sub rfl)
  with_reducible assumption
  with_reducible assumption
  (intro x; refine keeps_cut (p := Keeps m z x) ?_ (fun hx => ?_); (on_goal 2 => clear_value x); (on_goal 1 => subst x))
  split
  with_reducible assumption
  apply State.raiseBit_keeps (hm.sub rfl)
  apply State.bump_keeps (hm.sub rfl)
  with_reducible assumption
  dsimp only
  apply State.bump_keeps (hm.sub rfl)
  with_reducible assumption

theorem State.rebuildRow_keeps (hm : Within [.live, .run, .pgw, .hst, .sum, .outbox] m) {a0 : State} (a1 : ℕ) (a2 : ℕ) (a3 : ℕ) (a4 : ℕ) (a5 : ℕ) (a6 : (List ℕ × List ℕ) × Bool × Bool) (h0 : Keeps m z a0) : Keeps m z (State.rebuildRow a0 a1 a2 a3 a4 a5 a6).1 := by
  unfold State.rebuildRow
  split
  with_reducible assumption
  lift_lets
  iterate 3 (intro x; clear_value x)
  (intro x; refine keeps_cut (p := ∀ y0, Keeps m z (x y0)) ?_ (fun hf0 => ?_); (on_goal 2 => clear_value x); (on_goal 1 => (intro y0; subst x; beta_reduce)))
  apply State.putSeq_keeps (hm.sub rfl)
  with_reducible assumption
  iterate 3 (intro x; clear_value x)
  (intro x; refine keeps_cut (p := Keeps m z x) ?_ (fun hx => ?_); (on_goal 2 => clear_value x); (on_goal 1 => subst x))
  with_reducible apply hf0
  split
  with_reducible assumption
  split
  with_reducible assumption
  lift_lets
  (intro x; clear_value x)
  split
  with_reducible assumption
  split
  split
  with_reducible assumption
  apply State.sealRebuilt_keeps (hm.sub rfl)
  with_reducible assumption
  dsimp only
  with_reducible apply hf0

theorem State.rebuild_keeps (hm : Within [.live, .run, .pgw, .hst, .sum, .outbox] m) {a0 : State} (a1 : SeqRec) (a2 : ℕ) (a3 : ℕ) (a4 : List Token) (h0 : Keeps m z a0) : Keeps m z (State.rebuild a0 a1 a2 a3 a4).1 := by
  unfold State.rebuild
  lift_lets
  iterate 2 (intro x; clear_value x)
  (intro x; refine keeps_cut (p := Keeps m z x) ?_ (fun hx => ?_); (on_goal 2 => clear_value x); (on_goal 1 => subst x))
  split
  apply State.putSeq_keeps (hm.sub rfl)
  with_reducible assumption
  with_reducible assumption
  (intro x; refine keeps_cut (p := Keeps m z x.1) ?_ (fun hx => ?_); (on_goal 2 => clear_value x); (on_goal 1 => subst x))
  (with_reducible refine keeps_foldl_fst (fun s a hs => ?_) ?_)
  (with_reducible refine keeps_foldl_fst (fun s a hs => ?_) ?_)
  lift_lets
  (intro x; refine keeps_cut (p := Keeps m z x.1) ?_ (fun hx => ?_); (on_goal 2 => clear_value x); (on_goal 1 => subst x))
  apply State.rebuildRow_keeps (hm.sub rfl)
  with_reducible assumption
  with_reducible assumption
  with_reducible assumption
  with_reducible assumption
  (intro x; have _ : Keeps m z x := (by subst x; with_reducible assumption); subst x)
  (intro x; clear_value x)
  split
  with_reducible assumption
  lift_lets
  iterate 4 (intro x; clear_value x)
  (intro x; refine keeps_cut (p := Keeps m z x) ?_ (fun hx => ?_); (on_goal 2 => clear_value x); (on_goal 1 => subst x))
  apply State.putSeq_keeps (hm.sub rfl)
  with_reducible assumption
  dsimp only
  apply State.useSpares_keeps (hm.sub rfl)
  with_reducible assumption

theorem State.dropGroup_keeps (hm : Within [.pgw, .mem, .mat] m) {a0 : State} (a1 : ℕ) (h0 : Keeps m z a0) : Keeps m z (State.dropGroup a0 a1) := by
  unfold State.dropGroup
  split
  with_reducible assumption
  split
  with_reducible refine keeps_mk (h := ?_)
  with_reducible assumption
  lift_lets
  iterate 2 (intro x; clear_value x)
  (intro (x : MemSt); subst x)
  (intro (x : MatSt); subst x)
  (intro x; refine keeps_cut (p := Keeps m z x) ?_ (fun hx => ?_); (on_goal 2 => clear_value x); (on_goal 1 => subst x))
  with_reducible refine keeps_mk (h := ?_)
  with_reducible assumption
  (intro (x : PgwSt); subst x)
  (intro x; refine keeps_cut (p := Keeps m z x) ?_ (fun hx => ?_); (on_goal 2 => clear_value x); (on_goal 1 => subst x))
  apply State.settlePlaces_keeps (hm.sub rfl)
  with_reducible refine keeps_mk (h := ?_)
  with_reducible assumption
  (with_reducible refine keeps_foldl (fun s a hs => ?_) ?_)
  apply State.freePte_keeps (hm.sub rfl)
  with_reducible assumption
  with_reducible assumption

theorem State.endSeq_keeps (hm : Within [.pgw, .mem, .mat] m) {a0 : State} (a1 : SeqRec) (h0 : Keeps m z a0) : Keeps m z (State.endSeq a0 a1) := by
  unfold State.endSeq
  lift_lets
  iterate 3 (intro x; clear_value x)
  (intro (x : MemSt); subst x)
  (intro x; refine keeps_cut (p := Keeps m z x) ?_ (fun hx => ?_); (on_goal 2 => clear_value x); (on_goal 1 => subst x))
  with_reducible refine keeps_mk (h := ?_)
  with_reducible assumption
  (intro x; refine keeps_cut (p := Keeps m z x) ?_ (fun hx => ?_); (on_goal 2 => clear_value x); (on_goal 1 => subst x))
  apply State.useSpares_keeps (hm.sub rfl)
  apply State.delSeq_keeps (hm.sub rfl)
  with_reducible assumption
  (intro x; clear_value x)
  (intro x; refine keeps_cut (p := Keeps m z x) ?_ (fun hx => ?_); (on_goal 2 => clear_value x); (on_goal 1 => subst x))
  (with_reducible refine keeps_foldl (fun s a hs => ?_) ?_)
  apply State.freePte_keeps (hm.sub rfl)
  with_reducible assumption
  with_reducible assumption
  (with_reducible refine keeps_foldl (fun s a hs => ?_) ?_)
  apply State.dropGroup_keeps (hm.sub rfl)
  with_reducible assumption
  with_reducible assumption

/-! ### VspOps -/

theorem State.setUnit_keeps (hm : Within [.vsp] m) {a0 : State} (a1 : ℕ) (a2 : VUnit) (h0 : Keeps m z a0) : Keeps m z (State.setUnit a0 a1 a2) := by
  unfold State.setUnit
  with_reducible refine keeps_mk (h := ?_)
  with_reducible assumption

theorem State.mapRun_keeps (hm : Within [.sch] m) {a0 : State} (a1 : ℕ) (a2 : Run → Run) (h0 : Keeps m z a0) : Keeps m z (State.mapRun a0 a1 a2) := by
  unfold State.mapRun
  with_reducible refine keeps_mk (h := ?_)
  with_reducible assumption

theorem State.mapJob_keeps (hm : Within [.sch] m) {a0 : State} (a1 : ℕ) (a2 : ℕ) (a3 : Job → Job) (h0 : Keeps m z a0) : Keeps m z (State.mapJob a0 a1 a2 a3) := by
  unfold State.mapJob
  apply State.mapRun_keeps (hm.sub rfl)
  with_reducible assumption

theorem State.leafToHub_keeps (hm : Within [.sch] m) {a0 : State} (a1 : BurstEntry) (h0 : Keeps m z a0) : Keeps m z (State.leafToHub a0 a1) := by
  unfold State.leafToHub
  split
  apply State.mapJob_keeps (hm.sub rfl)
  with_reducible assumption
  with_reducible assumption

theorem State.rejectSealed_keeps (hm : Within [.live, .hst, .sum, .outbox] m) {a0 : State} (a1 : ℕ) (a2 : ℕ) (h0 : Keeps m z a0) : Keeps m z (State.rejectSealed a0 a1 a2) := by
  unfold State.rejectSealed
  apply State.raiseBit_keeps (hm.sub rfl)
  apply State.setLive_keeps (hm.sub rfl)
  apply State.setLive_keeps (hm.sub rfl)
  with_reducible assumption

theorem State.writeFlat_keeps (hm : Within [.live, .mem, .hst, .sum, .outbox] m) {a0 : State} (a1 : ℕ) (a2 : List Byte) (a3 : ℕ) (h0 : Keeps m z a0) : Keeps m z (State.writeFlat a0 a1 a2 a3).1 := by
  unfold State.writeFlat
  split
  with_reducible assumption
  split
  dsimp only
  apply State.rejectSealed_keeps (hm.sub rfl)
  with_reducible assumption
  dsimp only
  apply State.pokeAll_keeps (hm.sub rfl)
  with_reducible assumption

/-! ### Bursts -/

theorem State.sendBursts_keeps (hm : Within [.sch, .vsp] m) {a0 : State} (a1 : ℕ) (a2 : BurstKind) (a3 : Bool) (a4 : ℕ) (a5 : List BurstEntry) (h0 : Keeps m z a0) : Keeps m z (State.sendBursts a0 a1 a2 a3 a4 a5) := by
  unfold State.sendBursts
  lift_lets
  (intro x; clear_value x)
  (intro x; refine keeps_cut (p := Keeps m z x) ?_ (fun hx => ?_); (on_goal 2 => clear_value x); (on_goal 1 => subst x))
  (with_reducible refine keeps_foldl (fun s a hs => ?_) ?_)
  apply State.leafToHub_keeps (hm.sub rfl)
  with_reducible assumption
  with_reducible assumption
  iterate 3 (intro x; clear_value x)
  (with_reducible refine keeps_foldl (fun s a hs => ?_) ?_)
  lift_lets
  (intro x; clear_value x)
  apply State.setUnit_keeps (hm.sub rfl)
  with_reducible refine keeps_mk (h := ?_)
  with_reducible assumption
  with_reducible assumption

theorem State.unitCount_keeps (hm : Within [.run] m) {a0 : State} (a1 : ℕ) (a2 : ℕ) (a3 : ℕ) (h0 : Keeps m z a0) : Keeps m z (State.unitCount a0 a1 a2 a3) := by
  unfold State.unitCount
  apply State.bump_keeps (hm.sub rfl)
  with_reducible assumption

theorem State.stopBurst_keeps (hm : Within [.run, .vsp] m) {a0 : State} (a1 : ℕ) (h0 : Keeps m z a0) : Keeps m z (State.stopBurst a0 a1) := by
  unfold State.stopBurst
  apply State.unitCount_keeps (hm.sub rfl)
  apply State.setUnit_keeps (hm.sub rfl)
  with_reducible assumption

theorem State.spend_keeps (hm : Within [.run, .vsp] m) {a0 : State} (a1 : ℕ) (a2 : ℕ) (h0 : Keeps m z a0) : Keeps m z (State.spend a0 a1 a2) := by
  unfold State.spend
  lift_lets
  (intro x; clear_value x)
  apply State.unitCount_keeps (hm.sub rfl)
  apply State.setUnit_keeps (hm.sub rfl)
  with_reducible assumption

theorem State.clearIfDone_keeps (hm : Within [.vsp] m) {a0 : State} (a1 : ℕ) (h0 : Keeps m z a0) : Keeps m z (State.clearIfDone a0 a1) := by
  unfold State.clearIfDone
  lift_lets
  iterate 2 (intro x; clear_value x)
  split
  split
  apply State.setUnit_keeps (hm.sub rfl)
  with_reducible assumption
  with_reducible assumption
  with_reducible assumption

theorem State.tileDone_keeps (hm : Within [.run, .vsp] m) {a0 : State} (a1 : ℕ) (a2 : Burst) (a3 : TileEnt) (h0 : Keeps m z a0) : Keeps m z (State.tileDone a0 a1 a2 a3) := by
  unfold State.tileDone
  lift_lets
  iterate 6 (intro x; clear_value x)
  (intro x; refine keeps_cut (p := Keeps m z x) ?_ (fun hx => ?_); (on_goal 2 => clear_value x); (on_goal 1 => subst x))
  apply State.unitCount_keeps (hm.sub rfl)
  apply State.setUnit_keeps (hm.sub rfl)
  with_reducible assumption
  (intro (x : VspSt); subst x)
  apply State.clearIfDone_keeps (hm.sub rfl)
  with_reducible refine keeps_mk (h := ?_)
  with_reducible assumption

theorem State.refuseTile_keeps (hm : Within [.live, .vsp, .hst, .sum, .outbox] m) {a0 : State} (a1 : ℕ) (a2 : Burst) (a3 : TileEnt) (h0 : Keeps m z a0) : Keeps m z (State.refuseTile a0 a1 a2 a3) := by
  unfold State.refuseTile
  lift_lets
  iterate 3 (intro x; clear_value x)
  apply State.clearIfDone_keeps (hm.sub rfl)
  apply State.raiseBit_keeps (hm.sub rfl)
  apply State.setUnit_keeps (hm.sub rfl)
  with_reducible assumption

theorem State.readOn_keeps (hm : Within [.live, .run, .vsp, .hst, .sum, .outbox] m) {a0 : State} (a1 : ℕ) (h0 : Keeps m z a0) : Keeps m z (State.readOn a0 a1) := by
  unfold State.readOn
  lift_lets
  (intro x; clear_value x)
  split
  with_reducible assumption
  dsimp only
  split
  apply State.clearIfDone_keeps (hm.sub rfl)
  with_reducible assumption
  split
  apply State.refuseTile_keeps (hm.sub rfl)
  with_reducible assumption
  split
  apply State.tileDone_keeps (hm.sub rfl)
  with_reducible assumption
  split
  apply State.setUnit_keeps (hm.sub rfl)
  with_reducible assumption
  apply State.stopBurst_keeps (hm.sub rfl)
  with_reducible assumption
  split
  apply State.stopBurst_keeps (hm.sub rfl)
  with_reducible assumption
  split
  apply State.tileDone_keeps (hm.sub rfl)
  apply State.spend_keeps (hm.sub rfl)
  with_reducible assumption
  apply State.setUnit_keeps (hm.sub rfl)
  apply State.spend_keeps (hm.sub rfl)
  with_reducible assumption

theorem State.pump_keeps (hm : Within [.live, .run, .vsp, .hst, .sum, .outbox] m) {a0 : State} (a1 : ℕ) (a2 : Option ℕ) (a3 : Bool) (a4 : ℕ) (h0 : Keeps m z a0) : Keeps m z (State.pump a0 a1 a2 a3 a4) := by
  induction a4 generalizing a0 a1 a2 a3 with
  | zero =>
    unfold State.pump
    with_reducible assumption
  | succ k ih =>
    unfold State.pump
    split
    with_reducible assumption
    with_reducible apply ih
    apply State.readOn_keeps (hm.sub rfl)
    with_reducible assumption

theorem State.pumpNow_keeps (hm : Within [.live, .run, .vsp, .hst, .sum, .outbox] m) {a0 : State} (a1 : ℕ) (h0 : Keeps m z a0) : Keeps m z (State.pumpNow a0 a1) := by
  unfold State.pumpNow
  apply State.pump_keeps (hm.sub rfl)
  with_reducible assumption

theorem State.catchUp_keeps (hm : Within [.now] m) {a0 : State} (a1 : ℕ) (h0 : Keeps m z a0) : Keeps m z (State.catchUp a0 a1) := by
  unfold State.catchUp
  apply State.advanceTo_keeps (hm.sub rfl)
  with_reducible assumption

theorem State.runOut_keeps (hm : Within [.now, .live, .run, .vsp, .hst, .sum, .outbox] m) {a0 : State} (a1 : ℕ) (h0 : Keeps m z a0) : Keeps m z (State.runOut a0 a1) := by
  unfold State.runOut
  split
  with_reducible assumption
  apply State.catchUp_keeps (hm.sub rfl)
  apply State.pump_keeps (hm.sub rfl)
  with_reducible assumption

theorem State.pumpAll_keeps (hm : Within [.live, .run, .vsp, .hst, .sum, .outbox] m) {a0 : State} (h0 : Keeps m z a0) : Keeps m z (State.pumpAll a0) := by
  unfold State.pumpAll
  (with_reducible refine keeps_foldl (fun s a hs => ?_) ?_)
  apply State.pumpNow_keeps (hm.sub rfl)
  with_reducible assumption
  with_reducible assumption

theorem State.startBurst_keeps (hm : Within [.run, .vsp] m) {a0 : State} (a1 : ℕ) (a2 : VUnit) (a3 : Burst) (a4 : ℕ) (h0 : Keeps m z a0) : Keeps m z (State.startBurst a0 a1 a2 a3 a4) := by
  unfold State.startBurst
  lift_lets
  iterate 4 (intro x; clear_value x)
  (intro (x : VspSt); subst x)
  (intro x; refine keeps_cut (p := Keeps m z x) ?_ (fun hx => ?_); (on_goal 2 => clear_value x); (on_goal 1 => subst x))
  split
  with_reducible assumption
  with_reducible refine keeps_mk (h := ?_)
  with_reducible assumption
  (intro x; clear_value x)
  apply State.spend_keeps (hm.sub rfl)
  apply State.setUnit_keeps (hm.sub rfl)
  with_reducible assumption

theorem State.endRow_keeps (hm : Within [.live, .run, .vsp, .hst, .sum, .outbox] m) {a0 : State} (a1 : ℕ) (h0 : Keeps m z a0) : Keeps m z (State.endRow a0 a1) := by
  unfold State.endRow
  lift_lets
  (intro x; clear_value x)
  split
  split
  with_reducible assumption
  apply State.readOn_keeps (hm.sub rfl)
  with_reducible assumption
  with_reducible assumption

theorem State.openWindow_keeps (hm : Within [.run, .vsp] m) {a0 : State} (a1 : ℕ) (a2 : ℕ) (h0 : Keeps m z a0) : Keeps m z (State.openWindow a0 a1 a2) := by
  unfold State.openWindow
  lift_lets
  (intro x; clear_value x)
  (intro x; refine keeps_cut (p := Keeps m z x) ?_ (fun hx => ?_); (on_goal 2 => clear_value x); (on_goal 1 => subst x))
  apply State.spend_keeps (hm.sub rfl)
  apply State.unitCount_keeps (hm.sub rfl)
  apply State.setUnit_keeps (hm.sub rfl)
  with_reducible assumption
  (intro x; clear_value x)
  (intro x; refine keeps_cut (p := Keeps m z x) ?_ (fun hx => ?_); (on_goal 2 => clear_value x); (on_goal 1 => subst x))
  apply State.setUnit_keeps (hm.sub rfl)
  with_reducible assumption
  split
  apply State.spend_keeps (hm.sub rfl)
  with_reducible assumption
  apply State.stopBurst_keeps (hm.sub rfl)
  with_reducible assumption

theorem State.joinWindow_keeps (hm : Within [.run, .vsp] m) {a0 : State} (a1 : ℕ) (h0 : Keeps m z a0) : KeepsO m z (State.joinWindow a0 a1) := by
  unfold State.joinWindow
  lift_lets
  (intro x; clear_value x)
  split
  with_reducible apply keepsO_none
  split
  with_reducible apply keepsO_some
  apply State.unitCount_keeps (hm.sub rfl)
  apply State.setUnit_keeps (hm.sub rfl)
  with_reducible assumption
  with_reducible apply keepsO_none

theorem State.nodePass_keeps (hm : Within [.live, .vsp, .hst, .sum, .outbox] m) {a0 : State} (h0 : Keeps m z a0) : Keeps m z (State.nodePass a0) := by
  unfold State.nodePass
  split
  with_reducible assumption
  lift_lets
  iterate 2 (intro x; clear_value x)
  (intro x; refine keeps_cut (p := Keeps m z x) ?_ (fun hx => ?_); (on_goal 2 => clear_value x); (on_goal 1 => subst x))
  apply State.raiseBit_keeps (hm.sub rfl)
  apply State.setLive_keeps (hm.sub rfl)
  with_reducible assumption
  (intro (x : VspSt); subst x)
  with_reducible refine keeps_mk (h := ?_)
  with_reducible assumption

theorem State.endPass_keeps (hm : Within [.live, .vsp, .hst, .sum, .outbox] m) {a0 : State} (a1 : ℕ) (h0 : Keeps m z a0) : Keeps m z (State.endPass a0 a1) := by
  unfold State.endPass
  lift_lets
  (intro x; clear_value x)
  (intro x; refine keeps_cut (p := Keeps m z x) ?_ (fun hx => ?_); (on_goal 2 => clear_value x); (on_goal 1 => subst x))
  apply State.setUnit_keeps (hm.sub rfl)
  with_reducible assumption
  (intro (x : VspSt); subst x)
  apply State.nodePass_keeps (hm.sub rfl)
  with_reducible refine keeps_mk (h := ?_)
  with_reducible assumption

theorem State.tryEndPass_keeps (hm : Within [.live, .vsp, .hst, .sum, .outbox] m) {a0 : State} (a1 : ℕ) (h0 : Keeps m z a0) : Keeps m z (State.tryEndPass a0 a1) := by
  unfold State.tryEndPass
  lift_lets
  (intro x; clear_value x)
  split
  with_reducible assumption
  apply State.endPass_keeps (hm.sub rfl)
  with_reducible assumption

theorem State.maskUnit_keeps (hm : Within [.live, .sch, .vsp, .hst, .sum, .outbox] m) {a0 : State} (a1 : ℕ) (h0 : Keeps m z a0) : Keeps m z (State.maskUnit a0 a1) := by
  unfold State.maskUnit
  split
  with_reducible assumption
  lift_lets
  iterate 2 (intro x; clear_value x)
  (intro x; refine keeps_cut (p := Keeps m z x) ?_ (fun hx => ?_); (on_goal 2 => clear_value x); (on_goal 1 => subst x))
  apply State.setUnit_keeps (hm.sub rfl)
  with_reducible assumption
  (intro (x : VspSt); subst x)
  (intro x; refine keeps_cut (p := Keeps m z x) ?_ (fun hx => ?_); (on_goal 2 => clear_value x); (on_goal 1 => subst x))
  with_reducible refine keeps_mk (h := ?_)
  with_reducible assumption
  (intro x; clear_value x)
  (intro x; refine keeps_cut (p := Keeps m z x) ?_ (fun hx => ?_); (on_goal 2 => clear_value x); (on_goal 1 => subst x))
  apply State.raiseBit_keeps (hm.sub rfl)
  apply State.setLive_keeps (hm.sub rfl)
  with_reducible assumption
  apply State.nodePass_keeps (hm.sub rfl)
  (with_reducible refine keeps_foldl (fun s a hs => ?_) ?_)
  apply State.leafToHub_keeps (hm.sub rfl)
  with_reducible assumption
  with_reducible assumption

/-! ### QueOps -/

theorem State.putQp_keeps (hm : Within [.que] m) {a0 : State} (a1 : ℕ) (a2 : Qp) (h0 : Keeps m z a0) : Keeps m z (State.putQp a0 a1 a2) := by
  unfold State.putQp
  with_reducible refine keeps_mk (h := ?_)
  with_reducible assumption

theorem State.mapQp_keeps (hm : Within [.que] m) {a0 : State} (a1 : ℕ) (a2 : Qp → Qp) (h0 : Keeps m z a0) : Keeps m z (State.mapQp a0 a1 a2) := by
  unfold State.mapQp
  with_reducible refine keeps_mk (h := ?_)
  with_reducible assumption

theorem State.refreshQue_keeps (hm : Within [.live] m) {a0 : State} (h0 : Keeps m z a0) : Keeps m z (State.refreshQue a0) := by
  unfold State.refreshQue
  apply State.setStatus_keeps (hm.sub rfl)
  with_reducible assumption

theorem State.discard_keeps (hm : Within [.que] m) {a0 : State} (a1 : Discards → Discards) (h0 : Keeps m z a0) : Keeps m z (State.discard a0 a1) := by
  unfold State.discard
  with_reducible refine keeps_mk (h := ?_)
  with_reducible assumption

theorem State.badQp_keeps (hm : Within [.live, .que, .hst, .sum, .outbox] m) {a0 : State} (h0 : Keeps m z a0) : Keeps m z (State.badQp a0) := by
  unfold State.badQp
  apply State.raiseBit_keeps (hm.sub rfl)
  apply State.discard_keeps (hm.sub rfl)
  with_reducible assumption

theorem State.partMismatch_keeps (hm : Within [.live, .que, .hst, .sum, .outbox] m) {a0 : State} (h0 : Keeps m z a0) : Keeps m z (State.partMismatch a0) := by
  unfold State.partMismatch
  apply State.raiseBit_keeps (hm.sub rfl)
  apply State.discard_keeps (hm.sub rfl)
  with_reducible assumption

theorem State.sendTransport_keeps (hm : Within [.live, .run, .lnk, .hst, .sum, .outbox] m) {a0 : State} (a1 : ℕ) (a2 : ℕ) (a3 : ℕ) (a4 : ℕ) (a5 : ℕ) (a6 : ℕ) (a7 : ℕ) (a8 : ℕ) (a9 : ℕ) (a10 : List Byte) (h0 : Keeps m z a0) : Keeps m z (State.sendTransport a0 a1 a2 a3 a4 a5 a6 a7 a8 a9 a10) := by
  unfold State.sendTransport
  apply State.inject_keeps (hm.sub rfl)
  with_reducible assumption

theorem State.sendAck_keeps (hm : Within [.live, .run, .lnk, .hst, .sum, .outbox] m) {a0 : State} (a1 : ℕ) (a2 : Qp) (a3 : ℕ) (h0 : Keeps m z a0) : Keeps m z (State.sendAck a0 a1 a2 a3) := by
  unfold State.sendAck
  apply State.sendTransport_keeps (hm.sub rfl)
  apply State.coalesce_keeps (hm.sub rfl)
  with_reducible assumption

theorem State.sendNak_keeps (hm : Within [.live, .run, .lnk, .hst, .sum, .outbox] m) {a0 : State} (a1 : ℕ) (a2 : Qp) (a3 : ℕ) (a4 : ℕ) (h0 : Keeps m z a0) : Keeps m z (State.sendNak a0 a1 a2 a3 a4) := by
  unfold State.sendNak
  apply State.sendTransport_keeps (hm.sub rfl)
  apply State.coalesce_keeps (hm.sub rfl)
  with_reducible assumption

theorem State.sendNotReady_keeps (hm : Within [.live, .run, .que, .lnk, .hst, .sum, .outbox] m) {a0 : State} (a1 : Arrival) (a2 : ℕ) (a3 : Bool) (h0 : Keeps m z a0) : Keeps m z (State.sendNotReady a0 a1 a2 a3) := by
  unfold State.sendNotReady
  lift_lets
  (intro (x : QueSt); subst x)
  (intro x; refine keeps_cut (p := Keeps m z x) ?_ (fun hx => ?_); (on_goal 2 => clear_value x); (on_goal 1 => subst x))
  split
  with_reducible refine keeps_mk (h := ?_)
  with_reducible assumption
  with_reducible assumption
  apply State.sendTransport_keeps (hm.sub rfl)
  apply State.bump_keeps (hm.sub rfl)
  with_reducible assumption

theorem State.touchQp_keeps (hm : Within [.que] m) {a0 : State} (a1 : ℕ) (h0 : Keeps m z a0) : Keeps m z (State.touchQp a0 a1) := by
  unfold State.touchQp
  split
  with_reducible refine keeps_mk (h := ?_)
  with_reducible assumption
  with_reducible assumption

theorem State.startEvict_keeps (hm : Within [.que, .hst, .outbox] m) {a0 : State} (h0 : Keeps m z a0) : Keeps m z (State.startEvict a0) := by
  unfold State.startEvict
  split
  with_reducible assumption
  split
  with_reducible assumption
  split
  with_reducible assumption
  apply State.hostWrite_keeps (hm.sub rfl)
  with_reducible refine keeps_mk (h := ?_)
  with_reducible assumption

theorem State.evicted_keeps (hm : Within [.live, .que] m) {a0 : State} (a1 : ℕ) (h0 : Keeps m z a0) : Keeps m z (State.evicted a0 a1) := by
  unfold State.evicted
  split
  with_reducible assumption
  lift_lets
  (intro x; clear_value x)
  (intro (x : QueSt); subst x)
  apply State.refreshQue_keeps (hm.sub rfl)
  with_reducible refine keeps_mk (h := ?_)
  with_reducible assumption

theorem State.settleEvictions_keeps (hm : Within [.live, .que] m) {a0 : State} (h0 : Keeps m z a0) : Keeps m z (State.settleEvictions a0) := by
  unfold State.settleEvictions
  lift_lets
  (intro x; clear_value x)
  (intro (x : QueSt); subst x)
  (with_reducible refine keeps_foldl (fun s a hs => ?_) ?_)
  apply State.evicted_keeps (hm.sub rfl)
  with_reducible assumption
  with_reducible refine keeps_mk (h := ?_)
  with_reducible assumption

theorem State.unreachable_keeps (hm : Within [.live, .run, .que, .lnk, .hst, .sum, .outbox] m) {a0 : State} (a1 : ℕ) (h0 : Keeps m z a0) : Keeps m z (State.unreachable a0 a1) := by
  unfold State.unreachable
  lift_lets
  (intro x; clear_value x)
  (intro (x : QueSt); subst x)
  (intro x; refine keeps_cut (p := Keeps m z x) ?_ (fun hx => ?_); (on_goal 2 => clear_value x); (on_goal 1 => subst x))
  with_reducible refine keeps_mk (h := ?_)
  with_reducible assumption
  (intro x; refine keeps_cut (p := Keeps m z x) ?_ (fun hx => ?_); (on_goal 2 => clear_value x); (on_goal 1 => subst x))
  apply State.raiseBit_keeps (hm.sub rfl)
  apply State.setStatus_keeps (hm.sub rfl)
  with_reducible assumption
  (with_reducible refine keeps_foldl (fun s a hs => ?_) ?_)
  apply State.sendNotReady_keeps (hm.sub rfl)
  with_reducible assumption
  with_reducible assumption

theorem State.startFetch_keeps (hm : Within [.live, .run, .que, .lnk, .hst, .sum, .outbox] m) {a0 : State} (a1 : ℕ) (h0 : Keeps m z a0) : Keeps m z (State.startFetch a0 a1) := by
  unfold State.startFetch
  split
  with_reducible assumption
  split
  apply State.unreachable_keeps (hm.sub rfl)
  with_reducible assumption
  split
  lift_lets
  (intro x; refine keeps_cut (p := Keeps m z x) ?_ (fun hx => ?_); (on_goal 2 => clear_value x); (on_goal 1 => subst x))
  apply State.unreachable_keeps (hm.sub rfl)
  with_reducible assumption
  (intro (x : QueSt); subst x)
  with_reducible refine keeps_mk (h := ?_)
  with_reducible assumption
  lift_lets
  (intro (x : QueSt); subst x)
  (intro x; refine keeps_cut (p := Keeps m z x) ?_ (fun hx => ?_); (on_goal 2 => clear_value x); (on_goal 1 => subst x))
  with_reducible refine keeps_mk (h := ?_)
  with_reducible assumption
  split
  apply State.startEvict_keeps (hm.sub rfl)
  with_reducible assumption
  split
  lift_lets
  (intro (x : QueSt); subst x)
  with_reducible refine keeps_mk (h := ?_)
  (with_reducible refine keeps_of_some (by with_reducible assumption) ?_)
  apply State.hostRead_keeps (hm.sub rfl)
  with_reducible assumption
  with_reducible assumption

theorem State.passNamed_keeps (hm : Within [.que] m) {a0 : State} (a1 : ℕ) (a2 : ℕ) (a3 : Bool) (h0 : Keeps m z a0) : KeepsO m z (State.passNamed a0 a1 a2 a3) := by
  unfold State.passNamed
  split
  with_reducible apply keepsO_some
  with_reducible assumption
  split
  with_reducible apply keepsO_some
  with_reducible refine keeps_mk (h := ?_)
  with_reducible assumption
  with_reducible apply keepsO_none

theorem State.coldArrival_keeps (hm : Within [.live, .run, .que, .lnk, .hst, .sum, .outbox] m) {a0 : State} (a1 : Cold) (h0 : Keeps m z a0) : Keeps m z (State.coldArrival a0 a1) := by
  unfold State.coldArrival
  split
  split
  with_reducible assumption
  apply State.startFetch_keeps (hm.sub rfl)
  apply State.sendNotReady_keeps (hm.sub rfl)
  with_reducible assumption
  split
  split
  with_reducible assumption
  apply State.sendNotReady_keeps (hm.sub rfl)
  apply State.raiseBit_keeps (hm.sub rfl)
  with_reducible assumption
  lift_lets
  (intro (x : QueSt); subst x)
  (intro x; refine keeps_cut (p := Keeps m z x) ?_ (fun hx => ?_); (on_goal 2 => clear_value x); (on_goal 1 => subst x))
  with_reducible refine keeps_mk (h := ?_)
  with_reducible assumption
  apply State.startFetch_keeps (hm.sub rfl)
  apply State.bump_keeps (hm.sub rfl)
  with_reducible assumption

theorem State.psnVerdict_keeps (hm : Within [.live, .run, .que, .lnk, .hst, .sum, .outbox] m) {a0 : State} (a1 : ℕ) (a2 : Qp) (a3 : ℕ) (a4 : Bool) (h0 : Keeps m z a0) : KeepsV m z (State.psnVerdict a0 a1 a2 a3 a4) := by
  unfold State.psnVerdict
  lift_lets
  iterate 2 (intro x; clear_value x)
  split
  split
  with_reducible apply keepsV_done
  apply State.discard_keeps (hm.sub rfl)
  with_reducible assumption
  with_reducible apply keepsV_accept
  apply State.sendAck_keeps (hm.sub rfl)
  apply State.putQp_keeps (hm.sub rfl)
  with_reducible assumption
  split
  split
  with_reducible apply keepsV_done
  with_reducible assumption
  with_reducible apply keepsV_done
  apply State.sendNak_keeps (hm.sub rfl)
  apply State.putQp_keeps (hm.sub rfl)
  with_reducible assumption
  split
  with_reducible apply keepsV_done
  apply State.sendAck_keeps (hm.sub rfl)
  apply State.bump_keeps (hm.sub rfl)
  with_reducible assumption
  with_reducible apply keepsV_done
  apply State.discard_keeps (hm.sub rfl)
  with_reducible assumption

theorem State.packetCtx_keeps (hm : Within [.live, .run, .que, .lnk, .hst, .sum, .outbox] m) {a0 : State} (a1 : Cold) (h0 : Keeps m z a0) : KeepsQ m z (State.packetCtx a0 a1) := by
  unfold State.packetCtx
  lift_lets
  (intro x; clear_value x)
  (intro x; refine keeps_cut (p := Keeps m z x) ?_ (fun hx => ?_); (on_goal 2 => clear_value x); (on_goal 1 => subst x))
  apply State.touchQp_keeps (hm.sub rfl)
  with_reducible assumption
  split
  with_reducible apply keepsQ_error
  apply State.badQp_keeps (hm.sub rfl)
  with_reducible assumption
  split
  with_reducible apply keepsQ_error
  apply State.coldArrival_keeps (hm.sub rfl)
  with_reducible assumption
  split
  with_reducible apply keepsQ_error
  with_reducible assumption
  split
  with_reducible apply keepsQ_error
  apply State.badQp_keeps (hm.sub rfl)
  with_reducible assumption
  split
  with_reducible apply keepsQ_error
  apply State.partMismatch_keeps (hm.sub rfl)
  with_reducible assumption
  split
  with_reducible apply keepsQ_error
  with_reducible assumption
  split
  with_reducible apply keepsQ_error
  (with_reducible refine keeps_of_some (by with_reducible assumption) ?_)
  apply State.passNamed_keeps (hm.sub rfl)
  with_reducible assumption
  with_reducible apply keepsQ_ok
  (with_reducible refine keeps_of_some (by with_reducible assumption) ?_)
  apply State.passNamed_keeps (hm.sub rfl)
  with_reducible assumption

theorem State.acceptRequest_keeps (hm : Within [.live, .run, .que, .lnk, .hst, .sum, .outbox] m) {a0 : State} (a1 : Arrival) (a2 : List Byte) (h0 : Keeps m z a0) : KeepsV m z (State.acceptRequest a0 a1 a2) := by
  unfold State.acceptRequest
  split
  with_reducible apply keepsV_done
  (with_reducible refine keeps_of_failq (by with_reducible assumption) ?_)
  apply State.packetCtx_keeps (hm.sub rfl)
  with_reducible assumption
  split
  with_reducible apply keepsV_done
  apply State.sendNak_keeps (hm.sub rfl)
  (with_reducible refine keeps_of_okq (by with_reducible assumption) ?_)
  apply State.packetCtx_keeps (hm.sub rfl)
  with_reducible assumption
  apply State.psnVerdict_keeps (hm.sub rfl)
  (with_reducible refine keeps_of_okq (by with_reducible assumption) ?_)
  apply State.packetCtx_keeps (hm.sub rfl)
  with_reducible assumption

theorem State.sendMessage_keeps (hm : Within [.live, .run, .que, .lnk, .hst, .sum, .outbox] m) {a0 : State} (a1 : ℕ) (a2 : ℕ) (a3 : ℕ) (a4 : Bool) (a5 : List Byte) (a6 : ℕ) (h0 : Keeps m z a0) : Keeps m z (State.sendMessage a0 a1 a2 a3 a4 a5 a6) := by
  unfold State.sendMessage
  split
  with_reducible assumption
  lift_lets
  iterate 2 (intro x; clear_value x)
  apply State.sendTransport_keeps (hm.sub rfl)
  apply State.putQp_keeps (hm.sub rfl)
  with_reducible assumption

theorem State.resendFrom_keeps (hm : Within [.live, .run, .lnk, .hst, .sum, .outbox] m) {a0 : State} (a1 : ℕ) (a2 : ℕ) (h0 : Keeps m z a0) : Keeps m z (State.resendFrom a0 a1 a2) := by
  unfold State.resendFrom
  split
  with_reducible assumption
  (with_reducible refine keeps_foldl (fun s a hs => ?_) ?_)
  apply State.sendTransport_keeps (hm.sub rfl)
  with_reducible assumption
  with_reducible assumption

theorem State.systemQp_keeps (hm : Within [.live, .que, .hst, .outbox, .freeCtr] m) {a0 : State} (a1 : ℕ) (h0 : Keeps m z a0) : Keeps m z (State.systemQp a0 a1).2 := by
  unfold State.systemQp
  split
  with_reducible assumption
  lift_lets
  (intro x; clear_value x)
  (intro x; refine keeps_cut (p := Keeps m z x.2) ?_ (fun hx => ?_); (on_goal 2 => clear_value x); (on_goal 1 => subst x))
  apply State.fresh_keeps (hm.sub rfl)
  with_reducible assumption
  (intro x; have _ : Keeps m z x := (by subst x; with_reducible assumption); subst x)
  iterate 3 (intro x; clear_value x)
  (intro (x : QueSt); subst x)
  (intro x; refine keeps_cut (p := Keeps m z x) ?_ (fun hx => ?_); (on_goal 2 => clear_value x); (on_goal 1 => subst x))
  with_reducible refine keeps_mk (h := ?_)
  with_reducible assumption
  (intro (x : QueSt); subst x)
  split
  dsimp only
  apply State.refreshQue_keeps (hm.sub rfl)
  with_reducible refine keeps_mk (h := ?_)
  with_reducible assumption
  dsimp only
  apply State.hostWrite_keeps (hm.sub rfl)
  with_reducible refine keeps_mk (h := ?_)
  with_reducible assumption

theorem State.sendLater_keeps (hm : Within [.live, .run, .que, .lnk, .hst, .sum, .outbox] m) {a0 : State} (a1 : ℕ) (h0 : Keeps m z a0) : Keeps m z (State.sendLater a0 a1) := by
  unfold State.sendLater
  (with_reducible refine keeps_foldl (fun s a hs => ?_) ?_)
  split
  apply State.sendMessage_keeps (hm.sub rfl)
  apply State.touchQp_keeps (hm.sub rfl)
  with_reducible refine keeps_mk (h := ?_)
  with_reducible assumption
  with_reducible assumption
  with_reducible assumption

theorem State.nodeOp_keeps (hm : Within [.live, .run, .que, .lnk, .hst, .sum, .outbox, .freeCtr] m) {a0 : State} (a1 : ℕ) (a2 : List Byte) (a3 : OpKind) (a4 : ℕ) (a5 : Bool) (h0 : Keeps m z a0) : Keeps m z (State.nodeOp a0 a1 a2 a3 a4 a5) := by
  unfold State.nodeOp
  lift_lets
  (intro x; refine keeps_cut (p := Keeps m z x.2) ?_ (fun hx => ?_); (on_goal 2 => clear_value x); (on_goal 1 => subst x))
  apply State.systemQp_keeps (hm.sub rfl)
  with_reducible assumption
  (intro x; clear_value x)
  (intro x; have _ : Keeps m z x := (by subst x; with_reducible assumption); subst x)
  (intro x; clear_value x)
  (intro (x : QueSt); subst x)
  (intro x; refine keeps_cut (p := Keeps m z x) ?_ (fun hx => ?_); (on_goal 2 => clear_value x); (on_goal 1 => subst x))
  with_reducible refine keeps_mk (h := ?_)
  with_reducible assumption
  split
  apply State.startFetch_keeps (hm.sub rfl)
  with_reducible assumption
  apply State.sendLater_keeps (hm.sub rfl)
  with_reducible assumption

theorem State.freeResponses_keeps (hm : Within [.que] m) {a0 : State} (a1 : Qp) (h0 : Keeps m z a0) : Keeps m z (State.freeResponses a0 a1) := by
  unfold State.freeResponses
  with_reducible refine keeps_mk (h := ?_)
  with_reducible assumption

/-! ### Keys -/

theorem State.randomBytes_keeps (hm : Within [.sec] m) {a0 : State} (a1 : ℕ) (h0 : Keeps m z a0) : Keeps m z (State.randomBytes a0 a1).2 := by
  unfold State.randomBytes
  lift_lets
  (intro x; clear_value x)
  (intro (x : SecSt); subst x)
  dsimp only
  with_reducible refine keeps_mk (h := ?_)
  with_reducible assumption

theorem State.seedRandom_keeps (hm : Within [.sec, .freeCtr] m) {a0 : State} (h0 : Keeps m z a0) : Keeps m z (State.seedRandom a0) := by
  unfold State.seedRandom
  with_reducible refine keeps_mk (h := ?_)
  with_reducible assumption

theorem State.putFlash_keeps (hm : Within [.sys] m) {a0 : State} (a1 : Nat) (a2 : List Byte) (h0 : Keeps m z a0) : Keeps m z (State.putFlash a0 a1 a2) := by
  refine keeps_flash (hm.sub rfl) (fun h5 => ?_) h0
  have key : ∀ (l : List (Byte × Nat)) (f : List (Nat × Nat)), flashCanonical f = true →
      flashCanonical (l.foldl (fun f b => spSet 255 f (a1 + b.2) b.1.toNat) f) = true := by
    intro l
    induction l with
    | nil => intro f hf; exact hf
    | cons b l ih => intro f hf; exact ih _ (flashCanonical_spSet _ _ b.1.isLt hf)
  exact key _ _ h5

theorem State.beginTop_keeps (hm : Within [.sys] m) {a0 : State} (a1 : ℕ) (h0 : Keeps m z a0) : Keeps m z (State.beginTop a0 a1) := by
  unfold State.beginTop
  apply State.putFlash_keeps (hm.sub rfl)
  with_reducible assumption

theorem State.storeTop_keeps (hm : Within [.sys] m) {a0 : State} (a1 : ℕ) (a2 : List Byte) (h0 : Keeps m z a0) : Keeps m z (State.storeTop a0 a1 a2) := by
  unfold State.storeTop
  apply State.putFlash_keeps (hm.sub rfl)
  apply State.putFlash_keeps (hm.sub rfl)
  with_reducible assumption

theorem State.queueNonce_keeps (hm : Within [.sec] m) {a0 : State} (a1 : ℕ) (a2 : List Byte) (h0 : Keeps m z a0) : Keeps m z (State.queueNonce a0 a1 a2) := by
  unfold State.queueNonce
  split
  with_reducible refine keeps_mk (h := ?_)
  with_reducible assumption
  with_reducible refine keeps_mk (h := ?_)
  with_reducible assumption

theorem State.queueJoin_keeps (hm : Within [.live, .sec] m) {a0 : State} (h0 : Keeps m z a0) : Keeps m z (State.queueJoin a0) := by
  unfold State.queueJoin
  split
  with_reducible assumption
  apply State.setStatus_keeps (hm.sub rfl)
  apply State.queueNonce_keeps (hm.sub rfl)
  with_reducible assumption

end Sys2Proof.Machine
end

