-- ==== Sys2Proof/Laws/Keeps/Stores.lean ====
section
/-!
SUPPORT. What the operations of Machine/MemOps, MatOps, RunOps, ProgOps, Starts, WeightRepair, TierEcc, Windows, Admit keep: the parts of the state outside the list each lemma names, the queue, and the invariant.
-/

namespace Sys2Proof.Machine

open Sys2Proof

set_option Elab.async false

variable {m : List Blk} {z : State}

/-! ### MemOps -/

theorem State.startMove_keeps (hm : Within [.pgw, .mem] m) {a0 : State} (a1 : MoveKind) (a2 : PageRef) (a3 : List ℕ) (a4 : List Pair) (a5 : ℕ) (h0 : Keeps m z a0) : Keeps m z (State.startMove a0 a1 a2 a3 a4 a5).2 := by
  unfold State.startMove
  lift_lets
  iterate 2 (intro x; clear_value x)
  (intro x; refine keeps_cut (p := Keeps m z x) ?_ (fun hx => ?_); (on_goal 2 => clear_value x); (on_goal 1 => subst x))
  apply State.setPageAt_keeps (hm.sub rfl)
  with_reducible assumption
  (intro (x : MemSt); subst x)
  dsimp only
  with_reducible refine keeps_mk (h := ?_)
  with_reducible assumption

theorem State.abandonMove_keeps (hm : Within [.pgw, .mem] m) {a0 : State} (a1 : ℕ) (h0 : Keeps m z a0) : Keeps m z (State.abandonMove a0 a1) := by
  unfold State.abandonMove
  split
  with_reducible assumption
  lift_lets
  (intro x; clear_value x)
  (with_reducible refine keeps_foldl (fun s a hs => ?_) ?_)
  lift_lets
  (intro x; clear_value x)
  apply State.setPageAt_keeps (hm.sub rfl)
  with_reducible refine keeps_mk (h := ?_)
  with_reducible assumption
  with_reducible assumption

theorem State.readPage_keeps (hm : Within [.sch, .vsp] m) {a0 : State} (a1 : PageRef) (a2 : List ℕ) (h0 : Keeps m z a0) : Keeps m z (State.readPage a0 a1 a2) := by
  unfold State.readPage
  (with_reducible refine keeps_foldl (fun s a hs => ?_) ?_)
  lift_lets
  (intro x; clear_value x)
  split
  with_reducible assumption
  apply State.sendBursts_keeps (hm.sub rfl)
  with_reducible assumption
  with_reducible assumption

theorem State.wakeFetch_keeps (hm : Within [.sch] m) {a0 : State} (a1 : PageRef) (a2 : Pte) (h0 : Keeps m z a0) : Keeps m z (State.wakeFetch a0 a1 a2) := by
  unfold State.wakeFetch
  with_reducible refine keeps_mk (h := ?_)
  with_reducible assumption

theorem State.settleBacklog_keeps (hm : Within [.live] m) {a0 : State} (h0 : Keeps m z a0) : Keeps m z (State.settleBacklog a0) := by
  unfold State.settleBacklog
  split
  apply State.setStatus_keeps (hm.sub rfl)
  with_reducible assumption
  with_reducible assumption

theorem State.unowed_keeps (hm : Within [.live, .mem] m) {a0 : State} (a1 : PageRef) (h0 : Keeps m z a0) : Keeps m z (State.unowed a0 a1) := by
  unfold State.unowed
  apply State.settleBacklog_keeps (hm.sub rfl)
  with_reducible refine keeps_mk (h := ?_)
  with_reducible assumption

theorem State.switchMove_keeps (hm : Within [.live, .run, .pgw, .sch, .mem] m) {a0 : State} (a1 : ℕ) (h0 : Keeps m z a0) : Keeps m z (State.switchMove a0 a1) := by
  unfold State.switchMove
  split
  with_reducible assumption
  lift_lets
  (intro x; subst x)
  (intro x; clear_value x)
  (intro x; refine keeps_cut (p := Keeps m z x.2) ?_ (fun hx => ?_); (on_goal 2 => clear_value x); (on_goal 1 => subst x))
  apply State.enter_keeps (hm.sub rfl)
  with_reducible assumption
  (intro x; have _ : Keeps m z x := (by subst x; with_reducible assumption); subst x)
  (intro (x : MemSt); subst x)
  (intro x; refine keeps_cut (p := Keeps m z x) ?_ (fun hx => ?_); (on_goal 2 => clear_value x); (on_goal 1 => subst x))
  with_reducible refine keeps_mk (h := ?_)
  with_reducible assumption
  (intro x; subst x)
  iterate 3 (intro x; clear_value x)
  (intro x; refine keeps_cut (p := Keeps m z x) ?_ (fun hx => ?_); (on_goal 2 => clear_value x); (on_goal 1 => subst x))
  split
  apply State.freeSlots_keeps (hm.sub rfl)
  with_reducible assumption
  with_reducible assumption
  split
  apply State.bump_keeps (hm.sub rfl)
  apply State.freeSlots_keeps (hm.sub rfl)
  apply State.setPageAt_keeps (hm.sub rfl)
  with_reducible assumption
  apply State.bump_keeps (hm.sub rfl)
  apply State.freeSlots_keeps (hm.sub rfl)
  apply State.setPageAt_keeps (hm.sub rfl)
  with_reducible assumption
  apply State.bump_keeps (hm.sub rfl)
  apply State.freeSlots_keeps (hm.sub rfl)
  apply State.setPageAt_keeps (hm.sub rfl)
  with_reducible assumption
  apply State.wakeFetch_keeps (hm.sub rfl)
  apply State.bump_keeps (hm.sub rfl)
  apply State.setPageAt_keeps (hm.sub rfl)
  with_reducible assumption
  split
  apply State.bump_keeps (hm.sub rfl)
  apply State.setPageAt_keeps (hm.sub rfl)
  with_reducible assumption
  apply State.bump_keeps (hm.sub rfl)
  apply State.freeSlots_keeps (hm.sub rfl)
  apply State.setPageAt_keeps (hm.sub rfl)
  with_reducible assumption
  apply State.freeSlots_keeps (hm.sub rfl)
  apply State.setPageAt_keeps (hm.sub rfl)
  with_reducible assumption
  split
  apply State.freeSlots_keeps (hm.sub rfl)
  apply State.setPageAt_keeps (hm.sub rfl)
  with_reducible assumption
  split
  apply State.freeSlots_keeps (hm.sub rfl)
  apply State.setPageAt_keeps (hm.sub rfl)
  with_reducible assumption
  apply State.setPageAt_keeps (hm.sub rfl)
  with_reducible assumption
  apply State.unowed_keeps (hm.sub rfl)
  apply State.setPageAt_keeps (hm.sub rfl)
  with_reducible assumption
  apply State.setPageAt_keeps (hm.sub rfl)
  with_reducible assumption
  apply State.freeSlots_keeps (hm.sub rfl)
  apply State.setPageAt_keeps (hm.sub rfl)
  with_reducible assumption

theorem State.sendPool_keeps (hm : Within [.live, .run, .que, .lnk, .hst, .sum, .outbox, .freeCtr] m) {a0 : State} (a1 : ℕ) (a2 : Move) (h0 : Keeps m z a0) : Keeps m z (State.sendPool a0 a1 a2) := by
  unfold State.sendPool
  lift_lets
  iterate 5 (intro x; clear_value x)
  apply State.nodeOp_keeps (hm.sub rfl)
  with_reducible assumption

theorem State.spanSwitch_keeps (hm : Within [.live, .run, .pgw, .sch, .mem, .outbox] m) {a0 : State} (a1 : ℕ) (h0 : Keeps m z a0) : Keeps m z (State.spanSwitch a0 a1) := by
  unfold State.spanSwitch
  split
  with_reducible assumption
  lift_lets
  (intro (x : MemSt); subst x)
  (intro x; refine keeps_cut (p := Keeps m z x) ?_ (fun hx => ?_); (on_goal 2 => clear_value x); (on_goal 1 => subst x))
  with_reducible refine keeps_mk (h := ?_)
  with_reducible assumption
  (intro x; clear_value x)
  (intro x; refine keeps_cut (p := Keeps m z x) ?_ (fun hx => ?_); (on_goal 2 => clear_value x); (on_goal 1 => subst x))
  split
  apply State.emit_keeps (hm.sub rfl)
  with_reducible assumption
  with_reducible assumption
  split
  with_reducible assumption
  (with_reducible refine keeps_foldl (fun s a hs => ?_) ?_)
  apply State.switchMove_keeps (hm.sub rfl)
  with_reducible assumption
  with_reducible assumption

theorem State.movePair_keeps (hm : Within [.live, .run, .pgw, .sch, .que, .mem, .lnk, .hst, .sum, .outbox, .freeCtr] m) {a0 : State} (a1 : PageRef) (a2 : ℕ) (a3 : Pair) (h0 : Keeps m z a0) : Keeps m z (State.movePair a0 a1 a2 a3) := by
  unfold State.movePair
  split
  with_reducible assumption
  lift_lets
  (intro x; clear_value x)
  (intro (x : MemSt); subst x)
  (intro x; refine keeps_cut (p := Keeps m z x) ?_ (fun hx => ?_); (on_goal 2 => clear_value x); (on_goal 1 => subst x))
  with_reducible refine keeps_mk (h := ?_)
  with_reducible assumption
  iterate 2 (intro x; clear_value x)
  split
  with_reducible assumption
  split
  apply State.switchMove_keeps (hm.sub rfl)
  with_reducible assumption
  apply State.switchMove_keeps (hm.sub rfl)
  with_reducible assumption
  apply State.switchMove_keeps (hm.sub rfl)
  with_reducible assumption
  apply State.switchMove_keeps (hm.sub rfl)
  with_reducible assumption
  apply State.switchMove_keeps (hm.sub rfl)
  with_reducible assumption
  apply State.spanSwitch_keeps (hm.sub rfl)
  with_reducible assumption
  apply State.sendPool_keeps (hm.sub rfl)
  with_reducible assumption
  split
  with_reducible assumption
  apply State.nodeOp_keeps (hm.sub rfl)
  apply State.emit_keeps (hm.sub rfl)
  with_reducible assumption
  with_reducible assumption

theorem State.spillPool_keeps (hm : Within [.pgw, .mem] m) {a0 : State} (a1 : PageRef) (a2 : ℕ) (a3 : ℕ) (h0 : Keeps m z a0) : Keeps m z (State.spillPool a0 a1 a2 a3) := by
  unfold State.spillPool
  apply State.startMove_keeps (hm.sub rfl)
  with_reducible assumption

theorem State.spillHost_keeps (hm : Within [.pgw, .mem, .sec, .hst, .outbox] m) {a0 : State} (a1 : PageRef) (a2 : ℕ) (h0 : Keeps m z a0) : Keeps m z (State.spillHost a0 a1 a2) := by
  unfold State.spillHost
  lift_lets
  iterate 2 (intro x; clear_value x)
  (intro (x : SecSt); subst x)
  (intro x; refine keeps_cut (p := Keeps m z x) ?_ (fun hx => ?_); (on_goal 2 => clear_value x); (on_goal 1 => subst x))
  with_reducible refine keeps_mk (h := ?_)
  with_reducible assumption
  (intro x; refine keeps_cut (p := Keeps m z x.2) ?_ (fun hx => ?_); (on_goal 2 => clear_value x); (on_goal 1 => subst x))
  apply State.startMove_keeps (hm.sub rfl)
  with_reducible assumption
  apply State.hostWrite_keeps (hm.sub rfl)
  with_reducible assumption

theorem State.spillTier2_keeps (hm : Within [.pgw, .mem, .sec, .hst, .outbox] m) {a0 : State} (a1 : PageRef) (a2 : ℕ) (h0 : Keeps m z a0) : KeepsO m z (State.spillTier2 a0 a1 a2) := by
  unfold State.spillTier2
  lift_lets
  iterate 3 (intro x; clear_value x)
  split
  with_reducible apply keepsO_some
  apply State.spillPool_keeps (hm.sub rfl)
  with_reducible assumption
  split
  (with_reducible refine keepsO_map (fun _ => ?_))
  apply State.spillHost_keeps (hm.sub rfl)
  with_reducible assumption
  with_reducible apply keepsO_none

theorem State.fetchAt_keeps (hm : Within [.live, .run, .pgw, .que, .mem, .lnk, .hst, .sum, .outbox, .freeCtr] m) {a0 : State} (a1 : PageRef) (a2 : ℕ) (a3 : Bool) (h0 : Keeps m z a0) : KeepsO m z (State.fetchAt a0 a1 a2 a3) := by
  unfold State.fetchAt
  lift_lets
  iterate 3 (intro x; clear_value x)
  (intro (x : PgwSt); subst x)
  split
  with_reducible apply keepsO_none
  split
  split
  with_reducible apply keepsO_none
  lift_lets
  (intro x; refine keeps_cut (p := Keeps m z x) ?_ (fun hx => ?_); (on_goal 2 => clear_value x); (on_goal 1 => subst x))
  with_reducible refine keeps_mk (h := ?_)
  with_reducible assumption
  (intro x; refine keeps_cut (p := Keeps m z x.2) ?_ (fun hx => ?_); (on_goal 2 => clear_value x); (on_goal 1 => subst x))
  apply State.startMove_keeps (hm.sub rfl)
  with_reducible assumption
  (intro x; have _ : Keeps m z x := (by subst x; with_reducible assumption); subst x)
  (intro (x : MemSt); subst x)
  (intro x; refine keeps_cut (p := Keeps m z x.2) ?_ (fun hx => ?_); (on_goal 2 => clear_value x); (on_goal 1 => subst x))
  dsimp only
  with_reducible refine keeps_mk (h := ?_)
  with_reducible assumption
  with_reducible apply keepsO_some
  apply State.nodeOp_keeps (hm.sub rfl)
  with_reducible assumption
  split
  with_reducible apply keepsO_none
  lift_lets
  (intro x; refine keeps_cut (p := Keeps m z x) ?_ (fun hx => ?_); (on_goal 2 => clear_value x); (on_goal 1 => subst x))
  with_reducible refine keeps_mk (h := ?_)
  with_reducible assumption
  (intro x; refine keeps_cut (p := Keeps m z x.2) ?_ (fun hx => ?_); (on_goal 2 => clear_value x); (on_goal 1 => subst x))
  apply State.startMove_keeps (hm.sub rfl)
  with_reducible assumption
  apply State.hostRead_keeps (hm.sub rfl)
  with_reducible assumption
  with_reducible apply keepsO_none

theorem State.fetchPage_keeps (hm : Within [.live, .run, .pgw, .que, .mem, .lnk, .hst, .sum, .outbox, .freeCtr] m) {a0 : State} (a1 : PageRef) (h0 : Keeps m z a0) : KeepsO m z (State.fetchPage a0 a1) := by
  unfold State.fetchPage
  apply State.fetchAt_keeps (hm.sub rfl)
  with_reducible assumption

theorem State.makeRoom1_keeps (hm : Within [.pgw, .mem, .sec, .hst, .outbox] m) {a0 : State} (a1 : PageRef) (h0 : Keeps m z a0) : Keeps m z (State.makeRoom1 a0 a1) := by
  unfold State.makeRoom1
  lift_lets
  (intro x; clear_value x)
  split
  with_reducible assumption
  split
  with_reducible apply keeps_getD
  apply State.spillTier2_keeps (hm.sub rfl)
  with_reducible assumption
  with_reducible assumption
  with_reducible assumption

theorem State.dusk0_keeps (hm : Within [.run, .pgw, .sch, .vsp, .mem, .sec, .hst, .outbox] m) {a0 : State} (a1 : ℕ) (a2 : Bool) (a3 : List PageRef) (a4 : ℕ) (h0 : Keeps m z a0) : Keeps m z (State.dusk0 a0 a1 a2 a3 a4) := by
  induction a4 generalizing a0 a1 a2 a3 with
  | zero =>
    unfold State.dusk0
    with_reducible assumption
  | succ k ih =>
    unfold State.dusk0
    split
    with_reducible assumption
    split
    with_reducible assumption
    split
    with_reducible apply ih
    apply State.dropCopy_keeps (hm.sub rfl)
    with_reducible assumption
    split
    with_reducible apply ih
    apply State.makeRoom1_keeps (hm.sub rfl)
    with_reducible assumption
    lift_lets
    (intro (x : PgwSt); subst x)
    (intro x; refine keeps_cut (p := Keeps m z x) ?_ (fun hx => ?_); (on_goal 2 => clear_value x); (on_goal 1 => subst x))
    with_reducible refine keeps_mk (h := ?_)
    with_reducible assumption
    with_reducible apply ih
    apply State.readPage_keeps (hm.sub rfl)
    apply State.startMove_keeps (hm.sub rfl)
    with_reducible assumption

theorem State.dusk1_keeps (hm : Within [.pgw, .mem, .sec, .hst, .outbox] m) {a0 : State} (a1 : ℕ) (a2 : List PageRef) (a3 : ℕ) (h0 : Keeps m z a0) : Keeps m z (State.dusk1 a0 a1 a2 a3) := by
  induction a3 generalizing a0 a1 a2 with
  | zero =>
    unfold State.dusk1
    with_reducible assumption
  | succ k ih =>
    unfold State.dusk1
    split
    with_reducible assumption
    split
    with_reducible assumption
    split
    with_reducible apply ih
    (with_reducible refine keeps_of_some (by with_reducible assumption) ?_)
    apply State.spillTier2_keeps (hm.sub rfl)
    with_reducible assumption
    with_reducible apply ih
    with_reducible assumption

theorem State.shrink0_keeps (hm : Within [.run, .pgw, .sch, .vsp, .mem] m) {a0 : State} (a1 : ℕ) (a2 : ℕ) (a3 : ℕ) (h0 : Keeps m z a0) : Keeps m z (State.shrink0 a0 a1 a2 a3) := by
  induction a3 generalizing a0 a1 a2 with
  | zero =>
    unfold State.shrink0
    with_reducible assumption
  | succ k ih =>
    unfold State.shrink0
    split
    with_reducible assumption
    split
    with_reducible assumption
    lift_lets
    (intro x; clear_value x)
    (intro (x : PgwSt); subst x)
    split
    with_reducible apply ih
    apply State.dropCopy_keeps (hm.sub rfl)
    with_reducible assumption
    split
    with_reducible assumption
    lift_lets
    (intro x; refine keeps_cut (p := Keeps m z x) ?_ (fun hx => ?_); (on_goal 2 => clear_value x); (on_goal 1 => subst x))
    with_reducible refine keeps_mk (h := ?_)
    with_reducible assumption
    with_reducible apply ih
    apply State.readPage_keeps (hm.sub rfl)
    apply State.startMove_keeps (hm.sub rfl)
    with_reducible assumption

theorem State.shrink1_keeps (hm : Within [.pgw, .mem, .sec, .hst, .outbox] m) {a0 : State} (a1 : ℕ) (a2 : ℕ) (a3 : List PageRef) (a4 : ℕ) (h0 : Keeps m z a0) : Keeps m z (State.shrink1 a0 a1 a2 a3 a4) := by
  induction a4 generalizing a0 a1 a2 a3 with
  | zero =>
    unfold State.shrink1
    with_reducible assumption
  | succ k ih =>
    unfold State.shrink1
    split
    with_reducible assumption
    split
    with_reducible assumption
    split
    with_reducible apply ih
    (with_reducible refine keeps_of_some (by with_reducible assumption) ?_)
    apply State.spillTier2_keeps (hm.sub rfl)
    with_reducible assumption
    with_reducible apply ih
    with_reducible assumption

theorem State.shareMinute_keeps (hm : Within [.run, .pgw, .sch, .vsp, .mem, .sec, .hst, .outbox] m) {a0 : State} (h0 : Keeps m z a0) : Keeps m z (State.shareMinute a0) := by
  unfold State.shareMinute
  split
  with_reducible assumption
  (with_reducible refine keeps_foldl (fun s a hs => ?_) ?_)
  lift_lets
  iterate 2 (intro x; clear_value x)
  (intro x; refine keeps_cut (p := Keeps m z x) ?_ (fun hx => ?_); (on_goal 2 => clear_value x); (on_goal 1 => subst x))
  split
  with_reducible assumption
  apply State.shrink0_keeps (hm.sub rfl)
  with_reducible assumption
  split
  with_reducible assumption
  apply State.shrink1_keeps (hm.sub rfl)
  with_reducible assumption
  with_reducible assumption

theorem State.duskMinute_keeps (hm : Within [.live, .run, .pgw, .sch, .vsp, .mem, .sec, .hst, .outbox] m) {a0 : State} (h0 : Keeps m z a0) : Keeps m z (State.duskMinute a0) := by
  unfold State.duskMinute
  lift_lets
  iterate 6 (intro x; clear_value x)
  (intro x; refine keeps_cut (p := Keeps m z x) ?_ (fun hx => ?_); (on_goal 2 => clear_value x); (on_goal 1 => subst x))
  apply State.putStatus_keeps (hm.sub rfl)
  with_reducible assumption
  iterate 2 (intro x; clear_value x)
  (intro (x : MemSt); subst x)
  (intro x; refine keeps_cut (p := Keeps m z x) ?_ (fun hx => ?_); (on_goal 2 => clear_value x); (on_goal 1 => subst x))
  with_reducible refine keeps_mk (h := ?_)
  with_reducible assumption
  (intro x; clear_value x)
  (intro x; refine keeps_cut (p := Keeps m z x) ?_ (fun hx => ?_); (on_goal 2 => clear_value x); (on_goal 1 => subst x))
  split
  apply State.dusk0_keeps (hm.sub rfl)
  with_reducible assumption
  with_reducible assumption
  split
  apply State.dusk1_keeps (hm.sub rfl)
  with_reducible assumption
  with_reducible assumption

theorem State.shadowMinute_keeps (hm : Within [.live, .pgw, .sch, .vsp, .mem, .sec, .hst, .outbox] m) {a0 : State} (a1 : List PageRef) (h0 : Keeps m z a0) : Keeps m z (State.shadowMinute a0 a1) := by
  induction a1 generalizing a0 with
  | nil =>
    unfold State.shadowMinute
    apply State.settleBacklog_keeps (hm.sub rfl)
    with_reducible assumption
  | cons x t ih =>
    unfold State.shadowMinute
    lift_lets
    (intro x; clear_value x)
    (intro (x : PgwSt); subst x)
    split
    with_reducible apply ih
    with_reducible assumption
    split
    with_reducible apply ih
    apply State.unowed_keeps (hm.sub rfl)
    with_reducible assumption
    split
    with_reducible apply ih
    with_reducible assumption
    split
    with_reducible apply ih
    apply State.makeRoom1_keeps (hm.sub rfl)
    with_reducible assumption
    lift_lets
    (intro x; refine keeps_cut (p := Keeps m z x) ?_ (fun hx => ?_); (on_goal 2 => clear_value x); (on_goal 1 => subst x))
    with_reducible refine keeps_mk (h := ?_)
    with_reducible assumption
    with_reducible apply ih
    apply State.readPage_keeps (hm.sub rfl)
    apply State.startMove_keeps (hm.sub rfl)
    with_reducible assumption

theorem State.leaveUnit_keeps (hm : Within [.pgw, .mem] m) {a0 : State} (a1 : PageRef × Pte) (h0 : Keeps m z a0) : Keeps m z (State.leaveUnit a0 a1) := by
  unfold State.leaveUnit
  split
  with_reducible assumption
  split
  with_reducible assumption
  apply State.startMove_keeps (hm.sub rfl)
  with_reducible refine keeps_mk (h := ?_)
  with_reducible assumption

theorem State.leaveUnits_keeps (hm : Within [.pgw, .mem] m) {a0 : State} (h0 : Keeps m z a0) : Keeps m z (State.leaveUnits a0) := by
  unfold State.leaveUnits
  (with_reducible refine keeps_foldl (fun s a hs => ?_) ?_)
  (with_reducible refine keeps_foldl (fun s a hs => ?_) ?_)
  apply State.leaveUnit_keeps (hm.sub rfl)
  with_reducible assumption
  with_reducible assumption
  with_reducible assumption

theorem State.askHolder_keeps (hm : Within [.pgw, .outbox] m) {a0 : State} (a1 : PageRef) (h0 : Keeps m z a0) : Keeps m z (State.askHolder a0 a1) := by
  unfold State.askHolder
  lift_lets
  (intro x; clear_value x)
  split
  with_reducible assumption
  lift_lets
  (intro x; clear_value x)
  apply State.emit_keeps (hm.sub rfl)
  (with_reducible refine keeps_foldl (fun s a hs => ?_) ?_)
  lift_lets
  (intro x; clear_value x)
  apply State.setPageAt_keeps (hm.sub rfl)
  with_reducible assumption
  with_reducible assumption

theorem State.fetchMinute_keeps (hm : Within [.live, .run, .pgw, .que, .mem, .lnk, .hst, .sum, .outbox, .freeCtr] m) {a0 : State} (h0 : Keeps m z a0) : Keeps m z (State.fetchMinute a0) := by
  unfold State.fetchMinute
  lift_lets
  iterate 3 (intro x; clear_value x)
  (intro x; refine keeps_cut (p := Keeps m z x) ?_ (fun hx => ?_); (on_goal 2 => clear_value x); (on_goal 1 => subst x))
  (with_reducible refine keeps_foldl (fun s a hs => ?_) ?_)
  with_reducible apply keeps_getD
  apply State.fetchAt_keeps (hm.sub rfl)
  with_reducible assumption
  with_reducible assumption
  with_reducible assumption
  (with_reducible refine keeps_foldl (fun s a hs => ?_) ?_)
  with_reducible apply keeps_getD
  apply State.fetchPage_keeps (hm.sub rfl)
  with_reducible assumption
  with_reducible assumption
  with_reducible assumption

theorem State.dawnWant_keeps (hm : Within [.live, .run, .pgw, .que, .mem, .lnk, .hst, .sum, .outbox, .freeCtr] m) {a0 : State} (a1 : PageRef) (h0 : Keeps m z a0) : Keeps m z (State.dawnWant a0 a1) := by
  unfold State.dawnWant
  lift_lets
  (intro x; clear_value x)
  (intro x; refine keeps_cut (p := Keeps m z x) ?_ (fun hx => ?_); (on_goal 2 => clear_value x); (on_goal 1 => subst x))
  split
  with_reducible assumption
  with_reducible apply keeps_getD
  apply State.fetchPage_keeps (hm.sub rfl)
  with_reducible assumption
  with_reducible assumption
  (intro (x : MemSt); subst x)
  split
  apply State.askHolder_keeps (hm.sub rfl)
  with_reducible assumption
  split
  with_reducible assumption
  split
  with_reducible assumption
  with_reducible refine keeps_mk (h := ?_)
  with_reducible assumption

theorem State.promoteAll_keeps (hm : Within [.pgw, .mem] m) {a0 : State} (a1 : List PageRef) (h0 : Keeps m z a0) : Keeps m z (State.promoteAll a0 a1) := by
  induction a1 generalizing a0 with
  | nil =>
    unfold State.promoteAll
    with_reducible assumption
  | cons x t ih =>
    unfold State.promoteAll
    lift_lets
    (intro x; clear_value x)
    (intro x; refine keeps_cut (p := ∀ s0, Keeps m z s0 → Keeps m z (x s0)) ?_ (fun hf0 => ?_); (on_goal 2 => clear_value x); (on_goal 1 => (intro s0 hs0; subst x; beta_reduce)))
    lift_lets
    (intro (x : MemSt); subst x)
    with_reducible refine keeps_mk (h := ?_)
    with_reducible assumption
    (intro (x : PgwSt); subst x)
    split
    with_reducible apply ih
    with_reducible apply hf0
    with_reducible assumption
    split
    with_reducible apply ih
    with_reducible assumption
    split
    with_reducible apply ih
    with_reducible assumption
    split
    with_reducible apply ih
    with_reducible assumption
    split
    with_reducible apply ih
    with_reducible apply hf0
    with_reducible assumption
    split
    with_reducible apply ih
    with_reducible assumption
    lift_lets
    (intro x; refine keeps_cut (p := Keeps m z x) ?_ (fun hx => ?_); (on_goal 2 => clear_value x); (on_goal 1 => subst x))
    with_reducible apply hf0
    with_reducible refine keeps_mk (h := ?_)
    with_reducible assumption
    with_reducible apply ih
    apply State.startMove_keeps (hm.sub rfl)
    with_reducible assumption

theorem State.isoDawn_keeps (hm : Within [.live, .run, .pgw, .que, .mem, .lnk, .hst, .sum, .outbox, .freeCtr] m) {a0 : State} (h0 : Keeps m z a0) : Keeps m z (State.isoDawn a0) := by
  unfold State.isoDawn
  lift_lets
  (intro x; clear_value x)
  (with_reducible refine keeps_foldl (fun s a hs => ?_) ?_)
  apply State.dawnWant_keeps (hm.sub rfl)
  with_reducible assumption
  with_reducible assumption

theorem State.dawnMinute_keeps (hm : Within [.live, .run, .pgw, .que, .mem, .lnk, .hst, .sum, .outbox, .freeCtr] m) {a0 : State} (h0 : Keeps m z a0) : Keeps m z (State.dawnMinute a0) := by
  unfold State.dawnMinute
  split
  with_reducible assumption
  lift_lets
  (intro x; refine keeps_cut (p := Keeps m z x) ?_ (fun hx => ?_); (on_goal 2 => clear_value x); (on_goal 1 => subst x))
  apply State.isoDawn_keeps (hm.sub rfl)
  with_reducible assumption
  iterate 2 (intro x; clear_value x)
  apply State.promoteAll_keeps (hm.sub rfl)
  with_reducible assumption

theorem State.evacuate_keeps (hm : Within [.pgw, .sch, .vsp, .mem] m) {a0 : State} (a1 : List (PageRef × Pte)) (h0 : Keeps m z a0) : Keeps m z (State.evacuate a0 a1) := by
  induction a1 generalizing a0 with
  | nil =>
    unfold State.evacuate
    with_reducible assumption
  | cons x t ih =>
    unfold State.evacuate
    split
    with_reducible apply ih
    with_reducible assumption
    split
    with_reducible apply ih
    with_reducible assumption
    lift_lets
    (intro (x : PgwSt); subst x)
    (intro x; refine keeps_cut (p := Keeps m z x) ?_ (fun hx => ?_); (on_goal 2 => clear_value x); (on_goal 1 => subst x))
    with_reducible refine keeps_mk (h := ?_)
    with_reducible assumption
    with_reducible apply ih
    apply State.readPage_keeps (hm.sub rfl)
    apply State.startMove_keeps (hm.sub rfl)
    with_reducible assumption

theorem State.recordFail_keeps (hm : Within [.live] m) {a0 : State} (a1 : ℕ) (a2 : Bool) (a3 : Bool) (a4 : ℕ) (a5 : Bool) (h0 : Keeps m z a0) : Keeps m z (State.recordFail a0 a1 a2 a3 a4 a5) := by
  unfold State.recordFail
  lift_lets
  (intro x; clear_value x)
  apply State.setLive_keeps (hm.sub rfl)
  apply State.setLive_keeps (hm.sub rfl)
  with_reducible assumption

theorem State.fetchFailed_keeps (hm : Within [.live, .run, .pgw, .que, .mem, .lnk, .hst, .sum, .outbox, .freeCtr] m) {a0 : State} (a1 : ℕ) (h0 : Keeps m z a0) : Keeps m z (State.fetchFailed a0 a1) := by
  unfold State.fetchFailed
  split
  with_reducible assumption
  lift_lets
  (intro x; clear_value x)
  (intro x; refine keeps_cut (p := Keeps m z x) ?_ (fun hx => ?_); (on_goal 2 => clear_value x); (on_goal 1 => subst x))
  apply State.raiseBit_keeps (hm.sub rfl)
  with_reducible assumption
  (intro (x : MemSt); subst x)
  split
  lift_lets
  (intro x; clear_value x)
  (intro x; refine keeps_cut (p := Keeps m z x) ?_ (fun hx => ?_); (on_goal 2 => clear_value x); (on_goal 1 => subst x))
  with_reducible refine keeps_mk (h := ?_)
  with_reducible assumption
  split
  apply State.nodeOp_keeps (hm.sub rfl)
  with_reducible assumption
  apply State.markLost_keeps (hm.sub rfl)
  apply State.abandonMove_keeps (hm.sub rfl)
  with_reducible assumption
  apply State.markLost_keeps (hm.sub rfl)
  apply State.abandonMove_keeps (hm.sub rfl)
  with_reducible assumption

theorem State.fetchDone_keeps (hm : Within [.live, .run, .pgw, .sch, .que, .mem, .lnk, .sec, .hst, .sum, .outbox, .freeCtr] m) {a0 : State} (a1 : ℕ) (a2 : List Byte) (h0 : Keeps m z a0) : Keeps m z (State.fetchDone a0 a1 a2) := by
  unfold State.fetchDone
  split
  with_reducible assumption
  lift_lets
  iterate 3 (intro x; clear_value x)
  (intro (x : MemSt); subst x)
  (intro x; refine keeps_cut (p := Keeps m z x) ?_ (fun hx => ?_); (on_goal 2 => clear_value x); (on_goal 1 => subst x))
  apply State.switchMove_keeps (hm.sub rfl)
  with_reducible refine keeps_mk (h := ?_)
  with_reducible assumption
  split
  split
  with_reducible apply keeps_getD
  apply State.spillTier2_keeps (hm.sub rfl)
  with_reducible assumption
  with_reducible assumption
  with_reducible assumption
  apply State.fetchFailed_keeps (hm.sub rfl)
  with_reducible assumption

theorem State.spillFailed_keeps (hm : Within [.pgw, .mem, .sec, .hst, .outbox] m) {a0 : State} (a1 : ℕ) (h0 : Keeps m z a0) : Keeps m z (State.spillFailed a0 a1) := by
  unfold State.spillFailed
  split
  with_reducible assumption
  lift_lets
  (intro x; refine keeps_cut (p := Keeps m z x) ?_ (fun hx => ?_); (on_goal 2 => clear_value x); (on_goal 1 => subst x))
  apply State.abandonMove_keeps (hm.sub rfl)
  with_reducible assumption
  split
  with_reducible apply keeps_getD
  apply State.spillTier2_keeps (hm.sub rfl)
  with_reducible assumption
  with_reducible assumption
  with_reducible assumption

/-! ### MatOps -/

theorem State.fixCell_keeps (hm : Within [.mat] m) {a0 : State} (a1 : ℕ) (h0 : Keeps m z a0) : Keeps m z (State.fixCell a0 a1) := by
  unfold State.fixCell
  with_reducible refine keeps_mk (h := ?_)
  with_reducible assumption

theorem State.tcamSearch_keeps (hm : Within [.live, .mat, .hst, .sum, .outbox] m) {a0 : State} (a1 : List ℕ) (a2 : ℕ) (a3 : ℕ) (h0 : Keeps m z a0) : Keeps m z (State.tcamSearch a0 a1 a2 a3).2 := by
  unfold State.tcamSearch
  split
  with_reducible assumption
  split
  with_reducible assumption
  lift_lets
  (intro x; refine keeps_cut (p := Keeps m z x) ?_ (fun hx => ?_); (on_goal 2 => clear_value x); (on_goal 1 => subst x))
  apply State.raiseBit_keeps (hm.sub rfl)
  apply State.fixCell_keeps (hm.sub rfl)
  with_reducible assumption
  split
  with_reducible assumption
  with_reducible assumption

theorem State.keyFind_keeps (hm : Within [.live, .mat, .hst, .sum, .outbox] m) {a0 : State} (a1 : ℕ) (a2 : ℕ) (a3 : ℕ) (h0 : Keeps m z a0) : Keeps m z (State.keyFind a0 a1 a2 a3).2 := by
  unfold State.keyFind
  lift_lets
  (intro x; refine keeps_cut (p := Keeps m z x.2) ?_ (fun hx => ?_); (on_goal 2 => clear_value x); (on_goal 1 => subst x))
  apply State.tcamSearch_keeps (hm.sub rfl)
  with_reducible assumption
  with_reducible assumption

theorem State.keyAttach_keeps (hm : Within [.mat] m) {a0 : State} (a1 : ℕ) (a2 : ℕ) (a3 : ℕ) (a4 : ℕ) (h0 : Keeps m z a0) : Keeps m z (State.keyAttach a0 a1 a2 a3 a4) := by
  unfold State.keyAttach
  split
  with_reducible assumption
  apply State.fixCell_keeps (hm.sub rfl)
  with_reducible refine keeps_mk (h := ?_)
  with_reducible assumption

theorem State.keyDetach_keeps (hm : Within [.mat] m) {a0 : State} (a1 : ℕ) (a2 : ℕ) (a3 : ℕ) (h0 : Keeps m z a0) : Keeps m z (State.keyDetach a0 a1 a2 a3) := by
  unfold State.keyDetach
  lift_lets
  (intro x; clear_value x)
  (intro x; refine keeps_cut (p := Keeps m z x) ?_ (fun hx => ?_); (on_goal 2 => clear_value x); (on_goal 1 => subst x))
  (with_reducible refine keeps_foldl (fun s a hs => ?_) ?_)
  apply State.fixCell_keeps (hm.sub rfl)
  with_reducible assumption
  with_reducible assumption
  (intro (x : MatSt); subst x)
  with_reducible refine keeps_mk (h := ?_)
  with_reducible assumption

theorem State.putImage_keeps (hm : Within [.mat] m) {a0 : State} (a1 : ℕ) (a2 : Image) (h0 : Keeps m z a0) : Keeps m z (State.putImage a0 a1 a2) := by
  unfold State.putImage
  with_reducible refine keeps_mk (h := ?_)
  with_reducible assumption

theorem State.imageSearch_keeps (hm : Within [.live, .mat, .hst, .sum, .outbox] m) {a0 : State} (a1 : Image) (a2 : List Byte) (h0 : Keeps m z a0) : Keeps m z (State.imageSearch a0 a1 a2).2 := by
  unfold State.imageSearch
  split
  with_reducible assumption
  lift_lets
  (intro x; refine keeps_cut (p := Keeps m z x.2) ?_ (fun hx => ?_); (on_goal 2 => clear_value x); (on_goal 1 => subst x))
  apply State.tcamSearch_keeps (hm.sub rfl)
  with_reducible assumption
  split
  with_reducible assumption
  with_reducible assumption

theorem State.ruleStatus_keeps (hm : Within [.live] m) {a0 : State} (a1 : ℕ) (h0 : Keeps m z a0) : Keeps m z (State.ruleStatus a0 a1) := by
  unfold State.ruleStatus
  apply State.putStatus_keeps (hm.sub rfl)
  with_reducible assumption

theorem State.ruleCommit_keeps (hm : Within [.live, .mat] m) {a0 : State} (h0 : Keeps m z a0) : Keeps m z (State.ruleCommit a0) := by
  unfold State.ruleCommit
  lift_lets
  iterate 4 (intro x; clear_value x)
  (intro (x : MatSt); subst x)
  split
  apply State.ruleStatus_keeps (hm.sub rfl)
  with_reducible assumption
  lift_lets
  (intro x; clear_value x)
  split
  apply State.ruleStatus_keeps (hm.sub rfl)
  with_reducible assumption
  split
  apply State.ruleStatus_keeps (hm.sub rfl)
  with_reducible assumption
  split
  apply State.ruleStatus_keeps (hm.sub rfl)
  with_reducible assumption
  split
  apply State.ruleStatus_keeps (hm.sub rfl)
  with_reducible assumption
  apply State.ruleStatus_keeps (hm.sub rfl)
  with_reducible refine keeps_mk (h := ?_)
  with_reducible assumption

theorem State.discardEdits_keeps (hm : Within [.live, .mat, .hst, .sum, .outbox] m) {a0 : State} (a1 : ℕ) (h0 : Keeps m z a0) : Keeps m z (State.discardEdits a0 a1) := by
  unfold State.discardEdits
  lift_lets
  (intro x; clear_value x)
  (intro (x : MatSt); subst x)
  split
  with_reducible assumption
  apply State.raiseBit_keeps (hm.sub rfl)
  apply State.ruleStatus_keeps (hm.sub rfl)
  with_reducible refine keeps_mk (h := ?_)
  with_reducible assumption

theorem State.applyDueEdits_keeps (hm : Within [.live, .mat, .hst, .sum, .outbox] m) {a0 : State} (h0 : Keeps m z a0) : Keeps m z (State.applyDueEdits a0) := by
  unfold State.applyDueEdits
  lift_lets
  (intro x; clear_value x)
  (intro (x : MatSt); subst x)
  (intro x; refine keeps_cut (p := Keeps m z x) ?_ (fun hx => ?_); (on_goal 2 => clear_value x); (on_goal 1 => subst x))
  with_reducible refine keeps_mk (h := ?_)
  with_reducible assumption
  (intro x; refine keeps_cut (p := Keeps m z x) ?_ (fun hx => ?_); (on_goal 2 => clear_value x); (on_goal 1 => subst x))
  (with_reducible refine keeps_foldl (fun s a hs => ?_) ?_)
  split
  split
  split
  lift_lets
  (intro x; clear_value x)
  apply State.putImage_keeps (hm.sub rfl)
  (with_reducible refine keeps_foldl (fun s a hs => ?_) ?_)
  apply State.fixCell_keeps (hm.sub rfl)
  with_reducible assumption
  with_reducible assumption
  with_reducible assumption
  with_reducible assumption
  with_reducible assumption
  with_reducible assumption
  split
  with_reducible assumption
  apply State.raiseBit_keeps (hm.sub rfl)
  apply State.putStatus_keeps (hm.sub rfl)
  with_reducible assumption

/-! ### RunOps -/

theorem State.reply_keeps (hm : Within [.run, .sch] m) {a0 : State} (a1 : Reply) (h0 : Keeps m z a0) : Keeps m z (State.reply a0 a1) := by
  unfold State.reply
  lift_lets
  (intro x; refine keeps_cut (p := Keeps m z x) ?_ (fun hx => ?_); (on_goal 2 => clear_value x); (on_goal 1 => subst x))
  split
  apply State.bump_keeps (hm.sub rfl)
  with_reducible assumption
  with_reducible assumption
  (intro (x : SchSt); subst x)
  with_reducible refine keeps_mk (h := ?_)
  with_reducible assumption

theorem State.refuse_keeps (hm : Within [.run, .sch] m) {a0 : State} (a1 : Req) (a2 : ℕ) (a3 : ℕ) (h0 : Keeps m z a0) : Keeps m z (State.refuse a0 a1 a2 a3) := by
  unfold State.refuse
  apply State.reply_keeps (hm.sub rfl)
  with_reducible assumption

theorem State.answer_keeps (hm : Within [.run, .sch] m) {a0 : State} (a1 : Req) (a2 : ℕ) (a3 : ℕ) (a4 : ℕ) (h0 : Keeps m z a0) : Keeps m z (State.answer a0 a1 a2 a3 a4) := by
  unfold State.answer
  apply State.reply_keeps (hm.sub rfl)
  with_reducible assumption

theorem State.forward_keeps (hm : Within [.live, .run, .sch, .que, .lnk, .hst, .sum, .outbox, .freeCtr] m) {a0 : State} (a1 : Req) (a2 : ℕ) (h0 : Keeps m z a0) : Keeps m z (State.forward a0 a1 a2) := by
  unfold State.forward
  apply State.nodeOp_keeps (hm.sub rfl)
  apply State.bump_keeps (hm.sub rfl)
  with_reducible refine keeps_mk (h := ?_)
  with_reducible assumption

theorem State.stallCount_keeps (hm : Within [.run] m) {a0 : State} (a1 : ℕ) (a2 : Stall) (h0 : Keeps m z a0) : Keeps m z (State.stallCount a0 a1 a2) := by
  unfold State.stallCount
  apply State.bump_keeps (hm.sub rfl)
  with_reducible assumption

theorem State.stallTicks_keeps (hm : Within [.run] m) {a0 : State} (a1 : ℕ) (a2 : Stall) (a3 : ℕ) (h0 : Keeps m z a0) : Keeps m z (State.stallTicks a0 a1 a2 a3) := by
  unfold State.stallTicks
  apply State.bump_keeps (hm.sub rfl)
  with_reducible assumption

theorem State.stall_keeps (hm : Within [.run, .sch] m) {a0 : State} (a1 : ℕ) (a2 : Stall) (h0 : Keeps m z a0) : Keeps m z (State.stall a0 a1 a2) := by
  unfold State.stall
  split
  with_reducible assumption
  split
  with_reducible assumption
  lift_lets
  (intro x; refine keeps_cut (p := Keeps m z x) ?_ (fun hx => ?_); (on_goal 2 => clear_value x); (on_goal 1 => subst x))
  apply State.mapRun_keeps (hm.sub rfl)
  with_reducible assumption
  split
  with_reducible assumption
  apply State.stallCount_keeps (hm.sub rfl)
  with_reducible assumption

theorem State.unstall_keeps (hm : Within [.run, .sch] m) {a0 : State} (a1 : ℕ) (a2 : Stall) (h0 : Keeps m z a0) : Keeps m z (State.unstall a0 a1 a2) := by
  unfold State.unstall
  split
  with_reducible assumption
  split
  with_reducible assumption
  apply State.stallTicks_keeps (hm.sub rfl)
  apply State.mapRun_keeps (hm.sub rfl)
  with_reducible assumption

theorem State.dawnLook_keeps (hm : Within [.live, .run, .pgw, .que, .mem, .lnk, .hst, .sum, .outbox, .freeCtr] m) {a0 : State} (a1 : ℕ) (a2 : ℕ) (a3 : List ℕ) (a4 : ℕ) (a5 : ℕ) (h0 : Keeps m z a0) : Keeps m z (State.dawnLook a0 a1 a2 a3 a4 a5) := by
  unfold State.dawnLook
  split
  with_reducible assumption
  (with_reducible refine keeps_foldl (fun s a hs => ?_) ?_)
  (with_reducible refine keeps_foldl (fun s a hs => ?_) ?_)
  apply State.dawnWant_keeps (hm.sub rfl)
  with_reducible assumption
  with_reducible assumption
  with_reducible assumption

theorem State.sweepGhosts_keeps (hm : Within [.pgw, .mem, .mat] m) {a0 : State} (h0 : Keeps m z a0) : Keeps m z (State.sweepGhosts a0) := by
  unfold State.sweepGhosts
  (with_reducible refine keeps_foldl (fun s a hs => ?_) ?_)
  apply State.endSeq_keeps (hm.sub rfl)
  with_reducible assumption
  with_reducible assumption

theorem State.refreshPoison_keeps (hm : Within [.live] m) {a0 : State} (h0 : Keeps m z a0) : Keeps m z (State.refreshPoison a0) := by
  unfold State.refreshPoison
  lift_lets
  (intro x; clear_value x)
  (intro x; refine keeps_cut (p := Keeps m z x) ?_ (fun hx => ?_); (on_goal 2 => clear_value x); (on_goal 1 => subst x))
  apply State.setStatus_keeps (hm.sub rfl)
  with_reducible assumption
  apply State.setLive_keeps (hm.sub rfl)
  with_reducible assumption

theorem State.endRefills_keeps (hm : Within [.live, .mat] m) {a0 : State} (h0 : Keeps m z a0) : Keeps m z (State.endRefills a0) := by
  unfold State.endRefills
  lift_lets
  (intro x; clear_value x)
  (intro (x : MatSt); subst x)
  apply State.setStatus_keeps (hm.sub rfl)
  with_reducible refine keeps_mk (h := ?_)
  with_reducible assumption

theorem State.dropStale_keeps (hm : Within [.live, .pgw, .mem, .prog, .mat] m) {a0 : State} (h0 : Keeps m z a0) : Keeps m z (State.dropStale a0) := by
  unfold State.dropStale
  lift_lets
  iterate 3 (intro x; clear_value x)
  (intro (x : PgwSt); subst x)
  (intro (x : MemSt); subst x)
  (intro (x : ProgSt); subst x)
  (intro (x : MatSt); subst x)
  split
  with_reducible assumption
  apply State.endRefills_keeps (hm.sub rfl)
  apply State.refreshPoison_keeps (hm.sub rfl)
  with_reducible refine keeps_mk (h := ?_)
  with_reducible assumption

theorem State.endProgram_keeps (hm : Within [.prog] m) {a0 : State} (a1 : ℕ) (h0 : Keeps m z a0) : Keeps m z (State.endProgram a0 a1) := by
  unfold State.endProgram
  lift_lets
  (intro x; clear_value x)
  (intro (x : ProgSt); subst x)
  split
  with_reducible refine keeps_mk (h := ?_)
  with_reducible assumption
  with_reducible refine keeps_mk (h := ?_)
  with_reducible assumption

theorem State.dropRun_keeps (hm : Within [.live, .pgw, .sch, .mem, .prog, .mat] m) {a0 : State} (a1 : ℕ) (h0 : Keeps m z a0) : Keeps m z (State.dropRun a0 a1) := by
  unfold State.dropRun
  lift_lets
  (intro x; refine keeps_cut (p := Keeps m z x) ?_ (fun hx => ?_); (on_goal 2 => clear_value x); (on_goal 1 => subst x))
  apply State.endProgram_keeps (hm.sub rfl)
  with_reducible assumption
  (intro (x : SchSt); subst x)
  apply State.dropStale_keeps (hm.sub rfl)
  apply State.sweepGhosts_keeps (hm.sub rfl)
  with_reducible refine keeps_mk (h := ?_)
  with_reducible assumption

theorem State.endVerify_keeps (hm : Within [.pgw] m) {a0 : State} (a1 : ℕ) (a2 : List Byte) (a3 : Bool) (h0 : Keeps m z a0) : Keeps m z (State.endVerify a0 a1 a2 a3) := by
  unfold State.endVerify
  split
  with_reducible assumption
  lift_lets
  (intro x; clear_value x)
  split
  with_reducible assumption
  split
  with_reducible assumption
  split
  apply State.putSeq_keeps (hm.sub rfl)
  with_reducible assumption
  apply State.discardProv_keeps (hm.sub rfl)
  with_reducible assumption

theorem State.countClamps_keeps (hm : Within [.run] m) {a0 : State} (a1 : Run) (h0 : Keeps m z a0) : Keeps m z (State.countClamps a0 a1) := by
  unfold State.countClamps
  apply State.bump_keeps (hm.sub rfl)
  with_reducible assumption

theorem State.completeRun_keeps (hm : Within [.live, .run, .pgw, .sch, .mem, .prog, .mat] m) {a0 : State} (a1 : Run) (h0 : Keeps m z a0) : Keeps m z (State.completeRun a0 a1) := by
  unfold State.completeRun
  lift_lets
  iterate 2 (intro x; clear_value x)
  (intro x; refine keeps_cut (p := Keeps m z x) ?_ (fun hx => ?_); (on_goal 2 => clear_value x); (on_goal 1 => subst x))
  apply State.countClamps_keeps (hm.sub rfl)
  apply State.dropRun_keeps (hm.sub rfl)
  with_reducible assumption
  iterate 3 (intro x; clear_value x)
  apply State.reply_keeps (hm.sub rfl)
  with_reducible assumption

theorem State.tryComplete_keeps (hm : Within [.live, .run, .pgw, .sch, .mem, .prog, .mat] m) {a0 : State} (a1 : ℕ) (h0 : Keeps m z a0) : Keeps m z (State.tryComplete a0 a1) := by
  unfold State.tryComplete
  split
  with_reducible assumption
  split
  apply State.completeRun_keeps (hm.sub rfl)
  with_reducible assumption
  with_reducible assumption

theorem State.keepReads_keeps (hm : Within [.vsp] m) {a0 : State} (a1 : Run) (h0 : Keeps m z a0) : Keeps m z (State.keepReads a0 a1) := by
  unfold State.keepReads
  lift_lets
  (intro x; clear_value x)
  (intro (x : VspSt); subst x)
  with_reducible refine keeps_mk (h := ?_)
  with_reducible assumption

theorem State.failRun_keeps (hm : Within [.live, .run, .pgw, .sch, .vsp, .mem, .prog, .mat] m) {a0 : State} (a1 : ℕ) (a2 : ℕ) (a3 : ℕ) (h0 : Keeps m z a0) : Keeps m z (State.failRun a0 a1 a2 a3) := by
  unfold State.failRun
  split
  with_reducible assumption
  lift_lets
  (intro x; clear_value x)
  (intro x; refine keeps_cut (p := Keeps m z x) ?_ (fun hx => ?_); (on_goal 2 => clear_value x); (on_goal 1 => subst x))
  (with_reducible refine keeps_foldl (fun s a hs => ?_) ?_)
  apply State.stallTicks_keeps (hm.sub rfl)
  with_reducible assumption
  with_reducible assumption
  (intro x; refine keeps_cut (p := Keeps m z x) ?_ (fun hx => ?_); (on_goal 2 => clear_value x); (on_goal 1 => subst x))
  apply State.countClamps_keeps (hm.sub rfl)
  apply State.dropRun_keeps (hm.sub rfl)
  apply State.keepReads_keeps (hm.sub rfl)
  with_reducible assumption
  (intro x; refine keeps_cut (p := Keeps m z x) ?_ (fun hx => ?_); (on_goal 2 => clear_value x); (on_goal 1 => subst x))
  split
  apply State.endVerify_keeps (hm.sub rfl)
  with_reducible assumption
  with_reducible assumption
  (intro x; clear_value x)
  apply State.reply_keeps (hm.sub rfl)
  with_reducible assumption

theorem State.sweepLost_keeps (hm : Within [.live, .run, .pgw, .sch, .vsp, .mem, .prog, .mat] m) {a0 : State} (h0 : Keeps m z a0) : Keeps m z (State.sweepLost a0) := by
  unfold State.sweepLost
  (with_reducible refine keeps_foldl (fun s a hs => ?_) ?_)
  split
  with_reducible assumption
  lift_lets
  (intro x; clear_value x)
  split
  with_reducible assumption
  apply State.failRun_keeps (hm.sub rfl)
  with_reducible assumption
  with_reducible assumption

theorem State.walkTime_keeps (hm : Within [.run, .freeCtr] m) {a0 : State} (a1 : ℕ) (a2 : ℕ) (a3 : Bool) (h0 : Keeps m z a0) : Keeps m z (State.walkTime a0 a1 a2 a3) := by
  unfold State.walkTime
  split
  with_reducible assumption
  split
  apply State.bumpMax_keeps (hm.sub rfl)
  with_reducible assumption
  lift_lets
  (intro x; refine keeps_cut (p := Keeps m z x.2) ?_ (fun hx => ?_); (on_goal 2 => clear_value x); (on_goal 1 => subst x))
  apply State.fresh_keeps (hm.sub rfl)
  with_reducible assumption
  (intro x; clear_value x)
  apply State.bumpMax_keeps (hm.sub rfl)
  with_reducible assumption

theorem State.lookups_keeps (hm : Within [.run, .pgw] m) {a0 : State} (a1 : List TlbTag) (h0 : Keeps m z a0) : Keeps m z (State.lookups a0 a1) := by
  unfold State.lookups
  (with_reducible refine keeps_foldl (fun s a hs => ?_) ?_)
  lift_lets
  (intro x; refine keeps_cut (p := Keeps m z x) ?_ (fun hx => ?_); (on_goal 2 => clear_value x); (on_goal 1 => subst x))
  apply State.bump_keeps (hm.sub rfl)
  with_reducible assumption
  (intro x; refine keeps_cut (p := Keeps m z x) ?_ (fun hx => ?_); (on_goal 2 => clear_value x); (on_goal 1 => subst x))
  split
  with_reducible assumption
  apply State.bump_keeps (hm.sub rfl)
  with_reducible assumption
  (intro (x : PgwSt); subst x)
  with_reducible refine keeps_mk (h := ?_)
  with_reducible assumption
  with_reducible assumption

theorem State.descLook_keeps (hm : Within [.pgw] m) {a0 : State} (a1 : ℕ) (a2 : ℕ) (a3 : ℕ) (h0 : Keeps m z a0) : Keeps m z (State.descLook a0 a1 a2 a3) := by
  unfold State.descLook
  split
  with_reducible assumption
  with_reducible refine keeps_mk (h := ?_)
  with_reducible assumption

theorem State.walk_keeps (hm : Within [.run, .pgw, .freeCtr] m) {a0 : State} (a1 : Req) (a2 : ℕ) (a3 : ℕ) (a4 : ℕ × ℕ) (h0 : Keeps m z a0) : Keeps m z (State.walk a0 a1 a2 a3 a4) := by
  unfold State.walk
  lift_lets
  iterate 5 (intro x; clear_value x)
  split
  with_reducible assumption
  apply State.walkTime_keeps (hm.sub rfl)
  apply State.descLook_keeps (hm.sub rfl)
  apply State.lookups_keeps (hm.sub rfl)
  with_reducible assumption

theorem State.condCount_keeps (hm : Within [.run, .freeCtr] m) {a0 : State} (a1 : ℕ) (a2 : Conds) (h0 : Keeps m z a0) : Keeps m z (State.condCount a0 a1 a2) := by
  unfold State.condCount
  lift_lets
  (intro x; refine keeps_cut (p := Keeps m z x.2) ?_ (fun hx => ?_); (on_goal 2 => clear_value x); (on_goal 1 => subst x))
  apply State.fresh_keeps (hm.sub rfl)
  with_reducible assumption
  (intro x; clear_value x)
  (intro x; refine keeps_cut (p := Keeps m z x.2) ?_ (fun hx => ?_); (on_goal 2 => clear_value x); (on_goal 1 => subst x))
  split
  with_reducible assumption
  with_reducible assumption
  apply State.bump_keeps (hm.sub rfl)
  apply State.bump_keeps (hm.sub rfl)
  with_reducible assumption

theorem State.sendLeaves_keeps (hm : Within [.sch, .vsp] m) {a0 : State} (a1 : Req) (a2 : List Job) (h0 : Keeps m z a0) : Keeps m z (State.sendLeaves a0 a1 a2) := by
  unfold State.sendLeaves
  lift_lets
  (intro x; clear_value x)
  (with_reducible refine keeps_foldl (fun s a hs => ?_) ?_)
  lift_lets
  (intro x; clear_value x)
  split
  (with_reducible refine keeps_foldl (fun s a hs => ?_) ?_)
  apply State.leafToHub_keeps (hm.sub rfl)
  with_reducible assumption
  with_reducible assumption
  apply State.sendBursts_keeps (hm.sub rfl)
  with_reducible assumption
  with_reducible assumption

theorem State.fetchLeaves_keeps (hm : Within [.live, .run, .pgw, .que, .mem, .lnk, .hst, .sum, .outbox, .freeCtr] m) {a0 : State} (a1 : List Job) (h0 : Keeps m z a0) : Keeps m z (State.fetchLeaves a0 a1) := by
  unfold State.fetchLeaves
  (with_reducible refine keeps_foldl (fun s a hs => ?_) ?_)
  with_reducible apply keeps_getD
  apply State.fetchPage_keeps (hm.sub rfl)
  with_reducible assumption
  with_reducible assumption
  with_reducible assumption

theorem State.lookAhead_keeps (hm : Within [.live, .run, .pgw, .que, .mem, .lnk, .hst, .sum, .outbox, .freeCtr] m) {a0 : State} (a1 : List Byte) (a2 : ℕ) (a3 : ℕ × ℕ) (h0 : Keeps m z a0) : Keeps m z (State.lookAhead a0 a1 a2 a3) := by
  unfold State.lookAhead
  lift_lets
  iterate 2 (intro x; clear_value x)
  split
  apply State.dawnLook_keeps (hm.sub rfl)
  with_reducible assumption
  with_reducible assumption

theorem State.launch_keeps (hm : Within [.live, .run, .pgw, .sch, .que, .vsp, .mem, .prog, .mat, .lnk, .hst, .sum, .outbox, .freeCtr] m) {a0 : State} (a1 : Req) (a2 : Launch) (h0 : Keeps m z a0) : Keeps m z (State.launch a0 a1 a2) := by
  unfold State.launch
  lift_lets
  iterate 11 (intro x; clear_value x)
  (intro (x : SchSt); subst x)
  (intro x; refine keeps_cut (p := Keeps m z x) ?_ (fun hx => ?_); (on_goal 2 => clear_value x); (on_goal 1 => subst x))
  with_reducible refine keeps_mk (h := ?_)
  with_reducible assumption
  (intro x; refine keeps_cut (p := Keeps m z x) ?_ (fun hx => ?_); (on_goal 2 => clear_value x); (on_goal 1 => subst x))
  apply State.walk_keeps (hm.sub rfl)
  with_reducible assumption
  (intro x; refine keeps_cut (p := Keeps m z x) ?_ (fun hx => ?_); (on_goal 2 => clear_value x); (on_goal 1 => subst x))
  (with_reducible refine keeps_foldl (fun s a hs => ?_) ?_)
  apply State.nodeOp_keeps (hm.sub rfl)
  with_reducible assumption
  with_reducible assumption
  (intro x; clear_value x)
  (intro x; refine keeps_cut (p := Keeps m z x) ?_ (fun hx => ?_); (on_goal 2 => clear_value x); (on_goal 1 => subst x))
  split
  apply State.stall_keeps (hm.sub rfl)
  apply State.mapRun_keeps (hm.sub rfl)
  with_reducible assumption
  apply State.sendLeaves_keeps (hm.sub rfl)
  with_reducible assumption
  (intro x; refine keeps_cut (p := Keeps m z x) ?_ (fun hx => ?_); (on_goal 2 => clear_value x); (on_goal 1 => subst x))
  apply State.fetchLeaves_keeps (hm.sub rfl)
  with_reducible assumption
  (intro x; refine keeps_cut (p := Keeps m z x) ?_ (fun hx => ?_); (on_goal 2 => clear_value x); (on_goal 1 => subst x))
  split
  apply State.stall_keeps (hm.sub rfl)
  with_reducible assumption
  with_reducible assumption
  (intro x; refine keeps_cut (p := Keeps m z x) ?_ (fun hx => ?_); (on_goal 2 => clear_value x); (on_goal 1 => subst x))
  split
  apply State.stall_keeps (hm.sub rfl)
  with_reducible assumption
  with_reducible assumption
  split
  apply State.failRun_keeps (hm.sub rfl)
  with_reducible assumption
  apply State.failRun_keeps (hm.sub rfl)
  with_reducible assumption
  apply State.tryComplete_keeps (hm.sub rfl)
  apply State.lookAhead_keeps (hm.sub rfl)
  with_reducible assumption

theorem State.cannot_keeps (hm : Within [.run, .pgw, .sch, .freeCtr] m) {a0 : State} (a1 : Req) (a2 : Option SeqRec) (a3 : List Cand) (a4 : Option ℕ) (a5 : ℕ) (h0 : Keeps m z a0) : Keeps m z (State.cannot a0 a1 a2 a3 a4 a5) := by
  unfold State.cannot
  lift_lets
  iterate 2 (intro x; clear_value x)
  (intro x; refine keeps_cut (p := Keeps m z x) ?_ (fun hx => ?_); (on_goal 2 => clear_value x); (on_goal 1 => subst x))
  apply State.walk_keeps (hm.sub rfl)
  with_reducible assumption
  split
  apply State.answer_keeps (hm.sub rfl)
  with_reducible assumption
  apply State.answer_keeps (hm.sub rfl)
  with_reducible assumption
  apply State.answer_keeps (hm.sub rfl)
  with_reducible assumption

theorem State.tryReserve_keeps (hm : Within [.run, .pgw, .mem, .sec, .hst, .outbox] m) {a0 : State} (a1 : ℕ) (a2 : ℕ) (a3 : ℕ) (a4 : ℕ) (h0 : Keeps m z a0) : Keeps m z (State.tryReserve a0 a1 a2 a3 a4).1 := by
  unfold State.tryReserve
  split
  with_reducible assumption
  split
  with_reducible assumption
  split
  dsimp only
  (with_reducible refine keeps_of_some (by with_reducible assumption) ?_)
  apply State.reserve_keeps (hm.sub rfl)
  with_reducible assumption
  dsimp only
  apply State.dusk1_keeps (hm.sub rfl)
  with_reducible assumption

/-! ### ProgOps -/

theorem State.putCore_keeps (hm : Within [.prog] m) {a0 : State} (a1 : ℕ) (a2 : CoreCtx) (h0 : Keeps m z a0) : Keeps m z (State.putCore a0 a1 a2) := by
  unfold State.putCore
  with_reducible refine keeps_mk (h := ?_)
  with_reducible assumption

theorem State.putProg_keeps (hm : Within [.prog] m) {a0 : State} (a1 : ℕ) (a2 : ProgRun) (h0 : Keeps m z a0) : Keeps m z (State.putProg a0 a1 a2) := by
  unfold State.putProg
  with_reducible refine keeps_mk (h := ?_)
  with_reducible assumption

theorem State.startSegment_keeps (hm : Within [.prog] m) {a0 : State} (a1 : ℕ) (h0 : Keeps m z a0) : Keeps m z (State.startSegment a0 a1) := by
  unfold State.startSegment
  split
  with_reducible assumption
  lift_lets
  (intro x; refine keeps_cut (p := Keeps m z x) ?_ (fun hx => ?_); (on_goal 2 => clear_value x); (on_goal 1 => subst x))
  apply State.putProg_keeps (hm.sub rfl)
  with_reducible assumption
  (with_reducible refine keeps_foldl (fun s a hs => ?_) ?_)
  lift_lets
  (intro x; clear_value x)
  apply State.putCore_keeps (hm.sub rfl)
  with_reducible assumption
  with_reducible assumption

theorem State.haltSegment_keeps (hm : Within [.prog] m) {a0 : State} (a1 : ℕ) (h0 : Keeps m z a0) : Keeps m z (State.haltSegment a0 a1) := by
  unfold State.haltSegment
  split
  with_reducible assumption
  split
  with_reducible assumption
  lift_lets
  (intro x; refine keeps_cut (p := Keeps m z x) ?_ (fun hx => ?_); (on_goal 2 => clear_value x); (on_goal 1 => subst x))
  apply State.putProg_keeps (hm.sub rfl)
  with_reducible assumption
  (with_reducible refine keeps_foldl (fun s a hs => ?_) ?_)
  lift_lets
  (intro x; clear_value x)
  apply State.putCore_keeps (hm.sub rfl)
  with_reducible assumption
  with_reducible assumption

theorem State.stallRun_keeps (hm : Within [.run, .sch, .prog] m) {a0 : State} (a1 : ℕ) (h0 : Keeps m z a0) : Keeps m z (State.stallRun a0 a1) := by
  unfold State.stallRun
  lift_lets
  (intro x; clear_value x)
  (intro x; refine keeps_cut (p := Keeps m z x) ?_ (fun hx => ?_); (on_goal 2 => clear_value x); (on_goal 1 => subst x))
  (with_reducible refine keeps_foldl (fun s a hs => ?_) ?_)
  apply State.haltSegment_keeps (hm.sub rfl)
  with_reducible assumption
  with_reducible assumption
  (intro (x : ProgSt); subst x)
  apply State.stall_keeps (hm.sub rfl)
  with_reducible refine keeps_mk (h := ?_)
  with_reducible assumption

theorem State.startProgram_keeps (hm : Within [.run, .sch, .prog, .freeCtr] m) {a0 : State} (a1 : Req) (h0 : Keeps m z a0) : Keeps m z (State.startProgram a0 a1) := by
  unfold State.startProgram
  lift_lets
  iterate 3 (intro x; clear_value x)
  (intro (x : SchSt); subst x)
  split
  apply State.answer_keeps (hm.sub rfl)
  with_reducible assumption
  lift_lets
  iterate 6 (intro x; clear_value x)
  (intro x; refine keeps_cut (p := Keeps m z x) ?_ (fun hx => ?_); (on_goal 2 => clear_value x); (on_goal 1 => subst x))
  apply State.putProg_keeps (hm.sub rfl)
  with_reducible refine keeps_mk (h := ?_)
  with_reducible assumption
  split
  apply State.answer_keeps (hm.sub rfl)
  with_reducible assumption
  split
  apply State.answer_keeps (hm.sub rfl)
  with_reducible assumption
  split
  apply State.answer_keeps (hm.sub rfl)
  with_reducible assumption
  split
  apply State.stallRun_keeps (hm.sub rfl)
  with_reducible assumption
  apply State.startSegment_keeps (hm.sub rfl)
  with_reducible assumption

theorem State.refillStall_keeps (hm : Within [.run, .sch, .prog] m) {a0 : State} (a1 : ℕ) (a2 : ℕ) (a3 : ℕ) (a4 : Bool) (h0 : Keeps m z a0) : Keeps m z (State.refillStall a0 a1 a2 a3 a4) := by
  unfold State.refillStall
  split
  with_reducible assumption
  split
  with_reducible assumption
  lift_lets
  (intro x; refine keeps_cut (p := Keeps m z x) ?_ (fun hx => ?_); (on_goal 2 => clear_value x); (on_goal 1 => subst x))
  apply State.haltSegment_keeps (hm.sub rfl)
  with_reducible assumption
  split
  with_reducible assumption
  apply State.stall_keeps (hm.sub rfl)
  split
  apply State.bump_keeps (hm.sub rfl)
  with_reducible assumption
  with_reducible assumption

/-! ### Starts -/

theorem State.remap_keeps (hm : Within [.sch, .vsp, .mem] m) {a0 : State} (a1 : PageRef → PageRef) (h0 : Keeps m z a0) : Keeps m z (State.remap a0 a1) := by
  unfold State.remap
  lift_lets
  (intro x; clear_value x)
  (intro (x : SchSt); subst x)
  (intro (x : VspSt); subst x)
  (intro (x : MemSt); subst x)
  with_reducible refine keeps_mk (h := ?_)
  with_reducible assumption

theorem State.waitRun_keeps (hm : Within [.run, .sch] m) {a0 : State} (a1 : Req) (a2 : List ℕ) (h0 : Keeps m z a0) : Keeps m z (State.waitRun a0 a1 a2) := by
  unfold State.waitRun
  lift_lets
  (intro x; clear_value x)
  (intro (x : SchSt); subst x)
  apply State.stall_keeps (hm.sub rfl)
  with_reducible refine keeps_mk (h := ?_)
  with_reducible assumption

theorem State.waitTable_keeps (hm : Within [.run, .sch] m) {a0 : State} (a1 : Req) (a2 : Option Turn × Option Turn) (a3 : List TileKey) (a4 : List Byte) (a5 : List (List Byte)) (h0 : Keeps m z a0) : Keeps m z (State.waitTable a0 a1 a2 a3 a4 a5) := by
  unfold State.waitTable
  lift_lets
  (intro x; clear_value x)
  (intro (x : SchSt); subst x)
  apply State.stall_keeps (hm.sub rfl)
  with_reducible refine keeps_mk (h := ?_)
  with_reducible assumption

theorem State.conditioned_keeps (hm : Within [.run, .freeCtr] m) {a0 : State} (a1 : Req) (a2 : Conds) (h0 : Keeps m z a0) : Keeps m z (State.conditioned a0 a1 a2) := by
  unfold State.conditioned
  split
  with_reducible assumption
  apply State.condCount_keeps (hm.sub rfl)
  with_reducible assumption

theorem State.waitSpares_keeps (hm : Within [.run, .sch] m) {a0 : State} (a1 : Req) (a2 : Option Turn × Option Turn) (h0 : Keeps m z a0) : Keeps m z (State.waitSpares a0 a1 a2) := by
  unfold State.waitSpares
  apply State.stallCount_keeps (hm.sub rfl)
  with_reducible refine keeps_mk (h := ?_)
  with_reducible assumption

theorem State.seqFor_keeps (hm : Within [.live, .run, .pgw, .mem, .hst, .sum, .outbox] m) {a0 : State} (a1 : Req) (a2 : Option SeqRec) (h0 : Keeps m z a0) : Keeps m z (State.seqFor a0 a1 a2).1 := by
  unfold State.seqFor
  split
  with_reducible assumption
  lift_lets
  (intro x; clear_value x)
  (intro x; refine keeps_cut (p := Keeps m z x.1) ?_ (fun hx => ?_); (on_goal 2 => clear_value x); (on_goal 1 => subst x))
  apply State.create_keeps (hm.sub rfl)
  with_reducible assumption
  split
  with_reducible assumption
  with_reducible assumption

theorem State.applyAppend_keeps (hm : Within [.live, .run, .pgw, .mem, .sec, .hst, .sum, .outbox] m) {a0 : State} (a1 : SeqRec) (a2 : ℕ) (a3 : AppendIn) (h0 : Keeps m z a0) : Keeps m z (State.applyAppend a0 a1 a2 a3).1 := by
  unfold State.applyAppend
  lift_lets
  (intro x; clear_value x)
  apply State.tryReserve_keeps (hm.sub rfl)
  apply State.putLayer_keeps (hm.sub rfl)
  with_reducible assumption

theorem State.startRebuild_keeps (hm : Within [.live, .run, .pgw, .sch, .que, .vsp, .mem, .prog, .mat, .lnk, .hst, .sum, .outbox, .freeCtr] m) {a0 : State} (a1 : Req) (a2 : SeqRec) (h0 : Keeps m z a0) : Keeps m z (State.startRebuild a0 a1 a2) := by
  unfold State.startRebuild
  lift_lets
  iterate 5 (intro x; clear_value x)
  split
  apply State.answer_keeps (hm.sub rfl)
  with_reducible assumption
  lift_lets
  iterate 3 (intro x; clear_value x)
  (intro x; refine keeps_cut (p := Keeps m z x) ?_ (fun hx => ?_); (on_goal 2 => clear_value x); (on_goal 1 => subst x))
  apply State.conditioned_keeps (hm.sub rfl)
  with_reducible assumption
  (intro x; refine keeps_cut (p := Keeps m z x.1) ?_ (fun hx => ?_); (on_goal 2 => clear_value x); (on_goal 1 => subst x))
  apply State.rebuild_keeps (hm.sub rfl)
  with_reducible assumption
  split
  apply State.answer_keeps (hm.sub rfl)
  with_reducible assumption
  split
  apply State.answer_keeps (hm.sub rfl)
  with_reducible assumption
  split
  apply State.cannot_keeps (hm.sub rfl)
  apply State.conditioned_keeps (hm.sub rfl)
  with_reducible assumption
  split
  apply State.waitTable_keeps (hm.sub rfl)
  with_reducible assumption
  split
  apply State.waitSpares_keeps (hm.sub rfl)
  apply State.conditioned_keeps (hm.sub rfl)
  with_reducible assumption
  apply State.launch_keeps (hm.sub rfl)
  with_reducible assumption

theorem State.startAppend_keeps (hm : Within [.live, .run, .pgw, .sch, .que, .vsp, .mem, .prog, .mat, .lnk, .sec, .hst, .sum, .outbox, .freeCtr] m) {a0 : State} (a1 : Req) (h0 : Keeps m z a0) : Keeps m z (State.startAppend a0 a1) := by
  unfold State.startAppend
  lift_lets
  iterate 6 (intro x; clear_value x)
  split
  apply State.answer_keeps (hm.sub rfl)
  with_reducible assumption
  lift_lets
  (intro x; clear_value x)
  split
  apply State.startRebuild_keeps (hm.sub rfl)
  with_reducible assumption
  split
  apply State.answer_keeps (hm.sub rfl)
  with_reducible assumption
  lift_lets
  iterate 3 (intro x; clear_value x)
  split
  apply State.answer_keeps (hm.sub rfl)
  with_reducible assumption
  split
  apply State.answer_keeps (hm.sub rfl)
  with_reducible assumption
  split
  apply State.answer_keeps (hm.sub rfl)
  with_reducible assumption
  split
  apply State.cannot_keeps (hm.sub rfl)
  apply State.conditioned_keeps (hm.sub rfl)
  with_reducible assumption
  split
  apply State.waitTable_keeps (hm.sub rfl)
  with_reducible assumption
  split
  apply State.answer_keeps (hm.sub rfl)
  (with_reducible refine keeps_of_fst (by with_reducible assumption) ?_)
  apply State.seqFor_keeps (hm.sub rfl)
  apply State.conditioned_keeps (hm.sub rfl)
  with_reducible assumption
  lift_lets
  (intro x; refine keeps_cut (p := Keeps m z x.1) ?_ (fun hx => ?_); (on_goal 2 => clear_value x); (on_goal 1 => subst x))
  apply State.applyAppend_keeps (hm.sub rfl)
  (with_reducible refine keeps_of_fst (by with_reducible assumption) ?_)
  apply State.seqFor_keeps (hm.sub rfl)
  apply State.conditioned_keeps (hm.sub rfl)
  with_reducible assumption
  apply State.launch_keeps (hm.sub rfl)
  with_reducible assumption

theorem State.startAttend_keeps (hm : Within [.live, .run, .pgw, .sch, .que, .vsp, .mem, .prog, .mat, .lnk, .hst, .sum, .outbox, .freeCtr] m) {a0 : State} (a1 : Req) (h0 : Keeps m z a0) : Keeps m z (State.startAttend a0 a1) := by
  unfold State.startAttend
  lift_lets
  iterate 2 (intro x; clear_value x)
  split
  apply State.answer_keeps (hm.sub rfl)
  with_reducible assumption
  with_reducible assumption
  lift_lets
  iterate 2 (intro x; clear_value x)
  dsimp only
  split
  apply State.answer_keeps (hm.sub rfl)
  with_reducible assumption
  apply State.launch_keeps (hm.sub rfl)
  apply State.conditioned_keeps (hm.sub rfl)
  with_reducible assumption

theorem State.notCreated_keeps (hm : Within [.run, .sch] m) {a0 : State} (a1 : Req) (a2 : List TileKey) (h0 : Keeps m z a0) : Keeps m z (State.notCreated a0 a1 a2) := by
  unfold State.notCreated
  split
  apply State.answer_keeps (hm.sub rfl)
  with_reducible assumption
  apply State.answer_keeps (hm.sub rfl)
  with_reducible assumption

theorem State.startAppendAttend_keeps (hm : Within [.live, .run, .pgw, .sch, .que, .vsp, .mem, .prog, .mat, .lnk, .sec, .hst, .sum, .outbox, .freeCtr] m) {a0 : State} (a1 : Req) (a2 : List Byte) (a3 : List Byte) (a4 : List (List Byte)) (h0 : Keeps m z a0) : Keeps m z (State.startAppendAttend a0 a1 a2 a3 a4) := by
  unfold State.startAppendAttend
  lift_lets
  iterate 4 (intro x; clear_value x)
  split
  apply State.answer_keeps (hm.sub rfl)
  with_reducible assumption
  lift_lets
  (intro x; clear_value x)
  split
  dsimp only
  split
  apply State.answer_keeps (hm.sub rfl)
  with_reducible assumption
  apply State.answer_keeps (hm.sub rfl)
  with_reducible assumption
  split
  dsimp only
  split
  apply State.answer_keeps (hm.sub rfl)
  with_reducible assumption
  apply State.answer_keeps (hm.sub rfl)
  with_reducible assumption
  split
  dsimp only
  split
  apply State.answer_keeps (hm.sub rfl)
  with_reducible assumption
  apply State.answer_keeps (hm.sub rfl)
  with_reducible assumption
  dsimp only
  split
  apply State.answer_keeps (hm.sub rfl)
  with_reducible assumption
  split
  apply State.cannot_keeps (hm.sub rfl)
  apply State.conditioned_keeps (hm.sub rfl)
  with_reducible assumption
  split
  apply State.waitTable_keeps (hm.sub rfl)
  with_reducible assumption
  split
  apply State.notCreated_keeps (hm.sub rfl)
  (with_reducible refine keeps_of_fst (by with_reducible assumption) ?_)
  apply State.seqFor_keeps (hm.sub rfl)
  apply State.conditioned_keeps (hm.sub rfl)
  with_reducible assumption
  apply State.launch_keeps (hm.sub rfl)
  apply State.applyAppend_keeps (hm.sub rfl)
  (with_reducible refine keeps_of_fst (by with_reducible assumption) ?_)
  apply State.seqFor_keeps (hm.sub rfl)
  apply State.conditioned_keeps (hm.sub rfl)
  with_reducible assumption

theorem State.startVerify_keeps (hm : Within [.live, .run, .pgw, .sch, .que, .vsp, .mem, .prog, .mat, .lnk, .sec, .hst, .sum, .outbox, .freeCtr] m) {a0 : State} (a1 : Req) (h0 : Keeps m z a0) : Keeps m z (State.startVerify a0 a1) := by
  unfold State.startVerify
  lift_lets
  iterate 6 (intro x; clear_value x)
  split
  apply State.answer_keeps (hm.sub rfl)
  with_reducible assumption
  lift_lets
  iterate 5 (intro x; clear_value x)
  split
  dsimp only
  split
  apply State.answer_keeps (hm.sub rfl)
  with_reducible assumption
  apply State.answer_keeps (hm.sub rfl)
  with_reducible assumption
  split
  dsimp only
  split
  apply State.answer_keeps (hm.sub rfl)
  with_reducible assumption
  apply State.answer_keeps (hm.sub rfl)
  with_reducible assumption
  split
  dsimp only
  split
  apply State.answer_keeps (hm.sub rfl)
  with_reducible assumption
  split
  apply State.cannot_keeps (hm.sub rfl)
  apply State.conditioned_keeps (hm.sub rfl)
  with_reducible assumption
  split
  apply State.waitTable_keeps (hm.sub rfl)
  with_reducible assumption
  apply State.waitSpares_keeps (hm.sub rfl)
  apply State.conditioned_keeps (hm.sub rfl)
  with_reducible assumption
  dsimp only
  split
  apply State.answer_keeps (hm.sub rfl)
  with_reducible assumption
  split
  apply State.cannot_keeps (hm.sub rfl)
  apply State.conditioned_keeps (hm.sub rfl)
  with_reducible assumption
  split
  apply State.waitTable_keeps (hm.sub rfl)
  with_reducible assumption
  split
  apply State.notCreated_keeps (hm.sub rfl)
  (with_reducible refine keeps_of_fst (by with_reducible assumption) ?_)
  apply State.seqFor_keeps (hm.sub rfl)
  apply State.conditioned_keeps (hm.sub rfl)
  with_reducible assumption
  apply State.launch_keeps (hm.sub rfl)
  apply State.tryReserve_keeps (hm.sub rfl)
  apply State.bump_keeps (hm.sub rfl)
  apply State.useSpares_keeps (hm.sub rfl)
  apply State.putSeq_keeps (hm.sub rfl)
  apply State.discardProv_keeps (hm.sub rfl)
  (with_reducible refine keeps_of_fst (by with_reducible assumption) ?_)
  apply State.seqFor_keeps (hm.sub rfl)
  apply State.conditioned_keeps (hm.sub rfl)
  with_reducible assumption

theorem State.startCommit_keeps (hm : Within [.live, .run, .pgw, .sch, .mem, .hst, .sum, .outbox] m) {a0 : State} (a1 : Req) (h0 : Keeps m z a0) : Keeps m z (State.startCommit a0 a1) := by
  unfold State.startCommit
  lift_lets
  iterate 3 (intro x; clear_value x)
  split
  apply State.answer_keeps (hm.sub rfl)
  with_reducible assumption
  with_reducible assumption
  lift_lets
  (intro x; clear_value x)
  (intro x; refine keeps_cut (p := Keeps m z x) ?_ (fun hx => ?_); (on_goal 2 => clear_value x); (on_goal 1 => subst x))
  (with_reducible refine keeps_foldl (fun s a hs => ?_) ?_)
  split
  with_reducible assumption
  lift_lets
  iterate 3 (intro x; clear_value x)
  (intro x; refine keeps_cut (p := Keeps m z x) ?_ (fun hx => ?_); (on_goal 2 => clear_value x); (on_goal 1 => subst x))
  split
  apply State.swapTails_keeps (hm.sub rfl)
  with_reducible assumption
  with_reducible assumption
  apply State.putLayer_keeps (hm.sub rfl)
  apply State.useSpares_keeps (hm.sub rfl)
  with_reducible assumption
  with_reducible assumption
  split
  apply State.answer_keeps (hm.sub rfl)
  with_reducible assumption
  apply State.answer_keeps (hm.sub rfl)
  with_reducible assumption

theorem State.makeGroup_keeps (hm : Within [.pgw, .sch, .vsp, .mem] m) {a0 : State} (a1 : ℕ) (a2 : ℕ) (a3 : ℕ) (h0 : Keeps m z a0) : Keeps m z (State.makeGroup a0 a1 a2 a3).1 := by
  unfold State.makeGroup
  split
  with_reducible assumption
  split
  with_reducible assumption
  lift_lets
  iterate 4 (intro x; clear_value x)
  (intro (x : PgwSt); subst x)
  (intro x; refine keeps_cut (p := Keeps m z x) ?_ (fun hx => ?_); (on_goal 2 => clear_value x); (on_goal 1 => subst x))
  apply State.settlePlaces_keeps (hm.sub rfl)
  with_reducible refine keeps_mk (h := ?_)
  with_reducible assumption
  (intro x; refine keeps_cut (p := Keeps m z x) ?_ (fun hx => ?_); (on_goal 2 => clear_value x); (on_goal 1 => subst x))
  apply State.remap_keeps (hm.sub rfl)
  apply State.putSeq_keeps (hm.sub rfl)
  with_reducible assumption
  dsimp only
  (with_reducible refine keeps_foldl (fun s a hs => ?_) ?_)
  apply State.invalidate_keeps (hm.sub rfl)
  with_reducible assumption
  with_reducible assumption

theorem State.publishScan_keeps (hm : Within [.live, .mat, .hst, .sum, .outbox] m) {a0 : State} (a1 : SeqRec) (a2 : List Byte) (a3 : List ℕ) (a4 : List (ℕ × ℕ)) (h0 : Keeps m z a0) : Keeps m z (State.publishScan a0 a1 a2 a3 a4).1 := by
  induction a3 generalizing a0 a1 a2 a4 with
  | nil =>
    unfold State.publishScan
    with_reducible assumption
  | cons x t ih =>
    unfold State.publishScan
    lift_lets
    (intro x; clear_value x)
    (intro x; refine keeps_cut (p := Keeps m z x.2) ?_ (fun hx => ?_); (on_goal 2 => clear_value x); (on_goal 1 => subst x))
    apply State.keyFind_keeps (hm.sub rfl)
    with_reducible assumption
    split
    with_reducible assumption
    split
    with_reducible apply ih
    with_reducible assumption
    split
    with_reducible apply ih
    with_reducible assumption
    with_reducible assumption

theorem State.startPublish_keeps (hm : Within [.live, .run, .pgw, .sch, .vsp, .mem, .mat, .hst, .sum, .outbox] m) {a0 : State} (a1 : Req) (a2 : SeqRec) (h0 : Keeps m z a0) : Keeps m z (State.startPublish a0 a1 a2) := by
  unfold State.startPublish
  lift_lets
  iterate 3 (intro x; clear_value x)
  split
  apply State.answer_keeps (hm.sub rfl)
  with_reducible assumption
  split
  apply State.answer_keeps (hm.sub rfl)
  (with_reducible refine keeps_of_fst (by with_reducible assumption) ?_)
  apply State.publishScan_keeps (hm.sub rfl)
  with_reducible assumption
  lift_lets
  (intro x; refine keeps_cut (p := Keeps m z x) ?_ (fun hx => ?_); (on_goal 2 => clear_value x); (on_goal 1 => subst x))
  (with_reducible refine keeps_foldl (fun s a hs => ?_) ?_)
  lift_lets
  (intro x; refine keeps_cut (p := Keeps m z x.1) ?_ (fun hx => ?_); (on_goal 2 => clear_value x); (on_goal 1 => subst x))
  apply State.makeGroup_keeps (hm.sub rfl)
  with_reducible assumption
  apply State.keyAttach_keeps (hm.sub rfl)
  with_reducible assumption
  (with_reducible refine keeps_of_fst (by with_reducible assumption) ?_)
  apply State.publishScan_keeps (hm.sub rfl)
  with_reducible assumption
  split
  apply State.answer_keeps (hm.sub rfl)
  (with_reducible refine keeps_of_fst (by with_reducible assumption) ?_)
  apply State.publishScan_keeps (hm.sub rfl)
  with_reducible assumption
  apply State.answer_keeps (hm.sub rfl)
  with_reducible assumption

theorem State.startUnpublish_keeps (hm : Within [.run, .sch, .mat] m) {a0 : State} (a1 : Req) (a2 : SeqRec) (h0 : Keeps m z a0) : Keeps m z (State.startUnpublish a0 a1 a2) := by
  unfold State.startUnpublish
  lift_lets
  (intro x; clear_value x)
  (intro x; refine keeps_cut (p := Keeps m z x) ?_ (fun hx => ?_); (on_goal 2 => clear_value x); (on_goal 1 => subst x))
  (with_reducible refine keeps_foldl (fun s a hs => ?_) ?_)
  apply State.keyDetach_keeps (hm.sub rfl)
  with_reducible assumption
  with_reducible assumption
  apply State.answer_keeps (hm.sub rfl)
  with_reducible assumption

theorem State.copyGroup_keeps (hm : Within [.live, .run, .pgw, .sch, .que, .vsp, .mem, .lnk, .hst, .sum, .outbox, .freeCtr] m) {a0 : State} (a1 : ℕ) (a2 : GroupRec) (h0 : Keeps m z a0) : KeepsO m z (State.copyGroup a0 a1 a2) := by
  unfold State.copyGroup
  lift_lets
  (intro x; clear_value x)
  (with_reducible refine keepsO_foldl (fun o a ho => ?_) ?_)
  lift_lets
  (intro x; clear_value x)
  split
  with_reducible assumption
  lift_lets
  (intro x; clear_value x)
  (intro (x : PgwSt); subst x)
  split
  with_reducible assumption
  split
  with_reducible apply keepsO_some
  split
  (with_reducible refine keeps_unsome (by with_reducible assumption))
  apply State.oweShadow_keeps (hm.sub rfl)
  (with_reducible refine keeps_unsome (by with_reducible assumption))
  split
  split
  with_reducible apply keepsO_none
  lift_lets
  (intro x; refine keeps_cut (p := Keeps m z x) ?_ (fun hx => ?_); (on_goal 2 => clear_value x); (on_goal 1 => subst x))
  with_reducible refine keeps_mk (h := ?_)
  (with_reducible refine keeps_unsome (by with_reducible assumption))
  with_reducible apply keepsO_some
  apply State.readPage_keeps (hm.sub rfl)
  apply State.startMove_keeps (hm.sub rfl)
  with_reducible assumption
  apply State.fetchPage_keeps (hm.sub rfl)
  (with_reducible refine keeps_unsome (by with_reducible assumption))
  apply State.fetchPage_keeps (hm.sub rfl)
  (with_reducible refine keeps_unsome (by with_reducible assumption))
  with_reducible apply keepsO_some
  split
  apply State.askHolder_keeps (hm.sub rfl)
  (with_reducible refine keeps_unsome (by with_reducible assumption))
  apply State.askHolder_keeps (hm.sub rfl)
  apply State.oweShadow_keeps (hm.sub rfl)
  (with_reducible refine keeps_unsome (by with_reducible assumption))
  with_reducible apply keepsO_none
  with_reducible apply keepsO_some
  with_reducible assumption

theorem State.bindScan_keeps (hm : Within [.live, .run, .pgw, .sch, .que, .vsp, .mem, .mat, .lnk, .hst, .sum, .outbox, .freeCtr] m) {a0 : State} (a1 : List Byte) (a2 : Bool) (a3 : List ℕ) (a4 : List ℕ) (a5 : Bool) (h0 : Keeps m z a0) : Keeps m z (State.bindScan a0 a1 a2 a3 a4 a5).1 := by
  induction a3 generalizing a0 a1 a2 a4 a5 with
  | nil =>
    unfold State.bindScan
    with_reducible assumption
  | cons x t ih =>
    unfold State.bindScan
    lift_lets
    (intro x; refine keeps_cut (p := Keeps m z x.2) ?_ (fun hx => ?_); (on_goal 2 => clear_value x); (on_goal 1 => subst x))
    apply State.keyFind_keeps (hm.sub rfl)
    with_reducible assumption
    (intro x; have _ : Keeps m z x := (by subst x; with_reducible assumption); subst x)
    dsimp only
    split
    with_reducible assumption
    split
    with_reducible assumption
    split
    split
    with_reducible assumption
    split
    with_reducible assumption
    with_reducible apply ih
    with_reducible refine keeps_mk (h := ?_)
    (with_reducible refine keeps_of_some (by with_reducible assumption) ?_)
    apply State.copyGroup_keeps (hm.sub rfl)
    with_reducible assumption
    with_reducible apply ih
    with_reducible refine keeps_mk (h := ?_)
    with_reducible assumption

theorem State.bindCreate_keeps (hm : Within [.live, .run, .pgw, .sch, .que, .vsp, .mem, .prog, .mat, .lnk, .sec, .hst, .sum, .outbox, .freeCtr] m) {a0 : State} (a1 : Req) (a2 : List ℕ) (h0 : Keeps m z a0) : Keeps m z (State.bindCreate a0 a1 a2) := by
  unfold State.bindCreate
  lift_lets
  iterate 7 (intro x; clear_value x)
  split
  split
  apply State.answer_keeps (hm.sub rfl)
  (with_reducible refine keeps_of_fst (by with_reducible assumption) ?_)
  apply State.seqFor_keeps (hm.sub rfl)
  with_reducible assumption
  apply State.answer_keeps (hm.sub rfl)
  (with_reducible refine keeps_of_fst (by with_reducible assumption) ?_)
  apply State.seqFor_keeps (hm.sub rfl)
  with_reducible assumption
  split
  apply State.answer_keeps (hm.sub rfl)
  (with_reducible refine keeps_foldl (fun s a hs => ?_) ?_)
  apply State.dropGroup_keeps (hm.sub rfl)
  with_reducible assumption
  apply State.raiseBit_keeps (hm.sub rfl)
  with_reducible assumption
  lift_lets
  iterate 2 (intro x; clear_value x)
  (intro x; refine keeps_cut (p := Keeps m z x) ?_ (fun hx => ?_); (on_goal 2 => clear_value x); (on_goal 1 => subst x))
  apply State.countSeq_keeps (hm.sub rfl)
  apply State.putSeq_keeps (hm.sub rfl)
  with_reducible assumption
  (intro x; refine keeps_cut (p := Keeps m z x.1) ?_ (fun hx => ?_); (on_goal 2 => clear_value x); (on_goal 1 => subst x))
  split
  dsimp only
  (with_reducible refine keeps_of_some (by with_reducible assumption) ?_)
  apply State.reserveLayers_keeps (hm.sub rfl)
  with_reducible assumption
  dsimp only
  apply State.dusk1_keeps (hm.sub rfl)
  with_reducible assumption
  apply State.launch_keeps (hm.sub rfl)
  with_reducible assumption

theorem State.startBind_keeps (hm : Within [.live, .run, .pgw, .sch, .que, .vsp, .mem, .prog, .mat, .lnk, .sec, .hst, .sum, .outbox, .freeCtr] m) {a0 : State} (a1 : Req) (a2 : Option (List ℕ)) (h0 : Keeps m z a0) : Keeps m z (State.startBind a0 a1 a2) := by
  unfold State.startBind
  lift_lets
  (intro x; clear_value x)
  (intro x; refine keeps_cut (p := Keeps m z x.1) ?_ (fun hx => ?_); (on_goal 2 => clear_value x); (on_goal 1 => subst x))
  apply State.bindScan_keeps (hm.sub rfl)
  with_reducible assumption
  split
  apply State.answer_keeps (hm.sub rfl)
  (with_reducible refine keeps_foldl (fun s a hs => ?_) ?_)
  apply State.dropGroup_keeps (hm.sub rfl)
  with_reducible assumption
  with_reducible assumption
  split
  lift_lets
  (intro x; clear_value x)
  apply State.bindCreate_keeps (hm.sub rfl)
  (with_reducible refine keeps_foldl (fun s a hs => ?_) ?_)
  apply State.dropGroup_keeps (hm.sub rfl)
  with_reducible assumption
  with_reducible assumption
  split
  apply State.waitRun_keeps (hm.sub rfl)
  with_reducible assumption
  apply State.bindCreate_keeps (hm.sub rfl)
  with_reducible assumption

theorem State.startPrefixBind_keeps (hm : Within [.live, .run, .pgw, .sch, .que, .vsp, .mem, .prog, .mat, .lnk, .sec, .hst, .sum, .outbox, .freeCtr] m) {a0 : State} (a1 : Req) (a2 : Option (List ℕ)) (h0 : Keeps m z a0) : Keeps m z (State.startPrefixBind a0 a1 a2) := by
  unfold State.startPrefixBind
  lift_lets
  (intro x; clear_value x)
  split
  apply State.startBind_keeps (hm.sub rfl)
  with_reducible assumption
  split
  apply State.answer_keeps (hm.sub rfl)
  with_reducible assumption
  with_reducible assumption
  split
  apply State.startPublish_keeps (hm.sub rfl)
  with_reducible assumption
  apply State.startUnpublish_keeps (hm.sub rfl)
  with_reducible assumption

theorem State.releaseSeq_keeps (hm : Within [.pgw, .sch, .vsp, .mem, .mat] m) {a0 : State} (a1 : SeqRec) (h0 : Keeps m z a0) : Keeps m z (State.releaseSeq a0 a1) := by
  unfold State.releaseSeq
  split
  lift_lets
  (intro x; clear_value x)
  (intro (x : MemSt); subst x)
  (intro x; refine keeps_cut (p := Keeps m z x) ?_ (fun hx => ?_); (on_goal 2 => clear_value x); (on_goal 1 => subst x))
  with_reducible refine keeps_mk (h := ?_)
  with_reducible assumption
  iterate 3 (intro x; clear_value x)
  (intro x; refine keeps_cut (p := Keeps m z x) ?_ (fun hx => ?_); (on_goal 2 => clear_value x); (on_goal 1 => subst x))
  apply State.useSpares_keeps (hm.sub rfl)
  apply State.delSeq_keeps (hm.sub rfl)
  with_reducible assumption
  (intro x; refine keeps_cut (p := Keeps m z x) ?_ (fun hx => ?_); (on_goal 2 => clear_value x); (on_goal 1 => subst x))
  apply State.remap_keeps (hm.sub rfl)
  apply State.putSeq_keeps (hm.sub rfl)
  with_reducible assumption
  iterate 3 (intro x; clear_value x)
  (intro x; refine keeps_cut (p := Keeps m z x) ?_ (fun hx => ?_); (on_goal 2 => clear_value x); (on_goal 1 => subst x))
  (with_reducible refine keeps_foldl (fun s a hs => ?_) ?_)
  apply State.abandonMove_keeps (hm.sub rfl)
  with_reducible assumption
  with_reducible assumption
  (intro (x : MemSt); subst x)
  with_reducible refine keeps_mk (h := ?_)
  with_reducible assumption
  apply State.endSeq_keeps (hm.sub rfl)
  with_reducible assumption

theorem State.startRelease_keeps (hm : Within [.run, .pgw, .sch, .vsp, .mem, .mat] m) {a0 : State} (a1 : Req) (h0 : Keeps m z a0) : Keeps m z (State.startRelease a0 a1) := by
  unfold State.startRelease
  split
  apply State.answer_keeps (hm.sub rfl)
  with_reducible assumption
  with_reducible assumption
  apply State.answer_keeps (hm.sub rfl)
  apply State.releaseSeq_keeps (hm.sub rfl)
  with_reducible assumption

theorem State.startAttest_keeps (hm : Within [.sec] m) {a0 : State} (a1 : Req) (h0 : Keeps m z a0) : Keeps m z (State.startAttest a0 a1) := by
  unfold State.startAttest
  lift_lets
  (intro x; clear_value x)
  (intro x; refine keeps_cut (p := Keeps m z x) ?_ (fun hx => ?_); (on_goal 2 => clear_value x); (on_goal 1 => subst x))
  apply State.queueNonce_keeps (hm.sub rfl)
  with_reducible assumption
  (intro x; clear_value x)
  (intro (x : SecSt); subst x)
  with_reducible refine keeps_mk (h := ?_)
  with_reducible assumption

theorem State.startSpanWork_keeps (hm : Within [.live, .run, .pgw, .sch, .que, .vsp, .mem, .prog, .mat, .lnk, .hst, .sum, .outbox, .freeCtr] m) {a0 : State} (a1 : Req) (h0 : Keeps m z a0) : Keeps m z (State.startSpanWork a0 a1) := by
  unfold State.startSpanWork
  lift_lets
  iterate 5 (intro x; clear_value x)
  split
  apply State.answer_keeps (hm.sub rfl)
  with_reducible assumption
  lift_lets
  iterate 2 (intro x; clear_value x)
  split
  apply State.answer_keeps (hm.sub rfl)
  with_reducible assumption
  dsimp only
  split
  apply State.answer_keeps (hm.sub rfl)
  with_reducible assumption
  apply State.launch_keeps (hm.sub rfl)
  apply State.conditioned_keeps (hm.sub rfl)
  with_reducible assumption

theorem State.elsewhere_keeps (hm : Within [.live, .run, .sch, .que, .lnk, .hst, .sum, .outbox, .freeCtr] m) {a0 : State} (a1 : Req) (a2 : ℕ) (h0 : Keeps m z a0) : Keeps m z (State.elsewhere a0 a1 a2) := by
  unfold State.elsewhere
  split
  apply State.answer_keeps (hm.sub rfl)
  with_reducible assumption
  apply State.forward_keeps (hm.sub rfl)
  with_reducible assumption

theorem State.execute_keeps (hm : Within [.live, .run, .pgw, .sch, .que, .vsp, .mem, .prog, .mat, .lnk, .sec, .hst, .sum, .outbox, .freeCtr] m) {a0 : State} (a1 : Req) (a2 : Option (List ℕ)) (h0 : Keeps m z a0) : Keeps m z (State.execute a0 a1 a2) := by
  unfold State.execute
  split
  apply State.startAppend_keeps (hm.sub rfl)
  with_reducible assumption
  apply State.startAttend_keeps (hm.sub rfl)
  with_reducible assumption
  apply State.startAppendAttend_keeps (hm.sub rfl)
  with_reducible assumption
  apply State.startVerify_keeps (hm.sub rfl)
  with_reducible assumption
  apply State.startCommit_keeps (hm.sub rfl)
  with_reducible assumption
  apply State.startPrefixBind_keeps (hm.sub rfl)
  with_reducible assumption
  apply State.startRelease_keeps (hm.sub rfl)
  with_reducible assumption
  apply State.startAttest_keeps (hm.sub rfl)
  with_reducible assumption
  apply State.startSpanWork_keeps (hm.sub rfl)
  with_reducible assumption
  apply State.startProgram_keeps (hm.sub rfl)
  with_reducible assumption
  apply State.startProgram_keeps (hm.sub rfl)
  with_reducible assumption
  with_reducible assumption
  with_reducible assumption
  with_reducible assumption

theorem State.effect_keeps (hm : Within [.live, .run, .pgw, .sch, .que, .vsp, .mem, .prog, .mat, .lnk, .sec, .hst, .sum, .outbox, .freeCtr] m) {a0 : State} (a1 : Waiter) (a2 : Option (List ℕ)) (h0 : Keeps m z a0) : Keeps m z (State.effect a0 a1 a2) := by
  unfold State.effect
  lift_lets
  (intro x; refine keeps_cut (p := Keeps m z x) ?_ (fun hx => ?_); (on_goal 2 => clear_value x); (on_goal 1 => subst x))
  split
  apply State.startAppendAttend_keeps (hm.sub rfl)
  with_reducible assumption
  apply State.execute_keeps (hm.sub rfl)
  with_reducible assumption
  (intro (x : SchSt); subst x)
  with_reducible refine keeps_mk (h := ?_)
  with_reducible assumption

theorem State.endSpareWaits_keeps (hm : Within [.live, .run, .sch, .hst, .sum, .outbox] m) {a0 : State} (a1 : ℕ) (a2 : ℕ) (h0 : Keeps m z a0) : Keeps m z (State.endSpareWaits a0 a1 a2) := by
  unfold State.endSpareWaits
  lift_lets
  iterate 2 (intro x; clear_value x)
  (intro (x : SchSt); subst x)
  (intro x; refine keeps_cut (p := Keeps m z x) ?_ (fun hx => ?_); (on_goal 2 => clear_value x); (on_goal 1 => subst x))
  with_reducible refine keeps_mk (h := ?_)
  with_reducible assumption
  (with_reducible refine keeps_foldl (fun s a hs => ?_) ?_)
  lift_lets
  (intro x; clear_value x)
  apply State.answer_keeps (hm.sub rfl)
  apply State.raiseBit_keeps (hm.sub rfl)
  apply State.stallTicks_keeps (hm.sub rfl)
  with_reducible assumption
  with_reducible assumption

theorem State.goOn_keeps (hm : Within [.live, .run, .pgw, .sch, .que, .vsp, .mem, .prog, .mat, .lnk, .sec, .hst, .sum, .outbox, .freeCtr] m) (a0 : ℕ) {a1 : State} (h1 : Keeps m z a1) : Keeps m z (State.goOn a0 a1) := by
  induction a0 generalizing a1 with
  | zero =>
    unfold State.goOn
    with_reducible assumption
  | succ k ih =>
    unfold State.goOn
    split
    with_reducible apply ih
    apply State.effect_keeps (hm.sub rfl)
    with_reducible refine keeps_mk (h := ?_)
    with_reducible assumption
    split
    with_reducible apply ih
    apply State.endSpareWaits_keeps (hm.sub rfl)
    with_reducible assumption
    with_reducible assumption

theorem State.settleOrder_keeps (hm : Within [.live, .run, .pgw, .sch, .que, .vsp, .mem, .prog, .mat, .lnk, .sec, .hst, .sum, .outbox, .freeCtr] m) {a0 : State} (h0 : Keeps m z a0) : Keeps m z (State.settleOrder a0) := by
  unfold State.settleOrder
  apply State.goOn_keeps (hm.sub rfl)
  with_reducible assumption

theorem State.inOrder_keeps (hm : Within [.live, .run, .pgw, .sch, .que, .vsp, .mem, .prog, .mat, .lnk, .sec, .hst, .sum, .outbox, .freeCtr] m) {a0 : State} (a1 : Req) (a2 : List Byte) (a3 : List (List Byte)) (h0 : Keeps m z a0) : Keeps m z (State.inOrder a0 a1 a2 a3) := by
  unfold State.inOrder
  lift_lets
  (intro x; clear_value x)
  (intro (x : SchSt); subst x)
  split
  with_reducible refine keeps_mk (h := ?_)
  with_reducible assumption
  apply State.effect_keeps (hm.sub rfl)
  with_reducible assumption

theorem State.dispatch_keeps (hm : Within [.live, .run, .pgw, .sch, .que, .vsp, .mem, .prog, .mat, .lnk, .sec, .hst, .sum, .outbox, .freeCtr] m) {a0 : State} (a1 : Req) (h0 : Keeps m z a0) : Keeps m z (State.dispatch a0 a1) := by
  unfold State.dispatch
  lift_lets
  iterate 2 (intro x; clear_value x)
  split
  split
  apply State.elsewhere_keeps (hm.sub rfl)
  with_reducible assumption
  apply State.execute_keeps (hm.sub rfl)
  with_reducible assumption
  split
  split
  apply State.elsewhere_keeps (hm.sub rfl)
  with_reducible assumption
  split
  apply State.elsewhere_keeps (hm.sub rfl)
  with_reducible assumption
  split
  apply State.execute_keeps (hm.sub rfl)
  with_reducible assumption
  apply State.inOrder_keeps (hm.sub rfl)
  split
  apply State.settleOrder_keeps (hm.sub rfl)
  apply State.endSpareWaits_keeps (hm.sub rfl)
  with_reducible assumption
  with_reducible assumption
  apply State.execute_keeps (hm.sub rfl)
  with_reducible assumption

theorem State.redo_keeps (hm : Within [.live, .run, .pgw, .sch, .que, .vsp, .mem, .prog, .mat, .lnk, .sec, .hst, .sum, .outbox, .freeCtr] m) {a0 : State} (a1 : ℕ) (h0 : Keeps m z a0) : Keeps m z (State.redo a0 a1) := by
  unfold State.redo
  split
  with_reducible assumption
  lift_lets
  iterate 2 (intro x; clear_value x)
  (intro x; refine keeps_cut (p := Keeps m z x) ?_ (fun hx => ?_); (on_goal 2 => clear_value x); (on_goal 1 => subst x))
  (with_reducible refine keeps_foldl (fun s a hs => ?_) ?_)
  apply State.stallTicks_keeps (hm.sub rfl)
  with_reducible assumption
  with_reducible assumption
  apply State.settleOrder_keeps (hm.sub rfl)
  apply State.effect_keeps (hm.sub rfl)
  apply State.dropRun_keeps (hm.sub rfl)
  with_reducible assumption

/-! ### WeightRepair -/

theorem State.failUnit_keeps (hm : Within [.mem] m) {a0 : State} (a1 : ℕ) (h0 : Keeps m z a0) : Keeps m z (State.failUnit a0 a1) := by
  unfold State.failUnit
  split
  with_reducible assumption
  with_reducible refine keeps_mk (h := ?_)
  with_reducible assumption

theorem State.retireUnits_keeps (hm : Within [.live, .mem] m) {a0 : State} (h0 : Keeps m z a0) : Keeps m z (State.retireUnits a0) := by
  unfold State.retireUnits
  lift_lets
  (intro x; clear_value x)
  (intro (x : MemSt); subst x)
  (intro x; refine keeps_cut (p := Keeps m z x) ?_ (fun hx => ?_); (on_goal 2 => clear_value x); (on_goal 1 => subst x))
  with_reducible refine keeps_mk (h := ?_)
  with_reducible assumption
  split
  with_reducible assumption
  apply State.setStatus_keeps (hm.sub rfl)
  with_reducible assumption

theorem State.refreshMat_keeps (hm : Within [.live, .mat, .hst, .sum, .outbox] m) {a0 : State} (h0 : Keeps m z a0) : Keeps m z (State.refreshMat a0) := by
  unfold State.refreshMat
  lift_lets
  (intro x; refine keeps_cut (p := Keeps m z x) ?_ (fun hx => ?_); (on_goal 2 => clear_value x); (on_goal 1 => subst x))
  apply State.endRefills_keeps (hm.sub rfl)
  with_reducible assumption
  split
  with_reducible assumption
  apply State.raiseBit_keeps (hm.sub rfl)
  with_reducible assumption

theorem State.weightAsk_keeps (hm : Within [.live, .run, .que, .lnk, .hst, .sum, .outbox, .freeCtr] m) {a0 : State} (a1 : TileKey) (a2 : Option ℕ) (h0 : Keeps m z a0) : Keeps m z (State.weightAsk a0 a1 a2) := by
  unfold State.weightAsk
  split
  with_reducible assumption
  split
  with_reducible assumption
  apply State.nodeOp_keeps (hm.sub rfl)
  with_reducible assumption

theorem State.rehome_keeps (hm : Within [.live, .pgw, .mem] m) {a0 : State} (a1 : TileKey) (a2 : Bool) (h0 : Keeps m z a0) : Keeps m z (State.rehome a0 a1 a2) := by
  unfold State.rehome
  lift_lets
  iterate 2 (intro x; clear_value x)
  (intro x; refine keeps_cut (p := ∀ s0 y1, Keeps m z s0 → Keeps m z (x s0 y1)) ?_ (fun hf0 => ?_); (on_goal 2 => clear_value x); (on_goal 1 => (intro s0 y1 hs0; subst x; beta_reduce)))
  dsimp only
  with_reducible refine keeps_mk (h := ?_)
  with_reducible assumption
  split
  with_reducible assumption
  split
  apply State.retireUnits_keeps (hm.sub rfl)
  with_reducible apply hf0
  with_reducible assumption
  with_reducible assumption

theorem State.leaveImages_keeps (hm : Within [.live, .pgw, .mem] m) {a0 : State} (h0 : Keeps m z a0) : Keeps m z (State.leaveImages a0) := by
  unfold State.leaveImages
  (with_reducible refine keeps_foldl (fun s a hs => ?_) ?_)
  apply State.rehome_keeps (hm.sub rfl)
  with_reducible assumption
  with_reducible assumption

theorem State.clearPoison_keeps (hm : Within [.live, .pgw, .mem, .mat, .hst, .sum, .outbox] m) {a0 : State} (a1 : TileKey) (h0 : Keeps m z a0) : Keeps m z (State.clearPoison a0 a1) := by
  unfold State.clearPoison
  lift_lets
  iterate 2 (intro x; clear_value x)
  (intro x; refine keeps_cut (p := Keeps m z x) ?_ (fun hx => ?_); (on_goal 2 => clear_value x); (on_goal 1 => subst x))
  with_reducible assumption
  (intro x; refine keeps_cut (p := Keeps m z x) ?_ (fun hx => ?_); (on_goal 2 => clear_value x); (on_goal 1 => subst x))
  (with_reducible refine keeps_foldl (fun s a hs => ?_) ?_)
  apply State.rehome_keeps (hm.sub rfl)
  with_reducible assumption
  with_reducible assumption
  (intro (x : MemSt); subst x)
  (intro x; refine keeps_cut (p := Keeps m z x) ?_ (fun hx => ?_); (on_goal 2 => clear_value x); (on_goal 1 => subst x))
  with_reducible refine keeps_mk (h := ?_)
  with_reducible assumption
  (intro x; refine keeps_cut (p := Keeps m z x) ?_ (fun hx => ?_); (on_goal 2 => clear_value x); (on_goal 1 => subst x))
  apply State.refreshMat_keeps (hm.sub rfl)
  with_reducible assumption
  (intro x; clear_value x)
  split
  with_reducible assumption
  apply State.raiseBit_keeps (hm.sub rfl)
  apply State.refreshPoison_keeps (hm.sub rfl)
  apply State.setLive_keeps (hm.sub rfl)
  with_reducible assumption

theorem State.trySources_keeps (hm : Within [.live, .run, .pgw, .que, .mem, .mat, .lnk, .hst, .sum, .outbox, .freeCtr] m) {a0 : State} (a1 : TileKey) (h0 : Keeps m z a0) : Keeps m z (State.trySources a0 a1) := by
  unfold State.trySources
  split
  with_reducible assumption
  split
  apply State.weightAsk_keeps (hm.sub rfl)
  with_reducible assumption
  lift_lets
  (intro x; refine keeps_cut (p := Keeps m z x.2) ?_ (fun hx => ?_); (on_goal 2 => clear_value x); (on_goal 1 => subst x))
  apply State.fresh_keeps (hm.sub rfl)
  with_reducible assumption
  (intro x; clear_value x)
  (intro x; have _ : Keeps m z x := (by subst x; with_reducible assumption); subst x)
  (intro (x : MemSt); subst x)
  split
  apply State.weightAsk_keeps (hm.sub rfl)
  with_reducible refine keeps_mk (h := ?_)
  with_reducible assumption
  apply State.clearPoison_keeps (hm.sub rfl)
  with_reducible assumption

theorem State.poisonTile_keeps (hm : Within [.live, .run, .pgw, .que, .mem, .mat, .lnk, .hst, .sum, .outbox, .freeCtr] m) {a0 : State} (a1 : TileKey) (a2 : Bool) (h0 : Keeps m z a0) : Keeps m z (State.poisonTile a0 a1 a2) := by
  unfold State.poisonTile
  lift_lets
  (intro (x : MemSt); subst x)
  (intro x; refine keeps_cut (p := Keeps m z x) ?_ (fun hx => ?_); (on_goal 2 => clear_value x); (on_goal 1 => subst x))
  split
  with_reducible assumption
  with_reducible refine keeps_mk (h := ?_)
  with_reducible assumption
  (intro (x : MemSt); subst x)
  (intro x; refine keeps_cut (p := Keeps m z x) ?_ (fun hx => ?_); (on_goal 2 => clear_value x); (on_goal 1 => subst x))
  with_reducible refine keeps_mk (h := ?_)
  with_reducible assumption
  split
  with_reducible assumption
  apply State.trySources_keeps (hm.sub rfl)
  apply State.raiseBit_keeps (hm.sub rfl)
  apply State.refreshPoison_keeps (hm.sub rfl)
  with_reducible assumption

/-! ### TierEcc -/

theorem State.reshadow_keeps (hm : Within [.live, .mem] m) {a0 : State} (a1 : PageRef) (h0 : Keeps m z a0) : Keeps m z (State.reshadow a0 a1) := by
  unfold State.reshadow
  split
  with_reducible assumption
  apply State.setStatus_keeps (hm.sub rfl)
  with_reducible refine keeps_mk (h := ?_)
  with_reducible assumption

theorem State.dropShadow_keeps (hm : Within [.live, .pgw, .mem] m) {a0 : State} (a1 : PageRef) (a2 : Pte) (h0 : Keeps m z a0) : Keeps m z (State.dropShadow a0 a1 a2) := by
  unfold State.dropShadow
  lift_lets
  (intro x; refine keeps_cut (p := Keeps m z x) ?_ (fun hx => ?_); (on_goal 2 => clear_value x); (on_goal 1 => subst x))
  apply State.setPageAt_keeps (hm.sub rfl)
  with_reducible assumption
  (intro x; refine keeps_cut (p := Keeps m z x) ?_ (fun hx => ?_); (on_goal 2 => clear_value x); (on_goal 1 => subst x))
  split
  apply State.freeSlots_keeps (hm.sub rfl)
  with_reducible assumption
  with_reducible assumption
  (intro (x : MemSt); subst x)
  split
  apply State.setStatus_keeps (hm.sub rfl)
  with_reducible refine keeps_mk (h := ?_)
  with_reducible assumption
  with_reducible assumption

theorem State.restartTier1_keeps (hm : Within [.live, .run, .pgw, .que, .mem, .lnk, .hst, .sum, .outbox, .freeCtr] m) {a0 : State} (h0 : Keeps m z a0) : Keeps m z (State.restartTier1 a0) := by
  unfold State.restartTier1
  (with_reducible refine keeps_foldl (fun s a hs => ?_) ?_)
  lift_lets
  (intro x; refine keeps_cut (p := Keeps m z x) ?_ (fun hx => ?_); (on_goal 2 => clear_value x); (on_goal 1 => subst x))
  apply State.abandonMove_keeps (hm.sub rfl)
  with_reducible assumption
  split
  with_reducible apply keeps_getD
  apply State.fetchPage_keeps (hm.sub rfl)
  with_reducible assumption
  with_reducible assumption
  split
  apply State.reshadow_keeps (hm.sub rfl)
  with_reducible assumption
  with_reducible assumption
  with_reducible assumption
  with_reducible assumption

theorem State.leaveStack_keeps (hm : Within [.live, .run, .pgw, .que, .mem, .lnk, .hst, .sum, .outbox, .freeCtr] m) {a0 : State} (h0 : Keeps m z a0) : Keeps m z (State.leaveStack a0) := by
  unfold State.leaveStack
  (with_reducible refine keeps_foldl (fun s a hs => ?_) ?_)
  split
  with_reducible assumption
  apply State.dropShadow_keeps (hm.sub rfl)
  with_reducible assumption
  apply State.restartTier1_keeps (hm.sub rfl)
  with_reducible assumption

theorem State.tier1Strike_keeps (hm : Within [.live, .run, .pgw, .sch, .que, .vsp, .mem, .prog, .mat, .lnk, .hst, .sum, .outbox, .freeCtr] m) {a0 : State} (a1 : ℕ) (h0 : Keeps m z a0) : Keeps m z (State.tier1Strike a0 a1) := by
  unfold State.tier1Strike
  split
  apply State.raiseBit_keeps (hm.sub rfl)
  split
  apply State.reshadow_keeps (hm.sub rfl)
  with_reducible assumption
  apply State.dropShadow_keeps (hm.sub rfl)
  with_reducible assumption
  split
  apply State.raiseBit_keeps (hm.sub rfl)
  apply State.sweepLost_keeps (hm.sub rfl)
  apply State.markLost_keeps (hm.sub rfl)
  with_reducible assumption
  split
  apply State.poisonTile_keeps (hm.sub rfl)
  with_reducible assumption
  with_reducible assumption

theorem State.tier1Ecc_keeps (hm : Within [.live, .run, .pgw, .sch, .que, .vsp, .mem, .prog, .mat, .lnk, .hlt, .hst, .sum, .outbox, .freeCtr] m) {a0 : State} (a1 : ℕ) (a2 : EccOutcome) (h0 : Keeps m z a0) : Keeps m z (State.tier1Ecc a0 a1 a2) := by
  unfold State.tier1Ecc
  split
  with_reducible assumption
  apply State.addPoints_keeps (hm.sub rfl)
  with_reducible assumption
  apply State.retireUnits_keeps (hm.sub rfl)
  apply State.tier1Strike_keeps (hm.sub rfl)
  apply State.failUnit_keeps (hm.sub rfl)
  apply State.addPoints_keeps (hm.sub rfl)
  with_reducible assumption

theorem State.eccScore_keeps (hm : Within [.live, .run, .pgw, .sch, .que, .vsp, .mem, .prog, .mat, .lnk, .hlt, .hst, .sum, .outbox, .freeCtr] m) {a0 : State} (a1 : ℕ) (a2 : EccOutcome) (h0 : Keeps m z a0) : Keeps m z (State.eccScore a0 a1 a2) := by
  unfold State.eccScore
  split
  apply State.tier1Ecc_keeps (hm.sub rfl)
  with_reducible assumption
  split
  with_reducible assumption
  split
  with_reducible assumption
  apply State.addPoints_keeps (hm.sub rfl)
  with_reducible assumption
  lift_lets
  (intro x; refine keeps_cut (p := Keeps m z x) ?_ (fun hx => ?_); (on_goal 2 => clear_value x); (on_goal 1 => subst x))
  apply State.addPoints_keeps (hm.sub rfl)
  with_reducible assumption
  split
  apply State.poisonTile_keeps (hm.sub rfl)
  with_reducible assumption
  with_reducible assumption

theorem State.eccOver_keeps (hm : Within [.live, .run, .pgw, .sch, .que, .vsp, .mem, .prog, .mat, .lnk, .hlt, .hst, .sum, .outbox, .freeCtr] m) {a0 : State} (a1 : ℕ) (a2 : ℕ) (a3 : List (ℕ × EccOutcome)) (h0 : Keeps m z a0) : Keeps m z (State.eccOver a0 a1 a2 a3).1 := by
  unfold State.eccOver
  lift_lets
  (intro x; clear_value x)
  dsimp only
  (with_reducible refine keeps_foldl (fun s a hs => ?_) ?_)
  apply State.eccScore_keeps (hm.sub rfl)
  with_reducible assumption
  with_reducible assumption

theorem State.readTier1_keeps (hm : Within [.live, .run, .pgw, .sch, .que, .vsp, .mem, .prog, .mat, .lnk, .hlt, .hst, .sum, .outbox, .freeCtr] m) {a0 : State} (a1 : ℕ) (a2 : List ℕ) (h0 : Keeps m z a0) : Keeps m z (State.readTier1 a0 a1 a2).1 := by
  unfold State.readTier1
  lift_lets
  (intro x; clear_value x)
  dsimp only
  (with_reducible refine keeps_foldl (fun s a hs => ?_) ?_)
  apply State.tier1Ecc_keeps (hm.sub rfl)
  with_reducible assumption
  with_reducible assumption

/-! ### Windows -/

theorem State.serveAccess_keeps (hm : Within [.live, .run, .pgw, .sch, .que, .vsp, .mem, .prog, .mat, .lnk, .hlt, .hst, .sum, .outbox, .freeCtr] m) {a0 : State} (a1 : ℕ) (a2 : Bool) (a3 : ℕ) (a4 : List Byte) (a5 : EccOutcome) (h0 : Keeps m z a0) : Keeps m z (State.serveAccess a0 a1 a2 a3 a4 a5) := by
  unfold State.serveAccess
  split
  split
  apply State.emit_keeps (hm.sub rfl)
  with_reducible assumption
  lift_lets
  (intro x; refine keeps_cut (p := Keeps m z x.1) ?_ (fun hx => ?_); (on_goal 2 => clear_value x); (on_goal 1 => subst x))
  apply State.writeFlat_keeps (hm.sub rfl)
  with_reducible assumption
  apply State.emit_keeps (hm.sub rfl)
  with_reducible assumption
  split
  apply State.emit_keeps (hm.sub rfl)
  with_reducible assumption
  split
  apply State.emit_keeps (hm.sub rfl)
  with_reducible assumption
  lift_lets
  (intro x; refine keeps_cut (p := Keeps m z x) ?_ (fun hx => ?_); (on_goal 2 => clear_value x); (on_goal 1 => subst x))
  apply State.eccScore_keeps (hm.sub rfl)
  apply State.fresh_keeps (hm.sub rfl)
  with_reducible assumption
  split
  apply State.emit_keeps (hm.sub rfl)
  with_reducible assumption
  apply State.emit_keeps (hm.sub rfl)
  with_reducible assumption

theorem State.serveWaiting_keeps (hm : Within [.live, .run, .pgw, .sch, .que, .vsp, .mem, .prog, .mat, .lnk, .hlt, .hst, .sum, .outbox, .freeCtr] m) {a0 : State} (a1 : ℕ) (a2 : ℕ) (h0 : Keeps m z a0) : Keeps m z (State.serveWaiting a0 a1 a2) := by
  unfold State.serveWaiting
  lift_lets
  iterate 2 (intro x; clear_value x)
  (intro x; refine keeps_cut (p := Keeps m z x) ?_ (fun hx => ?_); (on_goal 2 => clear_value x); (on_goal 1 => subst x))
  apply State.setUnit_keeps (hm.sub rfl)
  with_reducible assumption
  (with_reducible refine keeps_foldl (fun s a hs => ?_) ?_)
  apply State.serveAccess_keeps (hm.sub rfl)
  with_reducible assumption
  with_reducible assumption

theorem State.passUnit_keeps (hm : Within [.now, .live, .run, .pgw, .sch, .que, .vsp, .mem, .prog, .mat, .lnk, .hlt, .hst, .sum, .outbox, .freeCtr] m) {a0 : State} (a1 : ℕ) (a2 : ℕ) (a3 : ℕ) (h0 : Keeps m z a0) : Keeps m z (State.passUnit a0 a1 a2 a3) := by
  induction a2 generalizing a0 a1 a3 with
  | zero =>
    unfold State.passUnit
    with_reducible assumption
  | succ k ih =>
    unfold State.passUnit
    split
    with_reducible assumption
    lift_lets
    (intro x; refine keeps_cut (p := Keeps m z x) ?_ (fun hx => ?_); (on_goal 2 => clear_value x); (on_goal 1 => subst x))
    apply State.pumpNow_keeps (hm.sub rfl)
    with_reducible assumption
    (intro x; refine keeps_cut (p := Keeps m z x) ?_ (fun hx => ?_); (on_goal 2 => clear_value x); (on_goal 1 => subst x))
    split
    apply State.catchUp_keeps (hm.sub rfl)
    apply State.endRow_keeps (hm.sub rfl)
    with_reducible assumption
    with_reducible assumption
    iterate 2 (intro x; clear_value x)
    (intro x; refine keeps_cut (p := Keeps m z x) ?_ (fun hx => ?_); (on_goal 2 => clear_value x); (on_goal 1 => subst x))
    apply State.serveWaiting_keeps (hm.sub rfl)
    apply State.openWindow_keeps (hm.sub rfl)
    with_reducible assumption
    split
    with_reducible apply ih
    (with_reducible refine keeps_of_some (by with_reducible assumption) ?_)
    apply State.joinWindow_keeps (hm.sub rfl)
    with_reducible assumption
    split
    with_reducible apply ih
    apply State.advanceTo_keeps (hm.sub rfl)
    with_reducible assumption
    split
    apply State.serveWaiting_keeps (hm.sub rfl)
    with_reducible assumption
    with_reducible apply ih
    apply State.advanceTo_keeps (hm.sub rfl)
    with_reducible assumption

theorem State.passBank_keeps (hm : Within [.now, .live, .run, .pgw, .sch, .que, .vsp, .mem, .prog, .mat, .lnk, .hlt, .hst, .sum, .outbox, .freeCtr] m) {a0 : State} (a1 : ℕ) (a2 : ℕ) (h0 : Keeps m z a0) : Keeps m z (State.passBank a0 a1 a2) := by
  unfold State.passBank
  split
  apply State.passUnit_keeps (hm.sub rfl)
  with_reducible assumption
  with_reducible assumption

theorem State.passWindows_keeps (hm : Within [.now, .live, .run, .pgw, .sch, .que, .vsp, .mem, .prog, .mat, .lnk, .hlt, .hst, .sum, .outbox, .freeCtr] m) {a0 : State} (a1 : ℕ) (a2 : ℕ) (h0 : Keeps m z a0) : Keeps m z (State.passWindows a0 a1 a2) := by
  unfold State.passWindows
  lift_lets
  (intro x; clear_value x)
  (with_reducible refine keeps_foldl (fun s a hs => ?_) ?_)
  apply State.passBank_keeps (hm.sub rfl)
  with_reducible assumption
  with_reducible assumption

theorem State.passTile_keeps (hm : Within [.now, .live, .run, .pgw, .sch, .que, .vsp, .mem, .prog, .mat, .lnk, .hlt, .hst, .sum, .outbox, .freeCtr] m) {a0 : State} (a1 : ℕ) (a2 : List Byte) (h0 : Keeps m z a0) : Keeps m z (State.passTile a0 a1 a2) := by
  unfold State.passTile
  apply State.passBank_keeps (hm.sub rfl)
  with_reducible assumption

/-! ### Admit -/

theorem State.putAgg_keeps (hm : Within [.sch] m) {a0 : State} (a1 : ℕ) (a2 : TenantAgg) (h0 : Keeps m z a0) : Keeps m z (State.putAgg a0 a1 a2) := by
  unfold State.putAgg
  with_reducible refine keeps_mk (h := ?_)
  with_reducible assumption

theorem State.evidenceMissed_keeps (hm : Within [.live, .hlt, .hst, .sum, .outbox] m) {a0 : State} (h0 : Keeps m z a0) : Keeps m z (State.evidenceMissed a0) := by
  unfold State.evidenceMissed
  apply State.raiseBit_keeps (hm.sub rfl)
  with_reducible refine keeps_mk (h := ?_)
  with_reducible assumption

theorem State.refreshPool_keeps (hm : Within [.live] m) {a0 : State} (h0 : Keeps m z a0) : Keeps m z (State.refreshPool a0) := by
  unfold State.refreshPool
  apply State.setStatus_keeps (hm.sub rfl)
  with_reducible assumption

theorem State.tenantCount_keeps (hm : Within [.run] m) {a0 : State} (a1 : ℕ) (a2 : ℕ) (h0 : Keeps m z a0) : Keeps m z (State.tenantCount a0 a1 a2) := by
  unfold State.tenantCount
  apply State.bump_keeps (hm.sub rfl)
  with_reducible assumption

theorem State.police_keeps (hm : Within [.run, .sch] m) {a0 : State} (a1 : Req) (h0 : Keeps m z a0) : Keeps m z (State.police a0 a1) := by
  unfold State.police
  apply State.refuse_keeps (hm.sub rfl)
  apply State.tenantCount_keeps (hm.sub rfl)
  with_reducible assumption

theorem State.remoteReply_keeps (hm : Within [.run, .sch] m) {a0 : State} (a1 : Req) (a2 : ℕ) (a3 : ℕ) (a4 : List Byte) (h0 : Keeps m z a0) : Keeps m z (State.remoteReply a0 a1 a2 a3 a4) := by
  unfold State.remoteReply
  apply State.reply_keeps (hm.sub rfl)
  with_reducible assumption

theorem State.mirrorWrite_keeps (hm : Within [.live, .run, .sch, .que, .lnk, .hst, .sum, .outbox, .freeCtr] m) {a0 : State} (a1 : Req) (a2 : Region) (h0 : Keeps m z a0) : Keeps m z (State.mirrorWrite a0 a1 a2) := by
  unfold State.mirrorWrite
  lift_lets
  iterate 2 (intro x; clear_value x)
  (intro (x : SchSt); subst x)
  split
  apply State.remoteReply_keeps (hm.sub rfl)
  with_reducible assumption
  apply State.nodeOp_keeps (hm.sub rfl)
  with_reducible refine keeps_mk (h := ?_)
  with_reducible assumption

theorem State.remote_keeps (hm : Within [.now, .live, .run, .pgw, .sch, .que, .vsp, .mem, .prog, .mat, .lnk, .hlt, .hst, .sum, .outbox, .freeCtr] m) {a0 : State} (a1 : Req) (a2 : Op) (a3 : ℕ) (h0 : Keeps m z a0) : Keeps m z (State.remote a0 a1 a2 a3) := by
  unfold State.remote
  lift_lets
  iterate 6 (intro x; clear_value x)
  split
  apply State.remoteReply_keeps (hm.sub rfl)
  with_reducible assumption
  lift_lets
  (intro x; clear_value x)
  (intro x; refine keeps_cut (p := Keeps m z x) ?_ (fun hx => ?_); (on_goal 2 => clear_value x); (on_goal 1 => subst x))
  apply State.passWindows_keeps (hm.sub rfl)
  with_reducible assumption
  (intro x; refine keeps_cut (p := Keeps m z x.1) ?_ (fun hx => ?_); (on_goal 2 => clear_value x); (on_goal 1 => subst x))
  apply State.eccOver_keeps (hm.sub rfl)
  apply State.fresh_keeps (hm.sub rfl)
  with_reducible assumption
  (intro x; refine keeps_cut (p := Keeps m z x.2) ?_ (fun hx => ?_); (on_goal 2 => clear_value x); (on_goal 1 => subst x))
  apply State.fresh_keeps (hm.sub rfl)
  with_reducible assumption
  (intro x; refine keeps_cut (p := Keeps m z x.1) ?_ (fun hx => ?_); (on_goal 2 => clear_value x); (on_goal 1 => subst x))
  apply State.writeFlat_keeps (hm.sub rfl)
  with_reducible assumption
  split
  split
  apply State.remoteReply_keeps (hm.sub rfl)
  with_reducible assumption
  split
  apply State.remoteReply_keeps (hm.sub rfl)
  with_reducible assumption
  apply State.remoteReply_keeps (hm.sub rfl)
  with_reducible assumption
  split
  apply State.remoteReply_keeps (hm.sub rfl)
  with_reducible assumption
  apply State.remoteReply_keeps (hm.sub rfl)
  apply State.rejectSealed_keeps (hm.sub rfl)
  with_reducible assumption
  apply State.remoteReply_keeps (hm.sub rfl)
  apply State.pokeAll_keeps (hm.sub rfl)
  with_reducible assumption
  apply State.mirrorWrite_keeps (hm.sub rfl)
  apply State.pokeAll_keeps (hm.sub rfl)
  with_reducible assumption
  split
  apply State.remoteReply_keeps (hm.sub rfl)
  with_reducible assumption
  apply State.mirrorWrite_keeps (hm.sub rfl)
  with_reducible assumption

theorem State.place_keeps (hm : Within [.live, .run, .pgw, .sch, .que, .mem, .lnk, .hlt, .hst, .sum, .outbox, .freeCtr] m) {a0 : State} (a1 : Req) (a2 : ℕ) (h0 : Keeps m z a0) : Keeps m z (State.place a0 a1 a2) := by
  unfold State.place
  lift_lets
  (intro x; clear_value x)
  (intro (x : SchSt); subst x)
  (intro (x : HltSt); subst x)
  (intro x; refine keeps_cut (p := Keeps m z x) ?_ (fun hx => ?_); (on_goal 2 => clear_value x); (on_goal 1 => subst x))
  with_reducible refine keeps_mk (h := ?_)
  with_reducible assumption
  (intro x; refine keeps_cut (p := Keeps m z x) ?_ (fun hx => ?_); (on_goal 2 => clear_value x); (on_goal 1 => subst x))
  apply State.mapQp_keeps (hm.sub rfl)
  with_reducible assumption
  (intro x; refine keeps_cut (p := Keeps m z x) ?_ (fun hx => ?_); (on_goal 2 => clear_value x); (on_goal 1 => subst x))
  split
  apply State.bump_keeps (hm.sub rfl)
  with_reducible assumption
  with_reducible assumption
  iterate 2 (intro x; clear_value x)
  (intro x; refine keeps_cut (p := Keeps m z x) ?_ (fun hx => ?_); (on_goal 2 => clear_value x); (on_goal 1 => subst x))
  split
  apply State.dawnLook_keeps (hm.sub rfl)
  with_reducible assumption
  with_reducible assumption
  apply State.refreshPool_keeps (hm.sub rfl)
  with_reducible assumption

theorem State.admitReq_keeps (hm : Within [.now, .live, .run, .pgw, .sch, .que, .vsp, .mem, .prog, .mat, .lnk, .hlt, .hst, .sum, .outbox, .freeCtr] m) {a0 : State} (a1 : Req) (a2 : Op) (a3 : ℕ) (a4 : ℕ) (a5 : State → State) (h0 : Keeps m z a0) (h5 : ∀ s0, Keeps m z s0 → Keeps m z (a5 s0)) : Keeps m z (State.admitReq a0 a1 a2 a3 a4 a5) := by
  unfold State.admitReq
  lift_lets
  iterate 4 (intro x; clear_value x)
  (intro (x : HltSt); subst x)
  (intro x; refine keeps_cut (p := Keeps m z x) ?_ (fun hx => ?_); (on_goal 2 => clear_value x); (on_goal 1 => subst x))
  with_reducible apply h5
  with_reducible assumption
  (intro x; clear_value x)
  (intro (x : HltSt); subst x)
  split
  apply State.refuse_keeps (hm.sub rfl)
  with_reducible assumption
  split
  apply State.reply_keeps (hm.sub rfl)
  apply State.evidenceMissed_keeps (hm.sub rfl)
  with_reducible assumption
  split
  apply State.refuse_keeps (hm.sub rfl)
  with_reducible refine keeps_mk (h := ?_)
  with_reducible assumption
  split
  apply State.forward_keeps (hm.sub rfl)
  with_reducible assumption
  split
  apply State.remote_keeps (hm.sub rfl)
  with_reducible refine keeps_mk (h := ?_)
  with_reducible assumption
  apply State.remote_keeps (hm.sub rfl)
  with_reducible refine keeps_mk (h := ?_)
  with_reducible assumption
  apply State.remote_keeps (hm.sub rfl)
  with_reducible refine keeps_mk (h := ?_)
  with_reducible assumption
  apply State.place_keeps (hm.sub rfl)
  with_reducible assumption

theorem State.admission_keeps (hm : Within [.now, .live, .run, .pgw, .sch, .que, .vsp, .mem, .prog, .mat, .lnk, .hlt, .hst, .sum, .outbox, .freeCtr] m) {a0 : State} (a1 : Req) (a2 : Op) (a3 : Qp) (a4 : ℕ) (h0 : Keeps m z a0) : Keeps m z (State.admission a0 a1 a2 a3 a4) := by
  unfold State.admission
  lift_lets
  iterate 5 (intro x; clear_value x)
  (intro x; refine keeps_cut (p := Keeps m z x) ?_ (fun hx => ?_); (on_goal 2 => clear_value x); (on_goal 1 => subst x))
  apply State.putAgg_keeps (hm.sub rfl)
  apply State.mapQp_keeps (hm.sub rfl)
  with_reducible assumption
  iterate 2 (intro x; clear_value x)
  split
  apply State.refuse_keeps (hm.sub rfl)
  with_reducible assumption
  split
  split
  apply State.police_keeps (hm.sub rfl)
  apply State.raiseBit_keeps (hm.sub rfl)
  with_reducible assumption
  apply State.admitReq_keeps (hm.sub rfl)
  with_reducible assumption
  intro s0 hs1
  with_reducible apply keeps_id
  with_reducible assumption
  split
  apply State.police_keeps (hm.sub rfl)
  apply State.mapQp_keeps (hm.sub rfl)
  with_reducible assumption
  lift_lets
  (intro x; clear_value x)
  (intro x; refine keeps_cut (p := ∀ s0, Keeps m z s0 → Keeps m z (x s0)) ?_ (fun hf0 => ?_); (on_goal 2 => clear_value x); (on_goal 1 => (intro s0 hs0; subst x; beta_reduce)))
  lift_lets
  (intro x; clear_value x)
  (intro x; refine keeps_cut (p := Keeps m z x) ?_ (fun hx => ?_); (on_goal 2 => clear_value x); (on_goal 1 => subst x))
  apply State.mapQp_keeps (hm.sub rfl)
  with_reducible assumption
  apply State.tenantCount_keeps (hm.sub rfl)
  apply State.bumpMax_keeps (hm.sub rfl)
  apply State.putAgg_keeps (hm.sub rfl)
  with_reducible assumption
  split
  apply State.police_keeps (hm.sub rfl)
  with_reducible assumption
  split
  apply State.police_keeps (hm.sub rfl)
  apply State.raiseBit_keeps (hm.sub rfl)
  with_reducible assumption
  apply State.admitReq_keeps (hm.sub rfl)
  with_reducible assumption
  intro s0 hs1
  with_reducible apply hf0
  with_reducible assumption

theorem State.ingress_keeps (hm : Within [.now, .live, .run, .pgw, .sch, .que, .vsp, .mem, .prog, .mat, .lnk, .hlt, .hst, .sum, .outbox, .freeCtr] m) {a0 : State} (a1 : Arrival) (a2 : List Byte) (a3 : Qp) (a4 : ℕ) (h0 : Keeps m z a0) : Keeps m z (State.ingress a0 a1 a2 a3 a4) := by
  unfold State.ingress
  lift_lets
  iterate 7 (intro x; clear_value x)
  (intro (x : SchSt); subst x)
  (intro x; refine keeps_cut (p := Keeps m z x) ?_ (fun hx => ?_); (on_goal 2 => clear_value x); (on_goal 1 => subst x))
  with_reducible refine keeps_mk (h := ?_)
  with_reducible assumption
  split
  apply State.refuse_keeps (hm.sub rfl)
  with_reducible assumption
  split
  apply State.refuse_keeps (hm.sub rfl)
  with_reducible assumption
  split
  apply State.refuse_keeps (hm.sub rfl)
  with_reducible assumption
  apply State.admission_keeps (hm.sub rfl)
  with_reducible assumption

theorem State.arrive_keeps (hm : Within [.now, .live, .run, .pgw, .sch, .que, .vsp, .mem, .prog, .mat, .lnk, .hlt, .hst, .sum, .outbox, .freeCtr] m) {a0 : State} (a1 : Arrival) (a2 : List Byte) (h0 : Keeps m z a0) : Keeps m z (State.arrive a0 a1 a2) := by
  unfold State.arrive
  split
  with_reducible assumption
  split
  lift_lets
  (intro x; clear_value x)
  split
  split
  apply State.ingress_keeps (hm.sub rfl)
  apply State.putQp_keeps (hm.sub rfl)
  with_reducible assumption
  with_reducible assumption
  with_reducible assumption
  split
  (with_reducible refine keeps_of_done (by with_reducible assumption) ?_)
  apply State.acceptRequest_keeps (hm.sub rfl)
  with_reducible assumption
  split
  apply State.ingress_keeps (hm.sub rfl)
  (with_reducible refine keeps_of_accept (by with_reducible assumption) ?_)
  apply State.acceptRequest_keeps (hm.sub rfl)
  with_reducible assumption
  (with_reducible refine keeps_of_accept (by with_reducible assumption) ?_)
  apply State.acceptRequest_keeps (hm.sub rfl)
  with_reducible assumption

theorem State.requestRow_keeps (hm : Within [.now, .live, .run, .pgw, .sch, .que, .vsp, .mem, .prog, .mat, .lnk, .hlt, .hst, .sum, .outbox, .freeCtr] m) {a0 : State} (a1 : Bool) (a2 : Arrival) (a3 : List Byte) (h0 : Keeps m z a0) : Keeps m z (State.requestRow a0 a1 a2 a3) := by
  unfold State.requestRow
  split
  apply State.arrive_keeps (hm.sub rfl)
  with_reducible assumption
  with_reducible assumption

end Sys2Proof.Machine
end

