-- ==== Sys2Proof/Laws/Keeps/Units.lean ====
section
/-!
SUPPORT. What the operations of Machine/Calendars, Replies, Remote, MapOps, Vesper, Tiers, Transport, QueueCmds keep: the parts of the state outside the list each lemma names, the queue, and the invariant.
-/

namespace Sys2Proof.Machine

open Sys2Proof

set_option Elab.async false

variable {m : List Blk} {z : State}

/-! ### Calendars -/

theorem State.putCal_keeps (hm : Within [.sch] m) {a0 : State} (a1 : ℕ) (a2 : ClassCal) (h0 : Keeps m z a0) : Keeps m z (State.putCal a0 a1 a2) := by
  unfold State.putCal
  with_reducible refine keeps_mk (h := ?_)
  with_reducible assumption

theorem State.unhold_keeps (hm : Within [.live, .run, .sch, .que] m) {a0 : State} (a1 : Req) (h0 : Keeps m z a0) : Keeps m z (State.unhold a0 a1) := by
  unfold State.unhold
  lift_lets
  (intro x; clear_value x)
  (intro (x : SchSt); subst x)
  (intro x; refine keeps_cut (p := Keeps m z x) ?_ (fun hx => ?_); (on_goal 2 => clear_value x); (on_goal 1 => subst x))
  with_reducible refine keeps_mk (h := ?_)
  with_reducible assumption
  (intro x; refine keeps_cut (p := Keeps m z x) ?_ (fun hx => ?_); (on_goal 2 => clear_value x); (on_goal 1 => subst x))
  split
  lift_lets
  (intro x; clear_value x)
  apply State.putAgg_keeps (hm.sub rfl)
  with_reducible assumption
  with_reducible assumption
  (intro x; refine keeps_cut (p := Keeps m z x) ?_ (fun hx => ?_); (on_goal 2 => clear_value x); (on_goal 1 => subst x))
  apply State.mapQp_keeps (hm.sub rfl)
  with_reducible assumption
  (intro x; clear_value x)
  apply State.refreshPool_keeps (hm.sub rfl)
  apply State.bumpMax_keeps (hm.sub rfl)
  apply State.bump_keeps (hm.sub rfl)
  with_reducible assumption

theorem State.release_keeps (hm : Within [.live, .run, .pgw, .sch, .que, .vsp, .mem, .prog, .mat, .lnk, .sec, .hst, .sum, .outbox, .freeCtr] m) {a0 : State} (a1 : Req) (h0 : Keeps m z a0) : Keeps m z (State.release a0 a1) := by
  unfold State.release
  apply State.dispatch_keeps (hm.sub rfl)
  apply State.unhold_keeps (hm.sub rfl)
  with_reducible assumption

theorem execCalendarRelease_keeps (hm : Within [.live, .run, .pgw, .sch, .que, .vsp, .mem, .prog, .mat, .lnk, .sec, .hst, .sum, .outbox, .freeCtr] m) (a0 : ℕ) {a1 : State} (h1 : Keeps m z a1) : KeepsN m z (execCalendarRelease a0 a1) := by
  unfold execCalendarRelease
  split
  with_reducible apply keepsN_next
  with_reducible assumption
  lift_lets
  (intro x; clear_value x)
  split
  with_reducible apply keepsN_next
  apply State.putCal_keeps (hm.sub rfl)
  with_reducible assumption
  split
  with_reducible apply keepsN_next
  apply State.putCal_keeps (hm.sub rfl)
  with_reducible assumption
  split
  with_reducible apply keepsN_next
  apply State.putCal_keeps (hm.sub rfl)
  with_reducible assumption
  with_reducible apply keepsN_next
  apply State.release_keeps (hm.sub rfl)
  apply State.putCal_keeps (hm.sub rfl)
  with_reducible assumption

theorem execSharedRelease_keeps (hm : Within [.live, .run, .pgw, .sch, .que, .vsp, .mem, .prog, .mat, .lnk, .sec, .hst, .sum, .outbox, .freeCtr] m) {a0 : State} (h0 : Keeps m z a0) : KeepsN m z (execSharedRelease a0) := by
  unfold execSharedRelease
  lift_lets
  (intro x; clear_value x)
  (intro (x : SchSt); subst x)
  (intro x; refine keeps_cut (p := Keeps m z x) ?_ (fun hx => ?_); (on_goal 2 => clear_value x); (on_goal 1 => subst x))
  split
  with_reducible assumption
  with_reducible refine keeps_mk (h := ?_)
  with_reducible assumption
  (intro x; clear_value x)
  (intro (x : SchSt); subst x)
  split
  with_reducible apply keepsN_next
  with_reducible assumption
  split
  with_reducible apply keepsN_next
  with_reducible assumption
  split
  with_reducible apply keepsN_next
  with_reducible assumption
  split
  with_reducible apply keepsN_next
  with_reducible assumption
  lift_lets
  (intro x; refine keeps_cut (p := Keeps m z x) ?_ (fun hx => ?_); (on_goal 2 => clear_value x); (on_goal 1 => subst x))
  with_reducible refine keeps_mk (h := ?_)
  with_reducible assumption
  (intro x; clear_value x)
  split
  with_reducible apply keepsN_next
  with_reducible refine keeps_mk (h := ?_)
  with_reducible assumption
  with_reducible apply keepsN_next
  apply State.release_keeps (hm.sub rfl)
  apply State.putCal_keeps (hm.sub rfl)
  with_reducible assumption

theorem execTableReadDone_keeps (hm : Within [.live, .run, .pgw, .sch, .vsp, .mem, .prog, .mat, .hst, .sum, .outbox] m) (a0 : ℕ) (a1 : TableRead) {a2 : State} (h2 : Keeps m z a2) : KeepsN m z (execTableReadDone a0 a1 a2) := by
  unfold execTableReadDone
  split
  with_reducible apply keepsN_next
  with_reducible assumption
  split
  with_reducible apply keepsN_next
  with_reducible assumption
  with_reducible apply keepsN_next
  apply State.stall_keeps (hm.sub rfl)
  apply State.setStatus_keeps (hm.sub rfl)
  apply State.raiseBit_keeps (hm.sub rfl)
  with_reducible assumption
  lift_lets
  (intro x; refine keeps_cut (p := Keeps m z x) ?_ (fun hx => ?_); (on_goal 2 => clear_value x); (on_goal 1 => subst x))
  apply State.raiseBit_keeps (hm.sub rfl)
  with_reducible assumption
  with_reducible apply keepsN_next
  split
  with_reducible assumption
  apply State.failRun_keeps (hm.sub rfl)
  with_reducible assumption

theorem State.repairPair_keeps (hm : Within [.live, .run, .pgw, .sch, .que, .vsp, .mem, .prog, .mat, .lnk, .hlt, .hst, .sum, .outbox, .freeCtr] m) {a0 : State} (a1 : List Flip) (a2 : PageRef) (a3 : ℕ) (h0 : Keeps m z a0) : Keeps m z (State.repairPair a0 a1 a2 a3) := by
  unfold State.repairPair
  lift_lets
  iterate 2 (intro x; clear_value x)
  split
  apply State.markLost_keeps (hm.sub rfl)
  with_reducible assumption
  lift_lets
  (intro x; clear_value x)
  (intro x; refine keeps_cut (p := Keeps m z x.1) ?_ (fun hx => ?_); (on_goal 2 => clear_value x); (on_goal 1 => subst x))
  apply State.readTier1_keeps (hm.sub rfl)
  with_reducible assumption
  (intro x; have _ : Keeps m z x := (by subst x; with_reducible assumption); subst x)
  (intro x; clear_value x)
  (intro (x : PgwSt); subst x)
  split
  apply State.markLost_keeps (hm.sub rfl)
  with_reducible assumption
  split
  lift_lets
  (intro x; refine keeps_cut (p := Keeps m z x) ?_ (fun hx => ?_); (on_goal 2 => clear_value x); (on_goal 1 => subst x))
  with_reducible refine keeps_mk (h := ?_)
  with_reducible assumption
  (intro x; refine keeps_cut (p := Keeps m z x) ?_ (fun hx => ?_); (on_goal 2 => clear_value x); (on_goal 1 => subst x))
  apply State.setPageAt_keeps (hm.sub rfl)
  with_reducible assumption
  apply State.freeSlots_keeps (hm.sub rfl)
  with_reducible assumption
  apply State.dropCopy_keeps (hm.sub rfl)
  with_reducible assumption

theorem State.reread_keeps (hm : Within [.run, .sch, .vsp] m) {a0 : State} (a1 : ℕ) (a2 : ℕ) (a3 : Bool) (a4 : BurstEntry) (a5 : Bool) (a6 : Bool) (h0 : Keeps m z a0) : Keeps m z (State.reread a0 a1 a2 a3 a4 a5 a6) := by
  unfold State.reread
  lift_lets
  iterate 3 (intro x; clear_value x)
  (intro (x : VspSt); subst x)
  (intro x; refine keeps_cut (p := Keeps m z x) ?_ (fun hx => ?_); (on_goal 2 => clear_value x); (on_goal 1 => subst x))
  with_reducible refine keeps_mk (h := ?_)
  with_reducible assumption
  split
  apply State.stall_keeps (hm.sub rfl)
  apply State.mapJob_keeps (hm.sub rfl)
  with_reducible assumption
  with_reducible assumption

theorem State.hubLeaf_keeps (hm : Within [.now, .live, .run, .pgw, .sch, .que, .vsp, .mem, .prog, .mat, .lnk, .hlt, .hst, .sum, .outbox, .freeCtr] m) {a0 : State} (a1 : ℕ) (a2 : List Flip) (a3 : Job × ℕ) (h0 : Keeps m z a0) : Keeps m z (State.hubLeaf a0 a1 a2 a3) := by
  unfold State.hubLeaf
  lift_lets
  (intro x; refine keeps_cut (p := ∀ s0, Keeps m z s0 → Keeps m z (x s0)) ?_ (fun hf0 => ?_); (on_goal 2 => clear_value x); (on_goal 1 => (intro s0 hs0; subst x; beta_reduce)))
  apply State.mapJob_keeps (hm.sub rfl)
  with_reducible assumption
  split
  lift_lets
  (intro x; refine keeps_cut (p := Keeps m z x.1) ?_ (fun hx => ?_); (on_goal 2 => clear_value x); (on_goal 1 => subst x))
  apply State.readTier1_keeps (hm.sub rfl)
  with_reducible assumption
  (intro x; refine keeps_cut (p := Keeps m z x) ?_ (fun hx => ?_); (on_goal 2 => clear_value x); (on_goal 1 => subst x))
  apply State.passTile_keeps (hm.sub rfl)
  apply State.passTile_keeps (hm.sub rfl)
  with_reducible assumption
  split
  split
  with_reducible apply hf0
  with_reducible assumption
  with_reducible assumption
  split
  with_reducible apply hf0
  with_reducible assumption
  (with_reducible refine keeps_foldl (fun s a hs => ?_) ?_)
  apply State.reread_keeps (hm.sub rfl)
  with_reducible assumption
  with_reducible assumption
  with_reducible apply hf0
  with_reducible assumption

theorem execHubCoreWorkDone_keeps (hm : Within [.now, .live, .run, .pgw, .sch, .que, .vsp, .mem, .prog, .mat, .lnk, .hlt, .hst, .sum, .outbox, .freeCtr] m) (a0 : ℕ) (a1 : List Flip) {a2 : State} (h2 : Keeps m z a2) : KeepsN m z (execHubCoreWorkDone a0 a1 a2) := by
  unfold execHubCoreWorkDone
  split
  with_reducible apply keepsN_next
  with_reducible assumption
  lift_lets
  (intro x; clear_value x)
  with_reducible apply keepsN_next
  apply State.tryComplete_keeps (hm.sub rfl)
  (with_reducible refine keeps_foldl (fun s a hs => ?_) ?_)
  apply State.hubLeaf_keeps (hm.sub rfl)
  with_reducible assumption
  with_reducible assumption

theorem State.resumeLeaves_keeps (hm : Within [.sch, .vsp] m) {a0 : State} (a1 : ℕ) (h0 : Keeps m z a0) : Keeps m z (State.resumeLeaves a0 a1) := by
  unfold State.resumeLeaves
  split
  with_reducible assumption
  lift_lets
  iterate 2 (intro x; clear_value x)
  (intro x; refine keeps_cut (p := Keeps m z x) ?_ (fun hx => ?_); (on_goal 2 => clear_value x); (on_goal 1 => subst x))
  apply State.mapRun_keeps (hm.sub rfl)
  with_reducible assumption
  split
  apply State.sendLeaves_keeps (hm.sub rfl)
  with_reducible assumption
  with_reducible assumption

theorem execStallResume_keeps (hm : Within [.live, .run, .pgw, .sch, .que, .vsp, .mem, .prog, .mat, .lnk, .sec, .hst, .sum, .outbox, .freeCtr] m) (a0 : ℕ) {a1 : State} (h1 : Keeps m z a1) : KeepsN m z (execStallResume a0 a1) := by
  unfold execStallResume
  split
  with_reducible apply keepsN_next
  with_reducible assumption
  split
  with_reducible apply keepsN_next
  with_reducible assumption
  split
  with_reducible apply keepsN_next
  apply State.redo_keeps (hm.sub rfl)
  with_reducible assumption
  lift_lets
  (intro x; refine keeps_cut (p := Keeps m z x) ?_ (fun hx => ?_); (on_goal 2 => clear_value x); (on_goal 1 => subst x))
  (with_reducible refine keeps_foldl (fun s a hs => ?_) ?_)
  apply State.unstall_keeps (hm.sub rfl)
  with_reducible assumption
  with_reducible assumption
  split
  with_reducible apply keepsN_next
  with_reducible assumption
  with_reducible apply keepsN_next
  apply State.tryComplete_keeps (hm.sub rfl)
  apply State.resumeLeaves_keeps (hm.sub rfl)
  with_reducible assumption

theorem State.retryReserve_keeps (hm : Within [.run, .pgw, .mem] m) {a0 : State} (a1 : Run) (a2 : ℕ) (a3 : ℕ) (h0 : Keeps m z a0) : KeepsO m z (State.retryReserve a0 a1 a2 a3) := by
  unfold State.retryReserve
  split
  with_reducible apply keepsO_none
  split
  with_reducible apply keepsO_none
  split
  apply State.reserveLayers_keeps (hm.sub rfl)
  with_reducible assumption
  split
  with_reducible apply keepsO_some
  with_reducible assumption
  apply State.reserve_keeps (hm.sub rfl)
  with_reducible assumption

theorem execReservationDone_keeps (hm : Within [.live, .run, .pgw, .sch, .mem, .prog, .mat] m) (a0 : ℕ) {a1 : State} (h1 : Keeps m z a1) : KeepsN m z (execReservationDone a0 a1) := by
  unfold execReservationDone
  split
  with_reducible apply keepsN_next
  with_reducible assumption
  split
  with_reducible apply keepsN_next
  with_reducible assumption
  split
  with_reducible apply keepsN_next
  with_reducible assumption
  split
  with_reducible apply keepsN_next
  with_reducible assumption
  with_reducible apply keepsN_next
  apply State.tryComplete_keeps (hm.sub rfl)
  apply State.unstall_keeps (hm.sub rfl)
  apply State.mapRun_keeps (hm.sub rfl)
  (with_reducible refine keeps_of_some (by with_reducible assumption) ?_)
  apply State.retryReserve_keeps (hm.sub rfl)
  with_reducible assumption

theorem execReservationTimeout_keeps (hm : Within [.now, .live, .run, .pgw, .sch, .mem, .prog, .mat] m) (a0 : ℕ) {a1 : State} (h1 : Keeps m z a1) : KeepsN m z (execReservationTimeout a0 a1) := by
  unfold execReservationTimeout
  split
  with_reducible apply keepsN_next
  with_reducible assumption
  split
  with_reducible apply keepsN_next
  with_reducible assumption
  lift_lets
  (intro x; refine keeps_cut (p := Keeps m z x) ?_ (fun hx => ?_); (on_goal 2 => clear_value x); (on_goal 1 => subst x))
  apply State.advanceTo_keeps (hm.sub rfl)
  with_reducible assumption
  (intro x; refine keeps_cut (p := Keeps m z x) ?_ (fun hx => ?_); (on_goal 2 => clear_value x); (on_goal 1 => subst x))
  apply State.mapRun_keeps (hm.sub rfl)
  with_reducible assumption
  with_reducible apply keepsN_next
  apply State.tryComplete_keeps (hm.sub rfl)
  apply State.unstall_keeps (hm.sub rfl)
  with_reducible assumption

theorem State.dropWaiter_keeps (hm : Within [.sch] m) {a0 : State} (a1 : ℕ) (h0 : Keeps m z a0) : Keeps m z (State.dropWaiter a0 a1) := by
  unfold State.dropWaiter
  with_reducible refine keeps_mk (h := ?_)
  with_reducible assumption

theorem execSpareTailGrant_keeps (hm : Within [.live, .run, .pgw, .sch, .que, .vsp, .mem, .prog, .mat, .lnk, .sec, .hst, .sum, .outbox, .freeCtr] m) (a0 : ℕ) {a1 : State} (h1 : Keeps m z a1) : KeepsN m z (execSpareTailGrant a0 a1) := by
  unfold execSpareTailGrant
  split
  with_reducible apply keepsN_next
  with_reducible assumption
  lift_lets
  iterate 2 (intro x; clear_value x)
  split
  with_reducible apply keepsN_next
  with_reducible assumption
  with_reducible apply keepsN_next
  apply State.settleOrder_keeps (hm.sub rfl)
  apply State.effect_keeps (hm.sub rfl)
  apply State.stallTicks_keeps (hm.sub rfl)
  apply State.dropWaiter_keeps (hm.sub rfl)
  with_reducible assumption

theorem execSpareWaitTimeout_keeps (hm : Within [.now, .live, .run, .pgw, .sch, .que, .vsp, .mem, .prog, .mat, .lnk, .sec, .hst, .sum, .outbox, .freeCtr] m) (a0 : ℕ) {a1 : State} (h1 : Keeps m z a1) : KeepsN m z (execSpareWaitTimeout a0 a1) := by
  unfold execSpareWaitTimeout
  split
  with_reducible apply keepsN_next
  with_reducible assumption
  lift_lets
  (intro x; refine keeps_cut (p := Keeps m z x) ?_ (fun hx => ?_); (on_goal 2 => clear_value x); (on_goal 1 => subst x))
  apply State.advanceTo_keeps (hm.sub rfl)
  with_reducible assumption
  iterate 2 (intro x; clear_value x)
  with_reducible apply keepsN_next
  apply State.settleOrder_keeps (hm.sub rfl)
  apply State.answer_keeps (hm.sub rfl)
  apply State.raiseBit_keeps (hm.sub rfl)
  apply State.stallTicks_keeps (hm.sub rfl)
  apply State.dropWaiter_keeps (hm.sub rfl)
  with_reducible assumption

theorem execProvisionalExpiry_keeps (hm : Within [.now, .pgw] m) (a0 : ℕ) (a1 : ℕ) (a2 : ℕ) {a3 : State} (h3 : Keeps m z a3) : KeepsN m z (execProvisionalExpiry a0 a1 a2 a3) := by
  unfold execProvisionalExpiry
  split
  with_reducible apply keepsN_next
  with_reducible assumption
  split
  with_reducible apply keepsN_next
  with_reducible assumption
  with_reducible apply keepsN_next
  apply State.discardProv_keeps (hm.sub rfl)
  apply State.advanceTo_keeps (hm.sub rfl)
  with_reducible assumption

/-! ### Replies -/

theorem State.putEvidence_keeps (hm : Within [.hlt] m) {a0 : State} (a1 : List Byte) (h0 : Keeps m z a0) : Keeps m z (State.putEvidence a0 a1) := by
  unfold State.putEvidence
  with_reducible refine keeps_mk (h := ?_)
  with_reducible assumption

theorem State.writeEvidence_keeps (hm : Within [.live, .hlt, .hst, .sum, .outbox] m) {a0 : State} (a1 : Reply) (a2 : Bool) (h0 : Keeps m z a0) : Keeps m z (State.writeEvidence a0 a1 a2) := by
  unfold State.writeEvidence
  split
  with_reducible assumption
  split
  lift_lets
  (intro (x : HltSt); subst x)
  (intro x; refine keeps_cut (p := Keeps m z x) ?_ (fun hx => ?_); (on_goal 2 => clear_value x); (on_goal 1 => subst x))
  with_reducible refine keeps_mk (h := ?_)
  with_reducible assumption
  apply State.putEvidence_keeps (hm.sub rfl)
  with_reducible assumption
  split
  apply State.evidenceMissed_keeps (hm.sub rfl)
  with_reducible assumption
  apply State.putEvidence_keeps (hm.sub rfl)
  with_reducible assumption

theorem State.ringMsg_keeps (hm : Within [.que, .hst, .outbox] m) {a0 : State} (a1 : ℕ) (h0 : Keeps m z a0) : Keeps m z (State.ringMsg a0 a1) := by
  unfold State.ringMsg
  split
  with_reducible assumption
  lift_lets
  (intro x; clear_value x)
  split
  apply State.hostMsg_keeps (hm.sub rfl)
  apply State.putQp_keeps (hm.sub rfl)
  with_reducible assumption
  apply State.putQp_keeps (hm.sub rfl)
  with_reducible assumption

theorem execMsgModeration_keeps (hm : Within [.now, .que, .hst, .outbox] m) (a0 : ℕ) {a1 : State} (h1 : Keeps m z a1) : KeepsN m z (execMsgModeration a0 a1) := by
  unfold execMsgModeration
  lift_lets
  (intro x; clear_value x)
  split
  with_reducible apply keepsN_next
  with_reducible assumption
  lift_lets
  (intro x; refine keeps_cut (p := Keeps m z x) ?_ (fun hx => ?_); (on_goal 2 => clear_value x); (on_goal 1 => subst x))
  apply State.advanceTo_keeps (hm.sub rfl)
  with_reducible assumption
  split
  with_reducible apply keepsN_next
  with_reducible assumption
  with_reducible apply keepsN_next
  apply State.hostMsg_keeps (hm.sub rfl)
  apply State.putQp_keeps (hm.sub rfl)
  with_reducible assumption

theorem execEvidenceRingWrite_keeps (hm : Within [.que, .hlt, .hst, .outbox] m) {a0 : State} (h0 : Keeps m z a0) : KeepsN m z (execEvidenceRingWrite a0) := by
  unfold execEvidenceRingWrite
  split
  split
  with_reducible apply keepsN_next
  with_reducible assumption
  lift_lets
  (intro (x : HltSt); subst x)
  (intro x; refine keeps_cut (p := Keeps m z x) ?_ (fun hx => ?_); (on_goal 2 => clear_value x); (on_goal 1 => subst x))
  apply State.hostWrite_keeps (hm.sub rfl)
  with_reducible refine keeps_mk (h := ?_)
  with_reducible assumption
  with_reducible apply keepsN_next
  apply State.ringMsg_keeps (hm.sub rfl)
  apply State.mapQp_keeps (hm.sub rfl)
  with_reducible assumption
  with_reducible apply keepsN_next
  with_reducible assumption

theorem State.finish_keeps (hm : Within [.live, .run, .pgw, .sch, .que, .hlt, .hst, .sum, .outbox] m) {a0 : State} (a1 : Reply) (a2 : List Byte) (a3 : Bool) (h0 : Keeps m z a0) : Keeps m z (State.finish a0 a1 a2 a3) := by
  unfold State.finish
  lift_lets
  (intro (x : SchSt); subst x)
  (intro x; refine keeps_cut (p := Keeps m z x) ?_ (fun hx => ?_); (on_goal 2 => clear_value x); (on_goal 1 => subst x))
  with_reducible refine keeps_mk (h := ?_)
  with_reducible assumption
  (intro x; refine keeps_cut (p := Keeps m z x) ?_ (fun hx => ?_); (on_goal 2 => clear_value x); (on_goal 1 => subst x))
  apply State.mapQp_keeps (hm.sub rfl)
  with_reducible assumption
  (intro x; clear_value x)
  (intro x; refine keeps_cut (p := Keeps m z x) ?_ (fun hx => ?_); (on_goal 2 => clear_value x); (on_goal 1 => subst x))
  split
  apply State.raiseBit_keeps (hm.sub rfl)
  apply State.bump_keeps (hm.sub rfl)
  with_reducible assumption
  with_reducible assumption
  (intro x; refine keeps_cut (p := Keeps m z x) ?_ (fun hx => ?_); (on_goal 2 => clear_value x); (on_goal 1 => subst x))
  split
  apply State.endVerify_keeps (hm.sub rfl)
  with_reducible assumption
  with_reducible assumption
  (intro x; refine keeps_cut (p := Keeps m z x) ?_ (fun hx => ?_); (on_goal 2 => clear_value x); (on_goal 1 => subst x))
  apply State.writeEvidence_keeps (hm.sub rfl)
  with_reducible assumption
  (intro x; refine keeps_cut (p := Keeps m z x) ?_ (fun hx => ?_); (on_goal 2 => clear_value x); (on_goal 1 => subst x))
  split
  apply State.discard_keeps (hm.sub rfl)
  with_reducible assumption
  with_reducible assumption
  split
  with_reducible assumption
  apply State.emit_keeps (hm.sub rfl)
  with_reducible assumption

theorem State.sendHolder_keeps (hm : Within [.live, .run, .que, .lnk, .hst, .sum, .outbox] m) {a0 : State} (a1 : Reply) (a2 : List Byte) (h0 : Keeps m z a0) : Keeps m z (State.sendHolder a0 a1 a2) := by
  unfold State.sendHolder
  lift_lets
  iterate 3 (intro x; clear_value x)
  (intro (x : QueSt); subst x)
  (intro x; refine keeps_cut (p := Keeps m z x) ?_ (fun hx => ?_); (on_goal 2 => clear_value x); (on_goal 1 => subst x))
  with_reducible refine keeps_mk (h := ?_)
  with_reducible assumption
  apply State.sendTransport_keeps (hm.sub rfl)
  with_reducible assumption

theorem execReplySend_keeps (hm : Within [.live, .run, .pgw, .sch, .que, .lnk, .hlt, .hst, .sum, .outbox] m) (a0 : ℕ) {a1 : State} (h1 : Keeps m z a1) : KeepsN m z (execReplySend a0 a1) := by
  unfold execReplySend
  split
  with_reducible apply keepsN_next
  with_reducible assumption
  lift_lets
  (intro x; clear_value x)
  (intro (x : QueSt); subst x)
  (intro x; refine keeps_cut (p := Keeps m z x) ?_ (fun hx => ?_); (on_goal 2 => clear_value x); (on_goal 1 => subst x))
  with_reducible refine keeps_mk (h := ?_)
  with_reducible assumption
  split
  with_reducible apply keepsN_next
  with_reducible assumption
  split
  lift_lets
  iterate 2 (intro x; clear_value x)
  split
  with_reducible apply keepsN_next
  apply State.finish_keeps (hm.sub rfl)
  with_reducible assumption
  lift_lets
  (intro x; clear_value x)
  (intro x; refine keeps_cut (p := Keeps m z x) ?_ (fun hx => ?_); (on_goal 2 => clear_value x); (on_goal 1 => subst x))
  split
  apply State.hostWrite_keeps (hm.sub rfl)
  with_reducible assumption
  with_reducible assumption
  (intro x; refine keeps_cut (p := Keeps m z x) ?_ (fun hx => ?_); (on_goal 2 => clear_value x); (on_goal 1 => subst x))
  split
  apply State.bump_keeps (hm.sub rfl)
  with_reducible assumption
  with_reducible assumption
  split
  with_reducible apply keepsN_next
  with_reducible assumption
  lift_lets
  (intro x; clear_value x)
  (intro x; refine keeps_cut (p := Keeps m z x) ?_ (fun hx => ?_); (on_goal 2 => clear_value x); (on_goal 1 => subst x))
  apply State.hostWrite_keeps (hm.sub rfl)
  with_reducible assumption
  (intro x; refine keeps_cut (p := Keeps m z x) ?_ (fun hx => ?_); (on_goal 2 => clear_value x); (on_goal 1 => subst x))
  apply State.mapQp_keeps (hm.sub rfl)
  with_reducible assumption
  split
  with_reducible apply keepsN_next
  with_reducible assumption
  with_reducible apply keepsN_next
  apply State.finish_keeps (hm.sub rfl)
  apply State.ringMsg_keeps (hm.sub rfl)
  with_reducible assumption
  split
  with_reducible apply keepsN_next
  apply State.finish_keeps (hm.sub rfl)
  apply State.sendHolder_keeps (hm.sub rfl)
  with_reducible assumption
  split
  with_reducible apply keepsN_next
  apply State.finish_keeps (hm.sub rfl)
  with_reducible assumption
  split
  with_reducible apply keepsN_next
  apply State.finish_keeps (hm.sub rfl)
  with_reducible assumption
  split
  with_reducible apply keepsN_next
  with_reducible assumption
  with_reducible apply keepsN_next
  apply State.finish_keeps (hm.sub rfl)
  apply State.sendMessage_keeps (hm.sub rfl)
  with_reducible assumption

/-! ### Remote -/

theorem State.weightAnswer_keeps (hm : Within [.live, .run, .pgw, .que, .mem, .mat, .lnk, .hst, .sum, .outbox, .freeCtr] m) {a0 : State} (a1 : TileKey) (a2 : ℕ) (a3 : Option (List Byte)) (h0 : Keeps m z a0) : Keeps m z (State.weightAnswer a0 a1 a2 a3) := by
  unfold State.weightAnswer
  split
  with_reducible assumption
  split
  split
  apply State.clearPoison_keeps (hm.sub rfl)
  with_reducible assumption
  apply State.weightAsk_keeps (hm.sub rfl)
  with_reducible assumption
  apply State.weightAsk_keeps (hm.sub rfl)
  with_reducible assumption

theorem State.failStalled_keeps (hm : Within [.live, .run, .pgw, .sch, .que, .vsp, .mem, .prog, .mat, .lnk, .sec, .hst, .sum, .outbox, .freeCtr] m) {a0 : State} (a1 : TileKey) (h0 : Keeps m z a0) : Keeps m z (State.failStalled a0 a1) := by
  unfold State.failStalled
  (with_reducible refine keeps_foldl (fun s a hs => ?_) ?_)
  split
  apply State.redo_keeps (hm.sub rfl)
  with_reducible assumption
  apply State.failRun_keeps (hm.sub rfl)
  with_reducible assumption
  with_reducible assumption

theorem execWeightRepairTimeout_keeps (hm : Within [.now, .live, .run, .pgw, .sch, .que, .vsp, .mem, .prog, .mat, .lnk, .sec, .hst, .sum, .outbox, .freeCtr] m) (a0 : ℕ) (a1 : ℕ) {a2 : State} (h2 : Keeps m z a2) : KeepsN m z (execWeightRepairTimeout a0 a1 a2) := by
  unfold execWeightRepairTimeout
  split
  with_reducible apply keepsN_next
  with_reducible assumption
  lift_lets
  (intro x; refine keeps_cut (p := Keeps m z x) ?_ (fun hx => ?_); (on_goal 2 => clear_value x); (on_goal 1 => subst x))
  apply State.advanceTo_keeps (hm.sub rfl)
  with_reducible assumption
  (intro x; clear_value x)
  (intro (x : MemSt); subst x)
  (intro x; refine keeps_cut (p := Keeps m z x) ?_ (fun hx => ?_); (on_goal 2 => clear_value x); (on_goal 1 => subst x))
  apply State.raiseBit_keeps (hm.sub rfl)
  with_reducible refine keeps_mk (h := ?_)
  with_reducible assumption
  with_reducible apply keepsN_next
  apply State.failStalled_keeps (hm.sub rfl)
  with_reducible assumption

theorem execSramRefillDone_keeps (hm : Within [.live, .run, .pgw, .sch, .que, .mem, .prog, .mat, .lnk, .hlt, .hst, .sum, .outbox, .freeCtr] m) (a0 : ℕ) (a1 : ℕ) (a2 : Refill) {a3 : State} (h3 : Keeps m z a3) : KeepsN m z (execSramRefillDone a0 a1 a2 a3) := by
  unfold execSramRefillDone
  lift_lets
  (intro x; refine keeps_cut (p := Keeps m z x) ?_ (fun hx => ?_); (on_goal 2 => clear_value x); (on_goal 1 => subst x))
  split
  with_reducible assumption
  split
  apply State.raiseBit_keeps (hm.sub rfl)
  with_reducible assumption
  apply State.raiseBit_keeps (hm.sub rfl)
  with_reducible assumption
  (intro x; clear_value x)
  (intro x; refine keeps_cut (p := Keeps m z x) ?_ (fun hx => ?_); (on_goal 2 => clear_value x); (on_goal 1 => subst x))
  split
  apply State.addPoints_keeps (hm.sub rfl)
  with_reducible assumption
  with_reducible assumption
  (intro x; refine keeps_cut (p := Keeps m z x) ?_ (fun hx => ?_); (on_goal 2 => clear_value x); (on_goal 1 => subst x))
  apply State.refillStall_keeps (hm.sub rfl)
  with_reducible assumption
  (intro x; refine keeps_cut (p := Keeps m z x) ?_ (fun hx => ?_); (on_goal 2 => clear_value x); (on_goal 1 => subst x))
  apply State.poisonTile_keeps (hm.sub rfl)
  with_reducible assumption
  (intro (x : MatSt); subst x)
  with_reducible apply keepsN_next
  split
  with_reducible assumption
  split
  apply State.refreshMat_keeps (hm.sub rfl)
  with_reducible refine keeps_mk (h := ?_)
  with_reducible assumption
  with_reducible assumption

theorem State.takeForwarded_keeps (hm : Within [.sch] m) {a0 : State} (a1 : ℕ) (h0 : Keeps m z a0) : Keeps m z (State.takeForwarded a0 a1).2 := by
  unfold State.takeForwarded
  dsimp only
  with_reducible refine keeps_mk (h := ?_)
  with_reducible assumption

theorem State.fetchTrouble_keeps (hm : Within [.run, .sch] m) {a0 : State} (a1 : PageRef) (h0 : Keeps m z a0) : Keeps m z (State.fetchTrouble a0 a1) := by
  unfold State.fetchTrouble
  (with_reducible refine keeps_foldl (fun s a hs => ?_) ?_)
  split
  apply State.stall_keeps (hm.sub rfl)
  with_reducible assumption
  with_reducible assumption
  with_reducible assumption

theorem State.tier2Fail_keeps (hm : Within [.live, .run, .pgw, .sch, .que, .vsp, .mem, .prog, .mat, .lnk, .hst, .sum, .outbox, .freeCtr] m) {a0 : State} (a1 : ℕ) (h0 : Keeps m z a0) : Keeps m z (State.tier2Fail a0 a1) := by
  unfold State.tier2Fail
  split
  with_reducible assumption
  apply State.sweepLost_keeps (hm.sub rfl)
  apply State.fetchFailed_keeps (hm.sub rfl)
  apply State.fetchTrouble_keeps (hm.sub rfl)
  with_reducible assumption

theorem State.opAnswered_keeps (hm : Within [.live, .run, .pgw, .sch, .que, .vsp, .mem, .prog, .mat, .lnk, .sec, .hst, .sum, .outbox, .freeCtr] m) {a0 : State} (a1 : NodeOp) (a2 : List Byte) (h0 : Keeps m z a0) : Keeps m z (State.opAnswered a0 a1 a2) := by
  unfold State.opAnswered
  lift_lets
  (intro x; clear_value x)
  split
  split
  apply State.spillFailed_keeps (hm.sub rfl)
  with_reducible assumption
  split
  apply State.spanSwitch_keeps (hm.sub rfl)
  with_reducible assumption
  apply State.switchMove_keeps (hm.sub rfl)
  with_reducible assumption
  split
  apply State.tier2Fail_keeps (hm.sub rfl)
  with_reducible assumption
  split
  with_reducible assumption
  lift_lets
  (intro x; clear_value x)
  split
  apply State.fetchDone_keeps (hm.sub rfl)
  with_reducible assumption
  apply State.tier2Fail_keeps (hm.sub rfl)
  with_reducible assumption
  apply State.weightAnswer_keeps (hm.sub rfl)
  with_reducible assumption
  lift_lets
  (intro x; refine keeps_cut (p := Keeps m z x.2) ?_ (fun hx => ?_); (on_goal 2 => clear_value x); (on_goal 1 => subst x))
  apply State.takeForwarded_keeps (hm.sub rfl)
  with_reducible assumption
  split
  apply State.remoteReply_keeps (hm.sub rfl)
  with_reducible assumption
  with_reducible assumption
  lift_lets
  (intro x; refine keeps_cut (p := Keeps m z x.2) ?_ (fun hx => ?_); (on_goal 2 => clear_value x); (on_goal 1 => subst x))
  apply State.takeForwarded_keeps (hm.sub rfl)
  with_reducible assumption
  split
  apply State.reply_keeps (hm.sub rfl)
  with_reducible assumption
  with_reducible assumption
  with_reducible assumption
  with_reducible assumption

theorem State.opFailed_keeps (hm : Within [.live, .run, .pgw, .sch, .que, .vsp, .mem, .prog, .mat, .lnk, .sec, .hst, .sum, .outbox, .freeCtr] m) {a0 : State} (a1 : NodeOp) (h0 : Keeps m z a0) : Keeps m z (State.opFailed a0 a1) := by
  unfold State.opFailed
  split
  apply State.spillFailed_keeps (hm.sub rfl)
  with_reducible assumption
  apply State.tier2Fail_keeps (hm.sub rfl)
  with_reducible assumption
  apply State.weightAnswer_keeps (hm.sub rfl)
  with_reducible assumption
  lift_lets
  (intro x; refine keeps_cut (p := Keeps m z x.2) ?_ (fun hx => ?_); (on_goal 2 => clear_value x); (on_goal 1 => subst x))
  apply State.takeForwarded_keeps (hm.sub rfl)
  with_reducible assumption
  split
  apply State.remoteReply_keeps (hm.sub rfl)
  with_reducible assumption
  with_reducible assumption
  lift_lets
  (intro x; refine keeps_cut (p := Keeps m z x.2) ?_ (fun hx => ?_); (on_goal 2 => clear_value x); (on_goal 1 => subst x))
  apply State.takeForwarded_keeps (hm.sub rfl)
  with_reducible assumption
  split
  lift_lets
  (intro x; clear_value x)
  apply State.reply_keeps (hm.sub rfl)
  apply State.bump_keeps (hm.sub rfl)
  with_reducible assumption
  with_reducible assumption
  with_reducible assumption
  with_reducible assumption

theorem State.dropOp_keeps (hm : Within [.que] m) {a0 : State} (a1 : ℕ) (h0 : Keeps m z a0) : Keeps m z (State.dropOp a0 a1) := by
  unfold State.dropOp
  with_reducible refine keeps_mk (h := ?_)
  with_reducible assumption

theorem State.failQp_keeps (hm : Within [.live, .run, .pgw, .sch, .que, .vsp, .mem, .prog, .mat, .lnk, .sec, .hst, .sum, .outbox, .freeCtr] m) {a0 : State} (a1 : ℕ) (a2 : QpState) (h0 : Keeps m z a0) : Keeps m z (State.failQp a0 a1 a2) := by
  unfold State.failQp
  lift_lets
  (intro x; clear_value x)
  (intro (x : QueSt); subst x)
  (intro x; refine keeps_cut (p := Keeps m z x) ?_ (fun hx => ?_); (on_goal 2 => clear_value x); (on_goal 1 => subst x))
  with_reducible refine keeps_mk (h := ?_)
  with_reducible assumption
  (intro x; refine keeps_cut (p := Keeps m z x) ?_ (fun hx => ?_); (on_goal 2 => clear_value x); (on_goal 1 => subst x))
  apply State.mapQp_keeps (hm.sub rfl)
  with_reducible assumption
  (intro x; refine keeps_cut (p := Keeps m z x) ?_ (fun hx => ?_); (on_goal 2 => clear_value x); (on_goal 1 => subst x))
  (with_reducible refine keeps_foldl (fun s a hs => ?_) ?_)
  apply State.dropOp_keeps (hm.sub rfl)
  with_reducible assumption
  with_reducible assumption
  (with_reducible refine keeps_foldl (fun s a hs => ?_) ?_)
  apply State.opFailed_keeps (hm.sub rfl)
  with_reducible assumption
  with_reducible assumption

theorem State.exhaust_keeps (hm : Within [.live, .run, .pgw, .sch, .que, .vsp, .mem, .prog, .mat, .lnk, .sec, .hst, .sum, .outbox, .freeCtr] m) {a0 : State} (a1 : ℕ) (h0 : Keeps m z a0) : Keeps m z (State.exhaust a0 a1) := by
  unfold State.exhaust
  apply State.failQp_keeps (hm.sub rfl)
  apply State.bump_keeps (hm.sub rfl)
  apply State.raiseBit_keeps (hm.sub rfl)
  with_reducible assumption

theorem State.fencePeer_keeps (hm : Within [.live, .run, .pgw, .sch, .que, .vsp, .mem, .prog, .mat, .lnk, .sec, .hst, .sum, .outbox, .freeCtr] m) {a0 : State} (a1 : ℕ) (a2 : Bool) (h0 : Keeps m z a0) : Keeps m z (State.fencePeer a0 a1 a2) := by
  unfold State.fencePeer
  split
  with_reducible assumption
  lift_lets
  (intro x; clear_value x)
  (intro x; refine keeps_cut (p := Keeps m z x) ?_ (fun hx => ?_); (on_goal 2 => clear_value x); (on_goal 1 => subst x))
  split
  with_reducible assumption
  apply State.failQp_keeps (hm.sub rfl)
  with_reducible assumption
  (intro x; clear_value x)
  (intro x; refine keeps_cut (p := Keeps m z x) ?_ (fun hx => ?_); (on_goal 2 => clear_value x); (on_goal 1 => subst x))
  apply State.mapQp_keeps (hm.sub rfl)
  with_reducible assumption
  (intro (x : QueSt); subst x)
  with_reducible refine keeps_mk (h := ?_)
  with_reducible assumption

theorem State.settleLater_keeps (hm : Within [.live, .run, .pgw, .sch, .que, .vsp, .mem, .prog, .mat, .lnk, .sec, .hst, .sum, .outbox, .freeCtr] m) {a0 : State} (h0 : Keeps m z a0) : Keeps m z (State.settleLater a0) := by
  unfold State.settleLater
  (with_reducible refine keeps_foldl (fun s a hs => ?_) ?_)
  split
  apply State.startFetch_keeps (hm.sub rfl)
  with_reducible assumption
  split
  apply State.failQp_keeps (hm.sub rfl)
  with_reducible assumption
  apply State.sendLater_keeps (hm.sub rfl)
  with_reducible assumption
  with_reducible assumption

theorem State.dropSystem_keeps (hm : Within [.live, .que, .hst, .outbox] m) {a0 : State} (h0 : Keeps m z a0) : Keeps m z (State.dropSystem a0) := by
  unfold State.dropSystem
  lift_lets
  iterate 2 (intro x; clear_value x)
  apply State.refreshQue_keeps (hm.sub rfl)
  (with_reducible refine keeps_foldl (fun s a hs => ?_) ?_)
  lift_lets
  (intro x; refine keeps_cut (p := Keeps m z x) ?_ (fun hx => ?_); (on_goal 2 => clear_value x); (on_goal 1 => subst x))
  apply State.hostWrite_keeps (hm.sub rfl)
  apply State.freeResponses_keeps (hm.sub rfl)
  with_reducible assumption
  (intro (x : QueSt); subst x)
  with_reducible refine keeps_mk (h := ?_)
  with_reducible assumption
  with_reducible assumption

theorem State.destroyAway_keeps (hm : Within [.que, .hst, .outbox] m) {a0 : State} (a1 : ℕ) (h0 : Keeps m z a0) : Keeps m z (State.destroyAway a0 a1) := by
  unfold State.destroyAway
  split
  with_reducible assumption
  apply State.hostWrite_keeps (hm.sub rfl)
  with_reducible refine keeps_mk (h := ?_)
  with_reducible assumption

theorem State.systemPeers_keeps (hm : Within [.live, .run, .pgw, .sch, .que, .vsp, .mem, .prog, .mat, .lnk, .sec, .hst, .sum, .outbox, .freeCtr] m) {a0 : State} (a1 : MapData) (a2 : Option MapData) (h0 : Keeps m z a0) : Keeps m z (State.systemPeers a0 a1 a2) := by
  unfold State.systemPeers
  lift_lets
  (intro x; clear_value x)
  (intro x; refine keeps_cut (p := Keeps m z x) ?_ (fun hx => ?_); (on_goal 2 => clear_value x); (on_goal 1 => subst x))
  (with_reducible refine keeps_foldl (fun s a hs => ?_) ?_)
  apply State.destroyAway_keeps (hm.sub rfl)
  apply State.fencePeer_keeps (hm.sub rfl)
  with_reducible assumption
  with_reducible assumption
  (intro (x : QueSt); subst x)
  (intro x; refine keeps_cut (p := Keeps m z x) ?_ (fun hx => ?_); (on_goal 2 => clear_value x); (on_goal 1 => subst x))
  with_reducible refine keeps_mk (h := ?_)
  with_reducible assumption
  (intro x; clear_value x)
  apply State.dropSystem_keeps (hm.sub rfl)
  (with_reducible refine keeps_foldl (fun s a hs => ?_) ?_)
  split
  lift_lets
  (intro x; clear_value x)
  split
  apply State.putQp_keeps (hm.sub rfl)
  apply State.freeResponses_keeps (hm.sub rfl)
  with_reducible assumption
  with_reducible assumption
  with_reducible refine keeps_mk (h := ?_)
  with_reducible assumption
  with_reducible assumption

theorem State.dropHeld_keeps (hm : Within [.live, .sch, .que, .hlt] m) {a0 : State} (h0 : Keeps m z a0) : Keeps m z (State.dropHeld a0) := by
  unfold State.dropHeld
  lift_lets
  (intro x; refine keeps_cut (p := Keeps m z x) ?_ (fun hx => ?_); (on_goal 2 => clear_value x); (on_goal 1 => subst x))
  (with_reducible refine keeps_foldl (fun s a hs => ?_) ?_)
  lift_lets
  (intro x; refine keeps_cut (p := Keeps m z x) ?_ (fun hx => ?_); (on_goal 2 => clear_value x); (on_goal 1 => subst x))
  split
  lift_lets
  (intro x; clear_value x)
  apply State.putAgg_keeps (hm.sub rfl)
  with_reducible assumption
  with_reducible assumption
  (intro x; refine keeps_cut (p := Keeps m z x) ?_ (fun hx => ?_); (on_goal 2 => clear_value x); (on_goal 1 => subst x))
  apply State.mapQp_keeps (hm.sub rfl)
  with_reducible assumption
  (intro (x : HltSt); subst x)
  with_reducible refine keeps_mk (h := ?_)
  with_reducible assumption
  with_reducible assumption
  (intro (x : SchSt); subst x)
  apply State.refreshPool_keeps (hm.sub rfl)
  with_reducible refine keeps_mk (h := ?_)
  with_reducible assumption

theorem State.fenceNode_keeps (hm : Within [.live, .run, .pgw, .sch, .que, .vsp, .mem, .prog, .mat, .lnk, .map, .hlt, .sec, .hst, .sum, .outbox, .freeCtr] m) {a0 : State} (h0 : Keeps m z a0) : Keeps m z (State.fenceNode a0) := by
  unfold State.fenceNode
  split
  with_reducible assumption
  lift_lets
  (intro x; refine keeps_cut (p := Keeps m z x) ?_ (fun hx => ?_); (on_goal 2 => clear_value x); (on_goal 1 => subst x))
  apply State.dropHeld_keeps (hm.sub rfl)
  with_reducible assumption
  (intro (x : SchSt); subst x)
  (intro (x : MapSt); subst x)
  (intro x; refine keeps_cut (p := Keeps m z x) ?_ (fun hx => ?_); (on_goal 2 => clear_value x); (on_goal 1 => subst x))
  with_reducible refine keeps_mk (h := ?_)
  with_reducible assumption
  (intro x; refine keeps_cut (p := Keeps m z x) ?_ (fun hx => ?_); (on_goal 2 => clear_value x); (on_goal 1 => subst x))
  apply State.dropTransit_keeps (hm.sub rfl)
  with_reducible assumption
  (intro x; refine keeps_cut (p := Keeps m z x) ?_ (fun hx => ?_); (on_goal 2 => clear_value x); (on_goal 1 => subst x))
  (with_reducible refine keeps_foldl (fun s a hs => ?_) ?_)
  split
  with_reducible assumption
  apply State.failQp_keeps (hm.sub rfl)
  with_reducible assumption
  with_reducible assumption
  (intro x; refine keeps_cut (p := Keeps m z x) ?_ (fun hx => ?_); (on_goal 2 => clear_value x); (on_goal 1 => subst x))
  (with_reducible refine keeps_foldl (fun s a hs => ?_) ?_)
  apply State.failQp_keeps (hm.sub rfl)
  with_reducible assumption
  with_reducible assumption
  apply State.raiseBit_keeps (hm.sub rfl)
  apply State.setStatus_keeps (hm.sub rfl)
  with_reducible assumption

/-! ### MapOps -/

theorem State.refreshMap_keeps (hm : Within [.live] m) {a0 : State} (h0 : Keeps m z a0) : Keeps m z (State.refreshMap a0) := by
  unfold State.refreshMap
  lift_lets
  (intro (x : MapSt); subst x)
  (intro x; clear_value x)
  apply State.putStatus_keeps (hm.sub rfl)
  with_reducible assumption

theorem State.ctl_keeps (hm : Within [.outbox] m) {a0 : State} (a1 : ℕ) (a2 : ℕ) (a3 : List ℕ) (h0 : Keeps m z a0) : Keeps m z (State.ctl a0 a1 a2 a3) := by
  unfold State.ctl
  apply State.emit_keeps (hm.sub rfl)
  with_reducible assumption

theorem State.ctlOn_keeps (hm : Within [.outbox] m) {a0 : State} (a1 : CtlHdr) (a2 : ℕ) (a3 : ℕ) (a4 : List ℕ) (h0 : Keeps m z a0) : Keeps m z (State.ctlOn a0 a1 a2 a3 a4) := by
  unfold State.ctlOn
  apply State.emit_keeps (hm.sub rfl)
  with_reducible assumption

theorem State.startFetchMap_keeps (hm : Within [.map, .outbox] m) {a0 : State} (a1 : ℕ) (h0 : Keeps m z a0) : Keeps m z (State.startFetchMap a0 a1) := by
  unfold State.startFetchMap
  split
  with_reducible assumption
  apply State.ctl_keeps (hm.sub rfl)
  with_reducible refine keeps_mk (h := ?_)
  with_reducible assumption

theorem State.sendJoin_keeps (hm : Within [.live, .sec, .outbox] m) {a0 : State} (a1 : ℕ) (h0 : Keeps m z a0) : Keeps m z (State.sendJoin a0 a1) := by
  unfold State.sendJoin
  apply State.queueJoin_keeps (hm.sub rfl)
  apply State.ctl_keeps (hm.sub rfl)
  with_reducible assumption

theorem State.fenceSelf_keeps (hm : Within [.live, .run, .pgw, .sch, .que, .vsp, .mem, .prog, .mat, .lnk, .map, .hlt, .sec, .hst, .sum, .outbox, .freeCtr] m) {a0 : State} (h0 : Keeps m z a0) : Keeps m z (State.fenceSelf a0) := by
  unfold State.fenceSelf
  split
  with_reducible assumption
  apply State.refreshMap_keeps (hm.sub rfl)
  apply State.startFetchMap_keeps (hm.sub rfl)
  apply State.fenceNode_keeps (hm.sub rfl)
  with_reducible assumption

theorem State.checkAhead_keeps (hm : Within [.live, .run, .pgw, .sch, .que, .vsp, .mem, .prog, .mat, .lnk, .map, .hlt, .sec, .hst, .sum, .outbox, .freeCtr] m) {a0 : State} (a1 : ℕ) (h0 : Keeps m z a0) : Keeps m z (State.checkAhead a0 a1) := by
  unfold State.checkAhead
  split
  apply State.fenceSelf_keeps (hm.sub rfl)
  with_reducible refine keeps_mk (h := ?_)
  with_reducible assumption
  with_reducible assumption

theorem State.ctlIn_keeps (hm : Within [.live, .run, .pgw, .sch, .que, .vsp, .mem, .prog, .mat, .lnk, .map, .hlt, .sec, .hst, .sum, .outbox, .freeCtr] m) {a0 : State} (a1 : CtlHdr) (h0 : Keeps m z a0) : Keeps m z (State.ctlIn a0 a1) := by
  unfold State.ctlIn
  apply State.checkAhead_keeps (hm.sub rfl)
  with_reducible assumption

theorem State.takeTerm_keeps (hm : Within [.live, .map, .hst, .sum, .outbox] m) {a0 : State} (a1 : CtlHdr) (h0 : Keeps m z a0) : Keeps m z (State.takeTerm a0 a1) := by
  unfold State.takeTerm
  split
  apply State.refreshMap_keeps (hm.sub rfl)
  apply State.raiseBit_keeps (hm.sub rfl)
  with_reducible refine keeps_mk (h := ?_)
  with_reducible assumption
  with_reducible assumption

theorem State.announceMode_keeps (hm : Within [.live, .hst, .sum, .outbox] m) {a0 : State} (a1 : Option (ℕ × ℕ)) (a2 : Option (ℕ × ℕ)) (h0 : Keeps m z a0) : Keeps m z (State.announceMode a0 a1 a2) := by
  unfold State.announceMode
  split
  split
  with_reducible assumption
  lift_lets
  (intro x; clear_value x)
  apply State.raiseBit_keeps (hm.sub rfl)
  apply State.setLive64_keeps (hm.sub rfl)
  apply State.setLive_keeps (hm.sub rfl)
  with_reducible assumption
  with_reducible assumption

theorem State.endProposal_keeps (hm : Within [.live, .map, .hst, .sum, .outbox] m) {a0 : State} (a1 : ℕ) (h0 : Keeps m z a0) : Keeps m z (State.endProposal a0 a1) := by
  unfold State.endProposal
  lift_lets
  (intro (x : MapSt); subst x)
  (intro x; refine keeps_cut (p := Keeps m z x) ?_ (fun hx => ?_); (on_goal 2 => clear_value x); (on_goal 1 => subst x))
  with_reducible refine keeps_mk (h := ?_)
  with_reducible assumption
  apply State.raiseBit_keeps (hm.sub rfl)
  apply State.touch_keeps (hm.sub rfl)
  with_reducible assumption

theorem State.endMode_keeps (hm : Within [.live, .map] m) {a0 : State} (a1 : Bool) (h0 : Keeps m z a0) : Keeps m z (State.endMode a0 a1) := by
  unfold State.endMode
  lift_lets
  (intro (x : MapSt); subst x)
  (intro x; refine keeps_cut (p := Keeps m z x) ?_ (fun hx => ?_); (on_goal 2 => clear_value x); (on_goal 1 => subst x))
  with_reducible refine keeps_mk (h := ?_)
  with_reducible assumption
  (intro x; clear_value x)
  apply State.setLive_keeps (hm.sub rfl)
  with_reducible assumption

theorem State.decided_keeps (hm : Within [.live, .map, .hst, .sum, .outbox] m) {a0 : State} (a1 : ℕ) (a2 : ℕ) (h0 : Keeps m z a0) : Keeps m z (State.decided a0 a1 a2) := by
  unfold State.decided
  lift_lets
  (intro x; refine keeps_cut (p := Keeps m z x) ?_ (fun hx => ?_); (on_goal 2 => clear_value x); (on_goal 1 => subst x))
  split
  apply State.endProposal_keeps (hm.sub rfl)
  with_reducible assumption
  with_reducible assumption
  split
  apply State.endMode_keeps (hm.sub rfl)
  with_reducible assumption
  with_reducible assumption

theorem State.adopt_keeps (hm : Within [.live, .map, .hst, .sum, .outbox] m) {a0 : State} (a1 : MapData) (a2 : List Change) (h0 : Keeps m z a0) : Keeps m z (State.adopt a0 a1 a2) := by
  unfold State.adopt
  lift_lets
  (intro x; clear_value x)
  (intro (x : MapSt); subst x)
  (intro x; refine keeps_cut (p := Keeps m z x) ?_ (fun hx => ?_); (on_goal 2 => clear_value x); (on_goal 1 => subst x))
  with_reducible refine keeps_mk (h := ?_)
  with_reducible assumption
  (intro x; refine keeps_cut (p := Keeps m z x) ?_ (fun hx => ?_); (on_goal 2 => clear_value x); (on_goal 1 => subst x))
  apply State.announceMode_keeps (hm.sub rfl)
  with_reducible assumption
  (intro x; refine keeps_cut (p := Keeps m z x) ?_ (fun hx => ?_); (on_goal 2 => clear_value x); (on_goal 1 => subst x))
  split
  apply State.raiseBit_keeps (hm.sub rfl)
  with_reducible assumption
  with_reducible assumption
  (intro x; refine keeps_cut (p := Keeps m z x) ?_ (fun hx => ?_); (on_goal 2 => clear_value x); (on_goal 1 => subst x))
  (with_reducible refine keeps_foldl (fun s a hs => ?_) ?_)
  apply State.decided_keeps (hm.sub rfl)
  with_reducible assumption
  with_reducible assumption
  apply State.refreshMap_keeps (hm.sub rfl)
  with_reducible assumption

theorem State.sendMap_keeps (hm : Within [.outbox] m) {a0 : State} (a1 : MapData) (a2 : ℕ) (h0 : Keeps m z a0) : Keeps m z (State.sendMap a0 a1 a2) := by
  unfold State.sendMap
  lift_lets
  (intro x; clear_value x)
  (with_reducible refine keeps_foldl (fun s a hs => ?_) ?_)
  apply State.ctl_keeps (hm.sub rfl)
  with_reducible assumption
  with_reducible assumption

theorem State.sendCommit_keeps (hm : Within [.outbox] m) {a0 : State} (a1 : Prepared) (h0 : Keeps m z a0) : Keeps m z (State.sendCommit a0 a1) := by
  unfold State.sendCommit
  lift_lets
  iterate 2 (intro x; clear_value x)
  (with_reducible refine keeps_foldl (fun s a hs => ?_) ?_)
  apply State.ctl_keeps (hm.sub rfl)
  with_reducible assumption
  with_reducible assumption

theorem State.leaderCommit_keeps (hm : Within [.live, .map, .hst, .sum, .outbox] m) {a0 : State} (a1 : Prepared) (h0 : Keeps m z a0) : Keeps m z (State.leaderCommit a0 a1) := by
  unfold State.leaderCommit
  split
  with_reducible assumption
  lift_lets
  (intro (x : MapSt); subst x)
  (intro x; refine keeps_cut (p := Keeps m z x) ?_ (fun hx => ?_); (on_goal 2 => clear_value x); (on_goal 1 => subst x))
  with_reducible refine keeps_mk (h := ?_)
  with_reducible assumption
  (intro x; refine keeps_cut (p := Keeps m z x) ?_ (fun hx => ?_); (on_goal 2 => clear_value x); (on_goal 1 => subst x))
  apply State.sendCommit_keeps (hm.sub rfl)
  with_reducible assumption
  (intro x; refine keeps_cut (p := Keeps m z x) ?_ (fun hx => ?_); (on_goal 2 => clear_value x); (on_goal 1 => subst x))
  (with_reducible refine keeps_foldl (fun s a hs => ?_) ?_)
  apply State.sendMap_keeps (hm.sub rfl)
  with_reducible assumption
  with_reducible assumption
  apply State.adopt_keeps (hm.sub rfl)
  with_reducible assumption

theorem State.countAccept_keeps (hm : Within [.live, .map, .hst, .sum, .outbox] m) {a0 : State} (a1 : ℕ) (h0 : Keeps m z a0) : Keeps m z (State.countAccept a0 a1) := by
  unfold State.countAccept
  split
  with_reducible assumption
  lift_lets
  (intro x; subst x)
  (intro (x : MapSt); subst x)
  (intro x; refine keeps_cut (p := Keeps m z x) ?_ (fun hx => ?_); (on_goal 1 => subst x))
  with_reducible refine keeps_mk (h := ?_)
  with_reducible assumption
  split
  apply State.leaderCommit_keeps (hm.sub rfl)
  with_reducible assumption
  with_reducible assumption

theorem State.sendRefuse_keeps (hm : Within [.live, .map, .hst, .sum, .outbox] m) {a0 : State} (a1 : Change) (a2 : ℕ) (h0 : Keeps m z a0) : Keeps m z (State.sendRefuse a0 a1 a2) := by
  unfold State.sendRefuse
  split
  apply State.decided_keeps (hm.sub rfl)
  with_reducible assumption
  apply State.ctl_keeps (hm.sub rfl)
  with_reducible assumption

theorem State.leaderTake_keeps (hm : Within [.live, .map, .hst, .sum, .outbox] m) {a0 : State} (a1 : Change) (h0 : Keeps m z a0) : Keeps m z (State.leaderTake a0 a1) := by
  unfold State.leaderTake
  split
  with_reducible assumption
  lift_lets
  iterate 3 (intro x; clear_value x)
  (intro (x : MapSt); subst x)
  split
  apply State.sendRefuse_keeps (hm.sub rfl)
  with_reducible assumption
  with_reducible refine keeps_mk (h := ?_)
  with_reducible assumption

theorem State.propose_keeps (hm : Within [.live, .map, .hst, .sum, .outbox] m) {a0 : State} (a1 : ℕ) (a2 : ℕ) (a3 : ℕ) (a4 : ℕ) (h0 : Keeps m z a0) : Keeps m z (State.propose a0 a1 a2 a3 a4).1 := by
  unfold State.propose
  lift_lets
  (intro x; clear_value x)
  (intro (x : MapSt); subst x)
  (intro x; refine keeps_cut (p := Keeps m z x) ?_ (fun hx => ?_); (on_goal 2 => clear_value x); (on_goal 1 => subst x))
  with_reducible refine keeps_mk (h := ?_)
  with_reducible assumption
  (intro x; clear_value x)
  dsimp only
  split
  apply State.leaderTake_keeps (hm.sub rfl)
  with_reducible assumption
  apply State.ctl_keeps (hm.sub rfl)
  with_reducible assumption

theorem State.sendPrepare_keeps (hm : Within [.live, .map, .hst, .sum, .outbox] m) {a0 : State} (a1 : Prepared) (h0 : Keeps m z a0) : Keeps m z (State.sendPrepare a0 a1) := by
  unfold State.sendPrepare
  lift_lets
  (intro x; clear_value x)
  (intro (x : MapSt); subst x)
  (intro x; refine keeps_cut (p := Keeps m z x) ?_ (fun hx => ?_); (on_goal 2 => clear_value x); (on_goal 1 => subst x))
  with_reducible refine keeps_mk (h := ?_)
  with_reducible assumption
  (intro x; refine keeps_cut (p := Keeps m z x) ?_ (fun hx => ?_); (on_goal 2 => clear_value x); (on_goal 1 => subst x))
  (with_reducible refine keeps_foldl (fun s a hs => ?_) ?_)
  apply State.ctl_keeps (hm.sub rfl)
  with_reducible assumption
  with_reducible assumption
  apply State.countAccept_keeps (hm.sub rfl)
  with_reducible assumption

theorem State.dropLateModes_keeps (hm : Within [.live, .map, .hst, .sum, .outbox] m) {a0 : State} (a1 : List Change) (h0 : Keeps m z a0) : Keeps m z (State.dropLateModes a0 a1) := by
  unfold State.dropLateModes
  (with_reducible refine keeps_foldl (fun s a hs => ?_) ?_)
  apply State.sendRefuse_keeps (hm.sub rfl)
  with_reducible assumption
  with_reducible assumption

theorem State.refuseLate_keeps (hm : Within [.live, .map, .hst, .sum, .outbox] m) {a0 : State} (h0 : Keeps m z a0) : Keeps m z (State.refuseLate a0) := by
  unfold State.refuseLate
  split
  with_reducible assumption
  lift_lets
  iterate 5 (intro x; clear_value x)
  (intro (x : MapSt); subst x)
  (intro x; refine keeps_cut (p := Keeps m z x) ?_ (fun hx => ?_); (on_goal 2 => clear_value x); (on_goal 1 => subst x))
  with_reducible refine keeps_mk (h := ?_)
  with_reducible assumption
  apply State.dropLateModes_keeps (hm.sub rfl)
  (with_reducible refine keeps_foldl (fun s a hs => ?_) ?_)
  apply State.sendRefuse_keeps (hm.sub rfl)
  with_reducible assumption
  with_reducible assumption

theorem State.prepareMinute_keeps (hm : Within [.live, .map, .hst, .sum, .outbox] m) {a0 : State} (h0 : Keeps m z a0) : Keeps m z (State.prepareMinute a0) := by
  unfold State.prepareMinute
  lift_lets
  (intro x; refine keeps_cut (p := Keeps m z x) ?_ (fun hx => ?_); (on_goal 2 => clear_value x); (on_goal 1 => subst x))
  apply State.refuseLate_keeps (hm.sub rfl)
  with_reducible assumption
  iterate 3 (intro x; clear_value x)
  split
  with_reducible assumption
  lift_lets
  (intro x; clear_value x)
  (intro x; refine keeps_cut (p := Keeps m z x) ?_ (fun hx => ?_); (on_goal 2 => clear_value x); (on_goal 1 => subst x))
  (with_reducible refine keeps_foldl (fun s a hs => ?_) ?_)
  apply State.sendRefuse_keeps (hm.sub rfl)
  with_reducible assumption
  with_reducible assumption
  (intro (x : MapSt); subst x)
  (intro x; refine keeps_cut (p := Keeps m z x) ?_ (fun hx => ?_); (on_goal 2 => clear_value x); (on_goal 1 => subst x))
  with_reducible refine keeps_mk (h := ?_)
  with_reducible assumption
  iterate 3 (intro x; clear_value x)
  split
  apply State.sendPrepare_keeps (hm.sub rfl)
  with_reducible assumption
  split
  with_reducible assumption
  split
  with_reducible assumption
  apply State.sendPrepare_keeps (hm.sub rfl)
  with_reducible assumption

/-! ### Vesper -/

theorem State.attendFrom_keeps (hm : Within [.run, .sch, .vsp] m) {a0 : State} (a1 : ℕ) (a2 : Burst) (a3 : VUnit) (h0 : Keeps m z a0) : KeepsO m z (State.attendFrom a0 a1 a2 a3) := by
  unfold State.attendFrom
  lift_lets
  (intro x; clear_value x)
  split
  with_reducible apply keepsO_none
  split
  with_reducible apply keepsO_some
  (with_reducible refine keeps_foldl (fun s a hs => ?_) ?_)
  apply State.leafToHub_keeps (hm.sub rfl)
  with_reducible assumption
  apply State.setUnit_keeps (hm.sub rfl)
  with_reducible assumption
  split
  with_reducible apply keepsO_some
  apply State.startBurst_keeps (hm.sub rfl)
  with_reducible assumption
  with_reducible apply keepsO_none

theorem execAttendBurst_keeps (hm : Within [.now, .live, .run, .sch, .vsp, .hst, .sum, .outbox] m) (a0 : ℕ) {a1 : State} (h1 : Keeps m z a1) : KeepsN m z (execAttendBurst a0 a1) := by
  unfold execAttendBurst
  split
  with_reducible apply keepsN_next
  with_reducible assumption
  lift_lets
  (intro x; refine keeps_cut (p := Keeps m z x) ?_ (fun hx => ?_); (on_goal 2 => clear_value x); (on_goal 1 => subst x))
  apply State.runOut_keeps (hm.sub rfl)
  with_reducible assumption
  (intro x; clear_value x)
  split
  with_reducible apply keepsN_next
  with_reducible assumption
  split
  with_reducible apply keepsN_next
  with_reducible apply keeps_getD
  apply State.attendFrom_keeps (hm.sub rfl)
  with_reducible assumption
  with_reducible assumption
  with_reducible apply keepsN_next
  with_reducible assumption
  split
  with_reducible apply keepsN_next
  with_reducible apply keeps_getD
  apply State.attendFrom_keeps (hm.sub rfl)
  with_reducible assumption
  with_reducible assumption
  with_reducible apply keepsN_next
  with_reducible assumption

theorem execBurstResume_keeps (hm : Within [.now, .live, .run, .vsp, .hst, .sum, .outbox] m) (a0 : ℕ) {a1 : State} (h1 : Keeps m z a1) : KeepsN m z (execBurstResume a0 a1) := by
  unfold execBurstResume
  split
  with_reducible apply keepsN_next
  with_reducible assumption
  lift_lets
  (intro x; refine keeps_cut (p := Keeps m z x) ?_ (fun hx => ?_); (on_goal 2 => clear_value x); (on_goal 1 => subst x))
  split
  with_reducible assumption
  apply State.runOut_keeps (hm.sub rfl)
  with_reducible assumption
  (intro x; clear_value x)
  (intro x; refine keeps_cut (p := Keeps m z x) ?_ (fun hx => ?_); (on_goal 2 => clear_value x); (on_goal 1 => subst x))
  apply State.advanceTo_keeps (hm.sub rfl)
  with_reducible assumption
  (intro x; clear_value x)
  split
  with_reducible apply keepsN_next
  apply State.spend_keeps (hm.sub rfl)
  apply State.setUnit_keeps (hm.sub rfl)
  with_reducible assumption
  split
  with_reducible apply keepsN_next
  apply State.spend_keeps (hm.sub rfl)
  apply State.setUnit_keeps (hm.sub rfl)
  with_reducible assumption
  with_reducible apply keepsN_next
  with_reducible assumption

theorem State.endTile_keeps (hm : Within [.live, .run, .vsp, .hst, .sum, .outbox] m) {a0 : State} (a1 : ℕ) (a2 : ℕ) (h0 : Keeps m z a0) : Keeps m z (State.endTile a0 a1 a2) := by
  induction a2 generalizing a0 a1 with
  | zero =>
    unfold State.endTile
    with_reducible assumption
  | succ k ih =>
    unfold State.endTile
    lift_lets
    (intro x; clear_value x)
    split
    split
    with_reducible assumption
    with_reducible apply ih
    apply State.readOn_keeps (hm.sub rfl)
    with_reducible assumption
    with_reducible assumption

theorem execUrgentPreempt_keeps (hm : Within [.now, .live, .run, .sch, .vsp, .hst, .sum, .outbox] m) (a0 : ℕ) {a1 : State} (h1 : Keeps m z a1) : KeepsN m z (execUrgentPreempt a0 a1) := by
  unfold execUrgentPreempt
  split
  with_reducible apply keepsN_next
  with_reducible assumption
  lift_lets
  (intro x; refine keeps_cut (p := Keeps m z x) ?_ (fun hx => ?_); (on_goal 2 => clear_value x); (on_goal 1 => subst x))
  apply State.catchUp_keeps (hm.sub rfl)
  apply State.endTile_keeps (hm.sub rfl)
  apply State.pumpNow_keeps (hm.sub rfl)
  with_reducible assumption
  (intro x; clear_value x)
  split
  split
  with_reducible apply keepsN_next
  with_reducible assumption
  with_reducible apply keepsN_next
  with_reducible apply keeps_getD
  (with_reducible refine keepsO_map_keeps (fun s hs => ?_) ?_)
  split
  with_reducible assumption
  apply State.unitCount_keeps (hm.sub rfl)
  with_reducible assumption
  apply State.attendFrom_keeps (hm.sub rfl)
  with_reducible assumption
  with_reducible assumption
  with_reducible apply keepsN_next
  with_reducible assumption

theorem State.leafWaits_keeps (hm : Within [.sch] m) {a0 : State} (a1 : BurstEntry) (h0 : Keeps m z a0) : Keeps m z (State.leafWaits a0 a1) := by
  unfold State.leafWaits
  split
  apply State.mapJob_keeps (hm.sub rfl)
  with_reducible assumption
  with_reducible assumption

theorem State.leafFrom_keeps (hm : Within [.sch] m) {a0 : State} (a1 : BurstEntry) (a2 : ℕ) (a3 : Pte) (h0 : Keeps m z a0) : Keeps m z (State.leafFrom a0 a1 a2 a3) := by
  unfold State.leafFrom
  split
  lift_lets
  (intro x; clear_value x)
  split
  apply State.mapJob_keeps (hm.sub rfl)
  with_reducible assumption
  with_reducible assumption
  with_reducible assumption

theorem State.charge_keeps (hm : Within [.live, .run, .hlt, .hst, .sum, .outbox] m) {a0 : State} (a1 : Reread) (a2 : ℕ) (a3 : Bool) (a4 : Bool) (h0 : Keeps m z a0) : Keeps m z (State.charge a0 a1 a2 a3 a4) := by
  unfold State.charge
  lift_lets
  (intro x; clear_value x)
  apply State.addPoints_keeps (hm.sub rfl)
  apply State.unitCount_keeps (hm.sub rfl)
  apply State.recordFail_keeps (hm.sub rfl)
  with_reducible assumption

theorem State.rereadPassed_keeps (hm : Within [.live, .run, .pgw, .sch, .que, .mem, .lnk, .hst, .sum, .outbox, .freeCtr] m) {a0 : State} (a1 : Reread) (a2 : Pair) (h0 : Keeps m z a0) : Keeps m z (State.rereadPassed a0 a1 a2) := by
  unfold State.rereadPassed
  split
  with_reducible assumption
  split
  apply State.leafWaits_keeps (hm.sub rfl)
  with_reducible assumption
  split
  apply State.movePair_keeps (hm.sub rfl)
  with_reducible assumption
  with_reducible assumption
  with_reducible assumption

theorem State.moveRepaired_keeps (hm : Within [.live, .run, .pgw, .sch, .que, .mem, .lnk, .hst, .sum, .outbox, .freeCtr] m) {a0 : State} (a1 : PageRef) (a2 : ℕ) (h0 : Keeps m z a0) : Keeps m z (State.moveRepaired a0 a1 a2) := by
  unfold State.moveRepaired
  lift_lets
  (intro x; clear_value x)
  split
  split
  apply State.abandonMove_keeps (hm.sub rfl)
  with_reducible assumption
  with_reducible assumption
  apply State.movePair_keeps (hm.sub rfl)
  with_reducible assumption

theorem State.rereadFailed_keeps (hm : Within [.live, .run, .pgw, .sch, .que, .vsp, .mem, .prog, .mat, .lnk, .hlt, .hst, .sum, .outbox, .freeCtr] m) {a0 : State} (a1 : Reread) (a2 : List Flip) (a3 : PageRef) (a4 : ℕ) (h0 : Keeps m z a0) : Keeps m z (State.rereadFailed a0 a1 a2 a3 a4) := by
  unfold State.rereadFailed
  lift_lets
  iterate 2 (intro x; clear_value x)
  (intro x; refine keeps_cut (p := Keeps m z x) ?_ (fun hx => ?_); (on_goal 2 => clear_value x); (on_goal 1 => subst x))
  split
  apply State.repairPair_keeps (hm.sub rfl)
  with_reducible assumption
  with_reducible assumption
  (intro x; refine keeps_cut (p := Keeps m z x) ?_ (fun hx => ?_); (on_goal 2 => clear_value x); (on_goal 1 => subst x))
  apply State.leafWaits_keeps (hm.sub rfl)
  apply State.leafFrom_keeps (hm.sub rfl)
  with_reducible assumption
  split
  apply State.sweepLost_keeps (hm.sub rfl)
  with_reducible assumption
  split
  apply State.sweepLost_keeps (hm.sub rfl)
  apply State.moveRepaired_keeps (hm.sub rfl)
  with_reducible assumption
  with_reducible assumption

theorem execTileRereadDone_keeps (hm : Within [.now, .live, .run, .pgw, .sch, .que, .vsp, .mem, .prog, .mat, .lnk, .hlt, .hst, .sum, .outbox, .freeCtr] m) (a0 : ℕ) (a1 : List Flip) {a2 : State} (h2 : Keeps m z a2) : KeepsN m z (execTileRereadDone a0 a1 a2) := by
  unfold execTileRereadDone
  split
  with_reducible apply keepsN_next
  with_reducible assumption
  lift_lets
  (intro (x : VspSt); subst x)
  (intro x; refine keeps_cut (p := Keeps m z x) ?_ (fun hx => ?_); (on_goal 2 => clear_value x); (on_goal 1 => subst x))
  with_reducible refine keeps_mk (h := ?_)
  with_reducible assumption
  (intro x; refine keeps_cut (p := Keeps m z x) ?_ (fun hx => ?_); (on_goal 2 => clear_value x); (on_goal 1 => subst x))
  apply State.passTile_keeps (hm.sub rfl)
  with_reducible assumption
  (intro x; clear_value x)
  split
  with_reducible apply keepsN_next
  apply State.tryEndPass_keeps (hm.sub rfl)
  apply State.rereadPassed_keeps (hm.sub rfl)
  apply State.charge_keeps (hm.sub rfl)
  apply State.raiseBit_keeps (hm.sub rfl)
  with_reducible assumption
  lift_lets
  (intro x; refine keeps_cut (p := Keeps m z x) ?_ (fun hx => ?_); (on_goal 2 => clear_value x); (on_goal 1 => subst x))
  apply State.charge_keeps (hm.sub rfl)
  apply State.raiseBit_keeps (hm.sub rfl)
  with_reducible assumption
  with_reducible apply keepsN_next
  apply State.tryEndPass_keeps (hm.sub rfl)
  split
  apply State.rereadFailed_keeps (hm.sub rfl)
  with_reducible assumption
  with_reducible assumption

theorem State.acceptRecord_keeps (hm : Within [.live, .run, .pgw, .sch, .que, .vsp, .mem, .lnk, .hst, .sum, .outbox, .freeCtr] m) {a0 : State} (a1 : ℕ) (a2 : Return) (h0 : Keeps m z a0) : Keeps m z (State.acceptRecord a0 a1 a2) := by
  unfold State.acceptRecord
  split
  (with_reducible refine keeps_foldl (fun s a hs => ?_) ?_)
  split
  lift_lets
  (intro x; clear_value x)
  apply State.mapJob_keeps (hm.sub rfl)
  with_reducible assumption
  with_reducible assumption
  with_reducible assumption
  apply State.tryEndPass_keeps (hm.sub rfl)
  with_reducible assumption
  (with_reducible refine keeps_foldl (fun s a hs => ?_) ?_)
  split
  apply State.movePair_keeps (hm.sub rfl)
  with_reducible assumption
  with_reducible assumption
  with_reducible assumption

theorem execVesperReturnRecord_keeps (hm : Within [.now, .live, .run, .pgw, .sch, .que, .vsp, .mem, .prog, .mat, .lnk, .hlt, .hst, .sum, .outbox, .freeCtr] m) (a0 : ℕ) (a1 : List Flip) (a2 : Bool) {a3 : State} (h3 : Keeps m z a3) : KeepsN m z (execVesperReturnRecord a0 a1 a2 a3) := by
  unfold execVesperReturnRecord
  lift_lets
  (intro x; refine keeps_cut (p := Keeps m z x) ?_ (fun hx => ?_); (on_goal 2 => clear_value x); (on_goal 1 => subst x))
  split
  apply State.catchUp_keeps (hm.sub rfl)
  apply State.pump_keeps (hm.sub rfl)
  with_reducible assumption
  with_reducible assumption
  (intro x; clear_value x)
  dsimp only
  split
  with_reducible apply keepsN_next
  with_reducible assumption
  split
  with_reducible apply keepsN_next
  (with_reducible refine keeps_foldl (fun s a hs => ?_) ?_)
  apply State.leafToHub_keeps (hm.sub rfl)
  with_reducible assumption
  apply State.setUnit_keeps (hm.sub rfl)
  with_reducible assumption
  split
  with_reducible apply keepsN_next
  (with_reducible refine keeps_foldl (fun s a hs => ?_) ?_)
  apply State.reread_keeps (hm.sub rfl)
  with_reducible assumption
  (with_reducible refine keeps_foldl (fun s a hs => ?_) ?_)
  apply State.leafToHub_keeps (hm.sub rfl)
  with_reducible assumption
  apply State.setUnit_keeps (hm.sub rfl)
  with_reducible assumption
  with_reducible apply keepsN_next
  (with_reducible refine keeps_foldl (fun s a hs => ?_) ?_)
  split
  apply State.tryComplete_keeps (hm.sub rfl)
  with_reducible assumption
  with_reducible assumption
  split
  apply State.maskUnit_keeps (hm.sub rfl)
  apply State.addPoints_keeps (hm.sub rfl)
  apply State.raiseBit_keeps (hm.sub rfl)
  split
  with_reducible refine keeps_mk (h := ?_)
  apply State.acceptRecord_keeps (hm.sub rfl)
  apply State.setUnit_keeps (hm.sub rfl)
  with_reducible assumption
  apply State.acceptRecord_keeps (hm.sub rfl)
  apply State.setUnit_keeps (hm.sub rfl)
  with_reducible assumption
  split
  with_reducible refine keeps_mk (h := ?_)
  apply State.acceptRecord_keeps (hm.sub rfl)
  apply State.setUnit_keeps (hm.sub rfl)
  with_reducible assumption
  apply State.acceptRecord_keeps (hm.sub rfl)
  apply State.setUnit_keeps (hm.sub rfl)
  with_reducible assumption

theorem execReturnRecordMissing_keeps (hm : Within [.now, .live, .run, .sch, .vsp, .hlt, .hst, .sum, .outbox] m) (a0 : ℕ) {a1 : State} (h1 : Keeps m z a1) : KeepsN m z (execReturnRecordMissing a0 a1) := by
  unfold execReturnRecordMissing
  lift_lets
  (intro x; refine keeps_cut (p := Keeps m z x) ?_ (fun hx => ?_); (on_goal 2 => clear_value x); (on_goal 1 => subst x))
  split
  apply State.catchUp_keeps (hm.sub rfl)
  apply State.pump_keeps (hm.sub rfl)
  with_reducible assumption
  with_reducible assumption
  (intro x; clear_value x)
  split
  dsimp only
  split
  with_reducible apply keepsN_next
  with_reducible assumption
  with_reducible apply keepsN_next
  apply State.tryEndPass_keeps (hm.sub rfl)
  apply State.maskUnit_keeps (hm.sub rfl)
  apply State.addPoints_keeps (hm.sub rfl)
  (with_reducible refine keeps_foldl (fun s a hs => ?_) ?_)
  apply State.leafToHub_keeps (hm.sub rfl)
  with_reducible assumption
  apply State.setUnit_keeps (hm.sub rfl)
  apply State.advanceTo_keeps (hm.sub rfl)
  with_reducible assumption
  dsimp only
  split
  with_reducible apply keepsN_next
  with_reducible assumption
  with_reducible apply keepsN_next
  apply State.tryEndPass_keeps (hm.sub rfl)
  apply State.addPoints_keeps (hm.sub rfl)
  (with_reducible refine keeps_foldl (fun s a hs => ?_) ?_)
  apply State.leafToHub_keeps (hm.sub rfl)
  with_reducible assumption
  apply State.setUnit_keeps (hm.sub rfl)
  apply State.advanceTo_keeps (hm.sub rfl)
  with_reducible assumption

theorem State.startOther_keeps (hm : Within [.run, .vsp] m) {a0 : State} (a1 : ℕ) (a2 : VUnit) (a3 : Burst) (a4 : List Flip) (h0 : Keeps m z a0) : KeepsO m z (State.startOther a0 a1 a2 a3 a4) := by
  unfold State.startOther
  lift_lets
  iterate 3 (intro x; clear_value x)
  split
  with_reducible apply keepsO_none
  with_reducible apply keepsO_some
  apply State.startBurst_keeps (hm.sub rfl)
  with_reducible assumption

theorem State.passed_keeps (hm : Within [.vsp] m) {a0 : State} (a1 : ℕ) (a2 : List ℕ) (h0 : Keeps m z a0) : Keeps m z (State.passed a0 a1 a2) := by
  unfold State.passed
  lift_lets
  (intro x; clear_value x)
  apply State.setUnit_keeps (hm.sub rfl)
  with_reducible assumption

theorem State.hubScrub_keeps (hm : Within [.now, .live, .run, .pgw, .sch, .que, .vsp, .mem, .prog, .mat, .lnk, .hlt, .hst, .sum, .outbox, .freeCtr] m) {a0 : State} (a1 : ℕ) (a2 : List (ℕ × BurstEntry)) (a3 : List Flip) (h0 : Keeps m z a0) : Keeps m z (State.hubScrub a0 a1 a2 a3) := by
  unfold State.hubScrub
  lift_lets
  (intro x; clear_value x)
  (intro x; refine keeps_cut (p := Keeps m z x) ?_ (fun hx => ?_); (on_goal 2 => clear_value x); (on_goal 1 => subst x))
  (with_reducible refine keeps_foldl (fun s a hs => ?_) ?_)
  split
  (with_reducible refine keeps_foldl (fun s a hs => ?_) ?_)
  apply State.reread_keeps (hm.sub rfl)
  with_reducible assumption
  apply State.passTile_keeps (hm.sub rfl)
  apply State.passTile_keeps (hm.sub rfl)
  with_reducible assumption
  with_reducible assumption
  with_reducible assumption
  apply State.passed_keeps (hm.sub rfl)
  with_reducible assumption

theorem execScrubBurst_keeps (hm : Within [.now, .live, .run, .pgw, .sch, .que, .vsp, .mem, .prog, .mat, .lnk, .hlt, .hst, .sum, .outbox, .freeCtr] m) (a0 : ℕ) (a1 : List Flip) {a2 : State} (h2 : Keeps m z a2) : KeepsN m z (execScrubBurst a0 a1 a2) := by
  unfold execScrubBurst
  lift_lets
  (intro x; refine keeps_cut (p := Keeps m z x) ?_ (fun hx => ?_); (on_goal 2 => clear_value x); (on_goal 1 => subst x))
  apply State.runOut_keeps (hm.sub rfl)
  with_reducible assumption
  iterate 6 (intro x; clear_value x)
  split
  with_reducible apply keepsN_next
  with_reducible assumption
  split
  with_reducible apply keepsN_next
  apply State.hubScrub_keeps (hm.sub rfl)
  with_reducible assumption
  split
  with_reducible apply keepsN_next
  apply State.tryEndPass_keeps (hm.sub rfl)
  with_reducible assumption
  split
  with_reducible apply keepsN_next
  with_reducible assumption
  lift_lets
  iterate 2 (intro x; clear_value x)
  (intro (x : VspSt); subst x)
  (intro x; refine keeps_cut (p := Keeps m z x) ?_ (fun hx => ?_); (on_goal 2 => clear_value x); (on_goal 1 => subst x))
  apply State.setUnit_keeps (hm.sub rfl)
  with_reducible refine keeps_mk (h := ?_)
  (with_reducible refine keeps_of_some (by with_reducible assumption) ?_)
  apply State.startOther_keeps (hm.sub rfl)
  with_reducible assumption
  with_reducible apply keepsN_next
  split
  with_reducible assumption
  apply State.passed_keeps (hm.sub rfl)
  with_reducible assumption

theorem execMoveBurst_keeps (hm : Within [.now, .live, .run, .vsp, .hst, .sum, .outbox] m) (a0 : ℕ) (a1 : List Flip) {a2 : State} (h2 : Keeps m z a2) : KeepsN m z (execMoveBurst a0 a1 a2) := by
  unfold execMoveBurst
  lift_lets
  (intro x; refine keeps_cut (p := Keeps m z x) ?_ (fun hx => ?_); (on_goal 2 => clear_value x); (on_goal 1 => subst x))
  apply State.runOut_keeps (hm.sub rfl)
  with_reducible assumption
  (intro x; clear_value x)
  split
  with_reducible apply keepsN_next
  with_reducible assumption
  split
  with_reducible apply keepsN_next
  with_reducible assumption
  with_reducible apply keepsN_next
  with_reducible apply keeps_getD
  apply State.startOther_keeps (hm.sub rfl)
  with_reducible assumption
  with_reducible assumption

theorem execOrdinaryAccess_keeps (hm : Within [.live, .run, .pgw, .sch, .que, .vsp, .mem, .prog, .mat, .lnk, .hlt, .hst, .sum, .outbox, .freeCtr] m) (a0 : ℕ) (a1 : ℕ) (a2 : Bool) (a3 : ℕ) (a4 : AccessData) {a5 : State} (h5 : Keeps m z a5) : KeepsN m z (execOrdinaryAccess a0 a1 a2 a3 a4 a5) := by
  unfold execOrdinaryAccess
  lift_lets
  (intro x; refine keeps_cut (p := Keeps m z x) ?_ (fun hx => ?_); (on_goal 2 => clear_value x); (on_goal 1 => subst x))
  apply State.pumpNow_keeps (hm.sub rfl)
  with_reducible assumption
  (intro x; clear_value x)
  (intro x; refine keeps_cut (p := ∀ s0, Keeps m z s0 → Keeps m z (x s0)) ?_ (fun hf0 => ?_); (on_goal 2 => clear_value x); (on_goal 1 => (intro s0 hs0; subst x; beta_reduce)))
  apply State.serveAccess_keeps (hm.sub rfl)
  with_reducible assumption
  split
  split
  with_reducible apply keepsN_next
  with_reducible apply hf0
  (with_reducible refine keeps_of_some (by with_reducible assumption) ?_)
  apply State.joinWindow_keeps (hm.sub rfl)
  with_reducible assumption
  with_reducible apply keepsN_next
  apply State.setUnit_keeps (hm.sub rfl)
  with_reducible assumption
  with_reducible apply keepsN_next
  with_reducible apply hf0
  with_reducible assumption

theorem execAccessWindow_keeps (hm : Within [.now, .live, .run, .pgw, .sch, .que, .vsp, .mem, .prog, .mat, .lnk, .hlt, .hst, .sum, .outbox, .freeCtr] m) (a0 : ℕ) (a1 : ℕ) {a2 : State} (h2 : Keeps m z a2) : KeepsN m z (execAccessWindow a0 a1 a2) := by
  unfold execAccessWindow
  lift_lets
  (intro x; refine keeps_cut (p := Keeps m z x) ?_ (fun hx => ?_); (on_goal 2 => clear_value x); (on_goal 1 => subst x))
  apply State.pumpNow_keeps (hm.sub rfl)
  with_reducible assumption
  (intro x; refine keeps_cut (p := Keeps m z x) ?_ (fun hx => ?_); (on_goal 2 => clear_value x); (on_goal 1 => subst x))
  split
  apply State.catchUp_keeps (hm.sub rfl)
  apply State.endRow_keeps (hm.sub rfl)
  with_reducible assumption
  with_reducible assumption
  iterate 4 (intro x; clear_value x)
  (intro x; refine keeps_cut (p := Keeps m z x) ?_ (fun hx => ?_); (on_goal 2 => clear_value x); (on_goal 1 => subst x))
  apply State.setUnit_keeps (hm.sub rfl)
  with_reducible assumption
  (intro x; refine keeps_cut (p := Keeps m z x) ?_ (fun hx => ?_); (on_goal 2 => clear_value x); (on_goal 1 => subst x))
  split
  apply State.openWindow_keeps (hm.sub rfl)
  with_reducible assumption
  with_reducible assumption
  split
  with_reducible apply keepsN_next
  with_reducible assumption
  with_reducible apply keepsN_next
  (with_reducible refine keeps_foldl (fun s a hs => ?_) ?_)
  apply State.serveAccess_keeps (hm.sub rfl)
  with_reducible assumption
  with_reducible assumption

theorem execOldLocationFree_keeps (hm : Within [.mem] m) (a0 : ℕ) {a1 : State} (h1 : Keeps m z a1) : KeepsN m z (execOldLocationFree a0 a1) := by
  unfold execOldLocationFree
  split
  with_reducible apply keepsN_next
  with_reducible assumption
  split
  with_reducible apply keepsN_next
  with_reducible assumption
  with_reducible apply keepsN_next
  apply State.keepBytes_keeps (hm.sub rfl)
  with_reducible refine keeps_mk (h := ?_)
  with_reducible assumption

/-! ### Tiers -/

theorem execTier1Patrol_keeps (hm : Within [.live, .run, .pgw, .sch, .que, .vsp, .mem, .prog, .mat, .lnk, .hlt, .hst, .sum, .outbox, .freeCtr] m) (a0 : ℕ) (a1 : EccOutcome) {a2 : State} (h2 : Keeps m z a2) : KeepsN m z (execTier1Patrol a0 a1 a2) := by
  unfold execTier1Patrol
  with_reducible apply keepsN_next
  split
  with_reducible assumption
  apply State.tier1Ecc_keeps (hm.sub rfl)
  with_reducible assumption

theorem State.hubPair_keeps (hm : Within [.now, .live, .run, .pgw, .sch, .que, .vsp, .mem, .prog, .mat, .lnk, .hlt, .hst, .sum, .outbox, .freeCtr] m) {a0 : State} (a1 : PageRef) (a2 : Option ℕ × List Pair) (a3 : Pte) (a4 : List Flip) (a5 : ℕ) (h0 : Keeps m z a0) : Keeps m z (State.hubPair a0 a1 a2 a3 a4 a5) := by
  unfold State.hubPair
  lift_lets
  (intro x; clear_value x)
  (intro x; refine keeps_cut (p := Keeps m z x) ?_ (fun hx => ?_); (on_goal 2 => clear_value x); (on_goal 1 => subst x))
  apply State.passTile_keeps (hm.sub rfl)
  apply State.passTile_keeps (hm.sub rfl)
  with_reducible assumption
  split
  lift_lets
  (intro x; refine keeps_cut (p := Keeps m z x.1) ?_ (fun hx => ?_); (on_goal 2 => clear_value x); (on_goal 1 => subst x))
  apply State.readTier1_keeps (hm.sub rfl)
  with_reducible assumption
  split
  apply State.movePair_keeps (hm.sub rfl)
  with_reducible assumption
  with_reducible assumption
  split
  apply State.movePair_keeps (hm.sub rfl)
  with_reducible assumption
  (with_reducible refine keeps_foldl (fun s a hs => ?_) ?_)
  apply State.reread_keeps (hm.sub rfl)
  with_reducible assumption
  with_reducible assumption

theorem State.hubMove_keeps (hm : Within [.now, .live, .run, .pgw, .sch, .que, .vsp, .mem, .prog, .mat, .lnk, .hlt, .hst, .sum, .outbox, .freeCtr] m) {a0 : State} (a1 : ℕ) (a2 : Move) (a3 : List Flip) (h0 : Keeps m z a0) : Keeps m z (State.hubMove a0 a1 a2 a3) := by
  unfold State.hubMove
  lift_lets
  (intro x; clear_value x)
  (intro x; refine keeps_cut (p := Keeps m z x) ?_ (fun hx => ?_); (on_goal 2 => clear_value x); (on_goal 1 => subst x))
  (with_reducible refine keeps_foldl (fun s a hs => ?_) ?_)
  apply State.hubPair_keeps (hm.sub rfl)
  with_reducible assumption
  with_reducible assumption
  split
  apply State.abandonMove_keeps (hm.sub rfl)
  with_reducible assumption
  with_reducible assumption

theorem State.hostMove_keeps (hm : Within [.live, .run, .pgw, .sch, .que, .vsp, .mem, .prog, .mat, .lnk, .hlt, .hst, .sum, .outbox, .freeCtr] m) {a0 : State} (a1 : ℕ) (a2 : Move) (a3 : List Flip) (h0 : Keeps m z a0) : Keeps m z (State.hostMove a0 a1 a2 a3) := by
  unfold State.hostMove
  lift_lets
  (intro x; clear_value x)
  (intro x; refine keeps_cut (p := Keeps m z x.1) ?_ (fun hx => ?_); (on_goal 2 => clear_value x); (on_goal 1 => subst x))
  (with_reducible refine keeps_foldl_fst (fun s a hs => ?_) ?_)
  lift_lets
  (intro x; refine keeps_cut (p := Keeps m z x.1) ?_ (fun hx => ?_); (on_goal 2 => clear_value x); (on_goal 1 => subst x))
  apply State.readTier1_keeps (hm.sub rfl)
  with_reducible assumption
  with_reducible assumption
  with_reducible assumption
  split
  apply State.switchMove_keeps (hm.sub rfl)
  with_reducible assumption
  apply State.abandonMove_keeps (hm.sub rfl)
  with_reducible assumption

theorem execPageCopyDone_keeps (hm : Within [.now, .live, .run, .pgw, .sch, .que, .vsp, .mem, .prog, .mat, .lnk, .hlt, .hst, .sum, .outbox, .freeCtr] m) (a0 : ℕ) (a1 : List Flip) {a2 : State} (h2 : Keeps m z a2) : KeepsN m z (execPageCopyDone a0 a1 a2) := by
  unfold execPageCopyDone
  split
  with_reducible apply keepsN_next
  with_reducible assumption
  split
  with_reducible apply keepsN_next
  with_reducible assumption
  with_reducible apply keepsN_next
  apply State.hostMove_keeps (hm.sub rfl)
  with_reducible assumption
  with_reducible apply keepsN_next
  split
  apply State.switchMove_keeps (hm.sub rfl)
  with_reducible assumption
  split
  with_reducible assumption
  apply State.hubMove_keeps (hm.sub rfl)
  with_reducible assumption
  with_reducible apply keepsN_next
  apply State.retireUnits_keeps (hm.sub rfl)
  split
  with_reducible assumption
  apply State.hubMove_keeps (hm.sub rfl)
  with_reducible assumption
  with_reducible apply keepsN_next
  apply State.retireUnits_keeps (hm.sub rfl)
  apply State.hubMove_keeps (hm.sub rfl)
  with_reducible assumption
  with_reducible apply keepsN_next
  apply State.retireUnits_keeps (hm.sub rfl)
  apply State.hubMove_keeps (hm.sub rfl)
  with_reducible assumption
  with_reducible apply keepsN_next
  apply State.retireUnits_keeps (hm.sub rfl)
  apply State.hubMove_keeps (hm.sub rfl)
  with_reducible assumption
  with_reducible apply keepsN_next
  apply State.retireUnits_keeps (hm.sub rfl)
  apply State.hubMove_keeps (hm.sub rfl)
  with_reducible assumption
  with_reducible apply keepsN_next
  apply State.retireUnits_keeps (hm.sub rfl)
  apply State.hubMove_keeps (hm.sub rfl)
  with_reducible assumption
  with_reducible apply keepsN_next
  apply State.retireUnits_keeps (hm.sub rfl)
  apply State.hubMove_keeps (hm.sub rfl)
  with_reducible assumption

/-! ### Transport -/

theorem State.answerCtx_keeps (hm : Within [.live, .run, .que, .lnk, .hst, .sum, .outbox] m) {a0 : State} (a1 : Tpkt) (h0 : Keeps m z a0) : KeepsQ m z (State.answerCtx a0 a1) := by
  unfold State.answerCtx
  apply State.packetCtx_keeps (hm.sub rfl)
  with_reducible assumption

theorem State.ackUpTo_keeps (hm : Within [.live, .run, .que, .lnk, .hst, .sum, .outbox] m) {a0 : State} (a1 : ℕ) (a2 : Qp) (a3 : ℕ) (h0 : Keeps m z a0) : Keeps m z (State.ackUpTo a0 a1 a2 a3) := by
  unfold State.ackUpTo
  lift_lets
  iterate 4 (intro x; clear_value x)
  (intro x; refine keeps_cut (p := Keeps m z x) ?_ (fun hx => ?_); (on_goal 2 => clear_value x); (on_goal 1 => subst x))
  apply State.putQp_keeps (hm.sub rfl)
  with_reducible assumption
  (intro (x : QueSt); subst x)
  split
  with_reducible assumption
  apply State.sendLater_keeps (hm.sub rfl)
  with_reducible refine keeps_mk (h := ?_)
  with_reducible assumption

theorem State.ackIn_keeps (hm : Within [.live, .run, .que, .lnk, .hst, .sum, .outbox] m) {a0 : State} (a1 : Tpkt) (h0 : Keeps m z a0) : Keeps m z (State.ackIn a0 a1) := by
  unfold State.ackIn
  split
  with_reducible refine keeps_mk (h := ?_)
  with_reducible assumption
  split
  (with_reducible refine keeps_of_failq (by with_reducible assumption) ?_)
  apply State.answerCtx_keeps (hm.sub rfl)
  with_reducible assumption
  apply State.ackUpTo_keeps (hm.sub rfl)
  (with_reducible refine keeps_of_okq (by with_reducible assumption) ?_)
  apply State.answerCtx_keeps (hm.sub rfl)
  with_reducible assumption

theorem execTransportAck_keeps (hm : Within [.live, .run, .que, .lnk, .hst, .sum, .outbox] m) (a0 : Tpkt) {a1 : State} (h1 : Keeps m z a1) : KeepsN m z (execTransportAck a0 a1) := by
  unfold execTransportAck
  with_reducible apply keepsN_next
  split
  apply State.ackIn_keeps (hm.sub rfl)
  with_reducible assumption
  with_reducible assumption

theorem State.nakIn_keeps (hm : Within [.live, .run, .pgw, .sch, .que, .vsp, .mem, .prog, .mat, .lnk, .sec, .hst, .sum, .outbox, .freeCtr] m) {a0 : State} (a1 : Tpkt) (h0 : Keeps m z a0) : Keeps m z (State.nakIn a0 a1) := by
  unfold State.nakIn
  split
  (with_reducible refine keeps_of_failq (by with_reducible assumption) ?_)
  apply State.answerCtx_keeps (hm.sub rfl)
  with_reducible assumption
  split
  split
  apply State.failQp_keeps (hm.sub rfl)
  (with_reducible refine keeps_of_okq (by with_reducible assumption) ?_)
  apply State.answerCtx_keeps (hm.sub rfl)
  with_reducible assumption
  (with_reducible refine keeps_of_okq (by with_reducible assumption) ?_)
  apply State.answerCtx_keeps (hm.sub rfl)
  with_reducible assumption
  split
  lift_lets
  (intro x; clear_value x)
  apply State.resendFrom_keeps (hm.sub rfl)
  apply State.putQp_keeps (hm.sub rfl)
  (with_reducible refine keeps_of_okq (by with_reducible assumption) ?_)
  apply State.answerCtx_keeps (hm.sub rfl)
  with_reducible assumption
  (with_reducible refine keeps_of_okq (by with_reducible assumption) ?_)
  apply State.answerCtx_keeps (hm.sub rfl)
  with_reducible assumption

theorem execTransportNak_keeps (hm : Within [.live, .run, .pgw, .sch, .que, .vsp, .mem, .prog, .mat, .lnk, .sec, .hst, .sum, .outbox, .freeCtr] m) (a0 : Tpkt) {a1 : State} (h1 : Keeps m z a1) : KeepsN m z (execTransportNak a0 a1) := by
  unfold execTransportNak
  with_reducible apply keepsN_next
  split
  apply State.nakIn_keeps (hm.sub rfl)
  with_reducible assumption
  with_reducible assumption

theorem State.notReadyIn_keeps (hm : Within [.live, .run, .que, .lnk, .hst, .sum, .outbox] m) {a0 : State} (a1 : Tpkt) (h0 : Keeps m z a0) : Keeps m z (State.notReadyIn a0 a1) := by
  unfold State.notReadyIn
  split
  (with_reducible refine keeps_of_failq (by with_reducible assumption) ?_)
  apply State.answerCtx_keeps (hm.sub rfl)
  with_reducible assumption
  split
  (with_reducible refine keeps_of_okq (by with_reducible assumption) ?_)
  apply State.answerCtx_keeps (hm.sub rfl)
  with_reducible assumption
  apply State.putQp_keeps (hm.sub rfl)
  (with_reducible refine keeps_of_okq (by with_reducible assumption) ?_)
  apply State.answerCtx_keeps (hm.sub rfl)
  with_reducible assumption

theorem execTransportNotReady_keeps (hm : Within [.live, .run, .que, .lnk, .hst, .sum, .outbox] m) (a0 : Tpkt) {a1 : State} (h1 : Keeps m z a1) : KeepsN m z (execTransportNotReady a0 a1) := by
  unfold execTransportNotReady
  with_reducible apply keepsN_next
  split
  apply State.notReadyIn_keeps (hm.sub rfl)
  with_reducible assumption
  with_reducible assumption

theorem execNotReadyWaitExpiry_keeps (hm : Within [.now, .live, .run, .que, .lnk, .hst, .sum, .outbox] m) (a0 : ℕ) {a1 : State} (h1 : Keeps m z a1) : KeepsN m z (execNotReadyWaitExpiry a0 a1) := by
  unfold execNotReadyWaitExpiry
  split
  with_reducible apply keepsN_next
  with_reducible assumption
  split
  with_reducible apply keepsN_next
  with_reducible assumption
  lift_lets
  (intro x; refine keeps_cut (p := Keeps m z x) ?_ (fun hx => ?_); (on_goal 2 => clear_value x); (on_goal 1 => subst x))
  apply State.advanceTo_keeps (hm.sub rfl)
  with_reducible assumption
  with_reducible apply keepsN_next
  apply State.resendFrom_keeps (hm.sub rfl)
  apply State.putQp_keeps (hm.sub rfl)
  with_reducible assumption

theorem State.responseIn_keeps (hm : Within [.live, .run, .pgw, .sch, .que, .vsp, .mem, .prog, .mat, .lnk, .sec, .hst, .sum, .outbox, .freeCtr] m) {a0 : State} (a1 : Tpkt) (h0 : Keeps m z a0) : Keeps m z (State.responseIn a0 a1) := by
  unfold State.responseIn
  split
  (with_reducible refine keeps_of_failq (by with_reducible assumption) ?_)
  apply State.answerCtx_keeps (hm.sub rfl)
  with_reducible assumption
  split
  (with_reducible refine keeps_of_okq (by with_reducible assumption) ?_)
  apply State.answerCtx_keeps (hm.sub rfl)
  with_reducible assumption
  split
  (with_reducible refine keeps_of_done (by with_reducible assumption) ?_)
  apply State.psnVerdict_keeps (hm.sub rfl)
  (with_reducible refine keeps_of_okq (by with_reducible assumption) ?_)
  apply State.answerCtx_keeps (hm.sub rfl)
  with_reducible assumption
  split
  (with_reducible refine keeps_of_accept (by with_reducible assumption) ?_)
  apply State.psnVerdict_keeps (hm.sub rfl)
  (with_reducible refine keeps_of_okq (by with_reducible assumption) ?_)
  apply State.answerCtx_keeps (hm.sub rfl)
  with_reducible assumption
  apply State.opAnswered_keeps (hm.sub rfl)
  apply State.dropOp_keeps (hm.sub rfl)
  (with_reducible refine keeps_of_accept (by with_reducible assumption) ?_)
  apply State.psnVerdict_keeps (hm.sub rfl)
  (with_reducible refine keeps_of_okq (by with_reducible assumption) ?_)
  apply State.answerCtx_keeps (hm.sub rfl)
  with_reducible assumption

theorem execTransportResponse_keeps (hm : Within [.live, .run, .pgw, .sch, .que, .vsp, .mem, .prog, .mat, .lnk, .sec, .hst, .sum, .outbox, .freeCtr] m) (a0 : Tpkt) {a1 : State} (h1 : Keeps m z a1) : KeepsN m z (execTransportResponse a0 a1) := by
  unfold execTransportResponse
  with_reducible apply keepsN_next
  split
  apply State.responseIn_keeps (hm.sub rfl)
  with_reducible assumption
  with_reducible assumption

theorem State.transportIn_keeps (hm : Within [.live, .run, .pgw, .sch, .que, .vsp, .mem, .prog, .mat, .lnk, .sec, .hst, .sum, .outbox, .freeCtr] m) {a0 : State} (a1 : Tpkt) (h0 : Keeps m z a0) : Keeps m z (State.transportIn a0 a1) := by
  unfold State.transportIn
  split
  apply State.responseIn_keeps (hm.sub rfl)
  with_reducible assumption
  split
  apply State.ackIn_keeps (hm.sub rfl)
  with_reducible assumption
  split
  apply State.nakIn_keeps (hm.sub rfl)
  with_reducible assumption
  apply State.notReadyIn_keeps (hm.sub rfl)
  with_reducible assumption

theorem State.holderRetry_keeps (hm : Within [.now, .live, .run, .que, .lnk, .hst, .sum, .outbox] m) {a0 : State} (a1 : ℕ) (h0 : Keeps m z a0) : Keeps m z (State.holderRetry a0 a1) := by
  unfold State.holderRetry
  split
  with_reducible assumption
  lift_lets
  (intro x; refine keeps_cut (p := Keeps m z x) ?_ (fun hx => ?_); (on_goal 2 => clear_value x); (on_goal 1 => subst x))
  apply State.advanceTo_keeps (hm.sub rfl)
  with_reducible assumption
  (intro x; clear_value x)
  (intro (x : QueSt); subst x)
  iterate 2 (intro x; clear_value x)
  split
  with_reducible refine keeps_mk (h := ?_)
  with_reducible assumption
  apply State.sendTransport_keeps (hm.sub rfl)
  with_reducible refine keeps_mk (h := ?_)
  with_reducible assumption

theorem execQpRetryTimeout_keeps (hm : Within [.now, .live, .run, .pgw, .sch, .que, .vsp, .mem, .prog, .mat, .lnk, .sec, .hst, .sum, .outbox, .freeCtr] m) (a0 : ℕ) {a1 : State} (h1 : Keeps m z a1) : KeepsN m z (execQpRetryTimeout a0 a1) := by
  unfold execQpRetryTimeout
  split
  with_reducible apply keepsN_next
  apply State.holderRetry_keeps (hm.sub rfl)
  with_reducible assumption
  split
  with_reducible apply keepsN_next
  with_reducible assumption
  split
  with_reducible apply keepsN_next
  with_reducible assumption
  lift_lets
  (intro x; refine keeps_cut (p := Keeps m z x) ?_ (fun hx => ?_); (on_goal 2 => clear_value x); (on_goal 1 => subst x))
  apply State.advanceTo_keeps (hm.sub rfl)
  with_reducible assumption
  (intro x; clear_value x)
  split
  with_reducible apply keepsN_next
  apply State.exhaust_keeps (hm.sub rfl)
  with_reducible assumption
  with_reducible apply keepsN_next
  apply State.resendFrom_keeps (hm.sub rfl)
  apply State.putQp_keeps (hm.sub rfl)
  with_reducible assumption

/-! ### QueueCmds -/

theorem State.queEnd_keeps (hm : Within [.live, .que] m) {a0 : State} (a1 : ℕ) (h0 : Keeps m z a0) : Keeps m z (State.queEnd a0 a1) := by
  unfold State.queEnd
  lift_lets
  (intro (x : QueSt); subst x)
  (intro x; refine keeps_cut (p := Keeps m z x) ?_ (fun hx => ?_); (on_goal 2 => clear_value x); (on_goal 1 => subst x))
  with_reducible refine keeps_mk (h := ?_)
  with_reducible assumption
  apply State.setLive_keeps (hm.sub rfl)
  apply State.putStatus_keeps (hm.sub rfl)
  with_reducible assumption

theorem State.putQueData_keeps (hm : Within [.live, .staged] m) {a0 : State} (a1 : List Byte) (h0 : Keeps m z a0) : Keeps m z (State.putQueData a0 a1) := by
  unfold State.putQueData
  (with_reducible refine keeps_foldl (fun s a hs => ?_) ?_)
  lift_lets
  (intro x; clear_value x)
  apply State.setStaged_keeps (hm.sub rfl)
  apply State.setLive_keeps (hm.sub rfl)
  with_reducible assumption
  with_reducible assumption

theorem State.queCreate_keeps (hm : Within [.live, .que] m) {a0 : State} (a1 : ℕ) (a2 : List Byte) (h0 : Keeps m z a0) : Keeps m z (State.queCreate a0 a1 a2) := by
  unfold State.queCreate
  lift_lets
  iterate 4 (intro x; clear_value x)
  (intro x; refine keeps_cut (p := Keeps m z x) ?_ (fun hx => ?_); (on_goal 2 => clear_value x); (on_goal 1 => subst x))
  apply State.putQp_keeps (hm.sub rfl)
  with_reducible assumption
  (intro x; clear_value x)
  (intro (x : QueSt); subst x)
  split
  apply State.queEnd_keeps (hm.sub rfl)
  with_reducible assumption
  split
  apply State.queEnd_keeps (hm.sub rfl)
  with_reducible assumption
  split
  apply State.queEnd_keeps (hm.sub rfl)
  with_reducible assumption
  apply State.queEnd_keeps (hm.sub rfl)
  apply State.refreshQue_keeps (hm.sub rfl)
  with_reducible refine keeps_mk (h := ?_)
  with_reducible assumption

theorem State.queModify_keeps (hm : Within [.live, .que] m) {a0 : State} (a1 : ℕ) (a2 : Qp) (a3 : List Byte) (h0 : Keeps m z a0) : Keeps m z (State.queModify a0 a1 a2 a3) := by
  unfold State.queModify
  lift_lets
  iterate 3 (intro x; clear_value x)
  (intro (x : QueSt); subst x)
  (intro x; refine keeps_cut (p := Keeps m z x) ?_ (fun hx => ?_); (on_goal 2 => clear_value x); (on_goal 1 => subst x))
  with_reducible refine keeps_mk (h := ?_)
  with_reducible assumption
  (intro x; clear_value x)
  split
  apply State.queEnd_keeps (hm.sub rfl)
  with_reducible assumption
  split
  apply State.queEnd_keeps (hm.sub rfl)
  with_reducible assumption
  split
  apply State.queEnd_keeps (hm.sub rfl)
  apply State.putQp_keeps (hm.sub rfl)
  with_reducible assumption
  apply State.queEnd_keeps (hm.sub rfl)
  apply State.putQp_keeps (hm.sub rfl)
  with_reducible assumption
  split
  apply State.queEnd_keeps (hm.sub rfl)
  with_reducible assumption
  apply State.queEnd_keeps (hm.sub rfl)
  apply State.putQp_keeps (hm.sub rfl)
  apply State.freeResponses_keeps (hm.sub rfl)
  with_reducible assumption
  split
  apply State.queEnd_keeps (hm.sub rfl)
  with_reducible assumption
  apply State.queEnd_keeps (hm.sub rfl)
  apply State.putQp_keeps (hm.sub rfl)
  apply State.freeResponses_keeps (hm.sub rfl)
  with_reducible assumption
  apply State.queEnd_keeps (hm.sub rfl)
  with_reducible assumption

theorem State.queDestroy_keeps (hm : Within [.live, .que, .hst, .outbox] m) {a0 : State} (a1 : ℕ) (a2 : Qp) (h0 : Keeps m z a0) : Keeps m z (State.queDestroy a0 a1 a2) := by
  unfold State.queDestroy
  split
  apply State.queEnd_keeps (hm.sub rfl)
  with_reducible assumption
  split
  apply State.queEnd_keeps (hm.sub rfl)
  with_reducible assumption
  split
  apply State.queEnd_keeps (hm.sub rfl)
  with_reducible assumption
  split
  apply State.queEnd_keeps (hm.sub rfl)
  with_reducible assumption
  lift_lets
  (intro x; refine keeps_cut (p := Keeps m z x) ?_ (fun hx => ?_); (on_goal 2 => clear_value x); (on_goal 1 => subst x))
  split
  with_reducible assumption
  apply State.hostWrite_keeps (hm.sub rfl)
  with_reducible assumption
  (intro (x : QueSt); subst x)
  apply State.queEnd_keeps (hm.sub rfl)
  apply State.refreshQue_keeps (hm.sub rfl)
  with_reducible refine keeps_mk (h := ?_)
  with_reducible assumption

theorem State.quePin_keeps (hm : Within [.live, .que] m) {a0 : State} (a1 : ℕ) (a2 : Qp) (a3 : Bool) (h0 : Keeps m z a0) : Keeps m z (State.quePin a0 a1 a2 a3) := by
  unfold State.quePin
  split
  apply State.queEnd_keeps (hm.sub rfl)
  with_reducible assumption
  split
  apply State.queEnd_keeps (hm.sub rfl)
  with_reducible assumption
  apply State.queEnd_keeps (hm.sub rfl)
  apply State.putQp_keeps (hm.sub rfl)
  with_reducible assumption

theorem State.queOnChip_keeps (hm : Within [.live, .staged, .que, .hst, .outbox] m) {a0 : State} (a1 : ℕ) (a2 : ℕ) (a3 : Qp) (a4 : List Byte) (h0 : Keeps m z a0) : Keeps m z (State.queOnChip a0 a1 a2 a3 a4) := by
  unfold State.queOnChip
  split
  apply State.queCreate_keeps (hm.sub rfl)
  with_reducible assumption
  split
  apply State.queEnd_keeps (hm.sub rfl)
  with_reducible assumption
  split
  apply State.queModify_keeps (hm.sub rfl)
  with_reducible assumption
  split
  apply State.queDestroy_keeps (hm.sub rfl)
  with_reducible assumption
  split
  apply State.queEnd_keeps (hm.sub rfl)
  apply State.putQueData_keeps (hm.sub rfl)
  with_reducible assumption
  apply State.quePin_keeps (hm.sub rfl)
  with_reducible assumption

theorem State.queRegister_keeps (hm : Within [.live, .que] m) {a0 : State} (a1 : ℕ) (a2 : List Byte) (h0 : Keeps m z a0) : Keeps m z (State.queRegister a0 a1 a2) := by
  unfold State.queRegister
  lift_lets
  (intro x; clear_value x)
  (intro (x : QueSt); subst x)
  split
  apply State.queEnd_keeps (hm.sub rfl)
  with_reducible assumption
  split
  apply State.queEnd_keeps (hm.sub rfl)
  with_reducible assumption
  split
  apply State.queEnd_keeps (hm.sub rfl)
  with_reducible assumption
  apply State.queEnd_keeps (hm.sub rfl)
  with_reducible refine keeps_mk (h := ?_)
  with_reducible assumption

theorem State.queDeregister_keeps (hm : Within [.live, .que] m) {a0 : State} (a1 : ℕ) (h0 : Keeps m z a0) : Keeps m z (State.queDeregister a0 a1) := by
  unfold State.queDeregister
  split
  apply State.queEnd_keeps (hm.sub rfl)
  with_reducible assumption
  split
  apply State.queEnd_keeps (hm.sub rfl)
  with_reducible assumption
  split
  apply State.queEnd_keeps (hm.sub rfl)
  with_reducible assumption
  apply State.queEnd_keeps (hm.sub rfl)
  with_reducible refine keeps_mk (h := ?_)
  with_reducible assumption

theorem State.queCommand_keeps (hm : Within [.live, .staged, .run, .que, .lnk, .hst, .sum, .outbox] m) {a0 : State} (h0 : Keeps m z a0) : Keeps m z (State.queCommand a0) := by
  unfold State.queCommand
  split
  apply State.raiseBit_keeps (hm.sub rfl)
  with_reducible assumption
  lift_lets
  iterate 5 (intro x; clear_value x)
  (intro (x : QueSt); subst x)
  split
  with_reducible assumption
  split
  apply State.queRegister_keeps (hm.sub rfl)
  with_reducible assumption
  split
  apply State.queDeregister_keeps (hm.sub rfl)
  with_reducible assumption
  split
  apply State.queEnd_keeps (hm.sub rfl)
  with_reducible assumption
  split
  apply State.queOnChip_keeps (hm.sub rfl)
  apply State.touchQp_keeps (hm.sub rfl)
  with_reducible assumption
  split
  apply State.queOnChip_keeps (hm.sub rfl)
  with_reducible assumption
  split
  apply State.queEnd_keeps (hm.sub rfl)
  with_reducible assumption
  apply State.startFetch_keeps (hm.sub rfl)
  apply State.setStatus_keeps (hm.sub rfl)
  with_reducible refine keeps_mk (h := ?_)
  with_reducible assumption

theorem State.queCommandResume_keeps (hm : Within [.live, .staged, .que, .hst, .outbox] m) {a0 : State} (a1 : ℕ) (h0 : Keeps m z a0) : Keeps m z (State.queCommandResume a0 a1) := by
  unfold State.queCommandResume
  split
  with_reducible assumption
  split
  with_reducible assumption
  split
  apply State.queOnChip_keeps (hm.sub rfl)
  with_reducible assumption
  apply State.queEnd_keeps (hm.sub rfl)
  with_reducible assumption

theorem State.contextFailed_keeps (hm : Within [.live, .run, .que, .lnk, .hst, .sum, .outbox] m) {a0 : State} (a1 : ℕ) (h0 : Keeps m z a0) : Keeps m z (State.contextFailed a0 a1) := by
  unfold State.contextFailed
  lift_lets
  (intro (x : QueSt); subst x)
  (intro x; refine keeps_cut (p := Keeps m z x) ?_ (fun hx => ?_); (on_goal 2 => clear_value x); (on_goal 1 => subst x))
  apply State.unreachable_keeps (hm.sub rfl)
  with_reducible refine keeps_mk (h := ?_)
  with_reducible assumption
  split
  split
  apply State.queEnd_keeps (hm.sub rfl)
  with_reducible assumption
  with_reducible assumption
  with_reducible assumption

theorem State.retryFetches_keeps (hm : Within [.live, .run, .que, .lnk, .hst, .sum, .outbox] m) {a0 : State} (h0 : Keeps m z a0) : Keeps m z (State.retryFetches a0) := by
  unfold State.retryFetches
  (with_reducible refine keeps_foldl (fun s a hs => ?_) ?_)
  lift_lets
  (intro x; clear_value x)
  (intro (x : QueSt); subst x)
  split
  split
  with_reducible assumption
  apply State.contextFailed_keeps (hm.sub rfl)
  with_reducible refine keeps_mk (h := ?_)
  with_reducible assumption
  split
  apply State.startEvict_keeps (hm.sub rfl)
  with_reducible assumption
  split
  lift_lets
  (intro (x : QueSt); subst x)
  with_reducible refine keeps_mk (h := ?_)
  (with_reducible refine keeps_of_some (by with_reducible assumption) ?_)
  apply State.hostRead_keeps (hm.sub rfl)
  with_reducible assumption
  with_reducible assumption
  with_reducible assumption

theorem State.queRow_keeps (hm : Within [.live, .staged, .run, .que, .lnk, .hst, .sum, .outbox] m) {a0 : State} (a1 : ℕ) (a2 : ℕ) (a3 : Option (List Byte)) (h0 : Keeps m z a0) : Keeps m z (State.queRow a0 a1 a2 a3) := by
  unfold State.queRow
  split
  with_reducible assumption
  split
  apply State.raiseBit_keeps (hm.sub rfl)
  with_reducible assumption
  lift_lets
  (intro x; refine keeps_cut (p := Keeps m z x) ?_ (fun hx => ?_); (on_goal 2 => clear_value x); (on_goal 1 => subst x))
  apply State.setLive_keeps (hm.sub rfl)
  apply State.setStaged_keeps (hm.sub rfl)
  with_reducible assumption
  (intro x; refine keeps_cut (p := Keeps m z x) ?_ (fun hx => ?_); (on_goal 2 => clear_value x); (on_goal 1 => subst x))
  apply State.setLive_keeps (hm.sub rfl)
  apply State.setStaged_keeps (hm.sub rfl)
  with_reducible assumption
  (intro x; refine keeps_cut (p := Keeps m z x) ?_ (fun hx => ?_); (on_goal 2 => clear_value x); (on_goal 1 => subst x))
  split
  apply State.putQueData_keeps (hm.sub rfl)
  with_reducible assumption
  with_reducible assumption
  apply State.queCommand_keeps (hm.sub rfl)
  with_reducible assumption

theorem execCreateQp_keeps (hm : Within [.live, .staged, .run, .que, .lnk, .hst, .sum, .outbox] m) (a0 : ℕ) (a1 : List Byte) {a2 : State} (h2 : Keeps m z a2) : KeepsN m z (execCreateQp a0 a1 a2) := by
  unfold execCreateQp
  with_reducible apply keepsN_next
  apply State.queRow_keeps (hm.sub rfl)
  with_reducible assumption

theorem execModifyQp_keeps (hm : Within [.live, .staged, .run, .que, .lnk, .hst, .sum, .outbox] m) (a0 : ℕ) (a1 : List Byte) {a2 : State} (h2 : Keeps m z a2) : KeepsN m z (execModifyQp a0 a1 a2) := by
  unfold execModifyQp
  with_reducible apply keepsN_next
  apply State.queRow_keeps (hm.sub rfl)
  with_reducible assumption

theorem execDestroyQp_keeps (hm : Within [.live, .staged, .run, .que, .lnk, .hst, .sum, .outbox] m) (a0 : ℕ) {a1 : State} (h1 : Keeps m z a1) : KeepsN m z (execDestroyQp a0 a1) := by
  unfold execDestroyQp
  with_reducible apply keepsN_next
  apply State.queRow_keeps (hm.sub rfl)
  with_reducible assumption

theorem execReadQp_keeps (hm : Within [.live, .staged, .run, .que, .lnk, .hst, .sum, .outbox] m) (a0 : ℕ) {a1 : State} (h1 : Keeps m z a1) : KeepsN m z (execReadQp a0 a1) := by
  unfold execReadQp
  with_reducible apply keepsN_next
  apply State.queRow_keeps (hm.sub rfl)
  with_reducible assumption

theorem execRegisterRegion_keeps (hm : Within [.live, .staged, .run, .que, .lnk, .hst, .sum, .outbox] m) (a0 : ℕ) (a1 : List Byte) {a2 : State} (h2 : Keeps m z a2) : KeepsN m z (execRegisterRegion a0 a1 a2) := by
  unfold execRegisterRegion
  with_reducible apply keepsN_next
  apply State.queRow_keeps (hm.sub rfl)
  with_reducible assumption

theorem execDeregisterRegion_keeps (hm : Within [.live, .staged, .run, .que, .lnk, .hst, .sum, .outbox] m) (a0 : ℕ) {a1 : State} (h1 : Keeps m z a1) : KeepsN m z (execDeregisterRegion a0 a1) := by
  unfold execDeregisterRegion
  with_reducible apply keepsN_next
  apply State.queRow_keeps (hm.sub rfl)
  with_reducible assumption

theorem execPin_keeps (hm : Within [.live, .staged, .run, .que, .lnk, .hst, .sum, .outbox] m) (a0 : ℕ) {a1 : State} (h1 : Keeps m z a1) : KeepsN m z (execPin a0 a1) := by
  unfold execPin
  with_reducible apply keepsN_next
  apply State.queRow_keeps (hm.sub rfl)
  with_reducible assumption

theorem execUnpin_keeps (hm : Within [.live, .staged, .run, .que, .lnk, .hst, .sum, .outbox] m) (a0 : ℕ) {a1 : State} (h1 : Keeps m z a1) : KeepsN m z (execUnpin a0 a1) := by
  unfold execUnpin
  with_reducible apply keepsN_next
  apply State.queRow_keeps (hm.sub rfl)
  with_reducible assumption

end Sys2Proof.Machine
end

