-- ==== Sys2Proof/Laws/Keeps/Engines.lean ====
section
/-!
SUPPORT. What the operations of Machine/Steps, Links, Match, Programs, HostOps keep: the parts of the state outside the list each lemma names, the queue, and the invariant.
-/

namespace Sys2Proof.Machine

open Sys2Proof

set_option Elab.async false

variable {m : List Blk} {z : State}

/-! ### Steps -/

theorem State.stepCore_keeps (hm : Within [.prog] m) {a0 : State} (a1 : ℕ) (a2 : ℕ) (a3 : CoreAt → CoreCtx) (h0 : Keeps m z a0) : Keeps m z (State.stepCore a0 a1 a2 a3) := by
  unfold State.stepCore
  split
  with_reducible assumption
  apply State.putCore_keeps (hm.sub rfl)
  with_reducible assumption

theorem State.stepElems_keeps (hm : Within [.prog] m) {a0 : State} (a1 : ℕ) (a2 : ℕ) (a3 : CoreAt → List ℕ) (h0 : Keeps m z a0) : Keeps m z (State.stepElems a0 a1 a2 a3) := by
  unfold State.stepElems
  apply State.stepCore_keeps (hm.sub rfl)
  with_reducible assumption

theorem State.stepPair_keeps (hm : Within [.prog] m) {a0 : State} (a1 : ℕ) (a2 : ℕ) (a3 : Fr → Fr → Fr) (h0 : Keeps m z a0) : Keeps m z (State.stepPair a0 a1 a2 a3) := by
  unfold State.stepPair
  apply State.stepElems_keeps (hm.sub rfl)
  with_reducible assumption

theorem State.stepFunc_keeps (hm : Within [.prog] m) {a0 : State} (a1 : ℕ) (a2 : ℕ) (a3 : ℕ) (h0 : Keeps m z a0) : Keeps m z (State.stepFunc a0 a1 a2 a3) := by
  unfold State.stepFunc
  split
  with_reducible assumption
  apply State.stepElems_keeps (hm.sub rfl)
  with_reducible assumption

theorem execStepIn_keeps (hm : Within [.prog] m) (a0 : ℕ) (a1 : ℕ) {a2 : State} (h2 : Keeps m z a2) : KeepsN m z (execStepIn a0 a1 a2) := by
  unfold execStepIn
  with_reducible apply keepsN_next
  split
  with_reducible assumption
  apply State.stepCore_keeps (hm.sub rfl)
  with_reducible assumption

theorem execStepOut_keeps (hm : Within [.prog] m) (a0 : ℕ) (a1 : ℕ) {a2 : State} (h2 : Keeps m z a2) : KeepsN m z (execStepOut a0 a1 a2) := by
  unfold execStepOut
  with_reducible apply keepsN_next
  split
  with_reducible assumption
  split
  with_reducible assumption
  lift_lets
  iterate 2 (intro x; clear_value x)
  apply State.putCore_keeps (hm.sub rfl)
  apply State.putProg_keeps (hm.sub rfl)
  with_reducible assumption

theorem execMatmul_keeps (hm : Within [.prog, .freeCtr] m) (a0 : ℕ) (a1 : ℕ) {a2 : State} (h2 : Keeps m z a2) : KeepsN m z (execMatmul a0 a1 a2) := by
  unfold execMatmul
  with_reducible apply keepsN_next
  split
  with_reducible assumption
  split
  with_reducible assumption
  lift_lets
  (intro x; refine keeps_cut (p := Keeps m z x.2) ?_ (fun hx => ?_); (on_goal 2 => clear_value x); (on_goal 1 => subst x))
  apply State.fresh_keeps (hm.sub rfl)
  with_reducible assumption
  (intro x; clear_value x)
  apply State.putCore_keeps (hm.sub rfl)
  with_reducible assumption

theorem execAdd_keeps (hm : Within [.prog] m) (a0 : ℕ) (a1 : ℕ) {a2 : State} (h2 : Keeps m z a2) : KeepsN m z (execAdd a0 a1 a2) := by
  unfold execAdd
  with_reducible apply keepsN_next
  split
  with_reducible assumption
  apply State.stepPair_keeps (hm.sub rfl)
  with_reducible assumption

theorem execMul_keeps (hm : Within [.prog] m) (a0 : ℕ) (a1 : ℕ) {a2 : State} (h2 : Keeps m z a2) : KeepsN m z (execMul a0 a1 a2) := by
  unfold execMul
  with_reducible apply keepsN_next
  split
  with_reducible assumption
  apply State.stepPair_keeps (hm.sub rfl)
  with_reducible assumption

theorem execRmsnorm_keeps (hm : Within [.prog] m) (a0 : ℕ) (a1 : ℕ) {a2 : State} (h2 : Keeps m z a2) : KeepsN m z (execRmsnorm a0 a1 a2) := by
  unfold execRmsnorm
  with_reducible apply keepsN_next
  split
  with_reducible assumption
  apply State.stepElems_keeps (hm.sub rfl)
  with_reducible assumption

theorem execLayernorm_keeps (hm : Within [.prog] m) (a0 : ℕ) (a1 : ℕ) {a2 : State} (h2 : Keeps m z a2) : KeepsN m z (execLayernorm a0 a1 a2) := by
  unfold execLayernorm
  with_reducible apply keepsN_next
  split
  with_reducible assumption
  apply State.stepElems_keeps (hm.sub rfl)
  with_reducible assumption

theorem execFuncSigmoid_keeps (hm : Within [.prog] m) (a0 : ℕ) (a1 : ℕ) {a2 : State} (h2 : Keeps m z a2) : KeepsN m z (execFuncSigmoid a0 a1 a2) := by
  unfold execFuncSigmoid
  with_reducible apply keepsN_next
  split
  with_reducible assumption
  apply State.stepFunc_keeps (hm.sub rfl)
  with_reducible assumption

theorem execFuncTanh_keeps (hm : Within [.prog] m) (a0 : ℕ) (a1 : ℕ) {a2 : State} (h2 : Keeps m z a2) : KeepsN m z (execFuncTanh a0 a1 a2) := by
  unfold execFuncTanh
  with_reducible apply keepsN_next
  split
  with_reducible assumption
  apply State.stepFunc_keeps (hm.sub rfl)
  with_reducible assumption

theorem execFuncGelu_keeps (hm : Within [.prog] m) (a0 : ℕ) (a1 : ℕ) {a2 : State} (h2 : Keeps m z a2) : KeepsN m z (execFuncGelu a0 a1 a2) := by
  unfold execFuncGelu
  with_reducible apply keepsN_next
  split
  with_reducible assumption
  apply State.stepFunc_keeps (hm.sub rfl)
  with_reducible assumption

theorem execFuncSilu_keeps (hm : Within [.prog] m) (a0 : ℕ) (a1 : ℕ) {a2 : State} (h2 : Keeps m z a2) : KeepsN m z (execFuncSilu a0 a1 a2) := by
  unfold execFuncSilu
  with_reducible apply keepsN_next
  split
  with_reducible assumption
  apply State.stepFunc_keeps (hm.sub rfl)
  with_reducible assumption

theorem execFuncExp2_keeps (hm : Within [.prog] m) (a0 : ℕ) (a1 : ℕ) {a2 : State} (h2 : Keeps m z a2) : KeepsN m z (execFuncExp2 a0 a1 a2) := by
  unfold execFuncExp2
  with_reducible apply keepsN_next
  split
  with_reducible assumption
  apply State.stepFunc_keeps (hm.sub rfl)
  with_reducible assumption

theorem State.stepQuant_keeps (hm : Within [.run, .prog] m) {a0 : State} (a1 : ℕ) (a2 : ℕ) (a3 : List ℕ → ℕ) (h0 : Keeps m z a0) : Keeps m z (State.stepQuant a0 a1 a2 a3) := by
  unfold State.stepQuant
  split
  with_reducible assumption
  lift_lets
  iterate 4 (intro x; clear_value x)
  (intro x; refine keeps_cut (p := Keeps m z x) ?_ (fun hx => ?_); (on_goal 2 => clear_value x); (on_goal 1 => subst x))
  apply State.bump_keeps (hm.sub rfl)
  with_reducible assumption
  apply State.putCore_keeps (hm.sub rfl)
  with_reducible assumption

theorem execQuantDyn_keeps (hm : Within [.run, .prog] m) (a0 : ℕ) (a1 : ℕ) {a2 : State} (h2 : Keeps m z a2) : KeepsN m z (execQuantDyn a0 a1 a2) := by
  unfold execQuantDyn
  with_reducible apply keepsN_next
  split
  with_reducible assumption
  apply State.stepQuant_keeps (hm.sub rfl)
  with_reducible assumption

theorem execQuantStatic_keeps (hm : Within [.run, .prog] m) (a0 : ℕ) (a1 : ℕ) {a2 : State} (h2 : Keeps m z a2) : KeepsN m z (execQuantStatic a0 a1 a2) := by
  unfold execQuantStatic
  with_reducible apply keepsN_next
  split
  with_reducible assumption
  apply State.stepQuant_keeps (hm.sub rfl)
  with_reducible assumption

theorem execRope_keeps (hm : Within [.live, .run, .pgw, .sch, .vsp, .mem, .prog, .mat, .freeCtr] m) (a0 : ℕ) (a1 : ℕ) {a2 : State} (h2 : Keeps m z a2) : KeepsN m z (execRope a0 a1 a2) := by
  unfold execRope
  with_reducible apply keepsN_next
  split
  with_reducible assumption
  split
  with_reducible assumption
  split
  apply State.failRun_keeps (hm.sub rfl)
  with_reducible assumption
  apply State.stallRun_keeps (hm.sub rfl)
  with_reducible assumption
  lift_lets
  (intro x; clear_value x)
  (intro x; refine keeps_cut (p := Keeps m z x.2) ?_ (fun hx => ?_); (on_goal 2 => clear_value x); (on_goal 1 => subst x))
  apply State.fresh_keeps (hm.sub rfl)
  with_reducible assumption
  iterate 2 (intro x; clear_value x)
  apply State.putCore_keeps (hm.sub rfl)
  with_reducible assumption

theorem execSync_keeps (hm : Within [.prog] m) (a0 : ℕ) (a1 : ℕ) {a2 : State} (h2 : Keeps m z a2) : KeepsN m z (execSync a0 a1 a2) := by
  unfold execSync
  with_reducible apply keepsN_next
  split
  with_reducible assumption
  split
  with_reducible assumption
  lift_lets
  iterate 2 (intro x; clear_value x)
  (intro x; refine keeps_cut (p := Keeps m z x) ?_ (fun hx => ?_); (on_goal 2 => clear_value x); (on_goal 1 => subst x))
  apply State.putCore_keeps (hm.sub rfl)
  with_reducible assumption
  (intro x; clear_value x)
  (with_reducible refine keeps_foldl (fun s a hs => ?_) ?_)
  apply State.putCore_keeps (hm.sub rfl)
  with_reducible assumption
  with_reducible assumption

theorem State.matchSearch_keeps (hm : Within [.live, .mat, .hst, .sum, .outbox] m) {a0 : State} (a1 : ℕ) (a2 : Image) (a3 : List Byte) (h0 : Keeps m z a0) : Keeps m z (State.matchSearch a0 a1 a2 a3).2 := by
  unfold State.matchSearch
  split
  apply State.imageSearch_keeps (hm.sub rfl)
  with_reducible assumption
  with_reducible assumption

theorem State.cascadeStart_keeps (hm : Within [.mat, .outbox] m) {a0 : State} (a1 : ℕ) (a2 : ℕ) (a3 : ℕ) (a4 : List Byte) (a5 : Option ℕ) (h0 : Keeps m z a0) : Keeps m z (State.cascadeStart a0 a1 a2 a3 a4 a5) := by
  unfold State.cascadeStart
  lift_lets
  iterate 2 (intro x; clear_value x)
  (intro (x : MatSt); subst x)
  (intro x; refine keeps_cut (p := Keeps m z x) ?_ (fun hx => ?_); (on_goal 2 => clear_value x); (on_goal 1 => subst x))
  with_reducible refine keeps_mk (h := ?_)
  with_reducible assumption
  split
  apply State.emit_keeps (hm.sub rfl)
  with_reducible assumption
  with_reducible assumption

theorem State.matchRecord_keeps (hm : Within [.prog] m) {a0 : State} (a1 : ℕ) (a2 : ℕ) (a3 : Found) (h0 : Keeps m z a0) : Keeps m z (State.matchRecord a0 a1 a2 a3) := by
  unfold State.matchRecord
  apply State.stepCore_keeps (hm.sub rfl)
  with_reducible assumption

theorem execMatchStep_keeps (hm : Within [.live, .run, .pgw, .sch, .vsp, .mem, .prog, .mat, .hst, .sum, .outbox] m) (a0 : ℕ) (a1 : ℕ) {a2 : State} (h2 : Keeps m z a2) : KeepsN m z (execMatchStep a0 a1 a2) := by
  unfold execMatchStep
  with_reducible apply keepsN_next
  split
  with_reducible assumption
  split
  with_reducible assumption
  lift_lets
  iterate 2 (intro x; clear_value x)
  split
  apply State.failRun_keeps (hm.sub rfl)
  with_reducible assumption
  apply State.stallRun_keeps (hm.sub rfl)
  with_reducible assumption
  split
  apply State.matchRecord_keeps (hm.sub rfl)
  with_reducible assumption
  lift_lets
  (intro x; refine keeps_cut (p := Keeps m z x.2) ?_ (fun hx => ?_); (on_goal 2 => clear_value x); (on_goal 1 => subst x))
  apply State.matchSearch_keeps (hm.sub rfl)
  with_reducible assumption
  split
  apply State.matchRecord_keeps (hm.sub rfl)
  with_reducible assumption
  split
  with_reducible assumption
  apply State.cascadeStart_keeps (hm.sub rfl)
  with_reducible assumption

theorem execSeg_keeps (hm : Within [.prog] m) (a0 : ℕ) (a1 : ℕ) {a2 : State} (h2 : Keeps m z a2) : KeepsN m z (execSeg a0 a1 a2) := by
  unfold execSeg
  with_reducible apply keepsN_next
  split
  with_reducible assumption
  apply State.stepCore_keeps (hm.sub rfl)
  with_reducible assumption

theorem execEndStep_keeps (hm : Within [.prog] m) (a0 : ℕ) (a1 : ℕ) {a2 : State} (h2 : Keeps m z a2) : KeepsN m z (execEndStep a0 a1 a2) := by
  unfold execEndStep
  with_reducible apply keepsN_next
  split
  with_reducible assumption
  apply State.stepCore_keeps (hm.sub rfl)
  with_reducible assumption

theorem State.finishRun_keeps (hm : Within [.live, .run, .pgw, .sch, .que, .vsp, .mem, .prog, .mat, .lnk, .sec, .hst, .sum, .outbox, .freeCtr] m) {a0 : State} (a1 : ProgRun) (h0 : Keeps m z a0) : Keeps m z (State.finishRun a0 a1) := by
  unfold State.finishRun
  split
  apply State.endProgram_keeps (hm.sub rfl)
  with_reducible assumption
  lift_lets
  (intro x; refine keeps_cut (p := Keeps m z x) ?_ (fun hx => ?_); (on_goal 2 => clear_value x); (on_goal 1 => subst x))
  apply State.bump_keeps (hm.sub rfl)
  with_reducible assumption
  iterate 2 (intro x; clear_value x)
  split
  apply State.inOrder_keeps (hm.sub rfl)
  apply State.dropRun_keeps (hm.sub rfl)
  with_reducible assumption
  apply State.completeRun_keeps (hm.sub rfl)
  apply State.endProgram_keeps (hm.sub rfl)
  with_reducible assumption

theorem execSegmentEnd_keeps (hm : Within [.live, .run, .pgw, .sch, .que, .vsp, .mem, .prog, .mat, .lnk, .sec, .hst, .sum, .outbox, .freeCtr] m) (a0 : ℕ) {a1 : State} (h1 : Keeps m z a1) : KeepsN m z (execSegmentEnd a0 a1) := by
  unfold execSegmentEnd
  split
  with_reducible apply keepsN_next
  with_reducible assumption
  split
  with_reducible apply keepsN_next
  with_reducible assumption
  lift_lets
  (intro x; refine keeps_cut (p := Keeps m z x) ?_ (fun hx => ?_); (on_goal 2 => clear_value x); (on_goal 1 => subst x))
  apply State.bump_keeps (hm.sub rfl)
  with_reducible assumption
  (intro x; clear_value x)
  (intro x; refine keeps_cut (p := Keeps m z x) ?_ (fun hx => ?_); (on_goal 2 => clear_value x); (on_goal 1 => subst x))
  apply State.putProg_keeps (hm.sub rfl)
  with_reducible assumption
  with_reducible apply keepsN_next
  split
  with_reducible assumption
  apply State.finishRun_keeps (hm.sub rfl)
  with_reducible assumption

/-! ### Links -/

theorem State.refreshHstStatus_keeps (hm : Within [.live] m) {a0 : State} (h0 : Keeps m z a0) : Keeps m z (State.refreshHstStatus a0) := by
  unfold State.refreshHstStatus
  apply State.putStatus_keeps (hm.sub rfl)
  with_reducible assumption

theorem State.hostResend_keeps (hm : Within [.run, .outbox] m) {a0 : State} (h0 : Keeps m z a0) : Keeps m z (State.hostResend a0) := by
  unfold State.hostResend
  (with_reducible refine keeps_foldl (fun s a hs => ?_) ?_)
  apply State.bump_keeps (hm.sub rfl)
  apply State.emit_keeps (hm.sub rfl)
  with_reducible assumption
  with_reducible assumption

theorem State.setHostState_keeps (hm : Within [.live, .run, .hst, .sum, .outbox] m) {a0 : State} (a1 : ℕ) (h0 : Keeps m z a0) : Keeps m z (State.setHostState a0 a1) := by
  unfold State.setHostState
  lift_lets
  (intro x; clear_value x)
  (intro (x : HstSt); subst x)
  (intro x; refine keeps_cut (p := Keeps m z x) ?_ (fun hx => ?_); (on_goal 2 => clear_value x); (on_goal 1 => subst x))
  with_reducible refine keeps_mk (h := ?_)
  with_reducible assumption
  (intro x; refine keeps_cut (p := Keeps m z x) ?_ (fun hx => ?_); (on_goal 2 => clear_value x); (on_goal 1 => subst x))
  split
  apply State.raiseBit_keeps (hm.sub rfl)
  with_reducible assumption
  with_reducible assumption
  (intro x; refine keeps_cut (p := Keeps m z x) ?_ (fun hx => ?_); (on_goal 2 => clear_value x); (on_goal 1 => subst x))
  split
  apply State.raiseBit_keeps (hm.sub rfl)
  with_reducible assumption
  with_reducible assumption
  (intro (x : HstSt); subst x)
  (intro x; refine keeps_cut (p := Keeps m z x) ?_ (fun hx => ?_); (on_goal 2 => clear_value x); (on_goal 1 => subst x))
  split
  with_reducible refine keeps_mk (h := ?_)
  with_reducible assumption
  with_reducible assumption
  (intro x; refine keeps_cut (p := Keeps m z x) ?_ (fun hx => ?_); (on_goal 2 => clear_value x); (on_goal 1 => subst x))
  apply State.refreshHstStatus_keeps (hm.sub rfl)
  with_reducible assumption
  (intro (x : HstSt); subst x)
  split
  apply State.hostFlush_keeps (hm.sub rfl)
  apply State.hostResend_keeps (hm.sub rfl)
  with_reducible refine keeps_mk (h := ?_)
  with_reducible assumption
  with_reducible assumption

theorem State.hostReplay_keeps (hm : Within [.live, .run, .hst, .sum, .outbox] m) {a0 : State} (h0 : Keeps m z a0) : Keeps m z (State.hostReplay a0) := by
  unfold State.hostReplay
  lift_lets
  (intro (x : HstSt); subst x)
  split
  with_reducible assumption
  split
  apply State.setHostState_keeps (hm.sub rfl)
  with_reducible refine keeps_mk (h := ?_)
  with_reducible assumption
  apply State.hostResend_keeps (hm.sub rfl)
  with_reducible refine keeps_mk (h := ?_)
  with_reducible assumption

theorem State.hostFec_keeps (hm : Within [.live, .run, .hst, .sum, .outbox] m) {a0 : State} (a1 : ℕ) (h0 : Keeps m z a0) : Keeps m z (State.hostFec a0 a1) := by
  unfold State.hostFec
  lift_lets
  (intro x; clear_value x)
  (intro (x : HstSt); subst x)
  (intro x; refine keeps_cut (p := Keeps m z x) ?_ (fun hx => ?_); (on_goal 2 => clear_value x); (on_goal 1 => subst x))
  with_reducible refine keeps_mk (h := ?_)
  with_reducible assumption
  split
  apply State.setHostState_keeps (hm.sub rfl)
  with_reducible assumption
  with_reducible assumption

theorem execLinkSignalDetect_keeps (hm : Within [.live, .run, .pend, .parity, .lnk, .hlt, .hst, .sum, .outbox] m) (a0 : LinkRef) {a1 : State} (h1 : Keeps m z a1) : KeepsN m z (execLinkSignalDetect a0 a1) := by
  unfold execLinkSignalDetect
  split
  with_reducible apply keepsN_next
  split
  apply State.setLinkState_keeps (hm.sub rfl)
  with_reducible assumption
  with_reducible assumption
  with_reducible apply keepsN_next
  split
  apply State.setHostState_keeps (hm.sub rfl)
  with_reducible assumption
  with_reducible assumption

theorem State.startShake_keeps (hm : Within [.lnk, .sec, .outbox] m) {a0 : State} (a1 : ℕ) (h0 : Keeps m z a0) : Keeps m z (State.startShake a0 a1) := by
  unfold State.startShake
  lift_lets
  (intro x; refine keeps_cut (p := Keeps m z x.2) ?_ (fun hx => ?_); (on_goal 2 => clear_value x); (on_goal 1 => subst x))
  apply State.randomBytes_keeps (hm.sub rfl)
  with_reducible assumption
  (intro x; have _ : Keeps m z x := (by subst x; with_reducible assumption); subst x)
  iterate 4 (intro x; clear_value x)
  apply State.emit_keeps (hm.sub rfl)
  apply State.setLink_keeps (hm.sub rfl)
  with_reducible assumption

theorem State.linkAligns_keeps (hm : Within [.live, .run, .pend, .parity, .lnk, .hlt, .sec, .hst, .sum, .outbox] m) {a0 : State} (a1 : ℕ) (h0 : Keeps m z a0) : Keeps m z (State.linkAligns a0 a1) := by
  unfold State.linkAligns
  lift_lets
  (intro x; refine keeps_cut (p := Keeps m z x) ?_ (fun hx => ?_); (on_goal 2 => clear_value x); (on_goal 1 => subst x))
  apply State.setLinkState_keeps (hm.sub rfl)
  with_reducible assumption
  split
  apply State.startShake_keeps (hm.sub rfl)
  with_reducible assumption
  with_reducible assumption

theorem execLinkTrainDone_keeps (hm : Within [.live, .run, .pend, .parity, .lnk, .hlt, .sec, .hst, .sum, .outbox] m) (a0 : LinkRef) (a1 : Bool) (a2 : Bool) {a3 : State} (h3 : Keeps m z a3) : KeepsN m z (execLinkTrainDone a0 a1 a2 a3) := by
  unfold execLinkTrainDone
  split
  lift_lets
  (intro x; clear_value x)
  with_reducible apply keepsN_next
  split
  apply State.linkAligns_keeps (hm.sub rfl)
  with_reducible assumption
  with_reducible assumption
  lift_lets
  iterate 2 (intro x; clear_value x)
  (intro x; refine keeps_cut (p := Keeps m z x) ?_ (fun hx => ?_); (on_goal 2 => clear_value x); (on_goal 1 => subst x))
  split
  apply State.raiseBit_keeps (hm.sub rfl)
  with_reducible assumption
  with_reducible assumption
  (intro (x : HstSt); subst x)
  split
  with_reducible apply keepsN_next
  apply State.setHostState_keeps (hm.sub rfl)
  with_reducible refine keeps_mk (h := ?_)
  with_reducible assumption
  split
  split
  split
  with_reducible apply keepsN_next
  apply State.setHostState_keeps (hm.sub rfl)
  with_reducible assumption
  with_reducible apply keepsN_next
  with_reducible assumption
  split
  with_reducible apply keepsN_next
  apply State.setHostState_keeps (hm.sub rfl)
  with_reducible assumption
  with_reducible apply keepsN_next
  with_reducible assumption
  split
  with_reducible apply keepsN_next
  apply State.setHostState_keeps (hm.sub rfl)
  with_reducible assumption
  with_reducible apply keepsN_next
  with_reducible assumption

theorem State.linkGoesUp_keeps (hm : Within [.live, .run, .pend, .parity, .lnk, .hlt, .sec, .hst, .sum, .outbox] m) {a0 : State} (a1 : ℕ) (h0 : Keeps m z a0) : Keeps m z (State.linkGoesUp a0 a1) := by
  unfold State.linkGoesUp
  lift_lets
  (intro x; refine keeps_cut (p := Keeps m z x) ?_ (fun hx => ?_); (on_goal 2 => clear_value x); (on_goal 1 => subst x))
  apply State.setLinkState_keeps (hm.sub rfl)
  with_reducible assumption
  (intro x; clear_value x)
  (intro x; refine keeps_cut (p := Keeps m z x) ?_ (fun hx => ?_); (on_goal 2 => clear_value x); (on_goal 1 => subst x))
  apply State.releaseHeld_keeps (hm.sub rfl)
  apply State.setLink_keeps (hm.sub rfl)
  with_reducible assumption
  split
  apply State.sendJoin_keeps (hm.sub rfl)
  with_reducible assumption
  with_reducible assumption

theorem execLinkAlignDone_keeps (hm : Within [.live, .run, .pend, .parity, .lnk, .hlt, .sec, .hst, .sum, .outbox] m) (a0 : LinkRef) (a1 : ℕ) (a2 : ℕ) (a3 : ℕ) {a4 : State} (h4 : Keeps m z a4) : KeepsN m z (execLinkAlignDone a0 a1 a2 a3 a4) := by
  unfold execLinkAlignDone
  split
  with_reducible apply keepsN_next
  split
  apply State.setHostState_keeps (hm.sub rfl)
  with_reducible assumption
  with_reducible assumption
  split
  with_reducible apply keepsN_next
  with_reducible assumption
  lift_lets
  (intro x; clear_value x)
  (intro x; refine keeps_cut (p := Keeps m z x) ?_ (fun hx => ?_); (on_goal 2 => clear_value x); (on_goal 1 => subst x))
  apply State.setLink_keeps (hm.sub rfl)
  with_reducible assumption
  split
  split
  with_reducible apply keepsN_next
  apply State.setLinkState_keeps (hm.sub rfl)
  with_reducible assumption
  with_reducible apply keepsN_next
  apply State.linkGoesUp_keeps (hm.sub rfl)
  apply State.setLinkState_keeps (hm.sub rfl)
  with_reducible assumption
  with_reducible apply keepsN_next
  apply State.raiseBit_keeps (hm.sub rfl)
  apply State.setLinkState_keeps (hm.sub rfl)
  with_reducible assumption

theorem State.linkAuthFail_keeps (hm : Within [.live, .run, .pend, .parity, .lnk, .hlt, .hst, .sum, .outbox] m) {a0 : State} (a1 : ℕ) (h0 : Keeps m z a0) : Keeps m z (State.linkAuthFail a0 a1) := by
  unfold State.linkAuthFail
  apply State.setLinkState_keeps (hm.sub rfl)
  apply State.raiseBit_keeps (hm.sub rfl)
  with_reducible assumption

theorem execHs1_keeps (hm : Within [.live, .run, .pend, .parity, .lnk, .map, .hlt, .sec, .hst, .sum, .outbox] m) (a0 : ℕ) (a1 : HsMsg) {a2 : State} (h2 : Keeps m z a2) : KeepsN m z (execHs1 a0 a1 a2) := by
  unfold execHs1
  lift_lets
  iterate 2 (intro x; clear_value x)
  (intro x; refine keeps_cut (p := Keeps m z x.2) ?_ (fun hx => ?_); (on_goal 2 => clear_value x); (on_goal 1 => subst x))
  apply State.randomBytes_keeps (hm.sub rfl)
  with_reducible assumption
  (intro x; clear_value x)
  split
  with_reducible apply keepsN_next
  with_reducible assumption
  split
  with_reducible apply keepsN_next
  apply State.linkAuthFail_keeps (hm.sub rfl)
  with_reducible assumption
  split
  lift_lets
  iterate 2 (intro x; clear_value x)
  (intro x; refine keeps_cut (p := Keeps m z x) ?_ (fun hx => ?_); (on_goal 2 => clear_value x); (on_goal 1 => subst x))
  apply State.emit_keeps (hm.sub rfl)
  apply State.setLink_keeps (hm.sub rfl)
  with_reducible assumption
  (intro (x : MapSt); subst x)
  split
  with_reducible apply keepsN_next
  apply State.linkAuthFail_keeps (hm.sub rfl)
  with_reducible assumption
  with_reducible apply keepsN_next
  split
  with_reducible refine keeps_mk (h := ?_)
  with_reducible assumption
  with_reducible assumption
  with_reducible apply keepsN_next
  apply State.linkAuthFail_keeps (hm.sub rfl)
  with_reducible assumption

theorem execHs2_keeps (hm : Within [.live, .run, .pend, .parity, .lnk, .hlt, .hst, .sum, .outbox] m) (a0 : ℕ) (a1 : HsMsg) {a2 : State} (h2 : Keeps m z a2) : KeepsN m z (execHs2 a0 a1 a2) := by
  unfold execHs2
  lift_lets
  iterate 2 (intro x; clear_value x)
  split
  with_reducible apply keepsN_next
  with_reducible assumption
  split
  with_reducible apply keepsN_next
  apply State.linkAuthFail_keeps (hm.sub rfl)
  with_reducible assumption
  with_reducible apply keepsN_next
  apply State.emit_keeps (hm.sub rfl)
  apply State.setLink_keeps (hm.sub rfl)
  with_reducible assumption

theorem execHs3_keeps (hm : Within [.live, .run, .pend, .parity, .lnk, .hlt, .sec, .hst, .sum, .outbox] m) (a0 : ℕ) (a1 : HsMsg) {a2 : State} (h2 : Keeps m z a2) : KeepsN m z (execHs3 a0 a1 a2) := by
  unfold execHs3
  lift_lets
  (intro x; clear_value x)
  (intro x; refine keeps_cut (p := Keeps m z x) ?_ (fun hx => ?_); (on_goal 2 => clear_value x); (on_goal 1 => subst x))
  apply State.setLink_keeps (hm.sub rfl)
  with_reducible assumption
  (intro (x : SecSt); subst x)
  (intro x; refine keeps_cut (p := Keeps m z x) ?_ (fun hx => ?_); (on_goal 2 => clear_value x); (on_goal 1 => subst x))
  split
  with_reducible refine keeps_mk (h := ?_)
  with_reducible assumption
  with_reducible assumption
  split
  with_reducible apply keepsN_next
  with_reducible assumption
  split
  with_reducible apply keepsN_next
  apply State.linkAuthFail_keeps (hm.sub rfl)
  with_reducible assumption
  with_reducible apply keepsN_next
  split
  apply State.linkGoesUp_keeps (hm.sub rfl)
  with_reducible assumption
  with_reducible assumption

theorem execLinkStateTimeout_keeps (hm : Within [.live, .run, .pend, .parity, .lnk, .hlt, .hst, .sum, .outbox] m) (a0 : LinkRef) {a1 : State} (h1 : Keeps m z a1) : KeepsN m z (execLinkStateTimeout a0 a1) := by
  unfold execLinkStateTimeout
  split
  lift_lets
  (intro x; clear_value x)
  with_reducible apply keepsN_next
  split
  apply State.setLinkState_keeps (hm.sub rfl)
  with_reducible assumption
  with_reducible assumption
  lift_lets
  (intro x; clear_value x)
  with_reducible apply keepsN_next
  split
  apply State.setHostState_keeps (hm.sub rfl)
  with_reducible assumption
  with_reducible assumption

theorem execLaneLockLoss_keeps (hm : Within [.live, .run, .pend, .parity, .lnk, .hlt, .hst, .sum, .outbox] m) (a0 : LinkRef) {a1 : State} (h1 : Keeps m z a1) : KeepsN m z (execLaneLockLoss a0 a1) := by
  unfold execLaneLockLoss
  split
  with_reducible apply keepsN_next
  split
  apply State.setLinkState_keeps (hm.sub rfl)
  with_reducible assumption
  with_reducible assumption
  with_reducible apply keepsN_next
  split
  apply State.setHostState_keeps (hm.sub rfl)
  with_reducible assumption
  with_reducible assumption

theorem State.askResend_keeps (hm : Within [.lnk] m) {a0 : State} (a1 : ℕ) (h0 : Keeps m z a0) : Keeps m z (State.askResend a0 a1) := by
  unfold State.askResend
  lift_lets
  (intro x; clear_value x)
  split
  with_reducible assumption
  apply State.setLink_keeps (hm.sub rfl)
  with_reducible assumption

theorem execDataFrame_keeps (hm : Within [.live, .run, .pend, .parity, .lnk, .hlt, .hst, .sum, .outbox, .freeCtr] m) (a0 : ℕ) (a1 : Frame) {a2 : State} (h2 : Keeps m z a2) : KeepsN m z (execDataFrame a0 a1 a2) := by
  unfold execDataFrame
  lift_lets
  (intro x; refine keeps_cut (p := Keeps m z x) ?_ (fun hx => ?_); (on_goal 2 => clear_value x); (on_goal 1 => subst x))
  split
  apply State.fecCount_keeps (hm.sub rfl)
  with_reducible assumption
  with_reducible assumption
  (intro x; clear_value x)
  split
  with_reducible apply keepsN_next
  with_reducible assumption
  split
  with_reducible apply keepsN_next
  apply State.askResend_keeps (hm.sub rfl)
  apply State.badFrame_keeps (hm.sub rfl)
  with_reducible assumption
  lift_lets
  (intro x; refine keeps_cut (p := Keeps m z x) ?_ (fun hx => ?_); (on_goal 2 => clear_value x); (on_goal 1 => subst x))
  apply State.takeHeader_keeps (hm.sub rfl)
  apply State.heardFrame_keeps (hm.sub rfl)
  with_reducible assumption
  (intro x; clear_value x)
  split
  with_reducible apply keepsN_next
  with_reducible assumption
  split
  with_reducible apply keepsN_next
  apply State.askResend_keeps (hm.sub rfl)
  apply State.bump_keeps (hm.sub rfl)
  with_reducible assumption
  with_reducible apply keepsN_next
  apply State.takePayload_keeps (hm.sub rfl)
  apply State.setLink_keeps (hm.sub rfl)
  apply State.frameTaken_keeps (hm.sub rfl)
  with_reducible assumption

theorem execIdleFrame_keeps (hm : Within [.live, .run, .pend, .parity, .lnk, .hlt, .hst, .sum, .outbox, .freeCtr] m) (a0 : ℕ) (a1 : Frame) {a2 : State} (h2 : Keeps m z a2) : KeepsN m z (execIdleFrame a0 a1 a2) := by
  unfold execIdleFrame
  lift_lets
  (intro x; refine keeps_cut (p := Keeps m z x) ?_ (fun hx => ?_); (on_goal 2 => clear_value x); (on_goal 1 => subst x))
  split
  apply State.fecCount_keeps (hm.sub rfl)
  with_reducible assumption
  with_reducible assumption
  (intro x; clear_value x)
  split
  with_reducible apply keepsN_next
  with_reducible assumption
  split
  with_reducible apply keepsN_next
  apply State.badFrame_keeps (hm.sub rfl)
  with_reducible assumption
  with_reducible apply keepsN_next
  apply State.takeHeader_keeps (hm.sub rfl)
  apply State.frameTaken_keeps (hm.sub rfl)
  apply State.heardFrame_keeps (hm.sub rfl)
  with_reducible assumption

theorem execLinkResendTimeout_keeps (hm : Within [.now, .live, .run, .pend, .parity, .lnk, .hlt, .hst, .sum, .outbox] m) (a0 : ℕ) {a1 : State} (h1 : Keeps m z a1) : KeepsN m z (execLinkResendTimeout a0 a1) := by
  unfold execLinkResendTimeout
  lift_lets
  (intro x; clear_value x)
  split
  with_reducible apply keepsN_next
  with_reducible assumption
  with_reducible apply keepsN_next
  apply State.replay_keeps (hm.sub rfl)
  apply State.advanceTo_keeps (hm.sub rfl)
  with_reducible assumption

theorem State.sendIdle_keeps (hm : Within [.run, .lnk, .outbox] m) {a0 : State} (a1 : ℕ) (h0 : Keeps m z a0) : Keeps m z (State.sendIdle a0 a1) := by
  unfold State.sendIdle
  split
  with_reducible assumption
  apply State.putFrame_keeps (hm.sub rfl)
  with_reducible assumption

theorem execFrameTransmit_keeps (hm : Within [.run, .lnk, .outbox, .freeCtr] m) (a0 : ℕ) {a1 : State} (h1 : Keeps m z a1) : KeepsN m z (execFrameTransmit a0 a1) := by
  unfold execFrameTransmit
  lift_lets
  (intro x; clear_value x)
  split
  with_reducible apply keepsN_next
  with_reducible assumption
  split
  split
  split
  with_reducible apply keepsN_next
  apply State.putFrame_keeps (hm.sub rfl)
  apply State.bump_keeps (hm.sub rfl)
  apply State.setLink_keeps (hm.sub rfl)
  with_reducible assumption
  with_reducible apply keepsN_next
  with_reducible assumption
  with_reducible apply keepsN_next
  apply State.sendIdle_keeps (hm.sub rfl)
  apply State.setLink_keeps (hm.sub rfl)
  with_reducible assumption
  split
  with_reducible apply keepsN_next
  apply State.sendIdle_keeps (hm.sub rfl)
  with_reducible assumption
  split
  with_reducible apply keepsN_next
  apply State.sendFrom_keeps (hm.sub rfl)
  with_reducible assumption
  with_reducible apply keepsN_next
  apply State.sendIdle_keeps (hm.sub rfl)
  with_reducible assumption

theorem execDirectionHoldExpiry_keeps (hm : Within [.now, .live, .run, .lnk, .hst, .sum, .outbox] m) (a0 : ℕ) {a1 : State} (h1 : Keeps m z a1) : KeepsN m z (execDirectionHoldExpiry a0 a1) := by
  unfold execDirectionHoldExpiry
  lift_lets
  (intro x; clear_value x)
  split
  with_reducible apply keepsN_next
  with_reducible assumption
  lift_lets
  (intro x; refine keeps_cut (p := Keeps m z x) ?_ (fun hx => ?_); (on_goal 2 => clear_value x); (on_goal 1 => subst x))
  apply State.advanceTo_keeps (hm.sub rfl)
  with_reducible assumption
  (intro x; clear_value x)
  (intro (x : LnkSt); subst x)
  (intro x; refine keeps_cut (p := Keeps m z x) ?_ (fun hx => ?_); (on_goal 2 => clear_value x); (on_goal 1 => subst x))
  with_reducible refine keeps_mk (h := ?_)
  with_reducible assumption
  with_reducible apply keepsN_next
  apply State.raiseBit_keeps (hm.sub rfl)
  apply State.bump_keeps (hm.sub rfl)
  with_reducible assumption

/-! ### Match -/

theorem State.commitTo_keeps (hm : Within [.live, .staged] m) {a0 : State} (a1 : ℕ) (a2 : ℕ) (h0 : Keeps m z a0) : Keeps m z (State.commitTo a0 a1 a2) := by
  unfold State.commitTo
  apply State.setLive_keeps (hm.sub rfl)
  apply State.setStaged_keeps (hm.sub rfl)
  with_reducible assumption

theorem State.commitWide_keeps (hm : Within [.live, .staged] m) {a0 : State} (a1 : ℕ) (a2 : ℕ) (h0 : Keeps m z a0) : Keeps m z (State.commitWide a0 a1 a2) := by
  unfold State.commitWide
  (with_reducible refine keeps_foldl (fun s a hs => ?_) ?_)
  apply State.commitTo_keeps (hm.sub rfl)
  with_reducible assumption
  with_reducible assumption

theorem State.ruleRow_keeps (hm : Within [.live, .staged, .mat] m) {a0 : State} (a1 : ℕ) (a2 : ℕ) (a3 : ℕ) (a4 : ℕ) (a5 : ℕ) (h0 : Keeps m z a0) : Keeps m z (State.ruleRow a0 a1 a2 a3 a4 a5) := by
  unfold State.ruleRow
  split
  with_reducible assumption
  lift_lets
  (intro x; refine keeps_cut (p := Keeps m z x) ?_ (fun hx => ?_); (on_goal 2 => clear_value x); (on_goal 1 => subst x))
  apply State.commitTo_keeps (hm.sub rfl)
  apply State.commitTo_keeps (hm.sub rfl)
  apply State.commitTo_keeps (hm.sub rfl)
  with_reducible assumption
  (intro x; refine keeps_cut (p := Keeps m z x) ?_ (fun hx => ?_); (on_goal 2 => clear_value x); (on_goal 1 => subst x))
  apply State.commitTo_keeps (hm.sub rfl)
  apply State.commitWide_keeps (hm.sub rfl)
  apply State.commitWide_keeps (hm.sub rfl)
  with_reducible assumption
  apply State.ruleCommit_keeps (hm.sub rfl)
  with_reducible assumption

theorem execRuleInsert_keeps (hm : Within [.live, .staged, .mat] m) (a0 : ℕ) (a1 : ℕ) (a2 : ℕ) (a3 : ℕ) (a4 : ℕ) (a5 : ℕ) {a6 : State} (h6 : Keeps m z a6) : KeepsN m z (execRuleInsert a0 a1 a2 a3 a4 a5 a6) := by
  unfold execRuleInsert
  with_reducible apply keepsN_next
  apply State.ruleRow_keeps (hm.sub rfl)
  with_reducible assumption

theorem execRuleDelete_keeps (hm : Within [.live, .staged, .mat] m) (a0 : ℕ) (a1 : ℕ) (a2 : ℕ) {a3 : State} (h3 : Keeps m z a3) : KeepsN m z (execRuleDelete a0 a1 a2 a3) := by
  unfold execRuleDelete
  lift_lets
  (intro x; clear_value x)
  with_reducible apply keepsN_next
  apply State.ruleRow_keeps (hm.sub rfl)
  with_reducible assumption

theorem execTcamScrub_keeps (hm : Within [.live, .run, .mat, .hst, .sum, .outbox] m) (a0 : List (ℕ × ℕ)) {a1 : State} (h1 : Keeps m z a1) : KeepsN m z (execTcamScrub a0 a1) := by
  unfold execTcamScrub
  split
  with_reducible apply keepsN_next
  with_reducible assumption
  lift_lets
  iterate 2 (intro x; clear_value x)
  (intro (x : MatSt); subst x)
  (intro x; refine keeps_cut (p := Keeps m z x) ?_ (fun hx => ?_); (on_goal 2 => clear_value x); (on_goal 1 => subst x))
  with_reducible refine keeps_mk (h := ?_)
  with_reducible assumption
  (intro x; refine keeps_cut (p := Keeps m z x) ?_ (fun hx => ?_); (on_goal 2 => clear_value x); (on_goal 1 => subst x))
  split
  with_reducible assumption
  apply State.raiseBit_keeps (hm.sub rfl)
  apply State.bump_keeps (hm.sub rfl)
  with_reducible assumption
  with_reducible apply keepsN_next
  (with_reducible refine keeps_foldl (fun s a hs => ?_) ?_)
  split
  with_reducible assumption
  with_reducible refine keeps_mk (h := ?_)
  with_reducible assumption
  with_reducible assumption

theorem execAutomataAudit_keeps (hm : Within [.live, .run, .pgw, .sch, .que, .mem, .prog, .mat, .lnk, .hst, .sum, .outbox, .freeCtr] m) (a0 : List (ℕ × ℕ)) (a1 : Bool) {a2 : State} (h2 : Keeps m z a2) : KeepsN m z (execAutomataAudit a0 a1 a2) := by
  unfold execAutomataAudit
  split
  with_reducible apply keepsN_next
  with_reducible assumption
  with_reducible apply keepsN_next
  (with_reducible refine keeps_foldl (fun s a hs => ?_) ?_)
  split
  with_reducible assumption
  lift_lets
  (intro x; refine keeps_cut (p := Keeps m z x) ?_ (fun hx => ?_); (on_goal 2 => clear_value x); (on_goal 1 => subst x))
  (with_reducible refine keeps_foldl (fun s a hs => ?_) ?_)
  apply State.refillStall_keeps (hm.sub rfl)
  with_reducible assumption
  split
  apply State.raiseBit_keeps (hm.sub rfl)
  with_reducible assumption
  with_reducible assumption
  (intro x; refine keeps_cut (p := Keeps m z x) ?_ (fun hx => ?_); (on_goal 2 => clear_value x); (on_goal 1 => subst x))
  apply State.poisonTile_keeps (hm.sub rfl)
  with_reducible assumption
  (intro (x : MatSt); subst x)
  split
  with_reducible assumption
  apply State.refreshMat_keeps (hm.sub rfl)
  with_reducible refine keeps_mk (h := ?_)
  with_reducible assumption
  with_reducible assumption

theorem execCascadeFrame_keeps (hm : Within [.live, .mat, .hst, .sum, .outbox] m) (a0 : List Byte) {a1 : State} (h1 : Keeps m z a1) : KeepsN m z (execCascadeFrame a0 a1) := by
  unfold execCascadeFrame
  lift_lets
  iterate 4 (intro x; clear_value x)
  (intro x; refine keeps_cut (p := Keeps m z x.2) ?_ (fun hx => ?_); (on_goal 2 => clear_value x); (on_goal 1 => subst x))
  split
  with_reducible assumption
  split
  with_reducible assumption
  lift_lets
  (intro x; refine keeps_cut (p := Keeps m z x.2) ?_ (fun hx => ?_); (on_goal 2 => clear_value x); (on_goal 1 => subst x))
  apply State.imageSearch_keeps (hm.sub rfl)
  with_reducible assumption
  with_reducible assumption
  split
  with_reducible apply keepsN_next
  with_reducible assumption
  with_reducible apply keepsN_next
  apply State.emit_keeps (hm.sub rfl)
  with_reducible assumption

theorem State.ringOk2_keeps (hm : Within [.live] m) {a0 : State} (a1 : Bool) (h0 : Keeps m z a0) : Keeps m z (State.ringOk2 a0 a1) := by
  unfold State.ringOk2
  apply State.setStatus_keeps (hm.sub rfl)
  with_reducible assumption

theorem State.dropSearch_keeps (hm : Within [.mat] m) {a0 : State} (a1 : ℕ) (h0 : Keeps m z a0) : Keeps m z (State.dropSearch a0 a1) := by
  unfold State.dropSearch
  with_reducible refine keeps_mk (h := ?_)
  with_reducible assumption

theorem State.deliver_keeps (hm : Within [.live, .prog, .mat, .hst, .sum, .outbox] m) {a0 : State} (a1 : ℕ) (a2 : List Byte) (a3 : Found) (h0 : Keeps m z a0) : Keeps m z (State.deliver a0 a1 a2 a3) := by
  unfold State.deliver
  split
  lift_lets
  (intro x; refine keeps_cut (p := Keeps m z x.2) ?_ (fun hx => ?_); (on_goal 2 => clear_value x); (on_goal 1 => subst x))
  apply State.matchSearch_keeps (hm.sub rfl)
  with_reducible assumption
  apply State.matchRecord_keeps (hm.sub rfl)
  with_reducible assumption
  with_reducible assumption

theorem State.cascadeFail_keeps (hm : Within [.live, .run, .prog, .mat, .hst, .sum, .outbox] m) {a0 : State} (a1 : ℕ) (h0 : Keeps m z a0) : Keeps m z (State.cascadeFail a0 a1) := by
  unfold State.cascadeFail
  split
  with_reducible assumption
  lift_lets
  (intro x; refine keeps_cut (p := Keeps m z x) ?_ (fun hx => ?_); (on_goal 2 => clear_value x); (on_goal 1 => subst x))
  apply State.raiseBit_keeps (hm.sub rfl)
  apply State.bump_keeps (hm.sub rfl)
  apply State.dropSearch_keeps (hm.sub rfl)
  with_reducible assumption
  (intro x; clear_value x)
  split
  apply State.ringOk2_keeps (hm.sub rfl)
  with_reducible assumption
  split
  with_reducible assumption
  lift_lets
  (intro x; refine keeps_cut (p := Keeps m z x) ?_ (fun hx => ?_); (on_goal 2 => clear_value x); (on_goal 1 => subst x))
  apply State.putProg_keeps (hm.sub rfl)
  with_reducible assumption
  split
  apply State.haltSegment_keeps (hm.sub rfl)
  with_reducible assumption
  apply State.deliver_keeps (hm.sub rfl)
  with_reducible assumption

theorem execCascadeReturn_keeps (hm : Within [.live, .run, .prog, .mat, .hst, .sum, .outbox] m) (a0 : List Byte) {a1 : State} (h1 : Keeps m z a1) : KeepsN m z (execCascadeReturn a0 a1) := by
  unfold execCascadeReturn
  lift_lets
  iterate 3 (intro x; clear_value x)
  split
  with_reducible apply keepsN_next
  with_reducible assumption
  split
  split
  with_reducible apply keepsN_next
  apply State.ringOk2_keeps (hm.sub rfl)
  apply State.dropSearch_keeps (hm.sub rfl)
  with_reducible assumption
  with_reducible apply keepsN_next
  apply State.deliver_keeps (hm.sub rfl)
  apply State.dropSearch_keeps (hm.sub rfl)
  with_reducible assumption
  with_reducible apply keepsN_next
  apply State.cascadeFail_keeps (hm.sub rfl)
  with_reducible assumption

theorem execCascadeTimeout_keeps (hm : Within [.now, .live, .run, .prog, .mat, .hst, .sum, .outbox] m) (a0 : ℕ) {a1 : State} (h1 : Keeps m z a1) : KeepsN m z (execCascadeTimeout a0 a1) := by
  unfold execCascadeTimeout
  split
  with_reducible apply keepsN_next
  with_reducible assumption
  with_reducible apply keepsN_next
  apply State.cascadeFail_keeps (hm.sub rfl)
  apply State.advanceTo_keeps (hm.sub rfl)
  with_reducible assumption

theorem State.cascadeProbe_keeps (hm : Within [.mat, .outbox] m) {a0 : State} (h0 : Keeps m z a0) : Keeps m z (State.cascadeProbe a0) := by
  unfold State.cascadeProbe
  split
  apply State.cascadeStart_keeps (hm.sub rfl)
  with_reducible assumption
  with_reducible assumption

/-! ### Programs -/

theorem State.readContainer_keeps (hm : Within [.prog, .hst, .outbox] m) {a0 : State} (h0 : Keeps m z a0) : Keeps m z (State.readContainer a0) := by
  unfold State.readContainer
  split
  with_reducible assumption
  split
  with_reducible assumption
  split
  with_reducible apply keeps_getD
  apply State.hostIssue_keeps (hm.sub rfl)
  with_reducible assumption
  with_reducible assumption
  with_reducible refine keeps_mk (h := ?_)
  with_reducible assumption

theorem State.containerRead_keeps (hm : Within [.prog, .hst, .outbox] m) {a0 : State} (a1 : Option (List Byte)) (h0 : Keeps m z a0) : Keeps m z (State.containerRead a0 a1) := by
  unfold State.containerRead
  split
  with_reducible assumption
  split
  with_reducible refine keeps_mk (h := ?_)
  with_reducible assumption
  apply State.readContainer_keeps (hm.sub rfl)
  with_reducible refine keeps_mk (h := ?_)
  with_reducible assumption

theorem State.loadCommit_keeps (hm : Within [.live, .prog, .hst, .sum, .outbox] m) {a0 : State} (h0 : Keeps m z a0) : Keeps m z (State.loadCommit a0) := by
  unfold State.loadCommit
  split
  apply State.raiseBit_keeps (hm.sub rfl)
  with_reducible assumption
  lift_lets
  iterate 2 (intro x; clear_value x)
  (intro (x : ProgSt); subst x)
  split
  with_reducible assumption
  apply State.readContainer_keeps (hm.sub rfl)
  apply State.setStatus_keeps (hm.sub rfl)
  with_reducible refine keeps_mk (h := ?_)
  with_reducible assumption

theorem State.loadRow_keeps (hm : Within [.live, .staged, .prog, .hst, .sum, .outbox] m) {a0 : State} (a1 : ℕ) (a2 : Option (ℕ × ℕ)) (h0 : Keeps m z a0) : Keeps m z (State.loadRow a0 a1 a2) := by
  unfold State.loadRow
  split
  with_reducible assumption
  split
  apply State.raiseBit_keeps (hm.sub rfl)
  with_reducible assumption
  lift_lets
  (intro x; refine keeps_cut (p := Keeps m z x) ?_ (fun hx => ?_); (on_goal 2 => clear_value x); (on_goal 1 => subst x))
  split
  apply State.commitTo_keeps (hm.sub rfl)
  apply State.commitTo_keeps (hm.sub rfl)
  apply State.commitTo_keeps (hm.sub rfl)
  with_reducible assumption
  with_reducible assumption
  apply State.loadCommit_keeps (hm.sub rfl)
  apply State.commitTo_keeps (hm.sub rfl)
  with_reducible assumption

theorem execLoadProgram_keeps (hm : Within [.live, .staged, .prog, .hst, .sum, .outbox] m) (a0 : ℕ) (a1 : ℕ) {a2 : State} (h2 : Keeps m z a2) : KeepsN m z (execLoadProgram a0 a1 a2) := by
  unfold execLoadProgram
  with_reducible apply keepsN_next
  apply State.loadRow_keeps (hm.sub rfl)
  with_reducible assumption

theorem execLoadWeightObject_keeps (hm : Within [.live, .staged, .prog, .hst, .sum, .outbox] m) (a0 : ℕ) (a1 : ℕ) {a2 : State} (h2 : Keeps m z a2) : KeepsN m z (execLoadWeightObject a0 a1 a2) := by
  unfold execLoadWeightObject
  with_reducible apply keepsN_next
  apply State.loadRow_keeps (hm.sub rfl)
  with_reducible assumption

theorem execUnload_keeps (hm : Within [.live, .staged, .prog, .hst, .sum, .outbox] m) (a0 : ℕ) (a1 : ℕ) {a2 : State} (h2 : Keeps m z a2) : KeepsN m z (execUnload a0 a1 a2) := by
  unfold execUnload
  with_reducible apply keepsN_next
  apply State.loadRow_keeps (hm.sub rfl)
  with_reducible assumption

theorem State.unplace_keeps (hm : Within [.pgw] m) {a0 : State} (a1 : ℕ) (a2 : ℕ) (h0 : Keeps m z a0) : Keeps m z (State.unplace a0 a1 a2) := by
  unfold State.unplace
  with_reducible refine keeps_mk (h := ?_)
  with_reducible assumption

theorem State.placeTiles_keeps (hm : Within [.pgw] m) {a0 : State} (a1 : ℕ) (a2 : ℕ) (a3 : ℕ) (h0 : Keeps m z a0) : KeepsO m z (State.placeTiles a0 a1 a2 a3) := by
  induction a3 generalizing a0 a1 a2 with
  | zero =>
    unfold State.placeTiles
    with_reducible apply keepsO_some
    with_reducible assumption
  | succ k ih =>
    unfold State.placeTiles
    split
    with_reducible apply keepsO_none
    split
    with_reducible apply keepsO_none
    lift_lets
    (intro (x : PgwSt); subst x)
    (intro x; refine keeps_cut (p := Keeps m z x) ?_ (fun hx => ?_); (on_goal 2 => clear_value x); (on_goal 1 => subst x))
    with_reducible refine keeps_mk (h := ?_)
    (with_reducible refine keeps_of_some (by with_reducible assumption) ?_)
    with_reducible apply ih
    with_reducible assumption
    (intro (x : PgwSt); subst x)
    split
    with_reducible apply keepsO_none
    with_reducible apply keepsO_some
    with_reducible refine keeps_mk (h := ?_)
    with_reducible assumption

theorem State.placeObject_keeps (hm : Within [.pgw, .prog] m) {a0 : State} (a1 : ℕ) (a2 : WObj) (h0 : Keeps m z a0) : KeepsO m z (State.placeObject a0 a1 a2) := by
  unfold State.placeObject
  lift_lets
  (intro x; clear_value x)
  split
  with_reducible apply keepsO_none
  lift_lets
  (intro (x : ProgSt); subst x)
  (intro x; refine keeps_cut (p := Keeps m z x) ?_ (fun hx => ?_); (on_goal 2 => clear_value x); (on_goal 1 => subst x))
  with_reducible refine keeps_mk (h := ?_)
  (with_reducible refine keeps_of_some (by with_reducible assumption) ?_)
  apply State.placeTiles_keeps (hm.sub rfl)
  apply State.unplace_keeps (hm.sub rfl)
  with_reducible assumption
  split
  with_reducible apply keepsO_some
  with_reducible assumption
  with_reducible apply keepsO_none

theorem State.loadObject_keeps (hm : Within [.live, .pgw, .prog, .mat, .hst, .sum, .outbox] m) {a0 : State} (a1 : List Byte) (a2 : LoadFacts) (h0 : Keeps m z a0) : Keeps m z (State.loadObject a0 a1 a2).1 := by
  unfold State.loadObject
  split
  with_reducible assumption
  split
  with_reducible assumption
  split
  with_reducible assumption
  split
  with_reducible assumption
  split
  dsimp only
  apply State.raiseBit_keeps (hm.sub rfl)
  with_reducible assumption
  split
  with_reducible assumption
  lift_lets
  (intro x; clear_value x)
  (intro (x : MatSt); subst x)
  (intro x; refine keeps_cut (p := Keeps m z x) ?_ (fun hx => ?_); (on_goal 2 => clear_value x); (on_goal 1 => subst x))
  with_reducible refine keeps_mk (h := ?_)
  with_reducible assumption
  split
  with_reducible assumption
  split
  with_reducible assumption
  split
  split
  dsimp only
  (with_reducible refine keeps_of_some (by with_reducible assumption) ?_)
  apply State.placeObject_keeps (hm.sub rfl)
  with_reducible assumption
  with_reducible assumption
  split
  with_reducible assumption
  split
  dsimp only
  apply State.putImage_keeps (hm.sub rfl)
  (with_reducible refine keeps_of_some (by with_reducible assumption) ?_)
  apply State.placeObject_keeps (hm.sub rfl)
  with_reducible assumption
  with_reducible assumption

theorem State.loadProg_keeps (hm : Within [.prog] m) {a0 : State} (a1 : ℕ) (a2 : List Byte) (a3 : LoadFacts) (h0 : Keeps m z a0) : Keeps m z (State.loadProg a0 a1 a2 a3).1 := by
  unfold State.loadProg
  split
  with_reducible assumption
  lift_lets
  iterate 6 (intro x; clear_value x)
  (intro (x : ProgSt); subst x)
  split
  with_reducible assumption
  split
  with_reducible assumption
  split
  with_reducible assumption
  split
  with_reducible assumption
  split
  with_reducible assumption
  split
  with_reducible assumption
  split
  with_reducible assumption
  split
  with_reducible assumption
  lift_lets
  (intro x; clear_value x)
  dsimp only
  with_reducible refine keeps_mk (h := ?_)
  with_reducible assumption

theorem State.unloadSlot_keeps (hm : Within [.live, .pgw, .mem, .prog, .mat] m) {a0 : State} (a1 : ℕ) (a2 : ℕ) (h0 : Keeps m z a0) : Keeps m z (State.unloadSlot a0 a1 a2).1 := by
  unfold State.unloadSlot
  split
  split
  with_reducible assumption
  dsimp only
  with_reducible refine keeps_mk (h := ?_)
  with_reducible assumption
  split
  with_reducible assumption
  split
  with_reducible assumption
  dsimp only
  apply State.dropStale_keeps (hm.sub rfl)
  with_reducible refine keeps_mk (h := ?_)
  with_reducible assumption

theorem execLoadDone_keeps (hm : Within [.live, .pgw, .mem, .prog, .mat, .hst, .sum, .outbox] m) (a0 : LoadFacts) {a1 : State} (h1 : Keeps m z a1) : KeepsN m z (execLoadDone a0 a1) := by
  unfold execLoadDone
  split
  with_reducible apply keepsN_next
  with_reducible assumption
  split
  with_reducible apply keepsN_next
  with_reducible assumption
  lift_lets
  (intro x; refine keeps_cut (p := Keeps m z x.1) ?_ (fun hx => ?_); (on_goal 2 => clear_value x); (on_goal 1 => subst x))
  split
  apply State.unloadSlot_keeps (hm.sub rfl)
  with_reducible assumption
  split
  with_reducible assumption
  split
  apply State.loadProg_keeps (hm.sub rfl)
  with_reducible assumption
  apply State.loadObject_keeps (hm.sub rfl)
  with_reducible assumption
  (intro x; have _ : Keeps m z x := (by subst x; with_reducible assumption); subst x)
  (intro (x : ProgSt); subst x)
  (intro x; refine keeps_cut (p := Keeps m z x) ?_ (fun hx => ?_); (on_goal 2 => clear_value x); (on_goal 1 => subst x))
  with_reducible refine keeps_mk (h := ?_)
  with_reducible assumption
  with_reducible apply keepsN_next
  apply State.raiseBit_keeps (hm.sub rfl)
  apply State.putStatus_keeps (hm.sub rfl)
  with_reducible assumption

theorem State.swapImage_keeps (hm : Within [.live, .mat, .hst, .sum, .outbox] m) {a0 : State} (a1 : ℕ) (a2 : ℕ) (h0 : Keeps m z a0) : Keeps m z (State.swapImage a0 a1 a2) := by
  unfold State.swapImage
  lift_lets
  iterate 3 (intro x; clear_value x)
  (intro (x : MatSt); subst x)
  (intro x; refine keeps_cut (p := Keeps m z x) ?_ (fun hx => ?_); (on_goal 2 => clear_value x); (on_goal 1 => subst x))
  with_reducible refine keeps_mk (h := ?_)
  with_reducible assumption
  apply State.discardEdits_keeps (hm.sub rfl)
  with_reducible assumption

theorem State.activateVersions_keeps (hm : Within [.live, .pgw, .mem, .prog, .mat, .hst, .sum, .outbox] m) {a0 : State} (h0 : Keeps m z a0) : Keeps m z (State.activateVersions a0) := by
  unfold State.activateVersions
  lift_lets
  iterate 3 (intro x; clear_value x)
  (intro (x : ProgSt); subst x)
  (intro x; refine keeps_cut (p := Keeps m z x) ?_ (fun hx => ?_); (on_goal 2 => clear_value x); (on_goal 1 => subst x))
  with_reducible refine keeps_mk (h := ?_)
  with_reducible assumption
  apply State.dropStale_keeps (hm.sub rfl)
  (with_reducible refine keeps_foldl (fun s a hs => ?_) ?_)
  apply State.swapImage_keeps (hm.sub rfl)
  with_reducible assumption
  with_reducible assumption

theorem State.noPrograms_keeps (hm : Within [.live, .run, .pgw, .sch, .que, .vsp, .mem, .prog, .mat, .lnk, .sec, .hst, .sum, .outbox, .freeCtr] m) {a0 : State} (a1 : ℕ) (h0 : Keeps m z a0) : Keeps m z (State.noPrograms a0 a1) := by
  unfold State.noPrograms
  (with_reducible refine keeps_foldl (fun s a hs => ?_) ?_)
  apply State.release_keeps (hm.sub rfl)
  with_reducible assumption
  with_reducible assumption

theorem State.park_keeps (hm : Within [.prog] m) {a0 : State} (a1 : ℕ) (h0 : Keeps m z a0) : Keeps m z (State.park a0 a1) := by
  unfold State.park
  split
  with_reducible assumption
  lift_lets
  (intro x; clear_value x)
  (intro (x : ProgSt); subst x)
  with_reducible refine keeps_mk (h := ?_)
  with_reducible assumption

theorem State.bring_keeps (hm : Within [.prog] m) {a0 : State} (a1 : ℕ) (a2 : ℕ) (h0 : Keeps m z a0) : Keeps m z (State.bring a0 a1 a2) := by
  unfold State.bring
  split
  with_reducible assumption
  lift_lets
  (intro x; refine keeps_cut (p := Keeps m z x) ?_ (fun hx => ?_); (on_goal 2 => clear_value x); (on_goal 1 => subst x))
  apply State.park_keeps (hm.sub rfl)
  with_reducible assumption
  (intro (x : ProgSt); subst x)
  with_reducible refine keeps_mk (h := ?_)
  with_reducible assumption

theorem State.rebind_keeps (hm : Within [.prog] m) {a0 : State} (a1 : ℕ) (h0 : Keeps m z a0) : Keeps m z (State.rebind a0 a1) := by
  unfold State.rebind
  split
  with_reducible assumption
  split
  with_reducible assumption
  split
  with_reducible assumption
  split
  with_reducible assumption
  lift_lets
  iterate 5 (intro x; clear_value x)
  (intro (x : ProgSt); subst x)
  with_reducible refine keeps_mk (h := ?_)
  with_reducible assumption

theorem State.ropeStalls_keeps (hm : Within [.live, .run, .pgw, .sch, .vsp, .mem, .prog, .mat] m) {a0 : State} (h0 : Keeps m z a0) : Keeps m z (State.ropeStalls a0) := by
  unfold State.ropeStalls
  (with_reducible refine keeps_foldl (fun s a hs => ?_) ?_)
  split
  with_reducible assumption
  split
  with_reducible assumption
  apply State.stallRun_keeps (hm.sub rfl)
  with_reducible assumption
  apply State.failRun_keeps (hm.sub rfl)
  with_reducible assumption
  with_reducible assumption

theorem State.groupMinute_keeps (hm : Within [.live, .run, .pgw, .sch, .que, .vsp, .mem, .prog, .mat, .lnk, .sec, .hst, .sum, .outbox, .freeCtr] m) {a0 : State} (a1 : ℕ) (a2 : ℕ) (a3 : ℕ) (h0 : Keeps m z a0) : Keeps m z (State.groupMinute a0 a1 a2 a3) := by
  induction a3 generalizing a0 a1 a2 with
  | zero =>
    unfold State.groupMinute
    with_reducible assumption
  | succ k ih =>
    unfold State.groupMinute
    split
    with_reducible assumption
    lift_lets
    (intro (x : ProgSt); subst x)
    (intro x; refine keeps_cut (p := Keeps m z x) ?_ (fun hx => ?_); (on_goal 2 => clear_value x); (on_goal 1 => subst x))
    split
    with_reducible refine keeps_mk (h := ?_)
    with_reducible assumption
    with_reducible assumption
    split
    lift_lets
    (intro x; refine keeps_cut (p := Keeps m z x) ?_ (fun hx => ?_); (on_goal 2 => clear_value x); (on_goal 1 => subst x))
    apply State.bring_keeps (hm.sub rfl)
    with_reducible assumption
    split
    with_reducible assumption
    apply State.startSegment_keeps (hm.sub rfl)
    (with_reducible refine keeps_foldl (fun s a hs => ?_) ?_)
    apply State.unstall_keeps (hm.sub rfl)
    with_reducible assumption
    with_reducible assumption
    lift_lets
    (intro x; refine keeps_cut (p := Keeps m z x) ?_ (fun hx => ?_); (on_goal 2 => clear_value x); (on_goal 1 => subst x))
    apply State.release_keeps (hm.sub rfl)
    apply State.park_keeps (hm.sub rfl)
    with_reducible assumption
    split
    with_reducible assumption
    with_reducible apply ih
    with_reducible assumption

theorem State.rebindAll_keeps (hm : Within [.prog] m) {a0 : State} (a1 : ℕ) (h0 : Keeps m z a0) : Keeps m z (State.rebindAll a0 a1) := by
  unfold State.rebindAll
  (with_reducible refine keeps_foldl (fun s a hs => ?_) ?_)
  apply State.rebind_keeps (hm.sub rfl)
  apply State.bring_keeps (hm.sub rfl)
  with_reducible assumption
  with_reducible assumption

theorem State.programMinute_keeps (hm : Within [.live, .run, .pgw, .sch, .que, .vsp, .mem, .prog, .mat, .lnk, .sec, .hst, .sum, .outbox, .freeCtr] m) {a0 : State} (a1 : ℕ) (h0 : Keeps m z a0) : Keeps m z (State.programMinute a0 a1) := by
  unfold State.programMinute
  split
  with_reducible assumption
  lift_lets
  (intro x; refine keeps_cut (p := Keeps m z x) ?_ (fun hx => ?_); (on_goal 2 => clear_value x); (on_goal 1 => subst x))
  apply State.ropeStalls_keeps (hm.sub rfl)
  apply State.noPrograms_keeps (hm.sub rfl)
  with_reducible assumption
  (with_reducible refine keeps_foldl (fun s a hs => ?_) ?_)
  split
  with_reducible assumption
  apply State.groupMinute_keeps (hm.sub rfl)
  apply State.rebindAll_keeps (hm.sub rfl)
  with_reducible assumption
  with_reducible assumption

/-! ### HostOps -/

theorem State.hostHeader_keeps (hm : Within [.live, .run, .que, .lnk, .hst, .sum, .outbox] m) {a0 : State} (a1 : HostHdr) (h0 : Keeps m z a0) : Keeps m z (State.hostHeader a0 a1) := by
  unfold State.hostHeader
  apply State.retryFetches_keeps (hm.sub rfl)
  apply State.settleEvictions_keeps (hm.sub rfl)
  apply State.hostFlush_keeps (hm.sub rfl)
  with_reducible refine keeps_mk (h := ?_)
  with_reducible assumption

theorem State.hostBad_keeps (hm : Within [.hst, .outbox] m) {a0 : State} (h0 : Keeps m z a0) : Keeps m z (State.hostBad a0) := by
  unfold State.hostBad
  split
  with_reducible assumption
  lift_lets
  (intro (x : HstSt); subst x)
  (intro x; refine keeps_cut (p := Keeps m z x) ?_ (fun hx => ?_); (on_goal 2 => clear_value x); (on_goal 1 => subst x))
  with_reducible refine keeps_mk (h := ?_)
  with_reducible assumption
  (intro x; clear_value x)
  apply State.emit_keeps (hm.sub rfl)
  with_reducible assumption

theorem State.hostSeen_keeps (hm : Within [.live, .run, .hst, .sum, .outbox] m) {a0 : State} (a1 : ℕ) (h0 : Keeps m z a0) : Keeps m z (State.hostSeen a0 a1) := by
  unfold State.hostSeen
  split
  with_reducible assumption
  apply State.hostFec_keeps (hm.sub rfl)
  with_reducible assumption

theorem State.hostTake_keeps (hm : Within [.live, .run, .que, .lnk, .hst, .sum, .outbox] m) {a0 : State} (a1 : HostHdr) (a2 : ℕ) (a3 : ℕ) (h0 : Keeps m z a0) : KeepsE m z (State.hostTake a0 a1 a2 a3) := by
  unfold State.hostTake
  lift_lets
  (intro x; refine keeps_cut (p := Keeps m z x) ?_ (fun hx => ?_); (on_goal 2 => clear_value x); (on_goal 1 => subst x))
  apply State.hostSeen_keeps (hm.sub rfl)
  with_reducible assumption
  (intro (x : HstSt); subst x)
  (intro (x : HstSt); subst x)
  split
  with_reducible apply keepsE_error
  with_reducible assumption
  split
  with_reducible apply keepsE_error
  apply State.hostBad_keeps (hm.sub rfl)
  with_reducible assumption
  with_reducible apply keepsE_ok
  apply State.hostHeader_keeps (hm.sub rfl)
  with_reducible refine keeps_mk (h := ?_)
  with_reducible assumption

theorem execHostIdlePacket_keeps (hm : Within [.live, .run, .que, .lnk, .hst, .sum, .outbox] m) (a0 : HostHdr) {a1 : State} (h1 : Keeps m z a1) : KeepsN m z (execHostIdlePacket a0 a1) := by
  unfold execHostIdlePacket
  lift_lets
  (intro x; refine keeps_cut (p := Keeps m z x) ?_ (fun hx => ?_); (on_goal 2 => clear_value x); (on_goal 1 => subst x))
  apply State.hostSeen_keeps (hm.sub rfl)
  with_reducible assumption
  split
  with_reducible apply keepsN_next
  with_reducible assumption
  split
  with_reducible apply keepsN_next
  apply State.hostBad_keeps (hm.sub rfl)
  with_reducible assumption
  with_reducible apply keepsN_next
  apply State.hostHeader_keeps (hm.sub rfl)
  with_reducible assumption

theorem execHostBadPacket_keeps (hm : Within [.live, .run, .que, .lnk, .hst, .sum, .outbox] m) (a0 : HostBad) {a1 : State} (h1 : Keeps m z a1) : KeepsN m z (execHostBadPacket a0 a1) := by
  unfold execHostBadPacket
  split
  lift_lets
  (intro x; refine keeps_cut (p := Keeps m z x) ?_ (fun hx => ?_); (on_goal 2 => clear_value x); (on_goal 1 => subst x))
  apply State.hostSeen_keeps (hm.sub rfl)
  with_reducible assumption
  with_reducible apply keepsN_next
  split
  with_reducible assumption
  apply State.hostBad_keeps (hm.sub rfl)
  with_reducible assumption
  lift_lets
  (intro x; refine keeps_cut (p := Keeps m z x) ?_ (fun hx => ?_); (on_goal 2 => clear_value x); (on_goal 1 => subst x))
  apply State.hostSeen_keeps (hm.sub rfl)
  with_reducible assumption
  with_reducible apply keepsN_next
  split
  with_reducible assumption
  apply State.hostBad_keeps (hm.sub rfl)
  with_reducible assumption
  split
  with_reducible apply keepsN_next
  (with_reducible refine keeps_of_error (by with_reducible assumption) ?_)
  apply State.hostTake_keeps (hm.sub rfl)
  with_reducible assumption
  with_reducible apply keepsN_next
  split
  apply State.hostCpl_keeps (hm.sub rfl)
  (with_reducible refine keeps_of_ok (by with_reducible assumption) ?_)
  apply State.hostTake_keeps (hm.sub rfl)
  with_reducible assumption
  (with_reducible refine keeps_of_ok (by with_reducible assumption) ?_)
  apply State.hostTake_keeps (hm.sub rfl)
  with_reducible assumption

theorem execHostNak_keeps (hm : Within [.live, .run, .que, .lnk, .hst, .sum, .outbox] m) (a0 : HostHdr) {a1 : State} (h1 : Keeps m z a1) : KeepsN m z (execHostNak a0 a1) := by
  unfold execHostNak
  lift_lets
  (intro x; refine keeps_cut (p := Keeps m z x) ?_ (fun hx => ?_); (on_goal 2 => clear_value x); (on_goal 1 => subst x))
  apply State.hostSeen_keeps (hm.sub rfl)
  with_reducible assumption
  split
  with_reducible apply keepsN_next
  with_reducible assumption
  split
  with_reducible apply keepsN_next
  apply State.hostBad_keeps (hm.sub rfl)
  with_reducible assumption
  with_reducible apply keepsN_next
  apply State.retryFetches_keeps (hm.sub rfl)
  apply State.settleEvictions_keeps (hm.sub rfl)
  apply State.hostFlush_keeps (hm.sub rfl)
  apply State.hostReplay_keeps (hm.sub rfl)
  with_reducible refine keeps_mk (h := ?_)
  with_reducible assumption

theorem execHostResendTimeout_keeps (hm : Within [.now, .live, .run, .hst, .sum, .outbox] m) {a0 : State} (h0 : Keeps m z a0) : KeepsN m z (execHostResendTimeout a0) := by
  unfold execHostResendTimeout
  split
  with_reducible apply keepsN_next
  with_reducible assumption
  with_reducible apply keepsN_next
  apply State.hostReplay_keeps (hm.sub rfl)
  apply State.advanceTo_keeps (hm.sub rfl)
  with_reducible assumption

theorem State.ringPump_keeps (hm : Within [.que, .hst, .outbox] m) {a0 : State} (a1 : ℕ) (h0 : Keeps m z a0) : Keeps m z (State.ringPump a0 a1) := by
  unfold State.ringPump
  split
  with_reducible assumption
  split
  with_reducible assumption
  split
  with_reducible assumption
  apply State.mapQp_keeps (hm.sub rfl)
  (with_reducible refine keeps_of_some (by with_reducible assumption) ?_)
  apply State.hostRead_keeps (hm.sub rfl)
  with_reducible assumption

theorem State.pumpRings_keeps (hm : Within [.que, .hst, .outbox] m) {a0 : State} (h0 : Keeps m z a0) : Keeps m z (State.pumpRings a0) := by
  unfold State.pumpRings
  (with_reducible refine keeps_foldl (fun s a hs => ?_) ?_)
  split
  apply State.ringPump_keeps (hm.sub rfl)
  with_reducible assumption
  with_reducible assumption
  with_reducible assumption

theorem State.ringTaken_keeps (hm : Within [.que, .hst, .outbox] m) {a0 : State} (a1 : ℕ) (a2 : ℕ) (h0 : Keeps m z a0) : Keeps m z (State.ringTaken a0 a1 a2) := by
  unfold State.ringTaken
  apply State.ringPump_keeps (hm.sub rfl)
  apply State.mapQp_keeps (hm.sub rfl)
  with_reducible assumption

theorem State.ringBad_keeps (hm : Within [.run, .sch, .que, .hst, .outbox] m) {a0 : State} (a1 : ℕ) (a2 : ℕ) (a3 : ℕ) (a4 : ℕ) (a5 : List Byte) (h0 : Keeps m z a0) : Keeps m z (State.ringBad a0 a1 a2 a3 a4 a5) := by
  unfold State.ringBad
  lift_lets
  (intro x; clear_value x)
  (intro x; refine keeps_cut (p := Keeps m z x) ?_ (fun hx => ?_); (on_goal 2 => clear_value x); (on_goal 1 => subst x))
  apply State.mapQp_keeps (hm.sub rfl)
  with_reducible assumption
  (intro (x : SchSt); subst x)
  split
  with_reducible assumption
  lift_lets
  iterate 2 (intro x; clear_value x)
  split
  apply State.mapQp_keeps (hm.sub rfl)
  with_reducible assumption
  apply State.ringTaken_keeps (hm.sub rfl)
  apply State.refuse_keeps (hm.sub rfl)
  with_reducible refine keeps_mk (h := ?_)
  with_reducible assumption

theorem State.ringMessage_keeps (hm : Within [.now, .live, .run, .pgw, .sch, .que, .vsp, .mem, .prog, .mat, .lnk, .hlt, .hst, .sum, .outbox, .freeCtr] m) {a0 : State} (a1 : ℕ) (a2 : ℕ) (a3 : ℕ) (a4 : ℕ) (a5 : ℕ) (a6 : List Byte) (h0 : Keeps m z a0) : Keeps m z (State.ringMessage a0 a1 a2 a3 a4 a5 a6) := by
  unfold State.ringMessage
  lift_lets
  iterate 2 (intro x; clear_value x)
  split
  apply State.mapQp_keeps (hm.sub rfl)
  with_reducible assumption
  apply State.ringTaken_keeps (hm.sub rfl)
  apply State.arrive_keeps (hm.sub rfl)
  with_reducible assumption

theorem State.ringEntry_keeps (hm : Within [.now, .live, .run, .pgw, .sch, .que, .vsp, .mem, .prog, .mat, .lnk, .hlt, .hst, .sum, .outbox, .freeCtr] m) {a0 : State} (a1 : ℕ) (a2 : ℕ) (a3 : List Byte) (h0 : Keeps m z a0) : Keeps m z (State.ringEntry a0 a1 a2 a3) := by
  unfold State.ringEntry
  split
  with_reducible assumption
  split
  apply State.mapQp_keeps (hm.sub rfl)
  with_reducible assumption
  lift_lets
  iterate 4 (intro x; clear_value x)
  split
  apply State.ringBad_keeps (hm.sub rfl)
  with_reducible assumption
  split
  apply State.ringMessage_keeps (hm.sub rfl)
  with_reducible assumption
  split
  (with_reducible refine keeps_of_some (by with_reducible assumption) ?_)
  apply State.hostRead_keeps (hm.sub rfl)
  with_reducible assumption
  apply State.ringBad_keeps (hm.sub rfl)
  with_reducible assumption

theorem State.ringRetry_keeps (hm : Within [.que] m) {a0 : State} (a1 : ℕ) (h0 : Keeps m z a0) : Keeps m z (State.ringRetry a0 a1) := by
  unfold State.ringRetry
  apply State.mapQp_keeps (hm.sub rfl)
  with_reducible assumption

theorem State.doorbellBad_keeps (hm : Within [.live, .run, .hst, .sum, .outbox] m) {a0 : State} (h0 : Keeps m z a0) : Keeps m z (State.doorbellBad a0) := by
  unfold State.doorbellBad
  apply State.raiseBit_keeps (hm.sub rfl)
  apply State.bump_keeps (hm.sub rfl)
  with_reducible assumption

theorem State.doorbell_keeps (hm : Within [.live, .run, .que, .hst, .sum, .outbox] m) {a0 : State} (a1 : ℕ) (a2 : ℕ) (a3 : ℕ) (h0 : Keeps m z a0) : Keeps m z (State.doorbell a0 a1 a2 a3) := by
  unfold State.doorbell
  lift_lets
  iterate 2 (intro x; clear_value x)
  split
  apply State.doorbellBad_keeps (hm.sub rfl)
  with_reducible assumption
  lift_lets
  (intro x; clear_value x)
  split
  apply State.doorbellBad_keeps (hm.sub rfl)
  with_reducible assumption
  split
  split
  apply State.ringPump_keeps (hm.sub rfl)
  apply State.putQp_keeps (hm.sub rfl)
  with_reducible assumption
  apply State.doorbellBad_keeps (hm.sub rfl)
  with_reducible assumption
  split
  apply State.putQp_keeps (hm.sub rfl)
  with_reducible assumption
  apply State.doorbellBad_keeps (hm.sub rfl)
  with_reducible assumption

theorem execDbell_keeps (hm : Within [.live, .run, .que, .lnk, .hst, .sum, .outbox] m) (a0 : HostHdr) (a1 : ℕ) (a2 : ℕ) (a3 : ℕ) {a4 : State} (h4 : Keeps m z a4) : KeepsN m z (execDbell a0 a1 a2 a3 a4) := by
  unfold execDbell
  split
  with_reducible apply keepsN_next
  (with_reducible refine keeps_of_error (by with_reducible assumption) ?_)
  apply State.hostTake_keeps (hm.sub rfl)
  with_reducible assumption
  with_reducible apply keepsN_next
  split
  apply State.doorbell_keeps (hm.sub rfl)
  (with_reducible refine keeps_of_ok (by with_reducible assumption) ?_)
  apply State.hostTake_keeps (hm.sub rfl)
  with_reducible assumption
  (with_reducible refine keeps_of_ok (by with_reducible assumption) ?_)
  apply State.hostTake_keeps (hm.sub rfl)
  with_reducible assumption

theorem State.nodeWrite_keeps (hm : Within [.live, .mem, .hst, .sum, .outbox] m) {a0 : State} (a1 : ℕ) (a2 : List Byte) (h0 : Keeps m z a0) : Keeps m z (State.nodeWrite a0 a1 a2).1 := by
  unfold State.nodeWrite
  split
  with_reducible assumption
  split
  with_reducible assumption
  split
  with_reducible assumption
  lift_lets
  (intro x; refine keeps_cut (p := Keeps m z x.1) ?_ (fun hx => ?_); (on_goal 2 => clear_value x); (on_goal 1 => subst x))
  apply State.writeFlat_keeps (hm.sub rfl)
  with_reducible assumption
  with_reducible assumption

theorem execNwr_keeps (hm : Within [.now, .live, .run, .pgw, .sch, .que, .vsp, .mem, .prog, .mat, .lnk, .hlt, .hst, .sum, .outbox, .freeCtr] m) (a0 : HostHdr) (a1 : ℕ) (a2 : ℕ) (a3 : ℕ) (a4 : List Byte) {a5 : State} (h5 : Keeps m z a5) : KeepsN m z (execNwr a0 a1 a2 a3 a4 a5) := by
  unfold execNwr
  split
  with_reducible apply keepsN_next
  (with_reducible refine keeps_of_error (by with_reducible assumption) ?_)
  apply State.hostTake_keeps (hm.sub rfl)
  with_reducible assumption
  lift_lets
  (intro x; clear_value x)
  (intro x; refine keeps_cut (p := Keeps m z x.1) ?_ (fun hx => ?_); (on_goal 2 => clear_value x); (on_goal 1 => subst x))
  apply State.nodeWrite_keeps (hm.sub rfl)
  apply State.passWindows_keeps (hm.sub rfl)
  (with_reducible refine keeps_of_ok (by with_reducible assumption) ?_)
  apply State.hostTake_keeps (hm.sub rfl)
  with_reducible assumption
  split
  with_reducible apply keepsN_next
  apply State.hostCpl_keeps (hm.sub rfl)
  (with_reducible refine keeps_of_ok (by with_reducible assumption) ?_)
  apply State.hostTake_keeps (hm.sub rfl)
  with_reducible assumption
  with_reducible apply keepsN_next
  apply State.hostCpl_keeps (hm.sub rfl)
  with_reducible assumption

theorem execNrd_keeps (hm : Within [.now, .live, .run, .pgw, .sch, .que, .vsp, .mem, .prog, .mat, .lnk, .hlt, .hst, .sum, .outbox, .freeCtr] m) (a0 : HostHdr) (a1 : ℕ) (a2 : ℕ) (a3 : ℕ) (a4 : ℕ) (a5 : List (ℕ × EccOutcome)) {a6 : State} (h6 : Keeps m z a6) : KeepsN m z (execNrd a0 a1 a2 a3 a4 a5 a6) := by
  unfold execNrd
  split
  with_reducible apply keepsN_next
  (with_reducible refine keeps_of_error (by with_reducible assumption) ?_)
  apply State.hostTake_keeps (hm.sub rfl)
  with_reducible assumption
  lift_lets
  (intro x; clear_value x)
  (intro x; refine keeps_cut (p := Keeps m z x) ?_ (fun hx => ?_); (on_goal 2 => clear_value x); (on_goal 1 => subst x))
  apply State.passWindows_keeps (hm.sub rfl)
  (with_reducible refine keeps_of_ok (by with_reducible assumption) ?_)
  apply State.hostTake_keeps (hm.sub rfl)
  with_reducible assumption
  (intro x; clear_value x)
  (intro x; refine keeps_cut (p := Keeps m z x.1) ?_ (fun hx => ?_); (on_goal 2 => clear_value x); (on_goal 1 => subst x))
  apply State.eccOver_keeps (hm.sub rfl)
  with_reducible assumption
  split
  with_reducible apply keepsN_next
  apply State.hostCpl_keeps (hm.sub rfl)
  (with_reducible refine keeps_of_ok (by with_reducible assumption) ?_)
  apply State.hostTake_keeps (hm.sub rfl)
  with_reducible assumption
  split
  with_reducible apply keepsN_next
  apply State.hostCpl_keeps (hm.sub rfl)
  (with_reducible refine keeps_of_ok (by with_reducible assumption) ?_)
  apply State.hostTake_keeps (hm.sub rfl)
  with_reducible assumption
  split
  with_reducible apply keepsN_next
  apply State.hostCpl_keeps (hm.sub rfl)
  with_reducible assumption
  with_reducible apply keepsN_next
  apply State.hostCpl_keeps (hm.sub rfl)
  apply State.fresh_keeps (hm.sub rfl)
  with_reducible assumption

theorem State.contextDone_keeps (hm : Within [.now, .live, .staged, .run, .pgw, .sch, .que, .vsp, .mem, .prog, .mat, .lnk, .hlt, .sec, .hst, .sum, .outbox, .freeCtr] m) {a0 : State} (a1 : ℕ) (a2 : List Byte) (h0 : Keeps m z a0) : Keeps m z (State.contextDone a0 a1 a2) := by
  unfold State.contextDone
  lift_lets
  iterate 3 (intro x; clear_value x)
  (intro (x : QueSt); subst x)
  (intro x; refine keeps_cut (p := Keeps m z x) ?_ (fun hx => ?_); (on_goal 2 => clear_value x); (on_goal 1 => subst x))
  apply State.putQp_keeps (hm.sub rfl)
  with_reducible refine keeps_mk (h := ?_)
  with_reducible assumption
  (intro (x : QueSt); subst x)
  (intro x; refine keeps_cut (p := Keeps m z x) ?_ (fun hx => ?_); (on_goal 2 => clear_value x); (on_goal 1 => subst x))
  apply State.refreshQue_keeps (hm.sub rfl)
  with_reducible refine keeps_mk (h := ?_)
  with_reducible assumption
  (intro x; refine keeps_cut (p := Keeps m z x) ?_ (fun hx => ?_); (on_goal 2 => clear_value x); (on_goal 1 => subst x))
  apply State.bumpMax_keeps (hm.sub rfl)
  apply State.setStatus_keeps (hm.sub rfl)
  with_reducible assumption
  (intro x; refine keeps_cut (p := Keeps m z x) ?_ (fun hx => ?_); (on_goal 2 => clear_value x); (on_goal 1 => subst x))
  split
  apply State.raiseBit_keeps (hm.sub rfl)
  with_reducible assumption
  with_reducible assumption
  (intro x; clear_value x)
  (intro (x : QueSt); subst x)
  (intro x; refine keeps_cut (p := Keeps m z x) ?_ (fun hx => ?_); (on_goal 2 => clear_value x); (on_goal 1 => subst x))
  with_reducible refine keeps_mk (h := ?_)
  with_reducible assumption
  (intro x; refine keeps_cut (p := ∀ s0 y1, Keeps m z s0 → Keeps m z (x s0 y1)) ?_ (fun hf0 => ?_); (on_goal 2 => clear_value x); (on_goal 1 => (intro s0 y1 hs0; subst x; beta_reduce)))
  split
  apply State.arrive_keeps (hm.sub rfl)
  with_reducible assumption
  apply State.transportIn_keeps (hm.sub rfl)
  with_reducible assumption
  (intro x; clear_value x)
  (intro (x : QueSt); subst x)
  (intro x; refine keeps_cut (p := Keeps m z x) ?_ (fun hx => ?_); (on_goal 2 => clear_value x); (on_goal 1 => subst x))
  (with_reducible refine keeps_foldl (fun s a hs => ?_) ?_)
  with_reducible apply hf0
  with_reducible assumption
  with_reducible refine keeps_mk (h := ?_)
  with_reducible assumption
  (intro (x : QueSt); subst x)
  (intro x; refine keeps_cut (p := Keeps m z x) ?_ (fun hx => ?_); (on_goal 2 => clear_value x); (on_goal 1 => subst x))
  split
  with_reducible refine keeps_mk (h := ?_)
  with_reducible assumption
  with_reducible assumption
  (intro x; refine keeps_cut (p := Keeps m z x) ?_ (fun hx => ?_); (on_goal 2 => clear_value x); (on_goal 1 => subst x))
  (with_reducible refine keeps_foldl (fun s a hs => ?_) ?_)
  with_reducible apply hf0
  with_reducible assumption
  with_reducible assumption
  apply State.queCommandResume_keeps (hm.sub rfl)
  apply State.sendLater_keeps (hm.sub rfl)
  with_reducible assumption

theorem State.readDone_keeps (hm : Within [.now, .live, .staged, .run, .pgw, .sch, .que, .vsp, .mem, .prog, .mat, .lnk, .hlt, .sec, .hst, .sum, .outbox, .freeCtr] m) {a0 : State} (a1 : HostRead) (a2 : List Byte) (h0 : Keeps m z a0) : Keeps m z (State.readDone a0 a1 a2) := by
  unfold State.readDone
  split
  apply State.contextDone_keeps (hm.sub rfl)
  with_reducible assumption
  apply State.ringEntry_keeps (hm.sub rfl)
  with_reducible assumption
  apply State.ringMessage_keeps (hm.sub rfl)
  with_reducible assumption
  apply State.containerRead_keeps (hm.sub rfl)
  with_reducible assumption
  split
  with_reducible assumption
  split
  apply State.fetchDone_keeps (hm.sub rfl)
  with_reducible assumption
  apply State.tier2Fail_keeps (hm.sub rfl)
  with_reducible assumption

theorem State.readFailed_keeps (hm : Within [.live, .run, .pgw, .sch, .que, .vsp, .mem, .prog, .mat, .lnk, .hst, .sum, .outbox, .freeCtr] m) {a0 : State} (a1 : HostRead) (h0 : Keeps m z a0) : Keeps m z (State.readFailed a0 a1) := by
  unfold State.readFailed
  lift_lets
  (intro x; refine keeps_cut (p := Keeps m z x) ?_ (fun hx => ?_); (on_goal 2 => clear_value x); (on_goal 1 => subst x))
  apply State.raiseBit_keeps (hm.sub rfl)
  with_reducible assumption
  split
  apply State.contextFailed_keeps (hm.sub rfl)
  with_reducible assumption
  apply State.ringRetry_keeps (hm.sub rfl)
  with_reducible assumption
  apply State.ringBad_keeps (hm.sub rfl)
  with_reducible assumption
  apply State.containerRead_keeps (hm.sub rfl)
  with_reducible assumption
  apply State.tier2Fail_keeps (hm.sub rfl)
  with_reducible assumption

theorem State.dropRead_keeps (hm : Within [.hst] m) {a0 : State} (a1 : ℕ) (h0 : Keeps m z a0) : Keeps m z (State.dropRead a0 a1) := by
  unfold State.dropRead
  with_reducible refine keeps_mk (h := ?_)
  with_reducible assumption

theorem State.afterRead_keeps (hm : Within [.live, .run, .que, .prog, .lnk, .hst, .sum, .outbox] m) {a0 : State} (h0 : Keeps m z a0) : Keeps m z (State.afterRead a0) := by
  unfold State.afterRead
  lift_lets
  (intro x; refine keeps_cut (p := Keeps m z x) ?_ (fun hx => ?_); (on_goal 2 => clear_value x); (on_goal 1 => subst x))
  apply State.pumpRings_keeps (hm.sub rfl)
  apply State.retryFetches_keeps (hm.sub rfl)
  with_reducible assumption
  split
  with_reducible assumption
  apply State.readContainer_keeps (hm.sub rfl)
  with_reducible assumption

theorem State.completion_keeps (hm : Within [.now, .live, .staged, .run, .pgw, .sch, .que, .vsp, .mem, .prog, .mat, .lnk, .hlt, .sec, .hst, .sum, .outbox, .freeCtr] m) {a0 : State} (a1 : ℕ) (a2 : ℕ) (a3 : List Byte) (h0 : Keeps m z a0) : Keeps m z (State.completion a0 a1 a2 a3) := by
  unfold State.completion
  split
  with_reducible assumption
  lift_lets
  iterate 3 (intro x; clear_value x)
  (intro (x : HstSt); subst x)
  iterate 2 (intro x; clear_value x)
  split
  apply State.afterRead_keeps (hm.sub rfl)
  apply State.readFailed_keeps (hm.sub rfl)
  apply State.dropRead_keeps (hm.sub rfl)
  with_reducible assumption
  split
  with_reducible refine keeps_mk (h := ?_)
  with_reducible assumption
  split
  apply State.hostSend_keeps (hm.sub rfl)
  with_reducible refine keeps_mk (h := ?_)
  with_reducible assumption
  apply State.afterRead_keeps (hm.sub rfl)
  apply State.readDone_keeps (hm.sub rfl)
  apply State.dropRead_keeps (hm.sub rfl)
  with_reducible assumption

theorem execHostCompletion_keeps (hm : Within [.now, .live, .staged, .run, .pgw, .sch, .que, .vsp, .mem, .prog, .mat, .lnk, .hlt, .sec, .hst, .sum, .outbox, .freeCtr] m) (a0 : HostHdr) (a1 : ℕ) (a2 : ℕ) (a3 : List Byte) {a4 : State} (h4 : Keeps m z a4) : KeepsN m z (execHostCompletion a0 a1 a2 a3 a4) := by
  unfold execHostCompletion
  split
  with_reducible apply keepsN_next
  (with_reducible refine keeps_of_error (by with_reducible assumption) ?_)
  apply State.hostTake_keeps (hm.sub rfl)
  with_reducible assumption
  with_reducible apply keepsN_next
  apply State.completion_keeps (hm.sub rfl)
  (with_reducible refine keeps_of_ok (by with_reducible assumption) ?_)
  apply State.hostTake_keeps (hm.sub rfl)
  with_reducible assumption

theorem execHostReadTimeout_keeps (hm : Within [.now, .live, .run, .pgw, .sch, .que, .vsp, .mem, .prog, .mat, .lnk, .hst, .sum, .outbox, .freeCtr] m) (a0 : ℕ) {a1 : State} (h1 : Keeps m z a1) : KeepsN m z (execHostReadTimeout a0 a1) := by
  unfold execHostReadTimeout
  split
  with_reducible apply keepsN_next
  with_reducible assumption
  with_reducible apply keepsN_next
  apply State.afterRead_keeps (hm.sub rfl)
  apply State.readFailed_keeps (hm.sub rfl)
  apply State.dropRead_keeps (hm.sub rfl)
  apply State.advanceTo_keeps (hm.sub rfl)
  with_reducible assumption

end Sys2Proof.Machine
end

