-- ==== Sys2Proof/Laws/Keeps/Fabric.lean ====
section
/-!
SUPPORT. What the operations of Machine/MapAgent, MapCmds, Views, Time keep: the parts of the state outside the list each lemma names, the queue, and the invariant.
-/

namespace Sys2Proof.Machine

open Sys2Proof

set_option Elab.async false

variable {m : List Blk} {z : State}

/-! ### MapAgent -/

theorem State.forgetSeq_keeps (hm : Within [.pgw] m) {a0 : State} (a1 : SeqRec) (h0 : Keeps m z a0) : Keeps m z (State.forgetSeq a0 a1) := by
  unfold State.forgetSeq
  with_reducible refine keeps_mk (h := ?_)
  with_reducible assumption

theorem State.dropMoves_keeps (hm : Within [.mem] m) {a0 : State} (a1 : SeqRec) (h0 : Keeps m z a0) : Keeps m z (State.dropMoves a0 a1) := by
  unfold State.dropMoves
  lift_lets
  (intro x; clear_value x)
  (intro (x : MemSt); subst x)
  with_reducible refine keeps_mk (h := ?_)
  with_reducible assumption

theorem State.sendSeq_keeps (hm : Within [.pgw, .mem, .mat, .outbox] m) {a0 : State} (a1 : SeqRec) (a2 : ℕ) (a3 : ℕ) (a4 : ℕ) (h0 : Keeps m z a0) : Keeps m z (State.sendSeq a0 a1 a2 a3 a4) := by
  unfold State.sendSeq
  lift_lets
  (intro x; refine keeps_cut (p := Keeps m z x) ?_ (fun hx => ?_); (on_goal 2 => clear_value x); (on_goal 1 => subst x))
  apply State.emit_keeps (hm.sub rfl)
  with_reducible assumption
  iterate 7 (intro x; clear_value x)
  (intro x; refine keeps_cut (p := Keeps m z x) ?_ (fun hx => ?_); (on_goal 2 => clear_value x); (on_goal 1 => subst x))
  split
  apply State.delSeq_keeps (hm.sub rfl)
  with_reducible assumption
  apply State.putSeq_keeps (hm.sub rfl)
  with_reducible assumption
  (intro x; refine keeps_cut (p := Keeps m z x) ?_ (fun hx => ?_); (on_goal 2 => clear_value x); (on_goal 1 => subst x))
  (with_reducible refine keeps_foldl (fun s a hs => ?_) ?_)
  apply State.freePte_keeps (hm.sub rfl)
  with_reducible assumption
  with_reducible assumption
  (intro x; clear_value x)
  (intro x; refine keeps_cut (p := Keeps m z x) ?_ (fun hx => ?_); (on_goal 2 => clear_value x); (on_goal 1 => subst x))
  (with_reducible refine keeps_foldl (fun s a hs => ?_) ?_)
  apply State.dropGroup_keeps (hm.sub rfl)
  with_reducible assumption
  with_reducible assumption
  apply State.forgetSeq_keeps (hm.sub rfl)
  apply State.dropMoves_keeps (hm.sub rfl)
  apply State.useSpares_keeps (hm.sub rfl)
  with_reducible assumption

theorem State.transfersEnd_keeps (hm : Within [.live, .hst, .sum, .outbox] m) {a0 : State} (a1 : Bool) (h0 : Keeps m z a0) : Keeps m z (State.transfersEnd a0 a1) := by
  unfold State.transfersEnd
  lift_lets
  (intro x; refine keeps_cut (p := Keeps m z x) ?_ (fun hx => ?_); (on_goal 2 => clear_value x); (on_goal 1 => subst x))
  split
  apply State.raiseBit_keeps (hm.sub rfl)
  with_reducible assumption
  with_reducible assumption
  apply State.refreshMap_keeps (hm.sub rfl)
  with_reducible assumption

theorem State.sendTransfers_keeps (hm : Within [.pgw, .mem, .mat, .map, .outbox] m) {a0 : State} (a1 : List (ℕ × ℕ × ℕ × ℕ × ℕ)) (h0 : Keeps m z a0) : Keeps m z (State.sendTransfers a0 a1) := by
  induction a1 generalizing a0 with
  | nil =>
    unfold State.sendTransfers
    with_reducible assumption
  | cons x t ih =>
    unfold State.sendTransfers
    split
    with_reducible assumption
    lift_lets
    (intro x; refine keeps_cut (p := Keeps m z x) ?_ (fun hx => ?_); (on_goal 2 => clear_value x); (on_goal 1 => subst x))
    split
    apply State.sendSeq_keeps (hm.sub rfl)
    with_reducible assumption
    with_reducible assumption
    (intro (x : MapSt); subst x)
    (intro x; refine keeps_cut (p := Keeps m z x) ?_ (fun hx => ?_); (on_goal 2 => clear_value x); (on_goal 1 => subst x))
    with_reducible refine keeps_mk (h := ?_)
    with_reducible assumption
    (intro x; refine keeps_cut (p := Keeps m z x) ?_ (fun hx => ?_); (on_goal 2 => clear_value x); (on_goal 1 => subst x))
    split
    with_reducible assumption
    apply State.emit_keeps (hm.sub rfl)
    with_reducible assumption
    with_reducible apply ih
    with_reducible assumption

theorem State.transferMinute_keeps (hm : Within [.live, .pgw, .mem, .mat, .map, .hst, .sum, .outbox] m) {a0 : State} (h0 : Keeps m z a0) : Keeps m z (State.transferMinute a0) := by
  unfold State.transferMinute
  split
  with_reducible assumption
  apply State.transfersEnd_keeps (hm.sub rfl)
  apply State.sendTransfers_keeps (hm.sub rfl)
  with_reducible assumption

theorem State.placeTier0_keeps (hm : Within [.pgw] m) {a0 : State} (a1 : SeqRec) (a2 : PageRef) (a3 : Pte) (h0 : Keeps m z a0) : KeepsO m z (State.placeTier0 a0 a1 a2 a3) := by
  unfold State.placeTier0
  lift_lets
  (intro x; refine keeps_cut (p := Keeps m z x.2) ?_ (fun hx => ?_); (on_goal 2 => clear_value x); (on_goal 1 => subst x))
  apply State.enter_keeps (hm.sub rfl)
  with_reducible assumption
  (intro x; have _ : Keeps m z x := (by subst x; with_reducible assumption); subst x)
  (intro (x : PgwSt); subst x)
  split
  with_reducible apply keepsO_some
  apply State.setPageAt_keeps (hm.sub rfl)
  with_reducible refine keeps_mk (h := ?_)
  with_reducible assumption
  with_reducible apply keepsO_none

theorem State.placePage_keeps (hm : Within [.pgw] m) {a0 : State} (a1 : SeqRec) (a2 : PageRef) (a3 : Pte) (a4 : Bool) (h0 : Keeps m z a0) : KeepsO m z (State.placePage a0 a1 a2 a3 a4) := by
  unfold State.placePage
  split
  with_reducible apply keepsO_some
  (with_reducible refine keeps_of_some (by with_reducible assumption) ?_)
  apply State.placeTier0_keeps (hm.sub rfl)
  with_reducible assumption
  lift_lets
  (intro x; refine keeps_cut (p := Keeps m z x.2) ?_ (fun hx => ?_); (on_goal 2 => clear_value x); (on_goal 1 => subst x))
  apply State.enter_keeps (hm.sub rfl)
  with_reducible assumption
  (intro x; have _ : Keeps m z x := (by subst x; with_reducible assumption); subst x)
  (intro (x : PgwSt); subst x)
  split
  with_reducible apply keepsO_none
  split
  with_reducible apply keepsO_some
  apply State.setPageAt_keeps (hm.sub rfl)
  with_reducible refine keeps_mk (h := ?_)
  with_reducible assumption
  with_reducible apply keepsO_none

theorem State.takeHome_keeps (hm : Within [.live, .pgw, .hst, .sum, .outbox] m) {a0 : State} (a1 : SeqRec) (h0 : Keeps m z a0) : Keeps m z (State.takeHome a0 a1) := by
  unfold State.takeHome
  split
  apply State.raiseBit_keeps (hm.sub rfl)
  with_reducible assumption
  lift_lets
  (intro x; refine keeps_cut (p := Keeps m z x) ?_ (fun hx => ?_); (on_goal 2 => clear_value x); (on_goal 1 => subst x))
  apply State.putSeq_keeps (hm.sub rfl)
  with_reducible assumption
  iterate 2 (intro x; clear_value x)
  apply State.useSpares_keeps (hm.sub rfl)
  (with_reducible refine keeps_foldl (fun s a hs => ?_) ?_)
  with_reducible apply keeps_getD
  apply State.placePage_keeps (hm.sub rfl)
  with_reducible assumption
  with_reducible assumption
  with_reducible assumption

theorem State.giveBack_keeps (hm : Within [.pgw, .sch, .vsp, .mem] m) {a0 : State} (a1 : ℕ) (a2 : PageRef) (a3 : Pte) (h0 : Keeps m z a0) : Keeps m z (State.giveBack a0 a1 a2 a3) := by
  unfold State.giveBack
  lift_lets
  (intro x; refine keeps_cut (p := Keeps m z x) ?_ (fun hx => ?_); (on_goal 2 => clear_value x); (on_goal 1 => subst x))
  apply State.startMove_keeps (hm.sub rfl)
  with_reducible assumption
  split
  apply State.readPage_keeps (hm.sub rfl)
  with_reducible assumption
  with_reducible assumption

theorem State.takeBack_keeps (hm : Within [.pgw, .outbox] m) {a0 : State} (a1 : ℕ) (a2 : SeqRec) (h0 : Keeps m z a0) : Keeps m z (State.takeBack a0 a1 a2) := by
  unfold State.takeBack
  lift_lets
  iterate 2 (intro x; clear_value x)
  (intro x; refine keeps_cut (p := KeepsO m z x) ?_ (fun hx => ?_); (on_goal 2 => clear_value x); (on_goal 1 => subst x))
  (with_reducible refine keepsO_foldl (fun o a ho => ?_) ?_)
  lift_lets
  (intro x; clear_value x)
  split
  split
  with_reducible apply keepsO_none
  apply State.placeTier0_keeps (hm.sub rfl)
  (with_reducible refine keeps_unsome (by with_reducible assumption))
  with_reducible apply keepsO_none
  with_reducible apply keepsO_some
  with_reducible assumption
  iterate 2 (intro x; clear_value x)
  split
  apply State.emit_keeps (hm.sub rfl)
  (with_reducible refine keeps_unsome (by with_reducible assumption))
  apply State.emit_keeps (hm.sub rfl)
  (with_reducible refine keeps_foldl (fun s a hs => ?_) ?_)
  lift_lets
  (intro x; clear_value x)
  apply State.setPageAt_keeps (hm.sub rfl)
  with_reducible assumption
  with_reducible assumption

theorem State.takeHeld_keeps (hm : Within [.pgw, .sch, .vsp, .mem, .outbox] m) {a0 : State} (a1 : ℕ) (a2 : SeqRec) (h0 : Keeps m z a0) : Keeps m z (State.takeHeld a0 a1 a2) := by
  unfold State.takeHeld
  lift_lets
  (intro x; clear_value x)
  (intro x; refine keeps_cut (p := Keeps m z x) ?_ (fun hx => ?_); (on_goal 2 => clear_value x); (on_goal 1 => subst x))
  split
  with_reducible assumption
  split
  with_reducible assumption
  apply State.putSeq_keeps (hm.sub rfl)
  with_reducible assumption
  split
  apply State.takeBack_keeps (hm.sub rfl)
  with_reducible assumption
  (with_reducible refine keeps_foldl (fun s a hs => ?_) ?_)
  lift_lets
  (intro x; clear_value x)
  split
  with_reducible assumption
  split
  split
  with_reducible assumption
  apply State.giveBack_keeps (hm.sub rfl)
  with_reducible assumption
  split
  with_reducible assumption
  apply State.freePte_keeps (hm.sub rfl)
  apply State.setPageAt_keeps (hm.sub rfl)
  with_reducible assumption
  split
  with_reducible assumption
  apply State.setPageAt_keeps (hm.sub rfl)
  with_reducible assumption
  split
  with_reducible apply keeps_getD
  apply State.placePage_keeps (hm.sub rfl)
  with_reducible assumption
  with_reducible assumption
  with_reducible assumption
  with_reducible assumption

theorem State.holderMinute_keeps (hm : Within [.pgw, .sch, .vsp, .mem] m) {a0 : State} (h0 : Keeps m z a0) : Keeps m z (State.holderMinute a0) := by
  unfold State.holderMinute
  split
  with_reducible assumption
  lift_lets
  (intro x; clear_value x)
  split
  with_reducible assumption
  (with_reducible refine keeps_foldl (fun s a hs => ?_) ?_)
  apply State.readPage_keeps (hm.sub rfl)
  apply State.startMove_keeps (hm.sub rfl)
  with_reducible assumption
  with_reducible assumption

theorem State.returnMinute_keeps (hm : Within [.pgw, .sch, .vsp, .mem] m) {a0 : State} (h0 : Keeps m z a0) : Keeps m z (State.returnMinute a0) := by
  unfold State.returnMinute
  lift_lets
  (intro x; clear_value x)
  split
  with_reducible assumption
  (with_reducible refine keeps_foldl (fun s a hs => ?_) ?_)
  (with_reducible refine keeps_foldl (fun s a hs => ?_) ?_)
  apply State.giveBack_keeps (hm.sub rfl)
  with_reducible assumption
  with_reducible assumption
  with_reducible assumption

theorem State.lendTable_keeps (hm : Within [.que] m) {a0 : State} (a1 : MapData) (h0 : Keeps m z a0) : Keeps m z (State.lendTable a0 a1) := by
  unfold State.lendTable
  lift_lets
  (intro x; clear_value x)
  (intro x; refine keeps_cut (p := Keeps m z x) ?_ (fun hx => ?_); (on_goal 2 => clear_value x); (on_goal 1 => subst x))
  (with_reducible refine keeps_foldl (fun s a hs => ?_) ?_)
  lift_lets
  iterate 2 (intro x; clear_value x)
  split
  with_reducible refine keeps_mk (h := ?_)
  with_reducible assumption
  with_reducible assumption
  with_reducible assumption
  (with_reducible refine keeps_foldl (fun s a hs => ?_) ?_)
  lift_lets
  (intro x; subst x)
  (intro x; clear_value x)
  split
  with_reducible assumption
  split
  with_reducible assumption
  with_reducible refine keeps_mk (h := ?_)
  with_reducible assumption
  with_reducible assumption

theorem State.donorLost_keeps (hm : Within [.live, .run, .pgw, .sch, .que, .vsp, .mem, .prog, .mat, .lnk, .hst, .sum, .outbox, .freeCtr] m) {a0 : State} (a1 : List ℕ) (a2 : PageRef) (a3 : Pte) (h0 : Keeps m z a0) : Keeps m z (State.donorLost a0 a1 a2 a3) := by
  unfold State.donorLost
  lift_lets
  (intro x; clear_value x)
  (intro x; refine keeps_cut (p := ∀ s0 y1, Keeps m z s0 → Keeps m z (x s0 y1)) ?_ (fun hf0 => ?_); (on_goal 2 => clear_value x); (on_goal 1 => (intro s0 y1 hs0; subst x; beta_reduce)))
  dsimp only
  split
  apply State.tier2Fail_keeps (hm.sub rfl)
  with_reducible assumption
  with_reducible refine keeps_mk (h := ?_)
  with_reducible assumption
  split
  with_reducible apply hf0
  with_reducible assumption
  split
  split
  with_reducible apply hf0
  (with_reducible refine keeps_of_some (by with_reducible assumption) ?_)
  apply State.fetchPage_keeps (hm.sub rfl)
  with_reducible assumption
  (with_reducible refine keeps_of_some (by with_reducible assumption) ?_)
  apply State.fetchPage_keeps (hm.sub rfl)
  with_reducible assumption
  split
  with_reducible assumption
  apply State.markLost_keeps (hm.sub rfl)
  apply State.raiseBit_keeps (hm.sub rfl)
  with_reducible assumption

theorem State.poolLost_keeps (hm : Within [.live, .run, .pgw, .sch, .que, .vsp, .mem, .prog, .mat, .lnk, .hst, .sum, .outbox, .freeCtr] m) {a0 : State} (a1 : List ℕ) (h0 : Keeps m z a0) : Keeps m z (State.poolLost a0 a1) := by
  unfold State.poolLost
  lift_lets
  iterate 2 (intro x; clear_value x)
  split
  with_reducible assumption
  apply State.sweepLost_keeps (hm.sub rfl)
  (with_reducible refine keeps_foldl (fun s a hs => ?_) ?_)
  apply State.donorLost_keeps (hm.sub rfl)
  with_reducible assumption
  apply State.raiseBit_keeps (hm.sub rfl)
  with_reducible assumption

theorem State.holdersLost_keeps (hm : Within [.live, .run, .pgw, .sch, .vsp, .mem, .prog, .mat] m) {a0 : State} (a1 : List ℕ) (h0 : Keeps m z a0) : Keeps m z (State.holdersLost a0 a1) := by
  unfold State.holdersLost
  apply State.sweepLost_keeps (hm.sub rfl)
  (with_reducible refine keeps_foldl (fun s a hs => ?_) ?_)
  split
  apply State.setPageAt_keeps (hm.sub rfl)
  with_reducible assumption
  apply State.markLost_keeps (hm.sub rfl)
  with_reducible assumption
  with_reducible assumption

theorem State.lendMinute_keeps (hm : Within [.live, .run, .pgw, .que, .mem, .lnk, .map, .hst, .sum, .outbox, .freeCtr] m) {a0 : State} (h0 : Keeps m z a0) : Keeps m z (State.lendMinute a0) := by
  unfold State.lendMinute
  split
  with_reducible assumption
  lift_lets
  (intro x; clear_value x)
  (intro x; refine keeps_cut (p := Keeps m z x) ?_ (fun hx => ?_); (on_goal 2 => clear_value x); (on_goal 1 => subst x))
  (with_reducible refine keeps_foldl (fun s a hs => ?_) ?_)
  with_reducible apply keeps_getD
  apply State.fetchPage_keeps (hm.sub rfl)
  with_reducible assumption
  with_reducible assumption
  with_reducible assumption
  iterate 2 (intro x; clear_value x)
  (intro (x : MapSt); subst x)
  split
  split
  apply State.propose_keeps (hm.sub rfl)
  with_reducible refine keeps_mk (h := ?_)
  with_reducible assumption
  with_reducible assumption
  with_reducible assumption

theorem State.reclaimMidnight_keeps (hm : Within [.live, .map, .hst, .sum, .outbox] m) {a0 : State} (h0 : Keeps m z a0) : Keeps m z (State.reclaimMidnight a0) := by
  unfold State.reclaimMidnight
  split
  with_reducible assumption
  lift_lets
  (intro x; clear_value x)
  (with_reducible refine keeps_foldl (fun s a hs => ?_) ?_)
  apply State.propose_keeps (hm.sub rfl)
  with_reducible assumption
  with_reducible assumption

theorem State.runNight_keeps (hm : Within [.live] m) {a0 : State} (h0 : Keeps m z a0) : Keeps m z (State.runNight a0) := by
  unfold State.runNight
  lift_lets
  (intro x; refine keeps_cut (p := Keeps m z x) ?_ (fun hx => ?_); (on_goal 2 => clear_value x); (on_goal 1 => subst x))
  apply State.setLive_keeps (hm.sub rfl)
  with_reducible assumption
  apply State.setLive_keeps (hm.sub rfl)
  with_reducible assumption

theorem State.discardTenants_keeps (hm : Within [.live, .pgw, .sch, .que, .vsp, .mem, .prog, .mat, .hlt] m) {a0 : State} (h0 : Keeps m z a0) : Keeps m z (State.discardTenants a0) := by
  unfold State.discardTenants
  apply State.dropStale_keeps (hm.sub rfl)
  with_reducible refine keeps_mk (h := ?_)
  with_reducible assumption

theorem State.retrainAll_keeps (hm : Within [.live, .run, .pend, .parity, .lnk, .hlt, .hst, .sum, .outbox] m) {a0 : State} (h0 : Keeps m z a0) : Keeps m z (State.retrainAll a0) := by
  unfold State.retrainAll
  (with_reducible refine keeps_foldl (fun s a hs => ?_) ?_)
  apply State.setLinkState_keeps (hm.sub rfl)
  with_reducible assumption
  with_reducible assumption

theorem State.becomeCandidate_keeps (hm : Within [.live, .run, .pend, .parity, .pgw, .sch, .que, .vsp, .mem, .prog, .mat, .lnk, .map, .hlt, .hst, .sum, .outbox] m) {a0 : State} (h0 : Keeps m z a0) : Keeps m z (State.becomeCandidate a0) := by
  unfold State.becomeCandidate
  lift_lets
  (intro x; refine keeps_cut (p := Keeps m z x) ?_ (fun hx => ?_); (on_goal 2 => clear_value x); (on_goal 1 => subst x))
  apply State.discardTenants_keeps (hm.sub rfl)
  with_reducible assumption
  (intro (x : LnkSt); subst x)
  (intro (x : MapSt); subst x)
  (intro x; refine keeps_cut (p := Keeps m z x) ?_ (fun hx => ?_); (on_goal 2 => clear_value x); (on_goal 1 => subst x))
  with_reducible refine keeps_mk (h := ?_)
  with_reducible assumption
  apply State.refreshMap_keeps (hm.sub rfl)
  apply State.refreshLnkStatus_keeps (hm.sub rfl)
  apply State.runNight_keeps (hm.sub rfl)
  apply State.retrainAll_keeps (hm.sub rfl)
  with_reducible assumption

theorem State.backToSpare_keeps (hm : Within [.live, .pgw, .sch, .que, .vsp, .mem, .prog, .mat, .lnk, .map, .hlt] m) {a0 : State} (h0 : Keeps m z a0) : Keeps m z (State.backToSpare a0) := by
  unfold State.backToSpare
  lift_lets
  (intro x; refine keeps_cut (p := Keeps m z x) ?_ (fun hx => ?_); (on_goal 2 => clear_value x); (on_goal 1 => subst x))
  apply State.discardTenants_keeps (hm.sub rfl)
  with_reducible assumption
  (intro (x : LnkSt); subst x)
  (intro (x : MapSt); subst x)
  (intro x; refine keeps_cut (p := Keeps m z x) ?_ (fun hx => ?_); (on_goal 2 => clear_value x); (on_goal 1 => subst x))
  with_reducible refine keeps_mk (h := ?_)
  with_reducible assumption
  apply State.runNight_keeps (hm.sub rfl)
  with_reducible assumption

theorem State.fenceForTime_keeps (hm : Within [.live, .run, .pgw, .sch, .que, .vsp, .mem, .prog, .mat, .lnk, .map, .hlt, .sec, .hst, .sum, .outbox, .freeCtr] m) {a0 : State} (h0 : Keeps m z a0) : Keeps m z (State.fenceForTime a0) := by
  unfold State.fenceForTime
  lift_lets
  (intro x; refine keeps_cut (p := Keeps m z x) ?_ (fun hx => ?_); (on_goal 2 => clear_value x); (on_goal 1 => subst x))
  apply State.fenceSelf_keeps (hm.sub rfl)
  with_reducible assumption
  (intro (x : MapSt); subst x)
  with_reducible refine keeps_mk (h := ?_)
  with_reducible assumption

theorem State.mapLinks_keeps (hm : Within [.lnk] m) {a0 : State} (a1 : Link → Link) (h0 : Keeps m z a0) : Keeps m z (State.mapLinks a0 a1) := by
  unfold State.mapLinks
  with_reducible refine keeps_mk (h := ?_)
  with_reducible assumption

theorem State.leaveMiswired_keeps (hm : Within [.live, .run, .pend, .parity, .lnk, .hlt, .hst, .sum, .outbox] m) {a0 : State} (h0 : Keeps m z a0) : Keeps m z (State.leaveMiswired a0) := by
  unfold State.leaveMiswired
  (with_reducible refine keeps_foldl (fun s a hs => ?_) ?_)
  apply State.setLinkState_keeps (hm.sub rfl)
  with_reducible assumption
  with_reducible assumption

theorem State.takeEffect_keeps (hm : Within [.live, .run, .pend, .parity, .pgw, .sch, .que, .vsp, .mem, .prog, .mat, .lnk, .map, .hlt, .sec, .hst, .sum, .outbox, .freeCtr] m) {a0 : State} (a1 : MapData) (h0 : Keeps m z a0) : Keeps m z (State.takeEffect a0 a1) := by
  unfold State.takeEffect
  lift_lets
  iterate 11 (intro x; clear_value x)
  (intro (x : LnkSt); subst x)
  (intro (x : MapSt); subst x)
  (intro x; refine keeps_cut (p := Keeps m z x) ?_ (fun hx => ?_); (on_goal 2 => clear_value x); (on_goal 1 => subst x))
  with_reducible refine keeps_mk (h := ?_)
  with_reducible assumption
  (intro x; refine keeps_cut (p := Keeps m z x) ?_ (fun hx => ?_); (on_goal 2 => clear_value x); (on_goal 1 => subst x))
  apply State.mapLinks_keeps (hm.sub rfl)
  with_reducible assumption
  (intro x; refine keeps_cut (p := Keeps m z x) ?_ (fun hx => ?_); (on_goal 2 => clear_value x); (on_goal 1 => subst x))
  apply State.systemPeers_keeps (hm.sub rfl)
  (with_reducible refine keeps_foldl (fun s a hs => ?_) ?_)
  apply State.fencePeer_keeps (hm.sub rfl)
  with_reducible assumption
  with_reducible assumption
  (intro x; refine keeps_cut (p := Keeps m z x) ?_ (fun hx => ?_); (on_goal 2 => clear_value x); (on_goal 1 => subst x))
  (with_reducible refine keeps_foldl (fun s a hs => ?_) ?_)
  apply State.emit_keeps (hm.sub rfl)
  with_reducible assumption
  with_reducible assumption
  (intro x; refine keeps_cut (p := Keeps m z x) ?_ (fun hx => ?_); (on_goal 2 => clear_value x); (on_goal 1 => subst x))
  apply State.raiseBit_keeps (hm.sub rfl)
  with_reducible assumption
  (intro x; refine keeps_cut (p := Keeps m z x) ?_ (fun hx => ?_); (on_goal 2 => clear_value x); (on_goal 1 => subst x))
  split
  with_reducible assumption
  apply State.raiseBit_keeps (hm.sub rfl)
  with_reducible assumption
  (intro x; refine keeps_cut (p := Keeps m z x) ?_ (fun hx => ?_); (on_goal 2 => clear_value x); (on_goal 1 => subst x))
  split
  with_reducible assumption
  apply State.raiseBit_keeps (hm.sub rfl)
  with_reducible assumption
  (intro x; refine keeps_cut (p := Keeps m z x) ?_ (fun hx => ?_); (on_goal 2 => clear_value x); (on_goal 1 => subst x))
  apply State.holdersLost_keeps (hm.sub rfl)
  apply State.poolLost_keeps (hm.sub rfl)
  apply State.lendTable_keeps (hm.sub rfl)
  with_reducible assumption
  (intro x; refine keeps_cut (p := Keeps m z x) ?_ (fun hx => ?_); (on_goal 2 => clear_value x); (on_goal 1 => subst x))
  apply State.fenceSelf_keeps (hm.sub rfl)
  with_reducible assumption
  (intro (x : MapSt); subst x)
  (intro x; refine keeps_cut (p := Keeps m z x) ?_ (fun hx => ?_); (on_goal 2 => clear_value x); (on_goal 1 => subst x))
  split
  with_reducible refine keeps_mk (h := ?_)
  with_reducible assumption
  with_reducible assumption
  (intro x; refine keeps_cut (p := Keeps m z x) ?_ (fun hx => ?_); (on_goal 2 => clear_value x); (on_goal 1 => subst x))
  split
  apply State.backToSpare_keeps (hm.sub rfl)
  with_reducible assumption
  with_reducible assumption
  apply State.refreshLnkStatus_keeps (hm.sub rfl)
  apply State.leaveMiswired_keeps (hm.sub rfl)
  apply State.transfersEnd_keeps (hm.sub rfl)
  with_reducible assumption

theorem State.dropOldKeys_keeps (hm : Within [.lnk] m) {a0 : State} (h0 : Keeps m z a0) : Keeps m z (State.dropOldKeys a0) := by
  unfold State.dropOldKeys
  apply State.mapLinks_keeps (hm.sub rfl)
  with_reducible assumption

theorem State.endDrain_keeps (hm : Within [.pgw, .mem, .mat, .lnk, .map] m) {a0 : State} (h0 : Keeps m z a0) : Keeps m z (State.endDrain a0) := by
  unfold State.endDrain
  lift_lets
  iterate 4 (intro x; clear_value x)
  (intro (x : PgwSt); subst x)
  (intro (x : MapSt); subst x)
  (intro x; refine keeps_cut (p := Keeps m z x) ?_ (fun hx => ?_); (on_goal 2 => clear_value x); (on_goal 1 => subst x))
  apply State.settlePlaces_keeps (hm.sub rfl)
  with_reducible refine keeps_mk (h := ?_)
  with_reducible assumption
  apply State.dropOldKeys_keeps (hm.sub rfl)
  (with_reducible refine keeps_foldl (fun s a hs => ?_) ?_)
  apply State.dropGroup_keeps (hm.sub rfl)
  with_reducible assumption
  (with_reducible refine keeps_foldl (fun s a hs => ?_) ?_)
  apply State.forgetSeq_keeps (hm.sub rfl)
  with_reducible assumption
  with_reducible assumption

theorem State.leaseCheck_keeps (hm : Within [.live, .run, .pgw, .sch, .que, .vsp, .mem, .prog, .mat, .lnk, .map, .hlt, .sec, .hst, .sum, .outbox, .freeCtr] m) {a0 : State} (h0 : Keeps m z a0) : Keeps m z (State.leaseCheck a0) := by
  unfold State.leaseCheck
  lift_lets
  iterate 2 (intro x; clear_value x)
  (intro x; refine keeps_cut (p := Keeps m z x) ?_ (fun hx => ?_); (on_goal 2 => clear_value x); (on_goal 1 => subst x))
  split
  apply State.fenceSelf_keeps (hm.sub rfl)
  apply State.raiseBit_keeps (hm.sub rfl)
  with_reducible assumption
  with_reducible assumption
  apply State.setStatus_keeps (hm.sub rfl)
  with_reducible assumption

theorem State.unfenceCheck_keeps (hm : Within [.live, .run, .pend, .parity, .pgw, .sch, .que, .vsp, .mem, .prog, .mat, .lnk, .map, .hlt, .sec, .hst, .sum, .outbox, .freeCtr] m) {a0 : State} (h0 : Keeps m z a0) : Keeps m z (State.unfenceCheck a0) := by
  unfold State.unfenceCheck
  split
  with_reducible assumption
  split
  apply State.becomeCandidate_keeps (hm.sub rfl)
  with_reducible assumption
  split
  lift_lets
  (intro (x : MapSt); subst x)
  (intro x; refine keeps_cut (p := Keeps m z x) ?_ (fun hx => ?_); (on_goal 2 => clear_value x); (on_goal 1 => subst x))
  apply State.refreshMap_keeps (hm.sub rfl)
  with_reducible refine keeps_mk (h := ?_)
  with_reducible assumption
  split
  apply State.systemPeers_keeps (hm.sub rfl)
  with_reducible assumption
  with_reducible assumption
  with_reducible assumption

theorem State.mapMidnight_keeps (hm : Within [.live, .run, .pend, .parity, .pgw, .sch, .que, .vsp, .mem, .prog, .mat, .lnk, .map, .hlt, .sec, .hst, .sum, .outbox, .freeCtr] m) {a0 : State} (h0 : Keeps m z a0) : Keeps m z (State.mapMidnight a0) := by
  unfold State.mapMidnight
  lift_lets
  (intro x; refine keeps_cut (p := Keeps m z x) ?_ (fun hx => ?_); (on_goal 2 => clear_value x); (on_goal 1 => subst x))
  apply State.leaseCheck_keeps (hm.sub rfl)
  with_reducible assumption
  (intro x; refine keeps_cut (p := Keeps m z x) ?_ (fun hx => ?_); (on_goal 2 => clear_value x); (on_goal 1 => subst x))
  apply State.mapLinks_keeps (hm.sub rfl)
  with_reducible assumption
  (intro x; refine keeps_cut (p := Keeps m z x) ?_ (fun hx => ?_); (on_goal 2 => clear_value x); (on_goal 1 => subst x))
  split
  split
  apply State.endDrain_keeps (hm.sub rfl)
  with_reducible assumption
  apply State.dropOldKeys_keeps (hm.sub rfl)
  with_reducible assumption
  with_reducible assumption
  (intro x; refine keeps_cut (p := Keeps m z x) ?_ (fun hx => ?_); (on_goal 2 => clear_value x); (on_goal 1 => subst x))
  (with_reducible refine keeps_foldl (fun s a hs => ?_) ?_)
  apply State.takeEffect_keeps (hm.sub rfl)
  with_reducible assumption
  with_reducible assumption
  (intro x; clear_value x)
  (intro (x : MapSt); subst x)
  (intro x; refine keeps_cut (p := Keeps m z x) ?_ (fun hx => ?_); (on_goal 2 => clear_value x); (on_goal 1 => subst x))
  with_reducible refine keeps_mk (h := ?_)
  with_reducible assumption
  (intro x; refine keeps_cut (p := Keeps m z x) ?_ (fun hx => ?_); (on_goal 2 => clear_value x); (on_goal 1 => subst x))
  split
  apply State.transfersEnd_keeps (hm.sub rfl)
  with_reducible assumption
  with_reducible assumption
  (intro x; refine keeps_cut (p := Keeps m z x) ?_ (fun hx => ?_); (on_goal 2 => clear_value x); (on_goal 1 => subst x))
  split
  apply State.fenceSelf_keeps (hm.sub rfl)
  with_reducible assumption
  with_reducible assumption
  apply State.refreshMap_keeps (hm.sub rfl)
  apply State.reclaimMidnight_keeps (hm.sub rfl)
  apply State.unfenceCheck_keeps (hm.sub rfl)
  apply State.dropSystem_keeps (hm.sub rfl)
  with_reducible assumption

theorem State.sendHello_keeps (hm : Within [.outbox] m) {a0 : State} (h0 : Keeps m z a0) : Keeps m z (State.sendHello a0) := by
  unfold State.sendHello
  split
  with_reducible assumption
  lift_lets
  iterate 4 (intro x; clear_value x)
  apply State.ctl_keeps (hm.sub rfl)
  with_reducible assumption

theorem State.sendLease_keeps (hm : Within [.live, .map, .outbox] m) {a0 : State} (h0 : Keeps m z a0) : Keeps m z (State.sendLease a0) := by
  unfold State.sendLease
  split
  with_reducible assumption
  split
  with_reducible assumption
  lift_lets
  iterate 2 (intro x; clear_value x)
  (intro x; refine keeps_cut (p := Keeps m z x) ?_ (fun hx => ?_); (on_goal 2 => clear_value x); (on_goal 1 => subst x))
  (with_reducible refine keeps_foldl (fun s a hs => ?_) ?_)
  apply State.ctl_keeps (hm.sub rfl)
  with_reducible assumption
  with_reducible assumption
  (intro (x : MapSt); subst x)
  apply State.setStatus_keeps (hm.sub rfl)
  with_reducible refine keeps_mk (h := ?_)
  with_reducible assumption

theorem State.sendHeartbeat_keeps (hm : Within [.outbox] m) {a0 : State} (h0 : Keeps m z a0) : Keeps m z (State.sendHeartbeat a0) := by
  unfold State.sendHeartbeat
  split
  with_reducible assumption
  (with_reducible refine keeps_foldl (fun s a hs => ?_) ?_)
  apply State.ctl_keeps (hm.sub rfl)
  with_reducible assumption
  with_reducible assumption

theorem State.mapMinute_keeps (hm : Within [.live, .run, .pgw, .sch, .que, .vsp, .mem, .prog, .mat, .lnk, .map, .hlt, .sec, .hst, .sum, .outbox, .freeCtr] m) {a0 : State} (h0 : Keeps m z a0) : Keeps m z (State.mapMinute a0) := by
  unfold State.mapMinute
  lift_lets
  (intro x; clear_value x)
  (intro x; refine keeps_cut (p := Keeps m z x) ?_ (fun hx => ?_); (on_goal 2 => clear_value x); (on_goal 1 => subst x))
  split
  apply State.sendHeartbeat_keeps (hm.sub rfl)
  apply State.sendHello_keeps (hm.sub rfl)
  with_reducible assumption
  with_reducible assumption
  (intro x; refine keeps_cut (p := Keeps m z x) ?_ (fun hx => ?_); (on_goal 2 => clear_value x); (on_goal 1 => subst x))
  split
  apply State.sendLease_keeps (hm.sub rfl)
  with_reducible assumption
  with_reducible assumption
  (intro x; refine keeps_cut (p := Keeps m z x) ?_ (fun hx => ?_); (on_goal 2 => clear_value x); (on_goal 1 => subst x))
  split
  apply State.prepareMinute_keeps (hm.sub rfl)
  with_reducible assumption
  with_reducible assumption
  (intro x; refine keeps_cut (p := Keeps m z x) ?_ (fun hx => ?_); (on_goal 2 => clear_value x); (on_goal 1 => subst x))
  split
  apply State.fenceSelf_keeps (hm.sub rfl)
  with_reducible assumption
  with_reducible assumption
  apply State.returnMinute_keeps (hm.sub rfl)
  apply State.holderMinute_keeps (hm.sub rfl)
  apply State.lendMinute_keeps (hm.sub rfl)
  apply State.transferMinute_keeps (hm.sub rfl)
  with_reducible assumption

/-! ### MapCmds -/

theorem State.propCommit_keeps (hm : Within [.live, .map, .hst, .sum, .outbox] m) {a0 : State} (h0 : Keeps m z a0) : Keeps m z (State.propCommit a0) := by
  unfold State.propCommit
  lift_lets
  iterate 4 (intro x; clear_value x)
  (intro x; refine keeps_cut (p := Keeps m z x) ?_ (fun hx => ?_); (on_goal 2 => clear_value x); (on_goal 1 => subst x))
  apply State.setStatus_keeps (hm.sub rfl)
  with_reducible assumption
  (intro (x : MapSt); subst x)
  (intro x; refine keeps_cut (p := Keeps m z x) ?_ (fun hx => ?_); (on_goal 2 => clear_value x); (on_goal 1 => subst x))
  with_reducible refine keeps_mk (h := ?_)
  with_reducible assumption
  split
  with_reducible assumption
  split
  apply State.raiseBit_keeps (hm.sub rfl)
  apply State.touch_keeps (hm.sub rfl)
  with_reducible assumption
  apply State.propose_keeps (hm.sub rfl)
  with_reducible assumption

theorem State.modeCommit_keeps (hm : Within [.live, .map, .hst, .sum, .outbox] m) {a0 : State} (h0 : Keeps m z a0) : Keeps m z (State.modeCommit a0) := by
  unfold State.modeCommit
  lift_lets
  iterate 3 (intro x; clear_value x)
  (intro x; refine keeps_cut (p := Keeps m z x) ?_ (fun hx => ?_); (on_goal 2 => clear_value x); (on_goal 1 => subst x))
  apply State.setLive_keeps (hm.sub rfl)
  with_reducible assumption
  (intro (x : MapSt); subst x)
  (intro x; refine keeps_cut (p := Keeps m z x) ?_ (fun hx => ?_); (on_goal 2 => clear_value x); (on_goal 1 => subst x))
  with_reducible refine keeps_mk (h := ?_)
  with_reducible assumption
  split
  with_reducible assumption
  split
  apply State.setLive_keeps (hm.sub rfl)
  with_reducible assumption
  apply State.propose_keeps (hm.sub rfl)
  with_reducible assumption

theorem State.propRow_keeps (hm : Within [.live, .staged, .map, .hst, .sum, .outbox] m) {a0 : State} (a1 : ℕ) (a2 : ℕ) (a3 : ℕ) (a4 : ℕ) (h0 : Keeps m z a0) : Keeps m z (State.propRow a0 a1 a2 a3 a4) := by
  unfold State.propRow
  split
  with_reducible assumption
  apply State.propCommit_keeps (hm.sub rfl)
  apply State.commitTo_keeps (hm.sub rfl)
  apply State.commitTo_keeps (hm.sub rfl)
  apply State.commitTo_keeps (hm.sub rfl)
  apply State.commitTo_keeps (hm.sub rfl)
  with_reducible assumption

theorem execModeProposal_keeps (hm : Within [.live, .staged, .map, .hst, .sum, .outbox] m) (a0 : ℕ) (a1 : ℕ) {a2 : State} (h2 : Keeps m z a2) : KeepsN m z (execModeProposal a0 a1 a2) := by
  unfold execModeProposal
  with_reducible apply keepsN_next
  split
  with_reducible assumption
  apply State.modeCommit_keeps (hm.sub rfl)
  apply State.commitTo_keeps (hm.sub rfl)
  with_reducible assumption

theorem execMoveSlots_keeps (hm : Within [.live, .staged, .map, .hst, .sum, .outbox] m) (a0 : ℕ) (a1 : ℕ) (a2 : ℕ) {a3 : State} (h3 : Keeps m z a3) : KeepsN m z (execMoveSlots a0 a1 a2 a3) := by
  unfold execMoveSlots
  with_reducible apply keepsN_next
  apply State.propRow_keeps (hm.sub rfl)
  with_reducible assumption

theorem execSetMembership_keeps (hm : Within [.live, .staged, .map, .hst, .sum, .outbox] m) (a0 : ℕ) (a1 : ℕ) (a2 : ℕ) {a3 : State} (h3 : Keeps m z a3) : KeepsN m z (execSetMembership a0 a1 a2 a3) := by
  unfold execSetMembership
  with_reducible apply keepsN_next
  apply State.propRow_keeps (hm.sub rfl)
  with_reducible assumption

theorem execSetClass_keeps (hm : Within [.live, .staged, .map, .hst, .sum, .outbox] m) (a0 : ℕ) (a1 : ℕ) {a2 : State} (h2 : Keeps m z a2) : KeepsN m z (execSetClass a0 a1 a2) := by
  unfold execSetClass
  with_reducible apply keepsN_next
  apply State.propRow_keeps (hm.sub rfl)
  with_reducible assumption

theorem execSetSlice_keeps (hm : Within [.live, .staged, .map, .hst, .sum, .outbox] m) (a0 : ℕ) (a1 : ℕ) {a2 : State} (h2 : Keeps m z a2) : KeepsN m z (execSetSlice a0 a1 a2) := by
  unfold execSetSlice
  with_reducible apply keepsN_next
  apply State.propRow_keeps (hm.sub rfl)
  with_reducible assumption

theorem execDrain_keeps (hm : Within [.live, .staged, .map, .hst, .sum, .outbox] m) (a0 : ℕ) {a1 : State} (h1 : Keeps m z a1) : KeepsN m z (execDrain a0 a1) := by
  unfold execDrain
  with_reducible apply keepsN_next
  apply State.propRow_keeps (hm.sub rfl)
  with_reducible assumption

theorem execRetire_keeps (hm : Within [.live, .staged, .map, .hst, .sum, .outbox] m) (a0 : ℕ) {a1 : State} (h1 : Keeps m z a1) : KeepsN m z (execRetire a0 a1) := by
  unfold execRetire
  with_reducible apply keepsN_next
  apply State.propRow_keeps (hm.sub rfl)
  with_reducible assumption

theorem execStandIn_keeps (hm : Within [.live, .staged, .map, .hst, .sum, .outbox] m) (a0 : ℕ) {a1 : State} (h1 : Keeps m z a1) : KeepsN m z (execStandIn a0 a1) := by
  unfold execStandIn
  with_reducible apply keepsN_next
  apply State.propRow_keeps (hm.sub rfl)
  with_reducible assumption

theorem execReturnNode_keeps (hm : Within [.live, .staged, .map, .hst, .sum, .outbox] m) (a0 : ℕ) {a1 : State} (h1 : Keeps m z a1) : KeepsN m z (execReturnNode a0 a1) := by
  unfold execReturnNode
  with_reducible apply keepsN_next
  apply State.propRow_keeps (hm.sub rfl)
  with_reducible assumption

theorem execClearLoss_keeps (hm : Within [.live, .staged, .map, .hst, .sum, .outbox] m) (a0 : ℕ) (a1 : ℕ) {a2 : State} (h2 : Keeps m z a2) : KeepsN m z (execClearLoss a0 a1 a2) := by
  unfold execClearLoss
  with_reducible apply keepsN_next
  apply State.propRow_keeps (hm.sub rfl)
  with_reducible assumption

theorem execDeclareDead_keeps (hm : Within [.live, .staged, .map, .hst, .sum, .outbox] m) (a0 : ℕ) {a1 : State} (h1 : Keeps m z a1) : KeepsN m z (execDeclareDead a0 a1) := by
  unfold execDeclareDead
  with_reducible apply keepsN_next
  apply State.propRow_keeps (hm.sub rfl)
  with_reducible assumption

theorem State.learn_keeps (hm : Within [.map, .outbox] m) {a0 : State} (a1 : ℕ) (h0 : Keeps m z a0) : Keeps m z (State.learn a0 a1) := by
  unfold State.learn
  lift_lets
  (intro x; subst x)
  (intro (x : MapSt); subst x)
  (intro x; refine keeps_cut (p := Keeps m z x) ?_ (fun hx => ?_); (on_goal 1 => subst x))
  with_reducible refine keeps_mk (h := ?_)
  with_reducible assumption
  split
  apply State.startFetchMap_keeps (hm.sub rfl)
  with_reducible assumption
  with_reducible assumption

theorem execHello_keeps (hm : Within [.live, .run, .pgw, .sch, .que, .vsp, .mem, .prog, .mat, .lnk, .map, .hlt, .sec, .hst, .sum, .outbox, .freeCtr] m) (a0 : ℕ) (a1 : CtlHdr) (a2 : ℕ) (a3 : ℕ) (a4 : ℕ) (a5 : ℕ) (a6 : ℕ) (a7 : ℕ) (a8 : ℕ) (a9 : Bool) {a10 : State} (h10 : Keeps m z a10) : KeepsN m z (execHello a0 a1 a2 a3 a4 a5 a6 a7 a8 a9 a10) := by
  unfold execHello
  split
  with_reducible apply keepsN_next
  with_reducible assumption
  lift_lets
  (intro x; refine keeps_cut (p := Keeps m z x) ?_ (fun hx => ?_); (on_goal 2 => clear_value x); (on_goal 1 => subst x))
  apply State.checkAhead_keeps (hm.sub rfl)
  apply State.ctlIn_keeps (hm.sub rfl)
  with_reducible assumption
  (intro (x : MapSt); subst x)
  (intro x; refine keeps_cut (p := Keeps m z x) ?_ (fun hx => ?_); (on_goal 2 => clear_value x); (on_goal 1 => subst x))
  with_reducible refine keeps_mk (h := ?_)
  with_reducible assumption
  with_reducible apply keepsN_next
  apply State.learn_keeps (hm.sub rfl)
  with_reducible assumption

theorem execLease_keeps (hm : Within [.live, .run, .pgw, .sch, .que, .vsp, .mem, .prog, .mat, .lnk, .map, .hlt, .sec, .hst, .sum, .outbox, .freeCtr] m) (a0 : CtlHdr) (a1 : ℕ) (a2 : ℕ) {a3 : State} (h3 : Keeps m z a3) : KeepsN m z (execLease a0 a1 a2 a3) := by
  unfold execLease
  split
  with_reducible apply keepsN_next
  with_reducible assumption
  lift_lets
  (intro x; refine keeps_cut (p := Keeps m z x) ?_ (fun hx => ?_); (on_goal 2 => clear_value x); (on_goal 1 => subst x))
  apply State.checkAhead_keeps (hm.sub rfl)
  apply State.ctlIn_keeps (hm.sub rfl)
  apply State.takeTerm_keeps (hm.sub rfl)
  with_reducible assumption
  (intro (x : MapSt); subst x)
  split
  with_reducible apply keepsN_next
  apply State.setStatus_keeps (hm.sub rfl)
  with_reducible refine keeps_mk (h := ?_)
  with_reducible assumption
  with_reducible apply keepsN_next
  with_reducible assumption

theorem execHeartbeat_keeps (hm : Within [.live, .run, .pgw, .sch, .que, .vsp, .mem, .prog, .mat, .lnk, .map, .hlt, .sec, .hst, .sum, .outbox, .freeCtr] m) (a0 : CtlHdr) (a1 : ℕ) {a2 : State} (h2 : Keeps m z a2) : KeepsN m z (execHeartbeat a0 a1 a2) := by
  unfold execHeartbeat
  split
  with_reducible apply keepsN_next
  with_reducible assumption
  split
  with_reducible apply keepsN_next
  apply State.ctlIn_keeps (hm.sub rfl)
  with_reducible assumption
  lift_lets
  (intro x; refine keeps_cut (p := Keeps m z x) ?_ (fun hx => ?_); (on_goal 2 => clear_value x); (on_goal 1 => subst x))
  apply State.ctlIn_keeps (hm.sub rfl)
  apply State.takeTerm_keeps (hm.sub rfl)
  with_reducible assumption
  (intro (x : MapSt); subst x)
  split
  with_reducible apply keepsN_next
  apply State.learn_keeps (hm.sub rfl)
  with_reducible refine keeps_mk (h := ?_)
  with_reducible assumption
  with_reducible apply keepsN_next
  with_reducible assumption

theorem execElectionTimeout_keeps (hm : Within [.now, .map] m) {a0 : State} (h0 : Keeps m z a0) : KeepsN m z (execElectionTimeout a0) := by
  unfold execElectionTimeout
  split
  with_reducible apply keepsN_next
  with_reducible assumption
  lift_lets
  (intro x; refine keeps_cut (p := Keeps m z x) ?_ (fun hx => ?_); (on_goal 2 => clear_value x); (on_goal 1 => subst x))
  apply State.advanceTo_keeps (hm.sub rfl)
  with_reducible assumption
  (intro (x : MapSt); subst x)
  with_reducible apply keepsN_next
  with_reducible refine keeps_mk (h := ?_)
  with_reducible assumption

theorem execElectionBackoff_keeps (hm : Within [.now, .map, .outbox] m) {a0 : State} (h0 : Keeps m z a0) : KeepsN m z (execElectionBackoff a0) := by
  unfold execElectionBackoff
  split
  lift_lets
  (intro x; refine keeps_cut (p := Keeps m z x) ?_ (fun hx => ?_); (on_goal 2 => clear_value x); (on_goal 1 => subst x))
  apply State.advanceTo_keeps (hm.sub rfl)
  with_reducible assumption
  (intro x; clear_value x)
  (intro (x : MapSt); subst x)
  (intro x; refine keeps_cut (p := Keeps m z x) ?_ (fun hx => ?_); (on_goal 2 => clear_value x); (on_goal 1 => subst x))
  with_reducible refine keeps_mk (h := ?_)
  with_reducible assumption
  with_reducible apply keepsN_next
  (with_reducible refine keeps_foldl (fun s a hs => ?_) ?_)
  apply State.ctl_keeps (hm.sub rfl)
  with_reducible assumption
  with_reducible assumption
  with_reducible apply keepsN_next
  with_reducible assumption

theorem execVoteReq_keeps (hm : Within [.live, .run, .pgw, .sch, .que, .vsp, .mem, .prog, .mat, .lnk, .map, .hlt, .sec, .hst, .sum, .outbox, .freeCtr] m) (a0 : CtlHdr) (a1 : ℕ) {a2 : State} (h2 : Keeps m z a2) : KeepsN m z (execVoteReq a0 a1 a2) := by
  unfold execVoteReq
  split
  with_reducible apply keepsN_next
  with_reducible assumption
  split
  with_reducible apply keepsN_next
  apply State.ctlIn_keeps (hm.sub rfl)
  with_reducible assumption
  lift_lets
  (intro x; refine keeps_cut (p := Keeps m z x) ?_ (fun hx => ?_); (on_goal 2 => clear_value x); (on_goal 1 => subst x))
  apply State.ctlIn_keeps (hm.sub rfl)
  with_reducible assumption
  iterate 2 (intro x; clear_value x)
  (intro (x : MapSt); subst x)
  (intro x; refine keeps_cut (p := Keeps m z x) ?_ (fun hx => ?_); (on_goal 2 => clear_value x); (on_goal 1 => subst x))
  split
  with_reducible refine keeps_mk (h := ?_)
  with_reducible assumption
  with_reducible assumption
  with_reducible apply keepsN_next
  apply State.ctl_keeps (hm.sub rfl)
  with_reducible assumption

theorem State.winElection_keeps (hm : Within [.live, .map, .hst, .sum, .outbox] m) {a0 : State} (h0 : Keeps m z a0) : Keeps m z (State.winElection a0) := by
  unfold State.winElection
  lift_lets
  (intro (x : MapSt); subst x)
  (intro x; refine keeps_cut (p := Keeps m z x) ?_ (fun hx => ?_); (on_goal 1 => subst x))
  with_reducible refine keeps_mk (h := ?_)
  with_reducible assumption
  (intro x; refine keeps_cut (p := Keeps m z x) ?_ (fun hx => ?_); (on_goal 1 => subst x))
  apply State.sendHeartbeat_keeps (hm.sub rfl)
  apply State.raiseBit_keeps (hm.sub rfl)
  with_reducible assumption
  (intro x; refine keeps_cut (p := Keeps m z x) ?_ (fun hx => ?_); (on_goal 2 => clear_value x); (on_goal 1 => subst x))
  split
  with_reducible assumption
  apply State.sendLease_keeps (hm.sub rfl)
  with_reducible assumption
  (intro x; refine keeps_cut (p := Keeps m z x) ?_ (fun hx => ?_); (on_goal 2 => clear_value x); (on_goal 1 => subst x))
  split
  lift_lets
  (intro x; clear_value x)
  split
  lift_lets
  (intro x; refine keeps_cut (p := Keeps m z x) ?_ (fun hx => ?_); (on_goal 2 => clear_value x); (on_goal 1 => subst x))
  split
  apply State.dropLateModes_keeps (hm.sub rfl)
  with_reducible assumption
  with_reducible assumption
  (intro x; clear_value x)
  split
  apply State.sendPrepare_keeps (hm.sub rfl)
  with_reducible assumption
  with_reducible assumption
  with_reducible assumption
  with_reducible assumption
  apply State.refreshMap_keeps (hm.sub rfl)
  with_reducible assumption

theorem execVote_keeps (hm : Within [.live, .run, .pgw, .sch, .que, .vsp, .mem, .prog, .mat, .lnk, .map, .hlt, .sec, .hst, .sum, .outbox, .freeCtr] m) (a0 : CtlHdr) (a1 : Bool) {a2 : State} (h2 : Keeps m z a2) : KeepsN m z (execVote a0 a1 a2) := by
  unfold execVote
  split
  with_reducible apply keepsN_next
  with_reducible assumption
  split
  with_reducible apply keepsN_next
  apply State.ctlIn_keeps (hm.sub rfl)
  with_reducible assumption
  lift_lets
  (intro x; refine keeps_cut (p := Keeps m z x) ?_ (fun hx => ?_); (on_goal 2 => clear_value x); (on_goal 1 => subst x))
  apply State.ctlIn_keeps (hm.sub rfl)
  with_reducible assumption
  (intro x; clear_value x)
  (intro (x : MapSt); subst x)
  (intro x; refine keeps_cut (p := Keeps m z x) ?_ (fun hx => ?_); (on_goal 2 => clear_value x); (on_goal 1 => subst x))
  with_reducible refine keeps_mk (h := ?_)
  with_reducible assumption
  with_reducible apply keepsN_next
  split
  apply State.winElection_keeps (hm.sub rfl)
  with_reducible assumption
  with_reducible assumption

theorem execPropose_keeps (hm : Within [.live, .run, .pgw, .sch, .que, .vsp, .mem, .prog, .mat, .lnk, .map, .hlt, .sec, .hst, .sum, .outbox, .freeCtr] m) (a0 : CtlHdr) (a1 : List Change) {a2 : State} (h2 : Keeps m z a2) : KeepsN m z (execPropose a0 a1 a2) := by
  unfold execPropose
  split
  with_reducible apply keepsN_next
  with_reducible assumption
  split
  with_reducible apply keepsN_next
  apply State.ctlIn_keeps (hm.sub rfl)
  with_reducible assumption
  with_reducible apply keepsN_next
  (with_reducible refine keeps_foldl (fun s a hs => ?_) ?_)
  apply State.leaderTake_keeps (hm.sub rfl)
  with_reducible assumption
  apply State.ctlIn_keeps (hm.sub rfl)
  with_reducible assumption

theorem execPrepare_keeps (hm : Within [.live, .run, .pgw, .sch, .que, .vsp, .mem, .prog, .mat, .lnk, .map, .hlt, .sec, .hst, .sum, .outbox, .freeCtr] m) (a0 : CtlHdr) (a1 : ℕ) (a2 : List Change) (a3 : List Byte) {a4 : State} (h4 : Keeps m z a4) : KeepsN m z (execPrepare a0 a1 a2 a3 a4) := by
  unfold execPrepare
  split
  with_reducible apply keepsN_next
  with_reducible assumption
  split
  with_reducible apply keepsN_next
  apply State.ctlIn_keeps (hm.sub rfl)
  with_reducible assumption
  lift_lets
  (intro x; refine keeps_cut (p := Keeps m z x) ?_ (fun hx => ?_); (on_goal 2 => clear_value x); (on_goal 1 => subst x))
  apply State.ctlIn_keeps (hm.sub rfl)
  apply State.takeTerm_keeps (hm.sub rfl)
  with_reducible assumption
  (intro (x : MapSt); subst x)
  split
  lift_lets
  (intro x; clear_value x)
  split
  with_reducible apply keepsN_next
  apply State.ctl_keeps (hm.sub rfl)
  with_reducible refine keeps_mk (h := ?_)
  with_reducible assumption
  with_reducible apply keepsN_next
  with_reducible assumption
  with_reducible apply keepsN_next
  with_reducible assumption

theorem execAccept_keeps (hm : Within [.live, .run, .pgw, .sch, .que, .vsp, .mem, .prog, .mat, .lnk, .map, .hlt, .sec, .hst, .sum, .outbox, .freeCtr] m) (a0 : CtlHdr) (a1 : List Byte) {a2 : State} (h2 : Keeps m z a2) : KeepsN m z (execAccept a0 a1 a2) := by
  unfold execAccept
  split
  with_reducible apply keepsN_next
  with_reducible assumption
  split
  with_reducible apply keepsN_next
  apply State.ctlIn_keeps (hm.sub rfl)
  with_reducible assumption
  lift_lets
  (intro x; refine keeps_cut (p := Keeps m z x) ?_ (fun hx => ?_); (on_goal 2 => clear_value x); (on_goal 1 => subst x))
  apply State.ctlIn_keeps (hm.sub rfl)
  with_reducible assumption
  split
  with_reducible apply keepsN_next
  split
  apply State.countAccept_keeps (hm.sub rfl)
  with_reducible assumption
  with_reducible assumption
  with_reducible apply keepsN_next
  with_reducible assumption

theorem State.floodCommit_keeps (hm : Within [.outbox] m) {a0 : State} (a1 : ℕ) (a2 : CtlHdr) (a3 : ℕ) (a4 : List Change) (a5 : List Byte) (h0 : Keeps m z a0) : Keeps m z (State.floodCommit a0 a1 a2 a3 a4 a5) := by
  unfold State.floodCommit
  (with_reducible refine keeps_foldl (fun s a hs => ?_) ?_)
  split
  apply State.ctlOn_keeps (hm.sub rfl)
  with_reducible assumption
  with_reducible assumption
  with_reducible assumption

theorem execMapCommit_keeps (hm : Within [.live, .run, .pgw, .sch, .que, .vsp, .mem, .prog, .mat, .lnk, .map, .hlt, .sec, .hst, .sum, .outbox, .freeCtr] m) (a0 : ℕ) (a1 : CtlHdr) (a2 : ℕ) (a3 : List Change) (a4 : List Byte) {a5 : State} (h5 : Keeps m z a5) : KeepsN m z (execMapCommit a0 a1 a2 a3 a4 a5) := by
  unfold execMapCommit
  lift_lets
  (intro x; clear_value x)
  (intro (x : MapSt); subst x)
  (intro x; refine keeps_cut (p := Keeps m z x) ?_ (fun hx => ?_); (on_goal 2 => clear_value x); (on_goal 1 => subst x))
  with_reducible refine keeps_mk (h := ?_)
  with_reducible assumption
  (intro x; refine keeps_cut (p := Keeps m z x) ?_ (fun hx => ?_); (on_goal 2 => clear_value x); (on_goal 1 => subst x))
  apply State.floodCommit_keeps (hm.sub rfl)
  apply State.ctlIn_keeps (hm.sub rfl)
  apply State.takeTerm_keeps (hm.sub rfl)
  with_reducible assumption
  split
  with_reducible apply keepsN_next
  with_reducible assumption
  split
  with_reducible apply keepsN_next
  apply State.ctlIn_keeps (hm.sub rfl)
  with_reducible assumption
  split
  with_reducible apply keepsN_next
  split
  apply State.adopt_keeps (hm.sub rfl)
  with_reducible assumption
  apply State.learn_keeps (hm.sub rfl)
  with_reducible assumption
  with_reducible apply keepsN_next
  apply State.learn_keeps (hm.sub rfl)
  with_reducible assumption

theorem execRefuse_keeps (hm : Within [.live, .run, .pgw, .sch, .que, .vsp, .mem, .prog, .mat, .lnk, .map, .hlt, .sec, .hst, .sum, .outbox, .freeCtr] m) (a0 : CtlHdr) (a1 : ℕ) (a2 : ℕ) {a3 : State} (h3 : Keeps m z a3) : KeepsN m z (execRefuse a0 a1 a2 a3) := by
  unfold execRefuse
  with_reducible apply keepsN_next
  split
  with_reducible assumption
  split
  apply State.decided_keeps (hm.sub rfl)
  apply State.ctlIn_keeps (hm.sub rfl)
  with_reducible assumption
  apply State.ctlIn_keeps (hm.sub rfl)
  with_reducible assumption

theorem execProposalTimeout_keeps (hm : Within [.now, .live, .map, .hst, .sum, .outbox] m) {a0 : State} (h0 : Keeps m z a0) : KeepsN m z (execProposalTimeout a0) := by
  unfold execProposalTimeout
  split
  with_reducible apply keepsN_next
  with_reducible assumption
  lift_lets
  (intro x; refine keeps_cut (p := Keeps m z x) ?_ (fun hx => ?_); (on_goal 2 => clear_value x); (on_goal 1 => subst x))
  apply State.advanceTo_keeps (hm.sub rfl)
  with_reducible assumption
  (intro x; refine keeps_cut (p := Keeps m z x) ?_ (fun hx => ?_); (on_goal 2 => clear_value x); (on_goal 1 => subst x))
  apply State.refuseLate_keeps (hm.sub rfl)
  with_reducible assumption
  (intro x; refine keeps_cut (p := Keeps m z x) ?_ (fun hx => ?_); (on_goal 2 => clear_value x); (on_goal 1 => subst x))
  split
  apply State.endMode_keeps (hm.sub rfl)
  with_reducible assumption
  with_reducible assumption
  (intro x; clear_value x)
  with_reducible apply keepsN_next
  split
  apply State.endProposal_keeps (hm.sub rfl)
  with_reducible assumption
  with_reducible assumption

theorem execFetch_keeps (hm : Within [.live, .run, .pgw, .sch, .que, .vsp, .mem, .prog, .mat, .lnk, .map, .hlt, .sec, .hst, .sum, .outbox, .freeCtr] m) (a0 : CtlHdr) (a1 : ℕ) (a2 : ℕ) {a3 : State} (h3 : Keeps m z a3) : KeepsN m z (execFetch a0 a1 a2 a3) := by
  unfold execFetch
  split
  with_reducible apply keepsN_next
  with_reducible assumption
  split
  with_reducible apply keepsN_next
  apply State.ctlIn_keeps (hm.sub rfl)
  with_reducible assumption
  lift_lets
  (intro x; refine keeps_cut (p := Keeps m z x) ?_ (fun hx => ?_); (on_goal 2 => clear_value x); (on_goal 1 => subst x))
  apply State.ctlIn_keeps (hm.sub rfl)
  with_reducible assumption
  split
  with_reducible apply keepsN_next
  apply State.ctl_keeps (hm.sub rfl)
  with_reducible assumption
  with_reducible apply keepsN_next
  with_reducible assumption

theorem State.fetched_keeps (hm : Within [.live, .map, .hst, .sum, .outbox] m) {a0 : State} (a1 : MapData) (h0 : Keeps m z a0) : Keeps m z (State.fetched a0 a1) := by
  unfold State.fetched
  split
  with_reducible refine keeps_mk (h := ?_)
  with_reducible assumption
  lift_lets
  iterate 2 (intro x; clear_value x)
  (intro (x : MapSt); subst x)
  (intro x; refine keeps_cut (p := Keeps m z x) ?_ (fun hx => ?_); (on_goal 2 => clear_value x); (on_goal 1 => subst x))
  with_reducible refine keeps_mk (h := ?_)
  with_reducible assumption
  (intro x; refine keeps_cut (p := Keeps m z x) ?_ (fun hx => ?_); (on_goal 2 => clear_value x); (on_goal 1 => subst x))
  apply State.announceMode_keeps (hm.sub rfl)
  with_reducible assumption
  (intro x; refine keeps_cut (p := Keeps m z x) ?_ (fun hx => ?_); (on_goal 2 => clear_value x); (on_goal 1 => subst x))
  split
  apply State.endMode_keeps (hm.sub rfl)
  with_reducible assumption
  with_reducible assumption
  (intro x; clear_value x)
  (intro (x : MapSt); subst x)
  (intro x; refine keeps_cut (p := Keeps m z x) ?_ (fun hx => ?_); (on_goal 2 => clear_value x); (on_goal 1 => subst x))
  split
  with_reducible refine keeps_mk (h := ?_)
  with_reducible assumption
  with_reducible assumption
  apply State.refreshMap_keeps (hm.sub rfl)
  apply State.raiseBit_keeps (hm.sub rfl)
  with_reducible assumption

theorem execMapPart_keeps (hm : Within [.live, .run, .pgw, .sch, .que, .vsp, .mem, .prog, .mat, .lnk, .map, .hlt, .sec, .hst, .sum, .outbox, .freeCtr] m) (a0 : CtlHdr) (a1 : ℕ) (a2 : Bool) (a3 : MapData) {a4 : State} (h4 : Keeps m z a4) : KeepsN m z (execMapPart a0 a1 a2 a3 a4) := by
  unfold execMapPart
  split
  with_reducible apply keepsN_next
  with_reducible assumption
  lift_lets
  (intro x; refine keeps_cut (p := Keeps m z x) ?_ (fun hx => ?_); (on_goal 2 => clear_value x); (on_goal 1 => subst x))
  apply State.ctlIn_keeps (hm.sub rfl)
  with_reducible assumption
  (intro (x : MapSt); subst x)
  split
  with_reducible apply keepsN_next
  with_reducible assumption
  lift_lets
  (intro x; refine keeps_cut (p := Keeps m z x) ?_ (fun hx => ?_); (on_goal 2 => clear_value x); (on_goal 1 => subst x))
  with_reducible refine keeps_mk (h := ?_)
  with_reducible assumption
  split
  with_reducible apply keepsN_next
  with_reducible assumption
  split
  with_reducible apply keepsN_next
  split
  with_reducible assumption
  apply State.ctl_keeps (hm.sub rfl)
  with_reducible assumption
  split
  with_reducible apply keepsN_next
  with_reducible refine keeps_mk (h := ?_)
  with_reducible assumption
  with_reducible apply keepsN_next
  apply State.fetched_keeps (hm.sub rfl)
  with_reducible assumption

theorem State.noteSuspect_keeps (hm : Within [.map] m) {a0 : State} (a1 : ℕ) (a2 : ℕ) (h0 : Keeps m z a0) : Keeps m z (State.noteSuspect a0 a1 a2) := by
  unfold State.noteSuspect
  split
  with_reducible assumption
  split
  with_reducible assumption
  lift_lets
  iterate 2 (intro x; clear_value x)
  (intro (x : MapSt); subst x)
  (intro x; refine keeps_cut (p := Keeps m z x) ?_ (fun hx => ?_); (on_goal 2 => clear_value x); (on_goal 1 => subst x))
  with_reducible refine keeps_mk (h := ?_)
  with_reducible assumption
  (intro x; clear_value x)
  (intro (x : MapSt); subst x)
  split
  with_reducible refine keeps_mk (h := ?_)
  with_reducible assumption
  with_reducible assumption

theorem execSuspect_keeps (hm : Within [.live, .run, .pgw, .sch, .que, .vsp, .mem, .prog, .mat, .lnk, .map, .hlt, .sec, .hst, .sum, .outbox, .freeCtr] m) (a0 : CtlHdr) (a1 : ℕ) (a2 : ℕ) {a3 : State} (h3 : Keeps m z a3) : KeepsN m z (execSuspect a0 a1 a2 a3) := by
  unfold execSuspect
  split
  with_reducible apply keepsN_next
  with_reducible assumption
  split
  with_reducible apply keepsN_next
  apply State.ctlIn_keeps (hm.sub rfl)
  with_reducible assumption
  lift_lets
  (intro x; refine keeps_cut (p := Keeps m z x) ?_ (fun hx => ?_); (on_goal 2 => clear_value x); (on_goal 1 => subst x))
  apply State.ctlIn_keeps (hm.sub rfl)
  with_reducible assumption
  (intro (x : MapSt); subst x)
  split
  with_reducible apply keepsN_next
  with_reducible refine keeps_mk (h := ?_)
  with_reducible assumption
  with_reducible apply keepsN_next
  apply State.noteSuspect_keeps (hm.sub rfl)
  with_reducible assumption

theorem execSuspectTimeout_keeps (hm : Within [.now, .map, .outbox] m) (a0 : ℕ) {a1 : State} (h1 : Keeps m z a1) : KeepsN m z (execSuspectTimeout a0 a1) := by
  unfold execSuspectTimeout
  split
  with_reducible apply keepsN_next
  with_reducible assumption
  lift_lets
  iterate 2 (intro x; clear_value x)
  (intro x; refine keeps_cut (p := Keeps m z x) ?_ (fun hx => ?_); (on_goal 2 => clear_value x); (on_goal 1 => subst x))
  apply State.advanceTo_keeps (hm.sub rfl)
  with_reducible assumption
  (intro (x : MapSt); subst x)
  (intro x; refine keeps_cut (p := Keeps m z x) ?_ (fun hx => ?_); (on_goal 2 => clear_value x); (on_goal 1 => subst x))
  with_reducible refine keeps_mk (h := ?_)
  with_reducible assumption
  with_reducible apply keepsN_next
  split
  apply State.noteSuspect_keeps (hm.sub rfl)
  with_reducible assumption
  apply State.ctl_keeps (hm.sub rfl)
  with_reducible assumption

theorem execJoin_keeps (hm : Within [.live, .run, .pgw, .sch, .que, .vsp, .mem, .prog, .mat, .lnk, .map, .hlt, .sec, .hst, .sum, .outbox, .freeCtr] m) (a0 : CtlHdr) (a1 : JoinFacts) (a2 : ℕ) (a3 : ℕ) (a4 : ℕ) (a5 : ℕ) (a6 : ℕ) (a7 : ℕ) {a8 : State} (h8 : Keeps m z a8) : KeepsN m z (execJoin a0 a1 a2 a3 a4 a5 a6 a7 a8) := by
  unfold execJoin
  split
  with_reducible apply keepsN_next
  with_reducible assumption
  lift_lets
  (intro x; refine keeps_cut (p := Keeps m z x) ?_ (fun hx => ?_); (on_goal 2 => clear_value x); (on_goal 1 => subst x))
  apply State.ctlIn_keeps (hm.sub rfl)
  with_reducible assumption
  (intro x; clear_value x)
  (intro (x : MapSt); subst x)
  split
  with_reducible apply keepsN_next
  with_reducible assumption
  split
  with_reducible apply keepsN_next
  split
  with_reducible assumption
  apply State.ctlOn_keeps (hm.sub rfl)
  with_reducible assumption
  with_reducible apply keepsN_next
  split
  with_reducible assumption
  with_reducible refine keeps_mk (h := ?_)
  with_reducible assumption

theorem execSequenceTransfer_keeps (hm : Within [.live, .pgw, .sch, .vsp, .mem, .map, .hst, .sum, .outbox] m) (a0 : ℕ) (a1 : SeqRec) {a2 : State} (h2 : Keeps m z a2) : KeepsN m z (execSequenceTransfer a0 a1 a2) := by
  unfold execSequenceTransfer
  split
  with_reducible apply keepsN_next
  with_reducible assumption
  split
  lift_lets
  (intro x; clear_value x)
  (intro (x : MapSt); subst x)
  with_reducible apply keepsN_next
  apply State.transfersEnd_keeps (hm.sub rfl)
  with_reducible refine keeps_mk (h := ?_)
  with_reducible assumption
  split
  with_reducible apply keepsN_next
  apply State.takeHome_keeps (hm.sub rfl)
  with_reducible assumption
  with_reducible apply keepsN_next
  apply State.takeHeld_keeps (hm.sub rfl)
  with_reducible assumption

/-! ### Views -/

theorem State.denied_keeps (hm : Within [.live, .run, .hst, .sum, .outbox] m) {a0 : State} (h0 : Keeps m z a0) : Keeps m z (State.denied a0) := by
  unfold State.denied
  apply State.raiseBit_keeps (hm.sub rfl)
  apply State.bump_keeps (hm.sub rfl)
  with_reducible assumption

theorem State.unmappedAccess_keeps (hm : Within [.run] m) {a0 : State} (h0 : Keeps m z a0) : Keeps m z (State.unmappedAccess a0) := by
  unfold State.unmappedAccess
  apply State.bump_keeps (hm.sub rfl)
  with_reducible assumption

theorem State.readReg_keeps (hm : Within [.live, .run, .hst, .sum, .outbox] m) {a0 : State} (a1 : Option ℕ) (a2 : ℕ) (h0 : Keeps m z a0) : Keeps m z (State.readReg a0 a1 a2).2 := by
  unfold State.readReg
  lift_lets
  (intro x; clear_value x)
  split
  split
  split
  with_reducible assumption
  dsimp only
  apply State.denied_keeps (hm.sub rfl)
  with_reducible assumption
  dsimp only
  apply State.denied_keeps (hm.sub rfl)
  with_reducible assumption
  split
  with_reducible assumption
  with_reducible assumption
  dsimp only
  apply State.unmappedAccess_keeps (hm.sub rfl)
  with_reducible assumption

theorem State.readRegs_keeps (hm : Within [.live, .run, .hst, .sum, .outbox] m) {a0 : State} (a1 : Option ℕ) (a2 : ℕ) (a3 : ℕ) (h0 : Keeps m z a0) : Keeps m z (State.readRegs a0 a1 a2 a3).2 := by
  induction a3 generalizing a0 a1 a2 with
  | zero =>
    unfold State.readRegs
    with_reducible assumption
  | succ k ih =>
    unfold State.readRegs
    lift_lets
    (intro x; refine keeps_cut (p := Keeps m z x.2) ?_ (fun hx => ?_); (on_goal 2 => clear_value x); (on_goal 1 => subst x))
    apply State.readReg_keeps (hm.sub rfl)
    with_reducible assumption
    (intro x; refine keeps_cut (p := Keeps m z x.2) ?_ (fun hx => ?_); (on_goal 2 => clear_value x); (on_goal 1 => subst x))
    with_reducible apply ih
    with_reducible assumption
    with_reducible assumption

/-! ### Time -/

theorem State.loseTime_keeps (hm : Within [.live, .run, .time, .pgw, .sch, .que, .vsp, .mem, .prog, .mat, .lnk, .map, .hlt, .sec, .hst, .sum, .outbox, .freeCtr] m) {a0 : State} (h0 : Keeps m z a0) : Keeps m z (State.loseTime a0) := by
  unfold State.loseTime
  lift_lets
  (intro (x : TimeSt); subst x)
  (intro x; refine keeps_cut (p := Keeps m z x) ?_ (fun hx => ?_); (on_goal 2 => clear_value x); (on_goal 1 => subst x))
  with_reducible refine keeps_mk (h := ?_)
  with_reducible assumption
  apply State.fenceForTime_keeps (hm.sub rfl)
  apply State.setStatus_keeps (hm.sub rfl)
  with_reducible assumption

theorem State.refreshTime_keeps (hm : Within [.live, .run, .time, .pgw, .sch, .que, .vsp, .mem, .prog, .mat, .lnk, .map, .hlt, .sec, .hst, .sum, .outbox, .freeCtr] m) {a0 : State} (h0 : Keeps m z a0) : Keeps m z (State.refreshTime a0) := by
  have key : ∀ p b v, Keeps m z (({ a0 with time := { a0.time with parent := p, ppsValid := b } } : State).putStatus Reg.timeStatus v) := fun p b v => by
    apply State.putStatus_keeps (hm.sub rfl)
    with_reducible refine keeps_mk (h := h0)
  unfold State.refreshTime
  dsimp only
  refine keeps_ite (State.loseTime_keeps (hm.sub rfl) (keeps_ite ?_ (key _ _ _))) (keeps_ite ?_ (key _ _ _))
  all_goals exact State.raiseBit_keeps (hm.sub rfl) _ _ (key _ _ _)

theorem State.acquire_keeps (hm : Within [.live, .time] m) {a0 : State} (h0 : Keeps m z a0) : Keeps m z (State.acquire a0) := by
  unfold State.acquire
  lift_lets
  (intro (x : TimeSt); subst x)
  (intro x; refine keeps_cut (p := Keeps m z x) ?_ (fun hx => ?_); (on_goal 2 => clear_value x); (on_goal 1 => subst x))
  with_reducible refine keeps_mk (h := ?_)
  with_reducible assumption
  split
  apply State.setStatus_keeps (hm.sub rfl)
  with_reducible assumption
  with_reducible assumption

theorem State.slewOn_keeps (hm : Within [.live, .time] m) {a0 : State} (h0 : Keeps m z a0) : Keeps m z (State.slewOn a0) := by
  unfold State.slewOn
  lift_lets
  iterate 2 (intro x; clear_value x)
  (intro (x : TimeSt); subst x)
  (intro x; refine keeps_cut (p := Keeps m z x) ?_ (fun hx => ?_); (on_goal 2 => clear_value x); (on_goal 1 => subst x))
  with_reducible refine keeps_mk (h := ?_)
  with_reducible assumption
  split
  apply State.setStatus_keeps (hm.sub rfl)
  with_reducible assumption
  with_reducible assumption

theorem State.countOn_keeps (hm : Within [.now, .time] m) {a0 : State} (h0 : Keeps m z a0) : Keeps m z (State.countOn a0) := by
  unfold State.countOn
  lift_lets
  (intro x; clear_value x)
  (intro (x : TimeSt); subst x)
  with_reducible refine keeps_mk (h := ?_)
  with_reducible assumption

theorem State.measured_keeps (hm : Within [.live, .run, .time, .pgw, .sch, .que, .vsp, .mem, .prog, .mat, .lnk, .map, .hlt, .sec, .hst, .sum, .outbox, .freeCtr] m) {a0 : State} (a1 : Int) (h0 : Keeps m z a0) : Keeps m z (State.measured a0 a1) := by
  unfold State.measured
  lift_lets
  (intro x; refine keeps_cut (p := Keeps m z x) ?_ (fun hx => ?_); (on_goal 2 => clear_value x); (on_goal 1 => subst x))
  apply State.slewOn_keeps (hm.sub rfl)
  with_reducible assumption
  (intro x; clear_value x)
  (intro x; refine keeps_cut (p := Keeps m z x) ?_ (fun hx => ?_); (on_goal 2 => clear_value x); (on_goal 1 => subst x))
  apply State.setLive_keeps (hm.sub rfl)
  with_reducible assumption
  (intro x; refine keeps_cut (p := Keeps m z x) ?_ (fun hx => ?_); (on_goal 2 => clear_value x); (on_goal 1 => subst x))
  apply State.setStatus_keeps (hm.sub rfl)
  with_reducible assumption
  (intro (x : TimeSt); subst x)
  split
  apply State.loseTime_keeps (hm.sub rfl)
  apply State.raiseBit_keeps (hm.sub rfl)
  with_reducible assumption
  with_reducible refine keeps_mk (h := ?_)
  with_reducible assumption

theorem State.stepCount_keeps (hm : Within [.now, .live, .time] m) {a0 : State} (a1 : ℕ) (h0 : Keeps m z a0) : Keeps m z (State.stepCount a0 a1) := by
  unfold State.stepCount
  lift_lets
  (intro x; clear_value x)
  (intro (x : TimeSt); subst x)
  (intro (x : TimeSt); subst x)
  apply State.acquire_keeps (hm.sub rfl)
  apply State.setStatus_keeps (hm.sub rfl)
  with_reducible refine keeps_mk (h := ?_)
  with_reducible assumption

theorem State.ppsBad_keeps (hm : Within [.live, .time, .hst, .sum, .outbox] m) {a0 : State} (h0 : Keeps m z a0) : Keeps m z (State.ppsBad a0) := by
  unfold State.ppsBad
  apply State.raiseBit_keeps (hm.sub rfl)
  with_reducible refine keeps_mk (h := ?_)
  with_reducible assumption

theorem State.announcedEdge_keeps (hm : Within [.now, .live, .run, .time, .pgw, .sch, .que, .vsp, .mem, .prog, .mat, .lnk, .map, .hlt, .sec, .hst, .sum, .outbox, .freeCtr] m) {a0 : State} (a1 : ℕ) (h0 : Keeps m z a0) : Keeps m z (State.announcedEdge a0 a1) := by
  unfold State.announcedEdge
  split
  with_reducible assumption
  lift_lets
  (intro (x : TimeSt); subst x)
  (intro x; refine keeps_cut (p := Keeps m z x) ?_ (fun hx => ?_); (on_goal 2 => clear_value x); (on_goal 1 => subst x))
  with_reducible refine keeps_mk (h := ?_)
  with_reducible assumption
  (intro x; clear_value x)
  (intro x; refine keeps_cut (p := Keeps m z x) ?_ (fun hx => ?_); (on_goal 2 => clear_value x); (on_goal 1 => subst x))
  apply State.stepCount_keeps (hm.sub rfl)
  with_reducible assumption
  (intro (x : TimeSt); subst x)
  split
  with_reducible assumption
  split
  with_reducible refine keeps_mk (h := ?_)
  with_reducible assumption
  split
  with_reducible assumption
  apply State.measured_keeps (hm.sub rfl)
  with_reducible assumption

theorem execPpsInEdge_keeps (hm : Within [.now, .live, .run, .time, .pgw, .sch, .que, .vsp, .mem, .prog, .mat, .lnk, .map, .hlt, .sec, .hst, .sum, .outbox, .freeCtr] m) (a0 : ℕ) {a1 : State} (h1 : Keeps m z a1) : KeepsN m z (execPpsInEdge a0 a1) := by
  unfold execPpsInEdge
  split
  with_reducible apply keepsN_next
  with_reducible assumption
  lift_lets
  (intro x; refine keeps_cut (p := Keeps m z x) ?_ (fun hx => ?_); (on_goal 2 => clear_value x); (on_goal 1 => subst x))
  apply State.advanceTo_keeps (hm.sub rfl)
  with_reducible assumption
  (intro (x : TimeSt); subst x)
  (intro x; refine keeps_cut (p := Keeps m z x) ?_ (fun hx => ?_); (on_goal 2 => clear_value x); (on_goal 1 => subst x))
  split
  with_reducible assumption
  split
  with_reducible refine keeps_mk (h := ?_)
  with_reducible assumption
  apply State.ppsBad_keeps (hm.sub rfl)
  with_reducible assumption
  (intro (x : TimeSt); subst x)
  (intro x; refine keeps_cut (p := Keeps m z x) ?_ (fun hx => ?_); (on_goal 2 => clear_value x); (on_goal 1 => subst x))
  with_reducible refine keeps_mk (h := ?_)
  with_reducible assumption
  with_reducible apply keepsN_next
  apply State.refreshTime_keeps (hm.sub rfl)
  apply State.announcedEdge_keeps (hm.sub rfl)
  apply State.refreshTime_keeps (hm.sub rfl)
  with_reducible assumption

theorem execPpsMissing_keeps (hm : Within [.now, .live, .run, .time, .pgw, .sch, .que, .vsp, .mem, .prog, .mat, .lnk, .map, .hlt, .sec, .hst, .sum, .outbox, .freeCtr] m) {a0 : State} (h0 : Keeps m z a0) : KeepsN m z (execPpsMissing a0) := by
  unfold execPpsMissing
  split
  with_reducible apply keepsN_next
  with_reducible assumption
  split
  with_reducible apply keepsN_next
  with_reducible assumption
  lift_lets
  (intro x; refine keeps_cut (p := Keeps m z x) ?_ (fun hx => ?_); (on_goal 2 => clear_value x); (on_goal 1 => subst x))
  apply State.advanceTo_keeps (hm.sub rfl)
  with_reducible assumption
  (intro (x : TimeSt); subst x)
  with_reducible apply keepsN_next
  apply State.refreshTime_keeps (hm.sub rfl)
  apply State.ppsBad_keeps (hm.sub rfl)
  with_reducible refine keeps_mk (h := ?_)
  with_reducible assumption

theorem State.acceptTime_keeps (hm : Within [.live, .time, .hst, .sum, .outbox] m) {a0 : State} (a1 : List Byte) (h0 : Keeps m z a0) : Keeps m z (State.acceptTime a0 a1) := by
  unfold State.acceptTime
  lift_lets
  iterate 2 (intro x; clear_value x)
  (intro (x : TimeSt); subst x)
  (intro x; refine keeps_cut (p := Keeps m z x) ?_ (fun hx => ?_); (on_goal 2 => clear_value x); (on_goal 1 => subst x))
  with_reducible refine keeps_mk (h := ?_)
  with_reducible assumption
  split
  apply State.raiseBit_keeps (hm.sub rfl)
  with_reducible assumption
  with_reducible assumption

theorem State.rejectTime_keeps (hm : Within [.live, .hst, .sum, .outbox] m) {a0 : State} (h0 : Keeps m z a0) : Keeps m z (State.rejectTime a0) := by
  unfold State.rejectTime
  apply State.raiseBit_keeps (hm.sub rfl)
  with_reducible assumption

theorem execTimeInMessage_keeps (hm : Within [.now, .live, .run, .time, .pgw, .sch, .que, .vsp, .mem, .prog, .mat, .lnk, .map, .hlt, .sec, .hst, .sum, .outbox, .freeCtr] m) (a0 : List Byte) (a1 : ℕ) {a2 : State} (h2 : Keeps m z a2) : KeepsN m z (execTimeInMessage a0 a1 a2) := by
  unfold execTimeInMessage
  split
  with_reducible apply keepsN_next
  with_reducible assumption
  lift_lets
  (intro x; refine keeps_cut (p := Keeps m z x) ?_ (fun hx => ?_); (on_goal 2 => clear_value x); (on_goal 1 => subst x))
  split
  apply State.advanceTo_keeps (hm.sub rfl)
  with_reducible assumption
  with_reducible assumption
  (intro x; clear_value x)
  (intro (x : TimeSt); subst x)
  split
  with_reducible apply keepsN_next
  apply State.rejectTime_keeps (hm.sub rfl)
  with_reducible assumption
  split
  with_reducible apply keepsN_next
  apply State.refreshTime_keeps (hm.sub rfl)
  split
  apply State.acceptTime_keeps (hm.sub rfl)
  with_reducible assumption
  apply State.rejectTime_keeps (hm.sub rfl)
  with_reducible assumption
  with_reducible apply keepsN_next
  with_reducible refine keeps_mk (h := ?_)
  with_reducible assumption
  split
  with_reducible apply keepsN_next
  apply State.refreshTime_keeps (hm.sub rfl)
  apply State.acceptTime_keeps (hm.sub rfl)
  with_reducible assumption
  with_reducible apply keepsN_next
  apply State.rejectTime_keeps (hm.sub rfl)
  with_reducible refine keeps_mk (h := ?_)
  with_reducible assumption

theorem execTimeInLoss_keeps (hm : Within [.now, .live, .run, .time, .pgw, .sch, .que, .vsp, .mem, .prog, .mat, .lnk, .map, .hlt, .sec, .hst, .sum, .outbox, .freeCtr] m) {a0 : State} (h0 : Keeps m z a0) : KeepsN m z (execTimeInLoss a0) := by
  unfold execTimeInLoss
  split
  with_reducible apply keepsN_next
  with_reducible assumption
  split
  with_reducible apply keepsN_next
  with_reducible assumption
  lift_lets
  (intro x; refine keeps_cut (p := Keeps m z x) ?_ (fun hx => ?_); (on_goal 2 => clear_value x); (on_goal 1 => subst x))
  apply State.advanceTo_keeps (hm.sub rfl)
  with_reducible assumption
  (intro (x : TimeSt); subst x)
  with_reducible apply keepsN_next
  apply State.refreshTime_keeps (hm.sub rfl)
  with_reducible refine keeps_mk (h := ?_)
  with_reducible assumption

theorem State.putPartner_keeps (hm : Within [.time] m) {a0 : State} (a1 : ℕ) (a2 : PartnerTime) (h0 : Keeps m z a0) : Keeps m z (State.putPartner a0 a1 a2) := by
  unfold State.putPartner
  with_reducible refine keeps_mk (h := ?_)
  with_reducible assumption

theorem State.sendTimeFrames_keeps (hm : Within [.run, .time, .lnk, .outbox] m) {a0 : State} (h0 : Keeps m z a0) : Keeps m z (State.sendTimeFrames a0) := by
  unfold State.sendTimeFrames
  split
  with_reducible assumption
  (with_reducible refine keeps_foldl (fun s a hs => ?_) ?_)
  lift_lets
  (intro x; clear_value x)
  apply State.putPartner_keeps (hm.sub rfl)
  apply State.putFrame_keeps (hm.sub rfl)
  with_reducible assumption
  with_reducible assumption

theorem State.followParent_keeps (hm : Within [.now, .live, .run, .time, .pgw, .sch, .que, .vsp, .mem, .prog, .mat, .lnk, .map, .hlt, .sec, .hst, .sum, .outbox, .freeCtr] m) {a0 : State} (a1 : ℕ) (h0 : Keeps m z a0) : Keeps m z (State.followParent a0 a1) := by
  unfold State.followParent
  lift_lets
  (intro x; clear_value x)
  split
  with_reducible assumption
  split
  with_reducible assumption
  split
  apply State.measured_keeps (hm.sub rfl)
  with_reducible assumption
  apply State.stepCount_keeps (hm.sub rfl)
  with_reducible assumption

theorem execTimeFrame_keeps (hm : Within [.now, .live, .run, .pend, .parity, .time, .pgw, .sch, .que, .vsp, .mem, .prog, .mat, .lnk, .map, .hlt, .sec, .hst, .sum, .outbox, .freeCtr] m) (a0 : ℕ) (a1 : Frame) (a2 : ℕ) (a3 : ℕ) {a4 : State} (h4 : Keeps m z a4) : KeepsN m z (execTimeFrame a0 a1 a2 a3 a4) := by
  unfold execTimeFrame
  lift_lets
  (intro x; refine keeps_cut (p := Keeps m z x) ?_ (fun hx => ?_); (on_goal 2 => clear_value x); (on_goal 1 => subst x))
  split
  apply State.fecCount_keeps (hm.sub rfl)
  with_reducible assumption
  with_reducible assumption
  (intro x; clear_value x)
  split
  with_reducible apply keepsN_next
  with_reducible assumption
  split
  with_reducible apply keepsN_next
  apply State.badFrame_keeps (hm.sub rfl)
  with_reducible assumption
  lift_lets
  (intro x; refine keeps_cut (p := Keeps m z x) ?_ (fun hx => ?_); (on_goal 2 => clear_value x); (on_goal 1 => subst x))
  apply State.frameTaken_keeps (hm.sub rfl)
  apply State.heardFrame_keeps (hm.sub rfl)
  apply State.advanceTo_keeps (hm.sub rfl)
  with_reducible assumption
  (intro x; refine keeps_cut (p := Keeps m z x) ?_ (fun hx => ?_); (on_goal 2 => clear_value x); (on_goal 1 => subst x))
  split
  apply State.takeHeader_keeps (hm.sub rfl)
  with_reducible assumption
  with_reducible assumption
  (intro x; clear_value x)
  (intro x; refine keeps_cut (p := Keeps m z x) ?_ (fun hx => ?_); (on_goal 2 => clear_value x); (on_goal 1 => subst x))
  apply State.putPartner_keeps (hm.sub rfl)
  with_reducible assumption
  (intro x; refine keeps_cut (p := Keeps m z x) ?_ (fun hx => ?_); (on_goal 2 => clear_value x); (on_goal 1 => subst x))
  split
  apply State.raiseBit_keeps (hm.sub rfl)
  with_reducible assumption
  with_reducible assumption
  split
  with_reducible apply keepsN_next
  with_reducible assumption
  with_reducible apply keepsN_next
  apply State.refreshTime_keeps (hm.sub rfl)
  apply State.followParent_keeps (hm.sub rfl)
  apply State.refreshTime_keeps (hm.sub rfl)
  with_reducible assumption

theorem execHbmRefresh_keeps (hm : Within [.time] m) (a0 : ℕ) {a1 : State} (h1 : Keeps m z a1) : KeepsN m z (execHbmRefresh a0 a1) := by
  unfold execHbmRefresh
  split
  with_reducible apply keepsN_next
  with_reducible assumption
  with_reducible apply keepsN_next
  with_reducible refine keeps_mk (h := ?_)
  with_reducible assumption

theorem execLpddrRefresh_keeps (hm : Within [.time] m) {a0 : State} (h0 : Keeps m z a0) : KeepsN m z (execLpddrRefresh a0) := by
  unfold execLpddrRefresh
  split
  with_reducible apply keepsN_next
  with_reducible assumption
  with_reducible apply keepsN_next
  with_reducible refine keeps_mk (h := ?_)
  with_reducible assumption

theorem State.refreshSsc_keeps (hm : Within [.live] m) {a0 : State} (h0 : Keeps m z a0) : Keeps m z (State.refreshSsc a0) := by
  unfold State.refreshSsc
  lift_lets
  (intro x; clear_value x)
  apply State.setStatus_keeps (hm.sub rfl)
  with_reducible assumption

theorem execModeClockSwitch_keeps (hm : Within [.now, .live, .time] m) {a0 : State} (h0 : Keeps m z a0) : KeepsN m z (execModeClockSwitch a0) := by
  unfold execModeClockSwitch
  split
  with_reducible apply keepsN_next
  with_reducible assumption
  lift_lets
  (intro x; refine keeps_cut (p := Keeps m z x) ?_ (fun hx => ?_); (on_goal 2 => clear_value x); (on_goal 1 => subst x))
  apply State.advanceTo_keeps (hm.sub rfl)
  with_reducible assumption
  (intro (x : TimeSt); subst x)
  with_reducible apply keepsN_next
  apply State.refreshSsc_keeps (hm.sub rfl)
  with_reducible refine keeps_mk (h := ?_)
  with_reducible assumption

end Sys2Proof.Machine
end

