-- ==== Sys2Proof/Laws/Keeps/Node.lean ====
section
/-!
SUPPORT. What the operations of Machine/Commit, Regs, Health, Sec, Boot, Minute, Midnight, Requests keep: the parts of the state outside the list each lemma names, the queue, and the invariant.
-/

namespace Sys2Proof.Machine

open Sys2Proof

set_option Elab.async false

variable {m : List Blk} {z : State}

/-! ### Commit -/

theorem State.dialReport_keeps (hm : Within [.live] m) {a0 : State} (a1 : Option (ℕ × Bool × ℕ × ℕ)) (h0 : Keeps m z a0) : Keeps m z (State.dialReport a0 a1) := by
  unfold State.dialReport
  split
  with_reducible assumption
  apply State.setLive_keeps (hm.sub rfl)
  with_reducible assumption

theorem State.putPend_keeps (hm : Within [.pend, .parity] m) {a0 : State} (a1 : PendVal) (h0 : Keeps m z a0) : Keeps m z (State.putPend a0 a1) := by
  unfold State.putPend
  lift_lets
  iterate 2 (intro x; clear_value x)
  (intro (x : RegFile); subst x)
  with_reducible refine keeps_mk (h := ?_)
  with_reducible assumption

theorem State.capturePart_keeps (hm : Within [.live, .pend, .parity] m) {a0 : State} (a1 : RegRef) (a2 : ℕ) (a3 : ℕ) (a4 : Timing × ℕ) (h0 : Keeps m z a0) : Keeps m z (State.capturePart a0 a1 a2 a3 a4) := by
  unfold State.capturePart
  lift_lets
  (intro x; clear_value x)
  split
  with_reducible assumption
  split
  apply State.makeLive_keeps (hm.sub rfl)
  with_reducible assumption
  apply State.putPend_keeps (hm.sub rfl)
  with_reducible assumption
  apply State.putPend_keeps (hm.sub rfl)
  with_reducible assumption
  apply State.putPend_keeps (hm.sub rfl)
  with_reducible assumption

theorem State.capture_keeps (hm : Within [.live, .pend, .parity, .hst, .sum, .outbox] m) {a0 : State} (a1 : ℕ) (h0 : Keeps m z a0) : Keeps m z (State.capture a0 a1) := by
  unfold State.capture
  split
  with_reducible assumption
  lift_lets
  (intro x; clear_value x)
  split
  apply State.raiseBit_keeps (hm.sub rfl)
  (with_reducible refine keeps_foldl (fun s a hs => ?_) ?_)
  apply State.capturePart_keeps (hm.sub rfl)
  with_reducible assumption
  with_reducible assumption
  (with_reducible refine keeps_foldl (fun s a hs => ?_) ?_)
  apply State.capturePart_keeps (hm.sub rfl)
  with_reducible assumption
  with_reducible assumption

theorem State.preferFeed_keeps (hm : Within [.live, .hst, .sum, .outbox] m) {a0 : State} (h0 : Keeps m z a0) : Keeps m z (State.preferFeed a0) := by
  unfold State.preferFeed
  lift_lets
  (intro x; clear_value x)
  split
  apply State.raiseBit_keeps (hm.sub rfl)
  apply State.setStatus_keeps (hm.sub rfl)
  with_reducible assumption
  with_reducible assumption

theorem State.attestCommit_keeps (hm : Within [.live, .sec] m) {a0 : State} (h0 : Keeps m z a0) : Keeps m z (State.attestCommit a0) := by
  unfold State.attestCommit
  lift_lets
  (intro (x : SecSt); subst x)
  (intro x; refine keeps_cut (p := Keeps m z x) ?_ (fun hx => ?_); (on_goal 2 => clear_value x); (on_goal 1 => subst x))
  split
  with_reducible refine keeps_mk (h := ?_)
  with_reducible assumption
  with_reducible assumption
  (intro x; clear_value x)
  (intro x; refine keeps_cut (p := Keeps m z x) ?_ (fun hx => ?_); (on_goal 2 => clear_value x); (on_goal 1 => subst x))
  apply State.queueNonce_keeps (hm.sub rfl)
  with_reducible assumption
  split
  apply State.putStatus_keeps (hm.sub rfl)
  with_reducible assumption
  with_reducible assumption

theorem State.command_keeps (hm : Within [.live, .staged, .run, .que, .prog, .mat, .lnk, .map, .sec, .hst, .sum, .outbox] m) {a0 : State} (a1 : ℕ) (h0 : Keeps m z a0) : Keeps m z (State.command a0 a1) := by
  unfold State.command
  split
  apply State.modeCommit_keeps (hm.sub rfl)
  with_reducible assumption
  split
  apply State.loadCommit_keeps (hm.sub rfl)
  with_reducible assumption
  split
  apply State.ruleCommit_keeps (hm.sub rfl)
  with_reducible assumption
  split
  apply State.queCommand_keeps (hm.sub rfl)
  with_reducible assumption
  split
  apply State.propCommit_keeps (hm.sub rfl)
  with_reducible assumption
  split
  apply State.attestCommit_keeps (hm.sub rfl)
  with_reducible assumption
  with_reducible assumption

theorem State.enableLinks_keeps (hm : Within [.live, .run, .pend, .parity, .lnk, .hlt, .hst, .sum, .outbox] m) {a0 : State} (a1 : List ℕ) (h0 : Keeps m z a0) : Keeps m z (State.enableLinks a0 a1) := by
  unfold State.enableLinks
  (with_reducible refine keeps_foldl (fun s a hs => ?_) ?_)
  split
  lift_lets
  (intro x; clear_value x)
  split
  apply State.setLinkState_keeps (hm.sub rfl)
  with_reducible assumption
  split
  apply State.setLinkState_keeps (hm.sub rfl)
  with_reducible assumption
  with_reducible assumption
  with_reducible assumption
  with_reducible assumption

theorem State.afterCapture_keeps (hm : Within [.live, .run, .pend, .parity, .time, .pgw, .sch, .que, .vsp, .mem, .prog, .mat, .lnk, .map, .hlt, .sec, .hst, .sum, .outbox, .freeCtr] m) {a0 : State} (a1 : List ℕ) (h0 : Keeps m z a0) : Keeps m z (State.afterCapture a0 a1) := by
  unfold State.afterCapture
  lift_lets
  (intro x; refine keeps_cut (p := Keeps m z x) ?_ (fun hx => ?_); (on_goal 2 => clear_value x); (on_goal 1 => subst x))
  apply State.enableLinks_keeps (hm.sub rfl)
  with_reducible assumption
  (intro x; refine keeps_cut (p := Keeps m z x) ?_ (fun hx => ?_); (on_goal 2 => clear_value x); (on_goal 1 => subst x))
  split
  apply State.preferFeed_keeps (hm.sub rfl)
  with_reducible assumption
  with_reducible assumption
  (intro (x : TimeSt); subst x)
  (intro x; refine keeps_cut (p := Keeps m z x) ?_ (fun hx => ?_); (on_goal 2 => clear_value x); (on_goal 1 => subst x))
  split
  with_reducible refine keeps_mk (h := ?_)
  with_reducible assumption
  with_reducible assumption
  (intro (x : TimeSt); subst x)
  (intro x; refine keeps_cut (p := Keeps m z x) ?_ (fun hx => ?_); (on_goal 2 => clear_value x); (on_goal 1 => subst x))
  split
  with_reducible assumption
  with_reducible refine keeps_mk (h := ?_)
  with_reducible assumption
  (intro x; refine keeps_cut (p := Keeps m z x) ?_ (fun hx => ?_); (on_goal 2 => clear_value x); (on_goal 1 => subst x))
  split
  apply State.refreshTime_keeps (hm.sub rfl)
  with_reducible assumption
  with_reducible assumption
  split
  apply State.setStatus_keeps (hm.sub rfl)
  with_reducible assumption
  with_reducible assumption

theorem State.parityFound_keeps (hm : Within [.live, .hst, .sum, .outbox] m) {a0 : State} (a1 : ℕ) (a2 : ℕ) (h0 : Keeps m z a0) : Keeps m z (State.parityFound a0 a1 a2) := by
  unfold State.parityFound
  apply State.raiseBit_keeps (hm.sub rfl)
  apply State.setLive_keeps (hm.sub rfl)
  with_reducible assumption

theorem State.commitLast_keeps (hm : Within [.live] m) {a0 : State} (a1 : ℕ) (a2 : Bool) (a3 : ℕ) (h0 : Keeps m z a0) : Keeps m z (State.commitLast a0 a1 a2 a3) := by
  unfold State.commitLast
  apply State.touch_keeps (hm.sub rfl)
  with_reducible assumption

theorem State.raiseAll_keeps (hm : Within [.live, .hst, .sum, .outbox] m) {a0 : State} (a1 : List (ℕ × ℕ)) (h0 : Keeps m z a0) : Keeps m z (State.raiseAll a0 a1) := by
  unfold State.raiseAll
  (with_reducible refine keeps_foldl (fun s a hs => ?_) ?_)
  apply State.raiseBit_keeps (hm.sub rfl)
  with_reducible assumption
  with_reducible assumption

theorem State.commitGroups_keeps (hm : Within [.live, .staged, .run, .pend, .parity, .written, .time, .pgw, .sch, .que, .vsp, .mem, .prog, .mat, .lnk, .map, .hlt, .sec, .hst, .sum, .outbox, .freeCtr] m) {a0 : State} (a1 : ℕ) (h0 : Keeps m z a0) : Keeps m z (State.commitGroups a0 a1) := by
  unfold State.commitGroups
  split
  with_reducible assumption
  lift_lets
  iterate 9 (intro x; clear_value x)
  (intro (x : RegFile); subst x)
  (intro x; refine keeps_cut (p := Keeps m z x) ?_ (fun hx => ?_); (on_goal 2 => clear_value x); (on_goal 1 => subst x))
  with_reducible refine keeps_mk (h := ?_)
  with_reducible assumption
  (intro x; refine keeps_cut (p := Keeps m z x) ?_ (fun hx => ?_); (on_goal 2 => clear_value x); (on_goal 1 => subst x))
  (with_reducible refine keeps_foldl (fun s a hs => ?_) ?_)
  apply State.capture_keeps (hm.sub rfl)
  with_reducible assumption
  with_reducible assumption
  (intro x; refine keeps_cut (p := Keeps m z x) ?_ (fun hx => ?_); (on_goal 2 => clear_value x); (on_goal 1 => subst x))
  (with_reducible refine keeps_foldl (fun s a hs => ?_) ?_)
  apply State.setLive_keeps (hm.sub rfl)
  with_reducible assumption
  with_reducible assumption
  (intro x; refine keeps_cut (p := Keeps m z x) ?_ (fun hx => ?_); (on_goal 2 => clear_value x); (on_goal 1 => subst x))
  apply State.dialReport_keeps (hm.sub rfl)
  apply State.raiseAll_keeps (hm.sub rfl)
  with_reducible assumption
  (intro x; refine keeps_cut (p := Keeps m z x) ?_ (fun hx => ?_); (on_goal 2 => clear_value x); (on_goal 1 => subst x))
  (with_reducible refine keeps_foldl (fun s a hs => ?_) ?_)
  apply State.raiseBit_keeps (hm.sub rfl)
  with_reducible assumption
  with_reducible assumption
  (intro x; refine keeps_cut (p := Keeps m z x) ?_ (fun hx => ?_); (on_goal 2 => clear_value x); (on_goal 1 => subst x))
  apply State.commitLast_keeps (hm.sub rfl)
  apply State.setLive_keeps (hm.sub rfl)
  with_reducible assumption
  (intro x; refine keeps_cut (p := Keeps m z x) ?_ (fun hx => ?_); (on_goal 2 => clear_value x); (on_goal 1 => subst x))
  split
  apply State.setLive_keeps (hm.sub rfl)
  with_reducible assumption
  with_reducible assumption
  split
  apply State.commitLast_keeps (hm.sub rfl)
  apply State.raiseBit_keeps (hm.sub rfl)
  apply State.parityFound_keeps (hm.sub rfl)
  with_reducible assumption
  (with_reducible refine keeps_foldl (fun s a hs => ?_) ?_)
  apply State.command_keeps (hm.sub rfl)
  with_reducible assumption
  apply State.afterCapture_keeps (hm.sub rfl)
  with_reducible assumption

/-! ### Regs -/

theorem State.becomeFailed_keeps (hm : Within [.live, .run, .pgw, .sch, .que, .vsp, .mem, .prog, .mat, .lnk, .map, .hlt, .sec, .hst, .sum, .outbox, .freeCtr] m) {a0 : State} (h0 : Keeps m z a0) : Keeps m z (State.becomeFailed a0) := by
  unfold State.becomeFailed
  split
  with_reducible assumption
  lift_lets
  (intro (x : HltSt); subst x)
  (intro x; refine keeps_cut (p := Keeps m z x) ?_ (fun hx => ?_); (on_goal 2 => clear_value x); (on_goal 1 => subst x))
  with_reducible refine keeps_mk (h := ?_)
  with_reducible assumption
  (intro x; refine keeps_cut (p := Keeps m z x) ?_ (fun hx => ?_); (on_goal 2 => clear_value x); (on_goal 1 => subst x))
  apply State.fenceSelf_keeps (hm.sub rfl)
  apply State.raiseBit_keeps (hm.sub rfl)
  apply State.setStatus_keeps (hm.sub rfl)
  with_reducible assumption
  split
  apply State.ctl_keeps (hm.sub rfl)
  with_reducible assumption
  with_reducible assumption

theorem State.becomeDegraded_keeps (hm : Within [.live, .hlt, .hst, .sum, .outbox] m) {a0 : State} (h0 : Keeps m z a0) : Keeps m z (State.becomeDegraded a0) := by
  unfold State.becomeDegraded
  split
  with_reducible assumption
  lift_lets
  (intro (x : HltSt); subst x)
  (intro x; refine keeps_cut (p := Keeps m z x) ?_ (fun hx => ?_); (on_goal 2 => clear_value x); (on_goal 1 => subst x))
  with_reducible refine keeps_mk (h := ?_)
  with_reducible assumption
  apply State.raiseBit_keeps (hm.sub rfl)
  apply State.setStatus_keeps (hm.sub rfl)
  with_reducible assumption

theorem State.flashResult_keeps (hm : Within [.live] m) {a0 : State} (a1 : ℕ) (h0 : Keeps m z a0) : Keeps m z (State.flashResult a0 a1) := by
  unfold State.flashResult
  apply State.setStatus_keeps (hm.sub rfl)
  with_reducible assumption

theorem State.flashStart_keeps (hm : Within [.live, .sys] m) {a0 : State} (a1 : Bool) (a2 : ℕ) (a3 : ℕ) (h0 : Keeps m z a0) : Keeps m z (State.flashStart a0 a1 a2 a3) := by
  unfold State.flashStart
  lift_lets
  (intro x; clear_value x)
  (intro (x : SysSt); subst x)
  split
  apply State.flashResult_keeps (hm.sub rfl)
  with_reducible assumption
  split
  apply State.flashResult_keeps (hm.sub rfl)
  with_reducible assumption
  split
  apply State.flashResult_keeps (hm.sub rfl)
  with_reducible assumption
  split
  apply State.flashResult_keeps (hm.sub rfl)
  with_reducible assumption
  apply State.setStatus_keeps (hm.sub rfl)
  with_reducible refine keeps_mk (h := ?_)
  with_reducible assumption

theorem State.putFlashByte_keeps (hm : Within [.live] m) {a0 : State} (a1 : ℕ) (a2 : ℕ) (h0 : Keeps m z a0) : Keeps m z (State.putFlashByte a0 a1 a2) := by
  unfold State.putFlashByte
  lift_lets
  (intro x; clear_value x)
  apply State.setLive_keeps (hm.sub rfl)
  with_reducible assumption

theorem State.flashEffect_keeps (hm : Within [.live, .sys] m) {a0 : State} (a1 : Nat) (a2 : Nat) (a3 : Nat) (h0 : Keeps m z a0) : Keeps m z (State.flashEffect a0 a1 a2 a3) := by
  unfold State.flashEffect
  split
  · exact keeps_foldl (fun s i hs => State.putFlashByte_keeps (hm.sub rfl) _ _ hs) h0
  · split
    · exact keeps_flash (hm.sub rfl) (fun h5 => flashCanonical_filter _ h5) h0
    · refine keeps_flash (hm.sub rfl) (fun h5 => ?_) h0
      have key : ∀ (l : List Nat) (f : List (Nat × Nat)), flashCanonical f = true →
          flashCanonical (l.foldl (fun f i => spSet 255 f (a2 + i) (a0.flashByte i)) f) = true := by
        intro l
        induction l with
        | nil => intro f hf; exact hf
        | cons i l ih => intro f hf; exact ih _ (flashCanonical_spSet _ _ (a0.flashByte_lt i) hf)
      exact key _ _ h5

theorem State.flashEnd_keeps (hm : Within [.live, .hst, .sys, .sum, .outbox] m) {a0 : State} (a1 : ℕ) (h0 : Keeps m z a0) : Keeps m z (State.flashEnd a0 a1) := by
  unfold State.flashEnd
  lift_lets
  (intro (x : SysSt); subst x)
  (intro x; refine keeps_cut (p := Keeps m z x) ?_ (fun hx => ?_); (on_goal 2 => clear_value x); (on_goal 1 => subst x))
  with_reducible refine keeps_mk (h := ?_)
  with_reducible assumption
  apply State.raiseBit_keeps (hm.sub rfl)
  apply State.putStatus_keeps (hm.sub rfl)
  with_reducible assumption

theorem execFlashDone_keeps (hm : Within [.live, .hst, .sys, .sum, .outbox] m) {a0 : State} (h0 : Keeps m z a0) : KeepsN m z (execFlashDone a0) := by
  unfold execFlashDone
  split
  with_reducible apply keepsN_next
  with_reducible assumption
  with_reducible apply keepsN_next
  apply State.flashEnd_keeps (hm.sub rfl)
  apply State.flashEffect_keeps (hm.sub rfl)
  with_reducible assumption

theorem execFlashDeviceTimeout_keeps (hm : Within [.live, .hst, .sys, .sum, .outbox] m) {a0 : State} (h0 : Keeps m z a0) : KeepsN m z (execFlashDeviceTimeout a0) := by
  unfold execFlashDeviceTimeout
  split
  with_reducible apply keepsN_next
  with_reducible assumption
  with_reducible apply keepsN_next
  apply State.flashEnd_keeps (hm.sub rfl)
  with_reducible assumption

theorem State.goodParity_keeps (hm : Within [.parity] m) {a0 : State} (a1 : ℕ) (a2 : ℕ) (h0 : Keeps m z a0) : Keeps m z (State.goodParity a0 a1 a2) := by
  unfold State.goodParity
  with_reducible refine keeps_mk (h := ?_)
  with_reducible assumption

theorem State.stageWrite_keeps (hm : Within [.staged, .parity, .written] m) {a0 : State} (a1 : RegRef) (a2 : ℕ) (a3 : ℕ) (h0 : Keeps m z a0) : Keeps m z (State.stageWrite a0 a1 a2 a3) := by
  unfold State.stageWrite
  lift_lets
  (intro x; refine keeps_cut (p := Keeps m z x) ?_ (fun hx => ?_); (on_goal 2 => clear_value x); (on_goal 1 => subst x))
  apply State.goodParity_keeps (hm.sub rfl)
  apply State.setStaged_keeps (hm.sub rfl)
  with_reducible assumption
  (intro (x : RegFile); subst x)
  split
  with_reducible refine keeps_mk (h := ?_)
  with_reducible assumption
  with_reducible assumption

theorem State.directWrite_keeps (hm : Within [.live, .parity, .sys] m) {a0 : State} (a1 : Bool) (a2 : RegRef) (a3 : ℕ) (a4 : ℕ) (h0 : Keeps m z a0) : Keeps m z (State.directWrite a0 a1 a2 a3 a4) := by
  unfold State.directWrite
  split
  lift_lets
  (intro x; clear_value x)
  (intro x; refine keeps_cut (p := Keeps m z x) ?_ (fun hx => ?_); (on_goal 2 => clear_value x); (on_goal 1 => subst x))
  apply State.setLive_keeps (hm.sub rfl)
  with_reducible assumption
  split
  with_reducible assumption
  apply State.flashStart_keeps (hm.sub rfl)
  with_reducible assumption
  split
  with_reducible assumption
  apply State.goodParity_keeps (hm.sub rfl)
  apply State.setLive_keeps (hm.sub rfl)
  with_reducible assumption

theorem State.operatorWrite_keeps (hm : Within [.live, .staged, .run, .pend, .parity, .written, .time, .pgw, .sch, .que, .vsp, .mem, .prog, .mat, .lnk, .map, .hlt, .sec, .hst, .sys, .sum, .outbox, .freeCtr] m) {a0 : State} (a1 : Bool) (a2 : ℕ) (a3 : ℕ) (h0 : Keeps m z a0) : Keeps m z (State.operatorWrite a0 a1 a2 a3) := by
  unfold State.operatorWrite
  split
  apply State.unmappedAccess_keeps (hm.sub rfl)
  with_reducible assumption
  apply State.unmappedAccess_keeps (hm.sub rfl)
  with_reducible assumption
  split
  apply State.stageWrite_keeps (hm.sub rfl)
  with_reducible assumption
  apply State.directWrite_keeps (hm.sub rfl)
  with_reducible assumption
  apply State.clearEvents_keeps (hm.sub rfl)
  with_reducible assumption
  split
  apply State.commitGroups_keeps (hm.sub rfl)
  with_reducible assumption
  apply State.setLive_keeps (hm.sub rfl)
  with_reducible assumption
  with_reducible assumption
  with_reducible assumption
  with_reducible assumption
  with_reducible assumption

theorem State.writeReg_keeps (hm : Within [.live, .staged, .run, .pend, .parity, .written, .time, .pgw, .sch, .que, .vsp, .mem, .prog, .mat, .lnk, .map, .hlt, .sec, .hst, .sys, .sum, .outbox, .freeCtr] m) {a0 : State} (a1 : Bool) (a2 : Option ℕ) (a3 : ℕ) (a4 : ℕ) (h0 : Keeps m z a0) : Keeps m z (State.writeReg a0 a1 a2 a3 a4) := by
  unfold State.writeReg
  split
  apply State.denied_keeps (hm.sub rfl)
  with_reducible assumption
  apply State.operatorWrite_keeps (hm.sub rfl)
  with_reducible assumption

theorem State.writeRegs_keeps (hm : Within [.live, .staged, .run, .pend, .parity, .written, .time, .pgw, .sch, .que, .vsp, .mem, .prog, .mat, .lnk, .map, .hlt, .sec, .hst, .sys, .sum, .outbox, .freeCtr] m) {a0 : State} (a1 : Bool) (a2 : Option ℕ) (a3 : ℕ) (a4 : List ℕ) (h0 : Keeps m z a0) : Keeps m z (State.writeRegs a0 a1 a2 a3 a4) := by
  induction a4 generalizing a0 a1 a2 a3 with
  | nil =>
    unfold State.writeRegs
    with_reducible assumption
  | cons x t ih =>
    unfold State.writeRegs
    with_reducible apply ih
    apply State.writeReg_keeps (hm.sub rfl)
    with_reducible assumption

theorem State.portWrite_keeps (hm : Within [.live, .run, .que, .lnk, .hst, .sum, .outbox] m) {a0 : State} (a1 : Port) (a2 : Bool → Option ℕ → State → State) (h0 : Keeps m z a0) (h2 : ∀ y0 y1 s2, Keeps m z s2 → Keeps m z (a2 y0 y1 s2)) : Keeps m z (State.portWrite a0 a1 a2) := by
  unfold State.portWrite
  split
  split
  with_reducible apply h2
  with_reducible assumption
  with_reducible assumption
  split
  (with_reducible refine keeps_of_error (by with_reducible assumption) ?_)
  apply State.hostTake_keeps (hm.sub rfl)
  with_reducible assumption
  split
  apply State.hostCpl_keeps (hm.sub rfl)
  with_reducible apply h2
  (with_reducible refine keeps_of_ok (by with_reducible assumption) ?_)
  apply State.hostTake_keeps (hm.sub rfl)
  with_reducible assumption
  apply State.hostCpl_keeps (hm.sub rfl)
  (with_reducible refine keeps_of_ok (by with_reducible assumption) ?_)
  apply State.hostTake_keeps (hm.sub rfl)
  with_reducible assumption

theorem execRegisterWrite_keeps (hm : Within [.live, .staged, .run, .pend, .parity, .written, .time, .pgw, .sch, .que, .vsp, .mem, .prog, .mat, .lnk, .map, .hlt, .sec, .hst, .sys, .sum, .outbox, .freeCtr] m) (a0 : Port) (a1 : ℕ) (a2 : List ℕ) {a3 : State} (h3 : Keeps m z a3) : KeepsN m z (execRegisterWrite a0 a1 a2 a3) := by
  unfold execRegisterWrite
  with_reducible apply keepsN_next
  apply State.portWrite_keeps (hm.sub rfl)
  with_reducible assumption
  intro y0 y1 s2 hs3
  apply State.writeRegs_keeps (hm.sub rfl)
  with_reducible assumption

theorem execCommitGo_keeps (hm : Within [.live, .staged, .run, .pend, .parity, .written, .time, .pgw, .sch, .que, .vsp, .mem, .prog, .mat, .lnk, .map, .hlt, .sec, .hst, .sys, .sum, .outbox, .freeCtr] m) (a0 : Port) (a1 : ℕ) {a2 : State} (h2 : Keeps m z a2) : KeepsN m z (execCommitGo a0 a1 a2) := by
  unfold execCommitGo
  with_reducible apply keepsN_next
  apply State.portWrite_keeps (hm.sub rfl)
  with_reducible assumption
  intro y0 y1 s2 hs3
  apply State.writeReg_keeps (hm.sub rfl)
  with_reducible assumption

theorem execEventClear_keeps (hm : Within [.live, .staged, .run, .pend, .parity, .written, .time, .pgw, .sch, .que, .vsp, .mem, .prog, .mat, .lnk, .map, .hlt, .sec, .hst, .sys, .sum, .outbox, .freeCtr] m) (a0 : Port) (a1 : ℕ) (a2 : ℕ) {a3 : State} (h3 : Keeps m z a3) : KeepsN m z (execEventClear a0 a1 a2 a3) := by
  unfold execEventClear
  with_reducible apply keepsN_next
  apply State.portWrite_keeps (hm.sub rfl)
  with_reducible assumption
  intro y0 y1 s2 hs3
  apply State.writeReg_keeps (hm.sub rfl)
  with_reducible assumption

theorem State.flashRow_keeps (hm : Within [.live, .staged, .run, .pend, .parity, .written, .time, .pgw, .sch, .que, .vsp, .mem, .prog, .mat, .lnk, .map, .hlt, .sec, .hst, .sys, .sum, .outbox, .freeCtr] m) {a0 : State} (a1 : Port) (a2 : ℕ) (a3 : ℕ) (a4 : ℕ) (h0 : Keeps m z a0) : Keeps m z (State.flashRow a0 a1 a2 a3 a4) := by
  unfold State.flashRow
  apply State.portWrite_keeps (hm.sub rfl)
  with_reducible assumption
  intro y0 y1 s2 hs3
  lift_lets
  (intro x; refine keeps_cut (p := Keeps m z x) ?_ (fun hx => ?_); (on_goal 2 => clear_value x); (on_goal 1 => subst x))
  split
  apply State.setLive_keeps (hm.sub rfl)
  with_reducible assumption
  with_reducible assumption
  apply State.writeReg_keeps (hm.sub rfl)
  with_reducible assumption

theorem execFlashRead_keeps (hm : Within [.live, .staged, .run, .pend, .parity, .written, .time, .pgw, .sch, .que, .vsp, .mem, .prog, .mat, .lnk, .map, .hlt, .sec, .hst, .sys, .sum, .outbox, .freeCtr] m) (a0 : Port) (a1 : ℕ) (a2 : ℕ) {a3 : State} (h3 : Keeps m z a3) : KeepsN m z (execFlashRead a0 a1 a2 a3) := by
  unfold execFlashRead
  with_reducible apply keepsN_next
  apply State.flashRow_keeps (hm.sub rfl)
  with_reducible assumption

theorem execFlashErase_keeps (hm : Within [.live, .staged, .run, .pend, .parity, .written, .time, .pgw, .sch, .que, .vsp, .mem, .prog, .mat, .lnk, .map, .hlt, .sec, .hst, .sys, .sum, .outbox, .freeCtr] m) (a0 : Port) (a1 : ℕ) {a2 : State} (h2 : Keeps m z a2) : KeepsN m z (execFlashErase a0 a1 a2) := by
  unfold execFlashErase
  with_reducible apply keepsN_next
  apply State.flashRow_keeps (hm.sub rfl)
  with_reducible assumption

theorem execFlashProgram_keeps (hm : Within [.live, .staged, .run, .pend, .parity, .written, .time, .pgw, .sch, .que, .vsp, .mem, .prog, .mat, .lnk, .map, .hlt, .sec, .hst, .sys, .sum, .outbox, .freeCtr] m) (a0 : Port) (a1 : ℕ) (a2 : ℕ) {a3 : State} (h3 : Keeps m z a3) : KeepsN m z (execFlashProgram a0 a1 a2 a3) := by
  unfold execFlashProgram
  with_reducible apply keepsN_next
  apply State.flashRow_keeps (hm.sub rfl)
  with_reducible assumption

theorem execRegisterRead_keeps (hm : Within [.live, .run, .que, .lnk, .hst, .sum, .outbox] m) (a0 : Port) (a1 : ℕ) (a2 : ℕ) {a3 : State} (h3 : Keeps m z a3) : KeepsN m z (execRegisterRead a0 a1 a2 a3) := by
  unfold execRegisterRead
  lift_lets
  iterate 2 (intro x; clear_value x)
  (intro x; refine keeps_cut (p := Keeps m z x.2) ?_ (fun hx => ?_); (on_goal 2 => clear_value x); (on_goal 1 => subst x))
  apply State.readRegs_keeps (hm.sub rfl)
  with_reducible assumption
  split
  split
  with_reducible apply keepsN_next
  apply State.emit_keeps (hm.sub rfl)
  with_reducible assumption
  split
  with_reducible apply keepsN_next
  apply State.emit_keeps (hm.sub rfl)
  with_reducible assumption
  with_reducible apply keepsN_next
  with_reducible assumption
  split
  with_reducible apply keepsN_next
  (with_reducible refine keeps_of_error (by with_reducible assumption) ?_)
  apply State.hostTake_keeps (hm.sub rfl)
  with_reducible assumption
  lift_lets
  (intro x; refine keeps_cut (p := Keeps m z x.2) ?_ (fun hx => ?_); (on_goal 2 => clear_value x); (on_goal 1 => subst x))
  apply State.readRegs_keeps (hm.sub rfl)
  (with_reducible refine keeps_of_ok (by with_reducible assumption) ?_)
  apply State.hostTake_keeps (hm.sub rfl)
  with_reducible assumption
  split
  with_reducible apply keepsN_next
  apply State.hostCpl_keeps (hm.sub rfl)
  with_reducible assumption
  with_reducible apply keepsN_next
  apply State.hostCpl_keeps (hm.sub rfl)
  (with_reducible refine keeps_of_ok (by with_reducible assumption) ?_)
  apply State.hostTake_keeps (hm.sub rfl)
  with_reducible assumption

theorem execI3cEntdaa_keeps (hm : Within [.hst] m) (a0 : ℕ) {a1 : State} (h1 : Keeps m z a1) : KeepsN m z (execI3cEntdaa a0 a1) := by
  unfold execI3cEntdaa
  with_reducible apply keepsN_next
  split
  with_reducible refine keeps_mk (h := ?_)
  with_reducible assumption
  with_reducible assumption

theorem execParityRestore_keeps (hm : Within [.live, .run, .parity, .pgw, .sch, .que, .vsp, .mem, .prog, .mat, .lnk, .map, .hlt, .sec, .hst, .sum, .outbox, .freeCtr] m) (a0 : ℕ) (a1 : ℕ) (a2 : Bool) {a3 : State} (h3 : Keeps m z a3) : KeepsN m z (execParityRestore a0 a1 a2 a3) := by
  unfold execParityRestore
  split
  with_reducible apply keepsN_next
  with_reducible assumption
  split
  with_reducible apply keepsN_next
  apply State.goodParity_keeps (hm.sub rfl)
  with_reducible assumption
  with_reducible apply keepsN_next
  apply State.becomeFailed_keeps (hm.sub rfl)
  with_reducible assumption

/-! ### Health -/

theorem State.refreshHlt_keeps (hm : Within [.live] m) {a0 : State} (h0 : Keeps m z a0) : Keeps m z (State.refreshHlt a0) := by
  unfold State.refreshHlt
  apply State.putStatus_keeps (hm.sub rfl)
  with_reducible assumption

theorem State.checkHealth_keeps (hm : Within [.live, .run, .pgw, .sch, .que, .vsp, .mem, .prog, .mat, .lnk, .map, .hlt, .sec, .hst, .sum, .outbox, .freeCtr] m) {a0 : State} (h0 : Keeps m z a0) : Keeps m z (State.checkHealth a0) := by
  unfold State.checkHealth
  split
  apply State.becomeFailed_keeps (hm.sub rfl)
  with_reducible assumption
  split
  apply State.becomeDegraded_keeps (hm.sub rfl)
  with_reducible assumption
  with_reducible assumption

theorem State.abandonClosed_keeps (hm : Within [.pgw, .mem] m) {a0 : State} (h0 : Keeps m z a0) : Keeps m z (State.abandonClosed a0) := by
  unfold State.abandonClosed
  (with_reducible refine keeps_foldl (fun s a hs => ?_) ?_)
  apply State.abandonMove_keeps (hm.sub rfl)
  with_reducible assumption
  with_reducible assumption

theorem State.unloadCore_keeps (hm : Within [.live, .run, .sch, .prog, .hst, .sum, .outbox] m) {a0 : State} (a1 : ℕ) (h0 : Keeps m z a0) : Keeps m z (State.unloadCore a0 a1) := by
  unfold State.unloadCore
  lift_lets
  iterate 4 (intro x; clear_value x)
  (intro (x : ProgSt); subst x)
  (intro x; refine keeps_cut (p := Keeps m z x) ?_ (fun hx => ?_); (on_goal 2 => clear_value x); (on_goal 1 => subst x))
  with_reducible refine keeps_mk (h := ?_)
  with_reducible assumption
  (intro x; refine keeps_cut (p := Keeps m z x) ?_ (fun hx => ?_); (on_goal 2 => clear_value x); (on_goal 1 => subst x))
  split
  split
  apply State.stall_keeps (hm.sub rfl)
  with_reducible assumption
  with_reducible assumption
  with_reducible assumption
  split
  apply State.raiseBit_keeps (hm.sub rfl)
  with_reducible assumption
  with_reducible assumption

theorem State.partAction_keeps (hm : Within [.live, .run, .pend, .parity, .pgw, .sch, .que, .vsp, .mem, .prog, .lnk, .hlt, .hst, .sum, .outbox, .freeCtr] m) {a0 : State} (a1 : ℕ) (h0 : Keeps m z a0) : Keeps m z (State.partAction a0 a1) := by
  unfold State.partAction
  lift_lets
  (intro x; clear_value x)
  (intro x; refine keeps_cut (p := Keeps m z x) ?_ (fun hx => ?_); (on_goal 2 => clear_value x); (on_goal 1 => subst x))
  apply State.raiseBit_keeps (hm.sub rfl)
  apply State.setScore_keeps (hm.sub rfl)
  with_reducible assumption
  split
  apply State.abandonClosed_keeps (hm.sub rfl)
  apply State.maskUnit_keeps (hm.sub rfl)
  with_reducible assumption
  split
  split
  apply State.leaveStack_keeps (hm.sub rfl)
  with_reducible assumption
  with_reducible assumption
  split
  apply State.setLinkState_keeps (hm.sub rfl)
  with_reducible assumption
  apply State.unloadCore_keeps (hm.sub rfl)
  with_reducible assumption

theorem State.partsAct_keeps (hm : Within [.live, .run, .pend, .parity, .pgw, .sch, .que, .vsp, .mem, .prog, .lnk, .hlt, .hst, .sum, .outbox, .freeCtr] m) {a0 : State} (h0 : Keeps m z a0) : Keeps m z (State.partsAct a0) := by
  unfold State.partsAct
  lift_lets
  (intro x; clear_value x)
  apply State.refreshHlt_keeps (hm.sub rfl)
  (with_reducible refine keeps_foldl (fun s a hs => ?_) ?_)
  apply State.partAction_keeps (hm.sub rfl)
  with_reducible assumption
  with_reducible assumption

theorem State.halveScores_keeps (hm : Within [.hlt] m) {a0 : State} (h0 : Keeps m z a0) : Keeps m z (State.halveScores a0) := by
  unfold State.halveScores
  split
  with_reducible assumption
  lift_lets
  (intro x; clear_value x)
  (intro (x : HltSt); subst x)
  with_reducible refine keeps_mk (h := ?_)
  with_reducible assumption

theorem State.ageing_keeps (hm : Within [.live, .run, .pgw, .sch, .que, .vsp, .mem, .prog, .mat, .lnk, .map, .hlt, .sec, .hst, .sum, .outbox, .freeCtr] m) {a0 : State} (a1 : List Int) (h0 : Keeps m z a0) : Keeps m z (State.ageing a0 a1) := by
  unfold State.ageing
  lift_lets
  (intro x; clear_value x)
  (intro (x : HltSt); subst x)
  (intro x; refine keeps_cut (p := Keeps m z x) ?_ (fun hx => ?_); (on_goal 2 => clear_value x); (on_goal 1 => subst x))
  with_reducible refine keeps_mk (h := ?_)
  with_reducible assumption
  split
  apply State.becomeFailed_keeps (hm.sub rfl)
  with_reducible assumption
  with_reducible assumption

theorem State.latchAge_keeps (hm : Within [.live, .hlt] m) {a0 : State} (h0 : Keeps m z a0) : Keeps m z (State.latchAge a0) := by
  unfold State.latchAge
  lift_lets
  (intro x; refine keeps_cut (p := Keeps m z x) ?_ (fun hx => ?_); (on_goal 2 => clear_value x); (on_goal 1 => subst x))
  (with_reducible refine keeps_foldl (fun s a hs => ?_) ?_)
  apply State.setLive_keeps (hm.sub rfl)
  with_reducible assumption
  with_reducible assumption
  (intro x; clear_value x)
  (intro (x : HltSt); subst x)
  with_reducible refine keeps_mk (h := ?_)
  with_reducible assumption

theorem State.takePlan_keeps (hm : Within [.hlt] m) {a0 : State} (h0 : Keeps m z a0) : Keeps m z (State.takePlan a0) := by
  unfold State.takePlan
  split
  with_reducible assumption
  split
  with_reducible refine keeps_mk (h := ?_)
  with_reducible assumption
  with_reducible refine keeps_mk (h := ?_)
  with_reducible assumption

theorem State.refreshCeiling_keeps (hm : Within [.live] m) {a0 : State} (h0 : Keeps m z a0) : Keeps m z (State.refreshCeiling a0) := by
  unfold State.refreshCeiling
  apply State.setStatus_keeps (hm.sub rfl)
  with_reducible assumption

theorem State.voltagePlan_keeps (hm : Within [.live, .hlt, .hst, .sum, .outbox] m) {a0 : State} (a1 : Bool) (h0 : Keeps m z a0) : Keeps m z (State.voltagePlan a0 a1) := by
  unfold State.voltagePlan
  lift_lets
  iterate 2 (intro x; clear_value x)
  (intro x; refine keeps_cut (p := Keeps m z x) ?_ (fun hx => ?_); (on_goal 2 => clear_value x); (on_goal 1 => subst x))
  apply State.refreshCeiling_keeps (hm.sub rfl)
  apply State.takePlan_keeps (hm.sub rfl)
  with_reducible assumption
  iterate 4 (intro x; clear_value x)
  (intro (x : HltSt); subst x)
  (intro x; refine keeps_cut (p := Keeps m z x) ?_ (fun hx => ?_); (on_goal 2 => clear_value x); (on_goal 1 => subst x))
  with_reducible refine keeps_mk (h := ?_)
  with_reducible assumption
  (intro x; clear_value x)
  (intro (x : HltSt); subst x)
  (intro x; refine keeps_cut (p := Keeps m z x) ?_ (fun hx => ?_); (on_goal 2 => clear_value x); (on_goal 1 => subst x))
  with_reducible refine keeps_mk (h := ?_)
  with_reducible assumption
  (intro x; refine keeps_cut (p := Keeps m z x) ?_ (fun hx => ?_); (on_goal 2 => clear_value x); (on_goal 1 => subst x))
  apply State.setLive_keeps (hm.sub rfl)
  apply State.setLive_keeps (hm.sub rfl)
  with_reducible assumption
  split
  with_reducible assumption
  split
  with_reducible assumption
  apply State.raiseBit_keeps (hm.sub rfl)
  with_reducible assumption

theorem execMarginVoltageMove_keeps (hm : Within [.now, .hlt] m) {a0 : State} (h0 : Keeps m z a0) : KeepsN m z (execMarginVoltageMove a0) := by
  unfold execMarginVoltageMove
  split
  with_reducible apply keepsN_next
  with_reducible assumption
  lift_lets
  (intro x; refine keeps_cut (p := Keeps m z x) ?_ (fun hx => ?_); (on_goal 2 => clear_value x); (on_goal 1 => subst x))
  apply State.advanceTo_keeps (hm.sub rfl)
  with_reducible assumption
  (intro (x : HltSt); subst x)
  with_reducible apply keepsN_next
  with_reducible refine keeps_mk (h := ?_)
  with_reducible assumption

theorem State.modeVoltage_keeps (hm : Within [.hlt] m) {a0 : State} (h0 : Keeps m z a0) : Keeps m z (State.modeVoltage a0) := by
  unfold State.modeVoltage
  lift_lets
  (intro x; clear_value x)
  (intro (x : HltSt); subst x)
  split
  with_reducible refine keeps_mk (h := ?_)
  with_reducible assumption
  split
  with_reducible refine keeps_mk (h := ?_)
  with_reducible assumption
  with_reducible assumption

theorem execWatchdogKick_keeps (hm : Within [.hlt] m) (a0 : ℕ) {a1 : State} (h1 : Keeps m z a1) : KeepsN m z (execWatchdogKick a0 a1) := by
  unfold execWatchdogKick
  split
  with_reducible apply keepsN_next
  with_reducible assumption
  with_reducible apply keepsN_next
  with_reducible refine keeps_mk (h := ?_)
  with_reducible assumption

theorem State.watchdog_keeps (hm : Within [.live, .run, .pgw, .sch, .que, .vsp, .mem, .prog, .mat, .lnk, .map, .hlt, .sec, .hst, .sum, .outbox, .freeCtr] m) {a0 : State} (h0 : Keeps m z a0) : Keeps m z (State.watchdog a0) := by
  unfold State.watchdog
  lift_lets
  iterate 2 (intro x; clear_value x)
  (intro x; refine keeps_cut (p := Keeps m z x) ?_ (fun hx => ?_); (on_goal 2 => clear_value x); (on_goal 1 => subst x))
  apply State.raiseBit_keeps (hm.sub rfl)
  apply State.setLive_keeps (hm.sub rfl)
  with_reducible assumption
  (intro (x : HltSt); subst x)
  (intro x; refine keeps_cut (p := Keeps m z x) ?_ (fun hx => ?_); (on_goal 2 => clear_value x); (on_goal 1 => subst x))
  with_reducible refine keeps_mk (h := ?_)
  with_reducible assumption
  (intro x; refine keeps_cut (p := Keeps m z x) ?_ (fun hx => ?_); (on_goal 2 => clear_value x); (on_goal 1 => subst x))
  apply State.fenceSelf_keeps (hm.sub rfl)
  apply State.setStatus_keeps (hm.sub rfl)
  with_reducible assumption
  split
  apply State.becomeFailed_keeps (hm.sub rfl)
  with_reducible assumption
  with_reducible assumption

theorem execWatchdogFire_keeps (hm : Within [.now, .live, .run, .pgw, .sch, .que, .vsp, .mem, .prog, .mat, .lnk, .map, .hlt, .sec, .hst, .sum, .outbox, .freeCtr] m) (a0 : ℕ) {a1 : State} (h1 : Keeps m z a1) : KeepsN m z (execWatchdogFire a0 a1) := by
  unfold execWatchdogFire
  split
  with_reducible apply keepsN_next
  with_reducible assumption
  with_reducible apply keepsN_next
  apply State.watchdog_keeps (hm.sub rfl)
  apply State.advanceTo_keeps (hm.sub rfl)
  with_reducible assumption

theorem State.journaled_keeps (hm : Within [.live, .run, .pgw, .sch, .que, .vsp, .mem, .prog, .mat, .lnk, .map, .hlt, .sec, .hst, .sum, .outbox, .freeCtr] m) {a0 : State} (a1 : ℕ) (h0 : Keeps m z a0) : Keeps m z (State.journaled a0 a1) := by
  unfold State.journaled
  split
  with_reducible assumption
  lift_lets
  (intro (x : HltSt); subst x)
  (intro x; refine keeps_cut (p := Keeps m z x) ?_ (fun hx => ?_); (on_goal 1 => subst x))
  with_reducible refine keeps_mk (h := ?_)
  with_reducible assumption
  split
  apply State.watchdog_keeps (hm.sub rfl)
  with_reducible assumption
  with_reducible assumption

theorem execReplayDone_keeps (hm : Within [.live, .run, .pgw, .sch, .que, .vsp, .mem, .prog, .mat, .lnk, .map, .hlt, .sec, .hst, .sum, .outbox, .freeCtr] m) (a0 : List Byte) {a1 : State} (h1 : Keeps m z a1) : KeepsN m z (execReplayDone a0 a1) := by
  unfold execReplayDone
  split
  with_reducible apply keepsN_next
  with_reducible assumption
  lift_lets
  (intro (x : HltSt); subst x)
  (intro x; refine keeps_cut (p := Keeps m z x) ?_ (fun hx => ?_); (on_goal 1 => subst x))
  apply State.setStatus_keeps (hm.sub rfl)
  with_reducible refine keeps_mk (h := ?_)
  with_reducible assumption
  with_reducible apply keepsN_next
  split
  with_reducible assumption
  apply State.becomeFailed_keeps (hm.sub rfl)
  with_reducible assumption

theorem State.writeCheckpoint_keeps (hm : Within [.hlt] m) {a0 : State} (h0 : Keeps m z a0) : Keeps m z (State.writeCheckpoint a0) := by
  unfold State.writeCheckpoint
  split
  with_reducible assumption
  with_reducible refine keeps_mk (h := ?_)
  with_reducible assumption

theorem State.heartbeat_keeps (hm : Within [.live] m) {a0 : State} (h0 : Keeps m z a0) : Keeps m z (State.heartbeat a0) := by
  unfold State.heartbeat
  apply State.setLive_keeps (hm.sub rfl)
  with_reducible assumption

theorem State.proposeDrain_keeps (hm : Within [.live, .map, .hlt, .hst, .sum, .outbox] m) {a0 : State} (h0 : Keeps m z a0) : Keeps m z (State.proposeDrain a0) := by
  unfold State.proposeDrain
  split
  with_reducible assumption
  lift_lets
  (intro (x : HltSt); subst x)
  (intro x; refine keeps_cut (p := Keeps m z x) ?_ (fun hx => ?_); (on_goal 1 => subst x))
  with_reducible refine keeps_mk (h := ?_)
  with_reducible assumption
  split
  apply State.propose_keeps (hm.sub rfl)
  with_reducible assumption
  with_reducible assumption

/-! ### Sec -/

theorem State.nonceLeaves_keeps (hm : Within [.sec] m) {a0 : State} (h0 : Keeps m z a0) : Keeps m z (State.nonceLeaves a0).2 := by
  unfold State.nonceLeaves
  lift_lets
  (intro x; refine keeps_cut (p := Keeps m z x.2) ?_ (fun hx => ?_); (on_goal 2 => clear_value x); (on_goal 1 => subst x))
  apply State.randomBytes_keeps (hm.sub rfl)
  with_reducible assumption
  with_reducible assumption

theorem State.counterFault_keeps (hm : Within [.live, .hst, .sum, .outbox] m) {a0 : State} (h0 : Keeps m z a0) : Keeps m z (State.counterFault a0) := by
  unfold State.counterFault
  apply State.raiseBit_keeps (hm.sub rfl)
  apply State.setStatus_keeps (hm.sub rfl)
  with_reducible assumption

theorem State.reserveLeaf_keeps (hm : Within [.live, .sec, .hst, .sum, .outbox] m) {a0 : State} (a1 : Bool) (h0 : Keeps m z a0) : Keeps m z (State.reserveLeaf a0 a1) := by
  unfold State.reserveLeaf
  split
  with_reducible assumption
  split
  apply State.counterFault_keeps (hm.sub rfl)
  with_reducible assumption
  lift_lets
  (intro x; clear_value x)
  (intro (x : SecSt); subst x)
  with_reducible refine keeps_mk (h := ?_)
  with_reducible assumption

theorem State.useLeaf_keeps (hm : Within [.live, .sec, .sys] m) {a0 : State} (h0 : Keeps m z a0) : Keeps m z (State.useLeaf a0) := by
  unfold State.useLeaf
  lift_lets
  (intro x; clear_value x)
  (intro x; refine keeps_cut (p := Keeps m z x) ?_ (fun hx => ?_); (on_goal 2 => clear_value x); (on_goal 1 => subst x))
  split
  with_reducible assumption
  apply State.beginTop_keeps (hm.sub rfl)
  with_reducible assumption
  (intro (x : SecSt); subst x)
  (intro x; refine keeps_cut (p := Keeps m z x) ?_ (fun hx => ?_); (on_goal 2 => clear_value x); (on_goal 1 => subst x))
  with_reducible refine keeps_mk (h := ?_)
  with_reducible assumption
  apply State.setStatus_keeps (hm.sub rfl)
  with_reducible assumption

theorem State.openTree_keeps (hm : Within [.sec, .sys] m) {a0 : State} (a1 : ℕ) (h0 : Keeps m z a0) : Keeps m z (State.openTree a0 a1) := by
  unfold State.openTree
  split
  with_reducible assumption
  lift_lets
  (intro x; refine keeps_cut (p := Keeps m z x.2) ?_ (fun hx => ?_); (on_goal 2 => clear_value x); (on_goal 1 => subst x))
  apply State.randomBytes_keeps (hm.sub rfl)
  with_reducible assumption
  (intro x; clear_value x)
  apply State.storeTop_keeps (hm.sub rfl)
  with_reducible assumption

theorem State.signWith_keeps (hm : Within [.sec, .sys] m) {a0 : State} (a1 : ℕ) (a2 : List Byte) (a3 : List Byte) (h0 : Keeps m z a0) : Keeps m z (State.signWith a0 a1 a2 a3).2 := by
  unfold State.signWith
  lift_lets
  (intro x; clear_value x)
  (intro x; refine keeps_cut (p := Keeps m z x) ?_ (fun hx => ?_); (on_goal 2 => clear_value x); (on_goal 1 => subst x))
  apply State.openTree_keeps (hm.sub rfl)
  with_reducible assumption
  (intro x; refine keeps_cut (p := Keeps m z x.2) ?_ (fun hx => ?_); (on_goal 2 => clear_value x); (on_goal 1 => subst x))
  apply State.randomBytes_keeps (hm.sub rfl)
  with_reducible assumption
  (intro x; clear_value x)
  with_reducible assumption

theorem State.finishReport_keeps (hm : Within [.live, .sec, .hst, .sys, .sum, .outbox] m) {a0 : State} (h0 : Keeps m z a0) : Keeps m z (State.finishReport a0) := by
  unfold State.finishReport
  split
  with_reducible assumption
  lift_lets
  (intro x; refine keeps_cut (p := Keeps m z x.2) ?_ (fun hx => ?_); (on_goal 2 => clear_value x); (on_goal 1 => subst x))
  apply State.signWith_keeps (hm.sub rfl)
  with_reducible assumption
  (intro x; clear_value x)
  (intro x; have _ : Keeps m z x := (by subst x; with_reducible assumption); subst x)
  (intro (x : SecSt); subst x)
  apply State.raiseBit_keeps (hm.sub rfl)
  with_reducible refine keeps_mk (h := ?_)
  with_reducible assumption

theorem State.signReport_keeps (hm : Within [.live, .sec, .hst, .sys, .sum, .outbox] m) {a0 : State} (a1 : Bool) (h0 : Keeps m z a0) : Keeps m z (State.signReport a0 a1) := by
  unfold State.signReport
  split
  with_reducible assumption
  lift_lets
  (intro x; refine keeps_cut (p := Keeps m z x) ?_ (fun hx => ?_); (on_goal 2 => clear_value x); (on_goal 1 => subst x))
  apply State.reserveLeaf_keeps (hm.sub rfl)
  apply State.finishReport_keeps (hm.sub rfl)
  with_reducible assumption
  (intro x; clear_value x)
  split
  with_reducible assumption
  split
  lift_lets
  iterate 2 (intro x; clear_value x)
  (intro (x : SecSt); subst x)
  (intro x; refine keeps_cut (p := Keeps m z x) ?_ (fun hx => ?_); (on_goal 2 => clear_value x); (on_goal 1 => subst x))
  with_reducible refine keeps_mk (h := ?_)
  (with_reducible refine keeps_of_snd (by with_reducible assumption) ?_)
  apply State.nonceLeaves_keeps (hm.sub rfl)
  apply State.useLeaf_keeps (hm.sub rfl)
  with_reducible assumption
  split
  apply State.setStatus_keeps (hm.sub rfl)
  with_reducible assumption
  with_reducible assumption

theorem execAttestQueue_keeps (hm : Within [.live, .staged, .sec] m) (a0 : List Byte) {a1 : State} (h1 : Keeps m z a1) : KeepsN m z (execAttestQueue a0 a1) := by
  unfold execAttestQueue
  split
  with_reducible apply keepsN_next
  with_reducible assumption
  lift_lets
  (intro x; refine keeps_cut (p := Keeps m z x) ?_ (fun hx => ?_); (on_goal 2 => clear_value x); (on_goal 1 => subst x))
  (with_reducible refine keeps_foldl (fun s a hs => ?_) ?_)
  apply State.commitTo_keeps (hm.sub rfl)
  with_reducible assumption
  with_reducible assumption
  with_reducible apply keepsN_next
  apply State.attestCommit_keeps (hm.sub rfl)
  apply State.commitTo_keeps (hm.sub rfl)
  with_reducible assumption

theorem State.attestReply_keeps (hm : Within [.run, .sch] m) {a0 : State} (a1 : AttWait) (a2 : List Byte) (a3 : List (List Byte)) (h0 : Keeps m z a0) : Keeps m z (State.attestReply a0 a1 a2 a3) := by
  unfold State.attestReply
  apply State.reply_keeps (hm.sub rfl)
  with_reducible assumption

theorem State.deliverReport_keeps (hm : Within [.now, .live, .run, .sch, .sec, .outbox] m) {a0 : State} (a1 : ℕ) (a2 : List Byte) (a3 : List (List Byte)) (a4 : List (ℕ × List Byte × List (List Byte))) (h0 : Keeps m z a0) : Keeps m z (State.deliverReport a0 a1 a2 a3 a4) := by
  unfold State.deliverReport
  lift_lets
  (intro x; refine keeps_cut (p := Keeps m z x) ?_ (fun hx => ?_); (on_goal 2 => clear_value x); (on_goal 1 => subst x))
  apply State.advanceTo_keeps (hm.sub rfl)
  with_reducible assumption
  (intro x; clear_value x)
  (intro (x : SecSt); subst x)
  (intro x; refine keeps_cut (p := Keeps m z x) ?_ (fun hx => ?_); (on_goal 2 => clear_value x); (on_goal 1 => subst x))
  with_reducible refine keeps_mk (h := ?_)
  with_reducible assumption
  (intro x; refine keeps_cut (p := Keeps m z x) ?_ (fun hx => ?_); (on_goal 2 => clear_value x); (on_goal 1 => subst x))
  (with_reducible refine keeps_foldl (fun s a hs => ?_) ?_)
  apply State.attestReply_keeps (hm.sub rfl)
  with_reducible assumption
  with_reducible assumption
  (intro x; clear_value x)
  (intro x; refine keeps_cut (p := Keeps m z x) ?_ (fun hx => ?_); (on_goal 2 => clear_value x); (on_goal 1 => subst x))
  apply State.setStatus_keeps (hm.sub rfl)
  with_reducible assumption
  split
  apply State.sendJoin_keeps (hm.sub rfl)
  with_reducible assumption
  with_reducible assumption

theorem execReportDelivery_keeps (hm : Within [.now, .live, .run, .sch, .sec, .hst, .sys, .sum, .outbox] m) {a0 : State} (h0 : Keeps m z a0) : KeepsN m z (execReportDelivery a0) := by
  unfold execReportDelivery
  split
  with_reducible apply keepsN_next
  with_reducible assumption
  lift_lets
  (intro x; refine keeps_cut (p := Keeps m z x) ?_ (fun hx => ?_); (on_goal 2 => clear_value x); (on_goal 1 => subst x))
  split
  apply State.finishReport_keeps (hm.sub rfl)
  with_reducible assumption
  with_reducible assumption
  split
  with_reducible apply keepsN_next
  with_reducible assumption
  with_reducible apply keepsN_next
  apply State.deliverReport_keeps (hm.sub rfl)
  with_reducible assumption

theorem State.zeroize_keeps (hm : Within [.pgw, .sch, .que, .vsp, .mem, .prog, .mat, .lnk, .hlt, .sec, .hst] m) {a0 : State} (h0 : Keeps m z a0) : Keeps m z (State.zeroize a0) := by
  unfold State.zeroize
  dsimp only
  with_reducible refine keeps_mk_empty (h := h0)

theorem State.dropLinks_keeps (hm : Within [.live, .run, .pend, .parity, .lnk, .hlt, .hst, .sum, .outbox] m) {a0 : State} (h0 : Keeps m z a0) : Keeps m z (State.dropLinks a0) := by
  unfold State.dropLinks
  (with_reducible refine keeps_foldl (fun s a hs => ?_) ?_)
  apply State.setLinkState_keeps (hm.sub rfl)
  with_reducible assumption
  with_reducible assumption

theorem State.debugToken_keeps (hm : Within [.live, .run, .pend, .parity, .pgw, .sch, .que, .vsp, .mem, .prog, .mat, .lnk, .map, .hlt, .sec, .hst, .sum, .outbox, .freeCtr] m) {a0 : State} (h0 : Keeps m z a0) : Keeps m z (State.debugToken a0) := by
  unfold State.debugToken
  lift_lets
  (intro x; refine keeps_cut (p := Keeps m z x) ?_ (fun hx => ?_); (on_goal 2 => clear_value x); (on_goal 1 => subst x))
  apply State.dropLinks_keeps (hm.sub rfl)
  apply State.zeroize_keeps (hm.sub rfl)
  apply State.fenceSelf_keeps (hm.sub rfl)
  with_reducible assumption
  (intro (x : SecSt); subst x)
  (intro x; refine keeps_cut (p := Keeps m z x) ?_ (fun hx => ?_); (on_goal 2 => clear_value x); (on_goal 1 => subst x))
  with_reducible refine keeps_mk (h := ?_)
  with_reducible assumption
  apply State.raiseBit_keeps (hm.sub rfl)
  apply State.setStatus_keeps (hm.sub rfl)
  with_reducible assumption

theorem State.releaseToken_keeps (hm : Within [.live, .sec] m) {a0 : State} (h0 : Keeps m z a0) : Keeps m z (State.releaseToken a0) := by
  unfold State.releaseToken
  lift_lets
  (intro x; clear_value x)
  (intro (x : SecSt); subst x)
  (intro x; refine keeps_cut (p := Keeps m z x) ?_ (fun hx => ?_); (on_goal 2 => clear_value x); (on_goal 1 => subst x))
  with_reducible refine keeps_mk (h := ?_)
  with_reducible assumption
  apply State.setStatus_keeps (hm.sub rfl)
  with_reducible assumption

theorem execActOnToken_keeps (hm : Within [.live, .staged, .run, .pend, .parity, .pgw, .sch, .que, .vsp, .mem, .prog, .mat, .lnk, .map, .hlt, .sec, .hst, .sum, .outbox, .freeCtr] m) (a0 : TokenFacts) {a1 : State} (h1 : Keeps m z a1) : KeepsN m z (execActOnToken a0 a1) := by
  unfold execActOnToken
  split
  with_reducible apply keepsN_next
  with_reducible assumption
  lift_lets
  (intro (x : SecSt); subst x)
  (intro x; refine keeps_cut (p := Keeps m z x) ?_ (fun hx => ?_); (on_goal 2 => clear_value x); (on_goal 1 => subst x))
  split
  with_reducible refine keeps_mk (h := ?_)
  with_reducible assumption
  apply State.commitTo_keeps (hm.sub rfl)
  with_reducible assumption
  (intro x; refine keeps_cut (p := Keeps m z x) ?_ (fun hx => ?_); (on_goal 2 => clear_value x); (on_goal 1 => subst x))
  apply State.setStatus_keeps (hm.sub rfl)
  with_reducible assumption
  with_reducible apply keepsN_next
  split
  with_reducible assumption
  apply State.debugToken_keeps (hm.sub rfl)
  with_reducible assumption
  apply State.releaseToken_keeps (hm.sub rfl)
  with_reducible assumption

theorem State.notice_keeps (hm : Within [.live] m) {a0 : State} (h0 : Keeps m z a0) : Keeps m z (State.notice a0) := by
  unfold State.notice
  lift_lets
  iterate 6 (intro x; clear_value x)
  apply State.setLive_keeps (hm.sub rfl)
  with_reducible assumption

theorem State.setTap_keeps (hm : Within [.sys] m) {a0 : State} (a1 : ℕ) (h0 : Keeps m z a0) : Keeps m z (State.setTap a0 a1) := by
  unfold State.setTap
  with_reducible refine keeps_mk (h := ?_)
  with_reducible assumption

theorem State.shiftOut_keeps (hm : Within [.sys, .outbox] m) {a0 : State} (a1 : ℕ) (h0 : Keeps m z a0) : Keeps m z (State.shiftOut a0 a1) := by
  unfold State.shiftOut
  apply State.emit_keeps (hm.sub rfl)
  with_reducible refine keeps_mk (h := ?_)
  with_reducible assumption

theorem execIdcode_keeps (hm : Within [.sys, .outbox] m) {a0 : State} (h0 : Keeps m z a0) : KeepsN m z (execIdcode a0) := by
  unfold execIdcode
  with_reducible apply keepsN_next
  split
  apply State.shiftOut_keeps (hm.sub rfl)
  apply State.setTap_keeps (hm.sub rfl)
  with_reducible assumption
  with_reducible assumption

theorem execBypass_keeps (hm : Within [.sys, .outbox] m) (a0 : Bool) {a1 : State} (h1 : Keeps m z a1) : KeepsN m z (execBypass a0 a1) := by
  unfold execBypass
  split
  with_reducible apply keepsN_next
  with_reducible assumption
  lift_lets
  (intro x; clear_value x)
  (intro (x : SysSt); subst x)
  with_reducible apply keepsN_next
  apply State.shiftOut_keeps (hm.sub rfl)
  apply State.setTap_keeps (hm.sub rfl)
  with_reducible refine keeps_mk (h := ?_)
  with_reducible assumption

theorem execSamplePreload_keeps (hm : Within [.sys, .outbox, .freeCtr] m) (a0 : List Bool) {a1 : State} (h1 : Keeps m z a1) : KeepsN m z (execSamplePreload a0 a1) := by
  unfold execSamplePreload
  split
  with_reducible apply keepsN_next
  with_reducible assumption
  lift_lets
  (intro x; clear_value x)
  (intro (x : SysSt); subst x)
  (intro x; refine keeps_cut (p := Keeps m z x) ?_ (fun hx => ?_); (on_goal 2 => clear_value x); (on_goal 1 => subst x))
  with_reducible refine keeps_mk (h := ?_)
  with_reducible assumption
  with_reducible apply keepsN_next
  apply State.shiftOut_keeps (hm.sub rfl)
  apply State.setTap_keeps (hm.sub rfl)
  with_reducible assumption

theorem execExtest_keeps (hm : Within [.sys] m) (a0 : List Bool) {a1 : State} (h1 : Keeps m z a1) : KeepsN m z (execExtest a0 a1) := by
  unfold execExtest
  split
  with_reducible apply keepsN_next
  with_reducible assumption
  with_reducible apply keepsN_next
  apply State.setTap_keeps (hm.sub rfl)
  with_reducible refine keeps_mk (h := ?_)
  with_reducible assumption

theorem execPrivateTestInstruction_keeps (hm : Within [] m) (a0 : ℕ) {a1 : State} (h1 : Keeps m z a1) : KeepsN m z (execPrivateTestInstruction a0 a1) := by
  unfold execPrivateTestInstruction
  split
  with_reducible apply keepsN_refused
  with_reducible apply keepsN_next
  with_reducible assumption

/-! ### Boot -/

theorem State.setBridge_keeps (hm : Within [.live] m) {a0 : State} (a1 : Bool) (h0 : Keeps m z a0) : Keeps m z (State.setBridge a0 a1) := by
  unfold State.setBridge
  apply State.setStatus_keeps (hm.sub rfl)
  apply State.setStatus_keeps (hm.sub rfl)
  with_reducible assumption

theorem State.toStep_keeps (hm : Within [.live] m) {a0 : State} (a1 : ℕ) (h0 : Keeps m z a0) : Keeps m z (State.toStep a0 a1) := by
  unfold State.toStep
  apply State.putStatus_keeps (hm.sub rfl)
  with_reducible assumption

theorem State.bootStop_keeps (hm : Within [.live, .hst, .sum, .outbox] m) {a0 : State} (a1 : ℕ) (a2 : Bool) (h0 : Keeps m z a0) : Keeps m z (State.bootStop a0 a1 a2) := by
  unfold State.bootStop
  lift_lets
  (intro x; refine keeps_cut (p := Keeps m z x) ?_ (fun hx => ?_); (on_goal 2 => clear_value x); (on_goal 1 => subst x))
  apply State.putStatus_keeps (hm.sub rfl)
  with_reducible assumption
  apply State.raiseBit_keeps (hm.sub rfl)
  split
  apply State.setBridge_keeps (hm.sub rfl)
  with_reducible assumption
  with_reducible assumption

theorem State.cleared_keeps (hm : Within [.now, .live, .staged, .run, .pend, .parity, .written, .time, .pgw, .sch, .que, .vsp, .mem, .prog, .mat, .lnk, .map, .hlt, .sec, .hst, .sys, .sum] m) {a0 : State} (a1 : PowerSt) (a2 : Bool) (h0 : Keeps m z a0) : Keeps m z (State.cleared a0 a1 a2) := by
  have h : regsCanonical (regSet (regSet [] Reg.pwrStatus (a0.live Reg.pwrStatus % 8)) Reg.clkStatus (if a2 then a0.live Reg.clkStatus &&& 2 else 0)) = true :=
    regsCanonical_regSet _ _ (regsCanonical_regSet _ _ rfl)
  refine h0.step rfl (fun i => ⟨?_, rfl, rfl, rfl, i.2.2.2.2⟩) (fun k hk => ?_)
  · cases a2
    · exact h
    · exact regsCanonical_regSet _ _ (regsCanonical_regSet _ _ h)
  · cases k
    case outbox => rfl
    case freeCtr => rfl
    all_goals exact absurd (within_mem rfl hm) hk

theorem State.straps_keeps (hm : Within [.sys] m) {a0 : State} (a1 : ℕ) (a2 : ℕ) (a3 : Bool) (h0 : Keeps m z a0) : Keeps m z (State.straps a0 a1 a2 a3) := by
  unfold State.straps
  with_reducible refine keeps_mk (h := ?_)
  with_reducible assumption

theorem execPowerOn_keeps (hm : Within [.now, .live, .staged, .run, .pend, .parity, .written, .time, .pgw, .sch, .que, .vsp, .mem, .prog, .mat, .lnk, .map, .hlt, .sec, .hst, .sys, .sum] m) (a0 : Bool) (a1 : ℕ) (a2 : ℕ) (a3 : Bool) {a4 : State} (h4 : Keeps m z a4) : KeepsN m z (execPowerOn a0 a1 a2 a3 a4) := by
  unfold execPowerOn
  lift_lets
  (intro x; refine keeps_cut (p := Keeps m z x) ?_ (fun hx => ?_); (on_goal 2 => clear_value x); (on_goal 1 => subst x))
  apply State.straps_keeps (hm.sub rfl)
  apply State.cleared_keeps (hm.sub rfl)
  with_reducible assumption
  (intro x; refine keeps_cut (p := Keeps m z x) ?_ (fun hx => ?_); (on_goal 2 => clear_value x); (on_goal 1 => subst x))
  apply State.setLive_keeps (hm.sub rfl)
  with_reducible assumption
  with_reducible apply keepsN_next
  apply State.toStep_keeps (hm.sub rfl)
  with_reducible assumption

theorem execOscDelayExpiry_keeps (hm : Within [.live, .sys] m) {a0 : State} (h0 : Keeps m z a0) : KeepsN m z (execOscDelayExpiry a0) := by
  unfold execOscDelayExpiry
  split
  with_reducible apply keepsN_next
  with_reducible assumption
  lift_lets
  (intro (x : SysSt); subst x)
  (intro x; refine keeps_cut (p := Keeps m z x) ?_ (fun hx => ?_); (on_goal 2 => clear_value x); (on_goal 1 => subst x))
  apply State.setStatus_keeps (hm.sub rfl)
  with_reducible refine keeps_mk (h := ?_)
  with_reducible assumption
  (intro (x : SysSt); subst x)
  with_reducible apply keepsN_next
  split
  apply State.toStep_keeps (hm.sub rfl)
  with_reducible assumption
  with_reducible refine keeps_mk (h := ?_)
  with_reducible assumption

theorem execResetAssert_keeps (hm : Within [.now, .live, .staged, .run, .pend, .parity, .written, .time, .pgw, .sch, .que, .vsp, .mem, .prog, .mat, .lnk, .map, .hlt, .sec, .hst, .sys, .sum] m) {a0 : State} (h0 : Keeps m z a0) : KeepsN m z (execResetAssert a0) := by
  unfold execResetAssert
  lift_lets
  (intro x; refine keeps_cut (p := ∀ s0, Keeps m z s0 → Keeps m z (x s0)) ?_ (fun hf0 => ?_); (on_goal 2 => clear_value x); (on_goal 1 => (intro s0 hs0; subst x; beta_reduce)))
  lift_lets
  (intro (x : SysSt); subst x)
  with_reducible refine keeps_mk (h := ?_)
  with_reducible assumption
  split
  with_reducible apply keepsN_next
  with_reducible apply hf0
  apply State.cleared_keeps (hm.sub rfl)
  with_reducible assumption
  with_reducible apply keepsN_next
  with_reducible apply hf0
  apply State.cleared_keeps (hm.sub rfl)
  with_reducible assumption
  with_reducible apply keepsN_next
  with_reducible apply hf0
  with_reducible assumption
  with_reducible apply keepsN_next
  with_reducible apply hf0
  with_reducible assumption

theorem execResetRelease_keeps (hm : Within [.live, .sys] m) (a0 : ℕ) (a1 : ℕ) (a2 : Bool) {a3 : State} (h3 : Keeps m z a3) : KeepsN m z (execResetRelease a0 a1 a2 a3) := by
  unfold execResetRelease
  split
  with_reducible apply keepsN_next
  with_reducible assumption
  lift_lets
  (intro (x : SysSt); subst x)
  (intro x; refine keeps_cut (p := Keeps m z x) ?_ (fun hx => ?_); (on_goal 2 => clear_value x); (on_goal 1 => subst x))
  with_reducible refine keeps_mk (h := ?_)
  with_reducible assumption
  (intro x; refine keeps_cut (p := ∀ s0, Keeps m z s0 → Keeps m z (x s0)) ?_ (fun hf0 => ?_); (on_goal 2 => clear_value x); (on_goal 1 => (intro s0 hs0; subst x; beta_reduce)))
  lift_lets
  (intro (x : SysSt); subst x)
  with_reducible refine keeps_mk (h := ?_)
  with_reducible assumption
  split
  with_reducible apply keepsN_next
  apply State.toStep_keeps (hm.sub rfl)
  with_reducible apply hf0
  apply State.straps_keeps (hm.sub rfl)
  with_reducible assumption
  with_reducible apply keepsN_next
  split
  apply State.toStep_keeps (hm.sub rfl)
  with_reducible apply hf0
  apply State.straps_keeps (hm.sub rfl)
  with_reducible assumption
  with_reducible assumption
  with_reducible apply keepsN_next
  apply State.straps_keeps (hm.sub rfl)
  with_reducible assumption
  with_reducible apply keepsN_next
  with_reducible assumption

theorem State.shutdown_keeps (hm : Within [.now, .live, .staged, .run, .pend, .parity, .written, .time, .pgw, .sch, .que, .vsp, .mem, .prog, .mat, .lnk, .map, .hlt, .sec, .hst, .sys, .sum] m) {a0 : State} (a1 : ℕ) (a2 : ℕ) (h0 : Keeps m z a0) : Keeps m z (State.shutdown a0 a1 a2) := by
  unfold State.shutdown
  apply State.setLive_keeps (hm.sub rfl)
  apply State.cleared_keeps (hm.sub rfl)
  with_reducible assumption

theorem State.bootLeaves_keeps (hm : Within [.live, .sec, .hst, .sum, .outbox] m) {a0 : State} (h0 : Keeps m z a0) : Keeps m z (State.bootLeaves a0) := by
  unfold State.bootLeaves
  lift_lets
  iterate 4 (intro x; clear_value x)
  (intro (x : SecSt); subst x)
  (intro x; refine keeps_cut (p := Keeps m z x) ?_ (fun hx => ?_); (on_goal 2 => clear_value x); (on_goal 1 => subst x))
  with_reducible refine keeps_mk (h := ?_)
  with_reducible assumption
  (intro x; refine keeps_cut (p := Keeps m z x) ?_ (fun hx => ?_); (on_goal 2 => clear_value x); (on_goal 1 => subst x))
  apply State.setStatus_keeps (hm.sub rfl)
  with_reducible assumption
  split
  apply State.raiseBit_keeps (hm.sub rfl)
  with_reducible assumption
  with_reducible assumption

theorem State.takeImage_keeps (hm : Within [.live, .map, .sec, .sys] m) {a0 : State} (h0 : Keeps m z a0) : Keeps m z (State.takeImage a0) := by
  unfold State.takeImage
  lift_lets
  iterate 3 (intro x; clear_value x)
  (intro (x : MapSt); subst x)
  (intro (x : SecSt); subst x)
  (intro (x : SysSt); subst x)
  (intro x; refine keeps_cut (p := Keeps m z x) ?_ (fun hx => ?_); (on_goal 2 => clear_value x); (on_goal 1 => subst x))
  with_reducible refine keeps_mk (h := ?_)
  with_reducible assumption
  apply State.setStatus_keeps (hm.sub rfl)
  with_reducible assumption

theorem State.linksDetect_keeps (hm : Within [.live, .run, .pend, .parity, .lnk, .hlt, .hst, .sum, .outbox] m) {a0 : State} (h0 : Keeps m z a0) : Keeps m z (State.linksDetect a0) := by
  unfold State.linksDetect
  lift_lets
  (intro x; clear_value x)
  apply State.setHostState_keeps (hm.sub rfl)
  (with_reducible refine keeps_foldl (fun s a hs => ?_) ?_)
  apply State.setLinkState_keeps (hm.sub rfl)
  with_reducible assumption
  with_reducible assumption

theorem State.verifyStep_keeps (hm : Within [.live, .run, .pend, .parity, .lnk, .map, .hlt, .sec, .hst, .sys, .sum, .outbox] m) {a0 : State} (a1 : SunriseFacts) (h0 : Keeps m z a0) : Keeps m z (State.verifyStep a0 a1) := by
  unfold State.verifyStep
  lift_lets
  (intro (x : SecSt); subst x)
  (intro x; refine keeps_cut (p := Keeps m z x) ?_ (fun hx => ?_); (on_goal 2 => clear_value x); (on_goal 1 => subst x))
  with_reducible refine keeps_mk (h := ?_)
  with_reducible assumption
  (intro x; refine keeps_cut (p := Keeps m z x) ?_ (fun hx => ?_); (on_goal 2 => clear_value x); (on_goal 1 => subst x))
  apply State.setStatus_keeps (hm.sub rfl)
  with_reducible assumption
  split
  apply State.bootStop_keeps (hm.sub rfl)
  split
  apply State.counterFault_keeps (hm.sub rfl)
  with_reducible assumption
  with_reducible assumption
  apply State.linksDetect_keeps (hm.sub rfl)
  apply State.toStep_keeps (hm.sub rfl)
  apply State.bootLeaves_keeps (hm.sub rfl)
  apply State.takeImage_keeps (hm.sub rfl)
  with_reducible assumption

theorem State.markActed_keeps (hm : Within [.live, .hlt, .hst, .sum, .outbox] m) {a0 : State} (a1 : List ℕ) (h0 : Keeps m z a0) : Keeps m z (State.markActed a0 a1) := by
  unfold State.markActed
  (with_reducible refine keeps_foldl (fun s a hs => ?_) ?_)
  apply State.raiseBit_keeps (hm.sub rfl)
  apply State.setScore_keeps (hm.sub rfl)
  with_reducible assumption
  with_reducible assumption

theorem State.memoryStep_keeps (hm : Within [.live, .run, .pgw, .sch, .que, .vsp, .mem, .prog, .mat, .lnk, .map, .hlt, .sec, .hst, .sys, .sum, .outbox, .freeCtr] m) {a0 : State} (a1 : Sys2Proof.SunriseFacts) (h0 : Keeps m z a0) : Keeps m z (State.memoryStep a0 a1) := by
  unfold State.memoryStep
  lift_lets
  (intro x; clear_value x)
  (intro (x : SysSt); subst x)
  (intro x; refine keeps_cut (p := Keeps m z x) ?_ (fun hx => ?_); (on_goal 2 => clear_value x); (on_goal 1 => subst x))
  with_reducible refine keeps_mk_empty (h := ?_)
  with_reducible assumption
  (intro x; refine keeps_cut (p := Keeps m z x) ?_ (fun hx => ?_); (on_goal 2 => clear_value x); (on_goal 1 => subst x))
  apply State.markActed_keeps (hm.sub rfl)
  apply State.markActed_keeps (hm.sub rfl)
  with_reducible assumption
  (intro x; refine keeps_cut (p := Keeps m z x) ?_ (fun hx => ?_); (on_goal 2 => clear_value x); (on_goal 1 => subst x))
  (with_reducible refine keeps_foldl (fun s a hs => ?_) ?_)
  apply State.setLive_keeps (hm.sub rfl)
  with_reducible assumption
  with_reducible assumption
  (intro x; clear_value x)
  split
  apply State.bootStop_keeps (hm.sub rfl)
  with_reducible assumption
  apply State.toStep_keeps (hm.sub rfl)
  apply State.checkHealth_keeps (hm.sub rfl)
  with_reducible assumption

theorem State.applyStep_keeps (hm : Within [.live, .staged, .run, .pend, .parity, .written, .time, .pgw, .sch, .que, .vsp, .mem, .prog, .mat, .lnk, .map, .hlt, .sec, .hst, .sum, .outbox, .freeCtr] m) {a0 : State} (h0 : Keeps m z a0) : Keeps m z (State.applyStep a0) := by
  unfold State.applyStep
  lift_lets
  (intro x; refine keeps_cut (p := ∀ s0 y1, Keeps m z s0 → Keeps m z (x s0 y1)) ?_ (fun hf0 => ?_); (on_goal 2 => clear_value x); (on_goal 1 => (intro s0 y1 hs0; subst x; beta_reduce)))
  split
  apply State.stageWrite_keeps (hm.sub rfl)
  with_reducible assumption
  with_reducible assumption
  (intro x; refine keeps_cut (p := Keeps m z x) ?_ (fun hx => ?_); (on_goal 2 => clear_value x); (on_goal 1 => subst x))
  (with_reducible refine keeps_foldl (fun s a hs => ?_) ?_)
  with_reducible apply hf0
  with_reducible assumption
  with_reducible assumption
  (intro x; refine keeps_cut (p := Keeps m z x) ?_ (fun hx => ?_); (on_goal 2 => clear_value x); (on_goal 1 => subst x))
  apply State.applyPending_keeps (hm.sub rfl)
  apply State.commitGroups_keeps (hm.sub rfl)
  with_reducible assumption
  split
  apply State.toStep_keeps (hm.sub rfl)
  with_reducible assumption
  apply State.bootStop_keeps (hm.sub rfl)
  with_reducible assumption

theorem State.clocksUp_keeps (hm : Within [.live] m) {a0 : State} (h0 : Keeps m z a0) : Keeps m z (State.clocksUp a0) := by
  unfold State.clocksUp
  apply State.refreshSsc_keeps (hm.sub rfl)
  apply State.putStatus_keeps (hm.sub rfl)
  with_reducible assumption

theorem State.pufStep_keeps (hm : Within [.sec, .freeCtr] m) {a0 : State} (a1 : List Byte) (h0 : Keeps m z a0) : Keeps m z (State.pufStep a0 a1) := by
  unfold State.pufStep
  lift_lets
  iterate 2 (intro x; clear_value x)
  (intro (x : SecSt); subst x)
  (intro x; refine keeps_cut (p := Keeps m z x) ?_ (fun hx => ?_); (on_goal 2 => clear_value x); (on_goal 1 => subst x))
  with_reducible refine keeps_mk (h := ?_)
  with_reducible assumption
  (intro (x : SecSt); subst x)
  (intro x; refine keeps_cut (p := Keeps m z x) ?_ (fun hx => ?_); (on_goal 2 => clear_value x); (on_goal 1 => subst x))
  with_reducible refine keeps_mk (h := ?_)
  with_reducible assumption
  (intro x; refine keeps_cut (p := Keeps m z x.2) ?_ (fun hx => ?_); (on_goal 2 => clear_value x); (on_goal 1 => subst x))
  apply State.randomBytes_keeps (hm.sub rfl)
  apply State.seedRandom_keeps (hm.sub rfl)
  with_reducible assumption
  (intro x; have _ : Keeps m z x := (by subst x; with_reducible assumption); subst x)
  (intro (x : SecSt); subst x)
  with_reducible refine keeps_mk (h := ?_)
  with_reducible assumption

theorem execSunriseStepEnd_keeps (hm : Within [.now, .live, .staged, .run, .pend, .parity, .written, .time, .pgw, .sch, .que, .vsp, .mem, .prog, .mat, .lnk, .map, .hlt, .sec, .hst, .sys, .sum, .outbox, .freeCtr] m) (a0 : SunriseFacts) {a1 : State} (h1 : Keeps m z a1) : KeepsN m z (execSunriseStepEnd a0 a1) := by
  unfold execSunriseStepEnd
  split
  with_reducible apply keepsN_next
  with_reducible assumption
  split
  with_reducible apply keepsN_next
  split
  apply State.shutdown_keeps (hm.sub rfl)
  with_reducible assumption
  apply State.toStep_keeps (hm.sub rfl)
  with_reducible assumption
  with_reducible apply keepsN_next
  split
  apply State.bootStop_keeps (hm.sub rfl)
  with_reducible assumption
  apply State.toStep_keeps (hm.sub rfl)
  with_reducible assumption
  with_reducible apply keepsN_next
  apply State.toStep_keeps (hm.sub rfl)
  apply State.pufStep_keeps (hm.sub rfl)
  with_reducible assumption
  with_reducible apply keepsN_next
  split
  apply State.toStep_keeps (hm.sub rfl)
  apply State.clocksUp_keeps (hm.sub rfl)
  with_reducible assumption
  apply State.bootStop_keeps (hm.sub rfl)
  with_reducible assumption
  with_reducible apply keepsN_next
  split
  apply State.toStep_keeps (hm.sub rfl)
  with_reducible assumption
  apply State.bootStop_keeps (hm.sub rfl)
  with_reducible assumption
  with_reducible apply keepsN_next
  apply State.verifyStep_keeps (hm.sub rfl)
  with_reducible assumption
  with_reducible apply keepsN_next
  apply State.memoryStep_keeps (hm.sub rfl)
  with_reducible assumption
  with_reducible apply keepsN_next
  apply State.applyStep_keeps (hm.sub rfl)
  with_reducible assumption
  with_reducible apply keepsN_next
  with_reducible assumption

theorem State.claimNow_keeps (hm : Within [.live, .sec, .sys] m) {a0 : State} (h0 : Keeps m z a0) : Keeps m z (State.claimNow a0) := by
  unfold State.claimNow
  lift_lets
  (intro x; clear_value x)
  (intro x; refine keeps_cut (p := ∀ s0, Keeps m z s0 → Keeps m z (x s0)) ?_ (fun hf0 => ?_); (on_goal 2 => clear_value x); (on_goal 1 => (intro s0 hs0; subst x; beta_reduce)))
  apply State.putFlash_keeps (hm.sub rfl)
  with_reducible assumption
  (intro x; refine keeps_cut (p := Keeps m z x) ?_ (fun hx => ?_); (on_goal 2 => clear_value x); (on_goal 1 => subst x))
  with_reducible apply hf0
  with_reducible assumption
  (intro (x : SecSt); subst x)
  (intro x; refine keeps_cut (p := Keeps m z x) ?_ (fun hx => ?_); (on_goal 2 => clear_value x); (on_goal 1 => subst x))
  split
  with_reducible refine keeps_mk (h := ?_)
  with_reducible assumption
  with_reducible assumption
  (intro (x : SecSt); subst x)
  (intro x; refine keeps_cut (p := Keeps m z x) ?_ (fun hx => ?_); (on_goal 2 => clear_value x); (on_goal 1 => subst x))
  with_reducible refine keeps_mk (h := ?_)
  with_reducible assumption
  apply State.setStatus_keeps (hm.sub rfl)
  with_reducible assumption

theorem State.refreshLimits_keeps (hm : Within [.live] m) {a0 : State} (h0 : Keeps m z a0) : Keeps m z (State.refreshLimits a0) := by
  unfold State.refreshLimits
  lift_lets
  iterate 2 (intro x; clear_value x)
  apply State.setStatus_keeps (hm.sub rfl)
  with_reducible assumption

theorem execService_keeps (hm : Within [.live, .hlt, .sec, .sys, .outbox] m) {a0 : State} (h0 : Keeps m z a0) : KeepsN m z (execService a0) := by
  unfold execService
  split
  with_reducible apply keepsN_next
  with_reducible assumption
  lift_lets
  (intro x; refine keeps_cut (p := Keeps m z x) ?_ (fun hx => ?_); (on_goal 2 => clear_value x); (on_goal 1 => subst x))
  apply State.setStatus_keeps (hm.sub rfl)
  apply State.claimNow_keeps (hm.sub rfl)
  with_reducible assumption
  (intro x; refine keeps_cut (p := Keeps m z x) ?_ (fun hx => ?_); (on_goal 2 => clear_value x); (on_goal 1 => subst x))
  apply State.setStatus_keeps (hm.sub rfl)
  apply State.toStep_keeps (hm.sub rfl)
  with_reducible assumption
  (intro (x : HltSt); subst x)
  (intro x; refine keeps_cut (p := Keeps m z x) ?_ (fun hx => ?_); (on_goal 2 => clear_value x); (on_goal 1 => subst x))
  with_reducible refine keeps_mk (h := ?_)
  with_reducible assumption
  (intro x; refine keeps_cut (p := Keeps m z x) ?_ (fun hx => ?_); (on_goal 2 => clear_value x); (on_goal 1 => subst x))
  apply State.setStatus_keeps (hm.sub rfl)
  apply State.setBridge_keeps (hm.sub rfl)
  with_reducible assumption
  with_reducible apply keepsN_next
  apply State.sendJoin_keeps (hm.sub rfl)
  apply State.refreshLimits_keeps (hm.sub rfl)
  apply State.runNight_keeps (hm.sub rfl)
  with_reducible assumption

theorem State.useFeed_keeps (hm : Within [.live, .hst, .sum, .outbox] m) {a0 : State} (a1 : Bool) (h0 : Keeps m z a0) : Keeps m z (State.useFeed a0 a1) := by
  unfold State.useFeed
  split
  with_reducible assumption
  apply State.raiseBit_keeps (hm.sub rfl)
  apply State.setStatus_keeps (hm.sub rfl)
  with_reducible assumption

theorem execFeedInvalid_keeps (hm : Within [.live, .hst, .sum, .outbox] m) (a0 : Bool) {a1 : State} (h1 : Keeps m z a1) : KeepsN m z (execFeedInvalid a0 a1) := by
  unfold execFeedInvalid
  split
  with_reducible apply keepsN_next
  with_reducible assumption
  lift_lets
  (intro x; clear_value x)
  (intro x; refine keeps_cut (p := Keeps m z x) ?_ (fun hx => ?_); (on_goal 2 => clear_value x); (on_goal 1 => subst x))
  apply State.raiseBit_keeps (hm.sub rfl)
  apply State.setStatus_keeps (hm.sub rfl)
  with_reducible assumption
  with_reducible apply keepsN_next
  split
  apply State.useFeed_keeps (hm.sub rfl)
  with_reducible assumption
  with_reducible assumption

theorem execFeedValid_keeps (hm : Within [.live, .hst, .sum, .outbox] m) (a0 : Bool) {a1 : State} (h1 : Keeps m z a1) : KeepsN m z (execFeedValid a0 a1) := by
  unfold execFeedValid
  split
  with_reducible apply keepsN_next
  with_reducible assumption
  lift_lets
  (intro x; clear_value x)
  (intro x; refine keeps_cut (p := Keeps m z x) ?_ (fun hx => ?_); (on_goal 2 => clear_value x); (on_goal 1 => subst x))
  apply State.setStatus_keeps (hm.sub rfl)
  with_reducible assumption
  (intro x; clear_value x)
  with_reducible apply keepsN_next
  split
  apply State.useFeed_keeps (hm.sub rfl)
  with_reducible assumption
  with_reducible assumption

theorem execFeedLossShutdown_keeps (hm : Within [.now, .live, .staged, .run, .pend, .parity, .written, .time, .pgw, .sch, .que, .vsp, .mem, .prog, .mat, .lnk, .map, .hlt, .sec, .hst, .sys, .sum] m) {a0 : State} (h0 : Keeps m z a0) : KeepsN m z (execFeedLossShutdown a0) := by
  unfold execFeedLossShutdown
  split
  with_reducible apply keepsN_next
  with_reducible assumption
  with_reducible apply keepsN_next
  apply State.shutdown_keeps (hm.sub rfl)
  with_reducible assumption

theorem execRailFault_keeps (hm : Within [.now, .live, .staged, .run, .pend, .parity, .written, .time, .pgw, .sch, .que, .vsp, .mem, .prog, .mat, .lnk, .map, .hlt, .sec, .hst, .sys, .sum] m) (a0 : ℕ) {a1 : State} (h1 : Keeps m z a1) : KeepsN m z (execRailFault a0 a1) := by
  unfold execRailFault
  split
  with_reducible apply keepsN_next
  with_reducible assumption
  with_reducible apply keepsN_next
  apply State.shutdown_keeps (hm.sub rfl)
  with_reducible assumption

theorem execPeak_keeps (hm : Within [.live, .hst, .sum, .outbox] m) {a0 : State} (h0 : Keeps m z a0) : KeepsN m z (execPeak a0) := by
  unfold execPeak
  with_reducible apply keepsN_next
  split
  apply State.raiseBit_keeps (hm.sub rfl)
  with_reducible assumption
  with_reducible assumption

theorem State.enterTwilight_keeps (hm : Within [.live, .run, .pend, .parity, .time, .pgw, .sch, .que, .vsp, .mem, .prog, .mat, .lnk, .map, .hlt, .sec, .hst, .sys, .sum, .outbox, .freeCtr] m) {a0 : State} (a1 : ℕ) (h0 : Keeps m z a0) : Keeps m z (State.enterTwilight a0 a1) := by
  unfold State.enterTwilight
  lift_lets
  iterate 2 (intro x; clear_value x)
  (intro x; refine keeps_cut (p := Keeps m z x) ?_ (fun hx => ?_); (on_goal 2 => clear_value x); (on_goal 1 => subst x))
  apply State.raiseBit_keeps (hm.sub rfl)
  apply State.raiseBit_keeps (hm.sub rfl)
  apply State.putStatus_keeps (hm.sub rfl)
  with_reducible assumption
  (intro x; clear_value x)
  (intro x; refine keeps_cut (p := Keeps m z x) ?_ (fun hx => ?_); (on_goal 2 => clear_value x); (on_goal 1 => subst x))
  apply State.setLive_keeps (hm.sub rfl)
  with_reducible assumption
  (intro (x : TimeSt); subst x)
  (intro (x : SysSt); subst x)
  (intro x; refine keeps_cut (p := Keeps m z x) ?_ (fun hx => ?_); (on_goal 2 => clear_value x); (on_goal 1 => subst x))
  with_reducible refine keeps_mk (h := ?_)
  with_reducible assumption
  (intro x; refine keeps_cut (p := Keeps m z x) ?_ (fun hx => ?_); (on_goal 2 => clear_value x); (on_goal 1 => subst x))
  apply State.setStatus_keeps (hm.sub rfl)
  with_reducible assumption
  (intro x; refine keeps_cut (p := Keeps m z x) ?_ (fun hx => ?_); (on_goal 2 => clear_value x); (on_goal 1 => subst x))
  (with_reducible refine keeps_foldl (fun s a hs => ?_) ?_)
  apply State.setLinkState_keeps (hm.sub rfl)
  with_reducible assumption
  with_reducible assumption
  (intro x; refine keeps_cut (p := Keeps m z x) ?_ (fun hx => ?_); (on_goal 2 => clear_value x); (on_goal 1 => subst x))
  apply State.setHostState_keeps (hm.sub rfl)
  with_reducible assumption
  (intro x; refine keeps_cut (p := Keeps m z x) ?_ (fun hx => ?_); (on_goal 2 => clear_value x); (on_goal 1 => subst x))
  split
  apply State.fenceForTime_keeps (hm.sub rfl)
  with_reducible assumption
  with_reducible assumption
  split
  apply State.becomeFailed_keeps (hm.sub rfl)
  with_reducible assumption
  with_reducible assumption

theorem execRefclkLoss_keeps (hm : Within [.live, .run, .pend, .parity, .time, .pgw, .sch, .que, .vsp, .mem, .prog, .mat, .lnk, .map, .hlt, .sec, .hst, .sys, .sum, .outbox, .freeCtr] m) {a0 : State} (h0 : Keeps m z a0) : KeepsN m z (execRefclkLoss a0) := by
  unfold execRefclkLoss
  with_reducible apply keepsN_next
  split
  apply State.enterTwilight_keeps (hm.sub rfl)
  with_reducible assumption
  with_reducible assumption

theorem execPllUnlock_keeps (hm : Within [.live, .run, .pend, .parity, .time, .pgw, .sch, .que, .vsp, .mem, .prog, .mat, .lnk, .map, .hlt, .sec, .hst, .sys, .sum, .outbox, .freeCtr] m) (a0 : ℕ) {a1 : State} (h1 : Keeps m z a1) : KeepsN m z (execPllUnlock a0 a1) := by
  unfold execPllUnlock
  with_reducible apply keepsN_next
  split
  apply State.enterTwilight_keeps (hm.sub rfl)
  with_reducible assumption
  with_reducible assumption

theorem execTwilightExit_keeps (hm : Within [.live, .run, .pend, .parity, .time, .lnk, .map, .hlt, .hst, .sum, .outbox] m) {a0 : State} (h0 : Keeps m z a0) : KeepsN m z (execTwilightExit a0) := by
  unfold execTwilightExit
  split
  with_reducible apply keepsN_next
  with_reducible assumption
  lift_lets
  (intro x; clear_value x)
  (intro x; refine keeps_cut (p := Keeps m z x) ?_ (fun hx => ?_); (on_goal 2 => clear_value x); (on_goal 1 => subst x))
  apply State.setLive_keeps (hm.sub rfl)
  with_reducible assumption
  (intro (x : TimeSt); subst x)
  (intro x; refine keeps_cut (p := Keeps m z x) ?_ (fun hx => ?_); (on_goal 2 => clear_value x); (on_goal 1 => subst x))
  with_reducible refine keeps_mk (h := ?_)
  with_reducible assumption
  (intro x; refine keeps_cut (p := Keeps m z x) ?_ (fun hx => ?_); (on_goal 2 => clear_value x); (on_goal 1 => subst x))
  apply State.refreshSsc_keeps (hm.sub rfl)
  apply State.putStatus_keeps (hm.sub rfl)
  with_reducible assumption
  (intro x; refine keeps_cut (p := Keeps m z x) ?_ (fun hx => ?_); (on_goal 2 => clear_value x); (on_goal 1 => subst x))
  apply State.raiseBit_keeps (hm.sub rfl)
  apply State.linksDetect_keeps (hm.sub rfl)
  with_reducible assumption
  with_reducible apply keepsN_next
  split
  apply State.startFetchMap_keeps (hm.sub rfl)
  with_reducible assumption
  with_reducible assumption

theorem execXtalLoss_keeps (hm : Within [.live, .run, .pgw, .sch, .que, .vsp, .mem, .prog, .mat, .lnk, .map, .hlt, .sec, .hst, .sum, .outbox, .freeCtr] m) {a0 : State} (h0 : Keeps m z a0) : KeepsN m z (execXtalLoss a0) := by
  unfold execXtalLoss
  split
  with_reducible apply keepsN_next
  with_reducible assumption
  lift_lets
  (intro x; refine keeps_cut (p := Keeps m z x) ?_ (fun hx => ?_); (on_goal 2 => clear_value x); (on_goal 1 => subst x))
  apply State.raiseBit_keeps (hm.sub rfl)
  apply State.setStatus_keeps (hm.sub rfl)
  with_reducible assumption
  with_reducible apply keepsN_next
  split
  apply State.becomeFailed_keeps (hm.sub rfl)
  with_reducible assumption
  with_reducible assumption

theorem execXtalReturn_keeps (hm : Within [.live] m) {a0 : State} (h0 : Keeps m z a0) : KeepsN m z (execXtalReturn a0) := by
  unfold execXtalReturn
  with_reducible apply keepsN_next
  split
  apply State.setStatus_keeps (hm.sub rfl)
  with_reducible assumption
  with_reducible assumption

/-! ### Minute -/

theorem State.quotaShort_keeps (hm : Within [.live, .run, .hst, .sum, .outbox] m) {a0 : State} (a1 : ℕ) (h0 : Keeps m z a0) : Keeps m z (State.quotaShort a0 a1) := by
  unfold State.quotaShort
  lift_lets
  (intro x; clear_value x)
  split
  apply State.raiseBit_keeps (hm.sub rfl)
  apply State.bump_keeps (hm.sub rfl)
  with_reducible assumption
  with_reducible assumption

theorem State.depths_keeps (hm : Within [.run, .que] m) {a0 : State} (h0 : Keeps m z a0) : Keeps m z (State.depths a0) := by
  unfold State.depths
  lift_lets
  (intro x; refine keeps_cut (p := Keeps m z x) ?_ (fun hx => ?_); (on_goal 2 => clear_value x); (on_goal 1 => subst x))
  (with_reducible refine keeps_foldl (fun s a hs => ?_) ?_)
  lift_lets
  (intro x; subst x)
  split
  with_reducible assumption
  apply State.bumpMax_keeps (hm.sub rfl)
  with_reducible assumption
  with_reducible assumption
  (intro (x : QueSt); subst x)
  with_reducible refine keeps_mk (h := ?_)
  with_reducible assumption

theorem State.fecReset_keeps (hm : Within [.live, .run, .pgw, .sch, .que, .vsp, .mem, .prog, .mat, .lnk, .sec, .hst, .sum, .outbox, .freeCtr] m) {a0 : State} (h0 : Keeps m z a0) : Keeps m z (State.fecReset a0) := by
  unfold State.fecReset
  lift_lets
  (intro x; clear_value x)
  (intro x; refine keeps_cut (p := Keeps m z x) ?_ (fun hx => ?_); (on_goal 2 => clear_value x); (on_goal 1 => subst x))
  apply State.mapLinks_keeps (hm.sub rfl)
  with_reducible assumption
  (intro (x : HstSt); subst x)
  (intro x; refine keeps_cut (p := Keeps m z x) ?_ (fun hx => ?_); (on_goal 2 => clear_value x); (on_goal 1 => subst x))
  with_reducible refine keeps_mk (h := ?_)
  with_reducible assumption
  (with_reducible refine keeps_foldl (fun s a hs => ?_) ?_)
  apply State.fencePeer_keeps (hm.sub rfl)
  with_reducible assumption
  with_reducible assumption

theorem State.owedSummary_keeps (hm : Within [.hst, .sum, .outbox] m) {a0 : State} (h0 : Keeps m z a0) : Keeps m z (State.owedSummary a0) := by
  unfold State.owedSummary
  split
  with_reducible assumption
  apply State.sendSummary_keeps (hm.sub rfl)
  with_reducible refine keeps_mk (h := ?_)
  with_reducible assumption

theorem State.parityScan_keeps (hm : Within [.live, .parity, .hst, .sum, .outbox] m) {a0 : State} (a1 : List (ℕ × ℕ)) (h0 : Keeps m z a0) : Keeps m z (State.parityScan a0 a1) := by
  unfold State.parityScan
  (with_reducible refine keeps_foldl (fun s a hs => ?_) ?_)
  split
  with_reducible assumption
  apply State.parityFound_keeps (hm.sub rfl)
  with_reducible refine keeps_mk (h := ?_)
  with_reducible assumption
  with_reducible assumption

theorem State.thermal_keeps (hm : Within [.now, .live, .staged, .run, .pend, .parity, .written, .time, .pgw, .sch, .que, .vsp, .mem, .prog, .mat, .lnk, .map, .hlt, .sec, .hst, .sys, .sum, .outbox] m) {a0 : State} (a1 : List Int) (h0 : Keeps m z a0) : Keeps m z (State.thermal a0 a1) := by
  unfold State.thermal
  lift_lets
  (intro x; clear_value x)
  (intro x; refine keeps_cut (p := Keeps m z x) ?_ (fun hx => ?_); (on_goal 2 => clear_value x); (on_goal 1 => subst x))
  (with_reducible refine keeps_foldl (fun s a hs => ?_) ?_)
  lift_lets
  iterate 2 (intro x; clear_value x)
  apply State.setLive_keeps (hm.sub rfl)
  with_reducible refine keeps_mk (h := ?_)
  with_reducible assumption
  with_reducible assumption
  (intro x; refine keeps_cut (p := Keeps m z x) ?_ (fun hx => ?_); (on_goal 2 => clear_value x); (on_goal 1 => subst x))
  split
  apply State.raiseBit_keeps (hm.sub rfl)
  with_reducible assumption
  with_reducible assumption
  split
  apply State.shutdown_keeps (hm.sub rfl)
  with_reducible assumption
  with_reducible assumption

theorem State.corrected_keeps (hm : Within [.live, .hlt, .hst, .sum, .outbox] m) {a0 : State} (a1 : List ℕ) (a2 : List ℕ) (h0 : Keeps m z a0) : Keeps m z (State.corrected a0 a1 a2) := by
  unfold State.corrected
  lift_lets
  (intro x; refine keeps_cut (p := Keeps m z x) ?_ (fun hx => ?_); (on_goal 2 => clear_value x); (on_goal 1 => subst x))
  (with_reducible refine keeps_foldl (fun s a hs => ?_) ?_)
  apply State.addPoints_keeps (hm.sub rfl)
  with_reducible assumption
  with_reducible assumption
  (with_reducible refine keeps_foldl (fun s a hs => ?_) ?_)
  apply State.addPoints_keeps (hm.sub rfl)
  with_reducible assumption
  with_reducible assumption

theorem State.feedVolts_keeps (hm : Within [.live] m) {a0 : State} (a1 : ℕ) (a2 : ℕ) (h0 : Keeps m z a0) : Keeps m z (State.feedVolts a0 a1 a2) := by
  unfold State.feedVolts
  apply State.setLive_keeps (hm.sub rfl)
  with_reducible assumption

theorem State.migrateMinute_keeps (hm : Within [.live, .run, .pgw, .sch, .que, .vsp, .mem, .lnk, .sec, .hst, .sum, .outbox, .freeCtr] m) {a0 : State} (h0 : Keeps m z a0) : Keeps m z (State.migrateMinute a0) := by
  unfold State.migrateMinute
  split
  with_reducible assumption
  lift_lets
  (intro x; refine keeps_cut (p := Keeps m z x) ?_ (fun hx => ?_); (on_goal 2 => clear_value x); (on_goal 1 => subst x))
  apply State.dawnMinute_keeps (hm.sub rfl)
  apply State.shadowMinute_keeps (hm.sub rfl)
  with_reducible assumption
  apply State.evacuate_keeps (hm.sub rfl)
  with_reducible assumption

theorem State.serviceMinute_keeps (hm : Within [.live, .run, .pgw, .sch, .que, .vsp, .mem, .prog, .mat, .lnk, .map, .hlt, .sec, .hst, .sum, .outbox, .freeCtr] m) {a0 : State} (h0 : Keeps m z a0) : Keeps m z (State.serviceMinute a0) := by
  unfold State.serviceMinute
  split
  with_reducible assumption
  lift_lets
  (intro x; refine keeps_cut (p := Keeps m z x) ?_ (fun hx => ?_); (on_goal 2 => clear_value x); (on_goal 1 => subst x))
  apply State.mapMinute_keeps (hm.sub rfl)
  with_reducible assumption
  (intro x; refine keeps_cut (p := Keeps m z x) ?_ (fun hx => ?_); (on_goal 2 => clear_value x); (on_goal 1 => subst x))
  apply State.migrateMinute_keeps (hm.sub rfl)
  apply State.retireUnits_keeps (hm.sub rfl)
  apply State.leaveImages_keeps (hm.sub rfl)
  apply State.leaveUnits_keeps (hm.sub rfl)
  apply State.fetchMinute_keeps (hm.sub rfl)
  apply State.shareMinute_keeps (hm.sub rfl)
  apply State.duskMinute_keeps (hm.sub rfl)
  with_reducible assumption
  split
  with_reducible assumption
  apply State.programMinute_keeps (hm.sub rfl)
  with_reducible assumption

theorem execMinuteStart_keeps (hm : Within [.now, .live, .staged, .run, .pend, .parity, .written, .time, .pgw, .sch, .que, .vsp, .mem, .prog, .mat, .lnk, .map, .hlt, .sec, .hst, .sys, .sum, .outbox, .freeCtr] m) (a0 : MinuteEnv) {a1 : State} (h1 : Keeps m z a1) : KeepsN m z (execMinuteStart a0 a1) := by
  unfold execMinuteStart
  split
  with_reducible apply keepsN_next
  with_reducible assumption
  lift_lets
  (intro x; clear_value x)
  (intro x; refine keeps_cut (p := Keeps m z x) ?_ (fun hx => ?_); (on_goal 2 => clear_value x); (on_goal 1 => subst x))
  split
  with_reducible assumption
  apply State.quotaShort_keeps (hm.sub rfl)
  with_reducible assumption
  (intro x; refine keeps_cut (p := Keeps m z x) ?_ (fun hx => ?_); (on_goal 2 => clear_value x); (on_goal 1 => subst x))
  apply State.setStatus_keeps (hm.sub rfl)
  apply State.pumpAll_keeps (hm.sub rfl)
  apply State.slewOn_keeps (hm.sub rfl)
  apply State.advanceTo_keeps (hm.sub rfl)
  with_reducible assumption
  (intro (x : SysSt); subst x)
  (intro x; refine keeps_cut (p := Keeps m z x) ?_ (fun hx => ?_); (on_goal 2 => clear_value x); (on_goal 1 => subst x))
  with_reducible refine keeps_mk (h := ?_)
  with_reducible assumption
  (intro x; refine keeps_cut (p := Keeps m z x) ?_ (fun hx => ?_); (on_goal 2 => clear_value x); (on_goal 1 => subst x))
  apply State.owedSummary_keeps (hm.sub rfl)
  apply State.fecReset_keeps (hm.sub rfl)
  apply State.depths_keeps (hm.sub rfl)
  with_reducible assumption
  (intro x; refine keeps_cut (p := Keeps m z x) ?_ (fun hx => ?_); (on_goal 2 => clear_value x); (on_goal 1 => subst x))
  apply State.corrected_keeps (hm.sub rfl)
  with_reducible assumption
  (intro x; refine keeps_cut (p := Keeps m z x) ?_ (fun hx => ?_); (on_goal 2 => clear_value x); (on_goal 1 => subst x))
  apply State.thermal_keeps (hm.sub rfl)
  apply State.feedVolts_keeps (hm.sub rfl)
  apply State.parityScan_keeps (hm.sub rfl)
  with_reducible assumption
  (intro x; refine keeps_cut (p := Keeps m z x) ?_ (fun hx => ?_); (on_goal 2 => clear_value x); (on_goal 1 => subst x))
  split
  apply State.finishReport_keeps (hm.sub rfl)
  with_reducible assumption
  with_reducible assumption
  (intro x; refine keeps_cut (p := Keeps m z x) ?_ (fun hx => ?_); (on_goal 2 => clear_value x); (on_goal 1 => subst x))
  apply State.modeVoltage_keeps (hm.sub rfl)
  apply State.journaled_keeps (hm.sub rfl)
  apply State.ageing_keeps (hm.sub rfl)
  with_reducible assumption
  (intro x; refine keeps_cut (p := Keeps m z x) ?_ (fun hx => ?_); (on_goal 2 => clear_value x); (on_goal 1 => subst x))
  apply State.sendTimeFrames_keeps (hm.sub rfl)
  apply State.refreshTime_keeps (hm.sub rfl)
  with_reducible assumption
  (intro x; refine keeps_cut (p := Keeps m z x) ?_ (fun hx => ?_); (on_goal 2 => clear_value x); (on_goal 1 => subst x))
  split
  apply State.cascadeProbe_keeps (hm.sub rfl)
  with_reducible assumption
  with_reducible assumption
  (intro x; refine keeps_cut (p := Keeps m z x) ?_ (fun hx => ?_); (on_goal 2 => clear_value x); (on_goal 1 => subst x))
  apply State.serviceMinute_keeps (hm.sub rfl)
  with_reducible assumption
  split
  with_reducible apply keepsN_next
  with_reducible assumption
  with_reducible apply keepsN_next
  apply State.checkHealth_keeps (hm.sub rfl)
  apply State.pumpRings_keeps (hm.sub rfl)
  apply State.retryFetches_keeps (hm.sub rfl)
  apply State.settleLater_keeps (hm.sub rfl)
  with_reducible assumption

/-! ### Midnight -/

theorem State.latchCounters_keeps (hm : Within [.live, .run, .que] m) {a0 : State} (a1 : Nat) (h0 : Keeps m z a0) : Keeps m z (State.latchCounters a0 a1) := by
  unfold State.latchCounters
  refine State.setLive64_keeps (hm.sub rfl) _ _ (keeps_foldl (fun s t hs => keeps_ite hs (State.bumpMax_keeps (hm.sub rfl) _ _ hs)) (h0.step rfl (fun i => ⟨?_, i.2.1, rfl, i.2.2.2⟩) (fun k hk => ?_)))
  · have key : ∀ (l : List (Nat × Nat)) (t : List (Nat × Nat)), regsCanonical t = true →
        regsCanonical (l.foldl (fun l p => regSet l p.1 p.2) t) = true := by
      intro l
      induction l with
      | nil => intro t ht; exact ht
      | cons p l ih => intro t ht; exact ih _ (regsCanonical_regSet _ _ ht)
    exact key _ _ (regsCanonical_filter _ i.1)
  · cases k
    case live => exact absurd (within_mem rfl hm) hk
    case run => exact absurd (within_mem rfl hm) hk
    case que => exact absurd (within_mem rfl hm) hk
    case sum => exact ⟨rfl, rfl⟩
    all_goals rfl

theorem State.frameCycles_keeps (hm : Within [.freeCtr] m) {a0 : State} (a1 : ℕ) (h0 : Keeps m z a0) : Keeps m z (State.frameCycles a0 a1).2 := by
  unfold State.frameCycles
  lift_lets
  iterate 2 (intro x; clear_value x)
  (intro x; refine keeps_cut (p := Keeps m z x.2) ?_ (fun hx => ?_); (on_goal 2 => clear_value x); (on_goal 1 => subst x))
  apply State.fresh_keeps (hm.sub rfl)
  with_reducible assumption
  iterate 2 (intro x; clear_value x)
  with_reducible assumption

theorem State.latchYard_keeps (hm : Within [.live, .vsp, .freeCtr] m) {a0 : State} (a1 : ℕ) (h0 : Keeps m z a0) : Keeps m z (State.latchYard a0 a1) := by
  unfold State.latchYard
  lift_lets
  (intro x; refine keeps_cut (p := Keeps m z x.2) ?_ (fun hx => ?_); (on_goal 2 => clear_value x); (on_goal 1 => subst x))
  apply State.frameCycles_keeps (hm.sub rfl)
  with_reducible assumption
  (intro x; have _ : Keeps m z x := (by subst x; with_reducible assumption); subst x)
  iterate 4 (intro x; clear_value x)
  (intro x; refine keeps_cut (p := Keeps m z x) ?_ (fun hx => ?_); (on_goal 2 => clear_value x); (on_goal 1 => subst x))
  apply State.setLive_keeps (hm.sub rfl)
  apply State.setLive64_keeps (hm.sub rfl)
  apply State.setLive64_keeps (hm.sub rfl)
  with_reducible assumption
  (intro x; clear_value x)
  (intro x; refine keeps_cut (p := Keeps m z x) ?_ (fun hx => ?_); (on_goal 2 => clear_value x); (on_goal 1 => subst x))
  apply State.putStatus_keeps (hm.sub rfl)
  with_reducible assumption
  (intro x; clear_value x)
  (intro (x : VspSt); subst x)
  with_reducible refine keeps_mk (h := ?_)
  with_reducible assumption

theorem State.latchOccupancy_keeps (hm : Within [.live] m) {a0 : State} (h0 : Keeps m z a0) : Keeps m z (State.latchOccupancy a0) := by
  unfold State.latchOccupancy
  lift_lets
  (intro x; clear_value x)
  apply State.setLive_keeps (hm.sub rfl)
  apply State.setLive_keeps (hm.sub rfl)
  apply State.setLive_keeps (hm.sub rfl)
  with_reducible assumption

theorem State.latchPower_keeps (hm : Within [.live, .sys] m) {a0 : State} (a1 : MidnightEnv) (h0 : Keeps m z a0) : Keeps m z (State.latchPower a0 a1) := by
  unfold State.latchPower
  lift_lets
  (intro x; refine keeps_cut (p := Keeps m z x) ?_ (fun hx => ?_); (on_goal 2 => clear_value x); (on_goal 1 => subst x))
  apply State.setLive_keeps (hm.sub rfl)
  with_reducible assumption
  (intro x; refine keeps_cut (p := Keeps m z x) ?_ (fun hx => ?_); (on_goal 2 => clear_value x); (on_goal 1 => subst x))
  (with_reducible refine keeps_foldl (fun s a hs => ?_) ?_)
  lift_lets
  (intro x; clear_value x)
  apply State.setLive_keeps (hm.sub rfl)
  with_reducible assumption
  with_reducible assumption
  (intro (x : SysSt); subst x)
  with_reducible refine keeps_mk (h := ?_)
  with_reducible assumption

theorem State.duskShort_keeps (hm : Within [.live, .mem, .hst, .sum, .outbox] m) {a0 : State} (h0 : Keeps m z a0) : Keeps m z (State.duskShort a0) := by
  unfold State.duskShort
  lift_lets
  iterate 2 (intro x; clear_value x)
  (intro x; refine keeps_cut (p := Keeps m z x) ?_ (fun hx => ?_); (on_goal 2 => clear_value x); (on_goal 1 => subst x))
  split
  apply State.raiseBit_keeps (hm.sub rfl)
  with_reducible assumption
  with_reducible assumption
  (intro (x : MemSt); subst x)
  with_reducible refine keeps_mk (h := ?_)
  with_reducible assumption

theorem State.saturation_keeps (hm : Within [.live, .hst, .sum, .outbox] m) {a0 : State} (h0 : Keeps m z a0) : Keeps m z (State.saturation a0) := by
  unfold State.saturation
  split
  apply State.setLive_keeps (hm.sub rfl)
  with_reducible assumption
  lift_lets
  iterate 2 (intro x; clear_value x)
  split
  apply State.setLive_keeps (hm.sub rfl)
  with_reducible assumption
  apply State.setLive_keeps (hm.sub rfl)
  apply State.raise_keeps (hm.sub rfl)
  with_reducible assumption

theorem State.pendingEffect_keeps (hm : Within [.live, .pend, .parity, .sch, .mat, .hst, .sum, .outbox] m) {a0 : State} (h0 : Keeps m z a0) : Keeps m z (State.pendingEffect a0) := by
  unfold State.pendingEffect
  lift_lets
  iterate 3 (intro x; clear_value x)
  (intro (x : RegFile); subst x)
  (intro x; refine keeps_cut (p := Keeps m z x) ?_ (fun hx => ?_); (on_goal 2 => clear_value x); (on_goal 1 => subst x))
  split
  apply State.raiseBit_keeps (hm.sub rfl)
  with_reducible refine keeps_mk (h := ?_)
  with_reducible assumption
  with_reducible assumption
  (intro x; clear_value x)
  (intro x; refine keeps_cut (p := Keeps m z x) ?_ (fun hx => ?_); (on_goal 2 => clear_value x); (on_goal 1 => subst x))
  (with_reducible refine keeps_foldl (fun s a hs => ?_) ?_)
  apply State.putAgg_keeps (hm.sub rfl)
  with_reducible assumption
  with_reducible assumption
  (intro x; refine keeps_cut (p := Keeps m z x) ?_ (fun hx => ?_); (on_goal 2 => clear_value x); (on_goal 1 => subst x))
  apply State.applyPending_keeps (hm.sub rfl)
  with_reducible assumption
  (intro x; refine keeps_cut (p := Keeps m z x) ?_ (fun hx => ?_); (on_goal 2 => clear_value x); (on_goal 1 => subst x))
  (with_reducible refine keeps_foldl (fun s a hs => ?_) ?_)
  apply State.putAgg_keeps (hm.sub rfl)
  with_reducible assumption
  with_reducible assumption
  (intro x; clear_value x)
  (intro (x : MatSt); subst x)
  (intro x; refine keeps_cut (p := Keeps m z x) ?_ (fun hx => ?_); (on_goal 2 => clear_value x); (on_goal 1 => subst x))
  split
  apply State.setStatus_keeps (hm.sub rfl)
  with_reducible refine keeps_mk (h := ?_)
  with_reducible assumption
  with_reducible assumption
  apply State.refreshSsc_keeps (hm.sub rfl)
  with_reducible assumption

theorem State.urgentQps_keeps (hm : Within [.que] m) {a0 : State} (h0 : Keeps m z a0) : Keeps m z (State.urgentQps a0) := by
  unfold State.urgentQps
  with_reducible refine keeps_mk (h := ?_)
  with_reducible assumption

theorem State.nightReply_keeps (hm : Within [.run, .sch, .que] m) {a0 : State} (a1 : Req) (h0 : Keeps m z a0) : Keeps m z (State.nightReply a0 a1) := by
  unfold State.nightReply
  lift_lets
  (intro x; refine keeps_cut (p := Keeps m z x) ?_ (fun hx => ?_); (on_goal 2 => clear_value x); (on_goal 1 => subst x))
  split
  lift_lets
  (intro x; clear_value x)
  apply State.putAgg_keeps (hm.sub rfl)
  with_reducible assumption
  with_reducible assumption
  apply State.refuse_keeps (hm.sub rfl)
  apply State.mapQp_keeps (hm.sub rfl)
  with_reducible assumption

theorem State.nightEntry_keeps (hm : Within [.live, .run, .sch, .que] m) {a0 : State} (h0 : Keeps m z a0) : Keeps m z (State.nightEntry a0) := by
  unfold State.nightEntry
  lift_lets
  (intro x; clear_value x)
  (intro (x : SchSt); subst x)
  apply State.refreshPool_keeps (hm.sub rfl)
  (with_reducible refine keeps_foldl (fun s a hs => ?_) ?_)
  apply State.nightReply_keeps (hm.sub rfl)
  with_reducible assumption
  with_reducible refine keeps_mk (h := ?_)
  with_reducible assumption

theorem State.modeMidnight_keeps (hm : Within [.live, .run, .time, .sch, .que, .hlt] m) {a0 : State} (h0 : Keeps m z a0) : Keeps m z (State.modeMidnight a0) := by
  unfold State.modeMidnight
  lift_lets
  iterate 4 (intro x; clear_value x)
  (intro x; refine keeps_cut (p := Keeps m z x) ?_ (fun hx => ?_); (on_goal 2 => clear_value x); (on_goal 1 => subst x))
  apply State.setLive_keeps (hm.sub rfl)
  with_reducible assumption
  (intro x; refine keeps_cut (p := Keeps m z x) ?_ (fun hx => ?_); (on_goal 2 => clear_value x); (on_goal 1 => subst x))
  apply State.setLive_keeps (hm.sub rfl)
  with_reducible assumption
  (intro (x : TimeSt); subst x)
  (intro (x : HltSt); subst x)
  (intro x; refine keeps_cut (p := Keeps m z x) ?_ (fun hx => ?_); (on_goal 2 => clear_value x); (on_goal 1 => subst x))
  with_reducible refine keeps_mk (h := ?_)
  with_reducible assumption
  split
  with_reducible assumption
  split
  apply State.nightEntry_keeps (hm.sub rfl)
  with_reducible assumption
  with_reducible assumption

theorem State.seal_keeps (hm : Within [.hlt] m) {a0 : State} (a1 : ℕ) (h0 : Keeps m z a0) : Keeps m z (State.seal a0 a1) := by
  unfold State.seal
  lift_lets
  (intro (x : HltSt); subst x)
  iterate 3 (intro x; clear_value x)
  with_reducible refine keeps_mk (h := ?_)
  with_reducible assumption

theorem State.weightRetry_keeps (hm : Within [.live, .run, .pgw, .que, .mem, .mat, .lnk, .hst, .sum, .outbox, .freeCtr] m) {a0 : State} (h0 : Keeps m z a0) : Keeps m z (State.weightRetry a0) := by
  unfold State.weightRetry
  (with_reducible refine keeps_foldl (fun s a hs => ?_) ?_)
  apply State.trySources_keeps (hm.sub rfl)
  with_reducible assumption
  with_reducible assumption

theorem State.latchAll_keeps (hm : Within [.live, .run, .que, .vsp, .hlt, .sys, .freeCtr] m) {a0 : State} (a1 : MidnightEnv) (a2 : ℕ) (h0 : Keeps m z a0) : Keeps m z (State.latchAll a0 a1 a2) := by
  unfold State.latchAll
  apply State.latchAge_keeps (hm.sub rfl)
  apply State.latchPower_keeps (hm.sub rfl)
  apply State.latchOccupancy_keeps (hm.sub rfl)
  apply State.latchYard_keeps (hm.sub rfl)
  apply State.latchCounters_keeps (hm.sub rfl)
  with_reducible assumption

theorem execMidnight_keeps (hm : Within [.now, .live, .run, .pend, .parity, .time, .pgw, .sch, .que, .vsp, .mem, .prog, .mat, .lnk, .map, .hlt, .sec, .hst, .sys, .sum, .outbox, .freeCtr] m) (a0 : MidnightEnv) {a1 : State} (h1 : Keeps m z a1) : KeepsN m z (execMidnight a0 a1) := by
  unfold execMidnight
  split
  with_reducible apply keepsN_next
  with_reducible assumption
  lift_lets
  (intro x; refine keeps_cut (p := Keeps m z x) ?_ (fun hx => ?_); (on_goal 2 => clear_value x); (on_goal 1 => subst x))
  apply State.advanceTo_keeps (hm.sub rfl)
  with_reducible assumption
  (intro x; refine keeps_cut (p := Keeps m z x) ?_ (fun hx => ?_); (on_goal 2 => clear_value x); (on_goal 1 => subst x))
  apply State.quotaShort_keeps (hm.sub rfl)
  with_reducible assumption
  (intro x; clear_value x)
  (intro x; refine keeps_cut (p := Keeps m z x) ?_ (fun hx => ?_); (on_goal 2 => clear_value x); (on_goal 1 => subst x))
  apply State.pumpAll_keeps (hm.sub rfl)
  apply State.advanceTo_keeps (hm.sub rfl)
  with_reducible assumption
  (intro x; clear_value x)
  (intro x; refine keeps_cut (p := Keeps m z x) ?_ (fun hx => ?_); (on_goal 2 => clear_value x); (on_goal 1 => subst x))
  apply State.latchAll_keeps (hm.sub rfl)
  with_reducible assumption
  (intro (x : SysSt); subst x)
  (intro x; refine keeps_cut (p := Keeps m z x) ?_ (fun hx => ?_); (on_goal 2 => clear_value x); (on_goal 1 => subst x))
  with_reducible refine keeps_mk (h := ?_)
  with_reducible assumption
  (intro x; refine keeps_cut (p := Keeps m z x) ?_ (fun hx => ?_); (on_goal 2 => clear_value x); (on_goal 1 => subst x))
  apply State.duskShort_keeps (hm.sub rfl)
  apply State.saturation_keeps (hm.sub rfl)
  apply State.urgentQps_keeps (hm.sub rfl)
  apply State.pendingEffect_keeps (hm.sub rfl)
  with_reducible assumption
  (intro x; refine keeps_cut (p := Keeps m z x) ?_ (fun hx => ?_); (on_goal 2 => clear_value x); (on_goal 1 => subst x))
  apply State.applyDueEdits_keeps (hm.sub rfl)
  apply State.activateVersions_keeps (hm.sub rfl)
  with_reducible assumption
  (intro x; refine keeps_cut (p := Keeps m z x) ?_ (fun hx => ?_); (on_goal 2 => clear_value x); (on_goal 1 => subst x))
  apply State.modeMidnight_keeps (hm.sub rfl)
  apply State.mapMidnight_keeps (hm.sub rfl)
  with_reducible assumption
  (intro x; refine keeps_cut (p := Keeps m z x) ?_ (fun hx => ?_); (on_goal 2 => clear_value x); (on_goal 1 => subst x))
  apply State.partsAct_keeps (hm.sub rfl)
  apply State.halveScores_keeps (hm.sub rfl)
  with_reducible assumption
  (intro x; refine keeps_cut (p := Keeps m z x) ?_ (fun hx => ?_); (on_goal 2 => clear_value x); (on_goal 1 => subst x))
  apply State.refreshLimits_keeps (hm.sub rfl)
  apply State.voltagePlan_keeps (hm.sub rfl)
  with_reducible assumption
  (intro x; refine keeps_cut (p := Keeps m z x) ?_ (fun hx => ?_); (on_goal 2 => clear_value x); (on_goal 1 => subst x))
  split
  apply State.weightRetry_keeps (hm.sub rfl)
  apply State.seal_keeps (hm.sub rfl)
  with_reducible assumption
  with_reducible assumption
  (intro x; refine keeps_cut (p := Keeps m z x) ?_ (fun hx => ?_); (on_goal 2 => clear_value x); (on_goal 1 => subst x))
  apply State.notice_keeps (hm.sub rfl)
  apply State.signReport_keeps (hm.sub rfl)
  with_reducible assumption
  with_reducible apply keepsN_next
  apply State.heartbeat_keeps (hm.sub rfl)
  apply State.checkHealth_keeps (hm.sub rfl)
  apply State.proposeDrain_keeps (hm.sub rfl)
  apply State.writeCheckpoint_keeps (hm.sub rfl)
  with_reducible assumption

/-! ### Requests -/

theorem execAppend_keeps (hm : Within [.now, .live, .run, .pgw, .sch, .que, .vsp, .mem, .prog, .mat, .lnk, .hlt, .hst, .sum, .outbox, .freeCtr] m) (a0 : Arrival) (a1 : List Byte) {a2 : State} (h2 : Keeps m z a2) : KeepsN m z (execAppend a0 a1 a2) := by
  unfold execAppend
  with_reducible apply keepsN_next
  apply State.requestRow_keeps (hm.sub rfl)
  with_reducible assumption

theorem execAttend_keeps (hm : Within [.now, .live, .run, .pgw, .sch, .que, .vsp, .mem, .prog, .mat, .lnk, .hlt, .hst, .sum, .outbox, .freeCtr] m) (a0 : Arrival) (a1 : List Byte) {a2 : State} (h2 : Keeps m z a2) : KeepsN m z (execAttend a0 a1 a2) := by
  unfold execAttend
  with_reducible apply keepsN_next
  apply State.requestRow_keeps (hm.sub rfl)
  with_reducible assumption

theorem execAppendAttend_keeps (hm : Within [.now, .live, .run, .pgw, .sch, .que, .vsp, .mem, .prog, .mat, .lnk, .hlt, .hst, .sum, .outbox, .freeCtr] m) (a0 : Arrival) (a1 : List Byte) {a2 : State} (h2 : Keeps m z a2) : KeepsN m z (execAppendAttend a0 a1 a2) := by
  unfold execAppendAttend
  with_reducible apply keepsN_next
  apply State.requestRow_keeps (hm.sub rfl)
  with_reducible assumption

theorem execVerify_keeps (hm : Within [.now, .live, .run, .pgw, .sch, .que, .vsp, .mem, .prog, .mat, .lnk, .hlt, .hst, .sum, .outbox, .freeCtr] m) (a0 : Arrival) (a1 : List Byte) {a2 : State} (h2 : Keeps m z a2) : KeepsN m z (execVerify a0 a1 a2) := by
  unfold execVerify
  with_reducible apply keepsN_next
  apply State.requestRow_keeps (hm.sub rfl)
  with_reducible assumption

theorem execCommit_keeps (hm : Within [.now, .live, .run, .pgw, .sch, .que, .vsp, .mem, .prog, .mat, .lnk, .hlt, .hst, .sum, .outbox, .freeCtr] m) (a0 : Arrival) (a1 : List Byte) {a2 : State} (h2 : Keeps m z a2) : KeepsN m z (execCommit a0 a1 a2) := by
  unfold execCommit
  with_reducible apply keepsN_next
  apply State.requestRow_keeps (hm.sub rfl)
  with_reducible assumption

theorem execBind_keeps (hm : Within [.now, .live, .run, .pgw, .sch, .que, .vsp, .mem, .prog, .mat, .lnk, .hlt, .hst, .sum, .outbox, .freeCtr] m) (a0 : Arrival) (a1 : List Byte) {a2 : State} (h2 : Keeps m z a2) : KeepsN m z (execBind a0 a1 a2) := by
  unfold execBind
  with_reducible apply keepsN_next
  apply State.requestRow_keeps (hm.sub rfl)
  with_reducible assumption

theorem execPublish_keeps (hm : Within [.now, .live, .run, .pgw, .sch, .que, .vsp, .mem, .prog, .mat, .lnk, .hlt, .hst, .sum, .outbox, .freeCtr] m) (a0 : Arrival) (a1 : List Byte) {a2 : State} (h2 : Keeps m z a2) : KeepsN m z (execPublish a0 a1 a2) := by
  unfold execPublish
  with_reducible apply keepsN_next
  apply State.requestRow_keeps (hm.sub rfl)
  with_reducible assumption

theorem execUnpublish_keeps (hm : Within [.now, .live, .run, .pgw, .sch, .que, .vsp, .mem, .prog, .mat, .lnk, .hlt, .hst, .sum, .outbox, .freeCtr] m) (a0 : Arrival) (a1 : List Byte) {a2 : State} (h2 : Keeps m z a2) : KeepsN m z (execUnpublish a0 a1 a2) := by
  unfold execUnpublish
  with_reducible apply keepsN_next
  apply State.requestRow_keeps (hm.sub rfl)
  with_reducible assumption

theorem execRelease_keeps (hm : Within [.now, .live, .run, .pgw, .sch, .que, .vsp, .mem, .prog, .mat, .lnk, .hlt, .hst, .sum, .outbox, .freeCtr] m) (a0 : Arrival) (a1 : List Byte) {a2 : State} (h2 : Keeps m z a2) : KeepsN m z (execRelease a0 a1 a2) := by
  unfold execRelease
  with_reducible apply keepsN_next
  apply State.requestRow_keeps (hm.sub rfl)
  with_reducible assumption

theorem execSpanWork_keeps (hm : Within [.now, .live, .run, .pgw, .sch, .que, .vsp, .mem, .prog, .mat, .lnk, .hlt, .hst, .sum, .outbox, .freeCtr] m) (a0 : Arrival) (a1 : List Byte) {a2 : State} (h2 : Keeps m z a2) : KeepsN m z (execSpanWork a0 a1 a2) := by
  unfold execSpanWork
  with_reducible apply keepsN_next
  apply State.requestRow_keeps (hm.sub rfl)
  with_reducible assumption

theorem execRun_keeps (hm : Within [.now, .live, .run, .pgw, .sch, .que, .vsp, .mem, .prog, .mat, .lnk, .hlt, .hst, .sum, .outbox, .freeCtr] m) (a0 : Arrival) (a1 : List Byte) {a2 : State} (h2 : Keeps m z a2) : KeepsN m z (execRun a0 a1 a2) := by
  unfold execRun
  with_reducible apply keepsN_next
  apply State.requestRow_keeps (hm.sub rfl)
  with_reducible assumption

theorem execProjectAttend_keeps (hm : Within [.now, .live, .run, .pgw, .sch, .que, .vsp, .mem, .prog, .mat, .lnk, .hlt, .hst, .sum, .outbox, .freeCtr] m) (a0 : Arrival) (a1 : List Byte) {a2 : State} (h2 : Keeps m z a2) : KeepsN m z (execProjectAttend a0 a1 a2) := by
  unfold execProjectAttend
  with_reducible apply keepsN_next
  apply State.requestRow_keeps (hm.sub rfl)
  with_reducible assumption

theorem execRread_keeps (hm : Within [.now, .live, .run, .pgw, .sch, .que, .vsp, .mem, .prog, .mat, .lnk, .hlt, .hst, .sum, .outbox, .freeCtr] m) (a0 : Arrival) (a1 : List Byte) {a2 : State} (h2 : Keeps m z a2) : KeepsN m z (execRread a0 a1 a2) := by
  unfold execRread
  with_reducible apply keepsN_next
  apply State.requestRow_keeps (hm.sub rfl)
  with_reducible assumption

theorem execRwrite_keeps (hm : Within [.now, .live, .run, .pgw, .sch, .que, .vsp, .mem, .prog, .mat, .lnk, .hlt, .hst, .sum, .outbox, .freeCtr] m) (a0 : Arrival) (a1 : List Byte) {a2 : State} (h2 : Keeps m z a2) : KeepsN m z (execRwrite a0 a1 a2) := by
  unfold execRwrite
  with_reducible apply keepsN_next
  apply State.requestRow_keeps (hm.sub rfl)
  with_reducible assumption

theorem execRwriteTiles_keeps (hm : Within [.now, .live, .run, .pgw, .sch, .que, .vsp, .mem, .prog, .mat, .lnk, .hlt, .hst, .sum, .outbox, .freeCtr] m) (a0 : Arrival) (a1 : List Byte) {a2 : State} (h2 : Keeps m z a2) : KeepsN m z (execRwriteTiles a0 a1 a2) := by
  unfold execRwriteTiles
  with_reducible apply keepsN_next
  apply State.requestRow_keeps (hm.sub rfl)
  with_reducible assumption

theorem execAttest_keeps (hm : Within [.now, .live, .run, .pgw, .sch, .que, .vsp, .mem, .prog, .mat, .lnk, .hlt, .hst, .sum, .outbox, .freeCtr] m) (a0 : Arrival) (a1 : List Byte) {a2 : State} (h2 : Keeps m z a2) : KeepsN m z (execAttest a0 a1 a2) := by
  unfold execAttest
  with_reducible apply keepsN_next
  apply State.requestRow_keeps (hm.sub rfl)
  with_reducible assumption

theorem execBadOpcode_keeps (hm : Within [.now, .live, .run, .pgw, .sch, .que, .vsp, .mem, .prog, .mat, .lnk, .hlt, .hst, .sum, .outbox, .freeCtr] m) (a0 : Arrival) (a1 : List Byte) {a2 : State} (h2 : Keeps m z a2) : KeepsN m z (execBadOpcode a0 a1 a2) := by
  unfold execBadOpcode
  with_reducible apply keepsN_next
  apply State.requestRow_keeps (hm.sub rfl)
  with_reducible assumption

end Sys2Proof.Machine
end

