-- ==== Sys2Proof/WellFormed.lean ====
section
/-!
DEFINITION. Well-formed commands: every operand lies in the range that the manual gives the thing it stands for.
The step does not ask for it: an ill-formed command has the meaning its rule gives (a register address masked, a unit that does not exist idle); the check says which commands an outside can really send.
-/

namespace Sys2Proof

/-- Every element is below 2^w. -/
def allBelow (w : Nat) (l : List Nat) : Bool := l.all (fun x => decide (x < pow2 w))

/-- Link fields of a Wecia packet (Table 15.1). -/
def HostHdr.wf (h : HostHdr) : Bool :=
  decide (h.lseq < 4096) && decide (h.ack < 4096) && decide (h.posted < 4096) && decide (h.nonPosted < 256)

/-- A bad packet's fields (Tables 15.1, 15.2). -/
def HostBad.wf : HostBad → Bool
  | .crc _ | .outOfOrder _ => true
  | .wrongWay h type fn tag units => h.wf && [1, 2, 9].contains type && decide (fn < 32) && decide (tag < 256) && decide (units ≤ 24)

/-- A port: its function is one of 32 (R377), its tag one of 256. -/
def Port.wf : Port → Bool
  | .i3c => true
  | .wecia h fn tag => h.wf && decide (fn < 32) && decide (tag < 256)

/-- A fabric link is one of 64 (R240). -/
def LinkRef.wf : LinkRef → Bool
  | .fabric n => decide (n < 64)
  | .host => true

/-- The delivery of a request: a 20-bit QPN or 16-bit context, 24-bit PSN, 12-bit partition (Tables 11.1, 11.2). -/
def Arrival.wf (a : Arrival) : Bool :=
  decide (a.ctx < pow2 26) && decide (a.psn < pow2 24) && decide (a.part < 4096) && decide (a.src < 65536) && decide (a.sqp < pow2 20)

/-- A link frame (Table 10.3). -/
def Frame.wf (f : Frame) : Bool :=
  decide (f.vc < 20) && decide (f.len ≤ 24) && decide (f.fseq < pow2 32) && decide (f.ack < pow2 32) && decide (f.txCount < pow2 64) &&
  decide (f.half < 2) && decide (f.lflags < 256) && f.credits.length == 10 && f.payload.length == 64 * f.len

/-- A transport packet (Table 11.2). -/
def Tpkt.wf (p : Tpkt) : Bool :=
  decide (p.src < 65536) && decide (p.dqp < pow2 20) && decide (p.tkind < 256) && decide (p.psn < pow2 24) && decide (p.tflags < 256) &&
  decide (p.part < 4096) && decide (p.sqp < pow2 20)

/-- Readings: none, or 128 monitors and 176 sensors; a scanned copy is staged, pending or live. -/
def MinuteEnv.wf (e : MinuteEnv) : Bool :=
  (e.slack.isEmpty || e.slack.length == 128) && (e.temps.isEmpty || e.temps.length == 176) &&
  decide (e.feedA < 65536) && decide (e.feedB < 65536) && e.parity.all (fun p => decide (p.2 < 3)) &&
  e.sramFixed.all (· < 96) && e.retried.all (· < 8)

/-- A map message's header (R306). -/
def CtlHdr.wf (h : CtlHdr) : Bool :=
  decide (h.version < 256) && decide (h.fabricId < 16) && decide (h.sender < 65536) && decide (h.term < pow2 32) && decide (h.gen < pow2 64) && decide (h.bodyGen < pow2 64) && decide (h.bodyTerm < pow2 32)

/-- A program step on one of the 96 cores, its word 128 bits (R199, R208). -/
def stepWf (core w : Nat) : Bool := decide (core < 96) && decide (w < pow2 128)

/-- Well-formed commands. -/
def Instr.wf : Instr → Bool
  | .ppsInEdge _ => true
  | .ppsMissing => true
  | .timeInMessage b n => b.length == 16 && decide (n ≤ 1000000000)
  | .timeInLoss => true
  | .timeFrame l f _ p => decide (l < 64) && f.wf && f.payload.length == 64 && decide (p < 16)
  | .minuteStart e => e.wf
  | .midnight e => decide (e.powerAvg < 65536) && decide (e.powerMax < 65536)
  | .modeClockSwitch => true
  | .hbmRefresh bg => decide (bg < 16)
  | .lpddrRefresh => true
  | .registerWrite p a vs => p.wf && decide (a < pow2 24) && decide (vs.length ≤ 8) && allBelow 32 vs
  | .commitGo p m => p.wf && decide (m < 256)
  | .eventClear p a v => p.wf && decide (a < pow2 24) && decide (v < pow2 32)
  | .parityRestore a c _ => decide (a < pow2 24) && decide (c < 3)
  | .modeProposal m l => decide (m < 4) && decide (l < 256)
  | .loadProgram src len => decide (src < pow2 64) && decide (len < pow2 32)
  | .loadWeightObject src len => decide (src < pow2 64) && decide (len < pow2 32)
  | .unload t k => decide (t < 4) && decide (k < 1024)
  | .loadDone _ => true
  | .ruleInsert k p v c w f => decide (k < 64) && decide (p < 65536) && decide (v < pow2 160) && decide (c < pow2 160) && decide (w < pow2 32) && decide (f < pow2 44)
  | .ruleDelete k p f => decide (k < 64) && decide (p < 65536) && decide (f < pow2 44)
  | .tcamScrub fs => fs.all (fun f => decide (f.1 < 65536))
  | .automataAudit bad _ => bad.all (fun k => decide (k.1 < 65536))
  | .cascadeFrame _ => true
  | .cascadeReturn _ => true
  | .cascadeTimeout n => decide (n < 65536)
  | .createQp q b => decide (q < pow2 26) && decide (b.length ≤ 256)
  | .modifyQp q b => decide (q < pow2 26) && decide (b.length ≤ 256)
  | .destroyQp q => decide (q < pow2 26)
  | .readQp q => decide (q < pow2 26)
  | .registerRegion i b => decide (i < 65536) && decide (b.length ≤ 256)
  | .deregisterRegion i => decide (i < 65536)
  | .pin q => decide (q < pow2 20)
  | .unpin q => decide (q < pow2 20)
  | .moveSlots first count t => decide (first < 65536) && decide (count ≤ 65536) && decide (t < 2048)
  | .setMembership a b c => allBelow 32 [a, b, c]
  | .setClass c k => decide (c < 24) && decide (k < 24)
  | .setSlice k a => decide (k < 24) && decide (a < pow2 32)
  | .drain i => decide (i < 2048)
  | .retire i => decide (i < 2048)
  | .standIn i => decide (i < 2048)
  | .returnNode i => decide (i < 2048)
  | .clearLoss first count => decide (first < 65536) && decide (count ≤ 65536)
  | .declareDead i => decide (i < 2048)
  | .attestQueue n => n.length == 32
  | .actOnToken _ => true
  | .reportDelivery => true
  | .flashRead p a n => p.wf && decide (a < pow2 32) && decide (n < 256)
  | .flashErase p a => p.wf && decide (a < pow2 32)
  | .flashProgram p a n => p.wf && decide (a < pow2 32) && decide (n < 256)
  | .flashDone => true
  | .flashDeviceTimeout => true
  | .i3cEntdaa a => decide (a < 128)
  | .dbell h fn ctx i => h.wf && decide (fn < 32) && decide (ctx < 65536) && decide (i < pow2 32)
  | .nwr h fn tag a d => h.wf && decide (fn < 32) && decide (tag < 256) && decide (a < pow2 64) && decide (d.length ≤ 768)
  | .nrd h fn tag a n _ => h.wf && decide (fn < 32) && decide (tag < 256) && decide (a < pow2 64) && decide (n ≤ 4096)
  | .hostCompletion h tag st d => h.wf && decide (tag < 256) && decide (st < pow2 24) && decide (d.length ≤ 768)
  | .hostReadTimeout tag => decide (tag < 256)
  | .hostNak h => h.wf
  | .hostResendTimeout => true
  | .msgModeration r => decide (r < 65536)
  | .evidenceRingWrite => true
  | .linkSignalDetect l => l.wf
  | .linkTrainDone l _ _ => l.wf
  | .linkAlignDone l p pl f => l.wf && decide (p < 65536) && decide (pl < 64) && decide (f < 16)
  | .hs1 l m => decide (l < 64) && decide (m.linkNo < 64) && decide (m.fabric < 16) && decide (m.gen < pow2 64) && decide (m.sender < 65536) && m.eph.length == 97
  | .hs2 l m => decide (l < 64) && m.cipher.length == 1568
  | .hs3 l m => decide (l < 64) && m.mac.length == 48
  | .linkStateTimeout l => l.wf
  | .laneLockLoss l => l.wf
  | .dataFrame l f => decide (l < 64) && f.wf
  | .idleFrame l f => decide (l < 64) && f.wf
  | .linkResendTimeout l => decide (l < 64)
  | .frameTransmit l => decide (l < 64)
  | .directionHoldExpiry d => decide (d < 96)
  | .transportAck p => p.wf
  | .transportNak p => p.wf
  | .transportNotReady p => p.wf
  | .notReadyWaitExpiry q => decide (q < pow2 20)
  | .transportResponse p => p.wf
  | .qpRetryTimeout q => decide (q < pow2 20)
  | .append a _ => a.wf
  | .attend a _ => a.wf
  | .appendAttend a _ => a.wf
  | .verify a _ => a.wf
  | .commit a _ => a.wf
  | .bind a _ => a.wf
  | .publish a _ => a.wf
  | .unpublish a _ => a.wf
  | .release a _ => a.wf
  | .spanWork a _ => a.wf
  | .run a _ => a.wf
  | .projectAttend a _ => a.wf
  | .rread a _ => a.wf
  | .rwrite a _ => a.wf
  | .rwriteTiles a _ => a.wf
  | .attest a _ => a.wf
  | .badOpcode a _ => a.wf
  | .calendarRelease c => decide (c < 24)
  | .sharedRelease => true
  | .tableReadDone _ o => (match o with | .lost a b => decide (a ≤ b ∧ b < 4096) | _ => true)
  | .attendBurst u => decide (u < 2048)
  | .scrubBurst u _ => decide (u < 2048)
  | .moveBurst u _ => decide (u < 2048)
  | .burstResume u => decide (u < 2048)
  | .urgentPreempt u => decide (u < 2048)
  | .ordinaryAccess u _ _ a d => decide (u < 2048) && decide (a < pow2 48) && decide (d.bytes.length ≤ 64)
  | .accessWindow u _ => decide (u < 2048)
  | .vesperReturnRecord u _ _ => decide (u < 2048)
  | .tileRereadDone _ _ => true
  | .returnRecordMissing u => decide (u < 2048)
  | .oldLocationFree _ => true
  | .provisionalExpiry t sid _ => decide (t < 4096) && decide (sid < pow2 64)
  | .reservationDone _ => true
  | .reservationTimeout _ => true
  | .spareTailGrant _ => true
  | .spareWaitTimeout _ => true
  | .stallResume _ => true
  | .replySend _ => true
  | .tier1Patrol a _ => decide (a < pow2 48)
  | .weightRepairTimeout _ _ => true
  | .sramRefillDone _ _ h => decide (h.group < 12) && decide (h.core < 8)
  | .segmentEnd _ => true
  | .stepIn c w => stepWf c w
  | .stepOut c w => stepWf c w
  | .matmul c w => stepWf c w
  | .add c w => stepWf c w
  | .mul c w => stepWf c w
  | .rmsnorm c w => stepWf c w
  | .layernorm c w => stepWf c w
  | .funcSigmoid c w => stepWf c w
  | .funcTanh c w => stepWf c w
  | .funcGelu c w => stepWf c w
  | .funcSilu c w => stepWf c w
  | .funcExp2 c w => stepWf c w
  | .quantDyn c w => stepWf c w
  | .quantStatic c w => stepWf c w
  | .rope c w => stepWf c w
  | .sync c w => stepWf c w
  | .matchStep c w => stepWf c w
  | .seg c w => stepWf c w
  | .endStep c w => stepWf c w
  | .hello l h _ _ _ _ _ _ _ _ => decide (l < 64) && h.wf
  | .lease h _ _ => h.wf
  | .heartbeat h _ => h.wf
  | .electionTimeout => true
  | .electionBackoff => true
  | .voteReq h _ => h.wf
  | .vote h _ => h.wf
  | .propose h _ => h.wf
  | .prepare h _ _ d => h.wf && d.length == 48
  | .accept h d => h.wf && d.length == 48
  | .mapCommit l h _ _ d => decide (l < 64) && h.wf && d.length == 48
  | .refuse h _ _ => h.wf
  | .proposalTimeout => true
  | .fetch h _ _ => h.wf
  | .mapPart h _ _ _ => h.wf
  | .suspect h i _ => h.wf && decide (i < 2048)
  | .suspectTimeout p => decide (p < 65536)
  | .join h _ _ x y z tray slot => h.wf && decide (x < 16) && decide (y < 8) && decide (z < 8) && decide (tray < 64) && decide (slot ≤ 16)
  | .sequenceTransfer src _ => decide (src < 2048)
  | .marginVoltageMove => true
  | .watchdogKick c => decide (c < 4)
  | .watchdogFire c => decide (c < 4)
  | .replayDone b => b.length == 48
  | .powerOn _ o sa _ => decide (o < 8) && decide (sa < 8)
  | .oscDelayExpiry => true
  | .resetRelease o sa _ => decide (o < 8) && decide (sa < 8)
  | .resetAssert => true
  | .sunriseStepEnd f => f.badHbm.all (fun x => decide (x < 8)) && f.badLpddr.all (fun x => decide (x < 8)) && f.puf.length == 32768 && f.badCounters.all (· < 4)
  | .service => true
  | .feedInvalid _ => true
  | .feedValid _ => true
  | .feedLossShutdown => true
  | .railFault r => decide (r < 5)
  | .peak => true
  | .refclkLoss => true
  | .pllUnlock p => decide (p < 8)
  | .twilightExit => true
  | .xtalLoss => true
  | .idcode => true
  | .bypass _ => true
  | .samplePreload _ => true
  | .extest _ => true
  | .registerRead p a n => p.wf && decide (a < pow2 24) && decide (n ≤ 8)
  | .hostIdlePacket h => h.wf
  | .hostBadPacket w => w.wf
  | .xtalReturn => true
  | .pageCopyDone _ _ => true
  | .hubCoreWorkDone _ _ => true
  | .privateTestInstruction _ => true

end Sys2Proof
end

