-- ==== Sys2Proof/Tests/Slice0.lean ====
section
/-!
SUPPORT. The model's own tests: each check of well-formed commands refuses a term; for every statement with hypotheses a state and operands that meet them.
-/

namespace Sys2Proof.Machine

open Sys2Proof

/-! ### Ill-formed commands are refused -/

/-- A digest of 48 bytes. -/
def digest0 : List Byte := List.replicate 48 0
/-- Link fields that pass. -/
def hdr0 : HostHdr := ⟨1, 2, 3, 4, 0⟩
/-- A map message's header that passes. -/
def ctl0 : CtlHdr := ⟨1, 2, 3, 4, 5, 6, 7⟩
/-- A delivery that passes. -/
def arr0 : Arrival := ⟨.qp, 1, 2, 3, 96, false, 4, 5, []⟩
/-- One whose partition has 13 bits. -/
def badArr : Arrival := { arr0 with part := 4096 }
/-- A frame that passes. -/
def frame0 : Frame := ⟨19, 0, 1, 2, 3, 4, 1, 0, List.replicate 10 0, [], true, 0, 0⟩
/-- A transport packet that passes. -/
def tpkt0 : Tpkt := ⟨1, 2, 3, 4, 5, 6, 7, 8, []⟩
/-- One to a queue pair beyond 2^20. -/
def badTpkt : Tpkt := { tpkt0 with dqp := pow2 20 }
/-- Readings that pass. -/
def minute0 : MinuteEnv := ⟨[], [], 0, 0, [], [], [], 0, false⟩
/-- A handshake message that passes. -/
def hs0 : HsMsg := ⟨0, 1, 64, 0, [], List.replicate 97 0, ⟨true, true⟩, List.replicate 1568 0, digest0⟩
/-- Facts of a Sunrise step in which nothing is amiss. -/
def sunrise0 : SunriseFacts := ⟨none, true, true, List.replicate 32768 0, [], ⟨true, true⟩, ⟨true, true⟩, [], []⟩
/-- A JOIN without certificate or report. -/
def join0 : JoinFacts := ⟨[], ⟨true, true⟩, [], ⟨true, true⟩, [], []⟩

theorem test_wf_passes : hdr0.wf = true ∧ ctl0.wf = true ∧ arr0.wf = true ∧ frame0.wf = true ∧ tpkt0.wf = true ∧ minute0.wf = true := by decide

/-- Each field of link state, of a port and of a map header beyond its width. -/
theorem test_wf_headers :
    (∀ h ∈ [{ hdr0 with lseq := 4096 }, { hdr0 with ack := 4096 }, { hdr0 with posted := 4096 }, { hdr0 with nonPosted := 256 }], HostHdr.wf h = false) ∧
    (∀ q ∈ [Port.wecia { hdr0 with ack := 4096 } 0 0, .wecia hdr0 32 0, .wecia hdr0 0 256], Port.wf q = false) ∧ (LinkRef.fabric 64).wf = false ∧
    (∀ c ∈ [{ ctl0 with version := 256 }, { ctl0 with fabricId := 16 }, { ctl0 with sender := 65536 }, { ctl0 with term := pow2 32 }, { ctl0 with gen := pow2 64 }, { ctl0 with bodyGen := pow2 64 }, { ctl0 with bodyTerm := pow2 32 }],
      CtlHdr.wf c = false) := by decide

/-- Each field of a delivery, a frame, a transport packet and the readings beyond its range. -/
theorem test_wf_packets :
    (∀ a ∈ [{ arr0 with ctx := pow2 26 }, { arr0 with psn := pow2 24 }, badArr, { arr0 with src := 65536 }, { arr0 with sqp := pow2 20 }], Arrival.wf a = false) ∧
    (∀ f ∈ [{ frame0 with vc := 20 }, { frame0 with len := 25 }, { frame0 with fseq := pow2 32 }, { frame0 with ack := pow2 32 }, { frame0 with txCount := pow2 64 },
      { frame0 with half := 2 }, { frame0 with lflags := 256 }, { frame0 with credits := [] }, { frame0 with len := 1 }], Frame.wf f = false) ∧
    (∀ q ∈ [{ tpkt0 with src := 65536 }, badTpkt, { tpkt0 with tkind := 256 }, { tpkt0 with psn := pow2 24 }, { tpkt0 with tflags := 256 },
      { tpkt0 with part := 4096 }, { tpkt0 with sqp := pow2 20 }], Tpkt.wf q = false) ∧
    (∀ e ∈ [{ minute0 with slack := [0] }, { minute0 with temps := [0] }, { minute0 with feedA := 65536 }, { minute0 with feedB := 65536 },
      { minute0 with parity := [(0, 3)] }, { minute0 with sramFixed := [96] }, { minute0 with retried := [8] }], MinuteEnv.wf e = false) := by decide

/-- Commands of time, registers, loads and the match engine. -/
theorem test_wf_registers : ∀ i ∈ [Instr.timeInMessage [] 0, .timeInMessage (List.replicate 16 0) 1000000001, .timeFrame 64 { frame0 with len := 1, payload := List.replicate 64 0 } 0 0,
    .timeFrame 0 frame0 0 0, .timeFrame 0 { frame0 with len := 1, payload := List.replicate 64 0 } 9 16, .minuteStart { minute0 with feedA := 65536 },
    .midnight ⟨65536, 0, true⟩, .midnight ⟨0, 65536, true⟩, .hbmRefresh 16, .registerWrite .i3c (pow2 24) [], .registerWrite .i3c 0 (List.replicate 9 0),
    .registerWrite .i3c 0 [pow2 32], .commitGo .i3c 256, .eventClear .i3c (pow2 24) 0, .eventClear .i3c 0 (pow2 32), .parityRestore (pow2 24) 0 true, .parityRestore 0 3 true,
    .modeProposal 4 0, .modeProposal 0 256, .loadProgram (pow2 64) 0, .loadProgram 0 (pow2 32), .loadWeightObject (pow2 64) 0, .loadWeightObject 0 (pow2 32), .unload 4 0, .unload 0 1024], i.wf = false := by decide

theorem test_wf_match : ∀ i ∈ [Instr.ruleInsert 64 0 0 0 0 0, .ruleInsert 0 65536 0 0 0 0, .ruleInsert 0 0 (pow2 160) 0 0 0, .ruleInsert 0 0 0 (pow2 160) 0 0, .ruleInsert 0 0 0 0 (pow2 32) 0,
    .ruleInsert 0 0 0 0 0 (pow2 44), .ruleDelete 64 0 0, .ruleDelete 0 65536 0, .ruleDelete 0 0 (pow2 44), .tcamScrub [(65536, 0)], .automataAudit [(65536, 0)] true, .cascadeTimeout 65536],
    i.wf = false := by decide

set_option maxRecDepth 20000 in
/-- Queue pairs, regions, and what an operator proposes. -/
theorem test_wf_queues : ∀ i ∈ [Instr.createQp (pow2 26) [], .createQp 0 (List.replicate 257 0), .modifyQp (pow2 26) [], .modifyQp 0 (List.replicate 257 0), .destroyQp (pow2 26), .readQp (pow2 26),
    .registerRegion 65536 [], .registerRegion 0 (List.replicate 257 0), .deregisterRegion 65536, .pin (pow2 20), .unpin (pow2 20), .moveSlots 65536 0 0, .moveSlots 0 65537 0, .moveSlots 0 0 2048,
    .setMembership (pow2 32) 0 0, .setMembership 0 (pow2 32) 0, .setMembership 0 0 (pow2 32), .setClass 24 0, .setClass 0 24, .setSlice 24 0, .setSlice 0 (pow2 32), .drain 2048, .retire 2048,
    .standIn 2048, .returnNode 2048, .clearLoss 65536 0, .clearLoss 0 65537, .declareDead 2048], i.wf = false := by decide

set_option maxRecDepth 20000 in
/-- Security, flash and the host. -/
theorem test_wf_host : ∀ i ∈ [Instr.attestQueue [], .flashRead .i3c (pow2 32) 0, .flashRead .i3c 0 256, .flashErase .i3c (pow2 32), .flashProgram .i3c (pow2 32) 0,
    .flashProgram .i3c 0 256, .i3cEntdaa 128, .dbell hdr0 32 0 0, .dbell hdr0 0 65536 0, .dbell hdr0 0 0 (pow2 32), .nwr hdr0 32 0 0 [], .nwr hdr0 0 256 0 [], .nwr hdr0 0 0 (pow2 64) [],
    .nwr hdr0 0 0 0 (List.replicate 769 0), .nrd hdr0 32 0 0 0 [], .nrd hdr0 0 256 0 0 [], .nrd hdr0 0 0 (pow2 64) 0 [], .nrd hdr0 0 0 0 4097 [],
    .hostCompletion hdr0 256 0 [], .hostCompletion hdr0 0 (pow2 24) [], .hostCompletion hdr0 0 0 (List.replicate 769 0), .hostReadTimeout 256, .hostNak { hdr0 with lseq := 4096 }, .msgModeration 65536],
    i.wf = false := by decide

/-- Links and transport. -/
theorem test_wf_links : ∀ i ∈ [Instr.linkSignalDetect (.fabric 64), .linkTrainDone (.fabric 64) true true, .linkAlignDone (.fabric 64) 0 0 0, .linkAlignDone .host 65536 0 0, .linkAlignDone .host 0 64 0,
    .linkAlignDone .host 0 0 16, .hs1 64 hs0, .hs1 0 { hs0 with linkNo := 64 }, .hs1 0 { hs0 with fabric := 16 }, .hs1 0 { hs0 with gen := pow2 64 }, .hs1 0 { hs0 with sender := 65536 }, .hs1 0 { hs0 with eph := [] },
    .hs2 64 hs0, .hs2 0 { hs0 with cipher := [] }, .hs3 64 hs0, .hs3 0 { hs0 with mac := [] },
    .linkStateTimeout (.fabric 64), .laneLockLoss (.fabric 64), .dataFrame 64 frame0, .dataFrame 0 { frame0 with vc := 20 }, .idleFrame 64 frame0, .idleFrame 0 { frame0 with half := 2 },
    .linkResendTimeout 64, .frameTransmit 64, .directionHoldExpiry 96, .transportAck badTpkt, .transportNak badTpkt, .transportNotReady badTpkt, .notReadyWaitExpiry (pow2 20),
    .transportResponse badTpkt, .qpRetryTimeout (pow2 20)], i.wf = false := by decide

/-- Requests, units and tiers. -/
theorem test_wf_requests : ∀ i ∈ [Instr.append badArr [], .attend badArr [], .appendAttend badArr [], .verify badArr [], .commit badArr [], .bind badArr [], .publish badArr [], .unpublish badArr [],
    .release badArr [], .spanWork badArr [], .run badArr [], .projectAttend badArr [], .rread badArr [], .rwrite badArr [], .rwriteTiles badArr [], .attest badArr [], .badOpcode badArr [],
    .calendarRelease 24, .attendBurst 2048, .scrubBurst 2048 [], .moveBurst 2048 [], .burstResume 2048, .urgentPreempt 2048, .ordinaryAccess 2048 0 false 0 ⟨[], .clean⟩,
    .ordinaryAccess 0 0 false (pow2 48) ⟨[], .clean⟩, .ordinaryAccess 0 0 true 0 ⟨List.replicate 65 0, .clean⟩, .accessWindow 2048 1, .vesperReturnRecord 2048 [] false,
    .returnRecordMissing 2048, .provisionalExpiry 4096 0 0, .provisionalExpiry 0 (pow2 64) 0, .tier1Patrol (pow2 48) .clean, .sramRefillDone 0 0 ⟨true, 12, 0⟩, .sramRefillDone 0 0 ⟨true, 0, 8⟩], i.wf = false := by decide

/-- A program step on a core that does not exist, and one whose word has more than 128 bits. -/
theorem test_wf_steps : stepWf 96 0 = false ∧ stepWf 0 (pow2 128) = false ∧
    ∀ mk ∈ [Instr.stepIn, .stepOut, .matmul, .add, .mul, .rmsnorm, .layernorm, .funcSigmoid, .funcTanh, .funcGelu, .funcSilu, .funcExp2, .quantDyn, .quantStatic, .rope, .sync, .matchStep, .seg, .endStep],
      (mk 96 0).wf = false := by decide

/-- The map, start-up and the rest. -/
theorem test_wf_map :
    let bad := { ctl0 with fabricId := 16 }
    ∀ i ∈ [Instr.hello 64 ctl0 0 0 0 0 0 0 0 true, .hello 0 bad 0 0 0 0 0 0 0 true, .lease bad 0 0, .heartbeat bad 0, .voteReq bad 0, .vote bad true, .propose bad [], .prepare bad 0 [] digest0,
      .prepare ctl0 0 [] [], .accept bad digest0, .accept ctl0 [], .mapCommit 64 ctl0 0 [] digest0, .mapCommit 0 bad 0 [] digest0, .mapCommit 0 ctl0 0 [] [], .refuse bad 0 0, .fetch bad 0 0,
      .suspect bad 0 0, .suspect ctl0 2048 0, .suspectTimeout 65536, .join bad join0 0 0 0 0 0 0, .join ctl0 join0 0 16 0 0 0 0, .join ctl0 join0 0 0 8 0 0 0, .join ctl0 join0 0 0 0 8 0 0, .join ctl0 join0 0 0 0 0 64 0, .join ctl0 join0 0 0 0 0 0 17,
      .tableReadDone 0 (.lost 1 0), .tableReadDone 0 (.lost 0 4096), .replayDone [],
      .watchdogKick 4, .watchdogFire 4, .powerOn false 8 0 false, .powerOn false 0 8 false, .resetRelease 8 0 false, .resetRelease 0 8 false, .railFault 5, .pllUnlock 8,
      .registerRead .i3c (pow2 24) 1, .registerRead .i3c 0 9, .hostIdlePacket { hdr0 with posted := 4096 }], i.wf = false := by decide

theorem witness_IdleStepPassesOneTick : State.reset.pending = [] := rfl

theorem witness_NoCommandChangesOtherParts : ∃ t, exec .peak State.reset = .next t := ⟨_, rfl⟩

theorem witness_NoCommandChangesTheQueue : ∃ t, exec .peak State.reset = .next t := ⟨_, rfl⟩

theorem witness_EveryStepKeepsTheInvariant : State.reset.Inv ∧ ∃ t, step State.reset = .next t := ⟨⟨rfl, rfl, rfl, rfl, rfl⟩, _, rfl⟩

theorem witness_TestPortAnswersWithoutTouchingTheNode :
    State.reset.powered = true ∧ State.reset.sys.resetN = true ∧
    (let s := { State.reset with sys := { SysSt.reset with resetN := false } }; s.powered = true ∧ s.sys.resetN = false) := by decide

/-- R432: the identity code, spelled from its fields. -/
theorem test_idcode : NextWith (exec .idcode State.reset) (fun t => t.sys.tdo = 0xB134454F) := ⟨_, rfl, rfl⟩

/-- R432: BYPASS puts out the bit taken in before. -/
theorem test_bypass : NextWith (exec (.bypass true) State.reset) (fun t => t.sys.tdo = 0 ∧ t.sys.bypass = true) := ⟨_, rfl, rfl, rfl⟩

theorem witness_PrivateTestInstructionsNeedADebugToken :
    (let s := State.reset.setStatus Reg.secStatus 4 4 1; s.powered = true ∧ s.bit Reg.secStatus 4 = true) ∧ State.reset.bit Reg.secStatus 4 = false := by decide

/-- A node past step 5 of Sunrise that takes PPS_IN and TIME_IN. -/
def clockNode : State := (State.reset.setLive Reg.sysBoot 6).setLive Reg.timeCfg 5

/-- That node when it saw an edge at 0; with or without time, and with an edge announced or none. -/
def ppsNode (acquired : Bool) (due : Option Nat) : State :=
  { clockNode with
    time := { TimeSt.reset with lastEdge := some 0, goodSeconds := 1, acquired := acquired, due := due, nextEdge := due, lastMsg := due } }

theorem witness_PpsEdgesCountLossesInvalidate :
    (∀ a d, (ppsNode a d).Inv ∧ (ppsNode a d).takesTime = true ∧ (ppsNode a d).inTwilight = false ∧ (ppsNode a d).bit Reg.timeCfg 0 = true ∧ (ppsNode a d).bit Reg.timeCfg 2 = true ∧
      (ppsNode a d).time.lastEdge = some 0 ∧ (ppsNode a d).time.goodSeconds = 1 ∧ (ppsNode a d).time.acquired = a ∧ (ppsNode a d).time.due = d ∧
      (ppsNode a d).time.nextEdge = d ∧ (ppsNode a d).time.lastMsg = d ∧ (ppsNode a d).time.inconsistent = 0 ∧ (ppsNode a d).time.reveal = false ∧
      (ppsNode a d).time.revealed = 0 ∧ (ppsNode a d).fld Reg.timePpsComp 15 0 = 0) ∧
    (∀ e ∈ [16 * (second - 64), 16 * second, 16 * (second + 64)], goodSecond 0 e = true ∧ ((e : Int) - 16 * (second : Int)).natAbs ≤ fenceOffset) := by
  refine ⟨fun a d => ⟨⟨(by decide : regsCanonical clockNode.regs.live = true), rfl, rfl, rfl, rfl⟩, (by decide : clockNode.takesTime = true), ?_⟩, by decide⟩
  exact ⟨(by decide : clockNode.inTwilight = false), (by decide : clockNode.bit Reg.timeCfg 0 = true), (by decide : clockNode.bit Reg.timeCfg 2 = true),
    rfl, rfl, rfl, rfl, rfl, rfl, rfl, rfl, rfl, (by decide : clockNode.fld Reg.timePpsComp 15 0 = 0)⟩

/-- A message of Table 2.1 that names the edge at one second. -/
def timeMsg : List Byte :=
  let b := leBytes 1 0xA5 ++ leBytes 1 0x4D ++ leBytes 1 1 ++ leBytes 1 1 ++ leBytes 8 second ++ leBytes 2 0
  b ++ leBytes 2 (crc16 b)

/-- A node that takes TIME_IN, with an edge accepted or one that waits for its second. -/
def timeNode (accepted waits : Option Nat) : State :=
  { clockNode with time := { TimeSt.reset with nextEdge := accepted, tentative := waits } }

theorem witness_TimeMessagesAreFollowed :
    (∀ a w, (timeNode a w).Inv ∧ (timeNode a w).takesTime = true ∧ (timeNode a w).bit Reg.timeCfg 2 = true ∧ (timeNode a w).time.nextEdge = a ∧
      (timeNode a w).time.tentative = w) ∧
    timeFormOk [] = false ∧ timeFormOk timeMsg = true ∧ field timeMsg 4 8 = 0 + second ∧ field timeMsg 4 8 ≠ 1 + second := by
  exact ⟨fun a w => ⟨⟨(by decide : regsCanonical clockNode.regs.live = true), rfl, rfl, rfl, rfl⟩, (by decide : clockNode.takesTime = true),
    (by decide : clockNode.bit Reg.timeCfg 2 = true), rfl, rfl⟩, by decide +kernel⟩

theorem witness_RefreshPointsAreFixedInFabricTime :
    State.reset.running = true ∧ State.reset.inTwilight = false ∧ State.reset.minute % 4 = 0 ∧ tickOf State.reset.now = 0 ∧
    (let s := { State.reset with now := 3 * 1024 + 768 }; s.running = true ∧ s.inTwilight = false ∧ s.minute % 4 = 15 % 4 ∧ tickOf s.now = 256 * (15 / 4)) := by decide

theorem witness_ModeClockSwitchFollowsTheMode :
    (let s := { State.reset with time := { TimeSt.reset with clockMode := 2 } }
     s.Inv ∧ s.running = true ∧ s.inTwilight = false ∧ s.minute = 0 ∧ s.time.clockMode ≠ s.mode ∧ tickOf s.now < 192 ∧
       (let u := { s with now := 192 }; u.Inv ∧ u.running = true ∧ u.inTwilight = false ∧ u.minute = 0 ∧ u.time.clockMode ≠ u.mode ∧ 192 ≤ tickOf u.now)) :=
  ⟨⟨rfl, rfl, rfl, rfl, rfl⟩, by decide, by decide, by decide, by decide, by decide, ⟨rfl, rfl, rfl, rfl, rfl⟩, by decide⟩

theorem witness_MinutesAndFramesBeginOnTheGrid :
    State.reset.running = true ∧ ((([16 * 95] : List Int).take 176).zipIdx.any (fun x => decide (16 * (tempLimits x.2).2.1 ≤ x.1))) = false := by decide

/-- Case 2.1: the count 0x12345678 is frame 0x123, minute 0x115, tick 0x278. -/
theorem test_count_fields : frameOf 0x12345678 = 0x123 ∧ minuteOf 0x12345678 = 0x115 ∧ tickOf 0x12345678 = 0x278 := by decide

theorem witness_NightDialIsFixed : State.reset.mode = 3 := by decide

theorem witness_MidnightLatchesEveryCounter :
    State.reset.Inv ∧ isLatched (Reg.lnkPortStat + 4) = true ∧ isLatched Reg.timeCfg = false := ⟨⟨rfl, rfl, rfl, rfl, rfl⟩, by decide +kernel, by decide +kernel⟩

/-- A node whose I3C port is open: Sunrise is past step 3. -/
def i3cNode : State := State.reset.setLive Reg.sysBoot 0x24

theorem witness_RegisterWritesReachTheirOneCopy :
    i3cNode.Inv ∧ i3cNode.i3cOpen = true ∧ State.reset.i3cOpen = false ∧
    (∃ r, targetOf Reg.memDuskCfg = .reg r ∧ r.row.acc = .st) ∧ (∃ r, targetOf Reg.sysCommit = .reg r ∧ r.row.acc = .rw) ∧
    (∃ r, targetOf Reg.timeStatus = .reg r ∧ r.row.acc = .rs) ∧ targetOf 0xFFC = .unmapped ∧ (∃ r, targetOf (Reg.memDuskCfg + 0x80000) = .copy r) := by
  refine ⟨⟨by decide, rfl, rfl, rfl, rfl⟩, by decide, by decide, ⟨_, rfl, rfl⟩, ⟨_, rfl, rfl⟩, ⟨_, rfl, rfl⟩, by decide +kernel, ⟨_, rfl⟩⟩

theorem witness_EventRegistersClearByWriteBack :
    i3cNode.Inv ∧ i3cNode.i3cOpen = true ∧ (∃ r, targetOf Reg.vspEvent = .reg r ∧ r.row.acc = .ev) ∧
    bitsOf 4 31 24 = i3cNode.fld Reg.vspEvent 31 24 ∧ bitsOf 0x37000004 31 24 ≠ i3cNode.fld Reg.vspEvent 31 24 := by
  refine ⟨⟨by decide, rfl, rfl, rfl, rfl⟩, by decide, ⟨_, rfl, rfl⟩, by decide, by decide⟩

/-- Case 15.2, its last row: 0x38000006 written back leaves 0x39000000. -/
theorem test_event_clear : ((State.reset.setLive Reg.vspEvent 0x38000006).clearEvents Reg.vspEvent 0x38000006).live Reg.vspEvent = 0x39000000 := by decide +kernel

/-- Case 15.2, the write that meets a new event. -/
theorem test_event_clear_late : ((State.reset.setLive Reg.vspEvent 0x38000006).clearEvents Reg.vspEvent 0x37000004).live Reg.vspEvent = 0x38000006 := by decide +kernel

theorem witness_RecordingAnEventSetsItsBits : State.reset.Inv := ⟨rfl, rfl, rfl, rfl, rfl⟩

theorem witness_RegisterReadsShowTheirCopy :
    i3cNode.i3cOpen = true ∧ (∃ r, targetOf Reg.memDuskCfg = .reg r ∧ r.row.acc = .st) ∧ (∃ r, targetOf Reg.timeStatus = .reg r ∧ r.row.acc = .rs) ∧
    (∃ r, targetOf (Reg.memDuskCfg + 0x80000) = .copy r) ∧ (∃ r, targetOf Reg.sysCommitGo = .reg r ∧ r.row.acc = .wo) ∧ targetOf 0xFFC = .unmapped := by
  refine ⟨by decide, ⟨_, rfl, rfl⟩, ⟨_, rfl, rfl⟩, ⟨_, rfl⟩, ⟨_, rfl, rfl⟩, by decide +kernel⟩

/-- Case 17.1's first register: other Dusk watermarks staged. -/
def duskNode : State := i3cNode.setStaged Reg.memDuskCfg 0x1008180C

theorem witness_CommitsCaptureStagedValues :
    duskNode.Inv ∧ duskNode.i3cOpen = true ∧ duskNode.regs.badParity = [] ∧ duskNode.regs.written = [] ∧
    duskNode.candidates (fun x => bitOf 0x0C (duskNode.groupOf (x / 0x100000))) = [Reg.memDuskCfg] ∧
    (∃ r bits, findReg Reg.memDuskCfg = some r ∧ r.timed = [(.midnight, bits)] ∧ bits < 2 ^ 32 ∧
      duskNode.staged Reg.memDuskCfg &&& bits ≠ duskNode.target Reg.memDuskCfg &&& bits ∧
      duskNode.refusal (fun x => if [Reg.memDuskCfg].contains x then duskNode.staged x else duskNode.target x) r Reg.memDuskCfg = none) := by
  refine ⟨⟨by decide, by decide, rfl, rfl, rfl⟩, by decide, rfl, rfl, by decide +kernel, _, _, rfl, rfl, by decide, by decide +kernel, by decide +kernel⟩

/-- A node with a TCAM image loaded and other key units staged beside its cascade's place (Table 9.2). -/
def keyNode : State :=
  let img : Image := { body := .tcam [], casc := false, tag := 0, first := 0, entries := 1, edits := 0, digest := [], version := 1, vectors := [] }
  { i3cNode.setStaged Reg.matCfg (putBits (putBits (i3cNode.staged Reg.matCfg) 7 0 9) 11 8 5) with mat := { MatSt.reset with images := [(6, img)] } }

theorem witness_held_key_units :
    keyNode.Inv ∧ keyNode.i3cOpen = true ∧ keyNode.regs.badParity = [] ∧ keyNode.regs.written = [] ∧
    keyNode.candidates (fun x => bitOf 0xFF (keyNode.groupOf (x / 0x100000))) = [Reg.matCfg] ∧
    (∃ r t bits, findReg Reg.matCfg = some r ∧ r.timed = [(t, bits)] ∧ bits < 2 ^ 32 ∧ r.row.base = Reg.matCfg ∧
      keyNode.keyUnitsHeld (keyNode.staged Reg.matCfg) = true ∧ keyNode.staged Reg.matCfg &&& bits ≠ keyNode.target Reg.matCfg &&& bits ∧
      putBits (keyNode.staged Reg.matCfg) 7 0 (keyNode.fld Reg.matCfg 7 0) &&& bits ≠ keyNode.target Reg.matCfg &&& bits ∧
      keyNode.refusal (fun x => if [Reg.matCfg].contains x then keyNode.staged x else keyNode.target x) r Reg.matCfg = none) := by
  refine ⟨⟨by decide, by decide, rfl, rfl, rfl⟩, by decide, rfl, rfl, by decide +kernel, _, _, _, rfl, rfl, ?_⟩
  decide +kernel

/-- Case 17.1's second register: a host window of 9. -/
def burstNode : State := i3cNode.setStaged Reg.vspBurstCfg 0x00092400

theorem witness_RefusedValuesAreDiscarded :
    burstNode.Inv ∧ burstNode.i3cOpen = true ∧ burstNode.regs.badParity = [] ∧ burstNode.regs.written = [] ∧
    burstNode.candidates (fun x => bitOf 0x0C (burstNode.groupOf (x / 0x100000))) = [Reg.vspBurstCfg] ∧
    (∃ r es, findReg Reg.vspBurstCfg = some r ∧
      burstNode.refusal (fun x => if [Reg.vspBurstCfg].contains x then burstNode.staged x else burstNode.target x) r Reg.vspBurstCfg = some es ∧
      Reg.vspBurstCfg ∉ es.map Prod.fst) := by
  refine ⟨⟨by decide, by decide, rfl, rfl, rfl⟩, by decide, rfl, rfl, by decide +kernel, _, [], rfl, rfl, by decide⟩

theorem witness_ParityRestorationEndsOrFailsTheNode :
    (let s := { State.reset with regs := { RegFile.reset with badParity := [(Reg.memDuskCfg, 2)] }, map := { MapSt.reset with fenced := true } }
     s.Inv ∧ (Reg.memDuskCfg, 2) ∈ s.regs.badParity ∧ s.hlt.health ≠ 2 ∧ s.fenced = true) := ⟨⟨rfl, rfl, rfl, rfl, rfl⟩, by decide⟩

/-- A node with its flash bridge open, idle or in the middle of an operation. -/
def flashNode (op : Option (Nat × Nat × Nat)) : State := { State.reset.setLive Reg.sysBoot 0x24 with sys := { SysSt.reset with flashOp := op } }

theorem witness_FlashBridgeStartsOrRefuses :
    (flashNode none).Inv ∧ (flashNode none).i3cOpen = true ∧ (flashNode none).bridgeOpen = true ∧ flashAllowed 1 0 255 = true ∧ flashAllowed 2 0x100000 0 = true ∧
    flashAllowed 3 0x1000FF 0 = true ∧ flashAllowed 2 0xF0000 0 = false ∧ flashAllowed 3 0x1000FF 1 = false ∧
    (State.reset.setLive Reg.sysBoot 0x4).i3cOpen = true ∧ (State.reset.setLive Reg.sysBoot 0x4).bridgeOpen = false ∧
    (flashNode (some (1, 0, 4))).sys.flashOp ≠ none := by
  refine ⟨⟨by decide, rfl, rfl, rfl, rfl⟩, by decide +kernel⟩

theorem witness_FlashOperationsReadEraseAndProgram :
    (flashNode (some (2, 0x100000, 1))).Inv ∧ (flashNode (some (2, 0x100000, 1))).sys.flashOp = some (2, 0x100000, 1) ∧
    (flashNode (some (1, 0, 256))).sys.flashOp = some (1, 0, 256) ∧ (flashNode (some (3, 0x100000, 4))).sys.flashOp = some (3, 0x100000, 4) := by
  refine ⟨⟨by decide, rfl, rfl, rfl, rfl⟩, rfl, rfl, rfl⟩

theorem witness_I3cTargetTakesItsDynamicAddress : i3cNode.i3cOpen = true ∧ State.reset.i3cOpen = false := by decide

theorem witness_PendingValuesBecomeLiveAtTheirFrame :
    (let p : PendVal := ⟨Reg.memDuskCfg, 0xFFFFFFFF, 0x1008180C, 501⟩
     let s := { State.reset with regs := { RegFile.reset with pend := [p] } }
     s.Inv ∧ p ∈ s.regs.pend ∧ p.timing ≤ 501 ∧ (∀ q ∈ s.regs.pend, q.timing ≤ 501 → q.addr = p.addr → q = p)) :=
  ⟨⟨rfl, rfl, rfl, rfl, rfl⟩, by decide⟩

theorem witness_PowerAndResetClearAllButFlashAndStandby :
    State.reset.Inv ∧ State.reset.sys.power = .on ∧ State.reset.feedOk = false := ⟨⟨rfl, rfl, rfl, rfl, rfl⟩, by decide⟩

/-- A state with RESET_N at a level and the hub in a power state, one feed valid or none, in a step of Sunrise. -/
def powerNode (p : PowerSt) (resetN feed : Bool) (step : Nat) : State :=
  { (State.reset.setLive Reg.pwrStatus (if feed then 2 else 0)).setLive Reg.sysBoot step with sys := { SysSt.reset with power := p, resetN := resetN } }

theorem witness_ResetReleaseSamplesStrapsAndStartsSunrise :
    (powerNode .held false true 3).Inv ∧ (powerNode .held false true 3).sys.resetN = false ∧ (powerNode .held false true 3).sys.power = .held ∧
    (powerNode .latched false true 3).Inv ∧ (powerNode .latched false true 3).feedOk = true ∧ (powerNode .latched false true 3).sys.power = .latched ∧
    (powerNode .latched false false 3).Inv ∧ (powerNode .latched false false 3).feedOk = false ∧
    (powerNode .on true true 2).Inv ∧ (powerNode .on true true 2).running = true ∧ (powerNode .on true true 2).sunriseStep = 2 ∧
    (powerNode .on false true 2).Inv ∧ (powerNode .on false true 2).sunriseStep = 2 ∧ (powerNode .on false true 2).sys.resetN = false := by
  refine ⟨⟨by decide, rfl, rfl, rfl, rfl⟩, by decide, by decide, ⟨by decide, rfl, rfl, rfl, rfl⟩, by decide, by decide, ⟨by decide, rfl, rfl, rfl, rfl⟩,
    by decide, ⟨by decide, rfl, rfl, rfl, rfl⟩, by decide, by decide, ⟨by decide, rfl, rfl, rfl, rfl⟩, by decide, by decide⟩

/-- Facts of Sunrise: stacks and counters that do not exist, a start-up state of another size. -/
theorem test_wf_sunrise : Instr.wf (.sunriseStepEnd sunrise0) = true ∧ Instr.wf (.sunriseStepEnd { sunrise0 with badHbm := [8] }) = false ∧
    Instr.wf (.sunriseStepEnd { sunrise0 with badLpddr := [8] }) = false ∧ Instr.wf (.sunriseStepEnd { sunrise0 with puf := [] }) = false ∧
    Instr.wf (.sunriseStepEnd { sunrise0 with badCounters := [4] }) = false := by
  have h : sunrise0.puf.length = 32768 := List.length_replicate
  refine ⟨?_, by decide, by decide, by decide, ?_⟩
  · show (true && true && (sunrise0.puf.length == 32768) && true) = true
    rw [h]; rfl
  · show (true && true && (sunrise0.puf.length == 32768) && false) = false
    rw [h]; rfl

theorem witness_SunriseStepsEndAsTheirFactsSay :
    (∀ k ∈ [1, 3, 4, 5, 6, 7, 8, 9], (powerNode .on true true k).running = true ∧ (powerNode .on true true k).inService = false ∧
      (powerNode .on true true k).bootStopped = false ∧ (powerNode .on true true k).sunriseStep = k ∧ regsCanonical (powerNode .on true true k).regs.live = true) ∧
    sunrise0.badRail = none ∧ (powerNode .on true true 3).sys.flashHold = false ∧
    (powerNode .on true true 7).verifyStop sunrise0 = some (Stop.identity, false) ∧
    1048576 ≤ spareProtected (powerNode .on true true 8).sys.split [] 12 64 := by
  refine ⟨by decide, by decide +kernel⟩

/-- The least configuration body that passes R401: fabric, split, three dials, keys, and class 2 urgent. -/
def leastSections : List (Nat × List Byte) :=
  let dial (k : Nat) : Nat × List Byte := (3, leBytes 1 k ++ (List.range 1024).flatMap (fun m =>
    leBytes 1 (if m = 0 then 31 else if m % 2 = 1 then 2 else if m % 4 = 0 then 28 else 29)))
  [(1, [0, 3]), (2, (List.range 8).flatMap (fun _ => leBytes 4 73728)), dial 0, dial 1, dial 2, (4, List.replicate 157 0),
   (7, leBytes 4 (Reg.schClassCfg + 8) ++ leBytes 4 (2 ^ 20))]

theorem witness_ServiceOpensTheNode :
    (let s := { powerNode .on true true 11 with time := { TimeSt.reset with acquired := true } }
     s.Inv ∧ s.running = true ∧ s.inService = false ∧ s.bootStopped = false ∧ s.sunriseStep = 11 ∧ s.time.acquired = true) :=
  ⟨⟨by decide, rfl, rfl, rfl, rfl⟩, by decide⟩

theorem witness_FeedsSwitchAsTheyComeAndGo :
    (let s := State.reset.setLive Reg.pwrStatus 6
     s.Inv ∧ s.standbyUp = true ∧ s.running = true ∧ s.bit Reg.pwrStatus 0 = false ∧ s.bit Reg.pwrStatus (1 + b2n (!false)) = true) ∧
    (let s := State.reset.setLive Reg.pwrStatus 5
     s.Inv ∧ s.fld Reg.pwrFeedCfg 0 0 = b2n false ∧ s.bit Reg.pwrStatus 0 = !false) :=
  ⟨⟨⟨by decide, rfl, rfl, rfl, rfl⟩, by decide⟩, ⟨by decide, rfl, rfl, rfl, rfl⟩, by decide⟩

theorem witness_TwilightCoastsOnTheCrystal :
    (let s := State.reset.setLive Reg.clkStatus 0x7F
     s.Inv ∧ s.running = true ∧ s.inTwilight = false ∧ s.bit Reg.clkStatus 0 = true ∧ s.bit Reg.clkStatus 1 = true ∧ s.bit Reg.clkStatus (2 + 4) = true ∧
       s.lnk.links = [] ∧ s.map.cur = none) ∧
    (let s := State.reset.setLive Reg.clkStatus 0x82
     s.Inv ∧ s.running = true ∧ s.inTwilight = true ∧ s.lnk.links = [] ∧ s.regs.pend = []) :=
  ⟨⟨⟨by decide, rfl, rfl, rfl, rfl⟩, by decide⟩, ⟨by decide, rfl, rfl, rfl, rfl⟩, by decide⟩

theorem witness_CrystalLossAndReturnAreShown : State.reset.Inv ∧ State.reset.running = true ∧ State.reset.inTwilight = false :=
  ⟨⟨rfl, rfl, rfl, rfl, rfl⟩, by decide⟩

theorem witness_WatchdogKicksFiresAndReplays :
    (let s := { State.reset with map := { MapSt.reset with fenced := true }, hlt := { HltSt.reset with replay := true } }
     s.Inv ∧ s.running = true ∧ s.hlt.health ≠ 2 ∧ s.fenced = true ∧ s.hlt.lastFire = none ∧ s.hlt.replay = true) :=
  ⟨⟨rfl, rfl, rfl, rfl, rfl⟩, by decide⟩

theorem witness_MarginVoltageFollowsTheSetpoint :
    State.reset.running = true ∧ State.reset.minute = 0 ∧ State.reset.time.modeChange.map Prod.fst ≠ some State.reset.frame := by decide

theorem witness_NoncesWaitInTheirSlot :
    (let s := { State.reset with map := { MapSt.reset with fenced := true } }; s.Inv ∧ s.running = true ∧ s.fenced = true) ∧
    (List.replicate 32 (0 : Byte)).length = 32 ∧ tabGet State.reset.sec.nonces 4095 = none ∧
    tabGet ({ SecSt.reset with nonces := [(4095, [])] }).nonces 4095 ≠ none :=
  ⟨⟨⟨rfl, rfl, rfl, rfl, rfl⟩, by decide⟩, by decide⟩

theorem witness_ReportsAreDeliveredFourFramesOn :
    (let s := { State.reset with sec := { SecSt.reset with signed := [(1024, ([], []))] } }
     s.Inv ∧ s.running = true ∧ s.sec.signed = (1024, ([], [])) :: []) := ⟨⟨rfl, rfl, rfl, rfl, rfl⟩, by decide⟩

/-- A submission ring of tenant 0's class 0 with full meters. -/
def ringQp : Qp := { Qp.zero with state := .ready, ring := true, part := 0, cls := 0, cir := 0, cbs := 1000000, pbs := 1000000, tc := 1000000, tp := 1000000 }

/-- A running node in NOON with that ring as ring 0 and an ample aggregate for tenant 0. -/
def ringNode : State :=
  { ((State.reset.setLive Reg.timeModeStatus 0).setLive (Reg.schTenantCfg + 4) 1000000).setLive (Reg.schTenantCfg + 8) 1000 with
    que := { QueSt.reset with qps := [(ringBase, ringQp)] } }

/-- A delivery on ring 0 of so many bytes. -/
def ringArr (n : Nat) : Arrival := ⟨.ring 0 0 0, 0, 0, 0, n, false, 0, 0, []⟩

/-- A RELEASE of sequence 5 (Table 3.1): no layer, no shape. -/
def releaseMsg : List Byte := leBytes 1 7 ++ List.replicate 3 0 ++ leBytes 4 0 ++ leBytes 8 1 ++ leBytes 8 5 ++ leBytes 2 0xFFFF ++ List.replicate 14 0

theorem witness_RequestsReachTheirCalendar :
    ringNode.Inv ∧ (.release (ringArr 40) releaseMsg, .release, true) ∈ requestRows (ringArr 40) releaseMsg ∧
    ringNode.running = true ∧ ringNode.fenced = false ∧ ringNode.qp (ringBase + 0) = some ringQp ∧ ringQp.ring = true ∧ ringQp.rkind = 0 ∧
    opOf (Msg.opcode releaseMsg) = some .release ∧ ingressFault .release releaseMsg 40 = none ∧ Msg.tenant releaseMsg = ringQp.part ∧
    ringNode.mapOk (Msg.mapGen releaseMsg) = true ∧ ringNode.mode ≠ 3 ∧ dataFault .release releaseMsg = none ∧
    (ringQp.refill ringNode.minutes).colour (256 * (ringNode.costOf .release releaseMsg).1) = .green ∧
    256 * (ringNode.costOf .release releaseMsg).1 ≤ (ringNode.agg 0).content ∧
    (ringNode.agg 0).queued + (ringNode.costOf .release releaseMsg).1 ≤ ringNode.fld (Reg.schTenantCfg + 8) 19 0 ∧
    ringNode.poolFree 0 = true ∧ ringNode.evidenceFree 0 = true ∧
    ringNode.homeOf (ringNode.homeSlot 0 5 0) = ringNode.map.id := by
  refine ⟨⟨by decide, rfl, rfl, rfl, rfl⟩, by decide +kernel⟩

/-- A node in NOON with a system queue pair. -/
def fwdNode : State :=
  { State.reset.setLive Reg.timeModeStatus 0 with
    que := { QueSt.reset with qps := [(3, { Qp.zero with state := .ready, part := sysPart, maxOut := 4 })] } }

/-- A SPAN_WORK of one attend part. -/
def spanMsg : List Byte := leBytes 1 0x30 ++ List.replicate 27 0 ++ leBytes 4 32 ++ List.replicate 40 0

theorem witness_SpanWorkWaitsAtItsHolder :
    (match fwdNode.acceptRequest ⟨.fwd 0, 3, 0, sysPart, 72, false, 0, 0, []⟩ spanMsg with
     | .accept s1 => (s1.qp 3).any (fun q => q.part == sysPart) && s1.mapOk (Msg.mapGen spanMsg) && s1.mode != 3 && s1.poolFree 0 && s1.evidenceFree 0
     | .done _ => false) = true ∧
    fwdNode.running = true ∧ Msg.opcode spanMsg = 0x30 ∧ ingressFault .spanWork spanMsg 72 = none ∧ dataFault .spanWork spanMsg = none := by
  refine ⟨by decide +kernel, by decide +kernel⟩

/-- The ring's node with a region of 64 KiB of tier 1 that may be read and written. -/
def regionNode : State :=
  { ringNode with que := { ringNode.que with regions := [(1, { base := tier0End, part := 0, length := 65536, gen := 0, rights := 3, valid := true, mirror := 0xFFFF })] } }

/-- A message of remote memory: opcode, body length, key 1, offset 0, a length, format 0, data. -/
def remoteMsg (op len : Nat) (data : List Byte) : List Byte :=
  leBytes 1 op ++ List.replicate 27 0 ++ leBytes 4 (32 + data.length) ++ List.replicate 8 0 ++ leBytes 4 1 ++ List.replicate 8 0 ++ leBytes 4 len ++
  List.replicate 16 0 ++ data

theorem witness_RemoteReadsAnswerAtOnce :
    (let m := remoteMsg 0x10 64 []
     ingressFault .rread m 72 = none ∧ opOf (Msg.opcode m) = some .rread ∧ Msg.tenant m = ringQp.part ∧
     256 * (regionNode.costOf .rread m).1 ≤ (regionNode.agg 0).content ∧
     (ringQp.refill regionNode.minutes).colour (256 * (regionNode.costOf .rread m).1) = .green ∧
     (match regionNode.region 0 (Remote.key m) .rread (Remote.off m) (Remote.len m) with
      | .ok g => regionNode.firstCheck (g.base + Remote.off m) (Remote.len m) == none && g.base + Remote.off m == tier0End
      | .error _ => false) = true) := by
  refine ⟨by decide +kernel, by decide +kernel⟩

/-- Tier 1 has no bank group to wait for; a block there that its code cannot correct is struck. -/
theorem witness_quiet_and_struck :
    (∀ n, regionNode.QuietAt tier0End n) ∧
    ([(0, EccOutcome.uncorrectable)].filter (fun x => decide (x.1 < 64) && regionNode.codedAt (tier0End + x.1))).find? (fun x => x.2 == .uncorrectable) =
      some (0, .uncorrectable) ∧ ([] : List (Nat × EccOutcome)).filter (fun x => decide (x.1 < 64) && regionNode.codedAt (tier0End + x.1)) = [] := by
  refine ⟨fun n x h _ h3 => absurd h3 (Nat.not_lt.mpr (by rw [show tier0End / 64 * 64 = tier0End from by decide] at h; exact h)), by decide +kernel⟩

/-- A sealed tile of zeros: its two digests where R121 puts them. -/
def zeroTile : List Byte :=
  let d := readDigest (List.replicate (fmtTile 0) 0)
  List.replicate 8 0 ++ leBytes 8 d.1 ++ leBytes 8 d.2 ++ List.replicate (fmtTile 0 - 24) 0

set_option maxRecDepth 1000000 in
theorem witness_RemoteWritesLandWhole :
    (let m := remoteMsg 0x11 4 [1, 2, 3, 4]
     ingressFault .rwrite m 76 = none ∧ (slice m 72 4).length = 4 ∧
     (match regionNode.region 0 (Remote.key m) .rwrite (Remote.off m) (Remote.len m) with
      | .ok g => g.mirror == 0xFFFF && regionNode.firstCheck (g.base + Remote.off m) 4 == none && regionNode.firstSealed (g.base + Remote.off m) 4 == none
      | .error _ => false) = true) ∧
    (let data := zeroTile ++ (zeroTile.drop 8).take 4
     let m := remoteMsg 0x12 (fmtTile 0) data
     ingressFault .rwriteTiles m (72 + data.length) = none ∧ badTile (m.drop 72) (fmtTile (Remote.fmt m)) 1 = none) := by
  refine ⟨⟨by decide +kernel, by decide +kernel, by decide +kernel⟩, by decide +kernel, by decide +kernel⟩

theorem witness_UnknownOpcodesAreRefused :
    ringNode.running = true ∧ ringNode.qp (ringBase + 0) = some ringQp ∧ ringQp.ring = true ∧ ringQp.rkind = 0 ∧ ringNode.fenced = false ∧
    opOf (Msg.opcode [(0x7F : Byte)]) = none := by decide +kernel

/-- A node in service with one context on chip. -/
def quePairNode (q : Qp) : State :=
  { State.reset.setLive Reg.sysBoot 0x4B with que := { QueSt.reset with qps := [(7, q)] } }

/-- The image of a tenant's queue pair asking for a state. -/
def pairImage (st : QpState) : List Byte := ({ Qp.zero with state := st, maxOut := 4, part := 3 }).image 7

theorem witness_QueuePairCommandsFollowTheirTable :
    (∀ st : QpState, (quePairNode { Qp.zero with state := st, maxOut := 4, part := 3 }).Inv) ∧
    (let s := quePairNode Qp.zero; s.running = true ∧ s.inService = true ∧ s.bit Reg.queCmdStatus 0 = false ∧ s.qp 7 = some Qp.zero ∧ s.que.ops = [] ∧
      s.pinnedCount < s.fld Reg.queCfg 10 0) ∧
    (pairImage .ready).length = 256 ∧ imageOk (pairImage .ready) (qpOfImage (pairImage .ready)) = true ∧ (qpOfImage (pairImage .ready)).state = .ready ∧
    (qpOfImage (pairImage .ready)).part = 3 ∧ bitOf (field (pairImage .ready) 0 4) 25 = false ∧
    imageOk (pairImage .drain) (qpOfImage (pairImage .drain)) = true ∧ (qpOfImage (pairImage .drain)).state = .drain ∧
    imageOk (pairImage .init) (qpOfImage (pairImage .init)) = true ∧ (qpOfImage (pairImage .init)).state = .init ∧
    (∀ st ∈ [QpState.ready, .drain, .init], (quePairNode Qp.zero).edgeOk (qpOfImage (pairImage st)) = true ∧ (quePairNode Qp.zero).endpointOk (qpOfImage (pairImage st)) = true) := by
  refine ⟨fun st => ⟨rfl, rfl, rfl, rfl, rfl⟩, by decide +kernel⟩

/-- An endpoint whose certificate lists no partition is not allowed one; the peer of a FENCED pair may be a member, or none. -/
theorem witness_refused_endpoints :
    (let s := { quePairNode { Qp.zero with state := .fenced, part := 3, maxOut := 4 } with sec := { SecSt.reset with endpoints := [(0, [])] } }
     s.Inv ∧ (qpOfImage (pairImage .ready)).ring = false ∧ (qpOfImage (pairImage .ready)).peer = 0 ∧ s.endpointOk (qpOfImage (pairImage .ready)) = false ∧ s.nodeEnt 0 = none) := by
  refine ⟨⟨rfl, rfl, rfl, rfl, rfl⟩, by decide +kernel⟩

theorem witness_pin_limit :
    (let s := (quePairNode { Qp.zero with state := .ready }).setLive Reg.queCfg 0; s.fld Reg.queCfg 10 0 ≤ s.pinnedCount ∧ s.Inv) := by
  refine ⟨by decide, rfl, rfl, rfl, rfl, rfl⟩

/-- The entry of 64 KiB at the start of tier 1, for tenant 0, that may be read and written. -/
def regionEntry : List Byte := leBytes 6 tier0End ++ leBytes 2 0 ++ leBytes 8 65536 ++ leBytes 2 0 ++ leBytes 1 3 ++ leBytes 1 0 ++ leBytes 2 0xFFFF ++ List.replicate 10 0

theorem witness_RegionsAreRegisteredAndDeregistered :
    regionEntry.length = 32 ∧ regionOk regionEntry = true ∧
    (let s := { quePairNode Qp.zero with que := { QueSt.reset with regions := [(1, regionOf regionEntry 0)] } }
     s.Inv ∧ s.running = true ∧ s.inService = true ∧ s.bit Reg.queCmdStatus 0 = false ∧ tabGet s.que.regions 1 = some (regionOf regionEntry 0) ∧
     (regionOf regionEntry 0).valid = true ∧ (regionOf regionEntry 0).part ≠ sysPart ∧ tabGet s.que.regions 2 = none) := by
  refine ⟨by decide +kernel, by decide +kernel, ⟨rfl, rfl, rfl, rfl, rfl⟩, by decide +kernel⟩

/-- A map of one member, node 5, and keeper 9, which leads term 3. -/
def oneMap : MapData :=
  { fabricId := 1, gen := 8, eff := 0, keepers := [5, 9, 11], term := 3, leader := 9, mode := 3, modeNext := none, timeRoot := none, relays := []
    nodes := [(5, ⟨.member, 0, 0, 0, 0, 0, false, 77⟩), (6, ⟨.member, 1, 0, 0, 0, 1, false, 78⟩)], classes := [], slices := [], members := []
    homes := [], loss := [], pools := [], moves := [] }

/-- Node 5 with that map. -/
def mapNode : State :=
  { State.reset with map := { MapSt.reset with id := 5, nodeState := .member, fenced := false, cur := some oneMap, queue := [], fabricId := 1
                                               keeperCount := 3, term := 3, leader := 9, fetching := none } }

/-- The peer of a FENCED pair is a member again. -/
theorem witness_member_again : ∃ e, mapNode.nodeEnt 6 = some e ∧ e.state = .member := ⟨_, rfl, rfl⟩

/-- The header of a message of node 9. -/
def leaderHdr : CtlHdr := ⟨1, 1, 9, 3, 8, 9, 4⟩

theorem witness_OperatorProposalsReachTheLeader :
    mapNode.Inv ∧ mapNode.running = true ∧ mapNode.isLeader = false ∧ mapNode.fld Reg.mapPropStatus 2 0 ≠ 1 ∧ mapNode.bit Reg.timeModeStatus 5 = false ∧
    (let p := (mapNode.setLive Reg.mapPropStatus 1).setLive Reg.timeModeStatus 0x23
     p.Inv ∧ p.running = true ∧ p.isLeader = false ∧ p.fld Reg.mapPropStatus 2 0 = 1 ∧ p.bit Reg.timeModeStatus 5 = true) := by
  refine ⟨⟨rfl, rfl, rfl, rfl, rfl⟩, by decide, by decide, by decide, by decide, ⟨by decide, rfl, rfl, rfl, rfl⟩, by decide +kernel⟩

theorem witness_MessagesOfTheLeaderAreFollowed :
    mapNode.Inv ∧ mapNode.ctlOk leaderHdr = true ∧ leaderHdr.sender ≠ 0x7FF ∧ mapNode.gen = 8 ∧ (mapNode.tip.map (·.gen)).getD 0 = 8 ∧ mapNode.map.cur = some oneMap ∧
    mapNode.map.fetching = none ∧ mapNode.keepers.find? (· != mapNode.map.id) = some 9 ∧ leaderHdr.term = mapNode.map.term ∧ leaderHdr.sender = mapNode.map.leader ∧
    mapNode.isKeeper = true ∧ leaderHdr.gen < mapNode.gen + 2 ∧ mapNode.tip = some oneMap ∧ mapNode.fromLeader leaderHdr = true ∧
    (mapNode.map.queue ++ mapNode.map.cur.toList).find? (fun m => m.gen == 8) = some oneMap ∧
    leaderHdr.bodyGen = (oneMap.next 4 leaderHdr.term leaderHdr.sender []).gen ∧ mapNode.map.seen.contains 9 = false ∧ mapNode.NotBehind 9 ∧ mapNode.NotBehind leaderHdr.gen ∧
    (let h := { leaderHdr with term := 4 }; mapNode.ctlOk h = true ∧ mapNode.map.term < h.term) := by
  refine ⟨⟨rfl, rfl, rfl, rfl, rfl⟩, ?_⟩
  unfold State.NotBehind
  decide +kernel

theorem witness_refused_proposal :
    (let c : Change := ⟨5, 6, 0, 0, 0, 5⟩
     let s := { mapNode with map := { mapNode.map with own := some (c, 1), ownMode := none } }
     s.Inv ∧ s.ctlOk leaderHdr = true ∧ s.fromLeader leaderHdr = true ∧ c.serial = 0) := ⟨⟨rfl, rfl, rfl, rfl, rfl⟩, by decide⟩

/-- Node 5 as the leader of the term. -/
def leadNode : State := { mapNode with map := { mapNode.map with leader := 5, votes := [], proposals := [], accepted := none } }

theorem witness_ElectionsAndTheLeadersWork :
    mapNode.Inv ∧ mapNode.running = true ∧ mapNode.isKeeper = true ∧ mapNode.map.leader ≠ mapNode.map.id ∧ mapNode.map.election = none ∧ mapNode.isLeader = false ∧
    (let s := { mapNode with map := { mapNode.map with election := some 5, voted := 4, votes := [5], own := none, ownMode := some (0, 9) } }
     s.Inv ∧ s.map.election = some 5 ∧ s.map.votes ≠ [] ∧ s.majority (setInsert s.map.votes 9).length = true ∧ s.majority (setInsert s.map.votes 5).length = false) ∧
    (let h := { leaderHdr with term := 4 }; mapNode.ctlOk h = true ∧ h.sender ∈ mapNode.keepers ∧ mapNode.map.term < h.term ∧ mapNode.map.voted < h.term ∧
      mapNode.lastAccepted ≤ 8) := by
  refine ⟨⟨rfl, rfl, rfl, rfl, rfl⟩, by decide, by decide, by decide, by decide, by decide, ⟨⟨rfl, rfl, rfl, rfl, rfl⟩, by decide⟩, by decide⟩

theorem witness_leaders_work :
    leadNode.Inv ∧ leadNode.ctlOk leaderHdr = true ∧ leadNode.isLeader = true ∧ leadNode.tip = some oneMap ∧
    leadNode.proposalCode oneMap ⟨10, 6, 0, 0, 3, 9⟩ = 0 ∧ leadNode.proposalCode oneMap ⟨10, 7, 0, 0, 3, 9⟩ ≠ 0 ∧
    leadNode.majority (setInsert [5] 9).length = true ∧ leadNode.majority (setInsert [] 9).length = false ∧
    leaderHdr.sender ∈ leadNode.keepers ∧ leaderHdr.bodyGen = 9 ∧ leadNode.NotBehind leaderHdr.gen ∧
    (let s := { leadNode with map := { leadNode.map with proposals := [(⟨10, 6, 0, 0, 3, 9⟩, 4)] } }
     s.Inv ∧ s.isLeader = true ∧ s.map.proposals = [(⟨10, 6, 0, 0, 3, 9⟩, 4)] ∧ (9 : Nat) ≠ s.map.id ∧ s.map.own = none ∧ s.map.ownMode = none ∧ s.map.prepared = none) ∧
    (let p : Prepared := ⟨9, 0, [], oneMap, [5]⟩
     ∀ m ∈ [704, 767], let s := { leadNode with now := 1024 * m, map := { leadNode.map with prepared := some p } }
       s.Inv ∧ s.ctlOk leaderHdr = true ∧ s.isLeader = true ∧ s.map.cur = some oneMap ∧ 704 ≤ s.minute ∧ s.minute < 768 ∧ oneMap.ordered = true) ∧
    ({ mapNode with map := { mapNode.map with own := some (⟨5, 6, 0, 0, 0, 5⟩, 1), ownMode := none } }).reachable 9 = false := by
  refine ⟨⟨rfl, rfl, rfl, rfl, rfl⟩, by decide, by decide, rfl, by decide +kernel, by decide +kernel, by decide, by decide, by decide +kernel, rfl, Or.inr (by decide),
    ⟨⟨rfl, rfl, rfl, rfl, rfl⟩, by decide⟩, ?_, by decide +kernel⟩
  intro p m hm
  exact ⟨⟨rfl, rfl, rfl, rfl, rfl⟩, rfl, rfl, rfl, by revert m; decide +kernel⟩

theorem witness_SuspicionJoinAndTransfers :
    leadNode.Inv ∧ leadNode.running = true ∧ leadNode.ctlOk leaderHdr = true ∧ leadNode.isLeader = true ∧ leadNode.tip = some oneMap ∧
    (tabGet oneMap.nodes 6).any (fun e => e.serves) = true ∧
    oneMap.seatTaken 99 ⟨.candidate, 15, 7, 7, 63, 16, false, 99⟩ = false ∧ oneMap.seatTaken 99 ⟨.candidate, 4, 4, 4, 2, 3, false, 99⟩ = false ∧ leadNode.NotBehind leaderHdr.gen ∧
    (let s := { mapNode with map := { mapNode.map with fetching := some (9, 4096) } }
     s.Inv ∧ s.map.cur ≠ none ∧ (s.tip.map (·.gen)).getD 0 ≤ oneMap.gen ∧ oneMap.fabricId = s.map.fabricId) ∧
    mapNode.fenced = false ∧ mapNode.findSeq 2 7 = none ∧ (mapNode.freeSeqSlot 2 7).isSome = true := by
  refine ⟨⟨rfl, rfl, rfl, rfl, rfl⟩, by decide, by decide, by decide, rfl, by decide, by decide, by decide, Or.inr (by decide),
    ⟨⟨rfl, rfl, rfl, rfl, rfl⟩, by decide⟩, by decide +kernel⟩

/-- A link that is UP to node 6. -/
def upLink : Link := { Link.down with state := LState.up, partnerId := 6, lastPartner := 6, partnerIdent := 78, keyed := [8], sendGen := 8 }

/-- A sequence of one layer without pages, as it travels. -/
def movedSeq : SeqRec := ⟨0, 0, 0, 2, 7, 0, true, false, false, 0, 6, [LayerRec.empty 1]⟩

theorem witness_silence_and_transfer :
    (let s := { mapNode with lnk := { mapNode.lnk with links := [(0, upLink)] } }
     s.Inv ∧ s.map.cur ≠ none ∧ s.fenced = false ∧ (∃ l ∈ s.lnk.links, l.2.lastPartner = 6) ∧ tabGet s.map.lastSuspect 6 = none ∧ s.isLeader = false) ∧
    movedSeq.layers ≠ [] ∧ movedSeq.home = true ∧ movedSeq.listed.filter (fun p => p.2.state == .tail || p.2.state == .reserved) = [] :=
  ⟨⟨⟨rfl, rfl, rfl, rfl, rfl⟩, by decide, by decide, ⟨_, List.mem_singleton.mpr rfl, rfl⟩, by decide, by decide⟩, by decide +kernel⟩

/-- A node with one link in a state. -/
def linkNode (l : Link) : State := { State.reset with lnk := { LnkSt.reset with links := [(3, l)], held := [] } }

theorem witness_LinksTrainKeyAndComeUp :
    (∀ l : Link, (linkNode l).Inv ∧ (linkNode l).lnk.held = [] ∧ (linkNode l).link 3 = l ∧ (linkNode l).regs.pend = [] ∧
      (linkNode l).bit (Reg.lnkPortCfg + 4 * 3) 0 = true ∧ (linkNode l).partActed (Part.link 3) = false ∧ (linkNode l).cabled 3 6 11 = true) ∧
    ({ Link.down with state := LState.align, keyed := [8] }).keyed ≠ [] ∧ Link.down.keyed = [] ∧ (linkNode Link.down).map.fabricId = 0 ∧
    (let s := { mapNode with lnk := { LnkSt.reset with links := [(3, { Link.down with state := LState.align })], held := [] } }
     s.cabled 3 6 11 = true ∧ s.cabled 3 6 12 = false ∧ s.Inv) := by
  refine ⟨fun l => ⟨⟨rfl, rfl, rfl, rfl, rfl⟩, rfl, rfl, rfl, by show State.reset.bit _ _ = true; decide +kernel, rfl, rfl⟩, by decide, rfl, by decide, by decide +kernel, by decide +kernel,
    ⟨rfl, rfl, rfl, rfl, rfl⟩⟩

/-- A link UP with the keys of generation 8 that expects fseq 5. -/
def busyLink : Link := { Link.down with state := LState.up, keyed := [8], sendGen := 8, rxSeq := 5 }

/-- A node that is a member of a fabric, with one link in a state. -/
def memberNode (l : Link) : State := { linkNode l with map := { MapSt.reset with nodeState := .member, fenced := false } }

/-- A DATA frame of generation 8: fseq and payload. -/
def dataOf (fseq : Nat) (payload : List Byte) : Frame :=
  { vc := 0, len := 1, epoch := 8, fseq := fseq, ack := 0, txCount := 1, half := 0, lflags := 0, credits := List.replicate 10 0, payload := payload, tagOk := true
    fecCorrected := 0, fecBad := 0 }

/-- A packet of 4 bytes for the node 0x7FF that has no map. -/
def smallPacket : Packet := ⟨0x7FF, 6, 0xFFFF, 3, 0, 8, List.replicate 16 0, [1, 2, 3, 4]⟩

theorem witness_FramesMoveInOrderAndAreResent :
    (∀ l, (linkNode l).Inv ∧ (linkNode l).link 3 = l) ∧ busyLink.state = LState.up ∧ busyLink.admits (dataOf 5 []) = some 8 ∧ busyLink.admits (dataOf 6 []) = some 8 ∧
    packetOf (RxVc.idle.raw ++ ([7, 8] : List Byte).drop RxVc.idle.skip) = none ∧
    (packetOf (RxVc.idle.raw ++ smallPacket.bytes)).map (·.1.dst) = some (linkNode busyLink).map.id ∧ (linkNode busyLink).map.id < 0x8000 ∧
    (memberNode busyLink).ctlOnly 3 = false ∧ (memberNode busyLink).map.id = (linkNode busyLink).map.id ∧ byteAt smallPacket.transport 3 < 6 ∧ busyLink.again = [] ∧ busyLink.fenced = false ∧
    busyLink.admits { dataOf 5 [] with tagOk := false } = none ∧ 8 ∈ busyLink.keyed.map (· % 256) ∧
    busyLink.admits { dataOf 5 [] with epoch := 9 } = none ∧ 9 ∉ busyLink.keyed.map (· % 256) ∧ busyLink.gap = false ∧ busyLink.resend = [] ∧ busyLink.ready = [] := by
  refine ⟨fun l => ⟨⟨rfl, rfl, rfl, rfl, rfl⟩, rfl⟩, rfl, ?_⟩
  decide +kernel

/-- That link with a frame of a packet of this node kept. -/
def keptLink (resends : Nat) : Link := { busyLink with kept := [⟨2, 0, [9], 0, smallPacket, true, [], true⟩], resend := [2], resends := resends }

theorem witness_frames_kept_and_ready :
    (keptLink 1).kept ≠ [] ∧ (keptLink 1).kept.find? (fun f => f.fseq == 2) = some ⟨2, 0, [9], 0, smallPacket, true, [], true⟩ ∧ (linkNode (keptLink 1)).mayLeave true smallPacket = true ∧
    ({ linkNode (keptLink 1) with map := { MapSt.reset with fenced := true } } : State).mayLeave true smallPacket = false ∧
    (∀ k, (linkNode (keptLink k)).Inv) ∧ 1 < (linkNode (keptLink 1)).fld Reg.lnkRetryCfg 15 12 ∧ (linkNode (keptLink 15)).fld Reg.lnkRetryCfg 15 12 ≤ 15 ∧
    (let l := { busyLink with txq := [(true, smallPacket)] }
     let s := memberNode l
     (l.ready.find? (fun c => s.mayCarry 3 c.2 && l.hasCredit c.1 (s.nextLen 3 c.1 c.2.2))).isSome = true ∧ l.fenced = false ∧ l.kept.length < 64) ∧
    (let s := { State.reset with lnk := { LnkSt.reset with held := [(0, (true, smallPacket), 0)] } }; s.Inv ∧ (s.lnk.held.find? (fun h => h.1 == 0)).isSome = true) := by
  refine ⟨by decide, by decide, by decide, by decide, fun k => ⟨rfl, rfl, rfl, rfl, rfl⟩, by decide +kernel, by decide +kernel, by decide +kernel, ⟨rfl, rfl, rfl, rfl, rfl⟩, rfl⟩

/-- A node with that link, which takes part in time transfer. -/
def timeLinkNode (state : Nat) : State :=
  { (State.reset.setLive Reg.timeCfg 8) with time := { TimeSt.reset with acquired := true }, lnk := { LnkSt.reset with links := [(2, { busyLink with state := state })] } }

theorem witness_TimeFramesTellOfThePartner :
    (∀ st ∈ [LState.up, LState.miswired], let s := timeLinkNode st
      s.running = true ∧ (s.link 2).state = st ∧ s.time.acquired = true ∧ s.bit Reg.timeCfg 3 = true ∧
      (∀ bad ∈ [0, 1], let u := if (s.link 2).state = LState.up then s.fecCount 2 3 bad else s
        (u.link 2).state = st ∧ (u.link 2).admits (dataOf 0 []) = some 8 ∧ (u.link 2).admits { dataOf 0 [] with tagOk := false } = none) ∧
      bitOf (dataOf 0 []).lflags 0 = false) := by decide +kernel

/-- A node whose Wecia Link is UP, with some packets kept. -/
def hostNode (kept : List HostPkt) : State := { State.reset with hst := { HstSt.reset with state := LState.up, kept := kept } }

theorem witness_WeciaLinkTrainsAndKeepsOrder :
    (∀ st, ({ State.reset with hst := { HstSt.reset with state := st } } : State).Inv) ∧ HstSt.reset.txq = [] ∧ HstSt.reset.kept = [] ∧ HstSt.reset.gap = false ∧
    HstSt.reset.rxSeq = 0 ∧
    (let s := hostNode [⟨0, 3, 0, 0, 0, 0, []⟩]
     let freed := (s.hst.takeAck 4095 s.now).takeCredits ⟨0, 4095, 0, 0, 0⟩
     s.Inv ∧ s.NoneComesOrLeaves ∧ s.running = true ∧ s.hst.state = LState.up ∧ s.hst.kept ≠ [] ∧ freed.kept ≠ [] ∧ freed.resends < 8 ∧ s.hst.resends < 8 ∧ s.hst.fecMinute + 0 ≤ s.fld Reg.lnkRetryCfg 23 16 ∧ s.fld Reg.lnkRetryCfg 23 16 < s.hst.fecMinute + 256) :=
  ⟨fun _ => ⟨rfl, rfl, rfl, rfl, rfl⟩, rfl, rfl, rfl, rfl, ⟨rfl, rfl, rfl, rfl, rfl⟩, ⟨rfl, rfl⟩, by decide⟩

/-- A host node with one ring as ring 0. -/
def hostRingNode (q : Qp) : State := { hostNode [] with que := { QueSt.reset with qps := [(ringBase, q)] } }

theorem witness_HostAccessesRingsAndCompletions :
    (hostNode []).Inv ∧ (hostNode []).running = true ∧ (hostNode []).hst.state = LState.up ∧ (hostNode []).hst.rxSeq = 0 ∧ (hostNode []).fnEnabled 0 = true ∧
    (hostNode []).fnMemory 0 = true ∧ (hostNode []).fnMemory 1 = false ∧ (hostNode []).firstCheck tier0End 4 = none ∧ (hostNode []).firstProtected tier0End 4 = none ∧
    (hostNode []).firstSealed tier0End 4 = none ∧ tier0End + 4 ≤ flatEnd ∧
    (let q := { ringQp with rlog2 := 6, msgOwed := true }
     (hostRingNode q).Inv ∧ (hostRingNode q).qp (ringBase + 0) = some q ∧ q.rfn = 0 ∧ q.rkind = 0 ∧ (5 + 2 ^ 32 - q.rhead % 2 ^ 32) % 2 ^ 32 ≤ q.ringSize ∧
     q.ringSize < (65 + 2 ^ 32 - q.rhead % 2 ^ 32) % 2 ^ 32 ∧ (hostRingNode q).hst.postedOut + 9 ≤ (hostRingNode q).hst.postedIn + 2048) ∧
    (let q := { ringQp with rlog2 := 6, rkind := 2 }
     let s := { hostRingNode q with hlt := { HltSt.reset with evidence := [List.replicate 256 0] } }
     s.Inv ∧ s.evidenceRing = some (ringBase, q) ∧ s.qp ringBase = some q ∧ q.ringUsed < q.ringSize) ∧
    (let x : HostRd := ⟨.container, 0, 0, 0, [], 8, 8⟩
     let s := { hostNode [] with hst := { (hostNode []).hst with reads := [(0, x)] } }
     s.Inv ∧ tabGet s.hst.reads 0 = some x ∧ ([1] : List Byte).length < x.left ∧ s.que.waitFetch = [] ∧ s.que.qps = []) := by
  refine ⟨⟨rfl, rfl, rfl, rfl, rfl⟩, by decide, rfl, rfl, by decide, by decide +kernel, by decide +kernel, by decide +kernel, by decide +kernel, by decide +kernel, by decide,
    ⟨⟨rfl, rfl, rfl, rfl, rfl⟩, by decide⟩, ⟨⟨rfl, rfl, rfl, rfl, rfl⟩, by decide⟩, ⟨⟨rfl, rfl, rfl, rfl, rfl⟩, by decide⟩⟩

/-- A READY system queue pair with one request outstanding. -/
def sentQp : Qp := { Qp.zero with state := .ready, part := sysPart, peer := 6, maxOut := 4, sndNext := 1, sent := [⟨0, 0, 0, [1], 0, false⟩], deadline := some 100, nrWait := none }

/-- A packet for it. -/
def sentPkt (hint : Nat) : Tpkt := ⟨6, 3, 2, 0, 0, sysPart, hint, 3, []⟩

theorem witness_TransportAcknowledgesRetriesAndAnswers :
    (let s := { State.reset with que := { QueSt.reset with qps := [(3, sentQp)] } }
     s.Inv ∧ s.running = true ∧ s.qp 3 = some sentQp ∧ sentQp.state = .ready ∧ (sentPkt 1).dqp = 3 ∧ bitOf (sentPkt 1).tflags 2 = false ∧
     (sentPkt 1).part = sentQp.part ∧ sentQp.sent.filter (fun m => psnLe m.psn (sentPkt 1).psn) ≠ [] ∧ (sentPkt 1).hint % 256 = 1 ∧ (sentPkt 2).hint % 256 = 2 ∧
     s.que.ops = [] ∧ s.que.fetches = [] ∧ s.que.named = [] ∧ s.que.later = [] ∧ (sentPkt 1).psn % 2 ^ 24 = sentQp.rcvNext ∧ s.opOfReply 3 [] = none ∧ sentQp.retries < 7) ∧
    (let q := { sentQp with retries := 7, nrWait := some (9, 0) }
     q.state = .ready ∧ q.deadline = some 100 ∧ 7 ≤ q.retries ∧ q.nrWait = some (9, 0)) := ⟨⟨⟨rfl, rfl, rfl, rfl, rfl⟩, by decide⟩, by decide⟩

/-- A held request of class 2 in bucket 0: an ATTEST unless its message says otherwise. -/
def heldReq (m : List Byte) : Req :=
  { rid := 4, arr := ⟨.qp, 9, 0, 0, 72, false, 0, 0, []⟩, msg := m, cls := 2, urgent := false, cost := 3, bucket := 0, tAdmit := 0, notBefore := 0, evEntry := false, heldMove := false, counted := false, turns := none, gen := none, stream := 0 }

/-- An ATTEST of tenant 0. -/
def attestMsg : List Byte := leBytes 1 8 ++ List.replicate 71 0

/-- In service in NOON at the middle of a minute; minute 1 is class 2's, minute 2 SHARED; quotas 100. -/
def dialNode (minute : Nat) : State :=
  let s := ((((State.reset.setLive Reg.sysBoot 0x4B).setLive Reg.timeModeStatus 0).setLive Reg.timeDial 0x001E0200).setLive (Reg.schClassCfg + 8) 100).setLive Reg.schCfg 100
  { s with now := 1024 * minute + 512, sch := { SchSt.reset with held := [heldReq attestMsg] } }

theorem witness_CalendarsReleaseWithinTheirBudget :
    (let s := dialNode 1
     s.Inv ∧ s.dispatching = true ∧ s.mode ≠ 3 ∧ s.owner = 2 ∧ (s.calNow 2).stopped = false ∧ (heldReq attestMsg).op = .attest ∧
     s.headAfter 2 (s.calNow 2).last = some (0, heldReq attestMsg) ∧ (heldReq attestMsg).cost ≤ (s.calNow 2).budget) := by
  refine ⟨⟨by decide, rfl, rfl, rfl, rfl⟩, ?_⟩
  decide +kernel

theorem witness_calendar_stops_or_is_empty :
    (let s := { dialNode 1 with sch := { (dialNode 1).sch with cals := [(2, ⟨9, 1, 1, false⟩)] } }
     s.Inv ∧ (s.calNow 2).stopped = false ∧ (s.calNow 2).budget < (heldReq attestMsg).cost ∧ (s.calNow 2).budget < s.fld (Reg.schClassCfg + 8) 19 0 ∧
     s.headAfter 2 (s.calNow 2).last = some (0, heldReq attestMsg)) ∧
    (let s := { dialNode 1 with sch := SchSt.reset }; s.headAfter 2 (s.calNow 2).last = none) := by
  refine ⟨⟨⟨by decide, rfl, rfl, rfl, rfl⟩, ?_⟩, ?_⟩ <;> decide +kernel

theorem witness_shared_release :
    (let s := dialNode 2
     s.Inv ∧ s.dispatching = true ∧ s.owner = Owner.shared ∧ s.fld Reg.schCfg 19 0 ≠ 0 ∧ s.sch.sharedMinute ≠ s.minutes ∧
     ((List.range 24).map (fun i => (s.sch.sharedLast + 1 + i) % 24)).find? (fun c => !s.isolated c && !(s.ready c).isEmpty) = some 2 ∧
     s.headAfter 2 (s.cal 2).last = some (0, heldReq attestMsg)) := by
  refine ⟨⟨by decide, rfl, rfl, rfl, rfl⟩, ?_⟩
  decide +kernel

/-- A dispatched request with one leaf for the hub. -/
def openRun (st : JobSt) : Run :=
  { req := heldReq attestMsg, tDispatch := 0, lens := [], q := [], jobs := [⟨0, 0, 0, .sealed [] [], (0, 0), 0, false, ⟨false, 0, 0, 0, 0, 0⟩, .hub, st, []⟩], remote := []
    stalls := [], causes := [], held := false, needs := [], blocks := [], prov := false, serial := 0, reserve := none, status := 0, detail := 0, length := 0, attends := true, redo := false, base := 0, groups := [], stalled := false
    rebuildDiffers := false, gen := 0, program := [], weights := [], output := [] }

/-- A node of class 2's minute with one dispatched request. -/
def runNode (r : Run) : State := { dialNode 1 with sch := { SchSt.reset with runs := [r] } }

/-- A sequence with one layer, of one head whose page 0 is a tail, and a provisional set. -/
def provSeq : SeqRec := ⟨0, 0, 0, 0, 0, 2, true, false, false, 0, 0x7FF,
  [⟨5, some ⟨1, 5, [], none, 2, some 7⟩, [], 0, [{ HeadRec.empty with pages := [(0, { Pte.free with state := .tail })] }]⟩]⟩

/-- An APPEND at position 5. -/
def appendMsg : List Byte := leBytes 1 1 ++ List.replicate 39 0 ++ leBytes 8 5 ++ List.replicate 40 0

theorem witness_HoldsAndStallsEnd :
    (∀ r : Run, r.req = heldReq attestMsg → (runNode r).Inv) ∧ (runNode (openRun .issued)).run 4 = some (openRun .issued) ∧
    (∃ j ∈ (openRun .issued).jobs, j.st ≠ .done) ∧ (openRun .issued).req.op ≠ .verify ∧
    (let r := { openRun .waiting with stalls := [(Stall.tableRepair, 0)] }
     (runNode r).run 4 = some r ∧ (runNode r).dispatching = true ∧ (runNode r).mode ≠ 3 ∧ (runNode r).owner = r.req.cls ∧ (runNode r).stallOver r .tableRepair = true ∧
     r.redo = false ∧ r.held = false ∧ (∀ j ∈ r.jobs, ∀ k v c, j.src ≠ .tail k v c) ∧ (runNode r).groupOfRun 4 = none) ∧
    (openRun .issued).stalls.any (fun x => x.1 == Stall.tableRepair) = false ∧
    ({ openRun .issued with stalls := [(Stall.tableRepair, 0)] } : Run).stalls.any (fun x => x.1 == Stall.tableRepair) = true ∧
    (let r := { openRun .issued with reserve := some (0, 0, 9999) }
     let s := { runNode r with pgw := { PgwSt.reset with seqs := [provSeq] } }
     s.run 4 = some r ∧ s.now < 9999 ∧ s.findSeq (Msg.tenant r.req.msg) (Msg.sid r.req.msg) = some provSeq ∧ provSeq.serial = r.serial ∧ r.stalls = [] ∧
     (provSeq.layer 0).heads.all (fun h => (h.page 0).state != .free) = true ∧ s.homeSeq 0 0 = some provSeq ∧ (provSeq.layer 0).prov = some ⟨1, 5, [], none, 2, some 7⟩) ∧
    (let s := { dialNode 1 with sch := { SchSt.reset with spareWait := [(heldReq appendMsg, 0)] } }
     s.Inv ∧ s.sch.order = [] ∧ s.sch.replies = [] ∧ s.spareWaiter 4 = some (heldReq appendMsg, 0) ∧ s.map.cur = none ∧ (heldReq appendMsg).op = .append ∧ AppendP.rebuild appendMsg 40 = false ∧
     AppendP.pos appendMsg 40 ≠ 0 ∧ s.findSeq (Msg.tenant appendMsg) (Msg.sid appendMsg) = none ∧ (shapeOf (Msg.shape appendMsg)).heads ≤ s.freeSpares) := by
  refine ⟨fun _ _ => ⟨(by decide : regsCanonical (dialNode 1).regs.live = true), rfl, rfl, rfl, rfl⟩, rfl, ⟨_, List.mem_singleton.mpr rfl, by decide⟩, by decide, ⟨rfl, by decide +kernel, by decide +kernel, by decide +kernel, rfl, rfl, rfl, by simp [openRun], rfl⟩, rfl, rfl,
    ⟨rfl, by decide, rfl, rfl, rfl, by decide, rfl, rfl⟩, ⟨⟨by decide, rfl, rfl, rfl, rfl⟩, by decide +kernel⟩⟩

/-- A pair of two short tiles whose digests are whole. -/
def wholePair : Pair :=
  let dg := readDigest (List.replicate 24 0)
  let tile : List Byte := List.replicate 8 0 ++ leBytes 8 dg.1 ++ leBytes 8 dg.2
  ⟨tile, tile⟩

/-- Page 0 of tenant 0's sequence 0, sealed in tier 0 with one pair, which lies in a unit. -/
def sealedPte (u : Nat) : Pte :=
  { Pte.free with state := .sealed, locs := [u * 2 ^ 19 + 80000], pairs := [wholePair], checkK := [checkWord wholePair.k], checkV := [checkWord wholePair.v] }

/-- The sequence of that page. -/
def sealedSeq (u : Nat) : SeqRec := { provSeq with layers := [⟨16, none, [], 0, [{ HeadRec.empty with pages := [(0, sealedPte u)] }]⟩] }

/-- That page's pair as an entry. -/
def pairEnt : BurstEntry := .tile false 0 0 0 0 0 0

/-- A tile of it. -/
def tileOfPair (u : Nat) (isV : Bool) : TileEnt := ⟨pairEnt, isV, u * 2 ^ 19 + 80000, 0, 0, 1, []⟩

/-- A burst of its two tiles. -/
def oneBurst (u : Nat) (kind : BurstKind) (urgent : Bool) : Burst :=
  { id := 1, kind := kind, urgent := urgent, cls := 2, chain := false, startTick := 0, endPlan := 0, slots := [], tiles := [tileOfPair u false, tileOfPair u true], pos := 0, rows := [] }

/-- A node whose first dial minute belongs to an owner, with that sequence, one unit of which holds something. -/
def tileNode (owner u : Nat) (v : VUnit) : State :=
  { (dialNode 1).setLive Reg.timeDial (256 * owner) with pgw := { PgwSt.reset with seqs := [sealedSeq u] }, vsp := { VspSt.reset with units := [(u, v)] } }

theorem witness_tile_node :
    (∀ o ∈ [2, 4, 28, 29], regsCanonical (tileNode o 3 VUnit.idle).regs.live = true) ∧
    (∀ o v, (tileNode o 3 v).unit 3 = v ∧ keysRise (tileNode o 3 v).vsp.units = true ∧ (tileNode o 3 v).masked 3 = false ∧ (tileNode o 3 v).mem.flat = [] ∧
      (tileNode o 3 v).regs.staged = [] ∧ (tileNode o 3 v).regs.run = [] ∧ (tileNode o 3 v).sys = SysSt.reset) :=
  ⟨by decide, fun _ _ => ⟨rfl, rfl, rfl, rfl, rfl, rfl, rfl⟩⟩

theorem witness_bursts_start :
    inRefresh 3 (tileNode 2 3 VUnit.idle).now = false ∧ VUnit.idle.plan = [] ∧ VUnit.idle.cur = none ∧ VUnit.idle.curU = none ∧
    (∀ urg : Bool,
      let b := oneBurst 3 .attend urg
      let v := if urg then { VUnit.idle with urgentQ := [b] } else { VUnit.idle with normal := [b] }
      let s := tileNode 2 3 v
      b.urgent = urg ∧ v.normal.find? (fun x => x.kind == .attend) = (if urg then none else some b) ∧ s.mayStart b = true ∧ s.plannable 3 s.now b ≠ 0 ∧
        (tileNode 4 3 v).mayStart b = false) ∧
    (tileNode 2 13 VUnit.idle).plannable 13 (tileNode 2 13 VUnit.idle).now (oneBurst 13 .attend false) = 0 ∧
    inRefresh 13 (tileNode 2 13 VUnit.idle).now = false := by
  refine ⟨by decide, rfl, rfl, rfl, ?_⟩
  decide +kernel

/-- A burst of one tile whose 8 slots take longer than MORNING lets a burst be. -/
def longBurst : Burst :=
  let slot : BurstSlot := { rid := 4, cand := 0, head := 0, tenant := 0, shape := 0x402, sigma := 0, qPos := 0, window := 0, lo := 0, hi := 0, mflags := 0, len := 16, q := [] }
  { oneBurst 3 .attend true with urgent := false, slots := List.replicate 8 slot, tiles := [{ tileOfPair 3 true with mask := 255 }] }

theorem witness_too_long :
    (let v := { VUnit.idle with normal := [longBurst] }
     let s := { tileNode 2 3 v with time := { (tileNode 2 3 v).time with clockMode := 1 } }
     s.masked 3 = false ∧ inRefresh 3 s.now = false ∧ longBurst.urgent = false ∧ v.normal.find? (fun x => x.kind == .attend) = some longBurst ∧ s.mayStart longBurst = true ∧
       s.tooLong longBurst = true) ∧ (tileNode 2 3 VUnit.idle).tooLong (oneBurst 3 .attend false) = false := by decide +kernel

/-- A unit with that burst in its normal context, its clock at a count, some row-sets of a tile still to be read. -/
def runsAt (tick : Nat) (rows : List Nat) (b : Burst) : VUnit := { VUnit.idle with cur := some { b with rows := rows }, clock := vUnit * tick }

theorem witness_bursts_run_on :
    (let b := oneBurst 3 .attend false
     (∀ t rows, (runsAt t rows b).running = some { b with rows := rows } ∧ (runsAt t rows b).stopped = false ∧ (runsAt t rows b).plan = []) ∧
     b.tiles[b.pos]? = some (tileOfPair 3 false) ∧
     (let v := { runsAt 1536 [] b with urgentQ := [oneBurst 3 .attend true] }
      let s := tileNode 2 3 v
      let x := s.advanceTo (ceilDiv v.clock vUnit)
      s.bit Reg.vspBurstCfg 13 = true ∧ vUnit * s.now ≤ v.clock ∧ inRefresh 3 x.now = false ∧ x.mayStart (oneBurst 3 .attend true) = true ∧
        x.plannable 3 x.now (oneBurst 3 .attend true) ≠ 0) ∧
     (let s := tileNode 2 3 (runsAt 2980 [] b)
      s.entProtected 3 (tileOfPair 3 false) = false ∧ s.tileOcc b (tileOfPair 3 false) ≠ 0 ∧
        s.fitsRefresh 3 (vUnit * 2980) (s.tileOcc b (tileOfPair 3 false)) = false ∧ s.entProtected 3 { tileOfPair 3 false with loc := 3 * 2 ^ 19 } = true ∧
        s.fitsRefresh 3 (vUnit * 2980) 16 = false ∧ s.fitsRefresh 3 (vUnit * 1536) 16 = true)) := by
  refine ⟨fun t rows => ⟨rfl, rfl, rfl⟩, rfl, ?_⟩
  decide +kernel

theorem witness_UnitsScrubAndMove :
    (let s := tileNode 28 3 VUnit.idle
     (s.masked 3 = false ∧ inRefresh 3 s.now = false ∧ VUnit.idle.busy = false ∧ isGuard s.now = false ∧ s.running = true) ∧ s.bit Reg.vspScrubCfg 0 = true ∧
       s.owner = Owner.scrub ∧ VUnit.idle.passPos = some 0 ∧ s.scrubTodo 3 = [(80000, pairEnt)] ∧ ((s.scrubTodo 3).map Prod.fst).Nodup ∧ ((s.scrubTodo 3).map Prod.snd).Nodup ∧ s.scrubTodo 4 = [] ∧ s.vsp.passEnded.contains 5 = false ∧
       VUnit.idle.returns.any (fun r => r.kind == .scrub) = false) ∧
    (∀ u ∈ [3, 13], let s := tileNode 28 u VUnit.idle
     let b0 := mkBurst (s.vsp.nextBurst % 65536) .scrub false 0 false ((s.pack .scrub false 8 ((s.scrubTodo u).flatMap (fun x => s.planItems .scrub 1 x.2)) []).headD [])
     (s.plannable u s.now { b0 with tiles := b0.tiles.take (2 * (b0.tiles.length / 2)) } = 0 ↔ u = 13)) ∧
    (∀ u ∈ [3, 13], let b := oneBurst u .move false
     let s := tileNode 29 u { VUnit.idle with normal := [b] }
     s.owner = Owner.migrate ∧ (s.unit u).normal.find? (fun x => x.kind == .move) = some b ∧ b.urgent = false ∧ (s.plannable u s.now b = 0 ↔ u = 13)) := by
  decide +kernel

theorem witness_AccessesAreServed :
    (let s := tileNode 28 3 VUnit.idle
     let a := 2 * 2 ^ 36 + 3 * 2 ^ 11
     s.goesOn 3 (some (vUnit * s.now)) = false ∧ (tileNode 28 3 (runsAt 1536 [] (oneBurst 3 .scrub false))).goesOn 3 (some (vUnit * s.now)) = false ∧
       a < tier0End ∧ (tier0Decode a).1 = 3 ∧ (runsAt 1536 [] (oneBurst 3 .scrub false)).busy = true ∧ inRefresh 3 s.now = false ∧
       (∀ x ∈ [a, 0x9000000040, flatEnd - 64], x + 64 ≤ flatEnd ∧ s.firstCheck x 64 = none ∧ s.firstCheck x 1 = none ∧ s.firstSealed x 1 = none) ∧
       s.codedAt a = true ∧ s.codedAt (a + 2 ^ 35) = false ∧ s.firstCheck (a + 2 ^ 35) 64 = none ∧ s.codedAt 0x9000000040 = true ∧ s.refreshDue 3 = false ∧
       0x6000C0 + 64 ≤ flatEnd ∧ s.firstCheck 0x6000C0 64 ≠ none ∧ s.firstCheck 0x6000C0 1 ≠ none ∧ flatEnd < flatEnd - 63 + 64 ∧ ¬0x9000000040 < tier0End) ∧
    (∀ src : Nat, let w : List Access := [⟨src, true, 0x9000000040, [7], .clean⟩]
      src ∈ [0, 4, 8] → (byRank w).head? = some ⟨src, true, 0x9000000040, [7], .clean⟩ ∧ min 1 (min w.length ((tileNode 28 3 VUnit.idle).fld Reg.vspBurstCfg 19 16)) = 1) ∧
    (byRank [⟨0, true, 0, [], .clean⟩, ⟨8, true, 1, [], .clean⟩, ⟨4, true, 2, [], .clean⟩]).map (·.source) = [4, 8, 0] := by
  refine ⟨?_, ?_, ?_⟩
  · decide +kernel
  · intro src w h
    revert src
    decide +kernel
  · decide

/-- A unit with a window open after a row-set read, one access served in it. -/
theorem witness_window_joined :
    (let v := { runsAt 1560 [] (oneBurst 3 .scrub false) with window := some (vUnit * 1560, 1) }
     let s := tileNode 28 3 v
     s.goesOn 3 (some (vUnit * s.now)) = false ∧ vUnit * s.now ≤ vUnit * 1560 ∧ 1 < s.fld Reg.vspBurstCfg 19 16 ∧ s.fitsRefresh 3 (vUnit * 1560) 4 = true ∧ v.busy = true ∧ v.plan = []) ∧
    (let v := { VUnit.idle with waiting := [⟨0, true, 0x9000000040, [7], .clean⟩] }
     (tileNode 28 3 v).refreshDue 3 = false ∧ v.busy = false) := by decide +kernel

/-- A spill of that page that has no bytes yet. -/
def spillMove : Move := ⟨.spill1, ⟨false, 0, 0, 0, 0, 0⟩, [0x24000000], [], false, 0, false⟩

theorem witness_last_unit :
    ∃ s : State, ∀ k, k < 2048 → k ≠ 3 → s.masked k = true ∨ s.vsp.passEnded.contains k = true :=
  ⟨{ State.reset with vsp := { VspSt.reset with passEnded := List.range 2048 } }, fun k hk _ => .inr (by simp [hk])⟩

/-- A leaf of that page's pair. -/
def sealedJob (e : Exec) (st : JobSt) : Job :=
  ⟨0, 0, 0, .sealed wholePair.k wholePair.v, (checkWord wholePair.k, checkWord wholePair.v), 3 * 2 ^ 19 + 80000, false, ⟨false, 0, 0, 0, 0, 0⟩, e, st, []⟩

/-- A dispatched request with two such leaves, the second still waiting. -/
def leafRun : Run := { openRun .issued with lens := [16], jobs := [sealedJob (.unit 3) .issued, sealedJob .hub .waiting] }

/-- A tile of its first leaf. -/
def leafTile (isV : Bool) : TileEnt := ⟨.leaf 4 0, isV, 3 * 2 ^ 19 + 80000, 0, 0, 1, []⟩

/-- The record of that leaf. -/
def leafReturn (refused : Bool) : Return := ⟨1, .attend, false, 0, 0, 0, 0, 1, 0, [], [leafTile false, leafTile true], refused, vUnit * 1600⟩

/-- A re-read of its K tile. -/
def leafReread : Reread :=
  ⟨3, 0, .leaf 4 0, false, true, wholePair, (checkWord wholePair.k, checkWord wholePair.v), 3 * 2 ^ 19 + 80000, some (⟨false, 0, 0, 0, 0, 0⟩, 0), false⟩

/-- A node with that request, whose unit 3 has sent that record. -/
def recordNode (refused : Bool) (missing : Nat) : State :=
  { tileNode 2 3 { VUnit.idle with returns := [leafReturn refused], missing := missing } with sch := { SchSt.reset with runs := [leafRun] } }

theorem witness_ReturnRecordsAreChecked :
    (∀ b n, (recordNode b n).Inv ∧ keysRise (recordNode b n).vsp.units = true ∧ keysRise (recordNode b n).hlt.scores = true ∧ (recordNode b n).run 4 = some leafRun ∧
      (recordNode b n).unit 3 = { VUnit.idle with returns := [leafReturn b], missing := n } ∧
      (let t := { (recordNode b n) with vsp := { (recordNode b n).vsp with rereads := [(0, leafReread)] } }
       t.Inv ∧ tabGet t.vsp.rereads 0 = some leafReread ∧ (tabDel t.vsp.rereads 0).any (fun z => decide (z.2.ent = .leaf 4 0)) = false)) ∧
    (let s := recordNode false 0
     s.entFault (leafTile false) = none ∧ s.entFault (leafTile true) = none ∧ s.entFault { leafTile false with flips := [(2, 1)] } = some false ∧
       s.entFault { leafTile false with flips := [(8, 1)] } = some false ∧
       s.entryTile (.leaf 4 0) = some (wholePair, (checkWord wholePair.k, checkWord wholePair.v), 3 * 2 ^ 19 + 80000) ∧
       tileFault (3 * 2 ^ 19 + 80000) false (corrupt [] 0 wholePair).k (checkWord wholePair.k) = none ∧
       tileFault (3 * 2 ^ 19 + 80000) false (corrupt [⟨0, false, 2, 1⟩] 0 wholePair).k (checkWord wholePair.k) ≠ none) ∧
    (∃ i j, i ≠ 0 ∧ leafRun.jobs[i]? = some j ∧ j.st ≠ .done) ∧
    (∃ j ∈ leafRun.jobs, j.st ≠ .done ∧ ¬(j.exec = .hub ∧ j.st = .issued)) ∧ (∀ j ∈ leafRun.jobs, ¬(j.exec = .hub ∧ j.st = .issued)) := by
  refine ⟨fun b n => ⟨⟨(by decide : regsCanonical (tileNode 2 3 VUnit.idle).regs.live = true), rfl, rfl, rfl, rfl⟩, rfl, rfl, rfl, rfl,
    ⟨(by decide : regsCanonical (tileNode 2 3 VUnit.idle).regs.live = true), rfl, rfl, rfl, rfl⟩, rfl, rfl⟩, by decide +kernel,
    ⟨1, _, by decide, rfl, by decide⟩, ⟨sealedJob .hub .waiting, by simp [leafRun], by decide, by decide⟩, ?_⟩
  intro j hj
  rcases List.mem_cons.mp hj with rfl | h
  · decide
  · rw [List.mem_singleton.mp h]; decide

/-- A request with a leaf given to a hub core and one that waits. -/
def hubRun : Run := { leafRun with jobs := [sealedJob .hub .issued, sealedJob .hub .waiting] }

theorem witness_hub_work :
    (∀ j ∈ hubRun.jobs.zipIdx, j.1.exec = .hub → j.1.st = .issued → ∀ k w, j.1.src = .sealed k w →
      (j.1.inTier1 = true → flipOffs [] j.2 k.length = []) ∧ (j.1.inTier1 = false → pairFaults j.1.loc (corrupt [] j.2 ⟨k, w⟩) j.1.check = [])) ∧
    (∃ j ∈ hubRun.jobs, j.st ≠ .done ∧ ¬(j.exec = .hub ∧ j.st = .issued)) ∧ (sealedJob .hub .issued).exec = .hub := by
  refine ⟨fun j hj he hs k w h => ?_, ⟨sealedJob .hub .waiting, by simp [hubRun], by decide, by decide⟩, rfl⟩
  rcases List.mem_cons.mp hj with rfl | h'
  · cases h
    exact ⟨fun _ => rfl, fun _ => by decide +kernel⟩
  · rw [List.mem_singleton.mp h'] at hs
    cases hs

/-- A shadow of that page whose four pairs have been read, and written or not. -/
def shadowMove (copied : Bool) : Move := ⟨.shadow, ⟨false, 0, 0, 0, 0, 0⟩, [0x24000000], List.replicate 4 wholePair, copied, 0, false⟩

theorem witness_TiersPatrolSwitchFreeAndRepair :
    (let s := State.reset
     s.Inv ∧ keysRise s.hlt.scores = true ∧ s.allPages = [] ∧ s.prog.current = [] ∧ s.map.cur = none ∧ s.isPoisoned ⟨0, 0, 0⟩ = false ∧ s.mem.failing = [] ∧
       (∀ a ∈ [tier0End, flatEnd - 64], s.tileAt a = none ∧ s.mem.retired.contains (tier1Unit a) = false ∧ s.unitLive (tier1Unit a) = false)) ∧
    (∀ c, let s := { tileNode 29 3 VUnit.idle with
                       mem := { MemSt.reset with moves := [(0, shadowMove c)], olds := [(0, ⟨[4], true, [0], 2, []⟩), (1, ⟨[5], true, [0], 2, []⟩)], poison := [(⟨1, 0, 2⟩, (100, false))] }
                       sch := { SchSt.reset with runs := [leafRun] } }
     s.Inv ∧ keysRise s.hlt.scores = true ∧ tabGet s.mem.moves 0 = some (shadowMove c) ∧ (shadowMove c).full = true ∧ (s.pageAt (shadowMove c).page).state = .sealed ∧
       (tabGet s.mem.olds 0).isSome = true ∧ s.sch.runs.any (fun r => [4].contains r.req.rid) = true ∧ (tabGet s.mem.olds 1).isSome = true ∧
       s.sch.runs.any (fun r => [5].contains r.req.rid) = false ∧ s.poisonAt 1 2 = some (⟨1, 0, 2⟩, (100, false))) := by
  refine ⟨⟨⟨by decide, rfl, rfl, rfl, rfl⟩, ?_⟩, fun c => ⟨⟨(by decide : regsCanonical (tileNode 29 3 VUnit.idle).regs.live = true), rfl, rfl, rfl, rfl⟩, ?_⟩⟩
  · decide +kernel
  · exact ⟨rfl, rfl, rfl, rfl, rfl, rfl, rfl, rfl, rfl⟩

/-- The other copy of a tile has failed before. -/
theorem witness_other_copy_failed :
    (let s := { State.reset with mem := { MemSt.reset with badCopies := [(⟨0, 0, 0⟩, false)] } }
     s.Inv ∧ keysRise s.hlt.scores = true ∧ s.map.cur = none ∧ tabGet s.prog.current 0 = none ∧ s.verOf 0 = 0 ∧ s.isPoisoned ⟨0, 0, 0⟩ = false ∧
       s.mem.badCopies.contains (⟨0, 0, 0⟩, false) = true) := ⟨⟨rfl, rfl, rfl, rfl, rfl⟩, by decide⟩

theorem witness_live_unit :
    (let s := { State.reset with mem := { MemSt.reset with olds := [(0, ⟨[4], false, [tier1Lo], 2, []⟩)] } }
     s.Inv ∧ s.allPages = [] ∧ s.tileAt tier0End = none ∧ s.mem.failing = [] ∧ s.unitLive (tier1Unit tier0End) = true) := by
  refine ⟨⟨rfl, rfl, rfl, rfl, rfl⟩, ?_⟩
  decide +kernel

/-- A finished reply of request 4, which came over queue pair 9. -/
def doneReply (noRecord : Bool) : Reply := { Reply.plain { heldReq attestMsg with evEntry := true } 0 Status.ok 0 0 with noRecord := noRecord }

/-- A node with that reply and queue pair 9 in a state. -/
def replyNode (st : QpState) (noRecord : Bool) : State :=
  { dialNode 1 with sch := { SchSt.reset with replies := [doneReply noRecord] }
                    que := { QueSt.reset with qps := [(9, { Qp.zero with state := st, peer := 6, maxOut := 4, inbound := 1 })] } }

theorem witness_FinishedRepliesAreHandedOver :
    (∀ st b, (replyNode st b).Inv ∧ (replyNode st b).running = true ∧ (replyNode st b).sch.replies.find? (fun y => y.req.rid == 4) = some (doneReply b) ∧
      (doneReply b).req.arr.via = .qp ∧ (doneReply b).holder = false ∧ (doneReply b).req.key = (doneReply b).req.arr.ctx ∧ Qp.zero.stream = (doneReply b).req.stream ∧
      (replyNode st b).qp 9 = some { Qp.zero with state := st, peer := 6, maxOut := 4, inbound := 1 } ∧ (doneReply b).notBefore = 0) ∧
    (let s := replyNode .ready true
     let n := ((doneReply true).bytes s.genLow).length
     s.roomFor (doneReply true) n = true ∧ ({ s with que := { s.que with respBytes := 67108864 } }).roomFor (doneReply true) n = false) := by
  refine ⟨fun st b => ⟨⟨(by decide : regsCanonical (dialNode 1).regs.live = true), rfl, rfl, rfl, rfl⟩, (by decide : (dialNode 1).running = true), rfl, rfl, rfl, rfl, rfl, rfl, rfl⟩, by decide +kernel⟩

/-- A running node with a load under way. -/
def loadNode (action target : Nat) (failed : Bool) : State :=
  { State.reset.setLive Reg.sysBoot 0x4B with prog := { ProgSt.reset with load := some ⟨action, target, 5, 0, 0, [], failed⟩, programs := [(5, ⟨none, none, 1⟩)] } }

theorem witness_LoadsAreCommandedCheckedAndNoted :
    (∀ a b c, (loadNode a b c).Inv ∧ (loadNode a b c).running = true ∧ (loadNode a b c).prog.load = some ⟨a, b, 5, 0, 0, [], c⟩ ∧
      (⟨a, b, 5, 0, 0, [], c⟩ : Load).ready = true ∧ tabGet (loadNode a b c).prog.programs 5 = some ⟨none, none, 1⟩ ∧
      (loadNode a b c).bit Reg.attLoadStatus 0 = false) ∧ (State.reset.setLive Reg.attLoadStatus 1).bit Reg.attLoadStatus 0 = true ∧
    (let p : Program := { owner := 0, cls := 0, shape := 0, inBytes := 0, outBytes := 0, segments := 1, objects := [7], streams := [], digest := [], setId := [], group := 0, cores := [] }
     ({ State.reset with prog := { ProgSt.reset with programs := [(0, ⟨some p, none, 1⟩)] } }).objInUse 7 = true) := by
  refine ⟨fun a b c => ⟨⟨(by decide : regsCanonical (State.reset.setLive Reg.sysBoot 0x4B).regs.live = true), rfl, rfl, rfl, rfl⟩,
    (by decide : (State.reset.setLive Reg.sysBoot 0x4B).running = true), rfl, by simp [Load.ready], rfl,
    (by decide : (State.reset.setLive Reg.sysBoot 0x4B).bit Reg.attLoadStatus 0 = false)⟩, by decide, by decide⟩

/-- A step word from its fields: op, sflags, dst, src_a, src_b, m, k, n (Table 8.4). -/
def stepWord (op fl dst a b m k n : Nat) : Nat :=
  op + 2 ^ 8 * fl + 2 ^ 32 * dst + 2 ^ 48 * a + 2 ^ 64 * b + 2 ^ 80 * m + 2 ^ 96 * k + 2 ^ 112 * n

/-- A program of one segment on two cores, whose first runs some steps. -/
def stepProg (ws : List Nat) : Program :=
  { owner := 3, cls := 2, shape := 0, inBytes := 4, outBytes := 4, segments := 1, objects := [], streams := [ws, ws], digest := [], setId := [], group := 0, cores := [0, 1] }

/-- Its run on group 0. -/
def stepRun (ws : List Nat) : ProgRun :=
  { rid := 4, prog := stepProg ws, slot := 0, needs := [], objs := [], ropes := [], pos := 0, ropeTiles := [], images := [], seg := 0, busy := true, waitOwned := false, cascFails := 0, input := [1, 2, 3, 4], output := [0, 0, 0, 0] }

/-- A node that runs it. -/
def stepNode (ws : List Nat) : State := { dialNode 1 with prog := { ProgSt.reset with current := [(0, stepRun ws)] } }

theorem witness_ProgramStepsComputeTheirTable :
    (∀ op ∈ [1, 2, 3, 4, 5, 6, 7, 8, 9, 10, 12, 14, 15], let w := stepWord op 0 1 0 0 1 0 1
      (stepNode [w]).coreAt 0 w = some ⟨0, stepRun [w], 0, CoreCtx.empty⟩ ∧ StepWord.op w = op ∧ StepWord.k w = 0) ∧
    (∀ ws, (stepNode ws).Inv) ∧ (stepProg []).cores.Nodup ∧
    (∀ k ∈ [1, 2, 3, 4], let w := stepWord 8 0 1 0 0 1 k 0; (stepNode [w]).coreAt 0 w = some ⟨0, stepRun [w], 0, CoreCtx.empty⟩ ∧ StepWord.k w = k) := by
  refine ⟨by decide +kernel, fun ws => ⟨(by decide : regsCanonical (dialNode 1).regs.live = true), rfl, rfl, rfl, rfl⟩, by decide, by decide +kernel⟩

/-- A rotary table of 64 dimensions none of which turns. -/
def flatTable : WObj :=
  ⟨1, [leBytes 2 0x5254 ++ leBytes 2 64 ++ List.replicate 12 0], [], [], [], [], [], []⟩

theorem witness_rope :
    (let w := stepWord 0x0B 0 1 0 0 1 3 64
     let p := { stepRun [w] with ropes := [(3, flatTable)], ropeTiles := [⟨1027, 1, 0⟩] }
     let s := { stepNode [w] with prog := { (stepNode [w]).prog with current := [(0, p)] } }
     s.coreAt 0 w = some ⟨0, p, 0, CoreCtx.empty⟩ ∧ StepWord.op w = 0x0B ∧ StepWord.k w = 3 ∧ tabGet p.ropes (StepWord.k w) = some flatTable ∧
     rotaryOf flatTable.tiles.flatten = some ⟨64, 0, []⟩ ∧ s.ropePoison p (StepWord.k w) = none) := by
  decide +kernel

/-- Both of its cores at the end of the segment. -/
def endedNode (segments : Nat) : State :=
  let p := { stepRun [] with prog := { stepProg [] with segments := segments } }
  { dialNode 1 with
    prog := { ProgSt.reset with current := [(0, p)], cores := [(0, { CoreCtx.empty with ended := true }), (1, { CoreCtx.empty with ended := true })] }
    sch := { SchSt.reset with runs := [{ openRun .done with req := { heldReq (0x20 :: List.replicate 71 0) with rid := 4 }, attends := false, jobs := [] }] } }

theorem witness_SegmentsEndAndRunsFinish :
    (∀ n, (endedNode n).Inv) ∧
    (let s := endedNode 1
     let p := { stepRun [] with prog := stepProg [] }
     tabGet s.prog.current 0 = some p ∧ p.busy = true ∧ (p.coreNums 0).all (fun c => (s.core c).ended) = true ∧ p.prog.segments ≤ p.seg + 1 ∧
     (s.run p.rid).map (fun r => r.req.op) = some .run ∧ (s.run p.rid).map (fun r => (r.attends, r.req.rid)) = some (false, p.rid) ∧
     (∀ c ∈ s.prog.current, c.2.rid = p.rid → c.1 = 0) ∧ (∀ c ∈ s.prog.current, c.1 = 0 → c.2 = p) ∧ p.prog.cores ≠ []) ∧
    (let s := endedNode 2; (tabGet s.prog.current 0).map (fun p => (p.busy, decide (p.seg + 1 < p.prog.segments))) = some (true, true)) ∧
    (let s := stepNode []; ((stepRun []).coreNums 0).all (fun c => (s.core c).ended) = false) := by
  refine ⟨fun n => ⟨(by decide : regsCanonical (dialNode 1).regs.live = true), rfl, rfl, rfl, rfl⟩, by decide +kernel⟩

/-- A TCAM image of two rules and a hole. -/
def twoRules : Image :=
  { body := .tcam [some ⟨1, 2 ^ 160 - 1, 11⟩, some ⟨2, 2 ^ 160 - 1, 22⟩, none], casc := true, tag := 3, first := 65000, entries := 3, edits := 0, digest := [], version := 1, vectors := [] }

/-- A running node with that image in slot 6, some of its cells struck. -/
def matchNode (cells : List (Nat × Option TcamEnt)) : State :=
  { State.reset.setLive Reg.sysBoot 0x4B with mat := { MatSt.reset with images := [(6, twoRules)], cellDiff := cells } }

theorem witness_RuleEditsArePendingUntilTheirFrame :
    (let s := matchNode []
     s.running = true ∧ s.frame = 0 ∧ s.image 6 = some twoRules ∧ s.image 7 = none ∧
     (applyEdits [some ⟨1, 2 ^ 160 - 1, 11⟩, some ⟨2, 2 ^ 160 - 1, 22⟩, none] [⟨6, true, 0, ⟨9, 9, 9⟩, 2, 6, 1⟩]).toOption.isSome = true ∧
     (applyEdits [some ⟨1, 2 ^ 160 - 1, 11⟩, some ⟨2, 2 ^ 160 - 1, 22⟩, none] [⟨6, true, 3, ⟨9, 9, 9⟩, 2, 6 + 3 * 65536, 1⟩]).toOption = none ∧
     (applyEdits [some ⟨1, 2 ^ 160 - 1, 11⟩] [⟨6, true, 0, ⟨9, 9, 9⟩, 2, 6, 1⟩]).toOption = none ∧
     (applyEdits [some ⟨1, 2 ^ 160 - 1, 11⟩, some ⟨2, 2 ^ 160 - 1, 22⟩, none] [⟨6, false, 1, ⟨0, 0, 0⟩, 2, 70 + 65536, 1⟩]).toOption.isSome = true) ∧
    (∀ c, (matchNode c).Inv) ∧ 64 ≤ (List.replicate 64 (⟨6, true, 0, ⟨9, 9, 9⟩, 2, 6, 1⟩ : Edit)).length := by
  refine ⟨by decide +kernel, fun c => ⟨(by decide : regsCanonical (State.reset.setLive Reg.sysBoot 0x4B).regs.live = true), rfl, rfl, rfl, rfl⟩, by decide⟩

/-- The image searched alone. -/
def localRules : Image := { twoRules with casc := false }

/-- A core at a MATCH step of image 6 over the 20 bytes at 0, its record to 32. -/
def matchWord : Nat := stepWord 0x0D 0 1 0 6 0 20 0

/-- A node that runs it on an image its run holds, as the ring's head, with a search of serial 5 under way. -/
def headNode (img : Image) (fails : Nat) (core : Option Nat) (sent : Nat) : State :=
  let s := (stepNode [matchWord]).setLive Reg.matCascCfg 1
  { s with prog := { s.prog with current := [(0, { stepRun [matchWord] with images := [(6, img)], cascFails := fails })] }
           mat := { MatSt.reset with searches := [(5, (cascadeFrameOf (cascadeBody 0 0 0 5 [] Found.miss) true, core, sent))] } }

/-- A probe's frame. -/
def probe : List Byte := cascadeFrameOf (cascadeBody 0 0 0 5 [] Found.miss) true

theorem witness_TheEngineScrubsAuditsAndCascades :
    (matchNode [(65000, none)]).running = true ∧ (matchNode [(65000, none)]).mat.cellDiff ≠ [] ∧ (matchNode []).prog.current = [] ∧
    (∀ img f c n, (headNode img f c n).Inv) ∧ (headNode twoRules 0 none 512).running = true ∧
    ((headNode localRules 0 none 512).coreAt 0 matchWord).isSome = true ∧ StepWord.op matchWord = 0x0D ∧ bitsOf matchWord 79 64 = 6 ∧
    (headNode localRules 0 none 512).imageVersion 6 1 = none ∧ ({ headNode localRules 0 none 512 with mat := { MatSt.reset with kept := [(6, localRules)] } } : State).imageVersion 6 1 = some localRules ∧ (headNode twoRules 0 none 512).isHead = true ∧
    (headNode twoRules 0 none 512).mat.searches.any (fun x => x.2.2.1 == some 0) = false ∧
    tabGet (headNode twoRules 0 (some 0) 512).mat.searches 5 = some (probe, some 0, 512) ∧ probe.length = 22 + byteAt probe 3 ∧ field probe 6 2 = 5 ∧
    cascadeCrcOk probe = true ∧ (foundOf (slice probe 8 12)).fail = false ∧ (headNode twoRules 0 none 1536).now ≤ 1536 + 4 * probe.length + 192 ∧
    ¬(headNode twoRules 0 none 0).now ≤ 0 + 4 * probe.length + 192 ∧
    (let s := (matchNode []).setLive Reg.matCascCfg 5
     let frame := cascadeFrameOf (cascadeBody 1 3 1 9 (List.replicate 20 0) Found.miss) true
     s.bit Reg.matCascCfg 0 = true ∧ s.fld Reg.matCascCfg 3 1 ≠ 0 ∧ frame.length = 22 + byteAt frame 3 ∧ s.cascImage (byteAt frame 2) = some twoRules ∧
     twoRules.type = byteAt frame 1 ∧ twoRules.version % 65536 = field frame 4 2 ∧ s.cascImage 4 = none) := by
  refine ⟨by decide, by decide, rfl, fun _ _ _ _ => ⟨(by decide : regsCanonical ((stepNode [matchWord]).setLive Reg.matCascCfg 1).regs.live = true), rfl, rfl, rfl, rfl⟩, by decide +kernel⟩

/-- A partial of one dimension. -/
def onePartial (o : Int) : Partial := ⟨false, 0, 2 ^ 32, [o], false⟩

theorem witness_TheCanonicalMergeIsRule111 :
    (onePartial 1).empty = false ∧ -32768 ≤ (onePartial 1).m ∧ 0 < (onePartial 1).l ∧ 2 ^ 31 < (onePartial 1).l ∧ (onePartial 1).l ≤ 2 ^ 38 ∧
    (Partial.none 1).empty = true ∧ (merge (merge (onePartial 1) (onePartial 2)) (merge (onePartial 1) (onePartial 0))).o = [1] ∧
    (merge (merge (merge (onePartial 1) (onePartial 2)) (onePartial 1)) (onePartial 0)).o = [2] := by decide

theorem witness_FinalisationIsRule113 :
    (Partial.none 2).empty = true ∧ (onePartial 5).empty = false ∧ (condition 0x3F80).1 = 0x3F80 ∧ bf16Q32 0x3F80 = 2 ^ 32 ∧
    0 < (leafOf 1 [((0, false), [7])] false).1.l ∧ -32768 ≤ (leafOf 1 [((0, false), [7])] false).1.m ∧
    (∀ x ∈ [(((0 : Int), false), [(7 : Int)])], x.2.length = 1 ∧ ∀ v ∈ x.2, v.natAbs ≤ 7) ∧ (2 ^ 46 : Int).natAbs < 2 ^ 47 ∧
    (∀ o ∈ (onePartial 5).o, o.natAbs ≤ 5) ∧ 0 < (merge (onePartial 5) (onePartial 5)).l := by decide +kernel

/-- A node whose mirror tables lie 256 MiB up, with one sequence in slot 1 of bucket 3. -/
def tableNode : State := { State.reset.setLive Reg.pgwMirrorBase 0x10000000 with pgw := { PgwSt.reset with seqs := [{ provSeq with bucket := 3, slot := 1 }] } }

theorem witness_TablesStandInMemoryAsLaidOut :
    (let s := tableNode
     let n := 256 * 2 ^ s.fld Reg.pgwSeqCfg 4 0
     256 * 3 < n ∧ s.live64 Reg.pgwSeqBase + n ≤ s.live64 Reg.pgwMirrorBase ∧
     (∀ k ∈ [0, 63], s.extentAt (s.live64 Reg.pgwSeqBase + (256 * 3 + 64 * 1 + k)) = none ∧ s.extentAt (s.live64 Reg.pgwMirrorBase + (256 * 3 + 64 * 1 + k)) = none)) ∧
    (∀ q ∈ tableNode.pgw.seqs, q.tenant < 4096 ∧ q.bucket = 3 ∧ q.slot = 1) ∧
    (∀ h ∈ [1, 16], let sh : Shape := { shapeOf 0 with heads := h }; 64 * (1 + h) ≤ sh.stride) ∧
    (sealedPte 3).locs.length ≤ 4 ∧ (sealedPte 3).rebuilt ≤ 256 ∧ (sealedPte 3).state ≠ .tombstone := by
  refine ⟨?_, ?_, ?_, ?_⟩
  · decide +kernel
  · decide
  · decide
  · decide

/-- A node of one sender of NAKs and IDLE packets: its Wecia Link UP, a packet kept and a write waiting for credit. -/
def busyHost : State :=
  { hostNode [⟨0, 3, 0, 0, 0, 0, []⟩] with hst := { (hostNode [⟨0, 3, 0, 0, 0, 0, []⟩]).hst with txq := [⟨0, 1, 0, 0, 0, 1, [7]⟩] } }

theorem witness_TimersVotesAndReleasesComplete :
    (let s := busyHost
     let freed := (s.hst.takeAck 4095 s.now).takeCredits ⟨0, 4095, 0, 0, 0⟩
     s.running = true ∧ s.hst.state = LState.up ∧ s.hst.rxSeq = 0 ∧ freed.kept ≠ [] ∧ freed.resends + 1 < 8 ∧ s.hst.kept ≠ [] ∧ s.hst.resends + 1 < 8 ∧ s.hst.gap = false) ∧
    (∀ m ∈ [attestMsg, appendMsg], let s := { dialNode 1 with sch := { SchSt.reset with held := [heldReq m] } }
     s.running = true ∧ s.dispatching = true ∧ s.mode ≠ 3 ∧ s.owner = 2 ∧ (s.calNow 2).stopped = false ∧ s.headAfter 2 (s.calNow 2).last = some (0, heldReq m) ∧
       (heldReq m).cost ≤ (s.calNow 2).budget) ∧
    (heldReq attestMsg).op = .attest ∧ (heldReq appendMsg).op = .append ∧
    (let s := { dialNode 2 with sch := { SchSt.reset with held := [heldReq appendMsg] } }
     s.dispatching = true ∧ s.mode ≠ 3 ∧ s.owner = Owner.shared ∧ s.fld Reg.schCfg 19 0 ≠ 0 ∧ s.sch.sharedMinute ≠ s.minutes ∧
       ((List.range 24).map (fun i => (s.sch.sharedLast + 1 + i) % 24)).find? (fun c => !s.isolated c && !(s.ready c).isEmpty) = some 2 ∧
       s.headAfter 2 (s.cal 2).last = some (0, heldReq appendMsg)) := by
  refine ⟨by decide, ?_, by decide, by decide, by decide +kernel⟩
  decide +kernel

/-- R307: the wait of a keeper is 16 minutes times its rank; node 5 is the lowest of its keepers. -/
theorem test_election_timeout : NextWith (exec .electionTimeout mapNode) (fun t => t.map.election = some 131072 ∧ t.now = 131072) := ⟨_, rfl, by decide⟩

/-- R293: the released request leaves the held ones. -/
theorem test_calendar_release : NextWith (exec (.calendarRelease 2) (dialNode 1)) (fun t => t.sch.held = []) := ⟨_, rfl, by decide +kernel⟩

/-! ### Objects of R349 -/

/-- A signer's kid. -/
def kid0 : List Byte := List.replicate 16 7

/-- An object of R349 that carries a payload. -/
def signedObject (kid payload : List Byte) : List Byte := coseSign [0xA0] payload kid (List.replicate 96 0) []

/-- A certificate of a device of this part, whose DEK-E key is the base point. -/
def cert0 : List Byte :=
  signedObject kid0 (cborMap [(1, cborUint 0x1344), (2, cborUint 0xB0), (4, cborBytes []), (5, cborBytes []), (6, cborBytes (ecEncode ecBase)), (7, cborBytes [9]), (8, cborBytes kid0)])

/-- Its identity digest. -/
def idd0 : List Byte := sha384 (ecEncode ecBase ++ [9])

set_option maxRecDepth 1000000 in
/-- The certificate verifies where its chain does, and gives an identity and a DEK-K. -/
theorem witness_certificate : (certOpen cert0 ⟨true, true⟩).isSome = true ∧ certOpen cert0 ⟨true, true⟩ = some (certPayload cert0) ∧ certIdd (certPayload cert0) = some idd0 ∧
    mapBytes (certPayload cert0) 7 = some [9] ∧ certOpen cert0 ⟨true, false⟩ = none ∧
    certOpen (signedObject kid0 (cborMap [(8, cborBytes kid0)])) ⟨true, true⟩ = some (cborMap [(8, cborBytes kid0)]) ∧ certIdd (cborMap [(8, cborBytes kid0)]) = none := by
  decide +kernel

/-- A node whose SEC_DEBUG holds the vendor's token of a kind for it. -/
def tokenNode (kind : Nat) : State :=
  let token := signedObject kid0 (cborMap [(1, cborUint kind), (2, cborBytes [5]), (3, cborBytes [6])])
  let s := (List.range 64).foldl (fun s i => s.setLive (Reg.secDebug + 4 * i) (field token (4 * i) 4)) State.reset
  { s with map := { s.map with fenced := true }, sec := { s.sec with idd := [5], bootId := [6] } }

set_option maxRecDepth 1000000 in
theorem witness_tokens : regsCanonical (tokenNode 1).regs.live = true ∧ regsCanonical (tokenNode 2).regs.live = true ∧ (tokenNode 1).fenced = true ∧
    (tokenNode 1).tokenKind ⟨⟨true, true⟩⟩ = some 1 ∧ (tokenNode 2).tokenKind ⟨⟨true, true⟩⟩ = some 2 ∧ (tokenNode 3).tokenKind ⟨⟨true, true⟩⟩ = none ∧
    (tokenNode 1).tokenKind ⟨⟨true, false⟩⟩ = none ∧ State.reset.tokenKind ⟨⟨true, true⟩⟩ = none := by decide +kernel

/-- A candidate in service with a signed report. -/
theorem witness_candidate_reports :
    (let s : State := { State.reset.setLive Reg.sysBoot 0x4B with map := { MapSt.reset with nodeState := .candidate, cur := none }, sec := { SecSt.reset with signed := [(1024, ([], []))] } }
     s.Inv ∧ s.running = true ∧ s.sec.signed = (1024, ([], [])) :: [] ∧ s.inService = true ∧ s.map.nodeState = .candidate ∧ s.map.cur = none) ∧
    ¬(State.reset.inService = true) := ⟨⟨⟨by decide, rfl, rfl, rfl, rfl⟩, by decide⟩, by decide⟩

/-- What a candidate's JOIN brings: its certificate, and a report that shows generation 8 of fabric 1 in slot 4,095. -/
def goodJoin : JoinFacts :=
  let path : List (List Byte) := List.replicate 12 []
  let root := rootOf 4095 (nonceLeaf 4095 (joinNonce 1 8)) path
  ⟨cert0, ⟨true, true⟩, signedObject (idd0.take 16) (cborMap [(1, cborUint 0x1344), (2, cborUint 0xB0), (3, cborBytes idd0), (4, cborBytes root), (5, cborUint 0), (7, cborBytes []), (9, cborBytes [])]),
    ⟨true, true⟩, path, []⟩

set_option maxRecDepth 1000000 in
theorem witness_join :
    (let s := { leadNode with sec := { leadNode.sec with fwAccept := [[]] } }
     s.joinOk goodJoin (field idd0 0 8) = true ∧ s.tip = some oneMap ∧ s.isLeader = true ∧ s.joinOk goodJoin 0 = false ∧
     (let e : NodeEnt := ⟨.candidate, 3, 4, 4, 2, 3, false, field idd0 0 8⟩
      e.seated = true ∧ oneMap.seatCabled e [] = true ∧ oneMap.seatTaken (field idd0 0 8) e = false)) ∧
    (let h := { leaderHdr with sender := 0x7FF }
     mapNode.ctlOk h = true ∧ mapNode.NotBehind h.gen ∧ mapNode.isLeader = false ∧ mapNode.fenced = false ∧ mapNode.map.cur ≠ none) := by
  unfold State.NotBehind
  decide +kernel

/-- The Shake of a side whose ephemeral key is 1, facing a partner whose keys are the base point. -/
def shake0 : Shake := { Shake.idle with ephemeral := 1, cert := cert0, eph := ecEncode ecBase }

/-- A node whose keys match its certificate, with one link in a state. -/
def shakeNode (l : Link) : State :=
  { State.reset.setLive Reg.secStatus 1 with lnk := { LnkSt.reset with links := [(3, l)], held := [] } }

set_option exponentiation.threshold 512 in
set_option maxRecDepth 1000000 in
theorem witness_handshake :
    (∀ l, (shakeNode l).Inv ∧ (shakeNode l).link 3 = l ∧ (shakeNode l).identified = true ∧ (shakeNode l).lnk.held = [] ∧ (shakeNode l).sec.endpointCa = false) ∧
    (linkNode Link.down).identified = false ∧ Link.down.keyed = [] ∧
    ((shakeNode Link.down).linkMaster shake0 []).isSome = true ∧ (shakeNode Link.down).linkMaster { shake0 with eph := [] } [] = none ∧
    (let s := shakeNode { Link.down with state := LState.keyed, hs := .gotHs2, shake := shake0 }
     s.expectedHs3 3 ≠ [] ∧ ({ hs0 with mac := s.expectedHs3 3 } : HsMsg).mac = s.expectedHs3 3) := by
  refine ⟨fun l => ⟨⟨(by decide : regsCanonical (State.reset.setLive Reg.secStatus 1).regs.live = true), rfl, rfl, rfl, rfl⟩, rfl,
    (by decide : (State.reset.setLive Reg.secStatus 1).identified = true), rfl, rfl⟩, by decide, rfl, by decide +kernel, by decide +kernel, by decide +kernel, rfl⟩

/-- Codewords beyond fec_limit, and a narrow Wecia Link that retrains. -/
theorem witness_codewords :
    (∀ l, (linkNode l).fld Reg.lnkRetryCfg 23 16 < l.fecMinute + 256) ∧ (∀ r ∈ ({ busyLink with rx := [(2, RxVc.idle)] } : Link).rx, r.2.segs = []) ∧
    (∀ h : HstSt, ({ State.reset with hst := h } : State).Inv) ∧
    (let h : HstSt := { HstSt.reset with state := LState.retrain, narrow := true, high := true }; h.state = LState.retrain ∧ h.narrow = true ∧ h.high = true) := by
  refine ⟨fun l => ?_, by decide, fun h => ⟨rfl, rfl, rfl, rfl, rfl⟩, by decide⟩
  have h : State.reset.fld Reg.lnkRetryCfg 23 16 < 256 := by decide
  exact Nat.lt_of_lt_of_le h (Nat.le_add_left _ _)

/-- The counts a completion carries: more to come, an error, and an early end of the container's read. -/
theorem witness_completions :
    bitsOf (256 * 5) 7 0 = 0 ∧ bitsOf (256 * 5) 23 8 ≠ 0 ∧ bitsOf 1 7 0 ≠ 0 ∧ bitsOf 0 23 8 = 0 ∧
    (let x : HostRd := ⟨.container, 0, 0, 0, [], 8, 8⟩
     let s := { hostNode [] with hst := { (hostNode []).hst with reads := [(0, x)] }, prog := { ProgSt.reset with load := some ⟨1, 0, 5, 0, 0, [], false⟩ } }
     s.Inv ∧ tabGet s.hst.reads 0 = some x ∧ x.why = .container ∧ s.prog.load = some ⟨1, 0, 5, 0, 0, [], false⟩ ∧ s.que.qps = [] ∧
     hdr0.fecBad = 0 ∧ s.hst.rxSeq = 0 ∧ s.hst.fecMinute + 0 ≤ s.fld Reg.lnkRetryCfg 23 16) := ⟨by decide, by decide, by decide, by decide, ⟨rfl, rfl, rfl, rfl, rfl⟩, by decide⟩

/-- A replay that gives another digest than the one recorded; a standby rail that stayed up. -/
theorem witness_other_digest : ([1] : List Byte) ≠ State.reset.hlt.recorded ∧ ({ SysSt.reset with oscDone := true } : SysSt).oscDone = true := by decide

/-- Spans that a loss meets or not; a page to be had before the limit, of a request with more to wait for or none; a page of a sequence that is gone. -/
theorem witness_losses_and_holds :
    (let r := { openRun .issued with lens := [16] }
     (runNode r).run 4 = some r ∧ r.spans.filter (fun a => decide (1 ≤ a ∧ a ≤ 4095)) = [] ∧ r.spans.filter (fun a => decide (0 ≤ a ∧ a ≤ 0)) = [0]) ∧
    (∀ st ∈ [JobSt.issued, .done], let r := { openRun st with reserve := some (0, 0, 9999), stalls := [(Stall.reserve, 5)] }
     let s := { runNode r with pgw := { PgwSt.reset with seqs := [provSeq] } }
     s.run 4 = some r ∧ s.now < 9999 ∧ s.retryReserve r 0 0 = some s ∧ (runNode r).retryReserve r 0 0 = none ∧ s.progRuns.any (fun c => c.2.rid == 4) = false ∧
     (({ r with reserve := none, stalls := r.stalls.filter (fun y => y.1 != .reserve) } : Run).ready = true ↔ st = .done)) := by
  decide +kernel

/-- A dispatched request that stalls for several causes, in its class's minute or a SHARED one, before its effect or after it, with leaves or a program. -/
theorem witness_stalls :
    (∀ m ∈ [1, 2], ∀ redo held : Bool,
      let r := { openRun .waiting with stalls := [(Stall.tableRepair, 0), (Stall.weightRepair, 3)], redo := redo, held := held }
      let s := { dialNode m with sch := { SchSt.reset with runs := [r] } }
      s.run 4 = some r ∧ s.dispatching = true ∧ s.mode ≠ 3 ∧ (s.owner = r.req.cls ∨ (s.owner = Owner.shared ∧ s.isolated r.req.cls = false)) ∧
      (∀ x ∈ r.stalls, s.stallOver r x.1 = true) ∧ s.groupOfRun 4 = none ∧
      ({ s with prog := { s.prog with current := [(0, stepRun [])] } } : State).groupOfRun 4 ≠ none) ∧
    ({ openRun .waiting with jobs := [] } : Run).ready = true ∧ (openRun .issued).ready = false := by
  decide +kernel

/-- A minute that is not the waiting request's, and spares that are too few or enough. -/
theorem witness_spares :
    (let s := { dialNode 0 with sch := { SchSt.reset with spareWait := [(heldReq appendMsg, 0)] } }
     s.Inv ∧ s.spareWaiter 4 = some (heldReq appendMsg, 0) ∧ ¬(s.owner = 2 ∨ (s.owner = Owner.shared ∧ s.isolated 2 = false))) ∧
    (let s := { dialNode 2 with sch := { SchSt.reset with spareWait := [(heldReq appendMsg, 0)] }, pgw := { PgwSt.reset with sparesUsed := 4096 } }
     s.Inv ∧ s.spareWaiter 4 = some (heldReq appendMsg, 0) ∧ s.dispatching = true ∧ s.mode ≠ 3 ∧ s.owner = Owner.shared ∧ s.isolated 2 = false ∧
     ¬((shapeOf (Msg.shape appendMsg)).heads ≤ s.freeSpares) ∧ s.homeSeq (Msg.tenant appendMsg) (Msg.sid appendMsg) = none) := by
  refine ⟨⟨⟨by decide, rfl, rfl, rfl, rfl⟩, by decide +kernel⟩, ⟨by decide, rfl, rfl, rfl, rfl⟩, by decide +kernel⟩

/-- The bank group of the leaf's tiles is idle with no refresh due; so is that of a re-read. -/
theorem witness_idle_bank_group :
    (let s := recordNode false 0; (s.unit (locUnit (3 * 2 ^ 19 + 80000))).busy = false ∧ s.refreshDue (locUnit (3 * 2 ^ 19 + 80000)) = false) ∧
    leafReread.loc = 3 * 2 ^ 19 + 80000 ∧ locUnit (3 * 2 ^ 19 + 80000) = 3 ∧ (∀ j ∈ hubRun.jobs, j.loc = 3 * 2 ^ 19 + 80000) := by
  decide +kernel

/-- A submission ring whose completion ring is ring 1, of 64 entries of which some are used. -/
def pairedRings (used : Nat) : List (Nat × Qp) :=
  [(ringBase, { ringQp with rlog2 := 6, rcring := 1 }), (ringBase + 1, { ringQp with rlog2 := 6, rkind := 1, rtail := used })]

/-- A node with a finished reply to a request of that ring. -/
def ringReplyNode (used : Nat) : State :=
  { dialNode 1 with sch := { SchSt.reset with replies := [{ doneReply false with req := { (doneReply false).req with arr := ringArr 72 } }] }, que := { QueSt.reset with qps := pairedRings used } }

/-- Replies to a ring's request with room or none; replies sent late, and before their instant; records with no entry reserved. -/
theorem witness_ring_replies :
    (∀ used ∈ [0, 64], let s := ringReplyNode used
     s.Inv ∧ s.running = true ∧ ∃ x q c, s.sch.replies.find? (fun y => y.req.rid == 4) = some x ∧ x.req.arr.via = .ring 0 0 0 ∧ x.notBefore ≤ s.now ∧
       s.qp x.req.key = some q ∧ s.qp (ringBase + q.rcring) = some c ∧ c.ring = true ∧ c.rkind = 1 ∧ (c.ringUsed < c.ringSize ↔ used = 0)) ∧
    (let x := { doneReply false with notBefore := 7 }; x.notBefore ≠ 0 ∧ x.notBefore < (dialNode 1).now) ∧ (dialNode 0).now < 1000 ∧
    (dialNode 1).hlt.evidence.length + (dialNode 1).hlt.evReserved < 65535 ∧ ¬(0 + 65535 < 65535) := by
  refine ⟨fun used h => ?_, by decide, by decide, by decide, by decide⟩
  have i : ∀ u, (ringReplyNode u).Inv := fun _ => ⟨(by decide : regsCanonical (dialNode 1).regs.live = true), rfl, rfl, rfl, rfl⟩
  simp only [List.mem_cons, List.not_mem_nil, or_false] at h
  rcases h with rfl | rfl <;> exact ⟨i _, by decide, _, _, _, rfl, rfl, by decide, rfl, rfl, rfl, rfl, by decide⟩

/-- The engine's copy of the image is good. -/
theorem witness_image_whole : (headNode localRules 0 none 512).imagePoison (stepRun [matchWord]) 6 = none ∧ (headNode twoRules 0 none 512).imagePoison (stepRun [matchWord]) 6 = none := by
  decide +kernel

/-- A HostNak and a bad packet within fec_limit. -/
theorem witness_within : busyHost.hst.fecMinute + 0 ≤ busyHost.fld Reg.lnkRetryCfg 23 16 ∧ busyHost.hst.fecMinute + 1 ≤ busyHost.fld Reg.lnkRetryCfg 23 16 ∧
    (hostNode []).hst.fecMinute + 0 ≤ (hostNode []).fld Reg.lnkRetryCfg 23 16 := by decide

end Sys2Proof.Machine
end

section
/-!
The fixed dial of NIGHT, the check of a dial, and what a Midnight latches (R41, R45, R49, R296).
-/

namespace Sys2Proof.Machine

open Sys2Proof

/-- Settles O12: the fixed dial of R49. -/
theorem nightDialIsFixed : Obligations.NightDialIsFixed := by
  unfold Obligations.NightDialIsFixed
  intro s m hn
  simp only [State.ownerAt, if_pos hn]
  refine ⟨fun h0 => if_pos h0, fun h => ?_, fun h0 h1 h2 => ?_⟩
  · rw [if_neg (by omega), if_pos h]
  · rw [if_neg h0, if_neg (by omega)]

/-! ### The check of a dial (R45) -/

theorem firstFault_eq_none {a b : Option (Nat × Nat)} : firstFault a b = none ↔ a = none ∧ b = none := by
  cases a <;> cases b <;> simp only [firstFault, and_true, reduceCtorEq, and_self, and_false, iff_false]
  split <;> simp only [reduceCtorEq, not_false_eq_true]

/-- A scan for the earliest fault finds none exactly when it starts with none and meets none. -/
theorem foldl_firstFault_eq_none {α : Type} (h : α → Option (Nat × Nat)) (l : List α) (a : Option (Nat × Nat)) :
    l.foldl (fun f x => firstFault f (h x)) a = none ↔ a = none ∧ ∀ x ∈ l, h x = none := by
  induction l generalizing a with
  | nil => simp only [List.foldl_nil, List.not_mem_nil, false_implies, implies_true, and_true]
  | cons x l ih =>
    rw [List.foldl_cons, ih, firstFault_eq_none, List.forall_mem_cons, and_assoc]

theorem mem_rangeFrom {lo n m : Nat} : m ∈ rangeFrom lo n ↔ lo ≤ m ∧ m < lo + n := by
  simp only [rangeFrom, List.mem_map, List.mem_range]
  exact ⟨fun ⟨i, hi, e⟩ => by omega, fun ⟨h1, h2⟩ => ⟨m - lo, by omega, by omega⟩⟩

/-- What rules 1 and 2 of R45 ask of minute m. -/
def EntryFits (entry : Nat → Nat) (m : Nat) : Prop :=
  (m = 0 ↔ entry m = Owner.system) ∧ ¬(24 ≤ entry m % 32 ∧ entry m % 32 ≤ 27)

/-- What rules 1 to 3 of R45 ask of the four minutes from 4 g on. -/
theorem groupFault_eq_none {entry : Nat → Nat} {urgent : List Nat} {g : Nat} :
    groupFault entry urgent g = none ↔
      (∀ m, 4 * g ≤ m ∧ m < 4 * g + 4 → EntryFits entry m) ∧
      ∀ c ∈ urgent, ∃ m, 4 * g ≤ m ∧ m < 4 * g + 4 ∧ entry m = c := by
  unfold groupFault
  rw [firstFault_eq_none, foldl_firstFault_eq_none]
  simp only [true_and, mem_rangeFrom]
  refine and_congr (forall₂_congr fun m _ => ?_) ?_
  · unfold EntryFits
    split
    · simp only [reduceCtorEq, false_iff]
      omega
    · split
      · simp only [reduceCtorEq, false_iff]
        omega
      · simp only [true_iff]
        omega
  · simp only [ite_eq_left_iff, reduceCtorEq, imp_false, not_not, List.all_eq_true, List.any_eq_true, mem_rangeFrom, beq_iff_eq, and_assoc]

/-- No group has a fault exactly when rules 1 to 3 of R45 hold of the whole dial. -/
theorem groupFaults_none {entry : Nat → Nat} {urgent : List Nat} :
    (∀ g, g < 256 → groupFault entry urgent g = none) ↔
      (entry 0 = Owner.system ∧ ∀ m, 0 < m → m < 1024 → entry m ≠ Owner.system)
      ∧ (∀ m, m < 1024 → ¬ (24 ≤ entry m % 32 ∧ entry m % 32 ≤ 27))
      ∧ (∀ g, g < 256 → ∀ c ∈ urgent, ∃ m, 4 * g ≤ m ∧ m < 4 * g + 4 ∧ entry m = c) := by
  simp only [groupFault_eq_none]
  constructor
  · intro h
    have fits : ∀ m, m < 1024 → EntryFits entry m := fun m hm => (h (m / 4) (by omega)).1 m (by omega)
    exact ⟨⟨(fits 0 (by decide)).1.mp rfl, fun m h0 hm he => Nat.ne_of_gt h0 ((fits m hm).1.mpr he)⟩,
      fun m hm => (fits m hm).2, fun g hg => (h g hg).2⟩
  · rintro ⟨⟨h0, h1⟩, h2, h3⟩ g hg
    refine ⟨fun m hm => ⟨⟨fun e => e ▸ h0, fun he => ?_⟩, h2 m (by omega)⟩, h3 g hg⟩
    by_contra hne
    exact h1 m (Nat.pos_of_ne_zero hne) (by omega) he

/-- Settles O20: the scan of the groups answers rules 1 to 3, the counts rules 4 and 5. -/
theorem dialsPassExactlyWhenEveryRuleHolds : Obligations.DialsPassExactlyWhenEveryRuleHolds := by
  unfold Obligations.DialsPassExactlyWhenEveryRuleHolds
  intro entry k urgent
  have scan := foldl_firstFault_eq_none (groupFault entry urgent) (List.range 256) none
  simp only [true_and, List.mem_range, groupFaults_none] at scan
  unfold dialFault
  split
  · rename_i f hf
    rw [hf] at scan
    simp only [reduceCtorEq, false_iff] at scan ⊢
    exact fun ⟨h1, h2, h3, _⟩ => scan ⟨h1, h2, h3⟩
  · rename_i hf
    obtain ⟨h1, h2, h3⟩ := scan.mp hf
    dsimp only
    split
    · rename_i few
      simp only [reduceCtorEq, false_iff]
      rintro ⟨_, _, _, h4, h5, _⟩
      omega
    · rename_i enough
      split
      · rename_i few
        simp only [reduceCtorEq, false_iff]
        rintro ⟨_, _, _, _, _, h6⟩
        have := h6 few.1
        omega
      · rename_i fair
        simp only [true_iff]
        exact ⟨h1, h2, h3, by omega, by omega, fun hk => by omega⟩

/-! ### Midnight's latch (R41, R296) -/

/-- The reset node with one tenant of whom a unit of cost is still queued. -/
def queuedTenantNode : State := { State.reset with sch := { SchSt.reset with aggs := [(0, { content := 0, last := 0, queued := 1 })] } }

theorem queuedTenantNode_inv : queuedTenantNode.Inv := ⟨rfl, rfl, rfl, rfl, rfl⟩

/-- What a tenant still has queued is counted in the frame that begins (R296). -/
theorem queuedTenantNode_latched : (queuedTenantNode.latchCounters 0).regs.run = [(Reg.schTenantStat + 0xC, 1)] := by decide

/-- Refutes O13: a tenant with one unit of cost queued has its largest queue counted anew as the counters latch (R296), so that count does not start from zero. -/
theorem not_midnightLatchesEveryCounter : ¬ Obligations.MidnightLatchesEveryCounter := by
  unfold Obligations.MidnightLatchesEveryCounter
  intro h
  obtain ⟨_, allZero, _⟩ := h queuedTenantNode 0 queuedTenantNode_inv (by decide)
  rw [queuedTenantNode_latched] at allZero
  exact List.cons_ne_nil _ _ allZero

end Sys2Proof.Machine
end

section
/-!
Refresh points, the clock switch and the voltage of a mode (R47, R48, R52, R332).
-/

namespace Sys2Proof.Machine

open Sys2Proof

theorem Within.refl (m : List Blk) : Within m m := List.all_eq_true.mpr (fun _ hk => decide_eq_true hk)

/-! ### Refresh, clocks and voltage (R47, R48, R52) -/

@[simp] theorem State.refreshSsc_now (s : State) : s.refreshSsc.now = s.now := State.setStatus_now ..
@[simp] theorem State.refreshSsc_time (s : State) : s.refreshSsc.time = s.time := State.setStatus_time ..

/-- CLK_STATUS is the only register that the spread's depth shows in. -/
theorem State.refreshSsc_sameRegs {s : State} (h : s.liveWf) : SameRegsBut [Reg.clkStatus] s s.refreshSsc := fun a ha =>
  State.live_putStatus h _ _ a (fun e => ha (List.mem_singleton.mpr e))

/-- The refresh point of a bank group (R47). -/
theorem hbmRefresh_completes {s : State} {bg : Nat} (hr : s.running = true) (ht : s.inTwilight = false) (hb : bg < 16)
    (hm : s.minute % 4 = bg % 4) (hk : tickOf s.now = 256 * (bg / 4)) :
    Completes (.hbmRefresh bg) s [.time] (fun t => t.time = { s.time with hbmRefreshes := s.time.hbmRefreshes + 1 }) := by
  have he : exec (.hbmRefresh bg) s = .next { s with time := { s.time with hbmRefreshes := s.time.hbmRefreshes + 1 } } := by
    show execHbmRefresh bg s = _
    simp [execHbmRefresh, hr, ht, hm, hk, hb]
  exact completes_of he (execHbmRefresh_keeps (Within.refl _) bg (Keeps.refl s)) rfl

/-- The refresh points of the LPDDR banks (R48). -/
theorem lpddrRefresh_completes {s : State} (hr : s.running = true) (ht : s.inTwilight = false) (hk : tickOf s.now = 0 ∨ tickOf s.now = 512) :
    Completes .lpddrRefresh s [.time] (fun t =>
      t.time = { s.time with lpddrRefreshes := s.time.lpddrRefreshes + 1, lpddrBank := (s.time.lpddrBank + 1) % 16 }) := by
  have he : exec .lpddrRefresh s =
      .next { s with time := { s.time with lpddrRefreshes := s.time.lpddrRefreshes + 1, lpddrBank := (s.time.lpddrBank + 1) % 16 } } := by
    have hno : ¬(tickOf s.now ≠ 0 ∧ tickOf s.now ≠ 512) := by omega
    show execLpddrRefresh s = _
    simp only [execLpddrRefresh, hr, ht, hno, Bool.not_true, Bool.false_eq_true, or_self, if_false]
  exact completes_of he (execLpddrRefresh_keeps (Within.refl _) (Keeps.refl s)) rfl

/-- The clocks become those of the current mode at tick 64 of the frame (R52). -/
theorem modeClockSwitch_completes {s : State} (hi : s.Inv) (hr : s.running = true) (ht : s.inTwilight = false) (hm : s.minute = 0)
    (hc : s.time.clockMode ≠ s.mode) (hk : tickOf s.now < 192) :
    Completes .modeClockSwitch s [.now, .live, .time] (fun t =>
      t.now = max s.now (1048576 * s.frame + 64) ∧ t.time = { s.time with clockMode := s.mode } ∧ SameRegsBut [Reg.clkStatus] s t) := by
  let u : State := { s.advanceTo (s.now / 1048576 * 1048576 + 64) with time := { s.time with clockMode := s.mode } }
  have he : exec .modeClockSwitch s = .next u.refreshSsc := by
    have hno : ¬(191 < tickOf s.now) := by omega
    show execModeClockSwitch s = _
    simp only [execModeClockSwitch, hr, ht, hm, hc, hno, Bool.not_true, Bool.false_eq_true, ne_eq, not_true_eq_false, or_self, if_false]
    rfl
  refine completes_of he (execModeClockSwitch_keeps (Within.refl _) (Keeps.refl s)) ⟨?_, u.refreshSsc_time, State.refreshSsc_sameRegs (s := u) hi.liveWf⟩
  rw [State.refreshSsc_now]
  show max s.now (s.now / 1048576 * 1048576 + 64) = max s.now (1048576 * (s.now / 1048576) + 64)
  rw [Nat.mul_comm]

/-- From tick 192 on the clocks stay as they are (R52). -/
theorem modeClockSwitch_late {s : State} (hk : 192 ≤ tickOf s.now) : exec .modeClockSwitch s = .next s := by
  show execModeClockSwitch s = _
  exact if_pos (.inr (.inr (.inr (.inl (by omega)))))

/-- The voltage moves to the current mode's setpoint at tick 192 of a frame in which no mode change began (R332). -/
theorem marginVoltageMove_completes {s : State} (hr : s.running = true) (hm : s.minute = 0) (hc : s.time.modeChange.map Prod.fst ≠ some s.frame) :
    Completes .marginVoltageMove s [.now, .hlt] (fun t =>
      t.now = max s.now (1048576 * s.frame + 192) ∧ t.hlt = { s.hlt with voltage := s.setpoint s.mode }) := by
  have he : exec .marginVoltageMove s =
      .next { s.advanceTo (s.now / 1048576 * 1048576 + 192) with hlt := { s.hlt with voltage := s.setpoint s.mode } } := by
    show execMarginVoltageMove s = _
    simp only [execMarginVoltageMove, hr, hm, hc, Bool.not_true, Bool.false_eq_true, ne_eq, not_true_eq_false, or_self, if_false]
    rfl
  refine completes_of he (execMarginVoltageMove_keeps (Within.refl _) (Keeps.refl s)) ⟨?_, rfl⟩
  show max s.now (s.now / 1048576 * 1048576 + 192) = max s.now (1048576 * (s.now / 1048576) + 192)
  rw [Nat.mul_comm]

/-- Settles O10, point by point. -/
theorem refreshClockAndVoltageKeepTheirPoints : Obligations.RefreshClockAndVoltageKeepTheirPoints := by
  unfold Obligations.RefreshClockAndVoltageKeepTheirPoints
  refine ⟨fun s hr ht => ⟨fun bg hb hm hk => hbmRefresh_completes hr ht hb hm hk, fun hk => lpddrRefresh_completes hr ht hk⟩,
    fun s hi hr ht hm hc => ⟨fun hk => modeClockSwitch_completes hi hr ht hm hc hk, fun hk => modeClockSwitch_late hk⟩,
    fun s hr hm hc => marginVoltageMove_completes hr hm hc⟩

end Sys2Proof.Machine
end

section
/-!
The count, its minutes and its frames: what MINUTE_START and MIDNIGHT bring it to (R40, R41).
-/

namespace Sys2Proof.Machine

open Sys2Proof

/-! ### Counts (R40) -/

theorem bitsOf_eq_div_mod (x hi lo : Nat) : bitsOf x hi lo = x / 2 ^ lo % 2 ^ (hi + 1 - lo) := by
  rw [bitsOf, Nat.shiftRight_eq_div_pow]

/-- A count is its frame, its minute and its tick (R40). -/
theorem count_parts (c : Nat) :
    frameOf c = c >>> 20 ∧ minuteOf c = bitsOf c 19 10 ∧ tickOf c = bitsOf c 9 0 ∧ minuteOf c < 1024 ∧ tickOf c < 1024 ∧
      c = frameOf c * 2 ^ 20 + minuteOf c * 2 ^ 10 + tickOf c ∧ (bitsOf c 19 0 = 0 ↔ minuteOf c = 0 ∧ tickOf c = 0) := by
  simp only [bitsOf_eq_div_mod, Nat.shiftRight_eq_div_pow, frameOf, minuteOf, tickOf]
  norm_num
  omega

/-! ### The count and what the start of a minute or a frame marks -/

/-- Two states have the same count and power, and have worked the same minute and frame. -/
structure SameMarks (z s : State) : Prop where
  now : s.now = z.now
  power : s.sys.power = z.sys.power
  minute : s.sys.minuteDone = z.sys.minuteDone
  frame : s.sys.frameDone = z.sys.frameDone

/-- The parts of the state without the count and the start-up block, where the marks stand. -/
abbrev unmarked : List Blk :=
  [.live, .staged, .run, .pend, .parity, .written, .time, .pgw, .sch, .que, .vsp, .mem, .prog, .mat, .lnk, .map, .hlt, .sec, .hst, .sum, .outbox, .freeCtr]

theorem within_unmarked : Within unmarked unmarked := Within.refl _

namespace SameMarks
variable {z s t : State}

theorem refl (z : State) : SameMarks z z := ⟨rfl, rfl, rfl, rfl⟩

theorem trans (h : SameMarks z s) (g : SameMarks s t) : SameMarks z t :=
  ⟨g.now.trans h.now, g.power.trans h.power, g.minute.trans h.minute, g.frame.trans h.frame⟩

/-- What changes neither the count nor the start-up block leaves the marks. -/
theorem of_keeps (h : Keeps unmarked z s) : SameMarks z s := by
  have hsys : Blk.Same z s .sys := h.same .sys (by decide)
  exact ⟨h.same .now (by decide), (congrArg SysSt.power hsys :), (congrArg SysSt.minuteDone hsys :), (congrArg SysSt.frameDone hsys :)⟩

theorem foldl {α : Type} {f : State → α → State} (hf : ∀ s a, SameMarks s (f s a)) (l : List α) (s : State) : SameMarks s (l.foldl f s) := by
  induction l generalizing s with
  | nil => exact refl s
  | cons a l ih => exact (hf s a).trans (ih _)

theorem running (h : SameMarks z s) : s.running = z.running := congrArg (· == PowerSt.on) h.power

end SameMarks

/-! Storing a signature writes the flash alone; signing draws random bytes beside. -/

theorem State.putFlash_marks (s : State) (a : Nat) (bs : List Byte) : SameMarks s (s.putFlash a bs) := ⟨rfl, rfl, rfl, rfl⟩

theorem State.storeTop_marks (s : State) (i : Nat) (sig : List Byte) : SameMarks s (s.storeTop i sig) :=
  (s.putFlash_marks _ _).trans (State.putFlash_marks _ _ _)

theorem State.randomBytes_marks (s : State) (n : Nat) : SameMarks s (s.randomBytes n).2 := ⟨rfl, rfl, rfl, rfl⟩

theorem State.nonceLeaves_marks (s : State) : SameMarks s s.nonceLeaves.2 := s.randomBytes_marks 131072

theorem State.withSec_marks (s : State) (x : SecSt) : SameMarks s { s with sec := x } := ⟨rfl, rfl, rfl, rfl⟩

theorem State.openTree_marks (s : State) (tree : Nat) : SameMarks s (s.openTree tree) := by
  unfold State.openTree
  split
  · exact SameMarks.refl s
  · exact (s.randomBytes_marks 32).trans (State.storeTop_marks _ _ _)

theorem State.signWith_marks (s : State) (q : Nat) (head payload : List Byte) : SameMarks s (s.signWith q head payload).2 :=
  (s.openTree_marks (q / 32768)).trans (State.randomBytes_marks _ 32)

theorem State.raiseBit_marks (s : State) (a i : Nat) : SameMarks s (s.raiseBit a i) :=
  .of_keeps (State.raiseBit_keeps (within_unmarked.sub rfl) _ _ (Keeps.refl s))

theorem State.setStatus_marks (s : State) (a hi lo v : Nat) : SameMarks s (s.setStatus a hi lo v) :=
  .of_keeps (State.setStatus_keeps (within_unmarked.sub rfl) _ _ _ _ (Keeps.refl s))

theorem State.finishReport_marks (s : State) : SameMarks s s.finishReport := by
  unfold State.finishReport
  split
  · exact SameMarks.refl s
  · rename_i x _
    have signed := s.signWith_marks x.leaf headReport x.payload
    exact (signed.trans (State.withSec_marks _ _)).trans (State.raiseBit_marks _ _ _)

theorem State.useLeaf_marks (s : State) : SameMarks s s.useLeaf := by
  unfold State.useLeaf
  dsimp only
  refine SameMarks.trans (SameMarks.trans ?_ (State.withSec_marks _ _)) (State.setStatus_marks _ _ _ _ _)
  split
  · exact SameMarks.refl s
  · exact s.putFlash_marks _ _

theorem State.signReport_marks (s : State) (ok : Bool) : SameMarks s (s.signReport ok) := by
  unfold State.signReport
  split
  · exact SameMarks.refl s
  · have reserved : SameMarks s (s.finishReport.reserveLeaf ok) :=
      s.finishReport_marks.trans (.of_keeps (State.reserveLeaf_keeps (within_unmarked.sub rfl) ok (Keeps.refl _)))
    extract_lets u q
    split
    · exact reserved
    · have used := (reserved.trans (State.useLeaf_marks _)).trans (State.nonceLeaves_marks _)
      generalize (s.finishReport.reserveLeaf ok).useLeaf.nonceLeaves = drawn at used ⊢
      obtain ⟨leaves, u⟩ := drawn
      dsimp only at used ⊢
      split
      · exact (used.trans (State.withSec_marks _ _)).trans (State.setStatus_marks _ _ _ _ _)
      · exact used.trans (State.withSec_marks _ _)

/-! ### MINUTE_START -/

/-- No reading lies at its sensor's shutdown limit (R415). -/
def coolEnough (temps : List Int) : Prop := ((temps.take 176).zipIdx.any (fun x => decide (16 * (tempLimits x.2).2.1 ≤ x.1))) = false

/-- Readings below their limits are noted, and the node stays up (R415). -/
theorem State.thermal_marks (s : State) {temps : List Int} (h : coolEnough temps) : SameMarks s (s.thermal temps) := by
  have noShutdown : (temps.take 176).zipIdx.find? (fun x => decide (16 * (tempLimits x.2).2.1 ≤ x.1)) = none := by
    rw [List.find?_eq_none]
    exact fun x hx hlim => Bool.false_ne_true (h ▸ List.any_eq_true.mpr ⟨x, hx, hlim⟩)
  unfold State.thermal
  simp only [noShutdown]
  have noted := SameMarks.foldl (f := fun (s : State) (x : Int × Nat) =>
    ({ s with sys := { s.sys with tempMax := tabPut s.sys.tempMax x.2 (match tabGet s.sys.tempMax x.2 with | some y => max x.1 y | none => x.1) } }).setLive
      (Reg.pwrTemp + 4 * x.2) (putBits (s.live (Reg.pwrTemp + 4 * x.2)) 15 0 (ofSigned 16 x.1))) (fun _ _ => ⟨rfl, rfl, rfl, rfl⟩) (temps.take 176).zipIdx s
  split
  · exact noted.trans (State.raiseBit_marks _ _ _)
  · exact noted

/-- MINUTE_START up to the mark it sets. -/
def State.minuteMarked (s : State) : State :=
  let u := if minuteOf s.minuteAt = 0 then s else s.quotaShort (minuteOf s.minuteAt - 1)
  let u := ((u.advanceTo s.minuteAt).slewOn.pumpAll).setStatus Reg.pgwStatus 1 1 0
  { u with sys := { u.sys with minuteDone := some u.minutes } }

/-- Its readings. -/
def State.minuteReadings (s : State) (env : MinuteEnv) : State :=
  let s := (s.depths.fecReset.owedSummary).corrected env.sramFixed env.retried
  ((s.parityScan env.parity).feedVolts env.feedA env.feedB).thermal env.temps

/-- The work of a node still running after them. -/
def State.minuteWork (s : State) (env : MinuteEnv) : State :=
  let s := if env.signed then s.finishReport else s
  let s := ((s.ageing env.slack).journaled env.journal).modeVoltage
  let s := s.refreshTime.sendTimeFrames
  let s := if s.minute = 0 then s.cascadeProbe else s
  let s := s.serviceMinute
  (s.settleLater.retryFetches.pumpRings).checkHealth

theorem exec_minuteStart {env : MinuteEnv} {s : State} (hr : s.running = true) :
    exec (.minuteStart env) s =
      if !(s.minuteMarked.minuteReadings env).running then .next (s.minuteMarked.minuteReadings env)
      else .next ((s.minuteMarked.minuteReadings env).minuteWork env) := by
  show execMinuteStart env s = _
  unfold execMinuteStart
  rw [hr]
  rfl

/-- The count a minute starts at is a multiple of 1,024, the present one or the next (R40). -/
theorem State.minuteAt_bounds (s : State) : s.minuteAt % 1024 = 0 ∧ s.now ≤ s.minuteAt ∧ s.minuteAt ≤ s.now + 1024 := by
  unfold State.minuteAt tickOf State.minutes
  split_ifs <;> omega

theorem State.minuteMarked_marks (s : State) :
    s.minuteMarked.now = s.minuteAt ∧ s.minuteMarked.sys.minuteDone = some (s.minuteAt / 1024) ∧ s.minuteMarked.sys.power = s.sys.power := by
  have short : SameMarks s (if minuteOf s.minuteAt = 0 then s else s.quotaShort (minuteOf s.minuteAt - 1)) :=
    .of_keeps (keeps_ite (Keeps.refl s) (State.quotaShort_keeps (within_unmarked.sub rfl) _ (Keeps.refl s)))
  unfold State.minuteMarked
  dsimp only
  generalize (if minuteOf s.minuteAt = 0 then s else s.quotaShort (minuteOf s.minuteAt - 1)) = u at short ⊢
  have pumped : SameMarks (u.advanceTo s.minuteAt) (((u.advanceTo s.minuteAt).slewOn.pumpAll).setStatus Reg.pgwStatus 1 1 0) :=
    .of_keeps (State.setStatus_keeps (within_unmarked.sub rfl) _ _ _ _ (State.pumpAll_keeps (within_unmarked.sub rfl) (State.slewOn_keeps (within_unmarked.sub rfl) (Keeps.refl _))))
  have reached : max u.now s.minuteAt = s.minuteAt := by rw [short.now]; exact max_eq_right s.minuteAt_bounds.2.1
  refine ⟨pumped.now.trans reached, ?_, pumped.power.trans short.power⟩
  rw [State.minutes, pumped.now, State.advanceTo_now, reached]

theorem State.minuteReadings_marks (s : State) {env : MinuteEnv} (h : coolEnough env.temps) : SameMarks s (s.minuteReadings env) := by
  refine SameMarks.trans ?_ (State.thermal_marks _ h)
  exact .of_keeps (State.feedVolts_keeps (within_unmarked.sub rfl) _ _ (State.parityScan_keeps (within_unmarked.sub rfl) _ (State.corrected_keeps (within_unmarked.sub rfl) _ _
    (State.owedSummary_keeps (within_unmarked.sub rfl) (State.fecReset_keeps (within_unmarked.sub rfl) (State.depths_keeps (within_unmarked.sub rfl) (Keeps.refl s)))))))

theorem State.minuteWork_marks (s : State) (env : MinuteEnv) : SameMarks s (s.minuteWork env) := by
  have signed : SameMarks s (if env.signed then s.finishReport else s) := by
    split
    · exact s.finishReport_marks
    · exact SameMarks.refl s
  refine signed.trans (.of_keeps ?_)
  have aged {u : State} : Keeps unmarked u ((u.ageing env.slack).journaled env.journal).modeVoltage.refreshTime.sendTimeFrames :=
    State.sendTimeFrames_keeps (within_unmarked.sub rfl) (State.refreshTime_keeps (within_unmarked.sub rfl) (State.modeVoltage_keeps (within_unmarked.sub rfl) (State.journaled_keeps (within_unmarked.sub rfl) _ (State.ageing_keeps (within_unmarked.sub rfl) _ (Keeps.refl _)))))
  exact State.checkHealth_keeps (within_unmarked.sub rfl) (State.pumpRings_keeps (within_unmarked.sub rfl) (State.retryFetches_keeps (within_unmarked.sub rfl) (State.settleLater_keeps (within_unmarked.sub rfl)
    (State.serviceMinute_keeps (within_unmarked.sub rfl) (keeps_ite (State.cascadeProbe_keeps (within_unmarked.sub rfl) aged) aged)))))

/-- MINUTE_START brings the count to the minute it marks (R40). -/
theorem minuteStart_completes {env : MinuteEnv} {s : State} (hr : s.running = true) (h : coolEnough env.temps) :
    Completes (.minuteStart env) s (partsOf (.minuteStart env)) (fun t =>
      t.now = s.minuteAt ∧ t.now % 1024 = 0 ∧ s.now ≤ t.now ∧ t.now ≤ s.now + 1024 ∧ t.sys.minuteDone = some (t.now / 1024)) := by
  obtain ⟨hnow, hdone, hpow⟩ := s.minuteMarked_marks
  have readings := s.minuteMarked.minuteReadings_marks h
  have up : (s.minuteMarked.minuteReadings env).running = true := by
    rw [readings.running]
    exact (congrArg (· == PowerSt.on) hpow).trans hr
  have he := exec_minuteStart (env := env) hr
  rw [up] at he
  have worked := readings.trans (State.minuteWork_marks _ env)
  obtain ⟨h1, h2, h3⟩ := s.minuteAt_bounds
  have now := worked.now.trans hnow
  refine completes_of he (execMinuteStart_keeps (Within.refl _) env (Keeps.refl s)) ⟨now, now ▸ h1, now ▸ h2, now ▸ h3, ?_⟩
  rw [worked.minute, hdone, now]

/-! ### MIDNIGHT -/

/-- MIDNIGHT up to the tick at which the counters latch; a class that ends its owned minute with requests held is counted just before. -/
def State.midnightReached (s : State) : State :=
  let u := (s.advanceTo (s.midnightAt - 1)).quotaShort 1023
  (u.advanceTo u.midnightAt).pumpAll

/-- The counters latch, and the frame is marked. -/
def State.midnightMarked (s : State) (env : MidnightEnv) (ended : Nat) : State :=
  let u := s.latchAll env ended
  { u with sys := { u.sys with frameDone := some u.frame } }

/-- The work of the frame that begins. -/
def State.midnightWork (s : State) (env : MidnightEnv) (ended : Nat) (fresh : Bool) : State :=
  let s := s.pendingEffect.urgentQps.saturation.duskShort
  let s := s.activateVersions.applyDueEdits
  let s := s.mapMidnight.modeMidnight
  let s := s.halveScores.partsAct
  let s := (s.voltagePlan fresh).refreshLimits
  let s := if s.inService then (s.seal ended).weightRetry else s
  let s := (s.signReport env.counterOk).notice
  ((s.writeCheckpoint.proposeDrain).checkHealth).heartbeat

theorem exec_midnight {env : MidnightEnv} {s : State} (hr : s.running = true) :
    ∃ ended fresh, exec (.midnight env) s = .next ((s.midnightReached.midnightMarked env ended).midnightWork env ended fresh) := by
  show ∃ _ _, execMidnight env s = _
  unfold execMidnight
  -- the states named here are the lets of execMidnight, folded one by one
  rw [hr, if_neg (by decide)]
  extract_lets _ _ fresh u ended _ _ v
  have reached : u = s.midnightReached := rfl
  clear_value u
  subst reached
  have marked : v = s.midnightReached.midnightMarked env ended := rfl
  clear_value ended v
  subst marked
  exact ⟨ended, fresh, rfl⟩

/-- The count a frame starts at is a multiple of 1,048,576, the present one or the next (R40). -/
theorem State.midnightAt_bounds (s : State) : s.midnightAt % 1048576 = 0 ∧ s.now ≤ s.midnightAt ∧ s.midnightAt ≤ s.now + 1048576 := by
  unfold State.midnightAt State.frame frameOf
  split_ifs <;> omega

/-- One tick before a Midnight the next frame is still the same one. -/
theorem State.midnightAt_tick_before {s u : State} (hu : u.now = max s.now (s.midnightAt - 1)) (hf : u.sys.frameDone = s.sys.frameDone) :
    u.midnightAt = s.midnightAt := by
  by_cases due : s.now % 1048576 = 0 ∧ s.sys.frameDone ≠ some s.frame
  · have here : s.midnightAt = s.now := if_pos due
    have stays : u.now = s.now := by omega
    unfold State.midnightAt State.frame
    rw [stays, hf]
  · have next : s.midnightAt = 1048576 * (s.now / 1048576 + 1) := if_neg due
    have before : u.now = 1048576 * (s.now / 1048576) + 1048575 := by omega
    have notYet : u.midnightAt = 1048576 * (u.now / 1048576 + 1) := if_neg (by omega)
    omega

theorem State.midnightReached_marks (s : State) : SameMarks (s.advanceTo s.midnightAt) s.midnightReached := by
  have short : SameMarks (s.advanceTo (s.midnightAt - 1)) ((s.advanceTo (s.midnightAt - 1)).quotaShort 1023) :=
    .of_keeps (State.quotaShort_keeps (within_unmarked.sub rfl) _ (Keeps.refl _))
  unfold State.midnightReached
  dsimp only
  generalize (s.advanceTo (s.midnightAt - 1)).quotaShort 1023 = u at short ⊢
  have same : u.midnightAt = s.midnightAt := State.midnightAt_tick_before short.now short.frame
  have now : max u.now u.midnightAt = max s.now s.midnightAt := by
    rw [same, short.now, State.advanceTo_now]
    omega
  have pumped : SameMarks (u.advanceTo u.midnightAt) (u.advanceTo u.midnightAt).pumpAll :=
    .of_keeps (State.pumpAll_keeps (within_unmarked.sub rfl) (Keeps.refl _))
  have moved : SameMarks (s.advanceTo s.midnightAt) (u.advanceTo u.midnightAt) := ⟨now, short.power, short.minute, short.frame⟩
  exact moved.trans pumped

theorem State.latchPower_marks (s : State) (env : MidnightEnv) : SameMarks s (s.latchPower env) := by
  unfold State.latchPower
  have latched := SameMarks.foldl (f := fun (s : State) (p : Nat × Int) =>
    s.setLive (Reg.pwrTemp + 4 * p.1) (putBits (s.live (Reg.pwrTemp + 4 * p.1)) 31 16 (ofSigned 16 p.2))) (fun _ _ => ⟨rfl, rfl, rfl, rfl⟩)
    s.sys.tempMax (s.setLive Reg.pwrInput (env.powerAvg % 65536 + 65536 * (env.powerMax % 65536)))
  exact ⟨latched.now, latched.power, latched.minute, latched.frame⟩

theorem State.latchAll_marks (s : State) (env : MidnightEnv) (ended : Nat) : SameMarks s (s.latchAll env ended) := by
  have counters : SameMarks s (((s.latchCounters ended).latchYard ended).latchOccupancy) :=
    .of_keeps (State.latchOccupancy_keeps (within_unmarked.sub rfl) (State.latchYard_keeps (within_unmarked.sub rfl) _
      (State.latchCounters_keeps (within_unmarked.sub rfl) _ (Keeps.refl s))))
  exact (counters.trans (State.latchPower_marks _ env)).trans (.of_keeps (State.latchAge_keeps (within_unmarked.sub rfl) (Keeps.refl _)))

theorem State.midnightWork_marks (s : State) (env : MidnightEnv) (ended : Nat) (fresh : Bool) : SameMarks s (s.midnightWork env ended fresh) := by
  have acted {u : State} (h : Keeps unmarked s u) : Keeps unmarked s ((u.mapMidnight.modeMidnight.halveScores.partsAct).voltagePlan fresh).refreshLimits :=
    State.refreshLimits_keeps (within_unmarked.sub rfl) (State.voltagePlan_keeps (within_unmarked.sub rfl) _ (State.partsAct_keeps (within_unmarked.sub rfl)
      (State.halveScores_keeps (within_unmarked.sub rfl) (State.modeMidnight_keeps (within_unmarked.sub rfl) (State.mapMidnight_keeps (within_unmarked.sub rfl) h)))))
  have opened : Keeps unmarked s s.pendingEffect.urgentQps.saturation.duskShort.activateVersions.applyDueEdits :=
    State.applyDueEdits_keeps (within_unmarked.sub rfl) (State.activateVersions_keeps (within_unmarked.sub rfl) (State.duskShort_keeps (within_unmarked.sub rfl)
      (State.saturation_keeps (within_unmarked.sub rfl) (State.urgentQps_keeps (within_unmarked.sub rfl) (State.pendingEffect_keeps (within_unmarked.sub rfl) (Keeps.refl s))))))
  have sealed {u : State} (h : Keeps unmarked s u) : Keeps unmarked s (if u.inService then (u.seal ended).weightRetry else u) :=
    keeps_ite (State.weightRetry_keeps (within_unmarked.sub rfl) (State.seal_keeps (within_unmarked.sub rfl) _ h)) h
  have signed := (SameMarks.of_keeps (sealed (acted opened))).trans (State.signReport_marks _ env.counterOk)
  exact signed.trans (.of_keeps (State.heartbeat_keeps (within_unmarked.sub rfl) (State.checkHealth_keeps (within_unmarked.sub rfl)
    (State.proposeDrain_keeps (within_unmarked.sub rfl) (State.writeCheckpoint_keeps (within_unmarked.sub rfl) (State.notice_keeps (within_unmarked.sub rfl) (Keeps.refl _)))))))

theorem State.midnightMarked_marks (s : State) (env : MidnightEnv) (ended : Nat) :
    (s.midnightMarked env ended).now = s.now ∧ (s.midnightMarked env ended).sys.frameDone = some (s.now / 1048576) := by
  have latched := s.latchAll_marks env ended
  refine ⟨latched.now, ?_⟩
  show some (frameOf (s.latchAll env ended).now) = _
  rw [latched.now]
  rfl

/-- MIDNIGHT brings the count to the frame it marks (R40, R41). -/
theorem midnight_completes {env : MidnightEnv} {s : State} (hr : s.running = true) :
    Completes (.midnight env) s (partsOf (.midnight env)) (fun t =>
      t.now = s.midnightAt ∧ t.now % 1048576 = 0 ∧ s.now ≤ t.now ∧ t.now ≤ s.now + 1048576 ∧ t.sys.frameDone = some (t.now / 1048576)) := by
  obtain ⟨h1, h2, h3⟩ := s.midnightAt_bounds
  obtain ⟨ended, fresh, he⟩ := exec_midnight (env := env) hr
  have reached : s.midnightReached.now = s.midnightAt := s.midnightReached_marks.now.trans (max_eq_right h2)
  obtain ⟨marked, frame⟩ := s.midnightReached.midnightMarked_marks env ended
  rw [reached] at marked frame
  generalize s.midnightReached.midnightMarked env ended = u at he marked frame
  have worked := u.midnightWork_marks env ended fresh
  refine completes_of he (execMidnight_keeps (Within.refl _) env (Keeps.refl s)) ?_
  rw [worked.frame, worked.now, marked]
  exact ⟨rfl, h1, h2, h3, frame⟩

/-- Settles O11. -/
theorem minutesFramesAndCounts : Obligations.MinutesFramesAndCounts := by
  unfold Obligations.MinutesFramesAndCounts
  exact ⟨count_parts, fun s hr => ⟨fun env cool => minuteStart_completes hr cool, fun env => midnight_completes hr⟩⟩

end Sys2Proof.Machine
end

section
/-!
Registers of the time block under the operations that fence a node: none of them writes one (R36, R38, R319).
-/

namespace Sys2Proof.Machine

open Sys2Proof

/-- The live table is canonical, and every register of the time block reads in s as in z. -/
structure TimeRegs (z s : State) : Prop where
  wf : s.liveWf
  same : ∀ a, a / 0x100000 = 3 → s.live a = z.live a

/-- Every part of the state but the live register values. -/
abbrev unlive : List Blk :=
  [.now, .staged, .run, .pend, .parity, .written, .time, .pgw, .sch, .que, .vsp, .mem, .prog, .mat, .lnk, .map, .hlt, .sec, .hst, .sys, .sum, .outbox, .freeCtr]

theorem within_unlive : Within unlive unlive := Within.refl _

namespace TimeRegs
variable {z s t : State}

theorem refl (h : s.liveWf) : TimeRegs s s := ⟨h, fun _ _ => rfl⟩

theorem trans (h : TimeRegs z s) (g : TimeRegs s t) : TimeRegs z t := ⟨g.wf, fun a ha => (g.same a ha).trans (h.same a ha)⟩

theorem of_live (h : TimeRegs z s) (e : t.regs.live = s.regs.live := by rfl) : TimeRegs z t := by
  refine ⟨?_, fun a ha => ?_⟩
  · rw [State.liveWf, e]; exact h.wf
  · rw [State.live, e]; exact h.same a ha

theorem keeps (h : TimeRegs z s) (k : Keeps unlive s t) : TimeRegs z t := h.of_live (k.same .live (by decide))

theorem fld (h : TimeRegs z s) {a : Nat} (ha : a / 0x100000 = 3) (hi lo : Nat) : s.fld a hi lo = z.fld a hi lo :=
  congrArg (bitsOf · hi lo) (h.same a ha)

theorem bit (h : TimeRegs z s) {a : Nat} (ha : a / 0x100000 = 3) (i : Nat) : s.bit a i = z.bit a i :=
  congrArg (bitOf · i) (h.same a ha)

theorem setLive (h : TimeRegs z s) {a : Nat} (ha : a / 0x100000 ≠ 3) (v : Nat) : TimeRegs z (s.setLive a v) :=
  ⟨h.wf.setLive a v, fun x hx => by rw [State.live_setLive h.wf, if_neg (show x ≠ a from fun e => ha (e ▸ hx))]; exact h.same x hx⟩

theorem putStatus (h : TimeRegs z s) {a : Nat} (ha : a / 0x100000 ≠ 3) (v : Nat) : TimeRegs z (s.putStatus a v) :=
  ⟨State.putStatus_liveWf h.wf a v, fun x hx => (State.live_putStatus h.wf a v x (fun e => ha (e ▸ hx))).trans (h.same x hx)⟩

theorem setStatus (h : TimeRegs z s) {a : Nat} (ha : a / 0x100000 ≠ 3) (hi lo v : Nat) : TimeRegs z (s.setStatus a hi lo v) := h.putStatus ha _

theorem raiseBit (h : TimeRegs z s) {a : Nat} (ha : a / 0x100000 ≠ 3) (i : Nat) : TimeRegs z (s.raiseBit a i) :=
  ⟨State.raise_liveWf h.wf a _, fun x hx => by rw [State.raiseBit, State.live_raise h.wf, if_neg (show x ≠ a from fun e => ha (e ▸ hx))]; exact h.same x hx⟩

theorem foldl {α : Type} {f : State → α → State} (hf : ∀ s a, TimeRegs z s → TimeRegs z (f s a)) (l : List α) (h : TimeRegs z s) : TimeRegs z (l.foldl f s) := by
  induction l generalizing s with
  | nil => exact h
  | cons a l ih => exact ih (hf s a h)

/-! Packets out (R256, R271) -/

theorem unroutable (h : TimeRegs z s) : TimeRegs z s.unroutable :=
  (h.keeps (State.bump_keeps (within_unlive.sub rfl) _ _ (Keeps.refl s))).raiseBit (by decide) 4

theorem enqueue (h : TimeRegs z s) (n : Nat) (here : Bool) (p : Packet) : TimeRegs z (s.enqueue n here p) :=
  h.keeps (State.enqueue_keeps (within_unlive.sub rfl) _ _ _ (Keeps.refl s))

theorem routeOut (h : TimeRegs z s) (inLink : Option Nat) (hop : Hop × Packet) : TimeRegs z (s.routeOut inLink hop) := by
  unfold State.routeOut
  split
  · split
    · split
      · exact h.enqueue _ _ _
      · exact h.of_live
    · exact h.unroutable
  · split
    · exact h.enqueue _ _ _
    · exact h.of_live
  · exact h

theorem routePacket (h : TimeRegs z s) (inLink : Option Nat) (p : Packet) : TimeRegs z (s.routePacket inLink p) := by
  unfold State.routePacket
  split
  · split
    · exact h
    · exact h.of_live
  · exact h.unroutable
  · split
    · exact h.routeOut _ _
    · exact h

theorem sendTransport (h : TimeRegs z s) (cls dst dqp tkind psn tflags part hint sqp : Nat) (msg : List Byte) :
    TimeRegs z (s.sendTransport cls dst dqp tkind psn tflags part hint sqp msg) := h.routePacket none _

theorem sendMessage (h : TimeRegs z s) (k cls tkind : Nat) (urgent : Bool) (msg : List Byte) (op : Nat) :
    TimeRegs z (s.sendMessage k cls tkind urgent msg op) := by
  unfold State.sendMessage
  split
  · exact h
  · exact (h.keeps (State.putQp_keeps (within_unlive.sub rfl) _ _ (Keeps.refl s))).sendTransport ..

theorem sendNotReady (h : TimeRegs z s) (arr : Arrival) (hint : Nat) (carries : Bool) : TimeRegs z (s.sendNotReady arr hint carries) := by
  unfold State.sendNotReady
  refine sendTransport (keeps ?_ (State.bump_keeps (within_unlive.sub rfl) _ _ (Keeps.refl _))) ..
  split
  · exact h.of_live
  · exact h

/-! Messages of the node (R189, R275, R279) -/

theorem sendLater (h : TimeRegs z s) (k : Nat) : TimeRegs z (s.sendLater k) :=
  foldl (fun s m h => by
    dsimp only
    split
    · exact ((h.of_live (t := { s with que := { s.que with later := s.que.later.filter (fun x => x.op != m.op) } })).keeps
        (State.touchQp_keeps (within_unlive.sub rfl) k (Keeps.refl _))).sendMessage ..
    · exact h) _ h

theorem unreachable (h : TimeRegs z s) (qpn : Nat) : TimeRegs z (s.unreachable qpn) :=
  foldl (fun _ _ h => h.sendNotReady ..) _ (raiseBit (setStatus h.of_live (by decide) ..) (by decide) _)

theorem startFetch (h : TimeRegs z s) (qpn : Nat) : TimeRegs z (s.startFetch qpn) := by
  unfold State.startFetch
  split
  · exact h
  · split
    · exact h.unreachable qpn
    · split
      · exact (h.unreachable qpn).of_live
      · split
        · exact keeps h.of_live (State.startEvict_keeps (within_unlive.sub rfl) (Keeps.refl _))
        · split
          · rename_i u read
            have k := (State.hostRead_keeps (within_unlive.sub rfl) _ _ _ _ (Keeps.refl s)).some u read
            exact (h.keeps k).of_live
          · exact h.of_live

theorem hostWrite (h : TimeRegs z s) (fn a : Nat) (bytes : List Byte) : TimeRegs z (s.hostWrite fn a bytes) :=
  h.keeps (State.hostWrite_keeps (within_unlive.sub rfl) fn a bytes (Keeps.refl s))

theorem systemQp (h : TimeRegs z s) (peer : Nat) : TimeRegs z (s.systemQp peer).2 := by
  unfold State.systemQp
  split
  · exact h
  · extract_lets _ _ _ _ _ _ _ v
    have named : TimeRegs z v := h.of_live
    clear_value v
    split
    · exact setStatus named.of_live (by decide) ..
    · dsimp only
      exact hostWrite named.of_live ..

theorem nodeOp (h : TimeRegs z s) (peer : Nat) (msg : List Byte) (kind : OpKind) (cls : Nat) (urgent : Bool) :
    TimeRegs z (s.nodeOp peer msg kind cls urgent) := by
  unfold State.nodeOp
  dsimp only
  split
  · exact startFetch ((h.systemQp peer).of_live) _
  · exact sendLater ((h.systemQp peer).of_live) _

/-! Tiles that stay poisoned, pages that are lost, versions no longer used (R149, R194, R196, R216) -/

theorem weightAsk (h : TimeRegs z s) (k : TileKey) (after : Option Nat) : TimeRegs z (s.weightAsk k after) := by
  unfold State.weightAsk
  split
  · exact h
  · split
    · exact h
    · exact h.nodeOp ..

theorem refreshPoison (h : TimeRegs z s) : TimeRegs z s.refreshPoison := setLive (h.setStatus (by decide) ..) (by decide) _

theorem endRefills (h : TimeRegs z s) : TimeRegs z s.endRefills := setStatus h.of_live (by decide) ..

theorem refreshMat (h : TimeRegs z s) : TimeRegs z s.refreshMat := by
  unfold State.refreshMat
  dsimp only
  split
  · exact h.endRefills
  · exact h.endRefills.raiseBit (by decide) 3

theorem retireUnits (h : TimeRegs z s) : TimeRegs z s.retireUnits := by
  unfold State.retireUnits
  dsimp only
  split
  · exact h
  · exact setStatus h.of_live (by decide) ..

theorem rehome (h : TimeRegs z s) (k : TileKey) (work : Bool) : TimeRegs z (s.rehome k work) := by
  unfold State.rehome
  extract_lets
  split
  · exact h
  · split
    · exact retireUnits h.of_live
    · exact h

theorem clearPoison (h : TimeRegs z s) (k : TileKey) : TimeRegs z (s.clearPoison k) := by
  unfold State.clearPoison
  extract_lets bad _ _ u
  have moved : TimeRegs z u := foldl (fun _ w h => h.rehome k w) bad h
  clear_value u
  split
  · exact moved
  · exact raiseBit (refreshPoison (setLive (refreshMat moved.of_live) (by decide) _)) (by decide) 4

theorem weightAnswer (h : TimeRegs z s) (k : TileKey) (donor : Nat) (bytes : Option (List Byte)) : TimeRegs z (s.weightAnswer k donor bytes) := by
  unfold State.weightAnswer
  split
  · exact h
  · split
    · split
      · exact h.clearPoison k
      · exact h.weightAsk ..
    · exact h.weightAsk ..

theorem lostPage (h : TimeRegs z s) (id : Nat) (x : PageRef) : TimeRegs z ((s.abandonMove id).markLost x) :=
  h.keeps (State.markLost_keeps (within_unlive.sub rfl) _ (State.abandonMove_keeps (within_unlive.sub rfl) _ (Keeps.refl s)))

theorem fetchFailed (h : TimeRegs z s) (id : Nat) : TimeRegs z (s.fetchFailed id) := by
  unfold State.fetchFailed
  split
  · exact h
  · have raised : TimeRegs z (s.raiseBit Reg.memEvent 2) := h.raiseBit (by decide) 2
    dsimp only
    split
    · split
      · exact nodeOp raised.of_live ..
      · exact raised.lostPage ..
    · exact raised.lostPage ..

theorem dropStale (h : TimeRegs z s) : TimeRegs z s.dropStale := by
  unfold State.dropStale
  extract_lets
  split
  · exact h
  · exact endRefills (refreshPoison h.of_live)

theorem dropRun (h : TimeRegs z s) (rid : Nat) : TimeRegs z (s.dropRun rid) := by
  have ended := h.keeps (State.endProgram_keeps (within_unlive.sub rfl) rid (Keeps.refl s))
  exact dropStale (keeps (of_live ended) (State.sweepGhosts_keeps (within_unlive.sub rfl) (Keeps.refl _)))

theorem failRun (h : TimeRegs z s) (rid status detail : Nat) : TimeRegs z (s.failRun rid status detail) := by
  unfold State.failRun
  split
  · exact h
  · refine keeps ?_ (State.reply_keeps (within_unlive.sub rfl) _ (Keeps.refl _))
    have stalled {l : List (Stall × Nat)} {m : List Byte} : Keeps unlive s (l.foldl (fun s x => s.stallTicks (Msg.tenant m) x.1 x.2) s) :=
      keeps_foldl (fun _ _ k => State.stallTicks_keeps (within_unlive.sub rfl) _ _ _ k) (Keeps.refl s)
    have dropped {r : Run} {l : List (Stall × Nat)} {m : List Byte} :
        TimeRegs z (((l.foldl (fun s x => s.stallTicks (Msg.tenant m) x.1 x.2) s).keepReads r).dropRun rid |>.countClamps r) :=
      ((h.keeps (State.keepReads_keeps (within_unlive.sub rfl) r stalled)).dropRun rid).keeps (State.countClamps_keeps (within_unlive.sub rfl) r (Keeps.refl _))
    split
    · exact dropped.keeps (State.endVerify_keeps (within_unlive.sub rfl) _ _ _ (Keeps.refl _))
    · exact dropped

theorem sweepLost (h : TimeRegs z s) : TimeRegs z s.sweepLost :=
  foldl (fun s r h => by
    dsimp only
    split
    · exact h
    · split
      · exact h
      · exact h.failRun ..) _ h

theorem tier2Fail (h : TimeRegs z s) (id : Nat) : TimeRegs z (s.tier2Fail id) := by
  unfold State.tier2Fail
  split
  · exact h
  · exact sweepLost (fetchFailed (h.keeps (State.fetchTrouble_keeps (within_unlive.sub rfl) _ (Keeps.refl s))) id)

/-! Fencing (R38, R319) -/

theorem opFailed (h : TimeRegs z s) (o : NodeOp) : TimeRegs z (s.opFailed o) := by
  have taken (rid : Nat) : Keeps unlive s (s.takeForwarded rid).2 := State.takeForwarded_keeps (within_unlive.sub rfl) rid (Keeps.refl s)
  unfold State.opFailed
  split
  · exact h.keeps (State.spillFailed_keeps (within_unlive.sub rfl) _ (Keeps.refl s))
  · exact h.tier2Fail _
  · exact h.weightAnswer ..
  · dsimp only
    split
    · exact h.keeps (State.remoteReply_keeps (within_unlive.sub rfl) _ _ _ _ (taken _))
    · exact h
  · dsimp only
    split
    · exact h.keeps (State.reply_keeps (within_unlive.sub rfl) _ (State.bump_keeps (within_unlive.sub rfl) _ _ (taken _)))
    · exact h
  · exact h
  · exact h

theorem failQp (h : TimeRegs z s) (k : Nat) (st : QpState) : TimeRegs z (s.failQp k st) :=
  foldl (fun _ o h => h.opFailed o.2) _ (foldl (fun s o h => h.keeps (State.dropOp_keeps (within_unlive.sub rfl) o.1 (Keeps.refl s))) _
    (keeps h.of_live (State.mapQp_keeps (within_unlive.sub rfl) _ _ (Keeps.refl _))))

theorem dropHeld (h : TimeRegs z s) : TimeRegs z s.dropHeld := by
  refine setStatus (of_live (foldl (fun s r h => ?_) s.sch.held h)) (by decide) ..
  extract_lets u v
  have uncharged : TimeRegs z u := by
    subst u
    split
    · exact h.keeps (State.putAgg_keeps (within_unlive.sub rfl) _ _ (Keeps.refl s))
    · exact h
  have left : TimeRegs z v := uncharged.keeps (State.mapQp_keeps (within_unlive.sub rfl) _ _ (Keeps.refl u))
  exact left.of_live

theorem fenceNode (h : TimeRegs z s) : TimeRegs z s.fenceNode := by
  unfold State.fenceNode
  split
  · exact h
  · refine raiseBit (setStatus (foldl (fun _ q h => h.failQp q.1 .error) _ (foldl (fun s q h => ?_) _ ?_)) (by decide) ..) (by decide) 1
    · split
      · exact h
      · exact h.failQp q.1 .error
    · exact keeps h.dropHeld.of_live (State.dropTransit_keeps (within_unlive.sub rfl) (Keeps.refl _))

theorem fenceSelf (h : TimeRegs z s) : TimeRegs z s.fenceSelf := by
  unfold State.fenceSelf
  split
  · exact h
  · exact putStatus (h.fenceNode.keeps (State.startFetchMap_keeps (within_unlive.sub rfl) _ (Keeps.refl _))) (by decide) _

theorem fenceForTime (h : TimeRegs z s) : TimeRegs z s.fenceForTime := h.fenceSelf.of_live

end TimeRegs

end Sys2Proof.Machine
end

section
/-!
Fabric time: what each operation of the time unit leaves (R30, R32, R34, R36, R38).
-/

namespace Sys2Proof.Machine

open Sys2Proof

/-! ### Event registers and status fields (R392) -/

@[simp] theorem State.raiseBit_time (s : State) (a i : Nat) : (s.raiseBit a i).time = s.time := (congrArg State.time (s.raiseBit_signals a i) :)
@[simp] theorem State.raiseBit_now (s : State) (a i : Nat) : (s.raiseBit a i).now = s.now := (congrArg State.now (s.raiseBit_signals a i) :)
@[simp] theorem State.raiseBit_map (s : State) (a i : Nat) : (s.raiseBit a i).map = s.map := (congrArg State.map (s.raiseBit_signals a i) :)
@[simp] theorem State.raiseBit_lnk (s : State) (a i : Nat) : (s.raiseBit a i).lnk = s.lnk := (congrArg State.lnk (s.raiseBit_signals a i) :)

/-- A bit below the sequence number depends on the low 24 bits alone. -/
theorem bitOf_low {x y i : Nat} (h : x % 2 ^ 24 = y % 2 ^ 24) (hi : i < 24) : bitOf x i = bitOf y i := by
  have low (n : Nat) : (n % 2 ^ 24).testBit i = n.testBit i := by rw [Nat.testBit_mod_two_pow, decide_eq_true hi, Bool.true_and]
  rw [bitOf, bitOf, ← low x, ← low y, h]

/-- Recording an event bit sets it and leaves the other bits of the register. -/
theorem State.bit_raiseBit {s : State} (h : s.liveWf) (a : Nat) {i j : Nat} (hi : i < 24) (hj : j < 24) :
    (s.raiseBit a i).bit a j = (s.bit a j || decide (i = j)) := by
  have low : (s.raiseBit a i).live a % 2 ^ 24 = (s.live a ||| 2 ^ i) % 2 ^ 24 := by
    rw [State.raiseBit, State.live_raise h, if_pos rfl, Nat.mod_mod_of_dvd _ ⟨256, by decide⟩, seqUp_low,
      Nat.mod_eq_of_lt (Nat.pow_lt_pow_right (by decide) hi)]
  rw [State.bit, bitOf_low low hj, bitOf, Nat.testBit_or, Nat.testBit_two_pow]
  rfl

theorem State.raiseBit_sameRegs {s : State} (h : s.liveWf) (a i : Nat) : SameRegsBut [a] s (s.raiseBit a i) := fun x hx => by
  rw [State.raiseBit, State.live_raise h, if_neg (fun e => hx (List.mem_singleton.mpr e))]

theorem State.setStatus_sameRegs {s : State} (h : s.liveWf) (a hi lo v : Nat) : SameRegsBut [a] s (s.setStatus a hi lo v) := fun x hx =>
  State.live_putStatus h a _ x (fun e => hx (List.mem_singleton.mpr e))

namespace SameRegsBut
variable {as bs : List Nat} {s t u : State}

theorem fld (h : SameRegsBut as s t) {a : Nat} (ha : a ∉ as) (hi lo : Nat) : t.fld a hi lo = s.fld a hi lo := congrArg (bitsOf · hi lo) (h a ha)

theorem bit (h : SameRegsBut as s t) {a : Nat} (ha : a ∉ as) (i : Nat) : t.bit a i = s.bit a i := congrArg (bitOf · i) (h a ha)

theorem refl (as : List Nat) (s : State) : SameRegsBut as s s := fun _ _ => rfl

theorem trans (h : SameRegsBut as s t) (g : SameRegsBut as t u) : SameRegsBut as s u := fun a ha => (g a ha).trans (h a ha)

theorem mono (h : SameRegsBut as s t) (hs : as ⊆ bs) : SameRegsBut bs s t := fun a ha => h a (fun m => ha (hs m))

end SameRegsBut

/-! ### What the node shows of its time (R30, R36) -/

/-- The fields of TIME_STATUS as the facts give them. -/
def State.shownStatus (s : State) : Nat :=
  let f := s.timeFacts
  let v := putBits (putBits (putBits (s.live Reg.timeStatus) 1 0 f.1) 3 3 (b2n f.2.2)) 8 5 f.2.1
  if f.2.1 = 15 then putBits v 2 2 0 else v

/-- The parent and the validity follow the facts. -/
def State.sourced (s : State) : State :=
  { s with time := { s.time with parent := if s.timeFacts.1 = 2 then s.timeParent.map Prod.fst else none, ppsValid := s.ppsOk } }

/-- So does TIME_STATUS. -/
def State.shown (s : State) : State := s.sourced.putStatus Reg.timeStatus s.shownStatus

/-- The first half of refreshTime: what is shown follows the facts, and a change of source is an event. -/
def State.showTime (s : State) : State :=
  if s.timeFacts.1 ≠ bitsOf (s.live Reg.timeStatus) 1 0 then s.shown.raiseBit Reg.timeEvent 4 else s.shown

/-- A node in service that has acquired time and has no source left loses it (R36). -/
def State.timeLost (s : State) : Prop := s.timeFacts.2.1 = 15 ∧ s.showTime.inService ∧ !s.showTime.inTwilight ∧ s.showTime.time.acquired

theorem State.refreshTime_of_lost {s : State} (h : s.timeLost) : s.refreshTime = s.showTime.loseTime := if_pos h
theorem State.refreshTime_of_not_lost {s : State} (h : ¬s.timeLost) : s.refreshTime = s.showTime := if_neg h

@[simp] theorem State.shown_now (s : State) : s.shown.now = s.now := s.sourced.putStatus_now _ _

@[simp] theorem State.shown_time (s : State) :
    s.shown.time = { s.time with parent := if s.timeFacts.1 = 2 then s.timeParent.map Prod.fst else none, ppsValid := s.ppsOk } :=
  s.sourced.putStatus_time _ _

@[simp] theorem State.showTime_time (s : State) :
    s.showTime.time = { s.time with parent := if s.timeFacts.1 = 2 then s.timeParent.map Prod.fst else none, ppsValid := s.ppsOk } := by
  unfold State.showTime
  split
  · exact (State.raiseBit_time ..).trans s.shown_time
  · exact s.shown_time

@[simp] theorem State.showTime_now (s : State) : s.showTime.now = s.now := by
  unfold State.showTime
  split
  · exact (State.raiseBit_now ..).trans s.shown_now
  · exact s.shown_now

section
variable {s : State} (h : s.liveWf)
include h

theorem State.shown_wf : s.shown.liveWf := State.putStatus_liveWf (s := s.sourced) h _ _

theorem State.shown_sameRegs : SameRegsBut [Reg.timeStatus] s s.shown := fun x hx =>
  State.live_putStatus (s := s.sourced) h _ _ x (fun e => hx (List.mem_singleton.mpr e))

theorem State.shown_status : s.shown.live Reg.timeStatus % 2 ^ 24 = s.shownStatus % 2 ^ 24 :=
  State.putStatus_low (s := s.sourced) h _ _

theorem State.showTime_wf : s.showTime.liveWf := by
  unfold State.showTime
  split
  · exact State.raise_liveWf (State.shown_wf h) ..
  · exact State.shown_wf h

/-- The events recorded so far stay, and nothing but them and TIME_STATUS is written. -/
theorem State.showTime_sameRegs : SameRegsBut [Reg.timeStatus, Reg.timeEvent] s s.showTime := by
  have shown := (State.shown_sameRegs h).mono (bs := [Reg.timeStatus, Reg.timeEvent]) (by decide)
  unfold State.showTime
  split
  · exact shown.trans ((State.raiseBit_sameRegs (State.shown_wf h) _ _).mono (by decide))
  · exact shown

theorem State.showTime_event {i : Nat} (hi : i < 24) (e : s.bit Reg.timeEvent i = true) : s.showTime.bit Reg.timeEvent i = true := by
  have shown : s.shown.bit Reg.timeEvent i = true := ((State.shown_sameRegs h).bit (by decide) i).trans e
  unfold State.showTime
  split
  · rw [State.bit_raiseBit (State.shown_wf h) _ (by decide) hi, shown, Bool.true_or]
  · exact shown

theorem State.showTime_status : s.showTime.live Reg.timeStatus % 2 ^ 24 = s.shownStatus % 2 ^ 24 := by
  have shown := State.shown_status h
  unfold State.showTime
  split
  · rw [State.raiseBit_sameRegs (State.shown_wf h) _ _ _ (by decide)]
    exact shown
  · exact shown

/-- TIME_STATUS shows the source. -/
theorem State.showTime_source : s.showTime.fld Reg.timeStatus 1 0 = s.timeFacts.1 % 4 := by
  rw [State.fld, bitsOf_low (State.showTime_status h) (by decide)]
  unfold State.shownStatus
  dsimp only
  split
  · rw [bitsOf_putBits_other (by decide) _ _ (by decide), bitsOf_putBits_other (by decide) _ _ (by decide),
      bitsOf_putBits_other (by decide) _ _ (by decide), bitsOf_putBits (by decide)]
    rfl
  · rw [bitsOf_putBits_other (by decide) _ _ (by decide),
      bitsOf_putBits_other (by decide) _ _ (by decide), bitsOf_putBits (by decide)]
    rfl

/-- TIME_STATUS shows the hop count. -/
theorem State.showTime_hop : s.showTime.fld Reg.timeStatus 8 5 = s.timeFacts.2.1 % 16 := by
  rw [State.fld, bitsOf_low (State.showTime_status h) (by decide)]
  unfold State.shownStatus
  dsimp only
  split
  · rw [bitsOf_putBits_other (by decide) _ _ (by decide), bitsOf_putBits (by decide)]
    rfl
  · rw [bitsOf_putBits (by decide)]
    rfl

/-- While there is a source the node stays as locked as it was. -/
theorem State.showTime_locked (hop : s.timeFacts.2.1 ≠ 15) : s.showTime.fld Reg.timeStatus 2 2 = s.fld Reg.timeStatus 2 2 := by
  rw [State.fld, bitsOf_low (State.showTime_status h) (by decide)]
  unfold State.shownStatus
  rw [if_neg hop, bitsOf_putBits_other (by decide) _ _ (by decide), bitsOf_putBits_other (by decide) _ _ (by decide),
    bitsOf_putBits_other (by decide) _ _ (by decide)]
  rfl

end

/-! ### Losing time, and taking it anew (R36, R38) -/

/-- The time unit of a node that loses time. -/
def TimeSt.lost (t : TimeSt) : TimeSt := { t with acquired := false, slew := 0, revealed := 0, reveal := false }

theorem State.fenceForTime_keeps_time (s : State) : s.fenceForTime.time = s.time :=
  (State.fenceForTime_keeps (m := [.live, .run, .pgw, .sch, .que, .vsp, .mem, .prog, .mat, .lnk, .map, .hlt, .sec, .hst, .sum, .outbox, .freeCtr])
    rfl (Keeps.refl s)).same .time (by decide)

theorem State.fenceForTime_keeps_now (s : State) : s.fenceForTime.now = s.now :=
  (State.fenceForTime_keeps (m := [.live, .run, .pgw, .sch, .que, .vsp, .mem, .prog, .mat, .lnk, .map, .hlt, .sec, .hst, .sum, .outbox, .freeCtr])
    rfl (Keeps.refl s)).same .now (by decide)

@[simp] theorem State.loseTime_time (s : State) : s.loseTime.time = s.time.lost :=
  (State.fenceForTime_keeps_time _).trans (State.setStatus_time ..)

@[simp] theorem State.loseTime_now (s : State) : s.loseTime.now = s.now :=
  (State.fenceForTime_keeps_now _).trans (State.setStatus_now ..)

/-- Losing time writes one field of TIME_STATUS; fencing the node writes no register of the time block. -/
theorem State.loseTime_regs {s : State} (h : s.liveWf) : ∃ u : State, u.liveWf ∧ SameRegsBut [Reg.timeStatus] s u ∧
    u.fld Reg.timeStatus 1 0 = s.fld Reg.timeStatus 1 0 ∧ TimeRegs u s.loseTime := by
  let w : State := { s with time := s.time.lost }
  have hw : w.liveWf := h
  have wf : (w.setStatus Reg.timeStatus 4 4 0).liveWf := State.putStatus_liveWf hw _ _
  exact ⟨w.setStatus Reg.timeStatus 4 4 0, wf, State.setStatus_sameRegs hw _ _ _ _,
    State.fld_setStatus_other hw (by decide) (.inr (by decide)), (TimeRegs.refl wf).fenceForTime⟩

/-! ### refreshTime as a whole -/

/-- It changes of the time unit what it shows and what a loss of time takes. -/
theorem State.refreshTime_time (s : State) : s.refreshTime.time = s.showTime.time ∨ s.refreshTime.time = s.showTime.time.lost := by
  by_cases lost : s.timeLost
  · exact .inr (by rw [State.refreshTime_of_lost lost, State.loseTime_time])
  · exact .inl (by rw [State.refreshTime_of_not_lost lost])

@[simp] theorem State.refreshTime_now (s : State) : s.refreshTime.now = s.now := by
  by_cases lost : s.timeLost
  · rw [State.refreshTime_of_lost lost, State.loseTime_now, State.showTime_now]
  · rw [State.refreshTime_of_not_lost lost, State.showTime_now]

/-- What of the time unit it leaves, whether time is lost or not. -/
theorem State.refreshTime_leaves {α : Type} (s : State) (f : TimeSt → α) (hs : ∀ t p v, f { t with parent := p, ppsValid := v } = f t)
    (hl : ∀ t : TimeSt, f t.lost = f t) : f s.refreshTime.time = f s.time := by
  rcases s.refreshTime_time with e | e
  · rw [e, State.showTime_time, hs]
  · rw [e, hl, State.showTime_time, hs]

@[simp] theorem State.refreshTime_lastEdge (s : State) : s.refreshTime.time.lastEdge = s.time.lastEdge := s.refreshTime_leaves TimeSt.lastEdge (fun _ _ _ => rfl) (fun _ => rfl)
@[simp] theorem State.refreshTime_nextEdge (s : State) : s.refreshTime.time.nextEdge = s.time.nextEdge := s.refreshTime_leaves TimeSt.nextEdge (fun _ _ _ => rfl) (fun _ => rfl)
@[simp] theorem State.refreshTime_due (s : State) : s.refreshTime.time.due = s.time.due := s.refreshTime_leaves TimeSt.due (fun _ _ _ => rfl) (fun _ => rfl)
@[simp] theorem State.refreshTime_tentative (s : State) : s.refreshTime.time.tentative = s.time.tentative := s.refreshTime_leaves TimeSt.tentative (fun _ _ _ => rfl) (fun _ => rfl)
@[simp] theorem State.refreshTime_lastMsg (s : State) : s.refreshTime.time.lastMsg = s.time.lastMsg := s.refreshTime_leaves TimeSt.lastMsg (fun _ _ _ => rfl) (fun _ => rfl)
@[simp] theorem State.refreshTime_goodSeconds (s : State) : s.refreshTime.time.goodSeconds = s.time.goodSeconds := s.refreshTime_leaves TimeSt.goodSeconds (fun _ _ _ => rfl) (fun _ => rfl)
@[simp] theorem State.refreshTime_inconsistent (s : State) : s.refreshTime.time.inconsistent = s.time.inconsistent := s.refreshTime_leaves TimeSt.inconsistent (fun _ _ _ => rfl) (fun _ => rfl)
@[simp] theorem State.refreshTime_refDegraded (s : State) : s.refreshTime.time.refDegraded = s.time.refDegraded := s.refreshTime_leaves TimeSt.refDegraded (fun _ _ _ => rfl) (fun _ => rfl)
@[simp] theorem State.refreshTime_partners (s : State) : s.refreshTime.time.partners = s.time.partners := s.refreshTime_leaves TimeSt.partners (fun _ _ _ => rfl) (fun _ => rfl)

@[simp] theorem State.refreshTime_ppsValid (s : State) : s.refreshTime.time.ppsValid = s.ppsOk := by
  rcases s.refreshTime_time with e | e <;> rw [e]
  · exact congrArg TimeSt.ppsValid s.showTime_time
  · exact congrArg TimeSt.ppsValid s.showTime_time

/-- TIME_STATUS shows the source, whether time is lost or not. -/
theorem State.refreshTime_source {s : State} (h : s.liveWf) : s.refreshTime.fld Reg.timeStatus 1 0 = s.timeFacts.1 % 4 := by
  rw [← State.showTime_source h]
  by_cases lost : s.timeLost
  · obtain ⟨u, _, _, source, fenced⟩ := State.loseTime_regs (State.showTime_wf h)
    rw [State.refreshTime_of_lost lost, fenced.fld (by decide), source]
  · rw [State.refreshTime_of_not_lost lost]

/-- The events recorded so far stay. -/
theorem State.refreshTime_event {s : State} (h : s.liveWf) {i : Nat} (hi : i < 24) (e : s.bit Reg.timeEvent i = true) :
    s.refreshTime.bit Reg.timeEvent i = true := by
  have shown := State.showTime_event h hi e
  by_cases lost : s.timeLost
  · obtain ⟨u, _, same, _, fenced⟩ := State.loseTime_regs (State.showTime_wf h)
    rw [State.refreshTime_of_lost lost, fenced.bit (by decide), same.bit (by decide)]
    exact shown
  · rw [State.refreshTime_of_not_lost lost]
    exact shown

/-- A node that follows PPS_IN shows source 1 and hop count 0, and loses no time. -/
theorem State.timeFacts_of_ppsOk {s : State} (h : s.ppsOk = true) : s.timeFacts = (1, 0, s.time.refDegraded) := if_pos h

theorem State.refreshTime_of_ppsOk {s : State} (h : s.ppsOk = true) : s.refreshTime = s.showTime :=
  State.refreshTime_of_not_lost (fun lost => by
    have hop := lost.1
    rw [State.timeFacts_of_ppsOk h] at hop
    exact Nat.noConfusion hop)

theorem State.refreshTime_of_not_acquired {s : State} (h : s.time.acquired = false) : s.refreshTime = s.showTime :=
  State.refreshTime_of_not_lost (fun lost => by
    have acquired := lost.2.2.2
    rw [State.showTime_time] at acquired
    exact Bool.false_ne_true (h ▸ acquired))

/-- Without PPS_IN the source shown is another. -/
theorem State.timeFacts_of_not_ppsOk {s : State} (h : s.ppsOk = false) : s.timeFacts.1 = 0 ∨ s.timeFacts.1 = 2 := by
  unfold State.timeFacts
  rw [if_neg (by rw [h]; decide)]
  split
  · exact .inl rfl
  · split
    · exact .inr rfl
    · exact .inl rfl

/-- Following PPS_IN rests on TIME_CFG, the good seconds and an accepted message. -/
theorem State.ppsOk_of {s : State} (h0 : s.bit Reg.timeCfg 0 = true) (h2 : s.bit Reg.timeCfg 2 = true) (hg : 2 ≤ s.time.goodSeconds)
    (hn : s.time.nextEdge.isSome = true) : s.ppsOk = true := by
  simp only [State.ppsOk, h0, h2, hn, hg, decide_true, Bool.and_self]

theorem State.ppsOk_of_few {s : State} (hg : s.time.goodSeconds < 2) : s.ppsOk = false := by
  simp only [State.ppsOk, decide_eq_false (Nat.not_le.mpr hg), Bool.and_false, Bool.false_and]

theorem State.ppsOk_of_no_message {s : State} (hn : s.time.nextEdge = none) : s.ppsOk = false := by
  simp only [State.ppsOk, hn, Option.isSome_none, Bool.and_false]

end Sys2Proof.Machine
end

section
/-!
PPS_IN and TIME_IN (R32, R34, R36, R38).
-/

namespace Sys2Proof.Machine

open Sys2Proof

/-! ### Acquiring time, and measuring an offset (R34, R38) -/

@[simp] theorem State.acquire_time (s : State) : s.acquire.time = { s.time with acquired := true } := by
  unfold State.acquire
  dsimp only
  split
  · exact State.setStatus_time ..
  · rfl

@[simp] theorem State.acquire_now (s : State) : s.acquire.now = s.now := by
  unfold State.acquire
  dsimp only
  split
  · exact State.setStatus_now ..
  · rfl

/-- Acquiring writes no other register than TIME_STATUS, and of that only a field above the lock. -/
theorem State.acquire_regs {s : State} (h : s.liveWf) :
    s.acquire.liveWf ∧ SameRegsBut [Reg.timeStatus] s s.acquire ∧ s.acquire.fld Reg.timeStatus 2 2 = s.fld Reg.timeStatus 2 2 := by
  let u : State := { s with time := { s.time with acquired := true } }
  have hu : u.liveWf := h
  unfold State.acquire
  dsimp only
  split
  · exact ⟨State.putStatus_liveWf hu _ _, State.setStatus_sameRegs hu _ _ _ _, State.fld_setStatus_other hu (by decide) (.inr (by decide))⟩
  · exact ⟨hu, SameRegsBut.refl _ u, rfl⟩

@[simp] theorem State.stepCount_now (s : State) (t : Nat) : (s.stepCount t).now = t :=
  (State.acquire_now _).trans (State.setStatus_now ..)

/-- A step of the count leaves what the time unit knows of good seconds and messages, and time is acquired. -/
theorem State.stepCount_time (s : State) (t : Nat) :
    (s.stepCount t).time.acquired = true ∧ (s.stepCount t).time.goodSeconds = s.time.goodSeconds ∧ (s.stepCount t).time.nextEdge = s.time.nextEdge := by
  unfold State.stepCount
  dsimp only
  rw [State.acquire_time, State.setStatus_time]
  exact ⟨rfl, rfl, rfl⟩

/-- A step of the count shows the node locked, in TIME_STATUS alone. -/
theorem State.stepCount_regs {s : State} (h : s.liveWf) (t : Nat) :
    (s.stepCount t).liveWf ∧ SameRegsBut [Reg.timeStatus] s (s.stepCount t) ∧ (s.stepCount t).fld Reg.timeStatus 2 2 = 1 := by
  unfold State.stepCount
  extract_lets _ _ time
  have hu : State.liveWf { s with now := t, time := time } := h
  have same : SameRegsBut [Reg.timeStatus] s { s with now := t, time := time } := SameRegsBut.refl _ s
  generalize ({ s with now := t, time := time } : State) = u at hu same ⊢
  obtain ⟨wf, acquired, locked⟩ := State.acquire_regs (State.putStatus_liveWf hu Reg.timeStatus (putBits (u.live Reg.timeStatus) 2 2 1))
  exact ⟨wf, (same.trans (State.setStatus_sameRegs hu _ _ _ _)).trans acquired, locked.trans (State.fld_setStatus hu (by decide) (by decide))⟩

/-- Slewing on changes the amount left to slew and what a commit revealed of it. -/
theorem State.slewOn_time (s : State) : s.slewOn.time =
    { s.time with slew := towardsZero (16 * (s.now - s.time.slewAt)) s.time.slew, slewAt := s.now
                  revealed := towardsZero (16 * (s.now - s.time.slewAt)) s.time.revealed } := by
  unfold State.slewOn
  dsimp only
  split
  · exact State.setStatus_time ..
  · rfl

theorem State.slewOn_regs {s : State} (h : s.liveWf) : s.slewOn.liveWf ∧ SameRegsBut [Reg.timeStatus] s s.slewOn := by
  unfold State.slewOn
  extract_lets _ left _ u
  have hu : u.liveWf := h
  have same : SameRegsBut [Reg.timeStatus] s u := SameRegsBut.refl _ u
  clear_value u
  split
  · exact ⟨State.putStatus_liveWf hu _ _, same.trans (State.setStatus_sameRegs hu _ _ _ _)⟩
  · exact ⟨hu, same⟩

/-- The registers after an offset has been measured: TIME_OFFSET and the lock in TIME_STATUS. -/
def State.offsetShown (s : State) (off : Int) : State :=
  (s.slewOn.setLive Reg.timeOffset (ofSigned 16 (clampI (-32768) 32767 off))).setStatus Reg.timeStatus 2 2 (b2n (decide (off.natAbs ≤ 24)))

/-- An offset that does not fence the node is slewed out from here (R38). -/
theorem State.measured_of_near {s : State} {off : Int} (h : s.slewOn.fenceTest off = false) :
    s.measured off = { s.offsetShown off with time := { (s.offsetShown off).time with
      slew := -(10000 * off), slewAt := (s.offsetShown off).now, reveal := false
      revealed := if (s.offsetShown off).time.reveal then 10000 * off else (s.offsetShown off).time.revealed } } :=
  if_neg (fun fences => Bool.false_ne_true (h ▸ fences.1))

theorem State.offsetShown_time (s : State) (off : Int) : (s.offsetShown off).time = s.slewOn.time := State.setStatus_time ..
theorem State.offsetShown_now (s : State) (off : Int) : (s.offsetShown off).now = s.now := (State.setStatus_now ..).trans s.slewOn_now

theorem State.offsetShown_regs {s : State} (h : s.liveWf) (off : Int) :
    (s.offsetShown off).liveWf ∧ SameRegsBut [Reg.timeStatus, Reg.timeOffset] s (s.offsetShown off) ∧
      (s.offsetShown off).live Reg.timeOffset = ofSigned 16 (clampI (-32768) 32767 off) % 2 ^ 32 := by
  obtain ⟨wf, same⟩ := State.slewOn_regs h
  let u := s.slewOn.setLive Reg.timeOffset (ofSigned 16 (clampI (-32768) 32767 off))
  have hu : u.liveWf := wf.setLive _ _
  have status : SameRegsBut [Reg.timeStatus] u (s.offsetShown off) := State.setStatus_sameRegs hu _ _ _ _
  refine ⟨State.putStatus_liveWf hu _ _, fun x hx => ?_, ?_⟩
  · simp only [List.mem_cons, List.not_mem_nil, or_false, not_or] at hx
    rw [status x (by simpa using hx.1), State.live_setLive wf, if_neg hx.2, same x (by simpa using hx.1)]
  · rw [status _ (by decide), State.live_setLive wf, if_pos rfl]

/-- An offset of at most 64 ticks does not fence a node for which nothing that a commit revealed is outstanding (R38). -/
theorem State.fenceTest_near {s : State} {off : Int} (hr : s.time.revealed = 0) (ho : off.natAbs ≤ fenceOffset) : s.fenceTest off = false := by
  have near : ¬(10000 * fenceOffset < (10000 * off - s.time.revealed).natAbs) := by
    rw [hr]
    omega
  rw [State.fenceTest, decide_eq_false near, Bool.and_false]

theorem towardsZero_zero (b : Nat) : towardsZero b 0 = 0 := if_pos (Nat.zero_le b)

/-- An offset of at most 64 ticks is shown as it is, and fits its field. -/
theorem shownOffset_near {off : Int} (ho : off.natAbs ≤ fenceOffset) : ofSigned 16 (clampI (-32768) 32767 off) % 2 ^ 32 = ofSigned 16 off := by
  have small : off.natAbs ≤ 1024 := ho
  have inside : clampI (-32768) 32767 off = off := by
    unfold clampI
    omega
  rw [inside]
  unfold ofSigned
  apply Nat.mod_eq_of_lt
  norm_num [pow2]
  omega

/-! ### PPS_IN_EDGE (R32, R34, R38) -/

/-- The node as a good second has been counted. -/
def State.secondCounted (s : State) (edge : Nat) : State :=
  { s.advanceTo (edge / 16) with time := { s.time with goodSeconds := s.time.goodSeconds + 1, lastEdge := some edge } }

theorem exec_ppsInEdge {s : State} {edge last : Nat} (ht : s.takesTime = true) (h0 : s.bit Reg.timeCfg 0 = true) (hl : s.time.lastEdge = some last)
    (hg : goodSecond last edge = true) :
    exec (.ppsInEdge edge) s = .next (((s.secondCounted edge).refreshTime).announcedEdge edge).refreshTime := by
  show execPpsInEdge edge s = _
  simp only [execPpsInEdge, ht, h0, State.advanceTo_time, hl, hg, Bool.not_true, Bool.false_eq_true, or_self, if_false, if_true]
  rfl

/-- An edge that no message has announced, at a node that has acquired no time. -/
theorem ppsInEdge_unannounced {s : State} {edge last : Nat} (ht : s.takesTime = true) (h0 : s.bit Reg.timeCfg 0 = true)
    (hl : s.time.lastEdge = some last) (hg : goodSecond last edge = true) (hd : s.time.due = none) (ha : s.time.acquired = false) :
    Completes (.ppsInEdge edge) s (partsOf (.ppsInEdge edge)) (fun t => t.time.goodSeconds = s.time.goodSeconds + 1 ∧
      t.now = max s.now (edge / 16) ∧ t.time.lastEdge = some edge ∧ t.time.acquired = false) := by
  refine completes_of (exec_ppsInEdge ht h0 hl hg) (execPpsInEdge_keeps (Within.refl _) edge (Keeps.refl s)) ?_
  have nothing : (s.secondCounted edge).refreshTime.announcedEdge edge = (s.secondCounted edge).refreshTime := by
    have due : (s.secondCounted edge).refreshTime.time.due = none := (State.refreshTime_due _).trans hd
    unfold State.announcedEdge
    rw [due]
  have acquired : (s.secondCounted edge).refreshTime.time.acquired = false := by
    rw [State.refreshTime_of_not_acquired (s := s.secondCounted edge) ha, State.showTime_time]
    exact ha
  rw [nothing]
  simp only [State.refreshTime_goodSeconds, State.refreshTime_now, State.refreshTime_lastEdge]
  refine ⟨rfl, rfl, rfl, ?_⟩
  rw [State.refreshTime_of_not_acquired acquired, State.showTime_time]
  exact acquired

/-- The announcement is used up. -/
def State.notDue (s : State) : State := { s with time := { s.time with due := none } }

/-- While acquiring, the count steps to the announced value and the delay to the ball, and the edge is noted there (R34). -/
theorem State.announcedEdge_acquiring {s : State} {n : Nat} (edge : Nat) (hd : s.time.due = some n) (hp : s.notDue.ppsOk = true)
    (ht : s.inTwilight = false) (ha : s.time.acquired = false) :
    s.announcedEdge edge =
      (let ball := 16 * n + s.fld Reg.timePpsComp 15 0
       let u := s.notDue.stepCount (ball / 16)
       { u with time := { u.time with lastEdge := some ball } }) := by
  have follows : ¬((!s.notDue.ppsOk) = true ∨ s.notDue.inTwilight = true) := by
    rw [hp]
    exact fun h => h.elim Bool.false_ne_true (fun twilight => Bool.false_ne_true (ht ▸ twilight))
  unfold State.announcedEdge
  rw [hd]
  exact (if_neg follows).trans (if_pos (by rw [ha]; rfl))

/-- Once acquired, an announced edge of consistent seconds measures the count at the reference plane (R34, R38). -/
theorem State.announcedEdge_acquired {s : State} {n : Nat} (edge : Nat) (hd : s.time.due = some n) (hp : s.notDue.ppsOk = true)
    (ht : s.inTwilight = false) (ha : s.time.acquired = true) (hc : s.time.inconsistent = 0) :
    s.announcedEdge edge = s.notDue.measured ((edge : Int) - (s.fld Reg.timePpsComp 15 0 : Int) - 16 * (n : Int)) := by
  have follows : ¬((!s.notDue.ppsOk) = true ∨ s.notDue.inTwilight = true) := by
    rw [hp]
    exact fun h => h.elim Bool.false_ne_true (fun twilight => Bool.false_ne_true (ht ▸ twilight))
  unfold State.announcedEdge
  rw [hd]
  exact (if_neg follows).trans ((if_neg (by rw [ha]; exact Bool.false_ne_true)).trans (if_neg (fun h => h hc)))

/-- The premises of an edge that TIME_IN has announced, one good second after the last and the second good one at least. -/
structure AnnouncedEdge (s : State) (edge last n : Nat) : Prop where
  wf : s.liveWf
  takes : s.takesTime = true
  pps : s.bit Reg.timeCfg 0 = true
  message : s.bit Reg.timeCfg 2 = true
  good : goodSecond last edge = true
  lastEdge : s.time.lastEdge = some last
  due : s.time.due = some n
  next : s.time.nextEdge.isSome = true
  seconds : 1 ≤ s.time.goodSeconds
  twilight : s.inTwilight = false

namespace AnnouncedEdge
variable {s : State} {edge last n : Nat}

/-- The node as it has counted the second and shown the source it follows. -/
abbrev counted (s : State) (edge : Nat) : State := (s.secondCounted edge).showTime

theorem counted_sameRegs (h : AnnouncedEdge s edge last n) : SameRegsBut [Reg.timeStatus, Reg.timeEvent] s (counted s edge) :=
  State.showTime_sameRegs (s := s.secondCounted edge) h.wf

theorem exec_eq (h : AnnouncedEdge s edge last n) : exec (.ppsInEdge edge) s = .next ((counted s edge).announcedEdge edge).refreshTime := by
  have pps : (s.secondCounted edge).ppsOk = true := State.ppsOk_of h.pps h.message (Nat.succ_le_succ h.seconds) h.next
  rw [exec_ppsInEdge h.takes h.pps h.lastEdge h.good, State.refreshTime_of_ppsOk pps]

/-- Any state with the registers and the seconds of the node so counted follows PPS_IN. -/
theorem ppsOk_of_same (h : AnnouncedEdge s edge last n) {t : State} {as : List Nat} (hr : SameRegsBut as s t) (hc : Reg.timeCfg ∉ as)
    (hg : t.time.goodSeconds = s.time.goodSeconds + 1) (hn : t.time.nextEdge = s.time.nextEdge) : t.ppsOk = true :=
  State.ppsOk_of ((hr.bit hc 0).trans h.pps) ((hr.bit hc 2).trans h.message) (by rw [hg]; exact Nat.succ_le_succ h.seconds) (by rw [hn]; exact h.next)

theorem counted_ppsOk (h : AnnouncedEdge s edge last n) : (counted s edge).notDue.ppsOk = true :=
  h.ppsOk_of_same (t := (counted s edge).notDue) h.counted_sameRegs (by decide) (congrArg TimeSt.goodSeconds (s.secondCounted edge).showTime_time :)
    (congrArg TimeSt.nextEdge (s.secondCounted edge).showTime_time :)

theorem counted_twilight (h : AnnouncedEdge s edge last n) : (counted s edge).inTwilight = false := (h.counted_sameRegs.bit (by decide) 7).trans h.twilight

theorem counted_wf (h : AnnouncedEdge s edge last n) : (counted s edge).liveWf := State.showTime_wf (s := s.secondCounted edge) h.wf

theorem counted_comp (h : AnnouncedEdge s edge last n) : (counted s edge).fld Reg.timePpsComp 15 0 = s.fld Reg.timePpsComp 15 0 :=
  h.counted_sameRegs.fld (by decide) 15 0

theorem counted_due (h : AnnouncedEdge s edge last n) : (counted s edge).time.due = some n := by rw [State.showTime_time]; exact h.due

theorem counted_acquired (s : State) (edge : Nat) : (counted s edge).time.acquired = s.time.acquired := by rw [State.showTime_time]; rfl

/-- A node still acquiring steps its count to the value announced and the delay to the ball (R34). -/
theorem acquires (h : AnnouncedEdge s edge last n) (ha : s.time.acquired = false) :
    Completes (.ppsInEdge edge) s (partsOf (.ppsInEdge edge)) (fun t => t.time.goodSeconds = s.time.goodSeconds + 1 ∧
      t.now = (16 * n + s.fld Reg.timePpsComp 15 0) / 16 ∧ t.time.acquired = true ∧ t.time.lastEdge = some (16 * n + s.fld Reg.timePpsComp 15 0) ∧
      t.fld Reg.timeStatus 1 0 = 1 ∧ t.fld Reg.timeStatus 2 2 = 1 ∧ t.fld Reg.timeStatus 8 5 = 0) := by
  refine completes_of h.exec_eq (execPpsInEdge_keeps (Within.refl _) edge (Keeps.refl s)) ?_
  rw [State.announcedEdge_acquiring edge h.counted_due h.counted_ppsOk h.counted_twilight ((counted_acquired s edge).trans ha), h.counted_comp]
  dsimp only
  generalize 16 * n + s.fld Reg.timePpsComp 15 0 = ball
  obtain ⟨acquired, seconds, next⟩ := (counted s edge).notDue.stepCount_time (ball / 16)
  obtain ⟨wf, same, locked⟩ := State.stepCount_regs (s := (counted s edge).notDue) h.counted_wf (ball / 16)
  have now := (counted s edge).notDue.stepCount_now (ball / 16)
  generalize (counted s edge).notDue.stepCount (ball / 16) = u at acquired seconds next wf same locked now ⊢
  let w : State := { u with time := { u.time with lastEdge := some ball } }
  have hw : w.liveWf := wf
  have regs : SameRegsBut [Reg.timeStatus, Reg.timeEvent] s w := h.counted_sameRegs.trans (same.mono (by decide))
  have second : w.time.goodSeconds = s.time.goodSeconds + 1 := seconds.trans (congrArg TimeSt.goodSeconds (s.secondCounted edge).showTime_time :)
  have pps : w.ppsOk = true := h.ppsOk_of_same regs (by decide) second (next.trans (congrArg TimeSt.nextEdge (s.secondCounted edge).showTime_time :))
  have facts := State.timeFacts_of_ppsOk pps
  show (w.refreshTime.time.goodSeconds = _ ∧ w.refreshTime.now = _ ∧ w.refreshTime.time.acquired = _ ∧ w.refreshTime.time.lastEdge = _ ∧
    w.refreshTime.fld _ _ _ = _ ∧ w.refreshTime.fld _ _ _ = _ ∧ w.refreshTime.fld _ _ _ = _)
  rw [State.refreshTime_of_ppsOk pps, State.showTime_source hw, State.showTime_hop hw, State.showTime_locked hw (by rw [facts]; exact Nat.noConfusion),
    facts, State.showTime_now, State.showTime_time]
  exact ⟨second, now, acquired, rfl, rfl, locked, rfl⟩

/-- A node that has acquired time measures the count by the edge, and slews a small offset out (R38). -/
theorem measures (h : AnnouncedEdge s edge last n) (ha : s.time.acquired = true) (hc : s.time.inconsistent = 0)
    (hr : s.time.revealed = 0) :
    let off : Int := (edge : Int) - (s.fld Reg.timePpsComp 15 0 : Int) - 16 * (n : Int)
    off.natAbs ≤ fenceOffset →
    Completes (.ppsInEdge edge) s (partsOf (.ppsInEdge edge)) (fun t => t.time.goodSeconds = s.time.goodSeconds + 1 ∧
      t.now = max s.now (edge / 16) ∧ t.time.lastEdge = some edge ∧ t.time.acquired = true ∧ t.live Reg.timeOffset = ofSigned 16 off ∧
      t.time.slew = -(10000 * off) ∧ t.time.slewAt = t.now) := by
  intro off near
  refine completes_of h.exec_eq (execPpsInEdge_keeps (Within.refl _) edge (Keeps.refl s)) ?_
  have shown := (s.secondCounted edge).showTime_time
  rw [State.announcedEdge_acquired edge h.counted_due h.counted_ppsOk h.counted_twilight ((counted_acquired s edge).trans ha)
    ((congrArg TimeSt.inconsistent shown).trans hc :), h.counted_comp]
  let u := (counted s edge).notDue
  have outstanding : u.slewOn.time.revealed = 0 := by
    rw [State.slewOn_time]
    show towardsZero _ (counted s edge).time.revealed = 0
    rw [shown]
    show towardsZero _ s.time.revealed = 0
    rw [hr, towardsZero_zero]
  show (u.measured off).refreshTime.time.goodSeconds = _ ∧ _
  rw [State.measured_of_near (State.fenceTest_near outstanding near)]
  obtain ⟨wf, same, offset⟩ := State.offsetShown_regs (s := u) h.counted_wf off
  rw [shownOffset_near near] at offset
  have time := (u.offsetShown_time off).trans u.slewOn_time
  have now := u.offsetShown_now off
  generalize u.offsetShown off = v at wf same offset time now ⊢
  let w : State := { v with time := { v.time with
    slew := -(10000 * off), slewAt := v.now, reveal := false, revealed := if v.time.reveal then 10000 * off else v.time.revealed } }
  have hw : w.liveWf := wf
  have regs : SameRegsBut [Reg.timeStatus, Reg.timeEvent, Reg.timeOffset] s w := (h.counted_sameRegs.mono (by decide)).trans (same.mono (by decide))
  have kept : w.time.goodSeconds = s.time.goodSeconds + 1 ∧ w.time.nextEdge = s.time.nextEdge ∧ w.time.lastEdge = some edge ∧ w.time.acquired = true := by
    show v.time.goodSeconds = _ ∧ v.time.nextEdge = _ ∧ v.time.lastEdge = _ ∧ v.time.acquired = _
    rw [time]
    show (counted s edge).time.goodSeconds = _ ∧ (counted s edge).time.nextEdge = _ ∧ (counted s edge).time.lastEdge = _ ∧ (counted s edge).time.acquired = _
    rw [shown]
    exact ⟨rfl, rfl, rfl, ha⟩
  obtain ⟨second, next, lastEdge, acquired⟩ := kept
  have pps : w.ppsOk = true := h.ppsOk_of_same regs (by decide) second next
  show (w.refreshTime.time.goodSeconds = _ ∧ w.refreshTime.now = _ ∧ w.refreshTime.time.lastEdge = _ ∧ w.refreshTime.time.acquired = _ ∧
    w.refreshTime.live _ = _ ∧ w.refreshTime.time.slew = _ ∧ w.refreshTime.time.slewAt = w.refreshTime.now)
  rw [State.refreshTime_of_ppsOk pps, State.showTime_sameRegs hw Reg.timeOffset (by decide), State.showTime_now, State.showTime_time]
  exact ⟨second, now.trans (s.secondCounted edge).showTime_now, lastEdge, acquired, offset, rfl, rfl⟩

end AnnouncedEdge

/-! ### PPS_MISSING and TIME_IN_LOSS (R32) -/

theorem exec_ppsMissing {s : State} {last : Nat} (ht : s.takesTime = true) (h0 : s.bit Reg.timeCfg 0 = true) (hl : s.time.lastEdge = some last) :
    exec .ppsMissing s = .next (State.refreshTime (State.ppsBad
      { s.advanceTo (last / 16 + second + 1001) with time := { s.time with lastEdge := none } })) := by
  show execPpsMissing s = _
  unfold execPpsMissing
  rw [hl]
  exact if_neg (by simp [ht, h0])

/-- An edge that does not come forgets the one before it and the good seconds, and PPS_IN is no longer the source. -/
theorem ppsMissing_completes {s : State} {last : Nat} (hi : s.liveWf) (ht : s.takesTime = true) (h0 : s.bit Reg.timeCfg 0 = true)
    (hl : s.time.lastEdge = some last) :
    Completes .ppsMissing s (partsOf .ppsMissing) (fun t =>
      t.now = max s.now (last / 16 + second + 1001) ∧ t.time.lastEdge = none ∧ t.time.goodSeconds = 0 ∧ t.time.ppsValid = false ∧
      t.fld Reg.timeStatus 1 0 ≠ 1) := by
  refine completes_of (exec_ppsMissing ht h0 hl) (execPpsMissing_keeps (Within.refl _) (Keeps.refl s)) ?_
  let v : State := { s.advanceTo (last / 16 + second + 1001) with time := { s.time with lastEdge := none, goodSeconds := 0 } }
  let u := v.raiseBit Reg.timeEvent 0
  have hu : u.liveWf := State.raise_liveWf (s := v) hi _ _
  have time : u.time = v.time := v.raiseBit_time _ _
  have now : u.now = v.now := v.raiseBit_now _ _
  have pps : u.ppsOk = false := State.ppsOk_of_few (by rw [time]; exact Nat.zero_lt_two)
  show (u.refreshTime.now = _ ∧ u.refreshTime.time.lastEdge = _ ∧ u.refreshTime.time.goodSeconds = _ ∧ u.refreshTime.time.ppsValid = _ ∧
    u.refreshTime.fld _ _ _ ≠ _)
  rw [State.refreshTime_now, State.refreshTime_lastEdge, State.refreshTime_goodSeconds, State.refreshTime_ppsValid, State.refreshTime_source hu, time]
  refine ⟨now, rfl, rfl, pps, ?_⟩
  have source := State.timeFacts_of_not_ppsOk pps
  omega

/-- Two seconds without a message that was not ignored forget the one announced (R32). -/
theorem timeInLoss_completes {s : State} {m : Nat} (ht : s.takesTime = true) (hm : s.time.lastMsg = some m) :
    Completes .timeInLoss s (partsOf .timeInLoss) (fun t =>
      t.now = max s.now (m + 2 * second) ∧ t.time.nextEdge = none ∧ t.time.due = none ∧ t.time.tentative = none ∧ t.time.lastMsg = none ∧
      t.time.inconsistent = 0 ∧ t.time.ppsValid = false) := by
  let u : State := { s.advanceTo (m + 2 * second) with
    time := { s.time with nextEdge := none, due := none, tentative := none, lastMsg := none, inconsistent := 0 } }
  have he : exec .timeInLoss s = .next u.refreshTime := by
    show execTimeInLoss s = _
    unfold execTimeInLoss
    rw [hm]
    exact if_neg (by rw [ht]; exact Bool.false_ne_true)
  refine completes_of he (execTimeInLoss_keeps (Within.refl _) (Keeps.refl s)) ?_
  rw [State.refreshTime_now, State.refreshTime_nextEdge, State.refreshTime_due, State.refreshTime_tentative, State.refreshTime_lastMsg,
    State.refreshTime_inconsistent, State.refreshTime_ppsValid]
  exact ⟨rfl, rfl, rfl, rfl, rfl, rfl, State.ppsOk_of_no_message rfl⟩

/-- Settles O8. -/
theorem ppsEdgesCountLossesInvalidate : Obligations.PpsEdgesCountLossesInvalidate := by
  unfold Obligations.PpsEdgesCountLossesInvalidate
  refine ⟨fun s edge last hi ht h0 hl hg => ⟨fun hd ha => ppsInEdge_unannounced ht h0 hl hg hd ha, fun n hd hn h2 hs htw => ?_⟩,
    fun s hi ht => ⟨fun last hl h0 => ppsMissing_completes hi.liveWf ht h0 hl, fun m hm => timeInLoss_completes ht hm⟩⟩
  have announced : AnnouncedEdge s edge last n := ⟨hi.liveWf, ht, h0, h2, hg, hl, hd, hn, hs, htw⟩
  exact ⟨announced.acquires, fun ha hc _ hr => announced.measures ha hc hr⟩

end Sys2Proof.Machine
end

section
/-!
TIME_IN messages (R31, R32).
-/

namespace Sys2Proof.Machine

open Sys2Proof

/-! ### TIME_IN messages (R31, R32) -/

/-- The node as a message comes, so many ticks after the last edge. -/
def State.messageAt (s : State) (since : Nat) : State := match s.time.lastEdge with | some e => s.advanceTo (e / 16 + since) | none => s

theorem State.messageAt_keeps {m : List Blk} {z : State} (hm : Within [.now] m) {a0 : State} (since : Nat) (h0 : Keeps m z a0) :
    Keeps m z (a0.messageAt since) := by
  unfold State.messageAt
  split
  · exact State.advanceTo_keeps hm _ h0
  · exact h0

@[simp] theorem State.messageAt_time (s : State) (since : Nat) : (s.messageAt since).time = s.time :=
  (State.messageAt_keeps (m := [.now]) rfl since (Keeps.refl s)).same .time (by decide)

theorem State.messageAt_wf {s : State} (h : s.liveWf) (since : Nat) : (s.messageAt since).liveWf := by
  unfold State.messageAt
  split
  · exact h
  · exact h

/-- What an accepted message leaves of the time unit: the edge it announces and the facts it gives. -/
theorem State.acceptTime_time (s : State) (b : List Byte) : (s.acceptTime b).time =
    { s.time with nextEdge := some (field b 4 8), due := some (field b 4 8), tentative := none, lastMsg := some s.now, refDegraded := bitOf (byteAt b 3) 0
                  inconsistent := if s.announceOk (field b 4 8) then 0 else s.time.inconsistent + 1 } := by
  unfold State.acceptTime
  extract_lets _ _ _ u
  split
  · exact u.raiseBit_time _ _
  · rfl

@[simp] theorem State.rejectTime_time (s : State) : s.rejectTime.time = s.time := s.raiseBit_time _ _

/-- A message that is ignored sets TIME_EVENT.time_in_bad. -/
theorem State.rejectTime_event {s : State} (h : s.liveWf) : s.rejectTime.bit Reg.timeEvent 1 = true := by
  rw [State.rejectTime, State.bit_raiseBit h _ (by decide) (by decide), decide_eq_true rfl, Bool.or_true]

theorem State.rejectTime_wf {s : State} (h : s.liveWf) : s.rejectTime.liveWf := State.raise_liveWf h _ _

/-- The node as it waits for a second message. -/
def State.messageWaits (s : State) (b : List Byte) : State := { s with time := { s.time with tentative := some (field b 4 8), lastMsg := some s.now } }

theorem State.messageWaits_keeps {m : List Blk} {z : State} (hm : Within [.time] m) {a0 : State} (b : List Byte) (h0 : Keeps m z a0) :
    Keeps m z (a0.messageWaits b) := by
  unfold State.messageWaits
  exact keeps_mk (h := h0)

/-- What a node does with a message of the right form and time. -/
def State.tookMessage (s : State) (b : List Byte) : Host.Outcome State Fault Refusal :=
  match s.time.nextEdge, s.time.tentative with
  | some n, _ => .next (if field b 4 8 = n + second then s.acceptTime b else s.rejectTime).refreshTime
  | none, none => .next (s.messageWaits b)
  | none, some t =>
    if field b 4 8 = t + second then .next (s.acceptTime b).refreshTime
    else .next (State.rejectTime { s with time := { s.time with tentative := some (field b 4 8) } })

section
variable {s : State} {b : List Byte} {since : Nat} (ht : s.takesTime = true) (h2 : s.bit Reg.timeCfg 2 = true)
include ht h2

theorem exec_timeInMessage_bad (hb : timeFormOk b = false ∨ since < 10000000 ∨ 900000000 < since) :
    exec (.timeInMessage b since) s = .next (s.messageAt since).rejectTime := by
  have bad : (!timeFormOk b) = true ∨ since < 10000000 ∨ 900000000 < since := hb.imp_left (fun h => by rw [h]; rfl)
  show execTimeInMessage b since s = _
  unfold execTimeInMessage
  rw [if_neg (by rw [ht, h2]; decide)]
  exact if_pos bad

theorem exec_timeInMessage_ok (form : timeFormOk b = true) (early : 10000000 ≤ since) (late : since ≤ 900000000) :
    exec (.timeInMessage b since) s = (s.messageAt since).tookMessage b := by
  have good : ¬((!timeFormOk b) = true ∨ since < 10000000 ∨ 900000000 < since) := by
    rw [form]
    exact fun bad => by rcases bad with bad | bad | bad <;> [exact Bool.false_ne_true bad; omega; omega]
  show execTimeInMessage b since s = _
  unfold execTimeInMessage
  rw [if_neg (by rw [ht, h2]; decide)]
  exact if_neg good

/-- A message outside its window or of a wrong form is ignored (R31). -/
theorem timeInMessage_ignored (hi : s.liveWf) (hb : timeFormOk b = false ∨ since < 10000000 ∨ 900000000 < since) :
    Completes (.timeInMessage b since) s [.now, .live, .hst, .sum, .outbox] (fun t => t.bit Reg.timeEvent 1 = true) := by
  have within := Within.refl [.now, .live, .hst, .sum, .outbox]
  exact completes_keeps (exec_timeInMessage_bad ht h2 hb)
    (State.rejectTime_keeps (within.sub rfl) (State.messageAt_keeps (within.sub rfl) since (Keeps.refl s))) (State.rejectTime_event (State.messageAt_wf hi since))

section
variable (form : timeFormOk b = true) (early : 10000000 ≤ since) (late : since ≤ 900000000)
include form early late

/-- The first message waits for a second one that agrees (R32). -/
theorem timeInMessage_first (hn : s.time.nextEdge = none) (hw : s.time.tentative = none) :
    Completes (.timeInMessage b since) s [.now, .time] (fun t =>
      t.time = { s.time with tentative := some (field b 4 8), lastMsg := some t.now }) := by
  have he : exec (.timeInMessage b since) s = .next ((s.messageAt since).messageWaits b) := by
    rw [exec_timeInMessage_ok ht h2 form early late]
    simp only [State.tookMessage, State.messageAt_time, hn, hw]
  have within := Within.refl [.now, .time]
  refine completes_keeps he (State.messageWaits_keeps (within.sub rfl) b (State.messageAt_keeps (within.sub rfl) since (Keeps.refl s))) ?_
  rw [State.messageWaits, State.messageAt_time]

/-- A second message that names the next edge is accepted with the first (R32). -/
theorem timeInMessage_second {w : Nat} (hn : s.time.nextEdge = none) (hw : s.time.tentative = some w) (hb : field b 4 8 = w + second) :
    Completes (.timeInMessage b since) s (partsOf (.timeInMessage b since)) (fun t =>
      t.time.nextEdge = some (field b 4 8) ∧ t.time.due = some (field b 4 8) ∧ t.time.tentative = none ∧ t.time.refDegraded = bitOf (byteAt b 3) 0) := by
  have he : exec (.timeInMessage b since) s = .next ((s.messageAt since).acceptTime b).refreshTime := by
    rw [exec_timeInMessage_ok ht h2 form early late]
    simp only [State.tookMessage, State.messageAt_time, hn, hw, if_pos hb]
  refine completes_of he (execTimeInMessage_keeps (Within.refl _) b since (Keeps.refl s)) ?_
  simp only [State.refreshTime_nextEdge, State.refreshTime_due, State.refreshTime_tentative, State.refreshTime_refDegraded, State.acceptTime_time, and_self]

/-- From then on each message names the edge one second on; one that names another is ignored (R32). -/
theorem timeInMessage_next {n : Nat} (hi : s.liveWf) (hn : s.time.nextEdge = some n) :
    Completes (.timeInMessage b since) s (partsOf (.timeInMessage b since)) (fun t =>
      (field b 4 8 = n + second → t.time.nextEdge = some (n + second) ∧ t.time.due = some (n + second) ∧ t.time.refDegraded = bitOf (byteAt b 3) 0) ∧
      (field b 4 8 ≠ n + second → t.time.nextEdge = some n ∧ t.time.due = s.time.due ∧ t.bit Reg.timeEvent 1 = true)) := by
  have he : exec (.timeInMessage b since) s =
      .next (if field b 4 8 = n + second then (s.messageAt since).acceptTime b else (s.messageAt since).rejectTime).refreshTime := by
    rw [exec_timeInMessage_ok ht h2 form early late]
    simp only [State.tookMessage, State.messageAt_time, hn]
  refine completes_of he (execTimeInMessage_keeps (Within.refl _) b since (Keeps.refl s)) ⟨fun hb => ?_, fun hb => ?_⟩
  · rw [if_pos hb]
    simp only [State.refreshTime_nextEdge, State.refreshTime_due, State.refreshTime_refDegraded, State.acceptTime_time, hb, and_self]
  · rw [if_neg hb, State.refreshTime_nextEdge, State.refreshTime_due, State.rejectTime_time, State.messageAt_time]
    have wf := State.messageAt_wf hi since
    exact ⟨hn, rfl, State.refreshTime_event (State.rejectTime_wf wf) (by decide) (State.rejectTime_event wf)⟩

end
end

end Sys2Proof.Machine
end

section
/-!
Writes read back as written, and a link that stays UP as codewords are counted on it (R251, R330).
-/

namespace Sys2Proof.Machine

open Sys2Proof

/-! ### Writing a value other than the unlisted one

A write that does not remove an entry is read back as written, whatever order the entries stand in. -/

theorem spGet_spSet_of_ne {α : Type} [DecidableEq α] {d v : α} (e : α) (l : List (Nat × α)) (x y : Nat) (hv : v ≠ d) :
    spGet e (spSet d l x v) y = if y = x then v else spGet e l y := by
  induction l with
  | nil =>
    rw [spSet, if_neg hv]
    simp only [spGet, ite_self]
  | cons p t ih =>
    obtain ⟨k, w⟩ := p
    simp only [spSet, if_neg hv]
    rcases Nat.lt_trichotomy x k with lt | rfl | gt
    · rw [if_neg (Nat.ne_of_lt lt), if_pos lt]
      by_cases hy : y = x
      · simp only [spGet, if_pos hy]
      · by_cases below : y < x
        · simp only [spGet, if_neg hy, if_pos below, if_neg (show y ≠ k by omega), if_pos (show y < k by omega)]
        · simp only [spGet, if_neg hy, if_neg below]
    · rw [if_pos rfl]
      by_cases hy : y = x
      · simp only [spGet, if_pos hy]
      · simp only [spGet, if_neg hy]
    · rw [if_neg (Nat.ne_of_gt gt), if_neg (Nat.lt_asymm gt)]
      simp only [spGet, ih]
      by_cases hy : y = x
      · simp only [if_pos hy, if_neg (show y ≠ k by omega), if_neg (show ¬y < k by omega)]
      · simp only [if_neg hy]

/-- A link that is in any other state than DOWN reads as written. -/
theorem State.link_setLink (s : State) (n k : Nat) {l : Link} (hl : l.state ≠ LState.down) : (s.setLink n l).link k = if k = n then l else s.link k :=
  spGet_spSet_of_ne Link.down s.lnk.links n k (fun e => hl (congrArg Link.state e))

theorem State.link_setLink_same (s : State) (n : Nat) {l : Link} (hl : l.state ≠ LState.down) : (s.setLink n l).link n = l :=
  (s.link_setLink n n hl).trans (if_pos rfl)

theorem State.link_setLink_other (s : State) {n k : Nat} {l : Link} (hl : l.state ≠ LState.down) (hk : k ≠ n) : (s.setLink n l).link k = s.link k :=
  (s.link_setLink n k hl).trans (if_neg hk)

theorem State.link_of_lnk {s t : State} (h : t.lnk = s.lnk) (k : Nat) : t.link k = s.link k := congrArg (fun l : LnkSt => spGet Link.down l.links k) h

/-- The events that set HLT_EVENT's first bit write no other register. -/
theorem State.live_raiseBit_hltEvent (s : State) {a : Nat} (ha : a ≠ Reg.hltEvent) : (s.raiseBit Reg.hltEvent 0).live a = s.live a := by
  let v := seqUp (s.live Reg.hltEvent ||| pow2 0 % pow2 24)
  have low : v % 2 ^ 24 % 2 = 1 := by
    rw [seqUp_low, Nat.mod_mod_of_dvd _ (by decide), Nat.or_mod_two_pow (n := 1)]
    have : s.live Reg.hltEvent % 2 < 2 := Nat.mod_lt _ (by decide)
    interval_cases s.live Reg.hltEvent % 2 <;> rfl
  have set : v % pow2 32 ≠ resetOf Reg.hltEvent := by
    have reset : resetOf Reg.hltEvent = 0 := by decide
    rw [reset]
    show v % 2 ^ 32 ≠ 0
    omega
  show regGet (s.raise _ _).regs.live a = _
  rw [State.raise_regs]
  exact (spGet_spSet_of_ne _ _ _ _ set).trans (if_neg ha)

/-! ### Points, and the count of corrected codewords (R251, R330) -/

@[simp] theorem State.addPoints_lnk (s : State) (p n : Nat) : (s.addPoints p n).lnk = s.lnk := by
  unfold State.addPoints
  dsimp only
  split
  · exact State.raiseBit_lnk ..
  · rfl

theorem State.addPoints_live (s : State) (p n : Nat) {a : Nat} (ha : a ≠ Reg.hltEvent) : (s.addPoints p n).live a = s.live a := by
  unfold State.addPoints
  dsimp only
  split
  · exact State.live_raiseBit_hltEvent _ ha
  · rfl

@[simp] theorem State.refreshLnkStatus_lnk (s : State) : s.refreshLnkStatus.lnk = s.lnk := State.putStatus_lnk ..

/-- Moving a link's traffic to its peers leaves the state of that link when it is neither UP nor DOWN. -/
theorem State.moveTraffic_state {s : State} {n : Nat} (st : Nat) (hd : (s.link n).state ≠ LState.down) (hu : (s.link n).state ≠ LState.up) :
    ((s.moveTraffic n st).link n).state = (s.link n).state := by
  unfold State.moveTraffic
  extract_lets l peers i back u
  have own : (u.link n).state = (s.link n).state := by
    have kept : u.link n = { l with txq := [], sending := if back then l.sending else [], later := if back then l.later else [] } :=
      s.link_setLink_same n hd
    rw [kept]
  split
  · rename_i k hk
    have up : (u.link k).state = LState.up := by
      have found := List.find?_some hk
      rw [State.linkUp, Bool.and_eq_true, beq_iff_eq] at found
      exact found.1
    have other : n ≠ k := fun e => hu (own.symm.trans (e ▸ up))
    have set : ({ u.link k with txq := l.packets ++ (u.link k).txq } : Link).state ≠ LState.down := by
      rw [show ({ u.link k with txq := l.packets ++ (u.link k).txq } : Link).state = LState.up from up]
      decide
    exact (congrArg Link.state (u.link_setLink_other set other)).trans own
  · exact own

/-- So do the events and points of leaving UP. -/
theorem State.leaveUp_state {s : State} {n : Nat} (st : Nat) (hd : (s.link n).state ≠ LState.down) (hu : (s.link n).state ≠ LState.up) :
    ((s.leaveUp n st).link n).state = (s.link n).state := by
  unfold State.leaveUp
  extract_lets u v w
  have uLnk : u.lnk = s.lnk := by
    unfold u
    split
    · exact State.raiseBit_lnk ..
    · rfl
  have vLnk : v.lnk = s.lnk := by
    unfold v
    split
    · exact (State.addPoints_lnk ..).trans ((State.raiseBit_lnk ..).trans uLnk)
    · exact uLnk
  have own : v.link n = s.link n := State.link_of_lnk vLnk n
  have moved : (w.link n).state = (s.link n).state := by
    rw [← own] at hd hu ⊢
    exact State.moveTraffic_state st hd hu
  split
  · exact moved
  · exact (congrArg Link.state (State.link_of_lnk (State.raiseBit_lnk ..) n)).trans moved

/-- A link that leaves UP for RETRAIN is in RETRAIN. -/
theorem State.setLinkState_retrain {s : State} {n : Nat} (hu : (s.link n).state = LState.up) :
    ((s.setLinkState n LState.retrain).link n).state = LState.retrain := by
  let v := s.setLink n { s.link n with state := LState.retrain }
  have set : (v.link n).state = LState.retrain := congrArg Link.state (s.link_setLink_same n (show LState.retrain ≠ LState.down by decide))
  have eq : s.setLinkState n LState.retrain = (v.leaveUp n LState.retrain).refreshLnkStatus := by
    unfold State.setLinkState
    rw [hu]
    rfl
  rw [eq, State.link_of_lnk (State.refreshLnkStatus_lnk _), State.leaveUp_state _ (by rw [set]; decide) (by rw [set]; decide), set]

/-- The node as the codewords of a frame have been counted, before its link retrains for them. -/
def State.fecCounted (s : State) (n corrected bad : Nat) : State :=
  let u := s.bump (Reg.lnkPortStat + 32 * n + 0x10) corrected
  if bad = 0 then u
  else
    let v := (u.bump (Reg.lnkPortStat + 32 * n + 0x14) bad).addPoints (Part.link n) bad
    v.setLink n { v.link n with fecMinute := (v.link n).fecMinute + bad }

/-- The parts that counting codewords can change. -/
abbrev fecParts : List Blk := [.live, .run, .lnk, .hlt, .hst, .sum, .outbox]

theorem State.fecCounted_keeps (s : State) (n corrected bad : Nat) : Keeps fecParts s (s.fecCounted n corrected bad) := by
  have within := Within.refl fecParts
  have counted := State.bump_keeps (within.sub rfl) (Reg.lnkPortStat + 32 * n + 0x10) corrected (Keeps.refl s)
  unfold State.fecCounted
  extract_lets u v
  split
  · exact counted
  · exact State.setLink_keeps (within.sub rfl) _ _ (State.addPoints_keeps (within.sub rfl) _ _ (State.bump_keeps (within.sub rfl) _ _ counted))

theorem State.fecCounted_live (s : State) (n corrected bad : Nat) {a : Nat} (ha : a ≠ Reg.hltEvent) : (s.fecCounted n corrected bad).live a = s.live a := by
  unfold State.fecCounted
  extract_lets u v
  split
  · rfl
  · exact State.addPoints_live _ _ _ ha

theorem State.fecCounted_link (s : State) (n corrected bad : Nat) (hu : (s.link n).state = LState.up) {k : Nat} (hk : k ≠ n) :
    (s.fecCounted n corrected bad).link k = s.link k := by
  unfold State.fecCounted
  extract_lets u v
  split
  · rfl
  · have lnk : v.lnk = s.lnk := State.addPoints_lnk ..
    have set : (v.link n).state ≠ LState.down := by
      rw [State.link_of_lnk lnk, hu]
      decide
    exact (v.link_setLink_other (l := { v.link n with fecMinute := (v.link n).fecMinute + bad }) set hk).trans (State.link_of_lnk lnk k)

/-- Counting codewords leaves the state of an UP link, but for a retrain. -/
theorem State.fecCount_cases {s : State} {n : Nat} (corrected bad : Nat) (hu : (s.link n).state = LState.up) :
    s.fecCount n corrected bad = s.fecCounted n corrected bad ∨ ((s.fecCount n corrected bad).link n).state = LState.retrain := by
  by_cases none : bad = 0
  · exact .inl (by rw [State.fecCount, State.fecCounted, if_pos none, if_pos none])
  · unfold State.fecCount State.fecCounted
    rw [if_neg none, if_neg none]
    extract_lets v l w
    have own : l.state = LState.up := (congrArg Link.state (State.link_of_lnk (State.addPoints_lnk ..) n)).trans hu
    have kept : (w.link n).state = LState.up :=
      (congrArg Link.state (v.link_setLink_same n (l := { l with fecMinute := l.fecMinute + bad }) (fun e => nomatch own.symm.trans e))).trans own
    split
    · exact .inr (State.setLinkState_retrain kept)
    · exact .inl rfl

/-- A link that is still UP or MISWIRED after its codewords did not retrain for them. -/
theorem State.fecCount_of_stays {s : State} {n : Nat} (corrected bad : Nat) (hu : (s.link n).state = LState.up)
    (stays : ((s.fecCount n corrected bad).link n).state = LState.up ∨ ((s.fecCount n corrected bad).link n).state = LState.miswired) :
    s.fecCount n corrected bad = s.fecCounted n corrected bad := by
  refine (State.fecCount_cases corrected bad hu).resolve_right (fun retrains => ?_)
  rw [retrains] at stays
  exact absurd stays (by decide)

end Sys2Proof.Machine
end

section
/-!
The TIME frames of a partner (R35, R247, R249).
-/

namespace Sys2Proof.Machine

open Sys2Proof

/-! ### What a TIME frame meets (R35, R249) -/

/-- The node as a TIME frame's codewords have been counted. -/
def State.codewordsCounted (s : State) (n : Nat) (f : Frame) : State :=
  if (s.link n).state = LState.up then s.fecCount n f.fecCorrected f.fecBad else s

/-- While the link stays up nothing but counts and points has changed. -/
structure FrameMet (s u : State) (n : Nat) : Prop where
  link : ∀ k, k ≠ n → u.link k = s.link k
  time : u.time = s.time
  timeCfg : ∀ i, u.bit Reg.timeCfg i = s.bit Reg.timeCfg i
  running : u.running = s.running

theorem State.codewordsCounted_met {s : State} {n : Nat} {f : Frame}
    (stays : ((s.codewordsCounted n f).link n).state = LState.up ∨ ((s.codewordsCounted n f).link n).state = LState.miswired) :
    FrameMet s (s.codewordsCounted n f) n := by
  unfold State.codewordsCounted at *
  split at stays
  · rename_i hu
    rw [if_pos hu, State.fecCount_of_stays _ _ hu stays]
    have kept := s.fecCounted_keeps n f.fecCorrected f.fecBad
    refine ⟨fun k hk => s.fecCounted_link n _ _ hu hk, kept.same .time (by decide), fun i => ?_, ?_⟩
    · exact congrArg (bitOf · i) (s.fecCounted_live n _ _ (by decide))
    · exact (congrArg (fun y : SysSt => y.power == PowerSt.on) (kept.same .sys (by decide)) :)
  · rename_i hu
    rw [if_neg hu]
    exact ⟨fun _ _ => rfl, rfl, fun _ => rfl, rfl⟩

/-! ### A frame that is not accepted (R247, R249) -/

theorem State.badFrame_regs (s : State) (n : Nat) (f : Frame) : (s.badFrame n f).regs = (s.bump (Reg.lnkPortStat + 32 * n + 8)).regs := by
  unfold State.badFrame
  extract_lets u l
  split <;> rfl

theorem State.badFrame_time (s : State) (n : Nat) (f : Frame) : (s.badFrame n f).time = s.time := by
  unfold State.badFrame
  extract_lets u l
  split <;> rfl

/-- The frame's epoch is noted where it is none of the link's; no other link changes. -/
theorem State.badFrame_link {s : State} {n : Nat} (f : Frame) (hl : (s.link n).state ≠ LState.down) (k : Nat) :
    (s.badFrame n f).link k = if k = n then
      (if (s.link n).keyed.any (fun g => g % 256 == f.epoch) then s.link n else { s.link n with foreign := true }) else s.link k := by
  unfold State.badFrame
  extract_lets u l
  have own : l = s.link n := rfl
  clear_value l
  subst own
  split
  · split
    · rename_i hk
      exact congrArg s.link hk
    · rfl
  · exact u.link_setLink n k hl

/-! ### A frame that is accepted (R35, R249) -/

/-- The node as an accepted frame has been counted and its header taken. -/
def State.frameHeard (s : State) (n : Nat) (f : Frame) (g tick : Nat) : State :=
  let u := ((s.advanceTo tick).heardFrame n g f.txCount).frameTaken n
  if (s.link n).state = LState.up then u.takeHeader n f else u

/-- A header that asks for no resend is the link's alone. -/
theorem State.takeHeader_keeps_noResend {m : List Blk} {z s : State} (hm : Within [.lnk] m) (n : Nat) {f : Frame} (hf : bitOf f.lflags 0 = false)
    (h : Keeps m z s) : Keeps m z (s.takeHeader n f) := by
  unfold State.takeHeader
  rw [hf]
  exact State.setLink_keeps hm _ _ (State.takeAck_keeps hm _ _ h)

theorem State.frameHeard_keeps (s : State) (n : Nat) {f : Frame} (g tick : Nat) (hf : bitOf f.lflags 0 = false) :
    Keeps [.now, .run, .lnk] s (s.frameHeard n f g tick) := by
  have within := Within.refl [.now, .run, .lnk]
  have taken := State.frameTaken_keeps (within.sub rfl) n (State.heardFrame_keeps (within.sub rfl) n g f.txCount
    (State.advanceTo_keeps (within.sub rfl) tick (Keeps.refl s)))
  unfold State.frameHeard
  extract_lets u
  split
  · exact State.takeHeader_keeps_noResend (within.sub rfl) n hf taken
  · exact taken

/-- The node as what the frame says of the partner has been noted. -/
def State.partnerNoted (s : State) (n : Nat) (p : PartnerTime) : State :=
  let u := s.putPartner n p
  if 64 < p.offset.natAbs ∧ u.time.acquired ∧ p.known then u.raiseBit Reg.timeEvent 2 else u

theorem State.partnerNoted_time (s : State) (n : Nat) (p : PartnerTime) :
    (s.partnerNoted n p).time = { s.time with partners := tabPut s.time.partners n p } := by
  unfold State.partnerNoted
  extract_lets u
  split
  · exact u.raiseBit_time _ _
  · rfl

section
variable {s : State} {n tick part : Nat} {f : Frame} (hr : s.running = true)
  (stays : ((s.codewordsCounted n f).link n).state = LState.up ∨ ((s.codewordsCounted n f).link n).state = LState.miswired)
include hr stays

theorem codewordsCounted_taken :
    ¬((((s.codewordsCounted n f).link n).state ≠ LState.up ∧ ((s.codewordsCounted n f).link n).state ≠ LState.miswired) ∨
      (!(s.codewordsCounted n f).running) = true) := by
  rw [(State.codewordsCounted_met stays).running, hr]
  rintro (⟨notUp, notMiswired⟩ | stopped)
  · exact stays.elim notUp notMiswired
  · exact Bool.false_ne_true stopped

theorem exec_timeFrame_bad (ha : ((s.codewordsCounted n f).link n).admits f = none) :
    exec (.timeFrame n f tick part) s = .next ((s.codewordsCounted n f).badFrame n f) := by
  show execTimeFrame n f tick part s = _
  unfold execTimeFrame
  refine (if_neg (codewordsCounted_taken hr stays)).trans ?_
  show (match ((s.codewordsCounted n f).link n).admits f with | none => _ | some g => _) = _
  rw [ha]
  rfl

/-- Where link time transfer is enabled, the frame's word of the partner is noted, and the count follows its parent. -/
theorem exec_timeFrame_accepted {g : Nat} (ha : ((s.codewordsCounted n f).link n).admits f = some g)
    (h3 : (((s.codewordsCounted n f).frameHeard n f g tick)).bit Reg.timeCfg 3 = true) :
    exec (.timeFrame n f tick part) s =
      (let u := (s.codewordsCounted n f).frameHeard n f g tick
       .next (((u.partnerNoted n ((u.partner n).take f.payload (16 * tick + part))).refreshTime.followParent n).refreshTime)) := by
  show execTimeFrame n f tick part s = _
  unfold execTimeFrame
  refine (if_neg (codewordsCounted_taken hr stays)).trans ?_
  show (match ((s.codewordsCounted n f).link n).admits f with | none => _ | some g => _) = _
  rw [ha]
  have enabled : ¬((!((s.codewordsCounted n f).frameHeard n f g tick).bit Reg.timeCfg 3) = true) := by
    rw [h3]
    exact Bool.false_ne_true
  exact if_neg enabled

end

/-! ### Following the parent leaves what is known of the partners (R35, R38) -/

theorem State.measured_partners (s : State) (off : Int) : (s.measured off).time.partners = s.time.partners := by
  have shown : (s.offsetShown off).time.partners = s.time.partners := by rw [State.offsetShown_time, State.slewOn_time]
  by_cases fences : s.slewOn.fenceTest off = true ∧ (s.offsetShown off).inService = true ∧ (s.offsetShown off).time.acquired = true
  · have eq : s.measured off = ((s.offsetShown off).raiseBit Reg.timeEvent 3).loseTime := if_pos fences
    rw [eq, State.loseTime_time, State.raiseBit_time]
    exact shown
  · exact (congrArg (fun t : State => t.time.partners) (if_neg fences : s.measured off = _)).trans shown

/-- Only a count that is stepped, to acquire time, forgets when it last sent to its partners. -/
theorem State.followParent_partners {s : State} (n : Nat) (h : s.time.acquired = true ∨ s.time.parent = none) :
    (s.followParent n).time.partners = s.time.partners := by
  unfold State.followParent
  extract_lets p
  split
  · rfl
  · rename_i follows
    have acquired : s.time.acquired = true := h.resolve_right (fun e => follows (.inl (by rw [e]; exact Option.some_ne_none n |>.symm)))
    split
    · rfl
    · exact s.measured_partners _

/-- The nearer of two links that can be followed, the one of the lower number where they are as near. -/
def nearer (b : Option (Nat × Nat)) (p : Nat × Nat) : Option (Nat × Nat) :=
  match b with
  | none => some p
  | some q => if p.2 < q.2 ∨ (p.2 = q.2 ∧ p.1 < q.1) then some p else b

theorem nearer_eq (b : Option (Nat × Nat)) (p : Nat × Nat) : nearer b p = some p ∨ nearer b p = b := by
  unfold nearer
  split
  · exact .inl rfl
  · split
    · exact .inl rfl
    · exact .inr rfl

theorem State.timeParent_eq (s : State) : s.timeParent = (if s.bit Reg.timeCfg 3 then s.timeParents else []).foldl nearer none := rfl

/-- A parent is one of the links that can be followed. -/
theorem State.timeParent_mem {s : State} {p : Nat × Nat} (h : s.timeParent = some p) : p ∈ s.timeParents := by
  have candidates : ∀ q, s.timeParent = some q → q ∈ (if s.bit Reg.timeCfg 3 then s.timeParents else []) := by
    rw [State.timeParent_eq]
    refine List.foldlRecOn (motive := fun b => ∀ q, b = some q → q ∈ _) _ nearer (fun q e => nomatch e) (fun b hb a ha q e => ?_)
    rcases nearer_eq b a with new | old
    · exact Option.some.inj (new.symm.trans e) ▸ ha
    · exact hb q (old.symm.trans e)
  have mem := candidates p h
  split at mem
  · exact mem
  · exact absurd mem List.not_mem_nil

/-- A parent's hop count is below 8. -/
theorem State.timeParents_hop {s : State} {p : Nat × Nat} (h : p ∈ s.timeParents) : p.2 < 8 := by
  obtain ⟨x, _, hx⟩ := List.mem_filterMap.mp h
  split at hx
  · split at hx
    · rename_i near
      cases hx
      exact near.2
    · exact nomatch hx
  · exact nomatch hx

/-- Without a source the node follows no link. -/
theorem State.timeFacts_of_no_source {s : State} (h : s.timeFacts.2.1 = 15) : s.timeFacts.1 ≠ 2 := by
  revert h
  unfold State.timeFacts
  split
  · exact fun _ => (by decide : 1 ≠ 2)
  · split
    · exact fun _ => (by decide : 0 ≠ 2)
    · split
      · rename_i n hop parent
        intro (lost : hop + 1 = 15)
        have near : hop < 8 := State.timeParents_hop (State.timeParent_mem parent)
        omega
      · exact fun _ => (by decide : 0 ≠ 2)

/-- A node that loses its time has no parent. -/
theorem State.refreshTime_acquired {s : State} (ha : s.time.acquired = true) :
    s.refreshTime.time.acquired = true ∨ s.refreshTime.time.parent = none := by
  by_cases lost : s.timeLost
  · refine .inr ?_
    rw [State.refreshTime_of_lost lost, State.loseTime_time, State.showTime_time]
    exact if_neg (State.timeFacts_of_no_source lost.1)
  · refine .inl ?_
    rw [State.refreshTime_of_not_lost lost, State.showTime_time]
    exact ha

/-! ### The two parts together -/

/-- A frame that is not accepted is counted, and noted where its epoch is none of the link's. -/
theorem timeFrame_bad {s : State} {n tick part : Nat} {f : Frame} (hr : s.running = true)
    (stays : ((s.codewordsCounted n f).link n).state = LState.up ∨ ((s.codewordsCounted n f).link n).state = LState.miswired)
    (ha : ((s.codewordsCounted n f).link n).admits f = none) :
    Completes (.timeFrame n f tick part) s (partsOf (.timeFrame n f tick part)) (fun t =>
      t.regs = ((s.codewordsCounted n f).bump (Reg.lnkPortStat + 32 * n + 8)).regs ∧ (∀ k, k ≠ n → t.link k = s.link k) ∧ t.time = s.time ∧
      t.link n = if ((s.codewordsCounted n f).link n).keyed.any (fun g => g % 256 == f.epoch) then (s.codewordsCounted n f).link n
        else { (s.codewordsCounted n f).link n with foreign := true }) := by
  have met := State.codewordsCounted_met stays
  have up : ((s.codewordsCounted n f).link n).state ≠ LState.down := fun down => by rcases stays with e | e <;> exact nomatch down.symm.trans e
  refine completes_of (exec_timeFrame_bad hr stays ha) (execTimeFrame_keeps (Within.refl _) n f tick part (Keeps.refl s))
    ⟨State.badFrame_regs _ n f, fun k hk => ?_, (State.badFrame_time _ n f).trans met.time, ?_⟩
  · rw [State.badFrame_link f up, if_neg hk]
    exact met.link k hk
  · rw [State.badFrame_link f up, if_pos rfl]

/-- An accepted frame of a node with time acquired and link time transfer enabled records what it says of the partner (R35). -/
theorem timeFrame_accepted {s : State} {n tick part g : Nat} {f : Frame} (hr : s.running = true)
    (stays : ((s.codewordsCounted n f).link n).state = LState.up ∨ ((s.codewordsCounted n f).link n).state = LState.miswired)
    (ha : ((s.codewordsCounted n f).link n).admits f = some g) (hf : bitOf f.lflags 0 = false) (acquired : s.time.acquired = true)
    (h3 : s.bit Reg.timeCfg 3 = true) :
    Completes (.timeFrame n f tick part) s (partsOf (.timeFrame n f tick part)) (fun t =>
      tabGet t.time.partners n = some ((s.partner n).take f.payload (16 * tick + part))) := by
  have met := State.codewordsCounted_met stays
  have kept := (s.codewordsCounted n f).frameHeard_keeps n g tick hf
  let u := (s.codewordsCounted n f).frameHeard n f g tick
  have time : u.time = s.time := Eq.trans (kept.same .time (by decide)) met.time
  have bit : u.bit Reg.timeCfg 3 = true := by
    have live : u.regs.live = (s.codewordsCounted n f).regs.live := kept.same .live (by decide)
    rw [State.bit, State.live, live]
    exact (met.timeCfg 3).trans h3
  refine completes_of (exec_timeFrame_accepted hr stays ha bit) (execTimeFrame_keeps (Within.refl _) n f tick part (Keeps.refl s)) ?_
  have partner : u.partner n = s.partner n := by rw [State.partner, time, State.partner]
  show tabGet (((u.partnerNoted n ((u.partner n).take _ _)).refreshTime.followParent n).refreshTime).time.partners n = _
  rw [partner]
  generalize (s.partner n).take f.payload (16 * tick + part) = p
  have noted : (u.partnerNoted n p).time = { s.time with partners := tabPut s.time.partners n p } := by rw [State.partnerNoted_time, time]
  have follows := State.refreshTime_acquired (s := u.partnerNoted n p) (by rw [noted]; exact acquired)
  rw [State.refreshTime_partners, State.followParent_partners n follows, State.refreshTime_partners, noted]
  exact tabGet_tabPut_same _ n p

/-- Settles O9. -/
theorem timeMessagesAndFramesAreFollowed : Obligations.TimeMessagesAndFramesAreFollowed := by
  unfold Obligations.TimeMessagesAndFramesAreFollowed
  refine ⟨fun s b since hi ht h2 => ⟨fun hb => timeInMessage_ignored ht h2 hi.liveWf hb, fun form early late => ⟨?_, ?_, ?_⟩⟩,
    fun s n tick part f hr _ => ?_⟩
  · exact fun hn hw => timeInMessage_first ht h2 form early late hn hw
  · exact fun w hn hw hb => timeInMessage_second ht h2 form early late hn hw hb
  · exact fun m hn => timeInMessage_next ht h2 form early late hi.liveWf hn
  · intro u l p stays
    refine ⟨fun ha => timeFrame_bad hr stays ha, fun g ha hf acquired h3 => ?_⟩
    obtain ⟨t, he, parts, queue, noted⟩ := timeFrame_accepted (part := part) hr stays ha hf acquired h3
    exact ⟨t, he, parts, queue, noted, rfl, rfl, rfl, rfl⟩

end Sys2Proof.Machine
end

section
/-!
What comes in: a message taken as a request, let through to its calendar, or answered at once (R56, R78, R85, R288–R292).
-/

namespace Sys2Proof.Machine

open Sys2Proof

/-! ### The entries kept for isolated classes (R366) -/

/-- Every context of the second state is of the class and partition of one of the first. -/
def FewerParties (s t : State) : Prop := ∀ x ∈ t.que.qps, ∃ y ∈ s.que.qps, y.2.cls = x.2.cls ∧ y.2.part = x.2.part

theorem FewerParties.trans {s t u : State} (h : FewerParties s t) (g : FewerParties t u) : FewerParties s u := fun x hx => by
  obtain ⟨y, hy, yc, yp⟩ := g x hx
  obtain ⟨z, hz, zc, zp⟩ := h y hy
  exact ⟨z, hz, zc.trans yc, zp.trans yp⟩

theorem mem_tabPut {α : Type} {t : List (Nat × α)} {k : Nat} {v : α} {x : Nat × α} (h : x ∈ tabPut t k v) : x = (k, v) ∨ x ∈ t := by
  induction t with
  | nil => exact .inl (List.mem_singleton.mp h)
  | cons p t ih =>
    unfold tabPut at h
    split at h
    · exact (List.mem_cons.mp h).imp_right (List.mem_cons_of_mem _)
    · split at h
      · exact List.mem_cons.mp h
      · rcases List.mem_cons.mp h with h | h
        · exact .inr (h ▸ List.mem_cons_self ..)
        · exact (ih h).imp_right (List.mem_cons_of_mem _)

theorem mem_of_tabGet {α : Type} {t : List (Nat × α)} {k : Nat} {v : α} (h : tabGet t k = some v) : (k, v) ∈ t := by
  obtain ⟨x, hx, rfl⟩ := Option.map_eq_some_iff.mp h
  have key : x.1 = k := by simpa using List.find?_some hx
  exact key ▸ List.mem_of_find?_eq_some hx

theorem fewerParties_putQp {s : State} {k : Nat} {q r : Qp} (h : s.qp k = some q) (hc : r.cls = q.cls) (hp : r.part = q.part) :
    FewerParties s (s.putQp k r) := fun x hx => by
  rcases mem_tabPut hx with rfl | hx
  · exact ⟨(k, q), mem_of_tabGet h, hc.symm, hp.symm⟩
  · exact ⟨x, hx, rfl, rfl⟩

theorem fewerParties_mapQp {s : State} {k : Nat} {q r : Qp} (h : s.qp k = some q) (hc : r.cls = q.cls) (hp : r.part = q.part) :
    FewerParties s (s.mapQp k (fun _ => r)) := fun x hx => by
  obtain ⟨y, hy, rfl⟩ := List.mem_map.mp hx
  split
  · exact ⟨(k, q), mem_of_tabGet h, hc.symm, hp.symm⟩
  · exact ⟨y, hy, rfl, rfl⟩

theorem foldl_add_le_of_subset {l k : List Nat} (f : Nat → Nat) (h : l ⊆ k) :
    l.dedup.foldl (fun n t => n + f t) 0 ≤ k.dedup.foldl (fun n t => n + f t) 0 := by
  have sums : ∀ m : List Nat, m.dedup.foldl (fun n t => n + f t) 0 = m.toFinset.sum f := fun m => by
    rw [← List.foldl_map (f := f) (g := fun n t => n + t), ← List.sum_eq_foldl, ← List.sum_toFinset f m.nodup_dedup]
    exact congrArg (fun u : Finset Nat => u.sum f) (Finset.ext (fun x => by rw [List.mem_toFinset, List.mem_toFinset, List.mem_dedup]))
  rw [sums, sums]
  exact Finset.sum_le_sum_of_subset (fun x hx => List.mem_toFinset.mpr (h (List.mem_toFinset.mp hx)))

theorem foldl_le_foldl {f g : Nat → Nat → Nat} (h : ∀ n k c, n ≤ k → f n c ≤ g k c) (l : List Nat) {n k : Nat} (hn : n ≤ k) : l.foldl f n ≤ l.foldl g k := by
  induction l generalizing n k with
  | nil => exact hn
  | cons c l ih => exact ih (h n k c hn)

/-- Fewer classes and partitions have fewer entries kept for them. -/
theorem State.isoSpare_le {s t : State} (h : FewerParties s t) (hl : t.regs.live = s.regs.live) (c : Nat) (inUse : Nat → Nat) :
    t.isoSpare c inUse ≤ s.isoSpare c inUse := by
  have live : t.live = s.live := funext (fun a => by rw [State.live, State.live, hl])
  have parts : ∀ c, ((t.que.qps.filter (fun q => q.2.cls == c && q.2.part != sysPart)).map (fun q => q.2.part)) ⊆
      ((s.que.qps.filter (fun q => q.2.cls == c && q.2.part != sysPart)).map (fun q => q.2.part)) := fun c p hp => by
    obtain ⟨x, hx, rfl⟩ := List.mem_map.mp hp
    obtain ⟨mem, fits⟩ := List.mem_filter.mp hx
    obtain ⟨y, hy, yc, yp⟩ := h x mem
    exact List.mem_map.mpr ⟨y, List.mem_filter.mpr ⟨hy, by rw [yc, yp]; exact fits⟩, yp⟩
  unfold State.isoSpare State.isolated State.bit State.fld
  rw [live]
  refine foldl_le_foldl (fun n k c' hn => ?_) _ (Nat.le_refl _)
  split
  · exact hn
  · exact Nat.add_le_add hn (Nat.sub_le_sub_right (foldl_add_le_of_subset _ (parts c')) _)

theorem State.poolFree_of_fewer {s t : State} {c : Nat} (h : FewerParties s t) (hl : t.regs.live = s.regs.live) (hh : t.sch.held = s.sch.held)
    (free : s.poolFree c = true) : t.poolFree c = true := by
  simp only [State.poolFree, decide_eq_true_eq, hh] at free ⊢
  exact Nat.lt_of_le_of_lt (Nat.add_le_add_left (State.isoSpare_le h hl c _) _) free

theorem State.evidenceFree_of_fewer {s t : State} {c : Nat} (h : FewerParties s t) (hl : t.regs.live = s.regs.live) (hh : t.sch.held = s.sch.held)
    (he : t.hlt = s.hlt) (free : s.evidenceFree c = true) : t.evidenceFree c = true := by
  simp only [State.evidenceFree, decide_eq_true_eq, hh, he] at free ⊢
  exact Nat.lt_of_le_of_lt (Nat.add_le_add_left (State.isoSpare_le h hl c _) _) free

/-! ### Ingress (R56, R78 step 1) -/

/-- The request that a message makes as it is taken in, of an operation and a class, in a PSN stream. -/
def State.reqOf (s : State) (arr : Arrival) (m : List Byte) (op : Op) (cls stream : Nat) : Req :=
  { rid := s.sch.nextRid, arr := arr, msg := m, cls := cls, urgent := s.urgentClass cls, cost := (s.costOf op m).1
    bucket := if op.hasAttend then bucketOf (s.costOf op m).2 else 0, tAdmit := if s.isolated cls then s.now + 112 else s.now
    notBefore := if s.isolated cls then s.now + 112 else 0, evEntry := false, heldMove := false, counted := false, turns := none, gen := none, stream := stream }

/-- A request number has been given out. -/
def State.numbered (s : State) : State := { s with sch := { s.sch with nextRid := s.sch.nextRid + 1 } }

theorem State.numbered_keeps {b : List Blk} {z s : State} (hm : Within [.sch] b) (h : Keeps b z s) : Keeps b z s.numbered := keeps_mk (h := h)

section
variable {s : State} {arr : Arrival} {m : List Byte} {q : Qp} {k : Nat}

/-- A message of a tenant's own that passes ingress on a ring goes to its admission, in the ring's class. -/
theorem State.ingress_ring {op : Op} (hv : ∃ i a c, arr.via = .ring i a c) (hop : opOf (Msg.opcode m) = some op) (hs : op ≠ .spanWork)
    (ha : op = .attest → s.bit Reg.secCfg 4 = true) (hf : ingressFault op m arr.length = none) (ht : Msg.tenant m = q.part) :
    s.ingress arr m q k = s.numbered.admission (s.reqOf arr m op q.cls q.stream) op q k := by
  obtain ⟨i, a, c, hv⟩ := hv
  have known : (opOf (Msg.opcode m)).bind (fun op => if (op = .attest ∧ !s.bit Reg.secCfg 4) ∨ (op = .spanWork ∧ !false) then none else some op) = some op := by
    rw [hop, Option.bind_some, if_neg]
    rintro (⟨e, off⟩ | ⟨e, _⟩)
    · rw [ha e] at off
      exact Bool.noConfusion off
    · exact hs e
  unfold State.ingress
  simp only [hv, known, hf, ht, ne_eq, not_true_eq_false, false_and, if_false]
  cases op with
  | spanWork => exact absurd rfl hs
  | _ => rfl

/-- A SPAN_WORK of another node that passes ingress goes to its admission, in the class of the sequence it names here, or the one its packet carries (R91). -/
theorem State.ingress_span {c : Nat} (hv : arr.via = .fwd c) (hop : opOf (Msg.opcode m) = some .spanWork) (hf : ingressFault .spanWork m arr.length = none) :
    s.ingress arr m q k =
      s.numbered.admission (s.reqOf arr m .spanWork (((s.findSeq (Msg.tenant m) (Msg.sid m)).map (·.cls)).getD c) q.stream) .spanWork q k := by
  unfold State.ingress
  simp [hv, hop, hf]
  rfl

/-- An opcode that no row knows is refused at once (R57). -/
theorem State.ingress_unknown (hop : opOf (Msg.opcode m) = none) :
    ∃ r : Req, s.ingress arr m q k = s.numbered.refuse r Status.badOpcode 0 ∧ r.rid = s.sch.nextRid ∧ r.msg = m := by
  unfold State.ingress
  rw [hop]
  exact ⟨_, rfl, rfl, rfl⟩

/-- A message on a submission ring is taken in on that ring's context. -/
theorem State.arrive_ring (h : OnRing s arr q) : s.arrive arr m = (s.putQp (ringBase + arr.ctx) q.took).ingress arr m q.took (ringBase + arr.ctx) := by
  obtain ⟨running, ⟨i, a, c, hv⟩, hq, ring, kind, open_⟩ := h
  unfold State.arrive
  simp [running, hv, hq, ring, kind, open_]

end

/-! ### Admission (R78 steps 2 to 4) -/

/-- A request joins those held, with its evidence entry. -/
def State.heldWith (s : State) (r : Req) : State :=
  { s with sch := { s.sch with held := s.sch.held ++ [r] }, hlt := { s.hlt with evReserved := s.hlt.evReserved + b2n r.evEntry } }

/-- The parts that a request's place in its calendar changes beside the calendar and the evidence. -/
abbrev placeParts : List Blk := [.live, .run, .pgw, .que, .mem, .lnk, .hst, .sum, .outbox, .freeCtr]

/-- A request is placed by joining those held; Dawn may then look at its pages. -/
theorem State.place_keeps_held (s : State) (r : Req) (k : Nat) :
    Keeps placeParts (s.heldWith { r with heldMove := r.heldMove || s.holdsBack r }) (s.place r k) := by
  have hm : Within placeParts placeParts := Within.refl placeParts
  unfold State.place
  refine State.refreshPool_keeps (hm.sub rfl) (keeps_ite (State.dawnLook_keeps (hm.sub rfl) _ _ _ _ _ ?_) ?_) <;>
    exact keeps_ite (State.bump_keeps (hm.sub rfl) _ _ (State.mapQp_keeps (hm.sub rfl) _ _ (Keeps.refl _))) (State.mapQp_keeps (hm.sub rfl) _ _ (Keeps.refl _))

/-- What a placed request finds of the node's requests and evidence. -/
theorem State.place_sch (s : State) (r : Req) (k : Nat) :
    (s.place r k).sch = { s.sch with held := s.sch.held ++ [{ r with heldMove := r.heldMove || s.holdsBack r }] } ∧
    (s.place r k).hlt = { s.hlt with evReserved := s.hlt.evReserved + b2n r.evEntry } :=
  have kept := s.place_keeps_held r k
  ⟨kept.same .sch (by decide), kept.same .hlt (by decide)⟩

section
variable {s : State} {r : Req} {op : Op} {k part : Nat}

/-- A request of the node's own sequences that the last checks let through is placed, with an evidence entry unless it is a SPAN_WORK (R78, R340). -/
theorem State.admitReq_place {take : State → State} (hr : op ≠ .rread ∧ op ≠ .rwrite ∧ op ≠ .rwriteTiles) (hm : s.mode ≠ 3) (ha : s.awayHome r op = none)
    (he : op = .spanWork ∨ s.evidenceFree r.cls = true) (hd : dataFault op r.msg = none) :
    s.admitReq r op k part take = (take s).place { r with evEntry := op != .spanWork } k := by
  have free : (op != .spanWork && !s.evidenceFree r.cls) = false := by
    rcases he with rfl | e
    · rfl
    · rw [e, Bool.not_true, Bool.and_false]
  unfold State.admitReq
  simp only [hm, ha, hd, false_and, if_false, Option.isNone_none, Bool.true_and, free, Bool.false_eq_true]
  cases op with
  | rread => exact absurd rfl hr.1
  | rwrite => exact absurd rfl hr.2.1
  | rwriteTiles => exact absurd rfl hr.2.2
  | _ => rfl

/-- Off a system queue pair no meter counts (R291). -/
theorem State.admission_system {q : Qp} (hm : s.mapOk (Msg.mapGen r.msg) = true) (ha : s.awayHome r op = none) (hp : q.part = sysPart) (free : s.poolFree r.cls = true) :
    s.admission r op q k = s.admitReq r op k q.part id := by
  unfold State.admission
  simp [hm, ha, hp, free]

/-- A queue pair's meter and its tenant's aggregate, refilled (R289, R290). -/
def State.metered (s : State) (q : Qp) (k : Nat) : State := (s.mapQp k (fun _ => q.refill s.minutes)).putAgg q.part (s.agg q.part)

/-- A green request's cost leaves its meter and its tenant's aggregate, and is queued (R289, R290). -/
def State.chargeGreen (s : State) (a : TenantAgg) (t k cost : Nat) : State :=
  let s := s.mapQp k (fun q => (q.deduct .green (cost * 256)).bump 4 1)
  ((s.putAgg t { a with content := a.content - cost * 256, queued := a.queued + cost }).bumpMax (Reg.schTenantStat + 16 * t + 0xC) (a.queued + cost)).tenantCount t 0

/-- A green request that its tenant's aggregate and the pool have room for is placed, and charged. -/
theorem State.admission_green {q : Qp} (hr : op ≠ .rread ∧ op ≠ .rwrite ∧ op ≠ .rwriteTiles) (hs : op ≠ .spanWork) (hg : s.mapOk (Msg.mapGen r.msg) = true)
    (ha : s.awayHome r op = none) (hp : q.part ≠ sysPart) (green : (q.refill s.minutes).colour (r.cost * 256) = .green)
    (fits : r.cost * 256 ≤ (s.agg q.part).content) (short : (s.agg q.part).queued + r.cost ≤ s.fld (Reg.schTenantCfg + 16 * q.part + 8) 19 0)
    (pool : (s.metered q k).poolFree r.cls = true) (hm : s.mode ≠ 3) (he : (s.metered q k).evidenceFree r.cls = true) (hd : dataFault op r.msg = none) :
    s.admission r op q k = ((s.metered q k).chargeGreen (s.agg q.part) q.part k r.cost).place { r with evEntry := true } k := by
  have met : ∃ take : State → State, take (s.metered q k) = (s.metered q k).chargeGreen (s.agg q.part) q.part k r.cost ∧
      s.admission r op q k = (s.metered q k).admitReq r op k q.part take := by
    have here : (s.metered q k).awayHome r op = none := ha
    have room : (s.agg q.part).queued + r.cost ≤ (s.metered q k).fld (Reg.schTenantCfg + 16 * q.part + 8) 19 0 := short
    have local_ : (op == .rread || op == .rwrite || op == .rwriteTiles) = false := by simp [hr]
    unfold State.metered at here room pool ⊢
    unfold State.admission
    simp only [hg, ha, green, hp, Bool.not_true, Bool.false_eq_true, Option.isSome_none, and_false, or_self, if_false, fits, room, decide_true, Bool.and_self,
      show (Colour.green != Colour.yellow) = true from rfl, Bool.true_or, pool]
    refine ⟨_, ?_, rfl⟩
    simp only [local_, here, Option.isSome_none, Bool.or_self, Bool.false_eq_true, if_false, if_true]
    rfl
  obtain ⟨take, charged, eq⟩ := met
  rw [eq, State.admitReq_place (s := s.metered q k) hr hm ha (.inr he) hd, charged, show (op != Op.spanWork) = true from bne_iff_ne.mpr hs]

end

/-! ### Requests on a ring reach their calendar (R56, R78, R85, R290) -/

/-- Each row of the table takes in the messages of its own kind. -/
theorem exec_requestRow {arr : Arrival} {m : List Byte} {i : Instr} {op : Op} {mine : Bool} (h : (i, op, mine) ∈ requestRows arr m) (s : State) :
    exec i s = .next (s.requestRow mine arr m) ∧ (op ≠ .rread ∧ op ≠ .rwrite ∧ op ≠ .rwriteTiles) := by
  simp only [requestRows, List.mem_cons, Prod.mk.injEq, List.not_mem_nil, or_false] at h
  rcases h with h | h | h | h | h | h | h | h | h | h | h | h <;>
    (obtain ⟨rfl, rfl, rfl⟩ := h; exact ⟨rfl, by decide⟩)

theorem partsOf_requestRow {arr : Arrival} {m : List Byte} {i : Instr} {op : Op} {mine : Bool} (h : (i, op, mine) ∈ requestRows arr m) :
    partsOf i = partsOf (.badOpcode arr m) := by
  simp only [requestRows, List.mem_cons, Prod.mk.injEq, List.not_mem_nil, or_false] at h
  rcases h with h | h | h | h | h | h | h | h | h | h | h | h <;>
    (obtain ⟨rfl, rfl, rfl⟩ := h; rfl)

/-- What a tenant's message on a ring has become once every check has let it through. -/
theorem State.arrive_admitted {s : State} {arr : Arrival} {m : List Byte} {op : Op} {q : Qp} (hr : op ≠ .rread ∧ op ≠ .rwrite ∧ op ≠ .rwriteTiles)
    (h : RingAdmits s arr m op q) :
    let k := ringBase + arr.ctx
    let u := (s.putQp k q.took).numbered
    s.arrive arr m = ((u.metered q.took k).chargeGreen (s.agg q.part) q.part k (s.costOf op m).1).place { s.reqOf arr m op q.cls q.stream with evEntry := true } k := by
  obtain ⟨ring, hop, hs, attest, ingress, tenant, part, gen, mode, data, green, fits, short, pool, evidence, home⟩ := h
  obtain ⟨_, via, hq, _⟩ := id ring
  intro k u
  have away : u.awayHome (s.reqOf arr m op q.cls q.stream) op = none := if_neg (fun ⟨homed, ne⟩ => ne (home homed))
  have took : FewerParties s (s.putQp k q.took) := fewerParties_putQp hq rfl rfl
  have refilled : FewerParties (s.putQp k q.took) (u.metered q.took k) := fewerParties_mapQp (s := s.putQp k q.took) (tabGet_tabPut_same _ _ _) rfl rfl
  rw [Nat.mul_comm] at green fits
  rw [State.arrive_ring ring, State.ingress_ring (s := s.putQp k q.took) (q := q.took) via hop hs attest ingress tenant]
  exact State.admission_green hr hs gen away part green fits short (State.poolFree_of_fewer (took.trans refilled) rfl rfl pool) mode
    (State.evidenceFree_of_fewer (took.trans refilled) rfl rfl rfl evidence) data

/-- Settles O31: each check lets the message on, and the request is placed and charged. -/
theorem requestsReachTheirCalendar : Obligations.RequestsReachTheirCalendar := by
  unfold Obligations.RequestsReachTheirCalendar
  intro s arr m q i op _ row admits
  obtain ⟨he, hr⟩ := exec_requestRow row s
  have taken := State.arrive_admitted hr admits
  extract_lets k u at taken
  obtain ⟨sch, hlt⟩ := State.place_sch ((u.metered q.took k).chargeGreen (s.agg q.part) q.part k (s.costOf op m).1) { s.reqOf arr m op q.cls q.stream with evEntry := true } k
  rw [← taken] at sch hlt
  refine completes_keeps he ?_ ?_
  · rw [partsOf_requestRow row]
    exact State.requestRow_keeps (Within.refl _) _ _ _ (Keeps.refl s)
  · show _ ∧ _
    rw [show s.requestRow true arr m = s.arrive arr m from rfl, sch, hlt]
    refine ⟨⟨_, rfl, rfl, rfl, rfl, rfl, rfl, ?_, rfl, rfl⟩, rfl, rfl, rfl, _, tabGet_tabPut_same _ _ _, congrArg _ (Nat.mul_comm _ _), rfl⟩
    show (if s.isolated q.cls = true then s.now + 112 else s.now) = _
    split <;> rfl

/-! ### SPAN_WORK, and opcodes that no row knows (R57, R91, R202, R291) -/

/-- A message that is accepted off a queue pair is taken in on its context. -/
theorem State.arrive_accepted {s t : State} {arr : Arrival} {m : List Byte} {q : Qp} {c : Nat} (hr : s.running = true) (hv : arr.via = .fwd c)
    (ha : s.acceptRequest arr m = .accept t) (hq : t.qp arr.ctx = some q) : s.arrive arr m = t.ingress arr m q arr.ctx := by
  unfold State.arrive
  simp only [hr, Bool.not_true, Bool.false_eq_true, if_false, hv, ha, hq]

/-- A SPAN_WORK that its holder lets through is placed, neither metered nor charged. -/
theorem spanWork_placed {s t : State} {arr : Arrival} {m : List Byte} {q : Qp} {c : Nat} (hr : s.running = true) (hv : arr.via = .fwd c)
    (ha : s.acceptRequest arr m = .accept t) (hq : t.qp arr.ctx = some q) (hp : q.part = sysPart) (hop : Msg.opcode m = 0x30)
    (hf : ingressFault .spanWork m arr.length = none) (hg : t.mapOk (Msg.mapGen m) = true) (hm : t.mode ≠ 3) (hd : dataFault .spanWork m = none) :
    let cls := ((t.findSeq (Msg.tenant m) (Msg.sid m)).map (·.cls)).getD c
    t.poolFree cls = true →
    Completes (.spanWork arr m) s (partsOf (.spanWork arr m)) (fun x =>
      (∃ r, x.sch.held = s.sch.held ++ [r] ∧ r.rid = s.sch.nextRid ∧ r.msg = m ∧ r.arr = arr ∧ r.cls = cls ∧ r.cost = (t.costOf .spanWork m).1 ∧ r.evEntry = false) ∧
      x.hlt.evReserved = s.hlt.evReserved ∧ x.sch.aggs = s.sch.aggs ∧ x.sch.replies = s.sch.replies) := by
  intro cls pool
  have kept : Keeps [.live, .run, .que, .lnk, .hst, .sum, .outbox] s t := (State.acceptRequest_keeps (Within.refl _) arr m (Keeps.refl s)).accept t ha
  have sch : t.sch = s.sch := kept.same .sch (by decide)
  have hlt : t.hlt = s.hlt := kept.same .hlt (by decide)
  let r := t.reqOf arr m .spanWork cls q.stream
  have placed : s.requestRow (Msg.opcode m == 0x30) arr m = t.numbered.place r arr.ctx := by
    rw [hop]
    show s.arrive arr m = _
    rw [State.arrive_accepted hr hv ha hq, State.ingress_span hv (by rw [hop]; rfl) hf]
    exact (State.admission_system (s := t.numbered) (r := r) hg rfl hp pool).trans (State.admitReq_place (s := t.numbered) (r := r) (by decide) hm rfl (.inl rfl) hd)
  obtain ⟨placedSch, placedHlt⟩ := State.place_sch t.numbered r arr.ctx
  rw [← placed] at placedSch placedHlt
  refine completes_of (s := s) rfl (execSpanWork_keeps (Within.refl _) arr m (Keeps.refl s)) ?_
  rw [placedSch, placedHlt, ← sch, ← hlt]
  exact ⟨⟨_, rfl, rfl, rfl, rfl, rfl, rfl, rfl⟩, rfl, rfl, rfl⟩

/-- Only a reply of STALE_MAP is counted as it is finished (R325). -/
theorem State.reply_of_status {s : State} {x : Reply} (h : x.status ≠ Status.staleMap) :
    s.reply x = { s with sch := { s.sch with replies := s.sch.replies ++ [{ x with gen := some (x.gen.getD (x.req.gen.getD s.genLow)) }] } } := by
  unfold State.reply
  rw [if_neg (fun e => h e.1)]

/-- An opcode that no row knows is answered at once (R57, R202, R283). -/
theorem badOpcode_answered {s : State} {arr : Arrival} {m : List Byte} {q : Qp} (h : OnRing s arr q) (hop : opOf (Msg.opcode m) = none) :
    Completes (.badOpcode arr m) s [.sch, .que] (fun t =>
      (∃ x, t.sch.replies = s.sch.replies ++ [x] ∧ x.req.rid = s.sch.nextRid ∧ x.req.msg = m ∧ x.status = Status.badOpcode ∧ x.detail = 0) ∧
      t.sch.held = s.sch.held ∧ t.que = (s.putQp (ringBase + arr.ctx) q.took).que) := by
  obtain ⟨r, refused, rid, msg⟩ := State.ingress_unknown (s := s.putQp (ringBase + arr.ctx) q.took) (arr := arr) (q := q.took) (k := ringBase + arr.ctx) hop
  have he : exec (.badOpcode arr m) s = .next ((s.putQp (ringBase + arr.ctx) q.took).numbered.refuse r Status.badOpcode 0) := by
    rw [← refused, ← State.arrive_ring h]
    show execBadOpcode arr m s = _
    rw [execBadOpcode, hop]
    rfl
  rw [State.refuse, State.reply_of_status (by decide : Status.badOpcode ≠ Status.staleMap)] at he
  refine completes_keeps he ?_ ⟨⟨_, rfl, rid, msg, rfl, rfl⟩, rfl, rfl⟩
  have hm : Within [Blk.sch, .que] [.sch, .que] := Within.refl _
  exact keeps_mk (h := State.numbered_keeps (hm.sub rfl) (State.putQp_keeps (hm.sub rfl) _ _ (Keeps.refl s)))

/-- Settles O32. -/
theorem spanWorkAndUnknownOpcodes : Obligations.SpanWorkAndUnknownOpcodes := by
  unfold Obligations.SpanWorkAndUnknownOpcodes
  refine ⟨fun s t arr m q c hr hv ha hq hp hop hf hg hm hd => spanWork_placed hr hv ha hq hp hop hf hg hm hd, fun s arr m q h hop => badOpcode_answered h hop⟩

end Sys2Proof.Machine
end

section
/-!
Finished replies: their hand-over to a queue pair or a ring, and the record each leaves (R76, R274, R340, R366, R382).
-/

namespace Sys2Proof.Machine

open Sys2Proof

/-! ### No reply leaves but by its hand-over -/

/-- Every reply handed out in the second state was handed out in the first. -/
def NoReplies (s t : State) : Prop := ∀ rid b, .reply rid b ∈ t.outbox → .reply rid b ∈ s.outbox

theorem NoReplies.refl (s : State) : NoReplies s s := fun _ _ h => h

theorem NoReplies.trans {s t u : State} (h : NoReplies s t) (g : NoReplies t u) : NoReplies s u := fun rid b m => h rid b (g rid b m)

theorem NoReplies.of_outbox {s t : State} (h : t.outbox = s.outbox := by rfl) : NoReplies s t := fun _ _ m => h ▸ m

theorem NoReplies.emit (s : State) {m : OutMsg} (h : ∀ rid b, .reply rid b ≠ m) : NoReplies s (s.emit m) := fun rid b mem =>
  (List.mem_append.mp mem).resolve_right (fun e => h rid b (List.mem_singleton.mp e))

theorem State.hostPut_noReplies (s : State) (p : HostPkt) : NoReplies s (s.hostPut p) := NoReplies.emit _ (fun _ _ => nofun)

theorem hostPump_noReplies (l : List HostPkt) (p n : Bool) (s : State) : NoReplies s (hostPump l p n s) := by
  induction l generalizing p n s with
  | nil => exact .refl s
  | cons x t ih =>
    unfold hostPump
    extract_lets blocked
    split
    · exact (s.hostPut_noReplies x).trans (ih _ _ _)
    · exact NoReplies.trans .of_outbox (ih _ _ _)

theorem State.hostMsg_noReplies (s : State) (f v : Nat) : NoReplies s (s.hostMsg f v) := NoReplies.trans .of_outbox (hostPump_noReplies _ _ _ _)

theorem State.sendSummary_noReplies (s : State) (b : Nat) : NoReplies s (s.sendSummary b) := by
  unfold State.sendSummary
  extract_lets fn u
  have msg : NoReplies s u := by
    show NoReplies s (if _ then _ else _)
    split
    · exact s.hostMsg_noReplies _ _
    · exact .refl s
  split
  · exact msg.trans (.emit u (fun _ _ => nofun))
  · exact msg

theorem State.raiseBit_noReplies (s : State) (a i : Nat) : NoReplies s (s.raiseBit a i) := by
  unfold State.raiseBit State.raise
  extract_lets b was u
  have set : NoReplies s u := .of_outbox
  split
  · exact set
  · refine set.trans ?_
    unfold State.summaryRise
    split
    · exact .refl u
    · split
      · exact .of_outbox
      · exact NoReplies.trans .of_outbox (State.sendSummary_noReplies _ _)

/-! ### Contexts after a change (R274) -/

theorem tabGet_tabMap {α : Type} (t : List (Nat × α)) (k j : Nat) (f : α → α) :
    tabGet (tabMap t k f) j = if j = k then (tabGet t k).map f else tabGet t j := by
  induction t with
  | nil => simp [tabMap, tabGet]
  | cons p t ih =>
    obtain ⟨i, w⟩ := p
    simp only [tabMap, tabGet, List.map_cons] at ih ⊢
    by_cases hik : i = k
    · subst hik
      by_cases hj : j = i
      · simp [hj]
      · simpa [hj, Ne.symm hj, List.find?_cons] using ih
    · by_cases hij : i = j
      · subst hij
        simp [hik]
      · simpa [hik, hij, List.find?_cons] using ih

theorem State.qp_mapQp (s : State) (k j : Nat) (f : Qp → Qp) : (s.mapQp k f).qp j = if j = k then (s.qp k).map f else s.qp j := tabGet_tabMap ..

theorem State.qp_putQp_same (s : State) (k : Nat) (q : Qp) : (s.putQp k q).qp k = some q := tabGet_tabPut_same ..

theorem State.qp_of_que {s t : State} (h : t.que = s.que) (k : Nat) : t.qp k = s.qp k := congrArg (fun x : QueSt => tabGet x.qps k) h

/-! ### Evidence records (R338, R340) -/

/-- An entry of the evidence buffer is free, beside the one that is kept for the seal. -/
abbrev State.entryFree (s : State) : Prop := s.hlt.evidence.length + s.hlt.evReserved < 65535

section
variable {s : State} {x : Reply} (discarded : Bool)

theorem State.writeEvidence_none (h : x.noRecord = true) : s.writeEvidence x discarded = s := if_pos h

theorem State.writeEvidence_reserved (h : x.noRecord = false) (he : x.req.evEntry = true) :
    ∃ e, (s.writeEvidence x discarded).hlt.evidence = s.hlt.evidence ++ [e] ∧ (s.writeEvidence x discarded).hlt.evReserved = s.hlt.evReserved - 1 := by
  unfold State.writeEvidence
  rw [if_neg (by simp [h]), if_pos he]
  exact ⟨_, rfl, rfl⟩

theorem State.writeEvidence_free (h : x.noRecord = false) (he : x.req.evEntry = false) (hf : s.entryFree) :
    ∃ e, (s.writeEvidence x discarded).hlt.evidence = s.hlt.evidence ++ [e] ∧ (s.writeEvidence x discarded).hlt.evReserved = s.hlt.evReserved := by
  unfold State.writeEvidence
  rw [if_neg (by simp [h]), if_neg (by simp [he]), if_neg (Nat.not_le.mpr hf)]
  exact ⟨_, rfl, rfl⟩

theorem State.writeEvidence_missed (h : x.noRecord = false) (he : x.req.evEntry = false) (hf : ¬s.entryFree) : s.writeEvidence x discarded = s.evidenceMissed := by
  unfold State.writeEvidence
  rw [if_neg (by simp [h]), if_neg (by simp [he]), if_pos (Nat.not_lt.mp hf)]

end

theorem State.evidenceMissed_hlt (s : State) : s.evidenceMissed.hlt = { s.hlt with evMissed := s.hlt.evMissed + 1 } :=
  (State.raiseBit_keeps (m := [.live, .hst, .sum, .outbox]) (Within.refl _) _ _ (Keeps.refl { s with hlt := { s.hlt with evMissed := s.hlt.evMissed + 1 } })).same .hlt (by decide)

theorem State.evidenceMissed_noReplies (s : State) : NoReplies s s.evidenceMissed := NoReplies.trans .of_outbox (State.raiseBit_noReplies _ _ _)

theorem State.writeEvidence_noReplies (s : State) (x : Reply) (discarded : Bool) : NoReplies s (s.writeEvidence x discarded) := by
  unfold State.writeEvidence
  split
  · exact .refl s
  · split
    · exact .of_outbox
    · split
      · exact s.evidenceMissed_noReplies
      · exact .of_outbox

/-- A record that is missed sets HLT_EVENT.evidence_lost, and no other register changes. -/
theorem State.writeEvidence_sameRegs {s : State} (h : s.liveWf) (x : Reply) (discarded : Bool) : SameRegsBut [Reg.hltEvent] s (s.writeEvidence x discarded) := by
  unfold State.writeEvidence
  split
  · exact .refl _ s
  · split
    · exact .refl _ s
    · split
      · exact State.raiseBit_sameRegs (s := { s with hlt := { s.hlt with evMissed := s.hlt.evMissed + 1 } }) h _ _
      · exact .refl _ s

/-! ### The end of a reply (R17, R274, R366) -/

/-- A reply is off the list, and its place in its context ends. -/
def State.offList (s : State) (x : Reply) : State :=
  ({ s with sch := { s.sch with replies := s.sch.replies.filter (fun y => y.req.rid != x.req.rid) } }).mapQp x.req.key (fun q => { q with inbound := q.inbound - 1 })

/-- A reply handed over later than its instant is noted (R366). -/
def State.lateNoted (s : State) (x : Reply) : State :=
  if decide (x.notBefore ≠ 0 ∧ x.notBefore < s.now) then (s.bump (Reg.secIsoLate + 4 * x.req.cls)).raiseBit Reg.secEvent 8 else s

/-- A reply's end up to its record: off the list, noted where it is late, and the set of a VERIFY dated (R69). -/
def State.ended (s : State) (x : Reply) : State :=
  let s := (s.offList x).lateNoted x
  if x.req.op = .verify then s.endVerify x.req.rid x.req.msg true else s

/-- A recorded reply goes out, or counts as a discard. -/
def State.handedOut (s : State) (x : Reply) (bytes : List Byte) (discarded : Bool) : State :=
  if discarded then s.discard (fun d => { d with lateReply := d.lateReply + 1 }) else s.emit (.reply x.req.rid bytes)

theorem State.finish_eq (s : State) (x : Reply) (bytes : List Byte) (discarded : Bool) :
    s.finish x bytes discarded = ((s.ended x).writeEvidence x discarded).handedOut x bytes discarded := by
  unfold State.finish State.handedOut State.ended State.lateNoted State.offList
  cases discarded
  · simp only [Bool.false_eq_true, if_false]
  · simp only [if_true]

theorem State.handedOut_keeps {m : List Blk} {z s : State} (hm : Within [.que, .outbox] m) (x : Reply) (bytes : List Byte) (discarded : Bool) (h : Keeps m z s) :
    Keeps m z (s.handedOut x bytes discarded) :=
  keeps_ite (State.discard_keeps (hm.sub rfl) _ h) (State.emit_keeps (hm.sub rfl) _ h)

theorem State.lateNoted_keeps {m : List Blk} {z s : State} (hm : Within [.live, .run, .hst, .sum, .outbox] m) (x : Reply) (h : Keeps m z s) : Keeps m z (s.lateNoted x) :=
  keeps_ite (State.raiseBit_keeps (hm.sub rfl) _ _ (State.bump_keeps (hm.sub rfl) _ _ h)) h

theorem Keeps.mono {m n : List Blk} {z s : State} (h : Keeps m z s) (hm : Within m n) : Keeps n z s :=
  ⟨h.queue, h.inv, fun k hk => h.same k (fun mem => hk (within_mem (decide_eq_true mem) hm))⟩

theorem State.offList_keeps {m : List Blk} {z s : State} (hm : Within [.sch, .que] m) (x : Reply) (h : Keeps m z s) : Keeps m z (s.offList x) :=
  State.mapQp_keeps (hm.sub rfl) _ _ (keeps_mk (h := h))

theorem State.ended_keeps (s : State) (x : Reply) : Keeps [.live, .run, .pgw, .hst, .sum, .outbox] (s.offList x) (s.ended x) := by
  have hm : Within [Blk.live, .run, .pgw, .hst, .sum, .outbox] [.live, .run, .pgw, .hst, .sum, .outbox] := Within.refl _
  have noted := State.lateNoted_keeps (hm.sub rfl) x (Keeps.refl (s.offList x))
  exact keeps_ite (State.endVerify_keeps (hm.sub rfl) _ _ _ noted) noted

theorem State.lateNoted_noReplies (s : State) (x : Reply) : NoReplies s (s.lateNoted x) := by
  unfold State.lateNoted
  split
  · exact NoReplies.trans .of_outbox (State.raiseBit_noReplies _ _ _)
  · exact .refl s

theorem State.endVerify_noReplies (s : State) (rid : Nat) (m : List Byte) (keep : Bool) : NoReplies s (s.endVerify rid m keep) :=
  .of_outbox ((State.endVerify_keeps (Within.refl _) rid m keep (Keeps.refl s)).same .outbox (by decide))

theorem State.ended_noReplies (s : State) (x : Reply) : NoReplies s (s.ended x) := by
  have noted : NoReplies s ((s.offList x).lateNoted x) := NoReplies.trans .of_outbox (State.lateNoted_noReplies _ _)
  unfold State.ended
  extract_lets u
  split
  · exact noted.trans (State.endVerify_noReplies _ _ _ _)
  · exact noted

/-- A reply handed over late leaves SEC_EVENT.iso_late set. -/
theorem State.ended_late {s : State} {x : Reply} (h : s.liveWf) (h0 : x.notBefore ≠ 0) (hl : x.notBefore < s.now) : (s.ended x).bit Reg.secEvent 8 = true := by
  have noted : ((s.offList x).lateNoted x).bit Reg.secEvent 8 = true := by
    rw [State.lateNoted, if_pos (decide_eq_true ⟨h0, hl⟩), State.bit_raiseBit (s := (s.offList x).bump _) h _ (by decide) (by decide)]
    simp
  unfold State.ended
  extract_lets u
  split
  · have live : (u.endVerify x.req.rid x.req.msg true).regs.live = u.regs.live :=
      (State.endVerify_keeps (Within.refl _) x.req.rid x.req.msg true (Keeps.refl u)).same .live (by decide)
    rw [State.bit, State.live, live]
    exact noted
  · exact noted

/-- The parts that what comes before a reply's end may change. -/
abbrev sendParts : List Blk := [.live, .run, .que, .lnk, .hst, .sum, .outbox]

/-- What becomes of the record that a reply owes (R340). -/
structure Recorded (s : State) (x : Reply) (t : State) : Prop where
  none : x.noRecord = true → t.hlt.evidence = s.hlt.evidence ∧ t.hlt.evReserved = s.hlt.evReserved
  reserved : x.noRecord = false → x.req.evEntry = true → ∃ e, t.hlt.evidence = List.append s.hlt.evidence [e] ∧ t.hlt.evReserved = s.hlt.evReserved - 1
  free : x.noRecord = false → x.req.evEntry = false → s.entryFree → ∃ e, t.hlt.evidence = List.append s.hlt.evidence [e] ∧ t.hlt.evReserved = s.hlt.evReserved
  missed : x.noRecord = false → x.req.evEntry = false → ¬s.entryFree →
    t.hlt.evidence = s.hlt.evidence ∧ t.hlt.evMissed = s.hlt.evMissed + 1 ∧ t.bit Reg.hltEvent 6 = true

theorem Recorded.of_same {s t u : State} {x : Reply} (h : Recorded s x t) (hh : u.hlt = t.hlt := by rfl) (hl : u.regs.live = t.regs.live := by rfl) : Recorded s x u := by
  have bit : u.bit Reg.hltEvent 6 = t.bit Reg.hltEvent 6 := by rw [State.bit, State.live, hl]; rfl
  exact ⟨hh ▸ h.none, hh ▸ h.reserved, hh ▸ h.free, fun hn he hf => by rw [hh, bit]; exact h.missed hn he hf⟩

theorem State.writeEvidence_recorded {s u : State} {x : Reply} (hw : u.liveWf) (hh : u.hlt = s.hlt) (discarded : Bool) : Recorded s x (u.writeEvidence x discarded) where
  none hn := by rw [State.writeEvidence_none discarded hn, hh]; exact ⟨rfl, rfl⟩
  reserved hn he := hh ▸ State.writeEvidence_reserved discarded hn he
  free hn he hf := by
    have written := State.writeEvidence_free (s := u) discarded hn he (by rw [State.entryFree, hh]; exact hf)
    rwa [hh] at written
  missed hn he hf := by
    rw [State.writeEvidence_missed discarded hn he (by rw [State.entryFree, hh]; exact hf), State.evidenceMissed_hlt, hh]
    refine ⟨rfl, rfl, ?_⟩
    rw [State.evidenceMissed, State.bit_raiseBit (s := { u with hlt := { u.hlt with evMissed := u.hlt.evMissed + 1 } }) hw _ (by decide) (by decide), decide_eq_true rfl, Bool.or_true]

section
variable {s u : State} {x : Reply} (bytes : List Byte) (discarded : Bool)

theorem State.finish_sch (hk : Keeps sendParts s u) : (u.finish x bytes discarded).sch = { s.sch with replies := s.sch.replies.filter (fun y => y.req.rid != x.req.rid) } := by
  have ended : Keeps [.live, .run, .pgw, .hlt, .que, .hst, .sum, .outbox] (u.offList x) (u.finish x bytes discarded) := by
    rw [State.finish_eq]
    have hm := Within.refl [Blk.live, .run, .pgw, .hlt, .que, .hst, .sum, .outbox]
    exact State.handedOut_keeps (hm.sub rfl) x bytes discarded (State.writeEvidence_keeps (hm.sub rfl) x discarded ((u.ended_keeps x).mono (hm.sub rfl)))
  have sch : u.sch = s.sch := hk.same .sch (by decide)
  have off : (u.offList x).sch = { u.sch with replies := u.sch.replies.filter (fun y => y.req.rid != x.req.rid) } := rfl
  rw [← sch, ← off]
  exact ended.same .sch (by decide)

theorem State.finish_que : (u.finish x bytes discarded).que = ((u.offList x).handedOut x bytes discarded).que := by
  have ended : ((u.ended x).writeEvidence x discarded).que = (u.offList x).que :=
    Eq.trans ((State.writeEvidence_keeps (Within.refl _) x discarded (Keeps.refl _)).same .que (by decide)) ((u.ended_keeps x).same .que (by decide))
  rw [State.finish_eq]
  unfold State.handedOut
  split
  · exact congrArg (fun q : QueSt => { q with discards := { q.discards with lateReply := q.discards.lateReply + 1 } }) ended
  · exact ended

theorem State.finish_qp (k : Nat) :
    (u.finish x bytes discarded).qp k = if k = x.req.key then (u.qp x.req.key).map (fun q => { q with inbound := q.inbound - 1 }) else u.qp k := by
  have off : ((u.offList x).handedOut x bytes discarded).qp k = (u.offList x).qp k := by cases discarded <;> rfl
  rw [State.qp_of_que (u.finish_que bytes discarded) k, off]
  exact State.qp_mapQp { u with sch := { u.sch with replies := u.sch.replies.filter (fun y => y.req.rid != x.req.rid) } } x.req.key k _

theorem State.finish_respBytes : (u.finish x bytes discarded).que.respBytes = u.que.respBytes := by
  rw [State.finish_que]
  cases discarded <;> rfl

theorem State.finish_discards : (u.finish x bytes discarded).que.discards =
    if discarded then { u.que.discards with lateReply := u.que.discards.lateReply + 1 } else u.que.discards := by
  rw [State.finish_que]
  cases discarded <;> rfl

/-- The record that a finished reply owes is written, or missed (R340). -/
theorem State.finish_recorded (hi : s.Inv) (hk : Keeps sendParts s u) : Recorded s x (u.finish x bytes discarded) := by
  have wf : (u.ended x).liveWf := ((u.ended_keeps x).inv ((State.offList_keeps (m := [.sch, .que]) (Within.refl _) x (Keeps.refl u)).inv (hk.inv hi))).liveWf
  have hlt : (u.ended x).hlt = s.hlt := Eq.trans ((u.ended_keeps x).same .hlt (by decide)) (hk.same .hlt (by decide))
  have out : Keeps [.que, .outbox] ((u.ended x).writeEvidence x discarded) (u.finish x bytes discarded) := by
    rw [State.finish_eq]
    exact State.handedOut_keeps (Within.refl _) x bytes discarded (Keeps.refl _)
  exact (State.writeEvidence_recorded wf hlt discarded).of_same (out.same .hlt (by decide)) (out.same .live (by decide))

/-- A reply finished late leaves SEC_EVENT.iso_late set (R366). -/
theorem State.finish_late (hi : s.Inv) (hk : Keeps sendParts s u) (h0 : x.notBefore ≠ 0) (hl : x.notBefore < s.now) :
    (u.finish x bytes discarded).bit Reg.secEvent 8 = true := by
  have now : u.now = s.now := hk.same .now (by decide)
  have wf : (u.ended x).liveWf := ((u.ended_keeps x).inv ((State.offList_keeps (m := [.sch, .que]) (Within.refl _) x (Keeps.refl u)).inv (hk.inv hi))).liveWf
  have out : (u.finish x bytes discarded).regs.live = ((u.ended x).writeEvidence x discarded).regs.live := by
    rw [State.finish_eq]
    exact (State.handedOut_keeps (Within.refl _) x bytes discarded (Keeps.refl _)).same .live (by decide)
  rw [State.bit, State.live, out]
  exact ((State.writeEvidence_sameRegs wf x discarded).bit (by decide) 8).trans (State.ended_late (hk.inv hi).liveWf h0 (now ▸ hl))

theorem State.finish_sent : .reply x.req.rid bytes ∈ (u.finish x bytes false).outbox := by
  rw [State.finish_eq]
  exact List.mem_append_right _ (List.mem_singleton.mpr rfl)

theorem State.finish_discarded : NoReplies u (u.finish x bytes true) := by
  rw [State.finish_eq]
  exact ((u.ended_noReplies x).trans (State.writeEvidence_noReplies _ x true)).trans .of_outbox

end

/-! ### REPLY_SEND (R76, R274, R287, R382) -/

/-- What REPLY_SEND leaves of a finished reply: off the list, noted where it is late, its record written, and the reply out or discarded. -/
def HandsOver (s : State) (rid : Nat) (x : Reply) (sent : Bool) (more : State → Prop) : Prop :=
  Completes (.replySend rid) s (partsOf (.replySend rid)) (fun t =>
    t.sch.replies = s.sch.replies.filter (fun y => y.req.rid != rid) ∧
    (x.notBefore ≠ 0 → x.notBefore < s.now → t.bit Reg.secEvent 8 = true) ∧
    (x.noRecord = true → t.hlt.evidence = s.hlt.evidence ∧ t.hlt.evReserved = s.hlt.evReserved) ∧
    (x.noRecord = false → x.req.evEntry = true → ∃ e, t.hlt.evidence = List.append s.hlt.evidence [e] ∧ t.hlt.evReserved = s.hlt.evReserved - 1) ∧
    (x.noRecord = false → x.req.evEntry = false → s.entryFree → ∃ e, t.hlt.evidence = List.append s.hlt.evidence [e] ∧ t.hlt.evReserved = s.hlt.evReserved) ∧
    (x.noRecord = false → x.req.evEntry = false → ¬s.entryFree →
      t.hlt.evidence = s.hlt.evidence ∧ t.hlt.evMissed = s.hlt.evMissed + 1 ∧ t.bit Reg.hltEvent 6 = true) ∧
    (sent = true → .reply rid (x.bytes s.genLow) ∈ t.outbox ∧ t.que.discards = s.que.discards) ∧
    (sent = false → (∀ b, .reply rid b ∈ t.outbox → .reply rid b ∈ s.outbox) ∧ t.que.discards.lateReply = s.que.discards.lateReply + 1) ∧ more t)

section
variable {s : State} {rid : Nat} {x : Reply} (hi : s.Inv) (hr : s.running = true) (hx : s.sch.replies.find? (fun y => y.req.rid == rid) = some x)
include hx

theorem reply_rid : x.req.rid = rid := by simpa using List.find?_some hx

include hi in
/-- A reply that goes out, after what sends it. -/
theorem handsOver_sent {u : State} {more : State → Prop} (he : exec (.replySend rid) s = .next (u.finish x (x.bytes s.genLow) false)) (hk : Keeps sendParts s u)
    (hd : u.que.discards = s.que.discards) (hm : more (u.finish x (x.bytes s.genLow) false)) : HandsOver s rid x true more := by
  have recorded := State.finish_recorded (x.bytes s.genLow) false (x := x) hi hk
  have sent := State.finish_sent (u := u) (x := x) (x.bytes s.genLow)
  have sch := State.finish_sch (x.bytes s.genLow) false (x := x) hk
  rw [reply_rid hx] at sch sent
  exact completes_of he (execReplySend_keeps (Within.refl _) rid (Keeps.refl s))
    ⟨congrArg SchSt.replies sch, State.finish_late _ _ hi hk, recorded.none, recorded.reserved, recorded.free, recorded.missed,
      fun _ => ⟨sent, (State.finish_discards _ false).trans hd⟩, nofun, hm⟩

include hi in
/-- A reply that is discarded. -/
theorem handsOver_discarded {more : State → Prop} (he : exec (.replySend rid) s = .next (s.finish x (x.bytes s.genLow) true))
    (hm : more (s.finish x (x.bytes s.genLow) true)) : HandsOver s rid x false more := by
  have hk : Keeps sendParts s s := Keeps.refl s
  have recorded := State.finish_recorded (x.bytes s.genLow) true (x := x) hi hk
  have sch := State.finish_sch (x.bytes s.genLow) true (x := x) hk
  rw [reply_rid hx] at sch
  exact completes_of he (execReplySend_keeps (Within.refl _) rid (Keeps.refl s))
    ⟨congrArg SchSt.replies sch, State.finish_late _ _ hi hk, recorded.none, recorded.reserved, recorded.free, recorded.missed,
      nofun, fun _ => ⟨State.finish_discarded _ rid, congrArg Discards.lateReply (State.finish_discards _ true)⟩, hm⟩

/-- Before its earliest instant a reply waits (R366). -/
theorem exec_replySend_early (h : s.now < x.notBefore) : exec (.replySend rid) s = .next s := by
  show execReplySend rid s = _
  unfold execReplySend
  simp [hx, h]

end

/-- The queue pair of a finished reply takes no more of the stream its request came in (R276). -/
abbrev Qp.deadFor (q : Qp) (x : Reply) : Prop := q.state = .error ∨ q.state = .fenced ∨ q.state = .init ∨ q.stream ≠ x.req.stream

/-- A finished reply goes as the next message of its queue pair (R274). -/
def State.replySent (s : State) (x : Reply) (bytes : List Byte) : State :=
  State.sendMessage { s with que := { s.que with respBytes := s.que.respBytes + bytes.length } } x.req.arr.ctx 3 1 x.req.urgent bytes 0

/-- A finished reply on its queue pair: discarded, waiting for room, or sent (R274, R276). -/
def State.replyOnQp (s : State) (x : Reply) (bytes : List Byte) : State :=
  match s.qp x.req.arr.ctx with
  | none => s.finish x bytes true
  | some q =>
    if q.deadFor x then s.finish x bytes true
    else if !s.roomFor x bytes.length ∨ q.maxOut ≤ q.sent.length then s
    else (s.replySent x bytes).finish x bytes false

theorem exec_replySend_onQp {s : State} {rid : Nat} {x : Reply} (hr : s.running = true) (hx : s.sch.replies.find? (fun y => y.req.rid == rid) = some x)
    (hb : x.notBefore ≤ s.now) (hv : ∀ i a c, x.req.arr.via ≠ .ring i a c) (hh : x.holder = false ∨ x.req.fwd = false) :
    exec (.replySend rid) s = .next (s.replyOnQp x (x.bytes s.genLow)) := by
  have due : ¬(s.now < x.notBefore ∨ !s.running) := by simp [hr, hb]
  have mine : ¬(x.holder ∧ x.req.fwd) := by rcases hh with h | h <;> simp [h]
  show execReplySend rid s = _
  unfold execReplySend State.replyOnQp
  simp only [hx]
  rw [if_neg due, if_neg mine]
  cases s.qp x.req.arr.ctx with
  | none => rfl
  | some q =>
    simp only
    split
    · rfl
    · split <;> rfl

section
variable {s : State} {x : Reply} {bytes : List Byte}

theorem State.replyOnQp_gone (hq : s.qp x.req.arr.ctx = none) : s.replyOnQp x bytes = s.finish x bytes true := by
  unfold State.replyOnQp
  rw [hq]

section
variable {q : Qp} (hq : s.qp x.req.arr.ctx = some q)
include hq

theorem State.replyOnQp_dead (h : q.deadFor x) : s.replyOnQp x bytes = s.finish x bytes true := by
  unfold State.replyOnQp
  rw [hq]
  exact if_pos h

theorem State.replyOnQp_full (live : ¬q.deadFor x) (h : s.roomFor x bytes.length = false ∨ q.maxOut ≤ q.sent.length) : s.replyOnQp x bytes = s := by
  unfold State.replyOnQp
  rw [hq]
  exact (if_neg live).trans (if_pos (h.imp_left (fun e => by rw [e]; rfl)))

theorem State.replyOnQp_sent (live : ¬q.deadFor x) (room : s.roomFor x bytes.length = true) (few : q.sent.length < q.maxOut) :
    s.replyOnQp x bytes = (s.replySent x bytes).finish x bytes false := by
  unfold State.replyOnQp
  rw [hq]
  exact (if_neg live).trans (if_neg (by simp [room, few]))

/-- The context that sends a reply holds it as its last unacknowledged message. -/
theorem State.replySent_qp : ∃ p : Qp, (s.replySent x bytes).qp x.req.arr.ctx = some p ∧ p.inbound = q.inbound ∧
    p.sent = q.sent ++ [⟨q.sndNext, 1, 3, bytes, 0, x.req.urgent⟩] ∧ p.sndNext = (q.sndNext + 1) % 2 ^ 24 := by
  let p : Qp := ({ q with sndNext := (q.sndNext + 1) % pow2 24, sent := q.sent ++ [(⟨q.sndNext, 1, 3, bytes, 0, x.req.urgent⟩ : OutMsgQ)] }).arm s.now
  have sent : (s.replySent x bytes).que = (State.putQp { s with que := { s.que with respBytes := s.que.respBytes + bytes.length } } x.req.arr.ctx p).que := by
    unfold State.replySent State.sendMessage
    rw [show State.qp { s with que := { s.que with respBytes := s.que.respBytes + bytes.length } } x.req.arr.ctx = some q from hq]
    exact (State.sendTransport_keeps (Within.refl _) _ _ _ _ _ _ _ _ _ _ (Keeps.refl _)).same .que (by decide)
  refine ⟨p, (State.qp_of_que sent _).trans (State.qp_putQp_same _ _ _), ?_⟩
  simp only [p, Qp.arm]
  split <;> exact ⟨rfl, rfl, rfl⟩

end

theorem State.replySent_keeps : Keeps sendParts s (s.replySent x bytes) := by
  have hm := Within.refl sendParts
  exact State.sendMessage_keeps (hm.sub rfl) _ _ _ _ _ _ (keeps_mk (h := Keeps.refl s))

theorem State.sendMessage_store (s : State) (k cls tkind : Nat) (urgent : Bool) (msg : List Byte) (op : Nat) :
    (s.sendMessage k cls tkind urgent msg op).que.respBytes = s.que.respBytes ∧ (s.sendMessage k cls tkind urgent msg op).que.discards = s.que.discards := by
  unfold State.sendMessage
  split
  · exact ⟨rfl, rfl⟩
  · rename_i q hq
    extract_lets psn p
    have que : ((s.putQp k p).sendTransport cls q.peer q.peerQpn tkind psn (2 * b2n urgent) q.part 0 k msg).que = (s.putQp k p).que :=
      (State.sendTransport_keeps (Within.refl _) _ _ _ _ _ _ _ _ _ _ (Keeps.refl _)).same .que (by decide)
    rw [que]
    exact ⟨rfl, rfl⟩

end

/-! ### Replies to a host ring (R287, R382) -/

/-- The reply's bytes in its tenant's buffer, and its entry in the completion ring (R382). -/
def State.ringWrites (s : State) (x : Reply) (sub addr cap : Nat) (q c : Qp) (bytes : List Byte) : State :=
  let cut := decide (cap < bytes.length)
  let out := if cut then bytes.take 32 else bytes
  let s := if s.inWindow q.rfn 0 addr out.length then s.hostWrite q.rfn addr out else s
  let s := if cut then s.bump (Reg.hstStat + 8) else s
  s.hostWrite c.rfn (c.ringAddr c.rtail 32) (completionEntry x sub bytes.length (decide (c.rtail / c.ringSize % 2 = 0)) cut)

/-- A finished reply given to its completion ring: the ring's tail goes on and its host is told (R382, R385). -/
def State.ringSent (s : State) (x : Reply) (sub addr cap ck : Nat) (q c : Qp) (bytes : List Byte) : State :=
  ((s.ringWrites x sub addr cap q c bytes).mapQp ck (fun c => { c with rtail := (c.rtail + 1) % pow2 32 })).ringMsg ck

theorem State.ringWrites_keeps (s : State) (x : Reply) (sub addr cap : Nat) (q c : Qp) (bytes : List Byte) :
    Keeps [.run, .hst, .outbox] s (s.ringWrites x sub addr cap q c bytes) := by
  have hm := Within.refl [Blk.run, .hst, .outbox]
  unfold State.ringWrites
  exact State.hostWrite_keeps (hm.sub rfl) _ _ _
    (keeps_ite (State.bump_keeps (hm.sub rfl) _ _ (keeps_ite (State.hostWrite_keeps (hm.sub rfl) _ _ _ (Keeps.refl s)) (Keeps.refl s)))
      (keeps_ite (State.hostWrite_keeps (hm.sub rfl) _ _ _ (Keeps.refl s)) (Keeps.refl s)))

theorem State.ringSent_keeps (s : State) (x : Reply) (sub addr cap ck : Nat) (q c : Qp) (bytes : List Byte) :
    Keeps sendParts s (s.ringSent x sub addr cap ck q c bytes) := by
  have hm := Within.refl sendParts
  exact State.ringMsg_keeps (hm.sub rfl) _ (State.mapQp_keeps (hm.sub rfl) _ _ ((s.ringWrites_keeps x sub addr cap q c bytes).mono (hm.sub rfl)))

theorem State.hostMsg_que (s : State) (f v : Nat) : (s.hostMsg f v).que = s.que := (State.hostMsg_keeps (Within.refl _) f v (Keeps.refl s)).same .que (by decide)

theorem State.ringMsg_discards (s : State) (k : Nat) : (s.ringMsg k).que.discards = s.que.discards := by
  unfold State.ringMsg
  split
  · rfl
  · rename_i q hq
    extract_lets due
    split
    · rw [State.hostMsg_que]
      rfl
    · rfl

/-- The host's message leaves the ring's own place in it. -/
theorem State.ringMsg_rtail (s : State) (k : Nat) : ((s.ringMsg k).qp k).map (·.rtail) = (s.qp k).map (·.rtail) := by
  unfold State.ringMsg
  split
  · rfl
  · rename_i q hq
    extract_lets due
    rw [hq]
    split
    · rw [State.qp_of_que (State.hostMsg_que ..), State.qp_putQp_same]
      rfl
    · rw [State.qp_putQp_same]
      rfl

section
variable {s : State} {rid : Nat} {x : Reply} {sub addr cap : Nat} {q c : Qp} {bytes : List Byte}

theorem State.ringSent_discards (ck : Nat) : (s.ringSent x sub addr cap ck q c bytes).que.discards = s.que.discards := by
  have que : (s.ringWrites x sub addr cap q c bytes).que = s.que := (s.ringWrites_keeps x sub addr cap q c bytes).same .que (by decide)
  rw [State.ringSent, State.ringMsg_discards, State.mapQp, que]

/-- The completion ring's tail goes on by one, also past the end of the reply. -/
theorem State.ringSent_rtail {ck : Nat} (hc : s.qp ck = some c) :
    (((s.ringSent x sub addr cap ck q c bytes).finish x bytes false).qp ck).map (·.rtail) = some ((c.rtail + 1) % 2 ^ 32) := by
  have sent : ((s.ringSent x sub addr cap ck q c bytes).qp ck).map (·.rtail) = some ((c.rtail + 1) % 2 ^ 32) := by
    have qp : (s.ringWrites x sub addr cap q c bytes).qp ck = some c := (State.qp_of_que ((s.ringWrites_keeps x sub addr cap q c bytes).same .que (by decide)) ck).trans hc
    rw [State.ringSent, State.ringMsg_rtail, State.qp_mapQp, if_pos rfl, qp]
    rfl
  rw [State.finish_qp]
  by_cases key : ck = x.req.key
  · rw [if_pos key, ← key, Option.map_map]
    exact sent
  · rw [if_neg key]
    exact sent

section
variable (hr : s.running = true) (hx : s.sch.replies.find? (fun y => y.req.rid == rid) = some x) (hb : x.notBefore ≤ s.now)
  (hv : x.req.arr.via = .ring sub addr cap) (hq : s.qp x.req.key = some q) (hc : s.qp (ringBase + q.rcring) = some c) (hring : c.ring = true) (hkind : c.rkind = 1)
include hr hx hb hv hq hc

theorem exec_replySend_ringFull (full : c.ringSize ≤ c.ringUsed) : exec (.replySend rid) s = .next s := by
  show execReplySend rid s = _
  unfold execReplySend
  simp [hx, hr, Nat.not_lt.mpr hb, hv, hq, hc, full]

include hring hkind

theorem exec_replySend_ring (room : c.ringUsed < c.ringSize) :
    exec (.replySend rid) s = .next ((s.ringSent x sub addr cap (ringBase + q.rcring) q c (x.bytes s.genLow)).finish x (x.bytes s.genLow) false) := by
  have due : ¬(s.now < x.notBefore ∨ !s.running) := by simp [hr, hb]
  have ready : ¬(!c.ring ∨ c.rkind ≠ 1 ∨ c.ringSize ≤ c.ringUsed) := by simp [hring, hkind, room]
  show execReplySend rid s = _
  unfold execReplySend
  simp only [hx, hv, hq, hc]
  rw [if_neg due, if_neg ready]
  rfl

end

end

/-! ### The obligation -/

/-- Settles O51: `State.finish` off the list with its record (`finish_recorded`), after the send over the queue pair or to the completion ring, or at once where it is discarded. -/
theorem finishedRepliesAreHandedOver : Obligations.FinishedRepliesAreHandedOver := by
  unfold Obligations.FinishedRepliesAreHandedOver
  intro s rid x hi hr hx bytes free ends
  refine ⟨exec_replySend_early hx, fun due => ⟨fun noRing noHolder => ⟨fun q hq key => ?_, fun gone => ?_⟩, fun sub addr cap q c hv hq hc ring kind => ⟨fun room => ?_, ?_⟩⟩⟩
  · have run := exec_replySend_onQp hr hx due noRing noHolder
    have alive (st : q.state = .ready ∨ q.state = .drain) (same : q.stream = x.req.stream) : ¬q.deadFor x := by
      rcases st with st | st <;> simp [Qp.deadFor, st, same]
    refine ⟨fun st same room few => ?_, fun st same full => ?_, fun dead => ?_⟩
    · rw [State.replyOnQp_sent hq (alive st same) room few] at run
      refine handsOver_sent hi hx run State.replySent_keeps (State.sendMessage_store ..).2 ⟨?_, ?_⟩
      · obtain ⟨p, hp, inbound, sent, next⟩ := State.replySent_qp (bytes := bytes) hq
        refine ⟨{ p with inbound := p.inbound - 1 }, ?_, congrArg (· - 1) inbound, sent, next⟩
        rw [State.finish_qp, if_pos key.symm, key, hp]
        rfl
      · rw [State.finish_respBytes]
        exact (State.sendMessage_store ..).1
    · rw [run, State.replyOnQp_full hq (alive st same) full]
    · rw [State.replyOnQp_dead hq dead] at run
      refine handsOver_discarded hi hx run ⟨{ q with inbound := q.inbound - 1 }, ?_, rfl, rfl⟩
      rw [State.finish_qp, if_pos key.symm, key, hq]
      rfl
  · have run := exec_replySend_onQp hr hx due noRing noHolder
    rw [State.replyOnQp_gone gone] at run
    exact handsOver_discarded hi hx run trivial
  · exact handsOver_sent hi hx (exec_replySend_ring hr hx due hv hq hc ring kind room) (State.ringSent_keeps ..) (State.ringSent_discards _) (State.ringSent_rtail hc)
  · exact exec_replySend_ringFull hr hx due hv hq hc

end Sys2Proof.Machine
end

section
/-!
Dispatched requests: what changes one, what ends its stalls, and what completes it (R76, R78, R192, R193).
-/

namespace Sys2Proof.Machine

open Sys2Proof

/-! ### A dispatched request after a change -/

theorem State.run_rid {s : State} {rid : Nat} {r : Run} (hr : s.run rid = some r) : r.req.rid = rid := by simpa using List.find?_some hr

theorem State.run_of_runs {s t : State} (h : t.sch.runs = s.sch.runs) (rid : Nat) : t.run rid = s.run rid := congrArg (List.find? _) h

/-- The first element of a kind, after a change of all of that kind that leaves the change of it so. -/
theorem find?_map_where {α : Type} {p : α → Bool} {f : α → α} {l : List α} {a : α} (h : l.find? p = some a) (hf : p (f a) = true) :
    (l.map (fun x => if p x then f x else x)).find? p = some (f a) := by
  induction l with
  | nil => exact nomatch h
  | cons x xs ih =>
    by_cases hx : p x
    · obtain rfl : x = a := by simpa [List.find?_cons, hx] using h
      simp [hx, hf]
    · simpa [List.find?_cons, hx] using ih (by simpa [List.find?_cons, hx] using h)

theorem State.run_mapRun {s : State} {rid : Nat} {r : Run} (hr : s.run rid = some r) {f : Run → Run} (hf : (f r).req = r.req) : (s.mapRun rid f).run rid = some (f r) := by
  have found := find?_map_where hr (f := f) (by simp [hf, State.run_rid hr])
  simp only [beq_iff_eq] at found
  exact found

theorem State.run_mapRun_other {s : State} {rid rid' : Nat} (h : rid' ≠ rid) {f : Run → Run} (hf : ∀ r, (f r).req = r.req) : (s.mapRun rid' f).run rid = s.run rid := by
  unfold State.run
  show List.find? _ (s.sch.runs.map _) = _
  induction s.sch.runs with
  | nil => rfl
  | cons x xs ih =>
    by_cases hx : x.req.rid = rid'
    · have skip : x.req.rid ≠ rid := hx ▸ h
      simpa [List.find?_cons, hx, hf, h, skip] using ih
    · by_cases hr : x.req.rid = rid
      · simp [hr, Ne.symm h]
      · simpa [List.find?_cons, hx, hr] using ih

/-- A request stands so in the second state, with the replies and programs of the first. -/
structure StandsAs (s : State) (rid : Nat) (r : Run) (t : State) : Prop where
  run : t.run rid = some r
  replies : t.sch.replies = s.sch.replies
  prog : t.prog = s.prog

theorem StandsAs.refl {s : State} {rid : Nat} {r : Run} (h : s.run rid = some r) : StandsAs s rid r s := ⟨h, rfl, rfl⟩

theorem StandsAs.trans {s t u : State} {rid : Nat} {r p : Run} (h : StandsAs s rid r t) (g : StandsAs t rid p u) : StandsAs s rid p u :=
  ⟨g.run, g.replies.trans h.replies, g.prog.trans h.prog⟩

theorem StandsAs.mapRun {s : State} {rid : Nat} {r : Run} (h : s.run rid = some r) {f : Run → Run} (hf : (f r).req = r.req) : StandsAs s rid (f r) (s.mapRun rid f) :=
  ⟨State.run_mapRun h hf, rfl, rfl⟩

theorem StandsAs.progRuns {s t : State} {rid : Nat} {r : Run} (h : StandsAs s rid r t) : t.progRuns = s.progRuns := by rw [State.progRuns, h.prog]; rfl

theorem StandsAs.groupOfRun {s t : State} {rid : Nat} {r : Run} (h : StandsAs s rid r t) (k : Nat) : t.groupOfRun k = s.groupOfRun k := by
  rw [State.groupOfRun, h.progRuns]; rfl

/-! ### Stalls (R193) -/

/-- The end of a stall leaves the request its other stalls; where it has none of the cause, nothing changes. -/
theorem State.unstall_standsAs {s : State} {rid : Nat} {r : Run} (h : s.run rid = some r) (c : Stall) :
    StandsAs s rid { r with stalls := r.stalls.filter (fun y => y.1 != c) } (s.unstall rid c) := by
  unfold State.unstall
  rw [h]
  simp only
  split
  · rename_i none
    have same : r.stalls.filter (fun y => y.1 != c) = r.stalls := List.filter_eq_self.mpr fun y hy => by
      simpa using List.find?_eq_none.mp none y hy
    rw [same]
    exact .refl h
  · rename_i x hx
    have mapped := StandsAs.mapRun h (f := fun r => { r with stalls := r.stalls.filter (fun y => y.1 != c) }) rfl
    exact ⟨mapped.run, mapped.replies, mapped.prog⟩

theorem State.unstallAll_standsAs {s : State} {rid : Nat} {r : Run} (h : s.run rid = some r) (l : List (Stall × Nat)) :
    StandsAs s rid { r with stalls := r.stalls.filter (fun y => l.all (fun x => y.1 != x.1)) } (l.foldl (fun s x => s.unstall rid x.1) s) := by
  induction l generalizing s r with
  | nil =>
    have same : r.stalls.filter (fun y => ([] : List (Stall × Nat)).all (fun x => y.1 != x.1)) = r.stalls := List.filter_eq_self.mpr fun _ _ => rfl
    rw [same]
    exact .refl h
  | cons x l ih =>
    have first := State.unstall_standsAs h x.1
    have rest := first.trans (ih first.run)
    simpa only [List.filter_filter, List.all_cons, List.foldl_cons, Bool.and_comm] using rest

theorem filter_differ_nil (l : List (Stall × Nat)) : l.filter (fun y => l.all (fun x => y.1 != x.1)) = [] := by
  refine List.filter_eq_nil_iff.mpr fun y hy all => ?_
  simpa using List.all_eq_true.mp all y hy

/-- With the end of every stall of its own a request has none. -/
theorem State.unstalled {s : State} {rid : Nat} {r : Run} (h : s.run rid = some r) :
    StandsAs s rid { r with stalls := [] } (r.stalls.foldl (fun s x => s.unstall rid x.1) s) := by
  have ended := State.unstallAll_standsAs h r.stalls
  rwa [filter_differ_nil] at ended

/-! ### A request that completes (R76, R78) -/

theorem State.dropRun_sch (s : State) (rid : Nat) : (s.dropRun rid).sch = { s.sch with runs := s.sch.runs.filter (fun r => r.req.rid != rid) } := by
  have cleared (v : State) : v.sweepGhosts.dropStale.sch = v.sch :=
    Eq.trans ((State.dropStale_keeps (Within.refl _) (Keeps.refl _)).same .sch (by decide)) ((State.sweepGhosts_keeps (Within.refl _) (Keeps.refl v)).same .sch (by decide))
  have ended : (s.endProgram rid).sch = s.sch := (State.endProgram_keeps (Within.refl _) rid (Keeps.refl s)).same .sch (by decide)
  rw [State.dropRun, cleared, ended]

theorem State.run_dropRun (s : State) (rid : Nat) : (s.dropRun rid).run rid = none := by
  rw [State.run, State.dropRun_sch]
  refine List.find?_eq_none.mpr fun r hr => ?_
  simpa using (List.mem_filter.mp hr).2

/-- A finished reply joins those waiting: the one given, but for the generation it carries. -/
theorem State.reply_sch (s : State) (x : Reply) : ∃ g, (s.reply x).sch = { s.sch with replies := List.append s.sch.replies [{ x with gen := g }] } := by
  unfold State.reply
  split <;> exact ⟨_, rfl⟩

/-- A request has completed: it is no longer dispatched, and one finished reply of it joins those waiting. -/
structure Completed (s : State) (rid : Nat) (p : Reply → Prop) (t : State) : Prop where
  run : t.run rid = none
  reply : ∃ x, t.sch.replies = List.append s.sch.replies [x] ∧ p x

/-- Taken off the dispatched ones and answered, a request has completed. -/
theorem Completed.of_reply {s u : State} {rid : Nat} {p : Reply → Prop} {x : Reply} (hu : u.sch = (s.dropRun rid).sch) (hp : ∀ g, p { x with gen := g }) : Completed s rid p (u.reply x) where
  run := by
    obtain ⟨_, hg⟩ := u.reply_sch x
    have runs : (u.reply x).sch.runs = (s.dropRun rid).sch.runs := by rw [hg, hu]
    rw [State.run_of_runs runs, State.run_dropRun]
  reply := by
    obtain ⟨g, hg⟩ := u.reply_sch x
    rw [hu, State.dropRun_sch] at hg
    exact ⟨_, congrArg SchSt.replies hg, hp g⟩

/-- The reply of a request as it stands. -/
abbrev Run.Answer (r : Run) (x : Reply) : Prop := x.req = r.req ∧ x.status = r.status ∧ x.length = r.length

theorem State.completeRun_completed (s : State) (r : Run) : Completed s r.req.rid r.Answer (s.completeRun r) := by
  unfold State.completeRun
  exact .of_reply ((State.countClamps_keeps (Within.refl _) r (Keeps.refl _)).same .sch (by decide)) (fun _ => ⟨rfl, rfl, rfl⟩)

section
variable {s : State} {rid : Nat} {r : Run} (h : s.run rid = some r)
include h

theorem State.tryComplete_waits (w : r.ready = false ∨ s.progRuns.any (fun c => c.2.rid == rid) = true) : s.tryComplete rid = s := by
  unfold State.tryComplete
  rw [h]
  rcases w with w | w <;> simp [w]

theorem State.tryComplete_completed (ready : r.ready = true) (idle : s.progRuns.any (fun c => c.2.rid == rid) = false) : Completed s rid r.Answer (s.tryComplete rid) := by
  have run : s.tryComplete rid = s.completeRun r := by
    unfold State.tryComplete
    rw [h]
    simp [ready, idle]
  rw [run, ← State.run_rid h]
  exact s.completeRun_completed r

end

/-- A request goes on as it stands, or completes with its reply where nothing is left to wait for. -/
def GoesOn (s : State) (rid : Nat) (i : Instr) (base : List Reply) (r : Run) : Prop :=
  (r.ready = false ∨ s.progRuns.any (fun c => c.2.rid == rid) = true → Completes i s (partsOf i) (fun t => t.run rid = some r ∧ t.sch.replies = base)) ∧
  (r.ready = true → s.progRuns.any (fun c => c.2.rid == rid) = false → Completes i s (partsOf i) (fun t =>
    t.run rid = none ∧ ∃ x, t.sch.replies = List.append base [x] ∧ x.req = r.req ∧ x.status = r.status ∧ x.length = r.length))

theorem goesOn_of {s u v : State} {rid : Nat} {i : Instr} {r : Run} (he : exec i s = .next (v.tryComplete rid)) (hk : KeepsN (partsOf i) s (exec i s))
    (hv : StandsAs u rid r v) (hp : u.progRuns = s.progRuns) : GoesOn s rid i u.sch.replies r := by
  have prog : v.progRuns = s.progRuns := hv.progRuns.trans hp
  refine ⟨fun waits => completes_of he hk ?_, fun ready idle => completes_of he hk ?_⟩
  · rw [State.tryComplete_waits hv.run (prog ▸ waits)]
    exact ⟨hv.run, hv.replies⟩
  · have done := State.tryComplete_completed hv.run ready (prog ▸ idle)
    exact ⟨done.run, hv.replies ▸ done.reply⟩

/-! ### Reservations (R79) -/

section
variable {s : State} {rid : Nat} {r : Run} (h : s.run rid = some r) {l i dl : Nat} (hr : r.reserve = some (l, i, dl))
include h hr

theorem exec_reservationDone_early (out : dl ≤ s.now ∨ s.retryReserve r l i = none) : exec (.reservationDone rid) s = .next s := by
  show execReservationDone rid s = _
  unfold execReservationDone
  simp only [h, hr]
  split
  · rfl
  · rename_i late
    rw [out.resolve_left late]

theorem reservationDone_goesOn {u : State} {p : Run} (due : s.now < dl) (hu : s.retryReserve r l i = some u) (hp : u.run rid = some p) (prog : u.progRuns = s.progRuns) :
    GoesOn s rid (.reservationDone rid) u.sch.replies { p with reserve := none, stalls := p.stalls.filter (fun y => y.1 != .reserve) } := by
  have run : exec (.reservationDone rid) s = .next (((u.mapRun rid (fun r => { r with reserve := none })).unstall rid .reserve).tryComplete rid) := by
    show execReservationDone rid s = _
    unfold execReservationDone
    simp only [h, hr, if_neg (Nat.not_le.mpr due), hu]
  have freed := StandsAs.mapRun hp (f := fun r => { r with reserve := none }) rfl
  exact goesOn_of run (execReservationDone_keeps (Within.refl _) rid (Keeps.refl s)) (freed.trans (State.unstall_standsAs freed.run .reserve)) prog

theorem exec_reservationTimeout : exec (.reservationTimeout rid) s = .next (((((s.advanceTo dl).mapRun rid
    (fun r => { r with reserve := none, status := Status.capacity, detail := r.length })).unstall rid .reserve).tryComplete rid)) := by
  show execReservationTimeout rid s = _
  unfold execReservationTimeout
  simp only [h, hr]

theorem reservationTimeout_goesOn : GoesOn s rid (.reservationTimeout rid) s.sch.replies
    { r with reserve := none, stalls := r.stalls.filter (fun y => y.1 != .reserve), status := Status.capacity, detail := r.length } := by
  have moved : StandsAs s rid r (s.advanceTo dl) := ⟨h, rfl, rfl⟩
  have ended := StandsAs.mapRun moved.run (f := fun r => { r with reserve := none, status := Status.capacity, detail := r.length }) rfl
  exact goesOn_of (exec_reservationTimeout h hr) (execReservationTimeout_keeps (Within.refl _) rid (Keeps.refl s))
    (moved.trans (ended.trans (State.unstall_standsAs ended.run .reserve))) rfl

theorem reservationTimeout_now : Completes (.reservationTimeout rid) s (partsOf (.reservationTimeout rid)) (fun t => t.now = max s.now dl) := by
  refine completes_of (exec_reservationTimeout h hr) (execReservationTimeout_keeps (Within.refl _) rid (Keeps.refl s)) ?_
  have hm := Within.refl [Blk.live, .run, .pgw, .sch, .mem, .prog, .mat]
  exact (State.tryComplete_keeps (hm.sub rfl) rid (State.unstall_keeps (hm.sub rfl) rid .reserve (State.mapRun_keeps (hm.sub rfl) rid _ (Keeps.refl (s.advanceTo dl))))).same .now (by decide)

end

/-! ### Table reads (R138, R193) -/

theorem State.bit_of_fld {s : State} {a i : Nat} (h : s.fld a i i = 1) : s.bit a i = true := by
  rw [State.fld, bitsOf, Nat.shiftRight_eq_div_pow, Nat.add_sub_cancel_left] at h
  rw [State.bit, bitOf, Nat.testBit_eq_decide_div_mod_eq]
  exact decide_eq_true h

theorem SameRegsBut.of_live {as : List Nat} {s t : State} (h : t.regs.live = s.regs.live) : SameRegsBut as s t := fun a _ => by rw [State.live, h]; rfl

theorem State.liveWf_of_live {s t : State} (h : s.liveWf) (e : t.regs.live = s.regs.live) : t.liveWf := by rw [State.liveWf, e]; exact h

/-- The registers that show poison: the only ones that the end of a request may change. -/
abbrev poisonRegs : List Nat := [Reg.memStatus, Reg.memRepair, Reg.matStatus]

theorem State.refreshPoison_liveWf {s : State} (h : s.liveWf) : s.refreshPoison.liveWf := (State.putStatus_liveWf h _ _).setLive _ _

theorem State.refreshPoison_sameRegs {s : State} (h : s.liveWf) : SameRegsBut poisonRegs s s.refreshPoison := by
  have status := State.setStatus_sameRegs h Reg.memStatus 1 1 (b2n (s.mem.poison.length != 0))
  refine SameRegsBut.trans (status.mono (by decide)) fun a ha => ?_
  refine (State.live_setLive (State.putStatus_liveWf h _ _) _ _ a).trans (if_neg ?_)
  rintro rfl
  exact ha (by decide)

theorem State.endRefills_sameRegs {s : State} (h : s.liveWf) : SameRegsBut [Reg.matStatus] s s.endRefills := by
  unfold State.endRefills
  extract_lets left
  have status := State.setStatus_sameRegs (s := { s with mat := { s.mat with refill := left } }) h Reg.matStatus 2 2 (b2n !left.isEmpty)
  exact status

theorem State.dropStale_sameRegs {s : State} (h : s.liveWf) : SameRegsBut poisonRegs s s.dropStale := by
  unfold State.dropStale
  extract_lets kept older image
  split
  · exact .refl _ s
  · generalize hu : ({ s with
      prog := { s.prog with older := s.prog.older.filter older }
      mat := { s.mat with kept := s.mat.kept.filter image }
      pgw := { s.pgw with places := s.pgw.places.filter kept }
      mem := { s.mem with poison := s.mem.poison.filter (fun p => s.versionUsed p.1), badCopies := s.mem.badCopies.filter (fun c => s.versionUsed c.1) } } : State) = u
    have live : u.regs.live = s.regs.live := by rw [← hu]
    have wf : u.liveWf := State.liveWf_of_live h live
    have poison := (SameRegsBut.of_live live).trans (State.refreshPoison_sameRegs wf)
    exact poison.trans ((State.endRefills_sameRegs (State.refreshPoison_liveWf wf)).mono (by decide))

theorem State.dropRun_sameRegs {s : State} (h : s.liveWf) (rid : Nat) : SameRegsBut poisonRegs s (s.dropRun rid) := by
  have ends (v : State) (hv : v.regs.live = s.regs.live) : SameRegsBut poisonRegs s v.sweepGhosts.dropStale := by
    have live : v.sweepGhosts.regs.live = s.regs.live := Eq.trans ((State.sweepGhosts_keeps (Within.refl _) (Keeps.refl v)).same .live (by decide)) hv
    exact (SameRegsBut.of_live live).trans (State.dropStale_sameRegs (State.liveWf_of_live h live))
  exact ends _ ((State.endProgram_keeps (Within.refl _) rid (Keeps.refl s)).same .live (by decide))

/-- A request's stalls charged, and what units still read for it kept. -/
def State.stallsCharged (s : State) (r : Run) : State := (r.stalls.foldl (fun s x => s.stallTicks (Msg.tenant r.req.msg) x.1 x.2) s).keepReads r

/-- A request that fails, up to its reply: off the dispatched ones, with its clamps counted and a VERIFY's set discarded. -/
def State.failed (s : State) (rid : Nat) (r : Run) : State :=
  let s := ((s.stallsCharged r).dropRun rid).countClamps r
  if r.req.op = .verify then s.endVerify rid r.req.msg false else s

section
variable {s : State} (rid : Nat) (r : Run)

theorem State.stallsCharged_keeps : Keeps [.run, .vsp] s (s.stallsCharged r) := by
  have hm := Within.refl [Blk.run, .vsp]
  exact State.keepReads_keeps (hm.sub rfl) r (keeps_foldl (fun _ _ k => State.stallTicks_keeps (hm.sub rfl) _ _ _ k) (Keeps.refl s))

theorem State.failed_keeps : Keeps [.run, .pgw] ((s.stallsCharged r).dropRun rid) (s.failed rid r) := by
  have hm := Within.refl [Blk.run, .pgw]
  have counted := State.countClamps_keeps (hm.sub rfl) r (Keeps.refl ((s.stallsCharged r).dropRun rid))
  exact keeps_ite (State.endVerify_keeps (hm.sub rfl) _ _ _ counted) counted

theorem State.failed_sch : (s.failed rid r).sch = (s.dropRun rid).sch := by
  have charged : (s.stallsCharged r).sch = s.sch := (State.stallsCharged_keeps r).same .sch (by decide)
  rw [s.dropRun_sch, ← charged, ← State.dropRun_sch]
  exact (State.failed_keeps rid r).same .sch (by decide)

theorem State.failed_sameRegs (h : s.liveWf) : SameRegsBut poisonRegs s (s.failed rid r) := by
  have charged : (s.stallsCharged r).regs.live = s.regs.live := (State.stallsCharged_keeps r).same .live (by decide)
  have dropped := (SameRegsBut.of_live charged).trans (State.dropRun_sameRegs (State.liveWf_of_live h charged) rid)
  exact dropped.trans (.of_live ((State.failed_keeps rid r).same .live (by decide)))

end

/-- A request that fails completes with the status it failed with, and no records. -/
theorem State.failRun_completed {s : State} {rid : Nat} {r : Run} (h : s.run rid = some r) (status detail : Nat) :
    Completed s rid (fun x => x.req = r.req ∧ x.status = status ∧ x.detail = detail ∧ x.body = []) (s.failRun rid status detail) := by
  unfold State.failRun
  rw [h]
  exact .of_reply (State.failed_sch rid r) (fun _ => ⟨rfl, rfl, rfl, rfl⟩)

theorem State.reply_live (s : State) (x : Reply) : (s.reply x).regs.live = s.regs.live := (State.reply_keeps (Within.refl _) x (Keeps.refl s)).same .live (by decide)

theorem State.failRun_sameRegs {s : State} (h : s.liveWf) (rid status detail : Nat) : SameRegsBut poisonRegs s (s.failRun rid status detail) := by
  unfold State.failRun
  split
  · exact .refl _ s
  · rename_i r _
    exact (State.failed_sameRegs rid r h).trans (.of_live (State.reply_live ..))

section
variable {s : State} {rid : Nat} {r : Run} (h : s.run rid = some r)
include h

theorem exec_tableReadDone_ok : exec (.tableReadDone rid .ok) s = .next s := by
  show execTableReadDone rid .ok s = _
  unfold execTableReadDone
  rw [h]

theorem exec_tableReadDone_mirror :
    exec (.tableReadDone rid .mirror) s = .next (((s.raiseBit Reg.pgwEvent 0).setStatus Reg.pgwStatus 1 1 1).stall rid .tableRepair) := by
  show execTableReadDone rid .mirror s = _
  unfold execTableReadDone
  rw [h]

theorem exec_tableReadDone_spared {first last : Nat} (hit : r.spans.filter (fun a => decide (first ≤ a ∧ a ≤ last)) = []) :
    exec (.tableReadDone rid (.lost first last)) s = .next (s.raiseBit Reg.pgwEvent 1) := by
  show execTableReadDone rid (.lost first last) s = _
  unfold execTableReadDone
  simp only [h, hit]

theorem exec_tableReadDone_lost {first last a : Nat} {more : List Nat} (hit : r.spans.filter (fun a => decide (first ≤ a ∧ a ≤ last)) = a :: more) :
    exec (.tableReadDone rid (.lost first last)) s = .next ((s.raiseBit Reg.pgwEvent 1).failRun rid Status.stateLost (a + 4096 * (more.getLast?.getD a))) := by
  show execTableReadDone rid (.lost first last) s = _
  unfold execTableReadDone
  simp only [h, hit]

/-- A stall joins those of the request once, and counts once for its cause. -/
theorem State.stall_already {c : Stall} (mine : r.stalls.any (fun x => x.1 == c) = true) : s.stall rid c = s := by
  unfold State.stall
  simp only [h, mine, if_true]

theorem State.stall_new {c : Stall} (mine : r.stalls.any (fun x => x.1 == c) = false) :
    (s.stall rid c).run rid = some { r with stalls := List.append r.stalls [(c, s.now)], causes := List.append r.causes [c], stalled := true } ∧
    (s.stall rid c).regs.run = if r.causes.contains c = true then s.regs.run else (s.bump (Reg.memStallTenant + 64 * Msg.tenant r.req.msg + 8 * c.code)).regs.run := by
  have mapped := State.run_mapRun h (f := fun r => { r with stalls := r.stalls ++ [(c, s.now)], causes := r.causes ++ [c], stalled := true }) rfl
  unfold State.stall
  simp only [h, mine, Bool.false_eq_true, if_false]
  split
  · exact ⟨mapped, rfl⟩
  · exact ⟨mapped, rfl⟩

end

/-- What a copy that failed shows: PGW_STATUS.mirror_degraded, and the event (R138). -/
abbrev State.mirrored (s : State) : State := (s.raiseBit Reg.pgwEvent 0).setStatus Reg.pgwStatus 1 1 1

theorem State.mirrored_bits {s : State} (h : s.liveWf) : s.mirrored.bit Reg.pgwEvent 0 = true ∧ s.mirrored.bit Reg.pgwStatus 1 = true := by
  have wf : (s.raiseBit Reg.pgwEvent 0).liveWf := State.raise_liveWf h ..
  refine ⟨?_, State.bit_of_fld (State.fld_setStatus wf (by decide) (by decide))⟩
  have shown : SameRegsBut [Reg.pgwStatus] _ s.mirrored := State.setStatus_sameRegs wf _ _ _ _
  rw [shown.bit (by decide), State.bit_raiseBit h _ (by decide) (by decide)]
  simp

theorem State.mirrored_keeps (s : State) : Keeps [.live, .hst, .sum, .outbox] s s.mirrored := by
  have hm := Within.refl [Blk.live, .hst, .sum, .outbox]
  exact State.setStatus_keeps (hm.sub rfl) _ _ _ _ (State.raiseBit_keeps (hm.sub rfl) _ _ (Keeps.refl s))

section
variable {s : State} (hi : s.Inv) {rid : Nat} {r : Run} (h : s.run rid = some r)
include hi h

theorem tableReadDone_mirror : Completes (.tableReadDone rid .mirror) s [.live, .run, .sch, .hst, .sum, .outbox] (fun t =>
    t.bit Reg.pgwEvent 0 = true ∧ t.bit Reg.pgwStatus 1 = true ∧
    (r.stalls.any (fun x => x.1 == .tableRepair) = true → t.run rid = some r ∧ t.regs.run = s.regs.run) ∧
    (r.stalls.any (fun x => x.1 == .tableRepair) = false →
      t.run rid = some { r with stalls := List.append r.stalls [(.tableRepair, s.now)], causes := List.append r.causes [.tableRepair], stalled := true } ∧
      t.regs.run = if r.causes.contains .tableRepair = true then s.regs.run
        else (s.bump (Reg.memStallTenant + 64 * Msg.tenant r.req.msg + 8 * Stall.tableRepair.code)).regs.run)) := by
  have hm := Within.refl [Blk.live, .run, .sch, .hst, .sum, .outbox]
  have shown := s.mirrored_keeps
  have stalled := State.stall_keeps (m := [.run, .sch]) (Within.refl _) rid .tableRepair (Keeps.refl s.mirrored)
  have stands : s.mirrored.run rid = some r := (State.run_of_runs (congrArg SchSt.runs (shown.same .sch (by decide))) rid).trans h
  have counts : s.mirrored.regs.run = s.regs.run := shown.same .run (by decide)
  have now : s.mirrored.now = s.now := shown.same .now (by decide)
  have bits : SameRegsBut [] s.mirrored (s.mirrored.stall rid .tableRepair) := .of_live (stalled.same .live (by decide))
  refine completes_keeps (exec_tableReadDone_mirror h) (State.stall_keeps (hm.sub rfl) _ _ (shown.mono (hm.sub rfl)))
    ⟨(bits.bit (by simp) 0).trans (State.mirrored_bits hi.liveWf).1, (bits.bit (by simp) 1).trans (State.mirrored_bits hi.liveWf).2, fun mine => ?_, fun mine => ?_⟩
  · rw [State.stall_already stands mine]
    exact ⟨stands, counts⟩
  · obtain ⟨run, count⟩ := State.stall_new stands mine
    refine ⟨now ▸ run, count.trans ?_⟩
    simp only [State.bump, counts]

theorem tableReadDone_spared {first last : Nat} (hit : r.spans.filter (fun a => decide (first ≤ a ∧ a ≤ last)) = []) :
    Completes (.tableReadDone rid (.lost first last)) s [.live, .hst, .sum, .outbox] (fun t => t.bit Reg.pgwEvent 1 = true) := by
  refine completes_keeps (exec_tableReadDone_spared h hit) (State.raiseBit_keeps (Within.refl _) _ _ (Keeps.refl s)) ?_
  rw [State.bit_raiseBit hi.liveWf _ (by decide) (by decide), decide_eq_true rfl, Bool.or_true]

theorem tableReadDone_lost {first last a : Nat} {more : List Nat} (hit : r.spans.filter (fun a => decide (first ≤ a ∧ a ≤ last)) = a :: more) :
    Completes (.tableReadDone rid (.lost first last)) s (partsOf (.tableReadDone rid (.lost first last))) (fun t =>
      t.run rid = none ∧ t.bit Reg.pgwEvent 1 = true ∧
      (∃ x, t.sch.replies = List.append s.sch.replies [x] ∧ x.req = r.req ∧ x.status = Status.stateLost ∧ x.detail = a + 4096 * more.getLast?.getD a ∧ x.body = [])) := by
  have sch : (s.raiseBit Reg.pgwEvent 1).sch = s.sch := (State.raiseBit_keeps (m := [.live, .hst, .sum, .outbox]) (Within.refl _) _ _ (Keeps.refl s)).same .sch (by decide)
  have stands : (s.raiseBit Reg.pgwEvent 1).run rid = some r := (State.run_of_runs (congrArg SchSt.runs sch) rid).trans h
  have done := State.failRun_completed stands Status.stateLost (a + 4096 * more.getLast?.getD a)
  have wf : (s.raiseBit Reg.pgwEvent 1).liveWf := State.raise_liveWf hi.liveWf ..
  refine completes_of (exec_tableReadDone_lost h hit) (execTableReadDone_keeps (Within.refl _) rid (.lost first last) (Keeps.refl s)) ⟨done.run, ?_, sch ▸ done.reply⟩
  have kept : SameRegsBut poisonRegs _ ((s.raiseBit Reg.pgwEvent 1).failRun rid Status.stateLost (a + 4096 * more.getLast?.getD a)) := State.failRun_sameRegs wf _ _ _
  rw [kept.bit (by decide), State.bit_raiseBit hi.liveWf _ (by decide) (by decide), decide_eq_true rfl, Bool.or_true]

end

/-! ### Stalled work goes on (R192) -/

/-- The minute lets a class's requests run: one of the class, or a SHARED one where the class is not isolated (R366). -/
abbrev State.mayRun (s : State) (cls : Nat) : Prop := s.dispatching = true ∧ s.mode ≠ 3 ∧ (s.owner = cls ∨ (s.owner = Owner.shared ∧ s.isolated cls = false))

theorem State.not_mayRun_iff (s : State) (cls : Nat) :
    ¬s.mayRun cls ↔ !s.dispatching ∨ s.mode = 3 ∨ (s.owner ≠ cls ∧ (s.owner ≠ Owner.shared ∨ s.isolated cls)) := by
  simp only [State.mayRun, not_and_or, not_or, not_not, Bool.not_eq_true, Bool.not_eq_false, Bool.not_eq_eq_eq_not, Bool.not_true]

/-- A leaf that waited for its hub, given to it: a tail's is done at once. -/
def Job.resumed (j : Job) : Job :=
  let tail : Bool := match j.src with | .tail .. => true | _ => false
  if j.exec = .hub ∧ j.st = .waiting then { j with st := if tail then .done else .issued } else j

section
variable {s : State} {rid : Nat} {r : Run}

theorem State.resumeLeaves_eq (h : s.run rid = some r) : s.resumeLeaves rid =
    let t := s.mapRun rid (fun r => { r with held := false, jobs := r.jobs.map Job.resumed })
    if r.held then t.sendLeaves r.req r.jobs else t := by
  unfold State.resumeLeaves
  rw [h]
  rfl

/-- The leaves of a dispatched request change, and nothing else of it; no reply comes. -/
structure LeavesMove (rid : Nat) (s t : State) : Prop where
  run : ∀ r, s.run rid = some r → ∃ jobs, t.run rid = some { r with jobs := jobs }
  replies : t.sch.replies = s.sch.replies

theorem LeavesMove.of_sch {t : State} (h : t.sch = s.sch := by rfl) : LeavesMove rid s t :=
  ⟨fun r hr => ⟨r.jobs, (State.run_of_runs (congrArg SchSt.runs h) rid).trans hr⟩, congrArg SchSt.replies h⟩

theorem LeavesMove.trans {t u : State} (h : LeavesMove rid s t) (g : LeavesMove rid t u) : LeavesMove rid s u where
  run r hr := by
    obtain ⟨_, ht⟩ := h.run r hr
    obtain ⟨jobs, hu⟩ := g.run _ ht
    exact ⟨jobs, hu⟩
  replies := g.replies.trans h.replies

theorem LeavesMove.foldl {α : Type} {f : State → α → State} (hf : ∀ s a, LeavesMove rid s (f s a)) (l : List α) (s : State) : LeavesMove rid s (l.foldl f s) := by
  induction l generalizing s with
  | nil => exact .of_sch
  | cons a l ih => exact (hf s a).trans (ih _)

theorem State.run_mapJob_other {k idx : Nat} (h : k ≠ rid) {f : Job → Job} : (s.mapJob k idx f).run rid = s.run rid := State.run_mapRun_other h (fun _ => rfl)

theorem State.leafToHub_leavesMove (s : State) (e : BurstEntry) : LeavesMove rid s (s.leafToHub e) := by
  unfold State.leafToHub
  split
  · rename_i k idx
    refine ⟨fun r hr => ?_, rfl⟩
    by_cases mine : k = rid
    · subst mine
      exact ⟨_, State.run_mapRun hr rfl⟩
    · exact ⟨r.jobs, (State.run_mapJob_other mine).trans hr⟩
  · exact .of_sch

theorem State.sendBursts_leavesMove (s : State) (u : Nat) (kind : BurstKind) (urgent : Bool) (cls : Nat) (es : List BurstEntry) :
    LeavesMove rid s (s.sendBursts u kind urgent cls es) := by
  unfold State.sendBursts
  extract_lets cap v items most parts
  exact (LeavesMove.foldl State.leafToHub_leavesMove _ s).trans (.foldl (fun _ _ => .of_sch) _ v)

theorem State.sendLeaves_leavesMove (s : State) (req : Req) (jobs : List Job) : LeavesMove rid s (s.sendLeaves req jobs) := by
  unfold State.sendLeaves
  refine .foldl (fun s u => ?_) _ s
  dsimp only
  split
  · exact .foldl State.leafToHub_leavesMove _ s
  · exact s.sendBursts_leavesMove ..

/-- Resumed, a request that was held from its start sends its leaves, and is held no more. -/
theorem State.resumeLeaves_held (h : s.run rid = some r) (held : r.held = true) :
    ∃ jobs, StandsAs s rid { r with held := false, jobs := jobs } (s.resumeLeaves rid) := by
  have freed := StandsAs.mapRun h (f := fun r => { r with held := false, jobs := r.jobs.map Job.resumed }) rfl
  rw [State.resumeLeaves_eq h]
  simp only [held, if_true]
  have sent := State.sendLeaves_leavesMove (rid := rid) (s.mapRun rid (fun r => { r with held := false, jobs := r.jobs.map Job.resumed })) r.req r.jobs
  have prog := (State.sendLeaves_keeps (m := [.sch, .vsp]) (Within.refl _) r.req r.jobs (Keeps.refl (s.mapRun rid (fun r => { r with held := false, jobs := r.jobs.map Job.resumed })))).same .prog (by decide)
  obtain ⟨jobs, run⟩ := sent.run _ freed.run
  exact ⟨jobs, run, sent.replies, prog⟩

theorem State.resumeLeaves_unheld (h : s.run rid = some r) (held : r.held = false) :
    StandsAs s rid { r with jobs := r.jobs.map Job.resumed } (s.resumeLeaves rid) := by
  have freed := StandsAs.mapRun h (f := fun r => { r with held := false, jobs := r.jobs.map Job.resumed }) rfl
  have same : ({ r with held := false, jobs := r.jobs.map Job.resumed } : Run) = { r with jobs := r.jobs.map Job.resumed } := by
    rw [← held]
  rw [State.resumeLeaves_eq h, if_neg (by simp [held]), ← same]
  exact freed

end

section
variable {s : State} {rid : Nat} {r : Run} (h : s.run rid = some r) (may : s.mayRun r.req.cls) (stalled : r.stalls ≠ []) (overs : ∀ x ∈ r.stalls, s.stallOver r x.1 = true)
include h may stalled overs

theorem exec_stallResume : exec (.stallResume rid) s =
    if r.redo then .next (s.redo rid)
    else
      let s := r.stalls.foldl (fun s x => s.unstall rid x.1) s
      if (s.groupOfRun rid).isSome then .next s else .next ((s.resumeLeaves rid).tryComplete rid) := by
  have go : ¬(!s.dispatching ∨ s.mode = 3 ∨ (s.owner ≠ r.req.cls ∧ (s.owner ≠ Owner.shared ∨ s.isolated r.req.cls)) ∨ r.stalls.isEmpty ∨
      !r.stalls.all (fun x => s.stallOver r x.1)) := by
    have all : r.stalls.all (fun x => s.stallOver r x.1) = true := List.all_eq_true.mpr overs
    have some : r.stalls.isEmpty = false := by simpa using stalled
    have minute := mt (s.not_mayRun_iff r.req.cls).mpr (not_not_intro may)
    simp only [all, some, Bool.not_true, Bool.false_eq_true, or_false]
    exact minute
  show execStallResume rid s = _
  unfold execStallResume
  simp only [h]
  rw [if_neg go]

theorem exec_stallResume_redo (redo : r.redo = true) : exec (.stallResume rid) s = .next (s.redo rid) :=
  (exec_stallResume h may stalled overs).trans (if_pos redo)

section
variable (once : r.redo = false)
include once

theorem stallResume_program (group : s.groupOfRun rid ≠ none) : Completes (.stallResume rid) s [.run, .sch] (fun t => t.run rid = some { r with stalls := [] }) := by
  have ended := State.unstalled h
  have runs : ((r.stalls.foldl (fun s x => s.unstall rid x.1) s).groupOfRun rid).isSome = true := by
    rw [ended.groupOfRun]
    exact Option.isSome_iff_ne_none.mpr group
  have run := exec_stallResume h may stalled overs
  rw [if_neg (by simp [once])] at run
  exact completes_keeps (run.trans (if_pos runs)) (keeps_foldl (fun _ _ k => State.unstall_keeps (Within.refl _) _ _ k) (Keeps.refl s)) ended.run

section
variable (group : s.groupOfRun rid = none)
include group

theorem exec_stallResume_leaves :
    exec (.stallResume rid) s = .next (((r.stalls.foldl (fun s x => s.unstall rid x.1) s).resumeLeaves rid).tryComplete rid) := by
  have runs : ¬((r.stalls.foldl (fun s x => s.unstall rid x.1) s).groupOfRun rid).isSome = true := by
    rw [(State.unstalled h).groupOfRun, group]
    exact Bool.false_ne_true
  have run := exec_stallResume h may stalled overs
  rw [if_neg (by simp [once])] at run
  exact run.trans (if_neg runs)

theorem stallResume_unheld (held : r.held = false) : GoesOn s rid (.stallResume rid) s.sch.replies { r with stalls := [], jobs := r.jobs.map Job.resumed } :=
  goesOn_of (exec_stallResume_leaves h may stalled overs once group) (execStallResume_keeps (Within.refl _) rid (Keeps.refl s))
    ((State.unstalled h).trans (State.resumeLeaves_unheld (State.unstalled h).run held)) rfl

theorem stallResume_held (held : r.held = true) : Completes (.stallResume rid) s (partsOf (.stallResume rid)) (fun t =>
    (∃ r', t.run rid = some r' ∧ r'.stalls = [] ∧ r'.held = false) ∨
    (t.run rid = none ∧ ∃ x, t.sch.replies = List.append s.sch.replies [x] ∧ x.req = r.req ∧ x.status = r.status)) := by
  obtain ⟨jobs, resumed⟩ := State.resumeLeaves_held (State.unstalled h).run held
  have stands := (State.unstalled h).trans resumed
  refine completes_of (exec_stallResume_leaves h may stalled overs once group) (execStallResume_keeps (Within.refl _) rid (Keeps.refl s)) ?_
  generalize (r.stalls.foldl (fun s x => s.unstall rid x.1) s).resumeLeaves rid = u at stands
  by_cases done : ({ r with stalls := [], held := false, jobs := jobs } : Run).ready = true ∧ u.progRuns.any (fun c => c.2.rid == rid) = false
  · have completed := State.tryComplete_completed stands.run done.1 done.2
    obtain ⟨x, replies, req, status, -⟩ := completed.reply
    exact .inr ⟨completed.run, x, stands.replies ▸ replies, req, status⟩
  · rw [State.tryComplete_waits stands.run (by simpa [imp_iff_not_or] using done)]
    exact .inl ⟨_, stands.run, rfl, rfl⟩

end

end

end

/-- A leaf that waited for its hub is done where a tail buffer gives it, and else issued. -/
theorem Job.resumed_waiting {j : Job} (waits : j.exec = .hub ∧ j.st = .waiting) :
    ((∃ k v c, j.src = .tail k v c) → j.resumed = { j with st := .done }) ∧ (¬(∃ k v c, j.src = .tail k v c) → j.resumed = { j with st := .issued }) := by
  unfold Job.resumed
  rw [if_pos waits]
  constructor
  · rintro ⟨k, v, c, src⟩
    simp [src]
  · intro other
    split
    · rename_i tail
      exact absurd ⟨_, _, _, ‹_›⟩ other
    · rfl

theorem Job.resumed_other {j : Job} (other : ¬(j.exec = .hub ∧ j.st = .waiting)) : j.resumed = j := if_neg other

end Sys2Proof.Machine
end

section
/-!
Waits for spares, provisional sets that expire, and how holds and stalls end (R69, R125, R192).
-/

namespace Sys2Proof.Machine

open Sys2Proof

/-! ### Waits for spares (R125) -/

theorem State.answer_sch (s : State) (r : Req) (status detail length : Nat) :
    ∃ y : Reply, (s.answer r status detail length).sch = { s.sch with replies := List.append s.sch.replies [y] } ∧ y.req = r ∧ y.status = status := by
  obtain ⟨g, hg⟩ := s.reply_sch { Reply.plain r s.now status detail length with
    notBefore := if s.bit (Reg.secIsoCfg + 4 * r.cls) 0 then s.now + 16 * s.fld (Reg.secIsoCfg + 4 * r.cls) 31 16 else 0 }
  exact ⟨_, hg, rfl, rfl⟩

theorem State.settleOrder_nil {s : State} (h : s.sch.order = []) : s.settleOrder = s := by
  rw [State.settleOrder, h]
  rfl

/-- An APPEND past its start to a sequence that this home does not know, with no map that says it lost one (R59). -/
theorem State.startAppend_unknown {s : State} {r : Req} (map : s.map.cur = none) (pos : AppendP.pos r.msg 40 ≠ 0)
    (unknown : s.findSeq (Msg.tenant r.msg) (Msg.sid r.msg) = none) : s.startAppend r = s.answer r Status.noSequence 0 0 := by
  have away : s.homeSeq (Msg.tenant r.msg) (Msg.sid r.msg) = none := by rw [State.homeSeq, unknown]
  have checked : s.seqCheck r (!AppendP.rebuild r.msg 40 && AppendP.pos r.msg 40 == 0) = .error (Status.noSequence, 0, 0) := by
    simp [State.seqCheck, away, pos, State.lossBit, map]
  unfold State.startAppend
  simp only [checked]

/-- The spares that a request of its own sequence gives back as it takes effect: those of the set that a VERIFY replaces. -/
abbrev State.spareOwn (s : State) (r : Req) : Nat :=
  match s.homeSeq (Msg.tenant r.msg) (Msg.sid r.msg) with
  | some q => if r.op = .verify then (((q.layer (Msg.layer r.msg)).prov.map (·.spares)).getD 0) else 0
  | none => 0

/-- What a request yields, dated to its first start (R80). -/
def SchSt.dated (h : SchSt) (rid since : Nat) : SchSt :=
  { h with
    runs := h.runs.map (fun x => if x.req.rid = rid then { x with tDispatch := since } else x)
    spareWait := h.spareWait.map (fun x => if x.1.rid = rid then (x.1, since) else x)
    replies := h.replies.map (fun x => if x.req.rid = rid then { x with tDispatch := since } else x) }

/-- A waiting request that is not a PROJECT_ATTEND takes effect as it would have at its start, dated to it. -/
theorem State.effect_sch {s : State} {w : Waiter} {held : Option (List Nat)} (op : w.req.op ≠ .projectAttend) :
    (s.effect w held).sch = (s.execute w.req held).sch.dated w.req.rid w.since := by
  unfold State.effect
  rw [if_neg (fun e => op e.1)]
  rfl

section
variable {s : State} {rid : Nat} {x : Req × Nat} (h : s.spareWaiter rid = some x)
include h

theorem spareWaiter_rid : x.1.rid = rid := by simpa using List.find?_some h

theorem exec_spareTailGrant : exec (.spareTailGrant rid) s =
    if ¬s.mayRun x.1.cls ∨ ¬(shapeOf (Msg.shape x.1.msg)).heads ≤ s.freeSpares + s.spareOwn x.1 then .next s
    else .next ((((s.dropWaiter rid).stallTicks (Msg.tenant x.1.msg) .spareTail x.2).effect ⟨x.1, x.2, [], []⟩ none).settleOrder) := by
  have refuses : (!s.dispatching ∨ s.mode = 3 ∨ (s.owner ≠ x.1.cls ∧ (s.owner ≠ Owner.shared ∨ s.isolated x.1.cls)) ∨
      s.freeSpares + s.spareOwn x.1 < (shapeOf (Msg.shape x.1.msg)).heads) ↔
      ¬s.mayRun x.1.cls ∨ ¬(shapeOf (Msg.shape x.1.msg)).heads ≤ s.freeSpares + s.spareOwn x.1 := by
    rw [s.not_mayRun_iff, Nat.not_le]
    simp only [or_assoc]
  show execSpareTailGrant rid s = _
  unfold execSpareTailGrant
  simp only [h]
  exact if_congr refuses rfl rfl

/-- A waiting APPEND takes effect on a sequence that is not there: NO_SEQUENCE (R59). -/
theorem spareTailGrant_unknown (may : s.mayRun x.1.cls) (enough : (shapeOf (Msg.shape x.1.msg)).heads ≤ s.freeSpares + s.spareOwn x.1) (order : s.sch.order = [])
    (fresh : ∀ y ∈ s.sch.replies, y.req.rid ≠ rid) (map : s.map.cur = none) (op : x.1.op = .append)
    (pos : AppendP.pos x.1.msg 40 ≠ 0) (unknown : s.findSeq (Msg.tenant x.1.msg) (Msg.sid x.1.msg) = none) :
    Completes (.spareTailGrant rid) s (partsOf (.spareTailGrant rid)) (fun t =>
      t.sch.spareWait = s.sch.spareWait.filter (fun y => y.1.rid != rid) ∧
      (∃ y, t.sch.replies = List.append s.sch.replies [y] ∧ y.req = x.1 ∧ y.status = Status.noSequence)) := by
  have run := (exec_spareTailGrant h).trans (if_neg (by simp [may, enough]))
  have mine := spareWaiter_rid h
  let taken := (s.dropWaiter rid).stallTicks (Msg.tenant x.1.msg) .spareTail x.2
  have answered : taken.execute x.1 none = taken.answer x.1 Status.noSequence 0 0 := by
    rw [State.execute, op]
    exact State.startAppend_unknown (s := taken) map pos unknown
  obtain ⟨y, sch, req, status⟩ := taken.answer_sch x.1 Status.noSequence 0 0
  have effect : (taken.effect ⟨x.1, x.2, [], []⟩ none).sch = SchSt.dated { taken.sch with replies := List.append taken.sch.replies [y] } x.1.rid x.2 := by
    rw [State.effect_sch (w := ⟨x.1, x.2, [], []⟩) (by simp [op]), answered, sch]
  rw [State.settleOrder_nil (by rw [effect]; exact order)] at run
  refine completes_of run (execSpareTailGrant_keeps (Within.refl _) rid (Keeps.refl s)) ?_
  rw [effect]
  refine ⟨?_, { y with tDispatch := x.2 }, ?_, req, status⟩
  · refine (List.map_congr_left fun z hz => if_neg ?_).trans (List.map_id' _)
    rw [mine]
    simpa using (List.mem_filter.mp hz).2
  · have others : s.sch.replies.map (fun z => if z.req.rid = x.1.rid then { z with tDispatch := x.2 } else z) = s.sch.replies :=
      (List.map_congr_left fun z hz => if_neg (mine ▸ fresh z hz)).trans (List.map_id' _)
    show (s.sch.replies ++ [y]).map _ = s.sch.replies ++ _
    rw [List.map_append, others, List.map_singleton, if_pos (by rw [req])]

end

/-- The wait as its limit comes: off the list, its ticks charged, recorded, and answered with CAPACITY. -/
def State.spareTimedOut (s : State) (rid : Nat) (x : Req × Nat) : State :=
  let s := s.advanceTo (x.2 + 4194304)
  let len := ((s.homeSeq (Msg.tenant x.1.msg) (Msg.sid x.1.msg)).map (fun q => q.lenFor (Msg.layer x.1.msg))).getD 0
  (((s.dropWaiter rid).stallTicks (Msg.tenant x.1.msg) .spareTail x.2).raiseBit Reg.pgwEvent 3).answer x.1 Status.capacity len len

theorem exec_spareWaitTimeout {s : State} {rid : Nat} {x : Req × Nat} (h : s.spareWaiter rid = some x) : exec (.spareWaitTimeout rid) s = .next (s.spareTimedOut rid x).settleOrder := by
  show execSpareWaitTimeout rid s = _
  unfold execSpareWaitTimeout
  simp only [h]
  rfl

theorem State.spareTimedOut_keeps (s : State) (rid : Nat) (x : Req × Nat) : Keeps [.now, .live, .run, .sch, .hst, .sum, .outbox] s (s.spareTimedOut rid x) := by
  have hm := Within.refl [Blk.now, .live, .run, .sch, .hst, .sum, .outbox]
  exact State.answer_keeps (hm.sub rfl) _ _ _ _ (State.raiseBit_keeps (hm.sub rfl) _ _ (State.stallTicks_keeps (hm.sub rfl) _ _ _
    (State.dropWaiter_keeps (hm.sub rfl) _ (State.advanceTo_keeps (hm.sub rfl) _ (Keeps.refl s)))))

theorem State.spareTimedOut_sch (s : State) (rid : Nat) (x : Req × Nat) : ∃ y : Reply,
    (s.spareTimedOut rid x).sch = { s.sch with spareWait := s.sch.spareWait.filter (fun y => y.1.rid != rid), replies := List.append s.sch.replies [y] } ∧
    y.req = x.1 ∧ y.status = Status.capacity := by
  unfold State.spareTimedOut
  extract_lets u len
  let w := (u.dropWaiter rid).stallTicks (Msg.tenant x.1.msg) .spareTail x.2
  have kept : (w.raiseBit Reg.pgwEvent 3).sch = w.sch := (State.raiseBit_keeps (m := [.live, .hst, .sum, .outbox]) (Within.refl _) _ _ (Keeps.refl w)).same .sch (by decide)
  obtain ⟨y, sch, facts⟩ := (w.raiseBit Reg.pgwEvent 3).answer_sch x.1 Status.capacity len len
  rw [kept] at sch
  exact ⟨y, sch, facts⟩

theorem State.spareTimedOut_now (s : State) (rid : Nat) (x : Req × Nat) : (s.spareTimedOut rid x).now = max s.now (x.2 + 2 ^ 22) := by
  have hm := Within.refl [Blk.live, .run, .sch, .hst, .sum, .outbox]
  exact (State.answer_keeps (hm.sub rfl) _ _ _ _ (State.raiseBit_keeps (hm.sub rfl) _ _ (State.stallTicks_keeps (hm.sub rfl) _ _ _
    (State.dropWaiter_keeps (hm.sub rfl) rid (Keeps.refl (s.advanceTo (x.2 + 4194304))))))).same .now (by decide)

theorem State.spareTimedOut_bit {s : State} (hi : s.liveWf) (rid : Nat) (x : Req × Nat) : (s.spareTimedOut rid x).bit Reg.pgwEvent 3 = true := by
  unfold State.spareTimedOut
  extract_lets u len
  have wf : ((u.dropWaiter rid).stallTicks (Msg.tenant x.1.msg) .spareTail x.2).liveWf := hi
  rw [State.bit, State.live, State.answer, State.reply_live]
  show (State.bit _ _ _) = true
  rw [State.bit_raiseBit wf _ (by decide) (by decide), decide_eq_true rfl, Bool.or_true]

/-! ### Provisional sets that expire (R69) -/

theorem State.settlePlaces_pgw (s : State) : s.settlePlaces.pgw.seqs = s.pgw.seqs ∧ s.settlePlaces.pgw.sparesUsed = s.pgw.sparesUsed := by
  have placed (l : List ((Place × Bool) × Nat)) (t : State) : (l.foldl State.placeProt t).pgw.seqs = t.pgw.seqs ∧ (l.foldl State.placeProt t).pgw.sparesUsed = t.pgw.sparesUsed := by
    induction l generalizing t with
    | nil => exact ⟨rfl, rfl⟩
    | cons x l ih =>
      have one : (t.placeProt x).pgw.seqs = t.pgw.seqs ∧ (t.placeProt x).pgw.sparesUsed = t.pgw.sparesUsed := by
        unfold State.placeProt
        split
        · exact ⟨rfl, rfl⟩
        · split <;> exact ⟨rfl, rfl⟩
      obtain ⟨seqs, spares⟩ := ih (t.placeProt x)
      exact ⟨seqs.trans one.1, spares.trans one.2⟩
  exact placed ..

/-- A record written in the place of one found is found, and no spare is taken or returned by it. -/
theorem State.findSeq_putSeq {s : State} {q : SeqRec} (r : SeqRec) (h : s.findSeq r.tenant r.sid = some q) :
    (s.putSeq r).findSeq r.tenant r.sid = some r ∧ (s.putSeq r).pgw.sparesUsed = s.pgw.sparesUsed := by
  have found : (s.pgw.seqs.map (fun x => if x.tenant = r.tenant ∧ x.sid = r.sid then r else x)).find? (fun x => x.tenant == r.tenant && x.sid == r.sid) = some r := by
    simpa only [Bool.and_eq_true, beq_iff_eq] using find?_map_where (f := fun _ => r) h (by simp)
  unfold State.putSeq
  extract_lets seqs t
  have replaced : seqs = s.pgw.seqs.map (fun x => if x.tenant = r.tenant ∧ x.sid = r.sid then r else x) := if_pos (by rw [h]; rfl)
  rw [← replaced] at found
  split
  · exact ⟨found, rfl⟩
  · refine ⟨?_, (State.settlePlaces_pgw _).2⟩
    rw [State.findSeq, (State.settlePlaces_pgw _).1]
    exact found

theorem listMap_getD {α : Type} (l : List α) (n : Nat) (f : α → α) (d : α) : (listMap l n f).getD n d = if n < l.length then f (l.getD n d) else d := by
  induction l generalizing n with
  | nil => rfl
  | cons a l ih =>
    cases n with
    | zero => rfl
    | succ n => simpa [listMap] using ih n

theorem LayerRec.dropProv_fields (y : LayerRec) : y.dropProv.prov = none ∧ y.dropProv.len = y.len := by
  unfold LayerRec.dropProv
  split
  · exact ⟨‹_›, rfl⟩
  · split <;> exact ⟨rfl, rfl⟩

/-- A layer without its set, where it has one. -/
theorem SeqRec.layer_dropProv {q : SeqRec} {l : Nat} {p : Prov} (h : (q.layer l).prov = some p) : (q.mapLayer l LayerRec.dropProv).layer l = (q.layer l).dropProv := by
  rw [SeqRec.layer, SeqRec.mapLayer, listMap_getD]
  refine if_pos (Decidable.by_contra fun out => ?_)
  rw [SeqRec.layer, List.getD_eq_default _ _ (Nat.not_lt.mp out)] at h
  exact nomatch h

theorem State.findSeq_homeSeq {s : State} {tenant sid : Nat} {q : SeqRec} (h : s.homeSeq tenant sid = some q) : s.findSeq tenant sid = some q := by
  unfold State.homeSeq at h
  split at h
  · split at h
    · rw [← h]; assumption
    · exact nomatch h
  · exact nomatch h

section
variable {s : State} {tenant sid l done : Nat} {q : SeqRec} {p : Prov} (hq : s.homeSeq tenant sid = some q) (hp : (q.layer l).prov = some p) (hd : p.done = some done)
include hq hp hd

theorem exec_provisionalExpiry :
    exec (.provisionalExpiry tenant sid l) s = .next (((s.advanceTo (done + 67108864)).putSeq (q.mapLayer l LayerRec.dropProv)).useSpares 0 p.spares) := by
  show execProvisionalExpiry tenant sid l s = _
  unfold execProvisionalExpiry State.discardProv
  simp only [hq, hp, Option.bind_some, hd]

theorem provisionalExpiry_discards : Completes (.provisionalExpiry tenant sid l) s [.now, .pgw] (fun t =>
    t.now = max s.now (done + 2 ^ 26) ∧ (∃ q', t.findSeq tenant sid = some q' ∧ (q'.layer l).prov = none ∧ (q'.layer l).len = (q.layer l).len) ∧
    t.pgw.sparesUsed = s.pgw.sparesUsed - p.spares) := by
  have found := State.findSeq_homeSeq hq
  obtain ⟨rfl, rfl⟩ : q.tenant = tenant ∧ q.sid = sid := by simpa using List.find?_some found
  let u := s.advanceTo (done + 67108864)
  obtain ⟨put, spares⟩ := State.findSeq_putSeq (s := u) (q.mapLayer l LayerRec.dropProv) found
  obtain ⟨none, len⟩ := (q.layer l).dropProv_fields
  have layer := SeqRec.layer_dropProv hp
  have now : (u.putSeq (q.mapLayer l LayerRec.dropProv)).now = u.now := (State.putSeq_keeps (Within.refl _) _ (Keeps.refl u)).same .now (by decide)
  refine completes_of (exec_provisionalExpiry hq hp hd) (execProvisionalExpiry_keeps (Within.refl _) _ _ l (Keeps.refl s))
    ⟨now, ⟨_, put, layer ▸ none, layer ▸ len⟩, ?_⟩
  show (u.putSeq _).pgw.sparesUsed + 0 - p.spares = _
  rw [spares]
  rfl

end

/-! ### The obligation -/

/-- Settles O46: each command's own lemma above, over the request as its stalls and leaves stand (`StandsAs`) and as it goes on or completes (`goesOn_of`). -/
theorem holdsAndStallsEnd : Obligations.HoldsAndStallsEnd := by
  unfold Obligations.HoldsAndStallsEnd
  intro s rid hi mayRun done goesOn
  refine ⟨fun r h => ⟨exec_tableReadDone_ok h, tableReadDone_mirror hi h,
      fun first last => ⟨tableReadDone_spared hi h, fun a more hit => tableReadDone_lost hi h hit⟩,
      fun l i dl hr => ⟨exec_reservationDone_early h hr, fun u p due hu hp prog => reservationDone_goesOn h hr due hu hp prog,
        reservationTimeout_goesOn h hr, reservationTimeout_now h hr⟩,
      fun may stalled overs => ?_⟩,
    fun x h => ?_, fun tenant sid l set q p hq hp hd => provisionalExpiry_discards hq hp hd⟩
  · refine ⟨exec_stallResume_redo h may stalled overs, fun once group => stallResume_program h may stalled overs once group, fun once group held => ?_,
      fun once group held => stallResume_held h may stalled overs once group held⟩
    refine ⟨r.jobs.map Job.resumed, List.length_map .., fun i j j' hj hj' => ?_, stallResume_unheld h may stalled overs once group held⟩
    obtain rfl : j.resumed = j' := by simpa [hj] using hj'
    exact ⟨Job.resumed_waiting, Job.resumed_other⟩
  · refine ⟨fun out => (exec_spareTailGrant h).trans (if_pos out), fun may enough => (exec_spareTailGrant h).trans (if_neg ?_),
      fun may enough order fresh map op _ pos unknown => spareTailGrant_unknown h may enough order fresh map op pos unknown, ?_⟩
    · exact not_or.mpr ⟨not_not_intro may, not_not_intro enough⟩
    · obtain ⟨y, sch, req, status⟩ := s.spareTimedOut_sch rid x
      have kept := s.spareTimedOut_keeps rid x
      have order : (s.spareTimedOut rid x).sch.order = s.sch.order := by rw [sch]
      exact ⟨s.spareTimedOut rid x, exec_spareWaitTimeout h, kept.same, order, fun none => State.settleOrder_nil (order.trans none), s.spareTimedOut_now rid x,
        by rw [sch], State.spareTimedOut_bit hi.liveWf rid x, y, by rw [sch], req, status⟩

end Sys2Proof.Machine
end

section
/-!
Rounding to the nearest (R95), the merge of partials and the tree of R84 (R110, R111).
-/

namespace Sys2Proof.Machine

open Sys2Proof

/-! ### round_div (R95) -/

section
variable {n b : Int} {m : Nat} (hm : 0 < m)
include hm

/-- What round_div answers is off by half of m at most. -/
theorem roundDiv_near : 2 * n ≤ 2 * (roundDiv n m * m) + m ∧ 2 * (roundDiv n m * m) ≤ 2 * n + m := by
  have low : 0 ≤ n - n / m * m := by linarith [Int.ediv_mul_le n (by omega : (m : Int) ≠ 0)]
  have high : n < (n / m + 1) * m := Int.lt_ediv_add_one_mul_self n (by omega)
  rw [add_mul, one_mul] at high
  dsimp only [roundDiv]
  split
  · rw [add_mul, one_mul]; omega
  · omega

theorem le_roundDiv (h : b * m ≤ n) : b ≤ roundDiv n m := by
  by_contra less
  have : (roundDiv n m + 1) * m ≤ b * m := Int.mul_le_mul_of_nonneg_right (by omega) (by omega)
  linarith [roundDiv_near (n := n) hm]

theorem roundDiv_le (h : n ≤ b * m) : roundDiv n m ≤ b := by
  by_contra more
  have : (b + 1) * m ≤ roundDiv n m * m := Int.mul_le_mul_of_nonneg_right (by omega) (by omega)
  linarith [roundDiv_near (n := n) hm]

/-- An exact quotient is not rounded. -/
theorem roundDiv_exact (h : n = b * m) : roundDiv n m = b := le_antisymm (roundDiv_le hm h.le) (le_roundDiv hm h.ge)

/-- A quotient within a bound rounds within it. -/
theorem natAbs_roundDiv_le {k : Nat} (h : n.natAbs ≤ k * m) : (roundDiv n m).natAbs ≤ k := by
  have upper := roundDiv_le (n := n) (b := k) hm (by omega)
  have lower := le_roundDiv (n := n) (b := -k) hm (by rw [Int.neg_mul]; omega)
  omega

omit hm in
theorem roundDiv_mul_right {c : Nat} (hc : 0 < c) : roundDiv (n * c) (m * c) = roundDiv n m := by
  have hc' : (0 : Int) < c := by omega
  have rest : n * c - n / m * (m * c) = (n - n / m * m) * c := by ring
  have past : 2 * ((n - n / m * m) * c) > m * c ↔ 2 * (n - n / m * m) > m := by
    rw [← mul_assoc]; exact mul_lt_mul_iff_left₀ hc'
  have half : 2 * ((n - n / m * m) * c) = m * c ↔ 2 * (n - n / m * m) = m := by
    rw [← mul_assoc]; exact mul_left_inj' hc'.ne'
  simp only [roundDiv, Nat.cast_mul, Int.mul_ediv_mul_of_pos_left _ _ hc', rest, past, half]

/-- The rounding sees the quotient alone. -/
theorem roundDiv_of_cross {n' : Int} {m' : Nat} (hm' : 0 < m') (h : n * m' = n' * m) : roundDiv n m = roundDiv n' m' := by
  rw [← roundDiv_mul_right hm', h, Nat.mul_comm, roundDiv_mul_right hm]

end

/-! ### The merge (R111) -/

theorem mem_zipWith {α β γ : Type} {f : α → β → γ} {l : List α} {l' : List β} {c : γ} (h : c ∈ List.zipWith f l l') : ∃ x ∈ l, ∃ y ∈ l', f x y = c := by
  rw [← List.map_uncurry_zip_eq_zipWith] at h
  obtain ⟨⟨x, y⟩, hxy, rfl⟩ := List.mem_map.mp h
  exact ⟨x, (List.of_mem_zip hxy).1, y, (List.of_mem_zip hxy).2, rfl⟩

theorem zipWith_replicate_length {α β γ : Type} (f : α → β → γ) (a : α) (l : List β) : List.zipWith f (List.replicate l.length a) l = l.map (f a) := by
  rw [← List.map_const', List.zipWith_map_left, List.zipWith_self]

theorem shr_zero (x : Nat) : shr x 0 = x := rfl

theorem shr_le (x k : Nat) : shr x k ≤ x := by
  unfold shr
  split
  · exact Nat.zero_le x
  · exact Nat.shiftRight_le x k

theorem zero_shr (k : Nat) : shr 0 k = 0 := Nat.le_zero.mp (shr_le 0 k)

/-- L as a merge of the given M counts it: shifted right by how far the partial's own M lies below. -/
abbrev Partial.lAt (p : Partial) (m : Int) : Nat := shr p.l (m - p.m).toNat

theorem Partial.lAt_self {p : Partial} {m : Int} (h : m = p.m) : p.lAt m = p.l := by rw [Partial.lAt, h, Int.sub_self, Int.toNat_zero, shr_zero]

theorem Partial.lAt_max_left {a b : Partial} (h : b.m ≤ a.m) : a.lAt (max a.m b.m) = a.l := Partial.lAt_self (max_eq_left h)

theorem Partial.lAt_max_right {a b : Partial} (h : a.m ≤ b.m) : b.lAt (max a.m b.m) = b.l := Partial.lAt_self (max_eq_right h)

theorem merge_empty {a b : Partial} (ha : a.empty = true) (hb : b.empty = true) : merge a b = a := by simp [merge, ha, hb]

theorem merge_eq {a b : Partial} (h : ¬(a.empty = true ∧ b.empty = true)) :
    merge a b = ⟨false, max a.m b.m, a.lAt (max a.m b.m) + b.lAt (max a.m b.m),
      List.zipWith (fun x y => roundDiv ((a.lAt (max a.m b.m) : Int) * x + (b.lAt (max a.m b.m) : Int) * y) (a.lAt (max a.m b.m) + b.lAt (max a.m b.m))) a.o b.o,
      a.sat || b.sat⟩ := by
  simp only [merge, Bool.and_eq_true, if_neg h]

theorem merge_comm {a b : Partial} (h : ¬(a.empty = true ∧ b.empty = true)) : merge a b = merge b a := by
  rw [merge_eq h, merge_eq (h ∘ And.symm), List.zipWith_comm, max_comm, Bool.or_comm, Nat.add_comm]
  simp only [Int.add_comm]

theorem merge_l_le (a b : Partial) : (merge a b).l ≤ a.l + b.l := by
  by_cases h : a.empty = true ∧ b.empty = true
  · rw [merge_empty h.1 h.2]; exact Nat.le_add_right ..
  · rw [merge_eq h]; exact Nat.add_le_add (shr_le ..) (shr_le ..)

/-- The side with the larger M keeps its L. -/
theorem le_merge_l {a b : Partial} {n : Nat} (ha : n < a.l) (hb : n < b.l) : n < (merge a b).l := by
  by_cases h : a.empty = true ∧ b.empty = true
  · rwa [merge_empty h.1 h.2]
  · rw [merge_eq h]
    rcases le_total a.m b.m with le | le
    · exact lt_of_lt_of_le hb (Partial.lAt_max_right le ▸ Nat.le_add_left ..)
    · exact lt_of_lt_of_le ha (Partial.lAt_max_left le ▸ Nat.le_add_right ..)

section
variable {b : Partial} (hb : b.empty = false) (hm : -32768 ≤ b.m) (hl : 0 < b.l)
include hb hm hl

/-- EMPTY on the left is the identity: its L is 0, and the mean of one side alone is exact. -/
theorem none_merge : merge (Partial.none b.o.length) b = b := by
  have m : max (Partial.none b.o.length).m b.m = b.m := max_eq_right hm
  have la : (Partial.none b.o.length).lAt b.m = 0 := zero_shr _
  have mean (y : Int) : roundDiv (((0 : Nat) : Int) * 0 + (b.l : Int) * y) b.l = y := roundDiv_exact hl (by ring)
  have o : (Partial.none b.o.length).o = List.replicate b.o.length 0 := rfl
  rw [merge_eq (by simp [hb]), m, la, Partial.lAt_self rfl, o, zipWith_replicate_length]
  simp only [Nat.zero_add, mean, List.map_id', Partial.none, Bool.false_or]
  rw [← hb]

theorem merge_none : merge b (Partial.none b.o.length) = b := (merge_comm (by simp [hb])).trans (none_merge hb hm hl)

end

/-- Bounds on O of both sides bound the merge's. -/
theorem merge_o_bounded {bound : Nat} {a b : Partial} (ha : ∀ o ∈ a.o, o.natAbs ≤ bound) (hb : ∀ o ∈ b.o, o.natAbs ≤ bound) (hl : 0 < (merge a b).l) :
    ∀ o ∈ (merge a b).o, o.natAbs ≤ bound := by
  by_cases h : a.empty = true ∧ b.empty = true
  · rwa [merge_empty h.1 h.2]
  · rw [merge_eq h] at hl ⊢
    intro o ho
    obtain ⟨x, hx, y, hy, rfl⟩ : ∃ x ∈ a.o, ∃ y ∈ b.o, _ = o := mem_zipWith ho
    refine natAbs_roundDiv_le hl ((Int.natAbs_add_le ..).trans ?_)
    rw [Int.natAbs_mul, Int.natAbs_mul, Int.natAbs_natCast, Int.natAbs_natCast, Nat.mul_add, Nat.mul_comm bound, Nat.mul_comm bound]
    exact Nat.add_le_add (Nat.mul_le_mul_left _ (ha x hx)) (Nat.mul_le_mul_left _ (hb y hy))

/-! ### The tree (R84) -/

/-- A node sees the leaves below it alone. -/
theorem treeNode_filter {d k i : Nat} {leaves : List (Nat × Partial)} {q : Nat × Partial → Bool} (h : ∀ p ∈ leaves, p.1 / 2 ^ k = i → q p = true) :
    treeNode d (leaves.filter q) k i = treeNode d leaves k i := by
  cases k with
  | zero =>
    have : (leaves.filter q).find? (fun p => p.1 == i) = leaves.find? (fun p => p.1 == i) := by
      rw [List.find?_filter]
      refine List.find?_congr fun p hp => ?_
      by_cases e : p.1 = i
      · simp [e, h p hp (by simpa using e)]
      · simp [e]
    simp only [treeNode, tabGet, this]
  | succ k =>
    have : (leaves.filter q).filter (fun p => decide (p.1 / pow2 (k + 1) = i)) = leaves.filter (fun p => decide (p.1 / pow2 (k + 1) = i)) := by
      rw [List.filter_filter]
      refine List.filter_congr fun p hp => ?_
      by_cases e : p.1 / pow2 (k + 1) = i
      · simp [e, h p hp e]
      · simp [e]
    simp only [treeNode, this]

theorem treeNode_succ (d : Nat) (leaves : List (Nat × Partial)) (k i : Nat) :
    treeNode d leaves (k + 1) i =
      if leaves.any (fun p => p.1 / 2 ^ (k + 1) == i) then merge (treeNode d leaves k (2 * i)) (treeNode d leaves k (2 * i + 1)) else Partial.none d := by
  have below (j : Nat) (hj : j / 2 = i) :
      treeNode d (leaves.filter (fun p => decide (p.1 / pow2 (k + 1) = i))) k j = treeNode d leaves k j :=
    treeNode_filter fun p _ hp => by rw [decide_eq_true_eq, pow2, Nat.pow_succ, ← Nat.div_div_eq_div_mul, hp, hj]
  rw [treeNode, below (2 * i) (by omega), below (2 * i + 1) (by omega)]
  by_cases h : leaves.any (fun p => p.1 / 2 ^ (k + 1) == i) = true
  · rw [if_pos h, if_neg]
    simpa [List.filter_eq_nil_iff] using h
  · rw [if_neg h, if_pos]
    simpa [List.filter_eq_nil_iff] using h

/-- Each level of the tree doubles the bound on L at most. -/
theorem treeNode_l_le {d : Nat} {leaves : List (Nat × Partial)} {c : Nat} (h : ∀ p ∈ leaves, p.2.l ≤ c) (k i : Nat) : (treeNode d leaves k i).l ≤ c * 2 ^ k := by
  induction k generalizing i with
  | zero =>
    rw [treeNode, tabGet, Nat.pow_zero, Nat.mul_one]
    cases found : leaves.find? (fun p => p.1 == i) with
    | none => exact Nat.zero_le c
    | some p => exact h p (List.mem_of_find?_eq_some found)
  | succ k ih =>
    rw [treeNode_succ]
    split
    · calc _ ≤ _ := merge_l_le ..
        _ ≤ c * 2 ^ k + c * 2 ^ k := Nat.add_le_add (ih _) (ih _)
        _ = c * 2 ^ (k + 1) := by ring
    · exact Nat.zero_le _

/-! ### The obligation -/

/-- A partial of one dimension, of one position of weight 1. -/
def unitPartial (o : Int) : Partial := ⟨false, 0, 2 ^ 32, [o], false⟩

/-- Settles O57: the merge's own lemmas above, the tree's by level, and four partials of equal L that two groupings round apart. -/
theorem theCanonicalMergeIsRule111 : Obligations.TheCanonicalMergeIsRule111 := by
  unfold Obligations.TheCanonicalMergeIsRule111
  refine ⟨fun a b ha hb => (congrArg Partial.empty (merge_empty ha hb)).trans ha,
    fun a b h => ⟨merge_eq h, Partial.lAt_max_right, Partial.lAt_max_left, merge_comm h⟩, treeNode_succ, fun a b => le_merge_l,
    fun d leaves k i h hk => ?_, fun b hb hm hl => ⟨none_merge hb hm hl, merge_none hb hm hl⟩, ?_⟩
  · calc _ ≤ 2 ^ 38 * 2 ^ k := treeNode_l_le h k i
      _ ≤ 2 ^ 38 * 2 ^ 16 := Nat.mul_le_mul_left _ (Nat.pow_le_pow_right (by decide) hk)
      _ = 2 ^ 54 := by decide
  · exact ⟨unitPartial 1, unitPartial 2, unitPartial 1, unitPartial 0, rfl, rfl, rfl, rfl, 1, 2, by decide, by decide, rfl⟩

end Sys2Proof.Machine
end

section
/-!
Leaves of the tree and finalisation (R95, R98, R110, R113).
-/

namespace Sys2Proof.Machine

open Sys2Proof

/-! ### Leaves (R110) -/

/-- Each position's weight with its V row, under the M of the leaf. -/
abbrev weighted (m : Int) (scored : List ((Int × Bool) × List Int)) : List (Nat × List Int) :=
  scored.map (fun x => (exp2w (m * 65536 - x.1.1).toNat, x.2))

/-- A sum of weights that goes on from c. -/
abbrev weightSum (ws : List (Nat × List Int)) (c : Nat) : Nat := ws.foldl (fun a x => a + x.1) c

theorem accumulate_bounded {bound : Nat} {ws : List (Nat × List Int)} (h : ∀ x ∈ ws, ∀ v ∈ x.2, v.natAbs ≤ bound) {acc : List Int} {c : Nat}
    (hacc : ∀ o ∈ acc, o.natAbs ≤ bound * c) : ∀ o ∈ accumulate ws acc, o.natAbs ≤ bound * weightSum ws c := by
  induction ws generalizing acc c with
  | nil => exact hacc
  | cons x ws ih =>
    refine ih (fun y hy => h y (List.mem_cons_of_mem _ hy)) fun o ho => ?_
    obtain ⟨a, ha, v, hv, rfl⟩ := mem_zipWith ho
    calc _ ≤ a.natAbs + (x.1 * v).natAbs := Int.natAbs_add_le ..
      _ = a.natAbs + x.1 * v.natAbs := by rw [Int.natAbs_mul, Int.natAbs_natCast]
      _ ≤ bound * c + x.1 * bound := Nat.add_le_add (hacc a ha) (Nat.mul_le_mul_left _ (h x List.mem_cons_self v hv))
      _ = bound * (c + x.1) := by ring

/-- A leaf with a position has for L the sum of the weights and for O the weighted sums over it. -/
theorem leafOf_weighted (d : Nat) {scored : List ((Int × Bool) × List Int)} (flagged : Bool) (h : scored ≠ []) :
    ∃ m : Int, (leafOf d scored flagged).1.l = weightSum (weighted m scored) 0 ∧
      (leafOf d scored flagged).1.o = (accumulate (weighted m scored) (List.replicate d 0)).map (fun a => roundDiv a (weightSum (weighted m scored) 0)) := by
  obtain ⟨x, xs, rfl⟩ := List.exists_cons_of_ne_nil h
  exact ⟨_, rfl, rfl⟩

theorem leafOf_o_bounded {bound d : Nat} {scored : List ((Int × Bool) × List Int)} {flagged : Bool} (h : ∀ x ∈ scored, ∀ v ∈ x.2, v.natAbs ≤ bound)
    (hl : 0 < (leafOf d scored flagged).1.l) : ∀ o ∈ (leafOf d scored flagged).1.o, o.natAbs ≤ bound := by
  have covered : scored ≠ [] := by
    rintro rfl
    exact Nat.lt_irrefl 0 hl
  obtain ⟨m, l, o⟩ := leafOf_weighted d flagged covered
  rw [o]
  intro y hy
  obtain ⟨a, ha, rfl⟩ := List.mem_map.mp hy
  have rows : ∀ x ∈ weighted m scored, ∀ v ∈ x.2, v.natAbs ≤ bound := fun x hx => by
    obtain ⟨p, hp, rfl⟩ := List.mem_map.mp hx
    exact h p hp
  refine natAbs_roundDiv_le (l ▸ hl) (accumulate_bounded rows (fun o ho => ?_) a ha)
  rw [List.eq_of_mem_replicate ho]
  exact Nat.zero_le _

/-- The weight of a leaf's only position, whose score is also its top. -/
abbrev soleWeight (x : Int) : Nat := exp2w ((x + 65535) / 65536 * 65536 - x).toNat

section
variable {d : Nat} {x : Int} {clamped flagged : Bool} {v : List Int}

theorem leafOf_one_l : (leafOf d [((x, clamped), v)] flagged).1.l = soleWeight x := by
  simp only [leafOf, List.foldl_cons, List.foldl_nil, max_self, List.map_cons, List.map_nil, Nat.zero_add]

/-- The position's own V comes back, as the weight divides out. -/
theorem leafOf_one_o (hd : v.length = d) (hl : 0 < soleWeight x) : (leafOf d [((x, clamped), v)] flagged).1.o = v := by
  have same (y : Int) : roundDiv (0 + (soleWeight x : Int) * y) (soleWeight x) = y := roundDiv_exact hl (by ring)
  subst hd
  simp only [leafOf, List.foldl_cons, List.foldl_nil, max_self, List.map_cons, List.map_nil, accumulate, zipWith_replicate_length, List.map_map, Nat.zero_add,
    Function.comp_def, same, List.map_id']

end

/-! ### A tree with one leaf -/

theorem treeNode_single_beside {d t k i : Nat} {p : Partial} (h : t / 2 ^ k ≠ i) : treeNode d [(t, p)] k i = Partial.none d := by
  cases k with
  | zero =>
    have : t ≠ i := by simpa using h
    simp [treeNode, tabGet, this]
  | succ k => simp [treeNode_succ, h]

theorem treeNode_single {t : Nat} {p : Partial} (he : p.empty = false) (hm : -32768 ≤ p.m) (hl : 0 < p.l) (k : Nat) :
    treeNode p.o.length [(t, p)] k (t / 2 ^ k) = p := by
  induction k with
  | zero => simp [treeNode, tabGet]
  | succ k ih =>
    have up : t / 2 ^ (k + 1) = t / 2 ^ k / 2 := by rw [Nat.pow_succ, Nat.div_div_eq_div_mul]
    rw [treeNode_succ, if_pos (by simp), up]
    rcases Nat.mod_two_eq_zero_or_one (t / 2 ^ k) with even | odd
    · rw [show 2 * (t / 2 ^ k / 2) = t / 2 ^ k by omega, ih, treeNode_single_beside (by omega), merge_none he hm hl]
    · rw [show 2 * (t / 2 ^ k / 2) + 1 = t / 2 ^ k by omega, ih, treeNode_single_beside (by omega), none_merge he hm hl]

/-! ### bf16 of a Q15.32 value (R95) -/

theorem Fr.log2_two_pow {n : Int} (hn : n ≠ 0) (j : Nat) : Fr.log2 ⟨n, 2 ^ j⟩ = (Nat.log2 n.natAbs : Int) - j := by
  have below : 2 ^ Nat.log2 n.natAbs ≤ n.natAbs := Nat.log2_self_le (by omega)
  have le : Fr.le (Fr.shift ⟨1, 1⟩ ((Nat.log2 n.natAbs : Int) - j)) ⟨n.natAbs, 2 ^ j⟩ = true := by
    unfold Fr.le Fr.shift
    split
    · rename_i wide
      rw [show Nat.log2 n.natAbs = ((Nat.log2 n.natAbs : Int) - j).toNat + j by omega, Nat.pow_add] at below
      simp only [decide_eq_true_eq, one_mul, Nat.cast_one, mul_one]
      exact_mod_cast below
    · rename_i narrow
      have parts : 2 ^ j = 2 ^ Nat.log2 n.natAbs * 2 ^ (-((Nat.log2 n.natAbs : Int) - j)).toNat := by
        rw [← Nat.pow_add]; congr 1; omega
      simp only [decide_eq_true_eq, one_mul, parts]
      exact_mod_cast Nat.mul_le_mul_right _ below
  simp only [Fr.log2, Nat.log2_two_pow, le, if_true]

/-- The 8 significant bits of a positive number, 256 where they round up to the next power of two. -/
def bf16Sig (n : Nat) : Nat := (roundDiv (n * 128) (2 ^ Nat.log2 n)).toNat

theorem bf16Sig_bounds {n : Nat} (hn : n ≠ 0) : 128 ≤ bf16Sig n ∧ bf16Sig n ≤ 256 := by
  have below : 2 ^ Nat.log2 n ≤ n := Nat.log2_self_le hn
  have above : n < 2 ^ (Nat.log2 n + 1) := Nat.lt_log2_self
  have low : 128 ≤ roundDiv (n * 128) (2 ^ Nat.log2 n) := le_roundDiv (Nat.two_pow_pos _) (by norm_cast; omega)
  have high : roundDiv (n * 128) (2 ^ Nat.log2 n) ≤ 256 := roundDiv_le (Nat.two_pow_pos _) (by norm_cast; omega)
  unfold bf16Sig
  omega

theorem rneK_abs_shift {n : Nat} (hn : n ≠ 0) (hs : Nat.log2 n ≤ 46) :
    rneK 0 ((Fr.abs ⟨(n : Int), 2 ^ 32⟩).shift (7 - ((Nat.log2 n : Int) - 32))) = bf16Sig n := by
  have pos : (bf16Sig n : Int) = roundDiv (n * 128) (2 ^ Nat.log2 n) := by
    have := bf16Sig_bounds hn
    unfold bf16Sig at *
    omega
  rw [pos]
  unfold rneK Fr.shift Fr.abs
  split
  · have scale : 2 ^ (7 - ((Nat.log2 n : Int) - 32)).toNat * 2 ^ Nat.log2 n = 128 * 2 ^ 32 := by
      rw [← Nat.pow_add, show (7 - ((Nat.log2 n : Int) - 32)).toNat + Nat.log2 n = 39 by omega]; rfl
    refine roundDiv_of_cross (by positivity) (by positivity) ?_
    simp only [Int.natAbs_natCast, pow_zero, Nat.cast_one, mul_one, mul_assoc]
    exact_mod_cast congrArg (n * ·) scale
  · have scale : 2 ^ Nat.log2 n = 128 * (2 ^ 32 * 2 ^ (-(7 - ((Nat.log2 n : Int) - 32))).toNat) := by
      rw [← Nat.mul_assoc, show 128 * 2 ^ 32 = 2 ^ 39 by rfl, ← Nat.pow_add]; congr 1; omega
    refine roundDiv_of_cross (by positivity) (by positivity) ?_
    simp only [Int.natAbs_natCast, pow_zero, Nat.cast_one, mul_one, mul_assoc]
    exact_mod_cast congrArg (n * ·) scale

/-- The sign, the exponent and the fraction of bf16 of a nonzero value below 2^15. -/
theorem bf16Round_q32 {x : Int} (hx : x ≠ 0) (h : x.natAbs < 2 ^ 47) :
    bf16Round ⟨x, 2 ^ 32⟩ = (if x < 0 then 0x8000 else 0) + ((Nat.log2 x.natAbs + 95) * 128 + (bf16Sig x.natAbs - 128)) := by
  have hn : x.natAbs ≠ 0 := by omega
  have small : Nat.log2 x.natAbs < 47 := (Nat.log2_lt hn).mpr h
  have bounds := bf16Sig_bounds hn
  have sig := rneK_abs_shift hn (by omega)
  have log : Fr.log2 (Fr.abs ⟨x, 2 ^ 32⟩) = (Nat.log2 x.natAbs : Int) - 32 := Fr.log2_two_pow (n := x.natAbs) (by omega) 32
  have zero : Fr.isZero ⟨x, 2 ^ 32⟩ = false := by simpa [Fr.isZero] using hx
  have abs : Fr.abs ⟨(x.natAbs : Int), 2 ^ 32⟩ = Fr.abs ⟨x, 2 ^ 32⟩ := rfl
  rw [abs] at sig
  simp only [bf16Round, zero, log, sig, Int.toNat_natCast]
  by_cases full : bf16Sig x.natAbs = 256
  · simp only [full, if_true, Bool.false_eq_true, if_false]
    rw [if_neg (by omega), if_neg (by omega)]
    omega
  · simp only [full, Bool.false_eq_true, if_false]
    rw [if_neg (by omega), if_neg (by omega)]
    omega

/-! ### bf16 and conditioned elements (R98) -/

theorem condition_fixes {b : Nat} (h : (condition b).1 = b) : b = 0 ∨ (0x3380 ≤ b % 0x8000 ∧ b % 0x8000 ≤ 0x46FF) := by
  dsimp only [condition] at h
  split_ifs at h <;> dsimp only at h <;> omega

/-- The magnitude, in units of 2^-32, of an element of exponent 102 or more. -/
abbrev bf16Mag (b : Nat) : Nat := (128 + b % 128) * 2 ^ (b % 0x8000 / 128 - 102)

/-- From exponent 102 on, the magnitude of an element is a whole number of units of 2^-32. -/
theorem Fr.shift_q32 (m : Nat) {e : Nat} (he : 102 ≤ e) :
    let mag := Fr.shift ⟨m, 1⟩ ((e : Int) - 134)
    0 < mag.den ∧ mag.num * (pow2 32 : Nat) = (m * 2 ^ (e - 102) : Nat) * mag.den := by
  unfold Fr.shift pow2
  split
  · have units : 2 ^ ((e : Int) - 134).toNat * 2 ^ 32 = 2 ^ (e - 102) := by rw [← Nat.pow_add]; congr 1; omega
    refine ⟨Nat.one_pos, ?_⟩
    rw [Nat.cast_one, mul_one, ← units]
    push_cast
    ring
  · have units : 2 ^ 32 = 2 ^ (e - 102) * 2 ^ (-((e : Int) - 134)).toNat := by rw [← Nat.pow_add]; congr 1; omega
    refine ⟨by positivity, ?_⟩
    rw [units]
    push_cast
    ring

theorem bf16Q32_eq {b : Nat} (he : 102 ≤ b % 0x8000 / 128) : bf16Q32 b = if bitOf b 15 then -(bf16Mag b : Int) else bf16Mag b := by
  have exp : bitsOf b 14 7 = b % 0x8000 / 128 := by
    show b >>> 7 % 256 = _
    rw [Nat.shiftRight_eq_div_pow]
    omega
  have frac : bitsOf b 6 0 = b % 128 := rfl
  obtain ⟨den, num⟩ := Fr.shift_q32 (128 + b % 128) he
  unfold bf16Q32 rneK bf16Val
  simp only [exp, frac, if_neg (show ¬b % 0x8000 / 128 = 0 by omega)]
  split
  · exact roundDiv_exact den (by rw [Fr.neg, neg_mul, neg_mul, num])
  · exact roundDiv_exact den num

theorem log2_bf16Mag (b : Nat) : Nat.log2 (bf16Mag b) = 7 + (b % 0x8000 / 128 - 102) := by
  have := Nat.two_pow_pos (b % 0x8000 / 128 - 102)
  rw [Nat.log2_eq_iff (by positivity), Nat.pow_add, Nat.add_right_comm, Nat.pow_add]
  constructor
  · exact Nat.mul_le_mul_right _ (by omega)
  · exact Nat.mul_lt_mul_of_pos_right (by omega) this

theorem bf16Sig_bf16Mag (b : Nat) : bf16Sig (bf16Mag b) = 128 + b % 128 := by
  have whole : roundDiv ((bf16Mag b : Int) * 128) (2 ^ (7 + (b % 0x8000 / 128 - 102))) = (128 + b % 128 : Nat) :=
    roundDiv_exact (Nat.two_pow_pos _) (by push_cast; ring)
  rw [bf16Sig, log2_bf16Mag, whole, Int.toNat_natCast]

/-- bf16 gives back what Q15.32 holds of a conditioned element. -/
theorem bf16Round_bf16Q32 {b : Nat} (hb : b < 2 ^ 16) (low : 0x3380 ≤ b % 0x8000) (high : b % 0x8000 ≤ 0x46FF) : bf16Round ⟨bf16Q32 b, 2 ^ 32⟩ = b := by
  have q := bf16Q32_eq (b := b) (by omega)
  have log := log2_bf16Mag b
  have sig := bf16Sig_bf16Mag b
  have pos : 0 < bf16Mag b := by positivity
  have bound : bf16Mag b < 2 ^ 47 := (Nat.log2_lt pos.ne').mp (by omega)
  have sign : bitOf b 15 = decide (0x8000 ≤ b) := by
    rw [bitOf, Nat.testBit_eq_decide_div_mod_eq, decide_eq_decide]
    omega
  have abs : (bf16Q32 b).natAbs = bf16Mag b := by rw [q]; split <;> omega
  rw [bf16Round_q32 (by omega) (by omega), abs, log, sig]
  simp only [sign, decide_eq_true_eq] at q
  split_ifs at q ⊢ <;> omega

/-! ### The obligation -/

/-- Settles O58: the bounds of leaves and merges above, a leaf of one position and its tree, and the fields of bf16 of a Q15.32 value. -/
theorem finalisationIsRule113 : Obligations.FinalisationIsRule113 := by
  unfold Obligations.FinalisationIsRule113
  refine ⟨fun p h => if_pos h, fun p h => ?_, fun bound d scored flagged h => leafOf_o_bounded fun x hx => (h x hx).2, fun bound a b => merge_o_bounded,
    fun x hx h => ?_, fun d x clamped flagged v hd => ⟨leafOf_one_l, fun hl => ?_⟩, fun b hb h => ?_⟩
  · rw [finalise, h]; rfl
  · have bounds := bf16Sig_bounds (n := x.natAbs) (by omega)
    have small : Nat.log2 x.natAbs < 47 := (Nat.log2_lt (by omega)).mpr h
    rw [bf16Round_q32 hx h]
    split <;> omega
  · have o := leafOf_one_o (clamped := clamped) (flagged := flagged) hd (leafOf_one_l ▸ hl)
    refine ⟨o, fun hm t k => ?_⟩
    have node := treeNode_single (t := t) rfl hm hl k
    rw [o, hd] at node
    exact ⟨node, by rw [node, finalise, o]; rfl⟩
  · rcases condition_fixes h with rfl | ⟨low, high⟩
    · decide
    · exact bf16Round_bf16Q32 hb low high

end Sys2Proof.Machine
end

section
/-!
The walker's tables in memory: fields of a list of bytes, the sequence table and its mirror, layer tables and page-table entries (R138–R141).
-/

namespace Sys2Proof.Machine

open Sys2Proof

/-! ### Fields of a list of bytes (R7) -/

@[simp] theorem length_leBytes (n v : Nat) : (leBytes n v).length = n := by
  induction n generalizing v with
  | zero => rfl
  | succ n ih => simp [leBytes, ih]

theorem leNat_leBytes (n v : Nat) : leNat (leBytes n v) = v % 256 ^ n := by
  induction n generalizing v with
  | zero => simp [leBytes, leNat, Nat.mod_one]
  | succ n ih =>
    show v % 256 + 256 * leNat (leBytes n (v / 256)) = _
    rw [ih, Nat.pow_succ', Nat.mod_mul]

/-- A field that begins past the first of two parts lies in the second. -/
theorem field_append_right {bs : List Byte} {off : Nat} (h : bs.length ≤ off) (ys : List Byte) (n : Nat) :
    field (bs ++ ys) off n = field ys (off - bs.length) n := by
  rw [field, slice, List.drop_append, List.drop_eq_nil_of_le h, List.nil_append]
  rfl

theorem field_skip {bs : List Byte} {m : Nat} (h : bs.length = m) (ys : List Byte) (off n : Nat) : field (bs ++ ys) (m + off) n = field ys off n := by
  rw [field_append_right (by omega), h, Nat.add_sub_cancel_left]

/-- The field at the head of a list is the number written there. -/
theorem field_leBytes_append (n v : Nat) (ys : List Byte) : field (leBytes n v ++ ys) 0 n = v % 256 ^ n := by
  have taken : (leBytes n v ++ ys).take n = leBytes n v := by
    rw [List.take_append_of_le_length (length_leBytes n v).ge, List.take_of_length_le (length_leBytes n v).le]
  rw [field, slice, List.drop_zero, taken, length_leBytes, Nat.sub_self, List.replicate_zero, List.append_nil, leNat_leBytes]

/-- Words in a row: each is the field at its place. -/
theorem field_words {ws : List Nat} {j : Nat} (h : j < ws.length) (ys : List Byte) : field (ws.flatMap (leBytes 4) ++ ys) (4 * j) 4 = ws.getD j 0 % 2 ^ 32 := by
  induction ws generalizing j with
  | nil => exact absurd h (Nat.not_lt_zero j)
  | cons w ws ih =>
    rw [List.flatMap_cons, List.append_assoc]
    cases j with
    | zero => exact field_leBytes_append 4 w _
    | succ j =>
      rw [field_append_right (by rw [length_leBytes]; omega), length_leBytes, Nat.mul_succ, Nat.add_sub_cancel]
      exact ih (Nat.lt_of_succ_lt_succ h)

theorem length_words (ws : List Nat) : (ws.flatMap (leBytes 4)).length = 4 * ws.length := by
  simp [List.length_flatMap, Nat.mul_comm]

theorem length_padTo {n : Nat} {bs : List Byte} (h : bs.length ≤ n) : (padTo n bs).length = n := by
  simp [padTo, h]

theorem getD_padTo (n : Nat) (bs : List Byte) (i : Nat) : (padTo n bs).getD i 0 = bs.getD i 0 := by
  rcases Nat.lt_or_ge i bs.length with lt | ge
  · simp [padTo, List.getElem?_append_left lt]
  · simp [padTo, List.getElem?_append_right ge, List.getElem?_replicate, List.getElem?_eq_none ge]
    split <;> rfl

/-! ### The sequence table (R138, R139) -/

/-- A record's place in the table: its bucket and slot, and the byte within them. -/
theorem seqTable_offsets (b : Nat) {i k : Nat} (hi : i < 4) (hk : k < 64) :
    (256 * b + 64 * i + k) / 256 = b ∧ (256 * b + 64 * i + k) / 64 % 4 = i ∧ (256 * b + 64 * i + k) % 64 = k := by omega

section
variable {s : State} {b i k : Nat} (mirror : Bool) (hi : i < 4) (hk : k < 64)
include hi hk

/-- A byte of the record that alone has its place. -/
theorem State.seqTableByte_record {r : SeqRec} (hr : r ∈ s.pgw.seqs) (ht : r.tenant < 4096) (hb : r.bucket = b) (hs : r.slot = i)
    (alone : ∀ q ∈ s.pgw.seqs, q.tenant < 4096 → q.bucket = b → q.slot = i → q = r) :
    s.seqTableByte mirror (256 * b + 64 * i + k) = (s.seqBytes r mirror).getD k 0 := by
  obtain ⟨bucket, slot, byte⟩ := seqTable_offsets b hi hk
  have found : s.pgw.seqs.find? (fun q => q.bucket == b && q.slot == i && decide (q.tenant < 4096)) = some r := by
    cases h : s.pgw.seqs.find? (fun q => q.bucket == b && q.slot == i && decide (q.tenant < 4096)) with
    | none => exact absurd (List.find?_eq_none.mp h r hr) (by simp [hb, hs, ht])
    | some q =>
      have here := List.find?_some h
      simp only [Bool.and_eq_true, beq_iff_eq, decide_eq_true_eq] at here
      obtain ⟨⟨qb, qs⟩, qt⟩ := here
      rw [alone q (List.mem_of_find?_eq_some h) qt qb qs]
  rw [State.seqTableByte, bucket, slot, byte, found]

/-- A slot with no record is zero. -/
theorem State.seqTableByte_empty (none : ∀ q ∈ s.pgw.seqs, q.bucket = b → q.slot = i → 4096 ≤ q.tenant) :
    s.seqTableByte mirror (256 * b + 64 * i + k) = 0 := by
  obtain ⟨bucket, slot, byte⟩ := seqTable_offsets b hi hk
  have absent : s.pgw.seqs.find? (fun q => q.bucket == b && q.slot == i && decide (q.tenant < 4096)) = Option.none := by
    rw [List.find?_eq_none]
    intro q hq here
    simp only [Bool.and_eq_true, beq_iff_eq, decide_eq_true_eq] at here
    obtain ⟨⟨qb, qs⟩, qt⟩ := here
    exact absurd (none q hq qb qs) (by omega)
  rw [State.seqTableByte, bucket, slot, byte, absent]

end

/-- The size of the sequence table in bytes. -/
abbrev State.seqTableSize (s : State) : Nat := 256 * 2 ^ s.fld Reg.pgwSeqCfg 4 0

/-- A bucket that begins in the table lies in it. -/
theorem State.bucket_in_table {s : State} {b i k : Nat} (hb : 256 * b < s.seqTableSize) (hi : i < 4) (hk : k < 64) :
    256 * b + 64 * i + k < s.seqTableSize := by
  unfold State.seqTableSize at *
  omega

section
variable {s : State} {off : Nat} (serial : Nat) (inside : off < s.seqTableSize)
include inside

theorem State.readFlat_seqTable (free : s.extentAt (s.live64 Reg.pgwSeqBase + off) = none) :
    s.readFlat serial (s.live64 Reg.pgwSeqBase + off) = s.seqTableByte false off := by
  have kept : s.nodeByte (s.live64 Reg.pgwSeqBase + off) = some (s.seqTableByte false off) := by
    rw [State.nodeByte, if_pos ⟨Nat.le_add_right .., Nat.add_lt_add_left inside _⟩, Nat.add_sub_cancel_left]
  rw [State.readFlat, free, kept]

theorem State.readFlat_seqMirror (free : s.extentAt (s.live64 Reg.pgwMirrorBase + off) = none)
    (apart : s.live64 Reg.pgwSeqBase + s.seqTableSize ≤ s.live64 Reg.pgwMirrorBase ∨ s.live64 Reg.pgwMirrorBase + s.seqTableSize ≤ s.live64 Reg.pgwSeqBase) :
    s.readFlat serial (s.live64 Reg.pgwMirrorBase + off) = s.seqTableByte true off := by
  have beside : ¬(s.live64 Reg.pgwSeqBase ≤ s.live64 Reg.pgwMirrorBase + off ∧ s.live64 Reg.pgwMirrorBase + off < s.live64 Reg.pgwSeqBase + s.seqTableSize) := by omega
  have kept : s.nodeByte (s.live64 Reg.pgwMirrorBase + off) = some (s.seqTableByte true off) := by
    rw [State.nodeByte, if_neg beside, if_pos ⟨Nat.le_add_right .., Nat.add_lt_add_left inside _⟩, Nat.add_sub_cancel_left]
  rw [State.readFlat, free, kept]

end

/-! ### The sequence record (Table 5.8) -/

/-- The fields of a sequence record, before its padding. -/
def State.seqFields (s : State) (r : SeqRec) (mirror : Bool) : List Byte :=
  leBytes 8 r.sid ++ (leBytes 2 r.tenant ++ (leBytes 1 r.cls ++ (leBytes 1 (1 + 2 * b2n r.home + 4 * b2n r.shadowed + 8 * b2n r.gather) ++
    (leBytes 4 r.shape ++ (leBytes 4 (s.ptr (.layers r.tenant r.sid) mirror) ++ (leBytes 2 r.homeNode ++ leBytes 2 (s.lostSpans r)))))))

theorem State.seqBytes_eq (s : State) (r : SeqRec) (mirror : Bool) : s.seqBytes r mirror = padTo 64 (s.seqFields r mirror) := by
  simp only [State.seqBytes, State.seqFields, List.append_assoc]

theorem State.length_seqFields (s : State) (r : SeqRec) (mirror : Bool) : (s.seqFields r mirror).length = 24 := by
  simp [State.seqFields]

theorem b2n_le_one (b : Bool) : b2n b ≤ 1 := by cases b <;> decide

theorem State.seqBytes_fields (s : State) (r : SeqRec) (mirror : Bool) :
    let x := s.seqBytes r mirror
    field x 0 8 = r.sid % 2 ^ 64 ∧ field x 8 2 = r.tenant % 2 ^ 16 ∧ field x 10 1 = r.cls % 256 ∧
    field x 11 1 = 1 + 2 * b2n r.home + 4 * b2n r.shadowed + 8 * b2n r.gather ∧ field x 12 4 = r.shape % 2 ^ 32 ∧
    field x 16 4 = s.ptr (.layers r.tenant r.sid) mirror % 2 ^ 32 ∧ field x 20 2 = r.homeNode % 2 ^ 16 ∧ field x 22 2 = s.lostSpans r % 2 ^ 16 := by
  have home := b2n_le_one r.home
  have shadowed := b2n_le_one r.shadowed
  have gather := b2n_le_one r.gather
  have flags : (1 + 2 * b2n r.home + 4 * b2n r.shadowed + 8 * b2n r.gather) % 256 = 1 + 2 * b2n r.home + 4 * b2n r.shadowed + 8 * b2n r.gather := by omega
  simp [State.seqBytes_eq, State.seqFields, padTo, List.append_assoc, field_append_right, field_leBytes_append, flags]

/-! ### Layer tables (R140) -/

theorem Shape.stride_spec {sh : Shape} (low : 1 ≤ sh.heads) (high : sh.heads ≤ 16) :
    (∃ e, sh.stride = 2 ^ e) ∧ 64 * (1 + sh.heads) ≤ sh.stride ∧ ∀ e, 64 * (1 + sh.heads) ≤ 2 ^ e → sh.stride ≤ 2 ^ e := by
  have tight : ∀ h < 17, 1 ≤ h → ∃ k < 11, ([128, 256, 512, 1024, 2048].find? (fun x => decide (64 * (1 + h) ≤ x))).getD 2048 = 2 ^ (k + 1) ∧
      2 ^ k < 64 * (1 + h) ∧ 64 * (1 + h) ≤ 2 ^ (k + 1) := by decide
  obtain ⟨k, -, stride, above, fits⟩ := tight sh.heads (by omega) low
  rw [Shape.stride, stride]
  exact ⟨⟨k + 1, rfl⟩, fits, fun e he => Nat.pow_le_pow_right (by decide) ((Nat.pow_lt_pow_iff_right (by decide)).mp (Nat.lt_of_lt_of_le above he))⟩

/-- Past a descriptor's header and head entries the layer table is zero. -/
theorem State.layerTableByte_between {s : State} {r : SeqRec} {mirror : Bool} {off : Nat} (past : 64 * (1 + r.sh.heads) ≤ off % r.sh.stride) :
    s.layerTableByte r mirror off = 0 := by
  rw [State.layerTableByte, if_neg (show ¬off % r.sh.stride < 64 by omega), if_neg (show ¬off % r.sh.stride / 64 ≤ r.sh.heads by omega), ite_self]

/-! ### Page-table entries (Table 5.9, R141) -/

/-- The control word of an entry. -/
def Pte.control (p : Pte) : Nat := p.state.code + 8 * p.kind.code + 64 * b2n p.moving + 128 * b2n p.lost + 256 * p.rebuilt

theorem decide_b2n (b : Bool) : decide (b2n b = 1) = b := by cases b <;> decide

theorem PageState.code_lt (st : PageState) : st.code < 8 := by cases st <;> decide

theorem LocKind.code_lt (k : LocKind) : k.code < 8 := by cases k <;> decide

theorem Pte.control_fields {p : Pte} (h : p.rebuilt ≤ 256) :
    p.control < 2 ^ 32 ∧ bitsOf p.control 2 0 = p.state.code ∧ bitsOf p.control 5 3 = p.kind.code ∧ bitOf p.control 6 = p.moving ∧ bitOf p.control 7 = p.lost ∧
    bitsOf p.control 16 8 = p.rebuilt ∧ bitsOf p.control 31 17 = 0 := by
  have state := p.state.code_lt
  have kind := p.kind.code_lt
  have moving := b2n_le_one p.moving
  have lost := b2n_le_one p.lost
  simp only [bitsOf_eq_div_mod, bitOf, Nat.testBit_eq_decide_div_mod_eq, Pte.control]
  refine ⟨by omega, by omega, by omega, ?_, ?_, by omega, by omega⟩
  · exact (congrArg (fun n => decide (n = 1)) (by omega)).trans (decide_b2n p.moving)
  · exact (congrArg (fun n => decide (n = 1)) (by omega)).trans (decide_b2n p.lost)

theorem Pte.length_locBytes {p : Pte} (h : p.locs.length ≤ 4) : p.locBytes.length = 16 := by
  refine length_padTo ?_
  split
  · simp
  · split
    case h_1 => rw [length_words]; omega
    all_goals simp

/-- The location words of a page in tier 0, then zeros. -/
theorem Pte.locBytes_tier0 {p : Pte} (hs : p.state ≠ .tombstone) (hk : p.kind = .tier0) :
    p.locBytes = p.locs.flatMap (leBytes 4) ++ List.replicate (16 - (p.locs.flatMap (leBytes 4)).length) 0 := by
  rw [Pte.locBytes, if_neg hs, hk]
  rfl

/-- The check words of one of a page's parts. -/
def checkWords (l : List Nat) : List Nat := (List.range 4).map (fun j => l.getD j 0)

theorem checkWords_getD (l : List Nat) {j : Nat} (h : j < 4) : (checkWords l).getD j 0 = l.getD j 0 := by
  simp [checkWords, h]

theorem State.pteBytes_eq (s : State) (sh : Shape) (l h : Nat) {p : Pte} (mirror : Bool) (hs : p.state ≠ .tombstone) :
    ∃ aux, s.pteBytes sh l h p mirror = leBytes 4 p.control ++ (leBytes 4 aux ++ (p.locBytes ++ (leBytes 4 ((p.shadow.map Prod.fst).getD 0xFFFFFFFF) ++
      (leBytes 4 0 ++ ((checkWords p.checkK).flatMap (leBytes 4) ++ ((checkWords p.checkV).flatMap (leBytes 4) ++ [])))))) := by
  simp only [State.pteBytes, if_neg hs, Pte.control, checkWords, List.flatMap_map, List.append_assoc, List.append_nil]
  exact ⟨_, rfl⟩

section
variable (s : State) (sh : Shape) (l h : Nat) {p : Pte} (mirror : Bool) (few : p.locs.length ≤ 4) (hs : p.state ≠ .tombstone)
include few hs

theorem State.pteBytes_fields :
    let x := s.pteBytes sh l h p mirror
    x.length = 64 ∧ field x 0 4 = p.control % 2 ^ 32 ∧ (p.kind = .tier0 → ∀ j, j < p.locs.length → field x (8 + 4 * j) 4 = p.locs.getD j 0 % 2 ^ 32) ∧
    field x 24 4 = (p.shadow.map Prod.fst).getD 0xFFFFFFFF % 2 ^ 32 ∧
    ∀ j, j < 4 → field x (32 + 4 * j) 4 = p.checkK.getD j 0 % 2 ^ 32 ∧ field x (48 + 4 * j) 4 = p.checkV.getD j 0 % 2 ^ 32 := by
  obtain ⟨aux, eq⟩ := s.pteBytes_eq sh l h mirror hs
  have locs := Pte.length_locBytes few
  have checks (l : List Nat) : (checkWords l).length = 4 := by simp [checkWords]
  simp only [eq]
  refine ⟨by simp [locs, checks], field_leBytes_append 4 _ _, fun hk j hj => ?_, by simp [field_append_right, field_leBytes_append, locs], fun j hj => ⟨?_, ?_⟩⟩
  · rw [show 8 + 4 * j = 4 + (4 + 4 * j) by omega, field_skip (length_leBytes ..), field_skip (length_leBytes ..), Pte.locBytes_tier0 hs hk, List.append_assoc,
      field_words hj]
  · rw [show 32 + 4 * j = 4 + (4 + (16 + (4 + (4 + 4 * j)))) by omega, field_skip (length_leBytes ..), field_skip (length_leBytes ..), field_skip locs,
      field_skip (length_leBytes ..), field_skip (length_leBytes ..), field_words (by rwa [checks]), checkWords_getD _ hj]
  · rw [show 48 + 4 * j = 4 + (4 + (16 + (4 + (4 + (16 + 4 * j))))) by omega, field_skip (length_leBytes ..), field_skip (length_leBytes ..), field_skip locs,
      field_skip (length_leBytes ..), field_skip (length_leBytes ..), field_skip ((length_words _).trans (congrArg _ (checks _))), field_words (by rwa [checks]),
      checkWords_getD _ hj]

end

/-! ### The obligation -/

/-- Settles O59: what stands at an address of the sequence table and of its mirror, the fields of a record and of an entry, and the stride. -/
theorem tablesStandInMemoryAsLaidOut : Obligations.TablesStandInMemoryAsLaidOut := by
  unfold Obligations.TablesStandInMemoryAsLaidOut
  refine ⟨fun s serial k hk => ⟨fun r hr ht hb hi alone => ⟨fun free => ?_, fun apart free => ?_⟩, fun b i hb hi none free => ?_⟩,
    fun s r mirror => ?_, fun s r mirror off low high => ?_, fun s sh l h p mirror few rebuilt hs => ?_⟩
  · rw [State.readFlat_seqTable serial (State.bucket_in_table hb hi hk) free, State.seqTableByte_record false hi hk hr ht rfl rfl alone]
  · rw [State.readFlat_seqMirror serial (State.bucket_in_table hb hi hk) free apart, State.seqTableByte_record true hi hk hr ht rfl rfl alone]
  · rw [State.readFlat_seqTable serial (State.bucket_in_table hb hi hk) free, State.seqTableByte_empty false hi hk none]
  · have fields := s.length_seqFields r mirror
    obtain ⟨sid, tenant, cls, flags, shape, layers, home, lost⟩ := s.seqBytes_fields r mirror
    refine ⟨?_, sid, tenant, cls, flags, shape, layers, home, lost, fun i hi => ?_⟩
    · rw [State.seqBytes_eq, length_padTo (by omega)]
    · rw [State.seqBytes_eq, getD_padTo, List.getD_eq_default _ _ (by omega)]
  · obtain ⟨power, fits, least⟩ := Shape.stride_spec low high
    exact ⟨power, fits, least, State.layerTableByte_between⟩
  · obtain ⟨length, control, locs, shadow, checks⟩ := s.pteBytes_fields sh l h mirror few hs
    obtain ⟨small, state, kind, moving, lost, rebuiltField, zero⟩ := Pte.control_fields rebuilt
    rw [Nat.mod_eq_of_lt small] at control
    intro x ctl
    rw [show ctl = p.control from control]
    exact ⟨length, state, kind, moving, lost, rebuiltField, zero, locs, shadow, checks⟩

end Sys2Proof.Machine
end

section
/-!
What a request that takes effect leaves standing: an event of MEM_EVENT once recorded, and of poisoned tiles what still holds of any part of their list (R196, R216, R392).
-/

namespace Sys2Proof.Machine

open Sys2Proof

set_option Elab.async false

/-- An event of MEM_EVENT stands recorded, and the list of poisoned tiles has a property that its parts have too. -/
structure Noted (i : Nat) (q : List (TileKey × (Nat × Bool)) → Prop) (s : State) : Prop where
  wf : s.liveWf
  low : i < 24
  event : s.bit Reg.memEvent i = true
  poison : q s.mem.poison
  parts : ∀ f l, q l → q (l.filter f)

namespace Noted

variable {i : Nat} {q : List (TileKey × (Nat × Bool)) → Prop} {s t : State}

/-! ### Register values and the list -/

theorem of_eq (h : Noted i q s) (live : t.regs.live = s.regs.live := by rfl) (poison : t.mem.poison = s.mem.poison := by rfl) : Noted i q t :=
  ⟨State.liveWf_of_live h.wf live, h.low, ((SameRegsBut.of_live (as := []) live).bit (by decide) i).trans h.event, poison ▸ h.poison, h.parts⟩

/-- The parts of the state other than live register values and the tiers. -/
abbrev quiet : List Blk :=
  [.now, .staged, .run, .pend, .parity, .written, .time, .pgw, .sch, .que, .vsp, .prog, .mat, .lnk, .map, .hlt, .sec, .hst, .sys, .sum, .outbox, .freeCtr]

theorem within_quiet : Within quiet quiet := Within.refl _

theorem calm (h : Noted i q s) (g : Keeps quiet s t) : Noted i q t :=
  h.of_eq (g.same .live (by decide)) (congrArg MemSt.poison (g.same .mem (by decide)))

theorem of_sameRegs (h : Noted i q s) {as : List Nat} (ha : Reg.memEvent ∉ as) (wf : t.liveWf) (same : SameRegsBut as s t) (mem : t.mem = s.mem) : Noted i q t :=
  ⟨wf, h.low, (same.bit ha i).trans h.event, (congrArg MemSt.poison mem).symm ▸ h.poison, h.parts⟩

theorem raiseBit (h : Noted i q s) {a j : Nat} (hj : j < 24 := by decide) : Noted i q (s.raiseBit a j) := by
  refine ⟨State.raise_liveWf h.wf _ _, h.low, ?_, (congrArg (q ·.mem.poison) (s.raiseBit_signals a j)).mpr h.poison, h.parts⟩
  by_cases here : a = Reg.memEvent
  · rw [here, State.bit_raiseBit h.wf _ hj h.low, h.event, Bool.true_or]
  · exact ((State.raiseBit_sameRegs h.wf a j).bit (by simpa using Ne.symm here) i).trans h.event

theorem setStatus (h : Noted i q s) {a hi lo v : Nat} (ha : Reg.memEvent ≠ a := by decide) : Noted i q (s.setStatus a hi lo v) :=
  h.of_sameRegs (fun m => ha (List.mem_singleton.mp m)) (State.putStatus_liveWf h.wf _ _) (State.setStatus_sameRegs h.wf a hi lo v) (State.setStatus_mem ..)

theorem foldl {α : Type} {f : State → α → State} {l : List α} (h : Noted i q s) (hf : ∀ s a, Noted i q s → Noted i q (f s a)) : Noted i q (l.foldl f s) := by
  induction l generalizing s with
  | nil => exact h
  | cons a l ih => exact ih (hf s a h)

theorem foldl_fst {α β : Type} {f : State × β → α → State × β} {l : List α} {p : State × β} (h : Noted i q p.1) (hf : ∀ p a, Noted i q p.1 → Noted i q (f p a).1) :
    Noted i q (l.foldl f p).1 := by
  induction l generalizing p with
  | nil => exact h
  | cons a l ih => exact ih (hf p a h)

theorem foldl_option {α : Type} {f : Option State → α → Option State} {l : List α} {o : Option State} (h : ∀ t, o = some t → Noted i q t)
    (hf : ∀ o a, (∀ t, o = some t → Noted i q t) → ∀ t, f o a = some t → Noted i q t) {t : State} (e : l.foldl f o = some t) : Noted i q t := by
  induction l generalizing o with
  | nil => exact h t e
  | cons a l ih => exact ih (hf o a h) e

theorem getD {o : Option State} (h : Noted i q s) (ho : ∀ t, o = some t → Noted i q t) : Noted i q (o.getD s) := by
  cases o with
  | none => exact h
  | some t => exact ho t rfl

/-! ### Operations that change neither -/

theorem bump (h : Noted i q s) {a n : Nat} : Noted i q (s.bump a n) := h.of_eq
theorem fresh (h : Noted i q s) : Noted i q s.fresh.2 := h.of_eq
theorem enter (h : Noted i q s) : Noted i q s.enter.2 := h.of_eq
theorem hostWrite (h : Noted i q s) {f a : Nat} {b : List Byte} : Noted i q (s.hostWrite f a b) := h.calm (State.hostWrite_keeps (within_quiet.sub rfl) _ _ _ (.refl _))
theorem hostRead (h : Noted i q s) {f a n : Nat} {k : HostRead} {t : State} (e : s.hostRead f a n k = some t) : Noted i q t :=
  h.calm (keeps_of_some e (State.hostRead_keeps (within_quiet.sub rfl) _ _ _ _ (.refl _)))
theorem settlePlaces (h : Noted i q s) : Noted i q s.settlePlaces := h.calm (State.settlePlaces_keeps (within_quiet.sub rfl) (.refl _))
theorem swapTails (h : Noted i q s) {t d l : Nat} : Noted i q (s.swapTails t d l) := h.calm (State.swapTails_keeps (within_quiet.sub rfl) _ _ _ (.refl _))
theorem putSeq (h : Noted i q s) {r : SeqRec} : Noted i q (s.putSeq r) := h.calm (State.putSeq_keeps (within_quiet.sub rfl) _ (.refl _))
theorem delSeq (h : Noted i q s) {t d : Nat} : Noted i q (s.delSeq t d) := h.calm (State.delSeq_keeps (within_quiet.sub rfl) _ _ (.refl _))
theorem invalidate (h : Noted i q s) {p : PageRef} : Noted i q (s.invalidate p) := h.of_eq
theorem setPageAt (h : Noted i q s) {p : PageRef} {e : Pte} : Noted i q (s.setPageAt p e) := h.calm (State.setPageAt_keeps (within_quiet.sub rfl) _ _ (.refl _))
theorem countSeq (h : Noted i q s) : Noted i q s.countSeq := h.calm (State.countSeq_keeps (within_quiet.sub rfl) (.refl _))
theorem useSpares (h : Noted i q s) {m n : Nat} : Noted i q (s.useSpares m n) := h.calm (State.useSpares_keeps (within_quiet.sub rfl) _ _ (.refl _))
theorem discardProv (h : Noted i q s) {r : SeqRec} {l : Nat} : Noted i q (s.discardProv r l) := h.calm (State.discardProv_keeps (within_quiet.sub rfl) _ _ (.refl _))
theorem dropPositions (h : Noted i q s) {p : PageRef} : Noted i q (s.dropPositions p) := h.calm (State.dropPositions_keeps (within_quiet.sub rfl) _ (.refl _))
theorem fixCell (h : Noted i q s) {n : Nat} : Noted i q (s.fixCell n) := h.calm (State.fixCell_keeps (within_quiet.sub rfl) _ (.refl _))
theorem keyAttach (h : Noted i q s) {t n k g : Nat} : Noted i q (s.keyAttach t n k g) := h.calm (State.keyAttach_keeps (within_quiet.sub rfl) _ _ _ _ (.refl _))
theorem mapRun (h : Noted i q s) {rid : Nat} {f : Run → Run} : Noted i q (s.mapRun rid f) := h.of_eq
theorem enqueue (h : Noted i q s) {n : Nat} {here : Bool} {p : Packet} : Noted i q (s.enqueue n here p) := h.calm (State.enqueue_keeps (within_quiet.sub rfl) _ _ _ (.refl _))
theorem putQp (h : Noted i q s) {k : Nat} {p : Qp} : Noted i q (s.putQp k p) := h.of_eq
theorem touchQp (h : Noted i q s) {k : Nat} : Noted i q (s.touchQp k) := h.calm (State.touchQp_keeps (within_quiet.sub rfl) _ (.refl _))
theorem startEvict (h : Noted i q s) : Noted i q s.startEvict := h.calm (State.startEvict_keeps (within_quiet.sub rfl) (.refl _))
theorem readPage (h : Noted i q s) {p : PageRef} {l : List Nat} : Noted i q (s.readPage p l) := h.calm (State.readPage_keeps (within_quiet.sub rfl) _ _ (.refl _))
theorem askHolder (h : Noted i q s) {p : PageRef} : Noted i q (s.askHolder p) := h.calm (State.askHolder_keeps (within_quiet.sub rfl) _ (.refl _))
theorem reply (h : Noted i q s) {x : Reply} : Noted i q (s.reply x) := h.calm (State.reply_keeps (within_quiet.sub rfl) _ (.refl _))
theorem answer (h : Noted i q s) {r : Req} {a b c : Nat} : Noted i q (s.answer r a b c) := h.calm (State.answer_keeps (within_quiet.sub rfl) _ _ _ _ (.refl _))
theorem stallTicks (h : Noted i q s) {t : Nat} {c : Stall} {n : Nat} : Noted i q (s.stallTicks t c n) := h.calm (State.stallTicks_keeps (within_quiet.sub rfl) _ _ _ (.refl _))
theorem stall (h : Noted i q s) {r : Nat} {c : Stall} : Noted i q (s.stall r c) := h.calm (State.stall_keeps (within_quiet.sub rfl) _ _ (.refl _))
theorem endProgram (h : Noted i q s) {r : Nat} : Noted i q (s.endProgram r) := h.calm (State.endProgram_keeps (within_quiet.sub rfl) _ (.refl _))
theorem endVerify (h : Noted i q s) {r : Nat} {m : List Byte} {b : Bool} : Noted i q (s.endVerify r m b) := h.calm (State.endVerify_keeps (within_quiet.sub rfl) _ _ _ (.refl _))
theorem countClamps (h : Noted i q s) {r : Run} : Noted i q (s.countClamps r) := h.calm (State.countClamps_keeps (within_quiet.sub rfl) _ (.refl _))
theorem keepReads (h : Noted i q s) {r : Run} : Noted i q (s.keepReads r) := h.calm (State.keepReads_keeps (within_quiet.sub rfl) _ (.refl _))
theorem walk (h : Noted i q s) {r : Req} {l n : Nat} {sp : Nat × Nat} : Noted i q (s.walk r l n sp) := h.calm (State.walk_keeps (within_quiet.sub rfl) _ _ _ _ (.refl _))
theorem sendLeaves (h : Noted i q s) {r : Req} {l : List Job} : Noted i q (s.sendLeaves r l) := h.calm (State.sendLeaves_keeps (within_quiet.sub rfl) _ _ (.refl _))
theorem cannot (h : Noted i q s) {r : Req} {x : Option SeqRec} {l : List Cand} {g : Option Nat} {n : Nat} : Noted i q (s.cannot r x l g n) :=
  h.calm (State.cannot_keeps (within_quiet.sub rfl) _ _ _ _ _ (.refl _))
theorem startProgram (h : Noted i q s) {r : Req} : Noted i q (s.startProgram r) := h.calm (State.startProgram_keeps (within_quiet.sub rfl) _ (.refl _))
theorem waitRun (h : Noted i q s) {r : Req} {l : List Nat} : Noted i q (s.waitRun r l) := h.calm (State.waitRun_keeps (within_quiet.sub rfl) _ _ (.refl _))
theorem waitTable (h : Noted i q s) {r : Req} {x : Option Turn × Option Turn} {n : List TileKey} {p : List Byte} {o : List (List Byte)} : Noted i q (s.waitTable r x n p o) :=
  h.calm (State.waitTable_keeps (within_quiet.sub rfl) _ _ _ _ _ (.refl _))
theorem conditioned (h : Noted i q s) {r : Req} {c : Conds} : Noted i q (s.conditioned r c) := h.calm (State.conditioned_keeps (within_quiet.sub rfl) _ _ (.refl _))
theorem waitSpares (h : Noted i q s) {r : Req} {x : Option Turn × Option Turn} : Noted i q (s.waitSpares r x) := h.calm (State.waitSpares_keeps (within_quiet.sub rfl) _ _ (.refl _))
theorem notCreated (h : Noted i q s) {r : Req} {n : List TileKey} : Noted i q (s.notCreated r n) := h.calm (State.notCreated_keeps (within_quiet.sub rfl) _ _ (.refl _))
theorem startUnpublish (h : Noted i q s) {r : Req} {x : SeqRec} : Noted i q (s.startUnpublish r x) := h.calm (State.startUnpublish_keeps (within_quiet.sub rfl) _ _ (.refl _))
theorem startAttest (h : Noted i q s) {r : Req} : Noted i q (s.startAttest r) := h.calm (State.startAttest_keeps (within_quiet.sub rfl) _ (.refl _))

/-! ### Packets out (R256, R271, R275, R279) -/

theorem unroutable (h : Noted i q s) : Noted i q s.unroutable := h.bump.raiseBit

theorem routeOut (h : Noted i q s) {inLink : Option Nat} {x : Hop × Packet} : Noted i q (s.routeOut inLink x) := by
  unfold State.routeOut
  split
  · split
    · split
      · exact h.enqueue
      · exact h.of_eq
    · exact h.unroutable
  · split
    · exact h.enqueue
    · exact h.of_eq
  · exact h

theorem routePacket (h : Noted i q s) {inLink : Option Nat} {p : Packet} : Noted i q (s.routePacket inLink p) := by
  unfold State.routePacket
  split
  · split
    · exact h
    · exact h.of_eq
  · exact h.unroutable
  · split
    · exact h.routeOut
    · exact h

theorem sendTransport (h : Noted i q s) {cls dst dqp tkind psn tflags part hint sqp : Nat} {msg : List Byte} :
    Noted i q (s.sendTransport cls dst dqp tkind psn tflags part hint sqp msg) := h.routePacket

theorem sendNotReady (h : Noted i q s) {arr : Arrival} {hint : Nat} {carries : Bool} : Noted i q (s.sendNotReady arr hint carries) := by
  unfold State.sendNotReady
  extract_lets _ u
  have named : Noted i q u := by
    unfold u
    split
    · exact h.of_eq
    · exact h
  exact named.bump.sendTransport

theorem unreachable (h : Noted i q s) {k : Nat} : Noted i q (s.unreachable k) := by
  unfold State.unreachable
  dsimp only
  exact foldl (raiseBit (setStatus h.of_eq)) fun _ _ g => g.sendNotReady

theorem startFetch (h : Noted i q s) {k : Nat} : Noted i q (s.startFetch k) := by
  unfold State.startFetch
  split
  · exact h
  · split
    · exact h.unreachable
    · split
      · exact h.unreachable.of_eq
      · dsimp only
        split
        · exact h.of_eq.startEvict
        · split
          · rename_i read
            exact (h.hostRead read).of_eq
          · exact h.of_eq

theorem sendMessage (h : Noted i q s) {k cls tkind : Nat} {urgent : Bool} {msg : List Byte} {op : Nat} : Noted i q (s.sendMessage k cls tkind urgent msg op) := by
  unfold State.sendMessage
  split
  · exact h
  · exact h.putQp.sendTransport

theorem systemQp (h : Noted i q s) {peer : Nat} : Noted i q (s.systemQp peer).2 := by
  unfold State.systemQp
  split
  · exact h
  · extract_lets _ _ _ _ _ _ _ u
    have drawn : Noted i q u := h.of_eq
    clear_value u
    split
    · exact setStatus drawn.of_eq
    · dsimp only
      exact hostWrite drawn.of_eq

theorem sendLater (h : Noted i q s) {k : Nat} : Noted i q (s.sendLater k) := by
  refine h.foldl fun u _ g => ?_
  split
  · exact sendMessage (touchQp g.of_eq)
  · exact g

theorem nodeOp (h : Noted i q s) {peer : Nat} {msg : List Byte} {kind : OpKind} {cls : Nat} {urgent : Bool} : Noted i q (s.nodeOp peer msg kind cls urgent) := by
  unfold State.nodeOp
  dsimp only
  split
  · exact startFetch h.systemQp.of_eq
  · exact sendLater h.systemQp.of_eq

/-! ### Slots and moves (R131, R184, R188–R191) -/

theorem poke (h : Noted i q s) {a : Nat} {v : Byte} : Noted i q (s.poke a v) := h.of_eq

theorem pokeAll (h : Noted i q s) {f : Nat → Nat} {bs : List Byte} : Noted i q (s.pokeAll f bs) := h.foldl fun _ _ g => g.poke

theorem keepBytes (h : Noted i q s) {tier0 : Bool} {locs : List Nat} {kib : Nat} {pairs : List Pair} : Noted i q (s.keepBytes tier0 locs kib pairs) := by
  refine h.foldl fun u _ g => ?_
  dsimp only
  split
  · exact g.pokeAll
  · exact g.pokeAll

theorem freeSlots (h : Noted i q s) {tier0 : Bool} {locs : List Nat} {kib : Nat} {pairs : List Pair} : Noted i q (s.freeSlots tier0 locs kib pairs) := by
  unfold State.freeSlots
  split
  · exact h
  · split
    · exact h.keepBytes
    · exact h.of_eq

theorem freePte (h : Noted i q s) {kib : Nat} {p : Pte} : Noted i q (s.freePte kib p) := by
  unfold State.freePte
  extract_lets u
  have own : Noted i q u := by
    unfold u
    split
    · exact h.freeSlots
    · exact h.freeSlots
    · exact h
  split
  · exact own.freeSlots
  · exact own

theorem dropCopy (h : Noted i q s) {p : PageRef} : Noted i q (s.dropCopy p) := by
  unfold State.dropCopy
  dsimp only
  split
  · exact h
  · exact h.enter.setPageAt.freeSlots.bump

theorem startMove (h : Noted i q s) {kind : MoveKind} {p : PageRef} {dest : List Nat} {bytes : List Pair} {donor : Nat} : Noted i q (s.startMove kind p dest bytes donor).2 :=
  h.setPageAt.of_eq

theorem withMoves (h : Noted i q s) {l : List (Nat × Move)} : Noted i q { s with mem := { s.mem with moves := l } } := h.of_eq

theorem abandonMove (h : Noted i q s) {id : Nat} : Noted i q (s.abandonMove id) := by
  unfold State.abandonMove
  split
  · exact h
  · exact h.foldl fun u x g => setPageAt g.of_eq

theorem spillTier2 (h : Noted i q s) {p : PageRef} {skip : Nat} (e : s.spillTier2 p skip = some t) : Noted i q t := by
  unfold State.spillTier2 at e
  dsimp only at e
  split at e
  · exact Option.some.inj e ▸ h.startMove
  · split at e
    · obtain ⟨n, -, rfl⟩ := Option.map_eq_some_iff.mp e
      exact hostWrite (startMove h.of_eq)
    · cases e

theorem dusk1 (h : Noted i q s) {target : Nat} {passed : List PageRef} {f : Nat} : Noted i q (s.dusk1 target passed f) := by
  induction f generalizing s passed with
  | zero => exact h
  | succ f ih =>
    unfold State.dusk1
    split
    · exact h
    · split
      · exact h
      · split
        · rename_i spilled
          exact ih (h.spillTier2 spilled)
        · exact ih h

theorem fetchPage (h : Noted i q s) {p : PageRef} (e : s.fetchPage p = some t) : Noted i q t := by
  unfold State.fetchPage State.fetchAt at e
  dsimp only at e
  split at e
  · cases e
  · split at e
    · split at e
      · cases e
      · exact Option.some.inj e ▸ (startMove h.of_eq).withMoves.nodeOp
    · split at e
      · cases e
      · exact (startMove h.of_eq).hostRead e
    · cases e

theorem dawnWant (h : Noted i q s) {p : PageRef} : Noted i q (s.dawnWant p) := by
  unfold State.dawnWant
  extract_lets x u
  split
  · exact h.askHolder
  · split
    · exact h
    · have fetched : Noted i q u := by
        unfold u
        split
        · exact h
        · exact h.getD fun _ => h.fetchPage
      split
      · exact fetched
      · exact fetched.of_eq

theorem oweShadow (h : Noted i q s) {p : PageRef} : Noted i q (s.oweShadow p) := raiseBit (setStatus h.of_eq)

theorem shadowTile (h : Noted i q s) {p : PageRef} {pair : Nat} : Noted i q (s.shadowTile p pair) := by
  unfold State.shadowTile
  extract_lets x bytes u
  split
  · exact h
  · split
    · have moving : Noted i q u := by
        unfold u
        split
        · exact h.setPageAt
        · exact h
      exact moving.of_eq
    · split
      · split
        · exact h.oweShadow
        · exact h
      · split
        · exact h.of_eq
        · exact h


/-! ### Sequences and their pages (R121, R125, R130, R142, R146, R149) -/

theorem reserveHead (h : Noted i q s) {tenant sid l hd pg : Nat} {also : List Nat} {f : Nat} {got : List Nat}
    (e : s.reserveHead tenant sid l hd pg also f = some (t, got)) : Noted i q t := by
  induction f generalizing s with
  | zero => cases e
  | succ f ih =>
    unfold State.reserveHead at e
    split at e
    · cases e
    · dsimp only at e
      split at e
      · cases e
        exact h
      · split at e
        · cases e
          exact h.setPageAt
        · split at e
          · cases e
            exact foldl (setPageAt h.of_eq) fun _ _ g => g.setPageAt
          · split at e
            · exact ih h.dropCopy e
            · split at e
              · cases e
              · cases e
                exact setPageAt h.of_eq

theorem reserveHeads (h : Noted i q s) {tenant sid l pg : Nat} {also : List Nat} {n : Nat} {got : List Nat}
    (e : s.reserveHeads tenant sid l pg also n = some (t, got)) : Noted i q t := by
  induction n generalizing t got with
  | zero =>
    cases e
    exact h
  | succ n ih =>
    unfold State.reserveHeads at e
    split at e
    · cases e
    · rename_i first
      split at e
      · cases e
      · rename_i second
        cases e
        exact (ih first).reserveHead second

theorem reserve (h : Noted i q s) {r : SeqRec} {l n : Nat} (e : s.reserve r l n = some t) : Noted i q t := by
  obtain ⟨⟨u, got⟩, heads, rfl⟩ := Option.map_eq_some_iff.mp e
  exact h.reserveHeads heads

theorem reserveLayers (h : Noted i q s) {r : SeqRec} {pg n : Nat} (e : s.reserveLayers r pg n = some t) : Noted i q t := by
  induction n generalizing t with
  | zero => exact Option.some.inj e ▸ h
  | succ n ih =>
    unfold State.reserveLayers at e
    split at e
    · cases e
    · rename_i below
      exact (ih below).reserve e

theorem create (h : Noted i q s) {tenant sid cls shape : Nat} : Noted i q (s.create tenant sid cls shape).1 := by
  unfold State.create
  split
  · exact h.raiseBit
  · dsimp only
    split
    · exact h
    · rename_i reserved
      exact h.putSeq.countSeq.reserveLayers reserved

theorem putLayer (h : Noted i q s) {r : SeqRec} {l : Nat} {lr : LayerRec} {clamped : Nat} : Noted i q (s.putLayer r l lr clamped) := by
  unfold State.putLayer
  extract_lets old u _ v w
  have walked : Noted i q w := foldl (of_eq h.putSeq.bump) fun _ _ g => g.invalidate
  clear_value w
  split
  · exact walked.foldl fun _ _ g => g.foldl fun _ _ g => g.shadowTile
  · exact walked

theorem sealRebuilt (h : Noted i q s) {r : SeqRec} {l hd len : Nat} {c : Collect} : Noted i q (s.sealRebuilt r l hd len c).1 := by
  unfold State.sealRebuilt
  extract_lets sh ref p pair tk tv differ rebuilt clear u v w
  have cleared : Noted i q v := by
    unfold v
    split
    · exact h.setPageAt.dropPositions
    · exact h.setPageAt
  have counted : Noted i q w := by
    unfold w
    split
    · exact cleared
    · exact cleared.bump.raiseBit
  exact counted.bump

theorem rebuildRow (h : Noted i q s) {tenant sid l hd pos : Nat} {row : (List Nat × List Nat) × (Bool × Bool)} : Noted i q (s.rebuildRow tenant sid l hd pos row).1 := by
  unfold State.rebuildRow
  split
  · exact h
  · dsimp only
    split
    · exact h
    · split
      · exact h
      · split
        · exact h
        · split
          · split
            · exact h.putSeq
            · exact h.putSeq.sealRebuilt
          · exact h.putSeq

theorem rebuild (h : Noted i q s) {r : SeqRec} {l p : Nat} {toks : List Token} : Noted i q (s.rebuild r l p toks).1 := by
  unfold State.rebuild
  extract_lets span heads u out v
  have begun : Noted i q u := by
    unfold u
    split
    · exact h.putSeq
    · exact h
  have rows : Noted i q v := begun.foldl_fst fun _ _ g => g.foldl_fst fun _ _ g => g.rebuildRow
  clear_value v
  split
  · exact rows
  · exact rows.putSeq.useSpares

theorem dropGroup (h : Noted i q s) {g : Nat} : Noted i q (s.dropGroup g) := by
  unfold State.dropGroup
  split
  · exact h
  · split
    · exact h.of_eq
    · exact foldl (settlePlaces h.of_eq) fun _ _ g => g.freePte

theorem endSeq (h : Noted i q s) {r : SeqRec} : Noted i q (s.endSeq r) := by
  unfold State.endSeq
  extract_lets kib spares mine _ u v own w
  have mineGone : Noted i q u := h.of_eq
  have freed : Noted i q w := mineGone.delSeq.useSpares.foldl fun _ _ g => g.freePte
  exact freed.foldl fun _ _ g => g.dropGroup

theorem sweepGhosts (h : Noted i q s) : Noted i q s.sweepGhosts := h.foldl fun _ _ g => g.endSeq

/-! ### Requests off the dispatched ones (R216) -/

theorem refreshPoison (h : Noted i q s) : Noted i q s.refreshPoison :=
  h.of_sameRegs (by decide) (State.refreshPoison_liveWf h.wf) (State.refreshPoison_sameRegs h.wf) (State.setStatus_mem ..)

theorem endRefills (h : Noted i q s) : Noted i q s.endRefills := setStatus h.of_eq

theorem dropStale (h : Noted i q s) : Noted i q s.dropStale := by
  unfold State.dropStale
  extract_lets kept older image
  split
  · exact h
  · refine endRefills (refreshPoison ?_)
    exact ⟨h.wf, h.low, h.event, h.parts _ _ h.poison, h.parts⟩

theorem dropRun (h : Noted i q s) {rid : Nat} : Noted i q (s.dropRun rid) := dropStale (sweepGhosts (of_eq h.endProgram))

theorem tryComplete (h : Noted i q s) {rid : Nat} : Noted i q (s.tryComplete rid) := by
  unfold State.tryComplete
  split
  · exact h
  · split
    · exact h.dropRun.countClamps.reply
    · exact h

theorem failRun (h : Noted i q s) {rid status detail : Nat} : Noted i q (s.failRun rid status detail) := by
  unfold State.failRun
  split
  · exact h
  · extract_lets m u v w
    have dropped : Noted i q v := (h.foldl fun _ _ g => g.stallTicks).keepReads.dropRun.countClamps
    have ended : Noted i q w := by
      unfold w
      split
      · exact dropped.endVerify
      · exact dropped
    exact ended.reply

/-! ### Launching a request (R78, R81, R188, R197) -/

theorem tcamSearch (h : Noted i q s) {entries : List Nat} {k event : Nat} (he : event < 24) : Noted i q (s.tcamSearch entries k event).2 := by
  unfold State.tcamSearch
  split
  · exact h
  · split
    · exact h
    · dsimp only
      split
      · exact h.fixCell.raiseBit he
      · exact h.fixCell.raiseBit he

theorem keyFind (h : Noted i q s) {tenant shape key : Nat} : Noted i q (s.keyFind tenant shape key).2 := h.tcamSearch (by decide)

theorem dawnLook (h : Noted i q s) {tenant sid : Nat} {layers : List Nat} {lo n : Nat} : Noted i q (s.dawnLook tenant sid layers lo n) := by
  unfold State.dawnLook
  split
  · exact h
  · exact h.foldl fun _ _ g => g.foldl fun _ _ g => g.dawnWant

theorem lookAhead (h : Noted i q s) {m : List Byte} {layers : Nat} {sp : Nat × Nat} : Noted i q (s.lookAhead m layers sp) := by
  unfold State.lookAhead
  dsimp only
  split
  · exact h.dawnLook
  · exact h

theorem fetchLeaves (h : Noted i q s) {jobs : List Job} : Noted i q (s.fetchLeaves jobs) := h.foldl fun _ _ g => g.getD fun _ => g.fetchPage

theorem launch (h : Noted i q s) {r : Req} {x : Launch} : Noted i q (s.launch r x) := by
  unfold State.launch
  extract_lets m l sh sp lr lost jobs holders top work run _ u v a wait b c d e
  have walked : Noted i q v := walk h.of_eq
  clear_value v
  split
  · exact walked.failRun
  · exact walked.failRun
  · have asked : Noted i q a := walked.foldl fun _ _ g => g.nodeOp
    have sent : Noted i q b := by
      unfold b
      split
      · exact asked.mapRun.stall
      · exact asked.sendLeaves
    have fetched : Noted i q c := sent.fetchLeaves
    have late : Noted i q d := by
      unfold d
      split
      · exact fetched.stall
      · exact fetched
    have held : Noted i q e := by
      unfold e
      split
      · exact late.stall
      · exact late
    exact held.lookAhead.tryComplete

theorem tryReserve (h : Noted i q s) {tenant sid l len : Nat} : Noted i q (s.tryReserve tenant sid l len).1 := by
  unfold State.tryReserve
  split
  · exact h
  · split
    · exact h
    · split
      · rename_i reserved
        exact h.reserve reserved
      · exact h.dusk1

theorem seqFor (h : Noted i q s) {r : Req} {x : Option SeqRec} : Noted i q (s.seqFor r x).1 := by
  unfold State.seqFor
  split
  · exact h
  · dsimp only
    split
    · exact h.create
    · exact h.create

theorem seqFor_eq (h : Noted i q s) {r : Req} {x y : Option SeqRec} (e : s.seqFor r x = (t, y)) : Noted i q t := by
  have made : Noted i q (s.seqFor r x).1 := h.seqFor
  rwa [e] at made

theorem applyAppend (h : Noted i q s) {x : SeqRec} {l : Nat} {a : AppendIn} : Noted i q (s.applyAppend x l a).1 := h.putLayer.tryReserve

/-! ### Operations take effect (R57, R63–R75, R146–R149) -/

theorem startRebuild (h : Noted i q s) {r : Req} {x : SeqRec} : Noted i q (s.startRebuild r x) := by
  unfold State.startRebuild
  dsimp only
  split
  · exact h.answer
  · split
    · exact h.answer
    · split
      · exact h.answer
      · split
        · exact h.conditioned.cannot
        · split
          · exact h.waitTable
          · split
            · exact h.conditioned.waitSpares
            · exact h.conditioned.rebuild.launch

theorem startAppend (h : Noted i q s) {r : Req} : Noted i q (s.startAppend r) := by
  unfold State.startAppend
  dsimp only
  split
  · exact h.answer
  · split
    · exact h.startRebuild
    · split
      · exact h.answer
      · split
        · exact h.answer
        · split
          · exact h.answer
          · split
            · exact h.answer
            · split
              · exact h.conditioned.cannot
              · split
                · exact h.waitTable
                · split
                  · rename_i created
                    exact (h.conditioned.seqFor_eq created).answer
                  · rename_i created
                    exact (h.conditioned.seqFor_eq created).applyAppend.launch

theorem startAttend (h : Noted i q s) {r : Req} : Noted i q (s.startAttend r) := by
  unfold State.startAttend
  dsimp only
  split
  · exact h.answer
  · exact h
  · split
    · exact h.answer
    · exact h.conditioned.launch

theorem startAppendAttend (h : Noted i q s) {r : Req} {m program : List Byte} {objs : List (List Byte)} : Noted i q (s.startAppendAttend r m program objs) := by
  unfold State.startAppendAttend
  dsimp only
  split
  · exact h.answer
  · split
    · exact h.answer
    · split
      · exact h.answer
      · split
        · exact h.answer
        · split
          · exact h.answer
          · split
            · exact h.conditioned.cannot
            · split
              · exact h.waitTable
              · split
                · rename_i created
                  exact (h.conditioned.seqFor_eq created).notCreated
                · rename_i created
                  exact (h.conditioned.seqFor_eq created).applyAppend.launch

theorem startVerify (h : Noted i q s) {r : Req} : Noted i q (s.startVerify r) := by
  unfold State.startVerify
  extract_lets
  split
  · exact h.answer
  · extract_lets
    split
    · exact h.answer
    · extract_lets
      split
      · exact h.answer
      · split
        · exact h.answer
        · split
          · exact h.conditioned.cannot
          · split
            · exact h.waitTable
            · split
              · exact h.conditioned.waitSpares
              · split
                · rename_i created
                  exact (h.conditioned.seqFor_eq created).notCreated
                · rename_i created
                  exact (h.conditioned.seqFor_eq created).discardProv.putSeq.useSpares.bump.tryReserve.launch

theorem startCommit (h : Noted i q s) {r : Req} : Noted i q (s.startCommit r) := by
  unfold State.startCommit
  dsimp only
  split
  · exact h.answer
  · exact h
  · split
    · exact h.answer
    · refine answer (h.foldl fun u l g => ?_)
      split
      · exact g
      · split
        · exact g.swapTails.useSpares.putLayer
        · exact g.useSpares.putLayer

theorem remap (h : Noted i q s) {f : PageRef → PageRef} : Noted i q (s.remap f) := h.of_eq

theorem makeGroup (h : Noted i q s) {tenant sid pg : Nat} : Noted i q (s.makeGroup tenant sid pg).1 := by
  unfold State.makeGroup
  split
  · exact h
  · split
    · exact h
    · exact foldl (remap (putSeq (settlePlaces h.of_eq))) fun _ _ g => g.invalidate

theorem publishScan (h : Noted i q s) {x : SeqRec} {m : List Byte} {l : List Nat} {fresh : List (Nat × Nat)} : Noted i q (s.publishScan x m l fresh).1 := by
  induction l generalizing s fresh with
  | nil => exact h
  | cons p l ih =>
    unfold State.publishScan
    dsimp only
    split
    · exact h
    · split
      · exact ih h.keyFind
      · split
        · exact ih h.keyFind
        · exact h.keyFind

theorem startPublish (h : Noted i q s) {r : Req} {x : SeqRec} : Noted i q (s.startPublish r x) := by
  unfold State.startPublish
  dsimp only
  split
  · exact h.answer
  · have scanned {u : State} {o : Option Nat} {l : List (Nat × Nat)} {ps : List Nat} (e : s.publishScan x r.msg ps [] = (u, o, l)) : Noted i q u := by
      have scan : Noted i q (s.publishScan x r.msg ps []).1 := h.publishScan
      rwa [e] at scan
    split
    · rename_i scan
      exact (scanned scan).answer
    · rename_i scan
      split
      · exact (scanned scan).answer
      · exact answer ((scanned scan).foldl fun _ _ g => g.makeGroup.keyAttach)

theorem copyGroup (h : Noted i q s) {g : Nat} {x : GroupRec} (e : s.copyGroup g x = some t) : Noted i q t := by
  unfold State.copyGroup at e
  dsimp only at e
  refine foldl_option (o := some s) (fun u eq => Option.some.inj eq ▸ h) (fun o a ho u eq => ?_) e
  cases o with
  | none => cases eq
  | some v =>
    have own : Noted i q v := ho v rfl
    dsimp only at eq
    split at eq
    · exact Option.some.inj eq ▸ own
    · split at eq
      · have owed := Option.some.inj eq
        split at owed
        · exact owed ▸ own
        · exact owed ▸ own.oweShadow
      · split at eq
        · split at eq
          · cases eq
          · exact Option.some.inj eq ▸ readPage (startMove own.of_eq)
        · exact own.fetchPage eq
        · exact own.fetchPage eq
        · have asked := Option.some.inj eq
          split at asked
          · exact asked ▸ own.askHolder
          · exact asked ▸ own.oweShadow.askHolder
        · cases eq

theorem bindScan (h : Noted i q s) {m : List Byte} {shadowed : Bool} {l got : List Nat} {w : Bool} : Noted i q (s.bindScan m shadowed l got w).1 := by
  induction l generalizing s got w with
  | nil => exact h
  | cons p l ih =>
    unfold State.bindScan
    dsimp only
    split
    · exact h.keyFind
    · split
      · exact h.keyFind
      · split
        · split
          · exact h.keyFind
          · split
            · exact h.keyFind
            · rename_i copied
              exact ih (of_eq (h.keyFind.copyGroup copied))
        · exact ih (of_eq h.keyFind)

theorem bindCreate (h : Noted i q s) {r : Req} {gs : List Nat} : Noted i q (s.bindCreate r gs) := by
  unfold State.bindCreate
  dsimp only
  split
  · split
    · rename_i created
      exact (h.seqFor_eq created).answer
    · rename_i created
      exact (h.seqFor_eq created).answer
  · split
    · exact answer (h.raiseBit.foldl fun _ _ g => g.dropGroup)
    · refine launch ?_
      split
      · rename_i reserved
        exact h.putSeq.countSeq.reserveLayers reserved
      · exact h.putSeq.countSeq.dusk1

theorem startBind (h : Noted i q s) {r : Req} {held : Option (List Nat)} : Noted i q (s.startBind r held) := by
  unfold State.startBind
  dsimp only
  split
  · exact answer (h.foldl fun _ _ g => g.dropGroup)
  · split
    · exact bindCreate (h.foldl fun _ _ g => g.dropGroup)
    · split
      · exact h.bindScan.waitRun
      · exact h.bindScan.bindCreate

theorem startPrefixBind (h : Noted i q s) {r : Req} {held : Option (List Nat)} : Noted i q (s.startPrefixBind r held) := by
  unfold State.startPrefixBind
  dsimp only
  split
  · exact h.startBind
  · split
    · exact h.answer
    · exact h
    · split
      · exact h.startPublish
      · exact h.startUnpublish

theorem releaseSeq (h : Noted i q s) {x : SeqRec} : Noted i q (s.releaseSeq x) := by
  unfold State.releaseSeq
  split
  · extract_lets k _ u spares bare y v w mine needed gone a _
    have numbered : Noted i q u := h.of_eq
    have moved : Noted i q a := numbered.delSeq.useSpares.putSeq.remap.foldl fun _ _ g => g.abandonMove
    exact moved.of_eq
  · exact h.endSeq

theorem startRelease (h : Noted i q s) {r : Req} : Noted i q (s.startRelease r) := by
  unfold State.startRelease
  split
  · exact h.answer
  · exact h
  · exact h.releaseSeq.answer

theorem startSpanWork (h : Noted i q s) {r : Req} : Noted i q (s.startSpanWork r) := by
  unfold State.startSpanWork
  dsimp only
  split
  · exact h.answer
  · split
    · exact h.answer
    · split
      · exact h.answer
      · exact h.conditioned.launch

theorem execute (h : Noted i q s) {r : Req} {held : Option (List Nat)} : Noted i q (s.execute r held) := by
  unfold State.execute
  cases r.op with
  | append => exact h.startAppend
  | attend => exact h.startAttend
  | appendAttend => exact h.startAppendAttend
  | verify => exact h.startVerify
  | commit => exact h.startCommit
  | prefixBind => exact h.startPrefixBind
  | release => exact h.startRelease
  | attest => exact h.startAttest
  | spanWork => exact h.startSpanWork
  | run | projectAttend => exact h.startProgram
  | rread | rwrite | rwriteTiles => exact h

theorem effect (h : Noted i q s) {w : Waiter} {held : Option (List Nat)} : Noted i q (s.effect w held) := by
  unfold State.effect
  split
  · exact of_eq h.startAppendAttend
  · exact of_eq h.execute

/-! ### What waited goes on (R80, R196) -/

theorem endSpareWaits (h : Noted i q s) {tenant sid : Nat} : Noted i q (s.endSpareWaits tenant sid) :=
  foldl (of_eq h) fun _ _ g => g.stallTicks.raiseBit.answer

theorem goOn (h : Noted i q s) {n : Nat} : Noted i q (State.goOn n s) := by
  induction n generalizing s with
  | zero => exact h
  | succ n ih =>
    unfold State.goOn
    split
    · exact ih (effect h.of_eq)
    · split
      · exact ih h.endSpareWaits
      · exact h

theorem settleOrder (h : Noted i q s) : Noted i q s.settleOrder := h.goOn

theorem redo (h : Noted i q s) {rid : Nat} : Noted i q (s.redo rid) := by
  unfold State.redo
  split
  · exact h
  · exact (h.foldl fun _ _ g => g.stallTicks).dropRun.effect.settleOrder

theorem failStalled (h : Noted i q s) {k : TileKey} : Noted i q (s.failStalled k) := by
  refine h.foldl fun u r g => ?_
  split
  · exact g.redo
  · exact g.failRun

end Noted

end Sys2Proof.Machine
end

section
/-!
The commands of the tiers: TIER1_PATROL, PAGE_COPY_DONE of a shadow, OLD_LOCATION_FREE, WEIGHT_REPAIR_TIMEOUT and SRAM_REFILL_DONE (R131, R179, R184, R195–R197, R217).
-/

namespace Sys2Proof.Machine

open Sys2Proof

set_option Elab.async false

/-! ### Points (R330) -/

@[simp] theorem State.raiseBit_hlt (s : State) (a i : Nat) : (s.raiseBit a i).hlt = s.hlt := (congrArg State.hlt (s.raiseBit_signals a i) :)
@[simp] theorem State.raiseBit_mem (s : State) (a i : Nat) : (s.raiseBit a i).mem = s.mem := (congrArg State.mem (s.raiseBit_signals a i) :)
@[simp] theorem State.raiseBit_prog (s : State) (a i : Nat) : (s.raiseBit a i).prog = s.prog := (congrArg State.prog (s.raiseBit_signals a i) :)

/-- The parts that points can change. -/
abbrev pointParts : List Blk := [.live, .hlt, .hst, .sum, .outbox]

theorem State.addPoints_only (s : State) (p n : Nat) : Keeps pointParts s (s.addPoints p n) := State.addPoints_keeps (Within.refl _) p n (.refl s)

@[simp] theorem State.addPoints_mem (s : State) (p n : Nat) : (s.addPoints p n).mem = s.mem := (s.addPoints_only p n).same .mem (by decide)
@[simp] theorem State.addPoints_prog (s : State) (p n : Nat) : (s.addPoints p n).prog = s.prog := (s.addPoints_only p n).same .prog (by decide)

theorem State.score_of_hlt {s t : State} (h : t.hlt = s.hlt) (p : Nat) : t.score p = s.score p := congrArg (fun x : HltSt => spGet Score.zero x.scores p) h

theorem State.addPoints_hlt (s : State) (p n : Nat) :
    ∃ v : Score, v.score = min 65535 ((s.score p).score + n) ∧ (s.addPoints p n).hlt = (s.setScore p v).hlt := by
  unfold State.addPoints
  extract_lets sc v warn act newWarn reached u
  refine ⟨{ sc with score := v, warned := sc.warned || decide (warn ≤ v), reached := reached }, rfl, ?_⟩
  split
  · exact State.raiseBit_hlt ..
  · rfl

/-- Points come to the part's own score and to no other's. -/
theorem State.score_addPoints {s : State} (rise : keysRise s.hlt.scores = true) (p n : Nat) :
    ((s.addPoints p n).score p).score = min 65535 ((s.score p).score + n) ∧ ∀ x, x ≠ p → (s.addPoints p n).score x = s.score x := by
  obtain ⟨v, points, hlt⟩ := s.addPoints_hlt p n
  constructor
  · rw [State.score_of_hlt hlt p, ← points]
    exact congrArg Score.score (spGet_spSet_same _ _ _ rise)
  · intro x hx
    rw [State.score_of_hlt hlt x]
    exact spGet_spSet_other _ _ _ rise hx

/-! ### Tier 1's patrol (R179, R195) -/

theorem exec_tier1Patrol_outside {a : Nat} (h : a < tier0End ∨ flatEnd ≤ a) (o : EccOutcome) (s : State) : exec (.tier1Patrol a o) s = .next s := by
  show execTier1Patrol a o s = _
  rw [execTier1Patrol, if_pos h]

section
variable {a : Nat} (low : tier0End ≤ a) (high : a < flatEnd)
include low high

theorem exec_tier1Patrol (o : EccOutcome) (s : State) : exec (.tier1Patrol a o) s = .next (s.tier1Ecc a o) := by
  show execTier1Patrol a o s = _
  rw [execTier1Patrol, if_neg (by omega)]

theorem tier1Patrol_corrected {s : State} (rise : keysRise s.hlt.scores = true) :
    Completes (.tier1Patrol a .corrected) s [.live, .hlt, .hst, .sum, .outbox] (fun t =>
      (t.score (Part.lpddr (s.lpddrStack a))).score = min 65535 ((s.score (Part.lpddr (s.lpddrStack a))).score + 1) ∧
      ∀ p, p ≠ Part.lpddr (s.lpddrStack a) → t.score p = s.score p) :=
  completes_keeps (exec_tier1Patrol low high _ s) (s.addPoints_only _ 1) (State.score_addPoints rise _ 1)

end

theorem State.allPages_of_pgw {s t : State} (h : t.pgw = s.pgw) : t.allPages = s.allPages := by rw [State.allPages, h]; rfl

theorem State.tileAt_of_pgw {s t : State} (h : t.pgw = s.pgw) (a : Nat) : t.tileAt a = s.tileAt a := by rw [State.tileAt, h]; rfl

theorem State.refKiB_of_pgw {s t : State} (h : t.pgw = s.pgw) (p : PageRef) : t.refKiB p = s.refKiB p := by
  rw [State.refKiB, State.refShape, State.group, State.findSeq, h]; rfl

/-- What lives in a unit of tier 1 depends on the walker's tables, the moves and the old locations alone. -/
theorem State.unitLive_of_same {s t : State} (pgw : t.pgw = s.pgw) (moves : t.mem.moves = s.mem.moves) (olds : t.mem.olds = s.mem.olds) (u : Nat) :
    t.unitLive u = s.unitLive u := by
  have runs : t.runs1 = s.runs1 := by
    simp only [State.runs1, State.allPages_of_pgw pgw, State.refKiB_of_pgw pgw, moves, olds]
  have images : t.imageRuns = s.imageRuns := by rw [State.imageRuns, pgw]; rfl
  rw [State.unitLive, runs, images]; rfl

/-- An error that strikes no page and no weight tile strikes nothing. -/
theorem State.tier1Strike_nothing {s : State} {a : Nat} (pages : s.allPages = []) (tile : s.tileAt a = none) : s.tier1Strike a = s := by
  simp only [State.tier1Strike, pages, List.find?_nil, tile]

theorem State.retireUnits_live {s : State} {u : Nat} (failing : s.mem.failing = [u]) (live : s.unitLive u = true) : s.retireUnits = s := by
  simp [State.retireUnits, failing, live]

theorem State.retireUnits_empty {s : State} {u : Nat} (failing : s.mem.failing = [u]) (live : s.unitLive u = false) :
    s.retireUnits.mem = { s.mem with retired := setInsert s.mem.retired u, failing := [] } := by
  simp [State.retireUnits, failing, live]

section
variable {s : State} {a : Nat} (pages : s.allPages = []) (tile : s.tileAt a = none) (fresh : s.mem.failing = []) (whole : s.mem.retired.contains (tier1Unit a) = false)

/-- The node with an uncorrectable error scored and its unit failing. -/
def State.unitFails (s : State) (a : Nat) : State := (s.addPoints (Part.lpddr (s.lpddrStack a)) 64).failUnit (tier1Unit a)

/-- The parts that an error of tier 1 can change where it strikes nothing. -/
abbrev struckParts : List Blk := [.live, .mem, .hlt, .hst, .sum, .outbox]

theorem State.unitFails_keeps (s : State) (a : Nat) : Keeps struckParts s (s.unitFails a) :=
  State.failUnit_keeps ((Within.refl struckParts).sub rfl) _ (State.addPoints_keeps ((Within.refl struckParts).sub rfl) _ _ (.refl s))

theorem State.unitFails_hlt (s : State) (a : Nat) : (s.unitFails a).hlt = (s.addPoints (Part.lpddr (s.lpddrStack a)) 64).hlt :=
  (State.failUnit_keeps (Within.refl _) _ (.refl _)).same .hlt (by decide)

theorem State.unitFails_pgw (s : State) (a : Nat) : (s.unitFails a).pgw = s.pgw := (s.unitFails_keeps a).same .pgw (by decide)

include fresh whole in
theorem State.unitFails_mem : (s.unitFails a).mem = { s.mem with failing := [tier1Unit a] } := by
  have kept := s.addPoints_mem (Part.lpddr (s.lpddrStack a)) 64
  rw [State.unitFails, State.failUnit, kept, if_neg (by rw [whole]; decide), fresh]
  rfl

include pages tile in
theorem State.tier1Ecc_struck : s.tier1Ecc a .uncorrectable = (s.unitFails a).retireUnits := by
  have pgw := s.unitFails_pgw a
  have nothing := State.tier1Strike_nothing (a := a) ((State.allPages_of_pgw pgw).trans pages) ((State.tileAt_of_pgw pgw a).trans tile)
  exact congrArg State.retireUnits nothing

include pages tile fresh whole in
theorem tier1Patrol_uncorrectable (low : tier0End ≤ a) (high : a < flatEnd) (rise : keysRise s.hlt.scores = true) :
    let struck (m : MemSt) : Prop := Completes (.tier1Patrol a .uncorrectable) s [.live, .mem, .hlt, .hst, .sum, .outbox] (fun t =>
      (t.score (Part.lpddr (s.lpddrStack a))).score = min 65535 ((s.score (Part.lpddr (s.lpddrStack a))).score + 64) ∧ t.mem = m)
    (s.unitLive (tier1Unit a) = false → struck { s.mem with retired := setInsert s.mem.retired (tier1Unit a) }) ∧
    (s.unitLive (tier1Unit a) = true → struck { s.mem with failing := [tier1Unit a] }) := by
  have mem := State.unitFails_mem fresh whole
  have failing : (s.unitFails a).mem.failing = [tier1Unit a] := by rw [mem]
  have live : (s.unitFails a).unitLive (tier1Unit a) = s.unitLive (tier1Unit a) :=
    State.unitLive_of_same (s.unitFails_pgw a) (by rw [mem]) (by rw [mem]) _
  have kept := State.retireUnits_keeps ((Within.refl struckParts).sub rfl) (s.unitFails_keeps a)
  have hlt : (s.unitFails a).retireUnits.hlt = (s.addPoints (Part.lpddr (s.lpddrStack a)) 64).hlt :=
    Eq.trans ((State.retireUnits_keeps (Within.refl _) (.refl (s.unitFails a))).same .hlt (by decide)) (s.unitFails_hlt a)
  have points := (congrArg Score.score (State.score_of_hlt hlt (Part.lpddr (s.lpddrStack a)))).trans (State.score_addPoints rise _ 64).1
  have answer := (exec_tier1Patrol low high .uncorrectable s).trans (congrArg Host.Outcome.next (State.tier1Ecc_struck pages tile))
  constructor
  · intro empty
    refine completes_keeps answer kept ⟨points, ?_⟩
    rw [State.retireUnits_empty failing (live.trans empty), mem, ← fresh]
  · intro full
    refine completes_keeps answer kept ⟨points, ?_⟩
    rw [State.retireUnits_live failing (live.trans full), mem]

end

/-! ### Slots freed, and old locations (R131) -/

theorem State.pokeAll_mem (s : State) (f : Nat → Nat) (bs : List Byte) : (s.pokeAll f bs).mem = { s.mem with flat := (s.pokeAll f bs).mem.flat } := by
  unfold State.pokeAll
  generalize bs.zipIdx = l
  induction l generalizing s with
  | nil => rfl
  | cons x l ih => exact (ih (s.poke (f x.2) x.1)).trans rfl

/-- Bytes that stay where a slot was are the only change of the tiers. -/
theorem State.keepBytes_mem (s : State) (tier0 : Bool) (locs : List Nat) (kib : Nat) (pairs : List Pair) :
    (s.keepBytes tier0 locs kib pairs).mem = { s.mem with flat := (s.keepBytes tier0 locs kib pairs).mem.flat } := by
  unfold State.keepBytes
  generalize pairs.zipIdx = l
  induction l generalizing s with
  | nil => rfl
  | cons x l ih =>
    rw [List.foldl_cons, ih]
    dsimp only
    split
    · rw [State.pokeAll_mem]
    · rw [State.pokeAll_mem]

theorem State.keepBytes_olds (s : State) (tier0 : Bool) (locs : List Nat) (kib : Nat) (pairs : List Pair) :
    (s.keepBytes tier0 locs kib pairs).mem.olds = s.mem.olds := by rw [State.keepBytes_mem]

theorem State.keepBytes_moves (s : State) (tier0 : Bool) (locs : List Nat) (kib : Nat) (pairs : List Pair) :
    (s.keepBytes tier0 locs kib pairs).mem.moves = s.mem.moves := by rw [State.keepBytes_mem]

theorem State.freeSlots_moves (s : State) (tier0 : Bool) (locs : List Nat) (kib : Nat) (pairs : List Pair) :
    (s.freeSlots tier0 locs kib pairs).mem.moves = s.mem.moves := by
  unfold State.freeSlots
  split
  · rfl
  · split
    · exact State.keepBytes_moves ..
    · rfl

section
variable {s : State} {id : Nat} {o : OldLoc} (ho : tabGet s.mem.olds id = some o)
include ho

theorem exec_oldLocationFree_read (read : s.sch.runs.any (fun r => o.readers.contains r.req.rid) = true) : exec (.oldLocationFree id) s = .next s := by
  show execOldLocationFree id s = _
  simp only [execOldLocationFree, ho]
  rw [if_pos read]

theorem oldLocationFree_unread (unread : s.sch.runs.any (fun r => o.readers.contains r.req.rid) = false) :
    Completes (.oldLocationFree id) s [.mem] (fun t => t.mem.olds = tabDel s.mem.olds id ∧ t.mem.moves = s.mem.moves) := by
  have answer : exec (.oldLocationFree id) s =
      .next (({ s with mem := { s.mem with olds := tabDel s.mem.olds id } } : State).keepBytes o.tier0 o.locs o.kib o.pairs) := by
    show execOldLocationFree id s = _
    simp only [execOldLocationFree, ho]
    rw [if_neg (by rw [unread]; decide)]
  exact completes_of answer (execOldLocationFree_keeps (Within.refl _) id (.refl s)) ⟨State.keepBytes_olds .., State.keepBytes_moves ..⟩

end

/-! ### Weight repair (R196, R197) -/

/-- Every entry of a tile is given up. -/
def GivenUp (k : TileKey) (l : List (TileKey × (Nat × Bool))) : Prop := ∀ x ∈ l, x.1 = k → x.2.2 = true

theorem givenUp_giveUp (k : TileKey) (l : List (TileKey × (Nat × Bool))) : GivenUp k (giveUp k l) := by
  intro x hx own
  obtain ⟨y, -, rfl⟩ := List.mem_map.mp hx
  by_cases mine : y.1 = k
  · rw [if_pos mine]
  · rw [if_neg mine] at own
    exact absurd own mine

theorem GivenUp.filter {k : TileKey} (f : TileKey × (Nat × Bool) → Bool) (l : List (TileKey × (Nat × Bool))) (h : GivenUp k l) : GivenUp k (l.filter f) :=
  fun x hx => h x (List.mem_of_mem_filter hx)

/-- The node as a tile's repair is given up, before the requests that need it fail. -/
def State.repairGivenUp (s : State) (k : TileKey) (limit : Nat) : State :=
  State.raiseBit { s.advanceTo limit with mem := { s.mem with poison := giveUp k s.mem.poison } } Reg.memEvent 5

theorem State.bit_raiseBit_same {s : State} (h : s.liveWf) (a : Nat) {i : Nat} (low : i < 24) : (s.raiseBit a i).bit a i = true := by
  rw [State.bit_raiseBit h a low low, decide_eq_true rfl, Bool.or_true]

theorem Noted.of_raiseBit {s : State} (h : s.liveWf) {i : Nat} (low : i < 24) {q : List (TileKey × (Nat × Bool)) → Prop} (poison : q s.mem.poison)
    (parts : ∀ f l, q l → q (l.filter f)) : Noted i q (s.raiseBit Reg.memEvent i) where
  wf := State.raise_liveWf h _ _
  low := low
  event := State.bit_raiseBit_same h _ low
  poison := by rwa [State.raiseBit_mem]
  parts := parts

theorem State.repairGivenUp_noted {s : State} (h : s.liveWf) (k : TileKey) (limit : Nat) : Noted 5 (GivenUp k) (s.repairGivenUp k limit) := by
  let u : State := { s.advanceTo limit with mem := { s.mem with poison := giveUp k s.mem.poison } }
  exact Noted.of_raiseBit (s := u) h (show 5 < 24 by decide) (givenUp_giveUp k _) GivenUp.filter

theorem weightRepairTimeout_completes {s : State} (hi : s.Inv) {obj tile : Nat} {p : TileKey × (Nat × Bool)} (h : s.poisonAt obj tile = some p) :
    Completes (.weightRepairTimeout obj tile) s (partsOf (.weightRepairTimeout obj tile)) (fun t =>
      t.now = max s.now p.2.1 ∧ t.bit Reg.memEvent 5 = true ∧ ∀ x ∈ t.mem.poison, x.1 = p.1 → x.2.2 = true) := by
  have answer : exec (.weightRepairTimeout obj tile) s = .next ((s.repairGivenUp p.1 p.2.1).failStalled p.1) := by
    show execWeightRepairTimeout obj tile s = _
    simp only [execWeightRepairTimeout, h]
    rfl
  obtain ⟨-, -, event, poison, -⟩ := (State.repairGivenUp_noted hi.liveWf p.1 p.2.1).failStalled (k := p.1)
  have now : ((s.repairGivenUp p.1 p.2.1).failStalled p.1).now = max s.now p.2.1 :=
    Eq.trans ((State.failStalled_keeps (Within.refl _) p.1 (.refl _)).same .now (by decide)) (State.raiseBit_now ..)
  exact completes_of answer (execWeightRepairTimeout_keeps (Within.refl _) obj tile (.refl s)) ⟨now, event, poison⟩

/-! ### Poison, and the repair's first source (R196, R231) -/

namespace Noted
variable {i : Nat} {q : List (TileKey × (Nat × Bool)) → Prop} {s t : State}

theorem weightAsk (h : Noted i q s) {k : TileKey} {after : Option Nat} : Noted i q (s.weightAsk k after) := by
  unfold State.weightAsk
  split
  · exact h
  · split
    · exact h
    · exact h.nodeOp

theorem retireUnits (h : Noted i q s) : Noted i q s.retireUnits := by
  unfold State.retireUnits
  dsimp only
  split
  · exact h
  · exact setStatus h.of_eq

theorem refreshMat (h : Noted i q s) : Noted i q s.refreshMat := by
  unfold State.refreshMat
  dsimp only
  split
  · exact h.endRefills
  · exact h.endRefills.raiseBit

theorem rehome (h : Noted i q s) {k : TileKey} {work : Bool} : Noted i q (s.rehome k work) := by
  unfold State.rehome
  extract_lets
  split
  · exact h
  · split
    · exact retireUnits h.of_eq
    · exact h

theorem setLive (h : Noted i q s) {a v : Nat} (ha : Reg.memEvent ≠ a := by decide) : Noted i q (s.setLive a v) :=
  h.of_sameRegs (fun m => ha (List.mem_singleton.mp m)) (h.wf.setLive a v)
    (fun x hx => (State.live_setLive h.wf a v x).trans (if_neg fun e => hx (List.mem_singleton.mpr e))) rfl

theorem clearPoison (h : Noted i q s) {k : TileKey} : Noted i q (s.clearPoison k) := by
  unfold State.clearPoison
  extract_lets bad _ _ u
  have moved : Noted i q u := h.foldl fun _ _ g => g.rehome
  clear_value u
  split
  · exact moved
  · refine raiseBit (refreshPoison (setLive (refreshMat ?_)))
    exact ⟨moved.wf, moved.low, moved.event, moved.parts _ _ moved.poison, moved.parts⟩

theorem trySources (h : Noted i q s) {k : TileKey} : Noted i q (s.trySources k) := by
  unfold State.trySources
  split
  · exact h
  · split
    · exact h.weightAsk
    · dsimp only
      split
      · exact weightAsk h.of_eq
      · exact h.fresh.clearPoison

end Noted

/-- A copy of a tile is known to be bad. -/
def State.withBadCopy (s : State) (k : TileKey) (work : Bool) : State :=
  if s.mem.badCopies.contains (k, work) then s else { s with mem := { s.mem with badCopies := s.mem.badCopies ++ [(k, work)] } }

/-- The node as a tile is poisoned, before its repair starts. -/
def State.poisonNoted (s : State) (k : TileKey) : State :=
  (State.refreshPoison { s with mem := { s.mem with poison := s.mem.poison ++ [(k, (s.now + 4194304, false))] } }).raiseBit Reg.memEvent 3

theorem State.withBadCopy_keeps (s : State) (k : TileKey) (work : Bool) : Keeps [.mem] s (s.withBadCopy k work) := by
  unfold State.withBadCopy
  split
  · exact .refl s
  · have within := Within.refl [Blk.mem]
    exact keeps_mk (h := .refl s)

section
variable {s : State} {k : TileKey}

theorem State.withBadCopy_poison (work : Bool) : (s.withBadCopy k work).mem.poison = s.mem.poison := by
  unfold State.withBadCopy
  split <;> rfl

theorem State.mem_withBadCopy {work : Bool} {c : TileKey × Bool} : c ∈ (s.withBadCopy k work).mem.badCopies ↔ c ∈ s.mem.badCopies ∨ c = (k, work) := by
  unfold State.withBadCopy
  split
  · rename_i bad
    constructor
    · exact .inl
    · rintro (known | rfl)
      · exact known
      · simpa using bad
  · simp

theorem State.poisonTile_new (work : Bool) (whole : s.isPoisoned k = false) : s.poisonTile k work = ((s.withBadCopy k work).poisonNoted k).trySources k := by
  have clean : ¬(s.withBadCopy k work).isPoisoned k = true := by
    rw [State.isPoisoned, State.withBadCopy_poison, ← State.isPoisoned, whole]
    decide
  unfold State.poisonTile
  exact if_neg clean

theorem State.poisonNoted_mem : (s.poisonNoted k).mem = { s.mem with poison := s.mem.poison ++ [(k, (s.now + 4194304, false))] } := by
  rw [State.poisonNoted, State.raiseBit_mem]
  exact State.setStatus_mem ..

theorem State.poisonNoted_isPoisoned : (s.poisonNoted k).isPoisoned k = true := by simp [State.isPoisoned, State.poisonNoted_mem]

theorem State.poisonNoted_noted (h : s.liveWf) : Noted 3 (fun _ => True) (s.poisonNoted k) := by
  let u : State := { s with mem := { s.mem with poison := s.mem.poison ++ [(k, (s.now + 4194304, false))] } }
  exact Noted.of_raiseBit (State.refreshPoison_liveWf (s := u) h) (show 3 < 24 by decide) trivial fun _ _ _ => trivial

/-- A tile newly found bad is recorded. -/
theorem State.poisonTile_noted (h : s.liveWf) (work : Bool) (whole : s.isPoisoned k = false) : Noted 3 (fun _ => True) (s.poisonTile k work) := by
  have bad : (s.withBadCopy k work).liveWf := State.liveWf_of_live h ((s.withBadCopy_keeps k work).same .live (by decide))
  rw [State.poisonTile_new work whole]
  exact (State.poisonNoted_noted bad).trySources

theorem State.weightAsk_mem (after : Option Nat) : (s.weightAsk k after).mem = s.mem := (State.weightAsk_keeps (Within.refl _) k after (.refl s)).same .mem (by decide)

/-- A tile whose two copies are both bad stays poisoned: the node has no source of its own. -/
theorem State.poisonTile_both (whole : s.isPoisoned k = false) (other : s.mem.badCopies.contains (k, false) = true) : (s.poisonTile k true).isPoisoned k = true := by
  have poisoned := State.poisonNoted_isPoisoned (s := s.withBadCopy k true) (k := k)
  have both : [true, false].all (fun w => ((s.withBadCopy k true).poisonNoted k).mem.badCopies.contains (k, w)) = true := by
    simpa [State.poisonNoted_mem, State.mem_withBadCopy] using other
  rw [State.poisonTile_new true whole, State.trySources, if_neg (by rw [poisoned]; decide), if_pos both, State.isPoisoned, State.weightAsk_mem]
  exact poisoned

end

/-! ### SRAM refills (R196, R217, R231) -/

theorem State.refillStall_idle {s : State} {g : Nat} (idle : tabGet s.prog.current g = none) (obj ver : Nat) (served : Bool) : s.refillStall g obj ver served = s := by
  simp only [State.refillStall, idle]

section
variable {s : State} {g : Nat} (idle : tabGet s.prog.current g = none) (obj tile core : Nat)
include idle

theorem exec_sramRefillDone_object (h : obj < 2048) :
    exec (.sramRefillDone obj tile ⟨true, g, core⟩) s = .next ((s.raiseBit Reg.attProgEvent 3).addPoints (Part.core (8 * g + core)) 64) := by
  show execSramRefillDone obj tile ⟨true, g, core⟩ s = _
  have idle' : tabGet ((s.raiseBit Reg.attProgEvent 3).addPoints (Part.core (8 * g + core)) 64).prog.current g = none := by
    rw [State.addPoints_prog, State.raiseBit_prog, idle]
  simp only [execSramRefillDone, Bool.not_true, Bool.false_eq_true, if_false, if_pos h, State.refillStall_idle idle', if_true]

theorem exec_sramRefillDone_image (h : 2048 ≤ obj) : exec (.sramRefillDone obj tile ⟨true, g, core⟩) s = .next (s.raiseBit Reg.matEvent 3) := by
  show execSramRefillDone obj tile ⟨true, g, core⟩ s = _
  have idle' : tabGet (s.raiseBit Reg.matEvent 3).prog.current g = none := by rw [State.raiseBit_prog, idle]
  simp only [execSramRefillDone, Bool.not_true, Bool.false_eq_true, if_false, if_neg (Nat.not_lt.mpr h), State.refillStall_idle idle', if_true]

theorem sramRefillDone_object (hi : s.Inv) (rise : keysRise s.hlt.scores = true) (h : obj < 2048) :
    Completes (.sramRefillDone obj tile ⟨true, g, core⟩) s [.live, .hlt, .hst, .sum, .outbox] (fun t => t.bit Reg.attProgEvent 3 = true ∧
      (t.score (Part.core (8 * g + core))).score = min 65535 ((s.score (Part.core (8 * g + core))).score + 64)) := by
  have raised : Keeps pointParts s (s.raiseBit Reg.attProgEvent 3) := State.raiseBit_keeps ((Within.refl pointParts).sub rfl) _ _ (.refl s)
  have recorded := State.bit_raiseBit_same hi.liveWf Reg.attProgEvent (show 3 < 24 by decide)
  have hlt : (s.raiseBit Reg.attProgEvent 3).hlt = s.hlt := State.raiseBit_hlt ..
  have points := (State.score_addPoints (s := s.raiseBit Reg.attProgEvent 3) (by rw [hlt]; exact rise) (Part.core (8 * g + core)) 64).1
  rw [State.score_of_hlt hlt] at points
  refine completes_keeps (exec_sramRefillDone_object idle obj tile core h) (raised.trans (State.addPoints_only _ _ _)) ⟨?_, points⟩
  exact (congrArg (bitOf · 3) (State.addPoints_live _ _ _ (by decide))).trans recorded

theorem sramRefillDone_image (hi : s.Inv) (h : 2048 ≤ obj) :
    Completes (.sramRefillDone obj tile ⟨true, g, core⟩) s [.live, .hst, .sum, .outbox] (fun t => t.bit Reg.matEvent 3 = true) :=
  completes_keeps (exec_sramRefillDone_image idle obj tile core h) (State.raiseBit_keeps (Within.refl _) _ _ (.refl s))
    (State.bit_raiseBit_same hi.liveWf Reg.matEvent (show 3 < 24 by decide))

/-- The node with the core's error scored, where an object's tile met it. -/
def State.coreHit (s : State) (obj part : Nat) : State := if obj < 2048 then s.addPoints part 64 else s

theorem exec_sramRefillDone_failed :
    let t := (s.coreHit obj (Part.core (8 * g + core))).poisonTile ⟨obj, s.verOf obj, tile⟩ true
    exec (.sramRefillDone obj tile ⟨false, g, core⟩) s =
      .next (if 2048 ≤ obj then State.refreshMat { t with mat := { t.mat with refill := setInsert t.mat.refill (obj - 2048) } } else t) := by
  show execSramRefillDone obj tile ⟨false, g, core⟩ s = _
  have idle' : tabGet (s.coreHit obj (Part.core (8 * g + core))).prog.current g = none := by
    unfold State.coreHit
    split
    · rw [State.addPoints_prog, idle]
    · exact idle
  have stall := State.refillStall_idle idle' obj (s.verOf obj) false
  unfold State.coreHit at stall
  simp only [execSramRefillDone, Bool.not_false, if_true, idle, stall, Bool.false_eq_true, if_false]
  rfl

end

theorem sramRefillDone_failed {s : State} (hi : s.Inv) (rise : keysRise s.hlt.scores = true) {g : Nat} (idle : tabGet s.prog.current g = none) (obj tile core : Nat)
    (whole : s.isPoisoned ⟨obj, s.verOf obj, tile⟩ = false) :
    Completes (.sramRefillDone obj tile ⟨false, g, core⟩) s (partsOf (.sramRefillDone obj tile ⟨false, g, core⟩)) (fun t =>
      t.bit Reg.memEvent 3 = true ∧
      (obj < 2048 → (t.score (Part.core (8 * g + core))).score = min 65535 ((s.score (Part.core (8 * g + core))).score + 64)) ∧
      (s.mem.badCopies.contains (⟨obj, s.verOf obj, tile⟩, false) = true → t.isPoisoned ⟨obj, s.verOf obj, tile⟩ = true)) := by
  have answer := exec_sramRefillDone_failed idle obj tile core
  dsimp only at answer
  set k : TileKey := ⟨obj, s.verOf obj, tile⟩ with hk
  set u := s.coreHit obj (Part.core (8 * g + core)) with hu
  have hit : Keeps pointParts s u := by
    rw [hu, State.coreHit]
    exact keeps_ite (s.addPoints_only ..) (.refl s)
  have mem : u.mem = s.mem := hit.same .mem (by decide)
  have wholeU : u.isPoisoned k = false := by rw [State.isPoisoned, mem]; exact whole
  have noted := State.poisonTile_noted (hit.inv hi).liveWf true wholeU
  have hlt : (u.poisonTile k true).hlt = u.hlt := (State.poisonTile_keeps (Within.refl _) k true (.refl u)).same .hlt (by decide)
  have both (other : s.mem.badCopies.contains (k, false) = true) : (u.poisonTile k true).isPoisoned k = true :=
    State.poisonTile_both wholeU (by rw [mem]; exact other)
  have points (h : obj < 2048) : (u.score (Part.core (8 * g + core))).score = min 65535 ((s.score (Part.core (8 * g + core))).score + 64) := by
    rw [hu, State.coreHit, if_pos h]
    exact (State.score_addPoints rise _ 64).1
  refine completes_of answer (execSramRefillDone_keeps (Within.refl _) obj tile _ (.refl s)) ?_
  by_cases image : 2048 ≤ obj
  · rw [if_pos image]
    refine ⟨(Noted.refreshMat noted.of_eq).event, fun h => absurd h (by omega), fun other => ?_⟩
    rw [State.isPoisoned, Eq.trans ((State.refreshMat_keeps (Within.refl _) (.refl _)).same .mem (by decide)) rfl]
    exact both other
  · rw [if_neg image]
    exact ⟨noted.event, fun h => (congrArg Score.score (State.score_of_hlt hlt _)).trans (points h), both⟩

/-! ### Pages read back as written (R121, R144) -/

theorem State.pageAt_of_pgw {s t : State} (h : t.pgw = s.pgw) (x : PageRef) : t.pageAt x = s.pageAt x := by
  rw [State.pageAt, State.group, State.findSeq, h]; rfl

theorem SeqRec.layer_mapLayer {r : SeqRec} {l : Nat} (h : l < r.layers.length) (f : LayerRec → LayerRec) : (r.mapLayer l f).layer l = f (r.layer l) := by
  rw [SeqRec.layer, SeqRec.mapLayer, listMap_getD, if_pos h]; rfl

theorem HeadRec.page_setPage (hd : HeadRec) (n : Nat) (e : Pte) : (hd.setPage n e).page n = e := by
  by_cases free : e = Pte.free
  · simp [HeadRec.page, HeadRec.setPage, free, tabGet_tabDel]
  · simp [HeadRec.page, HeadRec.setPage, free, tabGet_tabPut_same]

/-- An entry in use has its layer and its head in the sequence. -/
theorem SeqRec.pte_used {r : SeqRec} {l hd n : Nat} (used : (r.pte l hd n).state ≠ .free) : l < r.layers.length ∧ hd < (r.layer l).heads.length := by
  have head : hd < (r.layer l).heads.length := by
    by_contra out
    rw [SeqRec.pte, SeqRec.head, List.getD_eq_default _ _ (by omega)] at used
    exact used rfl
  refine ⟨?_, head⟩
  by_contra out
  rw [SeqRec.layer, List.getD_eq_default _ _ (by omega)] at head
  exact absurd head (Nat.not_lt_zero hd)

theorem SeqRec.pte_setPte {r : SeqRec} {l hd n : Nat} (used : (r.pte l hd n).state ≠ .free) (e : Pte) : (r.setPte l hd n e).pte l hd n = e := by
  obtain ⟨layer, head⟩ := SeqRec.pte_used used
  rw [SeqRec.pte, SeqRec.head, SeqRec.setPte, SeqRec.layer_mapLayer layer, listMap_getD, if_pos head, HeadRec.page_setPage]

/-- A sequence's own entry in use reads back as written. -/
theorem State.pageAt_setPageAt {s : State} {x : PageRef} (own : x.grp = false) (used : (s.pageAt x).state ≠ .free) (e : Pte) : (s.setPageAt x e).pageAt x = e := by
  have away : ¬x.grp = true := by rw [own]; decide
  rw [State.pageAt, if_neg away] at used ⊢
  cases found : s.findSeq x.tenant x.sid with
  | none =>
    rw [found] at used
    exact absurd rfl used
  | some r =>
    rw [found] at used
    have names : r.tenant = x.tenant ∧ r.sid = x.sid := by simpa using List.find?_some found
    have kept : (s.invalidate x).findSeq x.tenant x.sid = some r := found
    have written := (State.findSeq_putSeq (s := s.invalidate x) (q := r) (r.setPte x.layer x.head x.page e) (by
      show (s.invalidate x).findSeq r.tenant r.sid = some r
      rw [names.1, names.2, kept])).1
    have there : ((s.invalidate x).putSeq (r.setPte x.layer x.head x.page e)).findSeq x.tenant x.sid = some (r.setPte x.layer x.head x.page e) := by
      rw [← names.1, ← names.2]
      exact written
    simp only [State.setPageAt, if_neg away, kept, there, Option.map_some, Option.getD_some]
    exact SeqRec.pte_setPte used e

/-! ### A shadow ends (R131, R184) -/

theorem State.unowed_mem (s : State) (x : PageRef) : (s.unowed x).mem = { s.mem with backlog := s.mem.backlog.filter (· != x) } := by
  unfold State.unowed State.settleBacklog
  split
  · exact State.setStatus_mem ..
  · rfl

/-- The node as a shadow's move is off the list, and an older copy's slot freed. -/
def State.shadowReady (s : State) (id : Nat) (x : PageRef) : State :=
  let u : State := { s.enter.2 with mem := { s.mem with moves := tabDel s.mem.moves id } }
  match (s.pageAt x).shadow with
  | some y => u.freeSlots false [y.1] (s.refKiB x) y.2
  | none => u

theorem State.shadowReady_spec (s : State) (id : Nat) (x : PageRef) :
    Keeps [.pgw, .mem] s (s.shadowReady id x) ∧ (s.shadowReady id x).mem.moves = tabDel s.mem.moves id ∧ (s.shadowReady id x).pgw = s.enter.2.pgw := by
  let u : State := { s.enter.2 with mem := { s.mem with moves := tabDel s.mem.moves id } }
  have within := Within.refl [Blk.pgw, Blk.mem]
  have taken : Keeps [.pgw, .mem] s u := keeps_mk (hfl := rfl) (h := State.enter_keeps (within.sub rfl) (.refl s))
  unfold State.shadowReady
  dsimp only
  split
  · exact ⟨State.freeSlots_keeps (within.sub rfl) _ _ _ _ taken, State.freeSlots_moves .., (State.freeSlots_keeps (Within.refl _) _ _ _ _ (.refl u)).same .pgw (by decide)⟩
  · exact ⟨taken, rfl, rfl⟩

section
variable {s : State} {id : Nat} {m : Move} (hm : tabGet s.mem.moves id = some m) (kind : m.kind = .shadow) (full : m.full = true) (flips : List Flip)
include hm kind

/-- A page's entry with its new copy. -/
def Pte.withCopy (p : Pte) (m : Move) : Pte :=
  { p with state := if p.state = .sealed then .shadowed else p.state, moving := false, shadow := some (m.dest.headD 0, m.bytes) }

theorem State.switchMove_shadow : s.switchMove id = ((s.shadowReady id m.page).setPageAt m.page ((s.pageAt m.page).withCopy m)).unowed m.page := by
  simp only [State.switchMove, hm, kind, State.shadowReady, Pte.withCopy]
  rfl

include full

theorem exec_pageCopyDone_read (copied : m.copied = false) : exec (.pageCopyDone id flips) s = .next s := by
  show execPageCopyDone id flips s = _
  simp [execPageCopyDone, hm, kind, full, copied]

theorem pageCopyDone_written (copied : m.copied = true) (own : m.page.grp = false) (sealed : (s.pageAt m.page).state = .sealed) :
    Completes (.pageCopyDone id flips) s [.live, .pgw, .mem] (fun t => t.mem.moves = tabDel s.mem.moves id ∧ t.mem.backlog.contains m.page = false ∧
      t.pageAt m.page = { s.pageAt m.page with state := .shadowed, moving := false, shadow := some (m.dest.headD 0, m.bytes) }) := by
  have answer : exec (.pageCopyDone id flips) s = .next (((s.shadowReady id m.page).setPageAt m.page ((s.pageAt m.page).withCopy m)).unowed m.page) := by
    show execPageCopyDone id flips s = _
    simp only [execPageCopyDone, hm, kind, full, copied, and_self, if_true, State.switchMove_shadow hm kind]
  obtain ⟨ready, moves, pgw⟩ := s.shadowReady_spec id m.page
  have page : (s.shadowReady id m.page).pageAt m.page = s.pageAt m.page := (State.pageAt_of_pgw pgw m.page).trans rfl
  have used : ((s.shadowReady id m.page).pageAt m.page).state ≠ .free := by
    rw [page, sealed]
    decide
  have within := Within.refl [Blk.live, Blk.pgw, Blk.mem]
  have kept := State.unowed_keeps (within.sub rfl) m.page (State.setPageAt_keeps (within.sub rfl) m.page ((s.pageAt m.page).withCopy m) (ready.mono rfl))
  have mem : ((s.shadowReady id m.page).setPageAt m.page ((s.pageAt m.page).withCopy m)).mem = (s.shadowReady id m.page).mem :=
    (State.setPageAt_keeps (Within.refl _) _ _ (.refl _)).same .mem (by decide)
  refine completes_keeps answer kept ⟨?_, ?_, ?_⟩
  · rw [State.unowed_mem, mem]
    exact moves
  · rw [State.unowed_mem]
    simp
  · have tables := (State.unowed_keeps (Within.refl _) m.page (.refl ((s.shadowReady id m.page).setPageAt m.page ((s.pageAt m.page).withCopy m)))).same .pgw (by decide)
    rw [State.pageAt_of_pgw tables, State.pageAt_setPageAt own used, Pte.withCopy, if_pos sealed]

end

/-! ### The obligation -/

/-- Settles O50: each command's answer above; what a repair that is given up and a tile newly poisoned have recorded stands through whatever follows in the same step. -/
theorem tiersPatrolSwitchFreeAndRepair : Obligations.TiersPatrolSwitchFreeAndRepair := by
  unfold Obligations.TiersPatrolSwitchFreeAndRepair
  intro s hi rise
  refine ⟨fun a => ⟨fun outside o => exec_tier1Patrol_outside outside o s, fun low high => ⟨exec_tier1Patrol low high .clean s, tier1Patrol_corrected low high rise,
      fun pages tile failing whole => tier1Patrol_uncorrectable pages tile failing whole low high rise⟩⟩,
    fun id m flips hm kind full => ⟨exec_pageCopyDone_read hm kind full flips, pageCopyDone_written hm kind full flips⟩,
    fun id o ho => ⟨exec_oldLocationFree_read ho, oldLocationFree_unread ho⟩,
    fun obj tile p h => weightRepairTimeout_completes hi h,
    fun obj tile g core idle => ⟨fun object => ?_, fun image => ?_, fun _ whole => sramRefillDone_failed hi rise idle obj tile core whole⟩⟩
  · exact sramRefillDone_object idle obj tile core hi rise object
  · exact sramRefillDone_image idle obj tile core hi image

end Sys2Proof.Machine
end

section
/-!
One Vesper unit after a change: what is written to it, what passes in it, and what the other units keep (R154, R166, R167).
-/

namespace Sys2Proof.Machine

open Sys2Proof

/-! ### A unit read after it was written -/

/-- With nothing planned nothing is delivered. -/
theorem VUnit.deliver_unplanned {v : VUnit} (plan : v.plan = []) : v.deliver = v := by
  have urgent : v.deliverUrgent = v := by
    unfold VUnit.deliverUrgent
    rw [plan]
    cases v.urgentQ <;> rfl
  have normal : v.deliverNormal = v := by simp [VUnit.deliverNormal, plan]
  rw [VUnit.deliver, urgent, normal, normal]

@[simp] theorem VUnit.putRunning_plan (v : VUnit) (b : Option Burst) : (v.putRunning b).plan = v.plan := by unfold VUnit.putRunning; split <;> rfl
@[simp] theorem VUnit.putRunning_clock (v : VUnit) (b : Option Burst) : (v.putRunning b).clock = v.clock := by unfold VUnit.putRunning; split <;> rfl
@[simp] theorem VUnit.putRunning_returns (v : VUnit) (b : Option Burst) : (v.putRunning b).returns = v.returns := by unfold VUnit.putRunning; split <;> rfl

/-- Nothing runs in an idle unit. -/
theorem VUnit.running_idle {v : VUnit} (idle : v.busy = false) : v.running = none := by
  obtain ⟨cur, curU⟩ : v.cur = none ∧ v.curU = none := by simpa [VUnit.busy] using idle
  simp [VUnit.running, cur, curU]

theorem State.unit_of_vsp {s t : State} (h : t.vsp = s.vsp) (k : Nat) : t.unit k = s.unit k := congrArg (fun x : VspSt => spGet VUnit.idle x.units k) h

@[simp] theorem State.raiseBit_vsp (s : State) (a i : Nat) : (s.raiseBit a i).vsp = s.vsp := (congrArg State.vsp (s.raiseBit_signals a i) :)

/-- From s to t unit u alone changes among the units, and becomes w. -/
structure UnitBecomes (s : State) (u : Nat) (w : VUnit) (t : State) : Prop where
  own : t.unit u = w
  others : ∀ k, k ≠ u → t.unit k = s.unit k
  rise : keysRise t.vsp.units = true
  masked : t.vsp.masked = s.vsp.masked
  rereads : t.vsp.rereads = s.vsp.rereads

namespace UnitBecomes

variable {s t x : State} {u : Nat} {v w : VUnit}

theorem refl (rise : keysRise s.vsp.units = true) : UnitBecomes s u (s.unit u) s := ⟨rfl, fun _ _ => rfl, rise, rfl, rfl⟩

/-- Units, masks and re-reads alone matter. -/
theorem of_same (h : UnitBecomes s u w t) (units : x.vsp.units = t.vsp.units) (masked : x.vsp.masked = t.vsp.masked) (rereads : x.vsp.rereads = t.vsp.rereads) :
    UnitBecomes s u w x := by
  have unit (k : Nat) : x.unit k = t.unit k := congrArg (spGet VUnit.idle · k) units
  exact ⟨(unit u).trans h.own, fun k hk => (unit k).trans (h.others k hk), units ▸ h.rise, masked.trans h.masked, rereads.trans h.rereads⟩

theorem of_vsp (h : UnitBecomes s u w t) (e : x.vsp = t.vsp) : UnitBecomes s u w x := h.of_same (congrArg _ e) (congrArg _ e) (congrArg _ e)

/-- The state it is counted from may be any with the same units. -/
theorem from_vsp (h : UnitBecomes t u w x) (e : t.vsp = s.vsp) : UnitBecomes s u w x :=
  ⟨h.own, fun k hk => (h.others k hk).trans (State.unit_of_vsp e k), h.rise, h.masked.trans (congrArg _ e), h.rereads.trans (congrArg _ e)⟩

theorem setUnit (h : UnitBecomes s u v t) (plan : w.plan = []) : UnitBecomes s u w (t.setUnit u w) where
  own := (spGet_spSet_same VUnit.idle u w.deliver h.rise).trans (VUnit.deliver_unplanned plan)
  others k hk := (spGet_spSet_other _ _ _ h.rise hk).trans (h.others k hk)
  rise := keysRise_spSet _ _ _ h.rise
  masked := h.masked
  rereads := h.rereads

theorem unitCount (h : UnitBecomes s u w t) (off n : Nat) : UnitBecomes s u w (t.unitCount u off n) := h.of_vsp rfl

theorem spend (h : UnitBecomes s u w t) (plan : w.plan = []) (n : Nat) : UnitBecomes s u { w with clock := w.clock + n * t.vCycle } (t.spend u n) := by
  have spent : UnitBecomes s u { w with clock := w.clock + n * t.vCycle } (t.setUnit u { t.unit u with clock := (t.unit u).clock + n * t.vCycle }) := by
    rw [h.own]
    exact h.setUnit plan
  exact spent.unitCount ..

theorem stopBurst (h : UnitBecomes s u w t) (plan : w.plan = []) : UnitBecomes s u { w with stopped := true } (t.stopBurst u) := by
  have stopped : UnitBecomes s u { w with stopped := true } (t.setUnit u { t.unit u with stopped := true }) := by
    rw [h.own]
    exact h.setUnit plan
  exact stopped.unitCount ..

end UnitBecomes

/-- A command completes with one unit changed. -/
theorem completes_unit {i : Instr} {s t : State} {m : List Blk} {u now : Nat} {w : VUnit} (he : exec i s = .next t) (hk : Keeps m s t) (hn : t.now = now) (h : UnitBecomes s u w t) :
    Completes i s m (fun t => t.now = now ∧ t.unit u = w ∧ (∀ k, k ≠ u → t.unit k = s.unit k) ∧ t.vsp.masked = s.vsp.masked ∧ t.vsp.rereads = s.vsp.rereads) :=
  completes_keeps he hk ⟨hn, h.own, h.others, h.masked, h.rereads⟩

/-! ### A unit that stands where it is (R167) -/

/-- A unit in which nothing runs, or what runs is stopped, has run out. -/
theorem State.runOut_still {s : State} {u : Nat} (h : (s.unit u).running = none ∨ (s.unit u).stopped = true) : s.runOut u = s := by
  unfold State.runOut
  rw [if_pos]
  rcases h with h | h
  · exact .inl (by rw [h]; rfl)
  · exact .inr h

/-- A unit that cannot go on up to now stands where it is. -/
theorem State.pumpNow_still {s : State} {u : Nat} (h : s.goesOn u (some (vUnit * s.now)) = false) : s.pumpNow u = s := by
  show s.pump u _ false (799 + 1) = s
  simp [State.pump, h]

end Sys2Proof.Machine
end

section
/-!
Bursts start, resume, pre-empt and read on (R164–R167, R169).
-/

namespace Sys2Proof.Machine

open Sys2Proof

/-! ### Leaves given to hub cores -/

theorem State.leafToHub_sch {s t : State} (h : t.sch = s.sch) (e : BurstEntry) : (t.leafToHub e).sch = (s.leafToHub e).sch := by
  cases e with
  | leaf rid idx => simp only [State.leafToHub, State.mapJob, State.mapRun, h]
  | tile => exact h
  | old => exact h
  | dest => exact h

theorem State.leavesToHub_sch {s t : State} (h : t.sch = s.sch) (l : List BurstEntry) : (l.foldl State.leafToHub t).sch = (l.foldl State.leafToHub s).sch := by
  induction l generalizing s t with
  | nil => exact h
  | cons e l ih => exact ih (State.leafToHub_sch h e)

theorem State.leavesToHub_keeps (s : State) (l : List BurstEntry) : Keeps [.sch] s (l.foldl State.leafToHub s) :=
  keeps_foldl (fun _ e h => State.leafToHub_keeps (Within.refl _) e h) (.refl s)

/-! ### A burst starts (R165) -/

/-- What of a burst starts where n of its tiles can be planned. -/
def State.begun (s : State) (b : Burst) (n : Nat) : Burst :=
  { b with tiles := b.tiles.take n, cls := s.owner, startTick := s.now % 65536
           endPlan := vUnit * s.now + (12 + ((b.tiles.take n).map (s.tileOcc b)).foldl (· + ·) 0) * s.vCycle }

/-- What of it stays in its slot. -/
def State.leftOver (s : State) (b : Burst) (n : Nat) : List Burst := if b.tiles.length ≤ n then [] else [b.rest n (s.vsp.nextBurst % 65536)]

/-- A unit with a burst just put into its context, the rest of it in its slot, and its clock at a count. -/
def VUnit.started (v : VUnit) (go : Burst) (rest : List Burst) (clock : Nat) : VUnit :=
  let w := if go.urgent = true then { v with curU := some go, urgentQ := rest ++ v.urgentQ, preempted := v.cur.isSome }
    else { v with cur := some go, normal := rest ++ v.normal }
  { w with stopped := false, clock := clock, window := none }

theorem VUnit.started_plan (v : VUnit) (go : Burst) (rest : List Burst) (clock : Nat) : (v.started go rest clock).plan = v.plan := by
  unfold VUnit.started
  split <;> rfl

theorem VUnit.started_urgent {v : VUnit} {go : Burst} {rest : List Burst} {clock : Nat} {held : Bool} (h : go.urgent = true) (cur : v.cur.isSome = held) :
    v.started go rest clock = { v with curU := some go, urgentQ := rest ++ v.urgentQ, preempted := held, stopped := false, clock := clock, window := none } := by
  rw [VUnit.started, if_pos h, cur]

theorem VUnit.started_normal {v : VUnit} {go : Burst} {rest : List Burst} {clock : Nat} (h : go.urgent = false) : v.started go rest clock =
    { v with cur := some go, normal := rest ++ v.normal, stopped := false, clock := clock, window := none } := by
  rw [VUnit.started, if_neg (by rw [h]; decide)]

section
variable {s : State} {u : Nat} (rise : keysRise s.vsp.units = true) {v : VUnit} (plan : v.plan = []) (b : Burst) (n : Nat)

/-- A start is a write of the unit with the burst in its context, then the lead-in (R166). -/
theorem State.startBurst_eq : ∃ t : State, t.vsp.units = s.vsp.units ∧ t.vsp.masked = s.vsp.masked ∧ t.vsp.rereads = s.vsp.rereads ∧ t.now = s.now ∧ t.vCycle = s.vCycle ∧
    s.startBurst u v b n = (t.setUnit u (v.started (s.begun b n) (s.leftOver b n) (vUnit * s.now))).spend u 12 := by
  refine ⟨if (s.leftOver b n).isEmpty then s else { s with vsp := { s.vsp with nextBurst := s.vsp.nextBurst + 1 } }, ?_, ?_, ?_, ?_, ?_, rfl⟩ <;> split <;> rfl

include rise plan

theorem State.startBurst_becomes : UnitBecomes s u (v.started (s.begun b n) (s.leftOver b n) (vUnit * s.now + 12 * s.vCycle)) (s.startBurst u v b n) := by
  obtain ⟨t, units, masked, rereads, _, cycle, e⟩ := State.startBurst_eq (s := s) (u := u) (v := v) b n
  have written := ((UnitBecomes.refl (u := u) rise).of_same units masked rereads).setUnit (w := v.started (s.begun b n) (s.leftOver b n) (vUnit * s.now)) ((v.started_plan ..).trans plan)
  rw [e, ← cycle]
  exact written.spend ((v.started_plan ..).trans plan) 12

omit rise plan in
theorem State.startBurst_now : (s.startBurst u v b n).now = s.now := (State.startBurst_keeps (Within.refl _) u v b n (.refl s)).same .now (by decide)

end

/-- No part of the burst starts: the dial bars it, or not one tile can be planned. -/
theorem State.attendFrom_none {s : State} {u : Nat} {b : Burst} (h : s.mayStart b = false ∨ (s.plannable u s.now b = 0 ∧ s.tooLong b = false)) (v : VUnit) :
    s.attendFrom u b v = none := by
  rcases h with bar | ⟨nothing, short⟩
  · simp [State.attendFrom, bar]
  · simp [State.attendFrom, nothing, short]

theorem within_append (l m : List Blk) : Within l (l ++ m) := List.all_eq_true.mpr fun _ hk => decide_eq_true (List.mem_append_left m hk)

section
variable {i : Instr} {s x : State} {early : List Blk} {u : Nat} {b : Burst} {rest : VUnit} {f : State → State}
  (he : exec i s = .next (((x.attendFrom u b rest).map f).getD s)) (hk : Keeps early s x) (units : x.vsp = s.vsp)
  (rise : keysRise s.vsp.units = true) (plan : rest.plan = []) (may : x.mayStart b = true)
include he hk units rise plan may

theorem completes_starts (short : x.tooLong b = false) (some : x.plannable u x.now b ≠ 0) (count : ∀ t, f t = t ∨ f t = t.unitCount u 0x18 1) {w : VUnit}
    (hw : rest.started (x.begun b (x.plannable u x.now b)) (x.leftOver b (x.plannable u x.now b)) (vUnit * x.now + 12 * x.vCycle) = w) :
    Completes i s (early ++ [.run, .vsp]) (fun t => t.now = x.now ∧ t.unit u = w ∧
      (∀ k, k ≠ u → t.unit k = s.unit k) ∧ t.vsp.masked = s.vsp.masked ∧ t.vsp.rereads = s.vsp.rereads) := by
  subst hw
  have answer : x.attendFrom u b rest = .some (x.startBurst u rest b (x.plannable u x.now b)) := by simp [State.attendFrom, may, short, some]
  rw [answer] at he
  have became := (State.startBurst_becomes (u := u) (units ▸ rise) plan b (x.plannable u x.now b)).from_vsp units
  have kept : Keeps (early ++ [.run, .vsp]) s (x.startBurst u rest b (x.plannable u x.now b)) :=
    State.startBurst_keeps (by simp [Within]) u rest b _ (hk.mono (within_append early _))
  have began := State.startBurst_now (s := x) (u := u) (v := rest) b (x.plannable u x.now b)
  rcases count (x.startBurst u rest b (x.plannable u x.now b)) with e | e
  · exact completes_unit (he.trans (congrArg _ e)) kept began became
  · exact completes_unit (he.trans (congrArg _ e)) (State.unitCount_keeps (by simp [Within]) _ _ _ kept) began (became.unitCount _ _)

theorem completes_toHub (long : x.tooLong b = true) (count : ∀ t, (t.unit u).curU = none → f t = t) (free : rest.curU = none) (reqs : x.sch = s.sch) :
    Completes i s (early ++ [.sch, .vsp]) (fun t => t.now = x.now ∧ t.unit u = rest ∧ (∀ k, k ≠ u → t.unit k = s.unit k) ∧
      t.sch = ((b.tiles.map (·.ent)).foldl State.leafToHub s).sch) := by
  have answer : x.attendFrom u b rest = .some ((b.tiles.map (·.ent)).foldl State.leafToHub (x.setUnit u rest)) := by simp [State.attendFrom, may, long]
  rw [answer] at he
  have given := State.leavesToHub_keeps (x.setUnit u rest) (b.tiles.map (·.ent))
  have became := ((UnitBecomes.refl (units ▸ rise)).setUnit plan).from_vsp units |>.of_vsp (given.same .vsp (by decide))
  have kept : Keeps (early ++ [.sch, .vsp]) s ((b.tiles.map (·.ent)).foldl State.leafToHub (x.setUnit u rest)) :=
    (State.setUnit_keeps (by simp [Within]) u rest (hk.mono (within_append early _))).trans (given.mono (by simp [Within]))
  exact completes_keeps (he.trans (congrArg _ (count _ ((congrArg _ became.own).trans free)))) kept
    ⟨given.same .now (by decide), became.own, became.others, State.leavesToHub_sch (t := x.setUnit u rest) reqs _⟩

end

/-! ### ATTEND_BURST (R165) -/

section
variable {s : State} {u : Nat} {b : Burst} {more : List Burst} (open_ : s.masked u = false) (clear : inRefresh u s.now = false)
  (free : (s.unit u).curU = none) (idle : (s.unit u).cur = none)
include open_ clear free idle

theorem exec_attendBurst_urgent (waits : (s.unit u).urgentQ = b :: more) :
    exec (.attendBurst u) s = .next ((s.attendFrom u b { s.unit u with urgentQ := more }).getD s) := by
  show execAttendBurst u s = _
  have still : s.runOut u = s := State.runOut_still (.inl (VUnit.running_idle (by simp [VUnit.busy, free, idle])))
  simp [execAttendBurst, open_, clear, still, free, idle, waits]

theorem exec_attendBurst_normal (none : (s.unit u).urgentQ = []) (waits : (s.unit u).normal.find? (fun x => x.kind == .attend) = some b) :
    exec (.attendBurst u) s = .next ((s.attendFrom u b { s.unit u with normal := (s.unit u).normal.erase b }).getD s) := by
  show execAttendBurst u s = _
  have still : s.runOut u = s := State.runOut_still (.inl (VUnit.running_idle (by simp [VUnit.busy, free, idle])))
  simp [execAttendBurst, open_, clear, still, free, idle, none, waits]

end

/-! ### BURST_RESUME (R165, R167, R169) -/

section
variable {s : State} {u : Nat} (rise : keysRise s.vsp.units = true) (open_ : s.masked u = false) (plan : (s.unit u).plan = [])
include rise open_ plan

theorem burstResume_stopped (stopped : (s.unit u).stopped = true) :
    let v := s.unit u
    let now := max s.now (refreshEnd u (v.clock / vUnit))
    Completes (.burstResume u) s [.now, .run, .vsp] (fun t => t.now = now ∧
      t.unit u = { v with stopped := false, preempted := v.curU.isSome && v.preempted, clock := vUnit * now + 12 * s.vCycle } ∧
      (∀ k, k ≠ u → t.unit k = s.unit k) ∧ t.vsp.masked = s.vsp.masked ∧ t.vsp.rereads = s.vsp.rereads) := by
  intro v now
  have held : (if v.curU.isSome = true then v.preempted else false) = (v.curU.isSome && v.preempted) := by cases v.curU.isSome <;> rfl
  have answer : exec (.burstResume u) s =
      .next (((s.advanceTo (refreshEnd u (v.clock / vUnit))).setUnit u { v with stopped := false, preempted := v.curU.isSome && v.preempted, clock := vUnit * now }).spend u 12) := by
    show execBurstResume u s = _
    rw [← held]
    simp [execBurstResume, open_, stopped, v, now]
  have within := Within.refl [Blk.now, Blk.run, Blk.vsp]
  have moved : UnitBecomes s u v (s.advanceTo (refreshEnd u (v.clock / vUnit))) := (UnitBecomes.refl rise).of_vsp rfl
  exact completes_unit answer (State.spend_keeps (within.sub rfl) _ _ (State.setUnit_keeps (within.sub rfl) _ _ (State.advanceTo_keeps (within.sub rfl) _ (.refl s)))) rfl
    ((moved.setUnit (w := { v with stopped := false, preempted := v.curU.isSome && v.preempted, clock := vUnit * now }) plan).spend plan 12)

theorem burstResume_held (going : (s.unit u).stopped = false) (ended : (s.unit u).curU = none) (held : (s.unit u).preempted = true)
    (burst : (s.unit u).cur.isSome = true) (clear : inRefresh u s.now = false) :
    Completes (.burstResume u) s [.run, .vsp] (fun t => t.now = s.now ∧ t.unit u = { s.unit u with preempted := false, clock := vUnit * s.now + 12 * s.vCycle } ∧
      (∀ k, k ≠ u → t.unit k = s.unit k) ∧ t.vsp.masked = s.vsp.masked ∧ t.vsp.rereads = s.vsp.rereads) := by
  have answer : exec (.burstResume u) s = .next ((s.setUnit u { s.unit u with preempted := false, clock := vUnit * s.now }).spend u 12) := by
    show execBurstResume u s = _
    have still : s.runOut u = s := State.runOut_still (.inl (by simp [VUnit.running, ended, held]))
    simp [execBurstResume, open_, going, still, ended, held, burst, clear]
  have within := Within.refl [Blk.run, Blk.vsp]
  exact completes_unit answer (State.spend_keeps (within.sub rfl) _ _ (State.setUnit_keeps (within.sub rfl) _ _ (.refl s))) rfl
    (((UnitBecomes.refl rise).setUnit (w := { s.unit u with preempted := false, clock := vUnit * s.now }) plan).spend plan 12)

end

/-! ### URGENT_PREEMPT (R169) -/

theorem exec_urgentPreempt {s : State} {u : Nat} {b c : Burst} {more : List Burst} (open_ : s.masked u = false) (on : s.bit Reg.vspBurstCfg 13 = true) (free : (s.unit u).curU = none)
    (busy : (s.unit u).cur = some c) (boundary : c.rows = []) (reached : vUnit * s.now ≤ (s.unit u).clock) (waits : (s.unit u).urgentQ = b :: more)
    (clear : inRefresh u (s.advanceTo (ceilDiv (s.unit u).clock vUnit)).now = false) :
    exec (.urgentPreempt u) s = .next ((((s.advanceTo (ceilDiv (s.unit u).clock vUnit)).attendFrom u b { s.unit u with urgentQ := more }).map (fun t =>
      if (s.unit u).preempted = true ∨ (t.unit u).curU.isNone = true then t else t.unitCount u 0x18 1)).getD s) := by
  show execUrgentPreempt u s = _
  have boundaryEnds (x : Burst) (h : (s.unit u).running = some x) : x.rows = [] := by
    cases held : (s.unit u).preempted <;> simp [VUnit.running, free, busy, held] at h
    exact h ▸ boundary
  have still : s.pumpNow u = s := by
    refine State.pumpNow_still ?_
    cases runs : (s.unit u).running with
    | none => simp [State.goesOn, runs]
    | some x => simp [State.goesOn, runs, boundaryEnds x runs, reached]
  have ended : s.endTile u 8 = s := by
    cases runs : (s.unit u).running with
    | none => simp [State.endTile, runs]
    | some x => simp [State.endTile, runs, boundaryEnds x runs]
  have unit : (s.advanceTo (ceilDiv (s.unit u).clock vUnit)).unit u = s.unit u := rfl
  simp only [execUrgentPreempt, open_, on, still, ended, State.catchUp, unit, waits, busy, free, boundary, clear]
  simp

/-! ### Reading on (R157, R166, R167) -/

section
variable {s : State} {u : Nat} {c : Burst} {e : TileEnt} (runs : (s.unit u).running = some c) (entry : c.tiles[c.pos]? = some e)
include runs entry

/-- At a tile boundary. -/
theorem State.readOn_boundary (rows : c.rows = []) : s.readOn u =
    if s.entProtected u e = true then s.refuseTile u c e
    else if s.tileOcc c e = 0 then s.tileDone u c e
    else if s.fitsRefresh u (s.unit u).clock (s.tileOcc c e) = true then
      s.setUnit u ((s.unit u).putRunning (some { c with
        rows := tileRows (locOff e.loc + (if e.isV = true then (s.tileShape c e).2 else 0)) (s.tileShape c e).2 (s.tileOcc c e) }))
    else s.stopBurst u := by
  simp only [State.readOn, runs, rows, entry]

/-- Within a tile. -/
theorem State.readOn_row {r : Nat} {rest : List Nat} (rows : c.rows = r :: rest) : s.readOn u =
    if s.fitsRefresh u (s.unit u).clock r = false then s.stopBurst u
    else if rest = [] then (s.spend u r).tileDone u c e
    else (s.spend u r).setUnit u (((s.spend u r).unit u).putRunning (some { c with rows := rest })) := by
  simp only [State.readOn, runs, rows, entry, List.isEmpty_iff, Bool.not_eq_true']

end

/-- A unit whose burst has ended. -/
def VUnit.ended (v : VUnit) : VUnit := { v.putRunning none with window := none }

/-- A burst ends, or does not end yet (R156). -/
theorem State.clearIfDone_cases (s : State) (u : Nat) : s.clearIfDone u = s ∨ s.clearIfDone u = s.setUnit u (s.unit u).ended := by
  unfold State.clearIfDone
  dsimp only
  split
  · split
    · exact .inr rfl
    · exact .inl rfl
  · exact .inl rfl

/-- The end of a tile writes its unit, counts, and ends the burst where it was the last. -/
theorem State.tileDone_eq (s : State) (u : Nat) (b : Burst) (e : TileEnt) : ∃ (w : VUnit) (x : State), s.tileDone u b e = x.clearIfDone u ∧
    x.vsp.units = (s.setUnit u w).vsp.units ∧ w.plan = (s.unit u).plan ∧ w.clock = (s.unit u).clock :=
  ⟨{ (s.unit u).putRunning (some { b with pos := b.pos + 1, rows := [] }) with returns := (s.unit u).returns ++ s.returnsOf u { b with pos := b.pos + 1, rows := [] } e },
    _, rfl, rfl, (s.unit u).putRunning_plan _, (s.unit u).putRunning_clock _⟩

section
variable {s : State} {u : Nat} (rise : keysRise s.vsp.units = true) (plan : (s.unit u).plan = [])
include rise plan

/-- The end of a burst moves no clock and drops no record. -/
theorem State.clearIfDone_kept : ((s.clearIfDone u).unit u).clock = (s.unit u).clock ∧ ((s.clearIfDone u).unit u).returns = (s.unit u).returns := by
  rcases s.clearIfDone_cases u with stays | ends
  · rw [stays]
    exact ⟨rfl, rfl⟩
  · rw [ends, ((UnitBecomes.refl rise).setUnit (w := (s.unit u).ended) (((s.unit u).putRunning_plan none).trans plan)).own]
    exact ⟨(s.unit u).putRunning_clock none, (s.unit u).putRunning_returns none⟩

theorem State.tileDone_clock (b : Burst) (e : TileEnt) : ((s.tileDone u b e).unit u).clock = (s.unit u).clock := by
  obtain ⟨w, x, eq, units, free, clock⟩ := s.tileDone_eq u b e
  have written := (UnitBecomes.refl (u := u) rise).setUnit (free.trans plan)
  have own : x.unit u = w := (congrArg (spGet VUnit.idle · u) units).trans written.own
  rw [eq, (State.clearIfDone_kept (units ▸ written.rise) (by rw [own, free, plan])).1, own, clock]

end

section
variable {s : State} {u : Nat} (rise : keysRise s.vsp.units = true) (plan : (s.unit u).plan = [])
include rise plan

/-- A tile in protected memory is skipped, and its record says so (R157). -/
theorem State.refuseTile_spec (hi : s.Inv) (b : Burst) (e : TileEnt) : (s.refuseTile u b e).bit Reg.vspEvent 3 = true ∧ ((s.refuseTile u b e).unit u).clock = (s.unit u).clock ∧
    ∃ x, ((s.refuseTile u b e).unit u).returns = (s.unit u).returns ++ [x] ∧ x.refused = true ∧ x.tiles = [e] := by
  let r : Return := { id := b.id, kind := b.kind, urgent := b.urgent, slot := 0, cand := 0, level := 0, first := e.tile, rows := 0
                      head := e.head, parts := [], tiles := [e], refused := true, due := b.endPlan }
  let w : VUnit := { (s.unit u).putRunning (some { b with pos := b.pos + 1 }) with returns := (s.unit u).returns ++ [r] }
  have free : w.plan = [] := ((s.unit u).putRunning_plan _).trans plan
  have written : UnitBecomes s u w ((s.setUnit u w).raiseBit Reg.vspEvent 3) := ((UnitBecomes.refl rise).setUnit free).of_vsp (State.raiseBit_vsp ..)
  have noted : ((s.setUnit u w).raiseBit Reg.vspEvent 3).bit Reg.vspEvent 3 = true := State.bit_raiseBit_same (s := s.setUnit u w) hi.liveWf _ (by decide)
  have live : (s.refuseTile u b e).regs.live = ((s.setUnit u w).raiseBit Reg.vspEvent 3).regs.live :=
    (State.clearIfDone_keeps (Within.refl _) u (.refl ((s.setUnit u w).raiseBit Reg.vspEvent 3))).same .live (by decide)
  refine ⟨(congrArg (fun l => bitOf (regGet l Reg.vspEvent) 3) live).trans noted, ?_⟩
  obtain ⟨clock, returns⟩ := State.clearIfDone_kept written.rise (by rw [written.own, free])
  rw [written.own] at clock returns
  exact ⟨clock.trans ((s.unit u).putRunning_clock _), r, returns, rfl, rfl⟩

end

section
variable {s : State} {u : Nat} (rise : keysRise s.vsp.units = true) (plan : (s.unit u).plan = []) {c : Burst} {e : TileEnt}
  (runs : (s.unit u).running = some c) (entry : c.tiles[c.pos]? = some e)
include rise plan runs entry

/-- The row-set reads of a tile begin where all of it ends before the refresh margin; else the unit stops. -/
theorem State.readOn_tile (rows : c.rows = []) (guarded : s.entProtected u e = false) (long : s.tileOcc c e ≠ 0) :
    (s.fitsRefresh u (s.unit u).clock (s.tileOcc c e) = false → (s.readOn u).unit u = { s.unit u with stopped := true }) ∧
    (s.fitsRefresh u (s.unit u).clock (s.tileOcc c e) = true → (s.readOn u).unit u = (s.unit u).putRunning (some { c with
      rows := tileRows (locOff e.loc + (if e.isV = true then (s.tileShape c e).2 else 0)) (s.tileShape c e).2 (s.tileOcc c e) })) := by
  have here : UnitBecomes s u (s.unit u) s := .refl rise
  rw [State.readOn_boundary runs entry rows, if_neg (by rw [guarded]; decide), if_neg long]
  constructor
  · intro late
    rw [if_neg (by rw [late]; decide), (here.stopBurst plan).own]
  · intro fits
    rw [if_pos fits, (here.setUnit (((s.unit u).putRunning_plan _).trans plan)).own]

/-- A row-set read is taken where it ends before the refresh margin; else the unit stops. -/
theorem State.readOn_rows {r : Nat} {rest : List Nat} (rows : c.rows = r :: rest) :
    (s.fitsRefresh u (s.unit u).clock r = false → (s.readOn u).unit u = { s.unit u with stopped := true }) ∧
    (s.fitsRefresh u (s.unit u).clock r = true → ((s.readOn u).unit u).clock = (s.unit u).clock + r * s.vCycle) ∧
    (s.fitsRefresh u (s.unit u).clock r = true → rest ≠ [] →
      (s.readOn u).unit u = { (s.unit u).putRunning (some { c with rows := rest }) with clock := (s.unit u).clock + r * s.vCycle }) := by
  have here : UnitBecomes s u (s.unit u) s := .refl rise
  have spent := here.spend plan r
  have written := spent.setUnit (w := ((s.spend u r).unit u).putRunning (some { c with rows := rest })) (by rw [VUnit.putRunning_plan, spent.own, plan])
  rw [State.readOn_row runs entry rows]
  refine ⟨fun late => ?_, fun fits => ?_, fun fits more => ?_⟩
  · rw [if_pos late, (here.stopBurst plan).own]
  · rw [if_neg (by rw [fits]; decide)]
    split
    · rw [State.tileDone_clock spent.rise (by rw [spent.own, plan]), spent.own]
    · rw [written.own, VUnit.putRunning_clock, spent.own]
  · rw [if_neg (by rw [fits]; decide), if_neg more, written.own, spent.own]
    unfold VUnit.putRunning
    split <;> rfl

end

/-- However a unit reads on, it waits, or cycles pass that fit before the refresh (R167). -/
theorem State.readOn_clock {s : State} {u : Nat} (rise : keysRise s.vsp.units = true) (plan : (s.unit u).plan = []) (hi : s.Inv) : ((s.readOn u).unit u).clock = (s.unit u).clock ∨
    ∃ n, s.fitsRefresh u (s.unit u).clock n = true ∧ ((s.readOn u).unit u).clock = (s.unit u).clock + n * s.vCycle := by
  have here : UnitBecomes s u (s.unit u) s := .refl rise
  cases runs : (s.unit u).running with
  | none => exact .inl (by simp only [State.readOn, runs])
  | some c =>
    cases entry : c.tiles[c.pos]? with
    | none =>
      have ends : s.readOn u = s.clearIfDone u := by simp only [State.readOn, runs, entry]
      exact .inl (ends ▸ (State.clearIfDone_kept rise plan).1)
    | some e =>
      cases rows : c.rows with
      | nil =>
        rw [State.readOn_boundary runs entry rows]
        left
        split
        · exact (State.refuseTile_spec rise plan hi c e).2.1
        split
        · exact State.tileDone_clock rise plan c e
        split
        · rw [(here.setUnit (((s.unit u).putRunning_plan _).trans plan)).own, VUnit.putRunning_clock]
        · rw [(here.stopBurst plan).own]
      | cons r rest =>
        obtain ⟨stops, reads, _⟩ := State.readOn_rows rise plan runs entry rows
        cases fits : s.fitsRefresh u (s.unit u).clock r with
        | false => exact .inl (by rw [stops fits])
        | true => exact .inr ⟨r, fits, reads fits⟩

/-! ### The obligation -/

/-- Settles O47: the starts' own lemmas above, from the present state or from that at the tile boundary; the unit's answer to each way of reading on; its clock by `readOn_clock`. -/
theorem burstsRunUntilARefreshStopsThem : Obligations.BurstsRunUntilARefreshStopsThem := by
  unfold Obligations.BurstsRunUntilARefreshStopsThem
  intro s u b more hi rise open_ plan
  have here : UnitBecomes s u (s.unit u) s := .refl rise
  refine ⟨fun clear free idle => ⟨fun urgent waits => ?_, fun normal none waits => ?_⟩, burstResume_stopped rise open_ plan,
    fun going ended held burst clear => burstResume_held rise open_ plan going ended held burst clear, ?_, ?_, ?_⟩
  · have answer := exec_attendBurst_urgent open_ clear free idle waits
    have mapped := answer.trans (congrArg (fun o : Option State => Host.Outcome.next (o.getD s)) Option.map_id'.symm)
    refine ⟨fun may short some => completes_starts (early := []) mapped (.refl s) rfl rise plan may short some (fun _ => .inl rfl)
        (VUnit.started_urgent urgent (congrArg Option.isSome idle)),
      fun may long => completes_toHub (early := []) mapped (.refl s) rfl rise plan may long (fun _ _ => rfl) free rfl,
      fun bar => by rw [answer, State.attendFrom_none bar, Option.getD_none]⟩
  · have answer := exec_attendBurst_normal open_ clear free idle none waits
    have mapped := answer.trans (congrArg (fun o : Option State => Host.Outcome.next (o.getD s)) Option.map_id'.symm)
    refine ⟨fun may short some => completes_starts (early := []) mapped (.refl s) rfl rise plan may short some (fun _ => .inl rfl) (VUnit.started_normal normal),
      fun may long => completes_toHub (early := []) mapped (.refl s) rfl rise plan may long (fun _ _ => rfl) free rfl,
      fun bar => by rw [answer, State.attendFrom_none bar, Option.getD_none]⟩
  · intro c on free busy boundary reached urgent waits x n clear
    have answer := exec_urgentPreempt open_ on free busy boundary reached waits clear
    have moved : Keeps [.now] s x := State.advanceTo_keeps (Within.refl _) _ (.refl s)
    refine ⟨fun may short some => completes_starts answer moved rfl rise plan may short some (fun _ => ?_)
        (VUnit.started_urgent urgent (congrArg Option.isSome busy)),
      fun may long => completes_toHub answer moved rfl rise plan may long (fun _ none => ?_) free rfl, fun bar => ?_⟩
    · split
      · exact .inl rfl
      · exact .inr rfl
    · rw [if_pos (.inr (by rw [none]; rfl))]
    · rw [answer, State.attendFrom_none bar, Option.map_none, Option.getD_none]
  · exact fun c e runs _ entry => ⟨State.readOn_tile rise plan runs entry,
      fun rows guarded => by
        rw [State.readOn_boundary runs entry rows, if_pos guarded]
        exact State.refuseTile_spec rise plan hi c e,
      fun r rest rows => State.readOn_rows rise plan runs entry rows⟩
  · rcases State.readOn_clock rise plan hi with waits | ⟨n, fits, spent⟩
    · exact .inl waits
    · obtain ⟨_, margin⟩ : _ ∧ (s.unit u).clock + n * s.vCycle + vUnit * s.refreshMargin ≤ vUnit * nextRefresh u ((s.unit u).clock / vUnit) := by
        simpa [State.fitsRefresh] using fits
      exact .inr (spent ▸ margin)

end Sys2Proof.Machine
end

section
/-!
Ordinary accesses: what one finds where it is served, the windows it waits for, and the order in which those that wait are served (R19, R158, R168, R178, R179).
-/

namespace Sys2Proof.Machine

open Sys2Proof

/-! ### Flat memory written (R158) -/

theorem State.peek_poke {s : State} (rise : keysRise s.mem.flat = true) (a x : Nat) (v : Byte) : (s.poke a v).peek x = if x = a then v else s.peek x :=
  spGet_spSet _ _ _ _ rise

theorem State.Inv.flatRise {s : State} (h : s.Inv) : keysRise s.mem.flat = true := ((spWf_iff _ _).mp h.2.2.2.1).1

/-- Bytes written one behind another read back where they were written, every other as before. -/
theorem State.peek_pokes (a : Nat) (bs : List Byte) : ∀ (s : State) (k x : Nat), keysRise s.mem.flat = true →
    ((bs.zipIdx k).foldl (fun s b => s.poke (a + b.2) b.1) s).peek x = if a + k ≤ x ∧ x < a + k + bs.length then bs.getD (x - (a + k)) 0 else s.peek x := by
  induction bs with
  | nil =>
    intro s k x _
    rw [if_neg (by simp only [List.length_nil]; omega)]
    rfl
  | cons b bs ih =>
    intro s k x rise
    have next : keysRise (s.poke (a + k) b).mem.flat = true := keysRise_spSet _ _ _ rise
    rw [List.zipIdx_cons, List.foldl_cons, ih _ _ _ next, State.peek_poke rise, List.length_cons]
    by_cases first : x = a + k
    · rw [if_neg (by omega), if_pos first, if_pos (by omega), first, Nat.sub_self, List.getD_cons_zero]
    · rw [if_neg first]
      by_cases within : a + k + 1 ≤ x ∧ x < a + k + 1 + bs.length
      · obtain ⟨d, rfl⟩ := Nat.exists_eq_add_of_le within.1
        rw [if_pos (by omega), if_pos (by omega), show a + k + 1 + d - (a + (k + 1)) = d by omega, show a + k + 1 + d - (a + k) = d + 1 by omega, List.getD_cons_succ]
      · rw [if_neg (by omega), if_neg (by omega)]

theorem State.peek_pokeAll {s : State} (rise : keysRise s.mem.flat = true) (a : Nat) (bs : List Byte) (x : Nat) :
    (s.pokeAll (fun i => a + i) bs).peek x = if a ≤ x ∧ x < a + bs.length then bs.getD (x - a) 0 else s.peek x :=
  State.peek_pokes a bs s 0 x rise

/-! ### One access served (R19, R178, R179) -/

/-- No check symbol and no sealed KiB lies in the range of a write within the flat range. -/
structure State.PlainAt (s : State) (addr n : Nat) : Prop where
  inside : addr + n ≤ flatEnd
  check : s.firstCheck addr n = none
  bare : s.firstSealed addr n = none

/-- Check symbols lie where the split of the stacks puts them (R178). -/
theorem State.firstCheck_of_split {s t : State} (h : t.sys.split = s.sys.split) : t.firstCheck = s.firstCheck := by
  have limits : t.protKiB = s.protKiB := congrArg (fun (x : List Nat) (u : Nat) => x.getD (u / 256) 73728) h
  funext a n
  simp only [State.firstCheck, State.checkSymbol, State.protectedAt, limits]

/-- What is sealed lies where pages, moves and old locations are. -/
theorem State.firstSealed_of_same {s t : State} (pgw : t.pgw = s.pgw) (mem : t.mem = s.mem) : t.firstSealed = s.firstSealed := by
  have places : t.extents = s.extents := by simp only [State.extents, State.allPages_of_pgw pgw, State.refKiB_of_pgw pgw, mem]
  funext a n
  simp only [State.firstSealed, State.sealedAt, State.sealCode, State.extentAt, places]

theorem State.PlainAt.of_same {s t : State} {addr n : Nat} (h : s.PlainAt addr n) (split : t.sys.split = s.sys.split) (pgw : t.pgw = s.pgw) (mem : t.mem = s.mem) : t.PlainAt addr n where
  inside := h.inside
  check := by rw [State.firstCheck_of_split split, h.check]
  bare := by rw [State.firstSealed_of_same pgw mem, h.bare]

theorem State.serveAccess_plain {s : State} {addr : Nat} {data : List Byte} (plain : s.PlainAt addr data.length) (source : Nat) (ecc : EccOutcome) :
    s.serveAccess source true addr data ecc = (s.pokeAll (fun i => addr + i) data).emit (.access Status.ok []) := by
  have inside : ¬flatEnd < addr + data.length := Nat.not_lt.mpr plain.inside
  simp [State.serveAccess, State.writeFlat, inside, plain.check, plain.bare]

theorem State.serveAccess_bad {s : State} {addr : Nat} {isWrite : Bool} {data : List Byte}
    (bad : flatEnd < addr + (if isWrite = true then data.length else 64) ∨ (isWrite = false ∧ s.firstCheck addr 64 ≠ none) ∨ (isWrite = true ∧ s.firstCheck addr data.length ≠ none))
    (source : Nat) (ecc : EccOutcome) : s.serveAccess source isWrite addr data ecc = s.emit (.access Status.addressError []) := by
  by_cases beyond : flatEnd < addr + (if isWrite = true then data.length else 64)
  · rw [State.serveAccess, if_pos beyond]
  · rw [State.serveAccess, if_neg beyond]
    rcases bad with outside | ⟨reads, check⟩ | ⟨writes, check⟩
    · exact absurd outside beyond
    · obtain ⟨i, hit⟩ := Option.ne_none_iff_exists'.mp check
      simp [reads, hit]
    · obtain ⟨i, hit⟩ := Option.ne_none_iff_exists'.mp check
      simp [writes, State.writeFlat, hit]

theorem State.serveAccess_read {s : State} {addr : Nat} (inside : addr + 64 ≤ flatEnd) (check : s.firstCheck addr 64 = none) (source : Nat) (data : List Byte) (ecc : EccOutcome) :
    s.serveAccess source false addr data ecc =
      if s.codedAt addr = true ∧ ecc = .uncorrectable then (s.fresh.2.eccScore addr ecc).emit (.access Status.addressError [])
      else (s.fresh.2.eccScore addr ecc).emit (.access Status.ok (s.readBytes addr 64)) := by
  have within : ¬flatEnd < addr + 64 := Nat.not_lt.mpr inside
  simp [State.serveAccess, within, check]

/-- A read under no code, and one whose code finds nothing, costs nothing. -/
theorem State.eccScore_nothing {s : State} {addr : Nat} {ecc : EccOutcome} (h : s.codedAt addr = false ∨ ecc = .clean) : s.eccScore addr ecc = s := by
  rcases h with bare | rfl
  · obtain ⟨low, unprotected⟩ : addr < tier0End ∧ s.protectedAt addr = false := by simpa [State.codedAt] using bare
    unfold State.eccScore
    simp [Nat.not_le.mpr low, unprotected]
  · simp [State.eccScore, State.tier1Ecc]

/-- A write has been done and answered. -/
def Written (addr : Nat) (data : List Byte) (s t : State) : Prop :=
  Sends s t [.access Status.ok []] ∧ (∀ i, i < data.length → t.peek (addr + i) = data.getD i 0) ∧ (∀ a, a < addr ∨ addr + data.length ≤ a → t.peek a = s.peek a)

theorem written_of {s t : State} (rise : keysRise s.mem.flat = true) (outbox : t.outbox = s.outbox) (mem : t.mem = s.mem) (addr : Nat) (data : List Byte) :
    Written addr data s ((t.pokeAll (fun i => addr + i) data).emit (.access Status.ok [])) := by
  have sent : (t.pokeAll (fun i => addr + i) data).outbox = s.outbox := Eq.trans ((State.pokeAll_keeps (Within.refl _) _ _ (.refl t)).same .outbox (by decide)) outbox
  have reads (x : Nat) : ((t.pokeAll (fun i => addr + i) data).emit (.access Status.ok [])).peek x =
      if addr ≤ x ∧ x < addr + data.length then data.getD (x - addr) 0 else s.peek x := by
    refine (State.peek_pokeAll (mem ▸ rise) addr data x).trans ?_
    rw [State.peek, State.peek, mem]
  refine ⟨congrArg (· ++ _) sent, fun i hi => ?_, fun a ha => ?_⟩
  · rw [reads, if_pos (by omega), Nat.add_sub_cancel_left]
  · rw [reads, if_neg (by omega)]

/-- What one write served changes beside what changed before. -/
theorem Keeps.written {m : List Blk} {s t : State} (h : Keeps m s t) (hm : Within [.mem, .outbox] m) (addr : Nat) (data : List Byte) :
    Keeps m s ((t.pokeAll (fun i => addr + i) data).emit (.access Status.ok [])) :=
  State.emit_keeps (hm.sub rfl) _ (State.pokeAll_keeps (hm.sub rfl) _ _ h)

theorem UnitBecomes.put {s : State} {u : Nat} {w : VUnit} (rise : keysRise s.vsp.units = true) (plan : w.plan = []) : UnitBecomes s u w (s.setUnit u w) :=
  (UnitBecomes.refl rise).setUnit plan

theorem UnitBecomes.written {s t : State} {u : Nat} {w : VUnit} (h : UnitBecomes s u w t) (addr : Nat) (data : List Byte) :
    UnitBecomes s u w ((t.pokeAll (fun i => addr + i) data).emit (.access Status.ok [])) :=
  h.of_vsp ((State.pokeAll_keeps (Within.refl _) _ _ (.refl t)).same .vsp (by decide))

/-! ### ORDINARY_ACCESS (R168) -/

section
variable {s : State} {u : Nat} (present : s.goesOn u (some (vUnit * s.now)) = false) {addr source : Nat} {isWrite : Bool} {data : List Byte} {ecc : EccOutcome}
include present

theorem exec_ordinaryAccess_served (free : ¬(addr < tier0End ∧ (tier0Decode addr).1 = u ∧ ((s.unit u).busy = true ∨ s.refreshDue u = true))) :
    exec (.ordinaryAccess u source isWrite addr ⟨data, ecc⟩) s = .next (s.serveAccess source isWrite addr data ecc) := by
  show execOrdinaryAccess u source isWrite addr ⟨data, ecc⟩ s = _
  simp only [execOrdinaryAccess, State.pumpNow_still present]
  rw [if_neg free]

variable (waits : addr < tier0End ∧ (tier0Decode addr).1 = u ∧ ((s.unit u).busy = true ∨ s.refreshDue u = true))
include waits

theorem exec_ordinaryAccess_waits (closed : s.joinWindow u = none) : exec (.ordinaryAccess u source isWrite addr ⟨data, ecc⟩) s =
    .next (s.setUnit u { s.unit u with waiting := (s.unit u).waiting ++ [⟨source, isWrite, addr, data, ecc⟩] }) := by
  show execOrdinaryAccess u source isWrite addr ⟨data, ecc⟩ s = _
  simp only [execOrdinaryAccess, State.pumpNow_still present, closed]
  rw [if_pos waits]

theorem exec_ordinaryAccess_joins {t : State} (joins : s.joinWindow u = some t) :
    exec (.ordinaryAccess u source isWrite addr ⟨data, ecc⟩) s = .next (t.serveAccess source isWrite addr data ecc) := by
  show execOrdinaryAccess u source isWrite addr ⟨data, ecc⟩ s = _
  simp only [execOrdinaryAccess, State.pumpNow_still present, joins]
  rw [if_pos waits]

end

/-- The unit's window is open, and one more access fits in it (R168). -/
def State.JoinsAt (s : State) (u e k : Nat) : Prop :=
  (s.unit u).window = some (e, k) ∧ vUnit * s.now ≤ e ∧ k < s.fld Reg.vspBurstCfg 19 16 ∧ s.fitsRefresh u e 4 = true

theorem State.joinWindow_open {s : State} {u e k : Nat} (h : s.JoinsAt u e k) : s.joinWindow u =
    some ((s.setUnit u { s.unit u with window := some (e + 4 * s.vCycle, k + 1), clock := (s.unit u).clock + 4 * s.vCycle }).unitCount u 0x0C 4) := by
  obtain ⟨window, open_, room, fits⟩ := h
  simp only [State.joinWindow, window]
  rw [if_pos ⟨open_, room, fits⟩]

theorem State.joinWindow_closed {s : State} {u : Nat} (h : ∀ e k, ¬s.JoinsAt u e k) : s.joinWindow u = none := by
  cases window : (s.unit u).window with
  | none => simp only [State.joinWindow, window]
  | some x =>
    simp only [State.joinWindow, window]
    exact if_neg fun fits => h x.1 x.2 ⟨window, fits⟩

/-! ### ACCESS_WINDOW (R168) -/

/-- One access is always served. -/
theorem State.windowFit_one (s : State) (u clock : Nat) : min 1 (s.windowFit u clock 1) = 1 := Nat.min_eq_left (Nat.le_max_left ..)

theorem take_one_of_head {α : Type} {l : List α} {a : α} (h : l.head? = some a) : l.take 1 = [a] := by rw [List.take_one, h, Option.toList_some]

/-- A unit after a window of k accesses that ends at a count, its rows open again or the burst suspended. -/
def VUnit.windowed (w : VUnit) (e k reopen : Nat) (fits : Bool) : VUnit :=
  if fits = true then { w with clock := e + reopen, window := some (e, k) } else { w with clock := e, window := some (e, k), stopped := true }

theorem UnitBecomes.ite {s x y : State} {u : Nat} {v w : VUnit} {c : Prop} [Decidable c] (yes : c → UnitBecomes s u v x) (no : ¬c → UnitBecomes s u w y) :
    UnitBecomes s u (if c then v else w) (if c then x else y) := by
  split
  · exact yes ‹_›
  · exact no ‹_›

theorem State.openWindow_becomes {s t : State} {u : Nat} {w : VUnit} (h : UnitBecomes s u w t) (plan : w.plan = []) (k : Nat) :
    UnitBecomes s u (w.windowed (max w.clock (vUnit * t.now) + windowCycles k * t.vCycle) k (12 * t.vCycle)
      (t.fitsRefresh u (max w.clock (vUnit * t.now) + windowCycles k * t.vCycle) 12)) (t.openWindow u k) := by
  have closed := ((h.setUnit (w := { w with clock := max w.clock (vUnit * t.now) }) plan).unitCount 0x14 1).spend plan (windowCycles k)
  have opened := closed.setUnit (w := { w with clock := max w.clock (vUnit * t.now) + windowCycles k * t.vCycle, window := some (max w.clock (vUnit * t.now) + windowCycles k * t.vCycle, k) }) plan
  unfold State.openWindow
  rw [h.own]
  dsimp only
  rw [closed.own]
  exact .ite (fun _ => opened.spend plan 12) (fun _ => opened.stopBurst plan)

section
variable {s : State} {u n : Nat} (present : s.goesOn u (some (vUnit * s.now)) = false) {a : Access} (first : (byRank (s.unit u).waiting).head? = some a)
  (one : min n (min (s.unit u).waiting.length (s.fld Reg.vspBurstCfg 19 16)) = 1)
include present first one

/-- One access is served whatever fits. -/
theorem exec_accessWindow_idle (idle : (s.unit u).busy = false) (due : s.refreshDue u = false) : exec (.accessWindow u n) s =
    .next ((s.setUnit u { s.unit u with waiting := (byRank (s.unit u).waiting).drop 1 }).serveAccess a.source a.isWrite a.addr a.data a.ecc) := by
  show execAccessWindow u n s = _
  have quiet : (s.unit u).reading = false := by rw [VUnit.reading, VUnit.running_idle idle]; rfl
  simp [execAccessWindow, State.pumpNow_still present, quiet, due, State.windowMax, one, State.windowFit_one, take_one_of_head first]

theorem exec_accessWindow_burst {c : Burst} (runs : (s.unit u).running = some c) (going : (s.unit u).stopped = false) (boundary : c.rows = [])
    (due : (s.advanceTo (ceilDiv (s.unit u).clock vUnit)).refreshDue u = false) : exec (.accessWindow u n) s =
    .next ((((s.advanceTo (ceilDiv (s.unit u).clock vUnit)).setUnit u { s.unit u with waiting := (byRank (s.unit u).waiting).drop 1 }).openWindow u 1).serveAccess
      a.source a.isWrite a.addr a.data a.ecc) := by
  show execAccessWindow u n s = _
  have reads : (s.unit u).reading = true := by simp [VUnit.reading, runs, going]
  have ended : s.endRow u = s := by simp [State.endRow, runs, boundary]
  have caught : (s.endRow u).catchUp u = s.advanceTo (ceilDiv (s.unit u).clock vUnit) := by rw [ended, State.catchUp]
  have same : (s.advanceTo (ceilDiv (s.unit u).clock vUnit)).unit u = s.unit u := rfl
  have most : min n (min (s.unit u).waiting.length (s.advanceTo (ceilDiv (s.unit u).clock vUnit)).windowMax) = 1 := one
  simp only [execAccessWindow, State.pumpNow_still present, reads, if_true, caught, same, due, most, State.windowFit_one, take_one_of_head first]
  simp

end

/-! ### What each access comes to -/

section
variable {s : State} {u : Nat} (present : s.goesOn u (some (vUnit * s.now)) = false) {addr source : Nat} {isWrite : Bool} {data : List Byte} {ecc : EccOutcome}

section
variable (waits : addr < tier0End ∧ (tier0Decode addr).1 = u ∧ ((s.unit u).busy = true ∨ s.refreshDue u = true)) (rise : keysRise s.vsp.units = true) (plan : (s.unit u).plan = [])
include present waits rise plan

theorem access_waits (closed : ∀ e k, ¬s.JoinsAt u e k) : Completes (.ordinaryAccess u source isWrite addr ⟨data, ecc⟩) s [.vsp] (fun t =>
    t.unit u = { s.unit u with waiting := List.append (s.unit u).waiting [⟨source, isWrite, addr, data, ecc⟩] } ∧ ∀ k, k ≠ u → t.unit k = s.unit k) := by
  have became := UnitBecomes.put (u := u) (w := { s.unit u with waiting := (s.unit u).waiting ++ [⟨source, isWrite, addr, data, ecc⟩] }) rise plan
  exact completes_keeps (exec_ordinaryAccess_waits present waits (State.joinWindow_closed closed)) (State.setUnit_keeps (Within.refl _) _ _ (.refl s)) ⟨became.own, became.others⟩

theorem access_joins (hi : s.Inv) {e k : Nat} (joins : s.JoinsAt u e k) (plain : s.PlainAt addr data.length) :
    Completes (.ordinaryAccess u source true addr ⟨data, ecc⟩) s [.run, .vsp, .mem, .outbox] (fun t => Written addr data s t ∧
      t.unit u = { s.unit u with window := some (e + 4 * s.vCycle, k + 1), clock := (s.unit u).clock + 4 * s.vCycle }) := by
  let w : VUnit := { s.unit u with window := some (e + 4 * s.vCycle, k + 1), clock := (s.unit u).clock + 4 * s.vCycle }
  let x := (s.setUnit u w).unitCount u 0x0C 4
  have became : UnitBecomes s u w x := (UnitBecomes.put (w := w) rise plan).unitCount _ _
  have within := Within.refl [Blk.run, Blk.vsp, Blk.mem, Blk.outbox]
  have kept : Keeps [.run, .vsp, .mem, .outbox] s x := State.unitCount_keeps (within.sub rfl) _ _ _ (State.setUnit_keeps (within.sub rfl) _ _ (.refl s))
  have served := exec_ordinaryAccess_joins present waits (source := source) (isWrite := true) (data := data) (ecc := ecc) (State.joinWindow_open joins)
  rw [State.serveAccess_plain (plain.of_same (t := x) rfl rfl rfl)] at served
  exact completes_keeps served (kept.written (within.sub rfl) addr data) ⟨written_of (t := x) hi.flatRise rfl rfl addr data, (became.written addr data).own⟩

end

section
variable (free : ¬(addr < tier0End ∧ (tier0Decode addr).1 = u ∧ ((s.unit u).busy = true ∨ s.refreshDue u = true)))
include present free

theorem access_bad (bad : flatEnd < addr + (if isWrite = true then data.length else 64) ∨ (isWrite = false ∧ s.firstCheck addr 64 ≠ none) ∨
    (isWrite = true ∧ s.firstCheck addr data.length ≠ none)) :
    Completes (.ordinaryAccess u source isWrite addr ⟨data, ecc⟩) s [.outbox] (fun t => Sends s t [.access Status.addressError []]) := by
  have served := exec_ordinaryAccess_served present (source := source) (isWrite := isWrite) (data := data) (ecc := ecc) free
  rw [State.serveAccess_bad bad] at served
  exact completes_keeps served (State.emit_keeps (Within.refl _) _ (.refl s)) rfl

theorem access_written (hi : s.Inv) (plain : s.PlainAt addr data.length) :
    Completes (.ordinaryAccess u source true addr ⟨data, ecc⟩) s [.mem, .outbox] (Written addr data s) := by
  have served := exec_ordinaryAccess_served present (source := source) (isWrite := true) (data := data) (ecc := ecc) free
  rw [State.serveAccess_plain plain] at served
  exact completes_keeps served ((Keeps.refl s).written (Within.refl _) addr data) (written_of hi.flatRise rfl rfl addr data)

variable (inside : addr + 64 ≤ flatEnd) (check : s.firstCheck addr 64 = none)
include inside check

theorem access_read (clean : s.codedAt addr = false ∨ ecc = .clean) :
    Completes (.ordinaryAccess u source false addr ⟨data, ecc⟩) s [.outbox, .freeCtr] (fun t => Sends s t [.access Status.ok (s.readBytes addr 64)]) := by
  have served := exec_ordinaryAccess_served present (source := source) (isWrite := false) (data := data) (ecc := ecc) free
  have sound : ¬(s.codedAt addr = true ∧ ecc = .uncorrectable) := by rcases clean with bare | rfl <;> simp [*]
  rw [State.serveAccess_read inside check, if_neg sound, State.eccScore_nothing (s := s.fresh.2) clean] at served
  have within := Within.refl [Blk.outbox, Blk.freeCtr]
  exact completes_keeps served (State.emit_keeps (within.sub rfl) _ (State.fresh_keeps (within.sub rfl) (.refl s))) rfl

/-- Under a code with an error, the answer follows what the code scores. -/
theorem access_corrected (coded : s.codedAt addr = true) (status : Nat) (bytes : List Byte)
    (answer : ecc = .corrected ∧ status = Status.ok ∧ bytes = s.readBytes addr 64 ∨ ecc = .uncorrectable ∧ status = Status.addressError ∧ bytes = []) :
    Completes (.ordinaryAccess u source false addr ⟨data, ecc⟩) s (partsOf (.ordinaryAccess u source false addr ⟨data, ecc⟩))
      (fun t => t.outbox.getLast? = some (.access status bytes)) := by
  have served : exec (.ordinaryAccess u source false addr ⟨data, ecc⟩) s = .next ((s.fresh.2.eccScore addr ecc).emit (.access status bytes)) := by
    rw [exec_ordinaryAccess_served present free, State.serveAccess_read inside check]
    rcases answer with ⟨rfl, rfl, rfl⟩ | ⟨rfl, rfl, rfl⟩
    · rw [if_neg (by simp)]
    · rw [if_pos ⟨coded, rfl⟩]
  exact completes_of served (execOrdinaryAccess_keeps (Within.refl _) _ _ _ _ _ (.refl s)) List.getLast?_concat

end

section
variable (rise : keysRise s.vsp.units = true) (plan : (s.unit u).plan = []) (hi : s.Inv) (plain : s.PlainAt addr data.length) {n : Nat}
  (first : (byRank (s.unit u).waiting).head? = some ⟨source, true, addr, data, ecc⟩) (one : min n (min (s.unit u).waiting.length (s.fld Reg.vspBurstCfg 19 16)) = 1)
include present rise plan hi plain first one

theorem window_idle (idle : (s.unit u).busy = false) (due : s.refreshDue u = false) : Completes (.accessWindow u n) s [.vsp, .mem, .outbox] (fun t =>
    Written addr data s t ∧ t.unit u = { s.unit u with waiting := (byRank (s.unit u).waiting).drop 1 }) := by
  let w : VUnit := { s.unit u with waiting := (byRank (s.unit u).waiting).drop 1 }
  have became : UnitBecomes s u w (s.setUnit u w) := .put rise plan
  have served := exec_accessWindow_idle present first one idle due
  dsimp only at served
  rw [State.serveAccess_plain (plain.of_same (t := s.setUnit u w) rfl rfl rfl)] at served
  have within := Within.refl [Blk.vsp, Blk.mem, Blk.outbox]
  exact completes_keeps served ((State.setUnit_keeps (within.sub rfl) _ _ (.refl s)).written (within.sub rfl) addr data)
    ⟨written_of (t := s.setUnit u w) hi.flatRise rfl rfl addr data, (became.written addr data).own⟩

theorem window_burst {c : Burst} (runs : (s.unit u).running = some c) (going : (s.unit u).stopped = false) (boundary : c.rows = []) :
    let x := s.advanceTo (ceilDiv (s.unit u).clock vUnit)
    let e := max (s.unit u).clock (vUnit * x.now) + 16 * s.vCycle
    let fits := s.fitsRefresh u e 12
    x.refreshDue u = false → Completes (.accessWindow u n) s [.now, .run, .vsp, .mem, .outbox] (fun t => Written addr data s t ∧ t.now = x.now ∧
      t.unit u = { s.unit u with waiting := (byRank (s.unit u).waiting).drop 1, window := some (e, 1)
                                 clock := if fits = true then e + 12 * s.vCycle else e, stopped := !fits }) := by
  intro x e fits due
  let w : VUnit := { s.unit u with waiting := (byRank (s.unit u).waiting).drop 1 }
  let y := x.setUnit u w
  have moved : Keeps [.now] s x := State.advanceTo_keeps (Within.refl _) _ (.refl s)
  have opened := State.openWindow_becomes (t := y) (u := u) ((UnitBecomes.put (s := x) (w := w) rise plan).from_vsp rfl) plan 1
  have within := Within.refl [Blk.now, Blk.run, Blk.vsp, Blk.mem, Blk.outbox]
  have kept : Keeps [.run, .vsp] y (y.openWindow u 1) := State.openWindow_keeps (Within.refl _) _ _ (.refl y)
  have split : (y.openWindow u 1).sys.split = s.sys.split := (congrArg SysSt.split (kept.same .sys (by decide)) :)
  have served := exec_accessWindow_burst present first one runs going boundary due
  dsimp only at served
  rw [State.serveAccess_plain (plain.of_same (t := y.openWindow u 1) split (kept.same .pgw (by decide)) (kept.same .mem (by decide)))] at served
  have all : Keeps [.now, .run, .vsp, .mem, .outbox] s (y.openWindow u 1) :=
    State.openWindow_keeps (within.sub rfl) _ _ (State.setUnit_keeps (within.sub rfl) _ _ (moved.mono (within.sub rfl)))
  refine completes_keeps served (all.written (within.sub rfl) addr data)
    ⟨written_of (t := y.openWindow u 1) hi.flatRise (kept.same .outbox (by decide)) (kept.same .mem (by decide)) addr data, ?_, ?_⟩
  · exact Eq.trans (((Keeps.refl (y.openWindow u 1)).written (Within.refl _) addr data).same .now (by decide)) (kept.same .now (by decide))
  · refine (opened.written addr data).own.trans ?_
    show VUnit.windowed w e 1 (12 * s.vCycle) fits = _
    unfold VUnit.windowed
    cases fits <;> simp [w, going]

end
end

end Sys2Proof.Machine
end

section
/-!
Scrub and move bursts (R165, R171, R172): what of a burst starts, which pairs of a pass it reads, and where a pass ends.
-/

namespace Sys2Proof.Machine

open Sys2Proof

/-! ### A tile by its entry and side -/

/-- Which tiles a list of tile entries names. -/
abbrev tileKeys (l : List TileEnt) : List (BurstEntry × Bool) := l.map (fun y => (y.ent, y.isV))

theorem tileKeys_map {f : TileEnt → TileEnt} (h : ∀ t, (f t).ent = t.ent ∧ (f t).isV = t.isV) (l : List TileEnt) : tileKeys (l.map f) = tileKeys l := by
  rw [tileKeys, List.map_map]
  exact List.map_congr_left fun t _ => Prod.ext (h t).1 (h t).2

/-! ### Starting (R165) -/

section
variable {s : State} {u : Nat} {v : VUnit} {b : Burst} {flips : List Flip}

theorem State.startOther_none (h : s.plannable u s.now b = 0) : s.startOther u v b flips = none := if_pos h

/-- The strikes of a read change no tile's entry. -/
theorem State.startOther_some (h : s.plannable u s.now b ≠ 0) : ∃ f : TileEnt → TileEnt, (∀ t, (f t).ent = t.ent ∧ (f t).isV = t.isV) ∧
    s.startOther u v b flips = some (s.startBurst u v { b with tiles := b.tiles.map f } (s.plannable u s.now b)) := by
  refine ⟨_, ?_, if_neg h⟩
  exact fun _ => ⟨rfl, rfl⟩

/-- A burst of no attention kind is cut between any two tiles. -/
theorem State.leftOver_tiles (h : b.kind ≠ .attend) (n : Nat) : (s.leftOver b n).flatMap (·.tiles) = b.tiles.drop n := by
  unfold State.leftOver
  split
  · rename_i whole
    rw [List.drop_of_length_le whole]
    rfl
  · unfold Burst.rest
    dsimp only
    split <;> simp [h]

theorem State.leftOver_kind {n : Nat} : ∀ x ∈ s.leftOver b n, x.kind = b.kind := by
  intro x hx
  unfold State.leftOver at hx
  split at hx
  · cases hx
  · rw [List.mem_singleton.mp hx]
    rfl

end

/-! ### MOVE_BURST (R172) -/

section
variable {s : State} {u : Nat} (open_ : s.masked u = false) (clear : inRefresh u s.now = false) (idle : (s.unit u).busy = false) (guard : isGuard s.now = false)
  (runs : s.running = true) (owner : s.owner = Owner.migrate) {b : Burst} (waits : (s.unit u).normal.find? (fun x => x.kind == .move) = some b)
include open_ clear idle guard runs owner waits

theorem exec_moveBurst (flips : List Flip) :
    exec (.moveBurst u flips) s = .next ((s.startOther u { s.unit u with normal := (s.unit u).normal.erase b } b flips).getD s) := by
  show execMoveBurst u flips s = _
  simp [execMoveBurst, State.runOut_still (.inl (VUnit.running_idle idle)), open_, clear, idle, guard, runs, owner, waits]

theorem moveBurst_starts (rise : keysRise s.vsp.units = true) (plan : (s.unit u).plan = []) (normal : b.urgent = false) (some : s.plannable u s.now b ≠ 0) (flips : List Flip) :
    Completes (.moveBurst u flips) s [.run, .vsp] (fun t => ∃ (c : Burst) (rest : List Burst),
      t.unit u = { s.unit u with normal := List.append rest ((s.unit u).normal.erase b), cur := Option.some c, stopped := false
                                 clock := vUnit * s.now + 12 * s.vCycle, window := none } ∧
      c.id = b.id ∧ c.kind = .move ∧ tileKeys c.tiles = tileKeys (b.tiles.take (s.plannable u s.now b)) ∧
      tileKeys (rest.flatMap (·.tiles)) = tileKeys (b.tiles.drop (s.plannable u s.now b))) := by
  have kind : b.kind = .move := by simpa using List.find?_some waits
  obtain ⟨f, keys, starts⟩ := State.startOther_some (v := { s.unit u with normal := (s.unit u).normal.erase b }) (flips := flips) some
  have answer := exec_moveBurst open_ clear idle guard runs owner waits flips
  rw [starts, Option.getD_some] at answer
  have became := State.startBurst_becomes (u := u) rise (v := { s.unit u with normal := (s.unit u).normal.erase b }) plan { b with tiles := b.tiles.map f } (s.plannable u s.now b)
  have started := became.own.trans (VUnit.started_normal normal)
  refine completes_keeps answer (State.startBurst_keeps (Within.refl _) _ _ _ _ (.refl s)) ⟨_, _, started, rfl, kind, ?_, ?_⟩
  · show tileKeys ((b.tiles.map f).take _) = _
    rw [← List.map_take, tileKeys_map keys]
  · rw [State.leftOver_tiles (by rw [kind]; decide), ← List.map_drop, tileKeys_map keys]

end

/-! ### The pairs ahead of a pass (R171) -/

theorem mem_offInsert {x y : Nat × BurstEntry} {l : List (Nat × BurstEntry)} : y ∈ offInsert x l ↔ y = x ∨ y ∈ l := by
  induction l with
  | nil => simp [offInsert]
  | cons z l ih =>
    unfold offInsert
    split
    · exact List.mem_cons
    · rw [List.mem_cons, ih, List.mem_cons]
      tauto

theorem offInsert_sorted {x : Nat × BurstEntry} {l : List (Nat × BurstEntry)} (h : l.Pairwise (fun a b => a.1 ≤ b.1)) : (offInsert x l).Pairwise (fun a b => a.1 ≤ b.1) := by
  induction l with
  | nil => exact List.pairwise_singleton _ _
  | cons z l ih =>
    obtain ⟨least, rest⟩ := List.pairwise_cons.mp h
    unfold offInsert
    split
    · rename_i first
      exact List.pairwise_cons.mpr ⟨fun y hy => (List.mem_cons.mp hy).elim (fun e => e ▸ first) (fun hy => first.trans (least y hy)), h⟩
    · refine List.pairwise_cons.mpr ⟨fun y hy => ?_, ih rest⟩
      rcases mem_offInsert.mp hy with rfl | hy
      · omega
      · exact least y hy

theorem offSort_spec (l : List (Nat × BurstEntry)) : ∀ acc : List (Nat × BurstEntry), acc.Pairwise (fun a b => a.1 ≤ b.1) →
    (l.foldl (fun l x => offInsert x l) acc).Pairwise (fun a b => a.1 ≤ b.1) ∧ ∀ y, y ∈ l.foldl (fun l x => offInsert x l) acc ↔ y ∈ l ∨ y ∈ acc := by
  induction l with
  | nil => exact fun acc sorted => ⟨sorted, fun y => by simp⟩
  | cons x l ih =>
    intro acc sorted
    obtain ⟨rises, members⟩ := ih _ (offInsert_sorted (x := x) sorted)
    refine ⟨rises, fun y => ?_⟩
    rw [List.foldl_cons, members, mem_offInsert, List.mem_cons]
    tauto

/-- No leaf of a request is a sealed pair of a unit. -/
theorem State.sealedPairs_noLeaf {s : State} {u : Nat} : ∀ x ∈ s.sealedPairs u, ∀ rid idx, x.2 ≠ .leaf rid idx := by
  intro x hx rid idx
  simp only [State.sealedPairs, List.mem_append, List.mem_flatMap] at hx
  rcases hx with (⟨p, _, hx⟩ | ⟨o, _, hx⟩) | ⟨m, _, hx⟩
  · split at hx
    · cases hx
    · obtain ⟨w, _, rfl⟩ := List.mem_map.mp hx
      nofun
  · split at hx
    · obtain ⟨w, _, rfl⟩ := List.mem_map.mp hx
      nofun
    · cases hx
  · split at hx
    · obtain ⟨w, _, rfl⟩ := List.mem_map.mp hx
      nofun
    · cases hx

section
variable {s : State} {u pos : Nat} (passing : (s.unit u).passPos = some pos)
include passing

theorem State.scrubTodo_sorted : (s.scrubTodo u).Pairwise (fun a b => a.1 ≤ b.1) := by
  simp only [State.scrubTodo, passing]
  exact (offSort_spec _ _ .nil).1

theorem State.mem_scrubTodo {x : Nat × BurstEntry} : x ∈ s.scrubTodo u ↔ x ∈ s.sealedPairs u ∧ (pos ≤ x.1 ∨ x.1 ∈ (s.unit u).again) := by
  simp only [State.scrubTodo, passing]
  rw [(offSort_spec _ _ .nil).2]
  simp

end

/-! ### What of them a scrub burst holds (R165) -/

/-- The tiles of a sealed pair: K before V. -/
abbrev pairKeys (x : Nat × BurstEntry) : List (BurstEntry × Bool) := [(x.2, false), (x.2, true)]

theorem State.planItems_keys {s : State} {x : Nat × BurstEntry} (h : ∀ rid idx, x.2 ≠ .leaf rid idx) (cap : Nat) :
    (s.planItems .scrub cap x.2).map (fun i => (i.tile.ent, i.tile.isV)) = pairKeys x := by
  unfold State.planItems
  cases e : x.2 with
  | leaf rid idx => exact absurd e (h rid idx)
  | _ => simp [pairKeys, e]

/-- The first burst cut from some items holds the first of them. -/
theorem State.pack_head (s : State) (kind : BurstKind) (urgent : Bool) (cap : Nat) (l : List PlanItem) : ∀ cur, (s.pack kind urgent cap l cur).headD [] <+: cur ++ l := by
  induction l with
  | nil =>
    intro cur
    unfold State.pack
    split
    · exact List.nil_prefix
    · simp
  | cons x l ih =>
    intro cur
    unfold State.pack
    dsimp only
    split
    · exact List.prefix_append _ _
    · simpa using ih (cur ++ [x])

theorem mkBurst_keys (id : Nat) (kind : BurstKind) (urgent : Bool) (cls : Nat) (chain : Bool) (items : List PlanItem) :
    tileKeys (mkBurst id kind urgent cls chain items).tiles = items.map (fun i => (i.tile.ent, i.tile.isV)) := by
  simp [tileKeys, mkBurst]

/-- The burst planned over the pairs ahead of a unit's pass: whole pairs of it. -/
def State.scrubPlan (s : State) (u : Nat) : Burst :=
  let b := mkBurst (s.vsp.nextBurst % 65536) .scrub false 0 false ((s.pack .scrub false 8 ((s.scrubTodo u).flatMap (fun x => s.planItems .scrub 1 x.2)) []).headD [])
  { b with tiles := b.tiles.take (2 * (b.tiles.length / 2)) }

theorem State.scrubPlan_keys {s : State} {u pos : Nat} (passing : (s.unit u).passPos = some pos) :
    tileKeys (s.scrubPlan u).tiles <+: (s.scrubTodo u).flatMap pairKeys := by
  have items : ((s.scrubTodo u).flatMap (fun x => s.planItems .scrub 1 x.2)).map (fun i => (i.tile.ent, i.tile.isV)) = (s.scrubTodo u).flatMap pairKeys := by
    rw [List.map_flatMap]
    exact List.flatMap_congr fun x hx => State.planItems_keys (State.sealedPairs_noLeaf x ((State.mem_scrubTodo passing).mp hx).1) 1
  unfold State.scrubPlan
  dsimp only
  rw [← items, tileKeys, List.map_take]
  refine (List.take_prefix _ _).trans ?_
  rw [← tileKeys, mkBurst_keys]
  exact (s.pack_head .scrub false 8 _ []).map _

end Sys2Proof.Machine
end

section
/-!
The course of a scrub pass (R171): what a burst of it reads, where it stands after, and how it ends.
-/

namespace Sys2Proof.Machine

open Sys2Proof

/-! ### What a burst reads of a pass -/

/-- Tiles taken from the front of some pairs hold the V tiles of the first of them. -/
theorem read_prefix {p : List (BurstEntry × Bool)} {todo : List (Nat × BurstEntry)} (h : p <+: todo.flatMap pairKeys) :
    ∃ m, ∀ e, (e, true) ∈ p ↔ e ∈ (todo.take m).map Prod.snd := by
  induction todo generalizing p with
  | nil =>
    rw [List.flatMap_nil, List.prefix_nil] at h
    exact ⟨0, fun e => by simp [h]⟩
  | cons x rest ih =>
    simp only [List.flatMap_cons, List.cons_append, List.nil_append] at h
    cases p with
    | nil => exact ⟨0, fun e => by simp⟩
    | cons k p =>
      obtain ⟨rfl, values⟩ := List.cons_prefix_cons.mp h
      cases p with
      | nil => exact ⟨0, fun e => by simp⟩
      | cons v p =>
        obtain ⟨rfl, more⟩ := List.cons_prefix_cons.mp values
        obtain ⟨m, reads⟩ := ih more
        exact ⟨m + 1, fun e => by simp [reads]⟩

theorem foldl_past_le {b : Nat} (l : List Nat) (h : ∀ o ∈ l, o < b) : ∀ n, n ≤ b → l.foldl (fun n o => max n (o + 1)) n ≤ b := by
  induction l with
  | nil => exact fun _ hn => hn
  | cons o l ih =>
    obtain ⟨first, rest⟩ := List.forall_mem_cons.mp h
    exact fun n hn => ih rest _ (Nat.max_le.mpr ⟨hn, first⟩)

/-- What a pass does not read lies where it goes on, or is still to be read again. -/
theorem unread_ahead {todo : List (Nat × BurstEntry)} (sorted : todo.Pairwise (fun a b => a.1 ≤ b.1)) (offs : (todo.map Prod.fst).Nodup) (ents : (todo.map Prod.snd).Nodup)
    {pos m : Nat} {again : List Nat} (ahead : ∀ x ∈ todo, pos ≤ x.1 ∨ x.1 ∈ again) {read : List BurstEntry} (first : ∀ e, e ∈ read ↔ e ∈ (todo.take m).map Prod.snd) :
    let past := (todo.filter (fun x => read.contains x.2)).map Prod.fst
    ∀ x ∈ todo, x.2 ∉ read → past.foldl (fun n o => max n (o + 1)) pos ≤ x.1 ∨ x.1 ∈ again.filter (fun o => !past.contains o) := by
  intro past x hx unread
  have strict : (todo.take m ++ todo.drop m).Pairwise (fun a b => a.1 < b.1) := by
    rw [List.take_append_drop]
    exact (sorted.and (List.pairwise_map.mp offs)).imp fun h => lt_of_le_of_ne h.1 h.2
  have later : x ∈ todo.drop m := by
    rw [← List.take_append_drop m todo, List.mem_append] at hx
    exact hx.resolve_left fun early => unread ((first _).mpr (List.mem_map_of_mem early))
  have above : ∀ o ∈ past, o < x.1 := by
    intro o ho
    obtain ⟨z, hz, rfl⟩ := List.mem_map.mp ho
    obtain ⟨hz, done⟩ := List.mem_filter.mp hz
    obtain ⟨y, hy, same⟩ := List.mem_map.mp ((first z.2).mp (List.contains_iff_mem.mp done))
    have e : y = z := List.inj_on_of_nodup_map ents (List.mem_of_mem_take hy) hz same
    exact (List.pairwise_append.mp strict).2.2 z (e ▸ hy) x later
  rcases ahead x hx with lies | missed
  · exact .inl (foldl_past_le past above pos lies)
  · refine .inr (List.mem_filter.mpr ⟨missed, ?_⟩)
    rw [Bool.not_eq_true', ← Bool.not_eq_true, List.contains_iff_mem]
    exact fun ho => Nat.lt_irrefl _ (above _ ho)

/-! ### SCRUB_BURST (R171) -/

/-- The V tiles of the burst in a unit's context. -/
def VUnit.reads (v : VUnit) : List BurstEntry := ((v.cur.map (fun b => b.tiles.filter (·.isV))).getD []).map (·.ent)

theorem VUnit.mem_reads {v : VUnit} {b : Burst} (h : v.cur = some b) (e : BurstEntry) : e ∈ v.reads ↔ (e, true) ∈ tileKeys b.tiles := by
  simp [VUnit.reads, h, and_assoc, and_comm, and_left_comm]

/-- A pair none of whose V tiles goes on is not read. -/
theorem VUnit.unread {v : VUnit} {b : Burst} (h : v.cur = some b) {e : BurstEntry}
    (none : ∀ y ∈ b.tiles.filter (fun y => v.reads.contains y.ent), y.ent = e → y.isV = false) : e ∉ v.reads := by
  intro read
  obtain ⟨y, hy, same⟩ := List.mem_map.mp ((VUnit.mem_reads h e).mp read)
  obtain ⟨rfl, value⟩ := Prod.mk.inj same
  exact Bool.false_ne_true ((none y (List.mem_filter.mpr ⟨hy, List.contains_iff_mem.mpr read⟩) rfl).symm.trans value)

/-- A unit whose scrub burst has started: what is not read whole waits for the next. -/
def VUnit.scrubs (v : VUnit) : VUnit :=
  { v with normal := v.normal.filter (fun b => b.kind != BurstKind.scrub)
           cur := v.cur.map (fun b => { b with tiles := b.tiles.filter (fun x => v.reads.contains x.ent) }) }

/-- A unit whose pass has read the pair slots at some offsets. -/
def VUnit.passed (v : VUnit) (offs : List Nat) : VUnit :=
  { v with again := v.again.filter (fun o => !offs.contains o)
           passPos := if offs.isEmpty then some 0 else some (offs.foldl (fun n o => max n (o + 1)) (v.passPos.getD 0)) }

/-- The state after the start of a scrub burst. -/
def State.scrubbing (t : State) (u : Nat) (todo : List (Nat × BurstEntry)) : State :=
  let x := ({ t with vsp := { t.vsp with nextBurst := t.vsp.nextBurst + 1 } }).setUnit u (t.unit u).scrubs
  if (t.unit u).reads.isEmpty then x else x.passed u ((todo.filter (fun x => (t.unit u).reads.contains x.2)).map Prod.fst)

theorem UnitBecomes.passed {s t : State} {u : Nat} {w : VUnit} (h : UnitBecomes s u w t) (plan : w.plan = []) (offs : List Nat) :
    UnitBecomes s u (w.passed offs) (t.passed u offs) := by
  have passed : UnitBecomes s u (w.passed offs) (t.setUnit u ((t.unit u).passed offs)) := by
    rw [h.own]
    exact h.setUnit plan
  exact passed

theorem UnitBecomes.scrubbing {s t : State} {u : Nat} {w : VUnit} (h : UnitBecomes s u w t) (plan : w.plan = []) (todo : List (Nat × BurstEntry)) :
    UnitBecomes s u (if w.reads.isEmpty then w.scrubs else w.scrubs.passed ((todo.filter (fun x => w.reads.contains x.2)).map Prod.fst)) (t.scrubbing u todo) := by
  have written : UnitBecomes s u w.scrubs (({ t with vsp := { t.vsp with nextBurst := t.vsp.nextBurst + 1 } }).setUnit u w.scrubs) := UnitBecomes.setUnit (h.of_same rfl rfl rfl) plan
  unfold State.scrubbing
  rw [h.own]
  exact .ite (fun _ => written) (fun _ => written.passed plan _)

theorem State.scrubbing_keeps (t : State) (u : Nat) (todo : List (Nat × BurstEntry)) : Keeps [.vsp] t (t.scrubbing u todo) := by
  have hm := Within.refl [Blk.vsp]
  have written : Keeps [.vsp] t (({ t with vsp := { t.vsp with nextBurst := t.vsp.nextBurst + 1 } }).setUnit u (t.unit u).scrubs) :=
    State.setUnit_keeps hm _ _ (keeps_mk (h := .refl t))
  exact keeps_ite written (State.passed_keeps hm _ _ written)

section
variable {s : State} {u : Nat} (open_ : s.masked u = false) (unit : u < 2048) (clear : inRefresh u s.now = false)
  (idle : (s.unit u).busy = false) (guard : isGuard s.now = false) (runs : s.running = true)
  (on : s.bit Reg.vspScrubCfg 0 = true) (owner : s.owner = Owner.scrub) (flips : List Flip)
include open_ unit clear idle guard runs on owner

theorem exec_scrubBurst_done (none : s.scrubTodo u = []) : exec (.scrubBurst u flips) s = .next (s.tryEndPass u) := by
  show execScrubBurst u flips s = _
  have bound : ¬2048 ≤ u := Nat.not_le.mpr unit
  simp [execScrubBurst, State.runOut_still (.inl (VUnit.running_idle idle)), open_, bound, clear, idle, guard, runs, on, owner, none]

theorem exec_scrubBurst_starts (work : s.scrubTodo u ≠ []) :
    exec (.scrubBurst u flips) s = .next (((s.startOther u (s.unit u) (s.scrubPlan u) flips).map (·.scrubbing u (s.scrubTodo u))).getD s) := by
  show execScrubBurst u flips s = _
  have bound : ¬2048 ≤ u := Nat.not_le.mpr unit
  have still : s.runOut u = s := State.runOut_still (.inl (VUnit.running_idle idle))
  simp only [execScrubBurst, still]
  rw [if_neg (by simp [bound, clear, idle, guard, runs, on, owner]), if_neg (by simp [open_]), if_neg (by simp [work])]
  split
  · rename_i stays
    rw [show s.startOther u (s.unit u) (s.scrubPlan u) flips = none from stays]
    rfl
  · rename_i t starts
    rw [show s.startOther u (s.unit u) (s.scrubPlan u) flips = some t from starts]
    rfl

theorem exec_scrubBurst_bars (work : s.scrubTodo u ≠ []) (bar : s.plannable u s.now (s.scrubPlan u) = 0) : exec (.scrubBurst u flips) s = .next s := by
  rw [exec_scrubBurst_starts open_ unit clear idle guard runs on owner flips work, State.startOther_none bar, Option.map_none, Option.getD_none]

end

/-! ### A scrub burst's start -/

section
variable {s : State} {u pos : Nat} (rise : keysRise s.vsp.units = true) (plan : (s.unit u).plan = []) (open_ : s.masked u = false) (unit : u < 2048)
  (clear : inRefresh u s.now = false) (idle : (s.unit u).busy = false) (guard : isGuard s.now = false) (runs : s.running = true)
  (on : s.bit Reg.vspScrubCfg 0 = true) (owner : s.owner = Owner.scrub) (flips : List Flip) (passing : (s.unit u).passPos = some pos)
include rise plan open_ unit clear idle guard runs on owner passing

theorem scrubBurst_starts (work : s.scrubTodo u ≠ []) (room : s.plannable u s.now (s.scrubPlan u) ≠ 0)
    (apart : ((s.scrubTodo u).map Prod.fst).Nodup ∧ ((s.scrubTodo u).map Prod.snd).Nodup) :
    Completes (.scrubBurst u flips) s [.run, .vsp] (fun t => ∃ (c : Burst) (p : Nat) (again : List Nat),
      t.unit u = { s.unit u with cur := some c, stopped := false, clock := vUnit * s.now + 12 * s.vCycle, window := none, passPos := some p, again := again
                                 normal := (s.unit u).normal.filter (fun x => x.kind != .scrub) } ∧
      c.kind = .scrub ∧ c.pos = 0 ∧ (∀ y ∈ c.tiles, y.ent ∈ (s.scrubTodo u).map Prod.snd) ∧ (∀ o ∈ again, o ∈ (s.unit u).again) ∧
      (∀ x ∈ s.scrubTodo u, (∀ y ∈ c.tiles, y.ent = x.2 → y.isV = false) → p ≤ x.1 ∨ x.1 ∈ again)) := by
  obtain ⟨f, keys, starts⟩ := State.startOther_some (v := s.unit u) (flips := flips) room
  have answer := exec_scrubBurst_starts open_ unit clear idle guard runs on owner flips work
  rw [starts, Option.map_some, Option.getD_some] at answer
  let b : Burst := { s.scrubPlan u with tiles := (s.scrubPlan u).tiles.map f }
  let n := s.plannable u s.now (s.scrubPlan u)
  let go := s.begun b n
  have kind : (s.scrubPlan u).kind = .scrub := rfl
  let w : VUnit := { s.unit u with cur := some go, normal := s.leftOver b n ++ (s.unit u).normal, stopped := false, clock := vUnit * s.now + 12 * s.vCycle, window := none }
  have began : UnitBecomes s u w (s.startBurst u (s.unit u) b n) := State.startBurst_becomes rise plan b n
  have became := began.scrubbing plan (s.scrubTodo u)
  have kept : Keeps [.run, .vsp] s ((s.startBurst u (s.unit u) b n).scrubbing u (s.scrubTodo u)) :=
    (State.startBurst_keeps (Within.refl _) _ _ _ _ (.refl s)).trans ((State.scrubbing_keeps _ _ _).mono ((Within.refl [Blk.run, Blk.vsp]).sub rfl))
  -- the tiles that start are the first of the pairs ahead of the pass
  have front : tileKeys go.tiles <+: (s.scrubTodo u).flatMap pairKeys := by
    have planned := State.scrubPlan_keys passing
    rw [← tileKeys_map keys] at planned
    exact ((List.take_prefix n _).map _).trans planned
  obtain ⟨m, first⟩ := read_prefix front
  have reads (e : BurstEntry) : e ∈ w.reads ↔ e ∈ ((s.scrubTodo u).take m).map Prod.snd := (VUnit.mem_reads (v := w) rfl e).trans (first e)
  have ahead : ∀ x ∈ s.scrubTodo u, pos ≤ x.1 ∨ x.1 ∈ (s.unit u).again := fun x hx => ((State.mem_scrubTodo passing).mp hx).2
  have bare : w.scrubs.normal = (s.unit u).normal.filter (fun x => x.kind != .scrub) := by
    have cut : (s.leftOver b n).filter (fun x => x.kind != .scrub) = [] := List.filter_eq_nil_iff.mpr fun x hx => by simp [State.leftOver_kind x hx, b, kind]
    show (s.leftOver b n ++ _).filter _ = _
    rw [List.filter_append, cut, List.nil_append]
  let c : Burst := { go with tiles := go.tiles.filter (fun y => w.reads.contains y.ent) }
  have held : ∀ y ∈ c.tiles, y.ent ∈ (s.scrubTodo u).map Prod.snd := fun y hy =>
    (List.map_subset _ (List.take_subset _ _)) ((reads _).mp (List.contains_iff_mem.mp (List.mem_filter.mp hy).2))
  cases none : w.reads.isEmpty with
  | true =>
    rw [none, if_pos rfl] at became
    refine completes_keeps answer kept ⟨c, pos, (s.unit u).again, became.own.trans ?_, kind, rfl, held, fun o ho => ho, fun x hx _ => ahead x hx⟩
    rw [← bare, ← passing]
    rfl
  | false =>
    rw [none, if_neg (by decide)] at became
    have past : ((s.scrubTodo u).filter (fun x => w.reads.contains x.2)).map Prod.fst ≠ [] := by
      obtain ⟨e, he⟩ := List.exists_mem_of_ne_nil w.reads (by simpa using none)
      obtain ⟨x, hx, rfl⟩ := List.mem_map.mp ((reads e).mp he)
      exact List.ne_nil_of_mem (List.mem_map_of_mem (List.mem_filter.mpr ⟨List.mem_of_mem_take hx, List.contains_iff_mem.mpr he⟩))
    refine completes_keeps answer kept ⟨c, _, _, became.own.trans ?_, kind, rfl, held, fun o ho => (List.mem_filter.mp ho).1,
      fun x hx bare => unread_ahead (State.scrubTodo_sorted passing) apart.1 apart.2 ahead reads x hx (VUnit.unread (v := w) rfl bare)⟩
    rw [← bare, VUnit.passed, if_neg (by simpa using past), show w.scrubs.passPos = _ from passing]
    rfl

end

end Sys2Proof.Machine
end

section
/-!
The end of a scrub pass (R171), and the obligation.
-/

namespace Sys2Proof.Machine

open Sys2Proof

/-! ### The end of a pass (R171) -/

theorem mem_setInsert {l : List Nat} {x k : Nat} : k ∈ setInsert l x ↔ k = x ∨ k ∈ l := by
  induction l with
  | nil => simp [setInsert]
  | cons y l ih =>
    unfold setInsert
    split
    · rename_i same
      simp [same]
    · split
      · exact List.mem_cons
      · rw [List.mem_cons, ih, List.mem_cons]
        tauto

/-- A change of every value that leaves the default as it is, is a change of what each key reads. -/
theorem spGet_filterMap {α : Type} [DecidableEq α] {d : α} {f : α → α} (same : f d = d) {l : List (Nat × α)} (rise : keysRise l = true) (k : Nat) :
    spGet d (l.filterMap (fun x => if f x.2 = d then none else some (x.1, f x.2))) k = f (spGet d l k) := by
  induction l with
  | nil => exact same.symm
  | cons x l ih =>
    have rest := ih (keysRise_tail rise)
    have low (h : k ≤ x.1) : spGet d l k = d := spGet_below d fun q hq => h.trans_lt (keysRise_lt rise q hq)
    by_cases quiet : f x.2 = d
    · simp only [List.filterMap_cons, if_pos quiet, rest, spGet]
      split
      · rename_i e
        rw [low (Nat.le_of_eq e), same, quiet]
      · split
        · rename_i before
          rw [low (Nat.le_of_lt before)]
        · rfl
    · simp only [List.filterMap_cons, if_neg quiet, spGet]
      split
      · rfl
      · split
        · exact same.symm
        · exact rest

/-- A unit whose pass starts again. -/
def VUnit.restarted (v : VUnit) : VUnit := { v with passPos := some 0, again := [] }

/-- A unit whose pass has ended, the node's not looked at yet. -/
def State.passOver (s : State) (u : Nat) : State :=
  let t := s.setUnit u { s.unit u with passPos := none, again := [] }
  { t with vsp := { t.vsp with passEnded := setInsert t.vsp.passEnded u } }

theorem State.endPass_eq (s : State) (u : Nat) : s.endPass u = (s.passOver u).nodePass := rfl

theorem State.passOver_becomes {s : State} {u : Nat} (rise : keysRise s.vsp.units = true) (plan : (s.unit u).plan = []) :
    UnitBecomes s u { s.unit u with passPos := none, again := [] } (s.passOver u) :=
  (UnitBecomes.put (w := { s.unit u with passPos := none, again := [] }) rise plan).of_same rfl rfl rfl

theorem State.passOver_keeps (s : State) (u : Nat) : Keeps [.vsp] s (s.passOver u) := by
  have hm := Within.refl [Blk.vsp]
  exact keeps_mk (h := State.setUnit_keeps hm _ _ (.refl s))

section
variable {s : State}

theorem State.nodePass_stays {k : Nat} (unit : k < 2048) (open_ : s.masked k = false) (goes : s.vsp.passEnded.contains k = false) : s.nodePass = s := by
  refine if_pos ?_
  rw [Bool.not_eq_true', List.all_eq_false]
  exact ⟨k, List.mem_range.mpr unit, by rw [open_, goes]; decide⟩

/-- VSP_SCRUB_PASS counts a pass of d frames, and pass is recorded. -/
def State.passCounted (s : State) (d : Nat) : State := (s.setLive Reg.vspScrubPass (min 0xFFFF (s.fld Reg.vspScrubPass 15 0 + 1) + 65536 * min 0xFFFF d)).raiseBit Reg.vspEvent 6

/-- Every unit starts again. -/
def State.newPass (x : State) : State :=
  { x with vsp := { x.vsp with passStart := x.frame, passEnded := []
                               units := x.vsp.units.filterMap (fun p => if p.2.restarted = VUnit.idle then none else some (p.1, p.2.restarted)) } }

theorem State.passCounted_vsp (s : State) (d : Nat) : (s.passCounted d).vsp = s.vsp := State.raiseBit_vsp ..

theorem State.passCounted_frame (s : State) (d : Nat) : (s.passCounted d).frame = s.frame := (congrArg State.frame (State.raiseBit_signals ..) :)

theorem State.passCounted_event (live : s.liveWf) (d : Nat) : (s.passCounted d).bit Reg.vspEvent 6 = true := State.bit_raiseBit_same (live.setLive _ _) _ (by decide)

theorem State.passCounted_count (live : s.liveWf) (d : Nat) : (s.passCounted d).fld Reg.vspScrubPass 15 0 = min 0xFFFF (s.fld Reg.vspScrubPass 15 0 + 1) := by
  rw [State.passCounted, (State.raiseBit_sameRegs (live.setLive _ _) _ _).fld (by decide), State.fld, State.live_setLive live, if_pos rfl, bitsOf_eq_div_mod]
  simp only [pow2]
  omega

theorem State.newPass_unit (rise : keysRise s.vsp.units = true) (k : Nat) : s.newPass.unit k = (s.unit k).restarted := spGet_filterMap (f := VUnit.restarted) rfl rise k

variable (ended : ∀ k, k < 2048 → s.masked k = true ∨ s.vsp.passEnded.contains k = true)
include ended

theorem State.nodePass_ends : ∃ d, s.nodePass = (s.passCounted d).newPass := by
  refine ⟨_, if_neg ?_⟩
  rw [Bool.not_eq_true', Bool.not_eq_false, List.all_eq_true]
  exact fun k hk => Bool.or_eq_true_iff.mpr (ended k (List.mem_range.mp hk))

end

/-! ### SCRUB_BURST with no tile left -/

/-- Every record and re-read of a unit's pass has been dealt with. -/
def State.dealtWith (s : State) (u : Nat) : Prop :=
  (s.unit u).returns.any (fun r => r.kind == .scrub) = false ∧ s.vsp.rereads.any (fun r => r.2.unit == u && r.2.reader == 1) = false

section
variable {s : State} {u : Nat}

theorem State.tryEndPass_ends {pos : Nat} (none : s.scrubTodo u = []) (passing : (s.unit u).passPos = some pos) (open_ : s.masked u = false)
    (idle : (s.unit u).busy = false) (dealt : s.dealtWith u) : s.tryEndPass u = (s.passOver u).nodePass := by
  obtain ⟨records, rereads⟩ := dealt
  obtain ⟨cur, _⟩ : (s.unit u).cur = Option.none ∧ (s.unit u).curU = Option.none := by simpa [VUnit.busy] using idle
  rw [← State.endPass_eq]
  exact if_neg (by simp [passing, open_, none, cur, records, rereads])

theorem State.tryEndPass_stays (left : ¬s.dealtWith u) : s.tryEndPass u = s := by
  refine if_pos ?_
  rcases not_and_or.mp left with h | h
  · exact .inr (.inr (.inr (.inr (.inl (Bool.not_eq_false _ ▸ h)))))
  · exact .inr (.inr (.inr (.inr (.inr (Bool.not_eq_false _ ▸ h)))))

theorem State.passOver_ended {k : Nat} : (s.passOver u).vsp.passEnded.contains k = true ↔ k = u ∨ s.vsp.passEnded.contains k = true := by
  rw [List.contains_iff_mem, List.contains_iff_mem]
  exact mem_setInsert

/-- Another unit is still to end its pass. -/
theorem State.passOver_waits (h : ¬∀ k, k < 2048 → k ≠ u → s.masked k = true ∨ s.vsp.passEnded.contains k = true) : (s.passOver u).nodePass = s.passOver u := by
  push Not at h
  obtain ⟨k, unit, other, open_, goes⟩ := h
  refine State.nodePass_stays unit (Bool.eq_false_iff.mpr open_) (Bool.eq_false_iff.mpr fun ended => ?_)
  exact (State.passOver_ended.mp ended).elim other goes

end

section
variable {s : State} {u pos : Nat} (rise : keysRise s.vsp.units = true) (plan : (s.unit u).plan = []) (open_ : s.masked u = false) (unit : u < 2048)
  (clear : inRefresh u s.now = false) (idle : (s.unit u).busy = false) (guard : isGuard s.now = false) (runs : s.running = true)
  (on : s.bit Reg.vspScrubCfg 0 = true) (owner : s.owner = Owner.scrub) (flips : List Flip) (passing : (s.unit u).passPos = some pos) (none : s.scrubTodo u = [])
  (dealt : s.dealtWith u)
include rise plan open_ unit clear idle guard runs on owner passing none dealt

theorem scrubBurst_endsUnit (goes : ¬∀ k, k < 2048 → k ≠ u → s.masked k = true ∨ s.vsp.passEnded.contains k = true) :
    Completes (.scrubBurst u flips) s [.vsp] (fun t => t.unit u = { s.unit u with passPos := Option.none, again := [] } ∧ t.vsp.passEnded = setInsert s.vsp.passEnded u) := by
  have answer := exec_scrubBurst_done open_ unit clear idle guard runs on owner flips none
  rw [State.tryEndPass_ends none passing open_ idle dealt, State.passOver_waits goes] at answer
  exact completes_keeps answer (s.passOver_keeps u) ⟨(State.passOver_becomes rise plan).own, rfl⟩

theorem scrubBurst_endsNode (live : s.liveWf) (last : ∀ k, k < 2048 → k ≠ u → s.masked k = true ∨ s.vsp.passEnded.contains k = true) :
    Completes (.scrubBurst u flips) s [.live, .vsp, .hst, .sum, .outbox] (fun t =>
      (∀ k, (t.unit k).passPos = some 0 ∧ (t.unit k).again = []) ∧ t.vsp.passEnded = [] ∧ t.vsp.passStart = s.frame ∧ t.bit Reg.vspEvent 6 = true ∧
      t.fld Reg.vspScrubPass 15 0 = min 0xFFFF (s.fld Reg.vspScrubPass 15 0 + 1)) := by
  have kept : Keeps [.live, .vsp, .hst, .sum, .outbox] s (s.tryEndPass u) := State.tryEndPass_keeps (Within.refl _) u (.refl s)
  have answer := exec_scrubBurst_done open_ unit clear idle guard runs on owner flips none
  have passed := State.passOver_becomes rise plan
  obtain ⟨d, ends⟩ := State.nodePass_ends (s := s.passOver u) fun k hk => by
    rw [State.passOver_ended]
    by_cases own : k = u
    · exact .inr (.inl own)
    · exact (last k hk own).imp id .inr
  have same : s.tryEndPass u = ((s.passOver u).passCounted d).newPass := (State.tryEndPass_ends none passing open_ idle dealt).trans ends
  have counted : ((s.passOver u).passCounted d).vsp = (s.passOver u).vsp := State.passCounted_vsp ..
  refine completes_keeps answer kept ?_
  rw [same]
  refine ⟨fun k => ?_, rfl, State.passCounted_frame .., State.passCounted_event (s := s.passOver u) live d, State.passCounted_count (s := s.passOver u) live d⟩
  rw [State.newPass_unit (counted ▸ passed.rise)]
  exact ⟨rfl, rfl⟩

end

/-! ### The obligation -/

/-- Settles O48: the burst's start and the two ends of a pass by the lemmas above; the accesses by what serving one of each kind comes to. -/
theorem unitsScrubMoveAndServeAccesses : Obligations.UnitsScrubMoveAndServeAccesses := by
  unfold Obligations.UnitsScrubMoveAndServeAccesses
  intro s u flips hi rise plan
  refine ⟨fun unit open_ clear idle guard runs => ⟨fun pos on owner passing => ⟨fun work bar => ?_, fun work room apart => ?_, fun none dealt goes => ?_,
    fun none dealt last => ?_, fun none left => ?_⟩, fun b owner waits normal => ⟨fun bar => ?_, fun room => ?_⟩⟩,
    fun present source addr isWrite data ecc => ⟨?_, ?_, ?_, ?_, ?_, ?_⟩⟩
  · exact exec_scrubBurst_bars open_ unit clear idle guard runs on owner flips work bar
  · exact scrubBurst_starts rise plan open_ unit clear idle guard runs on owner flips passing work room apart
  · exact scrubBurst_endsUnit rise plan open_ unit clear idle guard runs on owner flips passing none dealt goes
  · exact scrubBurst_endsNode rise plan open_ unit clear idle guard runs on owner flips passing none dealt hi.liveWf last
  · rw [exec_scrubBurst_done open_ unit clear idle guard runs on owner flips none, State.tryEndPass_stays left]
  · rw [exec_moveBurst open_ clear idle guard runs owner waits, State.startOther_none bar, Option.getD_none]
  · exact moveBurst_starts open_ clear idle guard runs owner waits rise plan normal room flips
  · exact fun waits closed => access_waits present waits rise plan closed
  · rintro e k waits joins rfl ⟨inside, check, bare⟩
    exact access_joins present waits rise plan hi joins ⟨inside, check, bare⟩
  · exact fun free bad => access_bad present free bad
  · rintro free rfl inside check
    exact ⟨access_read present free inside check,
      fun coded struck => access_corrected present free inside check coded _ _ (.inl ⟨struck, rfl, rfl⟩),
      fun coded struck => access_corrected present free inside check coded _ _ (.inr ⟨struck, rfl, rfl⟩)⟩
  · rintro free rfl ⟨inside, check, bare⟩
    exact access_written present free hi ⟨inside, check, bare⟩
  · rintro ⟨inside, check, bare⟩ n first one
    exact ⟨window_idle present rise plan hi ⟨inside, check, bare⟩ first one,
      fun c runs going boundary => window_burst present rise plan hi ⟨inside, check, bare⟩ first one runs going boundary⟩

end Sys2Proof.Machine
end

section
/-!
A tile of a leaf that fails its second read too (R142, R163): its page is lost, its request completes, and what else was being read again for it goes on under the page's name.
-/

namespace Sys2Proof.Machine

open Sys2Proof

/-- The first page of a sequence. -/
def leafPage : PageRef := ⟨false, 0, 0, 0, 0, 0⟩

/-- The sequence of that page, which has been sealed in tier 0. -/
def leafSeq : SeqRec :=
  ⟨0, 0, 0, 0, 0, 2, true, false, false, 0, 0, [{ LayerRec.empty 1 with len := 64, heads := [{ HeadRec.empty with pages := [(0, { Pte.free with state := .sealed, locs := [3 * 2 ^ 19] })] }] }]⟩

/-- A request with one leaf of that page, a tile of which unit 3 reads again. -/
def rereadRun : Run :=
  { req := { rid := 4, arr := ⟨.qp, 9, 0, 0, 72, false, 0, 0, []⟩, msg := [], cls := 2, urgent := false, cost := 3, bucket := 0, tAdmit := 0, notBefore := 0
             evEntry := false, heldMove := false, counted := false, turns := none, gen := none, stream := 0 }
    tDispatch := 0, lens := [], q := [], jobs := [⟨0, 0, 0, .sealed [] [], (1, 1), 3 * 2 ^ 19, false, leafPage, .reread 3, .issued, []⟩], remote := [], stalls := []
    causes := [], held := false, needs := [], blocks := [], prov := false, serial := 0, reserve := none, status := 0, detail := 0, length := 0, attends := true
    redo := false, base := 0, groups := [], stalled := false, rebuildDiffers := false, gen := 0, program := [], weights := [], output := [] }

/-- The second read of a tile of that leaf, whose check word does not fit its bytes. -/
def leafReadAgain (isV : Bool) : Reread := ⟨3, 0, .leaf 4 0, isV, true, Pair.empty, (1, 1), 3 * 2 ^ 19, some (leafPage, 0), false⟩

/-- A node that reads both tiles of that leaf again. -/
def rereadNode : State :=
  { State.reset with
    pgw := { PgwSt.reset with seqs := [leafSeq] }
    sch := { SchSt.reset with runs := [rereadRun] }
    vsp := { VspSt.reset with rereads := [(0, leafReadAgain false), (1, leafReadAgain true)] } }

theorem rereadNode_inv : rereadNode.Inv := ⟨rfl, rfl, rfl, rfl, rfl⟩

/-- What the re-reads still under way serve after an outcome. -/
def readAgainFor : Host.Outcome State Fault Refusal → List BurstEntry
  | .next t => t.vsp.rereads.map (fun x => x.2.ent)
  | _ => []

/-- The re-read of the V tile no longer serves the leaf, but the leaf's page. -/
theorem rereadNode_lost : readAgainFor (exec (.tileRereadDone 0 []) rereadNode) = [.tile false 0 0 0 0 0 0] := by decide +kernel

/-- Refutes O49: where a second read fails too and its page is lost, the other re-reads of its request are renamed as that completes (State.keepReads), so they do not stay as they were. -/
theorem not_returnRecordsAreChecked : ¬ Obligations.ReturnRecordsAreChecked := by
  unfold Obligations.ReturnRecordsAreChecked
  intro h
  obtain ⟨_, rereads, _⟩ := h rereadNode 3 4 0 rereadRun [] rereadNode_inv rfl rfl rfl rfl
  obtain ⟨_, failed⟩ := rereads 0 (leafReadAgain false) rfl rfl (by decide)
  obtain ⟨t, answer, _, _, _, left⟩ := failed (by decide +kernel)
  have renamed := rereadNode_lost
  rw [answer, readAgainFor, left] at renamed
  exact absurd renamed (by decide)

end Sys2Proof.Machine
end

section
/-!
The steps of hub programs: what each command of Table 8.5 leaves on its core, and that every other core, run, program and object stays as it is (R208-R211).
-/

namespace Sys2Proof.Machine

open Sys2Proof

/-! ### A core's context -/

theorem State.core_putCore_same (s : State) (c : Nat) (x : CoreCtx) : (s.putCore c x).core c = x := by
  rw [State.core, State.putCore, tabGet_tabPut_same, Option.getD_some]

theorem State.core_putCore_other (s : State) {c d : Nat} (x : CoreCtx) (h : d ≠ c) : (s.putCore c x).core d = s.core d := by
  rw [State.core, State.putCore, tabGet_tabPut_other _ _ h, State.core]

theorem CoreCtx.length_read (x : CoreCtx) (a n : Nat) : (x.read a n).length = n := by rw [CoreCtx.read, List.length_map, List.length_range]

/-- Programs, weight objects and the load under way are the same. -/
def SameHeld (s t : State) : Prop := t.prog.programs = s.prog.programs ∧ t.prog.objects = s.prog.objects ∧ t.prog.load = s.prog.load

/-- So are the runs, and the context of every core but one. -/
def OnlyCore (core : Nat) (s t : State) : Prop := SameHeld s t ∧ t.prog.current = s.prog.current ∧ ∀ c, c ≠ core → t.core c = s.core c

theorem State.putCore_onlyCore (s : State) (core : Nat) (x : CoreCtx) : OnlyCore core s (s.putCore core x) :=
  ⟨⟨rfl, rfl, rfl⟩, rfl, fun _ hc => s.core_putCore_other x hc⟩

/-! ### Contexts of several cores -/

/-- The context of each core of a list is changed in turn. -/
def State.eachCore (s : State) (l : List Nat) (f : CoreCtx → CoreCtx) : State := l.foldl (fun s c => s.putCore c (f (s.core c))) s

theorem State.eachCore_prog (s : State) (l : List Nat) (f : CoreCtx → CoreCtx) :
    (s.eachCore l f).prog = { s.prog with cores := (s.eachCore l f).prog.cores } := by
  induction l generalizing s with
  | nil => rfl
  | cons c l ih => exact ih (s.putCore c (f (s.core c)))

theorem State.eachCore_keeps {m : List Blk} {z s : State} (hm : Within [.prog] m) (l : List Nat) (f : CoreCtx → CoreCtx) (h : Keeps m z s) : Keeps m z (s.eachCore l f) :=
  keeps_foldl (fun _ _ hs => State.putCore_keeps hm _ _ hs) h

/-- Each core of a list without repeats has its context changed once, and no other core has. -/
theorem State.core_eachCore (s : State) {l : List Nat} (nodup : l.Nodup) (f : CoreCtx → CoreCtx) (c : Nat) :
    (s.eachCore l f).core c = if c ∈ l then f (s.core c) else s.core c := by
  induction l generalizing s with
  | nil => rfl
  | cons d l ih =>
    obtain ⟨absent, nodup⟩ := List.nodup_cons.mp nodup
    refine (ih (s.putCore d (f (s.core d))) nodup).trans ?_
    by_cases hc : c = d
    · subst hc
      rw [if_neg absent, State.core_putCore_same, if_pos (List.mem_cons_self ..)]
    · rw [State.core_putCore_other _ _ hc]
      simp only [List.mem_cons, hc, false_or]

/-! ### The norms of a core's step (R209) -/

/-- The rows of src_a under RMSNORM with the resident gains and epsilon. -/
def CoreAt.rmsNormed (w : Nat) (a : CoreAt) : List Nat :=
  let n := StepWord.row w
  let g := elemsOf (n + 1) (a.resident (StepWord.srcB w) (2 * n + 2))
  (rowsOfList n (a.ctx.elems (StepWord.srcA w) (StepWord.e w))).flatMap (fun x => rmsNorm x (g.take n) (g.getD n 0))

/-- The rows of src_a under LAYERNORM with the resident gains, offsets and epsilon. -/
def CoreAt.layerNormed (w : Nat) (a : CoreAt) : List Nat :=
  let n := StepWord.row w
  let g := elemsOf (2 * n + 1) (a.resident (StepWord.srcB w) (4 * n + 2))
  (rowsOfList n (a.ctx.elems (StepWord.srcA w) (StepWord.e w))).flatMap (fun x => layerNorm x (g.take n) ((g.drop n).take n) (g.getD (2 * n) 0))

/-! ### Commands that are a step of their core (R208) -/

/-- A step command acts where the step word has its operation. -/
theorem next_of_op {s t : State} {w k : Nat} (op : StepWord.op w = k) :
    (.next (if StepWord.op w ≠ k then s else t) : Host.Outcome State Fault Refusal) = .next t :=
  congrArg Host.Outcome.next (if_neg (not_not_intro op))

/-- A command writes bytes at dst, moves its core to the next step, and touches no other. -/
def WritesDst (s : State) (core w : Nat) (a : CoreAt) (i : Instr) (m : List Blk) (bs : List Byte) : Prop :=
  Completes i s m (fun t => t.core core = (a.ctx.write (StepWord.dst w) bs).next ∧ OnlyCore core s t)

/-- So does one that draws a free value as well. -/
theorem writesDst_of_fresh {s : State} {core w : Nat} {a : CoreAt} {i : Instr} {bs : List Byte}
    (he : exec i s = .next (s.fresh.2.putCore core (a.ctx.write (StepWord.dst w) bs).next)) : WritesDst s core w a i [.prog, .freeCtr] bs := by
  have hm := Within.refl [Blk.prog, .freeCtr]
  exact completes_keeps he (State.putCore_keeps (hm.sub rfl) _ _ (State.fresh_keeps (hm.sub rfl) (.refl s))) ⟨State.core_putCore_same .., s.fresh.2.putCore_onlyCore ..⟩

section
variable {s : State} {core w : Nat} {a : CoreAt} (h : s.coreAt core w = some a)
include h

/-- The core has the context that its step leaves. -/
theorem stepCore_completes {i : Instr} (f : CoreAt → CoreCtx) (he : exec i s = .next (s.stepCore core w f)) :
    Completes i s [.prog] (fun t => OnlyCore core s t ∧ t.core core = (f a).next) := by
  have step : s.stepCore core w f = s.putCore core (f a).next := by rw [State.stepCore, h]
  exact completes_keeps (he.trans (congrArg _ step)) (State.putCore_keeps (Within.refl _) _ _ (.refl s)) ⟨s.putCore_onlyCore .., s.core_putCore_same ..⟩

theorem writesDst_of_stepCore {i : Instr} (f : CoreAt → List Byte) (he : exec i s = .next (s.stepCore core w (fun a => a.ctx.write (StepWord.dst w) (f a)))) :
    WritesDst s core w a i [.prog] (f a) := by
  obtain ⟨t, answer, parts, queue, only, ctx⟩ := stepCore_completes h _ he
  exact ⟨t, answer, parts, queue, ctx, only⟩

theorem writesDst_of_stepElems {i : Instr} {f : CoreAt → List Nat} (he : exec i s = .next (s.stepElems core w f)) :
    WritesDst s core w a i [.prog] (elemBytes (f a)) := writesDst_of_stepCore h (fun a => elemBytes (f a)) he

/-! ### IN and OUT -/

theorem stepIn_writesDst (op : StepWord.op w = 0x01) :
    WritesDst s core w a (.stepIn core w) [.prog] (slice a.run.input (StepWord.srcA w) (StepWord.ioBytes w)) :=
  writesDst_of_stepCore h (fun a => slice a.run.input (StepWord.srcA w) (StepWord.ioBytes w)) (next_of_op op)

theorem stepOut_completes (op : StepWord.op w = 0x02) :
    Completes (.stepOut core w) s [.prog] (fun t => SameHeld s t ∧ t.core core = a.ctx.next ∧ (∀ c, c ≠ core → t.core c = s.core c) ∧
      tabGet t.prog.current a.group = some { a.run with output := putOutput a.run.output (StepWord.srcA w) (a.ctx.read (StepWord.dst w) (StepWord.ioBytes w)) }) := by
  set out := putOutput a.run.output (StepWord.srcA w) (a.ctx.read (StepWord.dst w) (StepWord.ioBytes w)) with hout
  have he : exec (.stepOut core w) s = .next ((s.putProg a.group { a.run with output := out }).putCore core a.ctx.next) := by
    show execStepOut core w s = _
    rw [execStepOut, next_of_op op, h]
  have hm := Within.refl [Blk.prog]
  exact completes_keeps he (State.putCore_keeps hm _ _ (State.putProg_keeps hm _ _ (.refl s)))
    ⟨⟨rfl, rfl, rfl⟩, State.core_putCore_same .., fun c hc => State.core_putCore_other _ _ hc, tabGet_tabPut_same ..⟩

/-! ### MATMUL (R210) -/

/-- The product, with one free scale code for activations that no QUANT step has scaled. -/
theorem matmul_completes (op : StepWord.op w = 0x03) :
    Completes (.matmul core w) s [.prog, .freeCtr] (fun t => OnlyCore core s t ∧
      ∃ free, free < 256 ∧ t.core core = (a.ctx.write (StepWord.dst w) (elemBytes (matProduct w a (fun x => (a.ctx.scaleAt x).getD free)))).next) := by
  have he : exec (.matmul core w) s = .next (s.fresh.2.putCore core
      (a.ctx.write (StepWord.dst w) (elemBytes (matProduct w a (fun x => (a.ctx.scaleAt x).getD (Config.choice s.freeCtr 256 % 256))))).next) := by
    show execMatmul core w s = _
    rw [execMatmul, next_of_op op, h]
    rfl
  obtain ⟨t, answer, parts, queue, ctx, only⟩ := writesDst_of_fresh he
  exact ⟨t, answer, parts, queue, only, _, Nat.mod_lt _ (by decide), ctx⟩

/-! ### ADD, MUL, the norms and FUNC (R98, R209) -/

/-- A step on pairs of elements. -/
theorem writesDst_of_stepPair {i : Instr} {f : Fr → Fr → Fr} (he : exec i s = .next (s.stepPair core w f)) :
    WritesDst s core w a i [.prog] (elemBytes (((a.ctx.elems (StepWord.srcA w) (StepWord.e w)).zip (a.ctx.elems (StepWord.srcB w) (StepWord.e w))).map
      (fun p => bf16Round (f (bf16Val p.1) (bf16Val p.2))))) :=
  writesDst_of_stepElems h he

theorem add_writesDst (op : StepWord.op w = 0x04) :
    WritesDst s core w a (.add core w) [.prog] (elemBytes (((a.ctx.elems (StepWord.srcA w) (StepWord.e w)).zip (a.ctx.elems (StepWord.srcB w) (StepWord.e w))).map
      (fun p => bf16Round ((bf16Val p.1).add (bf16Val p.2))))) :=
  writesDst_of_stepPair h (f := Fr.add) (next_of_op op)

theorem mul_writesDst (op : StepWord.op w = 0x05) :
    WritesDst s core w a (.mul core w) [.prog] (elemBytes (((a.ctx.elems (StepWord.srcA w) (StepWord.e w)).zip (a.ctx.elems (StepWord.srcB w) (StepWord.e w))).map
      (fun p => bf16Round ((bf16Val p.1).mul (bf16Val p.2))))) :=
  writesDst_of_stepPair h (f := Fr.mul) (next_of_op op)

theorem rmsnorm_writesDst (op : StepWord.op w = 0x06) : WritesDst s core w a (.rmsnorm core w) [.prog] (elemBytes (CoreAt.rmsNormed w a)) :=
  writesDst_of_stepElems h (f := CoreAt.rmsNormed w) (next_of_op op)

theorem layernorm_writesDst (op : StepWord.op w = 0x07) : WritesDst s core w a (.layernorm core w) [.prog] (elemBytes (CoreAt.layerNormed w a)) :=
  writesDst_of_stepElems h (f := CoreAt.layerNormed w) (next_of_op op)

/-- A command of FUNC whose code the step names. -/
theorem func_writesDst (op : StepWord.op w = 0x08) {i : Instr} {code : Nat} (hk : StepWord.k w = code)
    (he : exec i s = .next (if StepWord.op w ≠ 0x08 then s else s.stepFunc core w code)) :
    WritesDst s core w a i [.prog] (elemBytes ((a.ctx.elems (StepWord.srcA w) (StepWord.e w)).map (fun x => bf16Round (funcVal code (bf16Val x))))) := by
  rw [next_of_op op, State.stepFunc, if_neg (not_not_intro hk)] at he
  exact writesDst_of_stepElems h he

/-! ### QUANT (R211) -/

/-- A command that quantises at the scale its tensor gives it: the codes at dst with their scale, and the clamps counted. -/
theorem quant_completes {i : Instr} (scale : List Nat → Nat) (he : exec i s = .next (s.stepQuant core w scale)) :
    let xs := a.ctx.elems (StepWord.srcA w) (StepWord.e w)
    let code := scale xs
    Completes i s [.run, .prog] (fun t => OnlyCore core s t ∧
      t.core core = (a.ctx.write (StepWord.dst w) (xs.map (fun x => (quantCode code x).1))).next.putScale (StepWord.dst w) (StepWord.e w) code ∧
      t.regs.run = (s.bump (Reg.attProgTenant + 16 * a.run.prog.owner + 8) (xs.filter (fun x => (quantCode code x).2)).length).regs.run) := by
  intro xs code
  have hm := Within.refl [Blk.run, .prog]
  simp only [State.stepQuant, h] at he
  refine completes_keeps he (State.putCore_keeps (hm.sub rfl) _ _ (State.bump_keeps (hm.sub rfl) _ _ (.refl s))) ⟨?_, ?_, ?_⟩
  · exact State.putCore_onlyCore _ ..
  · rw [State.core_putCore_same, List.map_map]
    rfl
  · rw [List.filter_map, List.length_map]
    rfl

/-! ### ROPE (R75) -/

theorem rope_writesDst (op : StepWord.op w = 0x0B) {o : WObj} {t : Rotary} (held : tabGet a.run.ropes (StepWord.k w) = some o)
    (table : rotaryOf o.tiles.flatten = some t) (whole : s.ropePoison a.run (StepWord.k w) = none) :
    WritesDst s core w a (.rope core w) [.prog, .freeCtr]
      (elemBytes ((rowsOfList t.d (a.ctx.elems (StepWord.srcA w) (StepWord.e w))).flatMap (ropeRow t a.run.pos))) := by
  refine writesDst_of_fresh ?_
  show execRope core w s = _
  rw [execRope, next_of_op op, h]
  simp only [whole, held, Option.bind_some, table]

/-! ### SYNC -/

/-- First byte of the region that a SYNC copies: that of the core's rank. -/
def CoreAt.syncRegion (a : CoreAt) (w : Nat) : Nat := StepWord.dst w + a.rank * StepWord.ioBytes w

/-- The context of a core that a SYNC of another reaches: that core's region, and the scales of the tensors quantised in it. -/
def CoreAt.syncInto (a : CoreAt) (w : Nat) (x : CoreCtx) : CoreCtx :=
  (a.ctx.scales.filter (fun q => decide (a.syncRegion w ≤ q.1 ∧ q.1 + q.2.1 ≤ a.syncRegion w + StepWord.ioBytes w))).foldl
    (fun x q => x.putScale q.1 q.2.1 q.2.2) (x.write (a.syncRegion w) (a.ctx.read (a.syncRegion w) (StepWord.ioBytes w)))

theorem exec_sync (op : StepWord.op w = 0x0C) :
    exec (.sync core w) s = .next ((s.putCore core a.ctx.next).eachCore ((a.run.coreNums a.group).filter (· != core)) (a.syncInto w)) := by
  show execSync core w s = _
  rw [execSync, next_of_op op, h]
  simp only [CoreCtx.length_read]
  rfl

theorem sync_completes (op : StepWord.op w = 0x0C) (cores : a.run.prog.cores.Nodup) :
    Completes (.sync core w) s [.prog] (fun t => SameHeld s t ∧ t.prog.current = s.prog.current ∧ t.core core = a.ctx.next ∧
      ∀ c, c ≠ core → t.core c = if c ∈ a.run.coreNums a.group then a.syncInto w (s.core c) else s.core c) := by
  have hm := Within.refl [Blk.prog]
  have nodup : ((a.run.coreNums a.group).filter (· != core)).Nodup := (cores.map (add_right_injective _)).filter _
  refine completes_keeps (exec_sync h op) (State.eachCore_keeps hm _ _ (State.putCore_keeps hm _ _ (.refl s))) ⟨?_, ?_, ?_, fun c hc => ?_⟩
  · rw [SameHeld, State.eachCore_prog]
    exact ⟨rfl, rfl, rfl⟩
  · rw [State.eachCore_prog]
    rfl
  · rw [State.core_eachCore _ nodup, if_neg (by simp), State.core_putCore_same]
  · rw [State.core_eachCore _ nodup, State.core_putCore_other _ _ hc]
    simp only [List.mem_filter, bne_iff_ne, ne_eq, hc, not_false_eq_true, and_true]

/-! ### SEG and END -/

/-- A command that ends its core's segment. -/
theorem segmentStep_completes {i : Instr} (he : exec i s = .next (s.stepCore core w (fun a => { a.ctx with ended := true }))) :
    Completes i s [.prog] (fun t => OnlyCore core s t ∧ t.core core = { a.ctx with ended := true, pc := a.ctx.pc + 1 }) :=
  stepCore_completes h (fun a => { a.ctx with ended := true }) he

end

/-- Settles O53: each command by its lemma above; the two QUANT steps differ in their scale alone, the five of FUNC in their code. -/
theorem programStepsComputeTheirTable : Obligations.ProgramStepsComputeTheirTable := by
  unfold Obligations.ProgramStepsComputeTheirTable
  intro s core w a _ h xs ys rest alone puts puts1 quant
  refine ⟨stepIn_writesDst h, stepOut_completes h, matmul_completes h, add_writesDst h, mul_writesDst h, rmsnorm_writesDst h, layernorm_writesDst h, ?_,
    fun op => quant_completes h dynScale (next_of_op op), fun op => quant_completes h (fun _ => StepWord.k w % 256) (next_of_op op),
    fun op _ _ => rope_writesDst h op, sync_completes h, fun op => segmentStep_completes h (next_of_op op), fun op => segmentStep_completes h (next_of_op op)⟩
  intro op
  simp only [List.forall_mem_cons, List.not_mem_nil, false_implies, implies_true, and_true]
  exact ⟨fun hk => func_writesDst h op hk rfl, fun hk => func_writesDst h op hk rfl, fun hk => func_writesDst h op hk rfl,
    fun hk => func_writesDst h op hk rfl, fun hk => func_writesDst h op hk rfl⟩

end Sys2Proof.Machine
end

section
/-!
The end of a segment: it counts once every core has ended it, and after the last one of a RUN the run leaves its group and its request completes (R200, R201, R205, R365).
-/

namespace Sys2Proof.Machine

open Sys2Proof

/-! ### A run leaves its group (R365) -/

theorem tabGet_eq_none {α : Type} {t : List (Nat × α)} {k : Nat} : tabGet t k = none ↔ ∀ x ∈ t, x.1 ≠ k := by
  simp [tabGet]

/-- Cores of the groups that a request's program holds. -/
def State.coresHeld (s : State) (rid : Nat) : List Nat := (s.prog.current.filter (fun c => c.2.rid == rid)).flatMap (fun c => c.2.coreNums c.1)

theorem State.mem_coresHeld {s : State} {g : Nat} {p : ProgRun} (holds : (g, p) ∈ s.prog.current) {c : Nat} (hc : c ∈ p.coreNums g) : c ∈ s.coresHeld p.rid :=
  List.mem_flatMap.mpr ⟨(g, p), List.mem_filter.mpr ⟨holds, beq_self_eq_true _⟩, hc⟩

/-- The end of a program leaves no run and no core that was not there. -/
theorem State.endProgram_subset (s : State) (rid : Nat) : (s.endProgram rid).prog.current ⊆ s.prog.current ∧ (s.endProgram rid).prog.cores ⊆ s.prog.cores := by
  unfold State.endProgram
  dsimp only
  split
  · exact ⟨fun _ hx => hx, fun _ hx => hx⟩
  · exact ⟨fun _ hx => List.mem_of_mem_filter hx, fun _ hx => List.mem_of_mem_filter hx⟩

/-- A program that holds cores leaves its group with them. -/
theorem State.endProgram_holding {s : State} {g : Nat} {p : ProgRun} (holds : (g, p) ∈ s.prog.current) (cores : p.prog.cores ≠ []) :
    (s.endProgram p.rid).prog.current = s.prog.current.filter (fun c => c.2.rid != p.rid) ∧
    (s.endProgram p.rid).prog.cores = s.prog.cores.filter (fun c => !(s.coresHeld p.rid).contains c.1) := by
  obtain ⟨c, hc⟩ := List.exists_mem_of_ne_nil _ cores
  have some : ¬(s.coresHeld p.rid).isEmpty = true := by
    rw [List.isEmpty_iff]
    exact List.ne_nil_of_mem (State.mem_coresHeld holds (List.mem_map_of_mem hc))
  have ends : s.endProgram p.rid = { s with prog := { s.prog with
      current := s.prog.current.filter (fun c => c.2.rid != p.rid), cores := s.prog.cores.filter (fun c => !(s.coresHeld p.rid).contains c.1) } } := if_neg some
  rw [ends]
  exact ⟨rfl, rfl⟩

/-- Nothing is left on a group, nor of a run in its cores. -/
def GroupLeft (g : Nat) (p : ProgRun) (t : State) : Prop := tabGet t.prog.current g = none ∧ ∀ c ∈ p.coreNums g, tabGet t.prog.cores c = none

theorem GroupLeft.of_subset {g : Nat} {p : ProgRun} {s t : State} (h : GroupLeft g p s) (hc : t.prog.current ⊆ s.prog.current) (hk : t.prog.cores ⊆ s.prog.cores) : GroupLeft g p t :=
  ⟨tabGet_eq_none.mpr fun x hx => tabGet_eq_none.mp h.1 x (hc hx), fun c mem => tabGet_eq_none.mpr fun x hx => tabGet_eq_none.mp (h.2 c mem) x (hk hx)⟩

/-- The end of a program whose runs alone stand on its group. -/
theorem State.endProgram_left {s : State} {g : Nat} {p : ProgRun} (holds : (g, p) ∈ s.prog.current) (cores : p.prog.cores ≠ [])
    (alone : ∀ c ∈ s.prog.current, c.1 = g → c.2.rid = p.rid) : GroupLeft g p (s.endProgram p.rid) := by
  obtain ⟨current, left⟩ := State.endProgram_holding holds cores
  refine ⟨?_, fun c hc => ?_⟩
  · rw [current, tabGet_eq_none]
    intro x hx here
    obtain ⟨mem, other⟩ := List.mem_filter.mp hx
    simp [alone x mem here] at other
  · rw [left, tabGet_eq_none]
    rintro x hx rfl
    simpa [State.mem_coresHeld holds hc] using (List.mem_filter.mp hx).2

/-! ### Its request completes (R76) -/

theorem State.dropStale_runs (s : State) : s.dropStale.prog.current = s.prog.current ∧ s.dropStale.prog.cores = s.prog.cores := by
  have kept (v : State) : v.refreshPoison.endRefills.prog = v.prog :=
    Eq.trans ((State.endRefills_keeps (Within.refl _) (.refl _)).same .prog (by decide)) ((State.refreshPoison_keeps (Within.refl _) (.refl v)).same .prog (by decide))
  unfold State.dropStale
  extract_lets
  split
  · exact ⟨rfl, rfl⟩
  · rw [kept]
    exact ⟨rfl, rfl⟩

theorem GroupLeft.dropRun {g : Nat} {p : ProgRun} {s : State} (h : GroupLeft g p s) (rid : Nat) : GroupLeft g p (s.dropRun rid) := by
  obtain ⟨current, cores⟩ := s.endProgram_subset rid
  have ended := h.of_subset current cores
  generalize hv : ({ s.endProgram rid with sch := { (s.endProgram rid).sch with runs := (s.endProgram rid).sch.runs.filter (fun r => r.req.rid != rid) } } : State) = v
  have dropped : s.dropRun rid = v.sweepGhosts.dropStale := by rw [← hv]; rfl
  have swept : v.sweepGhosts.prog = (s.endProgram rid).prog := Eq.trans ((State.sweepGhosts_keeps (Within.refl _) (.refl v)).same .prog (by decide)) (by rw [← hv])
  obtain ⟨current, cores⟩ := v.sweepGhosts.dropStale_runs
  rw [GroupLeft, dropped, current, cores, swept]
  exact ended

/-- The completion of a request that attends over nothing: its reply, and no clamp counted. -/
theorem State.completeRun_plain (s : State) {r : Run} (plain : r.attends = false) :
    ∃ x : Reply, s.completeRun r = ((s.dropRun r.req.rid).bump (Reg.attSatTenant + 16 * Msg.tenant r.req.msg + 12) 0).reply x ∧
      x.req = r.req ∧ x.status = r.status ∧ x.body = r.output ∧ x.detail = r.detail := by
  have clamps : r.clamps = 0 := by rw [Run.clamps, plain]; rfl
  unfold State.completeRun State.countClamps
  rw [clamps, plain]
  exact ⟨_, rfl, rfl, rfl, rfl, rfl⟩

/-- A reply that is not STALE_MAP counts nothing. -/
theorem State.reply_run {s : State} {x : Reply} (current : x.status ≠ Status.staleMap) : (s.reply x).regs.run = s.regs.run := by
  rw [State.reply, if_neg (fun stale => current stale.1)]

theorem State.reply_prog (s : State) (x : Reply) : (s.reply x).prog = s.prog := (State.reply_keeps (Within.refl _) x (.refl s)).same .prog (by decide)

theorem State.bump_run {s t : State} (h : t.regs.run = s.regs.run) (a n : Nat) : (t.bump a n).regs.run = (s.bump a n).regs.run := by
  rw [State.bump_regs, State.bump_regs, h]

/-! ### SEGMENT_END (R200, R201) -/

/-- A run with one more segment completed, between segments. -/
def ProgRun.segEnded (p : ProgRun) : ProgRun := { p with busy := false, seg := p.seg + 1, cascFails := 0 }

/-- The tenant's segment is counted, and the group keeps its run. -/
def State.segmentEnded (s : State) (g : Nat) (p : ProgRun) : State := (s.bump (Reg.attProgTenant + 16 * p.prog.owner + 4)).putProg g p.segEnded

section
variable {s : State} {g : Nat} {p : ProgRun} (hp : tabGet s.prog.current g = some p) (busy : p.busy = true)
include hp busy

theorem exec_segmentEnd_under_way (some : (p.coreNums g).all (fun c => (s.core c).ended) = false) : exec (.segmentEnd g) s = .next s := by
  show execSegmentEnd g s = _
  simp only [execSegmentEnd, hp, busy, some, Bool.not_true, Bool.not_false, Bool.false_eq_true, false_or, if_true]

variable (all : (p.coreNums g).all (fun c => (s.core c).ended) = true)
include all

theorem exec_segmentEnd_ended :
    exec (.segmentEnd g) s = .next (if p.seg + 1 < p.prog.segments then s.segmentEnded g p else (s.segmentEnded g p).finishRun p.segEnded) := by
  show execSegmentEnd g s = _
  simp only [execSegmentEnd, hp, busy, all, Bool.not_true, Bool.false_eq_true, or_self, if_false]
  rfl

theorem segmentEnd_between (more : p.seg + 1 < p.prog.segments) :
    Completes (.segmentEnd g) s [.run, .prog] (fun t => tabGet t.prog.current g = some p.segEnded ∧ t.prog.cores = s.prog.cores ∧
      t.regs.run = (s.bump (Reg.attProgTenant + 16 * p.prog.owner + 4)).regs.run) := by
  have hm := Within.refl [Blk.run, .prog]
  exact completes_keeps ((exec_segmentEnd_ended hp busy all).trans (congrArg Host.Outcome.next (if_pos more)))
    (State.putProg_keeps (hm.sub rfl) _ _ (State.bump_keeps (hm.sub rfl) _ _ (.refl s))) ⟨tabGet_tabPut_same .., rfl, rfl⟩

end

/-- The last segment of a RUN: the run is counted and ends, and its request completes with the output. -/
theorem State.finishRun_run {s : State} {p : ProgRun} {r : Run} (hr : s.run p.rid = some r) (op : r.req.op = .run) :
    s.finishRun p = ((s.bump (Reg.attProgTenant + 16 * p.prog.owner)).endProgram p.rid).completeRun { r with output := p.output, detail := p.prog.outBytes } := by
  have run : ¬r.req.op = .projectAttend := by rw [op]; decide
  simp only [State.finishRun, hr, if_neg run]

section
variable {s : State} {g : Nat} {p : ProgRun} {r : Run} (hr : s.run p.rid = some r) (op : r.req.op = .run) (plain : r.attends = false)
include hr op plain

/-- What is left of a RUN whose last segment has ended. -/
theorem State.finishRun_leaves (holds : (g, p) ∈ s.prog.current) (cores : p.prog.cores ≠ []) (alone : ∀ c ∈ s.prog.current, c.1 = g → c.2.rid = p.rid) :
    Completed s p.rid (fun x => x.req = r.req ∧ x.status = r.status ∧ x.body = p.output ∧ x.detail = p.prog.outBytes) (s.finishRun p) ∧
    GroupLeft g p (s.finishRun p) ∧
    (r.status ≠ Status.staleMap → (s.finishRun p).regs.run =
      ((s.bump (Reg.attProgTenant + 16 * p.prog.owner)).bump (Reg.attSatTenant + 16 * Msg.tenant r.req.msg + 12) 0).regs.run) := by
  set u := (s.bump (Reg.attProgTenant + 16 * p.prog.owner)).endProgram p.rid with hu
  set v := (u.dropRun p.rid).bump (Reg.attSatTenant + 16 * Msg.tenant r.req.msg + 12) 0 with hv
  have ended := State.endProgram_keeps (Within.refl [Blk.prog]) p.rid (.refl (s.bump (Reg.attProgTenant + 16 * p.prog.owner)))
  have dropped := State.dropRun_keeps (Within.refl _) p.rid (.refl u)
  obtain ⟨x, answer, req, status, body, detail⟩ := u.completeRun_plain (r := { r with output := p.output, detail := p.prog.outBytes }) plain
  have finish : s.finishRun p = v.reply x := by
    rw [State.finishRun_run hr op, answer, hv, ← State.run_rid hr]
  have left : GroupLeft g p u := State.endProgram_left (s := s.bump (Reg.attProgTenant + 16 * p.prog.owner)) holds cores alone
  rw [finish]
  refine ⟨?_, ?_, fun current => ?_⟩
  · have sch : v.sch = (u.dropRun p.rid).sch := State.bump_sch ..
    have answered : Completed u p.rid (fun y => y.req = r.req ∧ y.status = r.status ∧ y.body = p.output ∧ y.detail = p.prog.outBytes) (v.reply x) :=
      .of_reply sch (fun _ => ⟨req, status, body, detail⟩)
    have before : u.sch = s.sch := ended.same .sch (by decide)
    exact ⟨answered.run, before ▸ answered.reply⟩
  · rw [GroupLeft, State.reply_prog]
    exact left.dropRun p.rid
  · rw [State.reply_run (by rw [status]; exact current)]
    have same : (u.dropRun p.rid).regs.run = (s.bump (Reg.attProgTenant + 16 * p.prog.owner)).regs.run := Eq.trans (dropped.same .run (by decide)) (ended.same .run (by decide))
    exact State.bump_run same _ _

end

/-- Settles O54: before the end and between segments by the command's own equations; after the last segment of a RUN by what `State.finishRun` leaves. -/
theorem segmentsEndAndRunsFinish : Obligations.SegmentsEndAndRunsFinish := by
  unfold Obligations.SegmentsEndAndRunsFinish
  intro s g p _ hp busy all counted
  refine ⟨exec_segmentEnd_under_way hp busy, segmentEnd_between hp busy, fun r ended last hr op plain _ _ alone cores => ?_⟩
  have he := (exec_segmentEnd_ended hp busy ended).trans (congrArg Host.Outcome.next (if_neg (Nat.not_lt.mpr last)))
  have holds : (g, p.segEnded) ∈ (s.segmentEnded g p).prog.current := mem_of_tabGet (tabGet_tabPut_same ..)
  have theirs : ∀ c ∈ (s.segmentEnded g p).prog.current, c.1 = g → c.2.rid = p.rid := fun c hc here => by
    rcases mem_tabPut hc with rfl | hc
    · rfl
    · rw [alone c hc here]
  obtain ⟨completed, ⟨current, freed⟩, run⟩ := State.finishRun_leaves (s := s.segmentEnded g p) (p := p.segEnded) hr op plain holds cores theirs
  exact completes_of he (execSegmentEnd_keeps (Within.refl _) g (.refl s)) ⟨completed.reply, completed.run, current, freed, run⟩

end Sys2Proof.Machine
end

section
/-!
Loads of programs and weight objects, and unloads: how a command starts one, what LOAD_DONE leaves, and what each kind of load may change (R207, R213, R215, R216, R379).
-/

namespace Sys2Proof.Machine

open Sys2Proof

/-! ### Committed registers (log 2) -/

theorem State.commitTo_liveWf {s : State} (h : s.liveWf) (a v : Nat) : (s.commitTo a v).liveWf := State.liveWf.setLive (s := s.setStaged a v) h a v

theorem State.live_commitTo {s : State} (h : s.liveWf) (a v x : Nat) : (s.commitTo a v).live x = if x = a then v % 2 ^ 32 else s.live x :=
  State.live_setLive (s := s.setStaged a v) h a v x

theorem bitsOf_mod_two_pow {n hi lo : Nat} (h : hi < n) (x : Nat) : bitsOf (x % 2 ^ n) hi lo = bitsOf x hi lo := by
  apply Nat.eq_of_testBit_eq
  intro i
  rw [testBit_bitsOf, testBit_bitsOf, Nat.testBit_mod_two_pow]
  by_cases hi' : i < hi + 1 - lo
  · simp [show i + lo < n by omega]
  · simp [hi']

/-- Windows of host memory are read from registers of the host block alone (R378). -/
theorem State.inWindow_of_sameRegs {as : List Nat} {s t : State} (same : SameRegsBut as s t) (other : ∀ a ∈ as, a < Reg.hstWin) (fn use addr len : Nat) :
    t.inWindow fn use addr len = s.inWindow fn use addr len := by
  have window (a : Nat) (h : Reg.hstWin ≤ a) : t.live a = s.live a := same a fun mem => absurd (other a mem) (Nat.not_lt.mpr h)
  unfold State.inWindow State.live64
  refine congrArg (List.any _) (funext fun w => ?_)
  dsimp only
  rw [window (Reg.hstWin + 32 * w) (by omega), window (Reg.hstWin + 32 * w + 4) (by omega), window (Reg.hstWin + 32 * w + 8) (by omega),
    window (Reg.hstWin + 32 * w + 8 + 4) (by omega), window (Reg.hstWin + 32 * w + 16) (by omega)]

/-! ### The start of a load (R215, R379) -/

/-- The first read of a container leaves the registers and the load, which fails where the container lies outside a use-3 window. -/
theorem State.readContainer_spec {s : State} {x : Load} (h : s.prog.load = some x) :
    ∃ failed, s.readContainer.prog.load = some { x with failed := failed } ∧
      (x.action ≠ 2 → x.got.length < x.len → s.inWindow 0 3 x.src x.len = false → failed = true) := by
  have issued (a n : Nat) : ((s.hostIssue 0 a n .container).getD s).prog = s.prog :=
    (keeps_getD (State.hostIssue_keeps (Within.refl _) 0 a n .container (.refl s)) (.refl s)).same .prog (by decide)
  unfold State.readContainer
  rw [h]
  dsimp only
  split
  · rename_i idle
    refine ⟨x.failed, h, fun action more _ => ?_⟩
    rcases idle with unload | failed | whole
    · exact absurd unload action
    · exact failed
    · omega
  · split
    · rename_i inside
      exact ⟨x.failed, by rw [issued, h], fun _ _ outside => by simp [inside] at outside⟩
    · exact ⟨true, rfl, fun _ _ _ => rfl⟩

/-- The load that ATT_LOAD_CTL, SRC and LEN ask for. -/
def State.loadAsked (s : State) : Load :=
  let ctl := s.live Reg.attLoadCtl
  ⟨bitsOf ctl 1 0, bitsOf ctl 2 2, bitsOf ctl 25 16, s.live64 Reg.attLoadSrc, s.live Reg.attLoadLen, [], false⟩

/-- A commit of ATT_LOAD_CTL while no load is under way starts the one asked for. -/
theorem State.loadCommit_spec {s : State} (wf : s.liveWf) (idle : s.bit Reg.attLoadStatus 0 = false) (action : s.loadAsked.action ≠ 3) :
    s.loadCommit.bit Reg.attLoadStatus 0 = true ∧ ∃ failed, s.loadCommit.prog.load = some { s.loadAsked with failed := failed } ∧
      (s.loadAsked.action ≠ 2 → 0 < s.loadAsked.len → s.inWindow 0 3 s.loadAsked.src s.loadAsked.len = false → failed = true) := by
  set u : State := { s with prog := { s.prog with load := some s.loadAsked } } with hu
  set v := u.setStatus Reg.attLoadStatus 0 0 1 with hv
  have commit : s.loadCommit = v.readContainer := by
    rw [State.loadCommit, if_neg (by simp [idle])]
    exact if_neg action
  have load : v.prog.load = some s.loadAsked := State.setStatus_prog u _ _ _ _ ▸ rfl
  have shown : v.bit Reg.attLoadStatus 0 = true := State.bit_of_fld (State.fld_setStatus (s := u) wf (by decide) (by decide))
  have regs : v.readContainer.regs.live = v.regs.live := (State.readContainer_keeps (Within.refl _) (.refl v)).same .live (by decide)
  have windows := State.inWindow_of_sameRegs (State.setStatus_sameRegs (s := u) wf Reg.attLoadStatus 0 0 1) (by decide) 0 3 s.loadAsked.src s.loadAsked.len
  obtain ⟨failed, read, outside⟩ := State.readContainer_spec load
  rw [commit]
  refine ⟨(SameRegsBut.bit (as := []) (.of_live regs) (by decide) 0).trans shown, failed, read, fun a n w => outside a n (windows.trans w)⟩

/-! ### LOAD_PROGRAM, LOAD_WEIGHT_OBJECT and UNLOAD -/

theorem State.commitTo_sameRegs {s : State} (wf : s.liveWf) (a v : Nat) : SameRegsBut [a] s (s.commitTo a v) := fun x hx => by
  rw [State.live_commitTo wf, if_neg (fun e => hx (List.mem_singleton.mpr e))]

/-- A commit of ATT_LOAD_CTL with an action, while no load is under way, starts the load that its fields and the named container ask for. -/
theorem State.commit_starts_load {s : State} (wf : s.liveWf) (idle : s.bit Reg.attLoadStatus 0 = false) {ctl : Nat} (action : bitsOf ctl 1 0 ≠ 3) :
    let t := (s.commitTo Reg.attLoadCtl ctl).loadCommit
    t.bit Reg.attLoadStatus 0 = true ∧ ∃ failed,
      t.prog.load = some ⟨bitsOf ctl 1 0, bitsOf ctl 2 2, bitsOf ctl 25 16, s.live64 Reg.attLoadSrc, s.live Reg.attLoadLen, [], failed⟩ ∧
      (bitsOf ctl 1 0 ≠ 2 → 0 < s.live Reg.attLoadLen → s.inWindow 0 3 (s.live64 Reg.attLoadSrc) (s.live Reg.attLoadLen) = false → failed = true) := by
  have same := State.commitTo_sameRegs wf Reg.attLoadCtl ctl
  have asked : (s.commitTo Reg.attLoadCtl ctl).loadAsked =
      ⟨bitsOf ctl 1 0, bitsOf ctl 2 2, bitsOf ctl 25 16, s.live64 Reg.attLoadSrc, s.live Reg.attLoadLen, [], false⟩ := by
    have field {hi lo : Nat} (h : hi < 32) : bitsOf ((s.commitTo Reg.attLoadCtl ctl).live Reg.attLoadCtl) hi lo = bitsOf ctl hi lo := by
      rw [State.live_commitTo wf, if_pos rfl, bitsOf_mod_two_pow h]
    simp only [State.loadAsked, State.live64, field (show 1 < 32 by decide), field (show 2 < 32 by decide), field (show 25 < 32 by decide),
      same Reg.attLoadSrc (by decide), same (Reg.attLoadSrc + 4) (by decide), same Reg.attLoadLen (by decide)]
  have started := State.loadCommit_spec (State.commitTo_liveWf wf Reg.attLoadCtl ctl) ((same.bit (by decide) 0).trans idle) (by rw [asked]; exact action)
  rw [asked] at started
  obtain ⟨busy, failed, load, outside⟩ := started
  exact ⟨busy, failed, load, fun a n w => outside a n ((State.inWindow_of_sameRegs same (by decide) ..).trans w)⟩

/-- ATT_LOAD_SRC and ATT_LOAD_LEN are committed with a container's place and length. -/
def State.containerNamed (s : State) (src len : Nat) : State :=
  ((s.commitTo Reg.attLoadSrc (src % pow2 32 - src % 4096)).commitTo (Reg.attLoadSrc + 4) (src / pow2 32 % pow2 32)).commitTo Reg.attLoadLen (len % pow2 32)

/-- They read as named, and every other register as before. -/
theorem State.containerNamed_regs {s : State} (wf : s.liveWf) {src len : Nat} (place : src % 4096 = 0) (low : src < 2 ^ 64) (short : len < 2 ^ 32) :
    (s.containerNamed src len).liveWf ∧ (s.containerNamed src len).live64 Reg.attLoadSrc = src ∧ (s.containerNamed src len).live Reg.attLoadLen = len ∧
    SameRegsBut [Reg.attLoadSrc, Reg.attLoadSrc + 4, Reg.attLoadLen] s (s.containerNamed src len) := by
  have first := State.commitTo_liveWf wf Reg.attLoadSrc (src % pow2 32 - src % 4096)
  have second := State.commitTo_liveWf first (Reg.attLoadSrc + 4) (src / pow2 32 % pow2 32)
  have live (a : Nat) : (s.containerNamed src len).live a = if a = Reg.attLoadLen then len % pow2 32 % 2 ^ 32 else if a = Reg.attLoadSrc + 4 then src / pow2 32 % pow2 32 % 2 ^ 32 else
      if a = Reg.attLoadSrc then (src % pow2 32 - src % 4096) % 2 ^ 32 else s.live a := by
    rw [State.containerNamed, State.live_commitTo second, State.live_commitTo first, State.live_commitTo wf]
  refine ⟨State.commitTo_liveWf second _ _, ?_, ?_, ?_⟩
  · rw [State.live64, live, live, if_neg (by decide), if_neg (by decide), if_pos rfl, if_neg (by decide), if_pos rfl]
    simp only [pow2]
    omega
  · rw [live, if_pos rfl]
    simp only [pow2]
    omega
  · have source := ((State.commitTo_sameRegs wf Reg.attLoadSrc (src % pow2 32 - src % 4096)).mono (bs := [Reg.attLoadSrc, Reg.attLoadSrc + 4]) (by decide)).trans
      ((State.commitTo_sameRegs first (Reg.attLoadSrc + 4) (src / pow2 32 % pow2 32)).mono (by decide))
    exact (source.mono (by decide)).trans ((State.commitTo_sameRegs second Reg.attLoadLen (len % pow2 32)).mono (by decide))

section
variable {s : State} (running : s.running = true)
include running

/-- Each of the three is only refused while a load is in progress. -/
theorem exec_load_busy (busy : s.bit Reg.attLoadStatus 0 = true) (src len target slot : Nat) :
    ∀ i ∈ [Instr.loadProgram src len, .loadWeightObject src len, .unload target slot], exec i s = .next (s.raiseBit Reg.attProgEvent 1) := by
  have refused (ctl : Nat) (named : Option (Nat × Nat)) : s.loadRow ctl named = s.raiseBit Reg.attProgEvent 1 := by
    unfold State.loadRow
    rw [if_neg (by simp [running]), if_pos busy]
  simp only [List.forall_mem_cons, List.not_mem_nil, false_implies, implies_true, and_true]
  exact ⟨congrArg Host.Outcome.next (refused ..), congrArg Host.Outcome.next (refused ..), congrArg Host.Outcome.next (refused ..)⟩

variable (idle : s.bit Reg.attLoadStatus 0 = false)
include idle

theorem State.loadRow_idle (ctl : Nat) : s.loadRow ctl none = (s.commitTo Reg.attLoadCtl ctl).loadCommit ∧
    ∀ src len, s.loadRow ctl (some (src, len)) = ((s.containerNamed src len).commitTo Reg.attLoadCtl ctl).loadCommit := by
  have row (named : Option (Nat × Nat)) : s.loadRow ctl named = State.loadCommit (State.commitTo (match named with
      | some (a, n) => s.containerNamed a n
      | none => s) Reg.attLoadCtl ctl) := by
    unfold State.loadRow
    rw [if_neg (by simp [running]), if_neg (by simp [idle])]
    rfl
  exact ⟨row none, fun src len => row (some (src, len))⟩

variable (wf : s.liveWf)
include wf

/-- A command that names a container starts the load of it with its action, which the staged copy of ATT_LOAD_CTL gives the slot. -/
theorem State.loadRow_container {src len action : Nat} (place : src % 4096 = 0) (low : src < 2 ^ 64) (short : len < 2 ^ 32) (kind : action < 2) :
    let t := s.loadRow (putBits (s.staged Reg.attLoadCtl) 1 0 action) (some (src, len))
    t.bit Reg.attLoadStatus 0 = true ∧ ∃ x, t.prog.load = some x ∧ x.action = action ∧ x.src = src ∧ x.len = len ∧ x.got = [] ∧
      x.slot = bitsOf (s.staged Reg.attLoadCtl) 25 16 ∧ (s.inWindow 0 3 src len = false → 0 < len → x.failed = true) := by
  set ctl := putBits (s.staged Reg.attLoadCtl) 1 0 action with hctl
  intro t
  obtain ⟨named, atSrc, atLen, same⟩ := State.containerNamed_regs wf place low short
  have asked : bitsOf ctl 1 0 = action := by
    rw [hctl, bitsOf_putBits (by decide)]
    omega
  have slot : bitsOf ctl 25 16 = bitsOf (s.staged Reg.attLoadCtl) 25 16 := bitsOf_putBits_other (by decide) _ _ (.inr (by decide))
  have started := State.commit_starts_load named ((same.bit (by decide) 0).trans idle) (show bitsOf ctl 1 0 ≠ 3 by omega)
  rw [← (State.loadRow_idle running idle _).2, atSrc, atLen, asked, slot, State.inWindow_of_sameRegs same (by decide)] at started
  obtain ⟨busy, failed, load, outside⟩ := started
  exact ⟨busy, _, load, rfl, rfl, rfl, rfl, rfl, fun w n => outside (by omega) n w⟩

theorem State.loadRow_unload (target slot : Nat) :
    let t := s.loadRow (2 + 4 * (target % 2) + 65536 * (slot % 1024)) none
    t.bit Reg.attLoadStatus 0 = true ∧ ∃ x, t.prog.load = some x ∧ x.action = 2 ∧ x.target = target % 2 ∧ x.slot = slot % 1024 := by
  set ctl := 2 + 4 * (target % 2) + 65536 * (slot % 1024) with hctl
  intro t
  have action : bitsOf ctl 1 0 = 2 := by rw [bitsOf_eq_div_mod]; omega
  have kind : bitsOf ctl 2 2 = target % 2 := by rw [bitsOf_eq_div_mod]; omega
  have place : bitsOf ctl 25 16 = slot % 1024 := by rw [bitsOf_eq_div_mod]; omega
  have started := State.commit_starts_load wf idle (show bitsOf ctl 1 0 ≠ 3 by omega)
  rw [← (State.loadRow_idle running idle _).1] at started
  obtain ⟨busy, failed, load, _⟩ := started
  exact ⟨busy, _, load, action, kind, place⟩

end

/-! ### What a load or unload may change -/

theorem State.raiseBit_mat (s : State) (a i : Nat) : (s.raiseBit a i).mat = s.mat := (congrArg State.mat (s.raiseBit_signals a i) :)

/-- A result other than OK, as its field of ATT_LOAD_STATUS holds it (Table 8.6). -/
abbrev LoadResult.Refuses (c : Nat) : Prop := 0 < c ∧ c < 256

/-- A slot with a version put beside its active one; the other slots stay. -/
theorem tabGet_loadSlot_other {α : Type} (l : List (Nat × Slot α)) {n k : Nat} (h : k ≠ n) (v : Option α) : tabGet (loadSlot l n v) k = tabGet l k :=
  tabGet_tabPut_other _ _ h

/-- The outcomes of loading a program: refused with nothing changed, or put in its slot. -/
inductive ProgLoad (s : State) (slot : Nat) : State × Nat → Prop
  | refused {c : Nat} (h : LoadResult.Refuses c) : ProgLoad s slot (s, c)
  | loaded (v : Program) : ProgLoad s slot ({ s with prog := { s.prog with programs := loadSlot s.prog.programs (slot % 64) (some v) } }, LoadResult.ok)

theorem State.loadProg_spec (s : State) (slot : Nat) (b : List Byte) (f : LoadFacts) : ProgLoad s slot (s.loadProg slot b f) := by
  unfold State.loadProg
  extract_lets p named tables objs group share
  -- the format, the set, the signature, the membership, the digest, the schedule, the named objects, ε: each is checked in turn
  iterate 8
    split
    next => exact .refused (by decide)
  split
  · exact .refused (by decide)
  · exact .loaded _

/-- The outcomes of loading an object: refused with nothing changed, refused with its wrapped key recorded, or loaded with every program and run as before. -/
inductive ObjLoad (s : State) : State × Nat → Prop
  | refused {c : Nat} (h : LoadResult.Refuses c) : ObjLoad s (s, c)
  | keyless : ObjLoad s (s.raiseBit Reg.secEvent 4, LoadResult.notMember)
  | loaded {t : State} (programs : t.prog.programs = s.prog.programs) (current : t.prog.current = s.prog.current) : ObjLoad s (t, LoadResult.ok)

theorem State.imageFor_refuses {s : State} {o : WObj} {c : Nat} (h : s.imageFor o = .error c) : LoadResult.Refuses c := by
  unfold State.imageFor at h
  extract_lets bs at h
  split at h
  · cases h; decide
  · extract_lets img at h
    split at h
    · cases h; decide
    · split at h
      · split at h
        · cases h; decide
        · cases h
      · split at h
        · cases h; decide
        · cases h

/-- Placing an object changes no program and no run. -/
theorem State.placeObject_spec {s t : State} {n : Nat} {o : WObj} (h : s.placeObject n o = some t) :
    t.prog.programs = s.prog.programs ∧ t.prog.current = s.prog.current := by
  unfold State.placeObject at h
  extract_lets ver at h
  split at h
  · cases h
  · rename_i u placed
    have prog : u.prog = s.prog := Eq.trans (((State.placeTiles_keeps (Within.refl _) n ver o.tiles.length (.refl _)).some u placed).same .prog (by decide)) rfl
    extract_lets at h
    split at h
    · rw [← Option.some.inj h]
      show u.prog.programs = _ ∧ u.prog.current = _
      rw [prog]
      exact ⟨rfl, rfl⟩
    · cases h

theorem State.loadObject_spec (s : State) (b : List Byte) (f : LoadFacts) : ObjLoad s (s.loadObject b f) := by
  unfold State.loadObject
  split
  · exact .refused (by decide)
  · iterate 2
      split
      next => exact .refused (by decide)
    split
    · exact .refused (by decide)
    · split
      · exact .keyless
      · split
        · exact .refused (by decide)
        · extract_lets o s1
          iterate 2
            split
            next => exact .refused (by decide)
          split
          · split
            · rename_i placed
              obtain ⟨programs, current⟩ := State.placeObject_spec placed
              exact .loaded programs current
            · exact .refused (by decide)
          · split
            · rename_i refused
              exact .refused (State.imageFor_refuses refused)
            · split
              · rename_i placed
                obtain ⟨programs, current⟩ := State.placeObject_spec placed
                exact .loaded programs current
              · exact .refused (by decide)

/-! ### LOAD_DONE -/

/-- What a load or unload that has all it waits for comes to: the state it leaves, and its result (R215, R216). -/
def Load.outcome (x : Load) (f : LoadFacts) (s : State) : State × Nat :=
  if x.action = 2 then s.unloadSlot x.target x.slot
  else if x.failed then (s, LoadResult.badFormat)
  else if x.action = 0 then s.loadProg x.slot (x.got.take x.len) f
  else s.loadObject (x.got.take x.len) f

theorem Load.outcome_keeps (x : Load) (f : LoadFacts) (s : State) : Keeps [.live, .pgw, .mem, .prog, .mat, .hst, .sum, .outbox] s (x.outcome f s).1 := by
  have hm := Within.refl [Blk.live, .pgw, .mem, .prog, .mat, .hst, .sum, .outbox]
  unfold Load.outcome
  split
  · exact State.unloadSlot_keeps (hm.sub rfl) _ _ (.refl s)
  · split
    · exact .refl s
    · split
      · exact State.loadProg_keeps (hm.sub rfl) _ _ _ (.refl s)
      · exact State.loadObject_keeps (hm.sub rfl) _ _ (.refl s)

/-- The load ends: ATT_LOAD_STATUS shows its result, and the event is recorded. -/
def State.loadEnded (s : State) (result : Nat) : State :=
  let u : State := { s with prog := { s.prog with load := none } }
  (u.putStatus Reg.attLoadStatus (putBits (putBits (u.live Reg.attLoadStatus) 0 0 0) 15 8 result)).raiseBit Reg.attProgEvent 0

theorem State.loadEnded_held (s : State) (result : Nat) : (s.loadEnded result).prog = { s.prog with load := none } ∧ (s.loadEnded result).mat = s.mat :=
  ⟨(State.raiseBit_prog ..).trans (State.putStatus_prog ..), (State.raiseBit_mat ..).trans (State.putStatus_mat ..)⟩

theorem State.loadEnded_shown {s : State} (wf : s.liveWf) {result : Nat} (small : result < 256) :
    (s.loadEnded result).bit Reg.attLoadStatus 0 = false ∧ (s.loadEnded result).fld Reg.attLoadStatus 15 8 = result ∧ (s.loadEnded result).bit Reg.attProgEvent 0 = true := by
  set u : State := { s with prog := { s.prog with load := none } } with hu
  set status := putBits (putBits (u.live Reg.attLoadStatus) 0 0 0) 15 8 result with hs
  have put : (u.putStatus Reg.attLoadStatus status).liveWf := State.putStatus_liveWf (s := u) wf _ _
  have low := State.putStatus_low (s := u) wf Reg.attLoadStatus status
  have rest := State.raiseBit_sameRegs put Reg.attProgEvent 0
  refine ⟨(rest.bit (by decide) 0).trans ?_, (rest.fld (by decide) 15 8).trans ?_, State.bit_raiseBit_same put _ (by decide)⟩
  · rw [State.bit, bitOf_low low (by decide), bitOf, hs, testBit_putBits (by decide), if_neg (by decide), testBit_putBits (by decide), if_pos (by decide)]
    rfl
  · rw [State.fld, bitsOf_low low (by decide), hs, bitsOf_putBits (by decide)]
    omega

/-- LOAD_DONE ends the load under way with a result, leaves every run, and has a property. -/
abbrev LoadEnds (s : State) (f : LoadFacts) (result : Nat) (p : State → Prop) : Prop :=
  Completes (.loadDone f) s (partsOf (.loadDone f)) (fun t => t.prog.load = none ∧
    t.bit Reg.attLoadStatus 0 = false ∧ t.fld Reg.attLoadStatus 15 8 = result ∧ t.bit Reg.attProgEvent 0 = true ∧ t.prog.current = s.prog.current ∧ p t)

section
variable {s : State} (hi : s.Inv) (running : s.running = true) {x : Load} (load : s.prog.load = some x) (ready : x.ready = true) {f : LoadFacts}
include running load ready

theorem exec_loadDone : exec (.loadDone f) s = .next ((x.outcome f s).1.loadEnded (x.outcome f s).2) := by
  show execLoadDone f s = _
  unfold execLoadDone
  rw [load]
  dsimp only
  rw [if_neg (by simp [running, ready])]
  rfl

include hi

/-- A load ends with its outcome: no run changes, and what programs, objects and images there are is the outcome's. -/
theorem loadDone_ends {u : State} {result : Nat} (outcome : x.outcome f s = (u, result)) (small : result < 256) (current : u.prog.current = s.prog.current) {p : State → Prop}
    (hp : ∀ t : State, t.prog = { u.prog with load := none } → t.mat = u.mat → p t) : LoadEnds s f result p := by
  have answer := exec_loadDone running load ready (f := f)
  have wf := ((x.outcome_keeps f s).inv hi).liveWf
  rw [outcome] at answer wf
  obtain ⟨prog, mat⟩ := u.loadEnded_held result
  obtain ⟨idle, shown, event⟩ := State.loadEnded_shown wf small
  exact completes_of answer (execLoadDone_keeps (Within.refl _) f (.refl s)) ⟨congrArg ProgSt.load prog, idle, shown, event, (congrArg ProgSt.current prog).trans current, hp _ prog mat⟩

end

/-- The slots of programs and objects, and the images, are those of another state. -/
def SameSlots (s t : State) : Prop := t.prog.programs = s.prog.programs ∧ t.prog.objects = s.prog.objects ∧ t.mat = s.mat

section
variable {s t : State} {x : Load} {f : LoadFacts}

/-- A load that was refused leaves the slots. -/
theorem sameSlots_of_held (prog : t.prog = { s.prog with load := none }) (mat : t.mat = s.mat) : SameSlots s t :=
  ⟨by rw [prog], by rw [prog], mat⟩

theorem Load.outcome_failed (kind : x.action ≠ 2) (failed : x.failed = true) : x.outcome f s = (s, LoadResult.badFormat) := by
  rw [Load.outcome, if_neg kind, if_pos failed]

theorem Load.outcome_program (kind : x.action = 0) (read : x.failed = false) : x.outcome f s = s.loadProg x.slot (x.got.take x.len) f := by
  rw [Load.outcome, if_neg (by omega), if_neg (by simp [read]), if_pos kind]

theorem Load.outcome_object (kind : x.action = 1) (read : x.failed = false) : x.outcome f s = s.loadObject (x.got.take x.len) f := by
  rw [Load.outcome, if_neg (by omega), if_neg (by simp [read]), if_neg (by omega)]

theorem Load.outcome_unloadProgram (kind : x.action = 2) (target : x.target = 0) {y : Slot Program} (held : tabGet s.prog.programs (x.slot % 64) = some y) :
    x.outcome f s = ({ s with prog := { s.prog with programs := loadSlot s.prog.programs (x.slot % 64) none } }, LoadResult.ok) := by
  rw [Load.outcome, if_pos kind, State.unloadSlot, if_pos target, if_neg (by simp [held])]

theorem Load.outcome_unloadInUse (kind : x.action = 2) (target : x.target = 1) (used : s.objInUse x.slot = true) : x.outcome f s = (s, LoadResult.inUse) := by
  rw [Load.outcome, if_pos kind, State.unloadSlot, if_neg (by omega), if_pos used]

end

section
variable {s : State} (hi : s.Inv) (running : s.running = true) {x : Load} (load : s.prog.load = some x) (ready : x.ready = true) (f : LoadFacts)
include hi running load ready

theorem loadDone_program (kind : x.action = 0) (read : x.failed = false) :
    let r := s.loadProg x.slot (x.got.take x.len) f
    LoadEnds s f r.2 (fun t => t.prog.objects = s.prog.objects ∧ t.mat = s.mat ∧ t.prog.programs = r.1.prog.programs ∧
      (r.2 ≠ LoadResult.ok → SameSlots s t) ∧ ∀ k, k ≠ x.slot % 64 → tabGet t.prog.programs k = tabGet s.prog.programs k) := by
  have outcome := Load.outcome_program (s := s) (f := f) kind read
  have spec := s.loadProg_spec x.slot (x.got.take x.len) f
  generalize s.loadProg x.slot (x.got.take x.len) f = r at outcome spec
  cases spec with
  | refused h =>
    refine loadDone_ends hi running load ready outcome h.2 rfl fun t prog mat => ?_
    have same : SameSlots s t := sameSlots_of_held prog mat
    have ⟨programs, objects, images⟩ := same
    exact ⟨objects, images, programs, fun _ => same, fun k _ => by rw [programs]⟩
  | loaded v =>
    refine loadDone_ends hi running load ready outcome (by decide) rfl fun t prog mat => ?_
    rw [prog]
    exact ⟨rfl, mat, rfl, fun refused => absurd rfl refused, fun k other => tabGet_loadSlot_other _ other _⟩

theorem loadDone_object (kind : x.action = 1) (read : x.failed = false) :
    let r := s.loadObject (x.got.take x.len) f
    LoadEnds s f r.2 (fun t => t.prog.programs = s.prog.programs ∧ t.prog.objects = r.1.prog.objects ∧ t.mat = r.1.mat ∧ (r.2 ≠ LoadResult.ok → SameSlots s t)) := by
  have outcome := Load.outcome_object (s := s) (f := f) kind read
  have spec := s.loadObject_spec (x.got.take x.len) f
  generalize s.loadObject (x.got.take x.len) f = r at outcome spec
  cases spec with
  | refused h =>
    refine loadDone_ends hi running load ready outcome h.2 rfl fun t prog mat => ?_
    have same : SameSlots s t := sameSlots_of_held prog mat
    have ⟨programs, objects, images⟩ := same
    exact ⟨programs, objects, images, fun _ => same⟩
  | keyless =>
    have kept : (s.raiseBit Reg.secEvent 4).mat = s.mat := State.raiseBit_mat ..
    have held : (s.raiseBit Reg.secEvent 4).prog = s.prog := State.raiseBit_prog ..
    refine loadDone_ends hi running load ready outcome (by decide) (congrArg ProgSt.current held) fun t prog mat => ?_
    have same : SameSlots s t := sameSlots_of_held (held ▸ prog) (mat.trans kept)
    have ⟨programs, objects, images⟩ := same
    exact ⟨programs, objects.trans (congrArg ProgSt.objects held).symm, mat, fun _ => same⟩
  | loaded programs current =>
    refine loadDone_ends hi running load ready outcome (by decide) current fun t prog mat => ?_
    exact ⟨by rw [prog]; exact programs, by rw [prog], mat, fun refused => absurd rfl refused⟩

theorem loadDone_unloadProgram (kind : x.action = 2) (target : x.target = 0) {y : Slot Program} (held : tabGet s.prog.programs (x.slot % 64) = some y) :
    LoadEnds s f LoadResult.ok (fun t => tabGet t.prog.programs (x.slot % 64) = some { y with next := some none } ∧ t.prog.objects = s.prog.objects) := by
  refine loadDone_ends hi running load ready (Load.outcome_unloadProgram kind target held) (by decide) rfl fun t prog _ => ?_
  rw [prog]
  refine ⟨?_, rfl⟩
  show tabGet (loadSlot _ _ _) _ = _
  rw [loadSlot, tabGet_tabPut_same, held]

end

/-- Settles O52: the refusal of a command, the start of a load by the registers it commits, and each end of one by its outcome. -/
theorem loadsAreCommandedCheckedAndNoted : Obligations.LoadsAreCommandedCheckedAndNoted := by
  unfold Obligations.LoadsAreCommandedCheckedAndNoted
  intro s src len target slot hi running place low short fields
  refine ⟨fun busy i listed => ?_, fun idle => ⟨?_, ?_, ?_⟩, fun x f load ready => ⟨fun kind failed => ?_, ?_, ?_, ?_, fun kind target used => ?_⟩⟩
  · exact completes_keeps (exec_load_busy running busy src len target slot i listed) (State.raiseBit_keeps (Within.refl _) _ _ (.refl s))
      (State.bit_raiseBit_same hi.liveWf _ (by decide))
  · exact completes_of rfl (execLoadProgram_keeps (Within.refl _) src len (.refl s)) (State.loadRow_container running idle hi.liveWf place low short (by decide))
  · exact completes_of rfl (execLoadWeightObject_keeps (Within.refl _) src len (.refl s)) (State.loadRow_container running idle hi.liveWf place low short (by decide))
  · exact completes_of rfl (execUnload_keeps (Within.refl _) target slot (.refl s)) (State.loadRow_unload running idle hi.liveWf target slot)
  · exact loadDone_ends hi running load ready (Load.outcome_failed kind failed) (by decide) rfl (fun _ => sameSlots_of_held)
  · exact loadDone_program hi running load ready f
  · exact loadDone_object hi running load ready f
  · exact fun kind target y => loadDone_unloadProgram hi running load ready f kind target
  · exact loadDone_ends hi running load ready (Load.outcome_unloadInUse kind target used) (by decide) rfl (fun _ => sameSlots_of_held)

end Sys2Proof.Machine
end

section
/-!
Rule edits: the registers that a row of MAT_RULE_CTL commits, and what it answers (R226–R229).
-/

namespace Sys2Proof.Machine

open Sys2Proof

/-! ### Several registers committed (log 2) -/

/-- Values are committed to registers in turn. -/
def State.commits (s : State) (l : List (Nat × Nat)) : State := l.foldl (fun s p => s.commitTo p.1 p.2) s

theorem State.commits_keeps {m : List Blk} {z s : State} (hm : Within [.live, .staged] m) (l : List (Nat × Nat)) (h : Keeps m z s) : Keeps m z (s.commits l) :=
  keeps_foldl (fun _ _ hs => State.commitTo_keeps hm _ _ hs) h

theorem State.commits_mat (s : State) (l : List (Nat × Nat)) : (s.commits l).mat = s.mat :=
  (State.commits_keeps (Within.refl _) l (.refl s)).same .mat (by decide)

theorem State.commits_now (s : State) (l : List (Nat × Nat)) : (s.commits l).now = s.now :=
  (State.commits_keeps (Within.refl _) l (.refl s)).same .now (by decide)

theorem State.commits_liveWf {s : State} (wf : s.liveWf) (l : List (Nat × Nat)) : (s.commits l).liveWf := by
  induction l generalizing s with
  | nil => exact wf
  | cons p l ih => exact ih (State.commitTo_liveWf wf p.1 p.2)

theorem State.commits_sameRegs {s : State} (wf : s.liveWf) (l : List (Nat × Nat)) : SameRegsBut (l.map Prod.fst) s (s.commits l) := by
  induction l generalizing s with
  | nil => exact .refl _ s
  | cons p l ih =>
    have first := (State.commitTo_sameRegs wf p.1 p.2).mono (bs := (p :: l).map Prod.fst) (by simp)
    exact first.trans ((ih (State.commitTo_liveWf wf p.1 p.2)).mono (List.subset_cons_self ..))

/-- Each of several registers reads what was committed to it. -/
theorem State.live_commits {s : State} (wf : s.liveWf) {l : List (Nat × Nat)} (once : (l.map Prod.fst).Nodup) {a v : Nat} (mem : (a, v) ∈ l) :
    (s.commits l).live a = v % 2 ^ 32 := by
  induction l generalizing s with
  | nil => cases mem
  | cons q l ih =>
    obtain ⟨absent, once⟩ := List.nodup_cons.mp once
    have next := State.commitTo_liveWf wf q.1 q.2
    rcases List.mem_cons.mp mem with rfl | mem
    · exact (State.commits_sameRegs next l a absent).trans ((State.live_commitTo wf a v a).trans (if_pos rfl))
    · exact ih next once mem

/-! ### 160-bit values (R227) -/

/-- The five registers that hold a 160-bit value. -/
def wideWords (a v : Nat) : List (Nat × Nat) := (List.range 5).map (fun i => (a + 4 * i, v / pow2 (32 * i) % pow2 32))

theorem State.commitWide_eq_commits (s : State) (a v : Nat) : s.commitWide a v = s.commits (wideWords a v) := by
  rw [State.commits, wideWords, List.foldl_map]
  rfl

/-- A 160-bit live value. -/
def State.wide (s : State) (a : Nat) : Nat := (List.range 5).foldl (fun v i => v + s.live (a + 4 * i) * pow2 (32 * i)) 0

theorem foldl_range_five (f : Nat → Nat) : (List.range 5).foldl (fun v i => v + f i) 0 = f 0 + f 1 + f 2 + f 3 + f 4 := by
  rw [show List.range 5 = [0, 1, 2, 3, 4] from rfl]
  simp only [List.foldl_cons, List.foldl_nil, Nat.zero_add]

theorem State.wide_eq_sum (s : State) (a : Nat) :
    s.wide a = s.live a + s.live (a + 4) * 2 ^ 32 + s.live (a + 8) * 2 ^ 64 + s.live (a + 12) * 2 ^ 96 + s.live (a + 16) * 2 ^ 128 := by
  have lowest : s.live (a + 4 * 0) * 2 ^ (32 * 0) = s.live a := Nat.mul_one _
  rw [State.wide, foldl_range_five (fun i => s.live (a + 4 * i) * pow2 (32 * i)), lowest]

/-- Registers that hold the words of a 160-bit value hold the value. -/
theorem State.wide_of_words {s : State} {a v : Nat} (low : v < 2 ^ 160) (words : ∀ p ∈ wideWords a v, s.live p.1 = p.2 % 2 ^ 32) : s.wide a = v := by
  have word (i : Nat) (h : i < 5) : s.live (a + 4 * i) = v / 2 ^ (32 * i) % 2 ^ 32 :=
    (words _ (List.mem_map.mpr ⟨i, List.mem_range.mpr h, rfl⟩)).trans (Nat.mod_mod _ _)
  have w0 := word 0 (by decide)
  have w1 := word 1 (by decide)
  have w2 := word 2 (by decide)
  have w3 := word 3 (by decide)
  have w4 := word 4 (by decide)
  simp only [Nat.mul_zero, Nat.add_zero, Nat.reduceMul] at w0 w1 w2 w3 w4
  rw [State.wide_eq_sum, w0, w1, w2, w3, w4]
  omega

theorem State.live_lt {s : State} (wf : s.liveWf) {a : Nat} (reset : resetOf a < 2 ^ 32) : s.live a < 2 ^ 32 := by
  refine spGet_lt reset ?_ a
  have entries := ((Bool.and_eq_true _ _).mp wf).2
  simp only [List.all_eq_true, Bool.and_eq_true] at entries ⊢
  exact fun p hp => (entries p hp).2

theorem State.wide_lt {s : State} (wf : s.liveWf) {a : Nat} (reset : ∀ i < 5, resetOf (a + 4 * i) < 2 ^ 32) : s.wide a < 2 ^ 160 := by
  have w0 := State.live_lt wf (reset 0 (by decide))
  have w1 := State.live_lt wf (reset 1 (by decide))
  have w2 := State.live_lt wf (reset 2 (by decide))
  have w3 := State.live_lt wf (reset 3 (by decide))
  have w4 := State.live_lt wf (reset 4 (by decide))
  simp only [Nat.mul_zero, Nat.add_zero, Nat.reduceMul] at w0 w1 w2 w3 w4
  rw [State.wide_eq_sum]
  omega

/-! ### A row of MAT_RULE_CTL (R227) -/

/-- The registers that a row commits, with their values. -/
def ruleWords (ctl frame value care word : Nat) : List (Nat × Nat) :=
  [(Reg.matRuleCtl, ctl % pow2 32), (Reg.matRuleEff, frame % pow2 32), (Reg.matRuleEff + 4, frame / pow2 32 % 4096)] ++
    (wideWords Reg.matRuleValue value ++ (wideWords Reg.matRuleCare care ++ [(Reg.matRuleWord, word % pow2 32)]))

theorem ruleWords_once (ctl frame value care word : Nat) : ((ruleWords ctl frame value care word).map Prod.fst).Nodup := by
  show ((ruleWords 0 0 0 0 0).map Prod.fst).Nodup
  decide

theorem State.ruleRow_eq_commits {s : State} (running : s.running = true) (ctl frame value care word : Nat) :
    s.ruleRow ctl frame value care word = (s.commits (ruleWords ctl frame value care word)).ruleCommit := by
  rw [State.ruleRow, if_neg (by simp [running])]
  simp only [State.commitWide_eq_commits, ruleWords, State.commits, List.foldl_append]
  rfl

/-- The edit that the MAT_RULE registers hold, for an image of a version. -/
def State.heldEdit (s : State) (version : Nat) : Edit :=
  let ctl := s.live Reg.matRuleCtl
  ⟨bitsOf ctl 5 0, !bitOf ctl 6, bitsOf ctl 31 16, ⟨s.wide Reg.matRuleValue, s.wide Reg.matRuleCare, s.live Reg.matRuleWord⟩, s.live64 Reg.matRuleEff, ctl, version⟩

/-- MAT_RULE_CTL of an edit. -/
def ruleCtl (slot : Nat) (insert : Bool) (pos : Nat) : Nat := slot + (if insert then 0 else 64) + 65536 * pos

theorem ruleCtl_fields {slot pos : Nat} (insert : Bool) (hslot : slot < 64) (hpos : pos < 65536) :
    ruleCtl slot insert pos < 2 ^ 32 ∧ bitsOf (ruleCtl slot insert pos) 5 0 = slot ∧ (!bitOf (ruleCtl slot insert pos) 6) = insert ∧
    bitsOf (ruleCtl slot insert pos) 31 16 = pos := by
  simp only [bitsOf_eq_div_mod, bitOf, Nat.testBit_eq_decide_div_mod_eq, ruleCtl]
  cases insert
  · simp only [Bool.false_eq_true, if_false, Bool.not_eq_eq_eq_not, Bool.not_false, decide_eq_true_eq]
    omega
  · simp only [if_true, Bool.not_eq_eq_eq_not, Bool.not_true, decide_eq_false_iff_not]
    omega

/-- After a row's commit the registers hold its edit. -/
theorem State.heldEdit_commits {s : State} (wf : s.liveWf) {slot pos frame : Nat} {r : Rule} (insert : Bool) (hslot : slot < 64) (hpos : pos < 65536) (hframe : frame < 2 ^ 44)
    (hvalue : r.value < 2 ^ 160) (hcare : r.care < 2 ^ 160) (hword : r.word < 2 ^ 32) (version : Nat) :
    (s.commits (ruleWords (ruleCtl slot insert pos) frame r.value r.care r.word)).heldEdit version = ⟨slot, insert, pos, r, frame, ruleCtl slot insert pos, version⟩ := by
  obtain ⟨low, atSlot, atInsert, atPos⟩ := ruleCtl_fields insert hslot hpos
  set ctl := ruleCtl slot insert pos
  set t := s.commits (ruleWords ctl frame r.value r.care r.word)
  have reads {a v : Nat} (mem : (a, v) ∈ ruleWords ctl frame r.value r.care r.word) : t.live a = v % 2 ^ 32 := State.live_commits wf (ruleWords_once ..) mem
  have heldCtl : t.live Reg.matRuleCtl = ctl := (reads (v := ctl % pow2 32) (by simp [ruleWords])).trans (by simp only [pow2]; omega)
  have heldFrame : t.live64 Reg.matRuleEff = frame := by
    rw [State.live64, reads (v := frame % pow2 32) (by simp [ruleWords]), reads (v := frame / pow2 32 % 4096) (by simp [ruleWords])]
    simp only [pow2]
    omega
  have heldValue : t.wide Reg.matRuleValue = r.value :=
    State.wide_of_words hvalue fun p hp => reads (List.mem_append_right _ (List.mem_append_left _ hp))
  have heldCare : t.wide Reg.matRuleCare = r.care :=
    State.wide_of_words hcare fun p hp => reads (List.mem_append_right _ (List.mem_append_right _ (List.mem_append_left _ hp)))
  have heldWord : t.live Reg.matRuleWord = r.word := (reads (v := r.word % pow2 32) (by simp [ruleWords])).trans (by simp only [pow2]; omega)
  rw [State.heldEdit, heldCtl, heldFrame, heldValue, heldCare, heldWord, atSlot, atInsert, atPos]

/-! ### The answer (R227, Table 9.13) -/

/-- What an edit of a TCAM image answers, and the edits then pending. -/
def State.editVerdict (s : State) (range : List (Option Rule)) (e : Edit) : Nat × List Edit :=
  if e.frame < s.frame + 2 then (3, s.mat.edits)
  else if 64 ≤ (s.mat.edits.filter (fun x => x.frame == e.frame)).length then (4, s.mat.edits)
  else match applyEdits range (editInsert e (s.mat.edits.filter (fun x => x.slot == e.slot))) with
    | .error c => (c, s.mat.edits)
    | .ok _ => (0, editInsert e s.mat.edits)

/-- The edits then pending, and the answer shown. -/
def State.ruleAnswer (s : State) (v : Nat × List Edit) : State := ({ s with mat := { s.mat with edits := v.2 } }).ruleStatus v.1

theorem State.ruleCommit_tcam {s : State} {img : Image} {range : List (Option Rule)} (active : s.image (s.heldEdit img.version).slot = some img) (body : img.body = .tcam range) :
    s.ruleCommit = s.ruleAnswer (s.editVerdict range (s.heldEdit img.version)) := by
  unfold State.heldEdit at active
  unfold State.ruleCommit State.editVerdict State.heldEdit State.wide
  dsimp only at active ⊢
  rw [active]
  dsimp only
  rw [body]
  dsimp only
  generalize applyEdits range _ = outcome
  split
  · rfl
  · split
    · rfl
    · cases outcome with
      | error c => rfl
      | ok x => rfl

theorem State.ruleCommit_no_tcam {s : State} (other : ∀ img, s.image (s.heldEdit 0).slot = some img → ∃ a, img.body = .automata a) :
    s.ruleCommit = s.ruleAnswer (2, s.mat.edits) := by
  unfold State.heldEdit at other
  unfold State.ruleCommit
  dsimp only at other ⊢
  split
  · rfl
  · rename_i img active
    obtain ⟨a, body⟩ := other img active
    rw [body]
    rfl

/-- The result and the count of pending edits, as MAT_RULE_STATUS shows them. -/
theorem State.ruleStatus_shows {s : State} (wf : s.liveWf) {c : Nat} (code : c < 8) :
    (s.ruleStatus c).fld Reg.matRuleStatus 2 0 = c ∧ (s.ruleStatus c).fld Reg.matRuleStatus 14 8 = min 64 s.mat.edits.length := by
  have low := State.putStatus_low wf Reg.matRuleStatus (putBits (putBits (s.live Reg.matRuleStatus) 2 0 c) 14 8 (min 64 s.mat.edits.length))
  rw [State.fld, State.fld, State.ruleStatus, bitsOf_low low (by decide), bitsOf_low low (by decide), bitsOf_putBits_other (by decide) _ _ (.inl (by decide)),
    bitsOf_putBits (by decide), bitsOf_putBits (by decide)]
  omega

/-- A row answers with a result, and leaves these edits pending. -/
def RuleEnds (s : State) (i : Instr) (v : Nat × List Edit) : Prop :=
  Completes i s [.live, .staged, .mat] (fun t =>
    t.mat = { s.mat with edits := v.2 } ∧ t.fld Reg.matRuleStatus 2 0 = v.1 ∧ t.fld Reg.matRuleStatus 14 8 = min 64 v.2.length)

theorem ruleEnds_of_answer {i : Instr} {s t : State} {v : Nat × List Edit} (kept : KeepsN [.live, .staged, .mat] s (exec i s)) (wf : t.liveWf) (mat : t.mat = s.mat)
    (code : v.1 < 8) (answer : exec i s = .next (t.ruleAnswer v)) : RuleEnds s i v := by
  refine completes_of answer kept ⟨?_, State.ruleStatus_shows (s := { t with mat := { t.mat with edits := v.2 } }) wf code⟩
  rw [State.ruleAnswer, State.ruleStatus, State.putStatus_mat, mat]

/-! ### The causes (R226, R227) -/

theorem applyEdit_error {range : List (Option Rule)} {e : Edit} {c : Nat} (h : applyEdit range e = .error c) : c = 1 ∨ c = 5 := by
  unfold applyEdit at h
  split at h
  · exact .inr (Except.error.inj h).symm
  · split at h
    · split at h
      · cases h
      · exact .inl (Except.error.inj h).symm
    · split at h
      · cases h
      · exact .inr (Except.error.inj h).symm

/-- Edits that cannot all be made lack a hole or name no position. -/
theorem applyEdits_error {range : List (Option Rule)} {es : List Edit} {c : Nat} (h : applyEdits range es = .error c) : c = 1 ∨ c = 5 := by
  induction es generalizing range with
  | nil => cases h
  | cons e es ih =>
    rw [applyEdits] at h
    split at h
    · exact ih h
    · rename_i first
      exact applyEdit_error (first.trans h)

section
variable {s : State} {range : List (Option Rule)} {e : Edit}

theorem State.editVerdict_past (past : e.frame < s.frame + 2) : s.editVerdict range e = (3, s.mat.edits) := if_pos past

variable (ahead : s.frame + 2 ≤ e.frame)
include ahead

theorem State.editVerdict_full (full : 64 ≤ (s.mat.edits.filter (fun x => x.frame == e.frame)).length) : s.editVerdict range e = (4, s.mat.edits) :=
  (if_neg (Nat.not_lt.mpr ahead)).trans (if_pos full)

variable (room : ¬64 ≤ (s.mat.edits.filter (fun x => x.frame == e.frame)).length)
include room

theorem State.editVerdict_error {c : Nat} (h : applyEdits range (editInsert e (s.mat.edits.filter (fun x => x.slot == e.slot))) = .error c) :
    s.editVerdict range e = (c, s.mat.edits) := by
  rw [State.editVerdict, if_neg (Nat.not_lt.mpr ahead), if_neg room, h]

theorem State.editVerdict_ok {x : List (Option Rule)} (h : applyEdits range (editInsert e (s.mat.edits.filter (fun x => x.slot == e.slot))) = .ok x) :
    s.editVerdict range e = (0, editInsert e s.mat.edits) := by
  rw [State.editVerdict, if_neg (Nat.not_lt.mpr ahead), if_neg room, h]

end

theorem State.editVerdict_code (s : State) (range : List (Option Rule)) (e : Edit) : (s.editVerdict range e).1 < 8 := by
  unfold State.editVerdict
  split
  · exact (by decide : 3 < 8)
  · split
    · exact (by decide : 4 < 8)
    · split
      · rename_i c failed
        have causes := applyEdits_error failed
        show c < 8
        omega
      · exact (by decide : 0 < 8)

/-! ### The obligation -/

section
variable {s : State} (running : s.running = true) (wf : s.liveWf) {i : Instr} (kept : KeepsN [.live, .staged, .mat] s (exec i s))
  {slot pos frame : Nat} {insert : Bool} {r : Rule} (hslot : slot < 64) (hpos : pos < 65536) (hframe : frame < 2 ^ 44)
  (hvalue : r.value < 2 ^ 160) (hcare : r.care < 2 ^ 160) (hword : r.word < 2 ^ 32)
  (row : exec i s = .next (s.ruleRow (ruleCtl slot insert pos) frame r.value r.care r.word))
include running wf kept hslot hpos hframe hvalue hcare hword row

/-- A row for a slot without an active TCAM image. -/
theorem ruleRow_no_tcam (other : ∀ img, s.image slot = some img → ∃ a, img.body = .automata a) : RuleEnds s i (2, s.mat.edits) := by
  have held := State.heldEdit_commits wf insert hslot hpos hframe hvalue hcare hword 0
  rw [State.ruleRow_eq_commits running] at row
  set t := s.commits (ruleWords (ruleCtl slot insert pos) frame r.value r.care r.word)
  have mat : t.mat = s.mat := s.commits_mat _
  refine ruleEnds_of_answer kept (State.commits_liveWf wf _) mat (by decide : 2 < 8) (row.trans (congrArg _ ?_))
  rw [State.ruleCommit_no_tcam (by rw [held, State.image, mat]; exact other), mat]

/-- A row for a slot with an active TCAM image. -/
theorem ruleRow_tcam {img : Image} {range : List (Option Rule)} (active : s.image slot = some img) (body : img.body = .tcam range) :
    RuleEnds s i (s.editVerdict range ⟨slot, insert, pos, r, frame, ruleCtl slot insert pos, img.version⟩) := by
  have held := State.heldEdit_commits wf insert hslot hpos hframe hvalue hcare hword img.version
  rw [State.ruleRow_eq_commits running] at row
  set t := s.commits (ruleWords (ruleCtl slot insert pos) frame r.value r.care r.word)
  have mat : t.mat = s.mat := s.commits_mat _
  have now : t.now = s.now := s.commits_now _
  have verdict (e : Edit) : t.editVerdict range e = s.editVerdict range e := by rw [State.editVerdict, State.frame, now, mat, State.editVerdict]
  refine ruleEnds_of_answer kept (State.commits_liveWf wf _) mat (s.editVerdict_code ..) (row.trans (congrArg _ ?_))
  rw [State.ruleCommit_tcam (img := img) (by rw [held, State.image, mat]; exact active) body, held, verdict]

end

/-- Settles O55: both commands commit a row of MAT_RULE_CTL, and each cause is a case of the row's verdict. -/
theorem ruleEditsArePendingUntilTheirFrame : Obligations.RuleEditsArePendingUntilTheirFrame := by
  unfold Obligations.RuleEditsArePendingUntilTheirFrame
  intro s slot pos value care word frame inv running hslot hpos hvalue hcare hword hframe wide ends both
  have verdicts (i : Instr) (insert : Bool) (r : Rule) (kept : KeepsN [.live, .staged, .mat] s (exec i s)) (hvalue : r.value < 2 ^ 160) (hcare : r.care < 2 ^ 160)
      (hword : r.word < 2 ^ 32) (row : exec i s = .next (s.ruleRow (ruleCtl slot insert pos) frame r.value r.care r.word)) : both i insert r := by
    refine ⟨ruleRow_no_tcam running inv.liveWf kept hslot hpos hframe hvalue hcare hword row, fun img range active body => ?_⟩
    have ended := ruleRow_tcam running inv.liveWf kept hslot hpos hframe hvalue hcare hword row active body
    intro edit all full
    refine ⟨fun past => ?_, fun ahead hfull => ?_, fun ahead room c error => ⟨applyEdits_error error, ?_⟩, fun ahead room x ok => ?_⟩
    · exact (congrArg (RuleEnds s i) (State.editVerdict_past past)).mp ended
    · exact (congrArg (RuleEnds s i) (State.editVerdict_full ahead hfull)).mp ended
    · exact (congrArg (RuleEnds s i) (State.editVerdict_error ahead room error)).mp ended
    · exact (congrArg (RuleEnds s i) (State.editVerdict_ok ahead room ok)).mp ended
  refine ⟨verdicts _ true ⟨value, care, word⟩ (execRuleInsert_keeps (Within.refl _) _ _ _ _ _ _ (.refl s)) hvalue hcare hword ?_,
    verdicts _ false ⟨s.wide Reg.matRuleValue, s.wide Reg.matRuleCare, s.live Reg.matRuleWord⟩ (execRuleDelete_keeps (Within.refl _) _ _ _ (.refl s))
      (State.wide_lt inv.liveWf (by decide)) (State.wide_lt inv.liveWf (by decide)) (State.live_lt inv.liveWf (by decide)) ?_⟩
  · show Host.Outcome.next (s.ruleRow (slot % 64 + 65536 * (pos % 65536)) frame value care word) = _
    rw [Nat.mod_eq_of_lt hslot, Nat.mod_eq_of_lt hpos]
    rfl
  · show Host.Outcome.next (s.ruleRow (slot % 64 + 64 + 65536 * (pos % 65536)) frame (s.wide Reg.matRuleValue) (s.wide Reg.matRuleCare) (s.live Reg.matRuleWord)) = _
    rw [Nat.mod_eq_of_lt hslot, Nat.mod_eq_of_lt hpos]
    rfl

end Sys2Proof.Machine
end

section
/-!
Scrub, audit, MATCH steps, and a member of the cascade (R223, R226, R230, R231, R235, R237, R238).
-/

namespace Sys2Proof.Machine

open Sys2Proof

/-! ### Scrub (R231) -/

/-- Every search cell is its copy again. -/
def State.scrubbed (s : State) : State := { s with mat := { s.mat with cellDiff := [] } }

/-- Entries whose search cell differs from its copy. -/
def State.badCells (s : State) : List Nat := (s.mat.cellDiff.map Prod.fst).foldl setInsert []

theorem exec_tcamScrub {s : State} (running : s.running = true) :
    exec (.tcamScrub []) s = .next (if s.badCells.isEmpty then s.scrubbed else (s.scrubbed.bump Reg.matStat s.badCells.length).raiseBit Reg.matEvent 2) := by
  show execTcamScrub [] s = _
  rw [execTcamScrub, if_neg (by simp [running])]
  simp only [List.filter_nil, List.map_nil, List.append_nil, List.foldl_nil]
  rfl

theorem State.tcamCell_of_no_diff {s : State} (h : s.mat.cellDiff = []) (i : Nat) : s.tcamCell i = s.tcamCopy i := by
  rw [State.tcamCell, h]
  rfl

/-- Copies follow the size of the key region, the keys and the images. -/
theorem State.tcamCopy_congr {s t : State} (cfg : t.live Reg.matCfg = s.live Reg.matCfg) (keys : t.mat.keys = s.mat.keys) (images : t.mat.images = s.mat.images)
    (kept : t.mat.kept = s.mat.kept) (i : Nat) : t.tcamCopy i = s.tcamCopy i := by
  have region : t.keyEntries = s.keyEntries := by rw [State.keyEntries, State.fld, cfg, State.keyEntries, State.fld]
  rw [State.tcamCopy, region, keys, images, kept, State.tcamCopy]

theorem State.raiseBit_run (s : State) (a i : Nat) : (s.raiseBit a i).regs.run = s.regs.run := by
  rw [State.raiseBit, State.raise_regs, State.setLive_regs]

theorem tcamScrub_clean {s : State} (running : s.running = true) (clean : s.badCells = []) : Completes (.tcamScrub []) s [.mat] (fun t => t.mat = { s.mat with cellDiff := [] }) := by
  have answer := exec_tcamScrub running
  rw [clean] at answer
  exact completes_keeps answer (keeps_mk (h := .refl s) (k_mat := .inl (by decide))) rfl

theorem tcamScrub_repairs {s : State} (running : s.running = true) (wf : s.liveWf) (bad : s.badCells ≠ []) :
    Completes (.tcamScrub []) s [.live, .run, .mat, .hst, .sum, .outbox] (fun t => (∀ i, t.tcamCell i = t.tcamCopy i ∧ t.tcamCopy i = s.tcamCopy i) ∧
      t.bit Reg.matEvent 2 = true ∧ t.regs.run = (s.bump Reg.matStat s.badCells.length).regs.run) := by
  set u := s.scrubbed.bump Reg.matStat s.badCells.length with hu
  have answer : exec (.tcamScrub []) s = .next (u.raiseBit Reg.matEvent 2) := by
    rw [exec_tcamScrub running, if_neg (by rwa [List.isEmpty_iff])]
  have mat : (u.raiseBit Reg.matEvent 2).mat = { s.mat with cellDiff := [] } := State.raiseBit_mat u _ _
  have cfg : (u.raiseBit Reg.matEvent 2).live Reg.matCfg = s.live Reg.matCfg := State.raiseBit_sameRegs (s := u) wf Reg.matEvent 2 Reg.matCfg (by decide)
  refine completes_of answer (execTcamScrub_keeps (Within.refl _) _ (.refl s)) ⟨fun i => ⟨State.tcamCell_of_no_diff (by rw [mat]) i, ?_⟩, ?_, u.raiseBit_run _ _⟩
  · exact State.tcamCopy_congr cfg (by rw [mat]) (by rw [mat]) (by rw [mat]) i
  · exact State.bit_raiseBit_same (s := u) wf Reg.matEvent (by decide)

/-! ### Audit (R231) -/

theorem exec_automataAudit_none {s : State} (running : s.running = true) (repaired : Bool) : exec (.automataAudit [] repaired) s = .next s := by
  show execAutomataAudit [] repaired s = _
  rw [execAutomataAudit, if_neg (by simp [running]), List.foldl_nil]

theorem exec_automataAudit_repaired {s : State} (running : s.running = true) {k : Nat} {img : Image} (low : k < 64) (active : s.image k = some img) (idle : s.prog.current = [])
    (tile : Nat) : exec (.automataAudit [(k, tile)] true) s = .next (s.raiseBit Reg.matEvent 3) := by
  have version : s.auditVersion k = some (k, img.version) := by
    rw [State.auditVersion, if_pos low, Nat.mod_eq_of_lt low, active, Option.map_some]
  have none_runs (obj ver : Nat) : s.groupsNaming obj ver = [] := by rw [State.groupsNaming, idle, List.filter_nil, List.map_nil]
  show execAutomataAudit [(k, tile)] true s = _
  rw [execAutomataAudit, if_neg (by simp [running]), List.foldl_cons, List.foldl_nil, version]
  simp only [none_runs, List.foldl_nil, if_true]

/-! ### What a search may change (R226, R230) -/

/-- A search of the TCAM changes nothing, or rewrites one cell and records an event. -/
theorem State.tcamSearch_state (s : State) (entries : List Nat) (k event : Nat) :
    (s.tcamSearch entries k event).2 = s ∨ ∃ i, (s.tcamSearch entries k event).2 = (s.fixCell i).raiseBit Reg.matEvent event := by
  unfold State.tcamSearch
  split
  · exact .inl rfl
  · rename_i i _
    split
    · exact .inl rfl
    · dsimp only
      split
      · exact .inr ⟨i, rfl⟩
      · exact .inr ⟨i, rfl⟩

theorem State.imageSearch_state (s : State) (i : Image) (bytes : List Byte) :
    (s.imageSearch i bytes).2 = s ∨ ∃ j, (s.imageSearch i bytes).2 = (s.fixCell j).raiseBit Reg.matEvent 1 := by
  unfold State.imageSearch
  split
  · exact .inl rfl
  · dsimp only
    split
    · exact s.tcamSearch_state ..
    · exact s.tcamSearch_state ..

theorem State.imageSearch_prog (s : State) (i : Image) (bytes : List Byte) : (s.imageSearch i bytes).2.prog = s.prog :=
  (State.imageSearch_keeps (Within.refl _) i bytes (.refl s)).same .prog (by decide)

theorem State.matchSearch_held {s : State} {slot : Nat} {held : Image} (gone : s.imageVersion slot held.version = none) (bytes : List Byte) :
    s.matchSearch slot held bytes = (held.find bytes, s) := by
  rw [State.matchSearch, gone]

theorem State.matchSearch_engine {s : State} {slot : Nat} {held i : Image} (found : s.imageVersion slot held.version = some i) (bytes : List Byte) :
    s.matchSearch slot held bytes = s.imageSearch i bytes := by
  rw [State.matchSearch, found]

/-! ### The core that writes a record (R235) -/

theorem State.coreAt_of_prog {s t : State} (h : t.prog = s.prog) (core w : Nat) : t.coreAt core w = s.coreAt core w := by
  unfold State.coreAt State.core
  rw [h]

theorem State.core_of_prog {s t : State} (h : t.prog = s.prog) (core : Nat) : t.core core = s.core core := by rw [State.core, h, State.core]

theorem State.matchRecord_eq {s : State} {core w : Nat} {a : CoreAt} (h : s.coreAt core w = some a) (f : Found) :
    s.matchRecord core w f = s.putCore core (a.ctx.write (StepWord.dst w) f.record).next := by
  rw [State.matchRecord, State.stepCore, h]

/-! ### MATCH (R235, R237) -/

/-- The bytes that a MATCH step searches. -/
abbrev CoreAt.searched (a : CoreAt) (w : Nat) : List Byte := a.ctx.read (StepWord.srcA w) (StepWord.k w)

section
variable {s : State} {core w : Nat} {a : CoreAt} {img : Image} (h : s.coreAt core w = some a) (op : StepWord.op w = 0x0D)
  (whole : s.imagePoison a.run (bitsOf w 79 64) = none) (held : tabGet a.run.images (bitsOf w 79 64) = some img)
include h op whole held

theorem exec_matchStep_local (alone : img.casc = false) : exec (.matchStep core w) s =
    .next ((s.matchSearch (bitsOf w 79 64) img (a.searched w)).2.matchRecord core w (s.matchSearch (bitsOf w 79 64) img (a.searched w)).1) := by
  show execMatchStep core w s = _
  rw [execMatchStep, next_of_op op, h]
  simp only [whole, held, alone, Bool.not_false, if_true]

theorem exec_matchStep_cascaded (cascaded : img.casc = true) (free : s.mat.searches.any (fun x => x.2.2.1 == some core) = false) : exec (.matchStep core w) s =
    .next (s.cascadeStart img.type img.tag (((s.image (bitsOf w 79 64)).map (·.version)).getD img.version) (a.searched w) (some core)) := by
  show execMatchStep core w s = _
  rw [execMatchStep, next_of_op op, h]
  simp only [whole, held, cascaded, Bool.not_true, Bool.false_eq_true, if_false, free]

/-- A local image that the engine no longer holds: the run's own copy is searched. -/
theorem matchStep_held (alone : img.casc = false) (gone : s.imageVersion (bitsOf w 79 64) img.version = none) : Completes (.matchStep core w) s [.prog] (fun t =>
    t.core core = (a.ctx.write (StepWord.dst w) (img.find (a.searched w)).record).next ∧ ∀ c, c ≠ core → t.core c = s.core c) := by
  have answer := exec_matchStep_local h op whole held alone
  rw [State.matchSearch_held gone] at answer
  obtain ⟨t, he, parts, queue, ctx, _, _, others⟩ := writesDst_of_stepCore h (fun _ => (img.find (a.searched w)).record) answer
  exact ⟨t, he, parts, queue, ctx, others⟩

/-- A local image in the engine. -/
theorem matchStep_engine {i : Image} (alone : img.casc = false) (found : s.imageVersion (bitsOf w 79 64) img.version = some i) :
    Completes (.matchStep core w) s (partsOf (.matchStep core w)) (fun t =>
      t.core core = (a.ctx.write (StepWord.dst w) (s.imageSearch i (a.searched w)).1.record).next ∧ ∀ c, c ≠ core → t.core c = s.core c) := by
  have answer := exec_matchStep_local h op whole held alone
  have prog := s.imageSearch_prog i (a.searched w)
  rw [State.matchSearch_engine found, State.matchRecord_eq ((State.coreAt_of_prog prog core w).trans h)] at answer
  refine completes_of answer (execMatchStep_keeps (Within.refl _) core w (.refl s)) ⟨State.core_putCore_same .., fun c hc => ?_⟩
  rw [State.core_putCore_other _ _ hc, State.core_of_prog prog]

/-- A cascaded image at the head: one frame goes out, and the step waits for it. -/
theorem matchStep_cascaded (cascaded : img.casc = true) (head : s.isHead = true) (free : s.mat.searches.any (fun x => x.2.2.1 == some core) = false) :
    let active := ((s.image (bitsOf w 79 64)).map (·.version)).getD img.version
    let frame := cascadeFrameOf (cascadeBody img.type img.tag active s.mat.serial (a.searched w) Found.miss) true
    Completes (.matchStep core w) s [.mat, .outbox] (fun t =>
      Sends s t [.cascade frame] ∧ tabGet t.mat.searches s.mat.serial = some (frame, some core, s.now) ∧ t.mat.serial = (s.mat.serial + 1) % 65536) := by
  intro active frame
  set u : State := { s with mat := { s.mat with serial := (s.mat.serial + 1) % 65536, searches := tabPut s.mat.searches s.mat.serial (frame, some core, s.now) } } with hu
  have start : s.cascadeStart img.type img.tag active (a.searched w) (some core) = u.emit (.cascade frame) := if_pos (show u.isHead = true from head)
  have answer := exec_matchStep_cascaded h op whole held cascaded free
  have kept := State.cascadeStart_keeps (Within.refl [.mat, .outbox]) img.type img.tag active (a.searched w) (some core) (.refl s)
  exact completes_keeps answer kept (start ▸ ⟨rfl, tabGet_tabPut_same .., rfl⟩)

end

/-! ### A member of the ring (R238) -/

/-- What a member puts in place of a frame's result, and the state its search leaves. -/
def State.memberResult (s : State) (bytes : List Byte) : Found × State :=
  let run := foundOf (slice bytes (8 + byteAt bytes 3) 12)
  if byteAt bytes 1 = 0 then (run, s)
  else match (s.cascImage (byteAt bytes 2)).filter (fun i => i.type == byteAt bytes 1 && i.version % 65536 == field bytes 4 2) with
    | none => ({ run with fail := true }, s)
    | some i =>
      let r := s.imageSearch i (slice bytes 8 (byteAt bytes 3))
      (mergeFound (byteAt bytes 1 = 2) run r.1 (s.fld Reg.matCascCfg 3 1), r.2)

section
variable {s : State} {bytes : List Byte}

theorem State.memberResult_probe (probe : byteAt bytes 1 = 0) : (s.memberResult bytes).1 = foundOf (slice bytes (8 + byteAt bytes 3) 12) := by
  rw [State.memberResult, if_pos probe]

variable (search : byteAt bytes 1 ≠ 0)
include search

theorem State.memberResult_unknown (unknown : s.cascImage (byteAt bytes 2) = none) :
    (s.memberResult bytes).1 = { foundOf (slice bytes (8 + byteAt bytes 3) 12) with fail := true } := by
  rw [State.memberResult, if_neg search, unknown]
  rfl

theorem State.memberResult_known {i : Image} (known : s.cascImage (byteAt bytes 2) = some i) (type : i.type = byteAt bytes 1) (version : i.version % 65536 = field bytes 4 2) :
    (s.memberResult bytes).1 = mergeFound (byteAt bytes 1 = 2) (foundOf (slice bytes (8 + byteAt bytes 3) 12))
      (s.imageSearch i (slice bytes 8 (byteAt bytes 3))).1 (s.fld Reg.matCascCfg 3 1) := by
  have fits : (s.cascImage (byteAt bytes 2)).filter (fun i => i.type == byteAt bytes 1 && i.version % 65536 == field bytes 4 2) = some i := by
    rw [known, Option.filter_some, if_pos (by simp [type, version])]
  rw [State.memberResult, if_neg search, fits]

end

/-- A member sends the frame on with its result, good or bad as it came. -/
theorem cascadeFrame_forwards {s : State} {bytes : List Byte} {f : Found} (running : s.running = true) (ring : s.bit Reg.matCascCfg 0 = true) (member : s.fld Reg.matCascCfg 3 1 ≠ 0)
    (whole : bytes.length = 22 + byteAt bytes 3) (result : (s.memberResult bytes).1 = f) :
    Completes (.cascadeFrame bytes) s (partsOf (.cascadeFrame bytes)) (fun t =>
      .cascade (cascadeFrameOf (List.append (slice bytes 0 (8 + byteAt bytes 3)) f.frame) (cascadeCrcOk bytes)) ∈ t.outbox) := by
  have answer : exec (.cascadeFrame bytes) s =
      .next ((s.memberResult bytes).2.emit (.cascade (cascadeFrameOf (slice bytes 0 (8 + byteAt bytes 3) ++ f.frame) (cascadeCrcOk bytes)))) := by
    show execCascadeFrame bytes s = _
    rw [← result]
    exact if_neg (by simp [running, ring, member, whole])
  exact completes_of answer (execCascadeFrame_keeps (Within.refl _) bytes (.refl s)) (List.mem_append_right _ (List.mem_singleton_self _))

end Sys2Proof.Machine
end

section
/-!
The head of the cascade: a frame that comes back, and a search that fails (R238, R239).
-/

namespace Sys2Proof.Machine

open Sys2Proof

/-! ### Searches under way, and runs (R237, R239) -/

/-- The searches under way and the runs are the same, and a failure that was recorded stays recorded. -/
structure SameSearches (s t : State) : Prop where
  /-- Searches. -/
  searches : t.mat.searches = s.mat.searches
  /-- Runs. -/
  current : t.prog.current = s.prog.current
  /-- Registers stay canonical. -/
  wf : s.liveWf → t.liveWf
  /-- MAT_EVENT.cascade_fail. -/
  event : s.liveWf → s.bit Reg.matEvent 4 = true → t.bit Reg.matEvent 4 = true

theorem SameSearches.refl (s : State) : SameSearches s s := ⟨rfl, rfl, id, fun _ => id⟩

theorem SameSearches.trans {s t u : State} (h : SameSearches s t) (g : SameSearches t u) : SameSearches s u :=
  ⟨g.searches.trans h.searches, g.current.trans h.current, fun wf => g.wf (h.wf wf), fun wf e => g.event (h.wf wf) (h.event wf e)⟩

theorem SameSearches.of_prog {s t : State} (mat : t.mat = s.mat) (live : t.regs.live = s.regs.live) (current : t.prog.current = s.prog.current) : SameSearches s t :=
  ⟨congrArg MatSt.searches mat, current, fun wf => State.liveWf_of_live wf live, fun _ e => ((SameRegsBut.of_live (as := []) live).bit (by decide) 4).trans e⟩

theorem State.raiseBit_sameSearches (s : State) (i : Nat) (low : i < 24) : SameSearches s (s.raiseBit Reg.matEvent i) :=
  ⟨congrArg MatSt.searches (s.raiseBit_mat _ _), congrArg ProgSt.current (s.raiseBit_prog _ _), fun wf => State.raise_liveWf wf _ _,
    fun wf e => by rw [State.bit_raiseBit wf _ low (by decide), e, Bool.true_or]⟩

theorem State.imageSearch_sameSearches (s : State) (i : Image) (bytes : List Byte) : SameSearches s (s.imageSearch i bytes).2 := by
  obtain same | ⟨j, same⟩ := s.imageSearch_state i bytes
  · rw [same]
    exact .refl s
  · have fixed : SameSearches s (s.fixCell j) := ⟨rfl, rfl, id, fun _ => id⟩
    rw [same]
    exact fixed.trans (State.raiseBit_sameSearches _ 1 (by decide))

theorem State.matchSearch_sameSearches (s : State) (slot : Nat) (held : Image) (bytes : List Byte) : SameSearches s (s.matchSearch slot held bytes).2 := by
  unfold State.matchSearch
  split
  · exact s.imageSearch_sameSearches ..
  · exact .refl s

theorem State.matchRecord_sameSearches (s : State) (core w : Nat) (f : Found) : SameSearches s (s.matchRecord core w f) := by
  unfold State.matchRecord State.stepCore
  split
  · exact .refl s
  · exact .of_prog rfl rfl rfl

theorem State.deliver_sameSearches (s : State) (core : Nat) (frame : List Byte) (f : Found) : SameSearches s (s.deliver core frame f) := by
  unfold State.deliver
  split
  · exact (s.matchSearch_sameSearches ..).trans (State.matchRecord_sameSearches ..)
  · exact .refl s

/-! ### The step that waits (R208, R239) -/

theorem State.coreAt_eq_some {s : State} {core w : Nat} {a : CoreAt} : s.coreAt core w = some a ↔
    tabGet s.prog.current (core / 8) = some a.run ∧ a.run.prog.cores.findIdx? (· == core % 8) = some a.rank ∧
    (a.run.busy ∧ !(s.core core).ended ∧ (a.run.prog.streams.getD a.rank [])[(s.core core).pc]? = some w) ∧ core / 8 = a.group ∧ s.core core = a.ctx := by
  obtain ⟨group, run, rank, ctx⟩ := a
  unfold State.coreAt
  constructor
  · intro h
    split at h
    · cases h
    · rename_i p atRun
      split at h
      · cases h
      · rename_i r atRank
        dsimp only at h
        split at h
        · rename_i next
          cases h
          exact ⟨atRun, atRank, next, rfl, rfl⟩
        · cases h
  · rintro ⟨atRun, atRank, next, rfl, rfl⟩
    dsimp only at atRun atRank next ⊢
    rw [atRun]
    dsimp only
    rw [atRank]
    exact if_pos next

/-- A core is at its step still where its run's count of failures rises. -/
theorem State.coreAt_of_cascFails {s t : State} {core w : Nat} {a : CoreAt} (h : s.coreAt core w = some a) (n : Nat)
    (run : tabGet t.prog.current (core / 8) = some { a.run with cascFails := n }) (ctx : t.core core = s.core core) :
    t.coreAt core w = some { a with run := { a.run with cascFails := n } } := by
  obtain ⟨_, rank, next, group, here⟩ := State.coreAt_eq_some.mp h
  exact State.coreAt_eq_some.mpr ⟨run, rank, ctx ▸ next, group, ctx.trans here⟩

theorem State.coreWord_of_coreAt {s : State} {core w : Nat} {a : CoreAt} (h : s.coreAt core w = some a) : s.coreWord core = some w := by
  obtain ⟨run, rank, ⟨_, _, word⟩, _, _⟩ := State.coreAt_eq_some.mp h
  rw [State.coreWord, run]
  dsimp only
  rw [rank, Option.bind_some, word]

/-- The waiting step of an image that the engine no longer holds writes the merge with what the run's own copy gives. -/
theorem State.deliver_held {s : State} {core w : Nat} {a : CoreAt} {img : Image} (h : s.coreAt core w = some a) (held : tabGet a.run.images (bitsOf w 79 64) = some img)
    (gone : s.imageVersion (bitsOf w 79 64) img.version = none) (frame : List Byte) (f : Found) :
    s.deliver core frame f = s.putCore core (a.ctx.write (StepWord.dst w) (mergeFound (img.type = 2) f (img.find (slice frame 8 (byteAt frame 3))) 0).record).next := by
  have word := State.coreWord_of_coreAt h
  have image : s.frameImage core = some (bitsOf w 79 64, img) := by
    rw [State.frameImage, (State.coreAt_eq_some.mp h).1, word]
    dsimp only
    rw [held, Option.map_some]
  rw [State.deliver, image, word]
  dsimp only
  rw [State.matchSearch_held gone, State.matchRecord_eq h]

/-- What the engine holds follows the images. -/
theorem State.imageVersion_congr {s t : State} (images : t.mat.images = s.mat.images) (kept : t.mat.kept = s.mat.kept) (slot version : Nat) :
    t.imageVersion slot version = s.imageVersion slot version := by
  rw [State.imageVersion, State.image, images, kept, State.imageVersion, State.image]

/-! ### A segment halted (R217, R239) -/

/-- A core's context as its segment began. -/
def CoreCtx.rewound (x : CoreCtx) : CoreCtx := { x with ended := false, sram := x.start.1, pc := x.start.2.1, scales := x.start.2.2 }

theorem State.haltSegment_eq {s : State} {g : Nat} {p : ProgRun} (run : tabGet s.prog.current g = some p) (busy : p.busy = true) :
    s.haltSegment g = (s.putProg g { p with busy := false, waitOwned := true }).eachCore (p.coreNums g) CoreCtx.rewound := by
  rw [State.haltSegment, run]
  exact if_neg (by simp [busy])

theorem State.haltSegment_run {s : State} {g : Nat} {p : ProgRun} (run : tabGet s.prog.current g = some p) (busy : p.busy = true) :
    tabGet (s.haltSegment g).prog.current g = some { p with busy := false, waitOwned := true } := by
  rw [State.haltSegment_eq run busy, State.eachCore_prog]
  exact tabGet_tabPut_same ..

/-! ### A search that fails (R239) -/

/-- A search is over, counted and recorded as failed. -/
def State.searchFailed (s : State) (n : Nat) : State := ((s.dropSearch n).bump (Reg.matStat + 4)).raiseBit Reg.matEvent 4

theorem State.searchFailed_mat (s : State) (n : Nat) : (s.searchFailed n).mat = (s.dropSearch n).mat := State.raiseBit_mat ..
theorem State.searchFailed_prog (s : State) (n : Nat) : (s.searchFailed n).prog = s.prog := State.raiseBit_prog ..
theorem State.searchFailed_run (s : State) (n : Nat) : (s.searchFailed n).regs.run = (s.bump (Reg.matStat + 4)).regs.run := State.raiseBit_run ..

theorem State.dropSearch_gone (s : State) (n : Nat) : tabGet (s.dropSearch n).mat.searches n = none := (tabGet_tabDel ..).trans (if_pos rfl)

/-- Search n is over and a failure recorded. -/
def FailShown (n : Nat) (t : State) : Prop := tabGet t.mat.searches n = none ∧ t.bit Reg.matEvent 4 = true

theorem State.searchFailed_shown {s : State} (wf : s.liveWf) (n : Nat) : FailShown n (s.searchFailed n) :=
  ⟨(congrArg (fun m : MatSt => tabGet m.searches n) (s.searchFailed_mat n)).trans (s.dropSearch_gone n),
    State.bit_raiseBit_same (s := (s.dropSearch n).bump (Reg.matStat + 4)) wf Reg.matEvent (by decide)⟩

theorem State.searchFailed_liveWf {s : State} (wf : s.liveWf) (n : Nat) : (s.searchFailed n).liveWf :=
  State.raise_liveWf (s := (s.dropSearch n).bump (Reg.matStat + 4)) wf _ _

theorem FailShown.of_same {n : Nat} {s t : State} (h : FailShown n s) (searches : t.mat.searches = s.mat.searches) (event : t.bit Reg.matEvent 4 = s.bit Reg.matEvent 4) :
    FailShown n t := ⟨searches ▸ h.1, event.trans h.2⟩

theorem State.bit_eq_false_of_fld {s : State} {a i : Nat} (h : s.fld a i i = 0) : s.bit a i = false := by
  rw [State.fld, bitsOf_eq_div_mod, Nat.add_sub_cancel_left] at h
  rw [State.bit, bitOf, Nat.testBit_eq_decide_div_mod_eq, decide_eq_false_iff_not]
  omega

/-- A failed probe takes ring_ok. -/
def ProbeFailed (s : State) (n : Nat) (t : State) : Prop :=
  tabGet t.mat.searches n = none ∧ t.bit Reg.matEvent 4 = true ∧ t.bit Reg.matStatus 1 = false ∧ t.regs.run = (s.bump (Reg.matStat + 4)).regs.run

/-- A failed search of a step halts its segment twice, and the third time writes a record with FAIL. -/
def StepFailed (s : State) (n : Nat) (frame : List Byte) (c : Nat) (p : ProgRun) (t : State) : Prop :=
  tabGet t.mat.searches n = none ∧ t.bit Reg.matEvent 4 = true ∧
    (p.cascFails < 2 → p.busy = true → tabGet t.prog.current (c / 8) = some { p with cascFails := p.cascFails + 1, busy := false, waitOwned := true }) ∧
    (2 ≤ p.cascFails → tabGet t.prog.current (c / 8) = some { p with cascFails := p.cascFails + 1 } ∧
      ∀ w a img, s.coreAt c w = some a → tabGet p.images (bitsOf w 79 64) = some img → s.imageVersion (bitsOf w 79 64) img.version = none →
        t.core c = (a.ctx.write (StepWord.dst w) (mergeFound (img.type = 2) { Found.miss with fail := true } (img.find (slice frame 8 (byteAt frame 3))) 0).record).next)

section
variable {s : State} (wf : s.liveWf) {n : Nat} {frame : List Byte} {sent : Nat}

include wf in
theorem State.cascadeFail_probe (h : tabGet s.mat.searches n = some (frame, none, sent)) : ProbeFailed s n (s.cascadeFail n) := by
  have failed := State.searchFailed_liveWf wf n
  have fail : s.cascadeFail n = (s.searchFailed n).ringOk2 false := by
    rw [State.cascadeFail, h]
    rfl
  have status := State.setStatus_sameRegs failed Reg.matStatus 1 1 0
  have shown := (State.searchFailed_shown wf n).of_same (congrArg MatSt.searches ((s.searchFailed n).setStatus_mat Reg.matStatus 1 1 0)) (status.bit (by decide) 4)
  have kept : ((s.searchFailed n).ringOk2 false).regs.run = (s.searchFailed n).regs.run :=
    (State.ringOk2_keeps (Within.refl _) false (.refl _)).same .run (by decide)
  rw [fail]
  exact ⟨shown.1, shown.2, State.bit_eq_false_of_fld (State.fld_setStatus failed (by decide) (by decide)), kept.trans (s.searchFailed_run n)⟩

variable {c : Nat} {p : ProgRun} (h : tabGet s.mat.searches n = some (frame, some c, sent)) (run : tabGet s.prog.current (c / 8) = some p)

/-- The failure counted in the step's run. -/
def State.failCounted (s : State) (n c : Nat) (p : ProgRun) : State := (s.searchFailed n).putProg (c / 8) { p with cascFails := p.cascFails + 1 }

include h run in
theorem State.cascadeFail_step : s.cascadeFail n =
    if p.cascFails + 1 < 3 then (s.failCounted n c p).haltSegment (c / 8) else (s.failCounted n c p).deliver c frame { Found.miss with fail := true } := by
  have runs : tabGet (s.searchFailed n).prog.current (c / 8) = some p := s.searchFailed_prog n ▸ run
  rw [State.cascadeFail, h]
  dsimp only
  rw [← State.searchFailed, runs]
  rfl

theorem State.failCounted_run (s : State) (n c : Nat) (p : ProgRun) :
    tabGet (s.failCounted n c p).prog.current (c / 8) = some { p with cascFails := p.cascFails + 1 } := tabGet_tabPut_same ..

include wf in
theorem State.failCounted_shown (n c : Nat) (p : ProgRun) : FailShown n (s.failCounted n c p) := State.searchFailed_shown wf n

include wf h run in
theorem State.cascadeFail_stepFailed : StepFailed s n frame c p (s.cascadeFail n) := by
  have fail := State.cascadeFail_step h run
  have counted := s.failCounted_run n c p
  have shown := State.failCounted_shown wf n c p
  have runWf : (s.failCounted n c p).liveWf := State.searchFailed_liveWf wf n
  by_cases few : p.cascFails + 1 < 3
  · rw [if_pos few] at fail
    have kept := State.haltSegment_keeps (Within.refl _) (c / 8) (.refl (s.failCounted n c p))
    have live : (s.failCounted n c p).regs.live = _ := (kept.same .live (by decide)).symm
    have shown := shown.of_same (congrArg MatSt.searches (kept.same .mat (by decide))) ((SameRegsBut.of_live (as := []) live.symm).bit (by decide) 4)
    rw [fail]
    exact ⟨shown.1, shown.2, fun _ busy => State.haltSegment_run counted busy, fun many => by omega⟩
  · rw [if_neg few] at fail
    have same := (s.failCounted n c p).deliver_sameSearches c frame { Found.miss with fail := true }
    rw [fail]
    refine ⟨same.searches ▸ shown.1, same.event runWf shown.2, fun few => by omega, fun _ => ⟨same.current ▸ counted, fun w a img here held gone => ?_⟩⟩
    obtain rfl : p = a.run := Option.some.inj (run.symm.trans (State.coreAt_eq_some.mp here).1)
    have ctx : (s.failCounted n c a.run).core c = s.core c := State.core_of_prog (t := s.searchFailed n) (s.searchFailed_prog n) c
    have mat : (s.failCounted n c a.run).mat = (s.dropSearch n).mat := s.searchFailed_mat n
    have gone : (s.failCounted n c a.run).imageVersion (bitsOf w 79 64) img.version = none :=
      (State.imageVersion_congr (congrArg MatSt.images mat) (congrArg MatSt.kept mat) ..).trans gone
    rw [State.deliver_held (State.coreAt_of_cascFails here _ counted ctx) held gone, State.core_putCore_same]

end

/-! ### CASCADE_TIMEOUT and CASCADE_RETURN (R239) -/

/-- A command by which search n fails. -/
theorem searchFails {i : Instr} {s z : State} {n : Nat} {frame : List Byte} {core : Option Nat} {sent : Nat} (wf : z.liveWf) (kept : KeepsN (partsOf i) s (exec i s))
    (answer : exec i s = .next (z.cascadeFail n)) (h : tabGet z.mat.searches n = some (frame, core, sent)) :
    (core = none → Completes i s (partsOf i) (ProbeFailed z n)) ∧
    (∀ c p, core = some c → tabGet z.prog.current (c / 8) = some p → Completes i s (partsOf i) (StepFailed z n frame c p)) := by
  refine ⟨?_, ?_⟩
  · rintro rfl
    exact completes_of answer kept (State.cascadeFail_probe wf h)
  · rintro c p rfl run
    exact completes_of answer kept (State.cascadeFail_stepFailed wf h run)

/-- A frame that comes back good: its CRC right, its head as sent, no FAIL, in time. -/
def GoodReturn (s : State) (frame : List Byte) (sent : Nat) (bytes : List Byte) : Prop :=
  cascadeCrcOk bytes = true ∧ slice bytes 0 8 = slice frame 0 8 ∧ (foundOf (slice bytes (8 + byteAt bytes 3) 12)).fail = false ∧ s.now ≤ sent + 4 * frame.length + 192

/-- What a good return leaves of a probe, and of a core's search. -/
def State.returned (s : State) (frame : List Byte) (core : Option Nat) (f : Found) : State :=
  match core with
  | none => s.ringOk2 true
  | some c => s.deliver c frame f

section
variable {s : State} {n : Nat} {frame : List Byte} {core : Option Nat} {sent : Nat} (h : tabGet s.mat.searches n = some (frame, core, sent))
include h

theorem exec_cascadeTimeout : exec (.cascadeTimeout n) s = .next ((s.advanceTo (sent + 4 * frame.length + 192)).cascadeFail n) := by
  show execCascadeTimeout n s = _
  rw [execCascadeTimeout, h]

variable {bytes : List Byte} (serial : field bytes 6 2 = n)
include serial

theorem exec_cascadeReturn_bad (bad : ¬GoodReturn s frame sent bytes) : exec (.cascadeReturn bytes) s = .next (s.cascadeFail n) := by
  show execCascadeReturn bytes s = _
  rw [execCascadeReturn, serial, h]
  refine if_neg fun good => bad ?_
  obtain ⟨_, crc, head, ok, now⟩ := good
  exact ⟨crc, head, by simpa using ok, now⟩

variable (running : s.running = true) (good : GoodReturn s frame sent bytes)
include running good

theorem exec_cascadeReturn_good :
    exec (.cascadeReturn bytes) s = .next ((s.dropSearch n).returned frame core (foundOf (slice bytes (8 + byteAt bytes 3) 12))) := by
  obtain ⟨crc, head, ok, now⟩ := good
  show execCascadeReturn bytes s = _
  rw [execCascadeReturn, serial, h]
  refine (if_pos ⟨running, crc, head, by simp [ok], now⟩).trans ?_
  cases core <;> rfl

end

theorem cascadeReturn_probe {s : State} {n : Nat} {frame bytes : List Byte} {sent : Nat} (h : tabGet s.mat.searches n = some (frame, none, sent)) (serial : field bytes 6 2 = n)
    (running : s.running = true) (wf : s.liveWf) (good : GoodReturn s frame sent bytes) :
    Completes (.cascadeReturn bytes) s [.live, .mat] (fun t => t.bit Reg.matStatus 1 = true ∧ tabGet t.mat.searches n = none) := by
  have hm := Within.refl [Blk.live, .mat]
  refine completes_keeps (exec_cascadeReturn_good h serial running good)
    (State.ringOk2_keeps (hm.sub rfl) _ (State.dropSearch_keeps (hm.sub rfl) n (.refl s))) ⟨?_, ?_⟩
  · exact State.bit_of_fld (State.fld_setStatus (s := s.dropSearch n) wf (by decide) (by decide))
  · show tabGet ((s.dropSearch n).setStatus Reg.matStatus 1 1 1).mat.searches n = none
    rw [State.setStatus_mat, State.dropSearch_gone]

theorem cascadeReturn_step {s : State} {n : Nat} {frame bytes : List Byte} {sent c w : Nat} {a : CoreAt} {img : Image}
    (h : tabGet s.mat.searches n = some (frame, some c, sent)) (serial : field bytes 6 2 = n)
    (running : s.running = true) (good : GoodReturn s frame sent bytes) (here : s.coreAt c w = some a) (held : tabGet a.run.images (bitsOf w 79 64) = some img)
    (gone : s.imageVersion (bitsOf w 79 64) img.version = none) :
    Completes (.cascadeReturn bytes) s [.prog, .mat] (fun t => tabGet t.mat.searches n = none ∧
      t.core c = (a.ctx.write (StepWord.dst w) (mergeFound (img.type = 2) (foundOf (slice bytes (8 + byteAt bytes 3) 12)) (img.find (slice frame 8 (byteAt frame 3))) 0).record).next) := by
  have hm := Within.refl [Blk.prog, .mat]
  have answer := exec_cascadeReturn_good h serial running good
  rw [State.returned, State.deliver_held (s := s.dropSearch n) here held gone] at answer
  exact completes_keeps answer (State.putCore_keeps (hm.sub rfl) _ _ (State.dropSearch_keeps (hm.sub rfl) n (.refl s)))
    ⟨s.dropSearch_gone n, State.core_putCore_same ..⟩

/-! ### The obligation -/

/-- Settles O56: each clause by its lemma above; a time-out and a bad return fail their search alike, the count moved forward or not. -/
theorem theEngineScrubsAuditsAndCascades : Obligations.TheEngineScrubsAuditsAndCascades := by
  unfold Obligations.TheEngineScrubsAuditsAndCascades
  intro s inv running
  have wf := inv.liveWf
  refine ⟨⟨tcamScrub_clean running, tcamScrub_repairs running wf⟩, exec_automataAudit_none running, ?_, ?_, ?_, ?_⟩
  · intro k tile img low active idle
    exact completes_keeps (exec_automataAudit_repaired running low active idle tile) (State.raiseBit_keeps (Within.refl _) _ _ (.refl s))
      (State.bit_raiseBit_same wf _ (by decide))
  · intro core w a img h op whole held
    exact ⟨matchStep_held h op whole held, fun i => matchStep_engine h op whole held, matchStep_cascaded h op whole held⟩
  · intro bytes ring member whole
    exact ⟨fun probe => cascadeFrame_forwards running ring member whole (State.memberResult_probe probe),
      fun search unknown => cascadeFrame_forwards running ring member whole (State.memberResult_unknown search unknown),
      fun i search known type version => cascadeFrame_forwards running ring member whole (State.memberResult_known search known type version)⟩
  · intro n frame core sent h
    refine ⟨searchFails (z := s.advanceTo (sent + 4 * frame.length + 192)) wf (execCascadeTimeout_keeps (Within.refl _) n (.refl s)) (exec_cascadeTimeout h) h,
      fun bytes serial => ⟨fun bad => ?_, fun good => ?_, fun c w a img good => ?_⟩⟩
    · exact searchFails wf (execCascadeReturn_keeps (Within.refl _) bytes (.refl s)) (exec_cascadeReturn_bad h serial bad) h
    · rintro rfl
      exact cascadeReturn_probe h serial running wf good
    · rintro rfl
      exact cascadeReturn_step h serial running good

end Sys2Proof.Machine
end

section
/-!
A fabric link after a change: what its state, its traffic and its keys become, and that no other link changes (R245, R250, R260, R268).
-/

namespace Sys2Proof.Machine

open Sys2Proof

/-! ### Commands, and one link -/

/-- What follows from what a command does, the command does. -/
theorem Completes.imp {i : Instr} {s : State} {m : List Blk} {p q : State → Prop} (h : Completes i s m p) (f : ∀ t, p t → q t) : Completes i s m q := by
  obtain ⟨t, answer, only, queue, holds⟩ := h
  exact ⟨t, answer, only, queue, f t holds⟩

theorem Completes.mono {i : Instr} {s : State} {l m : List Blk} {p : State → Prop} (h : Completes i s l p) (hm : Within l m) : Completes i s m p := by
  obtain ⟨t, answer, only, queue, holds⟩ := h
  exact ⟨t, answer, fun k hk => only k (fun mem => hk (within_mem (decide_eq_true mem) hm)), queue, holds⟩

/-- From s to t link n has become x, and no other link has changed. -/
def LinkIs (s t : State) (n : Nat) (x : Link) : Prop := t.link n = x ∧ ∀ k, k ≠ n → t.link k = s.link k

/-- From s to t link n has become x, and of no other link more has changed than what waits for it. -/
def LinkMoved (s t : State) (n : Nat) (x : Link) : Prop := t.link n = x ∧ ∀ k, k ≠ n → t.link k = { s.link k with txq := (t.link k).txq }

section
variable {s t u : State} {n : Nat} {x y : Link}

theorem State.link_notDown_of_up (up : (s.link n).state = LState.up) : (s.link n).state ≠ LState.down := by
  rw [up]
  decide

theorem LinkIs.refl (s : State) (n : Nat) : LinkIs s s n (s.link n) := ⟨rfl, fun _ _ => rfl⟩

theorem LinkIs.trans (h : LinkIs s t n x) (g : LinkIs t u n y) : LinkIs s u n y := ⟨g.1, fun k hk => (g.2 k hk).trans (h.2 k hk)⟩

theorem LinkIs.of_lnk (h : LinkIs s t n x) (e : u.lnk = t.lnk) : LinkIs s u n x :=
  ⟨(State.link_of_lnk e n).trans h.1, fun k hk => (State.link_of_lnk e k).trans (h.2 k hk)⟩

theorem LinkIs.setLink (h : LinkIs s t n x) (hy : y.state ≠ LState.down) : LinkIs s (t.setLink n y) n y :=
  ⟨t.link_setLink_same n hy, fun k hk => (t.link_setLink_other hy hk).trans (h.2 k hk)⟩

theorem State.setLink_is (s : State) (n : Nat) (hy : y.state ≠ LState.down) : LinkIs s (s.setLink n y) n y := (LinkIs.refl s n).setLink hy

theorem LinkIs.trans_moved (h : LinkIs s t n x) (g : LinkMoved t u n y) : LinkMoved s u n y :=
  ⟨g.1, fun k hk => (g.2 k hk).trans (by rw [h.2 k hk])⟩

theorem LinkMoved.trans_is (h : LinkMoved s t n x) (g : LinkIs t u n y) : LinkMoved s u n y :=
  ⟨g.1, fun k hk => by rw [g.2 k hk]; exact h.2 k hk⟩

theorem LinkMoved.of_lnk (h : LinkMoved s t n x) (e : u.lnk = t.lnk) : LinkMoved s u n x :=
  ⟨(State.link_of_lnk e n).trans h.1, fun k hk => by rw [State.link_of_lnk e k]; exact h.2 k hk⟩

end

/-! ### Traffic taken off a link (R260, R261) -/

/-- A link whose traffic is taken off it as it enters a state. -/
def Link.emptied (l : Link) (st : Nat) : Link :=
  { l with txq := [], sending := if decide (st = LState.retrain) then l.sending else [], later := if decide (st = LState.retrain) then l.later else [] }

/-- The link's queue is empty; at most one link that is UP, another one, takes its packets over. -/
theorem State.moveTraffic_moved {s : State} {n : Nat} (st : Nat) (hd : (s.link n).state ≠ LState.down) (hu : (s.link n).state ≠ LState.up) :
    LinkMoved s (s.moveTraffic n st) n ((s.link n).emptied st) := by
  unfold State.moveTraffic
  extract_lets l peers i back u
  have emptied : LinkIs s u n (l.emptied st) := s.setLink_is n (y := l.emptied st) hd
  split
  · rename_i k hk
    have up : (u.link k).state = LState.up := by
      have found := List.find?_some hk
      rw [State.linkUp, Bool.and_eq_true, beq_iff_eq] at found
      exact found.1
    have other : n ≠ k := by
      rintro rfl
      exact hu ((congrArg Link.state emptied.1).symm.trans up)
    have put (j : Nat) : (u.requeue k l.packets).link j = if j = k then { u.link k with txq := l.packets ++ (u.link k).txq } else u.link j :=
      u.link_setLink k j (fun e => nomatch up.symm.trans e)
    refine emptied.trans_moved ⟨(put n).trans ((if_neg other).trans emptied.1), fun j _ => ?_⟩
    rw [put j]
    split
    · rename_i hj
      rw [hj]
    · rfl
  · exact emptied.trans_moved ⟨emptied.1, fun _ _ => rfl⟩

/-! ### States of a link (R245, R268) -/

/-- The node with a link's state written, before anything follows from it. -/
abbrev State.withState (s : State) (n st : Nat) : State := s.setLink n { s.link n with state := st }

theorem State.withState_is (s : State) (n : Nat) {st : Nat} (hd : st ≠ LState.down) : LinkIs s (s.withState n st) n { s.link n with state := st } := s.setLink_is n hd

/-- A link that neither leaves UP nor returns to DETECT or DOWN: its state alone is written, and shown. -/
theorem State.setLinkState_onward {s : State} {n st : Nat} (hu : (s.link n).state ≠ LState.up ∨ st = LState.up) (hd : st ≠ LState.down) (hd' : st ≠ LState.detect) :
    s.setLinkState n st = (s.withState n st).refreshLnkStatus := by
  unfold State.setLinkState
  extract_lets was l u v w st' y x
  have hv : v = u := (if_neg (fun h => hu.elim (fun e => e h.1) h.2)).trans (if_neg (fun h => h.2.elim hd hd'))
  have hw : w = v := if_neg hd'
  have hst : st' = st := if_neg (fun h => hd' h.1)
  have hx : x = w := if_neg (by rw [hst]; exact fun h => h.elim hd hd')
  rw [hx, hw, hv]

theorem State.setLinkState_is {s : State} {n st : Nat} (hu : (s.link n).state ≠ LState.up ∨ st = LState.up) (hd : st ≠ LState.down) (hd' : st ≠ LState.detect) :
    LinkIs s (s.setLinkState n st) n { s.link n with state := st } := by
  rw [State.setLinkState_onward hu hd hd']
  exact (s.withState_is n hd).of_lnk (State.refreshLnkStatus_lnk _)

theorem State.setLinkState_keeps_onward {m : List Blk} {z s : State} {n st : Nat} (hm : Within [.live, .lnk] m)
    (hu : (s.link n).state ≠ LState.up ∨ st = LState.up) (hd : st ≠ LState.down) (hd' : st ≠ LState.detect) (h : Keeps m z s) : Keeps m z (s.setLinkState n st) := by
  rw [State.setLinkState_onward hu hd hd']
  exact State.refreshLnkStatus_keeps (hm.sub rfl) (State.setLink_keeps (hm.sub rfl) _ _ h)

theorem State.setLinkState_held {s : State} {n st : Nat} (hu : (s.link n).state ≠ LState.up ∨ st = LState.up) (hd : st ≠ LState.down) (hd' : st ≠ LState.detect) :
    (s.setLinkState n st).lnk.held = s.lnk.held := by
  rw [State.setLinkState_onward hu hd hd', State.refreshLnkStatus_lnk]
  rfl

theorem State.applyPending_of_nil {s : State} (h : s.regs.pend = []) (due : PendVal → Bool) : s.applyPending due = s := by
  unfold State.applyPending
  extract_lets now bad r t
  have none : now = [] := by rw [show now = s.regs.pend.filter due from rfl, h]; rfl
  have same : bad = s.regs.badParity := by
    have each (b : Nat × Nat) : (if b.2 == 1 && now.any (fun p => p.addr == b.1) then (b.1, 2) else b) = b := by
      rw [none, List.any_nil, Bool.and_false]
      rfl
    exact (List.map_congr_left fun b _ => each b).trans (List.map_id' _)
  have unchanged : t = s := by
    rw [show t = { s with regs := { s.regs with pend := s.regs.pend.filter (fun p => !due p), badParity := bad } } from rfl, same, h, List.filter_nil, ← h]
  rw [none, List.foldl_nil, unchanged]

/-- A link without keys, partner or traffic, that looks for signal. -/
def Link.afresh (l : Link) : Link := { l.unkey with state := LState.detect, txq := [], sending := [] }

/-- A node that lets link n return to DETECT: its port is enabled and has not acted, and no value waits for that moment. -/
structure LinkEnabled (s : State) (n : Nat) : Prop where
  pend : s.regs.pend = []
  port : s.bit (Reg.lnkPortCfg + 4 * n) 0 = true
  score : s.partActed (Part.link n) = false

/-- The node as a link has returned to DETECT, its traffic gone and then its keys, before it is shown. -/
def State.backToDetect (s : State) (n : Nat) : State :=
  let u := (s.withState n LState.detect).moveTraffic n LState.detect
  u.setLink n { (u.link n).unkey with state := LState.detect }

theorem State.backToDetect_keeps {m : List Blk} {z s : State} (hm : Within [.lnk] m) (n : Nat) (h : Keeps m z s) : Keeps m z (s.backToDetect n) :=
  State.setLink_keeps hm _ _ (State.moveTraffic_keeps hm _ _ (State.setLink_keeps hm _ _ h))

theorem State.backToDetect_moved (s : State) (n : Nat) : LinkMoved s (s.backToDetect n) n (s.link n).afresh := by
  have set := s.withState_is n (st := LState.detect) (by decide)
  unfold State.backToDetect
  extract_lets u
  have moved : LinkMoved s u n (({ s.link n with state := LState.detect } : Link).emptied LState.detect) := by
    have go := State.moveTraffic_moved (s := s.withState n LState.detect) (n := n) LState.detect
      (by rw [set.1]; exact (by decide : LState.detect ≠ LState.down)) (by rw [set.1]; exact (by decide : LState.detect ≠ LState.up))
    rw [set.1] at go
    exact set.trans_moved go
  have unkeyed := moved.trans_is (u.setLink_is n (y := { (u.link n).unkey with state := LState.detect }) (show LState.detect ≠ LState.down by decide))
  exact ⟨unkeyed.1.trans (by rw [moved.1]; rfl), unkeyed.2⟩

section
variable {s : State} {n : Nat} (ok : LinkEnabled s n) (hu : (s.link n).state ≠ LState.up)
include ok hu

/-- A link that is not UP returns to DETECT. -/
theorem State.setLinkState_detect : s.setLinkState n LState.detect = (s.backToDetect n).refreshLnkStatus := by
  have kept : Keeps [.lnk] s ((s.withState n LState.detect).moveTraffic n LState.detect) :=
    State.moveTraffic_keeps (Within.refl _) _ _ (State.setLink_keeps (Within.refl _) _ _ (.refl s))
  unfold State.setLinkState
  extract_lets was l u v w st' y x
  have hv : v = (s.withState n LState.detect).moveTraffic n LState.detect := (if_neg (fun h => hu h.1)).trans (if_pos ⟨hu, .inr rfl⟩)
  rw [← hv] at kept
  have hw : w = v := (if_pos rfl).trans (State.applyPending_of_nil (Eq.trans (kept.same .pend (by decide)) ok.pend) _)
  have port : w.bit (Reg.lnkPortCfg + 4 * n) 0 = true := by
    rw [hw]
    exact (congrArg (fun l => bitOf (regGet l (Reg.lnkPortCfg + 4 * n)) 0) (kept.same .live (by decide) : v.regs.live = s.regs.live)).trans ok.port
  have score : w.partActed (Part.link n) = false := by
    rw [hw]
    exact (congrArg Score.acted (State.score_of_hlt (kept.same .hlt (by decide)) _)).trans ok.score
  have hst : st' = LState.detect := if_neg (by rw [port, score]; rintro ⟨_, h⟩; exact h.elim Bool.noConfusion Bool.noConfusion)
  have hx : x = w.setLink n { (w.link n).unkey with state := st' } := if_pos (.inr hst)
  rw [hx, hst, hw, hv]
  rfl

theorem State.setLinkState_detect_moved : LinkMoved s (s.setLinkState n LState.detect) n (s.link n).afresh := by
  rw [State.setLinkState_detect ok hu]
  exact (s.backToDetect_moved n).of_lnk (State.refreshLnkStatus_lnk _)

theorem State.setLinkState_keeps_detect {m : List Blk} {z : State} (hm : Within [.live, .lnk] m) (h : Keeps m z s) : Keeps m z (s.setLinkState n LState.detect) := by
  rw [State.setLinkState_detect ok hu]
  exact State.refreshLnkStatus_keeps (hm.sub rfl) (State.backToDetect_keeps (hm.sub rfl) n h)

theorem State.setLinkState_detect_regs (wf : s.liveWf) : SameRegsBut [Reg.lnkStatus] s (s.setLinkState n LState.detect) := by
  have live : (s.backToDetect n).regs.live = s.regs.live := (State.backToDetect_keeps (Within.refl [.lnk]) n (.refl s)).same .live (by decide)
  intro a ha
  rw [State.setLinkState_detect ok hu]
  exact (State.live_putStatus ((congrArg regsCanonical live).trans wf) _ _ a (fun e => ha (List.mem_singleton.mpr e))).trans (congrArg (regGet · a) live)

end

/-! ### A handshake that fails (R358) -/

/-- The failure is recorded, and the link starts afresh. -/
theorem State.linkAuthFail_spec {s : State} {n : Nat} (inv : s.Inv) (hn : n < 64) (ok : LinkEnabled s n) (hu : (s.link n).state ≠ LState.up) :
    Keeps [.live, .lnk, .hst, .sum, .outbox] s (s.linkAuthFail n) ∧ LinkMoved s (s.linkAuthFail n) n (s.link n).afresh ∧ (s.linkAuthFail n).bit Reg.secEvent 3 = true := by
  have within := Within.refl [Blk.live, .lnk, .hst, .sum, .outbox]
  let u := s.raiseBit Reg.secEvent 3
  have raised : Keeps [.live, .lnk, .hst, .sum, .outbox] s u := State.raiseBit_keeps (within.sub rfl) _ _ (.refl s)
  have is : LinkIs s u n (s.link n) := (LinkIs.refl s n).of_lnk (State.raiseBit_lnk ..)
  have port : u.bit (Reg.lnkPortCfg + 4 * n) 0 = s.bit (Reg.lnkPortCfg + 4 * n) 0 :=
    (State.raiseBit_sameRegs inv.liveWf Reg.secEvent 3).bit (fun e => absurd (List.mem_singleton.mp e) (show 0x900100 + 4 * n ≠ 0xD00024 by omega)) 0
  have ok' : LinkEnabled u n := ⟨Eq.trans (raised.same .pend (by decide)) ok.pend, port.trans ok.port,
    (congrArg Score.acted (State.score_of_hlt (State.raiseBit_hlt ..) _)).trans ok.score⟩
  have hu' : (u.link n).state ≠ LState.up := by rwa [is.1]
  have wf : u.liveWf := (raised.inv inv).liveWf
  have moved := State.setLinkState_detect_moved ok' hu'
  rw [is.1] at moved
  exact ⟨State.setLinkState_keeps_detect ok' hu' (within.sub rfl) raised, is.trans_moved moved,
    ((State.setLinkState_detect_regs ok' hu' wf).bit (by decide) 3).trans (State.bit_raiseBit_same inv.liveWf _ (by decide))⟩

/-! ### UP, and out of it (R245, R250, R260) -/

/-- What leaving UP for RETRAIN does: it is recorded, and what waits for the link is taken off it. -/
theorem State.leaveUp_retrain {s : State} {n : Nat} (inv : s.Inv) (hr : (s.link n).state = LState.retrain) :
    LinkMoved s (s.leaveUp n LState.retrain) n ((s.link n).emptied LState.retrain) ∧ (s.leaveUp n LState.retrain).bit Reg.lnkEvent 1 = true := by
  have within := Within.refl [Blk.live, .run, .lnk, .hlt, .hst, .sum, .outbox]
  let v := ((s.raiseBit Reg.lnkEvent 1).bump (Reg.lnkPortStat + 32 * n + 0x1C)).addPoints (Part.link n) 32
  have eq : s.leaveUp n LState.retrain =
      (if ((v.moveTraffic n LState.retrain).peersOf n).any (fun k => (v.moveTraffic n LState.retrain).linkUp k) then v.moveTraffic n LState.retrain
        else (v.moveTraffic n LState.retrain).raiseBit Reg.lnkEvent 3) := rfl
  have raised : v.bit Reg.lnkEvent 1 = true := (congrArg (bitOf · 1) (State.addPoints_live _ _ _ (by decide))).trans (State.bit_raiseBit_same inv.liveWf _ (by decide))
  have is : LinkIs s v n (s.link n) := (LinkIs.refl s n).of_lnk ((State.addPoints_lnk ..).trans (State.raiseBit_lnk ..))
  have vInv : v.Inv := (State.addPoints_keeps (within.sub rfl) _ _ (State.bump_keeps (within.sub rfl) _ _ (State.raiseBit_keeps (within.sub rfl) _ _ (Keeps.refl s)))).inv inv
  have kept : Keeps [.lnk] v (v.moveTraffic n LState.retrain) := State.moveTraffic_keeps (Within.refl _) _ _ (.refl v)
  have moved : LinkMoved s (v.moveTraffic n LState.retrain) n ((s.link n).emptied LState.retrain) := by
    have go := State.moveTraffic_moved (s := v) (n := n) LState.retrain (by rw [is.1, hr]; decide) (by rw [is.1, hr]; decide)
    rw [is.1] at go
    exact is.trans_moved go
  have event : (v.moveTraffic n LState.retrain).bit Reg.lnkEvent 1 = true :=
    (congrArg (fun l => bitOf (regGet l Reg.lnkEvent) 1) (kept.same .live (by decide) : (v.moveTraffic n LState.retrain).regs.live = v.regs.live)).trans raised
  rw [eq]
  split
  · exact ⟨moved, event⟩
  · exact ⟨moved.of_lnk (State.raiseBit_lnk ..), by rw [State.bit_raiseBit (kept.inv vInv).liveWf _ (by decide) (by decide), event]; rfl⟩

/-- A link that leaves UP for RETRAIN keeps its replay buffer, its keys and what is half sent. -/
theorem State.setLinkState_retrain_moved {s : State} {n : Nat} (inv : s.Inv) (hu : (s.link n).state = LState.up) :
    LinkMoved s (s.setLinkState n LState.retrain) n { s.link n with state := LState.retrain, txq := [] } ∧ (s.setLinkState n LState.retrain).bit Reg.lnkEvent 1 = true := by
  let v := s.withState n LState.retrain
  have kept : Keeps [.lnk] s v := State.setLink_keeps (Within.refl _) _ _ (.refl s)
  have set : LinkIs s v n { s.link n with state := LState.retrain } := s.withState_is n (by decide)
  have eq : s.setLinkState n LState.retrain = (v.leaveUp n LState.retrain).refreshLnkStatus := by
    unfold State.setLinkState
    extract_lets was l u v w st' y x
    have hv' : v = u.leaveUp n LState.retrain := if_pos ⟨hu, by decide⟩
    have hw : w = v := if_neg (by decide)
    have hst : st' = LState.retrain := if_neg (fun h => absurd h.1 (by decide))
    have hx : x = w := if_neg (by rw [hst]; decide)
    rw [hx, hw, hv']
  obtain ⟨moved, event⟩ := State.leaveUp_retrain (kept.inv inv) (congrArg Link.state set.1)
  have wf : (v.leaveUp n LState.retrain).liveWf := ((State.leaveUp_keeps (Within.refl _) _ _ (Keeps.refl v)).inv (kept.inv inv)).liveWf
  rw [set.1] at moved
  rw [eq]
  exact ⟨(set.trans_moved moved).of_lnk (State.refreshLnkStatus_lnk _), (congrArg (bitOf · 1) (State.live_putStatus wf _ _ _ (by decide))).trans event⟩

/-- A link as it goes UP: every frame kept is to be resent. -/
def Link.goneUp (l : Link) (now : Nat) : Link := { l with state := LState.up, resend := l.kept.map (·.fseq), ackTick := now, lastFrame := now }

theorem State.releaseHeld_of_nil {s : State} (h : s.lnk.held = []) : s.releaseHeld.lnk = s.lnk := by
  unfold State.releaseHeld
  rw [h, List.foldl_nil, ← h]

theorem State.queueJoin_endpoints (s : State) : s.queueJoin.sec.endpoints = s.sec.endpoints := by
  unfold State.queueJoin
  split
  · rfl
  · rw [State.setStatus_sec, State.queueNonce]
    split <;> rfl

theorem State.sendJoin_endpoints (s : State) (partner : Nat) : (s.sendJoin partner).sec.endpoints = s.sec.endpoints := State.queueJoin_endpoints _

theorem State.linkGoesUp_is {s : State} {n : Nat} (held : s.lnk.held = []) : LinkIs s (s.linkGoesUp n) n ((s.link n).goneUp s.now) := by
  unfold State.linkGoesUp
  extract_lets u l v
  have set : LinkIs s u n { s.link n with state := LState.up } := State.setLinkState_is (.inr rfl) (by decide) (by decide)
  have now : u.now = s.now := by
    show (s.setLinkState n LState.up).now = s.now
    exact (State.setLinkState_keeps_onward (Within.refl _) (.inr rfl) (by decide) (by decide) (.refl s)).same .now (by decide)
  have none : u.lnk.held = [] := (State.setLinkState_held (.inr rfl) (by decide) (by decide)).trans held
  have own : l = { s.link n with state := LState.up } := set.1
  have is : LinkIs s v n ((s.link n).goneUp s.now) := by
    unfold v
    clear_value v l u
    subst own
    rw [now]
    exact (set.setLink (y := (s.link n).goneUp s.now) (show LState.up ≠ LState.down by decide)).of_lnk (State.releaseHeld_of_nil none)
  split
  · exact is.of_lnk ((State.sendJoin_keeps (Within.refl _) _ (.refl v)).same .lnk (by decide))
  · exact is

theorem State.linkGoesUp_endpoints (s : State) (n : Nat) : (s.linkGoesUp n).sec.endpoints = s.sec.endpoints := by
  unfold State.linkGoesUp
  extract_lets u l v
  have within := Within.refl [Blk.live, .run, .pend, .parity, .lnk, .hlt, .hst, .sum, .outbox]
  have same : v.sec = s.sec := (State.releaseHeld_keeps (within.sub rfl) (State.setLink_keeps (within.sub rfl) _ _
    (State.setLinkState_keeps within _ _ (Keeps.refl s)))).same .sec (by decide)
  clear_value v
  split
  · exact (v.sendJoin_endpoints _).trans (congrArg SecSt.endpoints same)
  · exact congrArg SecSt.endpoints same

end Sys2Proof.Machine
end

section
/-!
A fabric link from DETECT to UP and back: training, the handshake, time-outs and lost lanes (R243–R245, R358, R359).
-/

namespace Sys2Proof.Machine

open Sys2Proof

/-! ### What a handshake sends (R358) -/

/-- The HS1 that a node sends on link n with the ephemeral key d. -/
def State.hello (s : State) (n d : Nat) : List Byte :=
  hs1Bytes ⟨s.map.fabricId, if s.map.cur.isSome = true then s.gen else 0, s.map.id, n, s.sec.cert, ecPublic d, ⟨true, true⟩, [], []⟩

/-- The ephemeral key that a handshake on a link draws next. -/
def State.nextEphemeral (s : State) : Nat := ecPrivate (s.randomBytes 64).1

/-- A link that has sent HS1. -/
def Link.greeting (l : Link) (d : Nat) (b : List Byte) : Link := { l with hs := .none, shake := { Shake.idle with ephemeral := d, mine1 := b } }

theorem State.randomBytes_cert (s : State) (k : Nat) : (s.randomBytes k).2.sec.cert = s.sec.cert := rfl

theorem State.hello_congr {s t : State} (map : t.map = s.map) (cert : t.sec.cert = s.sec.cert) (n d : Nat) : t.hello n d = s.hello n d := by
  rw [State.hello, State.hello, State.gen, State.gen, map, cert]

theorem State.startShake_is {s : State} {n : Nat} (hd : (s.link n).state ≠ LState.down) :
    LinkIs s (s.startShake n) n ((s.link n).greeting s.nextEphemeral (s.hello n s.nextEphemeral)) ∧ Sends s (s.startShake n) [.handshake n 1 (s.hello n s.nextEphemeral)] := by
  have drawn : Keeps [.sec] s (s.randomBytes 64).2 := State.randomBytes_keeps (Within.refl _) 64 (.refl s)
  have cert := s.randomBytes_cert 64
  unfold State.startShake State.nextEphemeral
  generalize s.randomBytes 64 = r at drawn cert ⊢
  rw [← State.hello_congr (drawn.same .map (by decide)) cert]
  have is : LinkIs s r.2 n (s.link n) := (LinkIs.refl s n).of_lnk (drawn.same .lnk (by decide))
  rw [← is.1]
  exact ⟨(is.setLink (y := (r.2.link n).greeting (ecPrivate r.1) (r.2.hello n (ecPrivate r.1))) (by rw [is.1]; exact hd)).of_lnk rfl,
    congrArg (· ++ _) (drawn.same .outbox (by decide) : r.2.outbox = s.outbox)⟩

theorem State.nextEphemeral_congr {s t : State} (sec : t.sec = s.sec) : t.nextEphemeral = s.nextEphemeral := by
  rw [State.nextEphemeral, State.nextEphemeral, State.randomBytes, State.randomBytes, sec]

theorem Link.shaking_iff {l : Link} : l.shaking = true ↔ l.state = LState.align ∨ l.state = LState.keyed := by
  rw [Link.shaking, Bool.or_eq_true, beq_iff_eq, beq_iff_eq]

/-! ### Training and alignment (R243, R244, R324) -/

section
variable {s : State} {n : Nat}

theorem linkSignalDetect_trains (hs : (s.link n).state = LState.detect) :
    Completes (.linkSignalDetect (.fabric n)) s [.live, .lnk] (fun t => LinkIs s t n { s.link n with state := LState.train }) := by
  have hu : (s.link n).state ≠ LState.up ∨ LState.train = LState.up := .inl (by rw [hs]; decide)
  exact completes_keeps (congrArg Host.Outcome.next (if_pos hs)) (State.setLinkState_keeps_onward (Within.refl _) hu (by decide) (by decide) (.refl s))
    (State.setLinkState_is hu (by decide) (by decide))

/-- A link that has trained: it is in ALIGN, and where it needs keys and the node can show who it is, HS1 goes out. -/
theorem State.linkAligns_spec (wf : s.liveWf) (hu : (s.link n).state ≠ LState.up) :
    (s.identified = false ∨ (s.link n).keyed ≠ [] → Keeps [.live, .lnk] s (s.linkAligns n) ∧ LinkIs s (s.linkAligns n) n { s.link n with state := LState.align })
    ∧ (s.identified = true → (s.link n).keyed = [] → Keeps [.live, .lnk, .sec, .outbox] s (s.linkAligns n) ∧
        LinkIs s (s.linkAligns n) n (({ s.link n with state := LState.align } : Link).greeting s.nextEphemeral (s.hello n s.nextEphemeral)) ∧
        Sends s (s.linkAligns n) [.handshake n 1 (s.hello n s.nextEphemeral)]) := by
  unfold State.linkAligns
  extract_lets u
  have kept : Keeps [.live, .lnk] s u := State.setLinkState_keeps_onward (Within.refl _) (.inl hu) (by decide) (by decide) (.refl s)
  have is : LinkIs s u n { s.link n with state := LState.align } := State.setLinkState_is (.inl hu) (by decide) (by decide)
  have keys : (u.link n).keyed = (s.link n).keyed := by rw [is.1]
  have known : u.identified = s.identified := by
    show (s.setLinkState n LState.align).identified = s.identified
    rw [State.setLinkState_onward (.inl hu) (by decide) (by decide)]
    exact congrArg (bitOf · 0) (State.live_putStatus (s := s.withState n LState.align) wf _ _ _ (by decide))
  constructor
  · intro h
    rw [if_neg (by rw [keys, known, List.isEmpty_iff]; rintro ⟨none, shown⟩; exact h.elim (fun e => absurd (shown.symm.trans e) (by decide)) (· none))]
    exact ⟨kept, is⟩
  · intro shown none
    rw [if_pos (by rw [keys, known, List.isEmpty_iff]; exact ⟨none, shown⟩)]
    have sec : u.sec = s.sec := kept.same .sec (by decide)
    obtain ⟨greets, sends⟩ := State.startShake_is (s := u) (n := n) (by rw [is.1]; exact (by decide : LState.align ≠ LState.down))
    rw [State.nextEphemeral_congr sec, State.hello_congr (kept.same .map (by decide)) (congrArg SecSt.cert sec)] at greets sends
    rw [is.1] at greets
    have within := Within.refl [Blk.live, .lnk, .sec, .outbox]
    exact ⟨State.startShake_keeps (within.sub rfl) n (State.setLinkState_keeps_onward (within.sub rfl) (.inl hu) (by decide) (by decide) (.refl s)),
      is.trans greets, sends.trans (congrArg (· ++ _) (kept.same .outbox (by decide) : u.outbox = s.outbox))⟩

theorem exec_linkTrainDone (hs : (s.link n).state = LState.train ∨ (s.link n).state = LState.retrain) :
    exec (.linkTrainDone (.fabric n) true true) s = .next (s.linkAligns n) := congrArg Host.Outcome.next (if_pos ⟨hs, rfl, rfl⟩)

/-- A link that has exchanged identities. -/
def Link.met (l : Link) (partner far : Nat) : Link := { l with partnerId := partner, partnerLink := far, lastPartner := partner }

/-- The partner and its fabric are the ones expected of link n. -/
def State.expects (s : State) (n partner far fabric : Nat) : Bool :=
  s.cabled n partner far && ((decide (60 ≤ n) && !s.isSpare) || fabric == s.map.fabricId)

theorem State.expects_iff (s : State) (n partner far fabric : Nat) :
    s.expects n partner far fabric = true ↔ s.cabled n partner far = true ∧ ((60 ≤ n ∧ s.isSpare = false) ∨ fabric = s.map.fabricId) := by
  simp only [State.expects, Bool.and_eq_true, Bool.or_eq_true, decide_eq_true_eq, Bool.not_eq_true', beq_iff_eq]

section
variable (hs : (s.link n).state = LState.align) (partner far fabric : Nat)
include hs

theorem State.met_is : LinkIs s (s.setLink n ((s.link n).met partner far)) n ((s.link n).met partner far) :=
  s.setLink_is n (show (s.link n).state ≠ LState.down by rw [hs]; decide)

theorem exec_linkAlignDone : exec (.linkAlignDone (.fabric n) partner far fabric) s =
    (let u := s.setLink n ((s.link n).met partner far)
     if s.expects n partner far fabric then
       (if (s.link n).keyed.isEmpty then .next (u.setLinkState n LState.keyed) else .next ((u.setLinkState n LState.keyed).linkGoesUp n))
     else .next ((u.setLinkState n LState.miswired).raiseBit Reg.lnkEvent 2)) := by
  show execLinkAlignDone (.fabric n) partner far fabric s = _
  unfold execLinkAlignDone
  refine (if_neg (not_not_intro hs)).trans ?_
  show (if s.expects n partner far fabric then
      (if ((s.setLink n ((s.link n).met partner far)).link n).keyed.isEmpty then _ else _) else _) = _
  rw [(State.met_is hs partner far).1]
  rfl

/-- A link that has met its partner goes on from ALIGN. -/
theorem State.met_onward {st : Nat} (hd : st ≠ LState.down) (hd' : st ≠ LState.detect) :
    LinkIs s ((s.setLink n ((s.link n).met partner far)).setLinkState n st) n { (s.link n).met partner far with state := st } ∧
      (∀ {m : List Blk}, Within [.live, .lnk] m → Keeps m s ((s.setLink n ((s.link n).met partner far)).setLinkState n st)) ∧
      ((s.setLink n ((s.link n).met partner far)).setLinkState n st).lnk.held = s.lnk.held := by
  have met := State.met_is hs partner far
  have hu : ((s.setLink n ((s.link n).met partner far)).link n).state ≠ LState.up ∨ st = LState.up := by
    rw [met.1]
    exact .inl (show (s.link n).state ≠ LState.up by rw [hs]; decide)
  have is := State.setLinkState_is hu hd hd'
  rw [met.1] at is
  exact ⟨met.trans is, fun hm => State.setLinkState_keeps_onward hm hu hd hd' (State.setLink_keeps (hm.sub rfl) _ _ (.refl s)), State.setLinkState_held hu hd hd'⟩

theorem linkAlignDone_keyed (expected : s.expects n partner far fabric = true) (none : (s.link n).keyed = []) :
    Completes (.linkAlignDone (.fabric n) partner far fabric) s [.live, .lnk] (fun t => LinkIs s t n { (s.link n).met partner far with state := LState.keyed }) := by
  have answer := exec_linkAlignDone hs partner far fabric
  rw [if_pos expected, if_pos (List.isEmpty_iff.mpr none)] at answer
  obtain ⟨keyed, kept, _⟩ := State.met_onward hs partner far (st := LState.keyed) (by decide) (by decide)
  exact completes_keeps answer (kept (Within.refl _)) keyed

theorem linkAlignDone_up (expected : s.expects n partner far fabric = true) (keys : (s.link n).keyed ≠ []) (held : s.lnk.held = []) :
    Completes (.linkAlignDone (.fabric n) partner far fabric) s (partsOf (.linkAlignDone (.fabric n) partner far fabric))
      (fun t => LinkIs s t n (((s.link n).met partner far).goneUp s.now)) := by
  have answer := exec_linkAlignDone hs partner far fabric
  rw [if_pos expected, if_neg (fun e => keys (List.isEmpty_iff.mp e))] at answer
  obtain ⟨keyed, kept, none⟩ := State.met_onward hs partner far (st := LState.keyed) (by decide) (by decide)
  have up := State.linkGoesUp_is (n := n) (none.trans held)
  rw [keyed.1, (kept (Within.refl _)).same .now (by decide)] at up
  exact completes_of answer (execLinkAlignDone_keeps (Within.refl _) (.fabric n) partner far fabric (.refl s)) (keyed.trans up)

theorem linkAlignDone_miswired (inv : s.Inv) (unexpected : s.expects n partner far fabric = false) :
    Completes (.linkAlignDone (.fabric n) partner far fabric) s [.live, .lnk, .hst, .sum, .outbox]
      (fun t => LinkIs s t n { (s.link n).met partner far with state := LState.miswired } ∧ t.bit Reg.lnkEvent 2 = true) := by
  have answer := exec_linkAlignDone hs partner far fabric
  rw [if_neg (by rw [unexpected]; decide)] at answer
  obtain ⟨miswired, kept, _⟩ := State.met_onward hs partner far (st := LState.miswired) (by decide) (by decide)
  have within := Within.refl [Blk.live, .lnk, .hst, .sum, .outbox]
  exact completes_keeps answer (State.raiseBit_keeps (within.sub rfl) _ _ (kept (within.sub rfl)))
    ⟨miswired.of_lnk (State.raiseBit_lnk ..), State.bit_raiseBit_same ((kept (Within.refl _)).inv inv).liveWf _ (by decide)⟩

end

end

/-! ### The handshake (R358–R360) -/

/-- A link that has answered HS1. -/
def Link.answered (l : Link) (m : HsMsg) (ident : Nat) (e : List Byte × List Byte) : Link :=
  { l with hs := .gotHs1, partnerIdent := ident, shake := { l.shake with mine2 := e.2, secret := e.1, peer1 := hs1Bytes m, cert := m.cert, eph := m.eph } }

section
variable {s : State} {n : Nat} {m : HsMsg} (hs : (s.link n).state = LState.align ∨ (s.link n).state = LState.keyed)
include hs

theorem State.link_notDown_of_shaking : (s.link n).state ≠ LState.down := by rcases hs with h | h <;> rw [h] <;> decide

theorem State.link_notUp_of_shaking : (s.link n).state ≠ LState.up := by rcases hs with h | h <;> rw [h] <;> decide

/-- What HS1 shows of the partner, its identity and the key to encapsulate to, where this node keys with it. -/
def State.shownBy (s : State) (n : Nat) (m : HsMsg) : Option (List Byte × List Byte) :=
  if ((decide (60 ≤ n) && !s.isSpare) && !s.sec.endpointCa) || !s.identified then none
  else (certOpen m.cert m.chain).bind (fun c => (certIdd c).bind (fun idd => (mapBytes c 7).map (fun ek => (idd, ek))))

/-- The node as it has answered HS1 with the random bytes drawn for it. -/
def State.answerHs1 (s : State) (n : Nat) (m : HsMsg) (idd ek : List Byte) (r : List Byte × State) : State :=
  let e := kemEncaps ek r.1
  let u := (r.2.setLink n ((s.link n).answered m (field idd 0 8) e)).emit (.handshake n 2 e.2)
  if u.map.cur.isNone then { u with map := { u.map with heard := max u.map.heard m.gen } } else u

theorem exec_hs1 : exec (.hs1 n m) s =
    match s.shownBy n m with
    | none => .next (s.linkAuthFail n)
    | some (idd, ek) => .next (s.answerHs1 n m idd ek (s.randomBytes 32)) := by
  show execHs1 n m s = _
  unfold execHs1 State.shownBy
  simp only [Link.shaking_iff.mpr hs, Bool.not_true, Bool.false_eq_true, if_false]
  cases certOpen m.cert m.chain with
  | none => simp only [Option.bind_none, ite_self]
  | some c =>
    cases hi : certIdd c <;> cases hk : mapBytes c 7 <;> simp only [hi, hk, Option.bind_some, Option.bind_none, Option.map_none, Option.map_some, ite_self]
    split
    · rfl
    · rfl

theorem State.answerHs1_spec (idd ek : List Byte) {r : List Byte × State} (drawn : Keeps [.sec] s r.2) :
    Keeps [.lnk, .map, .sec, .outbox] s (s.answerHs1 n m idd ek r) ∧
      LinkIs s (s.answerHs1 n m idd ek r) n ((s.link n).answered m (field idd 0 8) (kemEncaps ek r.1)) ∧
      Sends s (s.answerHs1 n m idd ek r) [.handshake n 2 (kemEncaps ek r.1).2] := by
  have within := Within.refl [Blk.lnk, .map, .sec, .outbox]
  unfold State.answerHs1
  extract_lets e u
  have kept : Keeps [.lnk, .map, .sec, .outbox] s u := State.emit_keeps (within.sub rfl) _ (State.setLink_keeps (within.sub rfl) _ _ (drawn.mono (within.sub rfl)))
  have is : LinkIs s u n ((s.link n).answered m (field idd 0 8) e) :=
    (((LinkIs.refl s n).of_lnk (drawn.same .lnk (by decide))).setLink (y := (s.link n).answered m (field idd 0 8) e) (State.link_notDown_of_shaking hs)).of_lnk rfl
  have sends : Sends s u [.handshake n 2 e.2] := congrArg (· ++ [OutMsg.handshake n 2 e.2]) (drawn.same .outbox (by decide) : r.2.outbox = s.outbox)
  clear_value u
  split
  · exact ⟨keeps_mk (h := kept), is.of_lnk rfl, sends⟩
  · exact ⟨kept, is, sends⟩

theorem hs1_answers {idd ek : List Byte} (shown : s.shownBy n m = some (idd, ek)) :
    Completes (.hs1 n m) s [.lnk, .map, .sec, .outbox] (fun t =>
      LinkIs s t n ((s.link n).answered m (field idd 0 8) (kemEncaps ek (s.randomBytes 32).1)) ∧ Sends s t [.handshake n 2 (kemEncaps ek (s.randomBytes 32).1).2]) := by
  have answer := exec_hs1 (m := m) hs
  rw [shown] at answer
  obtain ⟨kept, is, sends⟩ := State.answerHs1_spec (m := m) hs idd ek (State.randomBytes_keeps (Within.refl _) 32 (.refl s))
  exact completes_keeps answer kept ⟨is, sends⟩

theorem exec_hs1_refused (unshown : s.shownBy n m = none) : exec (.hs1 n m) s = .next (s.linkAuthFail n) := by
  rw [exec_hs1 hs, unshown]

/-- The HS3 that this node owes for an HS2. -/
def State.ownConfirmation (s : State) (n : Nat) (m : HsMsg) (lm : List Byte) : List Byte :=
  let a := sideA s.sec.idd ((certIdd (certPayload (s.link n).shake.cert)).getD [])
  confirmation lm (if a = true then 0 else 1) ((s.link n).shake.transcript a m.cipher)

theorem exec_hs2 (stage : (s.link n).hs = .gotHs1) : exec (.hs2 n m) s =
    match s.linkMaster (s.link n).shake m.cipher with
    | none => .next (s.linkAuthFail n)
    | some lm => .next ((s.setLink n { s.link n with hs := .gotHs2, master := lm, peer2 := m.cipher }).emit (.handshake n 3 (s.ownConfirmation n m lm))) := by
  show execHs2 n m s = _
  unfold execHs2
  extract_lets l
  have runs : ¬((!l.shaking || l.hs != .gotHs1) = true) := by
    rw [Link.shaking_iff.mpr hs, show l.hs = _ from stage]
    decide
  rw [if_neg runs]
  show (match s.linkMaster (s.link n).shake m.cipher with | none => _ | some lm => _) = _
  cases s.linkMaster (s.link n).shake m.cipher <;> rfl

theorem hs2_answers (stage : (s.link n).hs = .gotHs1) {lm : List Byte} (follows : s.linkMaster (s.link n).shake m.cipher = some lm) :
    Completes (.hs2 n m) s [.lnk, .outbox] (fun t =>
      LinkIs s t n { s.link n with hs := .gotHs2, master := lm, peer2 := m.cipher } ∧ Sends s t [.handshake n 3 (s.ownConfirmation n m lm)]) := by
  have answer := exec_hs2 (m := m) hs stage
  rw [follows] at answer
  have within := Within.refl [Blk.lnk, .outbox]
  refine completes_keeps answer (State.emit_keeps (within.sub rfl) _ (State.setLink_keeps (within.sub rfl) _ _ (.refl s))) ⟨?_, rfl⟩
  exact (s.setLink_is n (y := { s.link n with hs := .gotHs2, master := lm, peer2 := m.cipher }) (State.link_notDown_of_shaking hs)).of_lnk rfl

/-- A link with the keys of the present generations. -/
def State.keyedLink (s : State) (l : Link) : Link := { l with hs := .done, keyed := s.keyGens, sendGen := s.sendKey, fenced := false }

/-- The tenants of the endpoints, as a handshake on link n that has been confirmed leaves them. -/
def State.endpointsAfter (s : State) (n : Nat) : List (Nat × List Nat) :=
  if 60 ≤ n ∧ s.isSpare = false then
    tabPut s.sec.endpoints (field (s.link n).shake.peer1 9 2) (certTenants (certPayload (s.link n).shake.cert)) else s.sec.endpoints

/-- The node as it has installed the keys of link n. -/
def State.keysInstalled (s : State) (n : Nat) : State :=
  let u := s.setLink n (s.keyedLink (s.link n))
  if 60 ≤ n ∧ !s.isSpare then
    { u with sec := { u.sec with endpoints := tabPut u.sec.endpoints (field (s.link n).shake.peer1 9 2) (certTenants (certPayload (s.link n).shake.cert)) } } else u

theorem exec_hs3 (stage : (s.link n).hs = .gotHs2) : exec (.hs3 n m) s =
    if m.mac ≠ s.expectedHs3 n then .next (s.linkAuthFail n)
    else .next (if (s.link n).state = LState.keyed then (s.keysInstalled n).linkGoesUp n else s.keysInstalled n) := by
  show execHs3 n m s = _
  unfold execHs3
  extract_lets l u v
  have runs : ¬((!l.shaking || l.hs != .gotHs2) = true) := by
    rw [Link.shaking_iff.mpr hs, show l.hs = _ from stage]
    decide
  rw [if_neg runs]
  rfl

theorem State.keysInstalled_spec : LinkIs s (s.keysInstalled n) n (s.keyedLink (s.link n)) ∧ (s.keysInstalled n).sec.endpoints = s.endpointsAfter n ∧
    (s.keysInstalled n).lnk.held = s.lnk.held ∧ (s.keysInstalled n).now = s.now := by
  have is := s.setLink_is n (y := s.keyedLink (s.link n)) (State.link_notDown_of_shaking hs)
  have edge : (60 ≤ n ∧ (!s.isSpare) = true) ↔ (60 ≤ n ∧ s.isSpare = false) := by rw [Bool.not_eq_true']
  unfold State.keysInstalled State.endpointsAfter
  split
  · rename_i h
    exact ⟨is.of_lnk rfl, (if_pos (edge.mp h)).symm, rfl, rfl⟩
  · rename_i h
    exact ⟨is, (if_neg (fun e => h (edge.mpr e))).symm, rfl, rfl⟩

theorem hs3_keys (stage : (s.link n).hs = .gotHs2) (right : m.mac = s.expectedHs3 n) (held : s.lnk.held = []) :
    Completes (.hs3 n m) s (partsOf (.hs3 n m)) (fun t =>
      LinkIs s t n (if (s.link n).state = LState.keyed then (s.keyedLink (s.link n)).goneUp s.now else s.keyedLink (s.link n)) ∧ t.sec.endpoints = s.endpointsAfter n) := by
  have answer := exec_hs3 (m := m) hs stage
  rw [if_neg (not_not_intro right)] at answer
  obtain ⟨is, endpoints, none, now⟩ := State.keysInstalled_spec hs
  refine completes_of answer (execHs3_keeps (Within.refl _) n m (.refl s)) ?_
  split
  · have up := State.linkGoesUp_is (n := n) (none.trans held)
    rw [is.1, now] at up
    exact ⟨is.trans up, (State.linkGoesUp_endpoints _ n).trans endpoints⟩
  · exact ⟨is, endpoints⟩

end

/-! ### Back to DETECT, and to RETRAIN -/

section
variable {s : State} {n : Nat}

/-- A handshake message that fails its checks is recorded, and the link starts afresh. -/
theorem refused_afresh {i : Instr} (inv : s.Inv) (hn : n < 64) (ok : LinkEnabled s n) (hu : (s.link n).state ≠ LState.up)
    (answer : exec i s = .next (s.linkAuthFail n)) (parts : Within [.live, .lnk, .hst, .sum, .outbox] (partsOf i)) :
    Completes i s [.live, .lnk, .hst, .sum, .outbox] (fun t => LinkMoved s t n (s.link n).afresh) ∧ Completes i s (partsOf i) (fun t => t.bit Reg.secEvent 3 = true) := by
  obtain ⟨kept, moved, event⟩ := State.linkAuthFail_spec inv hn ok hu
  exact ⟨completes_keeps answer kept moved, completes_keeps answer (kept.mono parts) event⟩

theorem linkStateTimeout_afresh (ok : LinkEnabled s n) (hs : (s.link n).state = LState.detect ∨ (s.link n).state = LState.train ∨ (s.link n).state = LState.align ∨
    (s.link n).state = LState.keyed ∨ (s.link n).state = LState.retrain) :
    Completes (.linkStateTimeout (.fabric n)) s [.live, .lnk] (fun t => LinkMoved s t n (s.link n).afresh) := by
  have hu : (s.link n).state ≠ LState.up := by rcases hs with h | h | h | h | h <;> rw [h] <;> decide
  exact completes_keeps (congrArg Host.Outcome.next (if_pos hs)) (State.setLinkState_keeps_detect ok hu (Within.refl _) (.refl s)) (State.setLinkState_detect_moved ok hu)

theorem laneLockLoss_retrains (inv : s.Inv) (hs : (s.link n).state = LState.up) :
    Completes (.laneLockLoss (.fabric n)) s (partsOf (.laneLockLoss (.fabric n)))
      (fun t => LinkMoved s t n { s.link n with state := LState.retrain, txq := [] } ∧ t.bit Reg.lnkEvent 1 = true) :=
  completes_of (congrArg Host.Outcome.next (if_pos hs)) (execLaneLockLoss_keeps (Within.refl _) (.fabric n) (.refl s)) (State.setLinkState_retrain_moved inv hs)

end

/-! ### The obligation -/

section
variable {s : State} {n : Nat} {m : HsMsg}

/-- HS1 shows the identity and the key that its certificate holds, where the node can show its own and, on an edge link, holds an endpoint CA. -/
theorem State.shownBy_some {c idd ek : List Byte} (opens : certOpen m.cert m.chain = some c) (named : certIdd c = some idd) (key : mapBytes c 7 = some ek)
    (shown : s.identified = true) (keyable : ¬(60 ≤ n ∧ s.isSpare = false) ∨ s.sec.endpointCa = true) : s.shownBy n m = some (idd, ek) := by
  have pass : ¬((((decide (60 ≤ n) && !s.isSpare) && !s.sec.endpointCa) || !s.identified) = true) := by
    rw [shown]
    simp only [Bool.not_true, Bool.or_false, Bool.and_eq_true, decide_eq_true_eq, Bool.not_eq_true']
    rintro ⟨edge, ca⟩
    exact keyable.elim (fun e => e edge) (fun e => absurd (ca.symm.trans e) (by decide))
  rw [State.shownBy, if_neg pass, opens, Option.bind_some, named, Option.bind_some, key, Option.map_some]

theorem State.shownBy_none_of_node (h : certOpen m.cert m.chain = none ∨ s.identified = false ∨ ((60 ≤ n ∧ s.isSpare = false) ∧ s.sec.endpointCa = false)) :
    s.shownBy n m = none := by
  unfold State.shownBy
  rcases h with h | h | ⟨⟨edge, spare⟩, ca⟩
  · rw [h, Option.bind_none, ite_self]
  · rw [h, Bool.not_false, Bool.or_true, if_pos rfl]
  · rw [decide_eq_true edge, spare, ca]
    rfl

theorem State.shownBy_none_of_cert {c : List Byte} (opens : certOpen m.cert m.chain = some c) (h : certIdd c = none ∨ mapBytes c 7 = none) :
    s.shownBy n m = none := by
  have none : ((certIdd c).bind fun idd => (mapBytes c 7).map fun ek => (idd, ek)) = none := by
    rcases h with h | h
    · rw [h, Option.bind_none]
    · rw [h]
      cases certIdd c <;> rfl
  rw [State.shownBy, opens, Option.bind_some, none, ite_self]

end

/-- Settles O40: each event by its lemma above; what fails a check returns the link to DETECT by one lemma, whichever message brought it. -/
theorem linksTrainKeyAndComeUp : Obligations.LinksTrainKeyAndComeUp := by
  unfold Obligations.LinksTrainKeyAndComeUp
  intro s n inv hn held l becomes tells moved edge down up
  refine ⟨linkSignalDetect_trains, fun hs => ?_, fun partner far fabric hs => ⟨fun cabled home => ⟨?_, ?_⟩, fun h => ?_⟩, fun m hs => ⟨?_, ?_, ?_⟩,
    fun pend port score => ⟨fun m hs => ?_, linkStateTimeout_afresh ⟨pend, port, score⟩⟩, fun hs => ?_⟩
  · have hu : (s.link n).state ≠ LState.up := by rcases hs with h | h <;> rw [h] <;> decide
    obtain ⟨quiet, greets⟩ := State.linkAligns_spec inv.liveWf hu
    refine ⟨fun h => completes_keeps (exec_linkTrainDone hs) (quiet h).1 (quiet h).2, fun shown none => ?_⟩
    obtain ⟨kept, is, sends⟩ := greets shown none
    exact completes_keeps (exec_linkTrainDone hs) kept ⟨is.1, sends, is.2⟩
  · exact linkAlignDone_keyed hs partner far fabric ((s.expects_iff n partner far fabric).mpr ⟨cabled, home⟩)
  · exact fun keys => linkAlignDone_up hs partner far fabric ((s.expects_iff n partner far fabric).mpr ⟨cabled, home⟩) keys held
  · have unexpected : s.expects n partner far fabric = false := by
      rw [← Bool.not_eq_true, s.expects_iff]
      rintro ⟨cabled, home⟩
      rcases h with h | ⟨inner, foreign⟩
      · exact Bool.noConfusion (h.symm.trans cabled)
      · exact home.elim inner foreign
    have recorded := linkAlignDone_miswired hs partner far fabric inv unexpected
    exact ⟨recorded.imp fun _ => And.left, (recorded.mono (m := partsOf (.linkAlignDone (.fabric n) partner far fabric)) rfl).imp fun _ => And.right⟩
  · intro c idd ek opens named key shown keyable
    exact (hs1_answers hs (State.shownBy_some (n := n) opens named key shown keyable)).imp fun t ⟨is, sends⟩ => ⟨is.1, sends, is.2⟩
  · intro lm stage follows
    exact (hs2_answers hs stage follows).imp fun t ⟨is, sends⟩ => ⟨is.1, sends, is.2⟩
  · intro stage right
    have keys := hs3_keys hs stage right held
    exact ⟨keys.imp fun _ => And.left, keys.imp fun _ => And.right⟩
  · have hu := State.link_notUp_of_shaking hs
    have ok : LinkEnabled s n := ⟨pend, port, score⟩
    refine ⟨fun h => ?_, fun c opens h => ?_, fun stage fails => ?_, fun stage wrong => ?_⟩
    · exact refused_afresh inv hn ok hu (exec_hs1_refused hs (State.shownBy_none_of_node h)) rfl
    · exact refused_afresh inv hn ok hu (exec_hs1_refused hs (State.shownBy_none_of_cert opens h)) rfl
    · exact refused_afresh inv hn ok hu (by rw [exec_hs2 hs stage, fails]) rfl
    · exact refused_afresh inv hn ok hu ((exec_hs3 hs stage).trans (if_pos wrong)) rfl
  · have recorded := laneLockLoss_retrains inv hs
    exact ⟨recorded.imp fun _ => And.left, recorded.imp fun _ => And.right⟩

end Sys2Proof.Machine
end

section
/-!
Frames that come in on a fabric link: what a header releases, what the payload adds, and what a frame out of order or not accepted asks for (R246–R250, R252).
-/

namespace Sys2Proof.Machine

open Sys2Proof

/-! ### What a frame's header brings (R247, R248, R250) -/

/-- A link rewritten from what it is. -/
theorem LinkIs.update {s t : State} {n : Nat} {x : Link} (h : LinkIs s t n x) (f : Link → Link) (hd : (f x).state ≠ LState.down) :
    LinkIs s (t.setLink n (f (t.link n))) n (f x) := by
  rw [h.1]
  exact h.setLink hd

/-- A link whose kept frames up to an ack have left the replay buffer. -/
def Link.acked (l : Link) (ack now : Nat) : Link :=
  let kept := l.kept.filter (fun f => !seqLe f.fseq ack)
  { l with kept := kept
           resend := if kept.length = l.kept.length then l.resend else l.resend.filter (fun q => kept.any (fun f => f.fseq == q))
           resends := if kept.length = l.kept.length then l.resends else 0
           ackTick := if kept.length = l.kept.length then l.ackTick else now }

theorem Link.acked_of_none {l : Link} {ack : Nat} (now : Nat) (h : (l.kept.filter (fun f => !seqLe f.fseq ack)).length = l.kept.length) : l.acked ack now = l := by
  have same : l.kept.filter (fun f => !seqLe f.fseq ack) = l.kept := List.filter_eq_self.mpr (List.length_filter_eq_length_iff.mp h)
  simp only [Link.acked, same, if_true]

theorem Link.acked_of_some {l : Link} {ack : Nat} (now : Nat) (h : ¬(l.kept.filter (fun f => !seqLe f.fseq ack)).length = l.kept.length) :
    l.acked ack now =
      (let kept := l.kept.filter (fun f => !seqLe f.fseq ack)
       { l with kept := kept, resend := l.resend.filter (fun q => kept.any (fun f => f.fseq == q)), resends := 0, ackTick := now }) := by
  simp only [Link.acked, h, if_false]

theorem LinkIs.takeAck {s t : State} {n : Nat} {x : Link} (h : LinkIs s t n x) (ack : Nat) (hd : x.state ≠ LState.down) :
    LinkIs s (t.takeAck n ack) n (x.acked ack t.now) := by
  obtain rfl := h.1
  unfold State.takeAck
  extract_lets l kept
  split
  · rename_i all
    rw [Link.acked_of_none _ all]
    exact h
  · rename_i some
    rw [Link.acked_of_some _ some]
    exact h.setLink hd

/-- A link that has accepted a frame of generation g, its header taken. -/
def Link.heardFrom (l : Link) (f : Frame) (g now : Nat) : Link :=
  (({ l with rxCount := tabPut l.rxCount g f.txCount, lastFrame := now, heard := true, fenced := false } : Link).acked f.ack now).takeCredits f.half f.credits

section
variable {s t : State} {n : Nat} {f : Frame} {x : Link}

theorem LinkIs.heardFrame (h : LinkIs s t n x) (g txCount : Nat) (hd : x.state ≠ LState.down) :
    LinkIs s (t.heardFrame n g txCount) n { x with rxCount := tabPut x.rxCount g txCount, lastFrame := t.now, heard := true, fenced := false } :=
  h.update (fun l => { l with rxCount := tabPut l.rxCount g txCount, lastFrame := t.now, heard := true, fenced := false }) hd

/-- A header that asks for no resend gives its ack and its credits. -/
theorem LinkIs.takeHeader (h : LinkIs s t n x) (hd : x.state ≠ LState.down) (quiet : bitOf f.lflags 0 = false) :
    LinkIs s (t.takeHeader n f) n ((x.acked f.ack t.now).takeCredits f.half f.credits) := by
  unfold State.takeHeader
  rw [quiet]
  exact (h.takeAck f.ack hd).update (·.takeCredits f.half f.credits) hd

/-! ### Frames that are not accepted, and frames out of order (R247, R249) -/

theorem LinkIs.askResend (h : LinkIs s t n x) (hd : x.state ≠ LState.down) (first : x.gap = false) :
    LinkIs s (t.askResend n) n { x with gap := true, nak := some false } := by
  have none : (t.link n).gap ≠ true := by rw [h.1, first]; decide
  unfold State.askResend
  rw [if_neg none]
  exact h.update (fun l => { l with gap := true, nak := some false }) hd

/-- A link that has met a frame which is not accepted. -/
def Link.unheard (l : Link) (f : Frame) : Link := if l.keyed.any (fun g => g % 256 == f.epoch) then l else { l with foreign := true }

theorem Link.unheard_state (l : Link) (f : Frame) : (l.unheard f).state = l.state := by unfold Link.unheard; split <;> rfl

theorem Link.unheard_gap (l : Link) (f : Frame) : (l.unheard f).gap = l.gap := by unfold Link.unheard; split <;> rfl

theorem State.badFrame_is (hd : (s.link n).state ≠ LState.down) : LinkIs s (s.badFrame n f) n ((s.link n).unheard f) :=
  ⟨(State.badFrame_link f hd n).trans (if_pos rfl), fun k hk => (State.badFrame_link f hd k).trans (if_neg hk)⟩

/-- The node as a frame without bad codewords has come in. -/
abbrev State.arrived (s : State) (n : Nat) (f : Frame) : State := s.bump (Reg.lnkPortStat + 32 * n + 0x10) f.fecCorrected

/-- The node as a frame that is accepted has given its header. -/
def State.headed (s : State) (n : Nat) (f : Frame) (g : Nat) : State := ((s.arrived n f).heardFrame n g f.txCount).takeHeader n f

theorem State.headed_is (g : Nat) (hd : (s.link n).state ≠ LState.down) (quiet : bitOf f.lflags 0 = false) :
    LinkIs s (s.headed n f g) n ((s.link n).heardFrom f g s.now) :=
  (((LinkIs.refl s n).of_lnk (u := s.arrived n f) rfl).heardFrame g f.txCount hd).takeHeader hd quiet

theorem State.headed_keeps {m : List Blk} (hm : Within [.run, .lnk] m) (g : Nat) (quiet : bitOf f.lflags 0 = false) : Keeps m s (s.headed n f g) :=
  State.takeHeader_keeps_noResend (hm.sub rfl) n quiet (State.heardFrame_keeps (hm.sub rfl) n g f.txCount (State.bump_keeps (hm.sub rfl) _ _ (.refl s)))

variable (up : (s.link n).state = LState.up) (clean : f.fecBad = 0)
include up clean

theorem State.fecCount_clean : (if (s.link n).state = LState.up then s.fecCount n f.fecCorrected f.fecBad else s) = s.arrived n f := by
  rw [if_pos up, State.fecCount, if_pos clean]

theorem exec_dataFrame_bad (refused : (s.link n).admits f = none) : exec (.dataFrame n f) s = .next (((s.arrived n f).badFrame n f).askResend n) := by
  show execDataFrame n f s = _
  unfold execDataFrame
  rw [State.fecCount_clean up clean]
  refine (if_neg (not_not_intro up)).trans ?_
  show (match (s.link n).admits f with | none => _ | some g => _) = _
  rw [refused]

theorem exec_idleFrame_bad (refused : (s.link n).admits f = none) : exec (.idleFrame n f) s = .next ((s.arrived n f).badFrame n f) := by
  show execIdleFrame n f s = _
  unfold execIdleFrame
  rw [State.fecCount_clean up clean]
  refine (if_neg (not_not_intro up)).trans ?_
  show (match (s.link n).admits f with | none => _ | some g => _) = _
  rw [refused]

theorem exec_idleFrame_taken {g : Nat} (accepted : (s.link n).admits f = some g) :
    exec (.idleFrame n f) s = .next ((((s.arrived n f).heardFrame n g f.txCount).frameTaken n).takeHeader n f) := by
  show execIdleFrame n f s = _
  unfold execIdleFrame
  rw [State.fecCount_clean up clean]
  refine (if_neg (not_not_intro up)).trans ?_
  show (match (s.link n).admits f with | none => _ | some g => _) = _
  rw [accepted]

variable {g : Nat} (quiet : bitOf f.lflags 0 = false) (accepted : (s.link n).admits f = some g)
include quiet accepted

theorem exec_dataFrame_headed : exec (.dataFrame n f) s =
    if f.fseq ≠ (s.link n).rxSeq then .next (((s.headed n f g).bump (Reg.lnkPortStat + 32 * n + 8)).askResend n)
    else .next ((((s.headed n f g).frameTaken n).setLink n
      { (s.link n).heardFrom f g s.now with rxSeq := ((s.link n).rxSeq + 1) % pow2 32, gap := false }).takePayload n f) := by
  show execDataFrame n f s = _
  unfold execDataFrame
  rw [State.fecCount_clean up clean]
  refine (if_neg (not_not_intro up)).trans ?_
  show (match (s.link n).admits f with | none => _ | some g => _) = _
  rw [accepted]
  show (let l := (s.headed n f g).link n
    if l.state ≠ LState.up then Host.Outcome.next (s.headed n f g)
    else if f.fseq ≠ l.rxSeq then Host.Outcome.next (((s.headed n f g).bump (Reg.lnkPortStat + 32 * n + 8)).askResend n)
    else Host.Outcome.next ((((s.headed n f g).frameTaken n).setLink n { l with rxSeq := (l.rxSeq + 1) % pow2 32, gap := false }).takePayload n f)) = _
  rw [(State.headed_is g (State.link_notDown_of_up up) quiet).1]
  exact if_neg (not_not_intro up)

end

/-! ### A packet for this node (R252, R254, R256) -/

section
variable {s : State} {n : Nat} {p : Packet}

theorem State.nextHop_here (inLink : Option Nat) (dst : p.dst = s.map.id) (via : p.via = 0xFFFF) (low : s.map.id < 0x8000) :
    ∃ flags, s.nextHop inLink p = (.consume, { p with pflags := flags }) := by
  have target : targetNode p.dst = s.map.id := by rw [targetNode, if_neg (by omega), dst]
  have written (c : Prop) [Decidable c] (q : Packet) (v : Nat) : ∃ flags, (if c then { q with pflags := v } else q) = { q with pflags := flags } := by
    split
    · exact ⟨_, rfl⟩
    · exact ⟨q.pflags, rfl⟩
  unfold State.nextHop
  extract_lets me q tgt toVia tg e code dim changed q1 q2
  have own : q = p := if_neg (fun h => h.1 via)
  have direct : toVia = false := by
    unfold toVia
    rw [own, via]
    rfl
  have here : tg = me := (if_neg (by rw [direct]; decide)).trans ((congrArg (fun x => targetNode x.dst) own).trans target)
  have ten : code = 10 := if_pos here
  obtain ⟨a, ha⟩ := written (changed ∨ code = 6 ∨ code = 7 ∨ code = 8) q (putBits q.pflags 2 2 0)
  obtain ⟨b, hb⟩ := written (s.wraps code) q1 (putBits q1.pflags 2 2 1)
  have flagged : q2 = { p with pflags := b } := by
    rw [show q2 = _ from hb, show q1 = _ from ha, own]
  have node : ¬0x8000 ≤ q2.dst := by
    rw [flagged]
    show ¬0x8000 ≤ p.dst
    omega
  rw [ten, if_pos rfl, if_neg node, flagged]
  exact ⟨b, rfl⟩

/-- A packet for this node that comes in on a torus link which may carry it is handed over. -/
theorem State.packetIn_here (inner : n < 60) (dst : p.dst = s.map.id) (via : p.via = 0xFFFF) (low : s.map.id < 0x8000)
    (carried : p.cls = 4 ∨ (s.ctlOnly n = false ∧ byteAt p.transport 3 < 6)) :
    ∃ flags, s.packetIn n p = { s with lnk := { s.lnk with handover := s.lnk.handover ++ [{ p with pflags := flags }] } } := by
  obtain ⟨flags, hop⟩ := State.nextHop_here (s := s) (some n) dst via low
  refine ⟨flags, ?_⟩
  unfold State.packetIn
  rw [if_neg (by rintro ⟨only, other⟩; exact carried.elim other (fun h => absurd (h.1.symm.trans only) (by decide))), if_neg (fun h => absurd h.1 (by omega))]
  unfold State.routePacket
  rw [hop]
  exact if_neg (fun h => carried.elim h.1 (fun c => absurd h.2 (by simpa using c.2)))

theorem State.ctlOnly_congr {t : State} (map : t.map = s.map) (partner : (t.link n).partnerId = (s.link n).partnerId) : t.ctlOnly n = s.ctlOnly n := by
  unfold State.ctlOnly State.isSpare State.myEnt State.nodeEnt
  simp only [map, partner]

end

/-! ### The payload of a frame that comes the first time (R248, R252) -/

section
variable {s : State} {n : Nat} {f : Frame}

/-- What a VC holds of a packet, on a link. -/
abbrev Link.vcHolds (l : Link) (vc : Nat) : RxVc := (tabGet l.rx vc).getD RxVc.idle

/-- A link that has noted a frame's payload and returned its units. -/
def Link.creditedFor (l : Link) (f : Frame) : Link := ({ l with recent := (l.recent ++ [(f.fseq, f.vc)]).drop (l.recent.length - 63) } : Link).credit f.vc f.len

/-- The node as a VC of link n is left with some bytes of a packet. -/
def State.leaveRaw (s : State) (n vc : Nat) (r : RxVc) (raw : List Byte) : State :=
  s.setLink n { s.link n with rx := tabPut (s.link n).rx vc { r with raw := raw } }

/-- A link that has taken a frame's payload, its VC left with some bytes of a packet. -/
def Link.holding (l : Link) (f : Frame) (raw : List Byte) : Link := { l.creditedFor f with rx := tabPut l.rx f.vc { l.vcHolds f.vc with raw := raw } }

theorem Link.holding_raw (l : Link) (f : Frame) (raw : List Byte) : (tabGet (l.holding f raw).rx f.vc).map (·.raw) = some raw :=
  congrArg (Option.map (·.raw)) (tabGet_tabPut_same l.rx f.vc { l.vcHolds f.vc with raw := raw })

variable (plain : bitOf f.lflags 2 = false) (first : (s.link n).again.contains (f.fseq, f.vc) = false)
include plain first

theorem State.takePayload_first {u : State} {left : List Byte}
    (assembled : (s.setLink n ((s.link n).creditedFor f)).assemble n (((s.link n).vcHolds f.vc).raw ++ f.payload) = (u, left)) :
    s.takePayload n f = u.leaveRaw n f.vc ((s.link n).vcHolds f.vc) left := by
  unfold State.takePayload
  extract_lets l key
  show (if (s.link n).again.contains (f.fseq, f.vc) = true then _ else if bitOf f.lflags 2 = true then _ else
    (let a := (s.setLink n ((s.link n).creditedFor f)).assemble n (((s.link n).vcHolds f.vc).raw ++ f.payload)
     a.1.leaveRaw n f.vc ((s.link n).vcHolds f.vc) a.2)) = _
  rw [first, plain, assembled]
  rfl

variable (hd : (s.link n).state ≠ LState.down)
include hd

/-- A payload that does not end a packet waits. -/
theorem State.takePayload_waits (part : packetOf (((s.link n).vcHolds f.vc).raw ++ f.payload) = none) :
    LinkIs s (s.takePayload n f) n ((s.link n).holding f (((s.link n).vcHolds f.vc).raw ++ f.payload)) ∧
      (s.takePayload n f).lnk.handover = s.lnk.handover ∧ Keeps [.lnk] s (s.takePayload n f) := by
  have within := Within.refl [Blk.lnk]
  rw [State.takePayload_first plain first (by rw [State.assemble, part])]
  exact ⟨(s.setLink_is n (y := (s.link n).creditedFor f) hd).update (fun l => { l with rx := tabPut l.rx f.vc { (s.link n).vcHolds f.vc with raw := _ } }) hd, rfl,
    State.setLink_keeps within _ _ (State.setLink_keeps within _ _ (.refl s))⟩

/-- A payload that makes a packet for this node hands it over. -/
theorem State.takePayload_hands {p : Packet} {used : Nat}
    (whole : packetOf (((s.link n).vcHolds f.vc).raw ++ f.payload) = some (p, used)) (inner : n < 60) (dst : p.dst = s.map.id) (via : p.via = 0xFFFF)
    (low : s.map.id < 0x8000) (carried : p.cls = 4 ∨ (s.ctlOnly n = false ∧ byteAt p.transport 3 < 6)) :
    LinkIs s (s.takePayload n f) n ((s.link n).holding f []) ∧
      (∃ flags, (s.takePayload n f).lnk.handover = s.lnk.handover ++ [{ p with pflags := flags }]) ∧ Keeps [.lnk] s (s.takePayload n f) := by
  have within := Within.refl [Blk.lnk]
  have credited := s.setLink_is n (y := (s.link n).creditedFor f) hd
  let u := s.setLink n ((s.link n).creditedFor f)
  have only : u.ctlOnly n = s.ctlOnly n := State.ctlOnly_congr rfl (by rw [credited.1]; rfl)
  obtain ⟨flags, taken⟩ := State.packetIn_here (s := u) (n := n) (p := p) inner dst via low (by rwa [only])
  let v : State := { u with lnk := { u.lnk with handover := u.lnk.handover ++ [{ p with pflags := flags }] } }
  have handed : LinkIs s v n ((s.link n).creditedFor f) := credited.trans ⟨credited.1, fun _ _ => rfl⟩
  have assembled : u.assemble n (((s.link n).vcHolds f.vc).raw ++ f.payload) = (v, []) := by
    rw [State.assemble, whole]
    exact congrArg (·, []) taken
  rw [State.takePayload_first plain first assembled]
  exact ⟨handed.update (fun l => { l with rx := tabPut l.rx f.vc { (s.link n).vcHolds f.vc with raw := [] } }) hd, ⟨flags, rfl⟩,
    State.setLink_keeps within _ _ (keeps_mk (h := State.setLink_keeps within _ _ (.refl s)))⟩

end

end Sys2Proof.Machine
end

section
/-!
DATA and IDLE frames as a whole, the resends of a link, and the frames that it sends (R246–R250, R252, R261, R262).
-/

namespace Sys2Proof.Machine

open Sys2Proof

/-! ### DATA and IDLE frames (R247, R249) -/

/-- A link that has accepted a frame in order. -/
def Link.inOrder (l : Link) (f : Frame) (g now : Nat) : Link := { l.heardFrom f g now with rxSeq := (l.rxSeq + 1) % pow2 32, gap := false }

theorem State.takeHeader_handover {s : State} {n : Nat} {f : Frame} (quiet : bitOf f.lflags 0 = false) : (s.takeHeader n f).lnk.handover = s.lnk.handover := by
  unfold State.takeHeader
  rw [quiet]
  show (s.takeAck n f.ack).lnk.handover = s.lnk.handover
  unfold State.takeAck
  extract_lets l kept
  split <;> rfl

section
variable {s : State} {n : Nat} {f : Frame} {g : Nat}

/-- The node as a frame in order is accepted, before its payload is taken. -/
def State.tookInOrder (s : State) (n : Nat) (f : Frame) (g : Nat) : State := ((s.headed n f g).frameTaken n).setLink n ((s.link n).inOrder f g s.now)

theorem State.tookInOrder_is (hd : (s.link n).state ≠ LState.down) (quiet : bitOf f.lflags 0 = false) : LinkIs s (s.tookInOrder n f g) n ((s.link n).inOrder f g s.now) :=
  ((State.headed_is g hd quiet).of_lnk (u := (s.headed n f g).frameTaken n) rfl).setLink hd

theorem State.tookInOrder_keeps {m : List Blk} (hm : Within [.run, .lnk] m) (quiet : bitOf f.lflags 0 = false) : Keeps m s (s.tookInOrder n f g) :=
  State.setLink_keeps (hm.sub rfl) _ _ (State.frameTaken_keeps (hm.sub rfl) n (State.headed_keeps hm g quiet))

theorem State.tookInOrder_handover (quiet : bitOf f.lflags 0 = false) : (s.tookInOrder n f g).lnk.handover = s.lnk.handover :=
  (State.takeHeader_handover (s := (s.arrived n f).heardFrame n g f.txCount) quiet).trans rfl

section
variable (up : (s.link n).state = LState.up) (clean : f.fecBad = 0) (refused : (s.link n).admits f = none)
include up clean refused

theorem idleFrame_refused : Completes (.idleFrame n f) s [.run, .lnk] (fun t => LinkIs s t n ((s.link n).unheard f)) := by
  have within := Within.refl [Blk.run, .lnk]
  have bad : LinkIs s ((s.arrived n f).badFrame n f) n ((s.link n).unheard f) := State.badFrame_is (s := s.arrived n f) (State.link_notDown_of_up up)
  exact completes_keeps (exec_idleFrame_bad up clean refused) (State.badFrame_keeps within n f (State.bump_keeps (within.sub rfl) _ _ (.refl s))) bad

theorem dataFrame_refused (first : (s.link n).gap = false) :
    Completes (.dataFrame n f) s [.run, .lnk] (fun t => LinkIs s t n { (s.link n).unheard f with gap := true, nak := some false }) := by
  have within := Within.refl [Blk.run, .lnk]
  have hd := State.link_notDown_of_up up
  have bad : LinkIs s ((s.arrived n f).badFrame n f) n ((s.link n).unheard f) := State.badFrame_is (s := s.arrived n f) hd
  exact completes_keeps (exec_dataFrame_bad up clean refused)
    (State.askResend_keeps (within.sub rfl) n (State.badFrame_keeps within n f (State.bump_keeps (within.sub rfl) _ _ (.refl s))))
    (bad.askResend (by rwa [Link.unheard_state]) (by rwa [Link.unheard_gap]))

end

variable (up : (s.link n).state = LState.up) (clean : f.fecBad = 0) (quiet : bitOf f.lflags 0 = false) (accepted : (s.link n).admits f = some g)
include up clean quiet accepted

theorem dataFrame_outOfOrder (order : f.fseq ≠ (s.link n).rxSeq) (first : (s.link n).gap = false) :
    Completes (.dataFrame n f) s [.run, .lnk] (fun t => LinkIs s t n { (s.link n).heardFrom f g s.now with gap := true, nak := some false }) := by
  have answer := exec_dataFrame_headed up clean quiet accepted
  rw [if_pos order] at answer
  have hd := State.link_notDown_of_up up
  have within := Within.refl [Blk.run, .lnk]
  exact completes_keeps answer (State.askResend_keeps (within.sub rfl) n (State.bump_keeps (within.sub rfl) _ _ (State.headed_keeps within g quiet)))
    (((State.headed_is g hd quiet).of_lnk (u := (s.headed n f g).bump (Reg.lnkPortStat + 32 * n + 8)) rfl).askResend hd first)

theorem idleFrame_taken : Completes (.idleFrame n f) s [.run, .lnk] (fun t => LinkIs s t n ((s.link n).heardFrom f g s.now)) := by
  have hd := State.link_notDown_of_up up
  have within := Within.refl [Blk.run, .lnk]
  have heard := ((LinkIs.refl s n).of_lnk (u := s.arrived n f) rfl).heardFrame g f.txCount hd
  exact completes_keeps (exec_idleFrame_taken up clean accepted)
    (State.takeHeader_keeps_noResend (within.sub rfl) n quiet (State.frameTaken_keeps (within.sub rfl) n
      (State.heardFrame_keeps (within.sub rfl) n g f.txCount (State.bump_keeps (within.sub rfl) _ _ (.refl s)))))
    ((heard.of_lnk (u := ((s.arrived n f).heardFrame n g f.txCount).frameTaken n) rfl).takeHeader hd quiet)

variable (order : f.fseq = (s.link n).rxSeq)
include order

theorem exec_dataFrame_inOrder : exec (.dataFrame n f) s = .next ((s.tookInOrder n f g).takePayload n f) :=
  (exec_dataFrame_headed up clean quiet accepted).trans (if_neg (not_not_intro order))

variable (plain : bitOf f.lflags 2 = false) (first : (s.link n).again.contains (f.fseq, f.vc) = false)
include plain first

theorem dataFrame_waits (part : packetOf (((s.link n).vcHolds f.vc).raw ++ f.payload) = none) :
    Completes (.dataFrame n f) s [.run, .lnk] (fun t =>
      LinkIs s t n (((s.link n).inOrder f g s.now).holding f (((s.link n).vcHolds f.vc).raw ++ f.payload)) ∧ t.lnk.handover = s.lnk.handover) := by
  have hd := State.link_notDown_of_up up
  have is : LinkIs s (s.tookInOrder n f g) n ((s.link n).inOrder f g s.now) := State.tookInOrder_is hd quiet
  obtain ⟨waits, handover, kept⟩ := State.takePayload_waits (s := s.tookInOrder n f g) (n := n) (f := f) plain (by rw [is.1]; exact first) (by rw [is.1]; exact hd)
    (by rw [is.1]; exact part)
  rw [is.1] at waits
  exact completes_keeps (exec_dataFrame_inOrder up clean quiet accepted order) ((State.tookInOrder_keeps (Within.refl _) quiet).trans (kept.mono rfl))
    ⟨is.trans waits, handover.trans (State.tookInOrder_handover quiet)⟩

theorem dataFrame_hands {p : Packet} {used : Nat} (whole : packetOf (((s.link n).vcHolds f.vc).raw ++ f.payload) = some (p, used)) (inner : n < 60)
    (dst : p.dst = s.map.id) (via : p.via = 0xFFFF) (low : s.map.id < 0x8000) (carried : p.cls = 4 ∨ (s.ctlOnly n = false ∧ byteAt p.transport 3 < 6)) :
    Completes (.dataFrame n f) s [.run, .lnk] (fun t =>
      LinkIs s t n (((s.link n).inOrder f g s.now).holding f []) ∧ ∃ flags, t.lnk.handover = s.lnk.handover ++ [{ p with pflags := flags }]) := by
  have hd := State.link_notDown_of_up up
  have is : LinkIs s (s.tookInOrder n f g) n ((s.link n).inOrder f g s.now) := State.tookInOrder_is hd quiet
  have ordered : Keeps [.run, .lnk] s (s.tookInOrder n f g) := State.tookInOrder_keeps (Within.refl _) quiet
  have map : (s.tookInOrder n f g).map = s.map := ordered.same .map (by decide)
  have only : (s.tookInOrder n f g).ctlOnly n = s.ctlOnly n := State.ctlOnly_congr map (by rw [is.1]; rfl)
  obtain ⟨hands, ⟨flags, handover⟩, kept⟩ := State.takePayload_hands (s := s.tookInOrder n f g) (n := n) (f := f) plain (by rw [is.1]; exact first) (by rw [is.1]; exact hd)
    (by rw [is.1]; exact whole) inner (dst.trans (congrArg MapSt.id map).symm) via (by rwa [map]) (by rwa [only])
  rw [is.1] at hands
  rw [State.tookInOrder_handover quiet] at handover
  exact completes_keeps (exec_dataFrame_inOrder up clean quiet accepted order) (ordered.trans (kept.mono rfl)) ⟨is.trans hands, flags, handover⟩

end

/-! ### Codewords beyond the limit, and resends (R245, R250) -/

section
variable {s : State} {n : Nat}

/-- A link on which some codewords more have been bad in this minute. -/
def Link.fecCounted (l : Link) (bad : Nat) : Link := { l with fecMinute := l.fecMinute + bad }

theorem State.fecCounted_is (corrected : Nat) {bad : Nat} (hd : (s.link n).state ≠ LState.down) (some : bad ≠ 0) :
    LinkIs s (s.fecCounted n corrected bad) n ((s.link n).fecCounted bad) := by
  unfold State.fecCounted
  extract_lets u v
  rw [if_neg some]
  have same : LinkIs s v n (s.link n) := (LinkIs.refl s n).of_lnk (State.addPoints_lnk ..)
  clear_value v
  exact same.update (·.fecCounted bad) hd

/-- A link on which more codewords are bad in a minute than the limit allows goes to RETRAIN. -/
theorem State.fecCount_beyond (corrected : Nat) {bad : Nat} (up : (s.link n).state = LState.up) (some : bad ≠ 0)
    (beyond : s.fld Reg.lnkRetryCfg 23 16 < (s.link n).fecMinute + bad) :
    s.fecCount n corrected bad = (s.fecCounted n corrected bad).setLinkState n LState.retrain := by
  have limit : (s.fecCounted n corrected bad).fld Reg.lnkRetryCfg 23 16 = s.fld Reg.lnkRetryCfg 23 16 :=
    congrArg (bitsOf · 23 16) (s.fecCounted_live n corrected bad (by decide))
  unfold State.fecCount State.fecCounted at *
  rw [if_neg some] at limit ⊢
  rw [if_neg some]
  refine if_pos ?_
  rw [limit, State.link_of_lnk (State.addPoints_lnk ..)]
  exact ⟨beyond, up⟩

section
variable {f : Frame} (up : (s.link n).state = LState.up) (bad : f.fecBad ≠ 0) (beyond : s.fld Reg.lnkRetryCfg 23 16 < (s.link n).fecMinute + f.fecBad)
include up bad beyond

theorem State.fecCount_retrains (inv : s.Inv) : LinkMoved s (s.fecCount n f.fecCorrected f.fecBad) n { (s.link n).fecCounted f.fecBad with state := LState.retrain, txq := [] } ∧
    (s.fecCount n f.fecCorrected f.fecBad).bit Reg.lnkEvent 1 = true := by
  have is := State.fecCounted_is f.fecCorrected (s := s) (n := n) (State.link_notDown_of_up up) bad
  obtain ⟨moved, event⟩ := State.setLinkState_retrain_moved ((s.fecCounted_keeps n f.fecCorrected f.fecBad).inv inv) (by rw [is.1]; exact up)
  rw [is.1] at moved
  rw [State.fecCount_beyond _ up bad beyond]
  exact ⟨is.trans_moved moved, event⟩

theorem exec_frame_beyond (inv : s.Inv) : ∀ i ∈ [Instr.dataFrame n f, .idleFrame n f], exec i s = .next (s.fecCount n f.fecCorrected f.fecBad) := by
  have left : ((s.fecCount n f.fecCorrected f.fecBad).link n).state ≠ LState.up := by
    rw [(State.fecCount_retrains up bad beyond inv).1.1]
    exact (by decide : LState.retrain ≠ LState.up)
  intro i hi
  rcases List.mem_pair.mp hi with rfl | rfl
  · show execDataFrame n f s = _
    unfold execDataFrame
    rw [if_pos up]
    exact if_pos left
  · show execIdleFrame n f s = _
    unfold execIdleFrame
    rw [if_pos up]
    exact if_pos left

theorem frame_beyond_retrains (inv : s.Inv) : ∀ i ∈ [Instr.dataFrame n f, .idleFrame n f], Completes i s (partsOf i) (fun t =>
    LinkMoved s t n { (s.link n).fecCounted f.fecBad with state := LState.retrain, txq := [] } ∧ t.bit Reg.lnkEvent 1 = true) := by
  intro i hi
  refine completes_of (exec_frame_beyond up bad beyond inv i hi) ?_ (State.fecCount_retrains up bad beyond inv)
  rcases List.mem_pair.mp hi with rfl | rfl
  · exact execDataFrame_keeps (Within.refl _) n f (.refl s)
  · exact execIdleFrame_keeps (Within.refl _) n f (.refl s)

end

/-- A link that is to resend every frame it keeps. -/
def Link.resending (l : Link) (now : Nat) : Link := { l with resend := l.kept.map (·.fseq), resends := l.resends + 1, ackTick := now }

section
variable (up : (s.link n).state = LState.up) (some : (s.link n).kept ≠ [])
include up some

theorem State.replay_again (more : (s.link n).resends < s.fld Reg.lnkRetryCfg 15 12) :
    LinkIs s (s.replay n) n ((s.link n).resending s.now) ∧ (s.replay n).now = s.now := by
  have eq : s.replay n = (s.setLink n ((s.link n).resending s.now)).addPoints (Part.link n) 1 := by
    unfold State.replay
    refine (if_neg (fun e => some (List.isEmpty_iff.mp e))).trans (if_neg ?_)
    rw [State.resentOut, decide_eq_true_eq]
    omega
  rw [eq]
  exact ⟨(s.setLink_is n (y := (s.link n).resending s.now)
    (State.link_notDown_of_up up)).of_lnk (State.addPoints_lnk ..), (State.addPoints_only _ _ _).same .now (by decide)⟩

theorem State.replay_givesUp (inv : s.Inv) (spent : s.fld Reg.lnkRetryCfg 15 12 ≤ (s.link n).resends) :
    LinkMoved s (s.replay n) n { s.link n with state := LState.retrain, txq := [], resends := 0 } ∧ (s.replay n).now = s.now := by
  let u := s.setLink n { s.link n with resends := 0 }
  have eq : s.replay n = u.setLinkState n LState.retrain := by
    unfold State.replay
    refine (if_neg (fun e => some (List.isEmpty_iff.mp e))).trans (if_pos ?_)
    rw [State.resentOut, decide_eq_true_eq]
    exact spent
  have is := s.setLink_is n (y := { s.link n with resends := 0 }) (State.link_notDown_of_up up)
  have moved := (State.setLinkState_retrain_moved (s := u) (n := n) ((State.setLink_keeps (Within.refl _) _ _ (Keeps.refl s)).inv inv) (by rw [is.1]; exact up)).1
  rw [is.1] at moved
  rw [eq]
  exact ⟨is.trans_moved moved, (State.setLinkState_keeps (Within.refl _) _ _ (Keeps.refl u)).same .now (by decide)⟩

end

end

end Sys2Proof.Machine
end

section
/-!
The frames that a fabric link sends, what a direction holds too long, and the obligation (R246, R250, R261, R262, R319).
-/

namespace Sys2Proof.Machine

open Sys2Proof

/-! ### The ack of a frame sent (R250, R266) -/

/-- With no coded frame waiting, the ack names the last frame taken. -/
theorem Link.ackSeq_of_decoded {l : Link} (h : ∀ r ∈ l.rx, r.2.segs = []) : l.ackSeq = (l.rxSeq + 2 ^ 32 - 1) % 2 ^ 32 := by
  have starts : l.rx.filterMap (fun r => r.2.segs.head?.map (·.fseq)) = [] := List.filterMap_eq_nil_iff.mpr fun r hr => by rw [h r hr]; rfl
  unfold Link.ackSeq
  rw [starts]
  show (l.rxSeq + 2 * 2 ^ 32 - 1 - 0) % 2 ^ 32 = _
  omega

/-! ### One frame goes out (R246, R248, R250) -/

/-- A link that has sent a frame. -/
def Link.sentOne (l : Link) : Link := { l with txCount := l.txCount + 1, half := 1 - l.half, nak := none }

/-- A frame that a link sends: it carries the link's present ack, counts and epoch. -/
def Link.frameOut (l : Link) (n type vc fseq flags : Nat) (payload : List Byte) : OutMsg :=
  .frame n type vc (l.sendGen % 256) fseq l.ackSeq l.txCount l.half flags l.creditList payload

section
variable {s t : State} {n : Nat} {x : Link}

theorem LinkIs.putFrame (h : LinkIs s t n x) (hd : x.state ≠ LState.down) (out : t.outbox = s.outbox) (type vc fseq lflags : Nat) (payload : List Byte) :
    LinkIs s (t.putFrame n type vc fseq lflags payload) n x.sentOne ∧
      ∃ flags, Sends s (t.putFrame n type vc fseq lflags payload) [x.frameOut n type vc fseq flags payload] := by
  obtain rfl := h.1
  unfold State.putFrame
  extract_lets l nak ack u
  exact ⟨(h.setLink (y := (t.link n).sentOne) hd).of_lnk rfl, lflags + nak, congrArg (· ++ _) out⟩

/-- A link that keeps a frame it sends until its ack comes. -/
def Link.keeping (l : Link) (g : KeptFrame) (now : Nat) : Link :=
  { l with
    kept := l.kept ++ [{ g with fseq := l.txSeq }], txSeq := (l.txSeq + 1) % pow2 32
    spent := spSet 0 l.spent g.vc (spGet 0 l.spent g.vc + g.payload.length / 64)
    ackTick := if l.kept.isEmpty then now else l.ackTick
    turn := if g.pkt.cls ≤ 2 then g.pkt.cls else l.turn }

theorem LinkIs.sendKept (h : LinkIs s t n x) (out : t.outbox = s.outbox) {y : Link} (hd : y.state ≠ LState.down) (g : KeptFrame) :
    LinkIs s (t.sendKept n y g) n (y.keeping g t.now).sentOne ∧
      ∃ flags, Sends s (t.sendKept n y g) [(y.keeping g t.now).frameOut n 0 g.vc y.txSeq flags g.payload] :=
  (h.setLink (y := y.keeping g t.now) hd).putFrame hd out 0 g.vc y.txSeq g.lflags g.payload

/-- The next frame of VC vc has gone out on link n, and is kept. -/
def FrameSent (s t : State) (n vc : Nat) : Prop :=
  (t.link n).txSeq = ((s.link n).txSeq + 1) % 2 ^ 32 ∧ ∃ f, (t.link n).kept = List.append (s.link n).kept [f] ∧ f.fseq = (s.link n).txSeq ∧ f.vc = vc ∧
    ∃ flags credits, Sends s t [.frame n 0 vc ((s.link n).sendGen % 256) (s.link n).txSeq (s.link n).ackSeq (s.link n).txCount (s.link n).half flags credits f.payload]

theorem State.sendKept_sent (h : LinkIs s t n x) (out : t.outbox = s.outbox) (hd : (s.link n).state ≠ LState.down) (queue : List (Bool × Packet)) (last : List (Nat × Bool))
    (sending : List (Nat × Sending)) (later : List KeptFrame) (g : KeptFrame) :
    FrameSent s (t.sendKept n { s.link n with txq := queue, lastLocal := last, sending := sending, later := later } g) n g.vc := by
  obtain ⟨is, flags, sends⟩ := h.sendKept out (y := { s.link n with txq := queue, lastLocal := last, sending := sending, later := later }) hd g
  unfold FrameSent
  rw [is.1]
  exact ⟨rfl, { g with fseq := (s.link n).txSeq }, rfl, rfl, rfl, flags, _, sends⟩

theorem State.sendPacket_sent (hd : (s.link n).state ≠ LState.down) (vc : Nat) (e : Bool × Packet) : FrameSent s (s.sendPacket n vc e) n vc := by
  have begun : Keeps [.freeCtr] s (s.beginSend e.1 e.2).2 := State.beginSend_keeps (Within.refl _) e.1 e.2 (.refl s)
  have is : LinkIs s (s.beginSend e.1 e.2).2 n (s.link n) := (LinkIs.refl s n).of_lnk (begun.same .lnk (by decide))
  unfold State.sendPacket
  extract_lets l
  cases tabGet l.sending vc with
  | some x => exact State.sendKept_sent (LinkIs.refl s n) rfl hd _ _ _ _ _
  | none => exact State.sendKept_sent is (begun.same .outbox (by decide)) hd _ _ _ _ _

theorem State.sendFrom_sent (hd : (s.link n).state ≠ LState.down) (vc : Nat) (e : Bool × Packet) : FrameSent s (s.sendFrom n vc e) n vc := by
  unfold State.sendFrom
  extract_lets l
  cases h : l.later.find? (fun g => g.vc == vc) with
  | some g =>
    have same : g.vc = vc := by simpa using List.find?_some h
    rw [← same]
    exact State.sendKept_sent (LinkIs.refl s n) rfl hd _ _ _ _ g
  | none => exact State.sendPacket_sent hd vc e

end

/-! ### FRAME_TRANSMIT (R246, R247, R250, R262, R319) -/

/-- The VC that link n sends a frame of next, with the packet it sends. -/
def State.nextReady (s : State) (n : Nat) : Option (Nat × (Bool × Packet)) :=
  (s.link n).ready.find? (fun c => s.mayCarry n c.2 && (s.link n).hasCredit c.1 (s.nextLen n c.1 c.2.2))

section
variable {s : State} {n : Nat} (up : (s.link n).state = LState.up) (own : (s.link n).fenced = false)

theorem exec_frameTransmit_fenced (fenced : (s.link n).fenced = true) : exec (.frameTransmit n) s = .next s := if_pos (.inr fenced)

include up own

theorem frameTransmit_open : ¬((s.link n).state ≠ LState.up ∨ (s.link n).fenced = true) := by
  rw [up, own]
  decide

section
variable {q : Nat} {rest : List Nat} {f : KeptFrame} (marked : (s.link n).resend = q :: rest) (kept : (s.link n).kept.find? (fun f => f.fseq == q) = some f)
include marked kept

theorem exec_frameTransmit_marked : exec (.frameTransmit n) s =
    if s.mayLeave f.here f.pkt then
      .next (((s.setLink n { s.link n with resend := rest }).bump (Reg.lnkPortStat + 32 * n + 12)).putFrame n 0 f.vc f.fseq f.lflags f.payload)
    else .next s := by
  show execFrameTransmit n s = _
  unfold execFrameTransmit
  refine (if_neg (frameTransmit_open up own)).trans ?_
  dsimp only
  rw [marked]
  dsimp only
  rw [kept]

theorem frameTransmit_resends (leaves : s.mayLeave f.here f.pkt = true) : Completes (.frameTransmit n) s [.run, .lnk, .outbox] (fun t =>
    LinkIs s t n ({ s.link n with resend := rest } : Link).sentOne ∧ ∃ flags, Sends s t [(s.link n).frameOut n 0 f.vc f.fseq flags f.payload]) := by
  have answer := exec_frameTransmit_marked up own marked kept
  rw [if_pos leaves] at answer
  have hd := State.link_notDown_of_up up
  have within := Within.refl [Blk.run, .lnk, .outbox]
  have is := s.setLink_is n (y := { s.link n with resend := rest }) hd
  exact completes_keeps answer (State.putFrame_keeps within _ _ _ _ _ _ (State.bump_keeps (within.sub rfl) _ _ (State.setLink_keeps (within.sub rfl) _ _ (.refl s))))
    ((is.of_lnk (u := (s.setLink n { s.link n with resend := rest }).bump (Reg.lnkPortStat + 32 * n + 12)) rfl).putFrame hd rfl 0 f.vc f.fseq f.lflags f.payload)

end

section
variable (unmarked : (s.link n).resend = [])
include unmarked

theorem exec_frameTransmit_unmarked : exec (.frameTransmit n) s =
    if 64 ≤ (s.link n).kept.length then .next (s.sendIdle n)
    else match s.nextReady n with
      | some (vc, e) => .next (s.sendFrom n vc e)
      | none => .next (s.sendIdle n) := by
  show execFrameTransmit n s = _
  unfold execFrameTransmit
  refine (if_neg (frameTransmit_open up own)).trans ?_
  rw [unmarked]
  rfl

theorem exec_frameTransmit_idle (nothing : 64 ≤ (s.link n).kept.length ∨ s.nextReady n = none) : exec (.frameTransmit n) s = .next (s.sendIdle n) := by
  rw [exec_frameTransmit_unmarked up own unmarked]
  split
  · rfl
  · rename_i room
    rw [nothing.resolve_left room]

theorem frameTransmit_idle (nothing : 64 ≤ (s.link n).kept.length ∨ s.nextReady n = none) (member : s.map.fenced = false) :
    Completes (.frameTransmit n) s [.run, .lnk, .outbox] (fun t => LinkIs s t n (s.link n).sentOne ∧ ∃ flags, Sends s t [(s.link n).frameOut n 1 0 0 flags []]) := by
  have hd := State.link_notDown_of_up up
  have answer := exec_frameTransmit_idle up own unmarked nothing
  rw [State.sendIdle, if_neg (by rw [member]; decide)] at answer
  exact completes_keeps answer (State.putFrame_keeps (Within.refl _) _ _ _ _ _ _ (.refl s)) ((LinkIs.refl s n).putFrame hd rfl 1 0 0 0 [])

theorem frameTransmit_next {vc : Nat} {e : Bool × Packet} (room : (s.link n).kept.length < 64) (ready : s.nextReady n = some (vc, e)) :
    Completes (.frameTransmit n) s [.run, .lnk, .outbox, .freeCtr] (fun t => FrameSent s t n vc) := by
  have answer := exec_frameTransmit_unmarked up own unmarked
  rw [if_neg (by omega), ready] at answer
  exact completes_keeps answer (State.sendFrom_keeps (Within.refl _) n vc e (.refl s)) (State.sendFrom_sent (State.link_notDown_of_up up) vc e)

end

end

/-! ### Resends that are due, and packets held too long (R250, R261) -/

section
variable {s : State} {n : Nat} (up : (s.link n).state = LState.up) (some : (s.link n).kept ≠ [])

/-- The count at which the resends of a link are due. -/
def State.resendDue (s : State) (n : Nat) : Nat := (s.link n).ackTick + 16 * s.fld Reg.lnkRetryCfg 11 0

include up some

theorem exec_linkResendTimeout : exec (.linkResendTimeout n) s = .next ((s.advanceTo (s.resendDue n)).replay n) :=
  if_neg (by rw [List.isEmpty_iff]; exact fun h => h.elim (fun e => e up) some)

theorem linkResendTimeout_again (more : (s.link n).resends < s.fld Reg.lnkRetryCfg 15 12) :
    Completes (.linkResendTimeout n) s (partsOf (.linkResendTimeout n)) (fun t =>
      t.now = max s.now (s.resendDue n) ∧ t.link n = (s.link n).resending t.now) := by
  obtain ⟨is, now⟩ := State.replay_again (s := s.advanceTo (s.resendDue n)) (n := n) up some more
  refine completes_of (exec_linkResendTimeout up some) (execLinkResendTimeout_keeps (Within.refl _) n (.refl s)) ⟨now, ?_⟩
  rw [now]
  exact is.1

theorem linkResendTimeout_givesUp (inv : s.Inv) (spent : s.fld Reg.lnkRetryCfg 15 12 ≤ (s.link n).resends) :
    Completes (.linkResendTimeout n) s (partsOf (.linkResendTimeout n)) (fun t => t.now = max s.now (s.resendDue n) ∧
      t.link n = { s.link n with state := LState.retrain, txq := [], resends := 0 }) := by
  obtain ⟨moved, now⟩ := State.replay_givesUp (s := s.advanceTo (s.resendDue n)) (n := n) up some
    ((State.advanceTo_keeps (Within.refl _) _ (Keeps.refl s)).inv inv) spent
  exact completes_of (exec_linkResendTimeout up some) (execLinkResendTimeout_keeps (Within.refl _) n (.refl s)) ⟨now, moved.1⟩

end

/-- The count at which the packet first held for a direction has waited too long. -/
def State.holdEnds (s : State) (first : Nat × ((Bool × Packet) × Nat)) : Nat := first.2.2 + 2 ^ 20 * s.fld Reg.lnkCfg 15 8

theorem directionHoldExpiry_discards {s : State} (inv : s.Inv) {dir : Nat} {first : Nat × ((Bool × Packet) × Nat)} (held : s.lnk.held.find? (fun h => h.1 == dir) = some first) :
    Completes (.directionHoldExpiry dir) s [.now, .live, .run, .lnk, .hst, .sum, .outbox] (fun t =>
      t.now = max s.now (s.holdEnds first) ∧ t.bit Reg.lnkEvent 3 = true ∧
      t.lnk = { s.lnk with held := s.lnk.held.filter (fun h => !(h.1 == dir && decide (s.holdEnds h ≤ t.now))) }) := by
  have kept := execDirectionHoldExpiry_keeps (Within.refl [Blk.now, .live, .run, .lnk, .hst, .sum, .outbox]) dir (Keeps.refl s)
  let u := s.advanceTo (s.holdEnds first)
  let old := s.lnk.held.filter (fun h => h.1 == dir && decide (s.holdEnds h ≤ u.now))
  let v : State := ({ u with lnk := { s.lnk with held := s.lnk.held.filter (fun h => !(h.1 == dir && decide (s.holdEnds h ≤ u.now))) } }).bump Reg.lnkStatDrop old.length
  have answer : exec (.directionHoldExpiry dir) s = .next (v.raiseBit Reg.lnkEvent 3) := by
    show execDirectionHoldExpiry dir s = _
    unfold execDirectionHoldExpiry
    rw [held]
    rfl
  have wf : v.liveWf := inv.liveWf
  refine completes_of answer kept ⟨State.raiseBit_now .., State.bit_raiseBit_same wf _ (by decide), ?_⟩
  rw [State.raiseBit_lnk, State.raiseBit_now]
  rfl

/-! ### The obligation -/

/-- Settles O41: each clause by its lemma above. -/
theorem framesMoveInOrderAndAreResent : Obligations.FramesMoveInOrderAndAreResent := by
  unfold Obligations.FramesMoveInOrderAndAreResent
  intro s n inv hn up l ack
  refine ⟨Link.ackSeq_of_decoded, ?_, ?_, ?_, ?_, exec_frameTransmit_fenced, ?_, ?_, ?_, ?_, ?_⟩
  · intro f bad beyond i hi
    refine (frame_beyond_retrains up bad beyond inv i hi).imp fun t h => ?_
    rw [h.1.1]
    exact ⟨rfl, rfl, rfl, h.2⟩
  · intro f g clean accepted quiet kept r got fresh
    refine ⟨?_, ?_, ?_, ?_⟩
    · rintro ⟨plain, order, first⟩ part
      refine (dataFrame_waits up clean quiet accepted order plain first part).imp fun t h => ?_
      rw [h.1.1]
      exact ⟨rfl, rfl, rfl, rfl, rfl, rfl, Link.holding_raw _ f _, h.2, h.1.2⟩
    · rintro p used ⟨plain, order, first⟩ whole inner dst via low carried
      refine (dataFrame_hands up clean quiet accepted order plain first whole inner dst via low carried).imp fun t ⟨is, flags, handover⟩ => ?_
      rw [is.1]
      exact ⟨rfl, Link.holding_raw _ f _, _, handover, rfl, rfl, rfl, rfl⟩
    · refine fun order first => (dataFrame_outOfOrder up clean quiet accepted order first).imp fun t is => ?_
      rw [is.1]
      exact ⟨rfl, rfl, rfl, rfl, rfl⟩
    · refine (idleFrame_taken up clean quiet accepted).imp fun t is => ?_
      rw [is.1]
      exact ⟨rfl, rfl, rfl, rfl, rfl, rfl⟩
  · exact fun f clean refused => ⟨dataFrame_refused up clean refused, idleFrame_refused up clean refused⟩
  · exact fun some => ⟨linkResendTimeout_again up some, linkResendTimeout_givesUp up some inv⟩
  · intro q rest f own marked kept stays
    rw [exec_frameTransmit_marked up own marked kept, if_neg (by rw [stays]; decide)]
  · intro q rest f own marked kept leaves
    refine (frameTransmit_resends up own marked kept leaves).imp fun t ⟨is, flags, sends⟩ => ?_
    rw [is.1]
    exact ⟨rfl, rfl, rfl, rfl, flags, _, sends⟩
  · intro unmarked own nothing
    refine ⟨fun member => (frameTransmit_idle up own unmarked nothing member).imp fun t ⟨is, flags, sends⟩ => ?_, fun fenced => ?_⟩
    · rw [is.1]
      exact ⟨rfl, rfl, rfl, flags, _, sends⟩
    · rw [exec_frameTransmit_idle up own unmarked nothing, State.sendIdle, if_pos fenced]
  · exact fun vc e unmarked own room ready => frameTransmit_next up own unmarked room ready
  · exact fun dir first held => directionHoldExpiry_discards inv held

end Sys2Proof.Machine
end

section
/-!
QUE_CMD: the commit of its registers, the bytes of its data registers, and what each command on a context or a region leaves (R270, R277, R281, R282, R286, R297, R380).
-/

namespace Sys2Proof.Machine

open Sys2Proof

/-! ### Bytes of a slice (R7) -/

/-- A slice holds the bytes from its offset on, zero past the end. -/
theorem slice_eq_map (bs : List Byte) (off n : Nat) : slice bs off n = (List.range n).map (fun i => bs.getD (off + i) 0) := by
  apply List.ext_getElem?
  intro i
  simp only [slice, List.getElem?_append, List.getElem?_take, List.getElem?_drop, List.getElem?_replicate, List.length_take, List.length_drop,
    List.getElem?_map]
  rcases Nat.lt_or_ge i n with low | high
  · rcases Nat.lt_or_ge (off + i) bs.length with inside | past
    · simp [low, inside, show i < bs.length - off by omega]
    · simp [low, show ¬ i < bs.length - off by omega, List.getElem?_eq_none past]
      omega
  · simp [show ¬ i < n by omega]
    omega

theorem length_slice (bs : List Byte) (off n : Nat) : (slice bs off n).length = n := by rw [slice_eq_map, List.length_map, List.length_range]

/-- A slice of a slice that lies within it. -/
theorem slice_slice {bs : List Byte} {n off m : Nat} (h : off + m ≤ n) : slice (slice bs 0 n) off m = slice bs off m := by
  rw [slice_eq_map, slice_eq_map bs off, slice_eq_map bs 0]
  refine List.map_congr_left fun i hi => ?_
  have hi := List.mem_range.mp hi
  simp [List.getD_eq_getElem?_getD, show off + i < n by omega]

theorem slice_append (bs : List Byte) (off n m : Nat) : slice bs off n ++ slice bs (off + n) m = slice bs off (n + m) := by
  simp only [slice_eq_map, List.range_add, List.map_append, List.map_map, Function.comp_def, Nat.add_assoc]

theorem slice_whole {bs : List Byte} {n : Nat} (h : bs.length = n) : slice bs 0 n = bs := by
  subst h
  simp [slice]

/-- The bytes of the value of some bytes are those bytes. -/
theorem leBytes_leNat (bs : List Byte) : leBytes bs.length (leNat bs) = bs := by
  induction bs with
  | nil => rfl
  | cons b bs ih =>
    have low : b.toNat < 256 := b.isLt
    rw [List.length_cons, leNat, leBytes, show (b.toNat + 256 * leNat bs) / 256 = leNat bs by omega, ih]
    refine congrArg (· :: bs) (BitVec.eq_of_toNat_eq ?_)
    rw [BitVec.toNat_ofNat]
    omega

theorem leBytes_mod (n v : Nat) : leBytes n (v % 256 ^ n) = leBytes n v := by
  have same : leNat (leBytes n (v % 256 ^ n)) = leNat (leBytes n v) := by rw [leNat_leBytes, leNat_leBytes, Nat.mod_mod]
  have back (v : Nat) : leBytes n (leNat (leBytes n v)) = leBytes n v := by simpa using leBytes_leNat (leBytes n v)
  rw [← back, same, back]

/-! ### The registers of a command (Table 11.12) -/

/-- The data registers take the words of the bytes; every other register reads as before. -/
theorem State.putQueData_regs {s : State} (wf : s.liveWf) (b : List Byte) : (s.putQueData b).liveWf ∧
    ∀ x, (s.putQueData b).live x = if ∃ i, i < 64 ∧ x = Reg.queCmdData + 4 * i then field b (x - Reg.queCmdData) 4 % 2 ^ 32 else s.live x := by
  unfold State.putQueData
  generalize 64 = n
  induction n with
  | zero => exact ⟨wf, fun x => (if_neg (by omega)).symm⟩
  | succ n ih =>
    rw [List.range_succ, List.foldl_append]
    obtain ⟨wf, live⟩ := ih
    refine ⟨wf.setLive _ _, fun x => ?_⟩
    refine (State.live_setLive wf _ _ x).trans ?_
    rw [live]
    by_cases last : x = Reg.queCmdData + 4 * n
    · rw [if_pos last, if_pos ⟨n, by omega, last⟩, last, Nat.add_sub_cancel_left]
    · rw [if_neg last]
      refine if_congr ⟨fun ⟨i, hi, e⟩ => ⟨i, by omega, e⟩, fun ⟨i, hi, e⟩ => ⟨i, ?_, e⟩⟩ rfl rfl
      have : i ≠ n := fun h => last (h ▸ e)
      omega

/-- The data registers read back as the bytes put there. -/
theorem State.queData_of_live {s : State} {b : List Byte} (h : ∀ i, i < 64 → s.live (Reg.queCmdData + 4 * i) = field b (4 * i) 4 % 2 ^ 32) :
    s.queData = slice b 0 256 := by
  have word (i : Nat) (hi : i < 64) : leBytes 4 (s.live (Reg.queCmdData + 4 * i)) = slice b (4 * i) 4 := by
    rw [h i hi, show (2 ^ 32 : Nat) = 256 ^ 4 from rfl, leBytes_mod]
    have back := leBytes_leNat (slice b (4 * i) 4)
    rwa [length_slice] at back
  have upTo (n : Nat) (hn : n ≤ 64) : (List.range n).flatMap (fun i => leBytes 4 (s.live (Reg.queCmdData + 4 * i))) = slice b 0 (4 * n) := by
    induction n with
    | zero => rfl
    | succ n ih =>
      rw [List.range_succ, List.flatMap_append, ih (by omega), List.flatMap_singleton, word n hn, Nat.mul_succ, ← slice_append b 0 (4 * n) 4, Nat.zero_add]
  exact upTo 64 (Nat.le_refl _)

/-- The registers that a command of QUE_CMD is committed to: the command, its queue pair or index, and its data. -/
def State.queCommitted (s : State) (action n : Nat) (image : Option (List Byte)) : State :=
  let u := (s.commitTo Reg.queCmd action).commitTo Reg.queCmdQpn (n % pow2 20)
  match image with | some b => u.putQueData b | none => u

/-- What stands in the state once a command has been committed: its registers, and everything else as before. -/
structure Committed (s : State) (action n : Nat) (image : Option (List Byte)) (u : State) : Prop where
  wf : u.liveWf
  keeps : Keeps [.live, .staged] s u
  action : u.fld Reg.queCmd 3 0 = action
  place : u.fld Reg.queCmdQpn 19 0 = n
  data : ∀ b, image = some b → u.queData = slice b 0 256
  others : ∀ x, x ≠ Reg.queCmd → x ≠ Reg.queCmdQpn → (x < Reg.queCmdData ∨ Reg.queCmdData + 256 ≤ x) → u.live x = s.live x

theorem State.queCommitted_spec {s : State} (wf : s.liveWf) {action n : Nat} (ha : action < 16) (hn : n < 2 ^ 20) (image : Option (List Byte)) :
    Committed s action n image (s.queCommitted action n image) := by
  have named : ∀ x, ((s.commitTo Reg.queCmd action).commitTo Reg.queCmdQpn (n % pow2 20)).live x =
      if x = Reg.queCmdQpn then n else if x = Reg.queCmd then action else s.live x := fun x => by
    rw [State.live_commitTo (State.commitTo_liveWf wf _ _), State.live_commitTo wf, pow2, Nat.mod_eq_of_lt hn, Nat.mod_eq_of_lt (show n < 2 ^ 32 by omega),
      Nat.mod_eq_of_lt (show action < 2 ^ 32 by omega)]
  have namedWf := State.commitTo_liveWf (State.commitTo_liveWf wf Reg.queCmd action) Reg.queCmdQpn (n % pow2 20)
  have kept : Keeps [.live, .staged] s ((s.commitTo Reg.queCmd action).commitTo Reg.queCmdQpn (n % pow2 20)) :=
    State.commitTo_keeps (Within.refl _) _ _ (State.commitTo_keeps (Within.refl _) _ _ (.refl s))
  have fldAction {u : State} (h : u.live Reg.queCmd = action) : u.fld Reg.queCmd 3 0 = action := by
    rw [State.fld, h, bitsOf_eq_div_mod, Nat.pow_zero, Nat.div_one]
    exact Nat.mod_eq_of_lt ha
  have fldPlace {u : State} (h : u.live Reg.queCmdQpn = n) : u.fld Reg.queCmdQpn 19 0 = n := by
    rw [State.fld, h, bitsOf_eq_div_mod, Nat.pow_zero, Nat.div_one]
    exact Nat.mod_eq_of_lt hn
  cases image with
  | none =>
    exact ⟨namedWf, kept, fldAction (named _), fldPlace (named _), nofun, fun x h1 h2 _ => (named x).trans (by rw [if_neg h2, if_neg h1])⟩
  | some b =>
    obtain ⟨dataWf, live⟩ := State.putQueData_regs namedWf b
    have outside {x : Nat} (h : x < Reg.queCmdData ∨ Reg.queCmdData + 256 ≤ x) : (s.queCommitted action n (some b)).live x = _ :=
      (live x).trans ((if_neg (by rintro ⟨i, hi, rfl⟩; omega)).trans (named x))
    refine ⟨dataWf, State.putQueData_keeps (Within.refl _) b kept, fldAction (outside (.inl (by decide))), fldPlace (outside (.inl (by decide))), ?_, ?_⟩
    · rintro _ ⟨⟩
      refine State.queData_of_live fun i hi => (live _).trans ?_
      rw [if_pos ⟨i, hi, rfl⟩, Nat.add_sub_cancel_left]
    · exact fun x h1 h2 h => (outside h).trans (by rw [if_neg h2, if_neg h1])

/-- A row of QUE_CMD in service with no command under way: the commit, then the command. -/
theorem State.queRow_idle {s : State} (running : s.running = true) (serves : s.inService = true) (idle : s.bit Reg.queCmdStatus 0 = false)
    (action n : Nat) (image : Option (List Byte)) : s.queRow action n image = (s.queCommitted action n image).queCommand := by
  unfold State.queRow
  rw [if_neg (by simp [running, serves]), if_neg (by simp [idle])]
  rfl

/-! ### The end of a command (R297) -/

/-- A command's end shows its result, no command under way, and leaves the contexts and regions. -/
theorem State.queEnd_spec {s : State} (wf : s.liveWf) {r : Nat} (hr : r < 16) :
    (s.queEnd r).fld Reg.queCmdStatus 7 4 = r ∧ (s.queEnd r).bit Reg.queCmdStatus 0 = false ∧
    (s.queEnd r).que = { s.que with cmd := none } ∧ ∀ x, x ≠ Reg.queCmdStatus → x ≠ Reg.quePinned → (s.queEnd r).live x = s.live x := by
  let u : State := { s with que := { s.que with cmd := none } }
  have live (x : Nat) : (s.queEnd r).live x = if x = Reg.quePinned then _ else (u.putStatus Reg.queCmdStatus (16 * r)).live x :=
    State.live_setLive (State.putStatus_liveWf (s := u) wf _ _) _ _ x
  have shown : (s.queEnd r).live Reg.queCmdStatus % 2 ^ 24 = 16 * r % 2 ^ 24 := by
    rw [live, if_neg (by decide)]
    exact State.putStatus_low (s := u) wf _ _
  refine ⟨?_, ?_, ?_, fun x h1 h2 => ?_⟩
  · rw [State.fld, bitsOf_low shown (by decide), bitsOf_eq_div_mod]
    omega
  · rw [State.bit, bitOf_low shown (by decide), bitOf, Nat.testBit_zero]
    simp
    omega
  · exact (State.setLive_que ..).trans (State.putStatus_que u _ _)
  · rw [live, if_neg h2]
    exact State.live_putStatus (s := u) wf _ _ _ h1

/-! ### Regions (R282, R286) -/

theorem field_slice {bs : List Byte} {off n : Nat} (h : off + n ≤ 256) : field (slice bs 0 256) off n = field bs off n := by rw [field, slice_slice h]; rfl

theorem byteAt_slice {bs : List Byte} {off : Nat} (h : off < 256) : byteAt (slice bs 0 256) off = byteAt bs off := by
  simp [byteAt, slice_eq_map, List.getD_eq_getElem?_getD, h]

/-- An entry reads alike from the data registers. -/
theorem regionOf_slice (b : List Byte) (gen : Nat) : regionOf (slice b 0 256) gen = regionOf b gen := by
  simp only [regionOf, field_slice (show 0 + 6 ≤ 256 by decide), field_slice (show 6 + 2 ≤ 256 by decide), field_slice (show 8 + 8 ≤ 256 by decide),
    field_slice (show 20 + 2 ≤ 256 by decide), byteAt_slice (show 18 < 256 by decide)]

theorem regionOk_slice (b : List Byte) : regionOk (slice b 0 256) = regionOk b := by
  simp only [regionOk, field_slice (show 0 + 6 ≤ 256 by decide), field_slice (show 6 + 2 ≤ 256 by decide), field_slice (show 8 + 8 ≤ 256 by decide),
    byteAt_slice (show 7 < 256 by decide), byteAt_slice (show 18 < 256 by decide), byteAt_slice (show 19 < 256 by decide), slice_slice (show 22 + 10 ≤ 256 by decide)]

section
variable {s u : State} {i n : Nat} {image : Option (List Byte)}

/-- REGISTER_REGION and DEREGISTER_REGION go to their own operations. -/
theorem Committed.queCommand_region {action : Nat} (h : Committed s action i image u) (idle : s.bit Reg.queCmdStatus 0 = false) (hi : i < 65536) :
    (action = 5 → u.queCommand = u.queRegister i u.queData) ∧ (action = 6 → u.queCommand = u.queDeregister i) := by
  have free : u.bit Reg.queCmdStatus 0 = false := (congrArg (bitOf · 0) (h.others _ (by decide) (by decide) (.inl (by decide)))).trans idle
  have place : u.fld Reg.queCmdQpn 19 0 % 65536 = i := by rw [h.place, Nat.mod_eq_of_lt hi]
  unfold State.queCommand
  rw [if_neg (by simp [free])]
  constructor <;> rintro rfl <;> simp [h.action, place]

/-- A region's entry is written. -/
def State.putRegion (s : State) (i : Nat) (g : Region) : State := { s with que := { s.que with regions := tabPut s.que.regions i g } }

theorem State.queRegister_free {b : List Byte} (ok : regionOk b = true) (free : ∀ g, tabGet s.que.regions i = some g → g.valid = false ∧ g.gen < 0xFFFF) :
    s.queRegister i b = (s.putRegion i (regionOf b (s.regionGen i))).queEnd QueResult.ok := by
  have gen : s.regionGen i ≠ 0xFFFF ∧ ((tabGet s.que.regions i).map (·.valid)).getD false = false := by
    unfold State.regionGen
    cases e : tabGet s.que.regions i with
    | none => decide
    | some g => exact ⟨Nat.ne_of_lt (free g e).2, (free g e).1⟩
  unfold State.queRegister
  dsimp only
  rw [gen.2, if_neg (by decide), if_neg gen.1, ok, if_neg (by decide)]
  rfl

theorem State.queRegister_used {g : Region} (stands : tabGet s.que.regions i = some g) (valid : g.valid = true) (b : List Byte) :
    s.queRegister i b = s.queEnd QueResult.inUse := by
  unfold State.queRegister
  rw [stands]
  exact if_pos valid

theorem State.queDeregister_valid {g : Region} (stands : tabGet s.que.regions i = some g) (valid : g.valid = true) (tenant : g.part ≠ sysPart) :
    s.queDeregister i = (s.putRegion i { g with valid := false, gen := min 0xFFFF (g.gen + 1) }).queEnd QueResult.ok := by
  unfold State.queDeregister
  rw [stands]
  dsimp only
  rw [valid, if_neg (by decide), if_neg tenant]
  rfl

theorem State.queDeregister_none (none : tabGet s.que.regions i = none) : s.queDeregister i = s.queEnd QueResult.badState := by
  unfold State.queDeregister
  rw [none]

/-- What a command on region i leaves: its entry, every other entry and every context as before, and its result. -/
def RegionEnds (s : State) (c : Instr) (i result : Nat) (after : Option Region) : Prop :=
  Completes c s [.live, .staged, .que] (fun t =>
    tabGet t.que.regions i = after ∧ (∀ k, k ≠ i → tabGet t.que.regions k = tabGet s.que.regions k) ∧ t.que.qps = s.que.qps ∧
    t.fld Reg.queCmdStatus 7 4 = result ∧ t.bit Reg.queCmdStatus 0 = false)

variable {c : Instr} {action result : Nat} (h : Committed s action i image u)
include h

/-- A command that is refused leaves every region. -/
theorem Committed.region_refused (he : exec c s = .next (u.queEnd result)) (hr : result < 16) {after : Option Region} (stands : tabGet s.que.regions i = after) :
    RegionEnds s c i result after := by
  obtain ⟨shown, idle, que, _⟩ := State.queEnd_spec h.wf hr
  have same : u.que = s.que := h.keeps.same .que (by decide)
  have hm : Within [Blk.live, .staged, .que] [.live, .staged, .que] := Within.refl _
  refine completes_keeps he (State.queEnd_keeps (hm.sub rfl) _ (h.keeps.mono (hm.sub rfl))) ⟨?_, fun k _ => ?_, ?_, shown, idle⟩
  all_goals rw [que, same]
  exact stands

/-- A command that is done has written its entry. -/
theorem Committed.region_written {g : Region} (he : exec c s = .next ((u.putRegion i g).queEnd QueResult.ok)) : RegionEnds s c i 0 (some g) := by
  obtain ⟨shown, idle, que, _⟩ := State.queEnd_spec (s := u.putRegion i g) h.wf (r := 0) (by decide)
  have same : u.que = s.que := h.keeps.same .que (by decide)
  have hm : Within [Blk.live, .staged, .que] [.live, .staged, .que] := Within.refl _
  have kept : Keeps [.live, .staged, .que] s (u.putRegion i g) := keeps_mk (h := h.keeps.mono (hm.sub rfl))
  refine completes_keeps he (State.queEnd_keeps (hm.sub rfl) _ kept) ⟨?_, fun k hk => ?_, ?_, shown, idle⟩
  all_goals rw [que]
  · exact tabGet_tabPut_same ..
  · exact (tabGet_tabPut_other _ _ hk).trans (by rw [same])
  · exact (congrArg QueSt.qps same :)

end

/-- Settles O35: the commit of the registers, then each operation by its entry. -/
theorem regionsAreRegisteredAndDeregistered : Obligations.RegionsAreRegisteredAndDeregistered := by
  unfold Obligations.RegionsAreRegisteredAndDeregistered
  intro s i entry inv running serves idle hi
  have small : i < 2 ^ 20 := by omega
  have registering := State.queCommitted_spec inv.liveWf (show 5 < 16 by decide) small (some entry)
  have deregistering := State.queCommitted_spec inv.liveWf (show 6 < 16 by decide) small none
  set u := s.queCommitted 5 i (some entry) with hu
  set v := s.queCommitted 6 i none with hv
  have registers : exec (.registerRegion i entry) s = .next (u.queRegister i (slice entry 0 256)) := by
    show Host.Outcome.next (s.queRow 5 i (some entry)) = _
    rw [State.queRow_idle running serves idle, (registering.queCommand_region idle hi).1 rfl, registering.data entry rfl]
  have deregisters : exec (.deregisterRegion i) s = .next (v.queDeregister i) := by
    show Host.Outcome.next (s.queRow 6 i none) = _
    rw [State.queRow_idle running serves idle, (deregistering.queCommand_region idle hi).2 rfl]
  have atU : tabGet u.que.regions i = tabGet s.que.regions i := congrArg (fun x : QueSt => tabGet x.regions i) (registering.keeps.same .que (by decide))
  have atV : tabGet v.que.regions i = tabGet s.que.regions i := congrArg (fun x : QueSt => tabGet x.regions i) (deregistering.keeps.same .que (by decide))
  refine ⟨fun _ ok free => ?_, fun g stands valid => ?_, fun g stands valid tenant => ?_, fun none => ?_⟩
  · have gen : u.regionGen i = s.regionGen i := by rw [State.regionGen, atU]; rfl
    rw [State.queRegister_free ((regionOk_slice entry).trans ok) (by rw [atU]; exact free), regionOf_slice, gen] at registers
    exact registering.region_written registers
  · rw [State.queRegister_used (atU.trans stands) valid] at registers
    exact registering.region_refused registers (by decide) stands
  · rw [State.queDeregister_valid (atV.trans stands) valid tenant] at deregisters
    exact deregistering.region_written deregisters
  · rw [State.queDeregister_none (atV.trans none)] at deregisters
    exact deregistering.region_refused deregisters (by decide) none

end Sys2Proof.Machine
end

section
/-!
QUE_CMD on a queue pair whose context is on chip: Table 11.4's transitions, pins, and the context's image (R270, R277, R281, R297).
-/

namespace Sys2Proof.Machine

open Sys2Proof

/-- A command on a context on chip has been committed, and the context marked as used last: beside its registers only the order of eviction differs. -/
structure OnChip (s v : State) : Prop where
  wf : v.liveWf
  keeps : Keeps [.live, .staged, .que] s v
  qps : v.que.qps = s.que.qps
  regions : v.que.regions = s.que.regions
  ops : v.que.ops = s.que.ops
  others : ∀ x, x ≠ Reg.queCmd → x ≠ Reg.queCmdQpn → (x < Reg.queCmdData ∨ Reg.queCmdData + 256 ≤ x) → v.live x = s.live x

theorem State.touchQp_que (s : State) (k : Nat) : ∃ r l, s.touchQp k = { s with que := { s.que with resident := r, leaving := l } } := by
  unfold State.touchQp
  split <;> exact ⟨_, _, rfl⟩

theorem Committed.onChip {s u : State} {action n : Nat} {image : Option (List Byte)} (h : Committed s action n image u) (k : Nat) : OnChip s (u.touchQp k) := by
  have same : u.que = s.que := h.keeps.same .que (by decide)
  have hm : Within [Blk.live, .staged, .que] [.live, .staged, .que] := Within.refl _
  have kept := State.touchQp_keeps (hm.sub rfl) k (h.keeps.mono (hm.sub rfl))
  obtain ⟨r, l, eq⟩ := u.touchQp_que k
  rw [eq] at kept ⊢
  exact ⟨h.wf, kept, (congrArg QueSt.qps same :), (congrArg QueSt.regions same :), (congrArg QueSt.ops same :), h.others⟩

/-- A row of QUE_CMD on a context on chip, its image naming no ring, goes to the command's own operation. -/
theorem State.queRow_onChip {s : State} {action n : Nat} {q : Qp} {image : Option (List Byte)} (wf : s.liveWf) (running : s.running = true) (serves : s.inService = true)
    (idle : s.bit Reg.queCmdStatus 0 = false) (hn : n < ringBase) (hq : s.qp n = some q) (known : action ∈ [1, 2, 3, 4, 7, 8])
    (noRing : action = 1 ∨ action = 2 → bitOf (field (s.queCommitted action n image).queData 0 4) 25 = false) :
    s.queRow action n image = ((s.queCommitted action n image).touchQp n).queOnChip action n q (s.queCommitted action n image).queData := by
  have small : action < 16 ∧ action ≠ 0 ∧ action ≠ 5 ∧ action ≠ 6 ∧ ¬ 8 < action := by
    simp only [List.mem_cons, List.not_mem_nil, or_false] at known
    omega
  have h := State.queCommitted_spec wf small.1 hn image
  have free : (s.queCommitted action n image).bit Reg.queCmdStatus 0 = false :=
    (congrArg (bitOf · 0) (h.others _ (by decide) (by decide) (.inl (by decide)))).trans idle
  have there : (s.queCommitted action n image).qp n = some q := (State.qp_of_que (h.keeps.same .que (by decide)) n).trans hq
  rw [State.queRow_idle running serves idle]
  generalize s.queCommitted action n image = u at *
  have ring : (if action = 1 ∨ action = 2 then bitOf (field u.queData 0 4) 25 else (u.qp (ringBase + n)).isSome && (u.qp n).isNone) = false := by
    split
    · exact noRing ‹_›
    · rw [there, Option.isNone_some, Bool.and_false]
  unfold State.queCommand
  rw [if_neg (by simp [free])]
  dsimp only
  rw [h.action, h.place, if_neg small.2.1, if_neg small.2.2.1, if_neg small.2.2.2.1, if_neg small.2.2.2.2, ring]
  simp only [Bool.false_eq_true, if_false, there]

/-- What a command on queue pair n leaves: its context, every other context and every region as before, and its result. -/
def QpEnds (s : State) (n : Nat) (i : Instr) (result : Nat) (after : Option Qp) : Prop :=
  Completes i s [.live, .staged, .que, .hst, .outbox] (fun t =>
    t.qp n = after ∧ (∀ k, k ≠ n → t.qp k = s.qp k) ∧ t.que.regions = s.que.regions ∧ t.fld Reg.queCmdStatus 7 4 = result ∧ t.bit Reg.queCmdStatus 0 = false)

section
variable {s v : State} (h : OnChip s v)
include h

theorem OnChip.qp (k : Nat) : v.qp k = s.qp k := congrArg (tabGet · k) h.qps

theorem OnChip.map : v.map = s.map := h.keeps.same .map (by decide)

theorem OnChip.minutes : v.minutes = s.minutes := congrArg (· / 1024) (h.keeps.same .now (by decide) : v.now = s.now)

theorem OnChip.edgeOk (q : Qp) : v.edgeOk q = s.edgeOk q := by
  unfold State.edgeOk State.memb State.sliceOf
  rw [h.map]

theorem OnChip.endpointOk (q : Qp) : v.endpointOk q = s.endpointOk q := by
  unfold State.endpointOk
  rw [show v.sec = s.sec from h.keeps.same .sec (by decide)]

theorem OnChip.nodeEnt (n : Nat) : v.nodeEnt n = s.nodeEnt n := by
  unfold State.nodeEnt
  rw [h.map]

theorem OnChip.urgentClass (c : Nat) : v.urgentClass c = s.urgentClass c :=
  have above : Reg.queCmdData + 256 ≤ Reg.schClassCfg + 4 * c := Nat.le_add_right_of_le (by decide)
  congrArg (bitOf · 20) (h.others _ (Nat.ne_of_gt (Nat.lt_of_lt_of_le (by decide) above)) (Nat.ne_of_gt (Nat.lt_of_lt_of_le (by decide) above)) (.inr above))

theorem OnChip.pinLimit : v.fld Reg.queCfg 10 0 = s.fld Reg.queCfg 10 0 :=
  congrArg (bitsOf · 10 0) (h.others _ (by decide) (by decide) (.inl (by decide)))

theorem OnChip.pinnedCount : v.pinnedCount = s.pinnedCount := by
  unfold State.pinnedCount
  rw [h.qps]

section
variable {n action : Nat} {q : Qp} {b : List Byte} {i : Instr} {w : State} {result : Nat} (he : exec i s = .next (v.queOnChip action n q b))
  (ended : v.queOnChip action n q b = w.queEnd result) (wf : w.liveWf) (regions : w.que.regions = v.que.regions)
include he ended wf regions

/-- A command ends with its result, the contexts as they stood before its end. -/
theorem OnChip.ends (small : result < 16) {after : Option Qp} (own : w.qp n = after) (rest : ∀ k, k ≠ n → w.qp k = v.qp k) : QpEnds s n i result after := by
  have hm : Within [Blk.live, .staged, .que, .hst, .outbox] [.live, .staged, .que, .hst, .outbox] := Within.refl _
  have kept := State.queOnChip_keeps hm action n q b (h.keeps.mono (hm.sub rfl))
  obtain ⟨shown, idle, que, _⟩ := State.queEnd_spec wf small
  rw [ended] at he kept
  refine completes_keeps he kept ⟨?_, fun k hk => ?_, ?_, shown, idle⟩
  · exact (congrArg (fun x : QueSt => tabGet x.qps n) que).trans own
  · exact ((congrArg (fun x : QueSt => tabGet x.qps k) que).trans (rest k hk)).trans (h.qp k)
  · exact ((congrArg QueSt.regions que).trans regions).trans h.regions

/-- A command that has written its context ends OK. -/
theorem OnChip.puts (small : result < 16) {x : Qp} (put : w.que.qps = tabPut v.que.qps n x) : QpEnds s n i result (some x) :=
  h.ends he ended wf regions small ((congrArg (tabGet · n) put).trans (tabGet_tabPut_same ..))
    (fun k hk => (congrArg (tabGet · k) put).trans (tabGet_tabPut_other _ _ hk))

end

section
variable {n action : Nat} {q : Qp} {b : List Byte} {i : Instr} (he : exec i s = .next (v.queOnChip action n q b)) (hq : s.qp n = some q)
include he hq

/-- A command that is refused leaves its context. -/
theorem OnChip.refused {result : Nat} (ended : v.queOnChip action n q b = v.queEnd result) (small : result < 16) : QpEnds s n i result (some q) :=
  h.ends he ended h.wf rfl small ((h.qp n).trans hq) (fun _ _ => rfl)

end

end

/-! ### CREATE_QP (R277) -/

/-- What CREATE_QP makes of its image. -/
def State.createdQp (s : State) (n : Qp) : Qp := { n with state := .init, pinned := false, urgent := s.urgentClass n.cls, last := s.minutes, depth := 0 }

/-- A context created stands on chip, and no packet waits for it. -/
def State.withCreated (s : State) (k : Nat) (n : Qp) : State :=
  { s with que := { s.que with qps := tabPut s.que.qps k (s.createdQp n), resident := if s.que.resident.contains k then s.que.resident else s.que.resident ++ [k]
                               named := tabDel s.que.named k } }

section
variable {v : State} {n : Nat} {q : Qp} {b : List Byte}

theorem State.queOnChip_create (hn : n < ringBase) (there : v.qp n = some q) (free : q.state = .free) (ok : imageOk b (qpOfImage b) = true)
    (noRing : bitOf (field b 0 4) 25 = false) : v.queOnChip 1 n q b =
      if v.edgeOk (qpOfImage b) = true ∧ v.endpointOk (qpOfImage b) = true then (v.withCreated n (qpOfImage b)).refreshQue.queEnd QueResult.ok
      else v.queEnd QueResult.badField := by
  have ring : (qpOfImage b).ring = false := noRing
  show v.queCreate (n % ringBase) b = _
  rw [Nat.mod_eq_of_lt hn]
  unfold State.queCreate State.withCreated State.createdQp State.putQp
  cases edge : v.edgeOk (qpOfImage b) <;> cases endpoint : v.endpointOk (qpOfImage b) <;> simp [ring, there, free, ok, edge, endpoint]

/-! ### MODIFY_QP (Table 11.4) -/

variable (used : q.state ≠ .free)
include used

theorem State.queOnChip_modify : v.queOnChip 2 n q b = v.queModify n q b := by
  unfold State.queOnChip
  simp [used]

theorem State.queOnChip_modify_system (system : q.part = sysPart) : v.queOnChip 2 n q b = v.queEnd QueResult.badState := by
  rw [State.queOnChip_modify used, State.queModify]
  exact if_pos system

theorem State.queOnChip_modify_refused (tenant : q.part ≠ sysPart) (barred : ¬(v.edgeOk (qpOfImage b) = true ∧ v.endpointOk (qpOfImage b) = true)) :
    v.queOnChip 2 n q b = v.queEnd QueResult.badField := by
  rw [State.queOnChip_modify used, State.queModify]
  dsimp only
  rw [if_neg tenant, if_pos]
  cases edge : v.edgeOk (qpOfImage b) with
  | false => exact .inr (.inl rfl)
  | true => exact .inr (.inr (.inl (by simpa [edge] using barred)))

/-- An image by which a tenant's queue pair may be modified. -/
structure MayModify (v : State) (q : Qp) (b : List Byte) : Prop where
  tenant : q.part ≠ sysPart
  ring : q.ring = false
  ok : imageOk b (qpOfImage b) = true
  edge : v.edgeOk (qpOfImage b) = true
  endpoint : v.endpointOk (qpOfImage b) = true
  part : (qpOfImage b).part = q.part

/-- An INIT queue pair that is made READY by an image. -/
def Qp.readied (q n : Qp) (minutes : Nat) : Qp :=
  { q.modified n with state := .ready, peer := n.peer, peerQpn := n.peerQpn, sndNext := n.sndNext, sndUna := n.sndNext, rcvNext := n.rcvNext, tc := n.tc, tp := n.tp
                      last := minutes }

/-- The node of a peer is a member again. -/
def State.rejoined (s : State) (peer : Nat) : Bool := match s.nodeEnt peer with | some e => e.state == .member || e.state == .draining | none => false

/-- A context is cleared: its responses leave the store, and no packet waits for it. -/
def State.clearQp (s : State) (k : Nat) (q : Qp) : State := (({ s with que := { s.que with named := tabDel s.que.named k } } : State).freeResponses q).putQp k q.cleared

section
variable (may : MayModify v q b)
include may

omit used in
/-- Past the checks of the image the transition decides (Table 11.4). -/
theorem MayModify.passes : q.part ≠ sysPart ∧
    ¬((!imageOk b (qpOfImage b)) = true ∨ (!v.edgeOk (qpOfImage b)) = true ∨ (!v.endpointOk (qpOfImage b)) = true ∨ (qpOfImage b).part ≠ q.part ∨
      (q.ring = true ∧ (!v.ringOk n (qpOfImage b)) = true)) :=
  ⟨may.tenant, by simp [may.ok, may.edge, may.endpoint, may.part, may.ring]⟩

theorem State.queOnChip_modify_ready (from_ : q.state = .init) (to_ : (qpOfImage b).state = .ready) :
    v.queOnChip 2 n q b = (v.putQp n (q.readied (qpOfImage b) v.minutes)).queEnd QueResult.ok := by
  rw [State.queOnChip_modify used, State.queModify]
  dsimp only
  rw [if_neg may.tenant, if_neg may.passes.2, from_, to_]
  rfl

theorem State.queOnChip_modify_drain (from_ : q.state = .ready) (to_ : (qpOfImage b).state = .drain) :
    v.queOnChip 2 n q b = (v.putQp n { q with state := .drain }).queEnd QueResult.ok := by
  rw [State.queOnChip_modify used, State.queModify]
  dsimp only
  rw [if_neg may.tenant, if_neg may.passes.2, from_, to_]

theorem State.queOnChip_modify_init (from_ : q.state = .error ∨ q.state = .fenced) (to_ : (qpOfImage b).state = .init) :
    v.queOnChip 2 n q b = if q.state = .fenced ∧ (!v.rejoined q.peer) = true then v.queEnd QueResult.badState else (v.clearQp n q).queEnd QueResult.ok := by
  rw [State.queOnChip_modify used, State.queModify]
  dsimp only
  rw [if_neg may.tenant, if_neg may.passes.2, to_]
  rcases from_ with e | e <;> rw [e] <;> rfl

theorem State.queOnChip_modify_illegal (other : q.state = .drain ∨ (qpOfImage b).state = .error ∨ (qpOfImage b).state = .fenced) :
    v.queOnChip 2 n q b = v.queEnd QueResult.badState := by
  rw [State.queOnChip_modify used, State.queModify]
  dsimp only
  rw [if_neg may.tenant, if_neg may.passes.2]
  rcases other with e | e | e
  · rw [e]
  all_goals
    rw [e]
    cases q.state <;> rfl

end

/-! ### DESTROY_QP, READ_QP, PIN and UNPIN (R277, R281) -/

theorem State.queOnChip_destroy : v.queOnChip 3 n q b = v.queDestroy n q := by
  unfold State.queOnChip
  simp [used]

/-- A context taken off the chip. -/
def State.withoutQp (s : State) (k : Nat) : State :=
  { s with que := { s.que with qps := tabDel s.que.qps k, resident := s.que.resident.filter (· != k), named := tabDel s.que.named k } }

omit used in
theorem State.queDestroy_idle (tenant : q.part ≠ sysPart) (noRing : q.ring = false) (inbound : q.inbound = 0) (depth : q.depth = 0) (sent : q.sent = [])
    (ops : v.que.ops = []) (drained : q.state = .drain) :
    v.queDestroy n q = ((v.hostWrite 0 (v.ctxAddr n) (Qp.zero.image n)).withoutQp n).refreshQue.queEnd QueResult.ok := by
  unfold State.queDestroy
  rw [if_neg tenant, if_neg (by simp [inbound, depth, ops]), if_neg (by simp [drained]), if_neg (by simp [sent])]
  simp only [noRing, Bool.false_eq_true, if_false]
  rfl

theorem State.queOnChip_pin (on : Bool) : v.queOnChip (if on then 7 else 8) n q b =
    if on = true ∧ q.pinned = false ∧ v.fld Reg.queCfg 10 0 ≤ v.pinnedCount then v.queEnd QueResult.pinLimit
    else (v.putQp n { q with pinned := on }).queEnd QueResult.ok := by
  unfold State.queOnChip State.quePin
  cases on <;> simp [used]

end

/-- Every register a command's end does not show is as before; so is the data that READ_QP puts. -/
theorem State.queOnChip_read {v : State} (wf : v.liveWf) {n : Nat} (hn : n < ringBase) (q : Qp) (b : List Byte) :
    v.queOnChip 4 n q b = (v.putQueData (q.image n)).queEnd QueResult.ok ∧
    ∀ i, i < 64 → ((v.putQueData (q.image n)).queEnd QueResult.ok).live (Reg.queCmdData + 4 * i) = field (q.image n) (4 * i) 4 % 2 ^ 32 := by
  obtain ⟨dataWf, live⟩ := State.putQueData_regs wf (q.image n)
  obtain ⟨_, _, _, others⟩ := State.queEnd_spec dataWf (r := QueResult.ok) (by decide)
  refine ⟨?_, fun i hi => ?_⟩
  · unfold State.queOnChip
    simp [Nat.mod_eq_of_lt hn]
  · have above : Reg.quePinned < Reg.queCmdData + 4 * i := Nat.lt_of_lt_of_le (by decide) (Nat.le_add_right ..)
    have above' : Reg.queCmdStatus < Reg.queCmdData + 4 * i := Nat.lt_of_lt_of_le (by decide) (Nat.le_add_right ..)
    rw [others _ (Nat.ne_of_gt above') (Nat.ne_of_gt above), live, if_pos ⟨i, hi, rfl⟩, Nat.add_sub_cancel_left]

/-! ### The commands -/

/-- In service, with no command under way, and the context of queue pair n on chip. -/
structure TakesCommand (s : State) (n : Nat) (q : Qp) : Prop where
  inv : s.Inv
  running : s.running = true
  serves : s.inService = true
  idle : s.bit Reg.queCmdStatus 0 = false
  low : n < ringBase
  there : s.qp n = some q

/-- What a create and a modify may name as their endpoint (R302, R360). -/
abbrev State.mayReach (s : State) (n : Qp) : Prop := s.edgeOk n = true ∧ s.endpointOk n = true

section
variable {s : State} {n : Nat} {q : Qp} (h : TakesCommand s n q)
include h

/-- A command without an image meets its context on chip. -/
theorem TakesCommand.bare {action : Nat} (known : action ∈ [3, 4, 7, 8]) : ∃ v b, OnChip s v ∧ s.queRow action n none = v.queOnChip action n q b := by
  have small : action < 16 ∧ action ∈ [1, 2, 3, 4, 7, 8] ∧ ¬(action = 1 ∨ action = 2) := by
    simp only [List.mem_cons, List.not_mem_nil, or_false] at known ⊢
    omega
  exact ⟨_, _, (State.queCommitted_spec h.inv.liveWf small.1 h.low none).onChip n,
    State.queRow_onChip h.inv.liveWf h.running h.serves h.idle h.low h.there small.2.1 fun a => absurd a small.2.2⟩

/-- A command with an image that names no ring meets its context on chip, and its image. -/
theorem TakesCommand.imaged {action : Nat} {image : List Byte} (known : action ∈ [1, 2]) (whole : image.length = 256) (noRing : bitOf (field image 0 4) 25 = false) :
    ∃ v, OnChip s v ∧ s.queRow action n (some image) = v.queOnChip action n q image := by
  have small : action < 16 ∧ action ∈ [1, 2, 3, 4, 7, 8] := by
    simp only [List.mem_cons, List.not_mem_nil, or_false] at known ⊢
    omega
  have committed := State.queCommitted_spec h.inv.liveWf small.1 h.low (some image)
  have data : (s.queCommitted action n (some image)).queData = image := (committed.data image rfl).trans (slice_whole whole)
  have row := State.queRow_onChip h.inv.liveWf h.running h.serves h.idle h.low h.there (image := some image) small.2 fun _ => by rw [data, noRing]
  rw [data] at row
  exact ⟨_, committed.onChip n, row⟩

theorem createQp_ends {image : List Byte} (whole : image.length = 256) (free : q.state = .free) (ok : imageOk image (qpOfImage image) = true)
    (noRing : bitOf (field image 0 4) 25 = false) :
    (s.mayReach (qpOfImage image) → QpEnds s n (.createQp n image) 0 (some (s.createdQp (qpOfImage image)))) ∧
    (¬s.mayReach (qpOfImage image) → QpEnds s n (.createQp n image) 2 (some q)) := by
  obtain ⟨v, on, row⟩ := h.imaged (action := 1) (by decide) whole noRing
  have he : exec (.createQp n image) s = .next (v.queOnChip 1 n q image) := congrArg _ row
  have created := State.queOnChip_create h.low ((on.qp n).trans h.there) free ok noRing
  rw [on.edgeOk, on.endpointOk] at created
  refine ⟨fun may => ?_, fun barred => on.refused he h.there (created.trans (if_neg barred)) (by decide)⟩
  have made : v.createdQp (qpOfImage image) = s.createdQp (qpOfImage image) := by
    rw [State.createdQp, on.urgentClass, on.minutes]
    rfl
  have que : (v.withCreated n (qpOfImage image)).refreshQue.que = (v.withCreated n (qpOfImage image)).que := State.setStatus_que ..
  exact on.puts he (created.trans (if_pos may)) (State.putStatus_liveWf (s := v.withCreated n _) on.wf _ _) (congrArg QueSt.regions que :) (by decide)
    ((congrArg QueSt.qps que).trans (congrArg (tabPut v.que.qps n) made))

section
variable {image : List Byte} (whole : image.length = 256) (noRing : bitOf (field image 0 4) 25 = false) (used : q.state ≠ .free)
include whole noRing used

theorem modifyQp_system (system : q.part = sysPart) : QpEnds s n (.modifyQp n image) 1 (some q) := by
  obtain ⟨v, on, row⟩ := h.imaged (action := 2) (by decide) whole noRing
  exact on.refused (congrArg _ row) h.there (State.queOnChip_modify_system used system) (by decide)

theorem modifyQp_barred (tenant : q.part ≠ sysPart) (barred : ¬s.mayReach (qpOfImage image)) : QpEnds s n (.modifyQp n image) 2 (some q) := by
  obtain ⟨v, on, row⟩ := h.imaged (action := 2) (by decide) whole noRing
  refine on.refused (congrArg _ row) h.there (State.queOnChip_modify_refused used tenant ?_) (by decide)
  rwa [on.edgeOk, on.endpointOk]

variable (may : MayModify s q image)
include may

omit used in
/-- A modify whose image lets it be judged meets the same checks on chip. -/
theorem TakesCommand.judged : ∃ v, OnChip s v ∧ MayModify v q image ∧ exec (.modifyQp n image) s = .next (v.queOnChip 2 n q image) := by
  obtain ⟨v, on, row⟩ := h.imaged (action := 2) (by decide) whole noRing
  exact ⟨v, on, ⟨may.tenant, may.ring, may.ok, (on.edgeOk _).trans may.edge, (on.endpointOk _).trans may.endpoint, may.part⟩, congrArg _ row⟩

theorem modifyQp_ready (from_ : q.state = .init) (to_ : (qpOfImage image).state = .ready) :
    QpEnds s n (.modifyQp n image) 0 (some (q.readied (qpOfImage image) s.minutes)) := by
  obtain ⟨v, on, judged, he⟩ := h.judged whole noRing may
  have ended := State.queOnChip_modify_ready (n := n) used judged from_ to_
  rw [on.minutes] at ended
  exact on.puts he ended on.wf rfl (by decide) rfl

theorem modifyQp_drain (from_ : q.state = .ready) (to_ : (qpOfImage image).state = .drain) : QpEnds s n (.modifyQp n image) 0 (some { q with state := .drain }) := by
  obtain ⟨v, on, judged, he⟩ := h.judged whole noRing may
  exact on.puts he (State.queOnChip_modify_drain used judged from_ to_) on.wf rfl (by decide) rfl

theorem modifyQp_init (from_ : q.state = .error ∨ q.state = .fenced) (to_ : (qpOfImage image).state = .init) :
    (q.state = .fenced ∧ s.rejoined q.peer = false → QpEnds s n (.modifyQp n image) 1 (some q)) ∧
    (¬(q.state = .fenced ∧ s.rejoined q.peer = false) → QpEnds s n (.modifyQp n image) 0 (some q.cleared)) := by
  obtain ⟨v, on, judged, he⟩ := h.judged whole noRing may
  have ended := State.queOnChip_modify_init (n := n) used judged from_ to_
  have rejoined : v.rejoined q.peer = s.rejoined q.peer := by
    rw [State.rejoined, on.nodeEnt]
    rfl
  simp only [rejoined, Bool.not_eq_true'] at ended
  exact ⟨fun fenced => on.refused he h.there (ended.trans (if_pos fenced)) (by decide),
    fun back => on.puts (w := v.clearQp n q) he (ended.trans (if_neg back)) on.wf rfl (by decide) rfl⟩

theorem modifyQp_illegal (other : q.state = .drain ∨ (qpOfImage image).state = .error ∨ (qpOfImage image).state = .fenced) :
    QpEnds s n (.modifyQp n image) 1 (some q) := by
  obtain ⟨v, on, judged, he⟩ := h.judged whole noRing may
  exact on.refused he h.there (State.queOnChip_modify_illegal used judged other) (by decide)

end

theorem destroyQp_system (used : q.state ≠ .free) (system : q.part = sysPart) : QpEnds s n (.destroyQp n) 1 (some q) := by
  obtain ⟨v, b, on, row⟩ := h.bare (action := 3) (by decide)
  exact on.refused (congrArg _ row) h.there ((State.queOnChip_destroy used).trans (if_pos system)) (by decide)

theorem destroyQp_idle (tenant : q.part ≠ sysPart) (noRing : q.ring = false) (inbound : q.inbound = 0) (depth : q.depth = 0) (sent : q.sent = [])
    (ops : s.que.ops = []) (drained : q.state = .drain) : QpEnds s n (.destroyQp n) 0 none := by
  obtain ⟨v, b, on, row⟩ := h.bare (action := 3) (by decide)
  have used : q.state ≠ .free := by rw [drained]; decide
  have ended : v.queOnChip 3 n q b = _ := (State.queOnChip_destroy used).trans (State.queDestroy_idle tenant noRing inbound depth sent (on.ops.trans ops) drained)
  have written : OnlyHost v (v.hostWrite 0 (v.ctxAddr n) (Qp.zero.image n)) := State.hostWrite_onlyHost ..
  generalize v.hostWrite 0 (v.ctxAddr n) (Qp.zero.image n) = u at ended written
  have que : u.que = v.que := by rw [written]
  have wf : u.liveWf := State.liveWf_of_live on.wf (congrArg RegFile.live written.regs)
  have left : (u.withoutQp n).refreshQue.que = (u.withoutQp n).que := State.setStatus_que ..
  have qp (k : Nat) : (u.withoutQp n).refreshQue.qp k = if k = n then none else v.qp k :=
    (State.qp_of_que left k).trans ((tabGet_tabDel u.que.qps n k).trans (by rw [que]; rfl))
  exact on.ends (congrArg _ row) ended (State.putStatus_liveWf (s := u.withoutQp n) wf _ _) ((congrArg QueSt.regions left).trans (congrArg QueSt.regions que :)) (by decide)
    ((qp n).trans (if_pos rfl)) (fun k hk => (qp k).trans (if_neg hk))

theorem readQp_ends : QpEnds s n (.readQp n) 0 (some q) ∧
    Completes (.readQp n) s [.live, .staged, .que] (fun t => ∀ i, i < 64 → t.live (Reg.queCmdData + 4 * i) = field (q.image n) (4 * i) 4 % 2 ^ 32) := by
  obtain ⟨v, b, on, row⟩ := h.bare (action := 4) (by decide)
  obtain ⟨ended, data⟩ := State.queOnChip_read on.wf h.low q b
  have he : exec (.readQp n) s = .next (v.queOnChip 4 n q b) := congrArg _ row
  have hm : Within [Blk.live, .staged, .que] [.live, .staged, .que] := Within.refl _
  have que : (v.putQueData (q.image n)).que = v.que := (State.putQueData_keeps (Within.refl _) (q.image n) (.refl v)).same .que (by decide)
  refine ⟨on.ends he ended (State.putQueData_regs on.wf _).1 (congrArg QueSt.regions que) (by decide) ?_ (fun k _ => State.qp_of_que que k), ?_⟩
  · exact ((State.qp_of_que que n).trans (on.qp n)).trans h.there
  · rw [ended] at he
    exact completes_keeps he (State.queEnd_keeps (hm.sub rfl) _ (State.putQueData_keeps (hm.sub rfl) _ on.keeps)) data

theorem pin_ends (used : q.state ≠ .free) :
    (q.pinned = false ∧ s.fld Reg.queCfg 10 0 ≤ s.pinnedCount → QpEnds s n (.pin n) 3 (some q)) ∧
    (¬(q.pinned = false ∧ s.fld Reg.queCfg 10 0 ≤ s.pinnedCount) → QpEnds s n (.pin n) 0 (some { q with pinned := true })) := by
  obtain ⟨v, b, on, row⟩ := h.bare (action := 7) (by decide)
  have he : exec (.pin n) s = .next (v.queOnChip 7 n q b) := congrArg _ row
  have ended := State.queOnChip_pin (n := n) (v := v) (b := b) used true
  rw [on.pinLimit, on.pinnedCount] at ended
  exact ⟨fun full => on.refused he h.there (ended.trans (if_pos ⟨rfl, full⟩)) (by decide),
    fun room => on.puts he (ended.trans (if_neg fun full => room full.2)) on.wf rfl (by decide) rfl⟩

theorem unpin_ends (used : q.state ≠ .free) : QpEnds s n (.unpin n) 0 (some { q with pinned := false }) := by
  obtain ⟨v, b, on, row⟩ := h.bare (action := 8) (by decide)
  exact on.puts (congrArg _ row) ((State.queOnChip_pin used false).trans (if_neg (by simp))) on.wf rfl (by decide) rfl

end

/-! ### The obligation -/

/-- Settles O34: each command by its lemma above. -/
theorem queuePairCommandsFollowTheirTable : Obligations.QueuePairCommandsFollowTheirTable := by
  unfold Obligations.QueuePairCommandsFollowTheirTable
  intro s n q inv running serves idle low there ends allowed
  have h : TakesCommand s n q := ⟨inv, running, serves, idle, low, there⟩
  refine ⟨fun image whole free ok noRing => createQp_ends h whole free ok noRing, fun image used tenant whole noRing barred => modifyQp_barred h whole noRing used tenant barred,
    fun image whole noRing used tenant own ok may part => ?_, fun image whole noRing used system => ⟨modifyQp_system h whole noRing used system, destroyQp_system h used system⟩,
    destroyQp_idle h, readQp_ends h, fun used room => ?_, fun used unpinned full => (pin_ends h used).1 ⟨unpinned, full⟩, unpin_ends h⟩
  · have judged : MayModify s q image := ⟨tenant, own, ok, may.1, may.2, part⟩
    have to_init (from_ : q.state = .error ∨ q.state = .fenced) (to_ : (qpOfImage image).state = .init) := modifyQp_init h whole noRing used judged from_ to_
    refine ⟨modifyQp_ready h whole noRing used judged, modifyQp_drain h whole noRing used judged,
      fun from_ to_ => (to_init (.inl from_) to_).2 (fun fenced => by simp [from_] at fenced), fun from_ to_ gone => (to_init (.inr from_) to_).1 ⟨from_, ?_⟩,
      fun from_ to_ ⟨e, entry, member⟩ => (to_init (.inr from_) to_).2 (fun fenced => ?_), modifyQp_illegal h whole noRing used judged⟩
    · unfold State.rejoined
      cases entry : s.nodeEnt q.peer with
      | none => rfl
      | some e => simp [gone e entry]
    · have back : s.rejoined q.peer = true := by
        rw [State.rejoined, entry]
        simpa using member
      exact Bool.noConfusion (back.symm.trans fenced.2)
  · refine (pin_ends h used).2 fun full => ?_
    rcases room with pinned | room
    · exact Bool.noConfusion (pinned.symm.trans full.1)
    · omega

end Sys2Proof.Machine
end

section
/-!
Transport: acknowledgements, NAKs, waits, retries and answers of a queue pair on chip, and what its packets leave on the links (R272–R276, R280).
-/

namespace Sys2Proof.Machine

open Sys2Proof

/-! ### What a packet sent leaves on the links (R256, R260, R271) -/

/-- Alike in all that says where a packet goes: the links, the map and the count. -/
structure SameWays (s t : State) : Prop where
  lnk : t.lnk = s.lnk
  map : t.map = s.map
  now : t.now = s.now

section
variable {s t : State} (h : SameWays s t)
include h

theorem SameWays.nextHop (inLink : Option Nat) (p : Packet) : t.nextHop inLink p = s.nextHop inLink p := by
  unfold State.nextHop State.wraps State.routeEnt State.myEnt State.sizes State.nodeEnt
  rw [h.lnk, h.map]

theorem SameWays.routeOut (inLink : Option Nat) (x : Hop × Packet) : (t.routeOut inLink x).lnk = (s.routeOut inLink x).lnk := by
  have link : t.link = s.link := funext (State.link_of_lnk h.lnk)
  have up : t.linkUp = s.linkUp := funext fun n => by rw [State.linkUp, link]; rfl
  have enqueue (n : Nat) (here : Bool) (p : Packet) : (t.enqueue n here p).lnk = (s.enqueue n here p).lnk := by
    simp only [State.enqueue, State.setLink, link, h.lnk]
  have unroutable (u : State) : u.unroutable.lnk = u.lnk := (State.unroutable_keeps (Within.refl _) (.refl u)).same .lnk (by decide)
  obtain ⟨hop, p⟩ := x
  cases hop with
  | edge n =>
    simp only [State.routeOut, up, h.lnk, h.now]
    split
    · split
      · exact enqueue ..
      · rfl
    · rw [unroutable, unroutable, h.lnk]
  | out code x =>
    simp only [State.routeOut, State.upFrom, up, h.lnk, h.now]
    split
    · exact enqueue ..
    · rfl
  | consume => exact h.lnk
  | drop => exact h.lnk

theorem SameWays.routePacket (inLink : Option Nat) (p : Packet) : (t.routePacket inLink p).lnk = (s.routePacket inLink p).lnk := by
  have unroutable (u : State) : u.unroutable.lnk = u.lnk := (State.unroutable_keeps (Within.refl _) (.refl u)).same .lnk (by decide)
  have leaves (x : Packet) : t.mayLeave inLink.isNone x = s.mayLeave inLink.isNone x := by rw [State.mayLeave, h.map]; rfl
  unfold State.routePacket
  rw [h.nextHop, leaves]
  obtain ⟨hop, x⟩ := s.nextHop inLink p
  cases hop with
  | consume =>
    dsimp only
    split
    · exact h.lnk
    · show { t.lnk with handover := t.lnk.handover ++ [x] } = _
      rw [h.lnk]
  | drop => exact ((unroutable t).trans h.lnk).trans (unroutable s).symm
  | edge n =>
    dsimp only
    split
    · exact h.routeOut ..
    · exact h.lnk
  | out code y =>
    dsimp only
    split
    · exact h.routeOut ..
    · exact h.lnk

/-- A packet sent from either goes alike. -/
theorem SameWays.sendTransport (cls dst dqp tkind psn tflags part hint sqp : Nat) (msg : List Byte) :
    SameWays (s.sendTransport cls dst dqp tkind psn tflags part hint sqp msg) (t.sendTransport cls dst dqp tkind psn tflags part hint sqp msg) := by
  have kept (u : State) := State.sendTransport_keeps (Within.refl _) cls dst dqp tkind psn tflags part hint sqp msg (.refl u)
  have map (u : State) : (u.sendTransport cls dst dqp tkind psn tflags part hint sqp msg).map = u.map := (kept u).same .map (by decide)
  have now (u : State) : (u.sendTransport cls dst dqp tkind psn tflags part hint sqp msg).now = u.now := (kept u).same .now (by decide)
  refine ⟨?_, (map t).trans (h.map.trans (map s).symm), (now t).trans (h.now.trans (now s).symm)⟩
  unfold State.sendTransport State.inject State.routeEnt
  rw [h.lnk, h.map]
  exact h.routePacket ..

theorem SameWays.coalesce (dst dqp : Nat) : SameWays (s.coalesce dst dqp) (t.coalesce dst dqp) := by
  refine ⟨?_, h.map, h.now⟩
  simp only [State.coalesce, h.lnk, h.map]

omit h in
theorem SameWays.foldl {f : State → OutMsgQ → State} (hf : ∀ s t m, SameWays s t → SameWays (f s m) (f t m)) (l : List OutMsgQ) :
    ∀ {s t : State}, SameWays s t → SameWays (l.foldl f s) (l.foldl f t) := by
  induction l with
  | nil => exact id
  | cons m l ih => exact fun h => ih (hf _ _ m h)

/-- Messages resent from either go alike, where their contexts hold the same ones for the same peer. -/
theorem SameWays.resendFrom {k : Nat} {q x : Qp} (hq : s.qp k = some q) (hx : t.qp k = some x) (sent : x.sent = q.sent) (peer : x.peer = q.peer) (peerQpn : x.peerQpn = q.peerQpn)
    (urgent : x.urgent = q.urgent) (part : x.part = q.part) (psn : Nat) : (t.resendFrom k psn).lnk = (s.resendFrom k psn).lnk := by
  unfold State.resendFrom
  rw [hq, hx]
  dsimp only
  rw [sent, peer, peerQpn, urgent, part]
  generalize List.filter _ q.sent = l
  refine SameWays.lnk (SameWays.foldl (fun _ _ _ g => ?_) l h)
  exact g.sendTransport ..

end

/-! ### A packet for a queue pair on chip (R272, R280) -/

/-- A context READY on chip, for which no packet or request waits and on which no NOT_READY is outstanding. -/
structure Attends (s : State) (k : Nat) (q : Qp) : Prop where
  there : s.qp k = some q
  ready : q.state = .ready
  low : k < ringBase
  fetched : tabGet s.que.fetches k = none
  named : tabGet s.que.named k = none
  later : ∀ m ∈ s.que.later, m.qpn ≠ k

/-- What a packet or a timer leaves of queue pair k: its context, every other one as before, and more. -/
def QpLeft (s : State) (k : Nat) (i : Instr) (m : List Blk) (x : Qp) (more : State → Prop) : Prop :=
  Completes i s m (fun t => t.qp k = some x ∧ (∀ j, j ≠ k → t.qp j = s.qp j) ∧ more t)

section
variable {s t : State} {k : Nat} {q x : Qp}

/-- Contexts after one has been written and what followed has left the queue pairs. -/
theorem qpLeft_put {i : Instr} {m : List Blk} {more : State → Prop} (he : exec i s = .next t) (hk : Keeps m s t) (qps : t.que.qps = tabPut s.que.qps k x) (hm : more t) : QpLeft s k i m x more := by
  have qp (j : Nat) : t.qp j = tabGet (tabPut s.que.qps k x) j := congrArg (tabGet · j) qps
  exact completes_keeps he hk ⟨(qp k).trans (tabGet_tabPut_same ..), fun j hj => (qp j).trans (tabGet_tabPut_other _ _ hj), hm⟩

/-- Contexts as they were. -/
theorem qpLeft_same {i : Instr} {m : List Blk} {more : State → Prop} (he : exec i s = .next t) (hk : Keeps m s t) (there : s.qp k = some x) (qps : t.que.qps = s.que.qps) (hm : more t) :
    QpLeft s k i m x more := by
  have qp (j : Nat) : t.qp j = s.qp j := congrArg (tabGet · j) qps
  exact completes_keeps he hk ⟨(qp k).trans there, fun j _ => qp j, hm⟩

/-- Contexts after a function has been applied to one. -/
theorem qpLeft_map {i : Instr} {m : List Blk} {more : State → Prop} {f : Qp → Qp} (he : exec i s = .next t) (hk : Keeps m s t) (there : s.qp k = some q) (qps : t.que.qps = tabMap s.que.qps k f) (hm : more t) :
    QpLeft s k i m (f q) more := by
  have qp (j : Nat) : t.qp j = if j = k then (s.qp k).map f else s.qp j := (congrArg (tabGet · j) qps).trans (State.qp_mapQp s k j f)
  refine completes_keeps he hk ⟨?_, fun j hj => ?_, hm⟩
  · rw [qp, if_pos rfl, there, Option.map_some]
  · rw [qp, if_neg hj]

/-- The queue block exchanged for another. -/
theorem Keeps.putQue {m : List Blk} {z : State} (hm : Within [.que] m) (h : Keeps m z s) (que : QueSt) : Keeps m z { s with que := que } := keeps_mk (h := h)

theorem State.partMismatch_recorded (wf : s.liveWf) : s.partMismatch.bit Reg.queEvent 1 = true := by
  rw [State.partMismatch]
  exact State.bit_raiseBit_same (s := s.discard _) wf _ (by decide)

theorem State.touchQp_ways (s : State) (k : Nat) : SameWays s (s.touchQp k) := by
  obtain ⟨r, l, eq⟩ := s.touchQp_que k
  rw [eq]
  exact ⟨rfl, rfl, rfl⟩

theorem State.touchQp_qps (s : State) (k : Nat) : (s.touchQp k).que.qps = s.que.qps := by
  obtain ⟨r, l, eq⟩ := s.touchQp_que k
  rw [eq]

theorem State.touchQp_ops (s : State) (k : Nat) : (s.touchQp k).que.ops = s.que.ops := by
  obtain ⟨r, l, eq⟩ := s.touchQp_que k
  rw [eq]

theorem State.touchQp_later (s : State) (k : Nat) : (s.touchQp k).que.later = s.que.later := by
  obtain ⟨r, l, eq⟩ := s.touchQp_que k
  rw [eq]

theorem State.touchQp_respBytes (s : State) (k : Nat) : (s.touchQp k).que.respBytes = s.que.respBytes := by
  obtain ⟨r, l, eq⟩ := s.touchQp_que k
  rw [eq]

theorem State.touchQp_kept (s : State) (k : Nat) : Keeps [.que] s (s.touchQp k) := s.touchQp_keeps (Within.refl _) k (.refl s)

/-- A context written changes no way of a packet. -/
theorem SameWays.putQp (h : SameWays s t) (k : Nat) (q : Qp) : SameWays s (t.putQp k q) := ⟨h.lnk, h.map, h.now⟩

/-- Messages resent after a context has been written. -/
theorem qpLeft_resent {u v : State} {i : Instr} {m : List Blk} {n : Nat} (he : exec i s = .next ((u.putQp k x).resendFrom k n)) (kept : Keeps m s u)
    (hm : Within [.live, .run, .que, .lnk, .hst, .sum, .outbox] m) (qps : u.que.qps = s.que.qps)
    (ways : SameWays v u) (hv : v.qp k = some q) (same : x.sent = q.sent ∧ x.peer = q.peer ∧ x.peerQpn = q.peerQpn ∧ x.urgent = q.urgent ∧ x.part = q.part) :
    QpLeft s k i m x (fun t => t.now = u.now ∧ t.lnk = (v.resendFrom k n).lnk) := by
  obtain ⟨sent, peer, peerQpn, urgent, part⟩ := same
  have resent := State.resendFrom_keeps (Within.refl _) k n (.refl (u.putQp k x))
  refine qpLeft_put he (State.resendFrom_keeps (hm.sub rfl) _ _ (State.putQp_keeps (hm.sub rfl) _ _ kept)) ?_ ⟨resent.same .now (by decide), ?_⟩
  · exact (congrArg QueSt.qps (resent.same .que (by decide))).trans (congrArg (tabPut · k x) qps)
  · exact (ways.putQp k x).resendFrom hv (State.qp_putQp_same ..) sent peer peerQpn urgent part n

/-- No request of the node waits for a queue pair: none goes out. -/
theorem State.sendLater_of_none (none : ∀ m ∈ s.que.later, m.qpn ≠ k) : s.sendLater k = s := by
  rw [State.sendLater, List.filter_eq_nil_iff.mpr fun m hm => by simpa using none m hm, List.foldl_nil]

/-- A context after an ACK of PSN n at tick now (R274, R275, R280). -/
def Qp.ackedTo (q : Qp) (n now : Nat) : Qp :=
  let rest := q.sent.filter (fun m => !psnLe m.psn n)
  let wait := q.nrWait.filter (fun w => rest.any (fun m => m.psn == w.2))
  { q with sent := rest, sndUna := (n + 1) % 2 ^ 24, retries := 0, timeout := 8192, progressed := true, nrWait := wait,
           deadline := if rest.isEmpty ∨ wait.isSome then none else some (now + 8192) }

theorem State.ackUpTo_ready {n : Nat} (ready : q.state = .ready) (covers : q.sent.filter (fun m => psnLe m.psn n) ≠ []) (later : ∀ m ∈ s.que.later, m.qpn ≠ k) :
    s.ackUpTo k q n = { s with que := { s.que with
      qps := tabPut s.que.qps k (q.ackedTo n s.now)
      respBytes := s.que.respBytes - respOf (q.sent.filter (fun m => psnLe m.psn n))
      ops := s.que.ops.filter (fun o => !endsAtAck k (q.sent.filter (fun m => psnLe m.psn n)) o) } } := by
  have after : q.ackedTo n s.now = { q.ackedTo n s.now with
      deadline := if (q.ackedTo n s.now).sent.isEmpty ∨ (q.ackedTo n s.now).nrWait.isSome ∨ q.state = .error then none else some (s.now + 8192) } := by
    simp only [Qp.ackedTo, ready, reduceCtorEq, or_false]
  rw [State.ackUpTo, if_neg (by simpa using covers), after]
  exact State.sendLater_of_none later

/-- A context that has failed: what it sent for itself is dropped (R276). -/
def Qp.failed (q : Qp) (st : QpState) : Qp := { q with state := st, deadline := none, nrWait := none, sent := q.sent.filter (fun m => m.tkind == 1) }

theorem State.failQp_of_noOps {st : QpState} (there : s.qp k = some q) (ops : ∀ o ∈ s.que.ops, o.2.qpn ≠ k) :
    s.failQp k st = { s with que := { s.que with later := s.que.later.filter (fun m => m.qpn != k), qps := tabMap s.que.qps k (·.failed st) } } := by
  have gone : s.que.ops.filter (fun o => o.2.qpn == k) = [] := List.filter_eq_nil_iff.mpr fun o ho => by simpa using ops o ho
  rw [State.failQp, gone, there]
  rfl

end

section
variable {s : State} {q : Qp} {p : Tpkt} (h : Attends s p.dqp q)
include h

/-- A packet of the context's partition goes on with it, marked as used last; one of another is recorded. -/
theorem Attends.answerCtx : s.answerCtx p = if p.part = q.part then .ok (q, s.touchQp p.dqp) else .error (s.touchQp p.dqp).partMismatch := by
  have waits : s.coldWaits p.dqp = false := by
    rw [State.coldWaits, h.there, h.fetched]
    simp
  have named : (s.touchQp p.dqp).passNamed p.dqp p.psn (coldOf p).carries = some (s.touchQp p.dqp) := by
    obtain ⟨r, l, eq⟩ := s.touchQp_que p.dqp
    rw [eq, State.passNamed]
    dsimp only
    rw [h.named]
  unfold State.answerCtx State.packetCtx
  show (if ringBase ≤ p.dqp then _ else if s.coldWaits p.dqp = true then _ else _) = _
  rw [if_neg (Nat.not_le.mpr h.low), waits, if_neg (by decide)]
  show (match s.qp p.dqp with | none => _ | some q => _) = _
  rw [h.there]
  show (if q.state = .free then _ else if p.part ≠ q.part then _ else match (s.touchQp p.dqp).passNamed p.dqp p.psn (coldOf p).carries with | none => _ | some s => _) = _
  rw [named, h.ready, if_neg (by decide)]
  by_cases part : p.part = q.part
  · rw [if_neg (not_not.mpr part), if_pos part]
    rfl
  · rw [if_pos part, if_neg part]
    rfl

/-- An ACK of the context's partition that covers a message. -/
theorem Attends.transportAck (run : s.running = true) (tag : bitOf p.tflags 2 = false) (part : p.part = q.part) (covers : q.sent.filter (fun m => psnLe m.psn p.psn) ≠ []) :
    QpLeft s p.dqp (.transportAck p) [.que] (q.ackedTo p.psn s.now) (fun t => t.que.respBytes = s.que.respBytes - respOf (q.sent.filter (fun m => psnLe m.psn p.psn))) := by
  have he : exec (.transportAck p) s = .next ((s.touchQp p.dqp).ackUpTo p.dqp q p.psn) := by
    show Host.Outcome.next (if s.running then s.ackIn p else s) = _
    rw [if_pos run, State.ackIn, tag, if_neg (by decide), h.answerCtx, if_pos part]
  rw [State.ackUpTo_ready h.ready covers ((s.touchQp_later p.dqp).symm ▸ h.later)] at he
  refine qpLeft_put he ((s.touchQp_kept p.dqp).putQue (Within.refl _) _) ?_ (congrArg (· - _) (s.touchQp_respBytes p.dqp))
  show tabPut (s.touchQp p.dqp).que.qps _ (q.ackedTo p.psn (s.touchQp p.dqp).now) = _
  rw [s.touchQp_qps, (s.touchQp_ways p.dqp).now]

/-- An ACK of another partition. -/
theorem Attends.transportAck_mismatch (inv : s.Inv) (run : s.running = true) (tag : bitOf p.tflags 2 = false) (part : p.part ≠ q.part) :
    QpLeft s p.dqp (.transportAck p) [.live, .que, .hst, .sum, .outbox] q (fun t => t.bit Reg.queEvent 1 = true) := by
  have he : exec (.transportAck p) s = .next (s.touchQp p.dqp).partMismatch := by
    show Host.Outcome.next (if s.running then s.ackIn p else s) = _
    rw [if_pos run, State.ackIn, tag, if_neg (by decide), h.answerCtx, if_neg part]
  have kept : Keeps [.live, .que, .hst, .sum, .outbox] s (s.touchQp p.dqp) := (s.touchQp_kept p.dqp).mono rfl
  have que (u : State) : (u.raiseBit Reg.queEvent 1).que = u.que := (State.raiseBit_keeps (Within.refl _) _ _ (.refl u)).same .que (by decide)
  refine qpLeft_same he (State.partMismatch_keeps (Within.refl _) kept) h.there ?_ (State.partMismatch_recorded (kept.inv inv).liveWf)
  rw [State.partMismatch, que]
  exact s.touchQp_qps p.dqp

/-- A SEQUENCE NAK. -/
theorem Attends.transportNak_sequence (run : s.running = true) (part : p.part = q.part) (syndrome : p.hint % 256 = 1) :
    QpLeft s p.dqp (.transportNak p) [.live, .run, .que, .lnk, .hst, .sum, .outbox] { q with retries := if q.progressed then q.retries else min 7 (q.retries + 1), progressed := false }
      (fun t => t.lnk = (s.resendFrom p.dqp p.psn).lnk) := by
  have he : exec (.transportNak p) s = .next (((s.touchQp p.dqp).putQp p.dqp { q with retries := if q.progressed then q.retries else min 7 (q.retries + 1), progressed := false }).resendFrom p.dqp p.psn) := by
    show Host.Outcome.next (if s.running then s.nakIn p else s) = _
    rw [if_pos run, State.nakIn, h.answerCtx, if_pos part]
    dsimp only
    rw [syndrome, if_neg (by decide), if_pos ⟨rfl, by simp [h.ready]⟩]
  exact Completes.imp (qpLeft_resent he ((s.touchQp_kept p.dqp).mono rfl) (Within.refl _) (s.touchQp_qps _) (s.touchQp_ways _) h.there ⟨rfl, rfl, rfl, rfl, rfl⟩) fun _ ⟨here, others, _, lnk⟩ => ⟨here, others, lnk⟩

/-- A QP_ERROR NAK on a queue pair without operations of the node. -/
theorem Attends.transportNak_error (run : s.running = true) (part : p.part = q.part) (syndrome : p.hint % 256 = 2) (ops : ∀ o ∈ s.que.ops, o.2.qpn ≠ p.dqp) :
    QpLeft s p.dqp (.transportNak p) [.que] (q.failed .error) (fun t => t.que.ops = s.que.ops) := by
  have he : exec (.transportNak p) s = .next ((s.touchQp p.dqp).failQp p.dqp .error) := by
    show Host.Outcome.next (if s.running then s.nakIn p else s) = _
    rw [if_pos run, State.nakIn, h.answerCtx, if_pos part]
    dsimp only
    rw [syndrome, if_pos rfl, if_pos h.ready]
  rw [State.failQp_of_noOps ((congrArg (tabGet · p.dqp) (s.touchQp_qps p.dqp)).trans h.there) ((s.touchQp_ops p.dqp).symm ▸ ops), s.touchQp_qps] at he
  refine qpLeft_map (f := (·.failed .error)) he ((s.touchQp_kept p.dqp).putQue (Within.refl _) _) h.there rfl ?_
  exact s.touchQp_ops p.dqp

/-- A NOT_READY with messages outstanding. -/
theorem Attends.transportNotReady (run : s.running = true) (part : p.part = q.part) (sent : q.sent ≠ []) :
    QpLeft s p.dqp (.transportNotReady p) [.que] { q with nrWait := some (s.now + 1024 * p.hint, p.psn), deadline := none } (fun _ => True) := by
  have he : exec (.transportNotReady p) s = .next ((s.touchQp p.dqp).putQp p.dqp { q with nrWait := some (s.now + 1024 * p.hint, p.psn), deadline := none }) := by
    show Host.Outcome.next (if s.running then s.notReadyIn p else s) = _
    rw [if_pos run, State.notReadyIn, h.answerCtx, if_pos part]
    dsimp only
    rw [if_neg (by simpa [h.ready] using sent), (s.touchQp_ways p.dqp).now]
  exact qpLeft_put he (State.putQp_keeps (Within.refl _) _ _ (s.touchQp_kept p.dqp)) (congrArg (tabPut · p.dqp _) (s.touchQp_qps p.dqp)) trivial

/-- A RESPONSE with the PSN expected that answers no operation of the node. -/
theorem Attends.transportResponse (run : s.running = true) (part : p.part = q.part) (next : p.psn % 2 ^ 24 = q.rcvNext) (op : s.opOfReply p.dqp p.msg = none) :
    QpLeft s p.dqp (.transportResponse p) [.live, .run, .que, .lnk, .hst, .sum, .outbox] { q with rcvNext := (q.rcvNext + 1) % 2 ^ 24, nakSent := false }
      (fun t => t.lnk = ((s.coalesce q.peer q.peerQpn).sendTransport 3 q.peer q.peerQpn 2 p.psn (2 * b2n q.urgent) q.part 0 p.dqp []).lnk) := by
  let x : Qp := { q with rcvNext := (q.rcvNext + 1) % 2 ^ 24, nakSent := false }
  let u := (s.touchQp p.dqp).putQp p.dqp x
  have delta : psnDelta p.psn q.rcvNext = 0 := by
    simp only [psnDelta, pow2]
    omega
  have acks (m : List Blk) (hm : Within [.live, .run, .lnk, .hst, .sum, .outbox] m) {z y : State} (k : Keeps m z y) := State.sendAck_keeps hm p.dqp x p.psn k
  have acked := acks _ (Within.refl _) (.refl u)
  have que : (u.sendAck p.dqp x p.psn).que = u.que := acked.same .que (by decide)
  have touched : u.sch = s.sch := (s.touchQp_kept p.dqp).same .sch (by decide)
  have sch : (u.sendAck p.dqp x p.psn).sch = u.sch := acked.same .sch (by decide)
  have noOp : (u.sendAck p.dqp x p.psn).opOfReply p.dqp p.msg = none := by
    unfold State.opOfReply
    rw [que, sch, touched]
    show List.find? _ (s.touchQp p.dqp).que.ops = none
    rw [s.touchQp_ops]
    exact op
  have he : exec (.transportResponse p) s = .next (u.sendAck p.dqp x p.psn) := by
    show Host.Outcome.next (if s.running then s.responseIn p else s) = _
    rw [if_pos run, State.responseIn, h.answerCtx, if_pos part]
    dsimp only
    rw [if_neg (by simp [h.ready]), State.psnVerdict, delta]
    show Host.Outcome.next (match (u.sendAck p.dqp x p.psn).opOfReply p.dqp p.msg with | none => _ | some o => _) = _
    rw [noOp]
    rfl
  refine qpLeft_put he (acks _ (by rfl) (State.putQp_keeps (by rfl) _ _ ((s.touchQp_kept p.dqp).mono rfl))) ((congrArg QueSt.qps que).trans (congrArg (tabPut · p.dqp x) (s.touchQp_qps p.dqp))) ?_
  exact (SameWays.sendTransport (((s.touchQp_ways p.dqp).putQp p.dqp x).coalesce q.peer q.peerQpn) ..).lnk

/-- The wait of a NOT_READY ends. -/
theorem Attends.notReadyWaitExpiry {w psn : Nat} (wait : q.nrWait = some (w, psn)) :
    QpLeft s p.dqp (.notReadyWaitExpiry p.dqp) [.now, .live, .run, .que, .lnk, .hst, .sum, .outbox] { q with nrWait := none, deadline := some (max s.now w + q.timeout), progressed := false }
      (fun t => t.now = max s.now w ∧ t.lnk = ((s.advanceTo w).resendFrom p.dqp psn).lnk) := by
  refine qpLeft_resent (u := s.advanceTo w) (v := s.advanceTo w) ?_ (State.advanceTo_keeps (by rfl) w (.refl s)) rfl rfl ⟨rfl, rfl, rfl⟩ h.there ⟨rfl, rfl, rfl, rfl, rfl⟩
  show (match s.qp p.dqp with | none => _ | some q => _) = _
  rw [h.there]
  show (match q.nrWait with | none => _ | some (t, psn) => _) = _
  rw [wait]
  rfl

theorem Attends.retryTimeout {d : Nat} (due : q.deadline = some d) : exec (.qpRetryTimeout p.dqp) s =
    if 7 ≤ q.retries then .next ((s.advanceTo d).exhaust p.dqp)
    else .next (((s.advanceTo d).putQp p.dqp { q with retries := q.retries + 1, timeout := min 1048576 (2 * q.timeout), deadline := some ((s.advanceTo d).now + min 1048576 (2 * q.timeout)), progressed := false }).resendFrom p.dqp q.sndUna) := by
  have low : ¬holderBase ≤ p.dqp := fun high => absurd (high.trans_lt h.low) (by decide)
  show (if holderBase ≤ p.dqp then _ else match s.qp p.dqp with | none => _ | some q => _) = _
  rw [if_neg low, h.there]
  show (match q.deadline with | none => _ | some t => _) = _
  rw [due]

/-- A retry timeout with retries left. -/
theorem Attends.qpRetryTimeout_again {d : Nat} (due : q.deadline = some d) (left : q.retries < 7) :
    QpLeft s p.dqp (.qpRetryTimeout p.dqp) [.now, .live, .run, .que, .lnk, .hst, .sum, .outbox]
      { q with retries := q.retries + 1, timeout := min 1048576 (2 * q.timeout), deadline := some (max s.now d + min 1048576 (2 * q.timeout)), progressed := false }
      (fun t => t.now = max s.now d ∧ t.lnk = ((s.advanceTo d).resendFrom p.dqp q.sndUna).lnk) := by
  refine qpLeft_resent (u := s.advanceTo d) (v := s.advanceTo d) ?_ (State.advanceTo_keeps (by rfl) d (.refl s)) rfl rfl ⟨rfl, rfl, rfl⟩ h.there ⟨rfl, rfl, rfl, rfl, rfl⟩
  rw [h.retryTimeout due, if_neg (by omega)]
  rfl

/-- The eighth retry timeout. -/
theorem Attends.qpRetryTimeout_last {d : Nat} (inv : s.Inv) (due : q.deadline = some d) (left : 7 ≤ q.retries) (ops : ∀ o ∈ s.que.ops, o.2.qpn ≠ p.dqp) :
    QpLeft s p.dqp (.qpRetryTimeout p.dqp) [.now, .live, .run, .que, .hst, .sum, .outbox] (q.failed .error) (fun t => t.now = max s.now d ∧ t.bit Reg.queEvent 0 = true) := by
  let u := ((s.advanceTo d).raiseBit Reg.queEvent 0).bump (Reg.queStat + 12)
  have raised := State.raiseBit_keeps (Within.refl _) Reg.queEvent 0 (.refl (s.advanceTo d))
  have que : u.que = s.que := raised.same .que (by decide)
  have kept : Keeps [.now, .live, .run, .que, .hst, .sum, .outbox] s u := State.bump_keeps (by rfl) _ _ (State.raiseBit_keeps (by rfl) _ _ (State.advanceTo_keeps (by rfl) d (.refl s)))
  have he : exec (.qpRetryTimeout p.dqp) s = .next (u.failQp p.dqp .error) := by
    rw [h.retryTimeout due, if_pos left]
    rfl
  rw [State.failQp_of_noOps ((State.qp_of_que que _).trans h.there) (que.symm ▸ ops), que] at he
  exact qpLeft_map (f := (·.failed .error)) he (kept.putQue (by rfl) _) h.there rfl ⟨raised.same .now (by decide), State.bit_raiseBit_same (s := s.advanceTo d) inv.liveWf Reg.queEvent (by decide)⟩

end

/-- Settles O44: each packet and timer of a context that attends is carried out on it, and on no other. -/
theorem transportAcknowledgesRetriesAndAnswers : Obligations.TransportAcknowledgesRetriesAndAnswers := by
  unfold Obligations.TransportAcknowledgesRetriesAndAnswers
  intro s p q inv run there ready low fetched named later
  have h : Attends s p.dqp q := ⟨there, ready, low, fetched, named, later⟩
  exact ⟨h.transportAck run, h.transportAck_mismatch inv run,
    fun part => ⟨h.transportNak_sequence run part, h.transportNak_error run part, h.transportNotReady run part, fun next _ => h.transportResponse run part next⟩,
    fun _ _ => h.notReadyWaitExpiry, fun _ due => ⟨h.qpRetryTimeout_again due, h.qpRetryTimeout_last inv due⟩⟩

end Sys2Proof.Machine
end

section
/-!
Calendars: what a released ATTEST leaves (R293, R294, R353).
-/

namespace Sys2Proof.Machine

open Sys2Proof

/-! ### A request taken out of its calendar (R290, R293) -/

/-- A request leaves the held ones; besides, only the aggregates of tenants change in the scheduler. -/
theorem State.unhold_sch (s : State) (r : Req) : ∃ aggs, (s.unhold r).sch = { s.sch with held := s.sch.held.filter (fun x => x.rid != r.rid), aggs := aggs } := by
  unfold State.unhold
  simp only [State.refreshPool, State.setStatus_sch]
  split
  · exact ⟨_, rfl⟩
  · exact ⟨_, rfl⟩

theorem State.refreshPool_status {s : State} (wf : s.liveWf) : s.refreshPool.fld Reg.schStatus 16 0 = s.refreshPool.sch.held.length % 2 ^ 17 := by
  unfold State.refreshPool
  rw [State.setStatus_sch]
  exact State.fld_setStatus wf (by decide) (by decide)

theorem State.unhold_status {s : State} (inv : s.Inv) (r : Req) : (s.unhold r).fld Reg.schStatus 16 0 = (s.unhold r).sch.held.length % 2 ^ 17 := by
  unfold State.unhold
  refine State.refreshPool_status ?_
  split
  · exact inv.liveWf
  · exact inv.liveWf

/-- What an ATTEST released from its calendar leaves, its parts of the scheduler aside that its calendar keeps. -/
structure Attested (s t : State) (r : Req) : Prop where
  sch : ∃ aggs, t.sch = { s.sch with held := s.sch.held.filter (fun x => x.rid != r.rid), aggs := aggs }
  waiting : t.sec.waiting = List.append s.sec.waiting [⟨{ r with gen := some (r.gen.getD s.genLow) }, s.now, Msg.tenant r.msg, none⟩]
  status : t.fld Reg.schStatus 16 0 = t.sch.held.length % 2 ^ 17

theorem State.queueNonce_sec (s : State) (slot : Nat) (nonce : List Byte) :
    ∃ a b, s.queueNonce slot nonce = { s with sec := { s.sec with nonces := a, nonces2 := b } } := by
  unfold State.queueNonce
  split
  · exact ⟨_, _, rfl⟩
  · exact ⟨_, _, rfl⟩

theorem State.dispatch_attest (s : State) {r : Req} (op : r.op = .attest) : s.dispatch r = s.startAttest r := by
  have span : r.op ≠ .spanWork := by simp [op]
  have homed : ¬r.op.homed = true := by simp [op, Op.homed]
  rw [State.dispatch, if_neg span, if_neg homed, State.execute, op]

/-- An ATTEST released: it waits for the report, its nonce queued. -/
theorem State.release_attest {s : State} (inv : s.Inv) {r : Req} (op : r.op = .attest) : Attested s (s.release r) r := by
  have kept := State.unhold_keeps (Within.refl _) r (.refl s)
  have map : (s.unhold r).map = s.map := kept.same .map (by decide)
  have now : (s.unhold r).now = s.now := kept.same .now (by decide)
  have sec : (s.unhold r).sec = s.sec := kept.same .sec (by decide)
  obtain ⟨a, b, queued⟩ := (s.unhold r).queueNonce_sec (Msg.tenant r.msg) (slice r.msg 40 32)
  have released : s.release r = (s.unhold r).startAttest r := (s.unhold r).dispatch_attest op
  rw [State.startAttest, queued] at released
  rw [released]
  refine ⟨s.unhold_sch r, ?_, State.unhold_status inv r⟩
  show (s.unhold r).sec.waiting ++ [⟨{ r with gen := some (r.gen.getD (s.unhold r).genLow) }, (s.unhold r).now, Msg.tenant r.msg, none⟩] = _
  rw [State.genLow, map, now, sec]
  rfl

/-- The scheduler exchanged for another. -/
theorem Keeps.putSch {m : List Blk} {z s : State} (hm : Within [.sch] m) (h : Keeps m z s) (sch : SchSt) : Keeps m z { s with sch := sch } := keeps_mk (h := h)

/-! ### A class's minute (R293) -/

section
variable {s : State} {cls b : Nat} {r : Req} (runs : s.dispatching = true) (day : s.mode ≠ 3)
include runs day

section
variable (mine : s.owner = cls) (low : cls < 24) (going : (s.calNow cls).stopped = false)
include mine low going

theorem calendarRelease_eq : exec (.calendarRelease cls) s = match s.headAfter cls (s.calNow cls).last with
    | none => .next (s.putCal cls (s.calNow cls))
    | some (b, r) =>
      if (s.calNow cls).budget < r.cost ∧ (s.calNow cls).budget < s.fld (Reg.schClassCfg + 4 * cls) 19 0 then .next (s.putCal cls { s.calNow cls with stopped := true })
      else .next ((s.putCal cls { s.calNow cls with budget := (s.calNow cls).budget - r.cost, last := b }).release r) := by
  show (if !s.dispatching ∨ s.mode = 3 ∨ s.owner ≠ cls ∨ 24 ≤ cls then _ else if (s.calNow cls).stopped = true then _ else _) = _
  exact (if_neg (by simp [runs, day, mine, low])).trans (if_neg (by simp [going]))

theorem calendarRelease_none (head : s.headAfter cls (s.calNow cls).last = none) :
    Completes (.calendarRelease cls) s [.sch] (fun t => t.sch = { s.sch with cals := tabPut s.sch.cals cls (s.calNow cls) }) := by
  have he := calendarRelease_eq runs day mine low going
  rw [head] at he
  exact completes_keeps he (State.putCal_keeps (Within.refl _) _ _ (.refl s)) rfl

theorem calendarRelease_stops (head : s.headAfter cls (s.calNow cls).last = some (b, r)) (dear : (s.calNow cls).budget < r.cost)
    (touched : (s.calNow cls).budget < s.fld (Reg.schClassCfg + 4 * cls) 19 0) :
    Completes (.calendarRelease cls) s [.sch] (fun t => t.sch = { s.sch with cals := tabPut s.sch.cals cls { s.calNow cls with stopped := true } }) := by
  have he := calendarRelease_eq runs day mine low going
  rw [head] at he
  dsimp only at he
  rw [if_pos ⟨dear, touched⟩] at he
  exact completes_keeps he (State.putCal_keeps (Within.refl _) _ _ (.refl s)) rfl

theorem calendarRelease_attest (inv : s.Inv) (head : s.headAfter cls (s.calNow cls).last = some (b, r))
    (within : r.cost ≤ (s.calNow cls).budget ∨ s.fld (Reg.schClassCfg + 4 * cls) 19 0 ≤ (s.calNow cls).budget) (op : r.op = .attest) :
    Completes (.calendarRelease cls) s (partsOf (.calendarRelease cls)) (fun t =>
      Attested (s.putCal cls { s.calNow cls with budget := (s.calNow cls).budget - r.cost, last := b }) t r) := by
  have he := calendarRelease_eq runs day mine low going
  rw [head] at he
  dsimp only at he
  rw [if_neg (by omega)] at he
  have noted := State.putCal_keeps (Within.refl _) cls { s.calNow cls with budget := (s.calNow cls).budget - r.cost, last := b } (.refl s)
  exact completes_keeps he (State.release_keeps (Within.refl _) r (noted.mono rfl)) (State.release_attest (noted.inv inv) op)

end

/-! ### A SHARED minute (R294) -/

/-- The scheduler as it enters a SHARED minute with its quota. -/
def SchSt.entered (x : SchSt) (minute quota : Nat) : SchSt := { x with sharedMinute := minute, sharedBudget := quota, sharedStopped := false, sharedFirst := false }

/-- The scheduler as it serves a class in turn. -/
def SchSt.served (x : SchSt) (cls cost : Nat) : SchSt := { x with sharedBudget := x.sharedBudget - cost, sharedLast := cls, sharedFirst := true }

theorem sharedRelease_eq (shared : s.owner = Owner.shared) (quota : s.fld Reg.schCfg 19 0 ≠ 0) (enters : s.sch.sharedMinute ≠ s.minutes)
    (turn : ((List.range 24).map (fun i => (s.sch.sharedLast + 1 + i) % 24)).find? (fun c => !s.isolated c && !(s.ready c).isEmpty) = some cls)
    (head : s.headAfter cls (s.cal cls).last = some (b, r)) :
    exec .sharedRelease s = .next ((({ s with sch := (s.sch.entered s.minutes (s.fld Reg.schCfg 19 0)).served cls r.cost } : State).putCal cls { s.cal cls with last := b }).release r) := by
  let u : State := { s with sch := s.sch.entered s.minutes (s.fld Reg.schCfg 19 0) }
  have turn' : ((List.range 24).map (fun i => (u.sch.sharedLast + 1 + i) % 24)).find? (fun c => !u.isolated c && !(u.ready c).isEmpty) = some cls := turn
  have head' : u.headAfter cls (u.cal cls).last = some (b, r) := head
  show (if !s.dispatching ∨ s.mode = 3 ∨ s.owner ≠ Owner.shared ∨ s.fld Reg.schCfg 19 0 = 0 then _ else _) = _
  rw [if_neg (by simp [runs, day, shared, quota]), if_neg enters]
  show (match ((List.range 24).map (fun i => (u.sch.sharedLast + 1 + i) % 24)).find? (fun c => !u.isolated c && !(u.ready c).isEmpty) with | none => _ | some c => _) = _
  rw [turn']
  show (match u.headAfter cls (u.cal cls).last with | none => _ | some (b, r) => _) = _
  rw [head']
  exact if_neg fun dear => Bool.false_ne_true dear.2

end

/-- Settles O45: what each release answers, and for an ATTEST what it leaves. -/
theorem calendarsReleaseWithinTheirBudget : Obligations.CalendarsReleaseWithinTheirBudget := by
  unfold Obligations.CalendarsReleaseWithinTheirBudget
  intro s inv runs day
  refine ⟨fun cls mine low going => ⟨calendarRelease_none runs day mine low going, fun b r head => ⟨calendarRelease_stops runs day mine low going head, fun within op => ?_⟩⟩,
    fun cls b r shared quota enters turn head op => ?_⟩
  · refine (calendarRelease_attest runs day mine low going inv head within op).imp fun t h => ?_
    obtain ⟨aggs, sch⟩ := h.sch
    refine ⟨?_, (congrArg SchSt.held sch :), h.waiting, h.status, (congrArg SchSt.runs sch :)⟩
    rw [sch]
    exact tabGet_tabPut_same ..
  · have he := sharedRelease_eq runs day shared quota enters turn head
    have served := State.putCal_keeps (m := [.sch]) (Within.refl _) cls { s.cal cls with last := b } (Keeps.putSch (Within.refl _) (.refl s) ((s.sch.entered s.minutes (s.fld Reg.schCfg 19 0)).served cls r.cost))
    obtain ⟨⟨aggs, sch⟩, waiting, status⟩ := State.release_attest (served.inv inv) op
    refine completes_keeps he (State.release_keeps (Within.refl _) r (served.mono rfl)) ?_
    refine ⟨(congrArg SchSt.sharedBudget sch :), (congrArg SchSt.sharedLast sch :), (congrArg SchSt.sharedFirst sch :), (congrArg SchSt.sharedMinute sch :), ?_,
      (congrArg SchSt.held sch :), waiting, status, (congrArg SchSt.runs sch :)⟩
    rw [sch]
    exact tabGet_tabPut_same ..

end Sys2Proof.Machine
end

section
/-!
Remote memory: a request on a ring let through to its region, what a read of the flat range answers and what a write leaves there (R284, R285, R290, R291).
-/

namespace Sys2Proof.Machine

open Sys2Proof

/-! ### States alike in all that a read of the flat range looks at -/

/-- Another scheduler, other queue pairs, other evidence and other running counts. -/
def State.beside (s : State) (sch : SchSt) (que : QueSt) (hlt : HltSt) (run : List (Nat × Nat)) : State :=
  { s with sch := sch, que := que, hlt := hlt, regs := { s.regs with run := run } }

section
variable (s : State) (sch : SchSt) (que : QueSt) (hlt : HltSt) (run : List (Nat × Nat))

theorem State.beside_nodeByte : (s.beside sch que hlt run).nodeByte = s.nodeByte := by
  have fld : (s.beside sch que hlt run).fld = s.fld := rfl
  have live64 : (s.beside sch que hlt run).live64 = s.live64 := rfl
  have seqTable : (s.beside sch que hlt run).seqTableByte = s.seqTableByte := rfl
  have key : (s.beside sch que hlt run).keyBytes = s.keyBytes := rfl
  have place : (s.beside sch que hlt run).placeByte = s.placeByte := rfl
  have mat : (s.beside sch que hlt run).mat = s.mat := rfl
  have pgw : (s.beside sch que hlt run).pgw = s.pgw := rfl
  funext a
  unfold State.nodeByte
  rw [fld, live64, seqTable, key, place, mat, pgw]

theorem State.beside_readBytes : (s.beside sch que hlt run).readBytes = s.readBytes := by
  have extent : (s.beside sch que hlt run).extentAt = s.extentAt := rfl
  have guarded : (s.beside sch que hlt run).protectedAt = s.protectedAt := rfl
  have peek : (s.beside sch que hlt run).peek = s.peek := rfl
  have serial : (s.beside sch que hlt run).freeCtr = s.freeCtr := rfl
  funext a n
  unfold State.readBytes State.readFlat
  rw [extent, guarded, peek, serial, State.beside_nodeByte]

end

/-- Between s and t a request has been taken in and charged: no reply, no held request and no region is another. -/
structure TakenIn (s t : State) : Prop where
  eq : t = s.beside t.sch t.que t.hlt t.regs.run
  replies : t.sch.replies = s.sch.replies
  held : t.sch.held = s.sch.held
  regions : t.que.regions = s.que.regions

theorem TakenIn.trans {s t u : State} (h : TakenIn s t) (g : TakenIn t u) : TakenIn s u where
  eq := by
    have outer := g.eq
    rw [h.eq] at outer
    exact outer
  replies := g.replies.trans h.replies
  held := g.held.trans h.held
  regions := g.regions.trans h.regions

section
variable {s u : State} (h : TakenIn s u)
include h

theorem TakenIn.mem : u.mem = s.mem := by rw [h.eq]; rfl

theorem TakenIn.readBytes : u.readBytes = s.readBytes := by rw [h.eq, State.beside_readBytes]

theorem TakenIn.firstCheck : u.firstCheck = s.firstCheck := State.firstCheck_of_split (by rw [h.eq]; rfl)

theorem TakenIn.firstSealed : u.firstSealed = s.firstSealed := State.firstSealed_of_same (by rw [h.eq]; rfl) h.mem

theorem TakenIn.codedAt : u.codedAt = s.codedAt := by rw [h.eq]; rfl

theorem TakenIn.quietAt {a n : Nat} (quiet : s.QuietAt a n) : u.QuietAt a n := by rw [h.eq]; exact quiet

theorem TakenIn.region : u.region = s.region := by
  funext part key op off len
  unfold State.region
  rw [h.regions]

end

/-! ### Accesses that wait for nothing (R168) -/

theorem State.passBank_quiet {s : State} {u n : Nat} (busy : (s.unit u).busy = false) (due : s.refreshDue u = false) : s.passBank u n = s := by
  simp [State.passBank, busy, due]

/-- The bank groups that the accesses to some bytes meet, each once for every access. -/
def groupsMet (a n : Nat) : List Nat :=
  ((List.range (ceilDiv (a % 64 + n) 64)).map (fun i => a / 64 * 64 + 64 * i)).filterMap (fun b => if b < tier0End then some (tier0Decode b).1 else none)

theorem State.QuietAt.unit {s : State} {a n u : Nat} (quiet : s.QuietAt a n) (hu : u ∈ groupsMet a n) : (s.unit u).busy = false ∧ s.refreshDue u = false := by
  obtain ⟨b, hb, met⟩ := List.mem_filterMap.mp hu
  obtain ⟨i, hi, rfl⟩ := List.mem_map.mp hb
  split at met
  case isTrue low =>
    obtain rfl := Option.some.inj met
    have inside : i < (a % 64 + n + 63) / 64 := List.mem_range.mp hi
    exact quiet _ (Nat.le_add_right ..) (by omega) low
  case isFalse => exact absurd met (by simp)

theorem State.passWindows_quiet {s : State} {a n : Nat} (quiet : s.QuietAt a n) : s.passWindows a n = s := by
  have each (us : List Nat) (f : Nat → Nat) (hus : ∀ u ∈ us, u ∈ groupsMet a n) : us.foldl (fun s u => s.passBank u (f u)) s = s := by
    induction us with
    | nil => rfl
    | cons u us ih =>
      obtain ⟨busy, due⟩ := quiet.unit (hus u List.mem_cons_self)
      rw [List.foldl_cons, State.passBank_quiet busy due]
      exact ih fun v hv => hus v (List.mem_cons_of_mem _ hv)
  exact each _ _ fun u hu => List.mem_dedup.mp hu

/-! ### From the ring to the region (R78, R290, R291) -/

/-- Where remote memory is read or written. -/
def Op.isRemote (op : Op) : Prop := op = .rread ∨ op = .rwrite ∨ op = .rwriteTiles

theorem TakenIn.numbered (s : State) : TakenIn s s.numbered := ⟨rfl, rfl, rfl, rfl⟩

theorem TakenIn.putQp (s : State) (k : Nat) (q : Qp) : TakenIn s (s.putQp k q) := ⟨rfl, rfl, rfl, rfl⟩

theorem TakenIn.metered (s : State) (q : Qp) (k : Nat) : TakenIn s (s.metered q k) := ⟨rfl, rfl, rfl, rfl⟩

theorem TakenIn.reserved (s : State) (n : Nat) : TakenIn s { s with hlt := { s.hlt with evReserved := n } } := ⟨rfl, rfl, rfl, rfl⟩

section
variable {s : State} {r : Req} {op : Op} {k part : Nat} (remote : op.isRemote)
include remote

theorem Op.isRemote.away : s.awayHome r op = none := by
  have homed : op.homed = false := by rcases remote with rfl | rfl | rfl <;> rfl
  rw [State.awayHome, homed]
  exact if_neg fun away => Bool.false_ne_true away.1

/-- A request of remote memory that the last checks let through goes to its region at once, with an evidence entry. -/
theorem State.admitReq_remote {take : State → State} (charges : ∀ u, TakenIn u (take u)) (mode : s.mode ≠ 3) (free : s.evidenceFree r.cls = true) (data : dataFault op r.msg = none) :
    ∃ u, TakenIn s u ∧ s.admitReq r op k part take = u.remote { r with evEntry := true } op part := by
  refine ⟨_, (charges s).trans (TakenIn.reserved (take s) ((take s).hlt.evReserved + 1)), ?_⟩
  unfold State.admitReq
  simp only [mode, remote.away, data, false_and, if_false, Option.isNone_none, Bool.true_and, free, Bool.not_true, Bool.and_false, Bool.false_eq_true]
  rcases remote with rfl | rfl | rfl <;> rfl

/-- A green request of remote memory that its tenant's aggregate and the pool have room for is admitted, and charged as it is. -/
theorem State.admission_remote {q : Qp} (gen : s.mapOk (Msg.mapGen r.msg) = true) (part : q.part ≠ sysPart) (green : (q.refill s.minutes).colour (r.cost * 256) = .green)
    (fits : r.cost * 256 ≤ (s.agg q.part).content) (short : (s.agg q.part).queued + r.cost ≤ s.fld (Reg.schTenantCfg + 16 * q.part + 8) 19 0)
    (pool : (s.metered q k).poolFree r.cls = true) (mode : s.mode ≠ 3) (evidence : (s.metered q k).evidenceFree r.cls = true) (data : dataFault op r.msg = none) :
    ∃ u, TakenIn s u ∧ s.admission r op q k = u.remote { r with evEntry := true } op q.part := by
  have met : ∃ take : State → State, (∀ u, TakenIn u (take u)) ∧ s.admission r op q k = (s.metered q k).admitReq r op k q.part take := by
    have room : (s.agg q.part).queued + r.cost ≤ (s.metered q k).fld (Reg.schTenantCfg + 16 * q.part + 8) 19 0 := short
    unfold State.metered at room pool ⊢
    unfold State.admission
    simp only [gen, remote.away, green, part, Bool.not_true, Bool.false_eq_true, Option.isSome_none, and_false, or_self, if_false, fits, room, decide_true, Bool.and_self,
      show (Colour.green != Colour.yellow) = true from rfl, Bool.true_or, pool]
    refine ⟨_, ?_, rfl⟩
    exact fun u => ⟨rfl, rfl, rfl, rfl⟩
  obtain ⟨take, charges, eq⟩ := met
  obtain ⟨u, taken, admitted⟩ := State.admitReq_remote (s := s.metered q k) remote (k := k) (part := q.part) charges mode evidence data
  exact ⟨u, (TakenIn.metered s q k).trans taken, eq.trans admitted⟩

/-- What a tenant's message on a ring has become once every check has let it through to its region. -/
theorem State.arrive_remote {arr : Arrival} {m : List Byte} {q : Qp} (h : RingAdmits s arr m op q) :
    ∃ u r, TakenIn s u ∧ r.rid = s.sch.nextRid ∧ r.msg = m ∧ r.arr = arr ∧ s.arrive arr m = u.remote r op q.part := by
  obtain ⟨ring, hop, hs, attest, ingress, tenant, part, gen, mode, data, green, fits, short, pool, evidence, -⟩ := h
  obtain ⟨_, via, hq, _⟩ := id ring
  let k := ringBase + arr.ctx
  let v := (s.putQp k q.took).numbered
  have took : FewerParties s (s.putQp k q.took) := fewerParties_putQp hq rfl rfl
  have refilled : FewerParties (s.putQp k q.took) (v.metered q.took k) := fewerParties_mapQp (s := s.putQp k q.took) (tabGet_tabPut_same _ _ _) rfl rfl
  rw [Nat.mul_comm] at green fits
  obtain ⟨u, taken, admitted⟩ := State.admission_remote (s := v) (r := s.reqOf arr m op q.cls q.stream) (k := k) remote (q := q.took) gen part green fits short
    (State.poolFree_of_fewer (took.trans refilled) rfl rfl pool) mode (State.evidenceFree_of_fewer (took.trans refilled) rfl rfl rfl evidence) data
  refine ⟨u, { s.reqOf arr m op q.cls q.stream with evEntry := true }, ((TakenIn.putQp s k q.took).trans (.numbered _)).trans taken, rfl, rfl, rfl, ?_⟩
  rw [State.arrive_ring ring, State.ingress_ring (s := s.putQp k q.took) (q := q.took) via hop hs attest ingress tenant]
  exact admitted

end

/-- A reply of remote memory joins those waiting. -/
theorem State.remoteReply_joins {s : State} {r : Req} {status detail : Nat} {body : List Byte} (h : status ≠ Status.staleMap) :
    ∃ x, s.remoteReply r status detail body = { s with sch := { s.sch with replies := s.sch.replies ++ [x] } } ∧
      x.req = r ∧ x.status = status ∧ x.detail = detail ∧ x.length = 0 ∧ x.body = body :=
  ⟨_, State.reply_of_status h, rfl, rfl, rfl, rfl, rfl⟩

/-! ### Reads (R284, R285) -/

section
variable {s u : State} (h : TakenIn s u) {r : Req} {part : Nat} {g : Region} {a len : Nat} (base : a = g.base + Remote.off r.msg) (length : len = Remote.len r.msg)
include h

/-- What the codes of some bytes found of the blocks that were struck. -/
theorem TakenIn.eccOver {ecc : List (Nat × EccOutcome)} : u.fresh.2.eccOver a len ecc =
    let struck := ecc.filter (fun x => decide (x.1 < len) && s.codedAt (a + x.1))
    (struck.foldl (fun s x => s.eccScore (a + x.1) x.2) u.fresh.2, (struck.find? (fun x => x.2 == .uncorrectable)).map Prod.fst) := by
  have coded : u.fresh.2.codedAt = s.codedAt := h.codedAt
  unfold State.eccOver
  rw [coded]

include base length

theorem TakenIn.remote_read (region : s.region part (Remote.key r.msg) .rread (Remote.off r.msg) len = .ok g) (quiet : s.QuietAt a len) (check : s.firstCheck a len = none) :
    let struck := r.arr.ecc.filter (fun x => decide (x.1 < len) && s.codedAt (a + x.1))
    let t := struck.foldl (fun s x => s.eccScore (a + x.1) x.2) u.fresh.2
    u.remote r .rread part = (struck.find? (fun x => x.2 == .uncorrectable)).elim (t.remoteReply r Status.ok 0 (s.readBytes a len)) (fun x => t.remoteReply r Status.addressError x.1 []) := by
  subst base length
  unfold State.remote
  dsimp only
  rw [h.region, region]
  dsimp only
  rw [State.passWindows_quiet (h.quietAt quiet), h.firstCheck, check, h.readBytes, h.eccOver]
  dsimp only
  cases List.find? _ _ with
  | none => rfl
  | some x => rfl

/-! ### Writes (R158, R161, R284) -/

theorem TakenIn.remote_write (mirror : g.mirror = 0xFFFF) (region : s.region part (Remote.key r.msg) .rwrite (Remote.off r.msg) len = .ok g) (quiet : s.QuietAt a len)
    (check : s.firstCheck a (slice r.msg 72 len).length = none) (bare : s.firstSealed a (slice r.msg 72 len).length = none) :
    u.remote r .rwrite part = (u.pokeAll (fun i => a + i) (slice r.msg 72 len)).remoteReply r Status.ok 0 [] := by
  subst base length
  unfold State.remote
  dsimp only
  rw [h.region, region]
  dsimp only
  rw [State.passWindows_quiet (h.quietAt quiet), State.writeFlat, h.firstCheck, check, h.firstSealed, bare]
  dsimp only
  rw [if_neg (by decide), State.mirrorWrite, if_pos (.inl mirror)]

theorem TakenIn.remote_tiles (mirror : g.mirror = 0xFFFF) (region : s.region part (Remote.key r.msg) .rwriteTiles (Remote.off r.msg) len = .ok g) (quiet : s.QuietAt a len)
    (check : s.firstCheck a len = none) (bare : s.firstSealed a len = none) (good : badTile (r.msg.drop 72) (fmtTile (Remote.fmt r.msg)) (len / fmtTile (Remote.fmt r.msg)) = none) :
    u.remote r .rwriteTiles part = (u.pokeAll (fun i => a + i) ((r.msg.drop 72).take len)).remoteReply r Status.ok 0 [] := by
  subst base length
  unfold State.remote
  dsimp only
  rw [h.region, region]
  dsimp only
  rw [State.passWindows_quiet (h.quietAt quiet), h.firstCheck, check, h.firstSealed, bare, good]
  dsimp only
  rw [State.mirrorWrite, if_pos (.inl mirror)]

end

/-- What a write of remote memory leaves: its bytes, and its reply. -/
structure Lands (s t : State) (rid a : Nat) (data : List Byte) : Prop where
  bytes : ∀ x, t.peek x = if a ≤ x ∧ x < a + data.length then data.getD (x - a) 0 else s.peek x
  reply : ∃ x, t.sch.replies = s.sch.replies ++ [x] ∧ x.req.rid = rid ∧ x.status = Status.ok
  held : t.sch.held = s.sch.held

theorem TakenIn.lands {s u : State} (inv : s.Inv) (h : TakenIn s u) (r : Req) (a : Nat) (data : List Byte) :
    Lands s ((u.pokeAll (fun i => a + i) data).remoteReply r Status.ok 0 []) r.rid a data := by
  have sch : (u.pokeAll (fun i => a + i) data).sch = u.sch := (State.pokeAll_keeps (Within.refl _) _ _ (.refl u)).same .sch (by decide)
  have rise : keysRise u.mem.flat = true := h.mem ▸ inv.flatRise
  have before : u.peek = s.peek := by rw [h.eq]; rfl
  obtain ⟨x, eq, req, status, -⟩ := State.remoteReply_joins (s := u.pokeAll (fun i => a + i) data) (r := r) (detail := 0) (body := []) (by decide : Status.ok ≠ Status.staleMap)
  rw [eq]
  refine ⟨fun y => ?_, ⟨x, ?_, congrArg Req.rid req, status⟩, (congrArg SchSt.held sch).trans h.held⟩
  · rw [← before]
    exact State.peek_pokeAll rise a data y
  · show (u.pokeAll (fun i => a + i) data).sch.replies ++ [x] = _
    rw [sch, h.replies]

/-! ### The rows of remote memory -/

/-- A row of the table takes in the messages of its own kind. -/
theorem State.requestRow_own {m : List Byte} {n : Nat} (opcode : Msg.opcode m = n) (s : State) (arr : Arrival) : s.requestRow (Msg.opcode m == n) arr m = s.arrive arr m :=
  if_pos (beq_iff_eq.mpr opcode)

section
variable {s : State} {arr : Arrival} {m : List Byte} {q : Qp} {g : Region} {a len : Nat} (base : a = g.base + Remote.off m) (length : len = Remote.len m)
include base length

theorem rread_ok (opcode : Msg.opcode m = 0x10) (admits : RingAdmits s arr m .rread q) (region : s.region q.part (Remote.key m) .rread (Remote.off m) len = .ok g)
    (quiet : s.QuietAt a len) (check : s.firstCheck a len = none) (clean : arr.ecc.filter (fun x => decide (x.1 < len) && s.codedAt (a + x.1)) = []) :
    Completes (.rread arr m) s (partsOf (.rread arr m)) (fun t =>
      (∃ x, t.sch.replies = s.sch.replies ++ [x] ∧ x.req.rid = s.sch.nextRid ∧ x.req.msg = m ∧ x.status = Status.ok ∧ x.length = 0 ∧ x.body = s.readBytes a len) ∧
      t.mem = s.mem ∧ t.sch.held = s.sch.held) := by
  obtain ⟨u, r, taken, rid, rfl, rfl, arrived⟩ := State.arrive_remote (.inl rfl) admits
  have read := taken.remote_read base length region quiet check
  rw [clean] at read
  have he : exec (.rread r.arr r.msg) s = .next (u.fresh.2.remoteReply r Status.ok 0 (s.readBytes a len)) :=
    congrArg Host.Outcome.next ((State.requestRow_own opcode s r.arr).trans (arrived.trans read))
  obtain ⟨x, eq, rfl, status, -, none, body⟩ := State.remoteReply_joins (s := u.fresh.2) (r := r) (detail := 0) (body := s.readBytes a len) (by decide : Status.ok ≠ Status.staleMap)
  rw [eq] at he
  exact completes_of he (execRread_keeps (Within.refl _) _ _ (.refl s)) ⟨⟨x, congrArg (· ++ [x]) taken.replies, rid, rfl, status, none, body⟩, taken.mem, taken.held⟩

theorem rread_error (opcode : Msg.opcode m = 0x10) (admits : RingAdmits s arr m .rread q) (region : s.region q.part (Remote.key m) .rread (Remote.off m) len = .ok g)
    (quiet : s.QuietAt a len) (check : s.firstCheck a len = none) {y : Nat × EccOutcome}
    (hit : (arr.ecc.filter (fun x => decide (x.1 < len) && s.codedAt (a + x.1))).find? (fun x => x.2 == .uncorrectable) = some y) :
    Completes (.rread arr m) s (partsOf (.rread arr m)) (fun t =>
      ∃ x, t.sch.replies.getLast? = some x ∧ x.req.rid = s.sch.nextRid ∧ x.req.msg = m ∧ x.status = Status.addressError ∧ x.detail = y.1 ∧ x.body = []) := by
  obtain ⟨u, r, taken, rid, rfl, rfl, arrived⟩ := State.arrive_remote (.inl rfl) admits
  have read := taken.remote_read base length region quiet check
  dsimp only at read
  rw [hit, Option.elim_some] at read
  generalize List.foldl _ _ _ = v at read
  have he : exec (.rread r.arr r.msg) s = .next (v.remoteReply r Status.addressError y.1 []) :=
    congrArg Host.Outcome.next ((State.requestRow_own opcode s r.arr).trans (arrived.trans read))
  obtain ⟨x, eq, rfl, status, detail, -, body⟩ := State.remoteReply_joins (s := v) (r := r) (detail := y.1) (body := []) (by decide : Status.addressError ≠ Status.staleMap)
  rw [eq] at he
  exact completes_of he (execRread_keeps (Within.refl _) _ _ (.refl s)) ⟨x, List.getLast?_concat .., rid, rfl, status, detail, body⟩

variable (inv : s.Inv) (mirror : g.mirror = 0xFFFF)
include inv mirror

theorem rwrite_lands (opcode : Msg.opcode m = 0x11) (admits : RingAdmits s arr m .rwrite q) (region : s.region q.part (Remote.key m) .rwrite (Remote.off m) len = .ok g)
    (quiet : s.QuietAt a len) (check : s.firstCheck a (slice m 72 len).length = none) (bare : s.firstSealed a (slice m 72 len).length = none) :
    Completes (.rwrite arr m) s (partsOf (.rwrite arr m)) (fun t => Lands s t s.sch.nextRid a (slice m 72 len)) := by
  obtain ⟨u, r, taken, rid, rfl, rfl, arrived⟩ := State.arrive_remote (.inr (.inl rfl)) admits
  have he : exec (.rwrite r.arr r.msg) s = .next (s.arrive r.arr r.msg) := congrArg Host.Outcome.next (State.requestRow_own opcode s r.arr)
  rw [arrived, taken.remote_write base length mirror region quiet check bare] at he
  exact completes_of he (execRwrite_keeps (Within.refl _) _ _ (.refl s)) (rid ▸ taken.lands inv r a _)

theorem rwriteTiles_lands (opcode : Msg.opcode m = 0x12) (admits : RingAdmits s arr m .rwriteTiles q) (region : s.region q.part (Remote.key m) .rwriteTiles (Remote.off m) len = .ok g)
    (quiet : s.QuietAt a len) (check : s.firstCheck a len = none) (bare : s.firstSealed a len = none)
    (good : badTile (m.drop 72) (fmtTile (Remote.fmt m)) (len / fmtTile (Remote.fmt m)) = none) :
    Completes (.rwriteTiles arr m) s (partsOf (.rwriteTiles arr m)) (fun t => Lands s t s.sch.nextRid a ((m.drop 72).take len)) := by
  obtain ⟨u, r, taken, rid, rfl, rfl, arrived⟩ := State.arrive_remote (.inr (.inr rfl)) admits
  have he : exec (.rwriteTiles r.arr r.msg) s = .next (s.arrive r.arr r.msg) := congrArg Host.Outcome.next (State.requestRow_own opcode s r.arr)
  rw [arrived, taken.remote_tiles base length mirror region quiet check bare good] at he
  exact completes_of he (execRwriteTiles_keeps (Within.refl _) _ _ (.refl s)) (rid ▸ taken.lands inv r a _)

end

/-- Settles O33: each row reaches its region at once, and answers there. -/
theorem remoteAccessesReadAndWriteTheFlatRange : Obligations.RemoteAccessesReadAndWriteTheFlatRange := by
  unfold Obligations.RemoteAccessesReadAndWriteTheFlatRange
  refine ⟨?_, ?_⟩
  · intro s arr m q g _ opcode admits region a struck check quiet
    exact ⟨rread_ok rfl rfl opcode admits region quiet check, fun y => rread_error rfl rfl opcode admits region quiet check⟩
  · intro s arr m q g inv mirror a len lands
    have asStated {i : Instr} {data : List Byte} (done : Completes i s (partsOf i) (fun t => Lands s t s.sch.nextRid a data)) : lands i data :=
      done.imp fun t landed => ⟨landed.bytes, landed.reply, landed.held⟩
    exact ⟨fun opcode admits region quiet check bare => asStated (rwrite_lands rfl rfl inv mirror opcode admits region quiet check bare),
      fun opcode admits region quiet check bare good => asStated (rwriteTiles_lands rfl rfl inv mirror opcode admits region quiet check bare good)⟩

end Sys2Proof.Machine
end
